-- ==== Sys2Proof/Word.lean ====
section
/-! DEFINITION. The word types of the CX864 (R4, R5, R383): bytes, byte strings and the plain register widths. -/

namespace Sys2Proof

/-- One byte. -/
abbrev Byte := BitVec 8

/-- A byte string: the value of a DOMAIN or STR object, a frame payload, a record (R383). -/
abbrev Bytes := List Byte

/-- A 16-bit word: indices, U16 objects. -/
abbrev W16 := BitVec 16

/-- A 32-bit word: Lane registers, U32, I32 and F32 objects. -/
abbrev W32 := BitVec 32

/-- A 64-bit word: U64, I64 and F64 objects. -/
abbrev W64 := BitVec 64

end Sys2Proof
end

