-- ==== Sys2Proof/Syntax.lean ====
section
/-! DEFINITION. The commands of the CX864: one constructor for each row of spec/opcode_table.json, with the operands the
outside world gives the step, and the types of those operands. Operand types hold only what enters the block
(frames, words on wires, requests); what a step computes is the machine's (Sys2Proof/Machine). -/

namespace Sys2Proof

/-- The two Wadra rings (R57). -/
inductive RingId | m | p
deriving DecidableEq, Repr

/-- The two channels of a ring: A flows east, B flows west (R60, R61). -/
inductive Channel | a | b
deriving DecidableEq, Repr

/-- The two ports of a station on a ring (R58). -/
inductive Side | east | west
deriving DecidableEq, Repr

/-- A station of a ring: this CX864 as head unit, or the Wadra node at an address. -/
inductive Station
  | head (ring : RingId)
  | node (ring : RingId) (addr : BitVec 10)
deriving DecidableEq, Repr

/-- Who sends a dictionary request (R391). -/
inductive Requester
  | pcie
  | spi
  | session (ip : W32) (port : W16)
  | node (ring : RingId) (addr : BitVec 10)
  | planner (p : Fin 16)
  | partner
deriving DecidableEq, Repr

/-- The two host windows (R408). -/
inductive HostPath | pcie | spi
deriving DecidableEq, Repr

/-- A TIME96 value (R30). -/
structure Time96 where
  sec : BitVec 48
  nsec : W32
  frac : W16
deriving DecidableEq, Repr

/-- A dictionary message (R395): header fields and data. -/
structure DictMsg where
  op : Byte
  flags : Byte
  tid : W16
  index : W16
  sub : Byte
  dest : BitVec 10
  param : W32
  data : Bytes
deriving DecidableEq, Repr

/-- A valid Wadra frame (R76): header fields and payload. -/
structure Frame where
  ring : RingId
  ch : Channel
  type : BitVec 4
  addr : BitVec 10
  slot : BitVec 12
  seq : W32
  age : Byte
  flags : Byte
  mpos : W16
  payload : Bytes
deriving DecidableEq, Repr

/-- Frame arrivals on the ports of R41. -/
inductive Port | me | mw | pe | pw | rl | sv
deriving DecidableEq, Repr

/-- A loss of synchronisation at a station: by a SYNC missing in two matrices (R97), else in its cycles (R105). -/
structure SyncLossAt where
  st : Station
  matrices : Bool
deriving DecidableEq, Repr

/-- A write of NODE_CTRL: the node's address and the value (R100). -/
structure NodeCtrl where
  addr : BitVec 10
  value : Byte
deriving DecidableEq, Repr

/-- Where a Wadra frame arrives: at a port of this device, or at a port of a node. -/
inductive Ingress
  | own (port : Port)
  | node (ring : RingId) (addr : BitVec 10) (side : Side)
deriving DecidableEq, Repr

/-- The PLLs of R465. -/
inductive Pll | k | s | n | b | p | x
deriving DecidableEq, Repr

/-- The supply rails of R460. -/
inductive Rail | vdda1v8 | vddio1v8 | vddio3v3 | vddSafe | vddCore | vddDdr | vddqDdr
deriving DecidableEq, Repr

/-- The two clock watchers of R467, named by the clock each runs on. -/
inductive Watcher | onRefclk | onGuard
deriving DecidableEq, Repr

/-- The two safety channels of R311. -/
inductive SafeChan | p | h
deriving DecidableEq, Repr

/-- Why the device is reset (R504, R480). -/
inductive ResetCause
  | pulse (ns : Nat)
  | internalPor
deriving DecidableEq, Repr

/-- The messages of IEEE 1588 that the slave-only clock of R45 uses. -/
inductive PtpKind
  | syncOneStep | syncTwoStep | followUp | delayResp | pdelayReq | pdelayResp | pdelayRespFollowUp | announce | management
  | signalling
deriving DecidableEq, Repr

/-- What an Announce message says of its grandmaster, beside the identity: the fields of the dataset comparison, and the number of
boundary clocks between. -/
structure PtpDataset where
  priority1 : Byte
  clockClass : Byte
  accuracy : Byte
  variance : W16
  priority2 : Byte
  steps : W16
deriving DecidableEq, Repr

/-- A PTP message with the stamps taken for it: `remote` is the origin or receive time the message carries, `egress`
the local egress stamp of the Delay_Req or Pdelay_Req it answers or of the Pdelay_Resp that answers it, `ingress` its own ingress
stamp. `sender` and `senderPort` are the identity of the port that sent it; `ieee8023` tells the transport. -/
structure PtpMsg where
  kind : PtpKind
  ieee8023 : Bool
  domain : Byte
  sender : W64
  senderPort : W16
  seqId : W16
  logInterval : BitVec 8
  remote : Time96
  egress : Time96
  ingress : Time96
  software : Bool
  gmId : W64
  utcOffset : W16
  dataset : PtpDataset
deriving DecidableEq, Repr

/-- One partner time exchange (R46): t1, t4 local, t2, t3 at the partner. -/
structure Exchange where
  number : W16
  t1 : Time96
  t2 : Time96
  t3 : Time96
  t4 : Time96
  software : Bool
deriving DecidableEq, Repr

/-- What the partner reports over the redundancy link at a commit or a swap (R356, R378, R451). -/
structure PeerInfo where
  tierActive : Byte
  channelFault : Bool
  switchWord : W64
  fwMain : W32
  fwSafety : W32
  laneLib : W32
  userDigest : Bytes
deriving DecidableEq, Repr

/-- What the head sees in one occurrence of a NODE slot (R110). -/
inductive SlotSeen | nothing | mistimed | invalid | unfit | correct
deriving DecidableEq, Repr

/-- The target of a move descriptor: an arm, a closed group or an auxiliary axis (R138, R155, R297). -/
inductive MoveTarget
  | arm (a : Fin 8)
  | group (g : Fin 4)
  | axis (n : Fin 16)
deriving DecidableEq, Repr

/-- A CX864 or node request to another station that awaits its response (R403). -/
structure OutKey where
  ring : RingId
  fromAddr : BitVec 10
  toAddr : BitVec 10
deriving DecidableEq, Repr

/-- Register fields of an R-format Lane word (R256): RD, RS, RT and the S bit. -/
structure LaneR where
  rd : BitVec 6
  rs : BitVec 6
  rt : BitVec 6
  s : Bool
deriving DecidableEq, Repr

/-- Fields of an I-format Lane word (R256). -/
structure LaneI where
  rd : BitVec 6
  rs : BitVec 6
  s : Bool
  imm : BitVec 13
deriving DecidableEq, Repr

/-- Fields of an M-format Lane word (R256). -/
structure LaneM where
  rd : BitVec 6
  rb : BitVec 6
  mode : BitVec 2
  off : BitVec 12
deriving DecidableEq, Repr

/-- Fields of a B-format Lane word (R256). -/
structure LaneB where
  rd : BitVec 6
  imm : BitVec 20
deriving DecidableEq, Repr

/-- The two counts a claim watchdog can miss, and the entry to FAULT (R359). -/
inductive WdCause | fault | lateFeed | noStrobe
deriving DecidableEq, Repr

/-- The two heartbeat paths of R364. -/
inductive HbPath | link | ringM
deriving DecidableEq, Repr

/-- The two recorder rings (R428). -/
inductive RecRing | safety | general
deriving DecidableEq, Repr

/-- Who injects a conversion (R475). -/
inductive Injector | shedding | kerb
deriving DecidableEq, Repr

/-- The two burst domains of R469. -/
inductive Burst | m800 | m1000
deriving DecidableEq, Repr

/-- Hardware faults that DEVICE_FAULT_DETECTED reports (R25, R26). -/
inductive HwFault | boulevard | sramParity | lockstep
deriving DecidableEq, Repr

/-- Which periodic self-test completed (R312). -/
inductive TestUnit | sp | kerb
deriving DecidableEq, Repr

/-- The boot-flash images of R445 that a host writes (R449). -/
inductive ImgType | main | safety | library
deriving DecidableEq, Repr

/-- A token on its way to a port (R227). -/
structure Token where
  tag : W16
  late : Bool
  stale : Bool
  age : Byte
  data : Bytes
deriving DecidableEq, Repr

/-- The commands of the CX864, in the order of spec/opcode_table.json. -/
inductive Instr
  -- boot and reset (R29, R462, R465, R504)
  | porstNRelease (unitId : Bool) (swA swB : W32)
  | porstNAssert (cause : ResetCause)
  | vddSafeDetect (microvolt : Nat)
  | pllLock (pll : Pll)
  | bootComplete (failed : W64) (bootUs : W32) (testNo : W32)
  | dramEccDone
  -- cell time (R30 to R56)
  | timeTick
  | cycleStart
  | substituteCycleStart
  | timeSet (rq : Requester) (t : Time96)
  | timeIncWrite (rq : Requester) (v : W32)
  | phaseSlew (rq : Requester) (v : W64)
  | cellRefWrite (rq : Requester) (v : Byte)
  | ptpMessage (m : PtpMsg)
  | timeExchange (x : Exchange)
  | domUpdateTimeout (d : Fin 2)
  | domHoldoverExpiry (d : Fin 2)
  | clockWatchWindow (w : Watcher) (count : W16)
  | clockEdgeTimeout (w : Watcher)
  | clkRatioWindow (count : W32)
  | pllLockLoss (pll : Pll)
  -- device commands (R25, R421)
  | cfgOpen (rq : Requester)
  | cfgCommit (rq : Requester) (peer : Option PeerInfo)
  | cfgAbort (rq : Requester)
  | runEnable (rq : Requester)
  | holdReq (rq : Requester)
  | resume (rq : Requester)
  | stopReq (rq : Requester)
  | devReset (rq : Requester) (failed : W64)
  | svcEnter (rq : Requester)
  | svcLeave (rq : Requester)
  | plannedSwap (rq : Requester) (peer : Option PeerInfo)
  | detach (rq : Requester)
  | syncComplete
  | syncTimeout
  -- writes and access (R386 to R394)
  | objectWrite (rq : Requester) (index : W16) (sub : Byte) (data : Bytes)
  | writeApply
  | accUnlock (rq : Requester) (v : W32)
  | accLockoutExpiry (rq : Requester)
  | accVToken (rq : Requester) (token : Bytes)
  | tokenExpiry (rq : Requester)
  | accLock (rq : Requester) (v : Byte)
  -- dictionary messages (R395 to R406)
  | read (rq : Requester) (m : DictMsg)
  | write (rq : Requester) (m : DictMsg)
  | segRead (rq : Requester) (m : DictMsg)
  | segWrite (rq : Requester) (m : DictMsg)
  | desc (rq : Requester) (m : DictMsg)
  | cancel (rq : Requester) (m : DictMsg)
  | evtAck (ring : RingId) (addr : BitVec 10) (head : Bytes)
  | pending (k : OutKey) (tid : W16)
  | dictFinalResponse (k : OutKey) (m : DictMsg)
  | abort (k : OutKey) (tid : W16) (code : W32)
  | dictResponseTimeout (k : OutKey)
  | xferTimeout (rq : Requester)
  | serviceDatagram (ip : W32) (port dstPort : W16) (m : DictMsg)
  | arpRequest (targetIp senderIp : W32)
  | icmpEcho (srcIp dstIp : W32) (payload : Bytes)
  | sessionTimeout (ip : W32) (port : W16)
  -- host windows (R408 to R417)
  | doorbell (path : HostPath) (v : W32)
  | directWrite (path : HostPath) (offset : W16) (v : W32)
  | baseWordRead (rq : Requester) (offset : W16)
  | higherWordRead (rq : Requester) (offset : W16)
  | qwordRead (offset : W16)
  | spiRead (offset : W16) (words : Nat)
  | spiWrite (offset : W16) (bytes : Bytes)
  | spiStatus (count : Nat)
  | mailboxRead (rq : Requester) (index : W16) (sub : Byte)
  | queueRead (rq : Requester) (index : W16) (sub : Byte)
  -- Wadra frames (R59 to R127)
  | frameReceive (ingress : Ingress) (startOk : Bool) (bytes : Bytes) (endOk : Bool) (stamp : Time96) (software : Bool)
  | sync (st : Station) (port : Side) (f : Frame)
  | data (f : Frame) (stamp : Time96)
  | repeat (f : Frame) (stamp : Time96)
  | null (f : Frame)
  | start (st : Station) (f : Frame)
  | event (f : Frame)
  | hb (path : HbPath) (f : Frame)
  | delayRequest (st : Station) (f : Frame) (ingress egress : Time96)
  | delayResponse (f : Frame) (t4 : Time96) (software : Bool)
  | delayRound (ring : RingId)
  | safetyCommand (ring : RingId) (addr : BitVec 10) (f : Frame) (ownCycle : W32)
  | safetyStatus (f : Frame)
  | forwardedRequest (f : Frame)
  | forwardAck (f : Frame)
  | nodeStatusShare (f : Frame)
  | slotOccurrence (ring : RingId) (slot : BitVec 12) (seen : SlotSeen)
  | rejoinHoldExpiry (ring : RingId) (addr : BitVec 10)
  | arbInsert (st : Station) (ch : Channel) (offsetNs : Nat) (idle : Bool) (f : Frame)
  | arbLastDiscard (st : Station) (ch : Channel)
  | guardCut (st : Station) (side : Side)
  | coldstartListenTimeout (st : Station)
  | coldstartComplete (st : Station)
  | backoffElapsed (st : Station)
  | syncLoss (loss : SyncLossAt)
  | nodeDelayWrite (ring : RingId) (addr : BitVec 10) (value : Bytes)
  | nodeAssignWrite (ring : RingId) (addr : BitVec 10) (value : Bytes)
  | exclude (ring : RingId) (ctrl : NodeCtrl)
  | linkLoss (st : Station) (side : Side)
  | linkUp (st : Station) (side : Side)
  | breakPatternTimeout (ring : RingId)
  | eventResend (ring : RingId) (addr : BitVec 10)
  -- motion (R128 to R163)
  | moveJoint (rq : Requester) (t : MoveTarget) (d : Bytes)
  | moveLinear (rq : Requester) (t : MoveTarget) (d : Bytes)
  | moveCircular (rq : Requester) (t : MoveTarget) (d : Bytes)
  | moveSegment (rq : Requester) (t : MoveTarget) (d : Bytes)
  | moveCam (rq : Requester) (t : MoveTarget) (d : Bytes)
  | moveStop (rq : Requester) (t : MoveTarget) (d : Bytes)
  | jogCmd (rq : Requester) (a : Fin 8) (d : Bytes)
  | jogTimeout (a : Fin 8)
  | grpClose (rq : Requester) (g : Fin 4)
  | grpOpen (rq : Requester) (g : Fin 4)
  | segTableWrite (rq : Requester) (n : Fin 256) (d : Bytes)
  | camTableWrite (rq : Requester) (n : Fin 256) (d : Bytes)
  | hcSwitchOn (rq : Requester) (c : Fin 32)
  | hcSwitchOff (rq : Requester) (c : Fin 32)
  -- Square and solver (R164 to R225)
  | crReq (rq : Requester) (a : Fin 8) (mask : W32)
  | squareRun
  | sqLate
  | solve
  | solverLate
  -- Junction (R226 to R249)
  | tokenArrival (inst : Fin 1024) (port : Fin 8) (t : Token)
  | rxDeadlineSubstitution
  | releaseTick (tick : Nat)
  | taskStart (lane : Fin 64)
  | taskAbort (inst : Fin 1024)
  | dmaDone (lane : Fin 64)
  -- Lane instructions (R250 to R276)
  | add (l : Fin 64) (w : LaneR)
  | sub (l : Fin 64) (w : LaneR)
  | and (l : Fin 64) (w : LaneR)
  | or (l : Fin 64) (w : LaneR)
  | xor (l : Fin 64) (w : LaneR)
  | shl (l : Fin 64) (w : LaneR)
  | shr (l : Fin 64) (w : LaneR)
  | sar (l : Fin 64) (w : LaneR)
  | mul (l : Fin 64) (w : LaneR)
  | mulq (l : Fin 64) (w : LaneR)
  | abs (l : Fin 64) (w : LaneR)
  | norm (l : Fin 64) (w : LaneR)
  | exp (l : Fin 64) (w : LaneR)
  | mac (l : Fin 64) (w : LaneR)
  | msu (l : Fin 64) (w : LaneR)
  | movta (l : Fin 64) (w : LaneR)
  | mova (l : Fin 64) (w : LaneR)
  | expa (l : Fin 64) (w : LaneR)
  | fadd (l : Fin 64) (w : LaneR)
  | fsub (l : Fin 64) (w : LaneR)
  | fmul (l : Fin 64) (w : LaneR)
  | fma (l : Fin 64) (w : LaneR)
  | fms (l : Fin 64) (w : LaneR)
  | fdiv (l : Fin 64) (w : LaneR)
  | fsqrt (l : Fin 64) (w : LaneR)
  | fmin (l : Fin 64) (w : LaneR)
  | fmax (l : Fin 64) (w : LaneR)
  | fcmplt (l : Fin 64) (w : LaneR)
  | fnorm (l : Fin 64) (w : LaneR)
  | fexp (l : Fin 64) (w : LaneR)
  | ftoi (l : Fin 64) (w : LaneR)
  | itof (l : Fin 64) (w : LaneR)
  | dmago (l : Fin 64) (w : LaneR)
  | dmawt (l : Fin 64) (w : LaneR)
  | endTask (l : Fin 64) (w : LaneR)
  | addi (l : Fin 64) (w : LaneI)
  | shli (l : Fin 64) (w : LaneI)
  | sari (l : Fin 64) (w : LaneI)
  | andi (l : Fin 64) (w : LaneI)
  | rdcnt (l : Fin 64) (w : LaneI)
  | ld (l : Fin 64) (w : LaneM)
  | st (l : Fin 64) (w : LaneM)
  | ldh (l : Fin 64) (w : LaneM)
  | sth (l : Fin 64) (w : LaneM)
  | li (l : Fin 64) (w : LaneB)
  | lih (l : Fin 64) (w : LaneB)
  | bz (l : Fin 64) (w : LaneB)
  | bnz (l : Fin 64) (w : LaneB)
  | blt (l : Fin 64) (w : LaneB)
  | bloop (l : Fin 64) (w : LaneB)
  -- performance counters (R270 to R277)
  | cntSel (rq : Requester) (e : Fin 82) (sel : Bytes)
  | cntBlock (rq : Requester) (e : Fin 82)
  | cntClear (rq : Requester) (e : Fin 82) (v : Byte)
  | cntClearAll (rq : Requester) (v : Byte)
  -- feedback and axes (R278 to R310)
  | quadratureChange (c : Fin 16) (a b : Bool)
  | indexEvent (c : Fin 16)
  | absRequest (c : Fin 16) (datHigh : Bool)
  | absReading (c : Fin 16) (word trailing : Nat) (datHigh : Bool) (latch : Time96)
  | cmpValue (rq : Requester) (c : Fin 16) (u : Fin 2) (v : W64)
  | disarm (rq : Requester) (c : Fin 16) (u : Fin 2) (v : Byte)
  | cmpPulseEnd (c : Fin 16) (u : Fin 2)
  | emuEdge (e : Fin 8)
  | step (n : Fin 16) (ns : Nat)
  | axIdle (n : Fin 16)
  | axWakeDone (n : Fin 16)
  -- safety (R311 to R354)
  | safeScan (ch : SafeChan) (bits : BitVec 40)
  | discTimeExpiry (n : Fin 32)
  | safetyCheckTick (imageFromP imageFromH : Bool)
  | degradedTimerExpiry
  | armStopClear (a : Fin 8)
  | brakeCloseExpiry (a : Fin 8)
  | ss1TmaxExpiry (a : Fin 8)
  | brakeOpenExpiry (a : Fin 8)
  | brakeReleaseTimeout (a : Fin 8)
  | outputDarkTest (ch : SafeChan) (follows : W32)
  | readbackMismatch (ch : SafeChan) (out : Fin 32)
  | switchRead (ch : SafeChan) (word : W32)
  | connLost (n : Fin 64)
  | nodeSafetyWatchdog (ring : RingId) (addr : BitVec 10) (ch : SafeChan)
  | nodeSs1TimerExpiry (ring : RingId) (addr : BitVec 10)
  | safeBtCmd (rq : Requester) (arms : Byte)
  | btCompare
  | btDue (a : Fin 8)
  | btOverdue (a : Fin 8)
  | safeSetDl (rq : Requester) (d : Bytes)
  -- redundant pair (R355 to R382)
  | ilkPeerChange (level : Bool)
  | holdoffElapsed
  | claimWdTrip (cause : WdCause)
  | hbPathLoss (path : HbPath)
  | partnerAbsent
  | cmdUnacked
  | detachEffect
  | rejoinTakeup (peer : Option PeerInfo)
  | swapInstant
  | swapDue
  -- recorder, boot and security (R427 to R459)
  | recordRequest (source : BitVec 2) (type : W16) (software : Bool) (payload : Bytes)
  | flashProgramDone (r : RecRing) (ok : Bool)
  | sectorEraseDone (r : RecRing) (ok : Bool)
  | periodicSave
  | recClear (rq : Requester) (v : Byte)
  | recSafeSect (rq : Requester) (v : W32)
  | imageWrite (rq : Requester) (t : ImgType) (d : Bytes)
  | secConfirm (rq : Requester) (v : Byte)
  | secReboot (rq : Requester) (v : Byte)
  | secOwnerKey (rq : Requester) (d : Bytes)
  | secOwnerRevoke (rq : Requester) (v : Byte)
  | secDevLock (rq : Requester) (v : Byte)
  | attNonce (rq : Requester) (d : Bytes)
  | attReportDone
  | attCert (rq : Requester) (d : Bytes)
  -- monitor and Lamplighter (R460 to R488)
  | adcConversion (slot : Nat) (v : W16)
  | injectedConversion (slot : Nat) (v : W16)
  | shedReenable (rq : Requester) (v : Byte)
  | monCalCmd (rq : Requester) (v : Byte)
  | monCalPeriodExpiry
  | sliceCalibrationDone (offset gain : W16) (skew : Byte)
  | syscalStep1 (rq : Requester) (g : Byte) (microvolt : W32)
  | syscalStep2 (rq : Requester) (g : Byte) (microvolt : W32)
  | syscalAverageDone
  | monWindowEnd (c : Fin 32)
  | domainWake (d : Burst)
  | domainGateOff (d : Burst)
  -- test access port (R507 to R514)
  | extest (drive : List Bool)
  | idcode
  | samplePreload (capture : List Bool)
  | extestPulse (drive : List Bool)
  | extestTrain (drive : List Bool)
  | clamp
  | highz
  | sealRead
  | sealCapture (swA swB : Option W32)
  | bypass
  | testLogicReset
  | tstBscanEn (rq : Requester) (v : Byte)
  -- links, supplies and remaining events
  | codeGroupSyncAcquired (st : Station) (side : Side)
  | s4StandstillTimeout
  | spWatchdogExpiry
  | periodicSelfTest (u : TestUnit) (ok : Bool)
  | deviceFaultDetected (k : HwFault) (unit : Byte) (detail : W32)
  | powerOnDetector (rail : Rail) (atNs : Nat)
  | bootFlashOperationDone (ok : Bool)
  | indirectTransferDone
  | pmcWrap (e : Fin 82) (k : Fin 6)
deriving DecidableEq, Repr

end Sys2Proof
end

