-- ==== Sys2Proof/Decode.lean ====
section
/-! DEFINITION. The decoder of the opcode table. The CX864 is a block: no row of spec/opcode_table.json has bits, so no word
spells a command. The words of the Lane instructions (R256) are in Sys2Proof/Machine/LaneEnc.lean. -/

namespace Sys2Proof

/-- The command that a word of `nbits` bits spells by the bits of the opcode table: none, since no row has bits.
DESIGN CHOICE, log entry 1. -/
def decodeTableWord (_nbits _w : Nat) : Option Instr := none

end Sys2Proof
end

