-- ==== Sys2Proof/Machine/Bytes.lean ====
section
/-! DEFINITION. Byte strings: the little-endian layouts of R5, slices, padding, and the check codes of R81 and of the
safety messages. Every layout of the spec is read and written through these functions. -/

namespace Sys2Proof.Machine

/-- The `n` low bytes of `v`, least significant first (R5). -/
def le : Nat → Nat → Bytes
  | 0, _ => []
  | n + 1, v => BitVec.ofNat 8 v :: le n (v / 256)

/-- The number that a byte string holds, least significant byte first (R5). -/
def leVal : Bytes → Nat
  | [] => 0
  | b :: bs => b.toNat + 256 * leVal bs

/-- Two's complement coding of an integer in `n` bytes. -/
def leInt (n : Nat) (v : Int) : Bytes := le n (v % (256 ^ n : Nat)).toNat

/-- The two's complement value of a number of `n` bytes. -/
def signed (n : Nat) (v : Nat) : Int := if 2 * v ≥ 256 ^ n then (v : Int) - (256 ^ n : Nat) else v

/-- `n` zero bytes. -/
def zeros (n : Nat) : Bytes := List.replicate n 0

/-- `n` bytes from offset `off`, with zeros beyond the end. -/
def slice (b : Bytes) (off n : Nat) : Bytes :=
  let t := (b.drop off).take n
  t ++ zeros (n - t.length)

/-- The `n`-byte number at offset `off`; bytes beyond the end read as 0. -/
def num (b : Bytes) (off n : Nat) : Nat := leVal ((b.drop off).take n)

/-- The `n`-byte two's complement integer at offset `off`. -/
def int (b : Bytes) (off n : Nat) : Int := signed n (num b off n)

/-- The byte string with `v` in place of the bytes from `off`; positions beyond the end are dropped. -/
def patch (b : Bytes) (off : Nat) (v : Bytes) : Bytes :=
  b.take off ++ (v ++ b.drop (off + v.length)).take (b.length - off)

/-- The string cut or padded with zeros to `n` bytes. -/
def fit (n : Nat) (b : Bytes) : Bytes := slice b 0 n

/-- Records of `n` bytes each; a shorter remainder is dropped. `fuel` bounds the number of records. -/
def recordsAux (n : Nat) : Nat → Bytes → List Bytes
  | 0, _ => []
  | f + 1, b => if b.length < n ∨ n = 0 then [] else b.take n :: recordsAux n f (b.drop n)

/-- The records of `n` bytes that a byte string holds, in order. -/
def records (n : Nat) (b : Bytes) : List Bytes := recordsAux n b.length b

/-- Rounds `n` up to a multiple of `m`. -/
def roundUp (m n : Nat) : Nat := (n + m - 1) / m * m

/-- One bit of a number. -/
def bit (v : Nat) (i : Nat) : Bool := v.testBit i

/-- The number with bit `i` set or cleared. -/
def setBit (v : Nat) (i : Nat) (b : Bool) : Nat :=
  if b then v ||| (1 <<< i) else if v.testBit i then v - (1 <<< i) else v

/-- The field of `n` bits from bit `lo`. -/
def field (v lo n : Nat) : Nat := v / 2 ^ lo % 2 ^ n

/-- The bits set in `m` among the lowest `n`, ascending. -/
def bitsOf (n m : Nat) : List Nat := (List.range n).filter (fun i => m.testBit i)

/-- The number with exactly the bits of the list set. -/
def maskOf (l : List Nat) : Nat := l.foldl (fun m i => setBit m i true) 0

/-- 0 or 1. -/
def b01 (b : Bool) : Nat := if b then 1 else 0

/-- A saturating increment of a counter of `n` bits. -/
def satInc (n v : Nat) : Nat := if v + 1 < 2 ^ n then v + 1 else 2 ^ n - 1

/-- One byte of a reflected CRC of `w` bits with reflected polynomial `poly`. -/
def crcReflByte (poly : Nat) : Nat → Nat → Nat
  | 0, c => c
  | k + 1, c => crcReflByte poly k (if c.testBit 0 then (c / 2) ^^^ poly else c / 2)

/-- A reflected CRC over a byte string. -/
def crcRefl (poly : Nat) (b : Bytes) (init : Nat) : Nat :=
  b.foldl (fun c x => crcReflByte poly 8 (c ^^^ x.toNat)) init

/-- One byte of an unreflected CRC of `w` bits. -/
def crcMsbBits (w poly : Nat) : Nat → Nat → Nat
  | 0, c => c
  | k + 1, c =>
    crcMsbBits w poly k (if c.testBit (w - 1) then ((c * 2) % 2 ^ w) ^^^ poly else (c * 2) % 2 ^ w)

/-- An unreflected CRC of `w` bits over a byte string. -/
def crcMsb (w poly : Nat) (b : Bytes) (init : Nat) : Nat :=
  b.foldl (fun c x => crcMsbBits w poly 8 (c ^^^ (x.toNat * 2 ^ (w - 8)))) init

end Sys2Proof.Machine
end

