-- ==== Sys2Proof/Config.lean ====
section
/-! DEFINITION. What an implementation fixes and the values the spec leaves open: constants without a body, so that nothing
proved of the model can rest on one of them. Each is named in the assumption log. -/

namespace Sys2Proof

/-- A fresh value where the spec gives none; applied to the counter `State.free` (DESIGN CHOICE, log entry 5). -/
opaque Config.freeNat : Nat → Nat

/-- Bytes the spec leaves open (a record payload that no chapter defines), by the counter `State.free` (DESIGN CHOICE, log entry 5). -/
opaque Config.freeBytes : Nat → Bytes

/-- Serial number and NODE_TIMING of a Wadra node, by ring and address: each node's own, and open (R100). -/
opaque Config.nodeSerial : Nat → Nat → Nat
opaque Config.nodeTiming : Nat → Nat → Bytes

/-- SHAKE256 of a byte string, `n` bytes of output (FIPS 202, outside the spec; R442). UNVERIFIED, log entry 56. -/
opaque Config.shake256 : Bytes → Nat → Bytes

/-- Whether an SLH-DSA signature verifies: algorithm, context, public key, message, signature (FIPS 205; R443).
UNVERIFIED, log entry 56. -/
opaque Config.slhVerify : Nat → Bytes → Bytes → Bytes → Bytes → Bool

/-- The SLH-DSA signature of a message under a key seed: algorithm, context, seed, message (FIPS 205; R454).
UNVERIFIED, log entry 56. -/
opaque Config.slhSign : Nat → Bytes → Bytes → Bytes → Bytes

/-- PK.root of a key seed (FIPS 205; R452). UNVERIFIED, log entry 56. -/
opaque Config.slhPkRoot : Bytes → Bytes

/-- The rate of a time domain after an update, in 2^-32 units: rate before, predicted and measured offsets and the elapsed
cell time, 2^-16 ns. The spec gives no filter (R47, R56). DEDUCED, log entry 47. -/
opaque Config.domRate : Int → Int → Int → Nat → Int

/-- Units in the last place by which a binary32 result differs from the one that the model's order of operations gives: the spec
fixes an order without stating it (R129, R207; DEDUCED, log entry 30). By what the formula reads, and the number of its result. -/
opaque Config.lastBits : Bytes → Nat → Int

/-- Acceleration and jerk limits of a tool jog, binary32: R146 names tool limits of the safety set, which gives a speed only (DESIGN CHOICE, log
entry 34). -/
opaque Config.jogToolAcc : Nat
opaque Config.jogToolJerk : Nat

/-- Direction and contact point of a pair with a zone box at distance 0, for which R206 names none: components 0 to 2 of the
direction, 3 to 5 of the point, binary64, by what the pair reads (DEDUCED, log entry 31). -/
opaque Config.freeDir : Bytes → Nat → Nat

/-- A safety verdict within the rounding of its channel (DESIGN CHOICE, log entry 32): 0 a sphere of channel P (R327), 1 the reach capsule, 2 the
speed bound of channel H (R328); by what the check reads. -/
opaque Config.nearTie : Nat → Bytes → Bool

/-- Delay of link 0 between the two head units of a pair, by ring, ps: no exchange of R101 crosses it, and the spec does not say how
a unit finds it (R102, R124). DEDUCED, log entry 62. -/
opaque Config.link0 : Nat → Nat

/-- Entry address of a vendor kernel, in words: the vendor images are outside the spec (R268). DEDUCED, log entry 57. -/
opaque Config.vendorEntry : Nat → Nat

end Sys2Proof
end

