-- ==== Sys2Proof/Machine/ObjTable.lean ====
section
/-! DEFINITION. The object dictionary as a table (R4 to R9, R24, R54, R56, R88, R125, R130, R154, R155, R159, R192, R221, R225,
R248, R277, R306, R308, R310, R348, R381, R383, R394, R407, R420, R424, R426, R455, R457, R483, R486, R513): one row
for each object or family of objects, and the key under which the state holds each value (index × 256 + sub-index). -/

namespace Sys2Proof.Machine

/-- The types of R383. -/
inductive ObjType | bool | i8 | i16 | i32 | u8 | u16 | u32 | f32 | i64 | u64 | f64 | time96 | str | domain
deriving DecidableEq, Repr

/-- The access codes of R7. -/
inductive Acc | ro | rw | wo | rws | roW1c
deriving DecidableEq, Repr

/-- The levels of R8. -/
inductive Lvl | b | e | s | v
deriving DecidableEq, Repr

/-- The value range that an object's Meaning column gives; `f32` compares binary32 patterns as signed keys. -/
inductive Range
  | any
  | nat (lo hi : Nat)
  | int (lo hi : Int)
  | f32 (lo hi : Int)
  | oneOf (l : List Nat)
deriving DecidableEq, Repr

/-- One row: `cnt` indices from `idx` at distance `step`, `nsub` sub-indices from `sub`, and again at `sub2` when not 0. -/
structure ObjRow where
  idx : Nat
  cnt : Nat
  step : Nat
  sub : Nat
  nsub : Nat
  sub2 : Nat
  type : ObjType
  size : Nat
  acc : Acc
  lvl : Lvl
  dflt : Bytes
  writable : Nat
  w1c : Nat
  range : Range
deriving DecidableEq, Repr

/-- The key of an object. -/
def objKey (index sub : Nat) : Nat := index * 256 + sub

/-- Whether a row describes an object at an index. -/
def ObjRow.holds (r : ObjRow) (index : Nat) : Bool :=
  bif Nat.beq r.step 0 then Nat.beq index r.idx
  else Nat.ble r.idx index && Nat.beq ((index - r.idx) % r.step) 0 && Nat.blt ((index - r.idx) / r.step) r.cnt

/-- Whether a row describes the object at an index and sub-index. -/
def ObjRow.covers (r : ObjRow) (index sub : Nat) : Bool :=
  r.holds index &&
    (Nat.ble r.sub sub && Nat.blt sub (r.sub + r.nsub) ||
      (bif Nat.beq r.sub2 0 then false else Nat.ble (r.sub + r.sub2) sub && Nat.blt sub (r.sub + r.sub2 + r.nsub)))

/-- `0x0111.01` DEV_STATE (R24). -/
def kDevState : Nat := 0x011101
/-- `0x0111.02` TIER_AVAIL (R24). -/
def kTierAvail : Nat := 0x011102
/-- `0x0111.03` TIER_ACTIVE (R24). -/
def kTierActive : Nat := 0x011103
/-- `0x0111.04` UNIT_FAIL (R24). -/
def kUnitFail : Nat := 0x011104
/-- `0x0111.05` FAULT_CAUSE (R24). -/
def kFaultCause : Nat := 0x011105
/-- `0x0111.06` BOOT_TIME (R24). -/
def kBootTime : Nat := 0x011106
/-- `0x0111.07` TIER_LIMIT (R24). -/
def kTierLimit : Nat := 0x011107
/-- `0x0111.08` CFG_ERROR (R24). -/
def kCfgError : Nat := 0x011108
/-- `0x2000.01` CELL_TIME (R54). -/
def kCellTime : Nat := 0x200001
/-- `0x2000.02` TIME_INC (R54). -/
def kTimeInc : Nat := 0x200002
/-- `0x2000.03` PHASE_SLEW (R54). -/
def kPhaseSlew : Nat := 0x200003
/-- `0x2000.04` SLEW_RATE (R54). -/
def kSlewRate : Nat := 0x200004
/-- `0x2000.05` TIME_SET (R54). -/
def kTimeSet : Nat := 0x200005
/-- `0x2000.06` TIME_SERVO (R54). -/
def kTimeServo : Nat := 0x200006
/-- `0x2000.07` CELL_REF (R54). -/
def kCellRef : Nat := 0x200007
/-- `0x2000.08` REF_EFFECTIVE (R54). -/
def kRefEffective : Nat := 0x200008
/-- `0x2000.09` TIME_STATUS (R54). -/
def kTimeStatus : Nat := 0x200009
/-- `0x2000.0A` TIME_LOCK_THR (R54). -/
def kTimeLockThr : Nat := 0x20000A
/-- `0x2000.0B` CYCLE_NUM (R54). -/
def kCycleNum : Nat := 0x20000B
/-- `0x2000.0C` DOM_AUTO (R54). -/
def kDomAuto : Nat := 0x20000C
/-- `0x2000.10` PORT_EXT_IN (R54). -/
def kPortExtIn (j : Nat) : Nat := 0x200010 + j
/-- `0x2000.18` PORT_EXT_OUT (R54). -/
def kPortExtOut (j : Nat) : Nat := 0x200018 + j
/-- `0x2000.20` TS_FIFO (R54). -/
def kTsFifo (j : Nat) : Nat := 0x200020 + j
/-- `0x2100.01` DOM_SOURCE (R56). -/
def kDomSource (u : Nat) : Nat := 0x210001 + 0x10 * u
/-- `0x2100.02` DOM_PTP_NUM (R56). -/
def kDomPtpNum (u : Nat) : Nat := 0x210002 + 0x10 * u
/-- `0x2100.03` DOM_PTP_MODE (R56). -/
def kDomPtpMode (u : Nat) : Nat := 0x210003 + 0x10 * u
/-- `0x2100.04` DOM_STATE (R56). -/
def kDomState (u : Nat) : Nat := 0x210004 + 0x10 * u
/-- `0x2100.05` DOM_OFFSET (R56). -/
def kDomOffset (u : Nat) : Nat := 0x210005 + 0x10 * u
/-- `0x2100.06` DOM_RATE (R56). -/
def kDomRate (u : Nat) : Nat := 0x210006 + 0x10 * u
/-- `0x2100.07` DOM_TIME (R56). -/
def kDomTime (u : Nat) : Nat := 0x210007 + 0x10 * u
/-- `0x2100.08` DOM_LOCK_THR (R56). -/
def kDomLockThr (u : Nat) : Nat := 0x210008 + 0x10 * u
/-- `0x2100.09` DOM_HOLDOVER (R56). -/
def kDomHoldover (u : Nat) : Nat := 0x210009 + 0x10 * u
/-- `0x2100.0A` DOM_UPDATES (R56). -/
def kDomUpdates (u : Nat) : Nat := 0x21000A + 0x10 * u
/-- `0x2100.0B` DOM_UTC_OFFSET (R56). -/
def kDomUtcOffset (u : Nat) : Nat := 0x21000B + 0x10 * u
/-- `0x2100.0C` DOM_GM_ID (R56). -/
def kDomGmId (u : Nat) : Nat := 0x21000C + 0x10 * u
/-- `0x1000.02` BASIC_CYCLE (R88). -/
def kBasicCycle : Nat := 0x100002
/-- `0x1000.03` HEAD_POS (R88). -/
def kHeadPos (i : Nat) : Nat := 0x100003 + 0x40000 * i
/-- `0x1000.04` NODE_ORDER (R88). -/
def kNodeOrder (i : Nat) : Nat := 0x100004 + 0x40000 * i
/-- `0x1000.05` PRECISION (R88). -/
def kPrecision (i : Nat) : Nat := 0x100005 + 0x40000 * i
/-- `0x1000.06` GUARD_GAP (R88). -/
def kGuardGap (i : Nat) : Nat := 0x100006 + 0x40000 * i
/-- `0x1000.07` ARB_START (R88). -/
def kArbStart (i : Nat) : Nat := 0x100007 + 0x40000 * i
/-- `0x1000.08` ARB_LAST (R88). -/
def kArbLast (i : Nat) : Nat := 0x100008 + 0x40000 * i
/-- `0x1000.09` ARB_PLEN_MAX (R88). -/
def kArbPlenMax (i : Nat) : Nat := 0x100009 + 0x40000 * i
/-- `0x1000.0A` APPLY_LEAD (R88). -/
def kApplyLead (i : Nat) : Nat := 0x10000A + 0x40000 * i
/-- `0x1000.0B` TT_ID (R88). -/
def kTtId (i : Nat) : Nat := 0x10000B + 0x40000 * i
/-- `0x1000.0C` TT_SLOTS (R88). -/
def kTtSlots (i : Nat) : Nat := 0x10000C + 0x40000 * i
/-- `0x1000.0D` TT_CHECK (R88). -/
def kTtCheck (i : Nat) : Nat := 0x10000D + 0x40000 * i
/-- `0x1000.0E` RING_STATE (R125). -/
def kRingState (i : Nat) : Nat := 0x10000E + 0x40000 * i
/-- `0x1000.0F` SYNC_TIMEOUT (R125). -/
def kSyncTimeout : Nat := 0x10000F
/-- `0x1000.10` CS_LISTEN (R125). -/
def kCsListen (i : Nat) : Nat := 0x100010 + 0x40000 * i
/-- `0x1000.11` CS_NODES (R125). -/
def kCsNodes (i : Nat) : Nat := 0x100011 + 0x40000 * i
/-- `0x1000.12` REPEAT_MAX (R125). -/
def kRepeatMax (i : Nat) : Nat := 0x100012 + 0x40000 * i
/-- `0x1000.13` REJOIN_HOLD (R125). -/
def kRejoinHold (i : Nat) : Nat := 0x100013 + 0x40000 * i
/-- `0x1000.14` EXCL_MAX (R125). -/
def kExclMax (i : Nat) : Nat := 0x100014 + 0x40000 * i
/-- `0x1000.15` DLY_PERIOD (R125). -/
def kDlyPeriod (i : Nat) : Nat := 0x100015 + 0x40000 * i
/-- `0x1000.16` HEAL_RETURN (R125). -/
def kHealReturn (i : Nat) : Nat := 0x100016 + 0x40000 * i
/-- `0x1000.17` FBT_REQUIRED (R125). -/
def kFbtRequired (i : Nat) : Nat := 0x100017 + 0x40000 * i
/-- `0x1000.18` FBT_CHECK (R125). -/
def kFbtCheck (i : Nat) : Nat := 0x100018 + 0x40000 * i
/-- `0x1000.19` BREAK_IDX (R125). -/
def kBreakIdx (i : Nat) : Nat := 0x100019 + 0x40000 * i
/-- `0x1000.1A` HEAL_COUNT (R125). -/
def kHealCount (i : Nat) : Nat := 0x10001A + 0x40000 * i
/-- `0x1000.1B` RING_STATUS (R125). -/
def kRingStatus (i : Nat) : Nat := 0x10001B + 0x40000 * i
/-- `0x1000.1C` NODE_STATUS (R125). -/
def kNodeStatus (i : Nat) : Nat := 0x10001C + 0x40000 * i
/-- `0x1000.1D` PORT_ERR (R125). -/
def kPortErr (i : Nat) : Nat := 0x10001D + 0x40000 * i
/-- `0x3000.01` ARM_NJ (R130). -/
def kArmNj (i : Nat) : Nat := 0x300001 + 0x10000 * i
/-- `0x3000.02` PLAN_DIV (R130). -/
def kPlanDiv (i : Nat) : Nat := 0x300002 + 0x10000 * i
/-- `0x3000.03` HZ_LEN (R130). -/
def kHzLen (i : Nat) : Nat := 0x300003 + 0x10000 * i
/-- `0x3000.04` OVR (R130). -/
def kOvr (i : Nat) : Nat := 0x300004 + 0x10000 * i
/-- `0x3000.05` SIGMA_RISE (R130). -/
def kSigmaRise (i : Nat) : Nat := 0x300005 + 0x10000 * i
/-- `0x3000.06` SIGMA_FALL (R130). -/
def kSigmaFall (i : Nat) : Nat := 0x300006 + 0x10000 * i
/-- `0x3000.07` STOP_TIME (R130). -/
def kStopTime (i : Nat) : Nat := 0x300007 + 0x10000 * i
/-- `0x3000.08` SIGMA (R130). -/
def kSigma (i : Nat) : Nat := 0x300008 + 0x10000 * i
/-- `0x3000.09` PATH_CLOCK (R130). -/
def kPathClock (i : Nat) : Nat := 0x300009 + 0x10000 * i
/-- `0x3000.0A` SEG_JOIN_TOL (R130). -/
def kSegJoinTol (i : Nat) : Nat := 0x30000A + 0x10000 * i
/-- `0x3000.0B` IK_ITER (R130). -/
def kIkIter (i : Nat) : Nat := 0x30000B + 0x10000 * i
/-- `0x3000.0C` IK_LAMBDA (R130). -/
def kIkLambda (i : Nat) : Nat := 0x30000C + 0x10000 * i
/-- `0x3000.0D` IK_TOL_P (R130). -/
def kIkTolP (i : Nat) : Nat := 0x30000D + 0x10000 * i
/-- `0x3000.0E` IK_TOL_R (R130). -/
def kIkTolR (i : Nat) : Nat := 0x30000E + 0x10000 * i
/-- `0x3000.0F` REST_Q (R130). -/
def kRestQ (i : Nat) : Nat := 0x30000F + 0x10000 * i
/-- `0x3000.10` IK_NULL_GAIN (R130). -/
def kIkNullGain (i : Nat) : Nat := 0x300010 + 0x10000 * i
/-- `0x3001.01` ARM_KIN (R130). -/
def kArmKin (i : Nat) : Nat := 0x300101 + 0x10000 * i
/-- `0x3002.01` MOVE_CMD (R130). -/
def kMoveCmd (i : Nat) : Nat := 0x300201 + 0x10000 * i
/-- `0x3002.02` MOVE_STATUS (R130). -/
def kMoveStatus (i : Nat) : Nat := 0x300202 + 0x10000 * i
/-- `0x3003.01` JOG_CMD (R130). -/
def kJogCmd (i : Nat) : Nat := 0x300301 + 0x10000 * i
/-- `0x3004.01` ARM_SETPOINT (R130). -/
def kArmSetpoint (i : Nat) : Nat := 0x300401 + 0x10000 * i
/-- `0x3004.02` ARM_MEAS (R130). -/
def kArmMeas (i : Nat) : Nat := 0x300402 + 0x10000 * i
/-- `0x3005.01` HZ_TABLE (R130). -/
def kHzTable (i : Nat) : Nat := 0x300501 + 0x10000 * i
/-- `0x3006.01` TOOL_POSE (R130). -/
def kToolPose (i : Nat) : Nat := 0x300601 + 0x10000 * i
/-- `0x3800.01` GRP_MEMBERS (R155). -/
def kGrpMembers (i : Nat) : Nat := 0x380001 + 0x100 * i
/-- `0x3800.02` GRP_OBJ_OFFSET (R155). -/
def kGrpObjOffset (i : Nat) : Nat := 0x380002 + 0x100 * i
/-- `0x3800.03` GRP_CMD (R155). -/
def kGrpCmd (i : Nat) : Nat := 0x380003 + 0x100 * i
/-- `0x3800.04` GRP_STATE (R155). -/
def kGrpState (i : Nat) : Nat := 0x380004 + 0x100 * i
/-- `0x3800.05` GRP_MOVE (R155). -/
def kGrpMove (i : Nat) : Nat := 0x380005 + 0x100 * i
/-- `0x3800.06` GRP_STATUS (R155). -/
def kGrpStatus (i : Nat) : Nat := 0x380006 + 0x100 * i
/-- `0x3800.07` GRP_KP (R155). -/
def kGrpKp (i : Nat) : Nat := 0x380007 + 0x100 * i
/-- `0x3800.08` GRP_KD (R155). -/
def kGrpKd (i : Nat) : Nat := 0x380008 + 0x100 * i
/-- `0x3800.09` GRP_TOL_P (R155). -/
def kGrpTolP (i : Nat) : Nat := 0x380009 + 0x100 * i
/-- `0x3800.0A` GRP_TOL_R (R155). -/
def kGrpTolR (i : Nat) : Nat := 0x38000A + 0x100 * i
/-- `0x3800.0B` GRP_GRASP (R155). -/
def kGrpGrasp (i : Nat) : Nat := 0x38000B + 0x100 * i
/-- `0x3900.01` HC_ARM (R159). -/
def kHcArm (i : Nat) : Nat := 0x390001 + 0x100 * i
/-- `0x3900.02` HC_AXIS (R159). -/
def kHcAxis (i : Nat) : Nat := 0x390002 + 0x100 * i
/-- `0x3900.03` HC_POL (R159). -/
def kHcPol (i : Nat) : Nat := 0x390003 + 0x100 * i
/-- `0x3900.04` HC_BAND (R159). -/
def kHcBand (i : Nat) : Nat := 0x390004 + 0x100 * i
/-- `0x3900.05` HC_RATE (R159). -/
def kHcRate (i : Nat) : Nat := 0x390005 + 0x100 * i
/-- `0x3900.06` HC_LIMIT (R159). -/
def kHcLimit (i : Nat) : Nat := 0x390006 + 0x100 * i
/-- `0x3900.07` HC_KI (R159). -/
def kHcKi (i : Nat) : Nat := 0x390007 + 0x100 * i
/-- `0x3900.08` HC_SP_TARGET (R159). -/
def kHcSpTarget (i : Nat) : Nat := 0x390008 + 0x100 * i
/-- `0x3900.09` HC_SS_RATE (R159). -/
def kHcSsRate (i : Nat) : Nat := 0x390009 + 0x100 * i
/-- `0x3900.0A` HC_MAXAGE (R159). -/
def kHcMaxage (i : Nat) : Nat := 0x39000A + 0x100 * i
/-- `0x3900.0B` HC_MEAS (R159). -/
def kHcMeas (i : Nat) : Nat := 0x39000B + 0x100 * i
/-- `0x3900.0C` HC_CTRL (R159). -/
def kHcCtrl (i : Nat) : Nat := 0x39000C + 0x100 * i
/-- `0x3900.0D` HC_OUT (R159). -/
def kHcOut (i : Nat) : Nat := 0x39000D + 0x100 * i
/-- `0x3900.0E` HC_TRIM (R159). -/
def kHcTrim (i : Nat) : Nat := 0x39000E + 0x100 * i
/-- `0x3900.0F` HC_STATUS (R159). -/
def kHcStatus (i : Nat) : Nat := 0x39000F + 0x100 * i
/-- `0x3900.10` HC_OFF_MODE (R159). -/
def kHcOffMode (i : Nat) : Nat := 0x390010 + 0x100 * i
/-- `0x3900.11` HC_SP (R159). -/
def kHcSp (i : Nat) : Nat := 0x390011 + 0x100 * i
/-- `0x4000.01` SOLVER_STATUS (R192). -/
def kSolverStatus : Nat := 0x400001
/-- `0x4000.02` SOLVER_RESULT (R192). -/
def kSolverResult : Nat := 0x400002
/-- `0x4000.03` SOLVER_ITER (R192). -/
def kSolverIter : Nat := 0x400003
/-- `0x4000.04` SOLVER_RHO (R192). -/
def kSolverRho : Nat := 0x400004
/-- `0x4000.05` SOLVER_RHO_EQ (R192). -/
def kSolverRhoEq : Nat := 0x400005
/-- `0x4000.06` SOLVER_SIGMA (R192). -/
def kSolverSigma : Nat := 0x400006
/-- `0x4000.07` SOLVER_ALPHA (R192). -/
def kSolverAlpha : Nat := 0x400007
/-- `0x4000.08` SOLVER_KP (R192). -/
def kSolverKp : Nat := 0x400008
/-- `0x4000.09` SOLVER_KD (R192). -/
def kSolverKd : Nat := 0x400009
/-- `0x4000.0A` SOLVER_W_EFF (R192). -/
def kSolverWEff : Nat := 0x40000A
/-- `0x4000.0B` SOLVER_W_JOINT (R192). -/
def kSolverWJoint : Nat := 0x40000B
/-- `0x4000.0C` SOLVER_SLACK_MAP (R192). -/
def kSolverSlackMap : Nat := 0x40000C
/-- `0x4000.0D` SOLVER_W_SLACK (R192). -/
def kSolverWSlack : Nat := 0x40000D
/-- `0x4000.0E` SOLVER_SLACK_MAX (R192). -/
def kSolverSlackMax : Nat := 0x40000E
/-- `0x4000.0F` SOLVER_BUDGET (R192). -/
def kSolverBudget : Nat := 0x40000F
/-- `0x4000.10` SOLVER_T_EST (R192). -/
def kSolverTEst : Nat := 0x400010
/-- `0x4000.11` SOLVER_RES_WARN (R192). -/
def kSolverResWarn : Nat := 0x400011
/-- `0x4000.12` SOLVER_FB_DECEL (R192). -/
def kSolverFbDecel : Nat := 0x400012
/-- `0x4000.13` SOLVER_ITER_ACTIVE (R192). -/
def kSolverIterActive : Nat := 0x400013
/-- `0x4000.14` SOLVER_DUALS (R192). -/
def kSolverDuals : Nat := 0x400014
/-- `0x4000.15` SOLVER_SIG (R192). -/
def kSolverSig : Nat := 0x400015
/-- `0x4000.16` SOLVER_SEQ (R192). -/
def kSolverSeq : Nat := 0x400016
/-- `0x4000.17` SOLVER_FB_TOTAL (R192). -/
def kSolverFbTotal : Nat := 0x400017
/-- `0x4000.18` SOLVER_LATE_TOTAL (R192). -/
def kSolverLateTotal : Nat := 0x400018
/-- `0x4000.19` SOLVER_GRAVITY (R192). -/
def kSolverGravity : Nat := 0x400019
/-- `0x4100.01` SQ_STATUS (R221). -/
def kSqStatus : Nat := 0x410001
/-- `0x4100.02` SQ_SCALE (R221). -/
def kSqScale : Nat := 0x410002
/-- `0x4100.03` SQ_ROW_MAX (R221). -/
def kSqRowMax : Nat := 0x410003
/-- `0x4100.04` SQ_VH (R221). -/
def kSqVh : Nat := 0x410004
/-- `0x4100.05` SQ_TV_MAXAGE (R221). -/
def kSqTvMaxage : Nat := 0x410005
/-- `0x4100.06` SQ_TV_LAG (R221). -/
def kSqTvLag : Nat := 0x410006
/-- `0x4100.07` SQ_DI (R221). -/
def kSqDi : Nat := 0x410007
/-- `0x4100.08` SQ_DS_OTHER (R221). -/
def kSqDsOther : Nat := 0x410008
/-- `0x4100.09` SQ_DS_PEOPLE (R221). -/
def kSqDsPeople : Nat := 0x410009
/-- `0x4100.0A` SQ_XI (R221). -/
def kSqXi : Nat := 0x41000A
/-- `0x4100.0B` SQ_TD (R221). -/
def kSqTd : Nat := 0x41000B
/-- `0x4100.0C` SQ_C (R221). -/
def kSqC : Nat := 0x41000C
/-- `0x4100.0D` SQ_ZD (R221). -/
def kSqZd : Nat := 0x41000D
/-- `0x4100.0E` SQ_ARM_PAR (R221). -/
def kSqArmPar : Nat := 0x41000E
/-- `0x4100.0F` SQ_KEY_HOLD (R221). -/
def kSqKeyHold : Nat := 0x41000F
/-- `0x4100.10` SQ_EXCLUDE (R221). -/
def kSqExclude : Nat := 0x410010
/-- `0x4100.11` SQ_T_EST (R221). -/
def kSqTEst : Nat := 0x410011
/-- `0x4100.12` SQ_PAIRS (R221). -/
def kSqPairs : Nat := 0x410012
/-- `0x4100.13` SQ_CAND (R221). -/
def kSqCand : Nat := 0x410013
/-- `0x4100.14` SQ_OVF_TOTAL (R221). -/
def kSqOvfTotal : Nat := 0x410014
/-- `0x4100.15` SQ_TV_REJ (R221). -/
def kSqTvRej : Nat := 0x410015
/-- `0x4100.16` SQ_ROWS (R221). -/
def kSqRows : Nat := 0x410016
/-- `0x4101.01` SQ_CAPS (R221). -/
def kSqCaps (j : Nat) : Nat := 0x410101 + j
/-- `0x4102.01` SQ_TW (R221). -/
def kSqTw : Nat := 0x410201
/-- `0x4103.01` SQ_TV_BLOCK (R221). -/
def kSqTvBlock (j : Nat) : Nat := 0x410301 + j
/-- `0x4104.01` SQ_TV_TABLE (R221). -/
def kSqTvTable : Nat := 0x410401
/-- `0x4200.01` CR_STATUS (R225). -/
def kCrStatus : Nat := 0x420001
/-- `0x4200.02` CR_DS (R225). -/
def kCrDs : Nat := 0x420002
/-- `0x4200.03` CR_PRIO (R225). -/
def kCrPrio : Nat := 0x420003
/-- `0x4201.01` CR_ZONE (R225). -/
def kCrZone (j : Nat) : Nat := 0x420101 + j
/-- `0x4202.01` CR_REQ (R225). -/
def kCrReq (j : Nat) : Nat := 0x420201 + j
/-- `0x4203.01` CR_HELD (R225). -/
def kCrHeld (j : Nat) : Nat := 0x420301 + j
/-- `0x5000.01` JN_STATUS (R248). -/
def kJnStatus : Nat := 0x500001
/-- `0x5000.02` JN_TICK_K (R248). -/
def kJnTickK : Nat := 0x500002
/-- `0x5000.03` JN_BG_MAX (R248). -/
def kJnBgMax : Nat := 0x500003
/-- `0x5000.04` JN_RX_DEADLINE (R248). -/
def kJnRxDeadline : Nat := 0x500004
/-- `0x5000.05` JN_MEAS_MAXAGE (R248). -/
def kJnMeasMaxage : Nat := 0x500005
/-- `0x5000.06` JN_LATE_MAX (R248). -/
def kJnLateMax : Nat := 0x500006
/-- `0x5000.07` JN_LATE_TOTAL (R248). -/
def kJnLateTotal : Nat := 0x500007
/-- `0x5000.08` JN_TOKEN_DROP (R248). -/
def kJnTokenDrop : Nat := 0x500008
/-- `0x5000.09` JN_CHAIN_EST (R248). -/
def kJnChainEst : Nat := 0x500009
/-- `0x5000.0A` JN_CHAIN_CHECK (R248). -/
def kJnChainCheck : Nat := 0x50000A
/-- `0x5000.0B` JN_TEMPLATES (R248). -/
def kJnTemplates : Nat := 0x50000B
/-- `0x5000.0C` JN_INSTANCES (R248). -/
def kJnInstances : Nat := 0x50000C
/-- `0x5000.0D` JN_EDGES (R248). -/
def kJnEdges : Nat := 0x50000D
/-- `0x5000.0E` JN_INST_STATUS (R248). -/
def kJnInstStatus : Nat := 0x50000E
/-- `0x5000.0F` JN_USER_KERNEL (R248). -/
def kJnUserKernel : Nat := 0x50000F
/-- `0x5000.10` JN_STREETS (R248). -/
def kJnStreets : Nat := 0x500010
/-- `0x5000.11` JN_STEALS (R248). -/
def kJnSteals : Nat := 0x500011
/-- `0x5001.01` JL_PAR (R248). -/
def kJlPar (j : Nat) : Nat := 0x500101 + j
/-- `0x5400.01` CNT_USER_EN (R277). -/
def kCntUserEn : Nat := 0x540001
/-- `0x5400.02` CNT_CLEAR_ALL (R277). -/
def kCntClearAll : Nat := 0x540002
/-- `0x5410.01` CNT_CYC (R277). -/
def kCntCyc (i : Nat) : Nat := 0x541001 + 0x100 * i
/-- `0x5410.02` CNT_PMC (R277). -/
def kCntPmc (i j : Nat) : Nat := 0x541002 + 0x100 * i + j
/-- `0x5410.08` CNT_SEL (R277). -/
def kCntSel (i : Nat) : Nat := 0x541008 + 0x100 * i
/-- `0x5410.09` CNT_BLOCK (R277). -/
def kCntBlock (i : Nat) : Nat := 0x541009 + 0x100 * i
/-- `0x5410.0A` CNT_OVF (R277). -/
def kCntOvf (i : Nat) : Nat := 0x54100A + 0x100 * i
/-- `0x5410.0B` CNT_CLEAR (R277). -/
def kCntClear (i : Nat) : Nat := 0x54100B + 0x100 * i
/-- `0x6000.01` AX_MODE (R306). -/
def kAxMode (i : Nat) : Nat := 0x600001 + 0x100 * i
/-- `0x6000.02` AX_SCALE (R306). -/
def kAxScale (i : Nat) : Nat := 0x600002 + 0x100 * i
/-- `0x6000.03` AX_VMAX (R306). -/
def kAxVmax (i : Nat) : Nat := 0x600003 + 0x100 * i
/-- `0x6000.04` AX_AMAX (R306). -/
def kAxAmax (i : Nat) : Nat := 0x600004 + 0x100 * i
/-- `0x6000.05` AX_JMAX (R306). -/
def kAxJmax (i : Nat) : Nat := 0x600005 + 0x100 * i
/-- `0x6000.06` AX_POS_MIN (R306). -/
def kAxPosMin (i : Nat) : Nat := 0x600006 + 0x100 * i
/-- `0x6000.07` AX_POS_MAX (R306). -/
def kAxPosMax (i : Nat) : Nat := 0x600007 + 0x100 * i
/-- `0x6000.08` AX_CONT (R306). -/
def kAxCont (i : Nat) : Nat := 0x600008 + 0x100 * i
/-- `0x6000.09` AX_JOIN_TOL (R306). -/
def kAxJoinTol (i : Nat) : Nat := 0x600009 + 0x100 * i
/-- `0x6000.0A` AX_MS_UP (R306). -/
def kAxMsUp (i : Nat) : Nat := 0x60000A + 0x100 * i
/-- `0x6000.0B` AX_MS_HYST (R306). -/
def kAxMsHyst (i : Nat) : Nat := 0x60000B + 0x100 * i
/-- `0x6000.0C` AX_MS_RANGE (R306). -/
def kAxMsRange (i : Nat) : Nat := 0x60000C + 0x100 * i
/-- `0x6000.0D` AX_CODES (R306). -/
def kAxCodes (i : Nat) : Nat := 0x60000D + 0x100 * i
/-- `0x6000.0E` AX_STEP_HIGH (R306). -/
def kAxStepHigh (i : Nat) : Nat := 0x60000E + 0x100 * i
/-- `0x6000.0F` AX_DIR_SETUP (R306). -/
def kAxDirSetup (i : Nat) : Nat := 0x60000F + 0x100 * i
/-- `0x6000.10` AX_IDLE_TIME (R306). -/
def kAxIdleTime (i : Nat) : Nat := 0x600010 + 0x100 * i
/-- `0x6000.11` AX_STILL_MODE (R306). -/
def kAxStillMode (i : Nat) : Nat := 0x600011 + 0x100 * i
/-- `0x6000.12` AX_WAKE_TIME (R306). -/
def kAxWakeTime (i : Nat) : Nat := 0x600012 + 0x100 * i
/-- `0x6000.13` AX_V_DEG (R306). -/
def kAxVDeg (i : Nat) : Nat := 0x600013 + 0x100 * i
/-- `0x6000.14` AX_MOVE (R306). -/
def kAxMove (i : Nat) : Nat := 0x600014 + 0x100 * i
/-- `0x6000.15` AX_MOVE_STATUS (R306). -/
def kAxMoveStatus (i : Nat) : Nat := 0x600015 + 0x100 * i
/-- `0x6000.16` AX_POS_CMD (R306). -/
def kAxPosCmd (i : Nat) : Nat := 0x600016 + 0x100 * i
/-- `0x6000.17` AX_POS_OUT (R306). -/
def kAxPosOut (i : Nat) : Nat := 0x600017 + 0x100 * i
/-- `0x6000.18` AX_STATUS (R306). -/
def kAxStatus (i : Nat) : Nat := 0x600018 + 0x100 * i
/-- `0x6000.19` AX_MS_ACTIVE (R306). -/
def kAxMsActive (i : Nat) : Nat := 0x600019 + 0x100 * i
/-- `0x6100.01` FB_MODE (R308). -/
def kFbMode (i : Nat) : Nat := 0x610001 + 0x100 * i
/-- `0x6100.02` FB_FILT (R308). -/
def kFbFilt (i : Nat) : Nat := 0x610002 + 0x100 * i
/-- `0x6100.03` FB_DIR (R308). -/
def kFbDir (i : Nat) : Nat := 0x610003 + 0x100 * i
/-- `0x6100.04` FB_CPR (R308). -/
def kFbCpr (i : Nat) : Nat := 0x610004 + 0x100 * i
/-- `0x6100.05` FB_INDEX_EXP (R308). -/
def kFbIndexExp (i : Nat) : Nat := 0x610005 + 0x100 * i
/-- `0x6100.06` FB_INDEX_TOL (R308). -/
def kFbIndexTol (i : Nat) : Nat := 0x610006 + 0x100 * i
/-- `0x6100.07` FB_INDEX_MODE (R308). -/
def kFbIndexMode (i : Nat) : Nat := 0x610007 + 0x100 * i
/-- `0x6100.08` FB_Z_GATE (R308). -/
def kFbZGate (i : Nat) : Nat := 0x610008 + 0x100 * i
/-- `0x6100.09` FB_STILL_VEL (R308). -/
def kFbStillVel (i : Nat) : Nat := 0x610009 + 0x100 * i
/-- `0x6100.0A` FB_ABS_BITS (R308). -/
def kFbAbsBits (i : Nat) : Nat := 0x61000A + 0x100 * i
/-- `0x6100.0B` FB_ABS_FMT (R308). -/
def kFbAbsFmt (i : Nat) : Nat := 0x61000B + 0x100 * i
/-- `0x6100.0C` FB_ABS_CLK (R308). -/
def kFbAbsClk (i : Nat) : Nat := 0x61000C + 0x100 * i
/-- `0x6100.0D` FB_ABS_DELAY (R308). -/
def kFbAbsDelay (i : Nat) : Nat := 0x61000D + 0x100 * i
/-- `0x6100.0E` FB_ABS_OFFSET (R308). -/
def kFbAbsOffset (i : Nat) : Nat := 0x61000E + 0x100 * i
/-- `0x6100.0F` FB_ABS_DIV (R308). -/
def kFbAbsDiv (i : Nat) : Nat := 0x61000F + 0x100 * i
/-- `0x6100.10` FB_ABS_TM (R308). -/
def kFbAbsTm (i : Nat) : Nat := 0x610010 + 0x100 * i
/-- `0x6100.11` FB_ABS_ERR (R308). -/
def kFbAbsErr (i : Nat) : Nat := 0x610011 + 0x100 * i
/-- `0x6100.12` FB_ABS_JUMP (R308). -/
def kFbAbsJump (i : Nat) : Nat := 0x610012 + 0x100 * i
/-- `0x6100.13` FB_ABS_MUL (R308). -/
def kFbAbsMul (i : Nat) : Nat := 0x610013 + 0x100 * i
/-- `0x6100.14` FB_COMB_TOL (R308). -/
def kFbCombTol (i : Nat) : Nat := 0x610014 + 0x100 * i
/-- `0x6100.15` FB_VEL_WIN (R308). -/
def kFbVelWin (i : Nat) : Nat := 0x610015 + 0x100 * i
/-- `0x6100.16` FB_POS (R308). -/
def kFbPos (i : Nat) : Nat := 0x610016 + 0x100 * i
/-- `0x6100.17` FB_VEL (R308). -/
def kFbVel (i : Nat) : Nat := 0x610017 + 0x100 * i
/-- `0x6100.18` FB_TIME (R308). -/
def kFbTime (i : Nat) : Nat := 0x610018 + 0x100 * i
/-- `0x6100.19` FB_INDEX_CAP (R308). -/
def kFbIndexCap (i : Nat) : Nat := 0x610019 + 0x100 * i
/-- `0x6100.1A` FB_STATUS (R308). -/
def kFbStatus (i : Nat) : Nat := 0x61001A + 0x100 * i
/-- `0x6100.1B` FB_ILLEGAL_CNT (R308). -/
def kFbIllegalCnt (i : Nat) : Nat := 0x61001B + 0x100 * i
/-- `0x6100.1C` FB_ABS_RAW (R308). -/
def kFbAbsRaw (i : Nat) : Nat := 0x61001C + 0x100 * i
/-- `0x6200.01` EMU_SRC (R310). -/
def kEmuSrc (i : Nat) : Nat := 0x620001 + 0x100 * i
/-- `0x6200.02` EMU_N (R310). -/
def kEmuN (i : Nat) : Nat := 0x620002 + 0x100 * i
/-- `0x6200.03` EMU_M (R310). -/
def kEmuM (i : Nat) : Nat := 0x620003 + 0x100 * i
/-- `0x6200.04` EMU_BASE_MODE (R310). -/
def kEmuBaseMode (i : Nat) : Nat := 0x620004 + 0x100 * i
/-- `0x6200.05` EMU_OFFSET (R310). -/
def kEmuOffset (i : Nat) : Nat := 0x620005 + 0x100 * i
/-- `0x6200.06` EMU_ZPER (R310). -/
def kEmuZper (i : Nat) : Nat := 0x620006 + 0x100 * i
/-- `0x6200.07` EMU_ZPOS (R310). -/
def kEmuZpos (i : Nat) : Nat := 0x620007 + 0x100 * i
/-- `0x6200.08` EMU_MIN_GAP (R310). -/
def kEmuMinGap (i : Nat) : Nat := 0x620008 + 0x100 * i
/-- `0x6200.09` EMU_EDGES (R310). -/
def kEmuEdges (i : Nat) : Nat := 0x620009 + 0x100 * i
/-- `0x6200.0A` EMU_STATUS (R310). -/
def kEmuStatus (i : Nat) : Nat := 0x62000A + 0x100 * i
/-- `0x6210.01` CMP_VALUE (R310). -/
def kCmpValue (i u : Nat) : Nat := 0x621001 + 0x100 * i + 0x10 * u
/-- `0x6210.02` CMP_ONEDIR (R310). -/
def kCmpOnedir (i u : Nat) : Nat := 0x621002 + 0x100 * i + 0x10 * u
/-- `0x6210.03` CMP_INC (R310). -/
def kCmpInc (i u : Nat) : Nat := 0x621003 + 0x100 * i + 0x10 * u
/-- `0x6210.04` CMP_PW (R310). -/
def kCmpPw (i u : Nat) : Nat := 0x621004 + 0x100 * i + 0x10 * u
/-- `0x6210.05` CMP_STATUS (R310). -/
def kCmpStatus (i u : Nat) : Nat := 0x621005 + 0x100 * i + 0x10 * u
/-- `0x6210.06` CMP_LAST (R310). -/
def kCmpLast (i u : Nat) : Nat := 0x621006 + 0x100 * i + 0x10 * u
/-- `0x6210.07` CMP_CTRL (R310). -/
def kCmpCtrl (i u : Nat) : Nat := 0x621007 + 0x100 * i + 0x10 * u
/-- `0x7000.01` SAFE_STATUS (R348). -/
def kSafeStatus : Nat := 0x700001
/-- `0x7000.02` SAFE_MODE (R348). -/
def kSafeMode : Nat := 0x700002
/-- `0x7000.03` SAFE_IN_A (R348). -/
def kSafeInA : Nat := 0x700003
/-- `0x7000.04` SAFE_IN_B (R348). -/
def kSafeInB : Nat := 0x700004
/-- `0x7000.05` SAFE_IN_FAULT (R348). -/
def kSafeInFault : Nat := 0x700005
/-- `0x7000.06` SAFE_SW (R348). -/
def kSafeSw : Nat := 0x700006
/-- `0x7000.07` SAFE_SET_CRC (R348). -/
def kSafeSetCrc : Nat := 0x700007
/-- `0x7000.08` SAFE_SET_DL (R348). -/
def kSafeSetDl : Nat := 0x700008
/-- `0x7000.09` SAFE_SET_DIR (R348). -/
def kSafeSetDir : Nat := 0x700009
/-- `0x7000.0A` SAFE_VERDICT (R348). -/
def kSafeVerdict : Nat := 0x70000A
/-- `0x7000.0B` SAFE_OUT_STATE (R348). -/
def kSafeOutState : Nat := 0x70000B
/-- `0x7000.0C` SAFE_DEG_REMAIN (R348). -/
def kSafeDegRemain : Nat := 0x70000C
/-- `0x7000.0D` SAFE_BT_CMD (R348). -/
def kSafeBtCmd : Nat := 0x70000D
/-- `0x7000.0E` SAFE_BT_STATUS (R348). -/
def kSafeBtStatus : Nat := 0x70000E
/-- `0x7000.0F` SAFE_CH_FAULT (R348). -/
def kSafeChFault : Nat := 0x70000F
/-- `0x7001.01` SAFE_GLOBAL (R348). -/
def kSafeGlobal : Nat := 0x700101
/-- `0x7001.02` SAFE_IN_CFG (R348). -/
def kSafeInCfg : Nat := 0x700102
/-- `0x7001.03` SAFE_OUT_CFG (R348). -/
def kSafeOutCfg : Nat := 0x700103
/-- `0x7001.04` SAFE_BRK_CFG (R348). -/
def kSafeBrkCfg : Nat := 0x700104
/-- `0x7001.05` SAFE_CONN (R348). -/
def kSafeConn : Nat := 0x700105
/-- `0x7002.01` SAFE_ARM (R348). -/
def kSafeArm (j : Nat) : Nat := 0x700201 + j
/-- `0x7003.01` SAFE_KIN (R348). -/
def kSafeKin (j : Nat) : Nat := 0x700301 + j
/-- `0x7004.01` SAFE_SPHERES (R348). -/
def kSafeSpheres (j : Nat) : Nat := 0x700401 + j
/-- `0x7800.01` RED_PARTNER (R381). -/
def kRedPartner : Nat := 0x780001
/-- `0x7800.02` RED_UNIT_ID (R381). -/
def kRedUnitId : Nat := 0x780002
/-- `0x7800.03` RED_CLAIM_STATE (R381). -/
def kRedClaimState : Nat := 0x780003
/-- `0x7800.04` RED_STATUS (R381). -/
def kRedStatus : Nat := 0x780004
/-- `0x7800.05` RED_CMD_LAG (R381). -/
def kRedCmdLag : Nat := 0x780005
/-- `0x7800.06` RED_TAKEOVERS (R381). -/
def kRedTakeovers : Nat := 0x780006
/-- `0x7800.07` RED_SWAPS (R381). -/
def kRedSwaps : Nat := 0x780007
/-- `0x7800.08` RED_SINCE_SWAP (R381). -/
def kRedSinceSwap : Nat := 0x780008
/-- `0x7800.09` RED_SWAP_ADVISE (R381). -/
def kRedSwapAdvise : Nat := 0x780009
/-- `0x7800.0A` RED_DIGEST_MISS (R381). -/
def kRedDigestMiss : Nat := 0x78000A
/-- `0x7800.0B` RED_HB_MISS (R381). -/
def kRedHbMiss : Nat := 0x78000B
/-- `0x7800.0C` RED_PEER_HB (R381). -/
def kRedPeerHb : Nat := 0x78000C
/-- `0x0200.01` ACC_LEVEL (R394). -/
def kAccLevel : Nat := 0x020001
/-- `0x0200.02` ACC_UNLOCK (R394). -/
def kAccUnlock : Nat := 0x020002
/-- `0x0200.03` ACC_E_CODE (R394). -/
def kAccECode : Nat := 0x020003
/-- `0x0200.04` ACC_V_TOKEN (R394). -/
def kAccVToken : Nat := 0x020004
/-- `0x0200.05` ACC_LOCK (R394). -/
def kAccLock : Nat := 0x020005
/-- `0x0200.06` ACC_PATH_LEVEL (R394). -/
def kAccPathLevel : Nat := 0x020006
/-- `0x0200.07` ACC_TIMEOUT (R394). -/
def kAccTimeout : Nat := 0x020007
/-- `0x0200.08` ACC_DENIED (R394). -/
def kAccDenied : Nat := 0x020008
/-- `0x0200.09` DICT_RSP_T (R394). -/
def kDictRspT : Nat := 0x020009
/-- `0x0200.0A` DICT_RETRY (R394). -/
def kDictRetry : Nat := 0x02000A
/-- `0x0200.0B` XFER_TIMEOUT (R394). -/
def kXferTimeout : Nat := 0x02000B
/-- `0x0200.0C` ACC_SESSIONS (R394). -/
def kAccSessions : Nat := 0x02000C
/-- `0x0210.01` SVC_IP (R407). -/
def kSvcIp : Nat := 0x021001
/-- `0x0210.02` SVC_MASK (R407). -/
def kSvcMask : Nat := 0x021002
/-- `0x0210.03` SVC_GW (R407). -/
def kSvcGw : Nat := 0x021003
/-- `0x0210.04` SVC_MAC (R407). -/
def kSvcMac : Nat := 0x021004
/-- `0x0210.05` SVC_UDP_EN (R407). -/
def kSvcUdpEn : Nat := 0x021005
/-- `0x0210.06` HOST_MAP (R407). -/
def kHostMap : Nat := 0x021006
/-- `0x0110.01` DEV_CMD (R420). -/
def kDevCmd : Nat := 0x011001
/-- `0x0110.02` DEV_CMD_LAST (R420). -/
def kDevCmdLast : Nat := 0x011002
/-- `0x0100.01` ID_VENDOR (R424). -/
def kIdVendor : Nat := 0x010001
/-- `0x0100.02` ID_PRODUCT (R424). -/
def kIdProduct : Nat := 0x010002
/-- `0x0100.03` ID_ORDER (R424). -/
def kIdOrder : Nat := 0x010003
/-- `0x0100.04` ID_STEPPING (R424). -/
def kIdStepping : Nat := 0x010004
/-- `0x0100.05` ID_SERIAL (R424). -/
def kIdSerial : Nat := 0x010005
/-- `0x0100.06` ID_FW_MAIN (R424). -/
def kIdFwMain : Nat := 0x010006
/-- `0x0100.07` ID_FW_SAFETY (R424). -/
def kIdFwSafety : Nat := 0x010007
/-- `0x0100.08` ID_LANE_LIB (R424). -/
def kIdLaneLib : Nat := 0x010008
/-- `0x0100.09` ID_DICT_VER (R424). -/
def kIdDictVer : Nat := 0x010009
/-- `0x0112.01` HOST_EVENTS (R424). -/
def kHostEvents : Nat := 0x011201
/-- `0x0112.02` HOST_EVT_STATUS (R424). -/
def kHostEvtStatus : Nat := 0x011202
/-- `0x8000.01` REC_STATUS (R455). -/
def kRecStatus : Nat := 0x800001
/-- `0x8000.02` REC_OPTIME (R455). -/
def kRecOptime : Nat := 0x800002
/-- `0x8000.03` REC_PCC (R455). -/
def kRecPcc : Nat := 0x800003
/-- `0x8000.04` REC_LAYOUT (R455). -/
def kRecLayout : Nat := 0x800004
/-- `0x8000.05` REC_SAFE_SECT (R455). -/
def kRecSafeSect : Nat := 0x800005
/-- `0x8000.06` REC_CLEAR (R455). -/
def kRecClear : Nat := 0x800006
/-- `0x8000.07` REC_SAFE_RANGE (R455). -/
def kRecSafeRange : Nat := 0x800007
/-- `0x8000.08` REC_GEN_RANGE (R455). -/
def kRecGenRange : Nat := 0x800008
/-- `0x8000.09` REC_SAFE_CURSOR (R455). -/
def kRecSafeCursor : Nat := 0x800009
/-- `0x8000.0A` REC_SAFE_DATA (R455). -/
def kRecSafeData : Nat := 0x80000A
/-- `0x8000.0B` REC_GEN_CURSOR (R455). -/
def kRecGenCursor : Nat := 0x80000B
/-- `0x8000.0C` REC_GEN_DATA (R455). -/
def kRecGenData : Nat := 0x80000C
/-- `0x8000.0D` REC_DROPS (R455). -/
def kRecDrops : Nat := 0x80000D
/-- `0x8000.0E` REC_TYPE_STATS (R455). -/
def kRecTypeStats : Nat := 0x80000E
/-- `0x8000.0F` REC_FLOOD_THR (R455). -/
def kRecFloodThr : Nat := 0x80000F
/-- `0x9000.01` SEC_STATUS (R457). -/
def kSecStatus : Nat := 0x900001
/-- `0x9000.02` SEC_SLOTS (R457). -/
def kSecSlots : Nat := 0x900002
/-- `0x9000.03` SEC_IMG_MAIN (R457). -/
def kSecImgMain : Nat := 0x900003
/-- `0x9000.04` SEC_IMG_SAFETY (R457). -/
def kSecImgSafety : Nat := 0x900004
/-- `0x9000.05` SEC_IMG_LIB (R457). -/
def kSecImgLib : Nat := 0x900005
/-- `0x9000.06` SEC_CONFIRM (R457). -/
def kSecConfirm : Nat := 0x900006
/-- `0x9000.07` SEC_REBOOT (R457). -/
def kSecReboot : Nat := 0x900007
/-- `0x9000.08` SEC_FUSES (R457). -/
def kSecFuses : Nat := 0x900008
/-- `0x9000.09` SEC_OWNER_KEY (R457). -/
def kSecOwnerKey : Nat := 0x900009
/-- `0x9000.0A` SEC_OWNER_REVOKE (R457). -/
def kSecOwnerRevoke : Nat := 0x90000A
/-- `0x9000.0B` SEC_DEV_LOCK (R457). -/
def kSecDevLock : Nat := 0x90000B
/-- `0x9000.10` ATT_NONCE (R457). -/
def kAttNonce : Nat := 0x900010
/-- `0x9000.11` ATT_REPORT (R457). -/
def kAttReport : Nat := 0x900011
/-- `0x9000.12` ATT_DEVICE_PK (R457). -/
def kAttDevicePk : Nat := 0x900012
/-- `0x9000.13` ATT_CERT (R457). -/
def kAttCert : Nat := 0x900013
/-- `0x8800.01` PWR_STATUS (R483). -/
def kPwrStatus : Nat := 0x880001
/-- `0x8800.02` SHED_STAGE (R483). -/
def kShedStage : Nat := 0x880002
/-- `0x8800.03` SHED_LIVE (R483). -/
def kShedLive : Nat := 0x880003
/-- `0x8800.04` SHED_REENABLE (R483). -/
def kShedReenable : Nat := 0x880004
/-- `0x8800.05` SHED_COUNT (R483). -/
def kShedCount : Nat := 0x880005
/-- `0x8800.06` SHED_MIN_CORE (R483). -/
def kShedMinCore : Nat := 0x880006
/-- `0x8810.01` CLK_STATUS (R483). -/
def kClkStatus : Nat := 0x881001
/-- `0x8810.02` CLK_RATIO (R483). -/
def kClkRatio : Nat := 0x881002
/-- `0x8810.03` LL_GATE_EN (R483). -/
def kLlGateEn : Nat := 0x881003
/-- `0x8810.04` LL_WAKE_LEAD (R483). -/
def kLlWakeLead : Nat := 0x881004
/-- `0x8810.05` LL_IDLE_HOLD (R483). -/
def kLlIdleHold : Nat := 0x881005
/-- `0x8810.06` LL_ON_TIME (R483). -/
def kLlOnTime : Nat := 0x881006
/-- `0x8820.01` MON_STATUS (R486). -/
def kMonStatus : Nat := 0x882001
/-- `0x8820.02` MON_CAL_CMD (R486). -/
def kMonCalCmd : Nat := 0x882002
/-- `0x8820.03` MON_CAL_PERIOD (R486). -/
def kMonCalPeriod : Nat := 0x882003
/-- `0x8820.04` MON_SLICE_FACT (R486). -/
def kMonSliceFact : Nat := 0x882004
/-- `0x8820.05` MON_SEQ (R486). -/
def kMonSeq : Nat := 0x882005
/-- `0x8820.06` MON_WIN (R486). -/
def kMonWin : Nat := 0x882006
/-- `0x8820.07` MON_SYSCAL (R486). -/
def kMonSyscal : Nat := 0x882007
/-- `0x8820.08` MON_SYSCAL_CMD (R486). -/
def kMonSyscalCmd : Nat := 0x882008
/-- `0x8820.09` MON_TJ_WARN (R486). -/
def kMonTjWarn : Nat := 0x882009
/-- `0x8821.01` MON_RESULT (R486). -/
def kMonResult (j : Nat) : Nat := 0x882101 + j
/-- `0x9800.01` TST_BSCAN_EN (R513). -/
def kTstBscanEn : Nat := 0x980001
/-- `0x9800.02` TST_STATUS (R513). -/
def kTstStatus : Nat := 0x980002
/-- `0x9800.03` TST_IDCODE (R513). -/
def kTstIdcode : Nat := 0x980003
/-- `0x9800.04` TST_PORT_LOOP (R513). -/
def kTstPortLoop : Nat := 0x980004
/-- `0x9800.05` TST_SEAL (R513). -/
def kTstSeal : Nat := 0x980005
/-- `0x1800.01` SLOT_MAP (R90). -/
def kSlotMap : Nat := 0x180001
/-- `0x1800.02` SLOT_MAP_COUNT (R90). -/
def kSlotMapCount : Nat := 0x180002
/-- `0x3A00.01` SEG_TABLE (R147). -/
def kSegTable (j : Nat) : Nat := 0x3A0001 + j
/-- `0x3A01.01` SEG_TABLE_HI (R147). -/
def kSegTableHi (j : Nat) : Nat := 0x3A0101 + j
/-- `0x3A02.01` CAM_TABLE (R151). -/
def kCamTable (j : Nat) : Nat := 0x3A0201 + j
/-- `0x3A03.01` CAM_TABLE_HI (R151). -/
def kCamTableHi (j : Nat) : Nat := 0x3A0301 + j
/-- `0x3A08.01` VM_VEL_TGT (R154). -/
def kVmVelTgt (i : Nat) : Nat := 0x3A0801 + 0x100 * i
/-- `0x3A08.02` VM_ACC (R154). -/
def kVmAcc (i : Nat) : Nat := 0x3A0802 + 0x100 * i
/-- `0x3A08.03` VM_JERK (R154). -/
def kVmJerk (i : Nat) : Nat := 0x3A0803 + 0x100 * i
/-- `0x3A08.04` VM_POS (R154). -/
def kVmPos (i : Nat) : Nat := 0x3A0804 + 0x100 * i

/-- Rows of the object table, part 0: indices 0x0111 to 0x0111. -/
def objRows0 : List ObjRow := [
  ⟨0x0111, 1, 0x0, 0x01, 1, 0x0, .u8, 1, .ro, .b, le 1 0x1, 0x0, 0x0, .any⟩,
  ⟨0x0111, 1, 0x0, 0x02, 1, 0x0, .u8, 1, .ro, .b, le 1 0x3, 0x0, 0x0, .any⟩,
  ⟨0x0111, 1, 0x0, 0x03, 1, 0x0, .u8, 1, .ro, .b, le 1 0x3, 0x0, 0x0, .any⟩,
  ⟨0x0111, 1, 0x0, 0x04, 1, 0x0, .u64, 8, .ro, .e, zeros 8, 0x0, 0x0, .any⟩,
  ⟨0x0111, 1, 0x0, 0x05, 1, 0x0, .u16, 2, .ro, .b, zeros 2, 0x0, 0x0, .any⟩,
  ⟨0x0111, 1, 0x0, 0x06, 1, 0x0, .u32, 4, .ro, .e, zeros 4, 0x0, 0x0, .any⟩,
  ⟨0x0111, 1, 0x0, 0x07, 1, 0x0, .u8, 1, .rws, .e, le 1 0x3, 0xB, 0x0, .nat 0 3⟩,
  ⟨0x0111, 1, 0x0, 0x08, 1, 0x0, .u32, 4, .ro, .e, zeros 4, 0x0, 0x0, .any⟩]

/-- Rows of the object table, part 1: indices 0x2000 to 0x2000. -/
def objRows1 : List ObjRow := [
  ⟨0x2000, 1, 0x0, 0x01, 1, 0x0, .time96, 12, .ro, .b, zeros 12, 0x0, 0x0, .any⟩,
  ⟨0x2000, 1, 0x0, 0x02, 1, 0x0, .u32, 4, .rw, .e, le 4 0x28000000, 0x1FF, 0x0, .any⟩,
  ⟨0x2000, 1, 0x0, 0x03, 1, 0x0, .i64, 8, .rw, .e, zeros 8, 0x1FF, 0x0, .any⟩,
  ⟨0x2000, 1, 0x0, 0x04, 1, 0x0, .u16, 2, .rw, .e, le 2 0x32, 0x1FF, 0x0, .nat 1 500⟩,
  ⟨0x2000, 1, 0x0, 0x05, 1, 0x0, .time96, 12, .rws, .e, zeros 12, 0x1, 0x0, .any⟩,
  ⟨0x2000, 1, 0x0, 0x06, 1, 0x0, .u8, 1, .rws, .e, zeros 1, 0x3, 0x0, .nat 0 1⟩,
  ⟨0x2000, 1, 0x0, 0x07, 1, 0x0, .u8, 1, .rw, .e, zeros 1, 0x1FF, 0x0, .nat 0 2⟩,
  ⟨0x2000, 1, 0x0, 0x08, 1, 0x0, .u8, 1, .ro, .e, zeros 1, 0x0, 0x0, .any⟩,
  ⟨0x2000, 1, 0x0, 0x09, 1, 0x0, .u16, 2, .roW1c, .e, le 2 0x1, 0x1FF, 0xBC, .any⟩,
  ⟨0x2000, 1, 0x0, 0x0A, 1, 0x0, .u32, 4, .rw, .e, le 4 0x3E8, 0x1FF, 0x0, .nat 10 1000000⟩,
  ⟨0x2000, 1, 0x0, 0x0B, 1, 0x0, .u64, 8, .ro, .b, zeros 8, 0x0, 0x0, .any⟩,
  ⟨0x2000, 1, 0x0, 0x0C, 1, 0x0, .bool, 1, .rw, .e, le 1 0x1, 0x1FF, 0x0, .any⟩,
  ⟨0x2000, 1, 0x0, 0x10, 6, 0x0, .i32, 4, .rw, .e, zeros 4, 0x1FF, 0x0, .int (-100000) 100000⟩,
  ⟨0x2000, 1, 0x0, 0x18, 6, 0x0, .i32, 4, .rw, .e, zeros 4, 0x1FF, 0x0, .int (-100000) 100000⟩,
  ⟨0x2000, 1, 0x0, 0x20, 6, 0x0, .domain, 1024, .ro, .e, [], 0x0, 0x0, .any⟩]

/-- Rows of the object table, part 2: indices 0x2100 to 0x2100. -/
def objRows2 : List ObjRow := [
  ⟨0x2100, 1, 0x0, 0x01, 1, 0x10, .u8, 1, .rws, .e, zeros 1, 0x3, 0x0, .nat 0 2⟩,
  ⟨0x2100, 1, 0x0, 0x02, 1, 0x10, .u8, 1, .rws, .e, zeros 1, 0x3, 0x0, .nat 0 127⟩,
  ⟨0x2100, 1, 0x0, 0x03, 1, 0x10, .u8, 1, .rws, .e, zeros 1, 0x3, 0x0, .any⟩,
  ⟨0x2100, 1, 0x0, 0x04, 1, 0x10, .u8, 1, .ro, .e, zeros 1, 0x0, 0x0, .any⟩,
  ⟨0x2100, 1, 0x0, 0x05, 1, 0x10, .i64, 8, .ro, .e, zeros 8, 0x0, 0x0, .any⟩,
  ⟨0x2100, 1, 0x0, 0x06, 1, 0x10, .i32, 4, .ro, .e, zeros 4, 0x0, 0x0, .any⟩,
  ⟨0x2100, 1, 0x0, 0x07, 1, 0x10, .time96, 12, .ro, .e, zeros 12, 0x0, 0x0, .any⟩,
  ⟨0x2100, 1, 0x0, 0x08, 1, 0x10, .u32, 4, .rw, .e, le 4 0x64, 0x1FF, 0x0, .nat 1 1000000⟩,
  ⟨0x2100, 1, 0x0, 0x09, 1, 0x10, .u32, 4, .rw, .e, le 4 0x2710, 0x1FF, 0x0, .nat 100 3600000⟩,
  ⟨0x2100, 1, 0x0, 0x0A, 1, 0x10, .u32, 4, .ro, .e, zeros 4, 0x0, 0x0, .any⟩,
  ⟨0x2100, 1, 0x0, 0x0B, 1, 0x10, .i16, 2, .ro, .e, zeros 2, 0x0, 0x0, .any⟩,
  ⟨0x2100, 1, 0x0, 0x0C, 1, 0x10, .u64, 8, .ro, .e, zeros 8, 0x0, 0x0, .any⟩]

/-- Rows of the object table, part 3: indices 0x1000 to 0x1400. -/
def objRows3 : List ObjRow := [
  ⟨0x1000, 1, 0x0, 0x02, 1, 0x0, .u8, 1, .rws, .e, zeros 1, 0x3, 0x0, .nat 0 4⟩,
  ⟨0x1000, 2, 0x400, 0x03, 1, 0x0, .u8, 1, .rws, .e, zeros 1, 0x3, 0x0, .nat 0 2⟩,
  ⟨0x1000, 2, 0x400, 0x04, 1, 0x0, .domain, 2044, .rws, .e, [], 0x3, 0x0, .any⟩,
  ⟨0x1000, 2, 0x400, 0x05, 1, 0x0, .u16, 2, .rws, .e, le 2 0x50, 0x3, 0x0, .nat 20 400⟩,
  ⟨0x1000, 2, 0x400, 0x06, 1, 0x0, .u16, 2, .rws, .e, le 2 0xA0, 0x3, 0x0, .any⟩,
  ⟨0x1000, 2, 0x400, 0x07, 1, 0x0, .u32, 4, .rws, .e, le 4 0x2EE0, 0x3, 0x0, .any⟩,
  ⟨0x1000, 2, 0x400, 0x08, 1, 0x0, .u32, 4, .rws, .e, le 4 0xD610, 0x3, 0x0, .any⟩,
  ⟨0x1000, 2, 0x400, 0x09, 1, 0x0, .u16, 2, .rws, .e, le 2 0x100, 0x3, 0x0, .nat 4 1024⟩,
  ⟨0x1000, 2, 0x400, 0x0A, 1, 0x0, .u16, 2, .rws, .e, le 2 0x3E8, 0x3, 0x0, .nat 200 10000⟩,
  ⟨0x1000, 2, 0x400, 0x0B, 1, 0x0, .u16, 2, .rws, .e, zeros 2, 0x3, 0x0, .any⟩,
  ⟨0x1000, 2, 0x400, 0x0C, 1, 0x0, .domain, 32768, .rws, .e, [], 0x3, 0x0, .any⟩,
  ⟨0x1000, 2, 0x400, 0x0D, 1, 0x0, .u32, 4, .ro, .e, zeros 4, 0x0, 0x0, .any⟩,
  ⟨0x1000, 2, 0x400, 0x0E, 1, 0x0, .u8, 1, .ro, .e, zeros 1, 0x0, 0x0, .any⟩]

/-- Rows of the object table, part 4: indices 0x1000 to 0x1400. -/
def objRows4 : List ObjRow := [
  ⟨0x1000, 1, 0x0, 0x0F, 1, 0x0, .u32, 4, .rws, .e, le 4 0x7D0, 0x3, 0x0, .nat 100 60000⟩,
  ⟨0x1000, 2, 0x400, 0x10, 1, 0x0, .u8, 1, .rws, .e, le 1 0x2, 0x3, 0x0, .nat 1 16⟩,
  ⟨0x1000, 2, 0x400, 0x11, 1, 0x0, .domain, 4, .rws, .e, [], 0x3, 0x0, .any⟩,
  ⟨0x1000, 2, 0x400, 0x12, 1, 0x0, .u8, 1, .rws, .e, le 1 0x4, 0x3, 0x0, .nat 1 255⟩,
  ⟨0x1000, 2, 0x400, 0x13, 1, 0x0, .u16, 2, .rws, .e, le 2 0x10, 0x3, 0x0, .nat 1 1024⟩,
  ⟨0x1000, 2, 0x400, 0x14, 1, 0x0, .u8, 1, .rws, .e, le 1 0x3, 0x3, 0x0, .nat 1 255⟩,
  ⟨0x1000, 2, 0x400, 0x15, 1, 0x0, .u8, 1, .rws, .e, le 1 0x10, 0x3, 0x0, .nat 1 255⟩,
  ⟨0x1000, 2, 0x400, 0x16, 1, 0x0, .bool, 1, .rws, .e, le 1 0x1, 0x3, 0x0, .any⟩,
  ⟨0x1000, 2, 0x400, 0x17, 1, 0x0, .bool, 1, .rws, .e, le 1 0x1, 0x3, 0x0, .any⟩,
  ⟨0x1000, 2, 0x400, 0x18, 1, 0x0, .u32, 4, .ro, .e, zeros 4, 0x0, 0x0, .any⟩,
  ⟨0x1000, 2, 0x400, 0x19, 1, 0x0, .u16, 2, .ro, .e, le 2 0xFFFF, 0x0, 0x0, .any⟩,
  ⟨0x1000, 2, 0x400, 0x1A, 1, 0x0, .u32, 4, .ro, .e, zeros 4, 0x0, 0x0, .any⟩,
  ⟨0x1000, 2, 0x400, 0x1B, 1, 0x0, .u16, 2, .roW1c, .e, zeros 2, 0x1FF, 0xDE, .any⟩,
  ⟨0x1000, 2, 0x400, 0x1C, 1, 0x0, .domain, 16352, .ro, .e, [], 0x0, 0x0, .any⟩,
  ⟨0x1000, 2, 0x400, 0x1D, 1, 0x0, .domain, 64, .rw, .e, zeros 64, 0x1FF, 0x0, .any⟩]

/-- Rows of the object table, part 5: indices 0x3000 to 0x3700. -/
def objRows5 : List ObjRow := [
  ⟨0x3000, 8, 0x100, 0x01, 1, 0x0, .u8, 1, .rws, .e, zeros 1, 0x3, 0x0, .nat 0 8⟩,
  ⟨0x3000, 8, 0x100, 0x02, 1, 0x0, .u8, 1, .rws, .e, le 1 0x4, 0x3, 0x0, .oneOf [1, 2, 4, 8, 16]⟩,
  ⟨0x3000, 8, 0x100, 0x03, 1, 0x0, .u8, 1, .rws, .e, le 1 0x10, 0x3, 0x0, .nat 4 64⟩,
  ⟨0x3000, 8, 0x100, 0x04, 1, 0x0, .u16, 2, .rw, .b, le 2 0x2710, 0x1FF, 0x0, .nat 0 10000⟩,
  ⟨0x3000, 8, 0x100, 0x05, 1, 0x0, .u32, 4, .rws, .e, le 4 0x3E8, 0x3, 0x0, .nat 10 60000⟩,
  ⟨0x3000, 8, 0x100, 0x06, 1, 0x0, .u32, 4, .rws, .e, le 4 0xC8, 0x3, 0x0, .nat 10 60000⟩,
  ⟨0x3000, 8, 0x100, 0x07, 1, 0x0, .u32, 4, .rws, .e, le 4 0x1F4, 0x3, 0x0, .nat 10 10000⟩,
  ⟨0x3000, 8, 0x100, 0x08, 1, 0x0, .u32, 4, .ro, .b, zeros 4, 0x0, 0x0, .any⟩,
  ⟨0x3000, 8, 0x100, 0x09, 1, 0x0, .u64, 8, .ro, .e, zeros 8, 0x0, 0x0, .any⟩,
  ⟨0x3000, 8, 0x100, 0x0A, 1, 0x0, .f32, 4, .rws, .e, le 4 0x38D1B717, 0x3, 0x0, .any⟩,
  ⟨0x3000, 8, 0x100, 0x0B, 1, 0x0, .u8, 1, .rws, .e, le 1 0x4, 0x3, 0x0, .nat 1 16⟩,
  ⟨0x3000, 8, 0x100, 0x0C, 1, 0x0, .f32, 4, .rws, .e, le 4 0x3C23D70A, 0x3, 0x0, .f32 897988541 1065353216⟩,
  ⟨0x3000, 8, 0x100, 0x0D, 1, 0x0, .f32, 4, .rws, .e, le 4 0x38D1B717, 0x3, 0x0, .any⟩,
  ⟨0x3000, 8, 0x100, 0x0E, 1, 0x0, .f32, 4, .rws, .e, le 4 0x3A83126F, 0x3, 0x0, .any⟩,
  ⟨0x3000, 8, 0x100, 0x0F, 1, 0x0, .domain, 32, .rws, .e, zeros 32, 0x3, 0x0, .any⟩,
  ⟨0x3000, 8, 0x100, 0x10, 1, 0x0, .f32, 4, .rws, .e, le 4 0x3DCCCCCD, 0x3, 0x0, .f32 0 1065353216⟩]

/-- Rows of the object table, part 6: indices 0x3001 to 0x3704. -/
def objRows6 : List ObjRow := [
  ⟨0x3001, 8, 0x100, 0x01, 1, 0x0, .domain, 992, .rws, .e, [], 0x3, 0x0, .any⟩,
  ⟨0x3002, 8, 0x100, 0x01, 1, 0x0, .domain, 96, .rws, .b, [], 0x50, 0x0, .any⟩,
  ⟨0x3002, 8, 0x100, 0x02, 1, 0x0, .domain, 16, .ro, .b, zeros 16, 0x0, 0x0, .any⟩,
  ⟨0x3003, 8, 0x100, 0x01, 1, 0x0, .domain, 40, .rws, .b, [], 0x50, 0x0, .any⟩,
  ⟨0x3004, 8, 0x100, 0x01, 1, 0x0, .domain, 96, .ro, .e, zeros 96, 0x0, 0x0, .any⟩,
  ⟨0x3004, 8, 0x100, 0x02, 1, 0x0, .domain, 132, .ro, .e, zeros 4, 0x0, 0x0, .any⟩]

/-- Rows of the object table, part 7: indices 0x3005 to 0x3803. -/
def objRows7 : List ObjRow := [
  ⟨0x3005, 8, 0x100, 0x01, 1, 0x0, .domain, 6160, .ro, .e, [], 0x0, 0x0, .any⟩,
  ⟨0x3006, 8, 0x100, 0x01, 1, 0x0, .domain, 28, .ro, .b, zeros 28, 0x0, 0x0, .any⟩,
  ⟨0x3800, 4, 0x1, 0x01, 1, 0x0, .u8, 1, .rws, .e, zeros 1, 0x3, 0x0, .any⟩,
  ⟨0x3800, 4, 0x1, 0x02, 1, 0x0, .domain, 28, .rws, .e, le 4 0x3F800000 ++ zeros 24, 0x1FF, 0x0, .any⟩,
  ⟨0x3800, 4, 0x1, 0x03, 1, 0x0, .u8, 1, .wo, .b, zeros 1, 0x1FF, 0x0, .any⟩,
  ⟨0x3800, 4, 0x1, 0x04, 1, 0x0, .u8, 1, .ro, .b, zeros 1, 0x0, 0x0, .any⟩,
  ⟨0x3800, 4, 0x1, 0x05, 1, 0x0, .domain, 96, .rws, .b, [], 0x50, 0x0, .any⟩,
  ⟨0x3800, 4, 0x1, 0x06, 1, 0x0, .domain, 16, .ro, .b, zeros 16, 0x0, 0x0, .any⟩,
  ⟨0x3800, 4, 0x1, 0x07, 1, 0x0, .f32, 4, .rws, .e, le 4 0x43C80000, 0x3, 0x0, .f32 0 1176256512⟩,
  ⟨0x3800, 4, 0x1, 0x08, 1, 0x0, .f32, 4, .rws, .e, le 4 0x42200000, 0x3, 0x0, .f32 0 1128792064⟩,
  ⟨0x3800, 4, 0x1, 0x09, 1, 0x0, .f32, 4, .rws, .e, le 4 0x3B03126F, 0x3, 0x0, .any⟩,
  ⟨0x3800, 4, 0x1, 0x0A, 1, 0x0, .f32, 4, .rws, .e, le 4 0x3BA3D70A, 0x3, 0x0, .any⟩,
  ⟨0x3800, 4, 0x1, 0x0B, 1, 0x0, .domain, 224, .ro, .e, (List.replicate 8 (le 4 0x3F800000 ++ zeros 24)).flatten, 0x0, 0x0, .any⟩]

/-- Rows of the object table, part 8: indices 0x3900 to 0x391F. -/
def objRows8 : List ObjRow := [
  ⟨0x3900, 32, 0x1, 0x01, 1, 0x0, .u8, 1, .rws, .e, le 1 0xFF, 0x3, 0x0, .oneOf [0, 1, 2, 3, 4, 5, 6, 7, 255]⟩,
  ⟨0x3900, 32, 0x1, 0x02, 1, 0x0, .u8, 1, .rws, .e, zeros 1, 0x3, 0x0, .oneOf [0, 1, 2, 4, 5, 6]⟩,
  ⟨0x3900, 32, 0x1, 0x03, 1, 0x0, .i8, 1, .rws, .e, le 1 0x1, 0x3, 0x0, .oneOf [1, 255]⟩,
  ⟨0x3900, 32, 0x1, 0x04, 1, 0x0, .f32, 4, .rw, .e, le 4 0x38D1B717, 0x1FF, 0x0, .f32 0 1008981770⟩,
  ⟨0x3900, 32, 0x1, 0x05, 1, 0x0, .f32, 4, .rw, .e, le 4 0x3B03126F, 0x1FF, 0x0, .f32 925353388 1028443341⟩,
  ⟨0x3900, 32, 0x1, 0x06, 1, 0x0, .f32, 4, .rw, .e, le 4 0x3BA3D70A, 0x1FF, 0x0, .f32 0 1036831949⟩,
  ⟨0x3900, 32, 0x1, 0x07, 1, 0x0, .f32, 4, .rw, .e, zeros 4, 0x1FF, 0x0, .f32 0 1092616192⟩,
  ⟨0x3900, 32, 0x1, 0x08, 1, 0x0, .f32, 4, .rw, .b, zeros 4, 0x1FF, 0x0, .any⟩,
  ⟨0x3900, 32, 0x1, 0x09, 1, 0x0, .f32, 4, .rw, .e, le 4 0x3A83126F, 0x1FF, 0x0, .f32 925353388 1036831949⟩,
  ⟨0x3900, 32, 0x1, 0x0A, 1, 0x0, .u8, 1, .rw, .e, le 1 0x10, 0x1FF, 0x0, .nat 1 62⟩,
  ⟨0x3900, 32, 0x1, 0x0B, 1, 0x0, .f32, 4, .ro, .e, le 4 0x7FC00000, 0x0, 0x0, .any⟩,
  ⟨0x3900, 32, 0x1, 0x0C, 1, 0x0, .u8, 1, .rw, .b, zeros 1, 0x1FF, 0x0, .nat 0 1⟩,
  ⟨0x3900, 32, 0x1, 0x0D, 1, 0x0, .f32, 4, .ro, .b, zeros 4, 0x0, 0x0, .any⟩,
  ⟨0x3900, 32, 0x1, 0x0E, 1, 0x0, .f32, 4, .ro, .e, zeros 4, 0x0, 0x0, .any⟩,
  ⟨0x3900, 32, 0x1, 0x0F, 1, 0x0, .u8, 1, .roW1c, .b, zeros 1, 0x1FF, 0x18, .any⟩,
  ⟨0x3900, 32, 0x1, 0x10, 1, 0x0, .u8, 1, .rw, .e, zeros 1, 0x1FF, 0x0, .nat 0 1⟩]

/-- Rows of the object table, part 9: indices 0x3900 to 0x391F. -/
def objRows9 : List ObjRow := [
  ⟨0x3900, 32, 0x1, 0x11, 1, 0x0, .f32, 4, .ro, .e, zeros 4, 0x0, 0x0, .any⟩]

/-- Rows of the object table, part 10: indices 0x4000 to 0x4000. -/
def objRows10 : List ObjRow := [
  ⟨0x4000, 1, 0x0, 0x01, 1, 0x0, .u16, 2, .roW1c, .e, zeros 2, 0x1FF, 0x7FF, .any⟩,
  ⟨0x4000, 1, 0x0, 0x02, 1, 0x0, .domain, 832, .ro, .b, [], 0x0, 0x0, .any⟩,
  ⟨0x4000, 1, 0x0, 0x03, 1, 0x0, .u8, 1, .rws, .e, le 1 0x14, 0x3, 0x0, .nat 8 64⟩,
  ⟨0x4000, 1, 0x0, 0x04, 1, 0x0, .f32, 4, .rws, .e, le 4 0x3DCCCCCD, 0x3, 0x0, .f32 953267991 1176256512⟩,
  ⟨0x4000, 1, 0x0, 0x05, 1, 0x0, .f32, 4, .rws, .e, le 4 0x447A0000, 0x3, 0x0, .f32 1065353216 1232348160⟩,
  ⟨0x4000, 1, 0x0, 0x06, 1, 0x0, .f32, 4, .rws, .e, le 4 0x358637BD, 0x3, 0x0, .f32 814313567 1065353216⟩,
  ⟨0x4000, 1, 0x0, 0x07, 1, 0x0, .f32, 4, .rws, .e, le 4 0x3FCCCCCD, 0x3, 0x0, .f32 1065353216 1072902963⟩,
  ⟨0x4000, 1, 0x0, 0x08, 1, 0x0, .f32, 4, .rw, .e, le 4 0x451C4000, 0x1FF, 0x0, .f32 0 1203982336⟩,
  ⟨0x4000, 1, 0x0, 0x09, 1, 0x0, .f32, 4, .rw, .e, le 4 0x42C80000, 0x1FF, 0x0, .f32 0 1148846080⟩,
  ⟨0x4000, 1, 0x0, 0x0A, 1, 0x0, .f32, 4, .rw, .e, le 4 0x358637BD, 0x1FF, 0x0, .f32 0 1065353216⟩,
  ⟨0x4000, 1, 0x0, 0x0B, 1, 0x0, .domain, 256, .rw, .e, (List.replicate 64 (le 4 0x3F800000)).flatten, 0x1FF, 0x0, .any⟩,
  ⟨0x4000, 1, 0x0, 0x0C, 1, 0x0, .u64, 8, .rws, .e, zeros 8, 0x3, 0x0, .any⟩,
  ⟨0x4000, 1, 0x0, 0x0D, 1, 0x0, .domain, 512, .rw, .e, (List.replicate 64 (le 4 0x461C4000 ++ le 4 0x447A0000)).flatten, 0x1FF, 0x0, .any⟩,
  ⟨0x4000, 1, 0x0, 0x0E, 1, 0x0, .f32, 4, .rws, .e, le 4 0x41200000, 0x3, 0x0, .f32 981668463 1148846080⟩,
  ⟨0x4000, 1, 0x0, 0x0F, 1, 0x0, .u32, 4, .rws, .e, le 4 0x4E20, 0x3, 0x0, .nat 5000 4294967295⟩,
  ⟨0x4000, 1, 0x0, 0x10, 1, 0x0, .u32, 4, .ro, .e, zeros 4, 0x0, 0x0, .any⟩]

/-- Rows of the object table, part 11: indices 0x4000 to 0x4000. -/
def objRows11 : List ObjRow := [
  ⟨0x4000, 1, 0x0, 0x11, 1, 0x0, .f32, 4, .rw, .e, le 4 0x3A83126F, 0x1FF, 0x0, .f32 814313567 1065353216⟩,
  ⟨0x4000, 1, 0x0, 0x12, 1, 0x0, .f32, 4, .rw, .e, le 4 0x3F000000, 0x1FF, 0x0, .f32 1028443341 1065353216⟩,
  ⟨0x4000, 1, 0x0, 0x13, 1, 0x0, .u8, 1, .ro, .e, le 1 0x14, 0x0, 0x0, .any⟩,
  ⟨0x4000, 1, 0x0, 0x14, 1, 0x0, .domain, 1744, .ro, .e, [], 0x0, 0x0, .any⟩,
  ⟨0x4000, 1, 0x0, 0x15, 1, 0x0, .u32, 4, .ro, .e, zeros 4, 0x0, 0x0, .any⟩,
  ⟨0x4000, 1, 0x0, 0x16, 1, 0x0, .u32, 4, .ro, .b, zeros 4, 0x0, 0x0, .any⟩,
  ⟨0x4000, 1, 0x0, 0x17, 1, 0x0, .u32, 4, .ro, .e, zeros 4, 0x0, 0x0, .any⟩,
  ⟨0x4000, 1, 0x0, 0x18, 1, 0x0, .u32, 4, .ro, .e, zeros 4, 0x0, 0x0, .any⟩,
  ⟨0x4000, 1, 0x0, 0x19, 1, 0x0, .domain, 12, .rws, .e, zeros 8 ++ le 4 0xC11CE80A, 0x3, 0x0, .any⟩]

/-- Rows of the object table, part 12: indices 0x4100 to 0x4100. -/
def objRows12 : List ObjRow := [
  ⟨0x4100, 1, 0x0, 0x01, 1, 0x0, .u16, 2, .roW1c, .e, zeros 2, 0x1FF, 0xFC, .any⟩,
  ⟨0x4100, 1, 0x0, 0x02, 1, 0x0, .domain, 32, .ro, .b, zeros 32, 0x0, 0x0, .any⟩,
  ⟨0x4100, 1, 0x0, 0x03, 1, 0x0, .u16, 2, .rws, .e, le 2 0x100, 0x3, 0x0, .nat 0 256⟩,
  ⟨0x4100, 1, 0x0, 0x04, 1, 0x0, .f32, 4, .rws, .e, le 4 0x3FCCCCCD, 0x3, 0x0, .f32 1056964608 1084227584⟩,
  ⟨0x4100, 1, 0x0, 0x05, 1, 0x0, .u32, 4, .rws, .e, le 4 0x7D0, 0x3, 0x0, .nat 100 100000⟩,
  ⟨0x4100, 1, 0x0, 0x06, 1, 0x0, .u8, 1, .rws, .e, le 1 0x2, 0x3, 0x0, .nat 1 8⟩,
  ⟨0x4100, 1, 0x0, 0x07, 1, 0x0, .f32, 4, .rws, .e, le 4 0x3F800000, 0x3, 0x0, .f32 1028443341 1084227584⟩,
  ⟨0x4100, 1, 0x0, 0x08, 1, 0x0, .f32, 4, .rws, .e, le 4 0x3D4CCCCD, 0x3, 0x0, .any⟩,
  ⟨0x4100, 1, 0x0, 0x09, 1, 0x0, .f32, 4, .rws, .e, le 4 0x3E99999A, 0x3, 0x0, .any⟩,
  ⟨0x4100, 1, 0x0, 0x0A, 1, 0x0, .f32, 4, .rws, .e, le 4 0x3F000000, 0x3, 0x0, .f32 1008981770 1084227584⟩,
  ⟨0x4100, 1, 0x0, 0x0B, 1, 0x0, .f32, 4, .rws, .e, le 4 0x3D4CCCCD, 0x3, 0x0, .any⟩,
  ⟨0x4100, 1, 0x0, 0x0C, 1, 0x0, .f32, 4, .rws, .e, le 4 0x3DCCCCCD, 0x3, 0x0, .f32 0 1065353216⟩,
  ⟨0x4100, 1, 0x0, 0x0D, 1, 0x0, .f32, 4, .rws, .e, le 4 0x3D4CCCCD, 0x3, 0x0, .f32 0 1065353216⟩,
  ⟨0x4100, 1, 0x0, 0x0E, 1, 0x0, .domain, 128, .rws, .e, (List.replicate 8 (le 4 0x3B83126F ++ le 4 0x3C23D70A ++ le 4 0x3DCCCCCD ++ [255, 255, 0, 0])).flatten, 0x3, 0x0, .any⟩,
  ⟨0x4100, 1, 0x0, 0x0F, 1, 0x0, .u8, 1, .rws, .e, le 1 0x8, 0x3, 0x0, .nat 0 14⟩,
  ⟨0x4100, 1, 0x0, 0x10, 1, 0x0, .domain, 512, .rws, .e, [], 0x3, 0x0, .any⟩]

/-- Rows of the object table, part 13: indices 0x4100 to 0x4100. -/
def objRows13 : List ObjRow := [
  ⟨0x4100, 1, 0x0, 0x11, 1, 0x0, .u32, 4, .ro, .e, zeros 4, 0x0, 0x0, .any⟩,
  ⟨0x4100, 1, 0x0, 0x12, 1, 0x0, .u32, 4, .ro, .e, zeros 4, 0x0, 0x0, .any⟩,
  ⟨0x4100, 1, 0x0, 0x13, 1, 0x0, .u16, 2, .ro, .e, zeros 2, 0x0, 0x0, .any⟩,
  ⟨0x4100, 1, 0x0, 0x14, 1, 0x0, .u32, 4, .ro, .e, zeros 4, 0x0, 0x0, .any⟩,
  ⟨0x4100, 1, 0x0, 0x15, 1, 0x0, .u32, 4, .ro, .e, zeros 4, 0x0, 0x0, .any⟩,
  ⟨0x4100, 1, 0x0, 0x16, 1, 0x0, .domain, 4096, .ro, .e, [], 0x0, 0x0, .any⟩]

/-- Rows of the object table, part 14: indices 0x4101 to 0x4200. -/
def objRows14 : List ObjRow := [
  ⟨0x4101, 1, 0x0, 0x01, 8, 0x0, .domain, 384, .rws, .e, (List.replicate 12 (255 :: zeros 31)).flatten, 0x3, 0x0, .any⟩,
  ⟨0x4102, 1, 0x0, 0x01, 1, 0x0, .domain, 1024, .rws, .e, zeros 1024, 0x3, 0x0, .any⟩,
  ⟨0x4103, 1, 0x0, 0x01, 16, 0x0, .domain, 1024, .ro, .e, [], 0x0, 0x0, .any⟩,
  ⟨0x4104, 1, 0x0, 0x01, 1, 0x0, .domain, 7168, .ro, .e, zeros 7168, 0x0, 0x0, .any⟩,
  ⟨0x4200, 1, 0x0, 0x01, 1, 0x0, .domain, 128, .ro, .b, zeros 128, 0x0, 0x0, .any⟩,
  ⟨0x4200, 1, 0x0, 0x02, 1, 0x0, .f32, 4, .rws, .e, le 4 0x3CA3D70A, 0x3, 0x0, .any⟩,
  ⟨0x4200, 1, 0x0, 0x03, 1, 0x0, .domain, 8, .rws, .e, zeros 8, 0x3, 0x0, .any⟩]

/-- Rows of the object table, part 15: indices 0x4201 to 0x4203. -/
def objRows15 : List ObjRow := [
  ⟨0x4201, 1, 0x0, 0x01, 32, 0x0, .domain, 48, .rws, .e, zeros 48, 0x3, 0x0, .any⟩,
  ⟨0x4202, 1, 0x0, 0x01, 8, 0x0, .u32, 4, .rws, .b, zeros 4, 0x78, 0x0, .any⟩,
  ⟨0x4203, 1, 0x0, 0x01, 8, 0x0, .u32, 4, .ro, .b, zeros 4, 0x0, 0x0, .any⟩]

/-- Rows of the object table, part 16: indices 0x5000 to 0x5000. -/
def objRows16 : List ObjRow := [
  ⟨0x5000, 1, 0x0, 0x01, 1, 0x0, .u16, 2, .roW1c, .e, zeros 2, 0x1FF, 0x3E, .any⟩,
  ⟨0x5000, 1, 0x0, 0x02, 1, 0x0, .u8, 1, .rws, .e, le 1 0x5, 0x3, 0x0, .nat 0 10⟩,
  ⟨0x5000, 1, 0x0, 0x03, 1, 0x0, .u32, 4, .rws, .e, le 4 0x1F4, 0x3, 0x0, .nat 200 10000⟩,
  ⟨0x5000, 1, 0x0, 0x04, 1, 0x0, .u32, 4, .rws, .e, le 4 0x4E20, 0x3, 0x0, .nat 2000 990000⟩,
  ⟨0x5000, 1, 0x0, 0x05, 1, 0x0, .u8, 1, .rws, .e, le 1 0x4, 0x3, 0x0, .nat 1 16⟩,
  ⟨0x5000, 1, 0x0, 0x06, 1, 0x0, .u8, 1, .rws, .e, le 1 0x3, 0x3, 0x0, .nat 1 255⟩,
  ⟨0x5000, 1, 0x0, 0x07, 1, 0x0, .u32, 4, .ro, .e, zeros 4, 0x0, 0x0, .any⟩,
  ⟨0x5000, 1, 0x0, 0x08, 1, 0x0, .u32, 4, .ro, .e, zeros 4, 0x0, 0x0, .any⟩,
  ⟨0x5000, 1, 0x0, 0x09, 1, 0x0, .domain, 16, .ro, .e, zeros 16, 0x0, 0x0, .any⟩,
  ⟨0x5000, 1, 0x0, 0x0A, 1, 0x0, .u32, 4, .ro, .e, zeros 4, 0x0, 0x0, .any⟩,
  ⟨0x5000, 1, 0x0, 0x0B, 1, 0x0, .domain, 4064, .rws, .e, [], 0x3, 0x0, .any⟩,
  ⟨0x5000, 1, 0x0, 0x0C, 1, 0x0, .domain, 12288, .rws, .e, [], 0x3, 0x0, .any⟩,
  ⟨0x5000, 1, 0x0, 0x0D, 1, 0x0, .domain, 65536, .rws, .e, [], 0x3, 0x0, .any⟩,
  ⟨0x5000, 1, 0x0, 0x0E, 1, 0x0, .domain, 8192, .ro, .e, [], 0x0, 0x0, .any⟩,
  ⟨0x5000, 1, 0x0, 0x0F, 1, 0x0, .domain, 262144, .rws, .e, [], 0x3, 0x0, .any⟩,
  ⟨0x5000, 1, 0x0, 0x10, 1, 0x0, .u8, 1, .ro, .e, le 1 0xFF, 0x0, 0x0, .any⟩]

/-- Rows of the object table, part 17: indices 0x5000 to 0x5461. -/
def objRows17 : List ObjRow := [
  ⟨0x5000, 1, 0x0, 0x11, 1, 0x0, .domain, 32, .ro, .e, zeros 32, 0x0, 0x0, .any⟩,
  ⟨0x5001, 1, 0x0, 0x01, 64, 0x0, .domain, 64, .rws, .e, le 4 0x42480000 ++ le 4 0x41A00000 ++ le 4 0x42C80000 ++ le 4 0x3F800000 ++ le 4 0x44FA0000 ++ zeros 4 ++ le 4 0x3F800000 ++ zeros 16 ++ le 4 0x3F800000 ++ zeros 16, 0x3, 0x0, .any⟩,
  ⟨0x5400, 1, 0x0, 0x01, 1, 0x0, .domain, 16, .rws, .e, zeros 16, 0x3, 0x0, .any⟩,
  ⟨0x5400, 1, 0x0, 0x02, 1, 0x0, .u8, 1, .wo, .e, zeros 1, 0x1FF, 0x0, .any⟩,
  ⟨0x5410, 82, 0x1, 0x01, 1, 0x0, .u64, 8, .ro, .e, zeros 8, 0x0, 0x0, .any⟩,
  ⟨0x5410, 82, 0x1, 0x02, 6, 0x0, .u64, 8, .ro, .e, zeros 8, 0x0, 0x0, .any⟩,
  ⟨0x5410, 82, 0x1, 0x08, 1, 0x0, .domain, 6, .rw, .e, [1, 2, 3, 4, 0, 0], 0x1FF, 0x0, .any⟩,
  ⟨0x5410, 82, 0x1, 0x09, 1, 0x0, .domain, 72, .ro, .e, [], 0x0, 0x0, .any⟩,
  ⟨0x5410, 82, 0x1, 0x0A, 1, 0x0, .u8, 1, .roW1c, .e, zeros 1, 0x1FF, 0x3F, .any⟩,
  ⟨0x5410, 82, 0x1, 0x0B, 1, 0x0, .u8, 1, .wo, .e, zeros 1, 0x1FF, 0x0, .any⟩]

/-- Rows of the object table, part 18: indices 0x6000 to 0x600F. -/
def objRows18 : List ObjRow := [
  ⟨0x6000, 16, 0x1, 0x01, 1, 0x0, .u8, 1, .rws, .e, zeros 1, 0x3, 0x0, .nat 0 1⟩,
  ⟨0x6000, 16, 0x1, 0x02, 1, 0x0, .f32, 4, .rws, .e, le 4 0x3F800000, 0x3, 0x0, .f32 1 2139095039⟩,
  ⟨0x6000, 16, 0x1, 0x03, 1, 0x0, .f32, 4, .rws, .e, le 4 0x3F800000, 0x3, 0x0, .f32 1 2139095039⟩,
  ⟨0x6000, 16, 0x1, 0x04, 1, 0x0, .f32, 4, .rws, .e, le 4 0x41200000, 0x3, 0x0, .f32 1 2139095039⟩,
  ⟨0x6000, 16, 0x1, 0x05, 1, 0x0, .f32, 4, .rws, .e, le 4 0x447A0000, 0x3, 0x0, .f32 1 2139095039⟩,
  ⟨0x6000, 16, 0x1, 0x06, 1, 0x0, .f32, 4, .rws, .e, le 4 0xBF800000, 0x3, 0x0, .any⟩,
  ⟨0x6000, 16, 0x1, 0x07, 1, 0x0, .f32, 4, .rws, .e, le 4 0x3F800000, 0x3, 0x0, .any⟩,
  ⟨0x6000, 16, 0x1, 0x08, 1, 0x0, .bool, 1, .rws, .e, zeros 1, 0x3, 0x0, .any⟩,
  ⟨0x6000, 16, 0x1, 0x09, 1, 0x0, .f32, 4, .rws, .e, le 4 0x3A83126F, 0x3, 0x0, .any⟩,
  ⟨0x6000, 16, 0x1, 0x0A, 1, 0x0, .domain, 16, .rws, .e, le 4 2000 ++ le 4 8000 ++ le 4 32000 ++ le 4 128000, 0x3, 0x0, .any⟩,
  ⟨0x6000, 16, 0x1, 0x0B, 1, 0x0, .u16, 2, .rws, .e, le 2 0x64, 0x3, 0x0, .nat 0 500⟩,
  ⟨0x6000, 16, 0x1, 0x0C, 1, 0x0, .u8, 1, .rws, .e, le 1 0x40, 0x3, 0x0, .any⟩,
  ⟨0x6000, 16, 0x1, 0x0D, 1, 0x0, .domain, 8, .rws, .e, [0, 1, 2, 3, 4, 5, 6, 0], 0x3, 0x0, .any⟩,
  ⟨0x6000, 16, 0x1, 0x0E, 1, 0x0, .u16, 2, .rws, .e, le 2 0x64, 0x3, 0x0, .nat 20 1000⟩,
  ⟨0x6000, 16, 0x1, 0x0F, 1, 0x0, .u16, 2, .rws, .e, le 2 0xC8, 0x3, 0x0, .nat 20 5000⟩,
  ⟨0x6000, 16, 0x1, 0x10, 1, 0x0, .u32, 4, .rws, .e, le 4 0x1F4, 0x3, 0x0, .nat 10 600000⟩]

/-- Rows of the object table, part 19: indices 0x6000 to 0x600F. -/
def objRows19 : List ObjRow := [
  ⟨0x6000, 16, 0x1, 0x11, 1, 0x0, .u8, 1, .rws, .e, le 1 0x2, 0x3, 0x0, .nat 0 2⟩,
  ⟨0x6000, 16, 0x1, 0x12, 1, 0x0, .u32, 4, .rws, .e, le 4 0x3E8, 0x3, 0x0, .nat 0 100000⟩,
  ⟨0x6000, 16, 0x1, 0x13, 1, 0x0, .f32, 4, .rws, .e, zeros 4, 0x3, 0x0, .f32 0 2139095039⟩,
  ⟨0x6000, 16, 0x1, 0x14, 1, 0x0, .domain, 96, .rws, .b, [], 0x50, 0x0, .any⟩,
  ⟨0x6000, 16, 0x1, 0x15, 1, 0x0, .domain, 16, .ro, .b, zeros 16, 0x0, 0x0, .any⟩,
  ⟨0x6000, 16, 0x1, 0x16, 1, 0x0, .f64, 8, .ro, .b, zeros 8, 0x0, 0x0, .any⟩,
  ⟨0x6000, 16, 0x1, 0x17, 1, 0x0, .i64, 8, .ro, .e, zeros 8, 0x0, 0x0, .any⟩,
  ⟨0x6000, 16, 0x1, 0x18, 1, 0x0, .u16, 2, .roW1c, .e, zeros 2, 0x1FF, 0x60, .any⟩,
  ⟨0x6000, 16, 0x1, 0x19, 1, 0x0, .u8, 1, .ro, .e, zeros 1, 0x0, 0x0, .any⟩]

/-- Rows of the object table, part 20: indices 0x6100 to 0x610F. -/
def objRows20 : List ObjRow := [
  ⟨0x6100, 16, 0x1, 0x01, 1, 0x0, .u8, 1, .rws, .e, zeros 1, 0x3, 0x0, .nat 0 3⟩,
  ⟨0x6100, 16, 0x1, 0x02, 1, 0x0, .u8, 1, .rws, .e, le 1 0x3, 0x3, 0x0, .nat 1 32⟩,
  ⟨0x6100, 16, 0x1, 0x03, 1, 0x0, .bool, 1, .rws, .e, zeros 1, 0x3, 0x0, .any⟩,
  ⟨0x6100, 16, 0x1, 0x04, 1, 0x0, .u32, 4, .rws, .e, zeros 4, 0x3, 0x0, .nat 0 2147483648⟩,
  ⟨0x6100, 16, 0x1, 0x05, 1, 0x0, .u32, 4, .rws, .e, zeros 4, 0x3, 0x0, .any⟩,
  ⟨0x6100, 16, 0x1, 0x06, 1, 0x0, .u16, 2, .rws, .e, le 2 0x2, 0x3, 0x0, .any⟩,
  ⟨0x6100, 16, 0x1, 0x07, 1, 0x0, .u8, 1, .rw, .e, zeros 1, 0x1FF, 0x0, .nat 0 1⟩,
  ⟨0x6100, 16, 0x1, 0x08, 1, 0x0, .u8, 1, .rws, .e, zeros 1, 0x3, 0x0, .nat 0 1⟩,
  ⟨0x6100, 16, 0x1, 0x09, 1, 0x0, .u32, 4, .rw, .e, le 4 0x3E8, 0x1FF, 0x0, .any⟩,
  ⟨0x6100, 16, 0x1, 0x0A, 1, 0x0, .u8, 1, .rws, .e, le 1 0x19, 0x3, 0x0, .nat 8 48⟩,
  ⟨0x6100, 16, 0x1, 0x0B, 1, 0x0, .u16, 2, .rws, .e, le 2 0x1, 0x3, 0x0, .any⟩,
  ⟨0x6100, 16, 0x1, 0x0C, 1, 0x0, .u32, 4, .rws, .e, le 4 0xF4240, 0x3, 0x0, .nat 100000 10000000⟩,
  ⟨0x6100, 16, 0x1, 0x0D, 1, 0x0, .u16, 2, .rws, .e, zeros 2, 0x3, 0x0, .nat 0 2000⟩,
  ⟨0x6100, 16, 0x1, 0x0E, 1, 0x0, .u32, 4, .rws, .e, zeros 4, 0x3, 0x0, .nat 0 999999⟩,
  ⟨0x6100, 16, 0x1, 0x0F, 1, 0x0, .u8, 1, .rws, .e, le 1 0x1, 0x3, 0x0, .oneOf [1, 2, 4, 8, 16, 32, 64]⟩,
  ⟨0x6100, 16, 0x1, 0x10, 1, 0x0, .u16, 2, .rws, .e, le 2 0x14, 0x3, 0x0, .nat 1 100⟩]

/-- Rows of the object table, part 21: indices 0x6100 to 0x610F. -/
def objRows21 : List ObjRow := [
  ⟨0x6100, 16, 0x1, 0x11, 1, 0x0, .u16, 2, .rws, .e, zeros 2, 0x3, 0x0, .any⟩,
  ⟨0x6100, 16, 0x1, 0x12, 1, 0x0, .u32, 4, .rws, .e, zeros 4, 0x3, 0x0, .any⟩,
  ⟨0x6100, 16, 0x1, 0x13, 1, 0x0, .u16, 2, .rws, .e, le 2 0x1, 0x3, 0x0, .nat 1 65535⟩,
  ⟨0x6100, 16, 0x1, 0x14, 1, 0x0, .u32, 4, .rws, .e, le 4 0x10, 0x3, 0x0, .any⟩,
  ⟨0x6100, 16, 0x1, 0x15, 1, 0x0, .u8, 1, .rws, .e, le 1 0x4, 0x3, 0x0, .nat 1 64⟩,
  ⟨0x6100, 16, 0x1, 0x16, 1, 0x0, .i64, 8, .ro, .b, zeros 8, 0x0, 0x0, .any⟩,
  ⟨0x6100, 16, 0x1, 0x17, 1, 0x0, .f32, 4, .ro, .b, zeros 4, 0x0, 0x0, .any⟩,
  ⟨0x6100, 16, 0x1, 0x18, 1, 0x0, .time96, 12, .ro, .e, zeros 12, 0x0, 0x0, .any⟩,
  ⟨0x6100, 16, 0x1, 0x19, 1, 0x0, .domain, 24, .ro, .e, zeros 24, 0x0, 0x0, .any⟩,
  ⟨0x6100, 16, 0x1, 0x1A, 1, 0x0, .u16, 2, .roW1c, .e, zeros 2, 0x1FF, 0x7FC, .any⟩,
  ⟨0x6100, 16, 0x1, 0x1B, 1, 0x0, .u32, 4, .ro, .e, zeros 4, 0x0, 0x0, .any⟩,
  ⟨0x6100, 16, 0x1, 0x1C, 1, 0x0, .u64, 8, .ro, .e, zeros 8, 0x0, 0x0, .any⟩]

/-- Rows of the object table, part 22: indices 0x6200 to 0x6207. -/
def objRows22 : List ObjRow := [
  ⟨0x6200, 8, 0x1, 0x01, 1, 0x0, .u16, 2, .rws, .e, le 2 0xFFFF, 0x3, 0x0, .any⟩,
  ⟨0x6200, 8, 0x1, 0x02, 1, 0x0, .i32, 4, .rws, .e, le 4 0x1, 0x3, 0x0, .int (-1048576) 1048576⟩,
  ⟨0x6200, 8, 0x1, 0x03, 1, 0x0, .u32, 4, .rws, .e, le 4 0x1, 0x3, 0x0, .nat 1 16777216⟩,
  ⟨0x6200, 8, 0x1, 0x04, 1, 0x0, .u8, 1, .rws, .e, zeros 1, 0x3, 0x0, .nat 0 1⟩,
  ⟨0x6200, 8, 0x1, 0x05, 1, 0x0, .i64, 8, .rws, .e, zeros 8, 0x3, 0x0, .any⟩,
  ⟨0x6200, 8, 0x1, 0x06, 1, 0x0, .u32, 4, .rws, .e, zeros 4, 0x3, 0x0, .any⟩,
  ⟨0x6200, 8, 0x1, 0x07, 1, 0x0, .u32, 4, .rws, .e, zeros 4, 0x3, 0x0, .any⟩,
  ⟨0x6200, 8, 0x1, 0x08, 1, 0x0, .u16, 2, .rws, .e, le 2 0x32, 0x3, 0x0, .nat 50 10000⟩,
  ⟨0x6200, 8, 0x1, 0x09, 1, 0x0, .i64, 8, .ro, .e, zeros 8, 0x0, 0x0, .any⟩,
  ⟨0x6200, 8, 0x1, 0x0A, 1, 0x0, .u8, 1, .roW1c, .e, zeros 1, 0x1FF, 0x2, .any⟩]

/-- Rows of the object table, part 23: indices 0x6210 to 0x621F. -/
def objRows23 : List ObjRow := [
  ⟨0x6210, 16, 0x1, 0x01, 1, 0x10, .i64, 8, .rws, .b, zeros 8, 0x78, 0x0, .any⟩,
  ⟨0x6210, 16, 0x1, 0x02, 1, 0x10, .bool, 1, .rw, .e, zeros 1, 0x1FF, 0x0, .any⟩,
  ⟨0x6210, 16, 0x1, 0x03, 1, 0x10, .i64, 8, .rw, .e, zeros 8, 0x1FF, 0x0, .any⟩,
  ⟨0x6210, 16, 0x1, 0x04, 1, 0x10, .u32, 4, .rw, .e, le 4 0x3E8, 0x1FF, 0x0, .nat 20 1000000⟩,
  ⟨0x6210, 16, 0x1, 0x05, 1, 0x10, .u8, 1, .roW1c, .b, zeros 1, 0x1FF, 0x1E, .any⟩,
  ⟨0x6210, 16, 0x1, 0x06, 1, 0x10, .domain, 24, .ro, .e, zeros 24, 0x0, 0x0, .any⟩,
  ⟨0x6210, 16, 0x1, 0x07, 1, 0x10, .u8, 1, .wo, .b, zeros 1, 0x1FF, 0x0, .any⟩]

/-- Rows of the object table, part 24: indices 0x7000 to 0x7000. -/
def objRows24 : List ObjRow := [
  ⟨0x7000, 1, 0x0, 0x01, 1, 0x0, .u32, 4, .roW1c, .b, le 4 0x3, 0x1FF, 0x680, .any⟩,
  ⟨0x7000, 1, 0x0, 0x02, 1, 0x0, .u8, 1, .ro, .b, zeros 1, 0x0, 0x0, .any⟩,
  ⟨0x7000, 1, 0x0, 0x03, 1, 0x0, .u32, 4, .ro, .b, zeros 4, 0x0, 0x0, .any⟩,
  ⟨0x7000, 1, 0x0, 0x04, 1, 0x0, .u32, 4, .ro, .b, zeros 4, 0x0, 0x0, .any⟩,
  ⟨0x7000, 1, 0x0, 0x05, 1, 0x0, .u32, 4, .ro, .b, zeros 4, 0x0, 0x0, .any⟩,
  ⟨0x7000, 1, 0x0, 0x06, 1, 0x0, .u64, 8, .ro, .e, zeros 8, 0x0, 0x0, .any⟩,
  ⟨0x7000, 1, 0x0, 0x07, 1, 0x0, .u16, 2, .ro, .b, zeros 2, 0x0, 0x0, .any⟩,
  ⟨0x7000, 1, 0x0, 0x08, 1, 0x0, .domain, 65536, .wo, .e, [], 0x1FF, 0x0, .any⟩,
  ⟨0x7000, 1, 0x0, 0x09, 1, 0x0, .domain, 128, .ro, .e, [], 0x0, 0x0, .any⟩,
  ⟨0x7000, 1, 0x0, 0x0A, 1, 0x0, .domain, 32, .ro, .b, [], 0x0, 0x0, .any⟩,
  ⟨0x7000, 1, 0x0, 0x0B, 1, 0x0, .u32, 4, .ro, .b, zeros 4, 0x0, 0x0, .any⟩,
  ⟨0x7000, 1, 0x0, 0x0C, 1, 0x0, .u32, 4, .ro, .b, zeros 4, 0x0, 0x0, .any⟩,
  ⟨0x7000, 1, 0x0, 0x0D, 1, 0x0, .u8, 1, .wo, .b, zeros 1, 0x1FF, 0x0, .any⟩,
  ⟨0x7000, 1, 0x0, 0x0E, 1, 0x0, .domain, 64, .ro, .b, [], 0x0, 0x0, .any⟩,
  ⟨0x7000, 1, 0x0, 0x0F, 1, 0x0, .u16, 2, .ro, .e, zeros 2, 0x0, 0x0, .any⟩]

/-- Rows of the object table, part 25: indices 0x7001 to 0x7002. -/
def objRows25 : List ObjRow := [
  ⟨0x7001, 1, 0x0, 0x01, 1, 0x0, .domain, 64, .rw, .s, le 4 0x3FCCCCCD ++ le 4 0x3DCCCCCD ++ le 4 0x3D4CCCCD ++ le 4 0x3CA3D70A ++ le 4 2000 ++ le 4 1000 ++ le 4 50 ++ le 4 600 ++ le 4 1000 ++ le 4 480 ++ le 4 60 ++ le 4 80 ++ le 4 50 ++ le 4 500 ++ zeros 8, 0x1FF, 0x0, .any⟩,
  ⟨0x7001, 1, 0x0, 0x02, 1, 0x0, .domain, 256, .rw, .s, (List.replicate 32 ([0, 0, 255, 255, 0, 0, 0, 0])).flatten, 0x1FF, 0x0, .any⟩,
  ⟨0x7001, 1, 0x0, 0x03, 1, 0x0, .domain, 128, .rw, .s, zeros 128, 0x1FF, 0x0, .any⟩,
  ⟨0x7001, 1, 0x0, 0x04, 1, 0x0, .domain, 64, .rw, .s, (List.replicate 16 ([255, 0, 0, 0])).flatten, 0x1FF, 0x0, .any⟩,
  ⟨0x7001, 1, 0x0, 0x05, 1, 0x0, .domain, 1024, .rw, .s, [], 0x1FF, 0x0, .any⟩,
  ⟨0x7002, 1, 0x0, 0x01, 8, 0x0, .domain, 208, .rw, .s, le 4 0x3F19999A ++ le 4 0x3E800000 ++ le 4 0x3E800000 ++ le 4 0x3E800000 ++ le 4 0x3DCCCCCD ++ zeros 28 ++ [255, 0, 0, 0] ++ zeros 156, 0x1FF, 0x0, .any⟩]

/-- Rows of the object table, part 26: indices 0x7003 to 0x7800. -/
def objRows26 : List ObjRow := [
  ⟨0x7003, 1, 0x0, 0x01, 8, 0x0, .domain, 992, .rw, .s, [], 0x1FF, 0x0, .any⟩,
  ⟨0x7004, 1, 0x0, 0x01, 8, 0x0, .domain, 320, .rw, .s, (List.replicate 16 (255 :: zeros 19)).flatten, 0x1FF, 0x0, .any⟩,
  ⟨0x7800, 1, 0x0, 0x01, 1, 0x0, .bool, 1, .rws, .e, zeros 1, 0x3, 0x0, .any⟩,
  ⟨0x7800, 1, 0x0, 0x02, 1, 0x0, .u8, 1, .ro, .e, zeros 1, 0x0, 0x0, .any⟩,
  ⟨0x7800, 1, 0x0, 0x03, 1, 0x0, .u8, 1, .ro, .b, zeros 1, 0x0, 0x0, .any⟩,
  ⟨0x7800, 1, 0x0, 0x04, 1, 0x0, .u16, 2, .roW1c, .b, zeros 2, 0x1FF, 0x304, .any⟩,
  ⟨0x7800, 1, 0x0, 0x05, 1, 0x0, .u8, 1, .rws, .e, le 1 0x2, 0x3, 0x0, .nat 2 16⟩,
  ⟨0x7800, 1, 0x0, 0x06, 1, 0x0, .u32, 4, .ro, .e, zeros 4, 0x0, 0x0, .any⟩,
  ⟨0x7800, 1, 0x0, 0x07, 1, 0x0, .u32, 4, .ro, .e, zeros 4, 0x0, 0x0, .any⟩,
  ⟨0x7800, 1, 0x0, 0x08, 1, 0x0, .u32, 4, .ro, .e, zeros 4, 0x0, 0x0, .any⟩,
  ⟨0x7800, 1, 0x0, 0x09, 1, 0x0, .u32, 4, .rws, .e, le 4 0x15180, 0x3, 0x0, .nat 3600 2592000⟩,
  ⟨0x7800, 1, 0x0, 0x0A, 1, 0x0, .u32, 4, .ro, .e, zeros 4, 0x0, 0x0, .any⟩,
  ⟨0x7800, 1, 0x0, 0x0B, 1, 0x0, .domain, 8, .ro, .e, zeros 8, 0x0, 0x0, .any⟩,
  ⟨0x7800, 1, 0x0, 0x0C, 1, 0x0, .domain, 32, .ro, .e, zeros 32, 0x0, 0x0, .any⟩]

/-- Rows of the object table, part 27: indices 0x0200 to 0x0200. -/
def objRows27 : List ObjRow := [
  ⟨0x0200, 1, 0x0, 0x01, 1, 0x0, .u8, 1, .ro, .b, zeros 1, 0x0, 0x0, .any⟩,
  ⟨0x0200, 1, 0x0, 0x02, 1, 0x0, .u32, 4, .wo, .b, zeros 4, 0x1FF, 0x0, .any⟩,
  ⟨0x0200, 1, 0x0, 0x03, 1, 0x0, .u32, 4, .wo, .e, zeros 4, 0x1FF, 0x0, .any⟩,
  ⟨0x0200, 1, 0x0, 0x04, 1, 0x0, .domain, 29984, .wo, .b, [], 0x1FF, 0x0, .any⟩,
  ⟨0x0200, 1, 0x0, 0x05, 1, 0x0, .u8, 1, .wo, .b, zeros 1, 0x1FF, 0x0, .any⟩,
  ⟨0x0200, 1, 0x0, 0x06, 1, 0x0, .domain, 4, .rws, .e, [1, 1, 0, 0], 0x3, 0x0, .any⟩,
  ⟨0x0200, 1, 0x0, 0x07, 1, 0x0, .u32, 4, .rws, .e, le 4 0x258, 0x3, 0x0, .nat 10 86400⟩,
  ⟨0x0200, 1, 0x0, 0x08, 1, 0x0, .u32, 4, .ro, .e, zeros 4, 0x0, 0x0, .any⟩,
  ⟨0x0200, 1, 0x0, 0x09, 1, 0x0, .u8, 1, .rws, .e, le 1 0x10, 0x3, 0x0, .nat 1 255⟩,
  ⟨0x0200, 1, 0x0, 0x0A, 1, 0x0, .u8, 1, .rws, .e, le 1 0x4, 0x3, 0x0, .nat 0 15⟩,
  ⟨0x0200, 1, 0x0, 0x0B, 1, 0x0, .u32, 4, .rws, .e, le 4 0x3E8, 0x3, 0x0, .nat 100 60000⟩,
  ⟨0x0200, 1, 0x0, 0x0C, 1, 0x0, .domain, 128, .ro, .e, [], 0x0, 0x0, .any⟩]

/-- Rows of the object table, part 28: indices 0x0210 to 0x0210. -/
def objRows28 : List ObjRow := [
  ⟨0x0210, 1, 0x0, 0x01, 1, 0x0, .u32, 4, .rws, .e, le 4 0xC0A80A64, 0x3, 0x0, .any⟩,
  ⟨0x0210, 1, 0x0, 0x02, 1, 0x0, .u32, 4, .rws, .e, le 4 0xFFFFFF00, 0x3, 0x0, .any⟩,
  ⟨0x0210, 1, 0x0, 0x03, 1, 0x0, .u32, 4, .rws, .e, zeros 4, 0x3, 0x0, .any⟩,
  ⟨0x0210, 1, 0x0, 0x04, 1, 0x0, .u64, 8, .ro, .e, zeros 8, 0x0, 0x0, .any⟩,
  ⟨0x0210, 1, 0x0, 0x05, 1, 0x0, .bool, 1, .rws, .e, le 1 0x1, 0x3, 0x0, .any⟩,
  ⟨0x0210, 1, 0x0, 0x06, 1, 0x0, .domain, 8192, .rws, .e, [], 0x3, 0x0, .any⟩]

/-- Rows of the object table, part 29: indices 0x0100 to 0x0110. -/
def objRows29 : List ObjRow := [
  ⟨0x0110, 1, 0x0, 0x01, 1, 0x0, .u16, 2, .wo, .b, zeros 2, 0x1FF, 0x0, .any⟩,
  ⟨0x0110, 1, 0x0, 0x02, 1, 0x0, .domain, 16, .ro, .b, zeros 16, 0x0, 0x0, .any⟩,
  ⟨0x0100, 1, 0x0, 0x01, 1, 0x0, .str, 21, .ro, .b, [70, 106, 97, 114, 100, 97, 108, 32, 83, 101, 109, 105, 99, 111, 110, 100, 117, 99, 116, 111, 114], 0x0, 0x0, .any⟩,
  ⟨0x0100, 1, 0x0, 0x02, 1, 0x0, .str, 12, .ro, .b, [66, 108, 117, 99, 111, 114, 32, 67, 88, 56, 54, 52], 0x0, 0x0, .any⟩,
  ⟨0x0100, 1, 0x0, 0x03, 1, 0x0, .str, 12, .ro, .b, [66, 76, 67, 45, 67, 88, 56, 54, 52, 45, 69, 66], 0x0, 0x0, .any⟩,
  ⟨0x0100, 1, 0x0, 0x04, 1, 0x0, .u8, 1, .ro, .b, le 1 0xA2, 0x0, 0x0, .any⟩,
  ⟨0x0100, 1, 0x0, 0x05, 1, 0x0, .u64, 8, .ro, .b, zeros 8, 0x0, 0x0, .any⟩,
  ⟨0x0100, 1, 0x0, 0x06, 1, 0x0, .u32, 4, .ro, .b, zeros 4, 0x0, 0x0, .any⟩,
  ⟨0x0100, 1, 0x0, 0x07, 1, 0x0, .u32, 4, .ro, .b, zeros 4, 0x0, 0x0, .any⟩,
  ⟨0x0100, 1, 0x0, 0x08, 1, 0x0, .u32, 4, .ro, .b, zeros 4, 0x0, 0x0, .any⟩,
  ⟨0x0100, 1, 0x0, 0x09, 1, 0x0, .u16, 2, .ro, .b, le 2 0x100, 0x0, 0x0, .any⟩]

/-- Rows of the object table, part 30: indices 0x0112 to 0x0112. -/
def objRows30 : List ObjRow := [
  ⟨0x0112, 1, 0x0, 0x01, 1, 0x0, .domain, 10240, .ro, .e, [], 0x0, 0x0, .any⟩,
  ⟨0x0112, 1, 0x0, 0x02, 1, 0x0, .u16, 2, .roW1c, .e, zeros 2, 0x1FF, 0x100, .any⟩]

/-- Rows of the object table, part 31: indices 0x8000 to 0x8000. -/
def objRows31 : List ObjRow := [
  ⟨0x8000, 1, 0x0, 0x01, 1, 0x0, .u16, 2, .roW1c, .b, le 2 0x1, 0x1FF, 0xF8, .any⟩,
  ⟨0x8000, 1, 0x0, 0x02, 1, 0x0, .u64, 8, .ro, .b, zeros 8, 0x0, 0x0, .any⟩,
  ⟨0x8000, 1, 0x0, 0x03, 1, 0x0, .u32, 4, .ro, .b, zeros 4, 0x0, 0x0, .any⟩,
  ⟨0x8000, 1, 0x0, 0x04, 1, 0x0, .domain, 16, .ro, .e, [], 0x0, 0x0, .any⟩,
  ⟨0x8000, 1, 0x0, 0x05, 1, 0x0, .u32, 4, .rws, .v, le 4 511, 0x100, 0x0, .any⟩,
  ⟨0x8000, 1, 0x0, 0x06, 1, 0x0, .u8, 1, .wo, .v, zeros 1, 0x1FF, 0x0, .any⟩,
  ⟨0x8000, 1, 0x0, 0x07, 1, 0x0, .domain, 8, .ro, .b, [], 0x0, 0x0, .any⟩,
  ⟨0x8000, 1, 0x0, 0x08, 1, 0x0, .domain, 8, .ro, .b, [], 0x0, 0x0, .any⟩,
  ⟨0x8000, 1, 0x0, 0x09, 1, 0x0, .u32, 4, .rw, .b, zeros 4, 0x1FF, 0x0, .any⟩,
  ⟨0x8000, 1, 0x0, 0x0A, 1, 0x0, .domain, 65536, .ro, .b, [], 0x0, 0x0, .any⟩,
  ⟨0x8000, 1, 0x0, 0x0B, 1, 0x0, .u32, 4, .rw, .b, zeros 4, 0x1FF, 0x0, .any⟩,
  ⟨0x8000, 1, 0x0, 0x0C, 1, 0x0, .domain, 65536, .ro, .b, [], 0x0, 0x0, .any⟩,
  ⟨0x8000, 1, 0x0, 0x0D, 1, 0x0, .domain, 8, .ro, .e, zeros 8, 0x0, 0x0, .any⟩,
  ⟨0x8000, 1, 0x0, 0x0E, 1, 0x0, .domain, 512, .ro, .e, [], 0x0, 0x0, .any⟩,
  ⟨0x8000, 1, 0x0, 0x0F, 1, 0x0, .u16, 2, .rw, .e, le 2 0x3E8, 0x1FF, 0x0, .nat 10 65535⟩]

/-- Rows of the object table, part 32: indices 0x9000 to 0x9000. -/
def objRows32 : List ObjRow := [
  ⟨0x9000, 1, 0x0, 0x01, 1, 0x0, .u16, 2, .roW1c, .b, zeros 2, 0x1FF, 0x18, .any⟩,
  ⟨0x9000, 1, 0x0, 0x02, 1, 0x0, .domain, 48, .ro, .e, [], 0x0, 0x0, .any⟩,
  ⟨0x9000, 1, 0x0, 0x03, 1, 0x0, .domain, 20971520, .wo, .e, [], 0x1FF, 0x0, .any⟩,
  ⟨0x9000, 1, 0x0, 0x04, 1, 0x0, .domain, 4194304, .wo, .e, [], 0x1FF, 0x0, .any⟩,
  ⟨0x9000, 1, 0x0, 0x05, 1, 0x0, .domain, 8388608, .wo, .e, [], 0x1FF, 0x0, .any⟩,
  ⟨0x9000, 1, 0x0, 0x06, 1, 0x0, .u8, 1, .wo, .e, zeros 1, 0x1FF, 0x0, .any⟩,
  ⟨0x9000, 1, 0x0, 0x07, 1, 0x0, .u8, 1, .wo, .e, zeros 1, 0x1FF, 0x0, .any⟩,
  ⟨0x9000, 1, 0x0, 0x08, 1, 0x0, .domain, 200, .ro, .e, [], 0x0, 0x0, .any⟩,
  ⟨0x9000, 1, 0x0, 0x09, 1, 0x0, .domain, 64, .wo, .e, [], 0x1FF, 0x0, .any⟩,
  ⟨0x9000, 1, 0x0, 0x0A, 1, 0x0, .u8, 1, .wo, .e, zeros 1, 0x1FF, 0x0, .any⟩,
  ⟨0x9000, 1, 0x0, 0x0B, 1, 0x0, .u8, 1, .wo, .v, zeros 1, 0x1FF, 0x0, .any⟩,
  ⟨0x9000, 1, 0x0, 0x10, 1, 0x0, .domain, 32, .wo, .b, [], 0x1FF, 0x0, .any⟩,
  ⟨0x9000, 1, 0x0, 0x11, 1, 0x0, .domain, 50464, .ro, .b, [], 0x0, 0x0, .any⟩,
  ⟨0x9000, 1, 0x0, 0x12, 1, 0x0, .domain, 64, .ro, .b, [], 0x0, 0x0, .any⟩,
  ⟨0x9000, 1, 0x0, 0x13, 1, 0x0, .domain, 30080, .rws, .e, [], 0x101, 0x0, .any⟩]

/-- Rows of the object table, part 33: indices 0x8800 to 0x8800. -/
def objRows33 : List ObjRow := [
  ⟨0x8800, 1, 0x0, 0x01, 1, 0x0, .u16, 2, .roW1c, .b, zeros 2, 0x1FF, 0x10, .any⟩,
  ⟨0x8800, 1, 0x0, 0x02, 1, 0x0, .u8, 1, .ro, .b, zeros 1, 0x0, 0x0, .any⟩,
  ⟨0x8800, 1, 0x0, 0x03, 1, 0x0, .u8, 1, .ro, .e, zeros 1, 0x0, 0x0, .any⟩,
  ⟨0x8800, 1, 0x0, 0x04, 1, 0x0, .u8, 1, .wo, .e, zeros 1, 0x1FF, 0x0, .any⟩,
  ⟨0x8800, 1, 0x0, 0x05, 1, 0x0, .domain, 20, .ro, .e, zeros 20, 0x0, 0x0, .any⟩,
  ⟨0x8800, 1, 0x0, 0x06, 1, 0x0, .u16, 2, .ro, .e, le 2 0xFFFF, 0x0, 0x0, .any⟩]

/-- Rows of the object table, part 34: indices 0x8810 to 0x8810. -/
def objRows34 : List ObjRow := [
  ⟨0x8810, 1, 0x0, 0x01, 1, 0x0, .u16, 2, .roW1c, .e, zeros 2, 0x1FF, 0xC, .any⟩,
  ⟨0x8810, 1, 0x0, 0x02, 1, 0x0, .u32, 4, .ro, .e, zeros 4, 0x0, 0x0, .any⟩,
  ⟨0x8810, 1, 0x0, 0x03, 1, 0x0, .bool, 1, .rws, .e, le 1 0x1, 0x3, 0x0, .any⟩,
  ⟨0x8810, 1, 0x0, 0x04, 1, 0x0, .u32, 4, .rws, .e, le 4 0x7D0, 0x3, 0x0, .nat 0 10000⟩,
  ⟨0x8810, 1, 0x0, 0x05, 1, 0x0, .u16, 2, .rws, .e, le 2 0xC8, 0x3, 0x0, .nat 40 10000⟩,
  ⟨0x8810, 1, 0x0, 0x06, 1, 0x0, .domain, 16, .ro, .e, zeros 16, 0x0, 0x0, .any⟩]

/-- Rows of the object table, part 35: indices 0x8820 to 0x8820. -/
def objRows35 : List ObjRow := [
  ⟨0x8820, 1, 0x0, 0x01, 1, 0x0, .u16, 2, .roW1c, .e, zeros 2, 0x1FF, 0xD, .any⟩,
  ⟨0x8820, 1, 0x0, 0x02, 1, 0x0, .u8, 1, .wo, .e, zeros 1, 0x1FF, 0x0, .any⟩,
  ⟨0x8820, 1, 0x0, 0x03, 1, 0x0, .u32, 4, .rws, .e, le 4 0x258, 0x3, 0x0, .any⟩,
  ⟨0x8820, 1, 0x0, 0x04, 1, 0x0, .domain, 32, .ro, .e, (List.replicate 4 ([0, 0, 0, 0x80, 0, 0, 0, 0])).flatten, 0x0, 0x0, .any⟩,
  ⟨0x8820, 1, 0x0, 0x05, 1, 0x0, .domain, 64, .rws, .e, (List.range 32).map (BitVec.ofNat 8), 0x3, 0x0, .any⟩,
  ⟨0x8820, 1, 0x0, 0x06, 1, 0x0, .domain, 128, .rws, .e, (List.replicate 32 (le 4 16000)).flatten, 0x3, 0x0, .any⟩,
  ⟨0x8820, 1, 0x0, 0x07, 1, 0x0, .domain, 56, .rws, .e, (List.replicate 7 (zeros 4 ++ le 4 0x3F800000)).flatten, 0x103, 0x0, .any⟩,
  ⟨0x8820, 1, 0x0, 0x08, 1, 0x0, .domain, 8, .wo, .e, [], 0x1FF, 0x0, .any⟩,
  ⟨0x8820, 1, 0x0, 0x09, 1, 0x0, .i16, 2, .rws, .e, le 2 0x82, 0x3, 0x0, .nat 60 135⟩]

/-- Rows of the object table, part 36: indices 0x8821 to 0x8821. -/
def objRows36 : List ObjRow := [
  ⟨0x8821, 1, 0x0, 0x01, 32, 0x0, .domain, 32, .ro, .e, zeros 12 ++ [255, 255] ++ zeros 18, 0x0, 0x0, .any⟩]

/-- Rows of the object table, part 37: indices 0x9800 to 0x9800. -/
def objRows37 : List ObjRow := [
  ⟨0x9800, 1, 0x0, 0x01, 1, 0x0, .bool, 1, .rws, .e, zeros 1, 0x100, 0x0, .any⟩,
  ⟨0x9800, 1, 0x0, 0x02, 1, 0x0, .u16, 2, .roW1c, .e, zeros 2, 0x1FF, 0x6, .any⟩,
  ⟨0x9800, 1, 0x0, 0x03, 1, 0x0, .u32, 4, .ro, .b, le 4 0x2C8649C9, 0x0, 0x0, .any⟩,
  ⟨0x9800, 1, 0x0, 0x04, 1, 0x0, .u8, 1, .rws, .e, zeros 1, 0x100, 0x0, .any⟩,
  ⟨0x9800, 1, 0x0, 0x05, 1, 0x0, .u64, 8, .ro, .e, zeros 8, 0x0, 0x0, .any⟩]

/-- Rows of the object table, part 38: indices 0x1800 to 0x1800. -/
def objRows38 : List ObjRow := [
  ⟨0x1800, 1, 0x0, 0x01, 1, 0x0, .domain, 65536, .rws, .e, [], 0x3, 0x0, .any⟩,
  ⟨0x1800, 1, 0x0, 0x02, 1, 0x0, .u16, 2, .ro, .e, zeros 2, 0x0, 0x0, .any⟩]

/-- Rows of the object table, part 39: indices 0x3A00 to 0x3A0B. -/
def objRows39 : List ObjRow := [
  ⟨0x3A00, 1, 0x0, 0x01, 128, 0x0, .domain, 278628, .rw, .e, [], 0x1FF, 0x0, .any⟩,
  ⟨0x3A01, 1, 0x0, 0x01, 128, 0x0, .domain, 278628, .rw, .e, [], 0x1FF, 0x0, .any⟩,
  ⟨0x3A02, 1, 0x0, 0x01, 128, 0x0, .domain, 98336, .rw, .e, [], 0x1FF, 0x0, .any⟩,
  ⟨0x3A03, 1, 0x0, 0x01, 128, 0x0, .domain, 98336, .rw, .e, [], 0x1FF, 0x0, .any⟩,
  ⟨0x3A08, 4, 0x1, 0x01, 1, 0x0, .f32, 4, .rw, .b, zeros 4, 0x1FF, 0x0, .any⟩,
  ⟨0x3A08, 4, 0x1, 0x02, 1, 0x0, .f32, 4, .rw, .e, le 4 0x3F800000, 0x1FF, 0x0, .any⟩,
  ⟨0x3A08, 4, 0x1, 0x03, 1, 0x0, .f32, 4, .rw, .e, le 4 0x3F800000, 0x1FF, 0x0, .any⟩,
  ⟨0x3A08, 4, 0x1, 0x04, 1, 0x0, .f64, 8, .ro, .b, zeros 8, 0x0, 0x0, .any⟩]

/-- The parts of the object table, each with the indices between which its rows lie. -/
def objParts : List (Nat × Nat × List ObjRow) :=
  [(0x0111, 0x0111, objRows0), (0x2000, 0x2000, objRows1), (0x2100, 0x2100, objRows2), (0x1000, 0x1400, objRows3),
    (0x1000, 0x1400, objRows4), (0x3000, 0x3700, objRows5), (0x3001, 0x3704, objRows6), (0x3005, 0x3803, objRows7),
    (0x3900, 0x391F, objRows8), (0x3900, 0x391F, objRows9), (0x4000, 0x4000, objRows10), (0x4000, 0x4000, objRows11),
    (0x4100, 0x4100, objRows12), (0x4100, 0x4100, objRows13), (0x4101, 0x4200, objRows14), (0x4201, 0x4203, objRows15),
    (0x5000, 0x5000, objRows16), (0x5000, 0x5461, objRows17), (0x6000, 0x600F, objRows18), (0x6000, 0x600F, objRows19),
    (0x6100, 0x610F, objRows20), (0x6100, 0x610F, objRows21), (0x6200, 0x6207, objRows22), (0x6210, 0x621F, objRows23),
    (0x7000, 0x7000, objRows24), (0x7001, 0x7002, objRows25), (0x7003, 0x7800, objRows26), (0x0200, 0x0200, objRows27),
    (0x0210, 0x0210, objRows28), (0x0100, 0x0110, objRows29), (0x0112, 0x0112, objRows30), (0x8000, 0x8000, objRows31),
    (0x9000, 0x9000, objRows32), (0x8800, 0x8800, objRows33), (0x8810, 0x8810, objRows34), (0x8820, 0x8820, objRows35),
    (0x8821, 0x8821, objRows36), (0x9800, 0x9800, objRows37), (0x1800, 0x1800, objRows38), (0x3A00, 0x3A0B, objRows39)]

/-- The row of the object at an index and sub-index: parts that hold no such index are passed over. -/
def objRow? (index sub : Nat) : Option ObjRow :=
  objParts.findSome? (fun p => if Nat.ble p.1 index && Nat.ble index p.2.1 then p.2.2.find? (fun r => r.covers index sub) else none)

/-- Whether an index holds any object (R9, R426). -/
def indexExists (index : Nat) : Bool :=
  objParts.any (fun p => Nat.ble p.1 index && Nat.ble index p.2.1 && p.2.2.any (fun r => r.holds index))

/-- The default of the object with a key (R6): its value while the state lists nothing for it. DESIGN CHOICE, log entry 3. -/
def objDefault (k : Nat) : Bytes :=
  match objRow? (k / 256) (k % 256) with
  | some r => r.dflt
  | none => []

end Sys2Proof.Machine
end

