-- ==== Sys2Proof/Machine/Float.lean ====
section
/-! DEFINITION. IEEE 754 binary32 and binary64 with round-to-nearest-even (R129, R178, R262), computed exactly on integers and
rounded once. Values are bit patterns as natural numbers. -/

namespace Sys2Proof.Machine

/-- A binary format: precision in bits with the hidden bit, and exponent bits. -/
structure Fmt where
  prec : Nat
  ebits : Nat
deriving DecidableEq, Repr

def f32 : Fmt := ⟨24, 8⟩
def f64 : Fmt := ⟨53, 11⟩

/-- What a pattern stands for: a finite value is ±m × 2^e. -/
inductive FVal
  | nan
  | inf (neg : Bool)
  | fin (neg : Bool) (m : Nat) (e : Int)
deriving DecidableEq, Repr

/-- A result with the conditions that LSTAT records (R263). -/
structure FRes where
  bits : Nat
  overflow : Bool
  underflow : Bool
  invalid : Bool
  divZero : Bool
deriving DecidableEq, Repr

/-- Exponent of the least significant bit of the smallest subnormal. -/
def Fmt.emin (f : Fmt) : Int := 3 - (2 ^ (f.ebits - 1) : Nat) - f.prec

/-- Patterns of infinity, of the NaN result, and of the sign. -/
def Fmt.infBits (f : Fmt) : Nat := (2 ^ f.ebits - 1) * 2 ^ (f.prec - 1)
def Fmt.nanBits (f : Fmt) : Nat := f.infBits + 2 ^ (f.prec - 2)
def Fmt.signBit (f : Fmt) : Nat := 2 ^ (f.ebits + f.prec - 1)

/-- The value of a pattern. -/
def Fmt.dec (f : Fmt) (b : Nat) : FVal :=
  let fr := b % 2 ^ (f.prec - 1)
  let ex := b / 2 ^ (f.prec - 1) % 2 ^ f.ebits
  let neg := b.testBit (f.ebits + f.prec - 1)
  if ex = 2 ^ f.ebits - 1 then (if fr = 0 then .inf neg else .nan)
  else if ex = 0 then .fin neg fr f.emin
  else .fin neg (fr + 2 ^ (f.prec - 1)) (f.emin + (ex - 1 : Nat))

/-- Number of significant bits. -/
def bitLen (n : Nat) : Nat := if n = 0 then 0 else Nat.log2 n + 1

/-- A plain result. -/
def FRes.plain (b : Nat) : FRes := ⟨b, false, false, false, false⟩

/-- Signed pattern. -/
def Fmt.sgn (f : Fmt) (neg : Bool) (b : Nat) : Nat := if neg then f.signBit + b else b

/-- Rounds ±(m + d) × 2^e, with 0 < d < 1 when `sticky`, to nearest even. -/
def Fmt.round (f : Fmt) (neg : Bool) (m : Nat) (e : Int) (sticky : Bool) : FRes :=
  let e' := max f.emin (e + bitLen m - f.prec)
  let sh := (e' - e).toNat
  let base := m * 2 ^ (e - e').toNat
  let q := base / 2 ^ sh
  let r := base % 2 ^ sh
  let half := 2 ^ (sh - 1)
  let up := sh != 0 && (decide (half < r) || r == half && (sticky || q % 2 == 1))
  let q := if up then q + 1 else q
  let bits := q + (e' - f.emin).toNat * 2 ^ (f.prec - 1)
  let inexact := r != 0 || sticky
  if f.infBits ≤ bits then ⟨f.sgn neg f.infBits, true, false, false, false⟩
  else ⟨f.sgn neg bits, false, inexact && decide (q < 2 ^ (f.prec - 1)), false, false⟩

/-- An invalid operation (R263): NaN. -/
def Fmt.invalid (f : Fmt) : FRes := ⟨f.nanBits, false, false, true, false⟩

/-- The signed significand of a finite value on a grid of 2^e. -/
def alignTo (neg : Bool) (m : Nat) (e g : Int) : Int :=
  let v : Int := ((m * 2 ^ (e - g).toNat : Nat) : Int)
  if neg then -v else v

/-- Rounds v × 2^e; a zero takes the sign given. -/
def Fmt.roundInt (f : Fmt) (v e : Int) (zeroNeg : Bool) : FRes :=
  if v = 0 then FRes.plain (f.sgn zeroNeg 0) else f.round (decide (v < 0)) v.natAbs e false

/-- Negation. -/
def Fmt.neg (f : Fmt) (a : Nat) : Nat := if a.testBit (f.ebits + f.prec - 1) then a - f.signBit else a + f.signBit

/-- Magnitude. -/
def Fmt.abs (f : Fmt) (a : Nat) : Nat := a % f.signBit

/-- Fused multiply-add a × b + c with one rounding. -/
def Fmt.fmaR (f : Fmt) (a b c : Nat) : FRes :=
  match f.dec a, f.dec b, f.dec c with
  | .nan, _, _ => FRes.plain f.nanBits
  | _, .nan, _ => FRes.plain f.nanBits
  | .inf s, .inf t, .nan => if s = t then FRes.plain f.nanBits else FRes.plain f.nanBits
  | .inf _, .fin _ m _, .nan => if m = 0 then f.invalid else FRes.plain f.nanBits
  | .fin _ m _, .inf _, .nan => if m = 0 then f.invalid else FRes.plain f.nanBits
  | .fin _ _ _, .fin _ _ _, .nan => FRes.plain f.nanBits
  | .inf s, .inf t, .inf u => if xor s t = u then FRes.plain (f.sgn u f.infBits) else f.invalid
  | .inf s, .inf t, .fin _ _ _ => FRes.plain (f.sgn (xor s t) f.infBits)
  | .inf s, .fin t m _, .inf u =>
    if m = 0 then f.invalid else if xor s t = u then FRes.plain (f.sgn u f.infBits) else f.invalid
  | .inf s, .fin t m _, .fin _ _ _ => if m = 0 then f.invalid else FRes.plain (f.sgn (xor s t) f.infBits)
  | .fin s m _, .inf t, .inf u =>
    if m = 0 then f.invalid else if xor s t = u then FRes.plain (f.sgn u f.infBits) else f.invalid
  | .fin s m _, .inf t, .fin _ _ _ => if m = 0 then f.invalid else FRes.plain (f.sgn (xor s t) f.infBits)
  | .fin _ _ _, .fin _ _ _, .inf u => FRes.plain (f.sgn u f.infBits)
  | .fin s m1 e1, .fin t m2 e2, .fin u m3 e3 =>
    let g := min (e1 + e2) e3
    let p := xor s t
    f.roundInt (alignTo p (m1 * m2) (e1 + e2) g + alignTo u m3 e3 g) g (p && u)

/-- Multiplication. -/
def Fmt.mulR (f : Fmt) (a b : Nat) : FRes :=
  match f.dec a, f.dec b with
  | .nan, _ => FRes.plain f.nanBits
  | _, .nan => FRes.plain f.nanBits
  | .inf s, .inf t => FRes.plain (f.sgn (xor s t) f.infBits)
  | .inf s, .fin t m _ => if m = 0 then f.invalid else FRes.plain (f.sgn (xor s t) f.infBits)
  | .fin s m _, .inf t => if m = 0 then f.invalid else FRes.plain (f.sgn (xor s t) f.infBits)
  | .fin s m1 e1, .fin t m2 e2 =>
    if m1 * m2 = 0 then FRes.plain (f.sgn (xor s t) 0) else f.round (xor s t) (m1 * m2) (e1 + e2) false

/-- Addition. -/
def Fmt.addR (f : Fmt) (a b : Nat) : FRes :=
  match f.dec a, f.dec b with
  | .nan, _ => FRes.plain f.nanBits
  | _, .nan => FRes.plain f.nanBits
  | .inf s, .inf t => if s = t then FRes.plain (f.sgn s f.infBits) else f.invalid
  | .inf s, .fin _ _ _ => FRes.plain (f.sgn s f.infBits)
  | .fin _ _ _, .inf t => FRes.plain (f.sgn t f.infBits)
  | .fin s m1 e1, .fin t m2 e2 =>
    let g := min e1 e2
    f.roundInt (alignTo s m1 e1 g + alignTo t m2 e2 g) g (s && t)

/-- Subtraction. -/
def Fmt.subR (f : Fmt) (a b : Nat) : FRes := f.addR a (f.neg b)

/-- Division, correctly rounded. -/
def Fmt.divR (f : Fmt) (a b : Nat) : FRes :=
  match f.dec a, f.dec b with
  | .nan, _ => FRes.plain f.nanBits
  | _, .nan => FRes.plain f.nanBits
  | .inf _, .inf _ => f.invalid
  | .inf s, .fin t _ _ => FRes.plain (f.sgn (xor s t) f.infBits)
  | .fin s _ _, .inf t => FRes.plain (f.sgn (xor s t) 0)
  | .fin s m1 e1, .fin t m2 e2 =>
    if m2 = 0 then
      if m1 = 0 then f.invalid else ⟨f.sgn (xor s t) f.infBits, false, false, false, true⟩
    else if m1 = 0 then FRes.plain (f.sgn (xor s t) 0)
    else
      let k := f.prec + 3 + bitLen m2
      f.round (xor s t) (m1 * 2 ^ k / m2) (e1 - e2 - k) (m1 * 2 ^ k % m2 != 0)

/-- Integer square root, one bit at a time from bit `i − 1` down. -/
def sqrtBits (n : Nat) : Nat → Nat → Nat
  | 0, r => r
  | i + 1, r => let t := r + 2 ^ i; sqrtBits n i (if t * t ≤ n then t else r)

/-- The integer square root. -/
def isqrt (n : Nat) : Nat := sqrtBits n (bitLen n / 2 + 1) 0

/-- Square root, correctly rounded. -/
def Fmt.sqrtR (f : Fmt) (a : Nat) : FRes :=
  match f.dec a with
  | .nan => FRes.plain f.nanBits
  | .inf s => if s then f.invalid else FRes.plain f.infBits
  | .fin s m e =>
    if m = 0 then FRes.plain (f.sgn s 0)
    else if s then f.invalid
    else
      let k := 2 * f.prec + 6 + (e % 2).toNat
      let n := m * 2 ^ k
      let r := isqrt n
      f.round false r ((e - k) / 2) (r * r != n)

/-- An integer times 2^e, rounded once. -/
def Fmt.ofInt (f : Fmt) (v e : Int) : Nat := (f.roundInt v e false).bits

/-- The plain operations. -/
def Fmt.add (f : Fmt) (a b : Nat) : Nat := (f.addR a b).bits
def Fmt.sub (f : Fmt) (a b : Nat) : Nat := (f.subR a b).bits
def Fmt.mul (f : Fmt) (a b : Nat) : Nat := (f.mulR a b).bits
def Fmt.fma (f : Fmt) (a b c : Nat) : Nat := (f.fmaR a b c).bits
def Fmt.div (f : Fmt) (a b : Nat) : Nat := (f.divR a b).bits
def Fmt.sqrt (f : Fmt) (a : Nat) : Nat := (f.sqrtR a).bits

/-- A pattern is a NaN; is finite. -/
def Fmt.isNan (f : Fmt) (a : Nat) : Bool := f.dec a == .nan
def Fmt.isFinite (f : Fmt) (a : Nat) : Bool := match f.dec a with
  | .fin _ _ _ => true
  | _ => false

/-- A pattern that is not a NaN as an integer that orders as its value does; both zeros give 0. -/
def Fmt.key (f : Fmt) (a : Nat) : Int := if f.signBit ≤ a then -((a - f.signBit : Nat) : Int) else a

/-- a < b, false with a NaN. -/
def Fmt.lt (f : Fmt) (a b : Nat) : Bool := !f.isNan a && !f.isNan b && decide (f.key a < f.key b)

/-- a ≤ b, false with a NaN. -/
def Fmt.le (f : Fmt) (a b : Nat) : Bool := !f.isNan a && !f.isNan b && decide (f.key a ≤ f.key b)

/-- a = b as values, false with a NaN. -/
def Fmt.eqv (f : Fmt) (a b : Nat) : Bool := !f.isNan a && !f.isNan b && f.key a == f.key b

/-- The smaller and the larger of two numbers; −0 counts as below +0, and a NaN gives way to a number (R262). -/
def Fmt.minV (f : Fmt) (a b : Nat) : Nat :=
  if f.isNan a then (if f.isNan b then f.nanBits else b)
  else if f.isNan b then a
  else if f.key a < f.key b then a
  else if f.key b < f.key a then b
  else if f.signBit ≤ a then a else b

def Fmt.maxV (f : Fmt) (a b : Nat) : Nat :=
  if f.isNan a then (if f.isNan b then f.nanBits else b)
  else if f.isNan b then a
  else if f.key a < f.key b then b
  else if f.key b < f.key a then a
  else if f.signBit ≤ a then b else a

/-- A pattern of one format in another. -/
def Fmt.conv (f g : Fmt) (a : Nat) : Nat :=
  match f.dec a with
  | .nan => g.nanBits
  | .inf s => g.sgn s g.infBits
  | .fin s m e => if m = 0 then g.sgn s 0 else (g.round s m e false).bits

/-- m × 2^e rounded to the nearest integer, ties to even. -/
def roundDyadic (m : Nat) (e : Int) : Nat :=
  if 0 ≤ e then m * 2 ^ e.toNat
  else
    let sh := (-e).toNat
    let q := m / 2 ^ sh
    let r := m % 2 ^ sh
    if 2 ^ (sh - 1) < r ∨ (r = 2 ^ (sh - 1) ∧ q % 2 = 1) then q + 1 else q

/-- A finite value as a fraction: numerator and denominator. -/
def Fmt.ratio (f : Fmt) (a : Nat) : Int × Nat :=
  match f.dec a with
  | .fin s m e =>
    let n : Int := ((m * 2 ^ e.toNat : Nat) : Int)
    (if s then -n else n, 2 ^ (-e).toNat)
  | _ => (0, 1)

/-- A fraction rounded to a format. -/
def Fmt.ofRatio (f : Fmt) (n : Int) (d : Nat) : Nat :=
  if n = 0 then 0
  else
    let k := f.prec + 3 + bitLen d
    (f.round (decide (n < 0)) (n.natAbs * 2 ^ k / d) (-(k : Int)) (n.natAbs * 2 ^ k % d != 0)).bits

/-- The binary32 patterns of 0, 1 and −1. -/
def f32zero : Nat := 0
def f32one : Nat := 0x3F800000

end Sys2Proof.Machine
end

