-- ==== Sys2Proof/Machine/Dbl.lean ====
section
/-! DEFINITION. Real arithmetic in binary64 (R129): numbers, elementary functions, and results rounded to binary32. The spec
states the formulas and that the order of operations is fixed, but not which order it is: the model evaluates each formula in
the order of its own text, and leaves the last bits of a binary32 result free (log entry 30). -/

namespace Sys2Proof.Machine

/-- A binary64 number by its pattern. -/
structure Dbl where
  bits : Nat
deriving DecidableEq, Repr

def Dbl.zero : Dbl := ⟨0⟩
def Dbl.one : Dbl := ⟨0x3FF0000000000000⟩
def Dbl.two : Dbl := ⟨0x4000000000000000⟩
def Dbl.half : Dbl := ⟨0x3FE0000000000000⟩

/-- The four operations and the square root, each rounded once. -/
def Dbl.add (x y : Dbl) : Dbl := ⟨f64.add x.bits y.bits⟩
def Dbl.sub (x y : Dbl) : Dbl := ⟨f64.sub x.bits y.bits⟩
def Dbl.mul (x y : Dbl) : Dbl := ⟨f64.mul x.bits y.bits⟩
def Dbl.div (x y : Dbl) : Dbl := ⟨f64.div x.bits y.bits⟩
def Dbl.sqrt (x : Dbl) : Dbl := ⟨f64.sqrt x.bits⟩
def Dbl.neg (x : Dbl) : Dbl := ⟨f64.neg x.bits⟩
def Dbl.abs (x : Dbl) : Dbl := ⟨f64.abs x.bits⟩

/-- Comparisons as values. -/
def Dbl.lt (x y : Dbl) : Bool := f64.lt x.bits y.bits
def Dbl.le (x y : Dbl) : Bool := f64.le x.bits y.bits
def Dbl.eqv (x y : Dbl) : Bool := f64.eqv x.bits y.bits
def Dbl.isZero (x : Dbl) : Bool := x.eqv zero
def Dbl.isNeg (x : Dbl) : Bool := x.lt zero
def Dbl.min (x y : Dbl) : Dbl := ⟨f64.minV x.bits y.bits⟩
def Dbl.max (x y : Dbl) : Dbl := ⟨f64.maxV x.bits y.bits⟩

/-- Conversions: an integer, a fraction, a binary32 pattern, and back to binary32. -/
def Dbl.ofInt (v : Int) : Dbl := ⟨f64.ofInt v 0⟩
def Dbl.ofRatio (n : Int) (d : Nat) : Dbl := ⟨f64.ofRatio n d⟩
def Dbl.ofF32 (b : Nat) : Dbl := ⟨f32.conv f64 b⟩
def Dbl.toF32 (x : Dbl) : Nat := f64.conv f32 x.bits

/-- The sign as a factor: 1, 0 or −1. -/
def Dbl.sgn (x : Dbl) : Int := if x.isZero then 0 else if x.isNeg then -1 else 1

/-- The value with the sign of a factor. -/
def Dbl.signed (s : Int) (x : Dbl) : Dbl := if s < 0 then x.neg else x

/-- The sum of a list from its first element on. -/
def Dbl.sum : List Dbl → Dbl
  | [] => zero
  | x :: l => l.foldl add x

/-! ### Elementary functions, rounded once from a fixed-point value of 256 fraction bits -/

/-- Fraction bits, π and one in fixed point. -/
def fxBits : Nat := 256
def fxOne : Int := (2 ^ fxBits : Nat)
def fxPi : Int := 0x3243F6A8885A308D313198A2E03707344A4093822299F31D0082EFA98EC4E6C89

/-- The value in fixed point, rounded down; the binary64 number nearest to a fixed-point value. -/
def Dbl.fx (x : Dbl) : Int := let r := f64.ratio x.bits; r.1 * fxOne / (r.2 : Int)
def Dbl.ofFx (v : Int) : Dbl := ⟨(f64.roundInt v (-(fxBits : Int)) false).bits⟩

/-- A product in fixed point. -/
def fxMul (a b : Int) : Int := a * b / fxOne

/-- `k` terms of an alternating power series whose term of degree `n` is `t`: the next divides by (n + 1)(n + 2). -/
def fxSeries (r2 : Int) : Nat → Int → Int → Int
  | 0, _, _ => 0
  | k + 1, n, t => t + fxSeries r2 k (n + 2) (-(fxMul t r2 / ((n + 1) * (n + 2))))

/-- An angle reduced into [−π, π). -/
def fxReduce (v : Int) : Int := (v + fxPi) % (2 * fxPi) - fxPi

/-- Sine and cosine. DEDUCED, log entry 30. -/
def Dbl.sin (x : Dbl) : Dbl := let r := fxReduce x.fx; Dbl.ofFx (fxSeries (fxMul r r) 48 1 r)
def Dbl.cos (x : Dbl) : Dbl := let r := fxReduce x.fx; Dbl.ofFx (fxSeries (fxMul r r) 48 0 fxOne)

/-- `k` terms of the series of arctan: the power `t` of odd degree `n`. -/
def fxAtanSeries (t2 : Int) : Nat → Int → Int → Int
  | 0, _, _ => 0
  | k + 1, n, t => t / n + fxAtanSeries t2 k (n + 2) (-(fxMul t t2))

/-- tan of half the angle whose tan is `t`. -/
def fxHalfTan (t : Int) : Int :=
  let root : Int := (isqrt ((fxOne * fxOne + t * t).toNat) : Nat)
  t * fxOne / (fxOne + root)

/-- arctan of a value of magnitude at most 1. -/
def fxAtan (t : Int) : Int := let u := fxHalfTan (fxHalfTan (fxHalfTan t)); 8 * fxAtanSeries (fxMul u u) 48 1 u

/-- The angle of the point (x, y), in (−π, π]; 0 at the origin. DEDUCED, log entry 30. -/
def Dbl.atan2 (y x : Dbl) : Dbl :=
  let a := y.fx
  let b := x.fx
  let quarter := fxPi / 2
  if a = 0 ∧ b = 0 then Dbl.zero
  else if a.natAbs ≤ b.natAbs then
    let t := fxAtan (a * fxOne / b)
    Dbl.ofFx (if 0 ≤ b then t else if 0 ≤ a then t + fxPi else t - fxPi)
  else
    let t := fxAtan (b * fxOne / a)
    Dbl.ofFx (if 0 ≤ a then quarter - t else -quarter - t)

/-- `k` terms of the series of e^−r: the term of degree `n` is `t`. -/
def fxExpSeries (r : Int) : Nat → Int → Int → Int
  | 0, _, _ => 0
  | k + 1, n, t => t + fxExpSeries r k (n + 1) (-(fxMul t r / (n + 1)))

/-- The `n`-th repeated square. -/
def fxSquares : Nat → Int → Int
  | 0, v => v
  | n + 1, v => fxSquares n (fxMul v v)

/-- e^−x for x from 0 to 64. -/
def Dbl.expNeg (x : Dbl) : Dbl := Dbl.ofFx (fxSquares 6 (fxExpSeries (x.fx / 64) 60 0 fxOne))

/-! ### Results in binary32 -/

/-- A finite pattern moved by a number of units in the last place, away from zero for a positive number; zero stays. -/
def Fmt.nudge (f : Fmt) (k : Int) (b : Nat) : Nat :=
  let m := f.abs b
  if !f.isFinite b ∨ m = 0 then b
  else
    let m' := (max 1 (min ((m : Int) + k) (f.infBits - 1 : Nat))).toNat
    if f.signBit ≤ b then f.signBit + m' else m'

/-- A binary32 result whose last bits are free within 4 units: `key` is everything the formula reads, `i` numbers its results.
DEDUCED, log entry 30. -/
def loosen (key : Bytes) (i b : Nat) : Nat := f32.nudge (max (-4) (min 4 (Config.lastBits key i))) b

/-- A result as binary32 with free last bits. DEDUCED, log entry 30. -/
def settle (key : Bytes) (i : Nat) (x : Dbl) : Nat := loosen key i x.toF32

end Sys2Proof.Machine
end

