-- ==== Sys2Proof/Machine/Profile.lean ====
section
/-! DEFINITION. Jerk-limited profiles of one coordinate (R141, R142): pieces of constant jerk, the velocity change, the stopping
profile, the time-optimal profile and its reversal, and the synchronisation of several joints. -/

namespace Sys2Proof.Machine

/-- Position, velocity and acceleration. -/
structure PVA where
  p : Dbl
  v : Dbl
  a : Dbl
deriving DecidableEq, Repr

/-- The limits of a profile. -/
structure Lim where
  v : Dbl
  a : Dbl
  j : Dbl
deriving DecidableEq, Repr

/-- A piece of constant jerk: its duration in s and its jerk. -/
structure Piece where
  t : Dbl
  j : Dbl
deriving DecidableEq, Repr

/-- A profile: its start, its pieces, and the state it ends in. With `goesOn` it keeps its last velocity after its end, else it
rests in its end state. -/
structure Prof where
  start : PVA
  pieces : List Piece
  fin : PVA
  goesOn : Bool
deriving DecidableEq, Repr

def Dbl.six : Dbl := ⟨0x4018000000000000⟩

/-- A state after a time at constant jerk. -/
def PVA.after (s : PVA) (j t : Dbl) : PVA :=
  ⟨((s.p.add (s.v.mul t)).add (((s.a.mul t).mul t).mul Dbl.half)).add ((((j.mul t).mul t).mul t).div Dbl.six),
    (s.v.add (s.a.mul t)).add (((j.mul t).mul t).mul Dbl.half), s.a.add (j.mul t)⟩

/-- A state after a list of pieces, and their duration. -/
def PVA.run (s : PVA) (l : List Piece) : PVA := l.foldl (fun s x => s.after x.j x.t) s
def duration (l : List Piece) : Dbl := Dbl.sum (l.map Piece.t)

/-- The state at a time after the start of a list of pieces; none after their end. -/
def stateIn (s : PVA) : List Piece → Dbl → Option PVA
  | [], _ => none
  | x :: l, t => if t.lt x.t then some (s.after x.j t) else stateIn (s.after x.j x.t) l (t.sub x.t)

/-- The state of a profile at a time. -/
def Prof.at_ (f : Prof) (t : Dbl) : PVA :=
  if t.le Dbl.zero then f.start
  else (stateIn f.start f.pieces t).getD
    (if f.goesOn then f.fin.after Dbl.zero (t.sub (duration f.pieces)) else f.fin)

/-- Duration of a profile. -/
def Prof.dur (f : Prof) : Dbl := duration f.pieces

/-- The acceleration beyond its limit is first brought down to it (R141). -/
def lowerAcc (a0 : Dbl) (l : Lim) : List Piece :=
  if l.a.lt a0.abs then [⟨(a0.abs.sub l.a).div l.j, Dbl.signed (-a0.sgn) l.j⟩] else []

/-- Velocity that results when an acceleration is brought to zero at once. -/
def settledV (v0 a0 : Dbl) (l : Lim) : Dbl := v0.add ((a0.mul a0.abs).div (Dbl.two.mul l.j))

/-- The time-optimal change to velocity `v1` with acceleration 0: the acceleration rises to a peak, is held at its limit, and
falls to 0. DEDUCED, log entry 36. -/
def changeV (v0 a0 v1 : Dbl) (l : Lim) : List Piece :=
  let d : Int := if (settledV v0 a0 l).lt v1 then 1 else -1
  let x := Dbl.signed d a0
  let dv := Dbl.signed d (v1.sub v0)
  let peak := (((l.j.mul dv).add ((x.mul x).mul Dbl.half)).max Dbl.zero).sqrt
  let capped := l.a.lt peak
  let ap := if capped then l.a else peak
  let used := ((Dbl.two.mul (ap.mul ap)).sub (x.mul x)).div (Dbl.two.mul l.j)
  let hold := if capped then ((dv.sub used).div ap).max Dbl.zero else Dbl.zero
  [⟨((ap.sub x).div l.j).max Dbl.zero, Dbl.signed d l.j⟩, ⟨hold, Dbl.zero⟩, ⟨ap.div l.j, Dbl.signed (-d) l.j⟩]

/-- Bisection: `n` halvings of [lo, hi]; a midpoint that fits becomes the lower end. DEDUCED, log entry 30. -/
def bisect (fits : Dbl → Bool) : Nat → Dbl → Dbl → Dbl
  | 0, lo, _ => lo
  | n + 1, lo, hi =>
    let m := (lo.add hi).mul Dbl.half
    if fits m then bisect fits n m hi else bisect fits n lo m

/-- Acceleration in a direction for a time: at the jerk limit up to the acceleration limit, which is then held.
DEDUCED, log entry 30. -/
def pushFor (d : Int) (a0 t : Dbl) (l : Lim) : List Piece :=
  let r := (((l.a.sub (Dbl.signed d a0)).div l.j).max Dbl.zero).min t
  [⟨r, Dbl.signed d l.j⟩, ⟨t.sub r, Dbl.zero⟩]

/-- The time-optimal profile in direction `d` that ends at `p1` with velocity `v1`: it accelerates for a time and changes to `v1`,
or reaches the peak velocity and cruises. The time is found by bisection; where the start already leads beyond the peak velocity,
the peak is. DEDUCED, log entry 36. -/
def travel (s : PVA) (d : Int) (p1 v1 : Dbl) (l : Lim) : List Piece :=
  let endOf (x : List Piece) : List Piece := x ++ (let y := s.run x; changeV y.v y.a v1 l)
  let short (x : List Piece) : Bool := !(Dbl.signed d (p1.sub (s.run x).p)).isNeg
  let top := Dbl.signed d l.v
  let full := changeV s.v s.a top l
  if short (endOf full) then
    let rest := Dbl.signed d (p1.sub (s.run (endOf full)).p)
    full ++ [⟨rest.div l.v, Dbl.zero⟩] ++ changeV top Dbl.zero v1 l
  else if (Dbl.signed d (settledV s.v s.a l)).le l.v then
    let most := duration (full.take 2)
    endOf (pushFor d s.a (bisect (fun t => short (endOf (pushFor d s.a t l))) 64 Dbl.zero most) l)
  else
    endOf (changeV s.v s.a (Dbl.signed d (bisect (fun v => short (endOf (changeV s.v s.a (Dbl.signed d v) l))) 64 Dbl.zero l.v)) l)

/-- The pieces that first bring acceleration and velocity within the limits (R141). -/
def within (s : PVA) (l : Lim) : List Piece :=
  let x := lowerAcc s.a l
  let y := s.run x
  if l.v.lt y.v.abs then x ++ changeV y.v y.a (Dbl.signed y.v.sgn l.v) l else x

/-- The profile of R141 to `p1`, ending there with velocity `v1` (0 but for the approach to a table). DEDUCED, log entry 30.
DEDUCED, log entry 36. -/
def planTo (s : PVA) (p1 v1 : Dbl) (l : Lim) : Prof :=
  let pre := within s l
  let x := s.run pre
  let ending := changeV x.v x.a v1 l
  let stopAt := (x.run ending).p
  let d := (p1.sub stopAt).sgn
  let body :=
    if d = 0 then ending
    else if x.v.isZero ∨ d = x.v.sgn then travel x d p1 v1 l
    else
      let stop := changeV x.v x.a Dbl.zero l
      let r : PVA := ⟨(x.run stop).p, Dbl.zero, Dbl.zero⟩
      let d := (p1.sub (r.run (changeV Dbl.zero Dbl.zero v1 l)).p).sgn
      stop ++ travel r d p1 v1 l
  ⟨s, pre ++ body, ⟨p1, v1, Dbl.zero⟩, false⟩

/-- The profile to rest (R141, R145, R521). DEDUCED, log entry 36. -/
def planStop (s : PVA) (l : Lim) : Prof :=
  let pre := within s l
  let x := s.run pre
  let pieces := pre ++ changeV x.v x.a Dbl.zero l
  ⟨s, pieces, ⟨(s.run pieces).p, Dbl.zero, Dbl.zero⟩, false⟩

/-- The profile to a velocity, which it keeps (R146, R154). DEDUCED, log entry 36. -/
def planVel (s : PVA) (v1 : Dbl) (l : Lim) : Prof :=
  let pre := lowerAcc s.a l
  let x := s.run pre
  let pieces := pre ++ changeV x.v x.a v1 l
  ⟨s, pieces, ⟨(s.run pieces).p, v1, Dbl.zero⟩, true⟩

/-- Limits k × v_max, k² × a_max and k³ × j_max (R142). -/
def Lim.scaled (l : Lim) (k : Dbl) : Lim := ⟨l.v.mul k, (l.a.mul k).mul k, ((l.j.mul k).mul k).mul k⟩

/-- The smallest k tried on [2^−24, 1] in 24 bisection steps whose duration does not exceed `t` (R142). -/
def slowest (dur : Dbl → Dbl) (t : Dbl) : Nat → Dbl → Dbl → Dbl
  | 0, _, hi => hi
  | n + 1, lo, hi =>
    let m := (lo.add hi).mul Dbl.half
    if (dur m).le t then slowest dur t n lo m else slowest dur t n m hi

/-- Profiles of several joints with one duration (R142): the slowest as it is, every other one replanned with lower limits.
DEDUCED, log entry 30. DEDUCED, log entry 36. -/
def planSync (l : List (PVA × Dbl × Dbl × Lim)) : List Prof :=
  let one := l.map (fun x => planTo x.1 x.2.1 x.2.2.1 x.2.2.2)
  let t := (one.map Prof.dur).foldl Dbl.max Dbl.zero
  (l.zip one).map (fun x =>
    if t.le x.2.dur then x.2
    else
      let f (k : Dbl) : Prof := planTo x.1.1 x.1.2.1 x.1.2.2.1 (x.1.2.2.2.scaled k)
      let k := slowest (fun k => (f k).dur) t 24 ⟨0x3E70000000000000⟩ Dbl.one
      if k.eqv Dbl.one then x.2 else f k)

/-- The times within a piece at which its velocity is zero. -/
def turns (s : PVA) (x : Piece) : List Dbl :=
  let ts :=
    if x.j.isZero then (if s.a.isZero then [] else [(s.v.div s.a).neg])
    else
      let disc := (s.a.mul s.a).sub (Dbl.two.mul (x.j.mul s.v))
      if disc.isNeg then []
      else [(s.a.neg.add disc.sqrt).div x.j, (s.a.neg.sub disc.sqrt).div x.j]
  ts.filter (fun t => Dbl.zero.lt t && t.lt x.t)

/-- Positions of a list of pieces at their ends and where they turn. -/
def extremes (s : PVA) : List Piece → List Dbl
  | [] => []
  | x :: l => (turns s x).map (fun t => (s.after x.j t).p) ++ [(s.after x.j x.t).p] ++ extremes (s.after x.j x.t) l

/-- A profile leaves an interval. -/
def Prof.leaves (f : Prof) (lo hi : Dbl) : Bool := (f.start.p :: extremes f.start f.pieces ++ [f.fin.p]).any (fun p => p.lt lo || hi.lt p)

end Sys2Proof.Machine
end

