-- ==== Sys2Proof/Machine/StMotion.lean ====
section
/-! DEFINITION. State of the planners, the groups, the correction channels and the virtual masters (chapter "Motion planning
and path correction"), of the whole-cell solver, and of the Square with its Crossings. Joint values are binary32 patterns,
by joint slot. -/

namespace Sys2Proof.Machine

/-- One half of a horizon table (R136): prefix fields and entries of 12 bytes per joint. -/
structure Half where
  theta0 : Nat
  moveId : Nat
  hz : Nat
  flags : Nat
  entries : List Bytes
  /-- The nominal state of each entry before its rounding (R129), 24 bytes per joint. -/
  exact : List Bytes
  /-- Of each entry the move that produced it, and whether that is a group's. -/
  src : List (Nat × Bool)
deriving DecidableEq, Repr

/-- What the plans of an arm read besides descriptor and start: the model of R131, T in ns, the parameters of R130, the segment
table that the descriptor names, and the arm's record of the safety set. Numbers are binary32 patterns. -/
structure ArmPar where
  kin : Bytes
  tns : Nat
  iter : Nat
  lambda : Nat
  restQ : Bytes
  nullGain : Nat
  joinTol : Nat
  tolP : Nat
  tolR : Nat
  table : Bytes
  safeArm : Bytes
deriving DecidableEq, Repr

/-- What the plans of a group read. -/
structure GrpPar where
  tns : Nat
  joinTol : Nat
  table : Bytes
deriving DecidableEq, Repr

/-- What the plans of an auxiliary axis read (R297): its limits, AX_V_DEG while DEGRADED, and its position limits. -/
structure AxPar where
  tns : Nat
  vmax : Nat
  amax : Nat
  jmax : Nat
  cap : Option Nat
  lo : Nat
  hi : Nat
  cont : Bool
  joinTol : Nat
  table : Bytes
deriving DecidableEq, Repr

/-- Whose motion a plan is. -/
inductive PlanPar
  | arm (p : ArmPar)
  | grp (p : GrpPar)
  | axis (p : AxPar)
deriving DecidableEq, Repr

/-- The motion that a path planner follows: kind 0 brings the mover to rest and holds it (R521), 1 to 6 are the types of R138,
7 is a jog. -/
structure Motion where
  kind : Nat
  desc : Bytes
  /-- State at its begin: of an arm three binary64 numbers per joint (R129), of a group its object frame with velocity and acceleration, of
  an axis position, velocity and acceleration. -/
  start : Bytes
  /-- The reference state that its relative target refers to (R140): its start, also after a re-seed. -/
  ref : Bytes
  par : PlanPar
  /-- Its profiles: of each coordinate, of a tool-space move the path parameter and then the transition offset (R143). -/
  prof : List Prof
  /-- Path time of its begin in 2^-32 basic cycles, and of its end state; a looped table and a cam have none. -/
  begin_ : Nat
  endAt : Option Nat
  /-- Of a cam slave: cycle and S_OFFSET of its engagement, once engaged, and its position, binary64 (R152 to R154). -/
  cam : Option (Nat × Nat)
  slave : Nat
  /-- Of an arm's cam that has not engaged: the table time at which the arm stands, if it runs that table (R154). -/
  present : Option Nat
  /-- It has reached its end state, or ended with an error or a stop. -/
  done : Bool
deriving DecidableEq, Repr

/-- A jog command that governs an arm or waits for the re-seed (R146, R524): the cycle start instant of its apply cycle in
ns; VEL is taken as 0 after its TIMEOUT. -/
structure Jog where
  desc : Bytes
  since : Nat
  zero : Bool
deriving DecidableEq, Repr

/-- One arm's planners. -/
structure ArmSt where
  /-- σ of the previous cycle (R169). -/
  sigmaPrev : Nat
  stopRamp : Bool
  cur : Half
  next : Option Half
  motion : Motion
  queued : Option Bytes
  /-- Move descriptors applied by the next planner run, oldest first (R137). -/
  due : List Bytes
  jog : Option Jog
  /-- The present horizon underrun has been reported. -/
  underrun : Bool
  /-- Re-seeded: the next planner run plans its motion anew from the re-seeded half (R135). -/
  reseeded : Bool
deriving DecidableEq, Repr

/-- The pose that moves nothing (R131). DESIGN CHOICE, log entry 39. -/
def poseOne : Bytes := [0, 0, 0x80, 0x3F] ++ List.replicate 24 0

/-- A cooperative group (R155 to R158). -/
structure GrpSt where
  motion : Motion
  queued : Option Bytes
  due : List Bytes
  /-- Object frame pose: the frame at the close, and where its capsules stay when the group opened. -/
  objPose : Bytes
  /-- Its members are re-seeded: the leader's next planner run plans its motion anew (R135). -/
  reseeded : Bool
deriving DecidableEq, Repr

/-- A correction channel (R159 to R162). -/
structure HcSt where
  /-- Outputs of the last 64 cycles, newest first (R160). -/
  hist : List Nat
  /-- Newest valid measurement and its cycle. -/
  meas : Option (Nat × Nat)
  justOn : Bool
  dirNeg : Bool
deriving DecidableEq, Repr

/-- A virtual master (R154): velocity and acceleration, binary64. -/
structure VmSt where
  v : Nat
  a : Nat
deriving DecidableEq, Repr

/-- The planners and correction channels. -/
structure StMotion where
  arms : List ArmSt
  groups : List GrpSt
  hcs : List HcSt
  vms : List VmSt
  /-- GRP_CMD accepted, waiting for the next cycle start: group and command (R156). -/
  grpCmds : List (Nat × Nat)
deriving DecidableEq, Repr

/-- The warm source (R186): signature, ids and unscaled values. -/
structure Warm where
  sig : Nat
  varIds : List Nat
  eqIds : List Nat
  inIds : List Nat
  x : List Nat
  z : List Nat
  y : List Nat
  nu : List Nat
deriving DecidableEq, Repr

/-- The whole-cell solver (R164 to R193). -/
structure StSolver where
  /-- Committed positions, velocities and accelerations by joint slot (R166). -/
  q : List Nat
  v : List Nat
  a : List Nat
  /-- Measured positions and velocities by joint slot. -/
  qm : List Nat
  vm : List Nat
  /-- q_pred of R200 by joint slot, as the kinematics kernels delivered it. -/
  qp : List Nat
  ready : Bool
  result : Bytes
  prevResult : Bytes
  duals : Bytes
  prevDuals : Bytes
  warm : Option Warm
  /-- Consecutive rejected results (R184). -/
  fbRun : Nat
  /-- Cycle whose output is committed. -/
  doneCycle : Option Nat
deriving DecidableEq, Repr

/-- A row delivered by the Square (R211, R214, R224). -/
structure SqRow where
  key : Nat
  e1 : Nat
  e2 : Nat
  zone : Bool
  people : Bool
  slack : Nat
  d : Nat
  b : Nat
  /-- Coefficients by joint slot. -/
  coeff : List (Nat × Nat)
deriving DecidableEq, Repr

/-- A held key of the key register (R214): the pair and the cycle of its last row. -/
structure SqKey where
  key : Nat
  e1 : Nat
  e2 : Nat
  zone : Bool
  last : Nat
deriving DecidableEq, Repr

/-- A complete inbound buffer of a TV block with its frame's cycle (R202). -/
structure TvBuf where
  block : Nat
  cycle : Nat
  data : Bytes
deriving DecidableEq, Repr

/-- A pending crossing request with its apply cycle (R217). -/
structure CrPend where
  arm : Nat
  mask : Nat
  cycle : Nat
deriving DecidableEq, Repr

/-- The Square and the Crossings (R194 to R225). -/
structure StSquare where
  rows : List SqRow
  keys : List SqKey
  tv : List TvBuf
  /-- Its outputs of the present cycle are those of the previous one (R195). -/
  late : Bool
  doneCycle : Option Nat
  pend : List CrPend
  /-- Zones whose release waits, by arm (R220). -/
  releasing : List Nat
deriving DecidableEq, Repr

end Sys2Proof.Machine
end

