-- ==== Sys2Proof/Machine/StAxes.lean ====
section
/-! DEFINITION. State of the feedback channels, compare units, encoder emulation and auxiliary axes (chapter "Position feedback
and auxiliary axes"). Cell times are in 2^-16 ns. -/

namespace Sys2Proof.Machine

/-- A compare unit (R290 to R293) beyond CMP_VALUE and CMP_STATUS. -/
structure CmpSt where
  /-- The direction that held at the write: true is positive. -/
  dir : Bool
  fires : Nat
  pulse : Bool
deriving DecidableEq, Repr

/-- A feedback channel (R281 to R289). -/
structure FbSt where
  count : Int
  a : Bool
  b : Bool
  /-- Reference direction: true is positive. -/
  dir : Bool
  /-- Word of the previous valid reading. -/
  word : Option Nat
  /-- A request on the absolute line that has not completed: the count at its latch edge (R284, R286). -/
  req : Option Int
  /-- Newest valid absolute reading: count and latch time. -/
  newest : Option (Int × Nat)
  /-- Level of FBc_CLK (R278, R279): high but from the latch edge of a request to its end. -/
  clk : Bool
  /-- FB_POS and FB_TIME of past cycle starts, newest first. -/
  hist : List (Int × Nat)
  u0 : CmpSt
  u1 : CmpSt
deriving DecidableEq, Repr

/-- An emulation output (R294 to R296): base, edges of the start-up still to come, and the values of a source that changes once
per cycle at its last apply times (ns), newest first. -/
structure EmuSt where
  base : Int
  boot : Nat
  hist : List (Nat × Int)
deriving DecidableEq, Repr

/-- An auxiliary axis (R297 to R305). -/
structure AxSt where
  motion : Motion
  queued : Option Bytes
  due : List Bytes
  /-- Commanded positions at the last apply times (ns), newest first, and the commanded velocity, binary64. -/
  hist : List (Nat × Nat)
  vel : Nat
  /-- Resolution change that waits. -/
  msPending : Option Nat
  /-- STEP, DIR, EN and MS balls. -/
  step : Bool
  dir : Bool
  en : Bool
  ms : Nat
  /-- A move that waits for the wake time, and cycle of its deferred start (R305). -/
  deferred : Option (Bytes × Nat)
  /-- The move queued behind the one that waits (R140, R305). -/
  waitQ : Option Bytes
  /-- Instants, ns, of the last rising edge of STEP and of the newest change of DIR or MS (R300). -/
  rise : Option Nat
  chgAt : Option Nat
  /-- The step generator is stopped (R299), and must be re-seeded at the next entry to RUN. -/
  stopped : Bool
deriving DecidableEq, Repr

/-- Feedback, emulation and axes. -/
structure StAxes where
  fbs : List FbSt
  emus : List EmuSt
  axes : List AxSt
  /-- The axes had torque at the last cycle start (R299). -/
  granted : Bool
deriving DecidableEq, Repr

end Sys2Proof.Machine
end

