-- ==== Sys2Proof/Machine/StDict.lean ====
section
/-! DEFINITION. State of the dictionary engine, its requesters, the host windows, the service port and the ring transfers
(chapter "Object dictionary and host access"), and of the device state machine (chapter "Architecture"). -/

namespace Sys2Proof.Machine

/-- Object values by key, keys strictly rising, no value equal to its object's default. -/
abbrev Store := List (Nat × Bytes)

/-- Memory in canonical form: addresses strictly rising, no listed 0 (what an unlisted address reads as). -/
abbrev Mem := List Host.Cell

/-- An open segmented transfer (R399, R400). -/
structure Xfer where
  index : Nat
  sub : Nat
  /-- A write transfer; otherwise a read transfer. -/
  isWrite : Bool
  /-- Write: the bytes received. Read: the snapshot, if one was taken. -/
  data : Bytes
  snapshot : Bool
  /-- Total size of the value. -/
  total : Nat
  /-- Number of the next segment. -/
  next : Nat
  /-- A write to the object closed the read transfer (R400). -/
  closed : Bool
  /-- The transfer writes the staged copy. -/
  staged : Bool
  /-- Marks taken with the snapshot (R416). -/
  flags : Nat
deriving DecidableEq, Repr

/-- What a requester last received of one mailbox object (R416). -/
structure MailMark where
  key : Nat
  seq : Nat
  count : Nat
deriving DecidableEq, Repr

/-- A requester of R391. -/
structure RqSt where
  rq : Requester
  /-- Level to which the requester has raised itself: 0 B, 1 E, 3 V. -/
  raised : Nat
  /-- Operating times of wrong unlock codes within the last 60 s (R392). -/
  wrong : List Nat
  lockout : Bool
  /-- Operating time until which a service token holds (R393). -/
  vUntil : Option Nat
  /-- TID of the last request and its kept response, and the request that awaits its final response (R401, R402). -/
  tid : Option Nat
  response : Option DictMsg
  openReq : Option DictMsg
  /-- A PENDING is owed if the request has not completed by the next cycle start (R402). -/
  owed : Bool
  /-- Outcome of the last write without a message of its own: 0 accepted, else the abort code. -/
  result : Nat
  xfer : Option Xfer
  marks : List MailMark
  /-- Shadow of R414: base address (as key and base word offset) and value. -/
  shadow : Option (Nat × Bytes)
  /-- The last word read through a window, and TEAR for planner requesters (R414). -/
  word : Nat
  tear : Bool
deriving DecidableEq, Repr

/-- A service port session (R406). -/
structure Session where
  slot : Nat
  ip : W32
  port : W16
  /-- Operating time of the last datagram, 1/16 s. -/
  lastAt : Nat
deriving DecidableEq, Repr

/-- A write that takes effect at a later cycle (R389). -/
structure PendingWrite where
  rq : Requester
  key : Nat
  data : Bytes
  applyCycle : Nat
deriving DecidableEq, Repr

/-- The host registers and buffers of one window (R408 to R419). -/
structure HostSt where
  reqBuf : Bytes
  rspBuf : Bytes
  /-- HOST_STATUS and INT_STATUS as the maps of R409 and R418 number their bits. -/
  status : Nat
  intStatus : Nat
  intEnable : Nat
  directErr : Nat
  cycDiv : Nat
  /-- Write latch of R411: entry and words by number. -/
  latch : Option (Nat × List (Nat × Nat))
  /-- MSI-X table words and pending bits (PCIe only). -/
  msix : List Nat
  msixPending : Nat
  /-- MSI-X messages sent, by vector (a counter each). -/
  msixSent : List Nat
  /-- Words returned by the last window read. -/
  lastRead : List Nat
  /-- The request buffer changed while REQ_BUSY was set (R410). -/
  dirty : Bool
deriving DecidableEq, Repr

/-- A request of the CX864 or a node that awaits its response (R403). -/
structure OutReq where
  key : OutKey
  tid : Nat
  msg : DictMsg
  resends : Nat
  /-- It has been sent; otherwise it waits for the requests before it to the same station. -/
  sent : Bool
deriving DecidableEq, Repr

/-- A node event acknowledged within the retention of R405. -/
structure SeenEvent where
  addr : Nat
  code : Nat
  time : Bytes
deriving DecidableEq, Repr

/-- An EVENT transfer being collected (R405). -/
structure EventXfer where
  ring : RingId
  addr : Nat
  head : Bytes
  data : Bytes
deriving DecidableEq, Repr

/-- The dictionary engine and its paths. -/
structure StDict where
  rqs : List RqSt
  /-- Requesters whose requests wait for the engine, in order of arrival (R386, R481). -/
  waiting : List Requester
  sessions : List Session
  pendingWrites : List PendingWrite
  pcie : HostSt
  spi : HostSt
  /-- DRAM exchange area of BAR2 (R412). -/
  exchange : Mem
  /-- Indirect transfer in progress. -/
  indirect : Option (DictMsg × Nat × Nat)
  hostEvents : List Bytes
  outReqs : List OutReq
  /-- TID of the last request to each station (R401). -/
  lastTid : List (OutKey × Nat)
  seen : List SeenEvent
  eventXfers : List EventXfer
  /-- Responses and acknowledgements waiting for the arbitrating window of a ring (R402, R405). -/
  ringOut : List (RingId × Nat × DictMsg)
  /-- ARP and ICMP answers and datagrams sent on the service port (R406): destination address, port, bytes. -/
  svcOut : List (Nat × Nat × Bytes)
deriving DecidableEq, Repr

/-- The states of R22. -/
inductive DevState | inert | config | sync | ready | run | hold | degraded | fault | service
deriving DecidableEq, Repr

/-- Code of a state in DEV_STATE (R22). -/
def DevState.code : DevState → Nat
  | .inert => 1 | .config => 2 | .sync => 3 | .ready => 4 | .run => 5 | .hold => 6 | .degraded => 7 | .fault => 8 | .service => 9

/-- Where the device stands in boot (R29): held in reset, booting, or past the end of boot. -/
inductive Phase | reset | booting | up
deriving DecidableEq, Repr

/-- A device fault that waits for the cycle start of R28: record type, UNIT_FAIL bit and detail word (R26). -/
structure DevFault where
  type : Nat
  unit : Nat
  cycle : Nat
  detail : Nat
deriving DecidableEq, Repr

/-- A device command that waits for its evaluation (R422). -/
structure QueuedCmd where
  rq : Requester
  code : Nat
  applyCycle : Nat
deriving DecidableEq, Repr

/-- The device state machine (R18 to R29). -/
structure StDev where
  phase : Phase
  state : DevState
  /-- Tier at which the device last entered RUN (R19). -/
  tierInUse : Nat
  /-- CONFIG was entered from READY, so a running ring is kept (R38, R99). -/
  cfgFromReady : Bool
  degradedUsed : Bool
  deviceFaults : List DevFault
  /-- Single-channel faults: channel (true is H) and code (R312). -/
  chanFaults : List (Bool × Nat)
  /-- The last stop came out of RUN or HOLD: the units work until standstill (R19). -/
  stopRuns : Bool
  /-- A stop demand, an SS2 demand, or the end of DEGRADED waits for the cycle start. -/
  stopDemand : Bool
  ss2Demand : Bool
  degTimerEnd : Bool
  /-- A shedding stage entered since the last evaluation (R481). -/
  shedEvent : Nat
  /-- SYNC_TIMEOUT of R25: the last SYNC ended by its timeout. No status object of the spec shows it. -/
  syncExpired : Bool
  cmds : List QueuedCmd
  /-- Device faults whose records wait for the next mount of the recorder, with the OPTIME of the fault (R26). -/
  held : List (DevFault × Nat)
  /-- UNIT_ID strap as latched at boot (R504). -/
  unitId : Bool
  /-- Standstill was reached in shedding stage S3, and a brake test is overdue past its grace period (R18, R21). -/
  shedStill : Bool
  btCap : Bool
  dramReady : Bool
  /-- The device committed since INERT was last entered (R38). -/
  committed : Bool
deriving DecidableEq, Repr

end Sys2Proof.Machine
end

