-- ==== Sys2Proof/Machine/StLane.lean ====
section
/-! DEFINITION. State of the 64 Lanes with their performance counters, and of the Junction (chapters "Lane instruction set and
performance counters" and "Lanes and the Junction"). -/

namespace Sys2Proof.Machine

/-- A token as a port holds it (R227, R230). -/
structure Tok where
  data : Bytes
  late : Bool
  stale : Bool
  age : Nat
  /-- Ingress stamp that an RX token carries, 2^-16 ns (R231). -/
  stamp : Option Nat
deriving DecidableEq, Repr

/-- A fired task (R228, R232): the instance, its cycle tag, its operands in port order and its state block. -/
structure Fired where
  inst : Nat
  tag : Nat
  ops : List Tok
  block : Bytes
  /-- Run from another Street's list (R235). -/
  stolen : Bool
deriving DecidableEq, Repr

/-- A task in a Lane's local slot, with the Street whose list it came from (R234). -/
structure SlotTask where
  task : Fired
  street : Nat
deriving DecidableEq, Repr

/-- The task that a Lane runs (R250 to R255). -/
structure LaneTask where
  task : Fired
  kernel : Nat
  tmpl : Nat
  desc : Bytes
  /-- The operand space. -/
  ops : Bytes
  stateLen : Nat
  outPorts : Nat
deriving DecidableEq, Repr

/-- One Lane (R250 to R267). -/
structure LaneSt where
  /-- G0 to G31 (entry 0 is never written) and the physical rotating registers. -/
  g : List W32
  q : List W32
  rrb : BitVec 5
  ac0 : BitVec 72
  ac1 : BitVec 72
  pc : W16
  lstat : W32
  /-- Data SRAM, state block, output area and output table at their local addresses. -/
  mem : Mem
  task : Option LaneTask
  slot : Option SlotTask
  /-- Destination and length of the DMA transfer that has not completed. -/
  dma : Option (Nat × Nat)
  /-- Counter shadow of RDCNT: counter number and value (R275). -/
  shadow : Option (Nat × Nat)
deriving DecidableEq, Repr

/-- The counters of an engine (R270). -/
structure CntSt where
  cyc : Nat
  pmc : List Nat
  /-- The engine's clock has run since the last sample, and then stopped. -/
  ran : Bool
deriving DecidableEq, Repr

/-- One port of an instance (R228, R230). -/
structure JPort where
  cur : Option Tok
  nxt : Option Tok
  subst : Bool
  /-- The last token received, and the AGE of the last operand. -/
  last : Option Tok
  age : Nat
deriving DecidableEq, Repr

/-- One task instance (R226 to R238). -/
structure InstSt where
  id : Nat
  tmpl : Nat
  param : Nat
  /-- Current tag. -/
  tag : Nat
  ports : List JPort
  block : Bytes
  late : Nat
  consec : Nat
  /-- Previous outputs by output port. -/
  outs : Option (List Bytes)
  aborted : Bool
  stolen : Bool
  /-- A KIN whose measurement is too old (R238). -/
  lost : Bool
deriving DecidableEq, Repr

/-- A committed state that a joint loop keeps, with its apply time in ns (R244). -/
structure JlHist where
  q : Nat
  v : Nat
  a : Nat
  at_ : Nat
deriving DecidableEq, Repr

/-- State block of a joint loop (R244). -/
structure JlSt where
  ui : Nat
  vf : Nat
  /-- s1 and s2 of both biquads. -/
  s : List Nat
  hist : List JlHist
  /-- It has run since the entry to RUN. -/
  fresh : Bool
deriving DecidableEq, Repr

/-- Last decoded sample of a joint (R242): count, q, q̇ and torque. -/
structure JointDec where
  count : Nat
  q : Nat
  v : Nat
  tq : Nat
deriving DecidableEq, Repr

/-- The Junction (R226 to R249). -/
structure StJn where
  /-- The cycle graph runs (R229). -/
  running : Bool
  insts : List InstSt
  /-- Ready lists by 4 × Street + priority, and delay lists by Street with release ticks (R232, R233). -/
  ready : List (List Fired)
  delay : List (List (Nat × Fired))
  /-- Joint loops and decoded samples by joint slot. -/
  jl : List JlSt
  dec : List (Option JointDec)
  /-- Templates that met an illegal condition since the last CFG_COMMIT (R257). -/
  illegal : List Nat
  /-- User part of instruction SRAM, from 0x4000 (R246, R268). -/
  code : Bytes
deriving DecidableEq, Repr

end Sys2Proof.Machine
end

