-- ==== Sys2Proof/Machine/StMon.lean ====
section
/-! DEFINITION. State of the supply monitor, the clocks, the Lamplighter and the shedding logic (chapter "Supplies, clocks and
supply monitor"), and of the test access port (chapter "Electrical characteristics, test and package"). -/

namespace Sys2Proof.Machine

/-- A channel of the monitor: newest corrected result with its slot, whether the one before lay beyond each threshold, and the
accumulator and tracker of the running window (R479). -/
structure MonCh where
  last : Option Nat
  /-- Conditions of R480 beyond whose threshold the newest result lies. -/
  beyond : Nat
  /-- Slot of the first result of an unbroken run beyond the S1 threshold. -/
  since : Option Nat
  sum : Nat
  count : Nat
  min : Nat
  max : Nat
  sat : Bool
deriving DecidableEq, Repr

/-- A pending injected conversion (R475). -/
structure Inj where
  slot : Nat
  chan : Nat
  by_ : Injector
deriving DecidableEq, Repr

/-- A system calibration step that averages (R478). -/
structure AvgSt where
  rq : Requester
  group : Nat
  second : Bool
  uv : Nat
  sum : Nat
  /-- Conversions taken of each tap of the group. -/
  counts : List Nat
deriving DecidableEq, Repr

/-- Monitor, clocks and Lamplighter. -/
structure StMon where
  chans : List MonCh
  /-- Position in MON_SEQ of the next sequence conversion. -/
  seqPos : Nat
  injs : List Inj
  /-- Slot of the newest result. -/
  slotNow : Nat
  /-- Conditions of R480 that hold, by row of its table. -/
  conds : List Bool
  /-- Slice that calibrates, or waits for an injected conversion (R476, R477). -/
  calib : Option (Nat × Bool)
  /-- Step 1 of each group in SERVICE: level and sum and count of its mean (R478). -/
  steps : List (Option (Nat × Nat × Nat))
  avg : Option AvgSt
  /-- PLLs K, S, N, B, P and X locked. -/
  pll : List Bool
  /-- The watchers on REFCLK and on GUARD_CLK have tripped, with their last counts (R467). -/
  tripRef : Bool
  tripGuard : Bool
  countRef : Nat
  countGuard : Nat
  /-- CLK_DISAGREE is reported in the next boot's flags (R485). -/
  disagree : Bool
  /-- Instants, ns, at which the rails reached 90 % (R462). -/
  rails : List (Option Nat)
  /-- VDD_SAFE lies below 0.660 V (R480). -/
  safeLow : Bool
  /-- The 800 MHz and 1.0 GHz domains run, and their running time in ns (R469). -/
  on800 : Bool
  on1000 : Bool
  time800 : Nat
  time1000 : Nat
  /-- S4 waits for standstill; the Motion Quarter clocks are stopped (R481). -/
  s4wait : Bool
  stopped : Bool
  /-- Dictionary requests executed in the present cycle, counted at S1 (R481). -/
  served : Nat
deriving DecidableEq, Repr

/-- TAP instructions (R507). -/
inductive TapInstr | extest | idcode | sample | pulse | train | clamp | highz | sealRead | bypass
deriving DecidableEq, Repr

/-- The test access port (R507 to R514). -/
structure StTap where
  ir : TapInstr
  /-- The TAP controls the balls. -/
  driving : Bool
  boundary : List Bool
  /-- Seal register, and the newest complete scans since SEAL_READ became current. -/
  sealReg : Nat
  scanA : Option Nat
  scanB : Option Nat
  /-- AC test pulses sent. -/
  pulses : Nat
deriving DecidableEq, Repr

end Sys2Proof.Machine
end

