-- ==== Sys2Proof/Machine/StPair.lean ====
section
/-! DEFINITION. State of the claim logic, the heartbeats and the forwarding of a redundant pair (chapter "Redundant pair"). -/

namespace Sys2Proof.Machine

/-- One heartbeat path (R364). -/
structure HbPathSt where
  /-- Consecutive cycles with a received heartbeat. -/
  okRun : Nat
  /-- Cycle of the newest received heartbeat (low 32 bits). -/
  lastSeq : Option Nat
  /-- HB_COUNT of the next own heartbeat (R84). -/
  count : Nat
deriving DecidableEq, Repr

/-- A request forwarded by the owner (R371). -/
structure Forwarded where
  cseq : Nat
  applyCycle : Nat
deriving DecidableEq, Repr

/-- Setpoint digest of a cycle (R368). -/
structure CycleDigest where
  cycle : Nat
  digest : Nat
deriving DecidableEq, Repr

/-- The redundant pair beyond the objects of R381. RED_CLAIM_STATE holds the claim state itself. -/
structure StPair where
  /-- Filtered ILK_PEER. -/
  peer : Bool
  /-- Cell time of the own assertion of ILK_CLAIM, 2^-16 ns, for the overlap window (R360). -/
  claimedAt : Nat
  /-- The device has entered SYNC since its last reset or DETACH (R361). -/
  enteredSync : Bool
  /-- The claim watchdog has tripped, and why (R359). -/
  trip : Option WdCause
  link : HbPathSt
  ringM : HbPathSt
  /-- HOLDOFF was entered from WAIT, so a claim is a takeover (R376). -/
  fromWait : Bool
  /-- The ring role and time mastership in use: ACTIVE from the cycle start after the claim (R358, R376). -/
  active : Bool
  /-- The unit acts for its partner from the next cycle start (R124). -/
  actAlone : Bool
  /-- A partner heartbeat has arrived since the claim. -/
  heardSinceClaim : Bool
  /-- Own digests of recent cycles, and the partner's that were compared with them, newest first. -/
  own : List CycleDigest
  peerDigests : List CycleDigest
  /-- Consecutive differing and equal digests, and the first differing cycle of the run (R369, R365). -/
  diffRun : Nat
  firstDiff : Nat
  sameRun : Nat
  /-- A divergence: NULL in place of duplicates, until an entry to RUN (R369, R375). -/
  nullDup : Bool
  /-- NULL is due from the next cycle start (R369). -/
  nullNext : Bool
  /-- A split view: NULL in place of duplicates, until four matching digests after it (R365). -/
  splitNull : Bool
  cseqOut : Nat
  cseqIn : Option Nat
  forwarded : List Forwarded
  /-- Apply cycle of an accepted swap (R378). -/
  swapAt : Option Nat
  /-- Cycle d + 2 of an accepted DETACH of this device, or announced by the partner (R374). -/
  detachAt : Option Nat
  partnerDetachAt : Option Nat
  /-- Rejoining under R375, and the cycle in which the grid locked. -/
  rejoining : Bool
  gridAt : Option Nat
  /-- A stop demand is due at the first cycle start as owner (R377). -/
  stopAtOwner : Bool
  /-- Operating time of the last role change, 1/16 s (R379). -/
  roleSince : Nat
  /-- Wadra ports are forced into hardware pass-through (R359, R374, R375). -/
  passThrough : Bool
  /-- Functional outputs are held inert by the watchdog or a DETACH (R359, R374). -/
  inert : Bool
  /-- What the partner last reported at a commit or a swap (R356, R378, R451). -/
  peerInfo : Option PeerInfo
  /-- Sender counter of the redundancy link (R78, R363). -/
  linkCtr : Nat
  /-- Exchange number of the next time exchange (R46, R363). -/
  exch : Nat
  /-- Frames placed on the redundancy link since the last cycle start, newest last (R363). -/
  linkOut : List Frame
deriving DecidableEq, Repr

end Sys2Proof.Machine
end

