-- ==== Sys2Proof/Machine/StRec.lean ====
section
/-! DEFINITION. State of the event recorder and of the security unit (chapter "Event recorder, boot and attestation"). -/

namespace Sys2Proof.Machine

/-- A ring sector that holds records (R429): its number in the flash, its header fields and its records in order. -/
structure RecSector where
  num : Nat
  sseq : Nat
  pcc : Nat
  recs : List Bytes
deriving DecidableEq, Repr

/-- One recorder ring with its flash sectors, oldest first, and its queue in recorder SRAM (R428 to R435). -/
structure RecRingSt where
  /-- First sector and number of sectors of the ring. -/
  first : Nat
  count : Nat
  /-- Sectors holding records, oldest first; the last is being filled. -/
  sectors : List RecSector
  /-- The sector kept erased ahead, if its erase has completed. -/
  ahead : Option Nat
  /-- The sector being erased, if any. -/
  erasing : Option Nat
  /-- Erases of the ring are deferred (R481), and the one named in `erasing` has not begun. -/
  defer : Bool
  waiting : Bool
  /-- SSEQ that the next opened sector takes. -/
  nextSseq : Nat
  /-- Records waiting, oldest first, each as its bytes in flash. -/
  queue : List Bytes
  /-- Bytes of the queue's first record already programmed. -/
  progressed : Nat
  /-- SEQ that the next accepted record takes (R431). -/
  nextSeq : Nat
  /-- A record was dropped since the last one accepted (R433). -/
  lost : Bool
  /-- Records have been overwritten (R456). -/
  wrapped : Bool
deriving DecidableEq, Repr

/-- Requests of one record type (R434): total since the last cold boot and counts by unit of operating time. -/
structure TypeStat where
  type : Nat
  total : Nat
  win : List (Nat × Nat)
deriving DecidableEq, Repr

/-- A save entry of the control area (R438). -/
structure SaveEntry where
  optime : Nat
  pcc : Nat
  kind : Nat
deriving DecidableEq, Repr

/-- The event recorder (R427 to R441). -/
structure StRec where
  /-- Sectors of the recorder flash. -/
  sectorsTotal : Nat
  optime : Nat
  /-- REFCLK ticks within the present unit of operating time (R438). -/
  tickCnt : Nat
  pcc : Nat
  mounted : Bool
  safety : RecRingSt
  general : RecRingSt
  /-- The ring whose page program is in progress (true is the safety ring), and the bytes it programs. -/
  programming : Option (Bool × Nat)
  /-- Sector numbers in the bad-sector list (R435). -/
  bad : List Nat
  /-- Newest save entry of sectors 0 and 1, and the sector that takes the next one (R438). -/
  save0 : Option SaveEntry
  save1 : Option SaveEntry
  saveNext : Bool
  /-- Request counts in the order of first request (R434). -/
  stats : List TypeStat
  /-- General-ring requests are no longer taken (R436). -/
  stopped : Bool
  /-- A record was being programmed at the last power-on reset (R436). -/
  torn : Bool
deriving DecidableEq, Repr

/-- State of one slot of an image type, as `SEC_SLOTS` codes it (R457). -/
inductive SlotState | empty | valid | pending | trial | invalid
deriving DecidableEq, Repr

/-- The two slots of one image type in the boot flash (R446, R447). -/
structure ImgSlots where
  active : Bool
  running : Option Bool
  stA : SlotState
  stB : SlotState
  imgA : Bytes
  imgB : Bytes
deriving DecidableEq, Repr

/-- Fuses (R444, R459). -/
structure Fuses where
  serial : Nat
  mac : Nat
  vendorKey : Option Bytes
  safetyKey : Option Bytes
  /-- Key hashes of owner slots 0 to 3. -/
  owner : List (Option Bytes)
  revoked : List Bool
  devBlown : Bool
  /-- Rollback counters of main, safety and library images. -/
  rollback : List Nat
  devSeed : Option Bytes
deriving DecidableEq, Repr

/-- A boot-flash operation in progress (R449, R342): the erase before a transfer, the storing of a whole value, or an image read back
whose verification waits for a signature (R453). -/
inductive FlashOp
  | erase (rq : Requester)
  | image (t : Nat) (d : Bytes) (rq : Requester)
  | readBack (t : Nat) (d : Bytes) (rq : Requester)
  | safetySet (d : Bytes) (rq : Requester)
deriving DecidableEq, Repr

/-- A write whose verification waits for the signature being made (R453). -/
structure WaitingWrite where
  rq : Requester
  index : Nat
  sub : Nat
  data : Bytes
deriving DecidableEq, Repr

/-- The security unit and the boot flash (R442 to R459). -/
structure StSec where
  fuses : Fuses
  main : ImgSlots
  safety : ImgSlots
  lib : ImgSlots
  trngOk : Bool
  /-- The operation of the boot flash that has not completed (R449). -/
  flashOp : Option FlashOp
  /-- Nonce of the report being signed, and the writes whose verification waits for it, in order (R453). -/
  attNonce : Option Bytes
  verifies : List WaitingWrite
  attSeq : Nat
  attReady : Bool
  attReport : Bytes
deriving DecidableEq, Repr

end Sys2Proof.Machine
end

