-- ==== Sys2Proof/Machine/StRing.lean ====
section
/-! DEFINITION. State of the Wadra rings: the head's ring controllers, and the Wadra nodes that the commands act on (both
"Wadra cell bus" chapters; the safety part of a node under R333). -/

namespace Sys2Proof.Machine

/-- States of a coldstart-capable node (R97); PASS is hardware pass-through before SYNC (R63). -/
inductive CsState | pass | listen | coldstart | backoff | integrate | running
deriving DecidableEq, Repr

/-- States of an ordinary node (R105). -/
inductive NState | listen | locked | measured | assigned | integrated | excluded
deriving DecidableEq, Repr

/-- An outbound slot (R115, R116): the buffer being filled, the newest complete one, and what was last sent. -/
structure OutSlot where
  slot : Nat
  /-- Cycle number, payload and TX ranges (as map entry numbers) written so far. -/
  building : Option (Nat × Bytes × List Nat)
  complete : Option (Nat × Bytes)
  /-- The complete buffer was completed after the slot last sent DATA. -/
  fresh : Bool
  /-- Payload and cycle of the last DATA sent in the present timetable. -/
  lastData : Option (Bytes × Nat)
  /-- TYPE, AGE, SEQ and payload of the last frame sent; its header stands with the frames of the cycle. -/
  sent : Option (Nat × Nat × Nat × Bytes)
  /-- TYPE, AGE and payload of the last selection of R116, before any NULL in its place (R368). -/
  sel : Option (Nat × Nat × Bytes)
deriving DecidableEq, Repr

/-- An inbound slot (R115, R117): the newest accepted frame, the SEQ of the copy kept, and the SEQ whose data have been taken. -/
structure InSlot where
  slot : Nat
  payload : Bytes
  seq : Nat
  age : Nat
  kept : Option Nat
  taken : Option Nat
deriving DecidableEq, Repr

/-- What the head holds of a node of NODE_ORDER (R110 to R113, R127). -/
structure NodeRec where
  addr : Nat
  heard : Bool
  state : NState
  barred : Bool
  consec : Nat
  viol : Nat
  /-- Cell times (ns) of exclusions within the last 3,600 s and since the last commit. -/
  exclusions : List Nat
  /-- D_in last written to NODE_DELAY and last computed, ps, on A and B. -/
  writtenA : Int
  writtenB : Int
  compA : Int
  compB : Int
  /-- Forwarding delays reported in FWD_PS. -/
  fwdA : Int
  fwdB : Int
  /-- Round-trip samples: H_E (request on A) and H_W (request on B), ps. -/
  rhoA : Option Int
  rhoB : Option Int
  /-- Consecutive rounds off by more than 2 ns (R103). -/
  offRun : Nat
  /-- In the present matrix a slot of the node carried a frame, or a faulty one (R106). -/
  sawGood : Bool
  sawBad : Bool
  /-- The node has passed a cycle position 0 since its assignment, and sends in its slots (R105, R106). -/
  sends : Bool
  /-- NULL is sent in its slots (R111). -/
  substituted : Bool
  /-- Rejoin started, waiting for its delay measurement (R112). -/
  rejoining : Bool
  dup : Bool
deriving DecidableEq, Repr

/-- What a DELAY exchange is for: a measurement round (R103), a rejoin (R112), or the return from a fall-back (R123). -/
inductive ExKind | round | rejoin | back
deriving DecidableEq, Repr

/-- An open DELAY exchange (R101); `t1` is the egress stamp of its request once that has been sent, 2^-16 ns. -/
structure DelayEx where
  target : Nat
  exch : Nat
  onB : Bool
  t1 : Option Nat
  answered : Bool
  kind : ExKind
deriving DecidableEq, Repr

/-- One fall-back timetable (R120): the first failure, the start of the arbitrating window on paths E and W, and for each node slot its id,
channel (true is B) and new OFFSET. -/
structure Fallback where
  b : Nat
  failed : Nat
  failSlot : Nat
  arbE : Nat
  arbW : Nat
  slots : List (Nat × Bool × Nat)
deriving DecidableEq, Repr

/-- A loop reported by LINK_DOWN, or the loss of the head's own port (R118, R119): address, dead port (true is west), cycle. -/
structure LoopRec where
  addr : Nat
  west : Bool
  cycle : Nat
  up : Bool
deriving DecidableEq, Repr

/-- A frame of this station in progress at an egress (R108): port, what it is (0 a slot, 1 the arbitrating window, 2 START), and the
cell times in 0.1 ns at which its guardian window opens and closes. -/
structure OwnFrame where
  side : Side
  kind : Nat
  opens : Int
  closes : Int
deriving DecidableEq, Repr

/-- A port of a station (R118). -/
structure PortSt where
  sync : Bool
  /-- The station turns frames back at the other, live port because this one is dead. -/
  looped : Bool
  /-- LINK_UP has been sent since synchronisation returned. -/
  upSent : Bool
deriving DecidableEq, Repr

/-- The head's controller of one ring. -/
structure RingSt where
  cs : CsState
  attempt : Nat
  startsSent : Nat
  /-- First cycle whose SYNC this unit sends. -/
  syncFrom : Nat
  /-- Consecutive valid SYNC frames while integrating. -/
  syncRun : Nat
  lastSync : Option Nat
  /-- The operating timetable is in force, or announced for the next cycle start (R106). -/
  oper : Bool
  operNext : Bool
  /-- Break index in force (R121), and the switch due at the next cycle start (`some none` returns). -/
  fbt : Option Nat
  switchTo : Option (Option Nat)
  /-- Cycle of the SYNC that announced the last timetable change (R110). -/
  changeAt : Option Nat
  /-- TT_ID that SYNC carries. -/
  ttId : Nat
  /-- Sender counter of R78. -/
  senderCtr : Nat
  out : List OutSlot
  inb : List InSlot
  /-- Insertion buffers per channel: the frames waiting (R71). -/
  insA : List Bytes
  insB : List Bytes
  /-- Cell times in 0.1 ns from which the east and the west egress are free, idle code-groups included (R59, R71). -/
  busyE : Int
  busyW : Int
  own : List OwnFrame
  /-- Own frames started in the present basic cycle, oldest first (R76). -/
  line : List Frame
  /-- EVENT payloads that wait for their acknowledgement, oldest first, and the resends of the first (R118, R405). -/
  events : List Bytes
  resends : Nat
  /-- The other head unit is lost and this one heads the ring on its own side alone (R119). -/
  survivor : Bool
  /-- Delay measurement: exchange number, open exchanges, and whether the first round is complete. -/
  exch : Nat
  exchanges : List DelayEx
  measured : Bool
  /-- Round-trip samples of the links that end at the other head unit (position k + 1). -/
  headRho : Option Int
  nodes : List NodeRec
  east : PortSt
  west : PortSt
  loops : List LoopRec
  fallbacks : List Fallback
  /-- Delay measurement of the loop nodes before a return (R123). -/
  returning : Bool
  /-- The answer given to the last DELAY request to this unit (R101). -/
  delayAnswer : Bytes
  /-- A kept ring takes the new TT_ID at the next cycle start (R99). -/
  retime : Bool
deriving DecidableEq, Repr

/-- A Wadra node as its rows see it. -/
structure NodeSt where
  ring : RingId
  addr : Nat
  serial : Nat
  /-- NODE_TIMING, NODE_DELAY, NODE_ASSIGN, NODE_FALLBACK and NODE_ERR (R100). -/
  timing : Bytes
  delay : Bytes
  assign : Bytes
  fallback : Bytes
  err : Bytes
  /-- NODE_DELAY waits for the next cycle position 0. -/
  delayPending : Option Bytes
  state : NState
  cs : CsState
  attempt : Nat
  startsSent : Nat
  /-- Consecutive valid SYNC with consistent CYCLE_TIME, and the last one's cycle. -/
  syncRun : Nat
  lastSync : Option Nat
  /-- A SYNC has been received on channel A, and on channel B, since LISTEN (R104 step 1). -/
  heardA : Bool
  heardB : Bool
  /-- Cell time of the SYNC timestamp point at the node's ingress on A and on B, from which step 1 counts line offsets, 2^-16 ns. -/
  lineA : Option Nat
  lineB : Option Nat
  /-- NODE_DELAY is written, and the node keeps one local cell time (R104 step 2). -/
  hasTime : Bool
  /-- Local cell time minus cell time, 2^-16 ns, once a SYNC has set it; SEQ of the last SYNC on the downlink channel. -/
  timeOff : Option Int
  lastDown : Option Nat
  /-- FBT and TT_ID in force at the node, and the cycle in which it stays silent (R121). -/
  fbt : Option Nat
  ttId : Nat
  silentIn : Option Nat
  senderCtr : Nat
  /-- Copies kept of the slots that the node reads (R117). -/
  inb : List InSlot
  /-- Insertion buffers, egresses, own frames in progress and own frames of the present cycle, as at the head. -/
  insA : List Bytes
  insB : List Bytes
  busyE : Int
  busyW : Int
  own : List OwnFrame
  line : List Frame
  /-- The answer given to the last DELAY request (R101). -/
  delayAnswer : Bytes
  east : PortSt
  west : PortSt
  /-- The event that waits for its acknowledgement and its resends, and the events that wait behind it (R405). -/
  event : Option Bytes
  more : List Bytes
  resends : Nat
  /-- Newest accepted safety command halves of channels P and H: SCNT and CMD; whether each is younger than the watchdog
  time; whether the node grants torque; whether its SS1 timer runs (R333). -/
  cmdP : Option (Nat × Nat)
  cmdH : Option (Nat × Nat)
  aliveP : Bool
  aliveH : Bool
  torque : Bool
  ss1 : Bool
deriving DecidableEq, Repr

/-- Both rings and the nodes. -/
structure StRings where
  m : RingSt
  p : RingSt
  nodes : List NodeSt
deriving DecidableEq, Repr

end Sys2Proof.Machine
end

