-- ==== Sys2Proof/Machine/StSafe.lean ====
section
/-! DEFINITION. State of the Safety Quarter (chapter "Safety functions"): chain scans, inputs, demands, outputs and brakes,
connections, verified data, switches and safety sets. -/

namespace Sys2Proof.Machine

/-- One input chain as its channel reads it (R320 to R322). -/
structure ScanSt where
  /-- Number of the next scan, and consecutive discarded scans. -/
  num : Nat
  bad : Nat
  /-- Raw images of the last two scans; none for a discarded one. -/
  h1 : Option Nat
  h2 : Option Nat
  /-- Newest usable value of each input, and which inputs have had one. -/
  last : Nat
  seen : Nat
  /-- The accepted image. -/
  acc : Nat
  /-- Test period of each input's last cross-short observation. -/
  cross : List (Option Nat)
deriving DecidableEq, Repr

/-- An envelope of R315: cell time of its begin in ns and joint speeds there, counts/s. -/
structure Env where
  since : Nat
  v0 : List Nat
deriving DecidableEq, Repr

/-- Stages of a brake release (R337). -/
inductive Release | applied | wanted | opening | released
deriving DecidableEq, Repr

/-- One arm in the Safety Quarter. -/
structure SafeArm where
  /-- STO in the half of channel P and of channel H. -/
  stoP : Bool
  stoH : Bool
  /-- Demand bits of SAFE_VERDICT for each channel. -/
  demP : Nat
  demH : Nat
  ss1 : Option Env
  stopEnv : Option Env
  holdEnv : Option Env
  slsEnv : Option Env
  /-- Standstill was reached in HOLD; brakes engaged and BRAKE_CLOSE runs. -/
  stood : Bool
  closing : Bool
  release : Release
  /-- Channel P's enable for the arm's brake outputs is withdrawn: their channel B is off (R311, R335). -/
  offP : Bool
  /-- Present separation verdicts of the two channels, and whether an arm stop holds. -/
  verdP : Bool
  verdH : Bool
  armStop : Bool
  /-- Verified counts and count rates by joint, when a covered measurement was accepted. -/
  meas : Option (List Int × List Int)
  /-- TORQUE of the newest accepted drive status. -/
  torque : Nat
  /-- Brake test: units of operating time with a brake released since the last pass, last result, and a fail that stands. -/
  btTime : Nat
  btLast : Nat
  btFail : Bool
  btDue : Bool
  btOver : Bool
deriving DecidableEq, Repr

/-- A running brake test (R338): arms left, the recorded counts once torque showed. -/
structure BtRun where
  arm : Nat
  rest : Nat
  recorded : Option (List Int)
deriving DecidableEq, Repr

/-- A safety connection of SAFE_CONN (R334). -/
structure ConnSt where
  lost : Bool
  /-- MCRC and cycle of the newest accepted status. -/
  cover : Option (Nat × Nat)
deriving DecidableEq, Repr

/-- The Safety Quarter (R311 to R354). -/
structure StSafe where
  /-- The chain of channel P (B) and of channel H (A). -/
  scanP : ScanSt
  scanH : ScanSt
  /-- Faulted inputs that have shown demand on both contacts; guard inputs seen in demand, and tested. -/
  shown : Nat
  guardIn : Nat
  guardDone : Nat
  /-- Number of the Kerb's scan at which the RESET input went into demand (R324). -/
  resetAt : Option Nat
  arms : List SafeArm
  bt : Option BtRun
  conns : List ConnSt
  /-- Tracked volumes as the safety channels hold them, as records of R201 (R326). -/
  vols : List Bytes
  /-- Switch words as read, and at the last CFG_COMMIT. -/
  swA : Option Nat
  swB : Option Nat
  swCommit : Option (Nat × Nat)
  /-- Safety sets in boot flash by number (R343). -/
  sets : List (Option Bytes)
  /-- Commanded outputs: safe outputs in [15:0], brakes in [31:16]; channel A and channel B. -/
  outA : Nat
  outB : Nat
  /-- Consecutive exchanges without a valid image from the other channel (R312). -/
  missP : Nat
  missH : Nat
  /-- Operating time at which DEGRADED was entered (R346). -/
  degSince : Option Nat
  /-- Arms being jogged, by mask (R325). -/
  jogging : Nat
  /-- The SP and the Kerb report their self-tests passed (R27). -/
  testsOk : Bool
deriving DecidableEq, Repr

end Sys2Proof.Machine
end

