-- ==== Sys2Proof/Machine/StTime.lean ====
section
/-! DEFINITION. State of the time unit, the timestamp FIFOs and the two time domains (chapter "Cell time"). -/

namespace Sys2Proof.Machine

/-- The master that a PTP domain has selected (R45): the port that sends its messages, its grandmaster, and the dataset of its
newest Announce. -/
structure PtpMaster where
  sender : Nat
  port : Nat
  gm : Nat
  data : PtpDataset
deriving DecidableEq, Repr

/-- PTP messages that the CX864 sends (R45). -/
inductive PtpSend | delayReq | pdelayReq | pdelayResp | pdelayRespFollowUp
deriving DecidableEq, Repr

/-- A PTP message sent: its domainNumber, its sequenceId, and the time it carries, 2^-16 ns. -/
structure PtpOut where
  kind : PtpSend
  domain : Nat
  seq : Nat
  time : Nat
deriving DecidableEq, Repr

/-- What a time domain keeps beyond its objects of R56. -/
structure DomSt where
  /-- Consecutive updates whose predicted and measured offsets agreed (R47). -/
  run : Nat
  /-- Cell time (in 2^-16 ns) of the last valid update, when there is one. -/
  lastAt : Option Nat
  /-- Domain time − cell time in 2^-24 ns at the cell time `offAt` (2^-16 ns); DOM_OFFSET goes on from it at DOM_RATE. -/
  off24 : Int
  offAt : Nat
  /-- The last update used a software timestamp (R43). -/
  sw : Bool
  /-- Mean path delay of the last PTP delay exchange, 2^-16 ns, and whether a stamp of it is software. -/
  pathDelay : Option (Int × Bool)
  /-- The last Sync: remote time and ingress stamp, 2^-16 ns, its sequence id, and whether a stamp of it is software. -/
  sync : Option (Nat × Nat × Nat × Bool)
  /-- Origin and receive times of the last Sync used, for the delay exchange, and whether the stamp is software. -/
  t1t2 : Option (Nat × Nat × Bool)
  /-- sequenceId of the next request sent, and of the one that waits for its response. -/
  reqSeq : Nat
  reqOpen : Option Nat
  /-- A peer delay response that waits for its follow-up: egress, remote receipt, ingress, sequence id, software. -/
  pdelay : Option (Nat × Nat × Nat × Nat × Bool)
  /-- The selected master, when one is selected. -/
  master : Option PtpMaster
deriving DecidableEq, Repr

/-- The time unit (R30 to R53). -/
structure StTime where
  /-- Seconds, below 2^48. -/
  sec : Nat
  /-- Nanoseconds × 2^24 with the unreadable residue (R32). -/
  acc : Nat
  /-- Remaining slew and slew step, 2^-24 ns (R36). -/
  slewRem : Int
  slewStep : Nat
  /-- The stepped value that the next tick takes: seconds, nanoseconds and fraction (R37). -/
  stepTo : Option (Nat × Nat × Nat)
  /-- The stepped value derives from a software timestamp (R43). -/
  stepSw : Bool
  /-- The value that the firmware servo brings TIME_INC to, cycle by cycle (R94). -/
  incGoal : Option Nat
  /-- REFCLK runs; the time unit stands still otherwise (R53). -/
  running : Bool
  /-- TIME_INVALID (R53). -/
  invalid : Bool
  /-- Cycle number at the last cycle start that was evaluated (R34). -/
  lastCycle : Nat
  /-- Windows of the clock watch without a trip since REFCLK runs again (R53). -/
  cleanWindows : Nat
  d0 : DomSt
  d1 : DomSt
  /-- Timestamp FIFOs of ports 0 to 5, oldest record first, and the LOST marks (R42). -/
  fifos : List (List Bytes)
  lost : List Bool
  /-- PTP messages sent on the service port since the last cycle start, oldest first (R45). -/
  ptpOut : List PtpOut
deriving DecidableEq, Repr

end Sys2Proof.Machine
end

