-- ==== Sys2Proof/Machine/State.lean ====
section
/-! DEFINITION. The state of the CX864 as plain data, the reasons a step can stop, and the state after reset. -/

namespace Sys2Proof.Machine

/-- A step never faults: every command of the table has an effect in every state. -/
inductive Fault
deriving DecidableEq, Repr

/-- Why a command has no meaning. -/
inductive Refusal
  /-- Raised by an arm of `exec` whose command has no meaning yet; safe, since nothing is claimed of it. -/
  | notModelled (mnemonic : String)
deriving DecidableEq, Repr

/-- The whole machine. DESIGN CHOICE, log entry 1. -/
structure State where
  /-- Commands that wait, first in, first out: the block model's own queue. -/
  pending : List Instr
  /-- Counter that free values are applied to: the model's own field. -/
  free : Nat
  /-- Values of the active configuration and of every other object. -/
  objs : Store
  /-- The staged copy of R25 while CONFIG is open. -/
  staged : Option Store
  dev : StDev
  time : StTime
  dict : StDict
  recd : StRec
  sec : StSec
  pair : StPair
  rings : StRings
  motion : StMotion
  solver : StSolver
  square : StSquare
  jn : StJn
  /-- L0 to L63. -/
  lanes : List LaneSt
  /-- Counters of engines 0 to 81. -/
  cnts : List CntSt
  safe : StSafe
  axes : StAxes
  mon : StMon
  tap : StTap
deriving DecidableEq, Repr

/-! ### Reset: PORST_N is low, nothing has booted. Fields without a reset value in the spec take 0, empty or false (log entry 6). -/

/-- Device state machine at reset (R22, R29). DESIGN CHOICE, log entry 6. -/
def StDev.reset : StDev :=
  { phase := .reset, state := .inert, tierInUse := 0, cfgFromReady := false, degradedUsed := false, deviceFaults := [],
    chanFaults := [], stopRuns := false, stopDemand := false, ss2Demand := false, degTimerEnd := false, shedEvent := 0, syncExpired := false, cmds := [],
    held := [], unitId := false, shedStill := false, btCap := false, dramReady := false,
    committed := false }

/-- A domain that is OFF (R47). -/
def DomSt.reset : DomSt :=
  { run := 0, lastAt := none, off24 := 0, offAt := 0, sw := false, pathDelay := none, sync := none, t1t2 := none, reqSeq := 0,
    reqOpen := none, pdelay := none, master := none }

/-- The time unit at reset: cell time 0 (R31). DESIGN CHOICE, log entry 6. -/
def StTime.reset : StTime :=
  { sec := 0, acc := 0, slewRem := 0, slewStep := 0, stepTo := none, stepSw := false, incGoal := none, running := true, invalid := false,
    lastCycle := 0, cleanWindows := 0, d0 := .reset, d1 := .reset, fifos := List.replicate 6 [], lost := List.replicate 6 false,
    ptpOut := [] }

/-- A host window at reset. DESIGN CHOICE, log entry 6. -/
def HostSt.reset (vectors : Nat) : HostSt :=
  { reqBuf := [], rspBuf := [], status := 0, intStatus := 0, intEnable := 0, directErr := 0, cycDiv := 16000, latch := none,
    msix := (List.range (4 * vectors)).map (fun i => if i % 4 = 3 then 1 else 0), msixPending := 0,
    msixSent := List.replicate vectors 0, lastRead := [], dirty := false }

/-- The dictionary engine at reset. DESIGN CHOICE, log entry 6. -/
def StDict.reset : StDict :=
  { rqs := [], waiting := [], sessions := [], pendingWrites := [], pcie := .reset 8, spi := .reset 0, exchange := [], indirect := none,
    hostEvents := [], outReqs := [], lastTid := [], seen := [], eventXfers := [], ringOut := [], svcOut := [] }

/-- A recorder ring on erased flash. -/
def RecRingSt.reset (first count : Nat) : RecRingSt :=
  { first := first, count := count, sectors := [], ahead := some first, erasing := none, defer := false, waiting := false, nextSseq := 0, queue := [],
    progressed := 0, nextSeq := 0, lost := false, wrapped := false }

/-- The recorder with a blank flash of 4,096 sectors. DESIGN CHOICE, log entry 6. -/
def StRec.reset : StRec :=
  { sectorsTotal := 4096, optime := 0, tickCnt := 0, pcc := 0, mounted := false, safety := .reset 2 511,
    general := .reset 513 3583, programming := none, bad := [], save0 := none, save1 := none, saveNext := false, stats := [],
    stopped := false, torn := false }

/-- Empty slots of an image type. -/
def ImgSlots.reset : ImgSlots :=
  { active := false, running := none, stA := .empty, stB := .empty, imgA := [], imgB := [] }

/-- The security unit with blank fuses and an empty boot flash. DESIGN CHOICE, log entry 6. DESIGN CHOICE, log entry 63. -/
def StSec.reset : StSec :=
  { fuses := { serial := 0, mac := 0, vendorKey := none, safetyKey := none, owner := List.replicate 4 none,
               revoked := List.replicate 4 false, devBlown := false, rollback := [0, 0, 0], devSeed := none }
    main := .reset, safety := .reset, lib := .reset, trngOk := true, flashOp := none, attNonce := none, verifies := [], attSeq := 0,
    attReady := false, attReport := [] }

/-- The pair logic at reset: claim OFF, ports in pass-through (R361, R63). DESIGN CHOICE, log entry 6. -/
def StPair.reset : StPair :=
  let h : HbPathSt := { okRun := 0, lastSeq := none, count := 0 }
  { peer := false, claimedAt := 0, enteredSync := false, trip := none, link := h, ringM := h, fromWait := false, active := false,
    actAlone := false, heardSinceClaim := false, own := [], peerDigests := [], diffRun := 0, firstDiff := 0, sameRun := 0,
    nullDup := false, nullNext := false, splitNull := false, cseqOut := 0, cseqIn := none, forwarded := [], swapAt := none,
    detachAt := none, partnerDetachAt := none,
    rejoining := false, gridAt := none, stopAtOwner := false, roleSince := 0, passThrough := true, inert := false,
    peerInfo := none, linkCtr := 0, exch := 0, linkOut := [] }

/-- A ring controller before any commit. DESIGN CHOICE, log entry 6. -/
def RingSt.reset : RingSt :=
  let p : PortSt := { sync := false, looped := false, upSent := false }
  { cs := .pass, attempt := 0, startsSent := 0, syncFrom := 0, syncRun := 0, lastSync := none, oper := false, operNext := false,
    fbt := none, switchTo := none, changeAt := none, ttId := 0, senderCtr := 0, out := [], inb := [], insA := [], insB := [],
    busyE := 0, busyW := 0, own := [], line := [], events := [], resends := 0, survivor := false, exch := 0, exchanges := [], measured := false, headRho := none, nodes := [], east := p, west := p, loops := [],
    fallbacks := [], returning := false, delayAnswer := [], retime := false }

/-- Horizon half with nothing in it. -/
def Half.reset : Half := { theta0 := 0, moveId := 0, hz := 0, flags := 0, entries := [], exact := [], src := [] }

/-- A path planner that holds rest. -/
def Motion.reset : Motion :=
  { kind := 0, desc := [], start := [], ref := [], par := .grp ⟨0, 0, []⟩, prof := [], begin_ := 0, endAt := some 0, cam := none, slave := 0,
    present := none, done := true }

/-- Planners at reset. DESIGN CHOICE, log entry 6. -/
def StMotion.reset : StMotion :=
  { arms := List.replicate 8
      { sigmaPrev := 0, stopRamp := false, cur := .reset, next := none, motion := .reset, queued := none, due := [], jog := none,
        underrun := false, reseeded := false }
    groups := List.replicate 4 { motion := .reset, queued := none, due := [], objPose := poseOne, reseeded := false }
    hcs := List.replicate 32 { hist := [], meas := none, justOn := false, dirNeg := false }
    vms := List.replicate 4 { v := 0, a := 0 }
    grpCmds := [] }

/-- The solver at reset: not ready, committed state zero. DESIGN CHOICE, log entry 6. -/
def StSolver.reset : StSolver :=
  let z := List.replicate 64 0
  { q := z, v := z, a := z, qm := z, vm := z, qp := z, ready := false, result := [], prevResult := [], duals := [], prevDuals := [],
    warm := none, fbRun := 0, doneCycle := none }

/-- The Square at reset. DESIGN CHOICE, log entry 6. -/
def StSquare.reset : StSquare :=
  { rows := [], keys := [], tv := [], late := false, doneCycle := none, pend := [], releasing := List.replicate 8 0 }

/-- The Junction at reset: no graph. DESIGN CHOICE, log entry 6. -/
def StJn.reset : StJn :=
  { running := false, insts := [], ready := List.replicate 32 [], delay := List.replicate 8 [],
    jl := List.replicate 64 { ui := 0, vf := 0, s := [0, 0, 0, 0], hist := [], fresh := true }
    dec := List.replicate 64 none, illegal := [], code := [] }

/-- A Lane without a task. DESIGN CHOICE, log entry 6. -/
def LaneSt.reset : LaneSt :=
  { g := List.replicate 32 0, q := List.replicate 32 0, rrb := 0, ac0 := 0, ac1 := 0, pc := 0, lstat := 0, mem := [], task := none,
    slot := none, dma := none, shadow := none }

/-- A chain that has not been scanned. -/
def ScanSt.reset : ScanSt :=
  { num := 0, bad := 0, h1 := none, h2 := none, last := 0, seen := 0, acc := 0, cross := List.replicate 32 none }

/-- An arm at reset: STO in both halves, brakes applied. -/
def SafeArm.reset : SafeArm :=
  { stoP := true, stoH := true, demP := 0, demH := 0, ss1 := none, stopEnv := none, holdEnv := none, slsEnv := none, stood := false,
    closing := false, release := .applied, offP := true, verdP := false, verdH := false, armStop := false, meas := none, torque := 0, btTime := 0,
    btLast := 0, btFail := false, btDue := false, btOver := false }

/-- The Safety Quarter at reset: every output off. DESIGN CHOICE, log entry 6. -/
def StSafe.reset : StSafe :=
  { scanP := .reset, scanH := .reset, shown := 0, guardIn := 0, guardDone := 0, resetAt := none,
    arms := List.replicate 8 .reset, bt := none, conns := [], vols := [], swA := none, swB := none, swCommit := none,
    sets := List.replicate 16 none, outA := 0, outB := 0, missP := 0, missH := 0, degSince := none, jogging := 0,
    testsOk := false }

/-- Feedback, emulation and axes at reset (R279, R281). DESIGN CHOICE, log entry 6. -/
def StAxes.reset : StAxes :=
  let c : CmpSt := { dir := true, fires := 0, pulse := false }
  { fbs := List.replicate 16
      { count := 0, a := false, b := false, dir := true, word := none, req := none, newest := none, clk := true, hist := [], u0 := c, u1 := c }
    emus := List.replicate 8 { base := 0, boot := 0, hist := [] }
    granted := false
    axes := List.replicate 16
      { motion := .reset, queued := none, due := [], hist := [], vel := 0, msPending := none, step := false, dir := false,
        en := false, ms := 0, deferred := none, waitQ := none, rise := none, chgAt := none, stopped := false } }

/-- A monitor channel with no result. -/
def MonCh.reset : MonCh :=
  { last := none, beyond := 0, since := none, sum := 0, count := 0, min := 0xFFFF, max := 0, sat := false }

/-- Monitor, clocks and Lamplighter at reset: no PLL locked, both burst domains gated. DESIGN CHOICE, log entry 6. -/
def StMon.reset : StMon :=
  { chans := List.replicate 32 .reset, seqPos := 0, slotNow := 0, injs := [], conds := List.replicate 13 false, calib := none,
    steps := List.replicate 7 none, avg := none, pll := List.replicate 6 false, tripRef := false, tripGuard := false, countRef := 0,
    countGuard := 0, disagree := false, rails := List.replicate 7 none, safeLow := false, on800 := false, on1000 := false,
    time800 := 0, time1000 := 0, s4wait := false, stopped := false, served := 0 }

/-- The TAP in Test-Logic-Reset (R507). DESIGN CHOICE, log entry 6. -/
def StTap.reset : StTap :=
  { ir := .idcode, driving := false, boundary := [], sealReg := 0, scanA := none, scanB := none, pulses := 0 }

/-- The machine right after reset. DESIGN CHOICE, log entry 6. -/
def State.reset : State :=
  { pending := [], free := 0, objs := [], staged := none, dev := .reset, time := .reset, dict := .reset, recd := .reset,
    sec := .reset, pair := .reset, rings := { m := .reset, p := .reset, nodes := [] }, motion := .reset, solver := .reset,
    square := .reset, jn := .reset, lanes := List.replicate 64 .reset, cnts := List.replicate 82 { cyc := 0, pmc := List.replicate 6 0, ran := false },
    safe := .reset, axes := .reset, mon := .reset, tap := .reset }

end Sys2Proof.Machine
end

