-- ==== Sys2Proof/Machine/Ops.lean ====
section
/-! DEFINITION. The named operations over the state: object values in their canonical store, memory cells, free values, cell
time, status bits, the host interrupt bits, and record requests to the event recorder. -/

namespace Sys2Proof.Machine

/-! ### Object store -/

/-- The value listed for a key. -/
def storeFind : Store → Nat → Option Bytes
  | [], _ => none
  | (k', v) :: r, k => if k' = k then some v else storeFind r k

/-- The store without a key. -/
def storeErase : Store → Nat → Store
  | [], _ => []
  | (k', v) :: r, k => if k' = k then storeErase r k else (k', v) :: storeErase r k

/-- The store with a value listed for a key, keys rising. -/
def storeInsert : Store → Nat → Bytes → Store
  | [], k, v => [(k, v)]
  | (k', v') :: r, k, v =>
    if k' < k then (k', v') :: storeInsert r k v
    else if k' = k then (k, v) :: r
    else (k, v) :: (k', v') :: r

/-- The store after a write: a value equal to the object's default is not listed. -/
def storePut (st : Store) (k : Nat) (v : Bytes) : Store :=
  if v = objDefault k then storeErase st k else storeInsert st k v

/-- The canonical form of the store: keys rising, no default listed. -/
def storeWf : Store → Bool
  | [] => true
  | (k, v) :: r => decide (v ≠ objDefault k) && r.all (fun p => decide (k < p.1)) && storeWf r

/-- The active value of an object (R383). DESIGN CHOICE, log entry 3. -/
def State.obj (s : State) (k : Nat) : Bytes := (storeFind s.objs k).getD (objDefault k)

/-- The active value of an object as an unsigned number. -/
def State.n (s : State) (k : Nat) : Nat := leVal (s.obj k)

/-- The active value of an object as a two's complement number of its size. -/
def State.i (s : State) (k : Nat) : Int := signed (s.obj k).length (s.n k)

/-- Bit `b` of an object's value. -/
def State.bit (s : State) (k b : Nat) : Bool := (s.n k).testBit b

/-- The state with the active value of an object replaced. -/
def State.setObj (s : State) (k : Nat) (v : Bytes) : State := { s with objs := storePut s.objs k v }

/-- The state with an object of fixed size holding a number. -/
def State.setN (s : State) (k v : Nat) : State := s.setObj k (le (objDefault k).length v)

/-- The state with an object of fixed size holding an integer. -/
def State.setI (s : State) (k : Nat) (v : Int) : State := s.setObj k (leInt (objDefault k).length v)

/-- Sets or clears one bit of an object. -/
def State.setBit (s : State) (k b : Nat) (v : Bool) : State := s.setN k (Machine.setBit (s.n k) b v)

/-- An object that counts events: one more, saturating at the object's size. -/
def State.inc (s : State) (k : Nat) : State := s.setN k (satInc (8 * (objDefault k).length) (s.n k))

/-- An object that counts events modulo its size. -/
def State.incWrap (s : State) (k : Nat) : State := s.setN k (s.n k + 1)

/-- The number at an offset of a byte-string object. -/
def State.sub (s : State) (k off n : Nat) : Nat := num (s.obj k) off n

/-- Replaces bytes of a byte-string object. -/
def State.patchObj (s : State) (k off : Nat) (v : Bytes) : State := s.setObj k (patch (s.obj k) off v)

/-- The value of an object under configuration: the staged one when a staged value stands, else the active one (R388). -/
def State.cfg (s : State) (k : Nat) : Bytes :=
  match s.staged with
  | some st => (storeFind st k).getD (s.obj k)
  | none => s.obj k

/-! ### Memory -/

/-- The byte at an address; an unlisted address reads as 0. DESIGN CHOICE, log entry 4. -/
def memGet : Mem → Nat → Byte
  | [], _ => 0
  | (a', b) :: r, a => if a' = a then b else memGet r a

/-- The memory with one byte written; a 0 is not listed. -/
def memSet : Mem → Nat → Byte → Mem
  | [], a, b => if b = 0 then [] else [(a, b)]
  | (a', b') :: r, a, b =>
    if a' < a then (a', b') :: memSet r a b
    else if a' = a then (if b = 0 then r else (a, b) :: r)
    else (if b = 0 then (a', b') :: r else (a, b) :: (a', b') :: r)

/-- The canonical form: addresses rising, no listed 0. -/
def memWf : Mem → Bool
  | [] => true
  | (a, b) :: r => decide (b ≠ 0) && r.all (fun p => decide (a < p.1)) && memWf r

/-- `n` bytes from an address. -/
def memRead (m : Mem) (a : Nat) : Nat → Bytes
  | 0 => []
  | n + 1 => memGet m a :: memRead m (a + 1) n

/-- The memory with bytes written from an address. -/
def memWrite (m : Mem) (a : Nat) : Bytes → Mem
  | [] => m
  | b :: bs => memWrite (memSet m a b) (a + 1) bs

/-! ### Free values -/

/-- A value that the spec leaves open, and the state with the counter advanced. DESIGN CHOICE, log entry 5. -/
def State.fresh (s : State) : Nat × State := (Config.freeNat s.free, { s with free := s.free + 1 })

/-! ### Lists of fixed length -/

/-- The element of a list at a number, replaced by its image. -/
def modAt {α : Type} (l : List α) (i : Nat) (f : α → α) : List α :=
  match l, i with
  | [], _ => []
  | a :: r, 0 => f a :: r
  | a :: r, i + 1 => a :: modAt r i f

/-! ### Cell time -/

/-- The basic cycle in nanoseconds (R34, R88). -/
def cycleNsOf (code : Nat) : Nat :=
  match code with
  | 0 => 62500
  | 1 => 125000
  | 2 => 250000
  | 3 => 500000
  | _ => 1000000

/-- T_ns of the active configuration. -/
def State.tns (s : State) : Nat := cycleNsOf (s.n kBasicCycle)

/-- Cell time in nanoseconds, without the fraction. -/
def State.cellNs (s : State) : Nat := s.time.sec * 1000000000 + s.time.acc / 2 ^ 24

/-- Cell time in 2^-16 ns. -/
def State.cellQ (s : State) : Nat := s.time.sec * 1000000000 * 65536 + s.time.acc / 256

/-- The cycle number of R34. -/
def State.cycle (s : State) : Nat := s.cellNs / s.tns

/-- TIME96 layout of a time in 2^-16 ns (R30). -/
def time96 (q : Nat) : Bytes :=
  le 2 (q % 65536) ++ le 4 (q / 65536 % 1000000000) ++ le 6 (q / 65536 / 1000000000)

/-- The time in 2^-16 ns that 12 bytes in TIME96 layout hold. -/
def time96Val (b : Bytes) : Nat := num b 0 2 + 65536 * (num b 2 4 + 1000000000 * num b 6 6)

/-- A TIME96 operand in 2^-16 ns. -/
def time96Q (t : Time96) : Nat := t.frac.toNat + 65536 * (t.nsec.toNat + 1000000000 * t.sec.toNat)

/-- Present cell time in TIME96 layout. -/
def State.cellTime (s : State) : Bytes := time96 s.cellQ

/-! ### Role -/

/-- A partner is configured (R381). -/
def State.paired (s : State) : Bool := s.n kRedPartner == 1

/-- This device asserts ILK_CLAIM (R358, R382). -/
def State.owner (s : State) : Bool := s.n kRedClaimState == 3

/-- This device is the standby: its claim state is WAIT or HOLDOFF (R372). -/
def State.standby (s : State) : Bool := s.n kRedClaimState == 1 || s.n kRedClaimState == 2

/-! ### Tiers -/

/-- The cap of the shedding stage on TIER_ACTIVE (R21); `still` tells that standstill was reached. -/
def shedCap (stage : Nat) (still : Bool) : Nat :=
  match stage with
  | 0 => 3
  | 1 => 3
  | 2 => 3
  | 3 => if still then 1 else 3
  | 4 => 1
  | _ => 0

/-! ### Host interrupts -/

/-- Sets bit `b` of INT_STATUS of one window; on PCIe an enabled, unmasked vector sends its message (R418, R419). -/
def HostSt.raise (h : HostSt) (b : Nat) (msi : Bool) : HostSt :=
  let was := h.intStatus.testBit b
  let h := { h with intStatus := setBit h.intStatus b true }
  if !msi || was then h
  else if !h.intEnable.testBit b then h
  else if (h.msix.getD (4 * b + 3) 0).testBit 0 then { h with msixPending := setBit h.msixPending b true }
  else { h with msixSent := modAt h.msixSent b (· + 1) }

/-- Sets an interrupt status bit of both windows. -/
def State.interrupt (s : State) (b : Nat) : State :=
  { s with dict := { s.dict with pcie := s.dict.pcie.raise b true, spi := s.dict.spi.raise b false } }

/-- Whether IRQ_N is asserted (R419, R23). -/
def State.irq (s : State) : Bool :=
  (s.dict.spi.intStatus &&& s.dict.spi.intEnable) != 0 && s.dev.state != .inert && s.dev.state != .fault && s.dev.state != .service

/-- Enters a device state; a change sets the STATE interrupt (R22, R418). -/
def State.enter (s : State) (d : DevState) : State :=
  if s.dev.state = d then s else ({ s with dev := { s.dev with state := d } } : State).interrupt 1

/-- One of the states in a list. -/
def State.isIn (s : State) (l : List DevState) : Bool := l.contains s.dev.state

/-! ### Event recorder: record requests and the flash queues -/

/-- CRC-32 of R81 over a byte string. -/
def crc32c (b : Bytes) : Nat := crcRefl 0x82F63B78 b 0xFFFFFFFF ^^^ 0xFFFFFFFF

/-- Bytes of a record (R430). -/
def recordBytes (flags type optime pcc seq : Nat) (payload : Bytes) : Bytes :=
  let plen := (payload.length + 15) / 16
  let b := le 1 plen ++ le 1 flags ++ le 2 type ++ le 5 optime ++ le 4 pcc ++ le 3 seq ++ fit (16 * plen) payload
  b ++ le 4 (crc32c b)

/-- Bytes that a ring's queue holds in recorder SRAM. -/
def queueLen (q : List Bytes) : Nat := (q.map List.length).sum

/-- Bytes used in a ring sector (R429). -/
def RecSector.fill (x : RecSector) : Nat := 16 + queueLen x.recs

/-- The ring's next sector after `n` that is not in the bad-sector list (R435). -/
def nextSector (r : RecRingSt) (bad : List Nat) : Nat → Nat → Nat
  | 0, n => n
  | f + 1, n =>
    let m := r.first + (n - r.first + 1) % (max r.count 1)
    if bad.contains m then nextSector r bad f m else m

/-- The head of the queue needs a new sector: none is open, the open one is bad, or the record would cross its end. -/
def RecRingSt.needsSector (r : RecRingSt) (bad : List Nat) : Bool :=
  match r.queue, r.sectors.getLast? with
  | [], _ => false
  | _ :: _, none => true
  | q :: _, some x => bad.contains x.num || decide (65536 < x.fill + q.length)

/-- The sectors of a ring but one, and whether that one holds records. -/
def RecRingSt.dropSector (r : RecRingSt) (e : Nat) : List RecSector := r.sectors.filter (fun x => x.num != e)
def RecRingSt.loses (r : RecRingSt) (e : Nat) : Bool := r.sectors.any (fun x => x.num == e && !x.recs.isEmpty)

/-- Opens the erased sector and starts to erase the following one, whose records disappear (R433). -/
def RecRingSt.openSector (r : RecRingSt) (bad : List Nat) (pcc : Nat) : RecRingSt :=
  match r.ahead with
  | none => r
  | some n =>
    let e := nextSector r bad (bad.length + 1) n
    { r with
      sectors := (if r.defer then r.sectors else r.dropSector e) ++ [⟨n, r.nextSseq, pcc, []⟩]
      ahead := none
      erasing := some e
      waiting := r.defer
      nextSseq := r.nextSseq + 1
      wrapped := r.wrapped || (!r.defer && r.loses e) }

/-- The end of the deferral (R482): an erase that waits begins. DEDUCED, log entry 53. -/
def RecRingSt.undefer (r : RecRingSt) : RecRingSt :=
  match r.waiting, r.erasing with
  | true, some e => { r with defer := false, waiting := false, sectors := r.dropSector e, wrapped := r.wrapped || r.loses e }
  | _, _ => { r with defer := false, waiting := false }

/-- Sectors of a ring that are not bad. -/
def RecRingSt.usable (r : RecRingSt) (bad : List Nat) : Nat :=
  r.count - (bad.filter (fun n => decide (r.first ≤ n) && decide (n < r.first + r.count))).length

/-- Applies a function to one of the two rings. -/
def StRec.onRing (x : StRec) (safety : Bool) (f : RecRingSt → RecRingSt) : StRec :=
  if safety then { x with safety := f x.safety } else { x with general := f x.general }

/-- One of the two rings. -/
def StRec.ring (x : StRec) (safety : Bool) : RecRingSt := if safety then x.safety else x.general

/-- Bytes of the queue, from its head, whose records fit the sector in which they stand one after another. -/
def fitting : Nat → List Bytes → Nat
  | _, [] => 0
  | room, b :: q => if b.length ≤ room then b.length + fitting (room - b.length) q else 0

/-- Bytes that one page program takes: up to the end of a 256-byte page of the open sector (R433). -/
def RecRingSt.pageBytes (r : RecRingSt) : Nat :=
  match r.sectors.getLast? with
  | some x => min (256 - (x.fill + r.progressed) % 256) (fitting (65536 - x.fill) r.queue - r.progressed)
  | none => 0

/-- Starts the next page program when none is in progress; a pending safety record goes first (R433). -/
def StRec.start (x : StRec) : StRec :=
  let prep (r : RecRingSt) := if r.progressed = 0 ∧ r.needsSector x.bad then r.openSector x.bad x.pcc else r
  let ready (r : RecRingSt) := !r.queue.isEmpty && (!r.needsSector x.bad || r.progressed != 0)
  if x.programming.isSome then x
  else
    let s' := prep x.safety
    if ready s' then { x with safety := s', programming := some (true, s'.pageBytes) }
    else
      let g' := prep x.general
      if ready g' then { x with safety := s', general := g', programming := some (false, g'.pageBytes) }
      else { x with safety := s', general := g' }

/-- Counts a record request of a type (R434). DEDUCED, log entry 13. -/
def countType (now type : Nat) : List TypeStat → List TypeStat
  | [] => [⟨type, 1, [(now, 1)]⟩]
  | t :: r =>
    if t.type = type then
      let w := t.win.filter (fun p => decide (now < p.1 + 16))
      let w := match w.getLast? with
        | some (u, c) => if u = now then w.dropLast ++ [(u, c + 1)] else w ++ [(now, 1)]
        | none => [(now, 1)]
      { t with total := t.total + 1, win := w } :: r
    else t :: countType now type r

/-- Requests of one type within the last 16 units of operating time. DEDUCED, log entry 13. -/
def TypeStat.recent (t : TypeStat) (now : Nat) : Nat :=
  ((t.win.filter (fun p => decide (now < p.1 + 16))).map Prod.snd).sum

/-- Capacity of a ring's queue in bytes (R433). -/
def queueCap (safety : Bool) : Nat := if safety then 65536 else 262144

/-- A record request (R430 to R437): it enters its ring's queue, or is dropped when the queue is full or the ring stopped. -/
def State.record (s : State) (source type : Nat) (sw : Bool) (payload : Bytes) : State :=
  if !s.recd.mounted then s
  else
    let safety := decide (0x0400 ≤ type) && decide (type ≤ 0x04FF)
    let x := s.recd
    if !safety && x.stopped then s
    else
      let stats := countType x.optime type x.stats
      let hot := stats.any (fun t => t.type == type && decide (s.n kRecFloodThr ≤ t.recent x.optime))
      let s := if hot then s.setBit kRecStatus 5 true else s
      let r := x.ring safety
      let flags := source % 4 + (if s.standby then 4 else 0) + (if sw then 8 else 0) + (if r.lost then 16 else 0)
      let b := recordBytes flags type x.optime x.pcc r.nextSeq (payload.take 4080)
      if r.usable x.bad < 4 ∨ queueCap safety < queueLen r.queue + b.length then
        let s := { s with recd := { x.onRing safety (fun r => { r with lost := true }) with stats := stats } }
        let off := if safety then 0 else 4
        let s := s.patchObj kRecDrops off (le 4 (satInc 32 (s.sub kRecDrops off 4)))
        s.setBit kRecStatus (if safety then 3 else 4) true
      else
        let x := x.onRing safety (fun r =>
          { r with queue := r.queue ++ [b], nextSeq := (r.nextSeq + 1) % 2 ^ 24, lost := false })
        { s with recd := ({ x with stats := stats } : StRec).start }

/-- A record of the device itself (SOURCE 0). -/
def State.log (s : State) (type : Nat) (payload : Bytes) : State := s.record 0 type false payload

/-- A record of the device whose payload the spec does not define: its bytes are free. DESIGN CHOICE, log entry 11. -/
def State.logOpen (s : State) (source type : Nat) : State :=
  ({ s with free := s.free + 1 } : State).record source type false (Config.freeBytes s.free)

end Sys2Proof.Machine
end

