-- ==== Sys2Proof/Machine/Count.lean ====
section
/-! DEFINITION. How the performance counters count (R270 to R272). The number of slots that pass between two steps is timing, which
the model does not follow: a command counts what it does itself, and a sample first takes free numbers of slots, within the classes,
and of the events that no command shows (log entry 40). -/

namespace Sys2Proof.Machine

/-- The counters of an engine. -/
def State.cnt (s : State) (e : Nat) : CntSt := s.cnts.getD e { cyc := 0, pmc := [], ran := false }

/-- Adds to a 48-bit counter: the value and whether it wrapped (R270). DEDUCED, log entry 40. -/
def pmcAdd (v n : Nat) : Nat × Bool := ((v + n) % 2 ^ 48, decide (2 ^ 48 ≤ v + n))

/-- What a counter with an event number counts out of a list of events with their numbers; event 0 holds it (R270). -/
def pmcShare (ev : Nat) (evs : List (Nat × Nat)) : Nat :=
  if ev = 0 then 0 else ((evs.filter (fun p => p.1 == ev)).map Prod.snd).sum

/-- An engine takes `slots` slots, in which events occurred: number and count (R270 to R272). DEDUCED, log entry 40. -/
def State.count (s : State) (e slots : Nat) (evs : List (Nat × Nat)) : State :=
  let c := s.cnt e
  let r := c.pmc.zipIdx.map (fun p => pmcAdd p.1 (pmcShare (s.sub (kCntSel e) p.2 1) evs))
  let ovf := maskOf ((List.range 6).filter (fun k => (r.getD k (0, false)).2))
  ({ s with cnts := modAt s.cnts e (fun c => { c with cyc := (c.cyc + slots) % 2 ^ 64, pmc := r.map Prod.fst }) } : State).setN
    (kCntOvf e) (s.n (kCntOvf e) ||| ovf)

/-- The clock of an engine runs: its burst domain is not gated (R469), and stage S4 has not stopped it, which leaves planner P0 (R481). -/
def State.clockOn (s : State) (e : Nat) : Bool :=
  (if 64 ≤ e ∧ e < 80 then s.mon.on1000 else s.mon.on800) && (!s.mon.stopped || e == 64)

/-- Engines whose clock stops with this step have run since their last sample. -/
def State.clocksStop (s : State) (p : Nat → Bool) : State :=
  { s with cnts := s.cnts.zipIdx.map (fun x => if p x.2 && s.clockOn x.2 then { x.1 with ran := true } else x.1) }

/-- Engines whose clock starts with a step from `old` count BURST_WAKE (R272). DEDUCED, log entry 40. -/
def State.clocksStart (s old : State) : State :=
  ((List.range 82).filter (fun e => s.clockOn e && !old.clockOn e)).foldl (fun (t : State) e => t.count e 1 [(3, 1), (5, 1)]) s

/-- The Lane runs a vendor kernel, whose instructions come as no commands. -/
def State.vendorRun (s : State) (lane : Nat) : Bool :=
  ((s.lanes[lane]?).bind LaneSt.task).any (fun t => decide (t.kernel < 0x80))

/-- Free slots of a Lane with their events (R271, R272): front and back slots by their causes, replays after SRAM parity errors, and in
a vendor kernel the instructions. -/
def laneSlack (vendor : Bool) (f : Nat → Nat) : Nat × List (Nat × Nat) :=
  let r := if vendor then f 0 else 0
  let w := f 1
  let front := f 3 + f 4 + f 5
  let back := f 6 + f 7 + f 8 + f 9
  let all := r + w + front + back
  let own := if vendor then
      [(0x14, Nat.min (f 10) w), (0x15, Nat.min (f 11) r), (0x1D, Nat.min (f 12) r), (0x1E, Nat.min (f 13) r), (0x1F, Nat.min (f 14) r),
        (0x20, Nat.min (f 15) r), (0x21, Nat.min (f 16) r), (0x22, Nat.min (f 17) (2 * all))]
    else []
  (all, [(1, r), (2, w), (3, front), (4, back), (6, Nat.min (f 2) all), (0x1B, f 3), (0x1C, f 4), (0x17, f 6), (0x18, f 7), (0x19, f 8),
    (0x1A, f 9)] ++ own)

/-- Free slots of another engine with their events: a table planner's runs, a planner's DRAM reads and waits, the stages of the solver. -/
def engineSlack (e : Nat) (f : Nat → Nat) : Nat × List (Nat × Nat) :=
  let all := f 0 + f 1 + f 3 + f 4
  let own :=
    if e < 80 then [(0x41, if e % 2 = 1 then Nat.min (f 5) all else 0), (0x42, Nat.min (f 6) all), (0x44, Nat.min (f 7) all), (0x45, Nat.min (f 8) (f 4))]
    else if e = 80 then
      let a := Nat.min (f 5) all
      let b := Nat.min (f 6) (all - a)
      let c := Nat.min (f 7) (all - a - b)
      [(0x61, a), (0x62, b), (0x63, c), (0x64, Nat.min (f 8) (all - a - b - c))]
    else []
  (all, [(1, f 0), (2, f 1), (3, f 3), (4, f 4), (6, Nat.min (f 2) all)] ++ own)

/-- Slots and events that have passed unseen since the engine's last sample, while its clock ran (R270, R271). DEDUCED, log entry 40. -/
def State.slack (s : State) (e : Nat) : State :=
  if !(s.clockOn e || (s.cnt e).ran) then s
  else
    let f i := Config.freeNat (s.free + i)
    let x := if e < 64 then laneSlack (s.vendorRun e) f else engineSlack e f
    let t := s.count e x.1 x.2
    { t with free := s.free + 18, cnts := modAt t.cnts e (fun c => { c with ran := false }) }

/-- Events with the least retired slots that their rates allow, and at least one (R272): number, count and rate. -/
def State.countWork (s : State) (e : Nat) (evs : List (Nat × Nat × Nat)) : State :=
  let slots := evs.foldl (fun m p => Nat.max m ((p.2.1 + p.2.2 - 1) / p.2.2)) 1
  s.count e slots ((1, slots) :: evs.map (fun p => (p.1, p.2.1)))

end Sys2Proof.Machine
end

