-- ==== Sys2Proof/Machine/Rigid.lean ====
section
/-! DEFINITION. Poses and the kinematic model of an arm (R131): product of exponentials, Jacobians, logarithm of a rotation; and
the small linear systems of R144 and R169. Computed in binary64 (log entry 31). -/

namespace Sys2Proof.Machine

/-! ### Vectors and rotations -/

/-- A vector of three components. -/
structure V3 where
  x : Dbl
  y : Dbl
  z : Dbl
deriving DecidableEq, Repr

def V3.zero : V3 := ⟨Dbl.zero, Dbl.zero, Dbl.zero⟩
def V3.add (a b : V3) : V3 := ⟨a.x.add b.x, a.y.add b.y, a.z.add b.z⟩
def V3.sub (a b : V3) : V3 := ⟨a.x.sub b.x, a.y.sub b.y, a.z.sub b.z⟩
def V3.scale (a : V3) (k : Dbl) : V3 := ⟨a.x.mul k, a.y.mul k, a.z.mul k⟩
def V3.neg (a : V3) : V3 := ⟨a.x.neg, a.y.neg, a.z.neg⟩
def V3.dot (a b : V3) : Dbl := ((a.x.mul b.x).add (a.y.mul b.y)).add (a.z.mul b.z)
def V3.cross (a b : V3) : V3 :=
  ⟨(a.y.mul b.z).sub (a.z.mul b.y), (a.z.mul b.x).sub (a.x.mul b.z), (a.x.mul b.y).sub (a.y.mul b.x)⟩
def V3.norm (a : V3) : Dbl := (a.dot a).sqrt
def V3.list (a : V3) : List Dbl := [a.x, a.y, a.z]

/-- Three binary32 numbers at an offset of a byte string, and a vector as three binary32 numbers. -/
def V3.read (b : Bytes) (off : Nat) : V3 :=
  ⟨Dbl.ofF32 (num b off 4), Dbl.ofF32 (num b (off + 4) 4), Dbl.ofF32 (num b (off + 8) 4)⟩

/-- A vector by its components 0 to 2. -/
def V3.ofFn (f : Nat → Dbl) : V3 := ⟨f 0, f 1, f 2⟩

/-- A 3 × 3 matrix by rows. -/
structure M3 where
  a : V3
  b : V3
  c : V3
deriving DecidableEq, Repr

def M3.one : M3 := ⟨⟨Dbl.one, Dbl.zero, Dbl.zero⟩, ⟨Dbl.zero, Dbl.one, Dbl.zero⟩, ⟨Dbl.zero, Dbl.zero, Dbl.one⟩⟩
def M3.app (m : M3) (v : V3) : V3 := ⟨m.a.dot v, m.b.dot v, m.c.dot v⟩
def M3.tr (m : M3) : M3 := ⟨⟨m.a.x, m.b.x, m.c.x⟩, ⟨m.a.y, m.b.y, m.c.y⟩, ⟨m.a.z, m.b.z, m.c.z⟩⟩
def M3.mul (m n : M3) : M3 := let t := n.tr; ⟨t.app m.a, t.app m.b, t.app m.c⟩

/-- The rotation of a quaternion (w, x, y, z), which is first brought to norm 1. -/
def M3.ofQuat (w x y z : Dbl) : M3 :=
  let n := ((((w.mul w).add (x.mul x)).add (y.mul y)).add (z.mul z)).sqrt
  let w := w.div n
  let x := x.div n
  let y := y.div n
  let z := z.div n
  let d (p q : Dbl) : Dbl := Dbl.one.sub (Dbl.two.mul ((p.mul p).add (q.mul q)))
  let e (p q r s : Dbl) : Dbl := Dbl.two.mul ((p.mul q).add (r.mul s))
  let f (p q r s : Dbl) : Dbl := Dbl.two.mul ((p.mul q).sub (r.mul s))
  ⟨⟨d y z, f x y w z, e x z w y⟩, ⟨e x y w z, d x z, f y z w x⟩, ⟨f x z w y, e y z w x, d x y⟩⟩

/-- The unit quaternion of a rotation, with w ≥ 0: the component of largest magnitude is found from the diagonal. -/
def M3.quat (m : M3) : Dbl × Dbl × Dbl × Dbl :=
  let t := (m.a.x.add m.b.y).add m.c.z
  let big (p q r : Dbl) : Dbl := ((Dbl.one.add p).sub q).sub r
  let root (v : Dbl) : Dbl := (v.max Dbl.zero).sqrt.mul Dbl.two
  let wx := m.c.y.sub m.b.z
  let wy := m.a.z.sub m.c.x
  let wz := m.b.x.sub m.a.y
  let xy := m.a.y.add m.b.x
  let xz := m.a.z.add m.c.x
  let yz := m.b.z.add m.c.y
  let quarter (s : Dbl) : Dbl := s.div (Dbl.two.mul Dbl.two)
  let q :=
    if Dbl.zero.lt t then let s := root (Dbl.one.add t); (quarter s, wx.div s, wy.div s, wz.div s)
    else if m.b.y.le m.a.x && m.c.z.le m.a.x then let s := root (big m.a.x m.b.y m.c.z); (wx.div s, quarter s, xy.div s, xz.div s)
    else if m.c.z.le m.b.y then let s := root (big m.b.y m.a.x m.c.z); (wy.div s, xy.div s, quarter s, yz.div s)
    else let s := root (big m.c.z m.a.x m.b.y); (wz.div s, xz.div s, yz.div s, quarter s)
  if q.1.isNeg then (q.1.neg, q.2.1.neg, q.2.2.1.neg, q.2.2.2.neg) else q

/-- Rotation by an angle θ about a unit vector: 1 + sin θ [ω] + (1 − cos θ) [ω]². -/
def M3.rot (w : V3) (th : Dbl) : M3 :=
  let s := th.sin
  let c := Dbl.one.sub th.cos
  let col (e : V3) : V3 := (e.add ((w.cross e).scale s)).add ((w.cross (w.cross e)).scale c)
  (M3.mk (col M3.one.a) (col M3.one.b) (col M3.one.c)).tr

/-- Rotation vector of a rotation: its unit axis times its angle in [0, π]; zero for no rotation. -/
def M3.log (m : M3) : V3 :=
  let q := m.quat
  let v : V3 := ⟨q.2.1, q.2.2.1, q.2.2.2⟩
  let n := v.norm
  if n.isZero then V3.zero else v.scale ((Dbl.two.mul (n.atan2 q.1)).div n)

/-- The rotation of a rotation vector. -/
def M3.exp (v : V3) : M3 := let n := v.norm; if n.isZero then M3.one else M3.rot (v.scale (Dbl.one.div n)) n

/-! ### Poses -/

/-- A rigid transform: rotation and position. -/
structure Pose where
  r : M3
  p : V3
deriving DecidableEq, Repr

def Pose.one : Pose := ⟨M3.one, V3.zero⟩
def Pose.mul (a b : Pose) : Pose := ⟨a.r.mul b.r, (a.r.app b.p).add a.p⟩
def Pose.inv (a : Pose) : Pose := ⟨a.r.tr, (a.r.tr.app a.p).neg⟩
def Pose.app (a : Pose) (v : V3) : V3 := (a.r.app v).add a.p

/-- A pose of 28 bytes (R131): quaternion (w, x, y, z), then position. DEDUCED, log entry 58. -/
def Pose.read (b : Bytes) (off : Nat) : Pose :=
  let f (i : Nat) : Dbl := Dbl.ofF32 (num b (off + 4 * i) 4)
  ⟨M3.ofQuat (f 0) (f 1) (f 2) (f 3), V3.read b (off + 16)⟩

/-- A pose as bytes; its last bits depend on everything that it was computed from. -/
def Pose.bytes (key : Bytes) (a : Pose) : Bytes :=
  let q := a.r.quat
  (([q.1, q.2.1, q.2.2.1, q.2.2.2] ++ a.p.list).zipIdx.map (fun x => le 4 (settle key x.2 x.1))).flatten

/-- Composition and inverse of poses as they are stored. -/
def poseMul (a b : Bytes) : Bytes := ((Pose.read a 0).mul (Pose.read b 0)).bytes (a ++ b)
def poseInv (a : Bytes) : Bytes := (Pose.read a 0).inv.bytes a

/-- A vector of three binary32 numbers turned by a pose's orientation (R163). -/
def poseTurn (a v : Bytes) : Bytes :=
  (((Pose.read a 0).r.app (V3.read v 0)).list.zipIdx.map (fun x => le 4 (settle (a ++ v) x.2 x.1))).flatten

/-! ### The kinematic model (R131) -/

/-- Joints of a model, and the record of one. -/
def kinNj (k : Bytes) : Nat := num k 0 1
def kinRec (k : Bytes) (j : Nat) : Bytes := slice k (96 + 112 * j) 112

/-- Joints in ascending CHAIN. DEDUCED, log entry 58. -/
def kinChain (k : Bytes) : List Nat :=
  (List.range (kinNj k)).filterMap (fun c => (List.range (kinNj k)).find? (fun j => num (kinRec k j) 2 1 == c))

/-- exp([S] q) of a joint's screw axis. -/
def kinExp (r : Bytes) (q : Dbl) : Pose :=
  let w := V3.read r 4
  let v := V3.read r 16
  if num r 0 1 = 1 then ⟨M3.one, v.scale q⟩
  else
    let wv := w.cross v
    ⟨M3.rot w q, ((v.scale q).add (wv.scale (Dbl.one.sub q.cos))).add ((w.cross wv).scale (q.sub q.sin))⟩

/-- One joint of the chain: its number, and the product of the exponentials before it and up to it. -/
structure KLink where
  joint : Nat
  before : Pose
  after : Pose
deriving DecidableEq, Repr

/-- The chain at joint positions, from the base on. -/
def kinLinksFrom (k : Bytes) (q : Nat → Dbl) (t : Pose) : List Nat → List KLink
  | [] => []
  | j :: l => let u := t.mul (kinExp (kinRec k j) (q j)); ⟨j, t, u⟩ :: kinLinksFrom k q u l
def kinLinks (k : Bytes) (q : Nat → Dbl) : List KLink := kinLinksFrom k q (Pose.read k 4) (kinChain k)

/-- The frame of the last link, of the flange's HOME and the TOOL after it. -/
def kinEnd (k : Bytes) (ls : List KLink) : Pose := (ls.getLast?.map KLink.after).getD (Pose.read k 4)
def kinTool (k : Bytes) (ls : List KLink) : Pose := ((kinEnd k ls).mul (Pose.read k 32)).mul (Pose.read k 60)

/-- Angular part of a joint's column of the geometric Jacobian, and its linear part at a point; both in the cell frame. -/
def KLink.ang (k : Bytes) (l : KLink) : V3 := l.before.r.app (V3.read (kinRec k l.joint) 4)
def KLink.lin (k : Bytes) (l : KLink) (x : V3) : V3 :=
  ((l.ang k).cross (x.sub l.before.p)).add (l.before.r.app (V3.read (kinRec k l.joint) 16))

/-- The links up to and including a joint in the chain, and the frame that its link moves with. -/
def linksTo (j : Nat) : List KLink → List KLink
  | [] => []
  | l :: r => if l.joint = j then [l] else l :: linksTo j r
def linkFrame (k : Bytes) (ls : List KLink) (j : Nat) : Pose := kinEnd k (linksTo j ls)

/-- Joint positions out of binary32 values by joint. -/
def vals32 (b : Bytes) (j : Nat) : Dbl := Dbl.ofF32 (num b (4 * j) 4)

/-- Pose of the tool centre point in the cell frame at joint positions. -/
def toolFrame (k q : Bytes) : Pose := kinTool k (kinLinks k (vals32 q))

/-- TOOL_POSE (R131, R166). DEDUCED, log entry 31. -/
def toolPose (k q : Bytes) : Bytes := (toolFrame k q).bytes (k ++ q)

/-! ### Linear systems -/

/-- Subtracts a multiple of a row from another. -/
def rowSub (a b : List Dbl) (f : Dbl) : List Dbl := (a.zip b).map (fun p => p.1.sub (f.mul p.2))

/-- Elimination below the first row, column by column; `n` bounds the rows. The matrices of R144 and R169 are positive definite,
so no row is exchanged. -/
def triangle : Nat → List (List Dbl) → List (List Dbl)
  | 0, m => m
  | _ + 1, [] => []
  | n + 1, r :: rs =>
    let p := r.headD Dbl.one
    r :: (triangle n (rs.map (fun s => (rowSub s r ((s.headD Dbl.zero).div p)).drop 1)))

/-- Back substitution: each row holds its entries from the diagonal on, and the right-hand side last. -/
def backSolve : List (List Dbl) → List Dbl
  | [] => []
  | r :: rs =>
    let x := backSolve rs
    let rhs := r.getLastD Dbl.zero
    let rest := ((r.drop 1).zip x).foldl (fun acc p => acc.sub (p.1.mul p.2)) rhs
    (rest.div (r.headD Dbl.one)) :: x

/-- The solution of a linear system given by rows with the right-hand side as last entry. -/
def linSolve (m : List (List Dbl)) : List Dbl := backSolve (triangle m.length m)

/-- Scalar product. -/
def dotD (a b : List Dbl) : Dbl := Dbl.sum ((a.zip b).map (fun p => p.1.mul p.2))

/-- Jᵀ (J Jᵀ + λ² 1)⁻¹ e for a matrix given by rows. -/
def dampedLs (rows : List (List Dbl)) (lambda : Dbl) (e : List Dbl) : List Dbl :=
  let n := (rows.headD []).length
  let m := (rows.zip e).zipIdx.map (fun p =>
    (rows.zipIdx.map (fun r => let d := dotD p.1.1 r.1; if r.2 = p.2 then d.add (lambda.mul lambda) else d)) ++ [p.1.2])
  let y := linSolve m
  (List.range n).map (fun j => dotD (rows.map (fun r => r.getD j Dbl.zero)) y)

/-- Geometric Jacobian of a point of the last link, by rows ωx, ωy, ωz, vx, vy, vz; columns by joint number.
DEDUCED, log entry 31. -/
def jacobian (k : Bytes) (ls : List KLink) (x : V3) (nj : Nat) : List (List Dbl) :=
  let cols := (List.range nj).map (fun j => match ls.find? (fun l => l.joint == j) with
    | some l => (l.ang k).list ++ (l.lin k x).list
    | none => List.replicate 6 Dbl.zero)
  (List.range 6).map (fun i => cols.map (fun c => c.getD i Dbl.zero))

end Sys2Proof.Machine
end

