-- ==== Sys2Proof/Machine/Planner.lean ====
section
/-! DEFINITION. What the planners compute (R141 to R150, R153, R158, R297, R521): profiles of joints, tool-space paths with their
inverse kinematics, segment tables and cams, for arms, group object frames and auxiliary axes. Binary64, in the order of operations
of this text (log entry 30). -/

namespace Sys2Proof.Machine

/-! ### Descriptors -/

/-- A field of a descriptor as a number. -/
def dfield (d : Bytes) (off : Nat) : Dbl := Dbl.ofF32 (num d off 4)

/-- A flag of a descriptor (R138). -/
def dflag (d : Bytes) (i : Nat) : Bool := (num d 1 1).testBit i

/-- T in seconds. -/
def secs (tns : Nat) : Dbl := Dbl.ofRatio tns 1000000000

/-- The smallest of a list; zero of none. -/
def leastD : List Dbl → Dbl
  | [] => Dbl.zero
  | x :: l => l.foldl Dbl.min x

/-! ### Segment tables (R147, R148, R150) -/

/-- Rows of a table, its channels, and a row's DT, P and V. -/
def segK (t : Bytes) : Nat := num t 4 1
def segRows (t : Bytes) : List Bytes := records (4 + 8 * segK t) (t.drop 32)
def segFlag (t : Bytes) (i : Nat) : Bool := (num t 5 1).testBit i
def rowP (r : Bytes) (c : Nat) : Dbl := Dbl.ofF32 (num r (4 + 8 * c) 4)
def rowV (r : Bytes) (c : Nat) : Dbl := Dbl.ofF32 (num r (8 + 8 * c) 4)

/-- The cubic of R148 over [0, h] between two knots: position, velocity and acceleration at τ. -/
def hermite (p0 v0 p1 v1 h tau : Dbl) : PVA :=
  let c (n : Int) : Dbl := Dbl.ofInt n
  let t2 := tau.mul tau
  let t3 := t2.mul tau
  let d := p0.sub p1
  let a1 := (((c 2).mul t3).sub ((c 3).mul t2)).add Dbl.one
  let a2 := (t3.sub ((c 2).mul t2)).add tau
  let a3 := ((c 3).mul t2).sub ((c 2).mul t3)
  let a4 := t3.sub t2
  let b1 := ((c 6).mul t2).sub ((c 6).mul tau)
  let b2 := (((c 3).mul t2).sub ((c 4).mul tau)).add Dbl.one
  let b3 := ((c 3).mul t2).sub ((c 2).mul tau)
  let c1 := ((c 12).mul tau).sub (c 6)
  let c2 := ((c 6).mul tau).sub (c 4)
  let c3 := ((c 6).mul tau).sub (c 2)
  ⟨(((a1.mul p0).add ((a2.mul h).mul v0)).add (a3.mul p1)).add ((a4.mul h).mul v1),
    (((b1.mul d).div h).add (b2.mul v0)).add (b3.mul v1),
    ((((c1.mul d).div h).add (c2.mul v0)).add (c3.mul v1)).div h⟩

/-- A channel at a time after the first of two or more knots; at rest in the last knot after the end. -/
def segFrom (c : Nat) (r0 : Bytes) : List Bytes → Dbl → PVA
  | [], _ => ⟨rowP r0 c, Dbl.zero, Dbl.zero⟩
  | r1 :: l, t =>
    let h := dfield r1 0
    if t.lt h then hermite (rowP r0 c) (rowV r0 c) (rowP r1 c) (rowV r1 c) h (t.div h) else segFrom c r1 l (t.sub h)

/-- Whole table: the sum of its DT. -/
def segTime (t : Bytes) : Dbl := Dbl.sum ((segRows t).map (fun r => dfield r 0))

/-- The table time of a time since its start; a looped table begins again. -/
def segWrap (t : Bytes) (x : Dbl) : Dbl :=
  let a := f64.ratio x.bits
  let b := f64.ratio (segTime t).bits
  if segFlag t 1 ∧ 0 < b.1 then
    let n : Int := a.1 * b.2
    let d : Int := b.1 * a.2
    Dbl.ofRatio (n % d) (a.2 * b.2)
  else x

/-- A channel of a table at a time since its start. -/
def segAt (t : Bytes) (c : Nat) (x : Dbl) : PVA :=
  match segRows t with
  | [] => ⟨Dbl.zero, Dbl.zero, Dbl.zero⟩
  | r :: l => segFrom c r l (segWrap t x)

/-- The exact value of a binary32 pattern. -/
def rat32 (b : Nat) : Rat := let r := f32.ratio b; mkRat r.1 r.2

/-- A channel keeps its limits in a segment, computed exactly (R150): accelerations at the knots, velocities at the knots and where
the acceleration, linear between them, is 0. DEDUCED, log entry 66. -/
def segKeeps (r0 r1 : Bytes) (c : Nat) (vmax amax : Rat) : Bool :=
  let h := rat32 (num r1 0 4)
  let p0 := rat32 (num r0 (4 + 8 * c) 4)
  let v0 := rat32 (num r0 (8 + 8 * c) 4)
  let p1 := rat32 (num r1 (4 + 8 * c) 4)
  let v1 := rat32 (num r1 (8 + 8 * c) 4)
  let vel (u : Rat) : Rat := (6 * u * u - 6 * u) * (p0 - p1) / h + (3 * u * u - 4 * u + 1) * v0 + (3 * u * u - 2 * u) * v1
  let acc (u : Rat) : Rat := ((12 * u - 6) * (p0 - p1) / h + (6 * u - 4) * v0 + (6 * u - 2) * v1) / h
  let a0 := acc 0
  let a1 := acc 1
  let peaks := [v0, v1] ++ (if a0 * a1 < 0 then [vel (a0 / (a0 - a1))] else [])
  peaks.all (fun v => decide (|v| ≤ vmax)) && decide (|a0| ≤ amax) && decide (|a1| ≤ amax)

/-- Every channel of a table keeps its velocity and acceleration limits. DEDUCED, log entry 66. -/
def peaksOk (t : Bytes) (lim : List (Rat × Rat)) : Bool :=
  let rows := segRows t
  (rows.zip (rows.drop 1)).all (fun p => lim.zipIdx.all (fun l => segKeeps p.1 p.2 l.2 l.1.1 l.1.2))

/-! ### Cams (R151, R153) -/

/-- Points of a cam table. -/
def camPoints (t : Bytes) : List Bytes := records 12 (t.drop 32)

/-- y between two points at an x. -/
def camBetween (linear : Bool) (a b : Bytes) (x : Dbl) : Dbl :=
  let x0 := dfield a 0
  let h := (dfield b 0).sub x0
  let tau := (x.sub x0).div h
  if linear then (dfield a 4).add (tau.mul ((dfield b 4).sub (dfield a 4)))
  else (hermite (dfield a 4) (dfield a 8) (dfield b 4) (dfield b 8) h tau).p

/-- y of the first interval that an x lies in or before; of the last point beyond them all. -/
def camFrom (linear : Bool) (a : Bytes) : List Bytes → Dbl → Dbl
  | [], _ => dfield a 4
  | b :: l, x => if x.le (dfield b 0) then camBetween linear a b x else camFrom linear b l x

/-- y(x) of a cam table: outside a table that is not PERIODIC, by its own flag or its use (R138), the end value, else a whole number
of periods further on. -/
def camY (t : Bytes) (periodic : Bool) (x : Dbl) : Dbl :=
  let l := camPoints t
  let first := l.headD []
  let last := l.getLastD []
  let x0 := dfield first 0
  let linear := (num t 4 1).testBit 1
  if periodic then
    let a := f64.ratio (x.sub x0).bits
    let b := f64.ratio ((dfield last 0).sub x0).bits
    let n := a.1 * b.2 / (b.1 * a.2)
    let turns := Dbl.ofInt n
    (camFrom linear first (l.drop 1) (x.sub (turns.mul ((dfield last 0).sub x0)))).add
      (turns.mul ((dfield last 4).sub (dfield first 4)))
  else camFrom linear first (l.drop 1) (x.max x0)

/-! ### Tool-space states -/

/-- A frame with its angular and linear velocity and acceleration in the cell frame. -/
structure TState where
  f : Pose
  w : V3
  v : V3
  dw : V3
  dv : V3
deriving DecidableEq, Repr

def V3.le8 (a : V3) : Bytes := (a.list.map (fun x => le 8 x.bits)).flatten
def V3.read8 (b : Bytes) (off : Nat) : V3 := ⟨⟨num b off 8⟩, ⟨num b (off + 8) 8⟩, ⟨num b (off + 16) 8⟩⟩

/-- The state of a group's object frame as a plan's start, and back. -/
def TState.bytes (s : TState) : Bytes :=
  s.f.r.a.le8 ++ s.f.r.b.le8 ++ s.f.r.c.le8 ++ s.f.p.le8 ++ s.w.le8 ++ s.v.le8 ++ s.dw.le8 ++ s.dv.le8
def TState.read (b : Bytes) : TState :=
  ⟨⟨⟨V3.read8 b 0, V3.read8 b 24, V3.read8 b 48⟩, V3.read8 b 72⟩, V3.read8 b 96, V3.read8 b 120, V3.read8 b 144, V3.read8 b 168⟩

/-- A frame at rest. -/
def TState.rest (f : Pose) : TState := ⟨f, V3.zero, V3.zero, V3.zero, V3.zero⟩

/-- A frame that neither moves nor accelerates. -/
def TState.still (s : TState) : Bool := (s.w.list ++ s.v.list ++ s.dw.list ++ s.dv.list).all Dbl.isZero

/-- The state of a frame carried at a fixed pose in another. -/
def TState.carry (s : TState) (g : Pose) : TState :=
  let f := s.f.mul g
  let r := f.p.sub s.f.p
  ⟨f, s.w, s.v.add (s.w.cross r), s.dw, (s.dv.add (s.dw.cross r)).add (s.w.cross (s.w.cross r))⟩

/-- The state that follows another after a time, by differences. -/
def TState.next (s : TState) (f : Pose) (t : Dbl) : TState :=
  let k := Dbl.one.div t
  let w := ((f.r.mul s.f.r.tr).log).scale k
  let v := (f.p.sub s.f.p).scale k
  ⟨f, w, v, (w.sub s.w).scale k, (v.sub s.v).scale k⟩

/-! ### Joint states -/

/-- Positions, velocities and accelerations of joints. -/
structure JState where
  q : List Dbl
  v : List Dbl
  a : List Dbl
deriving DecidableEq, Repr

/-- The nominal state of an arm as the planners hold it (R129): three binary64 numbers per joint. -/
def JState.read (nj : Nat) (b : Bytes) : JState :=
  let f (o : Nat) : List Dbl := (List.range nj).map (fun j => ⟨num b (24 * j + o) 8⟩)
  ⟨f 0, f 8, f 16⟩

/-- One joint of a state. -/
def JState.pva (s : JState) (j : Nat) : PVA := ⟨s.q.getD j Dbl.zero, s.v.getD j Dbl.zero, s.a.getD j Dbl.zero⟩

/-- A state out of the states of its joints. -/
def JState.ofPva (l : List PVA) : JState := ⟨l.map PVA.p, l.map PVA.v, l.map PVA.a⟩

/-- A joint state as bytes, exactly. -/
def JState.bytes (s : JState) : Bytes :=
  ((List.range s.q.length).map (fun j => let x := s.pva j; le 8 x.p.bits ++ le 8 x.v.bits ++ le 8 x.a.bits)).flatten

/-- A result as binary32; one that is a binary32 number is that number. -/
def entryNum (key : Bytes) (i : Nat) (x : Dbl) : Nat := if f32.conv f64 x.toF32 = x.bits then x.toF32 else settle key i x

/-- The horizon entry of a state (R129, R136): three binary32 numbers per joint. -/
def entryOf (key state : Bytes) : Bytes :=
  ((records 8 state).zipIdx.map (fun x => le 4 (entryNum key x.2 ⟨leVal x.1⟩))).flatten

/-- J̇ q̇ of a chain (R171): the angular and the linear part at a point `x`, from the joints' velocities. -/
def chainBias (k : Bytes) (v : Nat → Dbl) (x : V3) (ls : List KLink) : V3 × V3 :=
  -- `wo` and `vo`: twist at the cell's origin of the links before
  let step (s : V3 × V3 × V3 × V3) (l : KLink) : V3 × V3 × V3 × V3 :=
    let w := l.ang k
    let u := l.lin k V3.zero
    let q := v l.joint
    (s.1.add (w.scale q), s.2.1.add (u.scale q), s.2.2.1.add ((s.1.cross w).scale q),
      s.2.2.2.add (((s.1.cross u).add (s.2.1.cross w)).scale q))
  let s := ls.foldl step (V3.zero, V3.zero, V3.zero, V3.zero)
  let vel := s.2.1.add (s.1.cross x)
  (s.2.2.1, (s.2.2.2.add (s.2.2.1.cross x)).add (s.1.cross vel))

/-- The tool frame of a joint state with its velocity and acceleration. -/
def toolState (k : Bytes) (s : JState) : TState :=
  let ls := kinLinks k (fun j => s.q.getD j Dbl.zero)
  let f := kinTool k ls
  let b := chainBias k (fun j => s.v.getD j Dbl.zero) f.p ls
  let along (g : Nat → Dbl) : V3 × V3 := ls.foldl (fun a l =>
    (a.1.add ((l.ang k).scale (g l.joint)), a.2.add ((l.lin k f.p).scale (g l.joint)))) (V3.zero, V3.zero)
  let vel := along (fun j => s.v.getD j Dbl.zero)
  let acc := along (fun j => s.a.getD j Dbl.zero)
  ⟨f, vel.1, vel.2, acc.1.add b.1, acc.2.add b.2⟩

/-! ### Inverse kinematics (R144) -/

/-- Pose error of the tool at joint positions against a sample: rotation, then translation. DEDUCED, log entry 37. -/
def poseError (k : Bytes) (q : List Dbl) (goal : Pose) : V3 × V3 :=
  let f := kinTool k (kinLinks k (fun j => q.getD j Dbl.zero))
  ((goal.r.mul f.r.tr).log, goal.p.sub f.p)

/-- One iteration of damped least squares with the null-space pull toward REST_Q. DEDUCED, log entry 37. -/
def ikIterate (p : ArmPar) (goal : Pose) (q : List Dbl) : List Dbl :=
  let nj := q.length
  let ls := kinLinks p.kin (fun j => q.getD j Dbl.zero)
  let f := kinTool p.kin ls
  let e := (goal.r.mul f.r.tr).log.list ++ (goal.p.sub f.p).list
  let rows := jacobian p.kin ls f.p nj
  let lambda := Dbl.ofF32 p.lambda
  let w := (List.range nj).map (fun j => (vals32 p.restQ j).sub (q.getD j Dbl.zero))
  let a := dampedLs rows lambda e
  let b := dampedLs rows lambda (rows.map (fun r => dotD r w))
  let g := Dbl.ofF32 p.nullGain
  (List.range nj).map (fun j =>
    ((q.getD j Dbl.zero).add (a.getD j Dbl.zero)).add (g.mul ((w.getD j Dbl.zero).sub (b.getD j Dbl.zero))))

/-- `n` iterations. DEDUCED, log entry 37. -/
def ikRun (p : ArmPar) (goal : Pose) : Nat → List Dbl → List Dbl
  | 0, q => q
  | n + 1, q => ikRun p goal n (ikIterate p goal q)

/-- A sample of a tool path: the joints solved from those of the sample before, the derivatives by differences. -/
def ikNext (p : ArmPar) (goal : Pose) (s : JState) : JState :=
  let t := secs p.tns
  let q := ikRun p goal p.iter s.q
  let rate (x y : List Dbl) : List Dbl := (x.zip y).map (fun z => (z.1.sub z.2).div t)
  let v := rate q s.q
  ⟨q, v, rate v s.v⟩

/-- The error left exceeds its tolerance. -/
def ikFailed (p : ArmPar) (goal : Pose) (s : JState) : Bool :=
  let e := poseError p.kin s.q goal
  (Dbl.ofF32 p.tolR).lt e.1.norm || (Dbl.ofF32 p.tolP).lt e.2.norm

/-- Samples along a path: `goal i` is the pose of sample `i`, `step` the pose that follows another. -/
def ikTrail (p : ArmPar) (goal : Nat → Pose) (s : JState) : Nat → JState
  | 0 => s
  | n + 1 => ikNext p (goal (n + 1)) (ikTrail p goal s n)

/-! ### Tool-space paths (R143, R158) -/

/-- Target pose of a descriptor from a pose: absolute, relative in the cell frame or relative in the tool frame (R138). -/
def targetFrame (d : Bytes) (f : Pose) : Pose :=
  let g := Pose.read d 32
  if !dflag d 1 then g else if dflag d 2 then f.mul g else ⟨g.r.mul f.r, g.p.add f.p⟩

/-- The arc through three points: centre, the unit vectors of its start and of its direction there, and the angle to its end. -/
structure Arc where
  c : V3
  e1 : V3
  e2 : V3
  r : Dbl
  angle : Dbl
deriving DecidableEq, Repr

/-- The arc from `a` through `via` to `b`. DEDUCED, log entry 37. -/
def arcOf (a via b : V3) : Arc :=
  let u := via.sub a
  let w := b.sub a
  let n := u.cross w
  let c := (((w.scale (u.dot u)).sub (u.scale (w.dot w))).cross n).scale (Dbl.one.div (Dbl.two.mul (n.dot n)))
  let r := c.norm
  let e1 := c.scale (Dbl.one.div r).neg
  let e2 := (n.scale (Dbl.one.div n.norm)).cross e1
  let x := w.sub c
  let t := (x.dot e2).atan2 (x.dot e1)
  ⟨a.add c, e1, e2, r, if t.isNeg then t.add (Dbl.two.mul (Dbl.ofFx fxPi)) else t⟩

/-- The three points are not collinear within 10^−6 m: VIA lies further from the line through start and target. On the arc through
three such points VIA lies between the other two. -/
def arcOk (a via b : V3) : Bool :=
  let w := b.sub a
  let n := ((via.sub a).cross w).norm
  (w.norm.mul (Dbl.ofRatio 1 1000000)).lt n

/-- A line or an arc with its rotation, from a frame to another. -/
structure Path where
  f0 : Pose
  f1 : Pose
  arc : Option Arc
  /-- Rotation vector from the first orientation to the last. -/
  rot : V3
deriving DecidableEq, Repr

/-- The path of a LINEAR or CIRCULAR descriptor from a frame. DEDUCED, log entry 37. -/
def pathOf (kind : Nat) (d : Bytes) (f : Pose) : Path :=
  let g := targetFrame d f
  ⟨f, g, if kind = 3 then some (arcOf f.p (V3.read d 64) g.p) else none, (g.r.mul f.r.tr).log⟩

/-- Translation length and rotation angle of a path. -/
def Path.len (x : Path) : Dbl := match x.arc with
  | some a => a.r.mul a.angle
  | none => (x.f1.p.sub x.f0.p).norm
def Path.turn (x : Path) : Dbl := x.rot.norm

/-- The pose of a path at u. -/
def Path.at_ (x : Path) (u : Dbl) : Pose :=
  let p := match x.arc with
    | some a => let t := u.mul a.angle; (a.c.add (a.e1.scale (a.r.mul t.cos))).add (a.e2.scale (a.r.mul t.sin))
    | none => x.f0.p.add ((x.f1.p.sub x.f0.p).scale u)
  ⟨(M3.exp (x.rot.scale u)).mul x.f0.r, p⟩

/-- Unit tangent of a path at u. -/
def Path.tangent (x : Path) (u : Dbl) : V3 := match x.arc with
  | some a => let t := u.mul a.angle; (a.e2.scale t.cos).sub (a.e1.scale t.sin)
  | none => let w := x.f1.p.sub x.f0.p; w.scale (Dbl.one.div w.norm)

/-- The u at which a path comes nearest to a frame: 0 at its own start. DEDUCED, log entry 37. -/
def Path.near (x : Path) (f : Pose) : Dbl :=
  let u := match x.arc with
    | some a =>
      let w := f.p.sub a.c
      ((w.dot a.e2).atan2 (w.dot a.e1)).div a.angle
    | none =>
      let w := x.f1.p.sub x.f0.p
      if !x.len.isZero then ((f.p.sub x.f0.p).dot w).div (w.dot w)
      else if !x.turn.isZero then (((f.r.mul x.f0.r.tr).log).dot x.rot).div (x.rot.dot x.rot)
      else Dbl.zero
  (u.max Dbl.zero).min Dbl.one

/-- The limit of u that a translation limit and a rotation limit give: a term whose length is 0 is left out.
DEDUCED, log entry 37. -/
def uLimit (x : Path) (v w : Dbl) : Dbl :=
  leastD ((if x.len.isZero then [] else [v.div x.len]) ++ (if x.turn.isZero then [] else [w.div x.turn]))

/-- The velocity of u at the start: the start velocity's component along the line, at least 0. DEDUCED, log entry 37. -/
def uStart (x : Path) (u : Dbl) (s : TState) : Dbl :=
  if !x.len.isZero then (s.v.dot (x.tangent u)).max Dbl.zero |>.div x.len
  else if !x.turn.isZero then (s.w.dot (x.rot.scale (Dbl.one.div x.turn))).max Dbl.zero |>.div x.turn
  else Dbl.zero

/-- Limits of the tool: translation and rotation. -/
def toolLim (d : Bytes) : Lim × Lim :=
  (⟨dfield d 16, dfield d 24, dfield d 28⟩, ⟨dfield d 20, dfield d 24, dfield d 28⟩)

/-- Profiles of a tool-space move from a state: u, then the transition offset, translation and rotation vector (R143). After a
re-seed the move goes on from the point of its path that is nearest. DEDUCED, log entry 37. -/
def pathProfs (x : Path) (d : Bytes) (s : TState) : List Prof :=
  let l := toolLim d
  let u0 := x.near s.f
  let u1 := uStart x u0 s
  let f := x.at_ u0
  let still (v : Dbl) : Prof := ⟨⟨v, Dbl.zero, Dbl.zero⟩, [], ⟨v, Dbl.zero, Dbl.zero⟩, false⟩
  let u := if x.len.isZero && x.turn.isZero then still Dbl.one
    else planTo ⟨u0, u1, Dbl.zero⟩ Dbl.one Dbl.zero
      ⟨uLimit x l.1.v l.2.v, uLimit x l.1.a l.2.a, uLimit x l.1.j l.2.j⟩
  let lineV := if x.len.isZero then V3.zero else (x.tangent u0).scale (u1.mul x.len)
  let lineW := x.rot.scale u1
  let lineA := match x.arc with
    | some a => let w := u1.mul a.angle; ((f.p.sub a.c).scale (w.mul w)).neg
    | none => V3.zero
  let off (p v a : Dbl) (l : Lim) : Prof :=
    if p.isZero && v.isZero && a.isZero then still Dbl.zero else planTo ⟨p, v, a⟩ Dbl.zero Dbl.zero l
  let dp := s.f.p.sub f.p
  let dr := (s.f.r.mul f.r.tr).log
  let dv := s.v.sub lineV
  let da := s.dv.sub lineA
  let dw := s.w.sub lineW
  [u, off dp.x dv.x da.x l.1, off dp.y dv.y da.y l.1, off dp.z dv.z da.z l.1,
    off dr.x dw.x s.dw.x l.2, off dr.y dw.y s.dw.y l.2, off dr.z dw.z s.dw.z l.2]

/-- Positions of three profiles at a time. -/
def prof3 (l : List Prof) (i : Nat) (t : Dbl) : V3 :=
  V3.ofFn (fun k => ((l[i + k]?).map (fun f => (f.at_ t).p)).getD Dbl.zero)

/-- A frame displaced by a translation and a rotation vector in the cell frame. -/
def Pose.shift (f : Pose) (p r : V3) : Pose := ⟨(M3.exp r).mul f.r, f.p.add p⟩

/-- The nominal pose of a tool-space move at a time: the line pose at u(t) displaced by d(t). -/
def pathPose (x : Path) (l : List Prof) (t : Dbl) : Pose :=
  (x.at_ (((l.head?).map (fun f => (f.at_ t).p)).getD Dbl.one)).shift (prof3 l 1 t) (prof3 l 4 t)

/-! ### Channels: joints of an arm, components of an object frame, an axis -/

/-- Limits of a joint at scales of V, A and J. -/
def jointLim (r : Bytes) (v a j : Dbl) : Lim := ⟨(dfield r 36).mul v, (dfield r 40).mul a, (dfield r 44).mul j⟩

/-- Velocity limit of an axis at a scale, with the cap of DEGRADED (R298). -/
def AxPar.lim (p : AxPar) (v a j : Dbl) : Lim :=
  let top := (Dbl.ofF32 p.vmax).mul v
  ⟨match p.cap with
    | some c => top.min (Dbl.ofF32 c)
    | none => top, (Dbl.ofF32 p.amax).mul a, (Dbl.ofF32 p.jmax).mul j⟩

/-- The state of an axis as a plan's start, and back. -/
def PVA.bytes (s : PVA) : Bytes := le 8 s.p.bits ++ le 8 s.v.bits ++ le 8 s.a.bits
def PVA.read (b : Bytes) : PVA := ⟨⟨num b 0 8⟩, ⟨num b 8 8⟩, ⟨num b 16 8⟩⟩

/-- Segment table of a mover, and T in ns. -/
def PlanPar.table : PlanPar → Bytes
  | .arm p => p.table
  | .grp p => p.table
  | .axis p => p.table
def PlanPar.tns : PlanPar → Nat
  | .arm p => p.tns
  | .grp p => p.tns
  | .axis p => p.tns
def PlanPar.joinTol : PlanPar → Dbl
  | .arm p => Dbl.ofF32 p.joinTol
  | .grp p => Dbl.ofF32 p.joinTol
  | .axis p => Dbl.ofF32 p.joinTol

/-- The coordinates that a mover's profiles run in, with their limits: the joints; the components of an object frame from its start,
translation in the cell frame and rotation vector; the axis. `frac` holds the scales of V, A and J. -/
def channels (p : PlanPar) (d start : Bytes) (v a j : Dbl) : List (PVA × Lim) :=
  match p with
  | .arm p =>
    let nj := kinNj p.kin
    let s := JState.read nj start
    (List.range nj).map (fun i => (s.pva i, jointLim (kinRec p.kin i) v a j))
  | .grp _ =>
    let s := TState.read start
    let l := toolLim d
    ((s.v.list.zip s.dv.list).map (fun x => ((⟨Dbl.zero, x.1, x.2⟩ : PVA), l.1))) ++
      ((s.w.list.zip s.dw.list).map (fun x => ((⟨Dbl.zero, x.1, x.2⟩ : PVA), l.2)))
  | .axis p => [(PVA.read start, p.lim v a j)]

/-- The coordinates of a table's channels (R150, R158): those of an object frame lie in the object frame at the reference state. -/
def tableChannels (p : PlanPar) (d start ref : Bytes) : List (PVA × Lim) :=
  match p with
  | .grp _ =>
    let s := TState.read start
    let f := (TState.read ref).f
    let l := toolLim d
    let r := f.inv.mul s.f
    let turn (v : V3) : V3 := f.r.tr.app v
    let three (p v a : V3) (l : Lim) : List (PVA × Lim) := [(⟨p.x, v.x, a.x⟩, l), (⟨p.y, v.y, a.y⟩, l), (⟨p.z, v.z, a.z⟩, l)]
    three r.p (turn s.v) (turn s.dv) l.1 ++ three r.r.log (turn s.w) (turn s.dw) l.2
  | _ => channels p d start (dfield d 4) (dfield d 8) (dfield d 12)

/-- Offset that REL adds to a table's positions: the reference position of each channel, which is zero in an object frame.
DEDUCED, log entry 37. -/
def relOffset (p : PlanPar) (d ref : Bytes) (c : Nat) : Dbl :=
  if segFlag p.table 0 then (((tableChannels p d ref ref)[c]?).map (fun x => x.1.p)).getD Dbl.zero else Dbl.zero

/-- The approach to a table: none where every channel is within the join tolerance of row 0, else profiles to the state of row 0
(R150). DEDUCED, log entry 36. -/
def approach (p : PlanPar) (d start ref : Bytes) : List Prof :=
  let t := p.table
  let l := tableChannels p d start ref
  let r := (segRows t).headD []
  let tol := p.joinTol
  let first (c : Nat) : Dbl := (rowP r c).add (relOffset p d ref c)
  let near := l.zipIdx.all (fun x => ((x.1.1.p.sub (first x.2)).abs).le tol && ((x.1.1.v.sub (rowV r x.2)).abs).le tol)
  if near then [] else planSync (l.zipIdx.map (fun x => (x.1.1, first x.2, rowV r x.2, x.1.2)))

/-- Longest of a list of profiles. -/
def profTime (l : List Prof) : Dbl := (l.map Prof.dur).foldl Dbl.max Dbl.zero

/-- Velocity targets of a jog (R146): a fraction of VEL_MAX within JSLS, or of the tool jog limit; 0 when VEL is taken as 0.
DESIGN CHOICE, log entry 34. -/
def jogTargets (p : ArmPar) (d : Bytes) : List Dbl :=
  let zero := num d 40 1 != 0
  let frac (i : Nat) : Dbl := if zero then Dbl.zero else Dbl.ofF32 (num d (4 + 4 * i) 4)
  if num d 0 1 = 0 then
    (List.range (kinNj p.kin)).map (fun j =>
      let r := kinRec p.kin j
      let top := (Dbl.ofInt (num p.safeArm (124 + 4 * j) 4)).div (dfield r 96)
      (((frac j).mul (dfield r 36)).min top).max top.neg)
  else (List.range 6).map (fun i => (frac i).mul (dfield p.safeArm 8))

/-- Acceleration and jerk limits of a tool jog, which the spec does not give (DESIGN CHOICE, log entry 34). -/
def jogToolLim (p : ArmPar) : Lim := ⟨dfield p.safeArm 8, Dbl.ofF32 Config.jogToolAcc, Dbl.ofF32 Config.jogToolJerk⟩

/-- Profiles of a jog: joints, or the six components of the tool's velocity. DESIGN CHOICE, log entry 34. -/
def jogProfs (p : ArmPar) (d start : Bytes) : List Prof :=
  let nj := kinNj p.kin
  let s := JState.read nj start
  let to_ := jogTargets p d
  if num d 0 1 = 0 then
    (List.range nj).map (fun j => planVel (s.pva j) (to_.getD j Dbl.zero) (jointLim (kinRec p.kin j) Dbl.one Dbl.one Dbl.one))
  else
    let x := toolState p.kin s
    let turn (v : V3) : V3 := if num d 0 1 = 2 then x.f.r.tr.app v else v
    let v0 := (turn x.v).list ++ (turn x.w).list
    let a0 := (turn x.dv).list ++ (turn x.dw).list
    (List.range 6).map (fun i => planVel ⟨Dbl.zero, v0.getD i Dbl.zero, a0.getD i Dbl.zero⟩ (to_.getD i Dbl.zero) (jogToolLim p))

/-! ### Motions -/

/-- Profiles of a motion. -/
def motionProfs (kind : Nat) (d start ref : Bytes) (p : PlanPar) : List Prof :=
  match kind, p with
  | 0, .grp _ => if d = [] then [] else (channels p d start Dbl.one Dbl.one Dbl.one).map (fun x => planStop x.1 x.2)
  | 0, _ => (channels p d start Dbl.one Dbl.one Dbl.one).map (fun x => planStop x.1 x.2)
  | 1, _ =>
    let base := channels p d ref Dbl.one Dbl.one Dbl.one
    planSync (((channels p d start (dfield d 4) (dfield d 8) (dfield d 12)).zip base).zipIdx.map (fun x =>
      let goal := dfield d (32 + 4 * x.2)
      (x.1.1.1, if dflag d 1 then x.1.2.1.p.add goal else goal, Dbl.zero, x.1.1.2)))
  | 2, .arm p => pathProfs (pathOf 2 d (toolState p.kin (JState.read (kinNj p.kin) ref)).f) d (toolState p.kin (JState.read (kinNj p.kin) start))
  | 3, .arm p => pathProfs (pathOf 3 d (toolState p.kin (JState.read (kinNj p.kin) ref)).f) d (toolState p.kin (JState.read (kinNj p.kin) start))
  | 2, .grp _ => pathProfs (pathOf 2 d (TState.read ref).f) d (TState.read start)
  | 3, .grp _ => pathProfs (pathOf 3 d (TState.read ref).f) d (TState.read start)
  | 4, _ => approach p d start ref
  | 6, _ => (channels p d start (dfield d 4) (dfield d 8) (dfield d 12)).map (fun x => planStop x.1 x.2)
  | 7, .arm p => jogProfs p d start
  | _, _ => []

/-- Duration of a motion in s, if it has one. -/
def motionTime (kind : Nat) (p : PlanPar) (l : List Prof) : Option Dbl :=
  let t := if kind = 4 then (profTime l).add (segTime p.table) else profTime l
  if kind = 5 ∨ (kind = 4 ∧ segFlag p.table 1) ∨ !f64.isFinite t.bits then none else some t

/-- A time in s as 2^-32 basic cycles, rounded up. -/
def inCycles (t : Dbl) (tns : Nat) : Nat :=
  let r := f64.ratio t.bits
  let n : Int := r.1 * (1000000000 * 2 ^ 32 : Nat)
  let d : Int := (r.2 * max tns 1 : Nat)
  ((n + d - 1) / d).toNat

/-- A motion that begins at path time `t`, 2^-32 basic cycles. -/
def startMotion (kind : Nat) (desc start ref : Bytes) (par : PlanPar) (t : Nat) : Motion :=
  let l := motionProfs kind desc start ref par
  { kind := kind, desc := desc, start := start, ref := ref, par := par, prof := l, begin_ := t,
    endAt := (motionTime kind par l).map (fun x => t + inCycles x par.tns), cam := none, slave := 0, present := none, done := false }

/-- Time since its begin at a whole path time, in s; samples of a motion are counted from the first whole path time after it. -/
def Motion.time (m : Motion) (n : Nat) : Dbl :=
  Dbl.ofRatio ((((n * 2 ^ 32 : Nat) : Int) - m.begin_) * m.par.tns) (2 ^ 32 * 1000000000)
def Motion.first (m : Motion) : Nat := m.begin_ / 2 ^ 32
def Motion.over_ (m : Motion) (n : Nat) : Bool := match m.endAt with
  | some e => decide (e ≤ n * 2 ^ 32)
  | none => false

/-- Channel states of a table motion at a time: its approach, then the table. -/
def tableState (m : Motion) (t : Dbl) : List PVA :=
  let l := tableChannels m.par m.desc m.start m.ref
  let lead := profTime m.prof
  if t.lt lead then m.prof.map (fun f => f.at_ t)
  else (List.range l.length).map (fun c =>
    let x := segAt m.par.table c (t.sub lead)
    { x with p := x.p.add (relOffset m.par m.desc m.ref c) })

/-- The state of a cam slave that is an arm: its table at the slave's time (R154). -/
def camState (m : Motion) : List PVA :=
  let l := tableChannels m.par m.desc m.start m.ref
  (List.range l.length).map (fun c =>
    let x := segAt m.par.table c ((Dbl.mk m.slave).max Dbl.zero)
    { x with p := x.p.add (relOffset m.par m.desc m.ref c) })

/-- Time of the segment table `tbl` at which a motion of an arm that runs it stands at a whole path time (R154). DEDUCED, log entry 38. -/
def Motion.tableTime (m : Motion) (tbl n : Nat) : Option Nat :=
  let lead := profTime m.prof
  match m.kind with
  | 4 =>
    if num m.desc 32 2 ≠ tbl then none
    else if m.over_ n then some (segTime m.par.table).bits
    else if (m.time n).lt lead then none
    else some (segWrap m.par.table ((m.time n).sub lead)).bits
  | 5 => if num m.desc 34 2 = tbl ∧ m.cam.isSome then some m.slave else none
  | _ => none

/-- The object frame of a group's motion, or the tool frame of an arm's tool-space move or tool jog, at a whole path time. -/
def Motion.pose (m : Motion) : Nat → Pose
  | 0 => (TState.read m.start).f
  | n + 1 =>
    let t := m.time (n + 1)
    match m.kind, m.par with
    | 2, .arm p => pathPose (pathOf 2 m.desc (toolState p.kin (JState.read (kinNj p.kin) m.ref)).f) m.prof t
    | 3, .arm p => pathPose (pathOf 3 m.desc (toolState p.kin (JState.read (kinNj p.kin) m.ref)).f) m.prof t
    | 7, .arm p =>
      let s := toolState p.kin (JState.read (kinNj p.kin) m.start)
      if n + 1 ≤ m.first then s.f
      else
        let f := Motion.pose m n
        let f := if n = m.first then s.f else f
        let u := m.time n
        let dp := (prof3 m.prof 0 t).sub (prof3 m.prof 0 u)
        let dr := (prof3 m.prof 3 t).sub (prof3 m.prof 3 u)
        if num m.desc 0 1 = 2 then f.mul ⟨M3.exp dr, dp⟩ else f.shift dp dr
    | 2, _ => pathPose (pathOf 2 m.desc (TState.read m.ref).f) m.prof t
    | 3, _ => pathPose (pathOf 3 m.desc (TState.read m.ref).f) m.prof t
    | 4, _ =>
      let l := (tableState m t).map PVA.p
      let g (i : Nat) : Dbl := l.getD i Dbl.zero
      (TState.read m.ref).f.mul ⟨M3.exp ⟨g 3, g 4, g 5⟩, ⟨g 0, g 1, g 2⟩⟩
    | _, _ => (TState.read m.start).f.shift (prof3 m.prof 0 t) (prof3 m.prof 3 t)

/-- Joint states of an arm's motion that runs in tool space, by sample. -/
def Motion.trail (m : Motion) (p : ArmPar) (n : Nat) : JState :=
  ikTrail p (fun i => m.pose (m.first + i)) (JState.read (kinNj p.kin) m.start) (n - m.first)

/-- Zero velocity and acceleration at positions. -/
def JState.still (q : List Dbl) : JState := ⟨q, q.map (fun _ => Dbl.zero), q.map (fun _ => Dbl.zero)⟩

/-- First whole path time at or after the end of a motion. DEDUCED, log entry 37. -/
def Motion.lastAt (m : Motion) : Nat := match m.endAt with
  | some e => (e + 2 ^ 32 - 1) / 2 ^ 32
  | none => m.first

/-- The motion runs in tool space: LINEAR, CIRCULAR, and a jog in a tool mode. -/
def Motion.inTool (m : Motion) : Bool := m.kind == 2 || m.kind == 3 || m.kind == 7 && num m.desc 0 1 != 0

/-- Position of an axis within its limits; at a limit it stands (R297). -/
def AxPar.cut (p : AxPar) (s : PVA) : PVA :=
  let lo := Dbl.ofF32 p.lo
  let hi := Dbl.ofF32 p.hi
  if p.cont then s
  else if s.p.lt lo then ⟨lo, Dbl.zero, Dbl.zero⟩ else if hi.lt s.p then ⟨hi, Dbl.zero, Dbl.zero⟩ else s

/-- The end state of a motion, at rest: what a queued move starts from (R140). -/
def Motion.rest (m : Motion) : Bytes :=
  let stay (l : List PVA) : List PVA := l.map (fun x => ⟨x.p, Dbl.zero, Dbl.zero⟩)
  match m.par with
  | .arm p =>
    let s := if m.inTool then JState.still (m.trail p m.lastAt).q
      else match m.kind with
        | 4 => JState.ofPva (stay (tableState m ((profTime m.prof).add (segTime p.table))))
        | 5 => JState.ofPva (stay (camState m))
        | _ => JState.ofPva (stay (m.prof.map Prof.fin))
    s.bytes
  | .grp _ => if m.kind = 0 ∧ m.desc = [] then m.start else (TState.rest (m.pose m.lastAt)).bytes
  | .axis p =>
    let s := match m.kind with
      | 4 => (stay (tableState m ((profTime m.prof).add (segTime p.table)))).headD (PVA.read m.start)
      | 5 => ⟨(PVA.read m.start).p, Dbl.zero, Dbl.zero⟩
      | _ => (stay (m.prof.map Prof.fin)).headD (PVA.read m.start)
    (p.cut s).bytes

/-- The state of a motion at a whole path time. -/
def Motion.at_ (m : Motion) (n : Nat) : Bytes :=
  if m.over_ n ∧ m.kind ≠ 7 then m.rest
  else match m.par with
    | .arm p =>
      let t := m.time n
      let s := if m.inTool then m.trail p n
        else match m.kind with
          | 4 => JState.ofPva (tableState m t)
          | 5 => JState.ofPva (camState m)
          | _ => JState.ofPva (m.prof.map (fun f => f.at_ t))
      s.bytes
    | .grp _ =>
      if n ≤ m.first ∨ (m.kind = 0 ∧ m.desc = []) then m.start
      else
        let t := secs m.par.tns
        let f (i : Nat) : Pose := if i ≤ m.first then (TState.read m.start).f else m.pose i
        let s0 := if n = m.first + 1 then TState.read m.start else (TState.rest (f (n - 2))).next (f (n - 1)) t
        (s0.next (f n) t).bytes
    | .axis p =>
      let t := m.time n
      let s := match m.kind with
        | 4 => (tableState m t).headD (PVA.read m.start)
        | 5 => PVA.read m.start
        | _ => ((m.prof.head?).map (fun f => f.at_ t)).getD (PVA.read m.start)
      (p.cut s).bytes

/-- A profile of the motion leaves the position limits (R142, R297). -/
def Motion.cut (m : Motion) : Bool :=
  match m.par with
  | .arm p => !m.inTool && (m.prof.zipIdx.any (fun f =>
      let r := kinRec p.kin f.2
      !(num r 1 1).testBit 0 && f.1.leaves (dfield r 28) (dfield r 32)))
  | .grp _ => false
  | .axis p => !p.cont && m.prof.any (fun f => f.leaves (Dbl.ofF32 p.lo) (Dbl.ofF32 p.hi))

/-- A sample of a tool-space move leaves the tolerance of the inverse kinematics (R144). -/
def Motion.ikFails (m : Motion) (n : Nat) : Bool :=
  match m.par with
  | .arm p => m.inTool && !m.over_ n && decide (m.first < n) && ikFailed p (m.pose n) (m.trail p n)
  | _ => false

/-- A joint's sample between two entries (R523), with `n` 2^-32 of the basic cycle gone by: component 0 q, 1 q′, 2 q″. -/
def sampleAt (i : Nat) (e0 e1 : Bytes) (n tns : Nat) : Nat :=
  let x (e : Bytes) (k : Nat) : Dbl := dfield e (4 * k)
  let tau := Dbl.ofRatio n (2 ^ 32)
  let h := secs tns
  let v := if i = 2 then (x e0 2).add (tau.mul ((x e1 2).sub (x e0 2)))
    else (hermite (x e0 i) (x e0 (i + 1)) (x e1 i) (x e1 (i + 1)) h tau).p
  settle (e0 ++ e1 ++ le 4 n) i v

/-- One cycle of a virtual master (R154): the jerk-limited profile toward its target velocity, from a velocity and an acceleration;
position, velocity and acceleration after it. -/
def vmNext (target acc jerk : Nat) (s : PVA) (tns : Nat) : PVA :=
  (planVel s (Dbl.ofF32 target) ⟨Dbl.zero, Dbl.ofF32 acc, Dbl.ofF32 jerk⟩).at_ (secs tns)

end Sys2Proof.Machine
end

