-- ==== Sys2Proof/Machine/Volumes.lean ====
section
/-! DEFINITION. Tracked volume records (R201 to R203), as the Square and the safety channels read them. -/

namespace Sys2Proof.Machine

/-- Fields of a tracked volume record (R201). -/
def tvId (r : Bytes) : Nat := num r 0 1
def tvKind (r : Bytes) : Nat := num r 1 1
def tvClass (r : Bytes) : Nat := num r 2 1
def tvStamp (r : Bytes) : Nat := time96Val (slice r 4 12)
def tvRadius (r : Bytes) : Nat := num r 40 4

/-- A record that R202 does not reject at a cycle start instant, in 2^-16 ns. -/
def tvOk (startQ : Nat) (r : Bytes) : Bool :=
  decide (tvKind r ≤ 2) && decide (tvClass r ≤ 1) && decide (tvId r ≤ 127) &&
    (List.range 10).all (fun i => f32.isFinite (num r (16 + 4 * i) 4)) &&
    f32.le 0 (tvRadius r) && f32.le (tvRadius r) 0x41200000 && decide (tvStamp r ≤ startQ)

/-- Of the records of one reading, the winner of each ID: the later STAMP, at equal STAMP the record read last. -/
def tvWinners : List Bytes → List Bytes → List Bytes
  | [], acc => acc
  | r :: l, acc =>
    match acc.find? (fun w => tvId w == tvId r) with
    | none => tvWinners l (acc ++ [r])
    | some w =>
      if tvStamp w ≤ tvStamp r then tvWinners l (acc.map (fun x => if tvId x = tvId r then r else x)) else tvWinners l acc

/-- The stored volumes after a reading (R202): a record not later than the stored one is ignored, KIND 0 deletes. -/
def tvStore (stored : List Bytes) (accepted : List Bytes) : List Bytes :=
  let fresh := accepted.filter (fun r => match stored.find? (fun v => tvId v == tvId r) with
    | some v => decide (tvStamp v < tvStamp r)
    | none => true)
  (tvWinners fresh []).foldl (fun st r =>
    let st := st.filter (fun v => tvId v != tvId r)
    if tvKind r = 0 then st else st ++ [r]) stored

end Sys2Proof.Machine
end

