-- ==== Sys2Proof/Machine/SafeGeo.lean ====
section
/-! DEFINITION. Geometry of the separation checks (R327, R328): the sphere model of channel P and the reach capsule of channel H.
Both are computed in binary64. Channel P's last bits are free; a verdict of channel H is never less strict than the formula, and is
free for the 2^-10 m beyond it that its rounding may take (log entry 32). -/

namespace Sys2Proof.Machine

/-- min(1, max(0, x)). -/
def unitDbl (x : Dbl) : Dbl := (x.max Dbl.zero).min Dbl.one

/-- A direction of unit length. -/
def dirOf (v : V3) : V3 := v.scale (Dbl.one.div v.norm)

/-- Nearest points of two segments. -/
def segPair (s t : V3 × V3) : V3 × V3 :=
  let d := s.2.sub s.1
  let e := t.2.sub t.1
  let r := s.1.sub t.1
  let dd := d.dot d
  let ee := e.dot e
  let er := e.dot r
  let dr := d.dot r
  let de := d.dot e
  let at_ (x y : Dbl) : V3 × V3 := (s.1.add (d.scale x), t.1.add (e.scale y))
  if dd.isZero then at_ Dbl.zero (if ee.isZero then Dbl.zero else unitDbl (er.div ee))
  else if ee.isZero then at_ (unitDbl (dr.neg.div dd)) Dbl.zero
  else
    let den := (dd.mul ee).sub (de.mul de)
    let x := if Dbl.zero.lt den then unitDbl (((de.mul er).sub (dr.mul ee)).div den) else Dbl.zero
    let y := ((de.mul x).add er).div ee
    if y.isNeg then at_ (unitDbl (dr.neg.div dd)) Dbl.zero
    else if Dbl.one.lt y then at_ (unitDbl ((de.sub dr).div dd)) Dbl.one
    else at_ x y

/-- Axis segment of a volume. -/
def tvAxis (v : Bytes) : V3 × V3 := (V3.read v 16, V3.read v 28)

/-- Age of a volume in seconds, from 2^-16 ns. -/
def ageSecs (age : Nat) : Dbl := Dbl.ofRatio age (65536 * 1000000000)

/-- Radius of a volume, grown by VH × τ if it is stale (R326). DEDUCED, log entry 60. -/
def grown (v : Bytes) (vh : Dbl) (age : Nat) (stale : Bool) : Dbl :=
  let r := Dbl.ofF32 (tvRadius v)
  if stale then r.add (vh.mul (ageSecs age)) else r

/-- Distance of two segments. -/
def segDist (s t : V3 × V3) : Dbl := let w := segPair s t; (w.2.sub w.1).norm

/-- Terms of a protective distance that both channels share: VH (τ + T + T_STOP) + v (T + T_STOP / 2) + C + ZD. -/
def protective (glob arm : Bytes) (t v : Dbl) (age : Nat) (stale : Bool) : Dbl :=
  let f (off : Nat) : Dbl := Dbl.ofF32 (num glob off 4)
  let stop := Dbl.ofF32 (num arm 0 4)
  let tau := if stale then Dbl.zero else ageSecs age
  ((((f 0).mul ((tau.add t).add stop)).add (v.mul (t.add (stop.div Dbl.two)))).add (f 4)).add (f 8)

/-! ### Channel P -/

/-- Verified joint positions and velocities of a model, by joint (R131). -/
def safePos (k : Bytes) (counts : List Int) (j : Nat) : Dbl :=
  (Dbl.ofInt (counts.getD j 0 - int (kinRec k j) 100 4)).div (Dbl.ofF32 (num (kinRec k j) 96 4))
def safeVel (k : Bytes) (rates : List Int) (j : Nat) : Dbl := (Dbl.ofInt (rates.getD j 0)).div (Dbl.ofF32 (num (kinRec k j) 96 4))

/-- Chain, centre and movers of a sphere: on the link of its joint, or with 0xFE in the tool frame (R348).
DESIGN CHOICE, log entry 32. -/
def sphereAt (k : Bytes) (r : Bytes) (counts : List Int) : V3 × List KLink :=
  let ls := kinLinks k (safePos k counts)
  let j := num r 0 1
  if j = 0xFE then ((kinTool k ls).app (V3.read r 4), ls) else ((linkFrame k ls j).app (V3.read r 4), linksTo j ls)

/-- Magnitude of the velocity of a sphere centre, binary64. DESIGN CHOICE, log entry 32. -/
def sphereSpeed (k : Bytes) (r : Bytes) (counts rates : List Int) : Nat :=
  let c := sphereAt k r counts
  let v := c.2.foldl (fun v l => v.add ((l.lin k c.1).scale (safeVel k rates l.joint))) V3.zero
  let key := k ++ r ++ ((counts ++ rates).map (leInt 4)).flatten
  f64.nudge (max (-4) (min 4 (Config.lastBits key 0))) v.norm.bits

/-- Verdict d < S_P of a sphere with a volume; within 2^-30 m of equality it is free. DESIGN CHOICE, log entry 32. -/
def sphereNear (k r : Bytes) (counts rates : List Int) (glob arm v : Bytes) (age : Nat) (stale : Bool) : Bool :=
  let c := (sphereAt k r counts).1
  let vh := Dbl.ofF32 (num glob 0 4)
  let d := ((segDist (c, c) (tvAxis v)).sub (Dbl.ofF32 (num r 16 4))).sub (grown v vh age stale)
  let sp := (protective glob arm (Dbl.ofRatio 125 100000) ⟨sphereSpeed k r counts rates⟩ age stale).add (Dbl.ofF32 (num glob 12 4))
  let tiny := Dbl.ofRatio 1 (2 ^ 30)
  let key := k ++ r ++ ((counts ++ rates).map (leInt 4)).flatten ++ glob ++ arm ++ v ++ le 8 age
  d.lt (sp.sub tiny) || Config.nearTie 0 key && d.lt (sp.add tiny)

/-! ### Channel H -/

/-- Axis of the reach capsule: with TRACK a part of the segment from REACH_A to REACH_B. -/
def reachAxis (arm : Bytes) (counts rates : List Int) : V3 × V3 :=
  let a := V3.read arm 20
  let b := V3.read arm 32
  let tr := num arm 48 1
  let len := (b.sub a).norm
  if counts.length ≤ tr ∨ len.isZero then (a, b)
  else
    let k := Dbl.ofF32 (num arm 52 4)
    let x := (((Dbl.ofInt (counts.getD tr 0 - int arm 56 4)).mul k).max Dbl.zero).min len
    let w := ((Dbl.ofInt (rates.getD tr 0).natAbs).mul k).mul ((Dbl.ofRatio 70 100000).add (Dbl.ofF32 (num arm 0 4)))
    let u := dirOf (b.sub a)
    (a.add (u.scale ((x.sub w).max Dbl.zero)), a.add (u.scale (len.min (x.add w))))

/-- Verdict d_K < S_K of the reach capsule with a volume, for a speed bound. DESIGN CHOICE, log entry 32. -/
def kerbNear (counts rates : List Int) (bound : Dbl) (glob arm v : Bytes) (age : Nat) (stale : Bool) : Bool :=
  let d := ((segDist (reachAxis arm counts rates) (tvAxis v)).sub (Dbl.ofF32 (num arm 44 4))).sub
    (grown v (Dbl.ofF32 (num glob 0 4)) age stale)
  let sk := protective glob arm (Dbl.ofRatio 70 100000) bound age stale
  let key := ((counts ++ rates).map (leInt 4)).flatten ++ glob ++ arm ++ v ++ le 8 age
  d.lt (sk.add (Dbl.ofRatio 1 (2 ^ 30))) || Config.nearTie 1 key && d.lt (sk.add (Dbl.ofRatio 1 (2 ^ 10)))

/-- v_bound, rounded up, exceeds KERB_V_NEAR, both as fractions: it may by less than 2^-10 m/s more than the exact bound.
DESIGN CHOICE, log entry 32. -/
def kerbOver (key : Bytes) (v n : Int × Nat) : Bool :=
  decide (n.1 * v.2 < v.1 * n.2) ||
    decide (0 < v.1) && Config.nearTie 2 key && decide (n.1 * v.2 * 1024 < v.1 * n.2 * 1024 + v.2 * n.2)

end Sys2Proof.Machine
end

