-- ==== Sys2Proof/Machine/Reserved.lean ====
section
/-! DEFINITION. Reserved fields of object values (R9): they read as 0 whatever was written. One mask for each object whose layout
has reserved fields: a header, and a record that repeats after it. -/

namespace Sys2Proof.Machine

/-- The bits of a byte at a position that are not reserved: `head` covers the first bytes, `rec` repeats after them. -/
def maskAt (head rec : Bytes) (i : Nat) : Byte :=
  if i < head.length then head.getD i 255
  else if rec.isEmpty then 255
  else rec.getD ((i - head.length) % rec.length) 255

/-- A value with its reserved bits cleared; `i` is the position of its first byte. -/
def clearBits (head rec : Bytes) : Nat → Bytes → Bytes
  | _, [] => []
  | i, b :: bs => (b &&& maskAt head rec i) :: clearBits head rec (i + 1) bs

/-- `n` bytes without reserved bits. -/
def used (n : Nat) : Bytes := List.replicate n 255

/-- Mask of an ARM_KIN or SAFE_KIN value (R131): header and joint records. -/
def kinMask : Bytes × Bytes := (255 :: 0 :: used 90 ++ zeros 4, [255, 3, 255, 0] ++ used 104 ++ zeros 4)

/-- Mask of a zone (R216): a capsule leaves part of POSE and SIZE unused. -/
def zoneMask (shape : Nat) : Bytes :=
  [255, 255, 0, 0] ++ (if shape = 2 then used 24 ++ zeros 4 ++ used 4 ++ zeros 8 else used 40) ++ zeros 4

/-- Mask of a jog command (R146). -/
def jogMaskBytes (mode : Nat) : Bytes := [255, 0, 0, 0] ++ used 24 ++ (if mode = 0 then used 8 else zeros 8) ++ used 4

/-- Mask of a move descriptor (R138): fields that its type does not use are reserved. -/
def moveMask (type : Nat) (arm : Bool) : Bytes :=
  let tool := type == 2 || type == 3
  [255, 7] ++ used 14 ++ (if tool then used 16 else zeros 16) ++
    (match type with
      | 1 => used 32
      | 2 => used 28 ++ zeros 4
      | 3 => used 28 ++ zeros 4
      | 4 => used 2 ++ zeros 30
      | 5 => used 2 ++ (if arm then used 2 else zeros 2) ++ zeros 28
      | _ => zeros 32) ++
    (if type = 3 then used 12 else zeros 12) ++ (if type = 5 then [255, 255, 3, 0] ++ used 16 else zeros 20)

/-- Header and record masks of the object at an index and sub-index, where its layout has reserved fields. -/
def reservedMask (index sub : Nat) (v : Bytes) : Option (Bytes × Bytes) :=
  let type := num v 0 1
  if index = 0x0210 ∧ sub = 0x06 then some ([], [255, 255, 255, 0])
  else if index = 0x1000 ∨ index = 0x1400 then
    (if sub = 0x04 ∨ sub = 0x11 then some ([], [255, 3])
     else if sub = 0x0C then some ([], [255, 15, 255, 15, 255, 255, 255, 255, 255, 255, 7, 255, 15, 15, 0, 0]) else none)
  else if index = 0x1800 ∧ sub = 0x01 then some ([], [255, 31] ++ used 9 ++ [3, 3, 0, 0, 0])
  else if index = 0x2100 ∧ sub % 16 = 3 then some ([3], [])
  else if 0x3000 ≤ index ∧ index ≤ 0x37FF ∧ index % 256 = 1 then some kinMask
  else if 0x3000 ≤ index ∧ index ≤ 0x37FF ∧ index % 256 = 2 then some (moveMask type true, [])
  else if 0x3000 ≤ index ∧ index ≤ 0x37FF ∧ index % 256 = 3 then some (jogMaskBytes type, [])
  else if 0x3800 ≤ index ∧ index ≤ 0x3803 ∧ sub = 0x05 then some (moveMask type true, [])
  else if index = 0x3A00 ∨ index = 0x3A01 then some (used 5 ++ [3, 0, 0] ++ used 8 ++ zeros 16, [])
  else if index = 0x3A02 ∨ index = 0x3A03 then some (used 4 ++ [3, 0, 0, 0] ++ used 4 ++ zeros 20, [])
  else if index = 0x4100 ∧ sub = 0x0E then some ([], used 14 ++ zeros 2)
  else if index = 0x4101 then some ([], [255, 0, 0, 0] ++ used 28)
  else if index = 0x4102 then some ([], [255, 255, 0, 0] ++ used 28)
  else if index = 0x4201 then some (zoneMask type, [])
  else if index = 0x5000 ∧ sub = 0x0B then some ([], used 22 ++ zeros 10)
  else if index = 0x5000 ∧ sub = 0x0C then some ([], [255, 255, 255, 0, 255, 255, 255, 255] ++ zeros 8)
  else if index = 0x5000 ∧ sub = 0x0D then some ([], used 9 ++ [1, 0, 0])
  else if 0x6000 ≤ index ∧ index ≤ 0x600F then
    (if sub = 0x0C then some ([0x77], []) else if sub = 0x0D then some ([7, 7, 7, 7, 7, 7, 7, 0], [])
     else if sub = 0x14 then some (moveMask type false, []) else none)
  else if index = 0x5400 ∧ sub = 0x01 then some (used 15 ++ [127], [])
  else if 0x6100 ≤ index ∧ index ≤ 0x610F then
    (if sub = 0x0B then some ([0x7D, 0], []) else if sub = 0x11 then some ([0x7F, 0x7F], []) else none)
  else if index = 0x9800 ∧ sub = 0x04 then some ([0x3F], [])
  else if index = 0x7001 then
    (if sub = 0x01 then some (used 56 ++ zeros 8, [])
     else if sub = 0x02 then some ([], used 6 ++ zeros 2)
     else if sub = 0x03 then some ([], [255, 255] ++ zeros 6)
     else if sub = 0x04 then some ([], [255, 255, 0, 0])
     else some ([], [255, 255, 255, 3, 255, 255, 255, 0, 255, 255, 255, 255] ++ zeros 4))
  else if index = 0x7002 then some (used 49 ++ zeros 3, [])
  else if index = 0x7003 then some kinMask
  else if index = 0x7004 then some ([], [255, 0, 0, 0] ++ used 16)
  else if index = 0x8000 ∧ (sub = 0x09 ∨ sub = 0x0B) then some ([255, 255, 255, 0], [])
  else none

/-- A value as its object holds it. -/
def cleanValue (index sub : Nat) (v : Bytes) : Bytes :=
  match reservedMask index sub v with
  | some (h, r) => clearBits h r 0 v
  | none => v

end Sys2Proof.Machine
end

