-- ==== Sys2Proof/Machine/Access.lean ====
section
/-! DEFINITION. Access to objects: abort codes, requesters and their levels, the checks of R386 in their order, the value
rules of R383, and when a write takes effect (R388 to R390). Blocks give each command of theirs its own check and effect;
`submitWrite` here does the rest. -/

namespace Sys2Proof.Machine

/-! ### Abort codes (R425) -/

def abNoObject : Nat := 0x00000101
def abNoSub : Nat := 0x00000102
def abLevel : Nat := 0x00000201
def abReadOnly : Nat := 0x00000202
def abWriteOnly : Nat := 0x00000203
def abType : Nat := 0x00000301
def abRange : Nat := 0x00000302
def abState : Nat := 0x00000401
def abBusy : Nat := 0x00000402
def abNoResource : Nat := 0x00000501
def abHwFault : Nat := 0x00000601
def abSafety : Nat := 0x00000701
def abSignature : Nat := 0x00000801

/-- Marks a request whose final response exists later (R402); no abort code of R425. -/
def resPending : Nat := 1

/-! ### Tiers -/

/-- TIER_ACTIVE (R18): the lowest of TIER_AVAIL, TIER_LIMIT and the caps. A TIER_AVAIL of 0xFF (none) takes part as the number that it
reads, so TIER_LIMIT and the caps decide. DESIGN CHOICE, log entry 69. -/
def State.tierActive (s : State) : Nat :=
  min (min (min (s.n kTierAvail) (s.n kTierLimit)) (shedCap (s.n kShedStage) s.dev.shedStill)) (if s.dev.btCap then 2 else 3)

/-- The tier that refusals are judged against (R19). -/
def State.tierUse (s : State) : Nat :=
  if s.isIn [.run, .hold, .degraded] then min s.tierActive s.dev.tierInUse else s.tierActive

/-- A stop out of RUN or HOLD still brings an arm to rest: DEV_STATE reads READY already, and SS1 has not found the arm at standstill
(R19, R25, R184, R315). DEDUCED, log entry 70. -/
def State.comesToRest (s : State) : Bool :=
  s.dev.stopRuns && s.dev.state == .ready && s.safe.arms.any (fun x => x.ss1.isSome && !x.closing)

/-- The units of the tier in use work: RUN, HOLD, DEGRADED, and the stop out of them until standstill (R19). -/
def State.inMotion (s : State) : Bool := s.isIn [.run, .hold, .degraded] || s.comesToRest

/-- The tier at which the units work: the tier in use while the device moves or comes to rest, else TIER_ACTIVE (R19). -/
def State.tierRun (s : State) : Nat := if s.inMotion then s.dev.tierInUse else s.tierActive

/-! ### Requesters -/

/-- Base level of a requester's path (R392); forwarded requests carry a level that the partner has checked (R391). -/
def State.baseLevel (s : State) : Requester → Nat
  | .pcie => s.sub kAccPathLevel 0 1
  | .spi => s.sub kAccPathLevel 1 1
  | .session _ _ => s.sub kAccPathLevel 2 1
  | .node _ _ => s.sub kAccPathLevel 3 1
  | .planner _ => 1
  | .partner => 3

/-- A requester that has sent nothing yet. -/
def freshRq (rq : Requester) : RqSt :=
  { rq := rq, raised := 0, wrong := [], lockout := false, vUntil := none, tid := none, response := none, openReq := none, owed := false,
    result := 0, xfer := none, marks := [], shadow := none, word := 0, tear := false }

/-- The state kept for a requester. -/
def State.rq (s : State) (rq : Requester) : RqSt := (s.dict.rqs.find? (fun r => r.rq = rq)).getD (freshRq rq)

/-- The level of a requester (R392): the base level of its path, or the one to which it has raised itself. -/
def State.level (s : State) (rq : Requester) : Nat := max (s.rq rq).raised (s.baseLevel rq)

/-- The list with a requester's entry replaced, or added at the end. -/
def putRq (e : RqSt) : List RqSt → List RqSt
  | [] => [e]
  | r :: l => if r.rq = e.rq then e :: l else r :: putRq e l

/-- Replaces what is kept for a requester. -/
def State.setRq (s : State) (e : RqSt) : State := { s with dict := { s.dict with rqs := putRq e s.dict.rqs } }

/-- The outcome of a requester's last write without a message: 0 accepted, else an abort code. -/
def State.answer (s : State) (rq : Requester) (code : Nat) : State := s.setRq { s.rq rq with result := code }

/-- The bytes of a dictionary message (R395). -/
def msgBytes (m : DictMsg) : Bytes :=
  [m.op, m.flags] ++ le 2 m.tid.toNat ++ le 2 m.index.toNat ++ [m.sub, 0] ++ le 2 m.dest.toNat ++ le 2 m.data.length ++
    le 4 m.param.toNat ++ m.data

/-- The message that 16 header bytes and data hold (R395). -/
def parseMsg (b : Bytes) : DictMsg :=
  { op := BitVec.ofNat 8 (num b 0 1), flags := BitVec.ofNat 8 (num b 1 1), tid := BitVec.ofNat 16 (num b 2 2),
    index := BitVec.ofNat 16 (num b 4 2), sub := BitVec.ofNat 8 (num b 6 1), dest := BitVec.ofNat 10 (num b 8 2),
    param := BitVec.ofNat 32 (num b 12 4), data := fit (num b 10 2) (b.drop 16) }

/-- A response to a request (R396): the request's TID and object with another OP, flags, PARAM and data. -/
def respMsg (q : DictMsg) (op flags param : Nat) (data : Bytes) : DictMsg :=
  { q with op := BitVec.ofNat 8 op, flags := BitVec.ofNat 8 flags, param := BitVec.ofNat 32 param, data := data }

/-- An ABORT response (R396, R425). -/
def abortMsg (q : DictMsg) (code : Nat) : DictMsg := respMsg q 0x7F 1 code []

/-- A response buffer takes a response (R410). DESIGN CHOICE, log entry 26. -/
def HostSt.place (h : HostSt) (m : DictMsg) (msi : Bool) : HostSt :=
  { h with rspBuf := msgBytes m, status := setBit (setBit h.status 4 false) 3 true } |>.raise 0 msi

/-- A response goes where its requester takes it: the response buffer, the service port or the ring (R402, R406, R410). The
response to a request whose buffer the host changed meanwhile is free (R410). DESIGN CHOICE, log entry 26. -/
def State.deliver (s : State) (rq : Requester) (m : DictMsg) : State :=
  match rq with
  | .pcie =>
    let h := s.dict.pcie.place (if s.dict.pcie.dirty then parseMsg (Config.freeBytes s.free) else m) true
    { s with free := s.free + b01 s.dict.pcie.dirty, dict := { s.dict with pcie := { h with dirty := false } } }
  | .spi =>
    let h := s.dict.spi.place (if s.dict.spi.dirty then parseMsg (Config.freeBytes s.free) else m) false
    { s with free := s.free + b01 s.dict.spi.dirty, dict := { s.dict with spi := { h with dirty := false } } }
  | .session ip port => { s with dict := { s.dict with svcOut := s.dict.svcOut ++ [(ip.toNat, port.toNat, msgBytes m)] } }
  | .node r a => { s with dict := { s.dict with ringOut := s.dict.ringOut ++ [(r, a.toNat, m)] } }
  | .planner _ => s
  | .partner => s

/-- The final response of a requester's request: kept for its TID, and delivered (R401, R402). -/
def State.respond (s : State) (rq : Requester) (m : DictMsg) : State :=
  (s.setRq { s.rq rq with response := some m, openReq := none, owed := false }).deliver rq m

/-- A write or command that was not complete completes with an outcome (R402, R422). -/
def State.finish (s : State) (rq : Requester) (code : Nat) : State :=
  let s := s.answer rq code
  match (s.rq rq).openReq with
  | some q => s.respond rq (if code = 0 then respMsg q (0x80 + q.op.toNat) 1 (if q.op = 4 then q.param.toNat else 0) []
      else abortMsg q code)
  | none => s

/-- Path code of R423. -/
def pathCode : Requester → Nat
  | .pcie => 0
  | .spi => 1
  | .session _ _ => 2
  | .node .m _ => 3
  | .node .p _ => 4
  | .planner _ => 5
  | .partner => 6

/-- Number of the session with an address and port. -/
def State.sessionNo (s : State) (ip : W32) (port : W16) : Nat :=
  ((s.dict.sessions.find? (fun x => x.ip = ip ∧ x.port = port)).map Session.slot).getD 0

/-- REQ field of R423. -/
def State.reqNo (s : State) : Requester → Nat
  | .node _ a => a.toNat
  | .session ip port => s.sessionNo ip port
  | .planner p => p.val
  | _ => 0

/-- The record of R423 for a refused command or RWS write. -/
def State.refusedRecord (s : State) (rq : Requester) (cmd index sub : Nat) : State :=
  s.log 0x0210 (le 1 (pathCode rq) ++ le 1 s.dev.state.code ++ le 2 cmd ++ le 2 index ++ le 1 sub ++ [0] ++
    le 2 (s.reqNo rq) ++ [0, 0])

/-- Whether the dictionary serves a requester: the device is up, its units reach Tier 1 or it is in recovery, stage S5 has not
ended its service, and in recovery only PCIe and SPI ask (R17, R21, R448). DEDUCED, log entry 23. -/
def State.served (s : State) (rq : Requester) : Bool :=
  s.dev.phase == .up && decide (s.n kShedStage < 5) &&
    (if s.bit kSecStatus 0 then rq == .pcie || rq == .spi else decide (1 ≤ s.n kTierAvail) && decide (s.n kTierAvail ≤ 3))

/-- Objects that recovery offers (R448). DEDUCED, log entry 23. -/
def recoveryIndex (index : Nat) : Bool :=
  decide (0x0100 ≤ index) && decide (index ≤ 0x0111) || decide (0x9000 ≤ index) && decide (index ≤ 0x97FF)

/-! ### Values (R383) -/

/-- A binary32 pattern is a NaN. DEDUCED, log entry 67. -/
def isNan32 (v : Nat) : Bool := decide (v % 2 ^ 31 > 0x7F800000)

/-- A binary64 pattern is a NaN. DEDUCED, log entry 67. -/
def isNan64 (v : Nat) : Bool := decide (v % 2 ^ 63 > 0x7FF0000000000000)

/-- A binary32 pattern as an integer that orders as its value does. -/
def f32Key (v : Nat) : Int := if v ≥ 2 ^ 31 then -((v - 2 ^ 31 : Nat) : Int) else v

/-- Well-formed UTF-8; `fuel` bounds the characters. -/
def utf8Ok : Nat → List Nat → Bool
  | _, [] => true
  | 0, _ :: _ => false
  | f + 1, a :: r =>
    let cont (x : Nat) := decide (0x80 ≤ x) && decide (x ≤ 0xBF)
    if a < 0x80 then utf8Ok f r
    else match r with
      | b :: r1 =>
        if 0xC2 ≤ a ∧ a ≤ 0xDF then cont b && utf8Ok f r1
        else match r1 with
          | c :: r2 =>
            if 0xE0 ≤ a ∧ a ≤ 0xEF then
              cont b && cont c && (a != 0xE0 || decide (0xA0 ≤ b)) && (a != 0xED || decide (b ≤ 0x9F)) && utf8Ok f r2
            else match r2 with
              | d :: r3 =>
                decide (0xF0 ≤ a) && decide (a ≤ 0xF4) && cont b && cont c && cont d &&
                  (a != 0xF0 || decide (0x90 ≤ b)) && (a != 0xF4 || decide (b ≤ 0x8F)) && utf8Ok f r3
              | [] => false
          | [] => false
      | [] => false

/-- Whether a length fits a type (R384). DEDUCED, log entry 24. -/
def lengthOk (r : ObjRow) (n : Nat) : Bool :=
  match r.type with
  | .str => decide (n ≤ r.size)
  | .domain => decide (n ≤ r.size)
  | _ => n == r.size

/-- The value rule of a type (R383). DEDUCED, log entry 67. -/
def typeOk (r : ObjRow) (v : Bytes) : Bool :=
  match r.type with
  | .bool => decide (leVal v ≤ 1)
  | .f32 => !isNan32 (leVal v)
  | .f64 => !isNan64 (leVal v)
  | .str => utf8Ok v.length (v.map BitVec.toNat)
  | .time96 => decide (num v 2 4 < 1000000000)
  | _ => true

/-- The range that an object's Meaning column gives. DEDUCED, log entry 67. -/
def rangeOk (r : ObjRow) (v : Bytes) : Bool :=
  match r.range with
  | .any => true
  | .nat lo hi => decide (lo ≤ leVal v) && decide (leVal v ≤ hi)
  | .int lo hi => decide (lo ≤ signed v.length (leVal v)) && decide (signed v.length (leVal v) ≤ hi)
  | .f32 lo hi => decide (lo ≤ f32Key (leVal v)) && decide (f32Key (leVal v) ≤ hi)
  | .oneOf l => l.contains (leVal v)

/-! ### The checks of R386 -/

/-- Level code of a column entry as ACC_LEVEL codes it; S is reached by no requester (R391). -/
def lvlNeed : Lvl → Nat
  | .b => 0
  | .e => 1
  | .v => 3
  | .s => 4

/-- Another requester has a write transfer open on the object (R399). -/
def State.xferBusy (s : State) (rq : Requester) (index sub : Nat) : Bool :=
  s.dict.rqs.any (fun r => decide (r.rq ≠ rq) && match r.xfer with
    | some x => x.isWrite && x.index == index && x.sub == sub
    | none => false)

/-- Objects that a standby still writes itself (R372). DEDUCED, log entry 46. -/
def standbyMay (s : State) (index : Nat) : Bool := index == 0x7800 || s.dev.state == .service

/-- Access objects of R390. DEDUCED, log entry 68. -/
def isAccessWrite (key : Nat) : Bool := key == kAccUnlock || key == kAccVToken || key == kAccLock

/-- Whether this device refuses writes as standby (R372). DEDUCED, log entry 46. -/
def State.standbyBusy (s : State) (rq : Requester) (index key : Nat) : Bool :=
  s.standby && rq != .partner && !standbyMay s index && key != kDevCmd

/-- The value may be written in the present state (R7): RWS objects name their states. DEDUCED, log entry 28. -/
def writableNow (s : State) (r : ObjRow) : Bool := r.acc != .rws || r.writable.testBit (s.dev.state.code - 1) ||
  (s.bit kSecStatus 0 && r.idx == 0x9000)

/-- Checks 1 to 6 of R386 and the type's value rule, in order; 0 when all pass. -/
def writeCheck (s : State) (rq : Requester) (index sub : Nat) (v : Bytes) : Nat :=
  match objRow? index sub with
  | none => if indexExists index then abNoSub else abNoObject
  | some r =>
    if s.bit kSecStatus 0 && !recoveryIndex index then abNoObject
    else if r.acc = .ro then abReadOnly
    else if s.level rq < lvlNeed r.lvl then abLevel
    else if !lengthOk r v.length then abType
    else if !writableNow s r then abState
    else if s.standbyBusy rq index (objKey index sub) then abBusy
    else if s.xferBusy rq index sub then abBusy
    else if !(typeOk r v && rangeOk r v) then abRange
    else 0

/-- Records a refusal: LEVEL_DENIED counts in ACC_DENIED, an RWS write refused with STATE_REFUSED writes a record (R391, R423). -/
def State.refuse (s : State) (rq : Requester) (index sub code : Nat) : State :=
  let s := if code = abLevel then s.inc kAccDenied else s
  let rws := match objRow? index sub with
    | some r => r.acc == .rws
    | none => false
  let s := if code == abState && rws then s.refusedRecord rq 0 index sub else s
  s.answer rq code

/-- A write to an object changes the staged copy (R388). DEDUCED, log entry 28. -/
def staging (s : State) (r : ObjRow) : Bool := s.dev.state == .config && r.acc == .rws && r.writable.testBit 1

/-- A write waits for its apply cycle (R389). -/
def deferring (s : State) (key : Nat) : Bool :=
  s.isIn [.sync, .ready, .run, .hold, .degraded] && !isAccessWrite key && key != kDevCmd

/-- The apply cycle of a write accepted now (R389, R371). -/
def State.applyCycle (s : State) : Nat :=
  if s.paired && s.owner then s.cycle + s.n kRedCmdLag else s.cycle + 1

/-- The value that an object holds after a write: W1C fields clear, other RO fields stay (R385). -/
def writtenValue (r : ObjRow) (old v : Bytes) : Bytes :=
  match r.acc with
  | .roW1c => le old.length (leVal old - (leVal old &&& leVal v &&& r.w1c))
  | .wo => old
  | _ => v

/-- The plain effect of a write: the object takes the value. -/
def storeWrite (index sub : Nat) (v : Bytes) (s : State) : State :=
  match objRow? index sub with
  | some r =>
    let k := objKey index sub
    if r.acc = .wo then s else s.setObj k (cleanValue index sub (writtenValue r (s.obj k) v))
  | none => s

/-- Changes the staged copy. -/
def State.stage (s : State) (key : Nat) (v : Bytes) : State :=
  { s with staged := some (storeInsert (s.staged.getD []) key (cleanValue (key / 256) (key % 256) v)) }

/-- Own address on the rings and the link: N0 for the owner or a single device, else N1 (R57, R358). -/
def State.ownAddr (s : State) : Nat := if s.paired && !s.pair.active then 1 else 0

/-- A frame on the redundancy link (R363): RING and CH 0, the cycle number in MPOS, SEQ the cycle number in a heartbeat and the
sender counter in the others, and a payload filled up with zeros to a multiple of 4. -/
def State.pairFrame (s : State) (slot type : Nat) (payload : Bytes) : Frame :=
  { ring := .m, ch := .a, type := BitVec.ofNat 4 type, addr := BitVec.ofNat 10 s.ownAddr, slot := BitVec.ofNat 12 slot,
    seq := BitVec.ofNat 32 (if type = 8 then s.cycle else s.pair.linkCtr), age := 0, flags := 0, mpos := BitVec.ofNat 16 s.cycle,
    payload := fit ((payload.length + 3) / 4 * 4) payload }

/-- Places a frame on the redundancy link; the sender counter counts those that carry it (R78, R363). -/
def State.linkSend (s : State) (slot type : Nat) (payload : Bytes) : State :=
  { s with pair := { s.pair with
      linkOut := s.pair.linkOut ++ [s.pairFrame slot type payload]
      linkCtr := if type = 8 then s.pair.linkCtr else (s.pair.linkCtr + 1) % 2 ^ 32 } }

/-- Forwards an accepted write to the standby (R371): frame 0x003 with CSEQ, apply cycle and the request. DEDUCED, log entry 68. -/
def State.forward (s : State) (apply : Nat) (request : Bytes) : State :=
  if s.paired && s.owner && !s.bit kRedStatus 7 then
    let c := (s.pair.cseqOut + 1) % 2 ^ 32
    let s : State := { s with pair := { s.pair with cseqOut := c, forwarded := s.pair.forwarded ++ [⟨c, apply⟩] } }
    s.linkSend 3 5 (le 4 c ++ le 4 apply ++ request)
  else s

/-- The framing of a WRITE request (R395) as a forwarded frame carries it. -/
def writeMsgBytes (index sub : Nat) (v : Bytes) : Bytes :=
  msgBytes { op := 2, flags := 1, tid := 0, index := BitVec.ofNat 16 index, sub := BitVec.ofNat 8 sub, dest := 0,
             param := BitVec.ofNat 32 v.length, data := v }

/-- Closes read transfers of a large object that is written (R400). -/
def State.closeReads (s : State) (index sub : Nat) : State :=
  { s with dict := { s.dict with rqs := s.dict.rqs.map (fun r => match r.xfer with
      | some x =>
        if !x.isWrite && !x.snapshot && x.index == index && x.sub == sub then { r with xfer := some { x with closed := true } } else r
      | none => r) } }

/-- UNIT_FAIL bit of the block that a write acts on; configuration objects stay writable (R387). -/
def blockBit (index sub : Nat) : Option Nat :=
  if 0x3900 ≤ index ∧ index ≤ 0x391F ∧ sub = 0x0C then some 27
  else if 0x4202 = index then some 26
  else if 0x6000 ≤ index ∧ index ≤ 0x600F ∧ sub = 0x14 then some 28
  else if 0x6210 ≤ index ∧ index ≤ 0x621F ∧ (sub % 16 = 1 ∨ sub % 16 = 7) then some 29
  else if index = 0x7000 then some 38
  else none

/-- The block that a write needs has failed its start-up test (R387). -/
def State.blockFailed (s : State) (index sub : Nat) : Bool := match blockBit index sub with
  | some b => s.bit kUnitFail b
  | none => false

/-- One write as R386 to R390 and R371 order it: checks, the object's own check `own`, then the effect now, in the staged
copy, or at the apply cycle. `eff` is the effect of the value on the device. DEDUCED, log entry 68. -/
def submitWrite (rq : Requester) (index sub : Nat) (v : Bytes) (own : State → Nat) (eff : State → State) (s : State) : State :=
  if !s.served rq then s
  else
    let c := writeCheck s rq index sub v
    let c := if c = 0 then (if s.blockFailed index sub then abHwFault else own s) else c
    if c ≠ 0 ∧ c ≠ resPending then s.refuse rq index sub c
    else
      let key := objKey index sub
      let s := (s.answer rq c).closeReads index sub
      match objRow? index sub with
      | none => s
      | some r =>
        if staging s r then
          let s := s.stage key v
          if rq = .partner then s else s.forward s.applyCycle (writeMsgBytes index sub v)
        else if deferring s key then
          let a := s.applyCycle
          let s := { s with dict := { s.dict with pendingWrites := s.dict.pendingWrites ++ [⟨rq, key, v, a⟩] } }
          if rq = .partner then s else s.forward a (writeMsgBytes index sub v)
        else
          let s := eff s
          if rq = .partner ∨ isAccessWrite key ∨ key = kDevCmd then s
          else s.forward s.applyCycle (writeMsgBytes index sub v)

/-- Splits a key into index and sub-index. -/
def keyIndex (key : Nat) : Nat := key / 256
def keySub (key : Nat) : Nat := key % 256

end Sys2Proof.Machine
end

