-- ==== Sys2Proof/Machine/Time.lean ====
section
/-! DEFINITION. Cell time and the time domains (chapter "Cell time and time domains", R30 to R56): the tick, steps and slews,
timestamps and their FIFOs, the domain states, and the switch of the followed reference. -/

namespace Sys2Proof.Machine

/-! ### Domains -/

/-- What a domain keeps. -/
def State.dom (s : State) (d : Nat) : DomSt := if d = 0 then s.time.d0 else s.time.d1

/-- Replaces what a domain keeps. -/
def State.setDom (s : State) (d : Nat) (x : DomSt) : State :=
  if d = 0 then { s with time := { s.time with d0 := x } } else { s with time := { s.time with d1 := x } }

/-- Domain time − cell time in 2^-24 ns, extrapolated at DOM_RATE from the last value (R47, R56). -/
def State.domOff24 (s : State) (d : Nat) : Int :=
  let x := s.dom d
  x.off24 + s.i (kDomRate d) * (((s.cellQ : Int) - x.offAt) * 256) / 4294967296

/-- DOM_OFFSET in 2^-16 ns (R56). DEDUCED, log entry 47. -/
def State.domOffset (s : State) (d : Nat) : Int := if s.n (kDomState d) = 0 then 0 else s.domOff24 d / 256

/-- Domain time in 2^-16 ns. That of an OFF domain, whose offset reads 0, is the present cell time. DESIGN CHOICE, log entry 71. -/
def State.domTime (s : State) (d : Nat) : Nat := ((s.cellQ : Int) + s.domOffset d).toNat

/-- Rebases a domain's offset at the present cell time. -/
def State.rebase (s : State) (d : Nat) : State := s.setDom d { s.dom d with off24 := s.domOff24 d, offAt := s.cellQ }

/-- Writes TIME_INC; DOM_RATE is over the cell time rate, so both domains' rates change with it (R33, R56). -/
def State.setTimeInc (s : State) (v : Nat) : State :=
  let old := s.n kTimeInc
  let adj (s : State) (d : Nat) : State :=
    if s.n (kDomState d) = 0 ∨ v = 0 then s
    else (s.rebase d).setI (kDomRate d) ((4294967296 + s.i (kDomRate d)) * old / v - 4294967296)
  (adj (adj s 0) 1).setN kTimeInc v

/-- Starts a slew of an amount in 2^-16 ns; its step is fixed now (R36). -/
def State.startSlew (s : State) (amount : Int) : State :=
  { s with time := { s.time with slewRem := amount * 256, slewStep := s.n kTimeInc * s.n kSlewRate / 1000000 } }

/-- Cancels a pending slew. -/
def State.cancelSlew (s : State) : State := { s with time := { s.time with slewRem := 0 } }

/-- The increment that matches a domain's rate, to the nearest unit (R38, R49). DEDUCED, log entry 47. -/
def State.incFor (s : State) (d : Nat) : Nat :=
  ((s.n kTimeInc * (4294967296 + s.i (kDomRate d)) + 2147483648) / 4294967296).toNat

/-- TIME_INC takes a value at once, and no spread change is left. -/
def State.incNow (s : State) (v : Nat) : State :=
  let s := s.setTimeInc v
  { s with time := { s.time with incGoal := none } }

/-- PRECISION of the rings that are out of pass-through, the smaller of two, ns (R94). -/
def State.gridPrecision (s : State) : Option Nat :=
  let out (x : RingSt) (k : Nat) : List Nat := if s.pair.passThrough ∨ x.cs = .pass then [] else [s.n k]
  (out s.rings.m (kPrecision 0) ++ out s.rings.p (kPrecision 1)).min?

/-- The largest change of TIME_INC from one basic cycle to the next: Π / (8 × T) of the nominal increment (R94). -/
def State.incStep (s : State) (prec : Nat) : Nat := 671088640 * prec / (8 * s.tns)

/-- The firmware servo's change of TIME_INC: spread over the cycles that follow while a ring is out of pass-through, else made at
once (R94). An increment outside R33 is not written. DEDUCED, log entry 47. -/
def State.servoInc (s : State) (v : Nat) : State :=
  if v < 0x27F00000 ∨ 0x28100000 < v then s
  else if s.gridPrecision.isSome then { s with time := { s.time with incGoal := some v } }
  else s.incNow v

/-- The part of a spread change that a basic cycle takes (R94). DEDUCED, log entry 47. -/
def State.spreadInc (s : State) : State :=
  match s.time.incGoal with
  | none => s
  | some v =>
    let now := s.n kTimeInc
    match s.gridPrecision with
    | none => s.incNow v
    | some p =>
      let d := max 1 (s.incStep p)
      if now + d < v then s.setTimeInc (now + d)
      else if v + d < now then s.setTimeInc (now - d)
      else s.incNow v

/-- The servo sets TIME_INC from a domain's rate. DEDUCED, log entry 47. -/
def State.followRate (s : State) (d : Nat) : State := s.servoInc (s.incFor d)

/-- This device holds time mastership: it is single, or the owner (R48, R358). -/
def State.mastership (s : State) : Bool := !s.paired || s.pair.active

/-- The PARTNER domain as CELL_REF codes it, or FREE when none is. -/
def State.partnerRef (s : State) : Nat :=
  if s.n (kDomSource 0) = 2 then 1 else if s.n (kDomSource 1) = 2 then 2 else 0

/-- A change of REF_EFFECTIVE (R49); with the host servo the firmware writes neither rate nor slew (R35). -/
def State.refSwitch (s : State) (new : Nat) : State :=
  if s.n kRefEffective = new then s
  else
    let s := s.setN kRefEffective new
    let s := if s.n kTimeServo = 1 then s
      else if new = 0 then
        let s := s.cancelSlew
        { s with time := { s.time with incGoal := none } }
      else
        let s := s.followRate (new - 1)
        s.startSlew (s.domOffset (new - 1))
    (s.setBit kTimeStatus 3 true).logOpen 0 0x0230

/-- TIME_LOCKED (R39, R53). -/
def State.timeLocked (s : State) : Bool :=
  let r := s.n kRefEffective
  !s.time.invalid &&
    (r == 0 && s.n kCellRef == 0 ||
      r != 0 && s.n (kDomState (r - 1)) == 2 && decide ((s.domOffset (r - 1)).natAbs ≤ s.n kTimeLockThr * 65536))

/-- TIME_STATUS as it reads: W1C bits from the store, the others from the time unit (R55). -/
def State.timeStatus (s : State) : Nat :=
  s.n kTimeStatus / 4 % 16 * 4 + s.n kTimeStatus / 128 % 2 * 128 + (if s.time.invalid then 64 else 0) +
    (if s.time.slewRem = 0 then 0 else 2) + (if s.timeLocked then 1 else 0)

/-- What the automatic switch does when domain `d`, which was followed, enters LOST (R50). -/
def State.autoSwitch (s : State) (d : Nat) : State :=
  if s.n kRefEffective ≠ d + 1 then s
  else
    let s := s.setBit kTimeStatus 2 true
    if s.n kDomAuto = 1 ∧ s.n kTimeServo = 0 then
      let o := 1 - d
      let allowed := if s.mastership then s.n (kDomSource o) != 2 else s.n (kDomSource o) == 2
      if s.n (kDomState o) = 2 ∧ allowed then s.refSwitch (o + 1) else s.refSwitch 0
    else s

/-- The switch back when the domain that CELL_REF names returns to LOCKED (R50); without mastership, to the PARTNER domain, which
is then the one followed (R48). -/
def State.switchBack (s : State) (d : Nat) : State :=
  if s.mastership then
    (if s.n kCellRef = d + 1 ∧ s.n kDomAuto = 1 ∧ s.n kTimeServo = 0 ∧ s.n (kDomSource d) ≠ 2 then s.refSwitch (d + 1) else s)
  else if s.n (kDomSource d) = 2 then s.refSwitch (d + 1)
  else s

/-- The reference that R48 gives before any automatic switch; under mastership never a PARTNER domain. DEDUCED, log entry 47. -/
def State.refWanted (s : State) : Nat :=
  if !s.mastership then s.partnerRef
  else if s.n kCellRef = s.partnerRef then 0
  else s.n kCellRef

/-- REF_EFFECTIVE names a domain that R48 bars: the PARTNER domain under mastership, another one without it. -/
def State.refBarred (s : State) : Bool :=
  let r := s.n kRefEffective
  r != 0 && (if s.mastership then r == s.partnerRef else r != s.partnerRef)

/-- REF_EFFECTIVE after a change of the sources, of CELL_REF or of mastership (R48, R49); where only R48 bars what an automatic
switch had chosen and the wanted domain is LOST, it is FREE. A followed domain that a commit turns OFF stays named.
DESIGN CHOICE, log entry 72. -/
def State.refFix (s old : State) : State :=
  let w := s.refWanted
  if w ≠ old.refWanted ∨ s.mastership ≠ old.mastership then s.refSwitch w
  else if s.refBarred then s.refSwitch (if w ≠ 0 ∧ s.n (kDomState (w - 1)) = 4 then 0 else w)
  else s

/-- A stamp may be used (R43). -/
def State.stampUsable (s : State) (d : Nat) (sw : Bool) : Bool :=
  !sw || (s.isIn [.inert, .config, .sync, .service] && s.n (kDomState d) == 1)

/-- One update of a domain: a measured offset in 2^-16 ns (R47). DEDUCED, log entry 47. -/
def State.domUpdate (s : State) (d : Nat) (sw : Bool) (meas : Int) : State :=
  let st := s.n (kDomState d)
  if st = 0 ∨ !s.stampUsable d sw then s
  else
    let s := if sw then s.setBit kTimeStatus 4 true else s
    let x := s.dom d
    let pred := s.domOffset d
    let agree := x.lastAt.isSome && decide ((pred - meas).natAbs ≤ s.n (kDomLockThr d) * 65536)
    let rate := match x.lastAt with
      | some t => Config.domRate (s.i (kDomRate d)) pred meas (s.cellQ - t)
      | none => s.i (kDomRate d)
    let run := if agree then x.run + 1 else 0
    let s := s.setDom d { x with
      run := if st = 4 then 0 else run, lastAt := some s.cellQ, off24 := meas * 256, offAt := s.cellQ, sw := sw }
    let s := s.setI (kDomRate d) rate
    let s := if st = 4 then s.setN (kDomUpdates d) 0 else s.inc (kDomUpdates d)
    let s :=
      if st = 1 ∧ 16 ≤ run then (s.setN (kDomState d) 2).switchBack d
      else if st = 3 ∧ agree then (s.setN (kDomState d) 2).switchBack d
      else if st = 4 then s.setN (kDomState d) 1
      else s
    if s.n kRefEffective = d + 1 ∧ s.n (kDomState d) = 2 ∧ s.n kTimeServo = 0 then
      let s := s.followRate d
      s.startSlew (s.domOffset d)
    else s

/-! ### Timestamps -/

/-- A stamp as the MAC captured it, referred to the ball and by the external delay (R41), rounded down to 2^-16 ns; software stamps
stay as read. DESIGN CHOICE, log entry 73. -/
def State.stamp (s : State) (port : Nat) (egress sw : Bool) (q : Nat) : Nat :=
  if sw then q
  else
    let ps : Int := if egress then 41600 + s.i (kPortExtOut port) else -57600 - s.i (kPortExtIn port)
    ((q : Int) + ps * 65536 / 1000).toNat

/-- The instant at which the timestamp point of a received frame crossed the ball, 2^-16 ns. DESIGN CHOICE, log entry 73. -/
def ballIn (q : Nat) : Nat := ((q : Int) - 57600 * 65536 / 1000).toNat

/-- Port code of R41. -/
def portCode : Port → Nat
  | .me => 0
  | .mw => 1
  | .pe => 2
  | .pw => 3
  | .rl => 4
  | .sv => 5

/-- The FIFO of a port is full (R42). -/
def State.fifoFull (s : State) (port : Nat) : Bool := decide (64 ≤ (s.time.fifos.getD port []).length)

/-- Stores a timestamp record, or discards the stamp of a full FIFO (R42). -/
def State.pushStamp (s : State) (port : Nat) (egress sw : Bool) (tag q : Nat) : State :=
  if s.fifoFull port then
    ({ s with time := { s.time with lost := modAt s.time.lost port (fun _ => true) } } : State).setBit kTimeStatus 5 true
  else
    let lost := s.time.lost.getD port false
    let r := time96 q ++ le 2 tag ++ le 1 ((if egress then 128 else 0) + port) ++ le 1 ((if lost then 2 else 0) + b01 sw)
    { s with time := { s.time with
        fifos := modAt s.time.fifos port (fun l => l ++ [r])
        lost := modAt s.time.lost port (fun _ => false) } }

/-- Takes a stamp and stores it: its value, and whether it is software. A stamp that a full FIFO discards is replaced by the cell
time read in its place (R43). DEDUCED, log entry 47. -/
def State.takeStamp (s : State) (port : Nat) (egress sw : Bool) (tag : Nat) (t : Time96) : (Nat × Bool) × State :=
  let full := s.fifoFull port
  let q := if full && !sw then s.cellQ else s.stamp port egress sw (time96Q t)
  ((q, sw || full), s.pushStamp port egress sw tag q)

/-! ### TIME_TICK -/

/-- Operating time counts REFCLK ticks (R438). -/
def StRec.tick (x : StRec) : StRec :=
  if x.tickCnt + 1 < 1562500 then { x with tickCnt := x.tickCnt + 1 }
  else { x with tickCnt := 0, optime := x.optime + 1 }

/-- Moves both domains' offsets when cell time moves against them by `d` (2^-24 ns). -/
def StTime.shift (t : StTime) (d : Int) : StTime :=
  { t with d0 := { t.d0 with off24 := t.d0.off24 - d }, d1 := { t.d1 with off24 := t.d1.off24 - d } }

/-- The slew part of a tick: what it adds, signed (R32). -/
def StTime.slewPart (t : StTime) : Int :=
  let d : Int := min (t.slewStep : Int) t.slewRem.natAbs
  if t.slewRem < 0 then -d else d

/-- The advance of R32 by an increment. -/
def StTime.advance (t : StTime) (inc : Nat) : StTime :=
  let d := t.slewPart
  let acc := (t.acc + inc + d).toNat
  let t := (t.shift d)
  let t := { t with slewRem := t.slewRem - d }
  if acc ≥ 1000000000 * 2 ^ 24 then { t with acc := acc - 1000000000 * 2 ^ 24, sec := (t.sec + 1) % 2 ^ 48 }
  else { t with acc := acc }

/-- A domain over the step tick: its time advances by its own tick while cell time goes to `q` (R37, R56). -/
def State.stepDom (s : State) (d q : Nat) : DomSt :=
  let x := s.dom d
  let tick : Int := if s.n (kDomState d) = 0 then 0 else s.incFor d
  { x with off24 := s.domOff24 d + tick - ((q : Int) - s.cellQ) * 256, offAt := q }

/-- The step tick of R37; the record carries SW when the stepped value derives from a software timestamp (R43). -/
def State.stepTick (s : State) (sec ns frac : Nat) : State :=
  let before := s.cellTime
  let sw := s.time.stepSw
  let t := { s.time with sec := sec % 2 ^ 48, acc := ns * 2 ^ 24 + frac * 256, slewRem := 0, stepTo := none, stepSw := false,
                         invalid := false }
  let q := ({ s with time := t } : State).cellQ
  let s := { s with time := { t with d0 := s.stepDom 0 q, d1 := s.stepDom 1 q } }
  (s.setBit kTimeStatus 7 true).record 0 0x0231 sw (before ++ s.cellTime)

/-- A unit of operating time passes: it counts for every arm with a brake released (R339). -/
def State.brakeTime (s : State) : State :=
  { s with safe := { s.safe with arms := s.safe.arms.map (fun a => if a.offP then a else match a.release with
      | .applied => a
      | .wanted => a
      | .opening => { a with btTime := a.btTime + 1 }
      | .released => { a with btTime := a.btTime + 1 }) } }

/-- Running time of the burst domains (R483). -/
def State.burstTime (s : State) : State :=
  { s with mon := { s.mon with time800 := s.mon.time800 + (if s.mon.on800 then 40 else 0)
                               time1000 := s.mon.time1000 + (if s.mon.on1000 then 40 else 0) } }

/-- One REFCLK rising edge (R32, R37, R438). -/
def timeTick (s : State) : State :=
  if s.dev.phase = .reset ∨ !s.time.running then s
  else
    let unit := s.recd.optime
    let s := { s with recd := s.recd.tick }
    let s := if s.recd.optime = unit then s else s.brakeTime
    let s := s.burstTime
    match s.time.stepTo with
    | some (sec, ns, frac) => s.stepTick sec ns frac
    | none => { s with time := s.time.advance (s.n kTimeInc) }

/-! ### Commands -/

/-- The requester writes TIME_INC or PHASE_SLEW while the firmware servo owns them (R35). DEDUCED, log entry 47. -/
def State.servoBusy (s : State) : Bool := s.n kTimeServo == 0

/-- The effect of TIME_SET: the next tick takes the value (R37). -/
def timeSetEff (v : Bytes) (s : State) : State :=
  let s := s.setObj kTimeSet v
  { s with time := { s.time with stepTo := some (num v 6 6, num v 2 4, num v 0 2), stepSw := false } }

/-- The effect of a TIME_INC write. -/
def timeIncEff (v : Bytes) (s : State) : State := s.incNow (leVal v)

/-- The own check of TIME_INC (R33, R35). -/
def timeIncOwn (v : Bytes) (s : State) : Nat :=
  if s.servoBusy then abBusy
  else if leVal v < 0x27F00000 ∨ 0x28100000 < leVal v then abRange else 0

/-- The effect of a PHASE_SLEW write (R36). -/
def phaseSlewEff (v : Bytes) (s : State) : State := s.startSlew (signed 8 (leVal v))

/-- The own check of PHASE_SLEW (R35, R54). -/
def phaseSlewOwn (v : Bytes) (s : State) : Nat :=
  if s.servoBusy then abBusy
  else if (signed 8 (leVal v)).natAbs > 65536000000 then abRange else 0

/-- The effect of a CELL_REF write (R48, R49, R50). -/
def cellRefEff (v : Bytes) (s : State) : State :=
  let s := s.setObj kCellRef v
  if s.mastership then s.refSwitch s.refWanted else s

/-- Layout of a TIME96 operand. -/
def time96Bytes (t : Time96) : Bytes := le 2 t.frac.toNat ++ le 4 t.nsec.toNat ++ le 6 t.sec.toNat

/-- TIME_SET (R37). -/
def timeSet (rq : Requester) (t : Time96) (s : State) : State :=
  submitWrite rq 0x2000 0x05 (time96Bytes t) (fun _ => 0) (timeSetEff (time96Bytes t)) s

/-- TIME_INC_WRITE (R33). -/
def timeIncWrite (rq : Requester) (v : W32) (s : State) : State :=
  submitWrite rq 0x2000 0x02 (le 4 v.toNat) (timeIncOwn (le 4 v.toNat)) (timeIncEff (le 4 v.toNat)) s

/-- PHASE_SLEW (R36). -/
def phaseSlew (rq : Requester) (v : W64) (s : State) : State :=
  submitWrite rq 0x2000 0x03 (le 8 v.toNat) (phaseSlewOwn (le 8 v.toNat)) (phaseSlewEff (le 8 v.toNat)) s

/-- CELL_REF_WRITE (R49). -/
def cellRefWrite (rq : Requester) (v : Byte) (s : State) : State :=
  submitWrite rq 0x2000 0x07 [v] (fun _ => 0) (cellRefEff [v]) s

/-- The PTP domain that a message belongs to, if this device tracks it: its domainNumber and its transport (R45). -/
def State.ptpDomain (s : State) (m : PtpMsg) : Option Nat :=
  let mine (d : Nat) : Bool := s.n (kDomSource d) == 1 && s.n (kDomPtpNum d) == m.domain.toNat && s.bit (kDomPtpMode d) 0 == m.ieee8023
  if mine 0 then some 0 else if mine 1 then some 1 else none

/-- A list of numbers comes first in lexical order. -/
def lexLt : List Nat → List Nat → Bool
  | a :: x, b :: y => decide (a < b) || a == b && lexLt x y
  | [], _ :: _ => true
  | _, [] => false

/-- The default dataset comparison of IEEE 1588: between grandmasters their quality and then their identity, between paths to one
grandmaster the steps removed and then the sending port. PRESUMED, log entry 74. -/
def PtpMaster.better (a b : PtpMaster) : Bool :=
  let rank (x : PtpMaster) : List Nat := [x.data.priority1.toNat, x.data.clockClass.toNat, x.data.accuracy.toNat,
    x.data.variance.toNat, x.data.priority2.toNat, x.gm]
  if a.gm = b.gm then lexLt [a.data.steps.toNat, a.sender, a.port] [b.data.steps.toNat, b.sender, b.port] else lexLt (rank a) (rank b)

/-- The master that an Announce describes. -/
def ptpMaster (m : PtpMsg) : PtpMaster := ⟨m.sender.toNat, m.senderPort.toNat, m.gmId.toNat, m.dataset⟩

/-- The message comes from the selected master's port. -/
def PtpMaster.sends (x : PtpMaster) (m : PtpMsg) : Bool := x.sender == m.sender.toNat && x.port == m.senderPort.toNat

/-- logSyncInterval −7 to 1 (R45). -/
def ptpIntervalOk (m : PtpMsg) : Bool := decide (-7 ≤ m.logInterval.toInt) && decide (m.logInterval.toInt ≤ 1)

/-- A PTP message leaves on the service port. -/
def State.ptpSend (s : State) (d : Nat) (k : PtpSend) (seq time : Nat) : State :=
  { s with time := { s.time with ptpOut := s.time.ptpOut ++ [⟨k, s.n (kDomPtpNum d), seq, time⟩] } }

/-- The domain's own delay request, one for each Sync exchange (R45). DESIGN CHOICE, log entry 84. -/
def State.ptpRequest (s : State) (d : Nat) : State :=
  let x := s.dom d
  let s := s.setDom d { x with reqSeq := (x.reqSeq + 1) % 65536, reqOpen := some x.reqSeq }
  s.ptpSend d (if s.bit (kDomPtpMode d) 1 then .pdelayReq else .delayReq) x.reqSeq 0

/-- A Sync exchange is complete: origin time `t1`, ingress `t2` (R45, R47). It is an update once a path delay has been measured; the
request for the next measurement follows. A stamp that may not be used leaves the exchange unused (R43). -/
def State.syncExchange (s : State) (d t1 t2 : Nat) (sw : Bool) : State :=
  let x := s.dom d
  let s := s.setDom d { x with t1t2 := if s.stampUsable d sw then some (t1, t2, sw) else none, sync := none }
  let s := match x.pathDelay with
    | some (p, psw) => s.domUpdate d (sw || psw) ((t1 : Int) + p - t2)
    | none => s
  s.ptpRequest d

/-- A measured path delay replaces the last one; its use of a software timestamp shows in SW_TS_USED (R43). Halves of 2^-16 ns are
rounded down. DESIGN CHOICE, log entry 73. -/
def State.setPathDelay (s : State) (d : Nat) (twice : Int) (sw : Bool) : State :=
  let s := if sw then s.setBit kTimeStatus 4 true else s
  s.setDom d { s.dom d with pathDelay := some (twice / 2, sw), reqOpen := none }

/-- An Announce selects its master when that is better than the selected one, and keeps the selected one's values (R45). The
path delay to another master is not known yet. -/
def State.ptpAnnounce (s : State) (d : Nat) (m : PtpMsg) : State :=
  let x := s.dom d
  let take (s : State) : State := (s.setN (kDomGmId d) m.gmId.toNat).setN (kDomUtcOffset d) m.utcOffset.toNat
  let select : State := take (s.setDom d { x with
    master := some (ptpMaster m), pathDelay := if s.bit (kDomPtpMode d) 1 then x.pathDelay else none, sync := none, t1t2 := none })
  match x.master with
  | none => select
  | some y =>
    if y.sends m then take (s.setDom d { x with master := some (ptpMaster m) })
    else if (ptpMaster m).better y then select
    else s

/-- A Delay_Resp that answers the open request: its egress stamp enters the FIFO, and the path delay is measured (R45). -/
def State.ptpDelayResp (s : State) (d : Nat) (m : PtpMsg) : State :=
  let x := s.dom d
  if s.bit (kDomPtpMode d) 1 ∨ x.reqOpen ≠ some m.seqId.toNat then s
  else
    let (e, s) := s.takeStamp 5 true m.software m.seqId.toNat m.egress
    match x.t1t2 with
    | some (t1, t2, sw) =>
      if s.stampUsable d (sw || e.2) then
        s.setPathDelay d (((t2 : Int) - t1) + ((time96Q m.remote : Int) - e.1)) (sw || e.2)
      else s.setDom d { x with t1t2 := none, reqOpen := none }
    | none => s

/-- A Pdelay_Req is answered in two steps: when it came and when the answer left (R45). -/
def State.ptpAnswer (s : State) (d : Nat) (m : PtpMsg) (ingress : Nat × Bool) : State :=
  if !s.bit (kDomPtpMode d) 1 then s
  else
    let (e, s) := s.takeStamp 5 true m.software m.seqId.toNat m.egress
    let sw := ingress.2 || e.2
    if !s.stampUsable d sw then s
    else
      let s := if sw then s.setBit kTimeStatus 4 true else s
      (s.ptpSend d .pdelayResp m.seqId.toNat ingress.1).ptpSend d .pdelayRespFollowUp m.seqId.toNat e.1

/-- What a PTP message does in its domain (R45). -/
def State.ptpUse (s : State) (d : Nat) (m : PtpMsg) (ingress : Nat × Bool) : State :=
  let x := s.dom d
  let selected := (x.master.map (fun y => y.sends m)).getD false
  match m.kind with
  | .announce => s.ptpAnnounce d m
  | .syncOneStep => if selected ∧ ptpIntervalOk m then s.syncExchange d (time96Q m.remote) ingress.1 ingress.2 else s
  | .syncTwoStep =>
    if selected ∧ ptpIntervalOk m then
      s.setDom d { x with sync := some (time96Q m.remote, ingress.1, m.seqId.toNat, ingress.2) } else s
  | .followUp =>
    match x.sync with
    | some (_, t2, q, sw) =>
      if selected ∧ q = m.seqId.toNat then s.syncExchange d (time96Q m.remote) t2 sw else s
    | none => s
  | .delayResp => if selected then s.ptpDelayResp d m else s
  | .pdelayReq => s.ptpAnswer d m ingress
  | .pdelayResp =>
    if !s.bit (kDomPtpMode d) 1 ∨ x.reqOpen ≠ some m.seqId.toNat then s
    else
      let (e, s) := s.takeStamp 5 true m.software m.seqId.toNat m.egress
      s.setDom d { x with pdelay := some (e.1, time96Q m.remote, ingress.1, m.seqId.toNat, e.2 || ingress.2) }
  | .pdelayRespFollowUp =>
    match x.pdelay with
    | some (t1, t2, t4, q, sw) =>
      if s.bit (kDomPtpMode d) 1 ∧ q = m.seqId.toNat ∧ s.stampUsable d sw then
        (s.setDom d { x with pdelay := none }).setPathDelay d (((t4 : Int) - t1) - ((time96Q m.remote : Int) - t2)) sw
      else s
    | none => s
  | .management => s
  | .signalling => s

/-- A PTP event message takes an ingress stamp, whatever its domain (R41). -/
def ptpEvent : PtpKind → Bool
  | .syncOneStep => true
  | .syncTwoStep => true
  | .pdelayReq => true
  | .pdelayResp => true
  | _ => false

/-- PTP_MESSAGE (R41, R42, R43, R45). DESIGN CHOICE, log entry 84. -/
def ptpMessage (m : PtpMsg) (s : State) : State :=
  if s.dev.phase ≠ .up then s
  else
    let (i, s) := if ptpEvent m.kind then s.takeStamp 5 false m.software m.seqId.toNat m.ingress else ((0, false), s)
    match s.ptpDomain m with
    | none => s
    | some d => s.ptpUse d m i

/-- TIME_EXCHANGE (R46); the halved sample is rounded down. DESIGN CHOICE, log entry 73. -/
def timeExchange (x : Exchange) (s : State) : State :=
  if s.dev.phase ≠ .up ∨ !s.paired then s
  else
    let (t1, s) := s.takeStamp 4 true x.software x.number.toNat x.t1
    let (t4, s) := s.takeStamp 4 false x.software x.number.toNat x.t4
    match s.partnerRef with
    | 0 => s
    | r + 1 => s.domUpdate r (t1.2 || t4.2) ((((time96Q x.t2 : Int) - t1.1) - ((t4.1 : Int) - time96Q x.t3)) / 2)

/-- DOM_UPDATE_TIMEOUT (R47). -/
def domUpdateTimeout (d : Fin 2) (s : State) : State :=
  if s.n (kDomState d) = 2 then s.setN (kDomState d) 3 else s

/-- DOM_HOLDOVER_EXPIRY (R47, R50). DEDUCED, log entry 2. -/
def domHoldoverExpiry (d : Fin 2) (s : State) : State :=
  if s.n (kDomState d) = 3 then (s.setN (kDomState d) 4).autoSwitch d else s

/-- What a PTP source has learned of its master is gone: none is selected, and DOM_GM_ID and DOM_UTC_OFFSET read 0 (R56). -/
def State.forgetMaster (s : State) (d : Nat) : State :=
  let s := (s.setN (kDomGmId d) 0).setN (kDomUtcOffset d) 0
  s.setDom d { s.dom d with master := none, pathDelay := none, sync := none, t1t2 := none, pdelay := none, reqOpen := none }

/-- A change of a domain's source, domainNumber or mode starts the PTP clock of the domain anew (R45, R56). -/
def State.domSource (s old : State) (d : Nat) : State :=
  let same (k : Nat) : Bool := s.obj k == old.obj k
  if s.n (kDomSource d) = 1 ∧ same (kDomSource d) ∧ same (kDomPtpNum d) ∧ same (kDomPtpMode d) then s else s.forgetMaster d

/-- The effect of a write of DOM_SOURCE, DOM_PTP_NUM, DOM_PTP_MODE or RED_PARTNER that is active at once (R48, R388). -/
def State.sourceEff (s old : State) : State := ((s.domSource old 0).domSource old 1).refFix old

/-- What a commit does to the domains (R47): a source other than OFF starts ACQUIRING, OFF clears offset and rate. -/
def State.commitDomain (s old : State) (d : Nat) : State :=
  let s := s.domSource old d
  if s.n (kDomSource d) = 0 then
    let s := (s.setN (kDomState d) 0).setI (kDomRate d) 0
    s.setDom d { s.dom d with run := 0, lastAt := none, off24 := 0, sw := false }
  else if s.n (kDomState d) = 0 then
    let s := (s.setN (kDomState d) 1).setN (kDomUpdates d) 0
    s.setDom d { s.dom d with run := 0, lastAt := none, off24 := 0, offAt := s.cellQ }
  else s

/-- The alignment of R38 at the first commit: the next tick takes the domain's time at that tick, and TIME_INC its rate, whoever
holds the servo. DEDUCED, log entry 21. DESIGN CHOICE, log entry 75. -/
def State.align (s : State) : State :=
  let r := s.n kRefEffective
  if r = 0 then s
  else if s.n (kDomState (r - 1)) = 2 then
    let v := s.incFor (r - 1)
    let q := (((s.cellQ : Int) * 256 + s.domOff24 (r - 1) + v) / 256).toNat
    let s := if 0x27F00000 ≤ v ∧ v ≤ 0x28100000 then s.incNow v else s
    { s with time := { s.time with
        stepTo := some (q / 65536 / 1000000000, q / 65536 % 1000000000, q % 65536)
        stepSw := (s.dom (r - 1)).sw } }
  else s

/-- The commit checks of R51 on the configuration to be committed; the first object that fails, as CFG_ERROR names it. -/
def timeCommitCheck (g : Nat → Bytes) : Option Nat :=
  let v k := leVal (g k)
  let s0 := v (kDomSource 0)
  let s1 := v (kDomSource 1)
  if s0 = 1 ∧ s1 = 1 ∧ v (kDomPtpNum 0) = v (kDomPtpNum 1) then some (kDomPtpNum 1)
  else if s0 = 2 ∧ s1 = 2 then some (kDomSource 1)
  else if v kRedPartner = 1 ∧ s0 ≠ 2 ∧ s1 ≠ 2 then some (kDomSource 0)
  else
    let r := v kCellRef
    let src := if r = 1 then s0 else s1
    if r ≠ 0 ∧ (src = 0 ∨ src = 2) then some kCellRef else none

end Sys2Proof.Machine
end

