-- ==== Sys2Proof/Machine/WadraTable.lean ====
section
/-! DEFINITION. The timetable of a Wadra ring as its objects hold it (R57 to R75, R88 to R92, R120, R366, R398, R520): slot
entries, map entries, channels, conflicts, the commit checks, node assignments, delays and fall-back timetables. -/

namespace Sys2Proof.Machine

/-- Number of a ring in object families. -/
def ringNo : RingId → Nat
  | .m => 0
  | .p => 1

/-- A slot entry (R89). -/
structure SlotE where
  slot : Nat
  cls : Nat
  addr : Nat
  off : Nat
  len : Nat
  plen : Nat
  recur : Nat
  phase : Nat
  ftype : Nat
  chsel : Nat
  apply : Bool
  priv : Bool
  raw : Bytes
deriving DecidableEq, Repr

/-- Reads a slot entry. -/
def parseSlot (b : Bytes) : SlotE :=
  { slot := num b 0 2 % 4096, cls := field (num b 2 2) 10 2, addr := num b 2 2 % 1024, off := num b 4 2, len := num b 6 2,
    plen := num b 8 2, recur := num b 10 1 % 8, phase := num b 11 1, ftype := num b 12 1 % 16, chsel := field (num b 13 1) 2 2,
    apply := (num b 13 1).testBit 1, priv := (num b 13 1).testBit 0, raw := b }

/-- The slot entries of TT_SLOTS. -/
def slotsOf (v : Bytes) : List SlotE := (records 16 v).map parseSlot

/-- A slot map entry (R90). -/
structure MapE where
  ring : Nat
  slot : Nat
  off : Nat
  len : Nat
  index : Nat
  sub : Nat
  rx : Bool
  node : Nat
  token : Bool
  apply : Bool
deriving DecidableEq, Repr

/-- Reads a slot map entry. A DIR other than 0 and 1 counts as TX. DESIGN CHOICE, log entry 80. -/
def parseMap (b : Bytes) : MapE :=
  { ring := field (num b 0 2) 12 1, slot := num b 0 2 % 4096, off := num b 2 2, len := num b 4 2, index := num b 6 2,
    sub := num b 8 1, rx := num b 9 1 == 1, node := num b 10 2 % 1024, token := (num b 12 1).testBit 1,
    apply := (num b 12 1).testBit 0 }

/-- The entries of SLOT_MAP. -/
def mapOf (v : Bytes) : List MapE := (records 16 v).map parseMap

/-- The addresses of NODE_ORDER, ring positions 1 to k. -/
def orderOf (v : Bytes) : List Nat := (records 2 v).map (fun r => num r 0 2 % 1024)

/-- Position of an address in a ring order, 1 to k; 0 when it is not in it. -/
def posIn (o : List Nat) (a : Nat) : Nat := if o.contains a then o.idxOf a + 1 else 0

/-- The uplink channel of position `p` of `k` is B (R62). -/
def uplinkB (k p : Nat) : Bool := decide (p ≤ (k + 1) / 2)

/-- Whether a slot occupies channel A, and channel B (R68). -/
def SlotE.channels (e : SlotE) (order : List Nat) : Bool × Bool :=
  if e.cls = 0 then
    let b := if e.chsel = 1 then false else if e.chsel = 2 then true else uplinkB order.length (posIn order e.addr)
    (!b, b)
  else (true, true)

/-- The slot occurs in a cycle (R67). -/
def SlotE.occurs (e : SlotE) (cycle : Nat) : Bool := cycle % 2 ^ e.recur == e.phase

/-- Wire time of a payload in units of 0.1 ns (R59). -/
def wire10 (plen : Nat) : Nat := (26 + plen) * 32

/-- Usable grid units per cycle (R66). -/
def gridUnits (tns : Nat) : Nat := tns / 40

/-- Slots placed at two offsets meet in time and in some cycle (R67). -/
def meets (o1 l1 r1 p1 o2 l2 r2 p2 : Nat) : Bool :=
  decide (o1 < o2 + l2) && decide (o2 < o1 + l1) && p1 % 2 ^ (min r1 r2) == p2 % 2 ^ (min r1 r2)

/-- Two slots conflict on a channel (R67, R68). -/
def SlotE.conflicts (a b : SlotE) (order : List Nat) : Bool :=
  let ca := a.channels order
  let cb := b.channels order
  (ca.1 && cb.1 || ca.2 && cb.2) && meets a.off a.len a.recur a.phase b.off b.len b.recur b.phase

/-- The first pair of a list that a relation holds of, by the second's slot id. -/
def firstPair {α : Type} (f : α → α → Bool) : List α → Option α
  | [] => none
  | a :: r => match r.find? (f a) with
    | some b => some b
    | none => firstPair f r

/-- The span of the arbitrating window ends here, in 0.1 ns (R71). -/
def arbEnd10 (last plenMax gap : Nat) : Nat := last * 10 + wire10 plenMax + gap * 10

/-- Reads of a configuration. -/
abbrev Conf := Nat → Bytes

/-- A number of a configuration. -/
def Conf.n (g : Conf) (k : Nat) : Nat := leVal (g k)

/-- One object of the configuration has the size, or is a DOMAIN object (reason 9). -/
def mapSizeOk (g : Conf) (e : MapE) : Bool :=
  match objRow? e.index e.sub with
  | none => false
  | some r =>
    let meas := (List.range 8).any (fun a => objKey e.index e.sub == kArmMeas a)
    if e.rx && meas then e.len == 4 + 12 * Conf.n g (kArmNj (e.index / 256 - 0x30))
    else r.type == .domain || r.size == e.len

/-- Reason 9 for one map entry against the slots of its ring. -/
def mapEntryOk (g : Conf) (slots : List SlotE) (e : MapE) : Bool :=
  match slots.find? (fun x => x.slot == e.slot) with
  | none => false
  | some x =>
    decide (e.off + e.len ≤ x.plen) && decide (1 ≤ e.len) && mapSizeOk g e &&
      (if e.rx then x.cls == 0 && x.addr == e.node else x.cls != 0)

/-- Two TX ranges overlap without being the same range of the same object. -/
def txClash (a b : MapE) : Bool :=
  !a.rx && !b.rx && a.ring == b.ring && a.slot == b.slot && decide (a.off < b.off + b.len) && decide (b.off < a.off + a.len) &&
    !(a.index == b.index && a.sub == b.sub && a.off == b.off && a.len == b.len)

/-- Largest node count of ring M, head included (R75). -/
def ringMMax (code : Nat) : Nat :=
  match code with
  | 0 => 96
  | 1 => 192
  | 2 => 384
  | _ => 480

/-- The privileged slots of R73. -/
def privileged (g : Conf) (ring : Nat) (e : SlotE) : Bool :=
  let anyPriv := (slotsOf (g (kTtSlots 0)) ++ slotsOf (g (kTtSlots 1))).any SlotE.priv
  if anyPriv then e.priv else ring == 0 && e.ftype == 1 && (e.cls == 1 || e.cls == 2) && e.apply

/-- The first failing check of one reason of R92 on one ring: the slot concerned; of two that clash the second, and slot 0 where no
single slot fails. DEDUCED, log entry 45. DESIGN CHOICE, log entry 79. -/
def ttReason (g : Conf) (reason ring : Nat) (kept : Bool) (old : Conf) : Option Nat :=
  let slots := slotsOf (g (kTtSlots ring))
  let order := orderOf (g (kNodeOrder ring))
  let tns := cycleNsOf (Conf.n g kBasicCycle)
  let gap := Conf.n g (kGuardGap ring)
  let a0 := Conf.n g (kArbStart ring)
  let a1 := Conf.n g (kArbLast ring)
  let bad (f : SlotE → Bool) : Option Nat := (slots.find? f).map SlotE.slot
  let some0 (b : Bool) : Option Nat := if b then some 0 else none
  match reason with
  | 1 => bad (fun e => decide (gridUnits tns < e.off + e.len) || decide (e.off < 8))
  | 2 => bad (fun e => decide (e.len * 400 < wire10 e.plen + gap * 10))
  | 3 => (firstPair (fun a b => a.conflicts b order) slots).map SlotE.slot
  | 4 =>
    if a1 < a0 ∨ a0 < 320 then some 0
    else bad (fun e => decide (e.off * 400 < arbEnd10 a1 (Conf.n g (kArbPlenMax ring)) gap) && decide (a0 * 10 < (e.off + e.len) * 400))
  | 5 => some0 ((List.range 64).any (fun c =>
      decide (255 < (slots.filter (fun e => e.occurs c && (e.channels order).1)).length) ||
      decide (255 < (slots.filter (fun e => e.occurs c && (e.channels order).2)).length)))
  | 6 =>
    match bad (fun e => e.priv && e.ftype != 1) with
    | some x => some x
    | none => some0 (ring == 0 && decide (64 <
        ((slotsOf (g (kTtSlots 0))).filter (privileged g 0) ++ (slotsOf (g (kTtSlots 1))).filter (privileged g 1)).length))
  | 7 =>
    match bad (fun e => e.slot == 0 || decide (0xFEF < e.slot) || e.cls == 0 && !order.contains e.addr) with
    | some x => some x
    | none => match firstPair (fun a b => a.slot == b.slot) slots with
      | some x => some x.slot
      | none => some0 (order.any (fun a => decide (a ≤ 1)) || (firstPair (fun a b => a == b) order).isSome ||
          order.any (fun a => (orderOf (g (kNodeOrder (1 - ring)))).contains a) ||
          decide (1022 < order.length + (orderOf (g (kNodeOrder (1 - ring)))).length))
  | 8 => bad (fun e => decide (6 < e.recur) || decide (2 ^ e.recur ≤ e.phase) || decide (2 < e.chsel) || e.cls != 0 && e.chsel != 0 ||
      e.cls != 0 && e.addr != 0 || !(e.ftype == 1 || e.ftype == 4 || e.ftype == 8) || decide (1024 < e.plen) || e.plen % 4 != 0 ||
      e.ftype == 8 && e.plen != 16 || e.ftype == 4 && e.plen != 32)
  | 9 =>
    let maps := (mapOf (g kSlotMap)).filter (fun e => e.ring == ring)
    match maps.find? (fun e => !mapEntryOk g slots e) with
    | some e => some e.slot
    | none => (firstPair txClash maps).map MapE.slot
  | 11 => some0 (ring == 0 &&
      decide (ringMMax (Conf.n g kBasicCycle) < order.length + (if Conf.n g kRedPartner = 1 then 2 else 1)))
  | 12 =>
    let hb := slots.filter (fun e => e.ftype == 8)
    if ring = 1 then (hb.head?).map SlotE.slot
    else some0 (Conf.n g kRedPartner == 1 &&
      !((hb.filter (fun e => e.cls == 1)).length == 1 && (hb.filter (fun e => e.cls == 2)).length == 1))
  | 13 =>
    let same k := g k == old k
    some0 (kept && same (kTtId ring) && !(same (kTtSlots ring) && same kSlotMap && same (kNodeOrder ring) &&
      same (kArbStart ring) && same (kArbLast ring) && same (kArbPlenMax ring) && same (kApplyLead ring)))
  | _ => none

/-- Whether reason 7 fails on a slot id or a NODE sender (R520). -/
def reason7Slot (g : Conf) (ring : Nat) : Bool :=
  let slots := slotsOf (g (kTtSlots ring))
  let order := orderOf (g (kNodeOrder ring))
  slots.any (fun e => e.slot == 0 || decide (0xFEF < e.slot) || e.cls == 0 && !order.contains e.addr) ||
    (firstPair (fun (a b : SlotE) => a.slot == b.slot) slots).isSome

/-- The object that CFG_ERROR names for a reason (R520). -/
def reasonKey (g : Conf) (reason ring : Nat) : Nat :=
  match reason with
  | 4 => kArbStart ring
  | 7 => if reason7Slot g ring then kTtSlots ring else kNodeOrder ring
  | 9 => kSlotMap
  | 11 => kNodeOrder ring
  | 13 => kTtId ring
  | _ => kTtSlots ring

/-- The first failing check of R92 in the order of reasons, ring M before ring P: reason, ring and slot. -/
def ttCheck (g : Conf) (keptM keptP : Bool) (old : Conf) : Option (Nat × Nat × Nat) :=
  ([1, 2, 3, 4, 5, 6, 7, 8, 9, 11, 12, 13].flatMap (fun r => [(r, 0), (r, 1)])).findSome? (fun p =>
    (ttReason g p.1 p.2 (if p.2 = 0 then keptM else keptP) old).map (fun slot => (p.1, p.2, slot)))

/-- TT_CHECK for a failing check (R88). -/
def ttCheckWord (reason ring slot : Nat) : Nat := reason * 2 ^ 24 + ring * 4096 + slot

/-- The check of R366 on a pair's ring M. -/
def pairMapOk (g : Conf) : Bool :=
  let slots := slotsOf (g (kTtSlots 0))
  let maps := (mapOf (g kSlotMap)).filter (fun e => e.ring == 0 && !e.rx)
  let tx (s : Nat) := (maps.filter (fun e => e.slot == s)).map (fun e => (e.off, e.len, e.index, e.sub))
  (slots.filter (fun e => e.cls == 1 && e.ftype == 1)).all (fun a =>
    slots.any (fun b => b.cls == 2 && b.slot == a.slot + 1 && b.plen == a.plen && b.ftype == a.ftype && b.apply == a.apply &&
      b.priv == a.priv && (tx a.slot).all (fun r => (tx b.slot).contains r) && (tx b.slot).all (fun r => (tx a.slot).contains r)))

/-! ### Delays (R102) -/

/-- D_in of position `p` on channel A and B, ps: link delays 1 to k + 1 and forwarding delays of positions 1 to k. -/
def dinA (links fA : List Int) (p : Nat) : Int := (links.take p).sum + (fA.take (p - 1)).sum
def dinB (links fB : List Int) (p : Nat) : Int := (links.drop p).sum + (fB.drop p).sum

/-- The link delays that round-trip samples from one end give, nearest link first. A node that has given none stands as part of the
link behind it. -/
def linksFrom : Int → Int → List (Option Int × Int) → List Int
  | _, _, [] => []
  | prev, f, (some rho, g) :: r => (rho - prev - f) / 2 :: linksFrom rho g r
  | prev, f, (none, _) :: r => 0 :: linksFrom prev f r

/-! ### Node assignment and fall-back (R91, R120) -/

/-- The node reads the slot (R91): a range of it is mapped to it, or it is a safety node and the slot a head's SAFETY slot. -/
def readsSlot (maps : List MapE) (safetyNode : Bool) (node : Nat) (e : SlotE) : Bool :=
  maps.any (fun x => !x.rx && x.slot == e.slot && x.node == node) || safetyNode && e.cls != 0 && e.ftype == 4

/-- Whether a SAFE_CONN record of KIND 1 names a node (R91). -/
def safetyNode (g : Conf) (ring node : Nat) : Bool :=
  (records 16 (g kSafeConn)).any (fun r => num r 5 1 == 1 && num r 2 2 % 1024 == node && num r 4 1 == ring)

/-- The slots a node sends, in the order of TT_SLOTS. -/
def sentBy (g : Conf) (ring node : Nat) : List SlotE :=
  (slotsOf (g (kTtSlots ring))).filter (fun e => e.cls == 0 && e.addr == node)

/-- NODE_ASSIGN for a node (R91). -/
def assignFor (g : Conf) (ring node : Nat) : Bytes :=
  let maps := (mapOf (g kSlotMap)).filter (fun e => e.ring == ring)
  let sn := safetyNode g ring node
  let es := (slotsOf (g (kTtSlots ring))).filter (fun e => e.cls == 0 && e.addr == node || readsSlot maps sn node e)
  let rs := maps.filter (fun x => !x.rx && x.node == node)
  le 2 node ++ le 2 es.length ++ le 2 rs.length ++ le 2 (Conf.n g (kTtId ring)) ++ (es.map SlotE.raw).flatten ++
    (rs.map (fun x => le 2 x.slot ++ le 2 x.off ++ le 2 x.len ++ le 2 (b01 x.apply))).flatten

/-- A slot placed on a path: offset, length, recurrence, phase. -/
abbrev Placed := Nat × Nat × Nat × Nat

/-- The first offset from `o` on at which a slot meets nothing placed; `fuel` bounds the search (R120). -/
def placeAt (placed : List Placed) (e : SlotE) : Nat → Nat → Nat
  | 0, o => o
  | f + 1, o =>
    if placed.any (fun q => meets o e.len e.recur e.phase q.1 q.2.1 q.2.2.1 q.2.2.2) then placeAt placed e f (o + 1) else o

/-- Places the NODE slots of a path in their order: the placed intervals and each slot's new offset. -/
def placeAll (units : Nat) : List Placed → List SlotE → List Placed × List (SlotE × Nat)
  | placed, [] => (placed, [])
  | placed, e :: r =>
    let o := placeAt placed e (units + 1) e.off
    let (pl, l) := placeAll units (placed ++ [(o, e.len, e.recur, e.phase)]) r
    (pl, (e, o) :: l)

/-- Inserts a slot by OFFSET, then channel A before B, then slot id (R120). -/
def insertSlot (order : List Nat) (e : SlotE) : List SlotE → List SlotE
  | [] => [e]
  | x :: r =>
    let key (y : SlotE) := (y.off, b01 (y.channels order).2, y.slot)
    let ke := key e
    let kx := key x
    if ke.1 < kx.1 ∨ ke.1 = kx.1 ∧ (ke.2.1 < kx.2.1 ∨ ke.2.1 = kx.2.1 ∧ ke.2.2 < kx.2.2) then e :: x :: r
    else x :: insertSlot order e r

/-- The readers of APPLY slots of the head meet R74 on a path: `din` is the D_in of the outward leg, ps. -/
def r74Ok (g : Conf) (ring : Nat) (on : Nat → Bool) (din : Nat → Int) : Option Nat :=
  let maps := (mapOf (g kSlotMap)).filter (fun e => e.ring == ring)
  let tns := cycleNsOf (Conf.n g kBasicCycle)
  let lead := Conf.n g (kApplyLead ring)
  ((slotsOf (g (kTtSlots ring))).filter (fun e => e.apply && e.ftype == 1 && e.cls != 0)).findSome? (fun e =>
    let readers := ((maps.filter (fun x => !x.rx && x.slot == e.slot)).map MapE.node).filter on
    if readers.any (fun n => decide (((e.off * 40000 + wire10 e.plen * 100 : Nat) : Int) + din n >
        (tns * 1500 : Nat) - ((lead * 1000 : Nat) : Int))) then some e.slot else none)

/-- The failure of one path (R120): an offset past the cycle, an arbitrating window past ARB_LAST, or R74 on the outward leg. -/
def pathFailure (g : Conf) (ring units arb : Nat) (placed : List (SlotE × Nat)) (on : Nat → Bool) (din : Nat → Int) :
    Option (Nat × Nat) :=
  match placed.find? (fun x => decide (units < x.2 + x.1.len)) with
  | some x => some (1, x.1.slot)
  | none => if Conf.n g (kArbLast ring) < arb then some (2, 0) else (r74Ok g ring on din).map (fun sl => (3, sl))

/-- The fall-back timetable for a break index, path E before path W (R120, R519): the first failure and its slot, the starts of the
arbitrating window on the paths, and the new offsets. -/
def fallbackFor (g : Conf) (ring b : Nat) (din : Nat → Bool → Int) : Nat × Nat × Nat × Nat × List (Nat × Bool × Nat) :=
  let order := orderOf (g (kNodeOrder ring))
  let slots := slotsOf (g (kTtSlots ring))
  let units := gridUnits (cycleNsOf (Conf.n g kBasicCycle))
  let onE (a : Nat) : Bool := b == 0 || decide (posIn order a < b)
  let heads : List Placed := (0, 8, 0, 0) :: (slots.filter (fun e => e.cls != 0)).map (fun e => (e.off, e.len, e.recur, e.phase))
  let path (east : Bool) := (slots.filter (fun e => e.cls == 0 && (onE e.addr == east))).foldl (fun l e => insertSlot order e l) []
  let (plE, lE) := placeAll units heads (path true)
  let (plW, lW) := placeAll units heads (path false)
  let a0 := Conf.n g (kArbStart ring)
  let arb (l : List (SlotE × Nat)) (pl : List Placed) : Nat :=
    ((pl.zip ((heads.map (fun h => h.1)) ++ l.map (fun x => x.1.off))).filter (fun x => decide (x.2 * 40 < a0))).foldl
      (fun m x => max m ((x.1.1 + x.1.2.1) * 40)) a0
  let moved := lE.map (fun x => (x.1.slot, false, x.2)) ++ lW.map (fun x => (x.1.slot, true, x.2))
  let failed := (pathFailure g ring units (arb lE plE) lE onE (fun n => din n false)).or
    (pathFailure g ring units (arb lW plW) lW (fun n => !onE n) (fun n => din n true))
  let f := failed.getD (0, 0)
  (f.1, f.2, arb lE plE, arb lW plW, moved)

end Sys2Proof.Machine
end

