-- ==== Sys2Proof/Machine/Wadra.lean ====
section
/-! DEFINITION. The head's ring controllers (R59 to R127): frames and their validity, delay measurement, the integration of
nodes, slot contents, violations and exclusion, and healing. -/

namespace Sys2Proof.Machine

/-! ### Access to rings and nodes -/

/-- The controller of a ring. -/
def State.ring (s : State) : RingId → RingSt
  | .m => s.rings.m
  | .p => s.rings.p

/-- Replaces the controller of a ring. -/
def State.setRing (s : State) (r : RingId) (x : RingSt) : State :=
  match r with
  | .m => { s with rings := { s.rings with m := x } }
  | .p => { s with rings := { s.rings with p := x } }

/-- Changes the controller of a ring. -/
def State.onRing (s : State) (r : RingId) (f : RingSt → RingSt) : State := s.setRing r (f (s.ring r))

/-- A port at which nothing has happened. -/
def freshPort : PortSt := { sync := true, looped := false, upSent := false }

/-- A node at its power-on (R96, R100); its serial number and its timing are its own and free. DEDUCED, log entry 61. -/
def freshNode (r : RingId) (a : Nat) : NodeSt :=
  { ring := r, addr := a, serial := Config.nodeSerial (ringNo r) a % 2 ^ 64, timing := fit 16 (Config.nodeTiming (ringNo r) a),
    delay := [], assign := [], fallback := [], err := zeros 64,
    delayPending := none, state := .listen, cs := .listen, attempt := 0, startsSent := 0, syncRun := 0, lastSync := none,
    heardA := false, heardB := false, lineA := none, lineB := none, hasTime := false, timeOff := none, lastDown := none, fbt := none,
    ttId := 0, silentIn := none, senderCtr := 0, inb := [], insA := [], insB := [], busyE := 0, busyW := 0, own := [], line := [],
    delayAnswer := [], east := freshPort, west := freshPort, event := none, more := [], resends := 0, cmdP := none, cmdH := none,
    aliveP := false, aliveH := false, torque := false, ss1 := false }

/-- The node at an address of a ring. DEDUCED, log entry 61. -/
def State.node (s : State) (r : RingId) (a : Nat) : NodeSt :=
  (s.rings.nodes.find? (fun n => n.ring = r ∧ n.addr = a)).getD (freshNode r a)

/-- The list with a node's entry replaced, or added. -/
def putNode (e : NodeSt) : List NodeSt → List NodeSt
  | [] => [e]
  | n :: l => if n.ring = e.ring ∧ n.addr = e.addr then e :: l else n :: putNode e l

/-- Replaces a node. -/
def State.setNode (s : State) (n : NodeSt) : State := { s with rings := { s.rings with nodes := putNode n s.rings.nodes } }

/-- The active configuration as a function of the key. -/
def State.conf (s : State) : Conf := s.obj

/-- The slot entries of a ring. -/
def State.slots (s : State) (r : RingId) : List SlotE := slotsOf (s.obj (kTtSlots (ringNo r)))

/-- The ring order. -/
def State.order (s : State) (r : RingId) : List Nat := orderOf (s.obj (kNodeOrder (ringNo r)))

/-- The map entries of a ring. -/
def State.maps (s : State) (r : RingId) : List MapE := (mapOf (s.obj kSlotMap)).filter (fun e => e.ring == ringNo r)

/-- A ring status bit. -/
def State.ringBit (s : State) (r : RingId) (b : Nat) (v : Bool) : State := s.setBit (kRingStatus (ringNo r)) b v

/-- RING_STATE as it reads (R125). -/
def State.ringState (s : State) (r : RingId) : Nat :=
  let x := s.ring r
  match x.cs with
  | .pass => 0
  | .listen => 1
  | .coldstart => 2
  | .backoff => 3
  | .integrate => 4
  | .running => if x.fbt.isSome then 7 else if x.oper then 6 else 5

/-- NSTATE of a NODE_STATUS record (R127). -/
def NodeRec.code (n : NodeRec) : Nat :=
  if n.barred then 6
  else if !n.heard then 0xFF
  else match n.state with
    | .listen => 0
    | .locked => 1
    | .measured => 2
    | .assigned => 3
    | .integrated => 4
    | .excluded => 5

/-- Exclusions of a node within the last 3,600 s at a cell time, ns (R113, R127). -/
def NodeRec.recent (n : NodeRec) (now : Nat) : List Nat := n.exclusions.filter (fun t => decide (now < t + 3600000000000))

/-- A NODE_STATUS record (R127). -/
def NodeRec.bytes (n : NodeRec) (now : Nat) : Bytes :=
  le 2 n.addr ++ le 1 n.code ++ le 1 n.consec ++ le 2 n.viol ++ le 1 (min 255 (n.recent now).length) ++ [0] ++
    leInt 4 n.writtenA ++ leInt 4 n.writtenB

/-- NODE_STATUS of a ring (R125, R127). -/
def State.nodeStatus (s : State) (r : RingId) : Bytes := ((s.ring r).nodes.map (fun n => n.bytes s.cellNs)).flatten

/-- The record of a node that the head has not heard. -/
def freshRec (a : Nat) : NodeRec :=
  { addr := a, heard := false, state := .listen, barred := false, consec := 0, viol := 0, exclusions := [], writtenA := 0,
    writtenB := 0, compA := 0, compB := 0, fwdA := 0, fwdB := 0, rhoA := none, rhoB := none, offRun := 0, sawGood := false,
    sawBad := false, sends := false, substituted := false, rejoining := false, dup := false }

/-- What the head holds of an address. -/
def RingSt.rec? (x : RingSt) (a : Nat) : Option NodeRec := x.nodes.find? (fun n => n.addr == a)

/-- Changes the record of an address. -/
def RingSt.onRec (x : RingSt) (a : Nat) (f : NodeRec → NodeRec) : RingSt :=
  { x with nodes := x.nodes.map (fun n => if n.addr = a then f n else n) }

/-- PORT_ERR and NODE_ERR: one counter more, saturating; `port` 0 east, 1 west (R114). -/
def errInc (v : Bytes) (port off : Nat) : Bytes :=
  patch v (32 * port + off) (le 4 (satInc 32 (num v (32 * port + off) 4)))

/-- Counts an error of a ring port of the head. -/
def State.portErr (s : State) (r : RingId) (port off : Nat) : State :=
  s.setObj (kPortErr (ringNo r)) (errInc (s.obj (kPortErr (ringNo r))) port off)

/-! ### Frames -/

/-- CRC-16 of a header (R80). DEDUCED, log entry 62. -/
def hcrc (b : Bytes) : Nat := crcMsb 16 0x1021 b 0xFFFF

/-- The header checks of R82 after HCRC: TYPE, PLEN, RING and length, payload CRC-32 and end set. DEDUCED, log entry 62. -/
def frameBodyOk (b : Bytes) (ring : Nat) (endOk : Bool) : Bool :=
  let w := num b 0 2
  let plen := num b 8 2
  decide (field w 10 4 ≤ 9) && decide (plen ≤ 1024) && plen % 4 == 0 && field w 15 1 == ring &&
    b.length == 20 + plen && num b (16 + plen) 4 == crc32c (b.take (16 + plen)) && endOk

/-- Reads a valid frame (R76). DEDUCED, log entry 62. -/
def parseFrame (r : RingId) (b : Bytes) : Frame :=
  let w := num b 0 2
  { ring := r, ch := if w.testBit 14 then .b else .a, type := BitVec.ofNat 4 (w / 1024), addr := BitVec.ofNat 10 w,
    slot := BitVec.ofNat 12 (num b 2 2), seq := BitVec.ofNat 32 (num b 4 4), age := BitVec.ofNat 8 (num b 10 1),
    flags := BitVec.ofNat 8 (num b 11 1), mpos := BitVec.ofNat 16 (num b 12 2), payload := (b.drop 16).take (num b 8 2) }

/-- Bytes of a frame's header and payload with both CRCs (R76, R80, R81). -/
def frameBytes (f : Frame) : Bytes :=
  let w := f.addr.toNat + 1024 * f.type.toNat + (if f.ch = .b then 16384 else 0) + (if f.ring = .p then 32768 else 0)
  let h := le 2 w ++ le 2 f.slot.toNat ++ le 4 f.seq.toNat ++ le 2 f.payload.length ++ [f.age, f.flags] ++ le 2 f.mpos.toNat
  let h := h ++ le 2 (hcrc h)
  h ++ f.payload ++ le 4 (crc32c (h ++ f.payload))

/-- The ring and port number of a reception port. -/
def portRing : Port → Option (RingId × Nat)
  | .me => some (.m, 0)
  | .mw => some (.m, 1)
  | .pe => some (.p, 0)
  | .pw => some (.p, 1)
  | .rl => none
  | .sv => none

/-- Link delays 1 to k + 1 from the samples of both ends: each from the end with the fewest nodes between (R102). A unit of a pair
adds the other head unit, which forwards in 240 ns (R63), behind the last node. -/
def RingSt.links (x : RingSt) (order : List Nat) : List Int :=
  let recs := order.filterMap x.rec?
  let k := recs.length
  let hasB := recs.any (fun n => n.rhoB.isSome)
  let hasA := recs.any (fun n => n.rhoA.isSome)
  let far (b : Bool) : List (Option Int × Int) := match x.headRho with
    | some h => if b then [] else [(some h, 0)]
    | none => []
  let fromA := linksFrom 0 0 (recs.map (fun n => (n.rhoA, n.fwdA + n.fwdB)) ++ far (!hasA))
  let fromB := linksFrom 0 0 (recs.reverse.map (fun n => (n.rhoB, n.fwdA + n.fwdB)) ++ far (!hasB))
  (List.range (k + 1)).map (fun i =>
    let a := fromA.getD i 0
    let b := fromB.getD (k - i) 0
    if i = k then (if hasB then b else a) else if i = 0 then (if hasA then a else b)
    else if hasA && (decide (i ≤ k - i) || !hasB) then a else b)

/-- Offset of a slot in the timetable in force (R120, R121), and whether it is on channel B then. -/
def State.slotOffset (s : State) (r : RingId) (e : SlotE) : Nat :=
  match (s.ring r).fbt with
  | some b =>
    match (s.ring r).fallbacks.find? (fun f => f.b == b) with
    | some f => match f.slots.find? (fun x => x.1 == e.slot) with
      | some x => x.2.2
      | none => e.off
    | none => e.off
  | none => e.off

/-- Start of the arbitrating window in force on path E or W (R71, R120). -/
def State.arbStart (s : State) (r : RingId) (east : Bool) : Nat :=
  match (s.ring r).fbt with
  | some b => (((s.ring r).fallbacks.find? (fun f => f.b == b)).map (fun f => if east then f.arbE else f.arbW)).getD
      (s.n (kArbStart (ringNo r)))
  | none => s.n (kArbStart (ringNo r))

/-- Position of an address in the numbering of R119: H_E or a single head 0, H_W k + 1. -/
def State.healPos (s : State) (r : RingId) (a : Nat) (west : Bool) : Nat :=
  let o := s.order r
  if o.contains a then posIn o a
  else if s.n (kHeadPos (ringNo r)) = 0 then (if west then o.length + 1 else 0)
  else
    let own := a == s.ownAddr
    let ownE := s.n (kHeadPos (ringNo r)) == 1
    if own == ownE then 0 else o.length + 1

/-- Loopback delay of the node at a ring position, ps: NODE_TIMING, or 240 ns for a head unit (R93, R100). -/
def State.loopback (s : State) (r : RingId) (pos : Nat) (west : Bool) : Int :=
  match (s.order r)[pos - 1]? with
  | some a => if pos = 0 then 240000 else ((num (s.node r a).timing (if west then 0 else 4) 4 : Nat) : Int)
  | none => 240000

/-- D_in of this unit at its east port (`b`, the end of channel B) or its west port, ps (R64, R102, R107). A unit behind the other
head unit adds that unit and link 0. In a fall-back timetable the frames of a path come back from its loop (R118, R119).
DEDUCED, log entry 62. -/
def State.headDin (s : State) (r : RingId) (b : Bool) : Int :=
  let x := s.ring r
  let order := s.order r
  let k := order.length
  let recs := order.filterMap x.rec?
  let ls := x.links order
  let fA := recs.map NodeRec.fwdA
  let fB := recs.map NodeRec.fwdB
  let hp := s.n (kHeadPos (ringNo r))
  let more : Int := if hp = 1 ∧ !b ∨ hp = 2 ∧ b then 240000 + (Config.link0 (ringNo r) : Int) else 0
  let loopAt (west : Bool) (l : Nat) : Nat :=
    ((x.loops.find? (fun y => y.west == west && !y.up)).map (fun y => s.healPos r y.addr west)).getD l
  match x.fbt, b with
  | none, false => dinA ls fA (k + 1) + more
  | none, true => dinB ls fB 0 + more
  -- b = 0: the frames of path E reach H_W on their outward leg (R519)
  | some i, true =>
    let p := loopAt false (if i = 0 then k + 1 else i - 1)
    dinA ls fA p + s.loopback r p true + (ls.take p).sum + (fB.take (p - 1)).sum + more
  | some 0, false => dinA ls fA (k + 1)
  | some i, false =>
    let p := loopAt true i
    dinB ls fB p + s.loopback r p false + (ls.drop p).sum + (fA.drop p).sum + more

/-- Time of a frame's stamp `q` (2^-16 ns) at a port (0 east, 1 west) against its start at line offset 0 of a cycle, ps. -/
def State.lineOffset (s : State) (r : RingId) (port cycle q : Nat) : Int :=
  (q : Int) * 1000 / 65536 - ((cycle * s.tns * 1000 : Nat) : Int) - s.headDin r (port = 0)

/-- The cycle in whose acceptance window of R107 a frame of a slot lies: this one, or the one before for a frame that crosses the
cycle start. A frame of an unknown slot has no window. DEDUCED, log entry 62. -/
def State.slotCycle (s : State) (r : RingId) (port : Nat) (f : Frame) (q : Nat) : Option Nat :=
  let off := if f.slot = 0 then some 0
    else ((s.slots r).find? (fun e => e.slot == f.slot.toNat)).map (s.slotOffset r)
  match off with
  | none => some s.cycle
  | some o =>
    let inWindow (c : Nat) : Bool :=
      decide ((s.lineOffset r port c q - ((o * 40000 : Nat) : Int)).natAbs ≤ s.n (kPrecision (ringNo r)) * 1000)
    if inWindow s.cycle then some s.cycle else if inWindow (s.cycle - 1) then some (s.cycle - 1) else none

/-- A frame of the arbitrating window starts in its span (R71, R107). DEDUCED, log entry 62. -/
def State.inSpan (s : State) (r : RingId) (port q : Nat) : Bool :=
  let i := ringNo r
  let o := s.lineOffset r port s.cycle q
  decide (((s.arbStart r (port = 0) * 1000 : Nat) : Int) - (s.n (kPrecision i) * 1000 : Nat) ≤ o) &&
    decide (o < ((arbEnd10 (s.n (kArbLast i)) (s.n (kArbPlenMax i)) (s.n (kGuardGap i)) * 100 : Nat) : Int))

/-- The frame lies in a slot (R77). -/
def slotted (t : Nat) : Bool := t ≤ 4 || t == 8

/-- The frame lies in the arbitrating window (R77). -/
def arbitrated (t : Nat) : Bool := t == 5 || t == 7 || t == 9

/-- Inbound slot state. -/
def inSlotOf (l : List InSlot) (slot : Nat) : InSlot :=
  (l.find? (fun i => i.slot == slot)).getD { slot := slot, payload := [], seq := 0, age := 0, kept := none, taken := none }

/-- Inbound slot state of the head. -/
def RingSt.inSlot (x : RingSt) (slot : Nat) : InSlot := inSlotOf x.inb slot

/-- Puts an inbound slot. -/
def putIn (e : InSlot) : List InSlot → List InSlot
  | [] => [e]
  | i :: l => if i.slot = e.slot then e :: l else i :: putIn e l

/-- Outbound slot state. -/
def RingSt.outSlot (x : RingSt) (slot : Nat) : OutSlot :=
  (x.out.find? (fun o => o.slot == slot)).getD
    { slot := slot, building := none, complete := none, fresh := false, lastData := none, sent := none, sel := none }

/-- Puts an outbound slot. -/
def putOut (e : OutSlot) : List OutSlot → List OutSlot
  | [] => [e]
  | o :: l => if o.slot = e.slot then e :: l else o :: putOut e l

/-- SEQ of R78 for the present cycle. -/
def State.seq32 (s : State) : Nat := s.cycle % 2 ^ 32

/-- Duplicate and SEQ rules of R117 for a DATA, REPEAT or NULL frame that belongs to a cycle: the copies kept, and the offset in the
port's counters of the one that counts it as discarded. -/
def keepRule (l : List InSlot) (cycle : Nat) (f : Frame) : List InSlot × Option Nat :=
  let i := inSlotOf l f.slot.toNat
  if f.seq.toNat ≠ cycle % 2 ^ 32 then (l, some 16)
  else if f.type = 2 then (l, none)
  else if i.kept = some f.seq.toNat then (l, some 20)
  else (putIn { i with kept := some f.seq.toNat } l, none)

/-- The rule at a port of the head. -/
def State.keepCopy (s : State) (r : RingId) (port cycle : Nat) (f : Frame) : State :=
  match keepRule (s.ring r).inb cycle f with
  | (_, some off) => s.portErr r port off
  | (l, none) => s.onRing r (fun x => { x with inb := l })

/-! ### Egresses, own frames and insertion buffers (R59, R71, R76 to R79, R108) -/

/-- The other side of a station. -/
def otherSide : Side → Side
  | .east => .west
  | .west => .east

/-- The egress of a channel: A leaves east, B leaves west (R60). -/
def egressOf : Channel → Side
  | .a => .east
  | .b => .west

/-- Number of a side: 0 east, 1 west. -/
def sideNo : Side → Nat
  | .east => 0
  | .west => 1

/-- The head's port of a side. -/
def RingSt.port (x : RingSt) : Side → PortSt
  | .east => x.east
  | .west => x.west

/-- Replaces a port. -/
def RingSt.setPort (x : RingSt) (sd : Side) (p : PortSt) : RingSt :=
  match sd with
  | .east => { x with east := p }
  | .west => { x with west := p }

/-- A node's port of a side. -/
def NodeSt.port (x : NodeSt) : Side → PortSt
  | .east => x.east
  | .west => x.west

/-- Replaces a node's port. -/
def NodeSt.setPort (x : NodeSt) (sd : Side) (p : PortSt) : NodeSt :=
  match sd with
  | .east => { x with east := p }
  | .west => { x with west := p }

/-- Cell time of the present cycle start, 0.1 ns. -/
def State.cycle10 (s : State) : Int := ((s.cycle * s.tns * 10 : Nat) : Int)

/-- Time that `len` bytes of header, payload and CRC take on the line with the start and end sets and four idle code-groups, 0.1 ns
(R59). -/
def lineTime10 (len : Nat) : Int := (((len + 10) * 32 : Nat) : Int)

/-- Buffered frames leave in order, each as soon as the egress is free, none after `limit` (R71); times in 0.1 ns. -/
def drainBuf (limit now : Int) : Int → List Bytes → Int × List Bytes
  | busy, [] => (busy, [])
  | busy, b :: l => if busy ≤ now ∧ busy ≤ limit then drainBuf limit now (busy + lineTime10 b.length) l else (busy, b :: l)

/-- A frame that arrives for an egress at which it would start at `at10`: cut through when nothing waits and the egress is free, else
buffered when 2,048 bytes have room for it. A frame that finds no room is dropped, and no counter counts it (R71, R72).
DESIGN CHOICE, log entry 76. -/
def bufferIn (limit at10 busy : Int) (buf : List Bytes) (b : Bytes) : Int × List Bytes :=
  let (busy, buf) := drainBuf limit at10 busy buf
  if buf.isEmpty ∧ busy ≤ at10 then (at10 + lineTime10 b.length, [])
  else if queueLen buf + b.length ≤ 2048 then (busy, buf ++ [b])
  else (busy, buf)

/-- The latest start of a frame at a station in the present cycle, ARB_LAST in its line offset (R71); `dout` in 0.1 ns. -/
def State.arbLimit (s : State) (r : RingId) (dout : Int) : Int := s.cycle10 + ((s.n (kArbLast (ringNo r)) * 10 : Nat) : Int) + dout

/-- A frame arrives at the head for an egress. -/
def RingSt.forward (x : RingSt) (limit : Int) (sd : Side) (at10 : Int) (b : Bytes) : RingSt :=
  match sd with
  | .east => let y := bufferIn limit at10 x.busyE x.insA b; { x with busyE := y.1, insA := y.2 }
  | .west => let y := bufferIn limit at10 x.busyW x.insB b; { x with busyW := y.1, insB := y.2 }

/-- A frame arrives at a node for an egress. -/
def NodeSt.forward (n : NodeSt) (limit : Int) (sd : Side) (at10 : Int) (b : Bytes) : NodeSt :=
  match sd with
  | .east => let y := bufferIn limit at10 n.busyE n.insA b; { n with busyE := y.1, insA := y.2 }
  | .west => let y := bufferIn limit at10 n.busyW n.insB b; { n with busyW := y.1, insB := y.2 }

/-- The egress by which a frame leaves that would leave by `sd`: a looping station turns it back at its live port (R118). -/
def turnedBack (dead : PortSt) (sd : Side) : Side := if dead.looped then otherSide sd else sd

/-- The port of the other head unit's origin at this unit, as SINGLE_HEAD takes it over (R61, R124). -/
def State.partnerSide (s : State) (r : RingId) : Option Side :=
  match s.n (kHeadPos (ringNo r)) with
  | 1 => some .west
  | 2 => some .east
  | _ => none

/-- The channels on which this unit originates, each with the port by which it leaves: its own, or both with a single head; a unit
that looped sends for the dead side at the live port; a survivor sends on its own side alone (R61, R68, R118, R119, R124). -/
def State.originLegs (s : State) (r : RingId) : List (Channel × Side) :=
  let x := s.ring r
  let leg (c : Channel) : Channel × Side := (c, turnedBack (x.port (egressOf c)) (egressOf c))
  let both : List (Channel × Side) := [leg .a, leg .b].filter (fun p => p.2 == egressOf p.1)
  let alone : Bool := s.bit (kRingStatus (ringNo r)) 5 && !x.survivor
  match s.n (kHeadPos (ringNo r)) with
  | 1 => if alone then both else [leg .a]
  | 2 => if alone then both else [leg .b]
  | _ => both

/-- The ports out of which this unit sends its head slots. -/
def State.originSides (s : State) (r : RingId) : List Side := (s.originLegs r).map Prod.snd

/-- How much earlier than its line offset a frame of the partner's origin channel leaves: the delay of link 0 and the partner's
240 ns (R124), 0.1 ns. -/
def State.early10 (s : State) (r : RingId) (sd : Side) : Int :=
  if s.partnerSide r = some sd ∧ s.bit (kRingStatus (ringNo r)) 5 then 2400 + (Config.link0 (ringNo r) : Int) / 100 else 0

/-- This unit sends in its slots of a ring: it runs the grid, and its ports are out of pass-through (R63, R97). -/
def State.sends (s : State) (r : RingId) : Bool :=
  !s.pair.passThrough && (s.ring r).cs == .running && decide ((s.ring r).syncFrom ≤ s.cycle)

/-- The header of an own frame (R76, R78, R79): own address, MPOS from the cycle number except in START, and FBT in a fall-back. -/
def State.ownFrame (s : State) (r : RingId) (ch : Channel) (type slot seq age flags : Nat) (payload : Bytes) : Frame :=
  { ring := r, ch := ch, type := BitVec.ofNat 4 type, addr := BitVec.ofNat 10 s.ownAddr, slot := BitVec.ofNat 12 slot,
    seq := BitVec.ofNat 32 seq, age := BitVec.ofNat 8 age,
    flags := BitVec.ofNat 8 (flags + (if (s.ring r).fbt.isSome then 4 else 0)),
    mpos := if type = 6 then 0 else BitVec.ofNat 16 s.cycle, payload := payload }

/-- An own frame in progress takes its egress (R108). -/
def putOwn (l : List OwnFrame) (o : OwnFrame) : List OwnFrame := l.filter (fun x => x.side ≠ o.side) ++ [o]

/-- The head starts an own frame at an egress, at `at10`, within its guardian window (R108). -/
def RingSt.send (x : RingSt) (sd : Side) (kind : Nat) (at10 opens closes : Int) (f : Frame) : RingSt :=
  let x : RingSt := { x with own := putOwn x.own ⟨sd, kind, opens, closes⟩, line := x.line ++ [f] }
  let free := at10 + lineTime10 (20 + f.payload.length)
  match sd with
  | .east => { x with busyE := free }
  | .west => { x with busyW := free }

/-- A node starts an own frame. -/
def NodeSt.send (n : NodeSt) (sd : Side) (kind : Nat) (at10 opens closes : Int) (f : Frame) : NodeSt :=
  let n : NodeSt := { n with own := putOwn n.own ⟨sd, kind, opens, closes⟩, line := n.line ++ [f] }
  let free := at10 + lineTime10 (20 + f.payload.length)
  match sd with
  | .east => { n with busyE := free }
  | .west => { n with busyW := free }

/-- What a slot sends, out of the legs that carry it; the window of R108 lies around its offset in grid units. -/
def State.sendSlot (s : State) (r : RingId) (slot type age off flags : Nat) (payload : Bytes) (legs : List (Channel × Side)) : State :=
  let prec : Int := ((s.n (kPrecision (ringNo r)) * 10 : Nat) : Int)
  legs.foldl (fun (s : State) l =>
    let at10 := s.cycle10 + ((off * 400 : Nat) : Int) - s.early10 r l.2
    let f := s.ownFrame r l.1 type slot (s.cycle % 2 ^ 32) age flags payload
    s.setRing r ((s.ring r).send l.2 0 at10 (at10 - prec) (at10 + (wire10 payload.length : Nat) + prec) f)) s

/-- The window of the arbitrating window at a station (R108), 0.1 ns. -/
def State.arbWindow (s : State) (r : RingId) (east : Bool) (dout : Int) : Int × Int :=
  let i := ringNo r
  let prec : Int := ((s.n (kPrecision i) * 10 : Nat) : Int)
  (s.cycle10 + ((s.arbStart r east * 10 : Nat) : Int) + dout - prec,
    s.cycle10 + ((s.n (kArbLast i) * 10 + wire10 (s.n (kArbPlenMax i)) : Nat) : Int) + dout + prec)

/-! ### Reception (R61, R63, R82, R107, R117) -/

/-- The head forwards a frame that arrives at a port: a unit of a pair on the channel that it does not consume. Acting for its
partner, or alone, it consumes both; with link 0 broken H_E consumes what comes back at its east port (R61, R119, R124, R519). -/
def State.headForwards (s : State) (r : RingId) (port : Nat) : Bool :=
  let x := s.ring r
  !s.bit (kRingStatus (ringNo r)) 5 && !x.survivor &&
    match s.n (kHeadPos (ringNo r)) with
    | 1 => port == 0 && x.fbt != some 0
    | 2 => port == 1
    | _ => false

/-- The frame is a START of this unit: it is consumed where it comes back (R96). -/
def State.ownStart (s : State) (f : Frame) : Bool :=
  f.type == 6 && f.addr.toNat == s.ownAddr && num f.payload 0 8 == s.sec.fuses.serial

/-- The head forwards what it does not consume, valid or not (R63), 240 ns after it arrived (R93). -/
def State.bufferForward (s : State) (r : RingId) (port : Nat) (b : Bytes) (q : Nat) : State :=
  let through : Side := if port = 0 then .west else .east
  if !s.headForwards r port then s
  else
    let sd := turnedBack ((s.ring r).port through) through
    s.onRing r (fun x => x.forward (s.arbLimit r 0) sd ((q : Int) * 10 / 65536 + 2400) b)

/-- A frame with a valid header and body at a port of the head: window, span and duplicates. -/
def State.acceptFrame (s : State) (r : RingId) (p : Nat) (f : Frame) (q : Nat) : State :=
  let t := f.type.toNat
  let checked := (s.ring r).cs == .running && (s.ring r).measured
  let cycle := if checked && slotted t then s.slotCycle r p f q else some s.cycle
  match cycle with
  | none => s.portErr r p 8
  | some c =>
    if checked && arbitrated t && !s.inSpan r p q then s.portErr r p 8
    else if t = 1 ∨ t = 2 ∨ t = 3 then s.keepCopy r p c f
    else s

/-- A frame at a port of this device. DEDUCED, log entry 62. -/
def State.ownReceive (s : State) (port : Port) (startOk : Bool) (b : Bytes) (endOk : Bool) (stamp : Time96) (software : Bool) :
    State :=
  let pc := portCode port
  match portRing port with
  | none =>
    if port = .sv ∨ !startOk ∨ num b 14 2 ≠ hcrc (b.take 14) ∨ !frameBodyOk b 0 endOk then s
    else if field (num b 0 2) 10 4 = 9 then (s.takeStamp pc false software (num b 20 4 % 65536) stamp).2
    else s
  | some (r, p) =>
    let sw := software || s.bit kTstPortLoop pc
    let bad := b.length < 16 ∨ num b 14 2 ≠ hcrc (b.take 14)
    if bad ∨ !startOk ∨ !frameBodyOk b (ringNo r) endOk then
      (s.bufferForward r p b (time96Q stamp)).portErr r p (if bad then 0 else 4)
    else
      let f := parseFrame r b
      let stamped := f.type = 0 ∨ f.type = 9
      let (q, s) := if stamped then s.takeStamp pc false sw f.slot.toNat stamp
        else ((s.stamp pc false sw (time96Q stamp), sw), s)
      let s := if s.ownStart f then s else s.bufferForward r p b (time96Q stamp)
      s.acceptFrame r p f q.1

/-- The time at a node's ingress at which a frame at line offset 0 of a cycle arrives on a channel (R65, R100), 2^-16 ns. -/
def NodeSt.lineStart (n : NodeSt) (ch : Channel) (start : Nat) : Int :=
  (start : Int) + int n.delay (if ch = .a then 0 else 4) 4 * 65536 / 1000

/-- A valid frame at a node: window, span and copies of what it reads, by the clock of R104. The result is the offset of the counter
that counts it, if one does. DEDUCED, log entry 62. -/
def State.nodeAccept (s : State) (r : RingId) (n : NodeSt) (f : Frame) (q : Nat) : List InSlot × Option Nat :=
  let i := ringNo r
  let t := f.type.toNat
  let late (c off : Nat) : Bool :=
    decide (((q : Int) - n.lineStart f.ch (c * s.tns * 65536) - ((off * 65536 : Nat) : Int)).natAbs ≤ s.n (kPrecision i) * 65536)
  let o := (q : Int) - n.lineStart f.ch (s.cycle * s.tns * 65536)
  let e := (s.slots r).find? (fun e => e.slot == f.slot.toNat)
  let off := if f.slot = 0 then some 0 else e.map (fun e => s.slotOffset r e * 40)
  let cycle : Option Nat := match n.hasTime && slotted t, off with
    | true, some o => if late s.cycle o then some s.cycle else if late (s.cycle - 1) o then some (s.cycle - 1) else none
    | _, _ => some s.cycle
  let inSpan : Bool := decide (((s.arbStart r (f.ch = .a) : Nat) : Int) * 65536 - ((s.n (kPrecision i) * 65536 : Nat) : Int) ≤ o) &&
    decide (o * 10 < ((arbEnd10 (s.n (kArbLast i)) (s.n (kArbPlenMax i)) (s.n (kGuardGap i)) * 65536 : Nat) : Int))
  let reads := (e.map (fun e => readsSlot (s.maps r) (safetyNode s.conf i n.addr) n.addr e)).getD false
  match cycle with
  | none => (n.inb, some 8)
  | some c =>
    if n.hasTime && arbitrated t && !inSpan then (n.inb, some 8)
    else if reads ∧ (t = 1 ∨ t = 2 ∨ t = 3) then keepRule n.inb c f
    else (n.inb, none)

/-- The forwarding delay of a node is its own and free, within the limit of R93: 0 to 300,000 ps. DEDUCED, log entry 61. -/
def State.nodeFwd (s : State) : Nat × State :=
  let (v, s) := s.fresh
  (v % 300001, s)

/-- A frame at a port of a Wadra node: it is forwarded, valid or not, unless it is the node's own START; the counters of NODE_ERR
count as those of the head do (R63, R96, R114). DEDUCED, log entry 62. -/
def State.nodeReceive (s : State) (r : RingId) (a : Nat) (sd : Side) (startOk : Bool) (b : Bytes) (endOk : Bool) (stamp : Time96) :
    State :=
  let q := time96Q stamp
  let bad := b.length < 16 ∨ num b 14 2 ≠ hcrc (b.take 14)
  let f := parseFrame r b
  let n := s.node r a
  let mine := !bad && f.type == 6 && f.addr.toNat == a && num f.payload 0 8 == n.serial
  let (fwd, s) := s.nodeFwd
  let n := if mine then n
    else n.forward (s.arbLimit r 0) (turnedBack (n.port (otherSide sd)) (otherSide sd)) ((q : Int) * 10 / 65536 + (fwd : Nat) / 100) b
  let count (n : NodeSt) (off : Nat) : NodeSt := { n with err := errInc n.err (sideNo sd) off }
  if bad then s.setNode (count n 0)
  else if !startOk ∨ !frameBodyOk b (ringNo r) endOk then s.setNode (count n 4)
  else match s.nodeAccept r n f q with
    | (_, some off) => s.setNode (count n off)
    | (l, none) => s.setNode { n with inb := l }

/-- FRAME_RECEIVE (R41, R42, R59, R82, R107, R114, R117): validity, stamp, counters, window and duplicates, at a port of this
device or of a node. DEDUCED, log entry 62. -/
def frameReceive (at_ : Ingress) (startOk : Bool) (b : Bytes) (endOk : Bool) (stamp : Time96) (software : Bool) (s : State) :
    State :=
  match at_ with
  | .own port => if s.dev.phase ≠ .up ∨ s.pair.passThrough then s else s.ownReceive port startOk b endOk stamp software
  | .node r a sd => s.nodeReceive r a.toNat sd startOk b endOk stamp

/-! ### Outbound buffers (R115) -/

/-- TX entries of a slot with their numbers. -/
def State.txOf (s : State) (r : RingId) (slot : Nat) : List (Nat × MapE) :=
  (s.maps r).zipIdx.filterMap (fun p => if !p.1.rx && p.1.slot == slot then some (p.2, p.1) else none)

/-- The application writes one object's TX ranges into the slots that map it, for one cycle number (R115). -/
def State.txWrite (s : State) (key cycle : Nat) (v : Bytes) : State :=
  let one (s : State) (r : RingId) : State :=
    (s.slots r).foldl (fun s e =>
      let tx := s.txOf r e.slot
      let mine := tx.filter (fun p => objKey p.2.index p.2.sub == key)
      if mine.isEmpty then s
      else
        let x := s.ring r
        let o := x.outSlot e.slot
        let (pl, done) := match o.building with
          | some (c, pl, d) => if c = cycle then (pl, d) else (zeros e.plen, [])
          | none => (zeros e.plen, [])
        let pl := mine.foldl (fun pl p => patch pl p.2.off (fit p.2.len v)) pl
        let done := done ++ (mine.map Prod.fst).filter (fun i => !done.contains i)
        let o := if tx.all (fun p => done.contains p.1)
          then { o with building := none, complete := some (cycle, pl), fresh := true }
          else { o with building := some (cycle, pl, done) }
        s.setRing r { x with out := putOut o x.out }) s
  one (one s .m) .p

/-! ### Slot occurrence (R110, R111, R115, R116) -/

/-- What an outbound DATA slot sends: TYPE, AGE and payload (R116). -/
def outSelect (o : OutSlot) (priv : Bool) (cycle repeatMax : Nat) : Nat × Nat × Bytes :=
  match o.fresh, o.complete with
  | true, some (_, pl) => (1, 0, pl)
  | _, _ =>
    match o.lastData with
    | some (pl, c) =>
      let age := min (cycle - c) 255
      if priv && decide (age ≤ repeatMax) then (3, age, pl) else (2, 0, [])
    | none => (2, 0, [])

/-- The unit sends NULL in place of its duplicates (R365, R369, R375). -/
def State.nulling (s : State) : Bool := s.paired && !s.pair.active && (s.pair.nullDup || s.pair.splitNull)

/-- This unit sends the slots of a class (R68). -/
def State.sendsClass (s : State) (cls : Nat) : Bool :=
  match cls with
  | 1 => !s.paired || s.pair.active
  | 2 => s.paired && !s.pair.active && (s.owner || s.standby)
  | 3 => true
  | _ => false

/-- FLAGS of a head slot: PRIV of a privileged slot, DUP in class STANDBY (R79). -/
def State.slotFlags (s : State) (r : RingId) (e : SlotE) : Nat :=
  b01 (privileged s.conf (ringNo r) e) + (if e.cls = 2 then 2 else 0)

/-- One occurrence of an outbound DATA slot. -/
def State.dataOccurrence (s : State) (r : RingId) (e : SlotE) : State :=
  let x := s.ring r
  let o := x.outSlot e.slot
  let sel := outSelect o (privileged s.conf (ringNo r) e) s.cycle (s.n (kRepeatMax (ringNo r)))
  let o := if sel.1 = 1 then { o with fresh := false, lastData := some (sel.2.2, s.cycle) } else o
  let put := if s.nulling ∧ e.cls = 2 then (2, 0, s.seq32, ([] : Bytes)) else (sel.1, sel.2.1, s.seq32, sel.2.2)
  let s := s.setRing r { x with out := putOut { o with sent := some put, sel := some sel } x.out }
  s.sendSlot r e.slot put.1 put.2.1 e.off (s.slotFlags r e) put.2.2.2 (s.originLegs r)

/-- Own setpoint digest of a cycle (R368): over the ring M DATA slots of class ACTIVE in ascending slot id; the standby takes
the selection of the partner STANDBY slot. -/
def State.digestOf (s : State) (cycle : Nat) : Nat :=
  let slots := (s.slots .m).filter (fun e => e.cls == 1 && e.ftype == 1 && e.occurs cycle)
  let sorted := (List.range 4096).filterMap (fun i => slots.find? (fun e => e.slot == i))
  crc32c ((sorted.map (fun e =>
    let o := s.rings.m.outSlot (if s.paired && !s.pair.active then e.slot + 1 else e.slot)
    let sel := o.sel.getD (2, 0, [])
    le 2 e.slot ++ le 1 sel.1 ++ le 1 sel.2.1 ++ (if sel.1 = 2 then [] else sel.2.2))).flatten)

/-- HB payload of this device (R84). -/
def State.hbPayload (s : State) (digest count : Nat) : Bytes :=
  let pr := b01 s.dev.unitId + 2 * b01 s.owner + 4 * b01 s.pair.peer + 8 * b01 s.pair.detachAt.isSome
  le 1 s.dev.state.code ++ le 1 (b01 (!s.paired || s.pair.active)) ++ le 1 pr ++ [0] ++ le 4 digest ++ le 4 count ++ zeros 4

/-- The digest of the previous cycle; 0 before one has been formed. DESIGN CHOICE, log entry 77. -/
def State.lastDigest (s : State) : Nat :=
  ((s.pair.own.find? (fun d => d.cycle + 1 == s.cycle)).map CycleDigest.digest).getD 0

/-- A violation or a correct frame in a NODE slot (R110). -/
def NodeRec.judge (n : NodeRec) (good : Bool) : NodeRec :=
  if good then { n with consec := 0, sawGood := true, heard := true }
  else { n with consec := min (n.consec + 1) 255, viol := satInc 16 n.viol, sawBad := true }

/-- A DICT request of the head to a node waits for its turn and response (R403); in WAIT the partner is the head. -/
def State.headRequest (s : State) (r : RingId) (a : Nat) (index sub : Nat) (v : Bytes) : State :=
  let key : OutKey := ⟨r, BitVec.ofNat 10 s.ownAddr, BitVec.ofNat 10 a⟩
  let tid := ((((s.dict.lastTid.find? (fun p => p.1 = key)).map Prod.snd).getD 0) + 1) % 65536
  let m : DictMsg := { op := 2, flags := 1, tid := BitVec.ofNat 16 tid, index := BitVec.ofNat 16 index, sub := BitVec.ofNat 8 sub,
                       dest := BitVec.ofNat 10 a, param := BitVec.ofNat 32 v.length, data := v }
  let first := s.dict.outReqs.all (fun q => decide (q.key ≠ key))
  if s.n kRedClaimState = 1 then s
  else { s with dict := { s.dict with
      outReqs := s.dict.outReqs ++ [⟨key, tid, m, 0, first⟩]
      lastTid := (key, tid) :: s.dict.lastTid.filter (fun p => decide (p.1 ≠ key))
      ringOut := if first then s.dict.ringOut ++ [(r, a, m)] else s.dict.ringOut } }

/-- A stop demand that waits for its cycle start (R25, R28). -/
def State.stopDemand (s : State) : State := { s with dev := { s.dev with stopDemand := true } }

/-- Exclusion of a node on its third consecutive violation (R111, R113). -/
def State.exclude (s : State) (r : RingId) (a : Nat) : State :=
  let now := s.cellNs
  let x := (s.ring r).onRec a (fun n =>
    let ex := n.recent now ++ [now]
    { n with state := .excluded, substituted := true, exclusions := ex,
             barred := n.barred || decide (s.n (kExclMax (ringNo r)) ≤ ex.length) })
  let s := (s.setRing r x).ringBit r 3 true
  let s := match x.rec? a with
    | some n => if n.barred then s.ringBit r 4 true else s
    | none => s
  let s := s.headRequest r a 0x1F00 6 [1]
  if r = .m ∧ s.isIn [.run, .hold, .degraded] then s.stopDemand else s

/-- A violation of a node counted by the head (R110, R403). -/
def State.violation (s : State) (r : RingId) (a : Nat) : State :=
  let s := s.onRing r (fun x => x.onRec a (fun n => n.judge false))
  match (s.ring r).rec? a with
  | some n =>
    if n.consec = 3 ∧ n.state ≠ .excluded ∧ !s.standby then s.exclude r a else s
  | none => s

/-- Violations are not counted in the cycle of a timetable change and the next one (R110). -/
def RingSt.changing (x : RingSt) (cycle : Nat) : Bool :=
  match x.changeAt with
  | some c => cycle == c || cycle == c + 1
  | none => false

/-- An occurrence of a NODE slot as the head sees it (R110 to R112). -/
def State.nodeOccurrence (s : State) (r : RingId) (e : SlotE) (seen : SlotSeen) : State :=
  let x := s.ring r
  match x.rec? e.addr with
  | none => s
  | some n =>
    if n.substituted ∨ !n.sends ∨ (n.state ≠ .assigned ∧ n.state ≠ .integrated) then s
    else if seen = .correct then s.setRing r (x.onRec e.addr (fun n => n.judge true))
    else if x.changing s.cycle then s
    else s.violation r e.addr

/-! ### Delay measurement (R101 to R103) -/

/-- A time in 2^-16 ns as ps. -/
def psOf (q : Int) : Int := q * 1000 / 65536

/-- DELAY exchanges with some stations: on both channels, or on the origin channel of a unit of a pair (R101). -/
def exchangesFor (hp first : Nat) (kind : ExKind) (nodes : List Nat) : List DelayEx :=
  let ex := nodes.flatMap (fun a => (if hp ≠ 2 then [(a, false)] else []) ++ (if hp ≠ 1 then [(a, true)] else []))
  ex.zipIdx.map (fun p => ⟨p.1.1, first + p.2, p.1.2, none, false, kind⟩)

/-- Opens the DELAY exchanges of a measurement, in place of those of its kind that are open with the same stations, or of the whole
round before (R101, R103, R112, R123). A sample stands until a new one replaces it. -/
def RingSt.openRound (x : RingSt) (kind : ExKind) (nodes : List Nat) (hp : Nat) : RingSt :=
  let new := exchangesFor hp x.exch kind nodes
  let stays (e : DelayEx) : Bool := decide (e.kind ≠ kind) || kind == .rejoin && !nodes.contains e.target
  { x with exch := x.exch + new.length, exchanges := x.exchanges.filter stays ++ new }

/-- What a unit measures in a round: every node, and in a pair the other head unit (R101). -/
def State.roundTargets (s : State) (r : RingId) (nodes : List Nat) : List Nat :=
  nodes ++ (if s.n (kHeadPos (ringNo r)) = 0 then [] else [1 - s.ownAddr])

/-- The exchanges of a measurement with ordinary nodes, of one node or of all, are answered. -/
def RingSt.answered (x : RingSt) (kind : ExKind) (a : Option Nat) : Bool :=
  x.exchanges.all (fun e => e.answered || decide (e.target ≤ 1) || decide (e.kind ≠ kind) ||
    (match a with
    | some a => e.target != a
    | none => false))

/-- A node has answered in the present round on every channel that this unit measures. -/
def RingSt.measuredNode (x : RingSt) (a : Nat) : Bool :=
  x.exchanges.any (fun e => e.kind == .round && e.target == a) && x.answered .round (some a)

/-- Computes D_in of every node from the samples (R102); a unit of a pair computes that of its origin channel and takes the other
from its partner. -/
def RingSt.computeDelays (x : RingSt) (order : List Nat) (hp : Nat) : RingSt :=
  let recs := order.filterMap x.rec?
  let ls := x.links order
  let fA := recs.map NodeRec.fwdA
  let fB := recs.map NodeRec.fwdB
  { x with nodes := x.nodes.map (fun n =>
      let p := posIn order n.addr
      if p = 0 then n
      else { n with compA := if hp = 2 then n.compA else dinA ls fA p, compB := if hp = 1 then n.compB else dinB ls fB p }) }

/-- Delays as NODE_DELAY holds them (R100). -/
def delayBytes (n : NodeRec) : Bytes := leInt 4 n.compA ++ leInt 4 n.compB

/-- The head writes a node's delays (R106). DEDUCED, log entry 45. -/
def State.writeDelay (s : State) (r : RingId) (a : Nat) : State :=
  match (s.ring r).rec? a with
  | none => s
  | some n =>
    let s := s.onRing r (fun x => x.onRec a (fun n => { n with writtenA := n.compA, writtenB := n.compB, offRun := 0 }))
    s.headRequest r a 0x1F00 3 (delayBytes n)

/-- NODE_FALLBACK for a node (R120): count of records, NS, then LEG and one OFFSET per sent slot for each b. -/
def fallbackBytes (g : Conf) (ring : Nat) (fbs : List Fallback) (a : Nat) : Bytes :=
  let order := orderOf (g (kNodeOrder ring))
  let sent := sentBy g ring a
  let recs := (List.range (order.length + 2)).map (fun b =>
    match fbs.find? (fun f => f.b == b) with
    | none => le 2 0xFFFF ++ zeros (2 * sent.length)
    | some f =>
      if f.failed ≠ 0 then le 2 0xFFFF ++ zeros (2 * sent.length)
      else
        let east := b == 0 || decide (posIn order a < b)
        le 2 (if east then 0 else 1) ++
          (sent.map (fun e => le 2 (((f.slots.find? (fun x => x.1 == e.slot)).map (fun x => x.2.2)).getD e.off))).flatten)
  le 2 (order.length + 2) ++ le 2 sent.length ++ recs.flatten

/-- Computes the fall-back timetables and FBT_CHECK (R120). -/
def State.computeFallbacks (s : State) (r : RingId) : State :=
  let i := ringNo r
  let x := s.ring r
  let k := (s.order r).length
  let din (a : Nat) (b : Bool) : Int := match x.rec? a with
    | some n => if b then n.compB else n.compA
    | none => 0
  let bs := if s.n (kHeadPos i) = 0 then (List.range (k + 1)).map (· + 1) else List.range (k + 2)
  let fbs := bs.map (fun b =>
    let f := fallbackFor s.conf i b din
    (⟨b, f.1, f.2.1, f.2.2.1, f.2.2.2.1, f.2.2.2.2⟩ : Fallback))
  let s := s.setRing r { x with fallbacks := fbs }
  match fbs.find? (fun f => f.failed != 0) with
  | some f => s.setN (kFbtCheck i) (f.failed * 2 ^ 24 + f.b * 2 ^ 14 + f.failSlot)
  | none => s.setN (kFbtCheck i) 0

/-- R74 over every node and APPLY slot, with the downlink D_in (R62, R74): the slot that fails. -/
def State.applyCheck (s : State) (r : RingId) : Option Nat :=
  let x := s.ring r
  let order := s.order r
  let din (a : Nat) : Int := match x.rec? a with
    | some n => if uplinkB order.length (posIn order a) then n.compA else n.compB
    | none => 0
  r74Ok s.conf (ringNo r) (fun a => order.contains a) din

/-! ### Healing (R118 to R123, R519, R522) -/

/-- The break index of a complete pattern of two loops (R119): `some (b, lost)` when R119 covers it. -/
def breakIndex (k : Nat) (pair : Bool) (east west : Nat × Bool) : Option (Nat × Option Nat) :=
  -- `east` is the loop whose east port is dead, `west` the loop whose west port is dead, with positions
  let pe := east.1
  let pw := west.1
  if pair && pe == k + 1 && pw == 0 then some (0, none)
  else if pair && pe == k + 1 && pw == 1 then some (1, none)
  else if pair && pw == 0 && pe == k then some (k + 1, none)
  else if pw == pe + 1 then some (pw, none)
  else if pw == pe + 2 && decide (1 ≤ pe + 1) && decide (pe + 1 ≤ k) then some (pe + 1, some (pe + 1))
  else none

/-- A second fault keeps the fall-back in force and sets HEAL_FAIL (R122). -/
def State.healFail (s : State) (r : RingId) : State := s.ringBit r 7 true

/-- The survivor of a lost head unit sends and receives on its own side alone, without a loop, and sets SINGLE_HEAD (R119). -/
def State.survive (s : State) (r : RingId) : State :=
  let open_ (p : PortSt) : PortSt := { p with looped := false }
  (s.onRing r (fun x => { x with survivor := true, east := open_ x.east, west := open_ x.west })).ringBit r 5 true

/-- The break that the live loops show, when their pattern is complete (R119, R522). -/
def State.breakOf (s : State) (r : RingId) : Option (Option (Nat × Option Nat) × Bool) :=
  let live := (s.ring r).loops.filter (fun l => !l.up)
  match live.find? (fun l => !l.west), live.find? (fun l => l.west) with
  | some e, some w =>
    let k := (s.order r).length
    let pair := s.n (kHeadPos (ringNo r)) != 0
    let pe := s.healPos r e.addr false
    let pw := s.healPos r w.addr true
    match breakIndex k pair (pe, e.west) (pw, w.west) with
    | none => some (none, false)
    | some (b, lost) => some (some (b, lost), pair && (b == 1 && pe == k + 1 || b == k + 1 && pw == 0))
  | _, _ => none

/-- Acts on the loops known once the delays are measured: a complete pattern gives the break and the fall-back is put in force
(R121, R122, R522). A further break while healed is told by the loop that reports it. -/
def State.deriveBreak (s : State) (r : RingId) : State :=
  let x := s.ring r
  if !x.measured ∨ x.fbt.isSome ∨ x.switchTo.isSome then s
  else match s.breakOf r with
    | none => s
    | some (none, _) => s.healFail r
    | some (some (b, lost), headLost) =>
      match x.fallbacks.find? (fun f => f.b == b) with
      | none => s.healFail r
      | some f =>
        if f.failed ≠ 0 then s.healFail r
        else
          let s := s.setRing r { x with switchTo := some (some b) }
          let s := match lost.bind (fun p => (s.order r)[p - 1]?) with
            | some a => s.exclude r a
            | none => s
          if headLost then s.survive r else s

/-- RX tokens of a ring (R227, R230): slot id, RX deadline of the template that takes it, ns (0 for none), and instance. -/
def tokenFeeds (g : Conf) (ring : Nat) : List (Nat × Nat × Nat) :=
  let edges := (records 12 (g kJnEdges)).filter (fun r => num r 0 1 == 1 && num r 4 1 == 0)
  let deadline (id : Nat) : Nat :=
    match (records 16 (g kJnInstances)).find? (fun r => num r 0 2 == id) with
    | some r => num (g kJnTemplates) (32 * (num r 2 1 - 0x80) + 12) 4
    | none => 0
  let rx := (mapOf (g kSlotMap)).zipIdx.filter (fun p => p.1.rx && p.1.token && p.1.ring == ring)
  rx.flatMap (fun p =>
    ((List.range 8).filter (fun a => objKey p.1.index p.1.sub == kArmMeas a)).map (fun a => (p.1.slot, Conf.n g kJnRxDeadline, a)) ++
      (edges.filter (fun r => num r 2 2 == p.2)).map (fun r => (p.1.slot, deadline (num r 6 2), num r 6 2)))

/-- Reason 5 of R241 at this unit: the instance whose frame ends too late at the own ball. -/
def State.lateFeed (s : State) (r : RingId) : Option Nat :=
  let order := s.order r
  (tokenFeeds s.conf (ringNo r)).findSome? (fun f =>
    match (s.slots r).find? (fun e => e.slot == f.1) with
    | none => none
    | some e =>
      let c := e.channels order
      let ends (b : Bool) : Int := ((e.off * 40000 + wire10 e.plen * 100 : Nat) : Int) + s.headDin r b
      let late (b : Bool) : Bool := decide ((f.2.1 : Int) * 1000 - 200000 < ends b)
      if f.2.1 != 0 && (c.1 && late false || c.2 && late true) then some f.2.2 else none)

/-- The head writes a node's delays, assignment and fall-back records (R99, R106, R112). -/
def State.integrate (s : State) (r : RingId) (a : Nat) : State :=
  let s := (s.writeDelay r a).headRequest r a 0x1F00 4 (assignFor s.conf (ringNo r) a)
  s.headRequest r a 0x1F00 5 (fallbackBytes s.conf (ringNo r) (s.ring r).fallbacks a)

/-- What a round's delays mean for one node that answered in it: writes to a node that has not been written to, and a rewrite after
three rounds off (R103, R106). -/
def State.afterRound (s : State) (r : RingId) (a : Nat) : State :=
  match (s.ring r).rec? a with
  | none => s
  | some n =>
    if n.dup ∨ n.rejoining ∨ n.state = .excluded ∨ !(s.ring r).measuredNode a then s
    else if n.state = .locked then s.integrate r a
    else
      let off := decide ((n.compA - n.writtenA).natAbs > 2000) || decide ((n.compB - n.writtenB).natAbs > 2000)
      let run := if off then n.offRun + 1 else 0
      let s := s.onRing r (fun x => x.onRec a (fun n => { n with offRun := run }))
      if 3 ≤ run then (s.writeDelay r a).ringBit r 1 true else s

/-- The first violated check of a timetable on measured delays: reason 10 of R92 and reason 5 of R241. -/
def State.delayChecks (s : State) (r : RingId) : State :=
  let s := match s.applyCheck r with
    | some sl => s.setN (kTtCheck (ringNo r)) (ttCheckWord 10 (ringNo r) sl)
    | none => s
  match s.lateFeed r with
  | some id => s.setN kJnChainCheck (5 * 2 ^ 24 + id)
  | none => s

/-- The first round gives the fall-backs, shows a break that is still present, and lets the checks on delays be made (R99, R120). -/
def State.firstRound (s : State) (r : RingId) : State := ((s.computeFallbacks r).deriveBreak r).delayChecks r

/-- The delays of a ring from the samples it has. -/
def State.newDelays (s : State) (r : RingId) : State :=
  s.onRing r (fun x => x.computeDelays (s.order r) (s.n (kHeadPos (ringNo r))))

/-- The NODE_STATUS records that a unit of a pair shares after a round, at most 64 to a frame (R102, R363). -/
def State.shareStatus (s : State) (r : RingId) : State :=
  let v := s.nodeStatus r
  if s.paired then (List.range ((v.length + 1023) / 1024)).foldl (fun (s : State) i => s.linkSend 5 1 ((v.drop (1024 * i)).take 1024)) s
  else s

/-- The end of a measurement round: its last response, or the opening of the next one while nodes are silent (R102, R103, R106). -/
def State.roundDone (s : State) (r : RingId) : State :=
  let s := s.newDelays r
  let first := !(s.ring r).measured
  let s := s.onRing r (fun x => { x with measured := true })
  let s := if first then s.firstRound r else s
  let s := (s.order r).foldl (fun (s : State) a => s.afterRound r a) s
  s.shareStatus r

/-- An excluded or barred node has been measured: the writes of its rejoin follow (R112). -/
def State.rejoinDone (s : State) (r : RingId) (a : Nat) : State :=
  let s := s.newDelays r
  match (s.ring r).rec? a with
  | some n =>
    if !n.rejoining ∨ n.barred ∨ n.dup then s
    else (s.integrate r a).onRing r (fun x => x.onRec a (fun n => { n with rejoining := false }))
  | none => s

/-- The loop nodes have been measured: the return is announced when HEAL_RETURN is 1 (R123). -/
def State.returnDone (s : State) (r : RingId) : State :=
  let s := s.newDelays r
  if (s.ring r).returning ∧ s.n (kHealReturn (ringNo r)) = 1 then
    s.onRing r (fun x => { x with returning := false, switchTo := some none })
  else s

/-- DELAY_ROUND (R103): what the round before has measured is used, and the next one opens; on a ring without nodes it is done at
once. DEDUCED, log entry 45. -/
def delayRound (r : RingId) (s : State) : State :=
  if (s.ring r).cs ≠ .running then s
  else
    let stale := (s.ring r).exchanges.any (fun e => e.kind == .round && e.answered) && !(s.ring r).answered .round none
    let s := if stale then s.roundDone r else s
    let s := s.onRing r (fun x => x.openRound .round (s.roundTargets r (s.order r)) (s.n (kHeadPos (ringNo r))))
    if (s.order r).isEmpty then s.roundDone r else s

/-- One round-trip sample: ρ and the forwarding delay of the responder. In a pair its delay on the other channel, which the partner
measures, is taken to be the same. DEDUCED, log entry 45. -/
def RingSt.sample (x : RingSt) (e : DelayEx) (hp : Nat) (rho fwd : Int) : RingSt :=
  let x : RingSt := { x with exchanges := x.exchanges.map (fun (y : DelayEx) => if y.exch = e.exch then { y with answered := true } else y) }
  let x := x.onRec e.target (fun n =>
    let n := if e.onB then { n with rhoB := some rho, fwdB := fwd } else { n with rhoA := some rho, fwdA := fwd }
    let n := if hp = 0 then n else { n with fwdA := fwd, fwdB := fwd }
    { n with heard := true, state := if n.state = .listen then .locked else n.state })
  if e.target ≤ 1 then { x with headRho := some rho } else x

/-- What the end of a measurement brings. -/
def State.measureDone (s : State) (r : RingId) (e : DelayEx) : State :=
  let x := s.ring r
  match e.kind with
  | .round => if x.answered .round none then s.roundDone r else s
  | .rejoin => if x.answered .rejoin (some e.target) then s.rejoinDone r e.target else s
  | .back => if x.answered .back none then s.returnDone r else s

/-- The head's port at which a frame of a channel arrives: A at the west port, B at the east port (R60, R61). -/
def arrivalPort (r : RingId) (ch : Channel) : Nat := 2 * ringNo r + (if ch = .a then 1 else 0)

/-- DELAY_RESPONSE (R101, R102): one round-trip sample, from the stamp of the own request. A second response marks a duplicate
address. -/
def delayResponse (f : Frame) (t4 : Time96) (software : Bool) (s : State) : State :=
  let r := f.ring
  let x := s.ring r
  let pl := f.payload
  let target := num pl 2 2 % 1024
  let exch := num pl 4 4
  if num pl 0 1 ≠ 1 ∨ software then s
  else match x.exchanges.find? (fun e => e.target == target && e.exch == exch) with
    | none => s
    | some e =>
      if e.answered then
        (s.setRing r (x.onRec target (fun n => { n with dup := true }))).ringBit r 2 true
      else
        let t4q := s.stamp (arrivalPort r f.ch) false false (time96Q t4)
        let t1 := e.t1.getD (time96Val (slice pl 8 12))
        let rho := psOf (((t4q : Int) - t1) - ((time96Val (slice pl 32 12) : Int) - time96Val (slice pl 20 12)))
        let s := s.setRing r (x.sample e (s.n (kHeadPos (ringNo r))) rho (num pl 44 4 : Nat))
        s.measureDone r e

/-- REJOIN_HOLD_EXPIRY (R112): the head measures an excluded node again; the writes follow the measurement. -/
def rejoinHoldExpiry (r : RingId) (addr : BitVec 10) (s : State) : State :=
  let a := addr.toNat
  match (s.ring r).rec? a with
  | none => s
  | some n =>
    if n.state ≠ .excluded ∨ n.barred ∨ s.standby then s
    else s.onRing r (fun x => (x.onRec a (fun n => { n with rejoining := true })).openRound .rejoin [a] (s.n (kHeadPos (ringNo r))))

/-- What the final response of a node to a write of its objects of R100 tells: the node holds NODE_FALLBACK and has cleared NODE_ERR,
and the head knows its state (R100, R105, R106); a duplicate address is not integrated (R102). DEDUCED, log entry 45. -/
def State.nodeAnswered (s : State) (r : RingId) (a sub : Nat) (v : Bytes) (ok : Bool) : State :=
  if !ok then s
  else
   let s := if sub = 5 then s.setNode { s.node r a with fallback := v }
     else if sub = 8 then s.setNode { s.node r a with err := zeros 64 } else s
   s.onRing r (fun x => x.onRec a (fun n =>
    if n.dup then n
    else if sub = 3 then { n with state := .measured }
    else if sub = 4 then
      { n with state := if n.state = .measured then .assigned else n.state, sawGood := false, sawBad := false, sends := false,
               consec := if n.substituted then 0 else n.consec }
    else n))

/-! ### Loops reported (R119, R123) -/

/-- A loop is reported: LINK_DOWN of a node, or the loss of the head's own port (R119). While healed, a loop that is none of the
break's is a further break (R122). -/
def State.loopDown (s : State) (r : RingId) (a : Nat) (west : Bool) : State :=
  let x := s.ring r
  let known := x.loops.any (fun l => l.addr == a && l.west == west)
  let s := s.onRing r (fun x =>
    { x with loops := x.loops.filter (fun l => !(l.addr == a && l.west == west)) ++ [⟨a, west, s.cycle, false⟩] })
  if x.fbt.isSome ∨ x.switchTo.isSome then (if known then s else s.healFail r) else s.deriveBreak r

/-- LINK_UP of a loop node, or of the head's own port: once both loop nodes have sent it, or the one next to a head unit, their
delays are measured again (R123). -/
def State.loopUp (s : State) (r : RingId) (a : Nat) (west : Bool) : State :=
  let s := s.onRing r (fun x =>
    { x with loops := x.loops.map (fun l => if l.addr == a && l.west == west then { l with up := true } else l) })
  let x := s.ring r
  let nodes := x.loops.filter (fun l => (s.order r).contains l.addr)
  let need := if nodes.isEmpty then x.loops else nodes
  if x.fbt.isSome ∧ need.all LoopRec.up ∧ !need.isEmpty then
    let s := s.setRing r { (x.openRound .back (nodes.map LoopRec.addr) (s.n (kHeadPos (ringNo r)))) with returning := true }
    if nodes.isEmpty then s.returnDone r else s
  else s

/-- BREAK_PATTERN_TIMEOUT (R522). -/
def breakPatternTimeout (r : RingId) (s : State) : State :=
  let live := (s.ring r).loops.filter (fun l => !l.up)
  if live.isEmpty ∨ (live.any LoopRec.west ∧ live.any (fun l => !l.west)) then s else s.healFail r

/-! ### Cycle start (R83, R96, R106, R121, R123) -/

/-- At a matrix start the head judges the nodes of the matrix that ended (R106, R112). DEDUCED, log entry 45. -/
def RingSt.judgeMatrix (x : RingSt) (slotsOfNode : Nat → Nat) : RingSt :=
  { x with nodes := x.nodes.map (fun n =>
      let n := if n.state = .assigned ∧ !n.dup ∧ !n.sawBad ∧ (n.sawGood ∨ slotsOfNode n.addr = 0) then { n with state := .integrated } else n
      let n := if n.substituted ∧ (n.state = .assigned ∨ n.state = .integrated) then { n with substituted := false } else n
      { n with sawGood := false, sawBad := false, sends := n.state == .assigned || n.state == .integrated }) }

/-- Loops at ports with synchronisation end at the cycle start after the SYNC that announced the return (R123). -/
def RingSt.endLoops (x : RingSt) (cycle : Nat) : RingSt :=
  let port (p : PortSt) : PortSt := if p.sync then { p with looped := false } else p
  if x.fbt.isNone ∧ x.changeAt = some (cycle - 1) then { x with east := port x.east, west := port x.west } else x

/-- Enters or leaves a fall-back timetable at a cycle start (R121, R123): slots restart, and HEALED, BREAK_IDX and HEAL_COUNT follow;
a divergence then ends in a stop (R370). DEDUCED, log entry 46. -/
def State.applySwitch (s : State) (r : RingId) : State :=
  let i := ringNo r
  let x := s.ring r
  match x.switchTo with
  | none => s
  | some dest =>
    let x := { x with fbt := dest, switchTo := none, changeAt := some s.cycle,
                      out := x.out.map (fun o => { o with lastData := none }) }
    match dest with
    | some b =>
      let s := s.setRing r (if b = 0 ∧ s.n (kHeadPos i) = 1 then { x with west := { x.west with looped := false } } else x)
      let s := ((s.ringBit r 6 true).ringBit r 0 true).setN (kBreakIdx i) b |>.inc (kHealCount i)
      if r = .m ∧ s.owner ∧ s.bit kRedStatus 5 then s.stopDemand else s
    | none =>
      let s := s.setRing r { x with loops := [], survivor := false }
      (s.ringBit r 0 false).setN (kBreakIdx i) 0xFFFF

/-- The conditions of R106 and R241 for the operating timetable. -/
def State.operReady (s : State) (r : RingId) : Bool :=
  let x := s.ring r
  let i := ringNo r
  x.cs == .running && x.measured && x.nodes.all (fun n => n.state == .integrated) && (s.applyCheck r).isNone &&
    (s.lateFeed r).isNone &&
    (s.n (kFbtCheck i) == 0 || s.n (kFbtRequired i) == 0)

/-- A kept ring with a new TT_ID (R99): SYNC carries it from here on, every node falls to LOCKED and is written again.
DEDUCED, log entry 45. -/
def State.retimeRing (s : State) (r : RingId) : State :=
  let x := s.ring r
  if !x.retime then s
  else
    let lock (n : NodeRec) : NodeRec := if n.heard ∧ n.state ≠ .excluded ∧ n.state ≠ .listen then { n with state := .locked, sends := false } else n
    let s := s.setRing r { x with retime := false, oper := false, operNext := false, ttId := s.n (kTtId (ringNo r)),
                                  changeAt := some s.cycle, nodes := x.nodes.map lock }
    let s := s.delayChecks r
    (s.order r).foldl (fun (s : State) a =>
      match (s.ring r).rec? a with
      | some n => if n.heard ∧ n.state = .locked ∧ !n.dup then s.integrate r a else s
      | none => s) s

/-- START payload (R86). -/
def startPayload (serial tt code attempt : Nat) : Bytes := le 8 serial ++ le 2 tt ++ le 1 code ++ le 1 attempt ++ zeros 4

/-- An egress lets a START begin: nothing waits, and it has been idle (R71 conditions 2 and 3, R96). -/
def startFree (busy now : Int) (buf : List Bytes) : Bool := buf.isEmpty && decide (busy ≤ now)

/-- The START of a cycle, out of both ports where they are free (R96); it counts when it went out. -/
def State.sendStart (s : State) (r : RingId) : State :=
  let x := s.ring r
  let now := s.cycle10
  let pl := startPayload s.sec.fuses.serial (s.n (kTtId (ringNo r))) (s.n kBasicCycle) x.attempt
  let close : Int := now + (wire10 16 : Nat) + ((s.n (kPrecision (ringNo r)) * 10 : Nat) : Int)
  let f (c : Channel) : Frame := s.ownFrame r c 6 0xFFD x.senderCtr 0 0 pl
  let east := startFree x.busyE now x.insA
  let west := startFree x.busyW now x.insB
  let y := if east then x.send .east 2 now now close (f .a) else x
  let y := if west then y.send .west 2 now now close (f .b) else y
  if (east || west) && !s.pair.passThrough then s.setRing r { y with startsSent := x.startsSent + 1, senderCtr := (x.senderCtr + 1) % 2 ^ 32 } else s

/-- Cycle-start work of one ring controller. -/
def State.ringCycle (s : State) (r : RingId) : State :=
  let s := (s.onRing r (fun x => x.endLoops s.cycle)).retimeRing r
  let x := s.ring r
  let s := if x.cs = .coldstart then s.sendStart r else s
  let s := if s.cycle % 64 = 0 then s.onRing r (fun x => x.judgeMatrix (fun a => (sentBy s.conf (ringNo r) a).length)) else s
  let x := s.ring r
  let s := if x.operNext then
      s.setRing r { x with oper := true, operNext := false, changeAt := some s.cycle, ttId := s.n (kTtId (ringNo r)),
                           out := x.out.map (fun o => { o with lastData := none }) }
    else if !x.oper ∧ s.operReady r then s.setRing r { x with operNext := true }
    else s
  s.applySwitch r

/-- SYNC payload of the present cycle (R83); the operating timetable is not in force while a fall-back is. -/
def State.syncPayload (s : State) (r : RingId) : Bytes :=
  let x := s.ring r
  time96 (s.cycle * s.tns * 65536) ++ le 1 (s.n kBasicCycle) ++ le 1 (b01 (x.oper && x.fbt.isNone) + 2 * b01 x.fbt.isSome) ++ le 2 (x.fbt.getD x.ttId)

end Sys2Proof.Machine
end

