-- ==== Sys2Proof/Machine/Junction.lean ====
section
/-! DEFINITION. The Junction (chapter "Lanes and the Junction"): templates, the matching store, ready and delay lists, prefetch
and stealing, edges, LATE substitution and aborts (R226 to R238). A token is in its port as soon as it is delivered. -/

namespace Sys2Proof.Machine

/-! ### Arms and joints -/

/-- Number of joints of an arm; 0 for an absent arm (R130). -/
def State.nj (s : State) (a : Nat) : Nat := min (s.n (kArmNj a)) 8

/-- Present arms, ascending. -/
def State.arms (s : State) : List Nat := (List.range 8).filter (fun a => s.n (kArmNj a) != 0)

/-- Present joint slots, ascending (R128). -/
def State.joints (s : State) : List Nat := (List.range 64).filter (fun j => decide (j % 8 < s.nj (j / 8)))

/-- The joint record of a joint slot in its arm's model (R131). -/
def State.joint (s : State) (j : Nat) : Bytes := slice (s.obj (kArmKin (j / 8))) (96 + 112 * (j % 8)) 112

/-! ### Templates -/

/-- A task template (R240, R247): numbers of the table, and output ports. -/
structure Tmpl where
  kernel : Nat
  prio : Nat
  home : Nat
  budget : Nat
  deadline : Nat
  rx : Nat
  release : Nat
  stateLen : Nat
  outs : Nat
deriving DecidableEq, Repr

/-- Line offset of the earliest APPLY slot of class ACTIVE or HEAD, ns: ring M before ring P, else T (R12). -/
def offSp (g : Conf) : Nat :=
  let on (r : Nat) : List Nat :=
    ((slotsOf (g (kTtSlots r))).filter (fun e => e.apply && (e.cls == 1 || e.cls == 3))).map (fun e => e.off * 40)
  match (on 0).min? with
  | some o => o
  | none => (on 1).min?.getD (cycleNsOf (g.n kBasicCycle))

/-- Template of a vendor instance (R240). A KIN's budget also counts its capsules, which R241 checks at the commit; no step
reads it. DEDUCED, log entry 43. -/
def vendorTmpl (s : State) (id : Nat) : Tmpl :=
  let late := offSp s.conf - 1000
  if id < 8 then
    ⟨1, 0, id, 1100 + 475 * s.nj id, 29000 - s.n kSqTEst, s.n kJnRxDeadline, 0, 0, 1⟩
  else if id < 72 then ⟨2, 0, (id - 8) / 8, 300, late, 0, 0, 96, 1⟩
  else if id < 80 then ⟨3, 0, id - 72, 100 + 10 * s.nj (id - 72), late, 0, 0, 0, 1⟩
  else ⟨4, 0, id - 80, 300 + 50 * s.nj (id - 80), late, 0, 0, 0, 1⟩

/-- A user template (R247): record `i` of JN_TEMPLATES; `param` gives the arm of HOME 0xF0. -/
def userTmpl (v : Bytes) (i param : Nat) : Tmpl :=
  let r := slice v (32 * i) 32
  let h := num r 2 1
  ⟨num r 0 1, num r 1 1, if h = 0xF0 then param % 8 else h, num r 4 4, num r 8 4, num r 12 4, num r 16 4, num r 20 2, 8⟩

/-- The template of an instance. -/
def State.tmpl (s : State) (x : InstSt) : Tmpl :=
  if x.id < 256 then vendorTmpl s x.id else userTmpl (s.obj kJnTemplates) (x.tmpl - 0x80) x.param

/-- Working Streets. -/
def State.street (s : State) (n : Nat) : Bool := s.bit kJnStreets n

/-- The next higher-numbered working Street from `n` on, wrapping (R235). -/
def nextStreet (w : Nat → Bool) (n : Nat) : Nat → Nat
  | 0 => n % 8
  | f + 1 => if w (n % 8) then n % 8 else nextStreet w (n + 1) f

/-- Home of an instance on working Streets (R235). -/
def State.home (s : State) (x : InstSt) : Nat := nextStreet s.street (s.tmpl x).home 8

/-! ### Instances -/

/-- Replaces the Junction's state. -/
def State.onJn (s : State) (f : StJn → StJn) : State := { s with jn := f s.jn }

/-- An instance by id. -/
def State.inst? (s : State) (id : Nat) : Option InstSt := s.jn.insts.find? (fun x => x.id == id)

/-- Changes one instance. -/
def State.onInst (s : State) (id : Nat) (f : InstSt → InstSt) : State :=
  s.onJn (fun j => { j with insts := j.insts.map (fun x => if x.id = id then f x else x) })

/-- The graph runs in the present device state (R229). -/
def State.graphOn (s : State) : Bool := s.isIn [.ready, .run, .hold, .degraded]

/-- A port with nothing in it. -/
def emptyPort : JPort := ⟨none, none, false, none, 0⟩

/-- A new instance with `n` ports. -/
def freshInst (id tmpl param n stateLen : Nat) : InstSt :=
  { id := id, tmpl := tmpl, param := param, tag := 0, ports := List.replicate n emptyPort, block := zeros stateLen, late := 0,
    consec := 0, outs := none, aborted := false, stolen := false, lost := false }

/-- Instances of the committed configuration, ascending (R227); BYPASS exists at Tier 2 only. -/
def State.buildInsts (s : State) : List InstSt :=
  let kin := s.arms.map (fun a => freshInst a 1 0 2 0)
  let jl := s.joints.map (fun j => freshInst (8 + j) 2 0 2 0)
  let sp := s.arms.map (fun a => freshInst (72 + a) 3 0 (s.nj a) 0)
  let by_ := if s.tierActive = 2 then s.arms.map (fun a => freshInst (80 + a) 4 0 2 0) else []
  let user := (List.range 768).filterMap (fun i =>
    ((records 16 (s.obj kJnInstances)).find? (fun r => num r 0 2 == 256 + i)).map (fun r =>
      let t := slice (s.obj kJnTemplates) (32 * (num r 2 1 - 0x80)) 32
      freshInst (256 + i) (num r 2 1) (num r 4 4) (num t 3 1) (num t 20 2)))
  kin ++ jl ++ sp ++ by_ ++ user

/-! ### Lists and slots (R232 to R235) -/

/-- Ready list of a Street and priority. -/
def StJn.list (j : StJn) (street prio : Nat) : List Fired := j.ready.getD (4 * street + prio) []

/-- Changes a ready list. -/
def StJn.onList (j : StJn) (street prio : Nat) (f : List Fired → List Fired) : StJn :=
  { j with ready := modAt j.ready (4 * street + prio) f }

/-- Tasks in the four lists of a Street. -/
def StJn.load (j : StJn) (street : Nat) : Nat := ((List.range 4).map (fun p => (j.list street p).length)).sum

/-- Highest priority with a task. -/
def StJn.top (j : StJn) (street : Nat) : Option Nat := (List.range 4).find? (fun p => !(j.list street p).isEmpty)

/-- Takes the head of the highest-priority list of a Street. -/
def StJn.take (j : StJn) (street : Nat) : Option (Fired × StJn) :=
  match j.top street with
  | some p => match j.list street p with
    | t :: r => some (t, j.onList street p (fun _ => r))
    | [] => none
  | none => none

/-- The nearest working Street above and below. -/
def State.above (s : State) (n : Nat) : Nat := nextStreet s.street (n + 1) 7
def State.below (s : State) (n : Nat) : Nat := ((List.range 8).find? (fun d => s.street ((n + 7 - d) % 8))).elim n (fun d => (n + 7 - d) % 8)

/-- The next task for a Lane of a Street (R235): from its own lists, else stolen from a neighbour. -/
def State.choose (s : State) (street : Nat) : Option (SlotTask × State) :=
  match s.jn.take street with
  | some (t, j) => some (⟨{ t with stolen := false }, street⟩, { s with jn := j })
  | none =>
    let up := s.above street
    let dn := s.below street
    let from_ := if s.jn.load up < s.jn.load dn then dn else up
    if from_ = street then none
    else match s.jn.take from_ with
      | some (t, j) =>
        let s := { s with jn := j }
        let s := s.patchObj kJnSteals (4 * street) (le 4 (s.sub kJnSteals (4 * street) 4 + 1))
        some (⟨{ t with stolen := true }, from_⟩, s)
      | none => none

/-- Changes a Lane. -/
def State.onLane (s : State) (l : Nat) (f : LaneSt → LaneSt) : State := { s with lanes := modAt s.lanes l f }

/-- Priority of a task. -/
def State.prio (s : State) (t : Fired) : Nat := ((s.inst? t.inst).map (fun x => (s.tmpl x).prio)).getD 3

/-- The slot of a Street with the lowest priority below `p`: Lane and its task (R234). DEDUCED, log entry 43. -/
def State.weakSlot (s : State) (street p : Nat) : Option (Nat × SlotTask) :=
  (List.range 8).foldl (fun best i =>
    let l := 8 * street + i
    match (s.lanes[l]?).bind LaneSt.slot with
    | some t =>
      let q := s.prio t.task
      if q ≤ p then best
      else match best with
        | some (_, b) => if s.prio b.task < q then some (l, t) else best
        | none => some (l, t)
    | none => best) none

/-- A task becomes ready (R232, R234): it joins its list, or takes the place of a prefetched task of lower priority. -/
def State.makeReady (s : State) (t : Fired) : State :=
  match s.inst? t.inst with
  | none => s
  | some x =>
    let h := s.home x
    let p := (s.tmpl x).prio
    match s.weakSlot h p with
    | some (l, w) =>
      let s := s.onJn (fun j => j.onList w.street (s.prio w.task) (fun r => { w.task with stolen := false } :: r))
      s.onLane l (fun x => { x with slot := some ⟨t, h⟩ })
    | none => s.onJn (fun j => j.onList h p (fun r => r ++ [t]))

/-- The tick of R233 in ns. DEDUCED, log entry 43. -/
def State.tickNs (s : State) : Nat := 40 * 2 ^ s.n kJnTickK

/-- Inserts into a delay list, by release tick and then instance id. -/
def insertDelay (r : Nat) (t : Fired) : List (Nat × Fired) → List (Nat × Fired)
  | [] => [(r, t)]
  | (r', t') :: l => if r' < r ∨ (r' = r ∧ t'.inst ≤ t.inst) then (r', t') :: insertDelay r t l else (r, t) :: (r', t') :: l

/-- A fired task goes to its ready list or, with a release offset, to its Street's delay list (R232, R233). -/
def State.enlist (s : State) (x : InstSt) (t : Fired) : State :=
  let m := s.tmpl x
  if m.release = 0 then s.makeReady t
  else
    let at_ := (s.cycle * s.tns + m.release + s.tickNs - 1) / s.tickNs
    s.onJn (fun j => { j with delay := modAt j.delay (s.home x) (insertDelay at_ t) })

/-- The bank of the next cycle becomes the current one (R228). DEDUCED, log entry 43. -/
def JPort.shift (p : JPort) : JPort := { p with cur := p.nxt, nxt := none, subst := false }

/-- The instance's tag has come, and not yet passed. -/
def tagDue (tag cycle : Nat) : Bool := decide ((cycle + 65536 - tag) % 65536 < 32768)

/-- The graph runs and the Motion Quarter has its clocks (R229, R481). -/
def State.jnOn (s : State) : Bool := s.jn.running && !s.mon.stopped

/-- User instances of priority 1 to 3 are not fired from shedding stage S1 on (R481). -/
def State.shedInst (s : State) (x : InstSt) : Bool := decide (1 ≤ s.n kShedStage) && decide (256 ≤ x.id) && decide (1 ≤ (s.tmpl x).prio)

/-- Fires an instance when every port of bank c is filled, at most once per cycle (R228). -/
def State.fire (s : State) (id : Nat) : State :=
  match s.inst? id with
  | none => s
  | some x =>
    if !s.jnOn ∨ s.shedInst x ∨ x.ports.isEmpty ∨ !x.ports.all (fun p => p.cur.isSome) ∨ !tagDue x.tag s.cycle then s
    else
      let t : Fired := ⟨id, x.tag, x.ports.filterMap JPort.cur, x.block, false⟩
      let s := s.onInst id (fun x => { x with tag := (x.tag + 1) % 65536, ports := x.ports.map JPort.shift })
      s.enlist x t

/-- A discarded token (R228). -/
def State.dropToken (s : State) : State := (s.setBit kJnStatus 3 true).inc kJnTokenDrop

/-- The measurement of a KIN instance is too old: a stop demand, and a record once per episode (R238). -/
def State.checkMeas (s : State) (id age : Nat) : State :=
  if 8 ≤ id then s
  else if age ≤ s.n kJnMeasMaxage then s.onInst id (fun x => { x with lost := false })
  else
    let s := if s.isIn [.run, .hold, .degraded] then s.stopDemand.setBit kJnStatus 5 true else s
    match s.inst? id with
    | some x =>
      if x.lost ∨ !s.isIn [.run, .hold, .degraded] then s
      else (s.log 0x0331 (le 2 id ++ [0, 0] ++ le 8 s.cycle)).onInst id (fun x => { x with lost := true })
    | none => s

/-- A token enters its port, or is discarded (R228): one of another tag or for a substituted port sets TOKEN_DROP, one for a filled port only
counts. -/
def State.place (s : State) (id port tag : Nat) (t : Tok) : State :=
  match s.inst? id with
  | none => s
  | some x =>
    if !s.jnOn then s
    else match x.ports[port]? with
      | none => s
      | some p =>
        if tag = x.tag then
          if p.subst then s.dropToken
          else if p.cur.isSome then s.inc kJnTokenDrop
          else
            let s := s.onInst id (fun x => { x with ports := modAt x.ports port (fun p =>
              { p with cur := some t, last := some t, age := t.age }) })
            if port = 0 then s.checkMeas id t.age else s
        else if tag = (x.tag + 1) % 65536 then
          if p.nxt.isSome then s.inc kJnTokenDrop
          else s.onInst id (fun x => { x with ports := modAt x.ports port (fun p =>
            { p with nxt := some t, last := some t, age := t.age }) })
        else s.dropToken

/-- Inserts an id into an ascending list without repeats. -/
def insertId (i : Nat) : List Nat → List Nat
  | [] => [i]
  | x :: l => if i < x then i :: x :: l else if i = x then x :: l else x :: insertId i l

/-- Instances fire in ascending id, and so leave (R232). -/
def State.fireAll (s : State) (ids : List Nat) : State := (ids.foldr insertId []).foldl State.fire s

/-- A token arrives at a port. -/
def State.arrive (s : State) (id port tag : Nat) (t : Tok) : State := (s.place id port tag t).fire id

/-- A token that arrives at several ports at once: instance, port and tag. -/
def State.arriveAll (s : State) (l : List (Nat × Nat × Nat)) (t : Tok) : State :=
  (l.foldl (fun s p => s.place p.1 p.2.1 p.2.2 t) s).fireAll (l.map Prod.fst)

/-- The cycle number whose low 16 bits are a tag, at most the present one. -/
def State.tagCycle (s : State) (tag : Nat) : Nat := s.cycle - (s.cycle + 65536 - tag % 65536) % 65536

/-! ### Edges (R227, R240, R247) -/

/-- A user edge (R247). -/
structure Edge where
  kind : Nat
  port : Nat
  src : Nat
  dstKind : Nat
  dstPort : Nat
  dst : Nat
  dstSub : Nat
  next : Bool
deriving DecidableEq, Repr

/-- Edges of JN_EDGES. -/
def edgesOf (v : Bytes) : List Edge :=
  (records 12 v).map (fun r =>
    ⟨num r 0 1, num r 1 1, num r 2 2, num r 4 1, num r 5 1, num r 6 2, num r 8 1, (num r 9 1).testBit 0⟩)

/-- An object takes a token's bytes, and the slots that map it (R115, R247). -/
def State.toObject (s : State) (key cycle : Nat) (v : Bytes) : State := (s.setObj key v).txWrite key cycle v

/-- User edges from an output port. -/
def State.edgesFrom (s : State) (id port : Nat) : List Edge :=
  (edgesOf (s.obj kJnEdges)).filter (fun e => e.kind == 0 && e.src == id && e.port == port)

/-- Instance, port and tag of the ports that an output port feeds (R227, R240, R247). -/
def State.consumers (s : State) (id port tag : Nat) : List (Nat × Nat × Nat) :=
  let next := (tag + 1) % 65536
  let vendor :=
    if port ≠ 0 then []
    else if id < 8 then
      (List.range (s.nj id)).map (fun j => (8 + 8 * id + j, 0, tag)) ++ (if s.inMotion then [(80 + id, 0, tag)] else [])
    else if id < 72 then [(72 + (id - 8) / 8, (id - 8) % 8, tag)]
    else if id < 80 then []
    else if id < 88 then (List.range (s.nj (id - 80))).map (fun j => (8 + 8 * (id - 80) + j, 1, tag)) ++ [(id - 80, 1, next)]
    else []
  vendor ++ ((s.edgesFrom id port).filter (fun e => e.dstKind == 0)).map (fun e => (e.dst, e.dstPort, if e.next then next else tag))

/-- Puts one token along the edges of an output port. -/
def State.placeOut (s : State) (id port tag : Nat) (t : Tok) : State :=
  let s := (s.consumers id port tag).foldl (fun s p => s.place p.1 p.2.1 p.2.2 t) s
  let s := if port = 0 ∧ 72 ≤ id ∧ id < 80 then s.toObject (kArmSetpoint (id - 72)) s.cycle t.data else s
  ((s.edgesFrom id port).filter (fun e => e.dstKind != 0)).foldl (fun s e => s.toObject (objKey e.dst e.dstSub) s.cycle t.data) s

/-- Delivers the outputs of an instance; what they complete becomes ready together (R232). -/
def State.deliverOuts (s : State) (id tag : Nat) (late stale : Bool) (age : Nat) (outs : List Bytes) : State :=
  let ids := (List.range outs.length).flatMap (fun p => (s.consumers id p tag).map Prod.fst)
  (outs.zipIdx.foldl (fun s p => s.placeOut id p.2 tag ⟨p.1, late, stale, age, none⟩) s).fireAll ids

/-! ### Completion, LATE and aborts (R237, R238) -/

/-- A task completed on time: its state block is written back and its outputs are delivered (R226, R255). -/
def State.complete (s : State) (t : Fired) (block : Bytes) (stale : Bool) (age : Nat) (outs : List Bytes) : State :=
  let s := s.onInst t.inst (fun x =>
    { x with block := block, outs := some outs, consec := 0, aborted := false, stolen := t.stolen })
  s.deliverOuts t.inst t.tag false stale age outs

/-- round(x) to an integer, ties to even, of a binary64 pattern; 0 where it is not finite. -/
def roundF64 (b : Nat) : Int :=
  match f64.dec b with
  | .fin sg m e => if sg then -((roundDyadic m e : Nat) : Int) else (roundDyadic m e : Nat)
  | _ => 0

/-- Clamps an integer to the two's complement range of `n` bits. -/
def satBits (n : Nat) (v : Int) : Int := max (-(2 ^ (n - 1) : Nat)) (min v ((2 ^ (n - 1) : Nat) - 1))

/-- A setpoint entry (R243): POS, VEL and TORQUE of binary32 q, v and y, and CTRL. DEDUCED, log entry 43. -/
def State.spEntry (s : State) (j q v y ctrl : Nat) : Bytes :=
  let r := s.joint j
  let d x := f32.conv f64 x
  let scale := d (num r 96 4)
  let pos := roundF64 (f64.mul (d q) scale) + int r 100 4
  let pos := if (num r 1 1).testBit 0 then pos else satBits 32 pos
  leInt 4 pos ++ leInt 4 (satBits 32 (roundF64 (f64.mul (d v) scale))) ++
    leInt 2 (max (-32767) (min (roundF64 (f64.div (d y) (d (num r 104 4)))) 32767)) ++ le 2 ctrl

/-- The initial outputs of a template (R237): a joint loop's is R244's entry, the others are open, of a user template one for each output
port that an edge may name. DEDUCED, log entry 43. -/
def State.initialOuts (s : State) (id : Nat) : List Bytes × State :=
  if 8 ≤ id ∧ id < 72 then
    let j := id - 8
    ([s.spEntry j ((s.jn.dec.getD j none).elim 0 JointDec.q) 0 0 0], s)
  else
    let n := if id < 256 then 1 else 8
    ((List.range n).map (fun p => Config.freeBytes (s.free + p)), { s with free := s.free + n })

/-- CTRL LATE in the entry of every joint of an arm's setpoint block. -/
def lateBlock (nj : Nat) (b : Bytes) : Bytes := (List.range nj).foldl (fun b j => patch b (12 * j + 10) (le 2 (num b (12 * j + 10) 2 ||| 2))) b

/-- Previous outputs, flagged LATE, in place of a task's own (R237, R238). DEDUCED, log entry 43. -/
def State.lateOut (s : State) (id tag : Nat) : State :=
  match s.inst? id with
  | none => s
  | some x =>
    let (outs, s) := match x.outs with
      | some o => (o, s)
      | none => s.initialOuts id
    let s := ((s.inc kJnLateTotal).setBit kJnStatus 1 true)
    let s := if x.consec = 0 then s.log 0x0330 (le 2 id ++ [0, 0] ++ le 8 s.cycle) else s
    let consec := satInc 8 x.consec
    let s := s.onInst id (fun x => { x with late := satInc 16 x.late, consec := consec })
    let s := if 8 ≤ id ∧ id < 88 ∧ s.n kJnLateMax ≤ consec ∧ s.isIn [.run, .hold, .degraded] then s.stopDemand else s
    let outs := if 72 ≤ id ∧ id < 80 then outs.map (lateBlock (s.nj (id - 72))) else outs
    s.deliverOuts id tag true false 0 outs

/-- Removes an instance's task from the lists and the local slots. -/
def StJn.forget (j : StJn) (id : Nat) : StJn :=
  { j with
    ready := j.ready.map (fun l => l.filter (fun t => t.inst != id))
    delay := j.delay.map (fun l => l.filter (fun t => t.2.inst != id)) }

/-- A Lane drops an instance's task, running or prefetched. -/
def LaneSt.forget (l : LaneSt) (id : Nat) : LaneSt :=
  { l with
    task := if l.task.any (fun t => t.task.inst == id) then none else l.task
    dma := if l.task.any (fun t => t.task.inst == id) then none else l.dma
    slot := if l.slot.any (fun t => t.task.inst == id) then none else l.slot }

/-- The task of an instance that runs or waits. -/
def State.taskOf (s : State) (id : Nat) : Option Fired :=
  let run := s.lanes.filterMap (fun l => (l.task.map LaneTask.task))
  let slot := s.lanes.filterMap (fun l => (l.slot.map SlotTask.task))
  (run ++ slot ++ s.jn.ready.flatten ++ s.jn.delay.flatten.map Prod.snd).find? (fun t => t.inst == id)

/-- A running or waiting task is aborted: partial output is discarded, the state block stays (R237). DEDUCED, log entry 12. -/
def State.abortTask (s : State) (t : Fired) : State :=
  let s := { s with lanes := s.lanes.map (fun (l : LaneSt) => l.forget t.inst) }
  let s := (s.onJn (fun (j : StJn) => j.forget t.inst)).setBit kJnStatus 4 true
  (s.onInst t.inst (fun x => { x with aborted := true, stolen := t.stolen })).lateOut t.inst t.tag

/-- A Lane that runs a task of an instance counts its abort (R271, R272); what a vendor kernel did before has passed unseen. -/
def State.abortCounts (s : State) (id : Nat) : State :=
  match s.lanes.findIdx? (fun l => l.task.any (fun t => t.task.inst == id)) with
  | some l => (if s.vendorRun l then s.slack l else s).count l 1 [(2, 1), (0x12, 1)]
  | none => s

/-- TASK_ABORT (R237): the instance's task has reached its budget or deadline, or has not fired by its deadline. -/
def taskAbort (id : Fin 1024) (s : State) : State :=
  if s.mon.stopped then s
  else match s.taskOf id.val, s.inst? id.val with
  | some t, some _ => (s.abortCounts id.val).abortTask t
  | _, none => s
  | none, some x =>
    if !s.jnOn ∨ !tagDue x.tag s.cycle then s
    else (s.onInst id.val (fun x => { x with
      tag := (x.tag + 1) % 65536, ports := x.ports.map JPort.shift, aborted := false })).lateOut id.val x.tag

/-- TOKEN_ARRIVAL (R228). DEDUCED, log entry 43. -/
def tokenArrival (id : Fin 1024) (port : Fin 8) (t : Token) (s : State) : State :=
  s.arrive id.val port.val t.tag.toNat ⟨t.data, t.late, t.stale, t.age.toNat, none⟩

/-- The RX ports of an instance with the length of their range (R227, R230). -/
def State.rxPorts (s : State) (id : Nat) : List (Nat × Nat) :=
  let m := mapOf (s.obj kSlotMap)
  let mine := if id < 8 then
    (m.filter (fun e => e.rx && e.token && objKey e.index e.sub == kArmMeas id)).map (fun e => (0, e.len)) else []
  mine ++ ((edgesOf (s.obj kJnEdges)).filter (fun e => e.kind == 1 && e.dstKind == 0 && e.dst == id)).filterMap (fun e =>
    (m[e.src]?).map (fun r => (e.dstPort, r.len)))

/-- Fills the empty RX ports of an instance (R230). -/
def State.substitute (s : State) (x : InstSt) : State :=
  if !tagDue x.tag s.cycle then s
  else
    let empty := (s.rxPorts x.id).filter (fun p => (x.ports[p.1]?).any (fun q => q.cur.isNone))
    if empty.isEmpty then s
    else
      let s := (s.setBit kJnStatus 2 true).onInst x.id (fun x => { x with
        ports := empty.foldl (fun ps p => modAt ps p.1 (fun q =>
          let age := if q.last.isNone then 255 else min (q.age + 1) 255
          { q with cur := some { q.last.getD ⟨zeros p.2, false, true, 255, none⟩ with stale := true, age := age }, subst := true, age := age })) x.ports })
      let age := match s.inst? x.id with
        | some y => (y.ports.headD emptyPort).age
        | none => 0
      (s.checkMeas x.id age).fire x.id

/-- RX_DEADLINE_SUBSTITUTION (R230): 200 ns have passed since the RX deadline of the templates whose time it now is. -/
def rxDeadlineSubstitution (s : State) : State :=
  if !s.jnOn then s
  else
    let now := s.cellNs - s.cycle * s.tns
    let due := s.jn.insts.filter (fun x => let r := (s.tmpl x).rx; r != 0 && decide (r + 200 ≤ now))
    due.foldl (fun s x => s.substitute x) s

/-- RELEASE_TICK (R233): instances whose release tick has come move to their ready lists, in delay-list order. -/
def releaseTick (tick : Nat) (s : State) : State :=
  if s.mon.stopped then s
  else (List.range 8).foldl (fun s st =>
    let l := s.jn.delay.getD st []
    let out := l.filter (fun p => decide (p.1 ≤ tick))
    let s := s.onJn (fun j => { j with delay := modAt j.delay st (fun l => l.filter (fun p => decide (tick < p.1))) })
    out.foldl (fun s p => s.makeReady p.2) s) s

/-! ### Starting a task (R234, R251, R254, R268) -/

/-- Vendor entry addresses are in the vendor images, which the spec does not give. DEDUCED, log entry 57. -/
def State.entry (s : State) (kernel : Nat) : Nat :=
  if kernel < 0x80 then Config.vendorEntry kernel % 0x1000 * 4 else num s.jn.code (4 * (kernel - 0x80)) 4 % 65536

/-- The task descriptor (R254). -/
def taskDesc (x : InstSt) (tmpl : Nat) (t : Fired) : Bytes :=
  let port (i : Nat) : Nat := match t.ops[i]? with
    | some o => o.age % 256 * 256 + (if o.stale then 2 else 0) + b01 o.late
    | none => 0
  let off (i : Nat) : Nat := if i < t.ops.length then ((t.ops.take i).map (fun o => o.data.length)).sum else 0
  let len (i : Nat) : Nat := (t.ops[i]?).elim 0 (fun o => o.data.length)
  le 2 x.id ++ le 1 tmpl ++ le 1 t.ops.length ++ le 4 x.param ++ le 2 t.tag ++ zeros 6 ++
    ((List.range 8).map (fun i => le 2 (port i))).flatten ++ ((List.range 8).map (fun i => le 2 (off i))).flatten ++
    ((List.range 8).map (fun i => le 2 (len i))).flatten

/-- Local memory at a task start: the state block loaded, output area and table cleared (R253). DESIGN CHOICE, log entry 4. -/
def clearLocal (m : Mem) (block : Bytes) : Mem :=
  memWrite (m.filter (fun c => decide (c.1 < 0x40000))) 0x42000 block

/-- A Lane at the start of a task (R251). DESIGN CHOICE, log entry 4. -/
def LaneSt.begin (l : LaneSt) (x : InstSt) (m : Tmpl) (entry : Nat) (t : Fired) : LaneSt :=
  { g := List.replicate 32 0, q := List.replicate 32 0, rrb := 0, ac0 := 0, ac1 := 0, pc := BitVec.ofNat 16 entry, lstat := 0
    mem := clearLocal l.mem t.block
    task := some ⟨t, m.kernel, x.tmpl, taskDesc x x.tmpl t, (t.ops.map Tok.data).flatten, m.stateLen, m.outs⟩
    slot := none, dma := none, shadow := none }

/-- Prefetches the next task into an empty slot (R234, R235). -/
def State.prefetch (s : State) (l : Nat) : State :=
  if ((s.lanes[l]?).bind LaneSt.slot).isSome then s
  else match s.choose (l / 8) with
    | some (t, s) => s.onLane l (fun x => { x with slot := some t })
    | none => s

/-- TASK_START (R234, R235, R251). -/
def taskStart (lane : Fin 64) (s : State) : State :=
  let l := lane.val
  if ((s.lanes[l]?).bind LaneSt.task).isSome ∨ !s.jnOn ∨ !s.street (l / 8) then s
  else
    let s := s.prefetch l
    match (s.lanes[l]?).bind LaneSt.slot with
    | none => s
    | some t =>
      match s.inst? t.task.inst with
      | none => s.onLane l (fun x => { x with slot := none })
      | some x =>
        let m := s.tmpl x
        ((s.onLane l (fun y => y.begin x m (s.entry m.kernel) t.task)).count l 1
          [(3, 1), (0x10, 1), (0x13, b01 t.task.stolen)]).prefetch l

/-- DMA_DONE (R267). DEDUCED, log entry 42. -/
def dmaDone (lane : Fin 64) (s : State) : State := if s.mon.stopped then s else s.onLane lane.val (fun l => { l with dma := none })

end Sys2Proof.Machine
end

