-- ==== Sys2Proof/Machine/Recorder.lean ====
section
/-! DEFINITION. The event recorder (R427 to R441, R455, R456): page programs and sector erases, save entries, the final record,
the mount, and what its objects read. -/

namespace Sys2Proof.Machine

/-- Replaces the recorder's state. -/
def State.onRec (s : State) (f : StRec → StRec) : State := { s with recd := f s.recd }

/-- Number of the ring. -/
def recRing : RecRing → Bool
  | .safety => true
  | .general => false

/-- Appends a record to the sector being filled. -/
def RecRingSt.append (r : RecRingSt) (b : Bytes) : RecRingSt :=
  match r.sectors.getLast? with
  | some x => { r with sectors := r.sectors.dropLast ++ [{ x with recs := x.recs ++ [b] }] }
  | none => r

/-- The flash holds `n` more bytes of the queue: whole records join the sector, the rest of a page is progress. -/
def RecRingSt.programmed : Nat → Nat → RecRingSt → RecRingSt
  | 0, _, r => r
  | f + 1, n, r =>
    match r.queue with
    | [] => r
    | b :: q =>
      let rest := b.length - r.progressed
      if rest ≤ n then RecRingSt.programmed f (n - rest) { r.append b with queue := q, progressed := 0 }
      else { r with progressed := r.progressed + n }

/-- Drops `n` records of a ring (R433). -/
def State.drops (s : State) (safety : Bool) (n : Nat) : State :=
  if n = 0 then s
  else
    let off := if safety then 0 else 4
    let v := s.sub kRecDrops off 4 + n
    (s.patchObj kRecDrops off (le 4 (if v < 2 ^ 32 then v else 2 ^ 32 - 1))).setBit kRecStatus (if safety then 3 else 4) true

/-- A ring with fewer than 4 usable sectors stops: FLASH_OK clears and its records are dropped (R435). -/
def State.checkUsable (s : State) (safety : Bool) : State :=
  let r := s.recd.ring safety
  if r.usable s.recd.bad < 4 then
    let s := (s.drops safety r.queue.length).onRec (fun x => x.onRing safety (fun r =>
      { r with queue := [], progressed := 0, lost := r.lost || !r.queue.isEmpty }))
    s.setBit kRecStatus 0 false
  else s

/-- FLASH_PROGRAM_DONE (R429, R433, R435). -/
def flashProgramDone (ring : RecRing) (ok : Bool) (s : State) : State :=
  let safety := recRing ring
  match s.recd.programming with
  | some (p, n) =>
    if p ≠ safety then s
    else
      let s := s.onRec (fun x => { x with programming := none })
      let s :=
        if ok then s.onRec (fun x => x.onRing safety (fun r => RecRingSt.programmed (n + 1) n r))
        else
          let bad := ((s.recd.ring safety).sectors.getLast?.map RecSector.num).toList
          (s.onRec (fun x => { x.onRing safety (fun r => { r with progressed := 0 }) with bad := x.bad ++ bad })).checkUsable safety
      s.onRec StRec.start
  | none => s

/-- SECTOR_ERASE_DONE (R433, R435). -/
def sectorEraseDone (ring : RecRing) (ok : Bool) (s : State) : State :=
  let safety := recRing ring
  match (s.recd.ring safety).waiting, (s.recd.ring safety).erasing with
  | true, _ => s
  | false, none => s
  | false, some n =>
    let s :=
      if ok then s.onRec (fun x => x.onRing safety (fun r => { r with erasing := none, ahead := some n }))
      else
        let s := s.onRec (fun x => { x with bad := x.bad ++ [n] })
        (s.onRec (fun x => x.onRing safety (fun r =>
          { r with erasing := some (nextSector r x.bad (x.bad.length + 1) n), waiting := r.defer }))).checkUsable safety
    s.onRec StRec.start

/-- Writes a save entry into the control sector whose turn it is (R438). -/
def State.saveEntry (s : State) (kind : Nat) : State :=
  s.onRec (fun x =>
    let e : SaveEntry := ⟨x.optime, x.pcc, kind⟩
    if x.saveNext then { x with save1 := some e, saveNext := false } else { x with save0 := some e, saveNext := true })

/-- The newest save entry. DEDUCED, log entry 55. -/
def StRec.newest (x : StRec) : Option SaveEntry := if x.saveNext then x.save0 else x.save1

/-- PERIODIC_SAVE (R438, R439): a periodic entry and the time anchor. -/
def periodicSave (s : State) : State :=
  if !s.recd.mounted then s
  else
    let s := s.saveEntry 0
    let r := s.n kRefEffective
    let utc := if r = 0 then zeros 2 else s.obj (kDomUtcOffset (r - 1))
    s.log 0x0108 (le 8 s.recd.optime ++ s.cellTime ++ le 1 r ++ [0] ++ utc)

/-- Writes what a ring's queue holds into its sectors, as far as erased sectors allow (R436). -/
def RecRingSt.flush (bad : List Nat) (pcc : Nat) : Nat → RecRingSt → RecRingSt
  | 0, r => r
  | f + 1, r =>
    match r.queue with
    | [] => r
    | b :: q =>
      let r := if r.progressed = 0 ∧ r.needsSector bad then r.openSector bad pcc else r
      if r.progressed = 0 ∧ r.needsSector bad then r
      else RecRingSt.flush bad pcc f { r.append b with queue := q, progressed := 0 }

/-- The steps of R436 at shedding stage S5. -/
def State.finalRecord (s : State) (trigger : Nat) : State :=
  if !s.recd.mounted then s
  else
    let s := s.onRec (fun x =>
      let sf := x.safety.flush x.bad x.pcc (x.safety.queue.length + 1)
      let g := x.general
      let b := recordBytes (0x20 + (if s.standby then 4 else 0) + (if g.lost then 16 else 0)) 0x0260 x.optime x.pcc g.nextSeq
        (le 1 trigger ++ [0, 0, 0] ++ le 8 x.optime)
      let g := { g with queue := [b], progressed := 0, nextSeq := (g.nextSeq + 1) % 2 ^ 24, lost := false }.flush x.bad x.pcc 2
      { x with stopped := true, safety := sf, general := g, programming := none,
               stats := countType x.optime 0x0260 x.stats })
    s.saveEntry 1

/-- A ring at a mount: the queue is lost and SEQ goes on from the newest valid record (R431, R436). -/
def RecRingSt.mount (r : RecRingSt) : RecRingSt :=
  let next := match (r.sectors.map RecSector.recs).flatten.getLast? with
    | some b => (num b 13 3 + 1) % 2 ^ 24
    | none => r.nextSeq
  { r with queue := [], progressed := 0, nextSeq := next, lost := false }

/-- The mount of the recorder at a cold boot (R26, R436, R439). -/
def State.mountRecorder (s : State) : State :=
  let e := s.recd.newest
  let gap := (e.map SaveEntry.kind) == some 0
  let torn := s.recd.torn
  let s := s.onRec (fun x => { x with
    optime := (e.map SaveEntry.optime).getD 0
    pcc := (e.map SaveEntry.pcc).getD 0 + 1
    mounted := true, stopped := false, programming := none, stats := []
    safety := x.safety.mount, general := x.general.mount, torn := false })
  let s := (s.setObj kRecDrops (zeros 8)).saveEntry 2
  let s := if gap then s.setBit kRecStatus 7 true else s
  let s := if torn then s.setBit kRecStatus 6 true else s
  let ok := !(s.recd.safety.usable s.recd.bad < 4) && !(s.recd.general.usable s.recd.bad < 4)
  let s := s.setBit kRecStatus 0 ok
  let held := s.dev.held
  let s := { s with dev := { s.dev with held := [] } }
  held.foldl (fun (s : State) h =>
    let now := s.recd.optime
    let s := s.onRec (fun x => { x with optime := h.2 })
    let s := s.log h.1.type (le 1 h.1.unit ++ [0, 0, 0] ++ le 8 h.1.cycle ++ le 4 h.1.detail)
    s.onRec (fun x => { x with optime := now })) s

/-- The recorder at a power-on reset: a record being programmed is torn, the queues are lost (R436). DEDUCED, log entry 9. -/
def StRec.powerOff (x : StRec) : StRec :=
  { x with
    torn := x.torn || x.programming.isSome || x.safety.progressed != 0 || x.general.progressed != 0
    mounted := false, stopped := false, programming := none, tickCnt := 0
    safety := { x.safety with queue := [], progressed := 0 }
    general := { x.general.undefer with queue := [], progressed := 0 } }

/-- RECORD_REQUEST (R433, R434, R437). -/
def recordRequest (source : BitVec 2) (type : W16) (software : Bool) (payload : Bytes) (s : State) : State :=
  s.record source.toNat type.toNat software payload

/-! ### Reading (R440, R455) -/

/-- SEQ of a record. -/
def recSeq (b : Bytes) : Nat := num b 13 3

/-- Records that a ring holds in flash, oldest first. -/
def RecRingSt.all (r : RecRingSt) : List Bytes := (r.sectors.map RecSector.recs).flatten

/-- REC_SAFE_RANGE or REC_GEN_RANGE (R455). -/
def RecRingSt.range (r : RecRingSt) : Bytes :=
  match r.all.head?, r.all.getLast? with
  | some a, some b => le 4 (recSeq a) ++ le 4 (recSeq b)
  | _, _ => le 4 (2 ^ 31 + r.nextSeq) ++ le 4 (2 ^ 31 + (r.nextSeq + 2 ^ 24 - 1) % 2 ^ 24)

/-- Whole records while they stay within a number of bytes. -/
def takeBytes : Nat → List Bytes → Bytes
  | _, [] => []
  | n, b :: l => if b.length ≤ n then b ++ takeBytes (n - b.length) l else []

/-- REC_SAFE_DATA or REC_GEN_DATA from a cursor (R440). -/
def RecRingSt.read (r : RecRingSt) (cursor : Nat) : Bytes :=
  let all := r.all
  match all.head?, all.getLast? with
  | some a, some b =>
    let back (c : Nat) := (c % 2 ^ 24 + 2 ^ 24 - recSeq a) % 2 ^ 24
    if back cursor ≤ back (recSeq b) then takeBytes 65536 (all.filter (fun x => decide (back cursor ≤ back (recSeq x)))) else []
  | _, _ => []

/-- One record of REC_TYPE_STATS. -/
def typeRecord (type recent total : Nat) : Bytes := le 2 type ++ le 2 (min recent 65535) ++ le 4 (min total (2 ^ 32 - 1))

/-- REC_TYPE_STATS (R455). -/
def StRec.typeStats (x : StRec) : Bytes :=
  let first := x.stats.take 63
  let more := x.stats.drop 63
  (first.map (fun t => typeRecord t.type (t.recent x.optime) t.total)).flatten ++ zeros (8 * (63 - first.length)) ++
    typeRecord 0xFFFF ((more.map (fun t => t.recent x.optime)).sum) ((more.map TypeStat.total).sum)

/-- REC_LAYOUT (R455). -/
def StRec.layout (x : StRec) : Bytes :=
  le 4 x.sectorsTotal ++ le 4 x.safety.count ++ le 4 x.general.count ++ le 4 x.bad.length

/-- REC_STATUS as it reads (R456). -/
def State.recStatus (s : State) : Nat :=
  let v := Machine.setBit (s.n kRecStatus) 1 s.recd.safety.wrapped
  Machine.setBit (Machine.setBit v 2 s.recd.general.wrapped) 8 s.standby

/-! ### Clearing (R441) -/

/-- An erased ring that keeps its SEQ. -/
def RecRingSt.clear (r : RecRingSt) (bad : List Nat) (first count : Nat) : RecRingSt :=
  let r := { r with first := first, count := count }
  let a := if bad.contains first then nextSector r bad (bad.length + 1) first else first
  { r with sectors := [], queue := [], progressed := 0, ahead := some a, erasing := none, waiting := false }

/-- The newest SEQ that a clear discards; 0 stands free where the ring is not cleared. -/
def State.discarded (s : State) (safety : Bool) : Nat := ((s.recd.ring safety).nextSeq + 2 ^ 24 - 1) % 2 ^ 24

/-- Erases the rings of a mask and writes the first record of the general ring. -/
def State.clearRings (s : State) (mask type : Nat) (nSafe : Nat) : State :=
  let (f0, s) := s.fresh
  let (f1, s) := s.fresh
  let d0 := if mask.testBit 0 then s.discarded true else f0
  let d1 := if mask.testBit 1 then s.discarded false else f1
  let s := s.onRec (fun x =>
    let stop := match x.programming with
      | some (p, _) => if mask.testBit (if p then 0 else 1) then none else x.programming
      | none => none
    { x with
      programming := stop
      safety := if mask.testBit 0 then x.safety.clear x.bad 2 nSafe else x.safety
      general := if mask.testBit 1 then x.general.clear x.bad (2 + nSafe) (x.sectorsTotal - 2 - nSafe) else x.general })
  s.log type (le 1 mask ++ [0, 0, 0] ++ le 4 d0 ++ le 4 d1)

/-- A WO object that is written only in some states. -/
def onlyIn (s : State) (l : List DevState) : Nat := if s.isIn l then 0 else abState

/-- The effect of REC_CLEAR. -/
def recClearEff (v : Bytes) (s : State) : State :=
  let m := leVal v % 4
  if m = 0 then s else s.clearRings m 0x0106 s.recd.safety.count

/-- The effect of REC_SAFE_SECT. -/
def recSafeSectEff (v : Bytes) (s : State) : State :=
  (s.setObj kRecSafeSect v).clearRings 3 0x0107 (leVal v)

/-- The own check of REC_SAFE_SECT: 4 to S − 6. -/
def recSafeSectOwn (v : Bytes) (s : State) : Nat :=
  if leVal v < 4 ∨ s.recd.sectorsTotal < leVal v + 6 then abRange else 0

/-- REC_CLEAR (R441). -/
def recClear (rq : Requester) (v : Byte) (s : State) : State :=
  submitWrite rq 0x8000 0x06 [v] (fun s => onlyIn s [.service]) (recClearEff [v]) s

/-- REC_SAFE_SECT (R441). -/
def recSafeSect (rq : Requester) (v : W32) (s : State) : State :=
  submitWrite rq 0x8000 0x05 (le 4 v.toNat) (recSafeSectOwn (le 4 v.toNat)) (recSafeSectEff (le 4 v.toNat)) s

end Sys2Proof.Machine
end

