-- ==== Sys2Proof/Machine/SafetyIn.lean ====
section
/-! DEFINITION. Safe inputs, demands, outputs and channel faults (chapter "Safety functions", R311 to R325, R335, R337, R345,
R348 to R352). Channel flags: true is channel H, false channel P. -/

namespace Sys2Proof.Machine

/-! ### Parameters -/

/-- Replaces the Safety Quarter's state. -/
def State.onSafe (s : State) (f : StSafe → StSafe) : State := { s with safe := f s.safe }

/-- A 4-byte field of SAFE_GLOBAL (R350). -/
def State.glob (s : State) (off : Nat) : Nat := s.sub kSafeGlobal off 4

/-- A field of an arm's SAFE_ARM record (R352). -/
def State.armPar (s : State) (a off n : Nat) : Nat := s.sub (kSafeArm a) off n

/-- An arm of the Safety Quarter. -/
def State.sarm (s : State) (a : Nat) : SafeArm := s.safe.arms.getD a .reset

/-- Changes one arm. -/
def State.onArm (s : State) (a : Nat) (f : SafeArm → SafeArm) : State :=
  s.onSafe (fun x => { x with arms := modAt x.arms a f })

/-- Changes every arm, its number given. -/
def State.onArms (s : State) (f : Nat → SafeArm → SafeArm) : State :=
  s.onSafe (fun x => { x with arms := x.arms.zipIdx.map (fun p => f p.2 p.1) })

/-- A channel is not faulted (R349). -/
def State.chOk (s : State) (h : Bool) : Bool := s.bit kSafeStatus (b01 h)

/-- The function of an input (R323), a field of its SAFE_IN_CFG record (R351). -/
def State.inField (s : State) (i off : Nat) : Nat := s.sub kSafeInCfg (8 * i + off) 1
def State.inFunc (s : State) (i : Nat) : Nat := s.inField i 0

/-- Inputs of a function. -/
def State.inputs (s : State) (func : Nat) : List Nat := (List.range 32).filter (fun i => s.inFunc i == func)

/-- The filtered contact of an input in a channel. -/
def State.contact (s : State) (h : Bool) (i : Nat) : Bool := (if h then s.safe.scanH.acc else s.safe.scanP.acc).testBit i

/-- A contact shows demand (R322): equivalent reads 0; antivalent reads 0 on chain A, 1 on chain B. -/
def State.contactDemand (s : State) (h : Bool) (i : Nat) : Bool :=
  if s.inField i 1 = 1 ∧ !h then s.contact h i else !s.contact h i

/-- An input is in demand for a channel; a faulted input is held in demand. -/
def State.inDemand (s : State) (h : Bool) (i : Nat) : Bool := s.bit kSafeInFault i || s.contactDemand h i

/-- In demand for either channel. -/
def State.anyDemand (s : State) (i : Nat) : Bool := s.inDemand false i || s.inDemand true i

/-! ### Mode (R323, R325, R341) -/

/-- The switch words in force: those of the last CFG_COMMIT, else those read at start-up. -/
def State.swInForce (s : State) : Nat × Nat := s.safe.swCommit.getD (s.safe.swA.getD 0, s.safe.swB.getD 0)

/-- A bit of both switch words. -/
def State.swBit (s : State) (b : Nat) : Bool := s.swInForce.1.testBit b && s.swInForce.2.testBit b

/-- Automatic mode: a MODE_AUTO input out of demand in both channels, and AUTO_EN. -/
def State.automatic (s : State) : Bool :=
  match s.inputs 5 with
  | [] => false
  | i :: _ => !s.anyDemand i && s.swBit 0

/-- The enabling device is enabled: both contacts of every ENABLE_DEV input read 1. -/
def State.enabled (s : State) : Bool :=
  let l := s.inputs 4
  !l.isEmpty && l.all (fun i => s.contact false i && s.contact true i && !s.bit kSafeInFault i)

/-! ### Demands (R313, R323) -/

/-- Demand bits of SAFE_VERDICT that an input gives a channel. -/
def State.inputKind (s : State) (h : Bool) (i : Nat) : Nat :=
  let f := s.inFunc i
  if (f = 1 ∨ f = 2 ∧ s.automatic) ∧ s.inDemand h i then 2 ^ min (s.inField i 4) 2 else 0

/-- Demand bits of the cell that the inputs give a channel. -/
def State.inputDemand (s : State) (h : Bool) : Nat := (List.range 32).foldl (fun m i => m ||| s.inputKind h i) 0

/-- The limits of channel P, binary32, of the cases that make SLS active for an arm (R318). -/
def State.slsLimits (s : State) (a : Nat) : List Nat :=
  (if s.automatic then [] else [s.armPar a 8 4]) ++ (if s.dev.state = .degraded then [s.armPar a 12 4] else []) ++
    (if (s.inputs 7).any (fun i => s.anyDemand i && (s.inField i 5).testBit a) then [s.armPar a 4 4] else [])

/-- Demand bits of an arm in a channel, as SAFE_VERDICT reads them. -/
def State.demand (s : State) (h : Bool) (a : Nat) : Nat :=
  let x := s.sarm a
  s.inputDemand h ||| (if h then x.demH else x.demP) ||| (if (s.slsLimits a).isEmpty then 0 else 16) |||
    (if x.ss1.isSome then 2 else 0) ||| (if if h then x.verdH else x.verdP then 8 else 0)

/-- SAFE_VERDICT (R348). -/
def State.verdicts (s : State) : Bytes :=
  ((List.range 8).map (fun a => le 1 (s.demand false a) ++ le 1 (s.demand true a) ++ [0, 0])).flatten

/-- Joint count rates that a channel has verified for an arm, as magnitudes. -/
def SafeArm.speeds (x : SafeArm) : List Nat :=
  match x.meas with
  | some (_, v) => v.map Int.natAbs
  | none => []

/-- An envelope that begins now. -/
def State.env (s : State) (x : SafeArm) : Env := ⟨s.cellNs, x.speeds⟩

/-- SS1 starts for every present arm that is not yet under STO in both halves (R313, R315). -/
def State.beginSs1 (s : State) : State :=
  s.onArms (fun a x => if x.ss1.isSome || x.stoP && x.stoH || s.nj a == 0 then x else { x with ss1 := some (s.env x) })

/-- STO of one channel for an arm: brakes are applied at once (R313, R337), by channel H with both channels of the brake outputs,
by channel P with its enable for channel B (R311, R335). -/
def SafeArm.sto (h : Bool) (x : SafeArm) : SafeArm :=
  let x := { x with ss1 := none, stopEnv := none, holdEnv := none, stood := false, closing := false }
  if h then { x with stoH := true, release := .applied }
  else { x with stoP := true, offP := true, release := if x.release = .wanted then .applied else x.release }

/-- STO in both halves. -/
def SafeArm.stoBoth (x : SafeArm) : SafeArm := (x.sto true).sto false

/-- Channel number in records of R347. -/
def chanNo (h : Bool) : Nat := b01 h

/-- A record of the Safety Quarter (R347): SOURCE is the SP for channel P and the Kerb for channel H (R430). DEDUCED, log entry 12. -/
def State.safeLog (s : State) (h : Bool) (type : Nat) (payload : Bytes) : State := s.record (if h then 2 else 1) type false payload

/-- Record 0x0401 (R347): channel, demand kind as its bit in SAFE_VERDICT, input or arm. DEDUCED, log entry 50. -/
def State.stopRecord (s : State) (h : Bool) (kind who : Nat) : State :=
  s.safeLog h 0x0401 (le 1 (chanNo h) ++ le 1 kind ++ le 1 who ++ [0] ++ le 8 s.cycle)

/-- A stop demand of a safety channel arises: it waits for its cycle start, and sets the SAFETY interrupt (R25, R313, R418). -/
def State.safetyStop (s : State) : State := s.stopDemand.interrupt 5

/-- A demand of a channel that starts: the Kerb acts at once, the state follows at the cycle start (R28, R313, R314).
DEDUCED, log entry 50. -/
def State.act (s : State) (h : Bool) (kind who : Nat) : State :=
  let s := s.stopRecord h kind who
  match kind with
  | 0 => (s.onArms (fun _ x => x.sto h)).safetyStop
  | 1 => s.beginSs1.safetyStop
  | _ => { s with dev := { s.dev with ss2Demand := true } }

/-! ### Outputs (R335, R337, R351) -/

/-- The unit may drive its outputs: it owns them, and neither the Kerb's detector, a clock watcher nor shedding stage S5 forces
them inert (R467, R480, R481). -/
def State.mayDrive (s : State) : Bool :=
  s.owner && !s.pair.inert && !s.mon.safeLow && !s.mon.tripRef && !s.mon.tripGuard && decide (s.n kShedStage < 5)

/-- The unit drives its safe outputs: its state is not one of R23. -/
def State.drives (s : State) : Bool := s.mayDrive && !s.isIn [.inert, .fault, .service]

/-- The unit drives its brake outputs; in a FAULT that R25 enters by SS1, until SS1 applies each arm's brakes. DEDUCED, log entry 50. -/
def State.drivesBrakes (s : State) : Bool :=
  s.mayDrive && (!s.isIn [.inert, .fault, .service] || s.dev.state == .fault && s.safe.arms.any (fun x => x.ss1.isSome))

/-- No demand of a channel for any present arm, and none that waits for the cycle start. -/
def State.noDemand (s : State) (h : Bool) : Bool :=
  !s.dev.stopDemand && !s.dev.ss2Demand && s.inputDemand h == 0 && s.arms.all (fun a => s.demand h a == 0)

/-- What a channel's view makes of a safe output (R351). DEDUCED, log entry 50. -/
def State.safeOutput (s : State) (h : Bool) (o : Nat) : Bool :=
  let m := s.sub kSafeOutCfg (8 * o + 1) 1
  match s.sub kSafeOutCfg (8 * o) 1 with
  | 1 => (bitsOf 8 m).all (fun a => !(if h then (s.sarm a).stoH else (s.sarm a).stoP)) && m != 0
  | 2 => s.isIn [.run, .hold, .degraded] && s.noDemand h
  | 3 => (bitsOf 8 m).all (fun a => !(s.sarm a).armStop)
  | _ => false

/-- A channel's view of a brake output (R311, R337): its arm's release has begun, and the channel has not withdrawn it. -/
def State.brakeOutput (s : State) (h : Bool) (b : Nat) : Bool :=
  let a := s.sub kSafeBrkCfg (4 * b) 1
  decide (a < 8) && (h || !(s.sarm a).offP) && match (s.sarm a).release with
    | .applied => false
    | .wanted => false
    | .opening => true
    | .released => true

/-- Commanded outputs of a view of the demands. -/
def State.outputMask (s : State) (h : Bool) : Nat :=
  maskOf ((List.range 16).filter (fun o => s.drives && s.safeOutput h o) ++
    ((List.range 16).filter (fun b => s.drivesBrakes && s.brakeOutput h b)).map (· + 16))

/-- Drives the outputs: channel A by the Kerb, channel B by the Kerb and the SP's enable (R335). DEDUCED, log entry 50. -/
def State.drive (s : State) : State :=
  let k := s.outputMask true
  s.onSafe (fun x => { x with outA := k, outB := k &&& s.outputMask false })

/-- SAFE_OUT_STATE: on in both channels. -/
def State.outState (s : State) : Nat := s.safe.outA &&& s.safe.outB

/-! ### Channel faults (R312) -/

/-- SAFE_CH_FAULT byte of a channel. -/
def State.chFault (s : State) (h : Bool) : Nat := s.sub kSafeChFault (b01 h) 1

/-- Sets a channel's fault code and clears its OK bit. -/
def State.setChFault (s : State) (h : Bool) (code : Nat) : State :=
  (s.patchObj kSafeChFault (b01 h) (le 1 code)).setBit kSafeStatus (b01 h) false

/-- Record 0x0402 of a fault of a channel (R347), which the other channel writes. DEDUCED, log entry 12. -/
def State.chanRecord (s : State) (h : Bool) (code : Nat) : State := s.safeLog (!h) 0x0402 (le 1 code ++ [0, 0, 0] ++ le 8 s.cycle)

/-- A single-channel fault; with both channels faulted, a device fault (R25, R26, R312). A failure of the exchange link
counts as one fault, so a later fault of either channel is the second. DEDUCED, log entry 50. -/
def State.chanFault (s : State) (h : Bool) (code : Nat) : State :=
  let link := s.chFault false = 8 ∧ s.chFault true = 7
  let second (s : State) : State :=
    { s with dev := { s.dev with deviceFaults := s.dev.deviceFaults ++ [⟨0x0207, 0xFF, s.cycle, s.n kSafeChFault⟩] } }
  if link then
    if code = 7 ∨ code = 8 then s else second ((s.setChFault h code).chanRecord h code)
  else if s.chFault h ≠ 0 then s
  else
    let s := (s.setChFault h code).chanRecord h code
    if s.chFault (!h) ≠ 0 then second s else { s with dev := { s.dev with chanFaults := s.dev.chanFaults ++ [(h, code)] } }

/-- The exchange link fails: each channel declares the other faulted, as one fault (R312). DEDUCED, log entry 50. -/
def State.linkFault (s : State) : State :=
  if s.chFault false ≠ 0 ∨ s.chFault true ≠ 0 then s
  else
    let s := (s.setChFault false 8).setChFault true 7
    let s := (s.chanRecord false 8).chanRecord true 7
    { s with dev := { s.dev with chanFaults := s.dev.chanFaults ++ [(false, 8)] } }

/-! ### Input faults and the guard test (R322, R345) -/

/-- An input is faulted: record 0x0403 with the kind. -/
def State.inputFault (s : State) (i kind : Nat) : State :=
  let s := s.onSafe (fun x => { x with shown := Machine.setBit x.shown i false })
  if s.bit kSafeInFault i then s
  else ((s.setBit kSafeInFault i true).setBit kSafeStatus 8 true).safeLog false 0x0403 (le 1 i ++ le 1 kind ++ [0, 0])

/-- What both contacts of an input show now: a faulted input that showed demand and leaves it is cleared; a guard that
showed demand and leaves it is tested. -/
def State.settleInput (s : State) (i : Nat) : State :=
  let p := s.contactDemand false i
  let h := s.contactDemand true i
  if p && h then
    s.onSafe (fun x => { x with
      shown := if s.bit kSafeInFault i then Machine.setBit x.shown i true else x.shown
      guardIn := Machine.setBit x.guardIn i true })
  else if !p && !h then
    let s := if s.bit kSafeInFault i ∧ s.safe.shown.testBit i then
        let s := s.setBit kSafeInFault i false
        s.setBit kSafeStatus 8 (s.n kSafeInFault != 0)
      else s
    s.onSafe (fun x => { x with
      shown := Machine.setBit x.shown i false
      guardDone := if x.guardIn.testBit i then Machine.setBit x.guardDone i true else x.guardDone
      guardIn := Machine.setBit x.guardIn i false })
  else s

/-- GUARD_TESTED (R345), once the safety set of the boot is loaded; it holds until a cold boot. DEDUCED, log entry 51. -/
def State.guardTest (s : State) : State :=
  if s.dev.phase = .up ∧ (s.inputs 2 ++ s.inputs 3).all (fun i => s.safe.guardDone.testBit i) then s.setBit kSafeStatus 2 true else s

/-! ### RESET and the latch (R324) -/

/-- Every ESTOP input is out of demand in both channels. -/
def State.estopsOut (s : State) : Bool := (s.inputs 1).all (fun i => !s.anyDemand i)

/-- The RESET input: held from 0.1 to 5 s, counted in scans of 12.8 µs, and released. -/
def State.resetInput (s : State) : State :=
  match s.inputs 6 with
  | [] => s
  | i :: _ =>
    let p := s.inDemand false i
    let h := s.inDemand true i
    match s.safe.resetAt with
    | none => if p && h then s.onSafe (fun x => { x with resetAt := some x.scanH.num }) else s
    | some n =>
      if p || h then s
      else
        let d := (s.safe.scanH.num - n) * 128
        let s := s.onSafe (fun x => { x with resetAt := none })
        if 1000000 ≤ d ∧ d ≤ 50000000 ∧ s.estopsOut then s.setBit kSafeStatus 4 false else s

/-! ### Evaluation of the inputs after a change -/

/-- Stop and SS2 demands of inputs that start between two states, with the latch of ESTOP. DEDUCED, log entry 50. -/
def State.newDemands (old s : State) (h : Bool) : State :=
  (List.range 32).foldl (fun s i =>
    let k := s.inputKind h i
    let s := if s.inFunc i = 1 ∧ k ≠ 0 then s.setBit kSafeStatus 4 true else s
    if k = 0 ∨ old.inputKind h i ≠ 0 then s
    else if old.inputKind (!h) i ≠ 0 ∨ s.inputKind (!h) i ≠ 0 ∧ h then
      let kind := min (s.inField i 4) 2
      if kind = 0 then s.onArms (fun _ x => x.sto h) else s
    else s.act h (min (s.inField i 4) 2) i) s

/-- What the inputs demand after a change from `old` (R323 to R325, R345). -/
def State.evalInputs (old s : State) : State :=
  let s := (List.range 32).foldl (fun s i => s.settleInput i) s
  let s := State.newDemands old s false
  let s := State.newDemands old s true
  let moving := s.isIn [.run, .hold, .degraded]
  let s := if moving ∧ old.automatic ≠ s.automatic then s.act true 1 ((s.inputs 5).headD 0xFF) else s
  let s := if moving ∧ !s.automatic ∧ old.enabled ∧ !s.enabled then s.act true 1 ((s.inputs 4).headD 0xFF) else s
  let s := s.resetInput.guardTest
  let s := (s.setBit kSafeStatus 3 s.automatic).setN kSafeMode (b01 s.automatic)
  (s.setBit kSafeStatus 16 ((List.range 8).any (fun a => decide (s.nj a ≠ 0) && !(s.slsLimits a).isEmpty))).drive

/-! ### SAFE_SCAN (R320 to R322) -/

/-- Test source of an input on a chain. -/
def State.source (s : State) (h : Bool) (i : Nat) : Nat := s.inField i (if h then 2 else 3)

/-- The source that pulses in a scan. -/
def pulseSource (n : Nat) : Option Nat := if n % 2 = 0 then some (n % 8 / 2) else none

/-- Inputs that read 1 in a pulse scan of their own source. -/
def stuckInputs (src : Nat → Nat) (n img : Nat) : List Nat :=
  match pulseSource n with
  | some k => (List.range 32).filter (fun i => src i == k && img.testBit i)
  | none => []

/-- Inputs that read 0 in the previous scan, a pulse scan of another source, and 1 before and after it. -/
def crossedInputs (src : Nat → Nat) (x : ScanSt) (img : Nat) : List Nat :=
  match x.h1, x.h2 with
  | some a, some b =>
    match pulseSource (x.num - 1) with
    | some k =>
      if x.num = 0 then []
      else (List.range 32).filter (fun i => src i != 0xFF && src i != k && !a.testBit i && b.testBit i && img.testBit i)
    | none => []
  | _, _ => []

/-- A usable scan enters the filter: an input keeps its value in a pulse scan of its own source (R321, R322). -/
def ScanSt.take (x : ScanSt) (src : Nat → Nat) (img : Nat) : ScanSt :=
  (List.range 32).foldl (fun x i =>
    if pulseSource x.num = some (src i) then x
    else
      let v := img.testBit i
      { x with
        acc := if x.seen.testBit i ∧ x.last.testBit i = v then setBit x.acc i v else x.acc
        last := setBit x.last i v
        seen := setBit x.seen i true }) x

/-- The chain of a channel. -/
def StSafe.scan (x : StSafe) (h : Bool) : ScanSt := if h then x.scanH else x.scanP

/-- Replaces the chain of a channel. -/
def StSafe.setScan (x : StSafe) (h : Bool) (c : ScanSt) : StSafe := if h then { x with scanH := c } else { x with scanP := c }

/-- Test-pulse faults of a scan. -/
def State.pulseFaults (s : State) (h : Bool) (img : Nat) : State :=
  let x := s.safe.scan h
  let crossed := crossedInputs (s.source h) x img
  let period := (x.num - 1) / 8
  let bad := crossed.filter (fun i => decide (0 < period) && x.cross.getD i none == some (period - 1))
  let s := s.onSafe (fun y => y.setScan h { y.scan h with
    cross := (y.scan h).cross.zipIdx.map (fun p => if crossed.contains p.2 then some period else p.1) })
  let s := (stuckInputs (s.source h) x.num img).foldl (fun s i => s.inputFault i 1) s
  bad.foldl (fun s i => s.inputFault i 2) s

/-- SAFE_SCAN (R16, R320 to R325): the scan runs from the Kerb's self-test on, while the device boots too (R17, R29). -/
def safeScan (ch : SafeChan) (bits : BitVec 40) (s : State) : State :=
  if s.dev.phase = .reset then s
  else
    let h := ch == .h
    let old := s
    let v := bits.toNat
    let x := s.safe.scan h
    if v / 2 ^ 32 ≠ 0xA5 then
      let s := s.onSafe (fun y => y.setScan h { x with num := x.num + 1, bad := x.bad + 1, h1 := none, h2 := x.h1 })
      if x.bad + 1 = 3 then (s.chanFault h (if h then 4 else 3)).drive else s
    else
      let img := v % 2 ^ 32
      let s := s.pulseFaults h img
      let x := (s.safe.scan h).take (s.source h) img
      let s := s.onSafe (fun y => y.setScan h { x with num := x.num + 1, bad := 0, h1 := some img, h2 := x.h1 })
      State.evalInputs old (s.setN (if h then kSafeInA else kSafeInB) x.acc)

/-- DISC_TIME_EXPIRY (R322, R345). -/
def discTimeExpiry (i : Fin 32) (s : State) : State :=
  if s.dev.phase = .reset ∨ s.contactDemand false i = s.contactDemand true i then s
  else
    let old := s
    let s := s.inputFault i 0
    let s := s.onSafe (fun x => { x with shown := setBit x.shown i false, guardIn := setBit x.guardIn i false })
    State.evalInputs old s

/-! ### Outputs (R335) -/

/-- An output fault of a channel. -/
def State.outputFault (s : State) (h : Bool) : State := ((s.setBit kSafeStatus 9 true).chanFault h (if h then 6 else 5)).drive

/-- READBACK_MISMATCH (R335, R357): channel A is the Kerb's, channel B the SP's; a device that does not own the outputs does not evaluate
the check. -/
def readbackMismatch (ch : SafeChan) (_out : Fin 32) (s : State) : State :=
  if s.dev.phase = .reset ∨ !s.owner then s else s.outputFault (ch == .h)

/-- OUTPUT_DARK_TEST (R335): every output that is on goes off for 1 µs on one channel, and its readback must follow. -/
def outputDarkTest (ch : SafeChan) (follows : W32) (s : State) : State :=
  if s.dev.phase = .reset then s
  else
    let h := ch == .h
    let on := if h then s.safe.outA else s.safe.outB
    if (bitsOf 32 on).all (fun o => follows.toNat.testBit o) then s else s.outputFault h

end Sys2Proof.Machine
end

