-- ==== Sys2Proof/Machine/Security.lean ====
section
/-! DEFINITION. The security unit (R442 to R459): signatures, images and their slots, boot selection, fuses, attestation. -/

namespace Sys2Proof.Machine

/-- The bytes of an ASCII string. -/
def ascii (t : String) : Bytes := t.toList.map (fun c => BitVec.ofNat 8 c.toNat)

/-- Replaces the security unit's state. -/
def State.onSec (s : State) (f : StSec → StSec) : State := { s with sec := f s.sec }

/-! ### Signatures -/

/-- Bytes of a signature block (R442). -/
def sigLen (alg : Nat) : Nat := if alg = 1 then 29952 else 50016

/-- The key hash fused for a signer that may sign (R443). -/
def Fuses.keyHash (f : Fuses) (signer : Nat) : Option Bytes :=
  if signer = 0 then f.vendorKey
  else if signer = 1 then f.safetyKey
  else if 0x10 ≤ signer ∧ signer ≤ 0x13 then
    (if f.revoked.getD (signer - 0x10) false then none else f.owner.getD (signer - 0x10) none)
  else none

/-- The device public key (R452). -/
def Fuses.devicePk (f : Fuses) : Bytes :=
  match f.devSeed with
  | some d => slice d 64 32 ++ fit 32 (Config.slhPkRoot d)
  | none => []

/-- A signed string verifies for a use: context, algorithm and allowed signers (R443, R444). UNVERIFIED, log entry 56. -/
def StSec.verify (x : StSec) (context : String) (alg : Nat) (signers : List Nat) (b : Bytes) : Bool :=
  let l := sigLen alg
  let covered := b.take (b.length - l)
  let k := b.drop (b.length - l)
  let signer := num k 5 1
  let pk := slice k 8 64
  let dig := slice k 72 64
  decide (l ≤ b.length) && num k 0 4 == 0x4B425344 && num k 4 1 == alg && num k 6 2 == 0 &&
    slice k (l - 24) 24 == zeros 24 && signers.contains signer &&
    (if signer = 0x20 then pk == x.fuses.devicePk else x.fuses.keyHash signer == some (fit 32 (Config.shake256 pk 32))) &&
    fit 64 (Config.shake256 covered 64) == dig &&
    Config.slhVerify alg (ascii context) pk dig (slice k 136 (l - 160))

/-- The owner slots as signers. -/
def ownerSigners : List Nat := [0x10, 0x11, 0x12, 0x13]

/-- A write of an object whose value the security unit verifies. While a report is being signed, an outcome that the verification decides
waits, and the write runs once the signature is complete (R453); a refusal before the verification does not wait.
DEDUCED, log entry 55. -/
def State.verifying (s : State) (rq : Requester) (index sub : Nat) (d : Bytes) (run : State → State) : State :=
  let t := run s
  if s.sec.attNonce.isSome ∧ s.served rq ∧ [0, resPending, abSignature, abRange].contains (t.rq rq).result then
    (s.answer rq resPending).onSec (fun x => { x with verifies := x.verifies ++ [⟨rq, index, sub, d⟩] })
  else t

/-- The objects whose values are verified: service token, user kernels, safety set and device certificate (R444). -/
def isVerified (index sub : Nat) : Bool := [(0x0200, 0x04), (0x5000, 0x0F), (0x7000, 0x08), (0x9000, 0x13)].contains (index, sub)

/-! ### Images -/

/-- Number of an image type (R445). -/
def imgNo : ImgType → Nat
  | .main => 1
  | .safety => 2
  | .library => 3

/-- Size of an image's region (R446). -/
def regionSize (t : Nat) : Nat := if t = 1 then 20971520 else if t = 2 then 4194304 else 8388608

/-- Fields of an image header (R445). -/
def imgVersion (b : Bytes) : Nat := num b 8 4
def imgSvn (b : Bytes) : Nat := num b 12 1
def imgBodyLen (b : Bytes) : Nat := num b 16 4

/-- DIGEST of an image's signature block, 64 zeros when there is none. -/
def imgDigest (b : Bytes) : Bytes := if b.isEmpty then zeros 64 else slice b (64 + imgBodyLen b + 72) 64

/-- The two slots of a type. -/
def StSec.img (x : StSec) (t : Nat) : ImgSlots := if t = 1 then x.main else if t = 2 then x.safety else x.lib

/-- Changes the slots of a type. -/
def StSec.onImg (x : StSec) (t : Nat) (f : ImgSlots → ImgSlots) : StSec :=
  if t = 1 then { x with main := f x.main } else if t = 2 then { x with safety := f x.safety } else { x with lib := f x.lib }

/-- State and bytes of a slot (true is slot B). -/
def ImgSlots.st (i : ImgSlots) (b : Bool) : SlotState := if b then i.stB else i.stA
def ImgSlots.bytes (i : ImgSlots) (b : Bool) : Bytes := if b then i.imgB else i.imgA

/-- Sets the state of a slot. -/
def ImgSlots.setSt (i : ImgSlots) (b : Bool) (v : SlotState) : ImgSlots := if b then { i with stB := v } else { i with stA := v }

/-- Sets the bytes of a slot. -/
def ImgSlots.setBytes (i : ImgSlots) (b : Bool) (v : Bytes) : ImgSlots := if b then { i with imgB := v } else { i with imgA := v }

/-- The image that runs. -/
def ImgSlots.image (i : ImgSlots) : Bytes := match i.running with
  | some b => i.bytes b
  | none => []

/-- A trial runs (R450). -/
def ImgSlots.trial (i : ImgSlots) : Bool := match i.running with
  | some b => i.st b == .trial
  | none => false

/-- The checks of R447 on a candidate: 0, or the abort code of R449. `boot` adds the check of DEV_ONLY. -/
def StSec.imageCheck (x : StSec) (t : Nat) (boot : Bool) (b : Bytes) : Nat :=
  let step := num b 6 1
  let headOk := num b 0 4 == 0x47444F44 && num b 4 1 == t && (step == 0 || step == 0xA2) &&
    b.length == 64 + imgBodyLen b + 29952 && decide (b.length ≤ regionSize t) && imgBodyLen b % 4 == 0 &&
    decide (x.fuses.rollback.getD (t - 1) 0 ≤ imgSvn b) &&
    (!boot || !(num b 5 1).testBit 0 || !x.fuses.devBlown)
  if !headOk then abRange
  else if x.verify "CX864-IMG" 1 [if t = 2 then 1 else 0] b then 0 else abSignature

/-- Boot of one image type (R447, R450): the slots after the boot ROM's selection. A slot left in trial has not been confirmed.
DEDUCED, log entry 55. DESIGN CHOICE, log entry 63. -/
def StSec.bootType (x : StSec) (t : Nat) : ImgSlots :=
  let i := x.img t
  let revert (v : SlotState) : SlotState := if v = .trial then .invalid else v
  let i := { i with stA := revert i.stA, stB := revert i.stB, running := none }
  let ok (b : Bool) := x.imageCheck t true (i.bytes b) == 0
  let pend := if i.stA = .pending then some false else if i.stB = .pending then some true else none
  let other := !i.active
  let rest (i : ImgSlots) : ImgSlots :=
    if ok i.active then { i with running := some i.active }
    else if i.st other = .valid ∧ ok other then { i with running := some other }
    else i
  match pend with
  | some b => if ok b then { i.setSt b .trial with running := some b } else rest (i.setSt b .invalid)
  | none => rest i

/-- Whether a type has a slot left in trial. -/
def ImgSlots.unconfirmed (i : ImgSlots) : Bool := i.stA == .trial || i.stB == .trial

/-- The boot ROM's work at a cold boot (R447, R448, R452): the slots, the version objects, the status bits and the device key.
DEDUCED, log entry 55. DESIGN CHOICE, log entry 63. -/
def State.bootImages (s : State) : State :=
  let x := s.sec
  let m := x.bootType 1
  let f := x.bootType 2
  let l := x.bootType 3
  let s := s.onSec (fun x => { x with main := m, safety := f, lib := l, flashOp := none, attNonce := none, verifies := [], attSeq := 0,
                                      attReady := false, attReport := [] })
  let off (i : ImgSlots) := match i.running with
    | some b => b != i.active
    | none => false
  let seed := fit 96 (Config.freeBytes s.free)
  let s :=
    if s.sec.fuses.devSeed.isNone ∧ s.sec.trngOk then
      ({ s with free := s.free + 1 } : State).onSec (fun x => { x with fuses := { x.fuses with devSeed := some seed } })
    else s
  let v := b01 m.running.isNone + 2 * b01 (!s.sec.fuses.devBlown) + 4 * b01 (m.trial || f.trial || l.trial) +
    8 * b01 (off m || off f || off l) + 64 * b01 (!s.sec.trngOk)
  ((s.setN kSecStatus v).setN kIdFwMain (imgVersion m.image)).setN kIdFwSafety (imgVersion f.image) |>.setN kIdLaneLib (imgVersion l.image)

/-- Start-up failures that missing images cause (R448): bits of UNIT_FAIL. -/
def StSec.imageFail (x : StSec) : Nat := (if x.safety.running.isNone then 2 ^ 38 else 0) + (if x.lib.running.isNone then 255 else 0)

/-- Slot code of a running image, 0xFF for none. -/
def runCode : Option Bool → Nat
  | some b => b01 b
  | none => 0xFF

/-- Record 0x0100 (R447), the types in the order in which the rule's boot ROM takes them. DEDUCED, log entry 12. -/
def State.bootRecord (s : State) : State :=
  let x := s.sec
  let one (i : ImgSlots) := le 1 (runCode i.running) ++ le 1 (b01 i.trial)
  s.log 0x0100 (le 4 (s.n kBootTime) ++ one x.safety ++ one x.main ++ one x.lib ++ [0, 0] ++
    le 4 (imgVersion x.safety.image) ++ le 4 (imgVersion x.main.image) ++ le 4 (imgVersion x.lib.image))

/-! ### Objects -/

/-- Code of a slot state (R457). -/
def SlotState.code : SlotState → Nat
  | .empty => 0
  | .valid => 1
  | .pending => 2
  | .trial => 3
  | .invalid => 4

/-- SEC_SLOTS (R457). -/
def StSec.slots (x : StSec) : Bytes :=
  let one (i : ImgSlots) := le 1 (b01 i.active) ++ le 1 (runCode i.running) ++ le 1 i.stA.code ++ le 1 i.stB.code ++
    le 4 (imgVersion i.imgA) ++ le 4 (imgVersion i.imgB) ++ le 1 (imgSvn i.imgA) ++ le 1 (imgSvn i.imgB) ++ [0, 0]
  one x.main ++ one x.safety ++ one x.lib

/-- FUSE_STATE (R459). DESIGN CHOICE, log entry 63. -/
def Fuses.word (f : Fuses) : Nat :=
  b01 f.vendorKey.isSome + 2 * b01 f.safetyKey.isSome + 4 * maskOf ((List.range 4).filter (fun i => (f.owner.getD i none).isSome)) +
    64 * maskOf ((List.range 4).filter (fun i => f.revoked.getD i false)) + 1024 * b01 f.devBlown + 2048 * b01 f.devSeed.isSome

/-- SEC_FUSES (R457). -/
def Fuses.bytes (f : Fuses) : Bytes :=
  le 4 f.word ++ ((List.range 3).map (fun i => BitVec.ofNat 8 (f.rollback.getD i 0))) ++ [0] ++
    fit 32 (f.vendorKey.getD []) ++ fit 32 (f.safetyKey.getD []) ++
    ((List.range 4).map (fun i => fit 32 ((f.owner.getD i none).getD []))).flatten

/-- Record 0x0105 of a fuse change (R457). DEDUCED, log entry 12. -/
def State.fuseRecord (s : State) (kind slot value : Nat) : State :=
  s.record 3 0x0105 false (le 1 kind ++ le 1 slot ++ [0, 0] ++ le 4 value)

/-! ### Image writes (R449) -/

/-- The slot that takes an image: the one that does not run. DEDUCED, log entry 55. -/
def ImgSlots.target (i : ImgSlots) : Bool := match i.running with
  | some b => !b
  | none => !i.active

/-- The sub-index of SEC_IMG_* for an image type. -/
def imgSub (t : Nat) : Nat := t + 2

/-- The own checks of an image write (R449). -/
def imageOwn (t : Nat) (s : State) : Nat :=
  if !(s.dev.state == .service || s.bit kSecStatus 0 && s.dev.state == .inert) then abState
  else if (s.sec.img t).trial ∨ s.sec.flashOp.isSome then abBusy
  else resPending

/-- The image is in the slot and its read-back starts. -/
def imageEff (rq : Requester) (t : Nat) (d : Bytes) (s : State) : State :=
  s.onSec (fun x =>
    let x := x.onImg t (fun i => (i.setBytes i.target []).setSt i.target .empty)
    { x with flashOp := some (.image t d rq) })

/-- IMAGE_WRITE (R449): the answer comes with BOOT_FLASH_OPERATION_DONE. DEDUCED, log entry 55. -/
def imageWrite (rq : Requester) (t : ImgType) (d : Bytes) (s : State) : State :=
  let n := imgNo t
  let s' := submitWrite rq 0x9000 (imgSub n) d (imageOwn n) (imageEff rq n d) s
  if s.served rq ∧ writeCheck s rq 0x9000 (imgSub n) d = 0 ∧ (imageOwn n s = abState ∨ imageOwn n s = abBusy) then
    s'.setBit kSecStatus 4 true
  else s'

/-- The read-back check of an image completes (R449). -/
def State.imageDone (s : State) (t : Nat) (d : Bytes) (rq : Requester) (ok : Bool) : State :=
  let c := if ok then s.sec.imageCheck t false d else abHwFault
  let slot := (s.sec.img t).target
  let s := s.onSec (fun x => { x.onImg t (fun i =>
    (i.setBytes slot (if c = 0 then d else [])).setSt slot (if c = 0 then .pending else .invalid)) with flashOp := none })
  let s :=
    if c = 0 then s.log 0x0101 (le 1 t ++ le 1 (b01 slot) ++ [0, 0] ++ le 4 (imgVersion d) ++ le 1 (imgSvn d))
    else (s.setBit kSecStatus 4 true).log 0x0103 (le 1 t ++ [0, 0, 0] ++ le 4 c)
  s.finish rq c

/-! ### Confirm and fuses -/

/-- Confirms the trial of one type (R450). -/
def State.confirmType (s : State) (t : Nat) : State :=
  let i := s.sec.img t
  match i.running with
  | none => s
  | some b =>
    if i.st b ≠ .trial then s
    else
      let svn := imgSvn i.image
      let old := s.sec.fuses.rollback.getD (t - 1) 0
      let s := s.onSec (fun x => x.onImg t (fun i => { i.setSt b .valid with active := b }))
      let s := s.logOpen 0 0x0102
      if old < svn then
        (s.onSec (fun x => { x with fuses := { x.fuses with rollback := modAt x.fuses.rollback (t - 1) (fun _ => svn) } })).fuseRecord 2 t svn
      else s

/-- The effect of SEC_CONFIRM (R450). -/
def secConfirmEff (v : Bytes) (s : State) : State :=
  if leVal v ≠ 1 then s else (((s.confirmType 1).confirmType 2).confirmType 3).setBit kSecStatus 2 false

/-- SEC_CONFIRM (R450). -/
def secConfirm (rq : Requester) (v : Byte) (s : State) : State :=
  submitWrite rq 0x9000 0x06 [v] (fun s => onlyIn s [.inert, .config, .ready, .service]) (secConfirmEff [v]) s

/-- The lowest blank owner slot. -/
def Fuses.blank (f : Fuses) : Option Nat := (List.range 4).find? (fun i => (f.owner.getD i none).isNone)

/-- The own checks of SEC_OWNER_KEY (R457). -/
def ownerKeyOwn (d : Bytes) (s : State) : Nat :=
  if d.length ≠ 64 then abType
  else if !s.isIn [.service] then abState
  else if s.sec.fuses.blank.isNone then abNoResource else 0

/-- The effect of SEC_OWNER_KEY; the record's new value is not stated for a key hash. DEDUCED, log entry 55. -/
def ownerKeyEff (d : Bytes) (s : State) : State :=
  match s.sec.fuses.blank with
  | none => s
  | some i =>
    let h := fit 32 (Config.shake256 d 32)
    let (v, s) := s.fresh
    (s.onSec (fun x => { x with fuses := { x.fuses with owner := modAt x.fuses.owner i (fun _ => some h) } })).fuseRecord 0 i v

/-- SEC_OWNER_KEY (R457). -/
def secOwnerKey (rq : Requester) (d : Bytes) (s : State) : State :=
  submitWrite rq 0x9000 0x09 d (ownerKeyOwn d) (ownerKeyEff d) s

/-- Another fused, unrevoked owner slot remains. -/
def Fuses.otherOwner (f : Fuses) (i : Nat) : Bool :=
  (List.range 4).any (fun j => j != i && (f.owner.getD j none).isSome && !f.revoked.getD j false)

/-- The own checks of SEC_OWNER_REVOKE (R457). -/
def ownerRevokeOwn (v : Bytes) (s : State) : Nat :=
  if !s.isIn [.service] then abState
  else if 3 < leVal v ∨ !s.sec.fuses.otherOwner (leVal v) then abRange else 0

/-- The effect of SEC_OWNER_REVOKE. -/
def ownerRevokeEff (v : Bytes) (s : State) : State :=
  (s.onSec (fun x => { x with fuses := { x.fuses with revoked := modAt x.fuses.revoked (leVal v) (fun _ => true) } })).fuseRecord 1 (leVal v) 1

/-- SEC_OWNER_REVOKE (R457). -/
def secOwnerRevoke (rq : Requester) (v : Byte) (s : State) : State :=
  submitWrite rq 0x9000 0x0A [v] (ownerRevokeOwn [v]) (ownerRevokeEff [v]) s

/-- The effect of SEC_DEV_LOCK. -/
def devLockEff (v : Bytes) (s : State) : State :=
  if leVal v ≠ 1 ∨ s.sec.fuses.devBlown then s
  else ((s.onSec (fun x => { x with fuses := { x.fuses with devBlown := true } })).setBit kSecStatus 1 false).fuseRecord 3 0 1

/-- SEC_DEV_LOCK (R457). -/
def secDevLock (rq : Requester) (v : Byte) (s : State) : State :=
  submitWrite rq 0x9000 0x0B [v] (fun _ => 0) (devLockEff [v]) s

/-! ### Attestation -/

/-- The own checks of ATT_NONCE (R453). -/
def nonceOwn (d : Bytes) (s : State) : Nat :=
  if d.length ≠ 32 then abType
  else if s.sec.attNonce.isSome then abBusy
  else if !s.sec.trngOk ∨ s.sec.fuses.devSeed.isNone then abHwFault else 0

/-- The effect of ATT_NONCE. -/
def nonceEff (d : Bytes) (s : State) : State :=
  if s.sec.attNonce.isSome then s
  else (s.onSec (fun x => { x with attNonce := some d, attReady := false })).setBit kSecStatus 5 true

/-- ATT_NONCE (R453). -/
def attNonce (rq : Requester) (d : Bytes) (s : State) : State :=
  submitWrite rq 0x9000 0x10 d (nonceOwn d) (nonceEff d) s

/-- Bytes 0 to 447 of a report (R454). DEDUCED, log entry 55. -/
def State.reportBody (s : State) (seq : Nat) (nonce : Bytes) : Bytes :=
  let x := s.sec
  let st := s.n kSecStatus
  let user := s.obj kJnUserKernel
  let run (i : ImgSlots) := match i.running with
    | some b => b01 b
    | none => 3
  le 4 0x41540001 ++ le 8 x.fuses.serial ++ le 4 seq ++ fit 32 nonce ++ le 8 s.recd.optime ++ le 4 s.recd.pcc ++
    le 1 s.dev.state.code ++ le 1 (s.n kRedClaimState) ++ le 1 s.tierActive ++
    le 1 (b01 (st.testBit 0) + 2 * b01 (st.testBit 2) + 4 * b01 (s.bit kJnStatus 6) + 8 * b01 (st.testBit 3)) ++
    imgDigest x.main.image ++ imgDigest x.safety.image ++ imgDigest x.lib.image ++ imgDigest user ++
    le 4 (imgVersion x.main.image) ++ le 4 (imgVersion x.safety.image) ++ le 4 (imgVersion x.lib.image) ++
    ((List.range 3).map (fun i => BitVec.ofNat 8 (x.fuses.rollback.getD i 0))) ++
    le 1 (run x.main + 4 * run x.safety + 16 * run x.lib) ++
    le 2 (s.n kSafeSetCrc) ++ le 4 (s.sub kSafeSw 0 4) ++ le 4 x.fuses.word ++ fit 64 x.fuses.devicePk ++ zeros 38

/-- The report is complete (R453, R454). -/
def State.reportSigned (s : State) (nonce seed : Bytes) : State :=
  let seq := s.sec.attSeq + 1
  let body := s.reportBody seq nonce
  let dig := fit 64 (Config.shake256 body 64)
  let block := le 4 0x4B425344 ++ [2, 0x20, 0, 0] ++ fit 64 s.sec.fuses.devicePk ++ dig ++
    fit 49856 (Config.slhSign 2 (ascii "CX864-ATT") seed dig) ++ zeros 24
  let s := s.onSec (fun x => { x with attNonce := none, attSeq := seq, attReady := true, attReport := body ++ block })
  (s.setBit kSecStatus 5 false).record 3 0x0104 false (le 4 seq ++ nonce.take 8)

/-- The own checks of ATT_CERT (R452). DEDUCED, log entry 55. -/
def certOwn (d : Bytes) (s : State) : Nat :=
  if d.length ≠ 128 + 29952 then abType
  else if !s.sec.verify "CX864-CRT" 1 [0] d then abSignature
  else if num d 0 4 ≠ 0x43430001 ∨ num d 8 8 ≠ s.sec.fuses.serial ∨ slice d 16 64 ≠ s.sec.fuses.devicePk then abRange
  else 0

/-- ATT_CERT (R452). -/
def attCert (rq : Requester) (d : Bytes) (s : State) : State :=
  s.verifying rq 0x9000 0x13 d (submitWrite rq 0x9000 0x13 d (certOwn d) (storeWrite 0x9000 0x13 d))

/-- The versions and the user image that the partner reports equal the own ones (R451). DEDUCED, log entry 19. -/
def State.sameVersions (s : State) (p : PeerInfo) : Bool :=
  p.fwMain.toNat == s.n kIdFwMain && p.fwSafety.toNat == s.n kIdFwSafety && p.laneLib.toNat == s.n kIdLaneLib &&
    p.userDigest == imgDigest (s.obj kJnUserKernel)

end Sys2Proof.Machine
end

