-- ==== Sys2Proof/Machine/SafetyCheck.lean ====
section
/-! DEFINITION. The checks of the safety channels, brakes and brake test, switches, safety sets, and the safety messages
(chapter "Safety functions", R312, R315 to R318, R326 to R346). -/

namespace Sys2Proof.Machine

/-! ### Safety messages (R330 to R334) -/

/-- The safety CRC (R330). -/
def safetyCrc (b : Bytes) : Nat := crcRefl 0xC8DF352F b 0xFFFFFFFF ^^^ 0xFFFFFFFF

/-- The records of SAFE_CONN (R351). -/
def State.connRecs (s : State) : List Bytes := records 16 (s.obj kSafeConn)

/-- Fields of a connection record. -/
def connId (c : Bytes) : Nat := num c 0 2
def connNode (c : Bytes) : Nat := num c 2 2 % 1024
def connRing (c : Bytes) : Nat := num c 4 1
def connKind (c : Bytes) : Nat := num c 5 1
def connArms (c : Bytes) : Nat := num c 6 1
def connData (c : Bytes) : Nat := num c 8 2 % 4096
def connSafe (c : Bytes) : Nat := num c 10 2 % 4096

/-- Command connection id of a ring (R331). -/
def State.cmdConn (s : State) (ring : Nat) : Option Nat :=
  (s.connRecs.find? (fun c => connKind c == 0 && connRing c == ring)).map connId

/-- A connection's state. -/
def State.conn (s : State) (i : Nat) : ConnSt := s.safe.conns.getD i ⟨false, none⟩

/-- Changes a connection's state. -/
def State.onConn (s : State) (i : Nat) (f : ConnSt → ConnSt) : State :=
  s.onSafe (fun x => { x with conns := modAt x.conns i f })

/-- CMD nibble of an arm in a channel's half (R331). -/
def State.nibble (s : State) (h : Bool) (a : Nat) : Nat :=
  let x := s.sarm a
  b01 (if h then x.stoH else x.stoP) + (if x.ss1.isSome then 2 else 0) + (if (s.slsLimits a).isEmpty then 0 else 4)

/-- A half of a SAFETY command frame (R331). -/
def State.commandHalf (s : State) (ring : Nat) (h : Bool) : Bytes :=
  let cmd := ((List.range 8).map (fun a => s.nibble h a * 16 ^ a)).sum
  let b := le 2 ((s.cmdConn ring).getD 0) ++ le 1 (b01 h) ++ le 1 (b01 s.automatic + (if s.dev.state = .degraded then 2 else 0)) ++
    le 4 s.seq32 ++ le 4 cmd
  b ++ le 4 (safetyCrc b)

/-- The payload of a SAFETY command frame. -/
def State.commandPayload (s : State) (ring : Nat) : Bytes := s.commandHalf ring false ++ s.commandHalf ring true

/-- The arm of a node's drive connection. -/
def State.nodeArm (s : State) (r : RingId) (a : Nat) : Option Nat :=
  (s.connRecs.find? (fun c => connKind c == 1 && connRing c == ringNo r && connNode c == a)).bind
    (fun c => (bitsOf 8 (connArms c)).head?)

/-- CMD nibble that a node holds of a channel for an arm. -/
def heldNibble (c : Option (Nat × Nat)) (a : Nat) : Nat := match c with
  | some (_, cmd) => field cmd (4 * a) 4
  | none => 0

/-- What a node's newest halves make of its torque and its SS1 timer (R333 items 2 to 4). -/
def NodeSt.judgeSafety (n : NodeSt) (arm : Nat) : NodeSt :=
  let p := heldNibble n.cmdP arm
  let h := heldNibble n.cmdH arm
  let both := n.cmdP.isSome && n.cmdH.isSome && n.aliveP && n.aliveH
  let sto := p.testBit 0 || h.testBit 0
  let ss1 := p.testBit 1 || h.testBit 1
  let n := { n with ss1 := if ss1 then true else if both && !sto then false else n.ss1 }
  if sto then { n with torque := false }
  else if both && !ss1 && !n.ss1 then { n with torque := true }
  else n

/-- A node takes one half of a SAFETY command frame when it is valid (R333 item 1). -/
def NodeSt.takeHalf (n : NodeSt) (h : Bool) (conn ownCycle : Nat) (b : Bytes) : NodeSt :=
  let scnt := num b 4 4
  let last := if h then n.cmdH else n.cmdP
  let newer := match last with
    | some (c, _) => decide (c < scnt)
    | none => true
  if num b 12 4 ≠ safetyCrc (b.take 12) ∨ num b 0 2 ≠ conn ∨ num b 2 1 ≠ b01 h ∨ !newer ∨ ownCycle < scnt then n
  else if h then { n with cmdH := some (scnt, num b 8 4), aliveH := true }
  else { n with cmdP := some (scnt, num b 8 4), aliveP := true }

/-- SAFETY_COMMAND (R333). DEDUCED, log entry 61. -/
def safetyCommand (r : RingId) (addr : BitVec 10) (f : Frame) (ownCycle : W32) (s : State) : State :=
  let n := s.node r addr.toNat
  match s.cmdConn (ringNo r), s.nodeArm r addr.toNat with
  | some c, some a =>
    let n := (n.takeHalf false c ownCycle.toNat (slice f.payload 0 16)).takeHalf true c ownCycle.toNat (slice f.payload 16 16)
    s.setNode (n.judgeSafety a)
  | _, _ => s

/-- NODE_SAFETY_WATCHDOG (R333 item 3). -/
def nodeSafetyWatchdog (r : RingId) (addr : BitVec 10) (ch : SafeChan) (s : State) : State :=
  let n := s.node r addr.toNat
  s.setNode (if ch = .h then { n with aliveH := false, torque := false } else { n with aliveP := false, torque := false })

/-- NODE_SS1_TIMER_EXPIRY (R333 item 4). -/
def nodeSs1TimerExpiry (r : RingId) (addr : BitVec 10) (s : State) : State :=
  let n := s.node r addr.toNat
  if n.ss1 then s.setNode { n with torque := false } else s

/-! ### Brakes (R337) -/

/-- Joints of an arm that have a brake. -/
def State.braked (s : State) (a : Nat) : List Nat :=
  bitsOf 8 ((List.range 16).foldl (fun m b =>
    if s.sub kSafeBrkCfg (4 * b) 1 = a then m ||| s.sub kSafeBrkCfg (4 * b + 1) 1 else m) 0)

/-- Every braked joint of an arm shows torque. -/
def State.torqueShown (s : State) (a : Nat) : Bool := (s.braked a).all (fun j => (s.sarm a).torque.testBit j)

/-- A release goes on to its brake outputs once torque shows. -/
def State.openBrakes (s : State) (a : Nat) : State :=
  if (s.sarm a).release = .wanted ∧ s.torqueShown a then (s.onArm a (fun x => { x with release := .opening })).drive else s

/-- Release at an accepted RUN_ENABLE: STO cleared in both halves of every arm. -/
def State.releaseBrakes (s : State) : State :=
  let s := s.onArms (fun a x =>
    if s.nj a = 0 then x
    else { x with stoP := false, stoH := false, torque := 0, release := .wanted, offP := false, demP := 0, demH := 0 })
  (List.range 8).foldl (fun s a => s.openBrakes a) s

/-- BRAKE_OPEN_EXPIRY (R337): σ may rise. -/
def brakeOpenExpiry (a : Fin 8) (s : State) : State :=
  if (s.sarm a).release = .opening then s.onArm a (fun x => { x with release := .released }) else s

/-- BRAKE_RELEASE_TIMEOUT (R337): the release ends with a stop demand. -/
def brakeReleaseTimeout (a : Fin 8) (s : State) : State :=
  if (s.sarm a).release = .wanted then
    ((((s.onArm a (fun x => { x with release := .applied })).stopRecord true 1 a).beginSs1).safetyStop).drive
  else s

/-- BRAKE_CLOSE_EXPIRY (R315, R337). DEDUCED, log entry 2. -/
def brakeCloseExpiry (a : Fin 8) (s : State) : State :=
  if (s.sarm a).closing then (s.onArm a SafeArm.stoBoth).drive else s

/-- SS1_TMAX_EXPIRY (R315). DEDUCED, log entry 2. -/
def ss1TmaxExpiry (a : Fin 8) (s : State) : State :=
  if (s.sarm a).ss1.isSome ∧ !(s.sarm a).closing then (s.onArm a SafeArm.stoBoth).drive else s

/-! ### Envelopes and standstill (R315 to R318) -/

/-- A joint speed keeps an envelope: v ≤ v0 (1 − t / T_STOP) + base, with t in ns; T_STOP is `num`/`den` s. -/
def keepsEnv (num den t v v0 base : Nat) : Bool :=
  let n := num * 1000000000
  decide (v * n ≤ v0 * (n - t * den) + base * n)

/-- T_STOP of an arm as a fraction. -/
def State.tStop (s : State) (a : Nat) : Nat × Nat :=
  let r := f32.ratio (s.armPar a 0 4)
  (r.1.toNat, r.2)

/-- STILL of a joint. -/
def State.still (s : State) (a j : Nat) : Nat := s.armPar a (92 + 4 * j) 4

/-- Every joint keeps an envelope above a base. -/
def State.inEnv (s : State) (a : Nat) (e : Env) (base : Nat → Nat) : Bool :=
  let t := s.tStop a
  (s.sarm a).speeds.zipIdx.all (fun p => keepsEnv t.1 t.2 (s.cellNs - e.since) p.1 (e.v0.getD p.2 0) (base p.2))

/-- T_STOP has passed since an envelope began. -/
def State.envOver (s : State) (a : Nat) (e : Env) : Bool :=
  let t := s.tStop a
  decide (t.1 * 1000000000 ≤ (s.cellNs - e.since) * t.2)

/-- Every joint lies below its STILL threshold. -/
def State.atRest (s : State) (a : Nat) : Bool :=
  (s.sarm a).meas.isSome && (s.sarm a).speeds.zipIdx.all (fun p => decide (p.1 < s.still a p.2))

/-- A violation of a monitored stop or limit: STO for the arm and a stop demand (R316 to R318). -/
def State.violate (s : State) (h : Bool) (a : Nat) : State :=
  let s := s.onArm a (fun x => let y := x.sto h; if h then { y with demH := y.demH ||| 1 } else { y with demP := y.demP ||| 1 })
  ((s.stopRecord h 0 a).beginSs1).safetyStop

/-- A violation that every channel that is not faulted finds; the first of them writes the record. -/
def State.violateBoth (s : State) (a : Nat) : State :=
  if s.chOk false then
    let s := s.violate false a
    if s.chOk true then s.onArm a (fun x => let y := x.sto true; { y with demH := y.demH ||| 1 }) else s
  else if s.chOk true then s.violate true a
  else s

/-- The SS1 check of an arm (R315). -/
def State.checkSs1 (s : State) (a : Nat) : State :=
  match (s.sarm a).ss1 with
  | none => s
  | some e =>
    if (s.sarm a).closing ∨ (s.sarm a).meas.isNone then s
    else if s.atRest a then s.onArm a (fun x => { x with closing := true, release := .applied })
    else if s.inEnv a e (s.still a) then s
    else s.onArm a SafeArm.stoBoth

/-- The standstill check of HOLD (R316): the envelope of R315 until standstill has been reached or T_STOP has passed, since the arm still
comes to rest when HOLD is entered. DEDUCED, log entry 50. -/
def State.checkHold (s : State) (a : Nat) : State :=
  match (s.sarm a).holdEnv with
  | none => s
  | some e =>
    let x := s.sarm a
    let s := if s.atRest a ∨ s.envOver a e then s.onArm a (fun x => { x with stood := true }) else s
    if x.meas.isNone then s
    else if (s.sarm a).stood then
      if x.speeds.zipIdx.all (fun p => decide (p.1 ≤ s.still a p.2)) then s else s.violateBoth a
    else if s.inEnv a e (s.still a) then s
    else s.violateBoth a

/-- The envelope of an arm stop (R317). -/
def State.checkArmStop (s : State) (a : Nat) : State :=
  match (s.sarm a).stopEnv with
  | none => s
  | some e => if (s.sarm a).meas.isNone ∨ s.inEnv a e (s.still a) then s else s.violateBoth a

/-- Verified counts and rates of an arm. -/
def State.verified (s : State) (a : Nat) : List Int × List Int := ((s.sarm a).meas).getD ([], [])

/-- A sphere record of an arm, and the speed of its centre in channel P, binary64. -/
def State.sphere (s : State) (a i : Nat) : Bytes := slice (s.obj (kSafeSpheres a)) (20 * i) 20
def State.sphereSpeed (s : State) (a i : Nat) : Nat :=
  Machine.sphereSpeed (s.obj (kSafeKin a)) (s.sphere a i) (s.verified a).1 (s.verified a).2

/-- Spheres of an arm in use. -/
def State.spheres (s : State) (a : Nat) : List Nat := (List.range 16).filter (fun i => s.sub (kSafeSpheres a) (20 * i) 1 != 0xFF)

/-- The speed limit of channel P under SLS, as a fraction: the lowest of the cases (R318). -/
def lowest : List Nat → Nat
  | [] => 0
  | [x] => x
  | x :: l => f32.minV x (lowest l)

/-- A sphere speed, binary64, keeps the SLS limit, binary32, on the entry ramp of an arm (R318). -/
def State.sphereKeeps (s : State) (a i : Nat) (limit : Nat) (e : Env) (start : Nat) : Bool :=
  let v := f64.ratio (s.sphereSpeed a i)
  let w := f64.ratio start
  let l := f32.ratio limit
  let t := s.tStop a
  let n : Int := (t.1 * 1000000000 : Nat)
  let k : Int := (t.1 * 1000000000 - (s.cellNs - e.since) * t.2 : Nat)
  -- v ≤ l + max(0, w − l) k / n, over common denominators
  let excess := w.1 * l.2 - l.1 * w.2
  decide (v.1 * l.2 * w.2 * n ≤ l.1 * v.2 * w.2 * n + (max 0 excess) * v.2 * k)

/-- SLS of both channels for an arm (R318): entry starts an envelope; channel P holds sphere speeds, channel H joint speeds. A channel's STO
overrides its SLS (R313). -/
def State.checkSls (s : State) (a : Nat) : State :=
  let limits := s.slsLimits a
  if limits.isEmpty then s.onArm a (fun x => { x with slsEnv := none })
  else
    let x := s.sarm a
    let starts := (List.range 16).map (fun i => s.sphereSpeed a i)
    match x.slsEnv with
    | none => s.onArm a (fun x => { x with slsEnv := some ⟨s.cellNs, x.speeds ++ starts⟩ })
    | some e =>
      if x.meas.isNone then s
      else
        let nj := x.speeds.length
        let t := s.tStop a
        let jsls (j : Nat) := s.armPar a (124 + 4 * j) 4
        let okH := x.speeds.zipIdx.all (fun p =>
          keepsEnv t.1 t.2 (s.cellNs - e.since) p.1 (e.v0.getD p.2 0 - jsls p.2) (jsls p.2))
        let okP := (s.spheres a).all (fun i => s.sphereKeeps a i (lowest limits) e (e.v0.getD (nj + i) 0))
        let s := if s.chOk true && !x.stoH && !okH then s.violate true a else s
        if s.chOk false && !x.stoP && !okP then s.violate false a else s

/-! ### Separation (R326 to R329) -/

/-- Age of a volume in 2^-16 ns, and whether it is stale for the channels. -/
def State.volAge (s : State) (v : Bytes) : Nat := s.cellQ - tvStamp v
def State.volStale (s : State) (v : Bytes) : Bool := decide (s.glob 16 * 65536000 < s.volAge v)

/-- Exact v_bound of an arm as a fraction (R328). -/
def State.vBound (s : State) (a : Nat) : Int × Nat :=
  (s.sarm a).speeds.zipIdx.foldl (fun acc p =>
    let k := f32.ratio (s.armPar a (60 + 4 * p.2) 4)
    (acc.1 * k.2 + k.1 * p.1 * acc.2, acc.2 * k.2)) (0, 1)

/-- Present person volumes. -/
def State.persons (s : State) : List Bytes := s.safe.vols.filter (fun v => tvClass v == 0)

/-- An arm faces a lost tracker (R329). -/
def State.facesLost (s : State) (a : Nat) : Bool :=
  s.connRecs.zipIdx.any (fun p => connKind p.1 == 2 && (connArms p.1).testBit a && (s.conn p.2).lost)

/-- The verdict of channel P for an arm. -/
def State.verdictP (s : State) (a : Nat) : Bool :=
  (s.spheres a).any (fun i =>
    s.persons.any (fun v => sphereNear (s.obj (kSafeKin a)) (s.sphere a i) (s.verified a).1 (s.verified a).2 (s.obj kSafeGlobal)
      (s.obj (kSafeArm a)) v (s.volAge v) (s.volStale v)) ||
      s.facesLost a && f64.lt 0 (s.sphereSpeed a i))

/-- v_bound exceeds KERB_V_NEAR in the Kerb's rounding. -/
def State.kerbFast (s : State) (a : Nat) : Bool :=
  kerbOver (s.obj (kSafeArm a) ++ ((s.verified a).2.map (leInt 4)).flatten) (s.vBound a) (f32.ratio (s.armPar a 156 4))

/-- The verdict of channel H for an arm. -/
def State.verdictH (s : State) (a : Nat) : Bool :=
  s.kerbFast a && s.persons.any (fun v => kerbNear (s.verified a).1 (s.verified a).2
      (Dbl.ofRatio (s.vBound a).1 (s.vBound a).2) (s.obj kSafeGlobal) (s.obj (kSafeArm a)) v (s.volAge v) (s.volStale v)) ||
    s.facesLost a && decide (0 < (s.vBound a).1)

/-- Separation verdicts apply: not to an arm jogged in manual mode (R325). -/
def State.separates (s : State) (a : Nat) : Bool := s.automatic || !s.safe.jogging.testBit a

/-- The separation check of an arm: an arm stop holds from a verdict on (R317); at Tier 2 it ends the arm's jog. -/
def State.checkSeparation (s : State) (a : Nat) : State :=
  let on := s.separates a && (s.sarm a).meas.isSome
  let p := if s.chOk false then on && s.verdictP a else (s.sarm a).verdP
  let h := if s.chOk true then on && s.verdictH a else (s.sarm a).verdH
  let s := s.onArm a (fun x =>
    let x := { x with verdP := p, verdH := h }
    if (p || h) && !x.armStop then { x with armStop := true, stopEnv := some (s.env x) } else x)
  if (p || h) && s.tierUse == 2 then
    { s with motion := { s.motion with arms := modAt s.motion.arms a (fun m =>
        { m with jog := m.jog.map (fun j => { j with zero := true }) }) } }
  else s

/-- SAFE_STATUS bit ARM_STOP. -/
def State.armStopBit (s : State) : State := s.setBit kSafeStatus 15 (s.safe.arms.any SafeArm.armStop)

/-- Demands that violations made stand for one check. DEDUCED, log entry 50. -/
def State.dropViolations (s : State) : State :=
  s.onArms (fun _ x => { x with demP := if s.chOk false then x.demP - x.demP % 2 else x.demP
                                demH := if s.chOk true then x.demH - x.demH % 2 else x.demH })

/-- CRC-16 of a set (R342). -/
def setCrc (b : Bytes) : Nat := hcrc b

/-- The sets that the two switch words in force name have different CRC-16 (R312, R343): each channel loads by its own word. -/
def State.setsDiffer (s : State) : Bool :=
  let crc (w : Nat) : Nat := ((s.safe.sets.getD (w / 2 ^ 28 % 16) none).map setCrc).getD 0
  s.safe.swA.isSome && s.safe.swB.isSome && crc s.swInForce.1 != crc s.swInForce.2

/-- The image exchange (R312): two consecutive exchanges without an image fault the other channel, and images whose sets differ fault
channel P. DEDUCED, log entry 50. -/
def State.exchange (s : State) (fromP fromH : Bool) : State :=
  let s := s.onSafe (fun x => { x with missP := if fromP then 0 else x.missP + 1, missH := if fromH then 0 else x.missH + 1 })
  let p := s.safe.missP == 2
  let h := s.safe.missH == 2
  if p && h then s.linkFault else if p then s.chanFault false 8 else if h then s.chanFault true 7
  else if fromP && fromH && s.setsDiffer then s.chanFault false 9 else s

/-- The checks of one 250 µs instant (R16, R312 to R318, R326 to R329). -/
def State.safetyChecks (s : State) (fromP fromH : Bool) : State :=
  if s.dev.phase ≠ .up then s
  else
    let s := (s.dropViolations).exchange fromP fromH
    let s := s.arms.foldl (fun s a => ((((s.checkSs1 a).checkHold a).checkArmStop a).checkSls a).checkSeparation a) s
    s.armStopBit.drive

/-- ARM_STOP_CLEAR (R317). -/
def armStopClear (a : Fin 8) (s : State) : State :=
  if (s.sarm a).armStop ∧ !(s.sarm a).verdP ∧ !(s.sarm a).verdH then
    (s.onArm a (fun x => { x with armStop := false, stopEnv := none })).armStopBit.drive
  else s

/-! ### Node status (R326, R334) -/

/-- The covered data of a connection enters the channels once its DATA frame is here and matches MCRC. -/
def State.takeCovered (s : State) (i : Nat) : State :=
  match s.connRecs[i]?, (s.conn i).cover with
  | some c, some (mcrc, cycle) =>
    let r : RingId := if connRing c = 0 then .m else .p
    let x := (s.ring r).inSlot (connData c)
    if x.seq ≠ cycle % 2 ^ 32 ∨ x.age ≠ 0 ∨ safetyCrc (le 4 x.seq ++ x.payload) ≠ mcrc then s
    else
      let s := s.onConn i (fun y => { y with cover := none })
      let rx := (s.maps r).filter (fun e => e.rx && e.slot == connData c)
      if connKind c = 1 then
        match (bitsOf 8 (connArms c)).head? with
        | none => s
        | some a =>
          match rx.find? (fun e => objKey e.index e.sub == kArmMeas a) with
          | none => s
          | some e =>
            let b := slice x.payload e.off e.len
            let js := List.range (s.nj a)
            s.onArm a (fun y => { y with meas := some (js.map (fun j => int b (4 + 12 * j) 4), js.map (fun j => int b (8 + 12 * j) 4)) })
      else
        let recs := (List.range 16).flatMap (fun j =>
          (rx.filter (fun e => objKey e.index e.sub == kSqTvBlock j)).flatMap (fun e => records 56 (slice x.payload e.off e.len)))
        let good := recs.filter (fun v => tvOk (s.cycle * s.tns * 65536) v && tvClass v == 0)
        s.onSafe (fun y => { y with vols := tvStore y.vols good })
  | _, _ => s

/-- Verified counts of an arm. -/
def SafeArm.counts (x : SafeArm) : List Int := match x.meas with
  | some (q, _) => q
  | none => []

/-- Step 2 of the brake test: positions are recorded once torque shows (R338). -/
def State.btRecord (s : State) : State :=
  match s.safe.bt with
  | some b =>
    if b.recorded.isNone ∧ s.torqueShown b.arm ∧ (s.sarm b.arm).meas.isSome then
      s.onSafe (fun x => { x with bt := some { b with recorded := some (s.sarm b.arm).counts } })
    else s
  | none => s

/-- SAFETY_STATUS (R326, R332, R334, R337, R338). ECHO may lag by the longest node watchdog, 8 cycles (R333).
DEDUCED, log entry 50. -/
def safetyStatus (f : Frame) (s : State) : State :=
  if s.dev.phase ≠ .up then s
  else
    let b := f.payload
    let hit (c : Bytes) : Bool := connKind c != 0 && connNode c == f.addr.toNat && connRing c == ringNo f.ring &&
      connSafe c == f.slot.toNat && connId c == num b 0 2
    match (s.connRecs.zipIdx.find? (fun p => hit p.1)) with
    | none => s
    | some (c, i) =>
      let lag := (s.seq32 + 2 ^ 32 - num b 8 4) % 2 ^ 32
      if num b 28 4 ≠ safetyCrc (b.take 28) ∨ num b 4 4 ≠ s.seq32 ∨ 8 < lag then s
      else
        let s := s.onConn i (fun _ => ⟨false, some (num b 12 4, s.cycle)⟩)
        let s := if connKind c = 1 then
            (bitsOf 8 (connArms c)).foldl (fun s a => (s.onArm a (fun x => { x with torque := num b 2 1 })).openBrakes a) s
          else s
        (s.takeCovered i).btRecord

/-- Covered data of every connection on a slot, when its DATA frame arrives. -/
def State.takeCoveredSlot (s : State) (r : RingId) (slot : Nat) : State :=
  (s.connRecs.zipIdx.foldl (fun s p => if connRing p.1 = ringNo r ∧ connData p.1 = slot ∧ connKind p.1 ≠ 0
    then s.takeCovered p.2 else s) s).btRecord

/-- CONN_LOST (R329, R334). -/
def connLost (i : Fin 64) (s : State) : State :=
  match s.connRecs[i.val]? with
  | none => s
  | some c =>
    if connKind c = 0 ∨ s.dev.phase ≠ .up then s
    else
      let s := (s.onConn i (fun _ => ⟨true, none⟩)).setBit kSafeStatus 10 true
      if connKind c = 1 then ((bitsOf 8 (connArms c)).foldl (fun s a => s.violateBoth a) s).drive else s

/-! ### Brake test (R338, R339) -/

/-- Bits of SAFE_STATUS and the tier cap that follow from the arms' brake tests. -/
def State.btBits (s : State) : State :=
  let l := s.safe.arms
  let s := ((s.setBit kSafeStatus 11 (l.any SafeArm.btDue)).setBit kSafeStatus 12 (l.any SafeArm.btOver)).setBit kSafeStatus 13
    (l.any SafeArm.btFail)
  { s with dev := { s.dev with btCap := l.any SafeArm.btOver } }

/-- Record 0x0404 (R347). -/
def State.btRec (s : State) (a result moved : Nat) : State :=
  (s.onArm a (fun x => { x with btLast := result })).safeLog false 0x0404 (le 1 a ++ le 1 result ++ [0, 0] ++ le 4 moved)

/-- Record 0x0404 without a measured movement: the spec gives none, so its field is free. DEDUCED, log entry 51. -/
def State.btRecFree (s : State) (a result : Nat) : State :=
  let (v, s) := s.fresh
  s.btRec a result (v % 2 ^ 32)

/-- A stop still runs, or a channel still demands one: no release (R314, R421). -/
def State.stopping (s : State) : Bool :=
  s.dev.stopDemand || s.dev.ss2Demand || s.inputDemand false != 0 || s.inputDemand true != 0 ||
    s.safe.arms.any (fun x => x.ss1.isSome || x.closing || x.demP % 2 == 1 || x.demH % 2 == 1)

/-- The test of the first arm of a list starts: STO is cleared for it. While a channel demands a stop, STO stays (R314), and the test
counts as not performed (R338). DEDUCED, log entry 51. -/
def State.btStart (s : State) : List Nat → State
  | [] => s.onSafe (fun x => { x with bt := none })
  | a :: rest =>
    if s.stopping then ((s.onSafe (fun x => { x with bt := none })).btRecFree a 3).drive
    else
    let s := s.onArm a (fun x => { x with stoP := false, stoH := false, torque := 0 })
    (s.onSafe (fun x => { x with bt := some { arm := a, rest := maskOf rest, recorded := none } })).drive

/-- The own checks of SAFE_BT_CMD. DEDUCED, log entry 51. -/
def safeBtOwn (s : State) : Nat :=
  if s.dev.state ≠ .ready then abState else if s.tierUse < 2 then abNoResource else if s.safe.bt.isSome then abBusy else 0

/-- The effect of SAFE_BT_CMD on the present arms of the mask. -/
def safeBtEff (v : Bytes) (s : State) : State :=
  if s.dev.state = .ready ∧ s.safe.bt.isNone then s.btStart ((bitsOf 8 (leVal v)).filter (fun a => s.n (kArmNj a) != 0)) else s

/-- SAFE_BT_CMD (R338). -/
def safeBtCmd (rq : Requester) (arms : Byte) (s : State) : State :=
  submitWrite rq 0x7000 0x0D [arms] safeBtOwn (safeBtEff [arms]) s

/-- BT_COMPARE (R338 steps 3 and 4). -/
def btCompare (s : State) : State :=
  match s.safe.bt with
  | none => s
  | some b =>
    match b.recorded with
    | none => s
    | some q0 =>
      let a := b.arm
      let now := (s.sarm a).counts
      let moved (j : Nat) : Nat := (now.getD j 0 - q0.getD j 0).natAbs
      let js := s.braked a
      let largest := (js.map moved).foldl max 0
      let pass := js.all (fun j => decide (moved j ≤ s.armPar a (176 + 4 * j) 4))
      let s := s.btRec a (if pass then 1 else 2) largest
      let s := s.onArm a (fun x =>
        let x := { x.stoBoth with btFail := !pass }
        if pass then { x with btTime := 0, btDue := false, btOver := false } else x)
      (s.btBits.btStart (bitsOf 8 b.rest)).drive

/-- A stop demand, or the end of READY, aborts a brake test: it counts as not performed. DEDUCED, log entry 51. -/
def State.btAbort (s : State) : State :=
  match s.safe.bt with
  | none => s
  | some b => (((s.onArm b.arm SafeArm.stoBoth).onSafe (fun x => { x with bt := none })).btRecFree b.arm 3).drive

/-- BT_DUE (R339). -/
def btDueAt (a : Fin 8) (s : State) : State :=
  if (s.sarm a).btDue then s else ((s.onArm a (fun x => { x with btDue := true })).btRecFree a 0).btBits

/-- BT_OVERDUE (R18, R339). -/
def btOverdue (a : Fin 8) (s : State) : State := (s.onArm a (fun x => { x with btOver := true })).btBits

/-- SAFE_BT_STATUS (R348). -/
def State.btStatus (s : State) : Bytes :=
  (s.safe.arms.map (fun x => le 4 (x.btTime / 16) ++ le 1 x.btLast ++ [0, 0, 0])).flatten

/-! ### Switches (R340, R341) -/

/-- Both words differ, or a reserved bit is set. -/
def swMismatch (a b : Nat) : Bool := a != b || field a 3 9 != 0 || field b 3 9 != 0

/-- Both words differ from those of the last commit. -/
def StSafe.swChanged (x : StSafe) : Bool := match x.swA, x.swB, x.swCommit with
  | some a, some b, some (ca, cb) => a != ca && b != cb
  | _, _, _ => false

/-- A switch word enters SAFE_SW, and SW_MISMATCH follows. -/
def State.readSwitch (s : State) (h : Bool) (w : Nat) : State :=
  let s := s.onSafe (fun x => if h then { x with swA := some w } else { x with swB := some w })
  let s := s.setN kSafeSw (s.safe.swA.getD 0 + s.safe.swB.getD 0 * 2 ^ 32)
  match s.safe.swA, s.safe.swB with
  | some a, some b => s.setBit kSafeStatus 6 (swMismatch a b)
  | _, _ => s

/-- SWITCH_READ (R341). -/
def switchRead (ch : SafeChan) (word : W32) (s : State) : State :=
  if s.dev.phase = .reset then s
  else
    let was := s.bit kSafeStatus 6
    let changed := s.safe.swChanged
    let s := s.readSwitch (ch == .h) word.toNat
    let s := if s.bit kSafeStatus 6 ∧ !was then s.act (ch == .h) 1 0xFF else s
    let s := if s.safe.swChanged ∧ !changed then
        let s := (s.setBit kSafeStatus 7 true).safeLog false 0x0406 (le 4 ((s.safe.swCommit.getD (0, 0)).1) ++ le 4 word.toNat)
        s.act (ch == .h) 1 0xFF
      else s
    s.drive

/-! ### Safety sets (R342 to R344) -/

/-- The entries of a set: key and value; none when the string ends early. -/
def setEntries : Nat → Nat → Bytes → Option (List (Nat × Bytes))
  | 0, _, _ => none
  | _ + 1, 0, b => if b.isEmpty then some [] else none
  | f + 1, n + 1, b =>
    let len := num b 4 2
    let w := 8 + roundUp 4 len
    if b.length < w then none
    else (setEntries f n (b.drop w)).map (fun r => (objKey (num b 0 2) (num b 2 1), slice b 8 len) :: r)

/-- The set part of a downloaded string: the bytes before its signature block. -/
def setBody (d : Bytes) : Bytes := d.take (d.length - sigLen 1)

/-- A binary32 value lies in a range given by two patterns. -/
def inF32 (v lo hi : Nat) : Bool := f32.le lo v && f32.le v hi

/-- The ranges of SAFE_GLOBAL (R350). -/
def globalOk (v : Bytes) : Bool :=
  let n o := num v o 4
  let b (o lo hi : Nat) := decide (lo ≤ n o) && decide (n o ≤ hi)
  inF32 (n 0) 0x3FCCCCCD 0x40400000 && inF32 (n 4) 0 0x3F800000 && inF32 (n 8) 0 0x3F800000 && inF32 (n 12) 0 0x3F000000 &&
    b 16 100 100000 && b 20 50 10000 && b 24 1 1000 && b 28 0 1800 && b 32 250 10000 && b 36 10 10080 && b 40 0 1440 &&
    b 44 0 2000 && b 48 0 2000 && b 52 0 60000

/-- The ranges of an input record (R323, R351). -/
def inputOk (r : Bytes) : Bool :=
  let f := num r 0 1
  let stop := num r 4 1
  let tp (o : Nat) := decide (num r o 1 ≤ 3) || num r o 1 == 0xFF
  decide (f ≤ 8) && decide (num r 1 1 ≤ 1) && tp 2 && tp 3 &&
    (if f = 1 then decide (stop ≤ 1) else if f = 2 then decide (stop ≤ 2) else stop == 0)

/-- The ranges of a SAFE_ARM record (R352). -/
def armOk (v : Bytes) : Bool :=
  let n o := num v o 4
  let track := num v 48 1
  inF32 (n 0) 0x3D4CCCCD 0x40A00000 && f32.isFinite (n 4) && f32.le (n 8) 0x3E800000 && f32.le (n 12) 0x3E800000 &&
    f32.lt 0 (n 16) && f32.le (n 16) 0x3F800000 && (decide (track ≤ 7) || track == 0xFF)

/-- A value fits an object of level S: size and range. DEDUCED, log entry 51. -/
def setValueOk (key : Nat) (v : Bytes) : Bool :=
  if key = kSafeGlobal then v.length == 64 && globalOk v
  else if key = kSafeInCfg then
    let l := records 8 v
    v.length == 256 && l.all inputOk && decide ((l.filter (fun r => num r 0 1 == 5)).length ≤ 1) &&
      decide ((l.filter (fun r => num r 0 1 == 6)).length ≤ 1)
  else if key = kSafeOutCfg then v.length == 128 && (records 8 v).all (fun r => decide (num r 0 1 ≤ 3))
  else if key = kSafeBrkCfg then v.length == 64 && (records 4 v).all (fun r => decide (num r 0 1 ≤ 7) || num r 0 1 == 0xFF)
  else if key = kSafeConn then
    v.length % 16 == 0 && decide (v.length ≤ 1024) && (records 16 v).all (fun r => decide (num r 5 1 ≤ 2) && decide (num r 4 1 ≤ 1))
  else if key / 256 = 0x7002 then v.length == 208 && armOk v
  else if key / 256 = 0x7003 then v.isEmpty || v.length == 96 + 112 * num v 0 1 && decide (num v 0 1 ≤ 8)
  else v.length == 320

/-- An object of level S (R344). -/
def levelS (key : Nat) : Bool := match objRow? (key / 256) (key % 256) with
  | some r => r.lvl == .s
  | none => false

/-- The set is valid apart from its signature (R342). -/
def setOk (b : Bytes) : Bool :=
  num b 0 4 == 0x53450001 && decide (num b 4 1 ≤ 15) && num b 8 4 == b.length && decide (32 ≤ b.length) &&
    match setEntries (b.length + 1) (num b 12 4) (b.drop 32) with
    | some l => l.all (fun p => levelS p.1 && setValueOk p.1 p.2)
    | none => false

/-- The own checks of SAFE_SET_DL (R343). -/
def safeSetOwn (d : Bytes) (s : State) : Nat :=
  if !s.isIn [.inert, .config, .service] then abState
  else if s.sec.flashOp.isSome then abBusy
  else if !s.sec.verify "CX864-SET" 1 ownerSigners d then abSignature
  else if !setOk (setBody d) then abRange
  else resPending

/-- An accepted set is written to boot flash; its answer comes with BOOT_FLASH_OPERATION_DONE. -/
def safeSetEff (rq : Requester) (d : Bytes) (s : State) : State := s.onSec (fun x => { x with flashOp := some (.safetySet d rq) })

/-- SAFE_SET_DL (R343). -/
def safeSetDl (rq : Requester) (d : Bytes) (s : State) : State :=
  s.verifying rq 0x7000 0x08 d (submitWrite rq 0x7000 0x08 d (safeSetOwn d) (safeSetEff rq d))

/-- The set is stored (R343): record 0x0405. -/
def State.setStored (s : State) (d : Bytes) (rq : Requester) (ok : Bool) : State :=
  let b := setBody d
  let s := s.onSec (fun x => { x with flashOp := none })
  if ok then
    let s := s.onSafe (fun x => { x with sets := modAt x.sets (num b 4 1) (fun _ => some b) })
    (s.safeLog false 0x0405 (le 1 (num b 4 1) ++ [0] ++ le 2 (setCrc b))).finish rq 0
  else s.finish rq abHwFault

/-- SAFE_SET_DIR (R348). -/
def State.setDir (s : State) : Bytes :=
  (s.safe.sets.zipIdx.map (fun p => match p.1 with
    | some b => [1, BitVec.ofNat 8 p.2] ++ le 2 (setCrc b) ++ le 4 b.length
    | none => [0, BitVec.ofNat 8 p.2, 0, 0, 0, 0, 0, 0])).flatten

/-- Objects of level S. -/
def levelSKeys : List Nat :=
  [kSafeGlobal, kSafeInCfg, kSafeOutCfg, kSafeBrkCfg, kSafeConn] ++ (List.range 8).map kSafeArm ++ (List.range 8).map kSafeKin ++
    (List.range 8).map kSafeSpheres

/-- A set writes the objects of level S: those that it does not name take their defaults (R342). -/
def State.takeSet (s : State) (b : Bytes) : State :=
  let s := levelSKeys.foldl (fun s k => s.setObj k (objDefault k)) s
  let l := (setEntries (b.length + 1) (num b 12 4) (b.drop 32)).getD []
  l.foldl (fun (s : State) (p : Nat × Bytes) => s.setObj p.1 (cleanValue (p.1 / 256) (p.1 % 256) p.2)) s

/-- Both channels load the set that the switches name (R343); only a set whose CRC-16 matches the switches may write the objects
of level S (R8). Without one they keep their values. DEDUCED, log entry 51. -/
def State.loadSet (s : State) : State :=
  let old := s
  let w := s.safe.swA.getD 0
  let s := match s.safe.sets.getD (w / 2 ^ 28 % 16) none with
    | some b =>
      let s := if setCrc b = field w 12 16 then s.takeSet b else s
      (s.setN kSafeSetCrc (setCrc b)).setBit kSafeStatus 5 (setCrc b != field w 12 16)
    | none => (s.setN kSafeSetCrc 0).setBit kSafeStatus 5 true
  let n := s.connRecs.length
  let s := s.onSafe (fun x => { x with conns := List.replicate n ⟨false, none⟩, vols := [] })
  State.evalInputs old s

/-! ### DEGRADED and RUN (R312, R324, R346, R421) -/

/-- Seconds used of DEGRADED. -/
def State.degUsed (s : State) : Nat := match s.safe.degSince with
  | some t => (s.recd.optime - t) / 16
  | none => 0

/-- DEG_TIME in force: 0 when DEG_EN is 0. -/
def State.degTime (s : State) : Nat := if s.swBit 1 then s.glob 28 else 0

/-- SAFE_DEG_REMAIN (R346). -/
def State.degRemain (s : State) : Nat := if s.dev.state = .degraded then s.degTime - s.degUsed else 0

/-- Entry to DEGRADED (R346): with DEG_TIME 0 the timer ends at once. -/
def State.enterDegraded (s : State) : State :=
  let s := (s.enter .degraded).onSafe (fun x => { x with degSince := some s.recd.optime })
  let s := { s with dev := { s.dev with degradedUsed := true, degTimerEnd := decide (s.degTime = 0) } }
  let s := s.setBit kSafeStatus 14 true
  (s.setN kFaultCause 0x0402).safeLog false 0x0407 ([0, 0, 0, 0] ++ le 4 0)

/-- Record 0x0407 at the end of DEGRADED. -/
def State.leaveDegraded (s : State) : State :=
  (s.safeLog false 0x0407 ([1, 0, 0, 0] ++ le 4 s.degUsed)).onSafe (fun x => { x with degSince := none })

/-- DEGRADED_TIMER_EXPIRY (R25, R346): evaluated at the next cycle start. DEDUCED, log entry 2. -/
def degradedTimerExpiry (s : State) : State :=
  if s.dev.state = .degraded then { s with dev := { s.dev with degTimerEnd := true } } else s

/-- RUN_ENABLE acts as the reset when no RESET input is configured (R324). -/
def State.resetByRun (s : State) : State :=
  if (s.inputs 6).isEmpty ∧ s.estopsOut then s.setBit kSafeStatus 4 false else s

/-- Why RUN_ENABLE is refused with SAFETY_LOCKED (R421), after the reset. -/
def State.runLocked (s : State) : Bool :=
  s.stopping || s.bit kSafeStatus 4 || s.bit kSafeStatus 13 || s.bit kSafeStatus 6 ||
    (s.automatic && !s.bit kSafeStatus 2) || !s.chOk false || !s.chOk true || s.safe.bt.isSome || s.safe.conns.any ConnSt.lost

/-- SPs and Kerb self-test results (R27). -/
def State.setMatches (s : State) : Bool := !s.bit kSafeStatus 5 && !s.bit kSafeStatus 6

/-- PERIODIC_SELF_TEST (R312). -/
def periodicSelfTest (u : TestUnit) (ok : Bool) (s : State) : State :=
  if s.dev.phase = .reset ∨ ok then s
  else match u with
    | .sp => (s.chanFault false 1).drive
    | .kerb => (s.chanFault true 2).drive

/-- SP_WATCHDOG_EXPIRY (R312). -/
def spWatchdogExpiry (s : State) : State := if s.dev.phase = .reset then s else (s.chanFault false 1).drive

end Sys2Proof.Machine
end

