-- ==== Sys2Proof/Machine/Motion.lean ====
section
/-! DEFINITION. Motion planning and path correction (R128 to R163, R521, R523, R524): path clocks, moves with their refusals,
replacement and status, jog, cams, tables, groups, planner runs and horizon halves, correction channels, virtual masters. What a
plan computes stands in Machine/Planner.lean. -/

namespace Sys2Proof.Machine

/-! ### Movers: what arms, groups and axes share -/

/-- A motion with its queue and its status in the layout of MOVE_STATUS (R145). -/
structure Mov where
  motion : Motion
  queued : Option Bytes
  stat : Bytes
deriving DecidableEq, Repr

/-- A motion that begins where another ends, whose end state is its start (R140). -/
def chainMotion (m : Motion) (kind : Nat) (desc : Bytes) (par : PlanPar) : Motion :=
  { startMotion kind desc m.rest m.rest par (m.endAt.getD m.begin_) with
    present := m.tableTime (num desc 34 2) (((m.endAt.getD m.begin_) + 2 ^ 32 - 1) / 2 ^ 32) }

/-- TYPE, MOVE_ID and flags of a descriptor (R138). -/
def mvType (d : Bytes) : Nat := num d 0 1
def mvId (d : Bytes) : Nat := num d 2 2
def mvFlag (d : Bytes) (i : Nat) : Bool := (num d 1 1).testBit i

/-- Sets MSTATE and ERR. -/
def stSet (b : Bytes) (mstate err : Nat) : Bytes := patch b 0 (le 1 mstate ++ le 1 err)

/-- Sets a flag of byte 6. -/
def stFlag (b : Bytes) (i : Nat) (v : Bool) : Bytes := patch b 6 (le 1 (setBit (num b 6 1) i v))

/-- A motion is in progress. -/
def Mov.active (x : Mov) : Bool := !x.motion.done && decide (1 ≤ x.motion.kind) && decide (x.motion.kind ≤ 6)

/-- An accepted write clears the flags of byte 6 but JOG (R145). -/
def stAccept (b : Bytes) : Bytes := patch b 6 (le 1 (if (num b 6 1).testBit 5 then 32 else 0))

/-- QUEUED_ID and QUEUED. -/
def stQueued (b : Bytes) (q : Option Bytes) : Bytes :=
  match q with
  | some d => stFlag (patch b 4 (le 2 (mvId d))) 0 true
  | none => stFlag b 0 false

/-- A descriptor is applied (R140): with QUEUE behind an active move it waits, else it replaces the move. -/
def Mov.take (x : Mov) (d start : Bytes) (par : PlanPar) (t0 : Nat) : Mov :=
  let st := stAccept x.stat
  if mvFlag d 0 && x.active then { x with queued := some d, stat := stQueued st (some d) }
  else
    let m := { startMotion (mvType d) d start start par (t0 * 2 ^ 32) with present := x.motion.tableTime (num d 34 2) t0 }
    let st := patch (stSet st 1 0) 2 (le 2 (mvId d))
    let st := stFlag (stFlag st 2 x.active) 4 (m.cut)
    { motion := m, queued := none, stat := stQueued st none }

/-- The end state is reached (a cam ends at a table end, `camEnd`): DONE, or STOPPED for a STOP move, and a queued move starts. -/
def Mov.advance (x : Mov) (par : Bytes → PlanPar) (theta : Nat) (camEnd : Bool) : Mov :=
  let ended := if x.motion.kind = 5 then camEnd else (x.motion.endAt.map (fun e => decide (e ≤ theta))).getD false
  if !x.active ∨ !ended then x
  else match x.queued with
    | some d =>
      let m := chainMotion (if camEnd then { x.motion with endAt := some theta } else x.motion) (mvType d) d (par d)
      let st := patch (stSet x.stat 1 0) 2 (le 2 (mvId d))
      { motion := m, queued := none, stat := stQueued (stFlag st 4 (m.cut)) none }
    | none => { x with motion := { x.motion with done := true }, stat := stSet x.stat (if x.motion.kind = 6 then 3 else 2) 0 }

/-- The move ends with an error or by a stop, and the queue is cleared (R137, R145). -/
def Mov.fail (x : Mov) (mstate err : Nat) : Mov :=
  if x.active then
    { motion := { x.motion with done := true }, queued := none, stat := stQueued (stSet x.stat mstate err) none }
  else { x with queued := none, stat := stQueued x.stat none }

/-- The motion that holds at a whole path time: the queued move takes over at the end of the active one. -/
def Mov.motionAt (x : Mov) (par : Bytes → PlanPar) (n : Nat) : Motion :=
  match x.queued with
  | some d => if x.active && x.motion.over_ n then chainMotion x.motion (mvType d) d (par d) else x.motion
  | none => x.motion

/-- The queued move that has taken over at a whole path time stays the motion when the queue is cleared. -/
def Mov.keepChain (x : Mov) (par : Bytes → PlanPar) (n : Nat) : Mov := { x with motion := x.motionAt par n }

/-- State of a mover at a whole path time. -/
def Mov.at_ (x : Mov) (par : Bytes → PlanPar) (n : Nat) : Bytes := (x.motionAt par n).at_ n

/-- REMAIN: path time left, s, binary32; `tns` is a basic cycle. A move without an end has no such time: the value is free, by `v`.
DEDUCED, log entry 38. -/
def remain (m : Motion) (theta tns v : Nat) : Bytes :=
  le 4 (if m.done ∨ m.kind = 0 then 0
    else match m.endAt with
      | some e => f32.ofRatio (((e - theta) * tns : Nat) : Int) (2 ^ 32 * 1000000000)
      | none => Config.freeNat v)

/-! ### Arms -/

/-- Replaces the planners' state. -/
def State.onMot (s : State) (f : StMotion → StMotion) : State := { s with motion := f s.motion }

/-- An arm's planners. -/
def State.mot (s : State) (a : Nat) : ArmSt := s.motion.arms.getD a
  { sigmaPrev := 0, stopRamp := false, cur := .reset, next := none, motion := .reset, queued := none, due := [], jog := none,
    underrun := false, reseeded := false }

/-- Changes one arm's planners. -/
def State.onMArm (s : State) (a : Nat) (f : ArmSt → ArmSt) : State :=
  s.onMot (fun m => { m with arms := modAt m.arms a f })

/-- A group's state. -/
def State.grp (s : State) (g : Nat) : GrpSt := s.motion.groups.getD g 
  { motion := .reset, queued := none, due := [], objPose := poseOne, reseeded := false }

/-- Changes one group. -/
def State.onGrp (s : State) (g : Nat) (f : GrpSt → GrpSt) : State :=
  s.onMot (fun m => { m with groups := modAt m.groups g f })

/-- An arm as a mover. -/
def State.armMov (s : State) (a : Nat) : Mov :=
  let x := s.mot a
  ⟨x.motion, x.queued, s.obj (kMoveStatus a)⟩

/-- Puts an arm's mover back. -/
def State.setArmMov (s : State) (a : Nat) (x : Mov) : State :=
  (s.onMArm a (fun y => { y with motion := x.motion, queued := x.queued })).setObj (kMoveStatus a) x.stat

/-- A group as a mover. -/
def State.grpMov (s : State) (g : Nat) : Mov :=
  let x := s.grp g
  ⟨x.motion, x.queued, s.obj (kGrpStatus g)⟩

/-- Puts a group's mover back. -/
def State.setGrpMov (s : State) (g : Nat) (x : Mov) : State :=
  (s.onGrp g (fun y => { y with motion := x.motion, queued := x.queued })).setObj (kGrpStatus g) x.stat

/-- Members of a group. -/
def State.members (s : State) (g : Nat) : List Nat := (bitsOf 8 (s.n (kGrpMembers g))).filter (fun a => s.n (kArmNj a) != 0)

/-- GRP_GRASP as it reads: identity for non-members (R155). -/
def State.grasps (s : State) (g : Nat) : Bytes :=
  ((List.range 8).map (fun a => if (s.members g).contains a && !(s.obj (kGrpGrasp g)).isEmpty then fit 28 (slice (s.obj (kGrpGrasp g)) (28 * a) 28) else poseOne)).flatten

/-- The closed group that an arm belongs to. -/
def State.groupOf (s : State) (a : Nat) : Option Nat :=
  (List.range 4).find? (fun g => s.n (kGrpState g) == 1 && (s.members g).contains a)

/-- The leader of a group (R155). -/
def State.leader (s : State) (g : Nat) : Nat := (s.members g).headD 0

/-- θ of an arm in 2^-32 basic cycles. -/
def State.theta (s : State) (a : Nat) : Nat := s.n (kPathClock a)

/-- Object of a segment or cam table by number (R147, R151). -/
def segKey (n : Nat) : Nat := if n < 128 then kSegTable n else kSegTableHi (n - 128)
def camKey (n : Nat) : Nat := if n < 128 then kCamTable n else kCamTableHi (n - 128)

/-- What a plan of an arm reads besides descriptor and start: the table is the one that a SEGMENT move or a cam names. -/
def State.armPlan (s : State) (a : Nat) (d : Bytes) : PlanPar :=
  .arm { kin := s.obj (kArmKin a), tns := s.tns, iter := s.n (kIkIter a), lambda := s.n (kIkLambda a), restQ := s.obj (kRestQ a),
         nullGain := s.n (kIkNullGain a), joinTol := s.n (kSegJoinTol a), tolP := s.n (kIkTolP a), tolR := s.n (kIkTolR a),
         table := match mvType d with
           | 4 => s.obj (segKey (num d 32 2))
           | 5 => s.obj (segKey (num d 34 2))
           | _ => []
         safeArm := s.obj (kSafeArm a) }

/-- What a plan of a group reads. -/
def State.grpPlan (s : State) (g : Nat) (d : Bytes) : PlanPar :=
  .grp { tns := s.tns, joinTol := s.n (kSegJoinTol (s.leader g)), table := if mvType d = 4 then s.obj (segKey (num d 32 2)) else [] }

/-- A list per entry of a half at a path time that it reaches. -/
def Half.at_ {α : Type} (h : Half) (l : List α) (n : Nat) : Option α := if h.theta0 ≤ n then l[n - h.theta0]? else none

/-- Nominal state of an arm at a whole path time (R129): that of the horizon half where it reaches, else the plan. -/
def State.nominal (s : State) (a n : Nat) : Bytes :=
  let h := (s.mot a).cur
  (h.at_ h.exact n).getD ((s.armMov a).at_ (s.armPlan a) n)

/-- Its horizon entry. -/
def State.horizon (s : State) (a n : Nat) : Bytes :=
  let h := (s.mot a).cur
  (h.at_ h.entries n).getD (entryOf (s.nominal a n) (s.nominal a n))

/-- HZ_TABLE (R136). -/
def Half.bytes (h : Half) : Bytes :=
  le 8 h.theta0 ++ le 2 h.moveId ++ le 1 h.hz ++ le 1 h.flags ++ [0, 0, 0, 0] ++ h.entries.flatten

/-! ### Cams (R151 to R154) -/

/-- A master code names a master. -/
def masterOk (m : Nat) : Bool :=
  let i := m % 4096
  match m / 4096 with
  | 0 => decide (i < 64)
  | 1 => decide (i < 16)
  | 2 => decide (i < 16)
  | 3 => i == 0
  | 4 => decide (i < 4)
  | _ => false

/-- The value of a master, binary64 (R152). -/
def State.master (s : State) (m start : Nat) : Nat :=
  let i := m % 4096
  match m / 4096 with
  | 0 => f32.conv f64 (s.solver.q.getD i 0)
  | 1 => s.n (kAxPosCmd i)
  | 2 => f64.ofInt (s.i (kFbPos i)) 0
  | 3 => f64.ofRatio (((s.cycle - start) * s.tns : Nat) : Int) 1000000000
  | _ => s.n (kVmPos i)

/-- x = (master − M_OFFSET) × M_SCALE. -/
def camX (d : Bytes) (m : Nat) : Nat :=
  f64.mul (f64.sub m (f32.conv f64 (num d 80 4))) (f32.conv f64 (num d 84 4))

/-- PERIODIC of the table or of its use (R138). -/
def camPeriodic (t d : Bytes) : Bool := (num t 4 1).testBit 0 || (num d 78 1).testBit 1

/-- x lies outside the table, which is not PERIODIC. -/
def camOutside (t d : Bytes) (x : Nat) : Bool :=
  let l := camPoints t
  let x0 := f32.conv f64 (num (l.headD []) 0 4)
  let x1 := f32.conv f64 (num (l.getLastD []) 0 4)
  !camPeriodic t d && (f64.lt x x0 || f64.lt x1 x)

/-- Slave position: S_OFFSET + S_SCALE × y(x), with the S_OFFSET in force (binary64). DEDUCED, log entry 38. -/
def camSlave (t d : Bytes) (offset x : Nat) : Nat :=
  f64.add offset (f64.mul (f32.conv f64 (num d 92 4)) (camY t (camPeriodic t d) ⟨x⟩).bits)

/-- S_OFFSET at engagement, or CAM_GAP (R154): `present` is the slave position, `tol` the join tolerance, both binary64. -/
def camEngage (t d : Bytes) (m present tol : Nat) : Option Nat :=
  let off := f32.conv f64 (num d 88 4)
  let y := camSlave t d off (camX d m)
  let gap := f64.sub present y
  if (num d 78 1).testBit 0 then (if f64.lt tol (f64.abs gap) then none else some off) else some (f64.add off gap)

/-- A cam move of an arm in one cycle: the slave is the table time. DEDUCED, log entry 38. -/
def State.armCam (s : State) (a : Nat) : State :=
  let x := s.armMov a
  match x.motion.cam with
  | none => s
  | some (cycle, off) =>
    if x.motion.kind ≠ 5 ∨ !x.active then s
    else
      let d := x.motion.desc
      let t := s.obj (camKey (num d 32 2))
      let y := camX d (s.master (num d 76 2) cycle)
      let x := { x with motion := { x.motion with slave := camSlave t d off y } }
      if camOutside t d y then
        let x := x.advance (s.armPlan a) (s.theta a) true
        s.setArmMov a { x with stat := stFlag x.stat 3 true }
      else s.setArmMov a x

/-! ### Refusals of moves (R139, R143, R150, R158) -/

/-- A scale lies in (0, 1]. -/
def scaleOk (d : Bytes) (off : Nat) : Bool := f32.lt 0 (num d off 4) && f32.le (num d off 4) f32one

/-- The position of a joint in a nominal state, binary64. -/
def statePos (b : Bytes) (j : Nat) : Nat := num b (24 * j) 8

/-- A JOINT target, absolute or relative to a reference state, lies in the limits of every joint without CONT. -/
def State.targetOk (s : State) (a : Nat) (d ref : Bytes) : Bool :=
  (List.range (s.nj a)).all (fun j =>
    let r := s.joint (8 * a + j)
    let t := num d (32 + 4 * j) 4
    let p := f32.ratio t
    let q := f64.ratio (if mvFlag d 1 then statePos ref j else 0)
    let n := p.1 * q.2 + q.1 * p.2
    let den := p.2 * q.2
    let lo := f32.ratio (num r 28 4)
    let hi := f32.ratio (num r 32 4)
    f32.isFinite t && ((num r 1 1).testBit 0 || decide (lo.1 * den ≤ n * lo.2) && decide (n * hi.2 ≤ hi.1 * den)))

/-- The reference state of a move at its write (R140). -/
def State.refState (s : State) (a : Nat) (d : Bytes) : Bytes :=
  let x := s.armMov a
  if mvFlag d 0 ∧ x.active then x.motion.rest else s.nominal a (s.theta a / 2 ^ 32 + 2)

/-- A segment table may be used with channels that have these velocity and acceleration limits (R150). DEDUCED, log entry 66. -/
def segUsable (t : Bytes) (lim : List (Rat × Rat)) : Bool := !t.isEmpty && num t 4 1 == lim.length && peaksOk t lim

/-- Scaled limits of an arm's joints. -/
def State.armLimits (s : State) (a : Nat) (d : Bytes) : List (Rat × Rat) :=
  (List.range (s.nj a)).map (fun j =>
    let r := s.joint (8 * a + j)
    (rat32 (num d 4 4) * rat32 (num r 36 4), rat32 (num d 8 4) * rat32 (num r 40 4)))

/-- Limits of an object frame's components. -/
def toolLimits (d : Bytes) : List (Rat × Rat) :=
  List.replicate 3 (rat32 (num d 16 4), rat32 (num d 24 4)) ++ List.replicate 3 (rat32 (num d 20 4), rat32 (num d 24 4))

/-- The arc of a CIRCULAR descriptor from a frame exists (R143). -/
def circleOk (d : Bytes) (f : Pose) : Bool := arcOk f.p (V3.read d 64) (targetFrame d f).p

/-- The tool frame of an arm's nominal state. -/
def State.nominalTool (s : State) (a : Nat) (b : Bytes) : Pose := (toolState (s.obj (kArmKin a)) (JState.read (s.nj a) b)).f

/-- The OUT_OF_RANGE cases of an arm's descriptor. DEDUCED, log entry 38. -/
def State.armMoveBad (s : State) (a : Nat) (d : Bytes) : Bool :=
  let ref := s.refState a d
  d.length != 96 || !(decide (1 ≤ mvType d) && decide (mvType d ≤ 6)) || s.nj a == 0 ||
    !(scaleOk d 4 && scaleOk d 8 && scaleOk d 12) ||
    (match mvType d with
     | 1 => !s.targetOk a d ref
     | 3 => !circleOk d (s.nominalTool a ref)
     | 4 => !(decide (num d 32 2 < 256) && segUsable (s.obj (segKey (num d 32 2))) (s.armLimits a d))
     | 5 => !(decide (num d 32 2 < 256) && decide (num d 34 2 < 256) && masterOk (num d 76 2) &&
         !(s.obj (camKey (num d 32 2))).isEmpty && num (s.obj (segKey (num d 34 2))) 4 1 == s.nj a &&
         !(s.obj (segKey (num d 34 2))).isEmpty && !f32.eqv (num d 84 4) 0 &&
         !(num d 76 2 / 4096 == 0 && num d 76 2 % 4096 / 8 == a))
     | _ => false)

/-- Manual mode permits jog only (R325). -/
def State.jogOnly (s : State) : Bool := !s.automatic

/-- The own checks of MOVE_CMD (R139). -/
def armMoveOwn (a : Nat) (d : Bytes) (s : State) : Nat :=
  if s.jogOnly then abSafety
  else if s.tierUse < 3 then abNoResource
  else if (s.groupOf a).isSome then abBusy
  else if s.armMoveBad a d then abRange else 0

/-- The object frame that a group's move refers to at its write (R140). -/
def State.grpRef (s : State) (g : Nat) (d : Bytes) : Pose :=
  let x := s.grpMov g
  (TState.read (if mvFlag d 0 ∧ x.active then x.motion.rest else x.at_ (s.grpPlan g) (s.theta (s.leader g) / 2 ^ 32 + 2))).f

/-- The own checks of GRP_MOVE (R139, R155, R158). DEDUCED, log entry 38. -/
def grpMoveOwn (g : Nat) (d : Bytes) (s : State) : Nat :=
  if s.jogOnly then abSafety
  else if s.tierUse < 3 then abNoResource
  else if s.n (kGrpState g) ≠ 1 then abBusy
  else if d.length != 96 || !([2, 3, 4, 6].contains (mvType d)) || !(scaleOk d 4 && scaleOk d 8 && scaleOk d 12) ||
      (mvType d == 3 && !circleOk d (s.grpRef g d)) ||
      (mvType d == 4 && !(decide (num d 32 2 < 256) && (num (s.obj (segKey (num d 32 2))) 5 1).testBit 0 &&
        segUsable (s.obj (segKey (num d 32 2))) (toolLimits d))) then abRange
  else 0

/-- Record 0x0311 (R139): `who` is the arm, or 0x10 + n for an axis. -/
def State.moveRefused (s : State) (who : Nat) (d : Bytes) : State :=
  s.log 0x0311 (le 1 who ++ le 1 (if d.isEmpty then 0 else mvType d) ++ le 2 (if d.length < 4 then 0 else mvId d) ++ le 8 s.cycle)

/-- A move write, with the record of an OUT_OF_RANGE refusal. -/
def moveWrite (rq : Requester) (index sub who : Nat) (d : Bytes) (own : State → Nat) (eff : State → State) (s : State) : State :=
  let s' := submitWrite rq index sub d own eff s
  if s.served rq ∧ writeCheck s rq index sub d = 0 ∧ own s = abRange then s'.moveRefused who d else s'

/-- The effect of MOVE_CMD: the next planner run applies it (R137). -/
def armMoveEff (a : Nat) (d : Bytes) (s : State) : State := (storeWrite (0x3002 + 0x100 * a) 1 d s).onMArm a (fun x => { x with due := x.due ++ [d] })

/-- The effect of GRP_MOVE. -/
def grpMoveEff (g : Nat) (d : Bytes) (s : State) : State := (storeWrite (0x3800 + g) 5 d s).onGrp g (fun x => { x with due := x.due ++ [d] })

/-! ### Jog (R146, R524) -/

/-- Fractions of a jog command: eight joints, or six components in the tool modes (R146). -/
def jogWords (d : Bytes) : Nat := if num d 0 1 = 0 then 8 else 6

/-- Every fraction of a jog command is 0. -/
def jogStill (d : Bytes) : Bool := (List.range (jogWords d)).all (fun i => f32.eqv (num d (4 + 4 * i) 4) 0)

/-- The own checks of JOG_CMD. -/
def jogOwn (a : Nat) (d : Bytes) (s : State) : Nat :=
  if s.tierUse < 2 then abNoResource
  else if (s.groupOf a).isSome then abBusy
  else if d.length != 40 || decide (2 < num d 0 1) || s.nj a == 0 ||
      !(List.range (jogWords d)).all (fun i => f32.le (f32.abs (num d (4 + 4 * i) 4)) f32one) ||
      decide (num d 36 4 < 10) || decide (1000 < num d 36 4) then abRange
  else 0

/-- Arms being jogged, as the Safety Quarter counts them (R325). -/
def State.jogMask (s : State) : State :=
  s.onSafe (fun x => { x with jogging := maskOf ((List.range 8).filter (fun a => (s.mot a).jog.isSome)) })

/-- The effect of JOG_CMD at its apply cycle; its TIMEOUT runs from that cycle start. DEDUCED, log entry 38. -/
def jogEff (a : Nat) (d : Bytes) (s : State) : State :=
  ((storeWrite (0x3003 + 0x100 * a) 1 d s).onMArm a (fun x => { x with jog := some ⟨d, s.cycle * s.tns, false⟩ })).jogMask

/-- JOG_CMD (R146, R524). -/
def jogCmd (rq : Requester) (a : Fin 8) (d : Bytes) (s : State) : State :=
  submitWrite rq (0x3003 + 0x100 * a.val) 0x01 d (jogOwn a d) (jogEff a d) s

/-- JOG_TIMEOUT (R524): VEL is taken as 0. -/
def jogTimeout (a : Fin 8) (s : State) : State := s.onMArm a (fun x => { x with jog := x.jog.map (fun j => { j with zero := true }) })

/-! ### Tables (R147, R149, R151) -/

/-- The OUT_OF_RANGE cases of a segment table. DEDUCED, log entry 66. -/
def segBad (n : Nat) (d : Bytes) : Bool :=
  let count := num d 2 2
  let k := num d 4 1
  let w := 4 + 8 * k
  let rows := records w (d.drop 32)
  let v0 := rows.headD []
  let v1 := rows.getLastD []
  d.length < 32 || num d 0 2 != n || !(decide (1 ≤ count) && decide (count ≤ 4096)) || !(decide (1 ≤ k) && decide (k ≤ 8)) ||
    d.length != 32 + (count + 1) * w || num d 12 4 != crc32c (d.drop 32) || !f32.eqv (num v0 0 4) 0 ||
    !(rows.drop 1).all (fun r => f32.isFinite (num r 0 4) &&
      (let t := f32.ratio (num r 0 4); decide ((t.2 : Int) ≤ t.1 * 1000000))) ||
    ((num d 5 1).testBit 1 && !(List.range k).all (fun c => f32.eqv (num v0 (8 + 8 * c) 4) (num v1 (8 + 8 * c) 4)))

/-- The OUT_OF_RANGE cases of a cam table. DEDUCED, log entry 66. -/
def camBad (n : Nat) (d : Bytes) : Bool :=
  let count := num d 2 2
  let l := camPoints d
  let s0 := num (l.headD []) 8 4
  let s1 := num (l.getLastD []) 8 4
  d.length < 32 || num d 0 2 != n || !(decide (2 ≤ count) && decide (count ≤ 8192)) || d.length != 32 + count * 12 ||
    num d 8 4 != crc32c (d.drop 32) || !(l.zip (l.drop 1)).all (fun p => f32.lt (num p.1 0 4) (num p.2 0 4)) ||
    (if (num d 4 1).testBit 0 then !f32.eqv s0 s1 else !(f32.eqv s0 0 && f32.eqv s1 0))

/-- Descriptors of active and queued moves, and of those that wait to be applied, of arms, groups and axes. -/
def State.liveMoves (s : State) : List Bytes :=
  let of (m : Motion) (q : Option Bytes) (due : List Bytes) : List Bytes :=
    (if !m.done && m.kind != 0 && m.kind != 7 then [m.desc] else []) ++ q.toList ++ due
  (s.motion.arms.flatMap (fun x => of x.motion x.queued x.due)) ++ (s.motion.groups.flatMap (fun x => of x.motion x.queued x.due)) ++
    (s.axes.axes.flatMap (fun x => of x.motion x.queued (x.due ++ (x.deferred.map Prod.fst).toList ++ x.waitQ.toList)))

/-- The own check of a segment table write. -/
def segOwn (n : Nat) (d : Bytes) (s : State) : Nat :=
  if s.liveMoves.any (fun m => mvType m == 4 && num m 32 2 == n || mvType m == 5 && num m 34 2 == n) then abBusy
  else if segBad n d then abRange else 0

/-- The own check of a cam table write. -/
def camOwn (n : Nat) (d : Bytes) (s : State) : Nat :=
  if s.liveMoves.any (fun m => mvType m == 5 && num m 32 2 == n) then abBusy else if camBad n d then abRange else 0

/-- SEG_TABLE_WRITE (R149). -/
def segTableWrite (rq : Requester) (n : Fin 256) (d : Bytes) (s : State) : State :=
  let k := segKey n
  submitWrite rq (keyIndex k) (keySub k) d (segOwn n d) (storeWrite (keyIndex k) (keySub k) d) s

/-- CAM_TABLE_WRITE (R149, R151). -/
def camTableWrite (rq : Requester) (n : Fin 256) (d : Bytes) (s : State) : State :=
  let k := camKey n
  submitWrite rq (keyIndex k) (keySub k) d (camOwn n d) (storeWrite (keyIndex k) (keySub k) d) s

/-! ### Re-seed (R135) -/

/-- T in seconds, binary64 and binary32. -/
def State.t64 (s : State) : Nat := f64.ofRatio s.tns 1000000000
def State.t32 (s : State) : Nat := f32.ofRatio s.tns 1000000000

/-- A re-seeded nominal state of one joint at `t` seconds (a fraction) after θ: q, q′ and q″. -/
def seedJoint (q v a sigma : Nat) (t : Nat) : PVA :=
  let q := f32.conv f64 q
  let s := f64.ofRatio sigma 65536
  let q1 := if sigma = 0 then 0 else f64.div (f32.conv f64 v) s
  let q2 := if sigma = 0 then 0 else f64.div (f32.conv f64 a) (f64.mul s s)
  let half := f64.div (f64.mul (f64.mul q2 t) t) (f64.ofInt 2 0)
  ⟨⟨f64.add (f64.add q (f64.mul q1 t)) half⟩, ⟨f64.add q1 (f64.mul q2 t)⟩, ⟨q2⟩⟩

/-- The re-seeded state of an arm at a whole path time. -/
def State.seedAt (s : State) (a n : Nat) : Bytes :=
  let th := s.theta a
  let t := f64.ofRatio (((n * 2 ^ 32 : Nat) : Int) - th) (2 ^ 32)
  let t := f64.mul t s.t64
  ((List.range (s.nj a)).map (fun j =>
    let i := 8 * a + j
    (seedJoint (s.solver.q.getD i 0) (s.solver.v.getD i 0) (s.solver.a.getD i 0) (s.n (kSigma a)) t).bytes)).flatten

/-- A motion of an arm planned anew from a state at a path time: its move goes on to the same target. DEDUCED, log entry 38. -/
def State.armAgain (s : State) (a : Nat) (m : Motion) (start : Bytes) (n : Nat) : Motion :=
  if m.done then { startMotion 0 [] start start (s.armPlan a []) (n * 2 ^ 32) with done := true }
  else { startMotion m.kind m.desc start m.ref m.par (n * 2 ^ 32) with cam := m.cam, slave := m.slave, present := m.present }

/-- Re-seeds an arm: a new current half, from which the next planner run goes on. `rest` drops the motion. DEDUCED, log entry 38. -/
def State.reseed (s : State) (rest : Bool) (a : Nat) : State :=
  let th := s.theta a / 2 ^ 32
  let hz := s.n (kHzLen a)
  let x := s.mot a
  let exact := (List.range hz).map (fun i => s.seedAt a (th + i))
  let cur : Half := { theta0 := th, moveId := x.cur.moveId, hz := hz, flags := x.cur.flags
                      entries := exact.map (entryOf []), exact := exact
                      src := List.replicate hz (x.cur.moveId, x.cur.flags.testBit 0) }
  let m := s.armAgain a { x.motion with done := rest || x.motion.done } (s.seedAt a (th + 2)) (th + 2)
  s.onMArm a (fun y => { y with cur := cur, next := none, motion := m, underrun := false, reseeded := true })

/-- The object frame that a nominal state of a group's leader carries, with its velocity and acceleration. -/
def State.leaderFrame (s : State) (g : Nat) (b : Bytes) : TState :=
  let l := s.leader g
  (toolState (s.obj (kArmKin l)) (JState.read (s.nj l) b)).carry (Pose.read (slice (s.obj (kGrpGrasp g)) (28 * l) 28) 0).inv

/-- A group's motion planned anew from a state of its object frame: its move goes on to the same target; without one the frame is brought
to rest at the limits of the last move, or held where no move was made (R521). DESIGN CHOICE, log entry 39. -/
def State.grpAgain (s : State) (g : Nat) (m : Motion) (f : TState) (n : Nat) : Motion :=
  if !m.done then startMotion m.kind m.desc f.bytes m.ref m.par (n * 2 ^ 32)
  else
    let b := if m.desc.isEmpty then (TState.rest f.f).bytes else f.bytes
    { startMotion 0 m.desc b b (s.grpPlan g []) (n * 2 ^ 32) with done := true }

/-- The object frame of a closed group after a re-seed of its members: that of its leader (R135). `rest` drops the motion.
DESIGN CHOICE, log entry 39. -/
def State.reseedGroup (s : State) (rest : Bool) (g : Nat) : State :=
  if s.n (kGrpState g) ≠ 1 ∨ (s.members g).isEmpty then s
  else
    let l := s.leader g
    let n := s.theta l / 2 ^ 32 + 2
    s.onGrp g (fun y => { y with
      motion := s.grpAgain g { y.motion with done := rest || y.motion.done } (s.leaderFrame g (s.seedAt l n)) n
      reseeded := true })

/-- Re-seed of every arm and of every closed group. -/
def State.reseedAll (s : State) (rest : Bool) : State :=
  (List.range 4).foldl (fun s g => s.reseedGroup rest g) (s.arms.foldl (fun s a => s.reseed rest a) s)

/-- No arm runs a stop ramp; a jog that waited for the re-seed and whose TIMEOUT has elapsed is dropped (R134, R524). -/
def State.endRamps (s : State) : State :=
  (s.arms.foldl (fun s a => s.onMArm a (fun y =>
    { y with stopRamp := false, jog := if y.stopRamp then y.jog.filter (fun j => !j.zero) else y.jog })) s).jogMask

/-- Entry to RUN: committed state at the measured positions, arms re-seeded, stop ramps end (R134, R135, R166). -/
def State.motionRun (s : State) : State :=
  let s := { s with solver := { s.solver with q := s.solver.qm, v := List.replicate 64 0, a := List.replicate 64 0 } }
  s.endRamps.reseedAll true

/-- RESUME: re-seed, stop ramps end (R133 to R135). -/
def State.motionResume (s : State) : State := s.endRamps.reseedAll false

/-- A group's move ends; its object frame keeps to its path (R145). -/
def State.failGrp (s : State) (g mstate err : Nat) : State :=
  s.setGrpMov g (((s.grpMov g).keepChain (s.grpPlan g) (s.theta (s.leader g) / 2 ^ 32 + 2)).fail mstate err)

/-- A stop demand, STOP_REQ or shedding stage S3 (R134, R145): a stop ramp on every arm; moves end with STOP_DEMAND, except
where they ended with an error of their own. -/
def State.motionStop (s : State) : State :=
  let s := (List.range 8).foldl (fun s a =>
    let s := s.onMArm a (fun y => { y with stopRamp := true, jog := none, due := [] })
    let x := s.armMov a
    if x.motion.kind = 7 ∧ !x.motion.done then
      s.setArmMov a { motion := { x.motion with done := true }, queued := none, stat := stFlag (stQueued (stSet x.stat 0 0) none) 5 false }
    else s.setArmMov a (let x := x.fail 3 3; { x with stat := stFlag x.stat 5 false })) s
  ((List.range 4).foldl (fun s g => (s.failGrp g 3 3).onGrp g (fun y => { y with due := [] })) s).jogMask

/-! ### Path clocks (R133, R134) -/

/-- One step of σ. -/
def sigmaStep (target up down sigma : Nat) : Nat :=
  if sigma < target then min target (sigma + up) else if target < sigma then max target (sigma - down) else sigma

/-- The step of a ramp of a number of ms over a whole scale. -/
def rampStep (tns ms : Nat) : Nat := max 1 (65536 * tns / (ms * 1000000))

/-- DEG_SCALE of an arm as a cap of σ (R346). -/
def State.degCap (s : State) (a : Nat) : Nat :=
  let r := f32.ratio (s.armPar a 16 4)
  (65536 * r.1 / r.2).toNat

/-- σ is on a stop's step: a stop ramp or an arm stop (R133, R317). -/
def State.stopsArm (s : State) (a : Nat) : Bool := (s.mot a).stopRamp || (s.sarm a).armStop

/-- Target of an arm's σ (R133, R317, R337, R346); at Tier 2 the Square's scale is 65,536 (R194). DEDUCED, log entry 38. -/
def State.sigmaTarget (s : State) (a : Nat) : Nat :=
  if s.dev.state = .hold ∨ s.stopsArm a ∨ (s.sarm a).release ≠ .released ∨ (s.sarm a).offP then 0
  else
    let t := min (s.n (kOvr a) * 65536 / 10000) (s.sub kSqScale (4 * a) 4)
    if s.dev.state = .degraded then min t (s.degCap a) else t

/-- σ and θ of arms that share a path clock, with the ramps of arm `l`. -/
def State.clockStep (s : State) (l : Nat) (arms : List Nat) : State :=
  let target := (arms.map s.sigmaTarget).foldl min 65536
  let stops := arms.any s.stopsArm
  let up := rampStep s.tns (s.n (kSigmaRise l))
  let down := rampStep s.tns (if stops then s.n (kStopTime l) else s.n (kSigmaFall l))
  let sg := sigmaStep target up down (s.n (kSigma l))
  let th := s.theta l + sg * 65536
  arms.foldl (fun s a =>
    let s := s.onMArm a (fun x => { x with sigmaPrev := s.n (kSigma a) })
    (s.setN (kSigma a) sg).setN (kPathClock a) th) s

/-- All path clocks. -/
def State.clocks (s : State) : State :=
  let s := (List.range 4).foldl (fun s g =>
    if s.n (kGrpState g) = 1 ∧ !(s.members g).isEmpty then s.clockStep (s.leader g) (s.members g) else s) s
  s.arms.foldl (fun s a => if (s.groupOf a).isSome then s else s.clockStep a [a]) s

/-! ### Groups (R155, R156) -/

/-- A member's committed velocity is below its standstill threshold in every joint (R352). -/
def State.still? (s : State) (a : Nat) : Bool :=
  (List.range (s.nj a)).all (fun j =>
    let v := f32.ratio (f32.abs (s.solver.v.getD (8 * a + j) 0))
    let c := f32.ratio (f32.abs (num (s.joint (8 * a + j)) 96 4))
    decide (v.1 * c.1 < ((s.still a j * v.2 * c.2 : Nat) : Int)))

/-- The own checks of GRP_CMD. -/
def grpCmdOwn (g : Nat) (v : Bytes) (s : State) : Nat :=
  if !s.isIn [.ready, .run, .hold] then abState
  else if s.tierUse < 3 then abNoResource
  else if !(s.members g).all s.still? then abBusy
  else if leVal v = 1 ∨ leVal v = 2 then 0 else abRange

/-- The effect of GRP_CMD: it is executed at the next cycle start. -/
def grpCmdEff (g : Nat) (v : Bytes) (s : State) : State := s.onMot (fun m => { m with grpCmds := m.grpCmds ++ [(g, leVal v)] })

/-- GRP_CLOSE (R156). DESIGN CHOICE, log entry 39. -/
def grpClose (rq : Requester) (g : Fin 4) (s : State) : State :=
  submitWrite rq (0x3800 + g.val) 0x03 [1] (grpCmdOwn g [1]) (grpCmdEff g [1]) s

/-- GRP_OPEN (R156). DESIGN CHOICE, log entry 39. -/
def grpOpen (rq : Requester) (g : Fin 4) (s : State) : State :=
  submitWrite rq (0x3800 + g.val) 0x03 [2] (grpCmdOwn g [2]) (grpCmdEff g [2]) s

/-- At a close the held sets, the releases and the pending requests of the members become common to them (R217): what one member holds all
hold, and of several requests the newest stays, unless the members hold zones. DESIGN CHOICE, log entry 39. -/
def State.joinCrossings (s : State) (ms : List Nat) : State :=
  let held := ms.foldl (fun m a => m ||| s.n (kCrHeld a)) 0
  let rel := ms.foldl (fun m a => m ||| s.square.releasing.getD a 0) 0
  let mine := s.square.pend.filter (fun p => ms.contains p.arm)
  let last := if held ≠ 0 then none else mine.foldl (fun (m : Option CrPend) p => match m with
    | some x => if x.cycle ≤ p.cycle then some p else m
    | none => some p) none
  let pend := s.square.pend.filter (fun p => !ms.contains p.arm) ++ (last.map (fun p => { p with arm := ms.headD 0 })).toList
  let s := ms.foldl (fun (s : State) a => (s.setN (kCrHeld a) held).setN (kCrReq a) ((last.map CrPend.mask).getD 0)) s
  { s with square := { s.square with pend := pend, releasing := ms.foldl (fun l a => modAt l a (fun _ => rel)) s.square.releasing } }

/-- A close or an open at a cycle start: object frame, grasps, re-seed of the members on the leader's path clock. -/
def State.grpNow (s : State) (g cmd : Nat) : State :=
  let ms := s.members g
  if ms.isEmpty then s.setN (kGrpState g) (if cmd = 1 then 1 else 0)
  else
    let l := s.leader g
    let s := if cmd = 1 then
        let o := poseMul (s.obj (kToolPose l)) (s.obj (kGrpObjOffset g))
        let b := (TState.rest (Pose.read o 0)).bytes
        let m := { startMotion 0 [] b b (s.grpPlan g []) ((s.theta l / 2 ^ 32 + 2) * 2 ^ 32) with done := true }
        let s := s.onGrp g (fun x => { x with objPose := o, motion := m, queued := none, due := [], reseeded := false })
        let grasp (a : Nat) : Bytes := if ms.contains a then fit 28 (poseMul (poseInv o) (s.obj (kToolPose a))) else poseOne
        let s := s.setObj (kGrpGrasp g) ((List.range 8).map grasp).flatten
        let s := s.joinCrossings ms
        let s := ms.foldl (fun (s : State) a => (s.setN (kSigma a) (s.n (kSigma l))).setN (kPathClock a) (s.theta l)) s
        s.setN (kGrpState g) 1
      else
        let o := poseMul (s.obj (kToolPose l)) (poseInv (slice (s.obj (kGrpGrasp g)) (28 * l) 28))
        (s.onGrp g (fun x => { x with objPose := o })).setN (kGrpState g) 0
    ms.foldl (fun s a => s.reseed true a) s

/-- Commands of groups that wait. DEDUCED, log entry 38. DESIGN CHOICE, log entry 39. -/
def State.grpCycle (s : State) : State :=
  (s.motion.grpCmds.foldl (fun s p => s.grpNow p.1 p.2) s).onMot (fun m => { m with grpCmds := [] })

/-! ### Planner runs (R137, R521) -/

/-- A cam move engages (R154). The present slave position of an arm that runs the table is its table time; of an arm that is on no table
the spec gives none, and it is free. DEDUCED, log entry 38. -/
def State.armEngage (s : State) (a : Nat) (x : Motion) : State × Option Nat :=
  let (p, s) := match x.present with
    | some p => (p, s)
    | none => s.fresh
  let d := x.desc
  let t := s.obj (camKey (num d 32 2))
  (s, camEngage t d (s.master (num d 76 2) s.cycle) (p % 2 ^ 64) (f32.conv f64 (s.n (kSegJoinTol a))))

/-- A cam move that has become active engages. -/
def State.armCamStart (s : State) (a : Nat) : State :=
  let x := s.armMov a
  if x.motion.kind ≠ 5 ∨ !x.active ∨ x.motion.cam.isSome then s
  else match s.armEngage a x.motion with
    | (s, some off) =>
      let d := x.motion.desc
      let y := camSlave (s.obj (camKey (num d 32 2))) d off (camX d (s.master (num d 76 2) s.cycle))
      s.setArmMov a { x with motion := { x.motion with cam := some (s.cycle, off), slave := y } }
    | (s, none) => s.setArmMov a (x.fail 4 2)

/-- One move descriptor enters an arm's motion at path time `n`. -/
def State.armTake (s : State) (a n : Nat) (d : Bytes) : State :=
  let start := s.nominal a n
  let x := (s.armMov a).take d start (s.armPlan a d) n
  let x := { x with stat := stFlag x.stat 5 false }
  let s := (s.onMArm a (fun y => { y with jog := none })).jogMask
  (s.setArmMov a x).armCamStart a

/-- A jog governs an arm: VEL is 0 after its TIMEOUT, and in manual mode without the enabling device (R325). With VEL 0 and the arm
at rest MSTATE is IDLE and JOG clears (R524). -/
def State.armJog (s : State) (a n : Nat) : State :=
  match (s.mot a).jog with
  | none => s
  | some j =>
    let z := j.zero || !s.automatic && !s.enabled
    let d := fit 40 j.desc ++ [BitVec.ofNat 8 (b01 z)]
    let x := s.armMov a
    if x.motion.kind = 7 ∧ x.motion.desc = d ∧ !x.motion.done then
      if (z ∨ jogStill j.desc) ∧ (x.motion.endAt.getD 0) ≤ s.theta a then
        ((s.onMArm a (fun y => { y with jog := none })).setArmMov a
          { x with motion := { x.motion with done := true }, stat := stFlag (stSet x.stat 0 0) 5 false }).jogMask
      else s
    else
      let m := startMotion 7 d (s.nominal a n) (s.nominal a n) (s.armPlan a []) (n * 2 ^ 32)
      let st := stFlag (stFlag (stQueued (stSet x.stat 1 0) none) 5 true) 2 x.active
      s.setArmMov a { motion := m, queued := none, stat := st }

/-- With no motion the arm is brought to rest and held (R521). -/
def State.armRest (s : State) (a n : Nat) : State :=
  let x := s.mot a
  if x.motion.done ∧ x.motion.kind ≠ 0 then
    s.onMArm a (fun y => { y with
      motion := { startMotion 0 [] (s.nominal a n) (s.nominal a n) (s.armPlan a []) (n * 2 ^ 32) with done := true } })
  else s

/-- q′ and q″ of every joint of a state are zero. -/
def atRestState (b : Bytes) : Bool := (records 24 b).all (fun r => f64.eqv (num r 8 8) 0 && f64.eqv (num r 16 8) 0)

/-- Nominal tool pose of a member at a path time: O(t) · G_a (R158). DESIGN CHOICE, log entry 39. -/
def State.memberPose (s : State) (g a n : Nat) : Pose :=
  let x := s.grpMov g
  ((TState.read (x.at_ (s.grpPlan g) n)).f).mul (Pose.read (s.obj (kGrpGrasp g)) (28 * a))

/-- The joints of a member follow its group from the member's own start on. -/
def State.memberState (s : State) (g a n : Nat) : JState :=
  let m := (s.mot a).motion
  match s.armPlan a [] with
  | .arm p => ikTrail p (fun i => s.memberPose g a (m.first + i)) (JState.read (s.nj a) m.start) (n - m.first)
  | _ => ⟨[], [], []⟩

/-- A closed group holds its object frame, and its members stand. -/
def State.groupStands (s : State) (g : Nat) : Bool :=
  let m := (s.grp g).motion
  m.kind == 0 && (TState.read m.start).still

/-- A state at rest at its positions. -/
def stillState (b : Bytes) : Bytes := ((records 24 b).map (fun r => r.take 8 ++ zeros 16)).flatten

/-- Nominal state that an arm's run gives a path time: an arm at rest without a motion stays (R521); the members of a closed group follow
it (R158). -/
def State.stateAt (s : State) (a n : Nat) : Bytes :=
  let m := (s.mot a).motion
  match s.groupOf a with
  | some g => if s.groupStands g then stillState m.start else (s.memberState g a n).bytes
  | none => if m.kind = 0 ∧ atRestState m.start then m.start else (s.armMov a).at_ (s.armPlan a) n

/-- The move that gives an arm its state at a path time, and whether it is a group's (R136): its active or last move, the queued one
after it. DEDUCED, log entry 38. -/
def State.moveAt (s : State) (a n : Nat) : Nat × Bool :=
  let f (x : Mov) : Nat := match x.queued with
    | some d => if x.active && x.motion.over_ n then mvId d else num x.stat 2 2
    | none => num x.stat 2 2
  match s.groupOf a with
  | some g => if (s.grp g).motion.desc.isEmpty then (f (s.armMov a), false) else (f (s.grpMov g), true)
  | none => (f (s.armMov a), false)

/-- A tool-space sample of the horizon leaves the tolerance of the inverse kinematics (R144). -/
def State.ikFails (s : State) (a n len : Nat) : Bool :=
  let m := (s.mot a).motion
  match s.groupOf a with
  | some g =>
    !s.groupStands g && (List.range len).any (fun i => match s.armPlan a [] with
      | .arm p => decide (m.first < n + i) && ikFailed p (s.memberPose g a (n + i)) (s.memberState g a (n + i))
      | _ => false)
  | none => !m.done && (List.range len).any (fun i => m.ikFails (n + i))

/-- Samples of a run that the planner converts by inverse kinematics (R144): those of a tool-space motion, and a group's (R158). -/
def State.ikSamples (s : State) (a n len : Nat) : Nat :=
  let m := (s.mot a).motion
  match s.groupOf a with
  | some g => if s.groupStands g then 0 else len
  | none => if m.inTool && !m.done then ((List.range len).filter (fun i => !m.over_ (n + i) && decide (m.first < n + i))).length else 0

/-- The members of a group take their nominal states at a path time as the start of what follows. -/
def State.membersStart (s : State) (g n : Nat) : State :=
  (s.members g).foldl (fun s a =>
    let start := s.nominal a n
    s.onMArm a (fun y => { y with
      motion := { startMotion 0 [] start start (s.armPlan a []) (n * 2 ^ 32) with prof := [], done := true } })) s

/-- After a re-seed the leader's run plans the group's motion anew from its own half (R135). -/
def State.groupAgain (s : State) (g n : Nat) : State :=
  if !(s.grp g).reseeded then s
  else
    let f := s.leaderFrame g (s.nominal (s.leader g) n)
    (s.membersStart g n).onGrp g (fun x => { x with motion := s.grpAgain g x.motion f n, reseeded := false })

/-- A run of a group's leader applies its moves; without an active one it brings the object frame to rest at the limits of the
last one (R158, R521). -/
def State.groupRun (s : State) (g : Nat) : State :=
  let n := s.theta (s.leader g) / 2 ^ 32 + 2
  let due := (s.grp g).due
  let s := s.onGrp g (fun x => { x with due := [] })
  let start := (s.grpMov g).at_ (s.grpPlan g) n
  let m := (s.grp g).motion
  if due.isEmpty then
    if m.done ∧ m.kind ≠ 0 then
      (s.membersStart g n).onGrp g (fun x => { x with motion := s.grpAgain g m (TState.read start) n })
    else s
  else due.foldl (fun s d => s.setGrpMov g ((s.grpMov g).take d start (s.grpPlan g d) n)) (s.membersStart g n)

/-- The move of an arm, or of the closed group that it belongs to, ends with IK_FAIL, and a stop ramp starts (R144). -/
def State.ikFail (s : State) (a : Nat) : State :=
  let ramp (s : State) (b : Nat) : State := s.onMArm b (fun x => { x with stopRamp := true })
  match s.groupOf a with
  | some g => (s.members g).foldl ramp (s.failGrp g 4 1)
  | none => ramp (s.setArmMov a ((s.armMov a).fail 4 1)) a

/-- After a re-seed an arm's run plans its motion anew from the re-seeded half (R135). -/
def State.planAgain (s : State) (a n : Nat) : State :=
  if !(s.mot a).reseeded then s
  else
    let m := s.armAgain a (s.mot a).motion (s.nominal a n) n
    s.onMArm a (fun x => { x with motion := m, reseeded := false })

/-- The moves that a run plans at path time `n` (R137). Moves wait while a stop ramp runs (R140); the arm is then brought to rest only where
its motion has ended. -/
def State.planMoves (s : State) (a n : Nat) : State :=
  let ramp := (s.mot a).stopRamp
  match s.groupOf a with
  | some g =>
    let again := (s.mot a).reseeded
    let s := s.onMArm a (fun x => { x with reseeded := false })
    if s.leader g ≠ a then s
    else
      let s := (if again then s.membersStart g n else s).groupAgain g n
      if ramp then s else s.groupRun g
  | none =>
    let s := s.planAgain a n
    if ramp then (if (s.mot a).motion.over_ n then s.armRest a n else s)
    else
      let due := (s.mot a).due
      let s := s.onMArm a (fun x => { x with due := [] })
      ((due.foldl (fun (s : State) d => s.armTake a n d) s).armJog a n).armRest a n

/-- A planner run of an arm in the present cycle (R137): entries 0 and 1 are the current half's. -/
def State.runArm (s : State) (a : Nat) : State :=
  let th := s.theta a / 2 ^ 32
  let hz := s.n (kHzLen a)
  let old := (s.mot a).cur
  let first := [th, th + 1].map (fun n => (s.horizon a n, s.nominal a n, (old.at_ old.src n).getD (s.moveAt a n)))
  let s := s.planMoves a (th + 2)
  let s := if s.ikFails a (th + 2) (hz - 2) then s.ikFail a else s
  let s := s.countWork (64 + 2 * a) [(0x41, 1, 1), (0x43, s.n (kIkIter a) * s.ikSamples a (th + 2) (hz - 2), 1)]
  let x := first ++ (List.range (hz - 2)).map (fun i =>
    let n := th + 2 + i
    let b := s.stateAt a n
    (entryOf (s.obj (kArmKin a) ++ s.obj (kMoveStatus a) ++ b ++ le 8 n) b, b, s.moveAt a n))
  let src := x.map (fun y => y.2.2)
  let h : Half := { theta0 := th, moveId := (src.headD (0, false)).1, hz := hz, flags := b01 (src.any Prod.snd)
                    entries := x.map Prod.fst, exact := x.map (fun y => y.2.1), src := src }
  s.onMArm a (fun x => { x with next := some h })

/-- The path planner of an arm has its clock: of the planners, S4 leaves P0 alone running (R128, R481). -/
def State.planClock (s : State) (a : Nat) : Bool := !s.mon.stopped || a == 0

/-- The planners of a cycle: those whose phase it is, once a half exists. DEDUCED, log entry 38. -/
def State.planners (s : State) : State :=
  if !s.isIn [.ready, .run, .hold, .degraded] then s
  else s.arms.foldl (fun s a =>
    let p := s.n (kPlanDiv a)
    let ph := match s.groupOf a with
      | some g => s.leader g
      | none => a
    if p ≠ 0 ∧ s.cycle % p = ph % p ∧ s.planClock a ∧ !(s.mot a).cur.entries.isEmpty then s.runArm a else s) s

/-- The halves swap at a cycle start (R15). -/
def State.swapHalves (s : State) : State :=
  s.onMot (fun m => { m with arms := m.arms.map (fun x => match x.next with
    | some h => { x with cur := h, next := none }
    | none => x) })

/-- Horizon underrun (R137): reported once, a stop demand. -/
def State.underruns (s : State) : State :=
  if !s.isIn [.run, .hold, .degraded] then s
  else s.arms.foldl (fun s a =>
    let x := s.mot a
    if s.theta a / 2 ^ 32 + 1 ≤ x.cur.theta0 + x.cur.hz - 1 then s.onMArm a (fun y => { y with underrun := false })
    else if x.underrun then s
    else
      let m := (s.armMov a).fail 4 5
      let s := s.setArmMov a { m with stat := stFlag m.stat 1 true }
      let s := s.onMArm a (fun y => { y with underrun := true })
      (s.log 0x0310 (le 1 a ++ [0, 0, 0] ++ le 8 s.cycle)).stopDemand) s

/-- Ends of moves at the present path time, and cams. -/
def State.moveEnds (s : State) : State :=
  let s := s.arms.foldl (fun s a =>
    let s := (s.armCam a).armCamStart a
    if (s.mot a).reseeded then s
    else (s.setArmMov a ((s.armMov a).advance (s.armPlan a) (s.theta a) false)).armCamStart a) s
  (List.range 4).foldl (fun s g =>
    if s.n (kGrpState g) = 1 ∧ !(s.grp g).reseeded then
      let x := s.grpMov g
      let y := x.advance (s.grpPlan g) (s.theta (s.leader g)) false
      let s := if y.queued = x.queued then s else s.membersStart g y.motion.first
      s.setGrpMov g y
    else s) s

/-- MOVE_STATUS of an arm, with REMAIN (R145). -/
def State.moveStatus (s : State) (a : Nat) : Bytes :=
  patch (s.obj (kMoveStatus a)) 8 (remain (s.mot a).motion (s.theta a) s.tns s.free)

/-- GRP_STATUS. -/
def State.grpStatus (s : State) (g : Nat) : Bytes :=
  patch (s.obj (kGrpStatus g)) 8 (remain (s.grp g).motion (s.theta (s.leader g)) s.tns s.free)

/-! ### Correction channels (R159 to R162) -/

/-- A correction channel's state. -/
def State.hc (s : State) (c : Nat) : HcSt := s.motion.hcs.getD c { hist := [], meas := none, justOn := false, dirNeg := false }

/-- Changes a correction channel. -/
def State.onHc (s : State) (c : Nat) (f : HcSt → HcSt) : State := s.onMot (fun m => { m with hcs := modAt m.hcs c f })

/-- The effect of a write of HC_CTRL. -/
def hcCtrlEff (c : Nat) (v : Bytes) (s : State) : State :=
  let s := if leVal v = 1 ∧ s.n (kHcCtrl c) = 0 then s.onHc c (fun x => { x with justOn := true }) else s
  s.setObj (kHcCtrl c) v

/-- HC_SWITCH_ON (R161). -/
def hcSwitchOn (rq : Requester) (c : Fin 32) (s : State) : State :=
  submitWrite rq (0x3900 + c.val) 0x0C [1] (fun _ => 0) (hcCtrlEff c [1]) s

/-- HC_SWITCH_OFF (R162). -/
def hcSwitchOff (rq : Requester) (c : Fin 32) (s : State) : State :=
  submitWrite rq (0x3900 + c.val) 0x0C [0] (fun _ => 0) (hcCtrlEff c [0]) s

/-- A value moved toward a target by at most a step, binary32. -/
def toward (x target step : Nat) : Nat :=
  let d := f32.sub target x
  if f32.le (f32.abs d) step then target else if f32.lt 0 d then f32.add x step else f32.sub x step

/-- min(max(x, lo), hi). -/
def clamp32 (x lo hi : Nat) : Nat := f32.minV (f32.maxV x lo) hi

/-- The sign of a binary32 value: none for zero. -/
def sign32 (x : Nat) : Option Bool := if f32.eqv x 0 then none else some (f32.lt x 0)

/-- One evaluation of a channel that is on (R161), with the newest valid measurement. -/
def State.hcEval (s : State) (c m age : Nat) : State :=
  let x := s.hc c
  let y := s.n (kHcOut c)
  let trim := s.n (kHcTrim c)
  let t := s.t32
  let p := if s.n (kHcPol c) = 1 then f32one else f32.neg f32one
  let l := s.n (kHcLimit c)
  let target := s.n (kHcSpTarget c)
  let now := f32.sub m (f32.mul p (f32.sub y (x.hist.getD (age + 1) 0)))
  let sp := if x.justOn then now else s.n (kHcSp c)
  let soft := if x.justOn then !f32.eqv sp target else s.bit (kHcStatus c) 2
  let sp := if soft then toward sp target (f32.mul (s.n (kHcSsRate c)) t) else sp
  let soft := soft && !f32.eqv sp target
  let e := f32.sub now sp
  let moving := s.bit (kHcStatus c) 0
  let start := !moving && f32.lt (s.n (kHcBand c)) (f32.abs e)
  let neg := if start then f32.lt e 0 else x.dirNeg
  let moving := (moving || start) && sign32 e == some neg
  let h := f32.sub y trim
  let dir := if neg then f32.neg f32one else f32one
  let h := if moving then f32.add h (f32.mul (f32.mul (f32.mul p dir) (s.n (kHcRate c))) t) else h
  let next := f32.add trim (f32.mul (f32.mul (f32.mul p (s.n (kHcKi c))) e) t)
  let fits := f32.le (f32.abs (f32.add h next)) l
  let trim := if fits then next else trim
  let h := clamp32 h (f32.sub (f32.neg l) trim) (f32.sub l trim)
  let s := ((s.setN (kHcOut c) (f32.add h trim)).setN (kHcTrim c) trim).setN (kHcSp c) sp
  let s := ((s.setBit (kHcStatus c) 0 moving).setBit (kHcStatus c) 1 (!fits)).setBit (kHcStatus c) 2 soft
  s.onHc c (fun x => { x with justOn := false, dirNeg := neg })

/-- One cycle of a channel. -/
def State.hcStep (s : State) (c : Nat) : State :=
  let s :=
    if !s.isIn [.run, .degraded] ∨ s.n (kHcArm c) = 0xFF then s
    else if s.n (kHcCtrl c) = 1 then
      match (s.hc c).meas with
      | some (m, cs) =>
        if s.cycle - cs ≤ s.n (kHcMaxage c) then s.hcEval c m (s.cycle - cs) else (s.setBit (kHcStatus c) 3 true).setBit (kHcStatus c) 0 false
      | none => (s.setBit (kHcStatus c) 3 true).setBit (kHcStatus c) 0 false
    else if s.n (kHcOffMode c) = 0 ∧ !f32.eqv (s.n (kHcOut c)) 0 then
      let y := toward (s.n (kHcOut c)) 0 (f32.mul (s.n (kHcRate c)) s.t32)
      let s := s.setN (kHcOut c) y
      if f32.eqv y 0 then s.setN (kHcTrim c) 0 else s
    else s
  s.onHc c (fun x => { x with hist := (s.n (kHcOut c) :: x.hist).take 64 })

/-- All correction channels of a cycle. DEDUCED, log entry 38. -/
def State.hcCycle (s : State) : State := (List.range 32).foldl (fun s c => s.hcStep c) s

/-! ### Virtual masters (R154) -/

/-- One cycle of a virtual master; one at rest with target 0 stays. DEDUCED, log entry 38. -/
def State.vmStep (s : State) (n : Nat) : State :=
  let x := s.motion.vms.getD n ⟨0, 0⟩
  let tgt := s.n (kVmVelTgt n)
  if f32.eqv tgt 0 ∧ f64.eqv x.v 0 ∧ f64.eqv x.a 0 then s
  else
    let r := vmNext tgt (s.n (kVmAcc n)) (s.n (kVmJerk n)) ⟨⟨s.n (kVmPos n)⟩, ⟨x.v⟩, ⟨x.a⟩⟩ s.tns
    (s.onMot (fun m => { m with vms := modAt m.vms n (fun _ => ⟨r.v.bits, r.a.bits⟩) })).setN (kVmPos n) r.p.bits

/-- All virtual masters of a cycle; S4 stops the clock of the table planners that step them (R128, R481). -/
def State.vmCycle (s : State) : State := if s.mon.stopped then s else (List.range 4).foldl (fun s n => s.vmStep n) s

/-- The planners' part of a cycle start, before the solve. -/
def State.motionCycle (s : State) : State :=
  ((((((s.swapHalves.grpCycle).hcCycle).clocks).moveEnds).underruns).planners).vmCycle

end Sys2Proof.Machine
end

