-- ==== Sys2Proof/Machine/Feedback.lean ====
section
/-! DEFINITION. Feedback channels, position compare and encoder emulation (chapter "Position feedback and auxiliary axes",
R278 to R296). Changes of the filtered lines come from outside; the filter itself is timing. -/

namespace Sys2Proof.Machine

/-- Replaces the state of feedback, emulation and axes. -/
def State.onAxes (s : State) (f : StAxes → StAxes) : State := { s with axes := f s.axes }

/-! ### Channels -/

/-- Compare units and a channel with nothing in them. -/
def CmpSt.reset : CmpSt := { dir := true, fires := 0, pulse := false }
def FbSt.reset : FbSt :=
  { count := 0, a := false, b := false, dir := true, word := none, req := none, newest := none, clk := true, hist := [], u0 := .reset, u1 := .reset }

/-- A channel, and its change. -/
def State.fb (s : State) (c : Nat) : FbSt := s.axes.fbs.getD c .reset
def State.onFb (s : State) (c : Nat) (f : FbSt → FbSt) : State := s.onAxes (fun x => { x with fbs := modAt x.fbs c f })

/-- Bits of FB_STATUS (R309). -/
def fbCounting : Nat := 0
def fbAbsValid : Nat := 1
def fbIllegal : Nat := 2
def fbAbsLine : Nat := 3
def fbAbsErr : Nat := 4
def fbAbsJump : Nat := 5
def fbCombMismatch : Nat := 6
def fbIndexSeen : Nat := 7
def fbIndexMismatch : Nat := 8
def fbReref : Nat := 9
def fbRerefBlocked : Nat := 10

/-- FB_MODE of a channel; it counts (R281). -/
def State.fbMode (s : State) (c : Nat) : Nat := s.n (kFbMode c)
def State.fbCounts (s : State) (c : Nat) : Bool := s.bit (kFbStatus c) fbCounting

/-- A count as a signed 64-bit number. -/
def wrap64 (v : Int) : Int := signed 8 (v % 2 ^ 64).toNat

/-- +1, or −1 where FB_DIR inverts the sign. -/
def State.fbSign (s : State) (c : Nat) : Int := if s.n (kFbDir c) = 1 then -1 else 1

/-! ### Compare units (R290 to R293) -/

/-- A compare unit, and its change. -/
def State.cmp (s : State) (c u : Nat) : CmpSt := if u = 0 then (s.fb c).u0 else (s.fb c).u1
def State.onCmp (s : State) (c u : Nat) (f : CmpSt → CmpSt) : State :=
  s.onFb c (fun x => if u = 0 then { x with u0 := f x.u0 } else { x with u1 := f x.u1 })

/-- A unit is armed. -/
def State.armed (s : State) (c u : Nat) : Bool := s.bit (kCmpStatus c u) 0

/-- Arms or disarms a unit. -/
def State.arm (s : State) (c u : Nat) (v : Bool) : State := s.setBit (kCmpStatus c u) 0 v

/-- A firing: FIRED, CMP_LAST, and the pulse (R292, R293), which R279 holds low in CONFIG and SYNC. -/
def State.fired (s : State) (c u : Nat) : State :=
  let x := s.cmp c u
  let n := (x.fires + 1) % 2 ^ 32
  let s := (s.setBit (kCmpStatus c u) 4 true).setObj (kCmpLast c u) (leInt 8 (s.fb c).count ++ s.cellTime ++ le 4 n)
  let s := if x.pulse then s.setBit (kCmpStatus c u) 1 true else s
  let on := s.isIn [.ready, .run, .hold, .degraded]
  s.onCmp c u (fun y => { y with fires := n, pulse := on })

/-- The evaluation of a value against the count and a direction (R291), and what follows a firing (R292); `fuel` bounds the
firings in one sample, of which there are at most two. -/
def State.evalCmp (s : State) (c u : Nat) (dir : Bool) : Nat → State
  | 0 => s
  | fuel + 1 =>
    let v := s.i (kCmpValue c u)
    let x := (s.fb c).count
    if v = x then
      let s := (s.setBit (kCmpStatus c u) 3 true).fired c u
      let inc := s.i (kCmpInc c u)
      if inc = 0 then s.arm c u false
      else (s.setI (kCmpValue c u) (wrap64 (v + inc))).evalCmp c u (decide (0 < inc)) fuel
    else
      let s := s.onCmp c u (fun y => { y with dir := dir })
      if decide (x < v) == dir then s.arm c u true
      else (s.setBit (kCmpStatus c u) 2 true).arm c u (s.n (kCmpOnedir c u) = 0)

/-- An armed unit fires (R292), or is disarmed where it would fire in the other direction; `up` is the motion's direction. -/
def State.fireCmp (s : State) (c u : Nat) (up : Bool) : State :=
  if s.n (kCmpOnedir c u) = 1 ∧ up ≠ (s.cmp c u).dir then s.arm c u false
  else
    let s := s.fired c u
    let inc := s.i (kCmpInc c u)
    if inc = 0 then s.arm c u false
    else (s.setI (kCmpValue c u) (wrap64 (s.i (kCmpValue c u) + inc))).evalCmp c u (decide (0 < inc)) 3

/-- The armed units of a channel after its count has changed from `old`: they fire when the count equals their value, in
absolute mode when it reaches or passes it. -/
def State.compare (s : State) (c : Nat) (old : Int) (passes : Bool) : State :=
  [0, 1].foldl (fun s u =>
    let v := s.i (kCmpValue c u)
    let x := (s.fb c).count
    let hit := if passes then decide (old < v ∧ v ≤ x) || decide (x ≤ v ∧ v < old) else decide (x = v)
    if s.armed c u && hit && x != old then s.fireCmp c u (decide (old < x)) else s) s

/-- The own checks of CMP_VALUE (R290). -/
def cmpValueOwn (c : Nat) (s : State) : Nat := if s.fbMode c = 0 then abNoResource else 0

/-- The effect of CMP_VALUE (R291). -/
def cmpValueEff (c u : Nat) (v : Bytes) (s : State) : State :=
  let s := (s.setObj (kCmpValue c u) v).onCmp c u (fun y => { y with fires := 0 })
  s.evalCmp c u (s.fb c).dir 3

/-- CMP_VALUE (R290, R291). -/
def cmpValue (rq : Requester) (c : Fin 16) (u : Fin 2) (v : W64) (s : State) : State :=
  submitWrite rq (0x6210 + c.val) (0x01 + 0x10 * u.val) (le 8 v.toNat) (cmpValueOwn c.val) (cmpValueEff c.val u.val (le 8 v.toNat)) s

/-- The own check of CMP_CTRL. -/
def disarmOwn (v : Bytes) : Nat := if leVal v = 0 then 0 else abRange

/-- DISARM (R310). -/
def disarm (rq : Requester) (c : Fin 16) (u : Fin 2) (v : Byte) (s : State) : State :=
  submitWrite rq (0x6210 + c.val) (0x07 + 0x10 * u.val) [v] (fun _ => disarmOwn [v]) (fun s => s.arm c.val u.val false) s

/-- CMP_PULSE_END (R293). -/
def cmpPulseEnd (c : Fin 16) (u : Fin 2) (s : State) : State := s.onCmp c.val u.val (fun y => { y with pulse := false })

/-! ### Counting (R282, R283) -/

/-- Phase of the filtered lines in the order 00, 10, 11, 01. -/
def quadPhase (a b : Bool) : Nat := match a, b with
  | false, false => 0
  | true, false => 1
  | true, true => 2
  | false, true => 3

/-- A count step of a channel, its reference direction, and its compare units. -/
def State.countStep (s : State) (c : Nat) (d : Int) : State :=
  let old := (s.fb c).count
  (s.onFb c (fun x => { x with count := wrap64 (x.count + d), dir := decide (0 < d) })).compare c old false

/-- QUADRATURE_CHANGE (R282, R283): the filtered lines take the values given. DEDUCED, log entry 48. -/
def quadratureChange (c : Fin 16) (a b : Bool) (s : State) : State :=
  let x := s.fb c.val
  let s := s.onFb c.val (fun x => { x with a := a, b := b })
  if !s.fbCounts c.val ∨ (s.fbMode c.val ≠ 1 ∧ s.fbMode c.val ≠ 3) then s
  else
    let d := (quadPhase a b + 4 - quadPhase x.a x.b) % 4
    if d = 0 then s
    else if d = 2 then (s.setBit (kFbStatus c.val) fbIllegal true).inc (kFbIllegalCnt c.val)
    else s.countStep c.val (if d = 1 then s.fbSign c.val else -s.fbSign c.val)

/-! ### Index (R288, R289) -/

/-- Deviation of a count from the expected index position, in (−CPR/2, CPR/2]. -/
def indexDev (count cpr exp : Int) : Int :=
  let d := (count % cpr - exp) % cpr
  if cpr < 2 * d then d - cpr else d

/-- The channel is the master of an active cam move, or the source of an active emulation output. -/
def State.fbUsed (s : State) (c : Nat) : Bool :=
  let cam (m : Motion) := m.kind == 5 && !m.done && num m.desc 76 2 == 0x2000 + c
  s.motion.arms.any (fun x => cam x.motion) || s.axes.axes.any (fun x => cam x.motion) ||
    (List.range 8).any (fun e => s.bit (kEmuStatus e) 0 && s.n (kEmuSrc e) == 0x2000 + c)

/-- |FB_VEL| exceeds FB_STILL_VEL. -/
def State.fbMoving (s : State) (c : Nat) : Bool :=
  let v := f32.ratio (f32.abs (s.n (kFbVel c)))
  decide ((s.n (kFbStillVel c) * v.2 : Nat) < v.1)

/-- A re-reference (R289): the count moves by −δ, and armed units are evaluated again. -/
def State.reReference (s : State) (c : Nat) (dev : Int) : State :=
  let s := (s.onFb c (fun x => { x with count := wrap64 (x.count - dev) })).setBit (kFbStatus c) fbReref true
  [0, 1].foldl (fun s u => if s.armed c u then s.evalCmp c u (s.fb c).dir 3 else s) s

/-- INDEX_EVENT (R288, R289): a rising edge of filtered Z. -/
def indexEvent (c : Fin 16) (s : State) : State :=
  let c := c.val
  let x := s.fb c
  if !s.fbCounts c ∨ s.n (kFbCpr c) = 0 ∨ s.n (kFbZGate c) = 1 ∧ !(x.a && x.b) then s
  else
    let dev := indexDev x.count (s.n (kFbCpr c)) (s.n (kFbIndexExp c))
    let s := (s.setObj (kFbIndexCap c) (leInt 8 x.count ++ s.cellTime ++ leInt 4 dev)).setBit (kFbStatus c) fbIndexSeen true
    let s := if s.n (kFbIndexTol c) < dev.natAbs then s.setBit (kFbStatus c) fbIndexMismatch true else s
    if s.n (kFbIndexMode c) ≠ 1 ∨ dev = 0 then s
    else if s.dev.state = .run ∧ (s.fbMoving c ∨ s.fbUsed c) then s.setBit (kFbStatus c) fbRerefBlocked true
    else s.reReference c dev

/-! ### Absolute words (R284 to R286) -/

/-- States in which requests are made (R279). -/
def State.requests (s : State) : Bool := s.isIn [.config, .sync, .ready, .run, .hold, .degraded]

/-- In INERT, FAULT and SERVICE FBc_CLK is high, and no request runs (R279, R281). -/
def State.fbIdle (s : State) : State :=
  s.onAxes (fun x => { x with fbs := x.fbs.map (fun y => { y with clk := true, req := none }) })

/-- ABS_REQUEST (R284): the latch edge, when DAT is high. -/
def absRequest (c : Fin 16) (datHigh : Bool) (s : State) : State :=
  let c := c.val
  if !s.requests ∨ !s.fbCounts c ∨ s.fbMode c < 2 ∨ s.cycle % max (s.n (kFbAbsDiv c)) 1 ≠ 0 then s
  else if datHigh then s.onFb c (fun x => { x with req := some x.count, clk := false })
  else s.setBit (kFbStatus c) fbAbsLine true

/-- Gray to binary, from the highest of `n` bits down (R285). -/
def fromGray (g : Nat) : Nat → Nat → Nat
  | 0, b => b
  | i + 1, b => let prev := b % 2 == 1; fromGray g i (2 * b + b01 (prev != g.testBit i))

/-- The word as binary: W bits of it. -/
def State.absWord (s : State) (c word : Nat) : Nat :=
  let w := s.n (kFbAbsBits c)
  let g := word % 2 ^ w
  if s.bit (kFbAbsFmt c) 0 then fromGray g w 0 else g

/-- A difference modulo `m` in its centred range [−m/2, m/2). -/
def centred (d : Int) (m : Nat) : Int := let r := d % (m : Int); if (m : Int) ≤ 2 * r then r - m else r

/-- A trailing bit shows an error (R285); there are S of them. -/
def State.absError (s : State) (c trailing : Nat) : Bool :=
  let e := s.n (kFbAbsErr c)
  (List.range (field (s.n (kFbAbsFmt c)) 4 3)).any (fun i => e.testBit i && trailing.testBit i == e.testBit (8 + i))

/-- A valid reading: `b` is the word, `at_` the count at the latch edge. DEDUCED, log entry 48. -/
def State.absTake (s : State) (c b : Nat) (at_ : Int) (latch : Nat) : State :=
  let x := s.fb c
  let w := 2 ^ s.n (kFbAbsBits c)
  let first := !s.bit (kFbStatus c) fbAbsValid
  let d := match x.word with
    | some p => centred ((b : Int) - p) w
    | none => 0
  let s := s.onFb c (fun x => { x with word := some b })
  if s.fbMode c = 2 then
    let v := if first then s.fbSign c * b else wrap64 (x.count + s.fbSign c * d)
    let s := (s.onFb c (fun y => { y with count := v, newest := some (v, latch), dir := if v = x.count then y.dir else decide (x.count < v) })).setBit
      (kFbStatus c) fbAbsValid true
    s.compare c x.count (!first)
  else
    let mul := s.n (kFbAbsMul c)
    if first then
      ((s.onFb c (fun y => { y with count := s.fbSign c * (b * mul : Nat) })).setBit (kFbStatus c) fbAbsValid true).compare c x.count false
    else if (s.n (kFbCombTol c) : Int) < (centred (s.fbSign c * (b * mul : Nat) - at_) (w * mul)).natAbs then
      s.setBit (kFbStatus c) fbCombMismatch true
    else s

/-- ABS_READING (R285, R286). DEDUCED, log entry 48. -/
def absReading (c : Fin 16) (word trailing : Nat) (datHigh : Bool) (latch : Time96) (s : State) : State :=
  let c := c.val
  let x := s.fb c
  let at_ := x.req.getD x.count
  let s := s.onFb c (fun x => { x with req := none, clk := true })
  if !s.requests ∨ !s.fbCounts c ∨ s.fbMode c < 2 then s
  else
    let b := s.absWord c word
    let s := s.setN (kFbAbsRaw c) (b + trailing % 128 * 2 ^ 48)
    let far := match x.word with
      | some p => s.n (kFbAbsJump c) != 0 && decide (s.n (kFbAbsJump c) < (centred ((b : Int) - p) (2 ^ s.n (kFbAbsBits c))).natAbs)
      | none => false
    if !datHigh then s.setBit (kFbStatus c) fbAbsLine true
    else if s.absError c trailing then s.setBit (kFbStatus c) fbAbsErr true
    else if far then s.setBit (kFbStatus c) fbAbsJump true
    else s.absTake c b at_ (time96Q latch)

/-! ### Reset, and the reading at a cycle start (R281, R287) -/

/-- Units disarmed and pulses low (R279). -/
def State.cmpOff (s : State) (c : Nat) (disarm : Bool) : State :=
  [0, 1].foldl (fun s u => let s := s.onCmp c u (fun y => { y with pulse := false }); if disarm then s.arm c u false else s) s

/-- The reset of a channel (R281); a mode of 0 does not count, and none from shedding stage S4 on, until the re-enable. -/
def State.fbReset (s : State) (c : Nat) : State :=
  let x := s.fb c
  let s := (s.onFb c (fun _ => { FbSt.reset with a := x.a, b := x.b })).cmpOff c true
  (s.setBit (kFbStatus c) fbAbsValid false).setBit (kFbStatus c) fbCounting
    (s.fbMode c != 0 && decide (s.n kShedStage < 4))

/-- RWS objects of a channel (R308). -/
def fbRws (c : Nat) : List Nat :=
  [kFbMode c, kFbFilt c, kFbDir c, kFbCpr c, kFbIndexExp c, kFbIndexTol c, kFbZGate c, kFbAbsBits c, kFbAbsFmt c, kFbAbsClk c,
   kFbAbsDelay c, kFbAbsOffset c, kFbAbsDiv c, kFbAbsTm c, kFbAbsErr c, kFbAbsJump c, kFbAbsMul c, kFbCombTol c, kFbVelWin c]

/-- A commit resets the channels whose objects changed since `old`, and those that do not count yet (R281).
DEDUCED, log entry 48. -/
def State.fbCommit (s old : State) : State :=
  (List.range 16).foldl (fun s c => if (fbRws c).any (fun k => s.obj k != old.obj k) || !s.fbCounts c && s.fbMode c != 0 && decide (s.n kShedStage < 4)
    then s.fbReset c else s) s

/-- Counting stops at shedding stage S4, and resets at the re-enable (R281). -/
def State.fbStop (s : State) : State := (List.range 16).foldl (fun s c => s.setBit (kFbStatus c) fbCounting false) s
def State.fbResume (s : State) : State := (List.range 16).foldl (fun s c => s.fbReset c) s

/-- FB_VEL over the window: none while the window is not full; free where no time passed between two readings.
DEDUCED, log entry 48. -/
def State.fbVelocity (s : State) (c : Nat) : State :=
  match (s.fb c).hist.head?, (s.fb c).hist[s.n (kFbVelWin c)]? with
  | some (p1, t1), some (p0, t0) =>
    if t0 < t1 then s.setN (kFbVel c) (f32.ofRatio ((p1 - p0) * 65536 * 1000000000) (t1 - t0))
    else
      let (v, s) := s.fresh
      s.setN (kFbVel c) (v % 2 ^ 32)
  | _, _ => s

/-- FB_POS, FB_TIME and FB_VEL at a cycle start (R287). DEDUCED, log entry 48. -/
def State.fbRead (s : State) (c : Nat) : State :=
  let x := s.fb c
  if !s.fbCounts c then s
  else
    let now := s.cycle * s.tns * 65536
    let r := if s.fbMode c = 2 then x.newest else some (x.count, now)
    match r with
    | none => s
    | some (p, t) =>
      let s := (s.setI (kFbPos c) p).setObj (kFbTime c) (time96 t)
      (s.onFb c (fun y => { y with hist := ((p, t) :: y.hist).take 65 })).fbVelocity c

/-- The readings of a cycle start. -/
def State.fbCycle (s : State) : State := (List.range 16).foldl (fun s c => s.fbRead c) s

/-! ### Encoder emulation (R294 to R296) -/

/-- An emulation output, and its change. -/
def State.emu (s : State) (e : Nat) : EmuSt := s.axes.emus.getD e { base := 0, boot := 0, hist := [] }
def State.onEmu (s : State) (e : Nat) (f : EmuSt → EmuSt) : State := s.onAxes (fun x => { x with emus := modAt x.emus e f })

/-- POS of R243 of a joint slot, not wrapped. -/
def State.jointPos (s : State) (j : Nat) : Int :=
  roundF64 (f64.mul (f32.conv f64 (s.solver.q.getD j 0)) (f32.conv f64 (num (s.joint j) 96 4))) + int (s.joint j) 100 4

/-- The present value of a source (R294). -/
def State.emuSource (s : State) (e : Nat) : Int :=
  let c := s.n (kEmuSrc e)
  let i := c % 4096
  match c / 4096 with
  | 0 => s.jointPos i
  | 1 => s.i (kAxPosOut i)
  | 2 => (s.fb i).count
  | _ => roundF64 (f64.mul (s.n (kVmPos i)) 0x40F0000000000000)

/-- The source changes once per basic cycle. -/
def State.emuStepped (s : State) (e : Nat) : Bool := let k := s.n (kEmuSrc e) / 4096; k == 0 || k == 4

/-- S at an instant in ns as a fraction: interpolated between apply times (R296). -/
def emuAt (hist : List (Nat × Int)) (t : Nat) : Int × Nat :=
  match hist with
  | [] => (0, 1)
  | [(_, v)] => (v, 1)
  | (t1, v1) :: (t0, v0) :: r =>
    if t1 ≤ t then (v1, 1)
    else if t0 ≤ t then (v0 * ((t1 - t0 : Nat) : Int) + (v1 - v0) * ((t - t0 : Nat) : Int), t1 - t0)
    else emuAt ((t0, v0) :: r) t

/-- The edge target E at present (R295). -/
def State.emuTarget (s : State) (e : Nat) : Int :=
  let v := if s.emuStepped e then emuAt (s.emu e).hist s.cellNs else (s.emuSource e, 1)
  (v.1 - (s.emu e).base * (v.2 : Int)) * s.i (kEmuN e) / ((s.n (kEmuM e) * v.2 : Nat) : Int)

/-- An output starts (R295, R296). DEDUCED, log entry 48. -/
def State.emuStart (s : State) (e : Nat) : State :=
  if s.n (kEmuSrc e) = 0xFFFF then s
  else
    let v := s.emuSource e
    let base := if s.n (kEmuBaseMode e) = 1 then s.i (kEmuOffset e) else v
    let s := s.onEmu e (fun _ => { base := base, boot := 0, hist := [(s.cellNs, v)] })
    let t := s.emuTarget e
    let s := s.onEmu e (fun x => { x with boot := (t % 4).toNat })
    (s.setI (kEmuEdges e) (t - t % 4)).setBit (kEmuStatus e) 0 true

/-- An output is switched off or driven low (R279). -/
def State.emuStop (s : State) (e : Nat) : State := s.setBit (kEmuStatus e) 0 false

/-- A new value, for an apply time, of the sources whose codes satisfy `mine` (R296). -/
def State.emuPush (s : State) (mine : Nat → Bool) (applyNs : Nat) : State :=
  (List.range 8).foldl (fun s e =>
    if s.bit (kEmuStatus e) 0 ∧ mine (s.n (kEmuSrc e)) then
      s.onEmu e (fun x => { x with hist := ((applyNs, s.emuSource e) :: x.hist).take 3 })
    else s) s

/-- EMU_EDGE (R296): one edge toward the target. DEDUCED, log entry 48. -/
def emuEdge (e : Fin 8) (s : State) : State :=
  let e := e.val
  if !s.bit (kEmuStatus e) 0 then s
  else
    let t := s.emuTarget e
    let o := s.i (kEmuEdges e)
    if t = o then s
    else
      let lag := (s.emu e).boot = 0 ∧ 1 < (t - o).natAbs
      let s := if lag then s.setBit (kEmuStatus e) 1 true else s
      (s.setI (kEmuEdges e) (if o < t then o + 1 else o - 1)).onEmu e (fun x => { x with boot := x.boot - 1 })

/-- The balls A, B and Z of an output (R279, R295). -/
def State.emuBalls (s : State) (e : Nat) : Bool × Bool × Bool :=
  if !s.bit (kEmuStatus e) 0 then (false, false, false)
  else
    let o := s.i (kEmuEdges e)
    let p := o % 4
    let z := s.n (kEmuZper e)
    (p == 1 || p == 2, p == 2 || p == 3, z != 0 && o % (z : Int) == s.n (kEmuZpos e))

end Sys2Proof.Machine
end

