-- ==== Sys2Proof/Machine/Dynamics.lean ====
section
/-! DEFINITION. The front stage (R168, R169, R171, R178): sums in their fixed order, the mass matrix and the effort of an arm, the
joint offset of a correction, the equality rows of a group. Jacobians, orientations, biases and the twist maps are binary32 with free
last bits, since the spec does not say how the kinematics kernels compute them (log entry 31); every sum and product of them takes the
order of R178. -/

namespace Sys2Proof.Machine

/-! ### Sums (R178) -/

/-- Leaves of a tile: a fused multiply-add of two products; an absent index contributes nothing. -/
def leaves : List (Option (Nat × Nat)) → List (Option Nat)
  | [] => []
  | [p] => [p.map (fun x => f32.mul x.1 x.2)]
  | p :: q :: l =>
    (match p, q with
     | some x, some y => some (f32.fma x.1 x.2 (f32.mul y.1 y.2))
     | some x, none => some (f32.mul x.1 x.2)
     | none, some y => some (f32.mul y.1 y.2)
     | none, none => none) :: leaves l

/-- One level of the pairwise tree. -/
def treeLevel : List (Option Nat) → List (Option Nat)
  | a :: b :: l =>
    (match a, b with
     | some x, some y => some (f32.add x y)
     | some x, none => some x
     | none, y => y) :: treeLevel l
  | l => l

/-- The sum of a tile of at most 32 products. -/
def tileSum (l : List (Option (Nat × Nat))) : Option Nat := (treeLevel (treeLevel (treeLevel (treeLevel (leaves l))))).headD none

/-- The tiles of 32 consecutive indices from 0; `fuel` bounds their number. -/
def tiles {α : Type} : Nat → List α → List (List α)
  | 0, _ => []
  | f + 1, l => if l.isEmpty then [] else l.take 32 :: tiles f (l.drop 32)

/-- A sum of products by index, absent ones outside the sum. -/
def sumAt (l : List (Option (Nat × Nat))) : Nat :=
  match (tiles l.length l).filterMap tileSum with
  | [] => 0
  | a :: r => r.foldl f32.add a

/-- The scalar product of two vectors. -/
def dot (a b : List Nat) : Nat := sumAt ((a.zip b).map some)

/-- A column of a matrix given by rows. -/
def col (m : List (List Nat)) (j : Nat) : List Nat := m.map (fun r => r.getD j 0)

/-! ### Links (R168) -/

/-- A vector as binary32, with the number of its first component. -/
def settle3 (key : Bytes) (i : Nat) (v : V3) : List Nat := [settle key i v.x, settle key (i + 1) v.y, settle key (i + 2) v.z]

/-- One link as the front stage takes it: its columns of the centre-of-mass Jacobian and of the angular Jacobian by joint, its
orientation by rows, its mass and its inertia by rows; and for a point mass no angular part. -/
structure LinkJac where
  jc : List (List Nat)
  jw : List (List Nat)
  r : List (List Nat)
  mass : Nat
  inertia : List (List Nat)
deriving DecidableEq, Repr

/-- The links of an arm at joint positions, in ascending CHAIN, and PAYLOAD as a point mass at the origin of TOOL. -/
def linkJacs (k q : Bytes) : List LinkJac × LinkJac :=
  let key := k ++ q
  let ls := kinLinks k (vals32 q)
  let nj := kinNj k
  let cols (i : Nat) (movers : List KLink) (f : KLink → V3) : List (List Nat) :=
    (List.range nj).map (fun j => match movers.find? (fun l => l.joint == j) with
      | some l => settle3 key (i + 3 * j) (f l)
      | none => [0, 0, 0])
  let links := ls.zipIdx.map (fun p =>
    let r := kinRec k p.1.joint
    let f := p.1.after
    let x := f.app (V3.read r 52)
    let movers := ls.take (p.2 + 1)
    let e (i : Nat) : Nat := num r (64 + 4 * i) 4
    ({ jc := cols (100 * p.2) movers (fun l => l.lin k x)
       jw := cols (100 * p.2 + 30) movers (fun l => l.ang k)
       r := [settle3 key (100 * p.2 + 60) f.r.a, settle3 key (100 * p.2 + 63) f.r.b, settle3 key (100 * p.2 + 66) f.r.c]
       mass := num r 48 4
       inertia := [[e 0, e 3, e 4], [e 3, e 1, e 5], [e 4, e 5, e 2]] } : LinkJac))
  let x := (kinTool k ls).p
  (links, { jc := cols 900 ls (fun l => l.lin k x), jw := [], r := [], mass := num k 88 4, inertia := [] })

/-- (m Jcᵀ) Jc of two columns. -/
def massTerm (l : LinkJac) (i j : Nat) : Nat := dot ((l.jc.getD i []).map (f32.mul l.mass)) (l.jc.getD j [])

/-- A row vector times a matrix. -/
def rowTimes (v : List Nat) (m : List (List Nat)) : List Nat := (List.range 3).map (fun c => dot v (col m c))

/-- The rows of a matrix as columns. -/
def turned (m : List (List Nat)) : List (List Nat) := (List.range 3).map (col m)

/-- Jwᵀ R I Rᵀ Jw of two columns. -/
def spinTerm (l : LinkJac) (i j : Nat) : Nat :=
  dot (rowTimes (rowTimes (rowTimes (l.jw.getD i []) l.r) l.inertia) (turned l.r)) (l.jw.getD j [])

/-- A sum of terms in the order of R178. -/
def sumTerms (l : List Nat) : Nat := sumAt (l.map (fun x => some (x, f32one)))

/-- One term per link, the last with the payload's. -/
def perLink (ls : List LinkJac × LinkJac) (f : LinkJac → Nat) (p : LinkJac → Nat) : List Nat :=
  ls.1.zipIdx.map (fun x => if x.2 + 1 = ls.1.length then f32.add (f x.1) (p ls.2) else f x.1)

/-- M_a of R168, by rows. DEDUCED, log entry 31. -/
def massMatrix (k q : Bytes) : List (List Nat) :=
  let ls := linkJacs k q
  (List.range (kinNj k)).map (fun i => (List.range (kinNj k)).map (fun j =>
    sumTerms (perLink ls (fun l => f32.add (massTerm l i j) (spinTerm l i j)) (fun l => massTerm l i j))))

/-- h_a of R168, by joint: `v` the committed velocities, `g` the gravity. DEDUCED, log entry 31. -/
def effort (k q v g : Bytes) : List Nat :=
  let ls := linkJacs k q
  let grav := [num g 0 4, num g 4 4, num g 8 4]
  (List.range (kinNj k)).map (fun j =>
    let w (l : LinkJac) : Nat := dot ((l.jc.getD j []).map (f32.mul l.mass)) grav
    let r := kinRec k j
    let qd := num v (4 * j) 4
    let s := if f32.eqv qd 0 then 0 else if f32.lt qd 0 then f32.neg f32one else f32one
    f32.add (f32.add (f32.neg (sumTerms (perLink ls w w))) (f32.mul (num r 88 4) qd)) (f32.mul (num r 92 4) s))

/-! ### Correction offset (R169) -/

/-- The geometric tool Jacobian of an arm at joint positions, as its kinematics kernel delivers it: six rows in binary32. -/
def toolJac (k q : Bytes) : List (List Nat) :=
  let ls := kinLinks k (vals32 q)
  (jacobian k ls (kinTool k ls).p (kinNj k)).zipIdx.map (fun r =>
    r.1.zipIdx.map (fun x => settle (k ++ q) (1000 + 8 * r.2 + x.2) x.1))

/-- Δq of a joint: J_tᵀ (J_t J_tᵀ + λ² 1)⁻¹ δ. The products take the order of R178; how the 3 × 3 system is solved the spec does not say,
and its result has free last bits. DEDUCED, log entry 31. -/
def deltaQ (k q : Bytes) (lambda : Nat) (d : Bytes) (j : Nat) : Nat :=
  let rows := (toolJac k q).drop 3
  let l2 := f32.mul lambda lambda
  let m := rows.zipIdx.map (fun r => rows.zipIdx.map (fun c =>
    let x := dot r.1 c.1
    if r.2 = c.2 then f32.add x l2 else x))
  let sys := m.zipIdx.map (fun r => r.1.map Dbl.ofF32 ++ [Dbl.ofF32 (num d (4 * r.2) 4)])
  let y := (linSolve sys).zipIdx.map (fun v => settle (k ++ q ++ le 4 lambda ++ d) v.2 v.1)
  dot (col rows j) y

/-- A difference of positions reduced into (−π, π] (R169, R244). -/
def reduceAngle (e : Nat) : Nat := settle (le 4 e) 0 (Dbl.ofFx (-(fxReduce (-(Dbl.ofF32 e).fx))))

/-! ### Groups (R157, R171) -/

/-- An arm of a closed group: model, measured positions, committed positions and velocities by joint, and its grasp. -/
structure GrpArm where
  kin : Bytes
  qm : Bytes
  q : Bytes
  v : Bytes
  grasp : Bytes
deriving DecidableEq, Repr

def GrpArm.key (a : GrpArm) : Bytes := a.kin ++ a.qm ++ a.q ++ a.v ++ a.grasp

/-- The object frame that an arm's tool implies, T G⁻¹. -/
def GrpArm.object (a : GrpArm) (q : Bytes) : Pose := (toolFrame a.kin q).mul (Pose.read a.grasp 0).inv

/-- A twist at a tool carried to the implied object frame, in the axes of the leader's: angular, then linear. -/
def carryTwist (a l : GrpArm) (w v : V3) : List Dbl :=
  let r := ((a.object a.qm).p.sub (toolFrame a.kin a.qm).p)
  let o := (l.object l.qm).r.tr
  (o.app w).list ++ (o.app (v.add (w.cross r))).list

/-- X of R171 by rows, as binary32: what it makes of the six unit twists. -/
def groupX (a l : GrpArm) : List (List Nat) :=
  let unit (i : Nat) : V3 := V3.ofFn (fun k => if k = i then Dbl.one else Dbl.zero)
  let cols := (List.range 6).map (fun i => if i < 3 then carryTwist a l (unit i) V3.zero else carryTwist a l V3.zero (unit (i - 3)))
  (List.range 6).map (fun k => cols.zipIdx.map (fun c => settle (a.key ++ l.key) (100 + 6 * k + c.2) (c.1.getD k Dbl.zero)))

/-- Entry k of X J in the column of a joint (R171, R178). -/
def groupCoeff (a l : GrpArm) (k j : Nat) : Nat := dot ((groupX a l).getD k []) (col (toolJac a.kin a.qm) j)

/-- The bias β = J̇ q̇_c of an arm's tool, as its kinematics kernel delivers it. -/
def GrpArm.bias (a : GrpArm) : List Nat :=
  let ls := kinLinks a.kin (vals32 a.qm)
  let b := chainBias a.kin (vals32 a.v) (kinTool a.kin ls).p ls
  (b.1.list ++ b.2.list).zipIdx.map (fun x => settle a.key (200 + x.2) x.1)

/-- Component k of X J q̇_c and of X β. -/
def groupVel (a l : GrpArm) (k : Nat) : Nat :=
  dot ((List.range (kinNj a.kin)).map (groupCoeff a l k)) ((List.range (kinNj a.kin)).map (fun j => num a.v (4 * j) 4))
def groupBias (a l : GrpArm) (k : Nat) : Nat := dot ((groupX a l).getD k []) a.bias

/-- The 6-vector logarithm of a pose: rotation vector, then V⁻¹ p. -/
def Pose.log (f : Pose) : V3 × V3 :=
  let w := f.r.log
  let t := w.norm
  if t.isZero then (w, f.p)
  else
    let h := t.mul Dbl.half
    let c := (Dbl.one.sub ((h.mul h.cos).div h.sin)).div (t.mul t)
    (w, (f.p.sub ((w.cross f.p).scale Dbl.half)).add ((w.cross (w.cross f.p)).scale c))

/-- The drift e_a of a member against its leader, at the committed positions (R157). DEDUCED, log entry 31.
DESIGN CHOICE, log entry 39. -/
def groupError (a l : GrpArm) : V3 × V3 := ((l.object l.q).inv.mul (a.object a.q)).log

/-- The components of e_a as binary32. -/
def groupErr32 (a l : GrpArm) : List Nat :=
  let e := groupError a l
  (e.1.list ++ e.2.list).zipIdx.map (fun x => settle (a.key ++ l.key) (50 + x.2) x.1)

/-- b_e of row k, each operation rounded once to binary32 (R171, R178). -/
def groupBound (a l : GrpArm) (kp kd k : Nat) : Nat :=
  let dv := f32.sub (groupVel a l k) (groupVel l l k)
  f32.sub (f32.sub (f32.mul (f32.neg kd) dv) (f32.mul kp ((groupErr32 a l).getD k 0))) (f32.sub (groupBias a l k) (groupBias l l k))

/-- Translation and rotation of the drift. DEDUCED, log entry 31. -/
def groupDrift (a l : GrpArm) : Nat × Nat :=
  let e := groupError a l
  (settle (a.key ++ l.key) 48 e.2.norm, settle (a.key ++ l.key) 49 e.1.norm)

end Sys2Proof.Machine
end

