-- ==== Sys2Proof/Machine/Sgl.lean ====
section
/-! DEFINITION. Arithmetic of vectors in binary32 (R178, R207): every operation rounded once to nearest even. The spec says that the
Square's order of operations is fixed, but not which order it is: the model takes that of its own text, and leaves the last bits of a
result free (log entry 31). -/

namespace Sys2Proof.Machine

/-- A binary32 number by its pattern. -/
structure Sgl where
  bits : Nat
deriving DecidableEq, Repr

def Sgl.zero : Sgl := ⟨0⟩
def Sgl.one : Sgl := ⟨f32one⟩

/-- The operations, each rounded once. -/
def Sgl.add (x y : Sgl) : Sgl := ⟨f32.add x.bits y.bits⟩
def Sgl.sub (x y : Sgl) : Sgl := ⟨f32.sub x.bits y.bits⟩
def Sgl.mul (x y : Sgl) : Sgl := ⟨f32.mul x.bits y.bits⟩
def Sgl.div (x y : Sgl) : Sgl := ⟨f32.div x.bits y.bits⟩
def Sgl.sqrt (x : Sgl) : Sgl := ⟨f32.sqrt x.bits⟩
def Sgl.neg (x : Sgl) : Sgl := ⟨f32.neg x.bits⟩

/-- Comparisons as values. -/
def Sgl.lt (x y : Sgl) : Bool := f32.lt x.bits y.bits
def Sgl.le (x y : Sgl) : Bool := f32.le x.bits y.bits
def Sgl.isZero (x : Sgl) : Bool := f32.eqv x.bits 0
def Sgl.isNeg (x : Sgl) : Bool := f32.lt x.bits 0
def Sgl.min (x y : Sgl) : Sgl := ⟨f32.minV x.bits y.bits⟩
def Sgl.max (x y : Sgl) : Sgl := ⟨f32.maxV x.bits y.bits⟩

/-- A result with free last bits. -/
def Sgl.loose (x : Sgl) (key : Bytes) (i : Nat) : Nat := loosen key i x.bits

/-- A vector of three binary32 numbers. -/
structure V3s where
  x : Sgl
  y : Sgl
  z : Sgl
deriving DecidableEq, Repr

def V3s.zero : V3s := ⟨Sgl.zero, Sgl.zero, Sgl.zero⟩
def V3s.add (a b : V3s) : V3s := ⟨a.x.add b.x, a.y.add b.y, a.z.add b.z⟩
def V3s.sub (a b : V3s) : V3s := ⟨a.x.sub b.x, a.y.sub b.y, a.z.sub b.z⟩
def V3s.scale (a : V3s) (k : Sgl) : V3s := ⟨a.x.mul k, a.y.mul k, a.z.mul k⟩
def V3s.neg (a : V3s) : V3s := ⟨a.x.neg, a.y.neg, a.z.neg⟩
def V3s.dot (a b : V3s) : Sgl := ((a.x.mul b.x).add (a.y.mul b.y)).add (a.z.mul b.z)
def V3s.cross (a b : V3s) : V3s :=
  ⟨(a.y.mul b.z).sub (a.z.mul b.y), (a.z.mul b.x).sub (a.x.mul b.z), (a.x.mul b.y).sub (a.y.mul b.x)⟩
def V3s.norm (a : V3s) : Sgl := (a.dot a).sqrt

/-- Three binary32 numbers at an offset of a byte string, and a vector by its components 0 to 2. -/
def V3s.read (b : Bytes) (off : Nat) : V3s := ⟨⟨num b off 4⟩, ⟨num b (off + 4) 4⟩, ⟨num b (off + 8) 4⟩⟩
def V3s.ofFn (f : Nat → Sgl) : V3s := ⟨f 0, f 1, f 2⟩

/-- A vector that a kinematics kernel delivers as binary32; `i` numbers its first component. DEDUCED, log entry 31. -/
def V3.single (v : V3) (key : Bytes) (i : Nat) : V3s := ⟨⟨settle key i v.x⟩, ⟨settle key (i + 1) v.y⟩, ⟨settle key (i + 2) v.z⟩⟩

end Sys2Proof.Machine
end

