-- ==== Sys2Proof/Machine/Hulls.lean ====
section
/-! DEFINITION. Distances of swept hulls (R200, R206): separating axes, nearest features, witness points, and what R209 and R211
form from them. Computed in binary32 throughout (R207), in the order of this text; the last bits of each result are free (log entry 31). -/

namespace Sys2Proof.Machine

/-- All unordered pairs of a list. -/
def pairsOf {α : Type} : List α → List (α × α)
  | [] => []
  | a :: r => r.map (fun b => (a, b)) ++ pairsOf r

/-- All unordered triples of a list. -/
def triplesOf {α : Type} : List α → List (α × α × α)
  | [] => []
  | a :: r => (pairsOf r).map (fun p => (a, p)) ++ triplesOf r

/-- A convex hull by its vertices, edges and triangular faces. -/
structure Hull where
  pts : List V3s
  edges : List (V3s × V3s)
  faces : List (V3s × V3s × V3s)
deriving DecidableEq, Repr

/-- The hull of at most four points: every pair is an edge and every triple a face. -/
def Hull.ofPts (l : List V3s) : Hull := ⟨l, pairsOf l, triplesOf l⟩

/-- A box by its centre pose and half extents: the edges join vertices that differ in one bit, and each side is two triangles. -/
def Hull.box (key : Bytes) (f : Pose) (h : V3) : Hull :=
  let sg (n k : Nat) (x : Dbl) : Dbl := if n.testBit k then x else x.neg
  let v (n : Nat) : V3s := (f.app ⟨sg n 0 h.x, sg n 1 h.y, sg n 2 h.z⟩).single key (3 * n)
  let near := (List.range 8).flatMap (fun n => ((List.range 3).filter (fun k => !n.testBit k)).map (fun k => (n, n + 2 ^ k)))
  let sides := [(0, 2, 4), (1, 2, 4), (0, 1, 4), (2, 1, 4), (0, 1, 2), (4, 1, 2)]
  { pts := (List.range 8).map v
    edges := near.map (fun p => (v p.1, v p.2))
    faces := sides.flatMap (fun p => [(v p.1, v (p.1 + p.2.1), v (p.1 + p.2.2)),
      (v (p.1 + p.2.1 + p.2.2), v (p.1 + p.2.1), v (p.1 + p.2.2))]) }

/-- Normal of a face. -/
def faceNormal (f : V3s × V3s × V3s) : V3s := (f.2.1.sub f.1).cross (f.2.2.sub f.1)

/-- Least and greatest of a list of numbers. -/
def leastOf (l : List Sgl) : Sgl := (l.drop 1).foldl Sgl.min (l.headD Sgl.zero)
def greatestOf (l : List Sgl) : Sgl := (l.drop 1).foldl Sgl.max (l.headD Sgl.zero)

/-- An axis separates two hulls; one of length 0 is skipped (R206). -/
def separates (a b : Hull) (x : V3s) : Bool :=
  let p := a.pts.map x.dot
  let q := b.pts.map x.dot
  !(x.dot x).isZero && ((greatestOf p).lt (leastOf q) || (greatestOf q).lt (leastOf p))

/-- The axes of R206: face normals of both hulls and the cross products of their edges. DEDUCED, log entry 31. -/
def hullAxes (a b : Hull) : List V3s :=
  a.faces.map faceNormal ++ b.faces.map faceNormal ++
    a.edges.flatMap (fun e => b.edges.map (fun f => (e.2.sub e.1).cross (f.2.sub f.1)))

/-- min(1, max(0, x)). -/
def unitD (x : Sgl) : Sgl := (x.max Sgl.zero).min Sgl.one

/-- Nearest points of two segments. -/
def segSeg (s t : V3s × V3s) : V3s × V3s :=
  let d := s.2.sub s.1
  let e := t.2.sub t.1
  let r := s.1.sub t.1
  let dd := d.dot d
  let ee := e.dot e
  let er := e.dot r
  let dr := d.dot r
  let de := d.dot e
  let at_ (x y : Sgl) : V3s × V3s := (s.1.add (d.scale x), t.1.add (e.scale y))
  if dd.isZero then at_ Sgl.zero (if ee.isZero then Sgl.zero else unitD (er.div ee))
  else if ee.isZero then at_ (unitD (dr.neg.div dd)) Sgl.zero
  else
    let den := (dd.mul ee).sub (de.mul de)
    let x := if Sgl.zero.lt den then unitD (((de.mul er).sub (dr.mul ee)).div den) else Sgl.zero
    let y := ((de.mul x).add er).div ee
    if y.isNeg then at_ (unitD (dr.neg.div dd)) Sgl.zero
    else if Sgl.one.lt y then at_ (unitD ((de.sub dr).div dd)) Sgl.one
    else at_ x y

/-- The foot of a point on a face, where it lies in the face. -/
def footOn (p : V3s) (f : V3s × V3s × V3s) : Option V3s :=
  let n := faceNormal f
  let nn := n.dot n
  if nn.isZero then none
  else
    let q := p.sub (n.scale ((n.dot (p.sub f.1)).div nn))
    let left (a b : V3s) : Bool := Sgl.zero.le ((n.cross (b.sub a)).dot (q.sub a))
    if left f.1 f.2.1 && left f.2.1 f.2.2 && left f.2.2 f.1 then some q else none

/-- Nearest points of every pair of features: vertex and face, face and vertex, edge and edge. -/
def featurePoints (a b : Hull) : List (V3s × V3s) :=
  a.pts.flatMap (fun p => b.faces.filterMap (fun f => (footOn p f).map (fun q => (p, q)))) ++
    b.pts.flatMap (fun p => a.faces.filterMap (fun f => (footOn p f).map (fun q => (q, p)))) ++
    a.edges.flatMap (fun e => b.edges.map (segSeg e))

/-- The pair of points with the least distance, the first of equals. -/
def nearestOf : List (V3s × V3s) → Option (V3s × V3s)
  | [] => none
  | p :: l => match nearestOf l with
    | some q => if ((p.2.sub p.1).norm).le ((q.2.sub q.1).norm) then some p else some q
    | none => some p

/-- The witness points of two hulls; none where D is 0 by the first line of R206. DEDUCED, log entry 31. -/
def witness (a b : Hull) : Option (V3s × V3s) := if (hullAxes a b).any (separates a b) then nearestOf (featurePoints a b) else none

/-- The point of a segment nearest to a point. -/
def nearOn (s : V3s × V3s) (p : V3s) : V3s := (segSeg s (p, p)).1

/-! ### Elements as geometry -/

/-- A link that moves an element: its joint, and the joint's column of the Jacobian at the cell's origin, angular and linear. -/
structure Mover where
  joint : Nat
  ang : V3s
  lin : V3s
deriving DecidableEq, Repr

/-- The links as the kinematics kernel delivers their columns at q_m. -/
def moversOf (key k : Bytes) (ls : List KLink) : List Mover :=
  ls.map (fun l => ⟨l.joint, (l.ang k).single key (100 + 6 * l.joint), (l.lin k V3.zero).single key (103 + 6 * l.joint)⟩)

/-- The column of the translational Jacobian at a point. -/
def Mover.at_ (m : Mover) (p : V3s) : V3s := (m.ang.cross p).add m.lin

/-- What R200 and R206 take of an element or a zone: its hull, its axis segment at the first instant (none for a box), its radius, the
velocity of a fresh volume, the links that move it, and committed and nominal velocities of the arm's joints; all in binary32. -/
structure Geo where
  hull : Hull
  axis : Option (V3s × V3s)
  radius : Nat
  vel : V3s
  movers : List Mover
  qd : Bytes
  nominal : Bytes
deriving DecidableEq, Repr

/-- A capsule between two instants. -/
def Geo.capsule (a b a' b' : V3s) (r : Nat) : Geo :=
  { hull := .ofPts [a, b, a', b'], axis := some (a, b), radius := r, vel := .zero, movers := [], qd := [], nominal := [] }

/-- A fixed capsule. -/
def Geo.fixed (a b : V3s) (r : Nat) : Geo :=
  { hull := .ofPts [a, b], axis := some (a, b), radius := r, vel := .zero, movers := [], qd := [], nominal := [] }

/-- Velocity of a point of an element for joint velocities. -/
def Geo.speedAt (g : Geo) (qd : Bytes) (p : V3s) : V3s :=
  g.movers.foldl (fun v m => v.add ((m.at_ p).scale ⟨num qd (4 * m.joint) 4⟩)) V3s.zero

/-- A direction of unit length: each component divided by the length. -/
def unitV (v : V3s) : V3s := let n := v.norm; ⟨v.x.div n, v.y.div n, v.z.div n⟩

/-- Distance D, direction n̂ and contact points of a pair (R206). The spec names no direction for a pair with a box at D = 0, nor a
contact point: there the direction is free. DEDUCED, log entry 31. -/
def contact (key : Bytes) (a b : Geo) : Sgl × V3s × V3s × V3s :=
  let pick (g : Geo) (w : V3s) : V3s := (g.axis.map (fun s => nearOn s w)).getD w
  let apart := match witness a.hull b.hull with
    | some w => if (w.2.sub w.1).norm.isZero then none else some w
    | none => none
  match apart with
  | some w => let d := w.2.sub w.1; (d.norm, unitV d, pick a w.1, pick b w.2)
  | none =>
    match a.axis, b.axis with
    | some s, some t =>
      let w := segSeg s t
      let d := w.2.sub w.1
      (Sgl.zero, if d.norm.isZero then ⟨Sgl.zero, Sgl.zero, Sgl.one⟩ else unitV d, w.1, w.2)
    | _, _ =>
      let n := V3s.ofFn (fun k => ⟨Config.freeDir key k % 2 ^ 32⟩)
      let e : V3s := V3s.ofFn (fun k => ⟨Config.freeDir key (3 + k) % 2 ^ 32⟩)
      (Sgl.zero, n, pick a e, pick b e)

/-- What a pair gives: its distance d, the coefficients of its row by joint of the first and of the second element's arm, the rate
ḋ_c, and the approach speed at σ = 1 (v_n of R209, v_rel of R213); binary32. -/
structure Near where
  d : Nat
  row1 : List (Nat × Nat)
  row2 : List (Nat × Nat)
  rate : Nat
  speed : Nat
deriving DecidableEq, Repr

/-- A pair of elements, or of an element and a zone (R206, R209, R211, R213). DEDUCED, log entry 31. -/
def meet (key : Bytes) (a b : Geo) : Near :=
  let c := contact key a b
  let n := c.2.1
  let row (g : Geo) (p m : V3s) (base : Nat) : List (Nat × Nat) :=
    g.movers.map (fun l => (l.joint, (m.dot (l.at_ p)).loose key (base + l.joint)))
  let rel (u v : V3s) : Sgl := n.dot (v.sub u)
  { d := f32.sub (f32.sub (c.1.loose key 0) a.radius) b.radius
    row1 := row a c.2.2.1 n.neg 8
    row2 := row b c.2.2.2 n 16
    rate := (rel (a.vel.add (a.speedAt a.qd c.2.2.1)) (b.vel.add (b.speedAt b.qd c.2.2.2))).loose key 1
    speed := ((rel (a.speedAt a.nominal c.2.2.1) (b.speedAt b.nominal c.2.2.2)).neg).loose key 2 }

end Sys2Proof.Machine
end

