-- ==== Sys2Proof/Machine/Square.lean ====
section
/-! DEFINITION. The Square and the Crossings (R194 to R225): elements and pairs, speed scales, rows with their keys, volumes,
reservations. Distances and Jacobian products come from Machine/Hulls.lean; what is formed from them is exact binary32. -/

namespace Sys2Proof.Machine

/-! ### Elements (R196 to R200) -/

/-- An element: id, the arm it is of, the group that carries it, a class (0 person, 1 object) for a volume, its geometry and
the bytes that the geometry is computed from. -/
structure Elem where
  id : Nat
  arm : Option Nat
  group : Option Nat
  vol : Option Nat
  data : Bytes
  geo : Geo
deriving DecidableEq, Repr

/-- Replaces the Square's state. -/
def State.onSq (s : State) (f : StSquare → StSquare) : State := { s with square := f s.square }

/-- Horizon entries around θ with the fraction between them (R523). -/
def State.sampleArgs (s : State) (a : Nat) : Bytes :=
  let n := s.theta a / 2 ^ 32
  s.horizon a n ++ s.horizon a (n + 1) ++ le 4 (s.theta a % 2 ^ 32)

/-- Joint values of an arm out of a list by joint slot. -/
def armVals (l : List Nat) (a : Nat) : Bytes := ((List.range 8).map (fun j => le 4 (l.getD (8 * a + j) 0))).flatten

/-- What places an arm: model, measured positions, committed state and nominal sample (R200). -/
def State.armPlace (s : State) (a : Nat) : Bytes :=
  s.obj (kArmKin a) ++ armVals s.solver.qm a ++ armVals s.solver.q a ++ armVals s.solver.v a ++ s.sampleArgs a

/-- A joint's sample of R523 at θ: component 0 q, 1 q′, 2 q″. At a whole path time it is the entry. -/
def State.sample (s : State) (j i : Nat) : Nat :=
  let a := j / 8
  let n := s.theta a / 2 ^ 32
  let e (m : Nat) := slice (s.horizon a m) (12 * (j % 8)) 12
  if s.theta a % 2 ^ 32 = 0 then num (e n) (4 * i) 4
  else sampleAt i (e n) (e (n + 1)) (s.theta a % 2 ^ 32) s.tns

/-- q_pred of an arm (R200), as its KIN delivered it with q_m. DEDUCED, log entry 60. -/
def State.qPred (s : State) (a : Nat) : Bytes := armVals s.solver.qp a

/-- A capsule record that an arm carries: `fr` gives the frame it moves with from the chain at joint positions, `movers` the links that
move it. DESIGN CHOICE, log entry 39. DEDUCED, log entry 60. -/
def State.carried (s : State) (a : Nat) (r : Bytes) (fr : List KLink → Pose) (movers : List KLink → List KLink) : Geo :=
  let k := s.obj (kArmKin a)
  let l1 := kinLinks k (vals32 (armVals s.solver.qm a))
  let f1 := fr l1
  let f2 := fr (kinLinks k (vals32 (s.qPred a)))
  let x := V3.read r 4
  let y := V3.read r 16
  let m := k ++ armVals s.solver.qm a
  let pt (i : Nat) (v : V3) : V3s := v.single (r ++ m ++ s.qPred a) i
  { Geo.capsule (pt 0 (f1.app x)) (pt 3 (f1.app y)) (pt 6 (f2.app x)) (pt 9 (f2.app y)) (num r 28 4) with
    movers := moversOf m k (movers l1), qd := armVals s.solver.v a
    nominal := ((List.range 8).map (fun j => le 4 (s.sample (8 * a + j) 1))).flatten }

/-- A capsule record at a fixed frame. -/
def fixedCapsule (key : Bytes) (f : Pose) (r : Bytes) : Geo :=
  .fixed ((f.app (V3.read r 4)).single key 0) ((f.app (V3.read r 16)).single key 3) (num r 28 4)

/-- Robot capsules of present arms. -/
def State.robotElems (s : State) : List Elem :=
  s.arms.flatMap (fun a => (List.range 12).filterMap (fun k =>
    let r := slice (s.obj (kSqCaps a)) (32 * k) 32
    let j := num r 0 1
    if j = 0xFF then none
    else some { id := 12 * a + k, arm := some a, group := none, vol := none, data := r ++ s.armPlace a
                geo := s.carried a r (fun l => linkFrame (s.obj (kArmKin a)) l j) (linksTo j) }))

/-- Tool and workpiece capsules: of an arm, of the leader of a group that counts as closed, or of the cell. -/
def State.twElemsIf (s : State) (closed : Nat → Bool) : List Elem :=
  (List.range 32).filterMap (fun i =>
    let r := slice (s.obj kSqTw) (32 * i) 32
    let n := num r 1 1
    let id := 0x60 + i
    let el (data : Bytes) (x : Geo) : Elem := { id := id, arm := none, group := none, vol := none, data := data, geo := x }
    match num r 0 1 with
    | 1 => some (el r (.fixed (V3s.read r 4) (V3s.read r 16) (num r 28 4)))
    | 2 => some { id := id, arm := some n, group := none, vol := none, data := r ++ s.armPlace n
                  geo := s.carried n r (kinTool (s.obj (kArmKin n))) (fun l => l) }
    | 3 =>
      if closed n then
        let l := s.leader n
        let g := slice (s.obj (kGrpGrasp n)) (28 * l) 28
        some { id := id, arm := some l, group := some n, vol := none, data := r ++ s.armPlace l ++ g
               geo := s.carried l r (fun ls => (kinTool (s.obj (kArmKin l)) ls).mul (Pose.read g 0).inv) (fun l => l) }
      else let key := r ++ (s.grp n).objPose; some (el key (fixedCapsule key (Pose.read (s.grp n).objPose 0) r))
    | _ => none)

/-- Tool and workpiece capsules as the groups stand. -/
def State.twElems (s : State) : List Elem := s.twElemsIf (fun g => s.n (kGrpState g) == 1)

/-- Stored volumes: the present records of SQ_TV_TABLE. -/
def State.volumes (s : State) : List Bytes := (records 56 (s.obj kSqTvTable)).filter (fun r => (num r 3 1).testBit 0)

/-- Age of a volume at the cycle start instant, 2^-16 ns, and whether it is stale (R203). -/
def State.tvAge (s : State) (r : Bytes) : Nat := s.cycle * s.tns * 65536 - tvStamp r
def State.tvStale (s : State) (r : Bytes) : Bool := decide (s.n kSqTvMaxage * 65536000 < s.tvAge r)

/-- Age in seconds, binary32. -/
def State.tvTau (s : State) (r : Bytes) : Nat := f32.ofRatio (s.tvAge r) (65536 * 1000000000)

/-- A volume as it is used: a stale one stands still and has grown by SQ_VH × τ (R203). -/
def State.tvUsed (s : State) (r : Bytes) : Bytes :=
  if s.tvStale r then patch (patch r 44 (zeros 12)) 40 (le 4 (f32.add (tvRadius r) (f32.mul (s.n kSqVh) (s.tvTau r)))) else r

/-- Tracked volumes as elements. -/
def State.tvElems (s : State) : List Elem :=
  s.volumes.map (fun r =>
    let u := s.tvUsed r
    let v := V3s.read u 44
    let a := V3s.read u 16
    let b := V3s.read u 28
    let far := v.scale ⟨f32.add (s.tvTau r) (f32.mul 0x3FC00000 s.t32)⟩
    { id := 0x80 + tvId r, arm := none, group := none, vol := some (tvClass r), data := u ++ le 8 (s.tvAge r) ++ le 4 s.tns
      geo := { Geo.capsule a b (a.add far) (b.add far) (tvRadius u) with vel := v } })

/-- All elements in ascending id. -/
def State.elems (s : State) : List Elem := s.robotElems ++ s.twElems ++ s.tvElems

/-! ### Pairs (R205) -/

/-- A pair is listed in SQ_EXCLUDE. -/
def State.excluded (s : State) (i j : Nat) : Bool :=
  (records 2 (s.obj kSqExclude)).any (fun r =>
    let x := num r 1 1
    let y := num r 0 1
    x == i && y == j || x == j && y == i)

/-- An element is of a member of the group that carries the other. -/
def State.sameGroup (s : State) (a b : Elem) : Bool :=
  match a.group, b.arm with
  | some g, some m => (s.members g).contains m
  | _, _ => false

/-- A pair of elements is evaluated. -/
def State.paired? (s : State) (a b : Elem) : Bool :=
  (a.arm.isSome || b.arm.isSome) && a.arm != b.arm && !s.sameGroup a b && !s.sameGroup b a && !s.excluded a.id b.id

/-- The evaluated pairs of elements, the lower id first. DEDUCED, log entry 60. -/
def State.elemPairs (s : State) (l : List Elem) : List (Elem × Elem) := (pairsOf l).filter (fun p => s.paired? p.1 p.2)

/-- Record of a zone; a zone in use (R216). -/
def State.zone (s : State) (z : Nat) : Bytes := s.obj (kCrZone z)
def State.zoneUsed (s : State) (z : Nat) : Bool := num (s.zone z) 0 1 != 0

/-- Arms governed by a zone. -/
def State.zoneArms (s : State) (z : Nat) : Nat := if s.zoneUsed z then num (s.zone z) 1 1 else 0

/-- Geometry of a zone (R206, R216). -/
def zoneGeo (r : Bytes) : Geo :=
  if num r 0 1 = 1 then { Geo.fixed .zero .zero 0 with hull := .box r (Pose.read r 4) (V3.read r 32), axis := none }
  else .fixed (V3s.read r 4) (V3s.read r 16) (num r 32 4)

/-- Pairs of an element with a zone. -/
def State.zonePairs (s : State) (l : List Elem) : List (Elem × Nat) :=
  l.flatMap (fun e => match e.arm with
    | some a => ((List.range 32).filter (fun z => (s.zoneArms z).testBit a)).map (fun z => (e, z))
    | none => [])

/-! ### Speed and separation (R209, R210) -/

/-- A field of SQ_ARM_PAR. -/
def State.sqPar (s : State) (a off n : Nat) : Nat := s.sub kSqArmPar (16 * a + off) n

/-- min(1, max(0, x)). -/
def unit32 (x : Nat) : Nat := clamp32 x 0 f32one

/-- The speed scale of an arm for a person at a distance `d`, with approach speed `vn` at σ = 1 (R209). -/
def State.personScale (s : State) (a : Nat) (r : Bytes) (d vn : Nat) : Nat :=
  let tau := if s.tvStale r then 0 else s.tvTau r
  let tr := s.sqPar a 0 4
  let ts := f32.ofRatio (s.n (kSigmaFall a)) 1000
  let d0 := f32.mul (s.n kSqVh) (f32.add (f32.add tau tr) ts)
  let d0 := f32.add (f32.add (f32.add (f32.add d0 (s.n kSqC)) (s.n kSqZd)) (s.sqPar a 4 4)) (s.sqPar a 8 4)
  if f32.le vn 0 then f32one
  else unit32 (f32.div (f32.sub d d0) (f32.mul vn (f32.add tr (f32.div ts 0x40000000))))

/-! ### Candidates and rows (R211 to R215) -/

/-- A candidate: the pair (element ids, or element and zone), class, distance, security distance, and what its row needs. -/
structure Cand where
  e1 : Nat
  e2 : Nat
  zone : Bool
  people : Bool
  arm1 : Option Nat
  arm2 : Option Nat
  d : Nat
  ds : Nat
  near : Near
deriving DecidableEq, Repr

/-- Order of ranking: d − d_s, the lower id, the higher id or the zone (R212). -/
def Cand.before (a b : Cand) : Bool :=
  let x := f32.sub a.d a.ds
  let y := f32.sub b.d b.ds
  f32.lt x y || f32.eqv x y && (decide (a.e1 < b.e1) || a.e1 == b.e1 && decide (a.e2 ≤ b.e2))

/-- Insertion into a ranked list, and ranking. DEDUCED, log entry 60. -/
def insertCand (c : Cand) : List Cand → List Cand
  | [] => [c]
  | x :: l => if c.before x then c :: x :: l else x :: insertCand c l
def rank (l : List Cand) : List Cand := l.foldr insertCand []

/-- v_allow of a candidate. -/
def State.vAllow (s : State) (c : Cand) : Nat :=
  f32.div (f32.mul (s.n kSqXi) (f32.sub c.d c.ds)) (f32.sub (s.n kSqDi) c.ds)

/-- Bound b of a candidate's row. -/
def State.rowBound (s : State) (c : Cand) : Nat :=
  f32.div (f32.sub (f32.neg (s.vAllow c)) c.near.rate) (s.n kSqTd)

/-- Coefficients of a candidate's row by joint slot. -/
def Cand.coeff (c : Cand) : List (Nat × Nat) :=
  let of (arm : Option Nat) (l : List (Nat × Nat)) : List (Nat × Nat) := match arm with
    | some a => l.map (fun p => (8 * a + p.1, p.2))
    | none => []
  of c.arm1 c.near.row1 ++ of c.arm2 c.near.row2

/-- Slack index of a candidate's row (R215). -/
def State.slackOf (s : State) (c : Cand) : Nat :=
  match c.arm1, c.arm2 with
  | some a, some b => s.sqPar (min a b) 12 1
  | some a, none => s.sqPar a (if c.people then 13 else 12) 1
  | none, some b => s.sqPar b (if c.people then 13 else 12) 1
  | none, none => 0xFF

/-- Keys kept at the start of a run. -/
def keptKeys (keys : List SqKey) (cycle hold : Nat) : List SqKey := keys.filter (fun k => decide (cycle ≤ k.last + hold + 1))

/-- The lowest key that is not in a list. DEDUCED, log entry 60. -/
def freeKey (used : List Nat) : Nat := ((List.range 4096).find? (fun k => !used.contains k)).getD 0

/-- A key is of a candidate's pair. -/
def SqKey.fits (k : SqKey) (c : Cand) : Bool := k.e1 == c.e1 && k.e2 == c.e2 && k.zone == c.zone

/-- Keys of the rows: rows of pairs that hold a key first, then the lowest free keys in rank order (R214).
DEDUCED, log entry 60. -/
def assignKeys (held : List SqKey) : List Cand → List Nat → List (Nat × Cand)
  | [], _ => []
  | c :: l, used =>
    match held.find? (fun k => k.fits c) with
    | some k => (k.key, c) :: assignKeys held l used
    | none => let k := freeKey used; (k, c) :: assignKeys held l (k :: used)

/-- A record of SQ_ROWS (R224). -/
def SqRow.bytes (r : SqRow) : Bytes :=
  le 2 r.key ++ le 1 r.e1 ++ le 1 r.e2 ++ le 1 r.slack ++ le 1 ((if r.zone then 2 else 0) + b01 r.people) ++ [0, 0] ++ le 4 r.d ++
    le 4 r.b

/-- Rows by ascending key. -/
def sortRows (l : List SqRow) : List SqRow := (List.range 4096).filterMap (fun k => l.find? (fun r => r.key == k))

/-! ### Volumes (R202, R203) -/

/-- Puts a list of volumes into SQ_TV_TABLE, with PRESENT and STALE. -/
def State.setVolumes (s : State) (l : List Bytes) : State :=
  let tab := (List.range 128).map (fun i => match l.find? (fun r => tvId r == i) with
    | some r => patch r 3 (le 1 (1 + (if s.tvStale r then 2 else 0)))
    | none => zeros 56)
  let s := s.setObj kSqTvTable tab.flatten
  if l.any s.tvStale then s.setBit kSqStatus 6 true else s

/-- The newest complete buffer of a TV block whose SEQ is at most c − SQ_TV_LAG. -/
def State.tvBuffer (s : State) (j : Nat) : Bytes :=
  let l := s.square.tv.filter (fun b => b.block == j && decide (b.cycle + s.n kSqTvLag ≤ s.cycle))
  match l.foldl (fun (m : Option TvBuf) b => match m with
      | some x => if x.cycle ≤ b.cycle then some b else m
      | none => some b) none with
  | some b => b.data
  | none => []

/-- The volumes of a run. -/
def State.takeVolumes (s : State) : State :=
  let recs := (List.range 16).flatMap (fun j => records 56 (s.tvBuffer j))
  let start := s.cycle * s.tns * 65536
  let bad := recs.filter (fun r => !tvOk start r)
  let s := if bad.isEmpty then s else (bad.foldl (fun s _ => s.inc kSqTvRej) s).setBit kSqStatus 7 true
  s.setVolumes (tvStore s.volumes (recs.filter (tvOk start)))

/-! ### Crossings (R216 to R220) -/

/-- Zones that an arm holds; arms that act together with an arm. -/
def State.held (s : State) (a : Nat) : Nat := s.n (kCrHeld a)
def State.team (s : State) (a : Nat) : List Nat := match s.groupOf a with
  | some g => s.members g
  | none => [a]

/-- A field of a zone's CR_STATUS record. -/
def State.crField (s : State) (z off : Nat) : Nat := s.sub kCrStatus (4 * z + off) 1

/-- The own checks of CR_REQ (R217). -/
def crReqOwn (a : Nat) (v : Bytes) (s : State) : Nat :=
  let m := leVal v
  let h := s.held a
  if s.tierUse < 3 then abNoResource
  else if s.nj a = 0 ∨ !(bitsOf 32 m).all (fun z => (s.team a).all (fun b => (s.zoneArms z).testBit b)) then abRange
  else if h ≠ 0 ∧ m &&& h ≠ m then abBusy
  else 0

/-- Sets what a read of CR_REQ returns. -/
def State.setReq (s : State) (a m : Nat) : State := (s.team a).foldl (fun s b => s.setN (kCrReq b) m) s

/-- Zones of an arm begin to be released. -/
def State.release (s : State) (a m : Nat) : State :=
  (s.team a).foldl (fun s b => s.onSq (fun x => { x with releasing := modAt x.releasing b (· ||| m) })) s

/-- Drops an arm's pending request. -/
def State.dropReq (s : State) (a : Nat) : State :=
  (s.onSq (fun x => { x with pend := x.pend.filter (fun p => !(s.team a).contains p.arm) })).setReq a 0

/-- The effect of CR_REQ at its apply cycle (R217). -/
def crReqEff (a : Nat) (v : Bytes) (s : State) : State :=
  let m := leVal v
  let h := s.held a
  if m = 0 then (s.dropReq a).release a h
  else if h = 0 then
    let s := s.dropReq a
    (s.onSq (fun x => { x with pend := x.pend ++ [⟨(s.team a).headD a, m, s.cycle⟩] })).setReq a m
  else if m &&& h = m then s.release a (h - m)
  else s

/-- CR_REQ (R217). -/
def crReq (rq : Requester) (a : Fin 8) (m : W32) (s : State) : State :=
  submitWrite rq 0x4202 (1 + a.val) (le 4 m.toNat) (crReqOwn a (le 4 m.toNat)) (crReqEff a (le 4 m.toNat)) s

/-- Arms that hold a zone, as a mask. -/
def State.holders (s : State) (z : Nat) : Nat := maskOf ((List.range 8).filter (fun a => (s.held a).testBit z))

/-- Releases end for zones whose arms are outside (R220). -/
def State.endReleases (s : State) : State :=
  (List.range 8).foldl (fun s a =>
    let rel := s.square.releasing.getD a 0
    let out := maskOf ((bitsOf 32 rel).filter (fun z => (s.team a).all (fun b => !(s.crField z 1).testBit b)))
    if out = 0 then s
    else (s.setN (kCrHeld a) (s.held a - (s.held a &&& out))).onSq (fun x => { x with releasing := modAt x.releasing a (· - out) })) s

/-- Order of requests (R218): apply cycle, priority, arm. -/
def State.reqBefore (s : State) (x y : CrPend) : Bool :=
  let p (r : CrPend) := s.sub kCrPrio r.arm 1
  decide (x.cycle < y.cycle) || x.cycle == y.cycle && (decide (p x < p y) || p x == p y && decide (x.arm ≤ y.arm))

/-- Requests in order. -/
def State.insertReq (s : State) (r : CrPend) : List CrPend → List CrPend
  | [] => [r]
  | x :: l => if s.reqBefore r x then r :: x :: l else x :: s.insertReq r l

/-- A zone is free for an arm. -/
def State.zoneFree (s : State) (a z : Nat) : Bool :=
  s.holders z == 0 && (bitsOf 8 (s.crField z 1)).all (fun b => (s.team a).contains b)

/-- Grants (R218): a request whose zones are free, and named by no earlier request. -/
def State.grants : List CrPend → Nat → State → State
  | [], _, s => s
  | r :: l, named, s =>
    let ok := r.mask &&& named == 0 && (bitsOf 32 r.mask).all (fun z => s.zoneFree r.arm z)
    let s := if ok then
        let team := s.team r.arm
        let s := s.dropReq r.arm
        team.foldl (fun s b => s.setN (kCrHeld b) r.mask) s
      else s
    State.grants l (named ||| r.mask) s

/-- HOLDERS and RELEASE_PENDING of CR_STATUS. -/
def State.crHolders (s : State) : State :=
  (List.range 32).foldl (fun s z =>
    let rel := s.square.releasing.any (fun m => m.testBit z)
    let s := s.patchObj kCrStatus (4 * z) (le 1 (s.holders z))
    s.patchObj kCrStatus (4 * z + 2) (le 1 (Machine.setBit (s.crField z 2) 0 rel))) s

/-- The Square's state where it runs, is bypassed, or stands (R194). -/
def State.squareOn (s : State) : Bool := s.isIn [.ready, .run, .hold, .degraded] && s.tierRun == 3 && !s.mon.stopped

/-- The Square is bypassed at Tier 2. -/
def State.squareBypass (s : State) : Bool := s.isIn [.ready, .run, .hold, .degraded] && s.tierRun == 2

/-- SQ_SCALE as it reads (R194). -/
def State.scaleBytes (s : State) : Bytes :=
  if s.squareOn then s.obj kSqScale else (List.replicate 8 (le 4 (if s.squareBypass then 65536 else 0))).flatten

/-- Crossings and scales at a cycle start. -/
def State.squareCycle (s : State) : State :=
  let s := s.onSq (fun x => { x with late := false })
  if s.squareOn then
    let s := (s.setBit kSqStatus 8 false).endReleases
    (State.grants (s.square.pend.foldl (fun l r => s.insertReq r l) []) 0 s).crHolders
  else
    let bypass := s.squareBypass
    let s := (s.setBit kSqStatus 8 bypass).onSq (fun x => { x with rows := [] })
    let s := (s.setBit kSqStatus 0 false).setBit kSqStatus 1 (!bypass && !s.arms.isEmpty)
    s.setObj kSqScale s.scaleBytes

/-- Held sets and pending requests are cleared on entry to CONFIG, INERT and FAULT (R220). -/
def State.clearCrossings (s : State) : State :=
  let s := (List.range 8).foldl (fun s a => (s.setN (kCrHeld a) 0).setN (kCrReq a) 0) s
  (s.onSq (fun x => { x with pend := [], releasing := List.replicate 8 0 })).crHolders

/-! ### A run (R194 to R219) -/

/-- Marks of zones in a run: INSIDE, violations and intrusions (R216, R219). -/
def State.markZones (s : State) (inside : List (Nat × Nat)) : State :=
  (List.range 32).foldl (fun s z =>
    let ins := maskOf ((inside.filter (fun p => p.2 == z)).map Prod.fst)
    let h := s.holders z
    let out := ins - (ins &&& h)
    let viol := out != 0 && h != 0
    let s := s.patchObj kCrStatus (4 * z + 1) (le 1 ins)
    let s := s.patchObj kCrStatus (4 * z + 2) (le 1 (Machine.setBit (s.crField z 2) 1 viol))
    let s := if viol then (s.setBit kSqStatus 4 true).stopDemand else s
    if out ≠ 0 ∧ h = 0 then s.setBit kSqStatus 3 true else s) s

/-- The smallest of an arm's scales. -/
def scaleOf (l : List (Nat × Nat)) (a : Nat) : Nat := ((l.filter (fun p => p.1 == a)).map Prod.snd).foldl f32.minV f32one

/-- floor(s × 65,536). -/
def scaleWord (v : Nat) : Nat := let r := f32.ratio v; (r.1 * 65536 / r.2).toNat

/-- A solve starts with the Square's outputs of the cycle, or with those that stand for them: READY clears until its result is written
(R189). DESIGN CHOICE, log entry 83. -/
def State.solveStarts (s : State) : State := { s with solver := { s.solver with ready := false } }

/-- SQUARE_RUN (R194, R202 to R215, R219): once a cycle; after SQ_LATE the previous outputs stand for the cycle (R195). -/
def squareRun (s : State) : State :=
  if s.dev.phase ≠ .up ∨ !s.squareOn ∨ s.square.doneCycle = some s.cycle ∨ s.square.late then s
  else
    let s := s.takeVolumes
    let l := s.elems
    let ps := s.elemPairs l
    let zs := s.zonePairs l
    let nears := ps.map (fun p => (p, meet (p.1.data ++ p.2.data) p.1.geo p.2.geo))
    let zNears := zs.map (fun p => (p, meet (p.1.data ++ s.zone p.2) p.1.geo (zoneGeo (s.zone p.2))))
    let inside := (zNears.filter (fun p => f32.le p.2.d 0)).filterMap (fun p => p.1.1.arm.map (fun a => (a, p.1.2)))
    let s := s.markZones inside
    let persons := nears.filterMap (fun p => match p.1.1.arm, p.1.2.vol with
      | some a, some 0 =>
        ((s.volumes).find? (fun r => 0x80 + tvId r == p.1.2.id)).map (fun r => (a, s.personScale a r p.2.d p.2.speed))
      | _, _ => none)
    let di := s.n kSqDi
    let c1 := (nears.filter (fun p => f32.lt p.2.d di)).map (fun p =>
      let people := p.1.1.vol == some 0 || p.1.2.vol == some 0
      ({ e1 := p.1.1.id, e2 := p.1.2.id, zone := false, people := people, arm1 := p.1.1.arm, arm2 := p.1.2.arm, d := p.2.d,
         ds := if people then s.n kSqDsPeople else s.n kSqDsOther, near := p.2 } : Cand))
    let c2 := (zNears.filter (fun p => f32.lt p.2.d di && !(p.1.1.arm.map (fun a => (s.held a).testBit p.1.2)).getD false)).map
      (fun p => ({ e1 := p.1.1.id, e2 := p.1.2, zone := true, people := false, arm1 := p.1.1.arm, arm2 := none, d := p.2.d,
                   ds := s.n kCrDs, near := p.2 } : Cand))
    let ranked := rank (c1 ++ c2)
    let m := s.n kSqRowMax
    let held := keptKeys s.square.keys s.cycle (s.n kSqKeyHold)
    let rows := assignKeys held (ranked.take m) (held.map SqKey.key)
    let folded := ranked.drop m
    let folds := folded.flatMap (fun c =>
      let v := c.near.speed
      let sc := if f32.lt 0 v then unit32 (f32.div (s.vAllow c) v) else f32one
      (c.arm1.toList ++ c.arm2.toList).map (fun a => (a, sc)))
    let sqRows := rows.map (fun p => ({ key := p.1, e1 := p.2.e1, e2 := p.2.e2, zone := p.2.zone, people := p.2.people,
                                         slack := s.slackOf p.2, d := p.2.d, b := s.rowBound p.2, coeff := p.2.coeff } : SqRow))
    let scales := (List.range 8).map (fun a => scaleWord (scaleOf (persons ++ folds) a))
    let keys := (held.filter (fun k => !rows.any (fun p => k.fits p.2))) ++
      rows.map (fun p => ({ key := p.1, e1 := p.2.e1, e2 := p.2.e2, zone := p.2.zone, last := s.cycle } : SqKey))
    let s := s.onSq (fun x => { x with rows := sortRows sqRows, keys := keys, doneCycle := some s.cycle, late := false })
    let s := ((s.setN kSqPairs (ps.length + zs.length)).setN kSqCand ranked.length).setObj kSqRows
      ((s.square.rows.map SqRow.bytes).flatten)
    let s := s.setObj kSqScale ((scales.map (le 4)).flatten)
    let s := ((s.setBit kSqStatus 0 (c1.any Cand.people)).setBit kSqStatus 1 (s.arms.any (fun a => scales.getD a 0 == 0))).solveStarts
    let s := if folded.isEmpty then s else (s.setBit kSqStatus 5 true).inc kSqOvfTotal
    s.countWork 81 [(0x70, 1, 1), (0x71, ps.length + zs.length, 16), (0x72, ranked.length, 16), (0x73, rows.length, 1), (0x74, folded.length, 16)]

/-- SQ_LATE (R195). -/
def sqLate (s : State) : State :=
  if s.squareOn ∧ s.square.doneCycle ≠ some s.cycle then
    ((s.onSq (fun x => { x with late := true })).setBit kSqStatus 2 true).solveStarts
  else s

/-- SQ_T_EST (R208): pairs of the configured elements and zones, groups closed, with 128 volumes but those that SQ_EXCLUDE lists, in whole
ns. -/
def State.sqTEst (s : State) : Nat :=
  let l := s.robotElems ++ s.twElemsIf (fun _ => true)
  let moving := l.filter (fun e => e.arm.isSome)
  let vols := (moving.map (fun e => ((List.range 128).filter (fun i => !s.excluded e.id (0x80 + i))).length)).sum
  let p := (s.elemPairs l).length + vols + (s.zonePairs l).length
  (3000 + 5 * ((p + 15) / 16) + 3) / 4

/-- The commit checks of the capsule set (R199), the first object that fails. -/
def squareCommitCheck (g : Nat → Bytes) : Option Nat :=
  let fin (r : Bytes) : Bool := (List.range 7).all (fun i => f32.isFinite (num r (4 + 4 * i) 4)) && f32.le 0 (num r 28 4) &&
    f32.le (num r 28 4) 0x40A00000
  let nj a := leVal (g (kArmNj a))
  match (List.range 8).find? (fun a => !(records 32 (g (kSqCaps a))).all (fun r =>
      (num r 0 1 == 0xFF || decide (num r 0 1 < nj a)) && fin r)) with
  | some a => some (kSqCaps a)
  | none =>
    if (records 32 (g kSqTw)).all (fun r =>
        decide (num r 0 1 ≤ 3) && fin r && (num r 0 1 != 2 || decide (num r 1 1 < 8) && nj (num r 1 1) != 0) &&
          (num r 0 1 != 3 || decide (num r 1 1 < 4) && leVal (g (kGrpMembers (num r 1 1))) != 0)) then none
    else some kSqTw

end Sys2Proof.Machine
end

