-- ==== Sys2Proof/Machine/Solver.lean ====
section
/-! DEFINITION. The whole-cell solver (R164 to R193): the problem, its scaling, factorisation, iterations, residuals, fallback,
warm start and mailbox. Sums and matrix products take the order of R178 (Machine/Dynamics.lean); every other expression is
evaluated as it is written, each operation rounded once (log entry 33). -/

namespace Sys2Proof.Machine

/-! ### The problem (R167 to R174) -/

/-- A problem in unscaled units: variable ids with their scales, H and g, equality rows, inequality rows with their bounds. -/
structure Prob where
  vars : List Nat
  scale : List Nat
  h : List (List Nat)
  g : List Nat
  eqIds : List Nat
  ae : List (List Nat)
  be : List Nat
  inIds : List Nat
  c : List (List Nat)
  lo : List Nat
  hi : List Nat
  conflict : Bool
deriving DecidableEq, Repr

/-- Enabled slacks in ascending index. -/
def State.slacks (s : State) : List Nat := bitsOf 64 (s.n kSolverSlackMap)

/-- VEL_MAX and ACC_MAX of a joint slot. -/
def State.velMax (s : State) (j : Nat) : Nat := num (s.joint j) 36 4
def State.accMax (s : State) (j : Nat) : Nat := num (s.joint j) 40 4

/-- FLAGS bit CONT of a joint slot. -/
def State.cont (s : State) (j : Nat) : Bool := (num (s.joint j) 1 1).testBit 0

/-- Bounds of a joint's acceleration and whether they conflict (R172). -/
def State.jointBounds (s : State) (j : Nat) : Nat × Nat × Bool :=
  let p := s.solver.q.getD j 0
  let v := s.solver.v.getD j 0
  let t := s.t32
  let am := s.accMax j
  let vm := s.velMax j
  let hi := f32.minV am (f32.div (f32.sub vm v) t)
  let lo := f32.maxV (f32.neg am) (f32.div (f32.sub (f32.neg vm) v) t)
  let two := 0x40000000
  let pn := f32.add p (f32.mul v t)
  let brake (d : Nat) := f32.sqrt (f32.mul (f32.mul two am) (f32.maxV d 0))
  let dp := f32.sub (num (s.joint j) 32 4) pn
  let dn := f32.sub pn (num (s.joint j) 28 4)
  let hi := if s.cont j then hi else f32.minV hi (f32.div (f32.sub (brake dp) v) t)
  let lo := if s.cont j then lo else f32.maxV lo (f32.div (f32.sub (f32.neg (brake dn)) v) t)
  if f32.lt hi lo then
    let b := f32.minV (f32.maxV (f32.div (f32.neg v) t) (f32.neg am)) am
    (b, b, true)
  else (lo, hi, false)

/-- Correction channels that are on or deliver an output for an arm. DEDUCED, log entry 33. -/
def State.activeHcs (s : State) (a : Nat) : List Nat :=
  (List.range 32).filter (fun c => s.n (kHcArm c) == a && (s.n (kHcCtrl c) == 1 || !f32.eqv (s.n (kHcOut c)) 0))

/-- δ_a of R163: the outputs summed by axis in ascending channel, those of the tool axes turned into the cell frame. -/
def State.hcOffset (s : State) (a : Nat) : Bytes :=
  let sum (ax : Nat) : Nat := ((s.activeHcs a).filter (fun c => s.n (kHcAxis c) == ax)).foldl (fun x c => f32.add x (s.n (kHcOut c))) 0
  let tool := poseTurn (s.obj (kToolPose a)) (((List.range 3).map (fun i => le 4 (sum i))).flatten)
  ((List.range 3).map (fun i => le 4 (f32.add (num tool (4 * i) 4) (sum (4 + i))))).flatten

/-- Δq of a joint (R169). -/
def State.deltaQ (s : State) (j : Nat) : Nat :=
  let a := j / 8
  if (s.activeHcs a).isEmpty then 0
  else Machine.deltaQ (s.obj (kArmKin a)) (armVals s.solver.qm a) (s.n (kIkLambda a)) (s.hcOffset a) (j % 8)

/-- A difference of joint positions; with CONT reduced into (−π, π] (R169, R244). -/
def State.wrapDiff (s : State) (j e : Nat) : Nat := if s.cont j && f32.lt 0x40490FDA (f32.abs e) then reduceAngle e else e

/-- The reference acceleration of a joint (R169). -/
def State.reference (s : State) (j : Nat) : Nat :=
  let a := j / 8
  let sg := f32.ofRatio (s.n (kSigma a)) 65536
  let dsg := f32.div (f32.ofRatio ((s.n (kSigma a) : Int) - (s.mot a).sigmaPrev) 65536) s.t32
  let q1 := s.sample j 1
  let qn := s.sample j 0
  let qc := s.solver.q.getD j 0
  let e := if s.cont j then f32.add (s.wrapDiff j (f32.sub qn qc)) (s.deltaQ j) else f32.sub (f32.add qn (s.deltaQ j)) qc
  let d := f32.sub (f32.mul sg q1) (s.solver.v.getD j 0)
  f32.add (f32.add (f32.add (f32.mul (f32.mul sg sg) (s.sample j 2)) (f32.mul dsg q1)) (f32.mul (s.n kSolverKp) e))
    (f32.mul (s.n kSolverKd) d)

/-- M_a and h_a of an arm (R168). -/
def State.mass (s : State) (a : Nat) : List (List Nat) := massMatrix (s.obj (kArmKin a)) (armVals s.solver.qm a)
def State.effortOf (s : State) (a : Nat) : List Nat :=
  effort (s.obj (kArmKin a)) (armVals s.solver.qm a) (armVals s.solver.v a) (s.obj kSolverGravity)

/-- Weights of a joint slot and of a slack. -/
def State.wJoint (s : State) (j : Nat) : Nat := s.sub kSolverWJoint (4 * j) 4
def State.wSlack (s : State) (i k : Nat) : Nat := s.sub kSolverWSlack (8 * i + 4 * k) 4

/-- Entries of H and g of an arm's block (R170), by joint within the arm. DEDUCED, log entry 33. -/
def State.hEntry (s : State) (a i j : Nat) : Nat :=
  let m := s.mass a
  let x := f32.mul (s.n kSolverWEff) (dot (col m i) (col m j))
  if i = j then f32.add (s.wJoint (8 * a + i)) x else x
def State.gEntry (s : State) (a i : Nat) : Nat :=
  let j := 8 * a + i
  f32.add (f32.mul (f32.neg (s.wJoint j)) (s.reference j)) (f32.mul (s.n kSolverWEff) (dot (col (s.mass a) i) (s.effortOf a)))

/-- Members of closed groups other than their leaders, ascending, with their group. -/
def State.followers (s : State) : List (Nat × Nat) :=
  (List.range 8).filterMap (fun a => match s.groupOf a with
    | some g => if s.leader g = a then none else some (a, g)
    | none => none)

/-- What an arm of a group gives to the rows of a follower (R171). -/
def State.groupArm (s : State) (b g : Nat) : GrpArm :=
  ⟨s.obj (kArmKin b), armVals s.solver.qm b, armVals s.solver.q b, armVals s.solver.v b, slice (s.obj (kGrpGrasp g)) (28 * b) 28⟩

/-- The entry of variable `v` in equality row `k` of a follower. -/
def State.eqEntry (s : State) (a g k v : Nat) : Nat :=
  if 64 ≤ v then 0
  else if v / 8 = a then groupCoeff (s.groupArm a g) (s.groupArm (s.leader g) g) k (v % 8)
  else if v / 8 = s.leader g then f32.neg (groupCoeff (s.groupArm (s.leader g) g) (s.groupArm (s.leader g) g) k (v % 8))
  else 0

/-- b_e of an equality row of a follower. -/
def State.eqBound (s : State) (a g k : Nat) : Nat :=
  groupBound (s.groupArm a g) (s.groupArm (s.leader g) g) (s.n (kGrpKp g)) (s.n (kGrpKd g)) k

/-- The entry of a variable in a Square row (R173). -/
def sqEntry (r : SqRow) (v : Nat) : Nat :=
  if 64 ≤ v then (if v - 64 = r.slack then f32one else 0)
  else ((r.coeff.find? (fun p => p.1 == v)).map Prod.snd).getD 0

/-- The problem of the present cycle (R167 to R174). DEDUCED, log entry 33. -/
def State.problem (s : State) : Prob :=
  let js := s.joints
  let sl := s.slacks
  let vars := js ++ sl.map (· + 64)
  let smax := s.n kSolverSlackMax
  let bounds := js.map s.jointBounds
  let fl := s.followers
  let rows := s.square.rows
  { vars := vars
    scale := js.map s.accMax ++ sl.map (fun _ => smax)
    h := vars.map (fun v => vars.map (fun w =>
      if v < 64 ∧ w < 64 then (if v / 8 = w / 8 then s.hEntry (v / 8) (v % 8) (w % 8) else 0)
      else if v = w then s.wSlack (v - 64) 0 else 0))
    g := vars.map (fun v => if v < 64 then s.gEntry (v / 8) (v % 8) else s.wSlack (v - 64) 1)
    eqIds := fl.flatMap (fun p => (List.range 6).map (fun k => 0x200 + 8 * p.1 + k))
    ae := fl.flatMap (fun p => (List.range 6).map (fun k => vars.map (s.eqEntry p.1 p.2 k)))
    be := fl.flatMap (fun p => (List.range 6).map (fun k => s.eqBound p.1 p.2 k))
    inIds := vars.map (· + 0x100) ++ rows.map (fun r => 0x1000 + r.key)
    c := vars.map (fun v => vars.map (fun w => if v = w then f32one else 0)) ++ rows.map (fun r => vars.map (sqEntry r))
    lo := bounds.map Prod.fst ++ sl.map (fun _ => 0) ++ rows.map SqRow.b
    hi := bounds.map (fun b => b.2.1) ++ sl.map (fun _ => smax) ++ rows.map (fun _ => f32.infBits)
    conflict := bounds.any (fun b => b.2.2) }

/-- Element by element. -/
def zipOp (f : Nat → Nat → Nat) (a b : List Nat) : List Nat := (a.zip b).map (fun p => f p.1 p.2)

/-- Largest magnitude of a vector. -/
def normMax (l : List Nat) : Nat := l.foldl (fun m x => f32.maxV m (f32.abs x)) 0

/-- The factor of a row (R175). -/
def rowFactor (r : List Nat) : Nat := let m := normMax r; if f32.eqv m 0 then f32one else m

/-- The scaled problem, with the factors of its equality and inequality rows (R175). -/
structure Scaled where
  p : Prob
  fe : List Nat
  fi : List Nat
deriving DecidableEq, Repr

/-- Scaling: first the variables, then the rows. DEDUCED, log entry 33. -/
def Prob.scaled (p : Prob) : Scaled :=
  let ae := p.ae.map (fun r => zipOp f32.mul r p.scale)
  let c := p.c.map (fun r => zipOp f32.mul r p.scale)
  let fe := ae.map rowFactor
  let fi := c.map rowFactor
  let rows (m : List (List Nat)) (f : List Nat) : List (List Nat) := (m.zip f).map (fun q => q.1.map (fun x => f32.div x q.2))
  { p := { p with
      h := (p.h.zip p.scale).map (fun q => zipOp f32.mul (q.1.map (fun x => f32.mul x q.2)) p.scale)
      g := zipOp f32.mul p.g p.scale
      ae := rows ae fe
      be := zipOp f32.div p.be fe
      c := rows c fi
      lo := zipOp f32.div p.lo fi
      hi := zipOp f32.div p.hi fi }
    fe := fe
    fi := fi }

/-- INPUT_BAD (R182): bound rows come first, and only a Square row's upper bound is infinite. DEDUCED, log entry 33. -/
def Prob.bad (p : Prob) : Bool :=
  let fin := List.all
  !(p.h.all (fun r => fin r f32.isFinite) && fin p.g f32.isFinite && p.ae.all (fun r => fin r f32.isFinite) &&
    fin p.be f32.isFinite && p.c.all (fun r => fin r f32.isFinite) && fin p.lo f32.isFinite &&
    fin (p.hi.take p.vars.length) f32.isFinite)

/-- The structure signature (R185). -/
def State.signature (s : State) (p : Prob) : Nat :=
  crc32c (le 1 (maskOf s.arms) ++ ((List.range 4).map (fun g => le 1 (if s.n (kGrpState g) = 1 then s.n (kGrpMembers g) else 0))).flatten ++
    le 2 p.vars.length ++ le 2 p.eqIds.length ++ le 2 p.inIds.length ++ (p.vars.map (le 2)).flatten ++
    ((p.eqIds ++ p.inIds).map (le 2)).flatten)

/-! ### Factorisation (R176, R177) -/

/-- Rows of the KKT matrix up to the diagonal. -/
def Prob.kkt (p : Prob) (sig rho rhoE : Nat) : List (List Nat) :=
  let n := p.vars.length
  let cols := (List.range n).map (col p.c)
  let prim := (p.h.zipIdx).map (fun q => (List.range (q.2 + 1)).map (fun j =>
    let x := q.1.getD j 0
    f32.add (if j = q.2 then f32.add x sig else x) (f32.mul rho (dot (cols.getD q.2 []) (cols.getD j [])))))
  let m := p.ae.length
  prim ++ (p.ae.zipIdx).map (fun q => q.1 ++ (List.range (q.2 + 1)).map (fun j =>
    if j = q.2 ∧ q.2 < m then f32.neg (f32.div f32one rhoE) else 0))

/-- The factors so far, with the replaced pivots: counts and first rows. -/
structure Fact where
  l : List (List Nat)
  d : List Nat
  tiny : Nat
  tinyFirst : Nat
  zero : Nat
  zeroFirst : Nat
deriving DecidableEq, Repr

/-- Entries of row `i` of L from column 0 on: `k` is the row of the KKT matrix. -/
def factorRow (f : Fact) (k : List Nat) : List Nat :=
  (f.l.zip f.d).foldl (fun row q =>
    -- column j = row.length, with row j of L and D[j]
    let j := row.length
    let ld := zipOp f32.mul q.1 f.d
    row ++ [f32.div (f32.sub (k.getD j 0) (dot row ld)) q.2]) []

/-- One row of the factorisation: `n` variables, ε_piv. -/
def factorStep (n eps : Nat) (f : Fact) (k : List Nat) : Fact :=
  let j := f.d.length
  let row := factorRow f k
  let d := f32.sub (k.getD j 0) (dot row (zipOp f32.mul row f.d))
  let se := if j < n then eps else f32.neg eps
  let wrong := if j < n then f32.lt d 0 else f32.lt 0 d
  if f32.eqv d 0 then
    { f with l := f.l ++ [row], d := f.d ++ [se], zero := f.zero + 1, zeroFirst := if f.zero = 0 then j else f.zeroFirst }
  else if f32.lt (f32.abs d) eps ∨ wrong then
    { f with l := f.l ++ [row], d := f.d ++ [se], tiny := f.tiny + 1, tinyFirst := if f.tiny = 0 then j else f.tinyFirst }
  else { f with l := f.l ++ [row], d := f.d ++ [d] }

/-- L and D of a KKT matrix. DEDUCED, log entry 33. -/
def factorise (n : Nat) (k : List (List Nat)) : Fact :=
  let eps := f32.mul 0x35800000 (normMax (k.zipIdx.map (fun q => q.1.getD q.2 0)))
  k.foldl (factorStep n eps) ⟨[], [], 0, 0xFFFF, 0, 0xFFFF⟩

/-- Solves L D Lᵀ x = r. -/
def Fact.solve (f : Fact) (r : List Nat) : List Nat :=
  let w := (f.l.zip r).foldl (fun w q => w ++ [f32.sub q.2 (dot q.1 w)]) []
  let v := zipOp f32.div w f.d
  (v.zipIdx.reverse).foldl (fun (x : List Nat) q =>
    let lower := col (f.l.drop (q.2 + 1)) q.2
    f32.sub q.1 (sumAt (List.replicate (q.2 + 1) none ++ (lower.zip x).map some)) :: x) []

/-! ### Iterations (R176) -/

/-- x, z, y and ν. -/
structure Iter where
  x : List Nat
  z : List Nat
  y : List Nat
  nu : List Nat
deriving DecidableEq, Repr

/-- Parameters of the iterations: σ, ρ, ρ_e, α. -/
structure SolPar where
  sig : Nat
  rho : Nat
  rhoE : Nat
  al : Nat
deriving DecidableEq, Repr

/-- One iteration. DEDUCED, log entry 33. -/
def iterate (p : Prob) (a : SolPar) (f : Fact) (s : Iter) : Iter :=
  let n := p.vars.length
  let w := zipOp (fun z y => f32.sub (f32.mul a.rho z) y) s.z s.y
  let r1 := ((List.range n).map (fun i =>
    f32.add (f32.sub (f32.mul a.sig (s.x.getD i 0)) (p.g.getD i 0)) (dot (col p.c i) w)))
  let r2 := zipOp (fun b v => f32.sub b (f32.div v a.rhoE)) p.be s.nu
  let t := f.solve (r1 ++ r2)
  let xt := t.take n
  let zt := p.c.map (fun r => dot r xt)
  let mix := zipOp (fun u v => f32.add (f32.mul a.al u) (f32.mul (f32.sub f32one a.al) v))
  let zr := mix zt s.z
  let z := zipOp f32.minV (zipOp f32.maxV (zipOp (fun r y => f32.add r (f32.div y a.rho)) zr s.y) p.lo) p.hi
  { x := mix xt s.x
    z := z
    y := zipOp f32.add s.y ((zipOp f32.sub zr z).map (f32.mul a.rho))
    nu := t.drop n }

/-- `k` iterations. -/
def iterations (p : Prob) (a : SolPar) (f : Fact) : Nat → Iter → Iter
  | 0, s => s
  | k + 1, s => iterations p a f k (iterate p a f s)

/-! ### Start values (R186) -/

/-- The value kept for an id. -/
def byId (ids vals : List Nat) (i : Nat) : Nat := (((ids.zip vals).find? (fun p => p.1 == i)).map Prod.snd).getD 0

/-- Start values in scaled units and the WARM code. -/
def startValues (w : Option Warm) (sig : Nat) (q : Scaled) : Iter × Nat :=
  let p := q.p
  let zero (l : List Nat) : List Nat := l.map (fun _ => 0)
  let cold : Iter := ⟨zero p.vars, zero p.inIds, zero p.inIds, zero p.eqIds⟩
  match w with
  | none => (cold, 2)
  | some w =>
    let common := p.vars.any w.varIds.contains || p.eqIds.any w.eqIds.contains || p.inIds.any w.inIds.contains
    if w.sig ≠ sig ∧ !common then (cold, 2)
    else
      (⟨zipOp f32.div (p.vars.map (byId w.varIds w.x)) p.scale, zipOp f32.div (p.inIds.map (byId w.inIds w.z)) q.fi,
        zipOp f32.mul (p.inIds.map (byId w.inIds w.y)) q.fi, zipOp f32.mul (p.eqIds.map (byId w.eqIds w.nu)) q.fe⟩,
       if w.sig = sig then 0 else 1)

/-! ### Committed state (R166) -/

/-- Committed accelerations by joint slot advance the committed state. -/
def State.advance (s : State) (acc : List (Nat × Nat)) : State :=
  let t := s.t32
  let half := 0x3F000000
  let s := acc.foldl (fun (s : State) p =>
    let q := s.solver.q.getD p.1 0
    let v := s.solver.v.getD p.1 0
    let q' := f32.add (f32.add q (f32.mul v t)) (f32.mul (f32.mul half p.2) (f32.mul t t))
    let v' := f32.add v (f32.mul p.2 t)
    { s with solver := { s.solver with
        q := modAt s.solver.q p.1 (fun _ => q'), v := modAt s.solver.v p.1 (fun _ => v'), a := modAt s.solver.a p.1 (fun _ => p.2) } }) s
  s.arms.foldl (fun s a => s.setObj (kToolPose a) (fit 28 (toolPose (s.obj (kArmKin a)) (armVals s.solver.q a)))) s

/-- Apply time of a result of cycle `c` in ns (R13). -/
def State.applyAt (s : State) (c : Nat) : Nat := (c + 1) * s.tns + s.tns / 2

/-- Accelerations at Tier 2 (R165): the reference clamped into the bound row. -/
def State.bypassAcc (s : State) (j : Nat) : Nat :=
  let b := s.jointBounds j
  f32.minV (f32.maxV (s.reference j) b.1) b.2.1

/-- The fallback output (R183). -/
def State.fallbackAcc (s : State) : List (Nat × Nat) :=
  let js := s.joints
  let v (j : Nat) := s.solver.v.getD j 0
  let kappa := js.foldl (fun k j =>
    if f32.eqv (v j) 0 then k else f32.minV k (f32.div (f32.mul (s.n kSolverFbDecel) (s.accMax j)) (f32.abs (v j)))) (f32.div f32one s.t32)
  js.map (fun j => let b := s.jointBounds j; (j, f32.minV (f32.maxV (f32.mul (f32.neg kappa) (v j)) b.1) b.2.1))

/-! ### Results (R187 to R191) -/

/-- What a solve reports: the fields of R190 that it computes. -/
structure Report where
  warm : Nat
  flags : Nat
  tinyFirst : Nat
  tiny : Nat
  zeroFirst : Nat
  zero : Nat
  pri : Nat
  dua : Nat
  eq : Nat
  obj : Nat
  clip : Nat
deriving DecidableEq, Repr

/-- A report of no solve. -/
def Report.none (flags : Nat) : Report := ⟨0, flags, 0xFFFF, 0, 0xFFFF, 0, 0, 0, 0, 0, 0⟩

/-- Bits of the flags word of R190. -/
def fClipped : Nat := 11
def fConflict : Nat := 10
def fResHigh : Nat := 9
def fLate : Nat := 8
def fInputBad : Nat := 7
def fResultOvf : Nat := 6
def fFallback : Nat := 5
def fPivotZero : Nat := 4
def fPivotTiny : Nat := 3

/-- A result (R190). DEDUCED, log entry 33. -/
def State.resultBytes (s : State) (p : Prob) (sig k : Nat) (r : Report) (tSolve fbRun : Nat) (x : List Nat) : Bytes :=
  let b := le 4 s.seq32 ++ le 4 sig ++ le 1 p.vars.length ++ le 1 p.eqIds.length ++ le 2 p.inIds.length ++ le 1 k ++ le 1 r.warm ++
    le 2 r.flags ++ le 2 r.tinyFirst ++ le 2 r.tiny ++ le 2 r.zeroFirst ++ le 2 r.zero ++ le 4 r.pri ++ le 4 r.dua ++ le 4 r.eq ++
    le 4 r.obj ++ le 4 tSolve ++ le 1 (min fbRun 255) ++ [0] ++ le 2 r.clip ++ zeros 16 ++ (x.map (le 4)).flatten ++
    (p.vars.map (le 2)).flatten
  fit (roundUp 4 b.length) b

/-- Duals (R191). -/
def State.dualBytes (s : State) (nu y : List Nat) : Bytes :=
  le 4 s.seq32 ++ le 2 nu.length ++ le 2 y.length ++ zeros 8 ++ (nu.map (le 4)).flatten ++ (y.map (le 4)).flatten

/-- W1C bits of SOLVER_STATUS for a written result (R193). -/
def statusBits (flags : Nat) (warm : Nat) : Nat :=
  maskOf ((([(fClipped, 10), (fConflict, 7), (fResHigh, 6), (fInputBad, 5), (fLate, 4), (fFallback, 3), (fResultOvf, 2),
      (fPivotZero, 1), (fPivotTiny, 0)] : List (Nat × Nat)).filter (fun p => flags.testBit p.1)).map Prod.snd) +
    (if warm = 2 then 512 else if warm = 1 then 256 else 0)

/-- A result enters the mailbox: READY sets (R189), and the SOLVER interrupt (R418). -/
def State.publish (s : State) (result duals : Bytes) (flags warm sig : Nat) : State :=
  let x := s.solver
  let s := { s with solver := { x with
    result := result, prevResult := x.result, duals := duals, prevDuals := x.duals, ready := true, doneCycle := some s.cycle } }
  (((s.setN kSolverSeq s.seq32).setN kSolverSig sig).setN kSolverStatus (s.n kSolverStatus ||| statusBits flags warm)).interrupt 4

/-- A rejected result (R182 to R184): fallback output, records, the third in a row a stop demand. DEDUCED, log entry 33. -/
def State.reject (s : State) (p : Prob) (sig : Nat) (r : Report) (nu y : List Nat) : State :=
  let k := s.n kSolverIterActive
  let r := { r with flags := r.flags ||| 2 ^ fFallback }
  let acc := s.fallbackAcc
  let x := p.vars.zipIdx.map (fun v => if v.1 < 64 then byId (acc.map Prod.fst) (acc.map Prod.snd) v.1
    else Config.freeNat (s.free + v.2 + 1) % 2 ^ 32)
  let ts := Config.freeNat s.free % 2 ^ 32
  let run := s.solver.fbRun + 1
  let result := s.resultBytes p sig k r ts run x
  let s := { s with free := s.free + 1 + p.vars.length, solver := { s.solver with warm := none, fbRun := run } }
  let s := (s.publish result (s.dualBytes nu y) r.flags r.warm sig).log 0x0320 (le 2 r.flags ++ [0, 0] ++ le 8 s.cycle)
  let s := s.inc kSolverFbTotal
  let s := if r.flags.testBit fLate then s.inc kSolverLateTotal else s
  let s := s.advance acc
  if run = 3 then (s.log 0x0321 (le 8 s.cycle)).stopDemand else s

/-- The drift of closed groups beyond its tolerance (R157): a stop demand, and the group's move ends. -/
def State.driftCheck (s : State) : State :=
  s.followers.foldl (fun s p =>
    let d := groupDrift (s.groupArm p.1 p.2) (s.groupArm (s.leader p.2) p.2)
    if f32.lt (s.n (kGrpTolP p.2)) d.1 ∨ f32.lt (s.n (kGrpTolR p.2)) d.2 then
      (s.setGrpMov p.2 ((s.grpMov p.2).fail 4 4)).stopDemand
    else s) s

/-- A solve runs in this cycle (R164), at the tier in use until standstill (R19, R184), while the Motion Quarter has its clocks
(R481). -/
def State.solves (s : State) : Bool :=
  s.dev.phase == .up && s.inMotion && s.tierRun == 3 && !s.mon.stopped && s.solver.doneCycle != some s.cycle

/-- Flags that a problem gives a result before it is solved. -/
def Prob.flags (p : Prob) : Nat := if p.conflict then 2 ^ fConflict else 0

/-- The accepted or rejected end of the iterations (R182, R184, R186 to R188). -/
def State.finishSolve (s : State) (p : Prob) (q : Scaled) (sig warm : Nat) (f : Fact) (it : Iter) : State :=
  let sp := q.p
  let n := p.vars.length
  let pri := normMax (zipOp f32.sub (sp.c.map (fun r => dot r it.x)) it.z)
  let eqv := normMax (zipOp f32.sub (sp.ae.map (fun r => dot r it.x)) sp.be)
  let dua := normMax ((List.range n).map (fun i =>
    f32.add (f32.add (f32.add (dot (sp.h.getD i []) it.x) (sp.g.getD i 0)) (dot (col sp.c i) it.y)) (dot (col sp.ae i) it.nu)))
  let warnAt := s.n kSolverResWarn
  let high := f32.lt warnAt pri || f32.lt warnAt eqv || f32.lt warnAt dua
  let x := zipOp f32.mul it.x p.scale
  let ovf := (x.zip p.scale).any (fun v => !f32.isFinite v.1 || f32.lt (f32.mul 0x4B800000 v.2) (f32.abs v.1))
  let clamped := ((x.zip p.vars).zip (p.lo.zip p.hi)).map (fun v =>
    if v.1.2 < 64 then f32.minV (f32.maxV v.1.1 v.2.1) v.2.2 else v.1.1)
  let clip := ((x.zip clamped).filter (fun v => !f32.eqv v.1 v.2)).length
  let hx := p.h.map (fun r => dot r clamped)
  let obj := f32.add (f32.mul 0x3F000000 (dot clamped hx)) (dot p.g clamped)
  let flags := p.flags + (if high then 2 ^ fResHigh else 0) + (if f.zero ≠ 0 then 2 ^ fPivotZero else 0) +
    (if f.tiny ≠ 0 then 2 ^ fPivotTiny else 0)
  let r : Report := ⟨warm, flags, f.tinyFirst, f.tiny, f.zeroFirst, f.zero, pri, dua, eqv, obj, 0⟩
  let y := zipOp f32.div it.y q.fi
  let nu := zipOp f32.div it.nu q.fe
  if ovf then s.reject p sig { r with flags := flags ||| 2 ^ fResultOvf } nu y
  else
    let r := { r with clip := clip, flags := if clip = 0 then flags else flags ||| 2 ^ fClipped }
    let (ts, s) := s.fresh
    let again := s.solver.fbRun != 0
    let w : Warm := ⟨sig, p.vars, p.eqIds, p.inIds, x, zipOp f32.mul it.z q.fi, y, nu⟩
    let result := s.resultBytes p sig (s.n kSolverIterActive) r (ts % 2 ^ 32) 0 clamped
    let s := { s with solver := { s.solver with warm := some w, fbRun := 0 } }
    let s := s.publish result (s.dualBytes nu y) r.flags warm sig
    let s := s.advance ((p.vars.zip clamped).filter (fun v => decide (v.1 < 64)))
    if again then s.reseedAll false else s

/-- Parameters of R176 in force. -/
def State.solPar (s : State) : SolPar := ⟨s.n kSolverSigma, s.n kSolverRho, s.n kSolverRhoEq, s.n kSolverAlpha⟩

/-- SOLVE (R164, R176): one complete solve, its result written. DEDUCED, log entry 33. -/
def solve (s : State) : State :=
  if !s.solves then s
  else
    let s := s.driftCheck
    let p := s.problem
    let q := p.scaled
    let sig := s.signature p
    let zero (l : List Nat) : List Nat := l.map (fun _ => 0)
    if q.p.bad then s.reject p sig (Report.none (p.flags + 2 ^ fInputBad)) (zero p.eqIds) (zero p.inIds)
    else
      let a := s.solPar
      let f := factorise p.vars.length (q.p.kkt a.sig a.rho a.rhoE)
      let st := startValues s.solver.warm sig q
      s.finishSolve p q sig st.2 f (iterations q.p a f (s.n kSolverIterActive) st.1)

/-- SOLVER_LATE (R182): the result of the cycle was not written in time. DEDUCED, log entry 33. -/
def solverLate (s : State) : State :=
  if !s.solves then s
  else
    let p := s.problem
    let zero (l : List Nat) : List Nat := l.map (fun _ => 0)
    let bad := if p.scaled.p.bad then 2 ^ fInputBad else 0
    s.reject p (s.signature p) (Report.none (p.flags + 2 ^ fLate + bad)) (zero p.eqIds) (zero p.inIds)

/-! ### Time bound and commit check (R179 to R181) -/

/-- The bound of R180 in whole ns, rounded up; m_i inequality rows, K iterations. -/
def solverBound (n me mi k : Nat) : Nat :=
  let bn := (n + 31) / 32
  let bN := (n + me + 31) / 32
  (4000 * 3024 + 125 * 756 * bn ^ 2 * ((mi + 63) / 64) + 500 * 112 * bN ^ 3 +
    k * (100 * 3024 + 25 * 432 * (bN ^ 2 + bn * ((mi + 31) / 32))) + 125 * 189 * n + 3023) / 3024

/-- SOLVER_T_EST of a configuration (R181). DEDUCED, log entry 18. -/
def solverEst (g : Nat → Bytes) : Nat :=
  let v k := leVal (g k)
  let n := ((List.range 8).map (fun a => min (v (kArmNj a)) 8)).sum + (bitsOf 64 (v kSolverSlackMap)).length
  let extra := ((List.range 4).map (fun i =>
    ((bitsOf 8 (v (kGrpMembers i))).filter (fun a => v (kArmNj a) != 0)).length - 1)).sum
  solverBound n (6 * extra) (n + v kSqRowMax) (v kSolverIter)

/-- K follows the shedding stage (R179): 8 from stage S2 on. -/
def State.setIterActive (s : State) : State := s.setN kSolverIterActive (if 2 ≤ s.n kShedStage then 8 else s.n kSolverIter)

/-- BYPASSED of SOLVER_STATUS (R165, R193). -/
def State.bypassed (s : State) : Bool := s.inMotion && s.tierRun == 2

end Sys2Proof.Machine
end

