-- ==== Sys2Proof/Machine/Axes.lean ====
section
/-! DEFINITION. Auxiliary axes (chapter "Position feedback and auxiliary axes", R297 to R307): moves, commanded positions, steps,
microstep resolution, standstill and stops; and the move commands of arms, groups and axes. -/

namespace Sys2Proof.Machine

/-! ### State of an axis -/

/-- An axis with nothing in it. -/
def AxSt.reset : AxSt :=
  { motion := .reset, queued := none, due := [], hist := [], vel := 0, msPending := none, step := false, dir := false, en := false,
    ms := 0, deferred := none, waitQ := none, rise := none, chgAt := none, stopped := false }

/-- An axis, and its change. -/
def State.ax (s : State) (n : Nat) : AxSt := s.axes.axes.getD n .reset
def State.onAx (s : State) (n : Nat) (f : AxSt → AxSt) : State := s.onAxes (fun x => { x with axes := modAt x.axes n f })

/-- An axis as a mover, and its return. -/
def State.axMov (s : State) (n : Nat) : Mov := ⟨(s.ax n).motion, (s.ax n).queued, s.obj (kAxMoveStatus n)⟩
def State.setAxMov (s : State) (n : Nat) (x : Mov) : State :=
  (s.onAx n (fun y => { y with motion := x.motion, queued := x.queued })).setObj (kAxMoveStatus n) x.stat

/-- An axis is in use (R306). -/
def State.axUsed (s : State) (n : Nat) : Bool := s.n (kAxMode n) == 1

/-- Bits of AX_STATUS (R307). -/
def axMoving : Nat := 0
def axEnabled : Nat := 1
def axStandstill : Nat := 2
def axWaking : Nat := 3
def axMsPending : Nat := 4
def axRateCap : Nat := 5
def axPosUnsure : Nat := 6

/-- Drives EN, with ENABLED. -/
def State.axEn (s : State) (n : Nat) (v : Bool) : State := (s.onAx n (fun x => { x with en := v })).setBit (kAxStatus n) axEnabled v

/-- DIR or MS may change at an instant, ns, or AX_DIR_SETUP after the last falling edge of STEP, whichever is later (R300). -/
def State.axChangeAt (s : State) (n t : Nat) : Nat :=
  ((s.ax n).rise.map (fun r => Nat.max t (r + s.n (kAxStepHigh n) + s.n (kAxDirSetup n)))).getD t

/-- The MS balls take a code at the first instant from `t` on at which they may (R300, R302). -/
def State.axMs (s : State) (n code t : Nat) : State :=
  if (s.ax n).ms = code then s
  else s.onAx n (fun x => { x with ms := code, chgAt := some (Nat.max (x.chgAt.getD 0) (s.axChangeAt n t)) })

/-- A code of AX_CODES. -/
def State.axCode (s : State) (n i : Nat) : Nat := s.sub (kAxCodes n) i 1 % 8

/-! ### Plans (R297) -/

/-- What a plan of an axis reads: its limits, the limit of DEGRADED when it holds, and the table of the descriptor.
DEDUCED, log entry 49. -/
def State.axPlan (s : State) (n : Nat) (d : Bytes) : PlanPar :=
  .axis { tns := s.tns, vmax := s.n (kAxVmax n), amax := s.n (kAxAmax n), jmax := s.n (kAxJmax n),
          cap := if s.dev.state = .degraded then some (s.n (kAxVDeg n)) else none, lo := s.n (kAxPosMin n), hi := s.n (kAxPosMax n),
          cont := s.n (kAxCont n) == 1, joinTol := s.n (kAxJoinTol n),
          table := if mvType d = 4 then s.obj (segKey (num d 32 2)) else [] }

/-- State at rest at a position, as a plan's start. -/
def restState (p : Nat) : Bytes := le 8 p ++ zeros 16

/-- A start state without velocity and acceleration. -/
def resting (b : Bytes) : Bool := f64.eqv (num b 8 8) 0 && f64.eqv (num b 16 8) 0

/-- Commanded state of an axis at a cycle: a queued move takes over at the end of the active one; one at rest without a motion
stays. -/
def State.axState (s : State) (n c : Nat) : Bytes :=
  let m := (s.axMov n).motionAt (s.axPlan n) c
  if m.kind = 0 ∧ resting m.start then m.start else m.at_ c

/-- In DEGRADED a table or a cam runs under AX_V_DEG (R298): its commanded position is held back. DESIGN CHOICE, log entry 82. -/
def State.axHeldBack (s : State) (n : Nat) : Bool :=
  s.dev.state == .degraded && ((s.ax n).motion.kind == 4 || (s.ax n).motion.kind == 5)

/-- The commanded state from which an axis is replanned: the motion's, or the one held back. DESIGN CHOICE, log entry 82. -/
def State.axNow (s : State) (n : Nat) : Bytes :=
  if s.axHeldBack n then le 8 (s.n (kAxPosCmd n)) ++ le 8 (s.ax n).vel ++ zeros 8 else s.axState n s.cycle

/-- A position that a table or a cam demands in DEGRADED: it is approached at AX_V_DEG at most, or while the axis is faster with a velocity
that falls at its limit (R298). DESIGN CHOICE, log entry 82. -/
def State.axReach (s : State) (n p : Nat) : Nat :=
  if !s.axHeldBack n then p
  else
    let old := s.n (kAxPosCmd n)
    let falls := f64.sub (f64.abs (s.ax n).vel) (f64.mul (f32.conv f64 (s.n (kAxAmax n))) s.t64)
    let most := f64.mul (f64.maxV (f32.conv f64 (s.n (kAxVDeg n))) falls) s.t64
    let d := f64.sub p old
    if f64.le (f64.abs d) most then p else f64.add old (if f64.lt d 0 then f64.neg most else most)

/-- An axis's motion to rest from a state, which then holds. -/
def State.axHold (s : State) (n : Nat) (b : Bytes) : Motion :=
  { startMotion 0 [] b b (s.axPlan n []) (s.cycle * 2 ^ 32) with done := true }

/-- The axis is brought to rest from its present state, and held. -/
def State.axRest (s : State) (n : Nat) : State :=
  s.onAx n (fun x => { x with motion := s.axHold n (s.axNow n) })

/-- A stop demand, STOP_REQ or shedding stage S3 (R299): the move ends and the axis stops at its full limits. -/
def State.axStop (s : State) (n : Nat) : State :=
  let s := s.setAxMov n ((s.axMov n).fail 3 3)
  let s := (s.onAx n (fun x => { x with due := [], deferred := none, waitQ := none })).setBit (kAxStatus n) axWaking false
  if s.axUsed n ∧ !(s.ax n).stopped then s.axRest n else s

/-- The stop of every axis. -/
def State.axStopAll (s : State) : State := (List.range 16).foldl (fun s n => s.axStop n) s

/-! ### Moves (R297, R298, R305) -/

/-- A JOINT target of an axis lies within its limits, unless it is continuous. -/
def State.axTargetOk (s : State) (n : Nat) (d : Bytes) : Bool :=
  let x := s.axMov n
  let ref := if mvFlag d 1 then (if mvFlag d 0 ∧ x.active then num x.motion.rest 0 8 else s.n (kAxPosCmd n)) else 0
  let p := f64.add ref (f32.conv f64 (num d 32 4))
  f32.isFinite (num d 32 4) && (s.n (kAxCont n) == 1 ||
    f64.le (f32.conv f64 (s.n (kAxPosMin n))) p && f64.le p (f32.conv f64 (s.n (kAxPosMax n))))

/-- Scaled limits of an axis; in DEGRADED at most AX_V_DEG (R298). -/
def State.axLimits (s : State) (n : Nat) (d : Bytes) : List (Rat × Rat) :=
  let v := rat32 (num d 4 4) * rat32 (s.n (kAxVmax n))
  let cap := rat32 (s.n (kAxVDeg n))
  [(if s.dev.state = .degraded ∧ cap < v then cap else v, rat32 (num d 8 4) * rat32 (s.n (kAxAmax n)))]

/-- The OUT_OF_RANGE cases of AX_MOVE (R297, R298). -/
def State.axMoveBad (s : State) (n : Nat) (d : Bytes) : Bool :=
  d.length != 96 || !([1, 4, 5, 6].contains (mvType d)) || !s.axUsed n || !(scaleOk d 4 && scaleOk d 8 && scaleOk d 12) ||
    (match mvType d with
     | 1 => !s.axTargetOk n d
     | 4 => !(decide (num d 32 2 < 256) && segUsable (s.obj (segKey (num d 32 2))) (s.axLimits n d))
     | 5 => !(decide (num d 32 2 < 256) && masterOk (num d 76 2) && !(s.obj (camKey (num d 32 2))).isEmpty &&
         !f32.eqv (num d 84 4) 0 && num d 76 2 != 0x1000 + n)
     | _ => false)

/-- The own checks of AX_MOVE (R298). DEDUCED, log entry 49. -/
def axMoveOwn (n : Nat) (d : Bytes) (s : State) : Nat :=
  if s.jogOnly then abSafety else if s.tierUse < 3 then abNoResource else if s.axMoveBad n d then abRange else 0

/-- The effect of AX_MOVE: the next cycle start applies it. -/
def axMoveEff (n : Nat) (d : Bytes) (s : State) : State := (storeWrite (0x6000 + n) 0x14 d s).onAx n (fun x => { x with due := x.due ++ [d] })

/-- An active cam move that has not engaged engages (R154). -/
def State.axCamStart (s : State) (n : Nat) : State :=
  let x := s.axMov n
  if x.motion.kind ≠ 5 ∨ !x.active ∨ x.motion.cam.isSome then s
  else
    let d := x.motion.desc
    let t := s.obj (camKey (num d 32 2))
    let m := s.master (num d 76 2) s.cycle
    match camEngage t d m (num x.motion.start 0 8) (f32.conv f64 (s.n (kAxJoinTol n))) with
    | some off =>
      let p := camSlave t d off (camX d m)
      s.setAxMov n { x with motion := { x.motion with
        cam := some (s.cycle, off), slave := p, start := le 8 p ++ le 8 (s.ax n).vel ++ zeros 8 } }
    | none => (s.setAxMov n (x.fail 4 2)).onAx n (fun y => { y with motion := s.axHold n (restState (num x.motion.start 0 8)) })

/-- A descriptor as an axis plans it: a STOP takes the full limits (R299). -/
def axDesc (d : Bytes) : Bytes := if mvType d = 6 then patch d 4 (le 4 f32one ++ le 4 f32one ++ le 4 f32one) else d

/-- One move descriptor enters an axis's motion. -/
def State.axTake (s : State) (n : Nat) (d : Bytes) : State :=
  (s.setAxMov n ((s.axMov n).take (axDesc d) (s.axNow n) (s.axPlan n d) s.cycle)).axCamStart n

/-- A move would change the commanded position. -/
def State.axChanges (s : State) (n : Nat) (d : Bytes) : Bool :=
  match mvType d with
  | 1 => if mvFlag d 1 then !f32.eqv (num d 32 4) 0 else !f64.eqv (f32.conv f64 (num d 32 4)) (s.n (kAxPosCmd n))
  | 6 => false
  | _ => true

/-- A move applied at a cycle start: in standstill it first wakes the axis (R305). -/
def State.axApply (s : State) (n : Nat) (d : Bytes) : State :=
  if s.bit (kAxStatus n) axStandstill ∧ s.axChanges n d then
    let wait := (s.n (kAxWakeTime n) * 1000 + s.tns - 1) / s.tns
    let s := ((s.axEn n true).axMs n (s.axCode n (s.n (kAxMsActive n))) (s.cycle * s.tns)).onAx n
      (fun x => { x with deferred := some (d, s.cycle + wait), waitQ := none })
    (s.setBit (kAxStatus n) axStandstill false).setBit (kAxStatus n) axWaking true
  else match (s.ax n).deferred with
    | some (_, c) =>
      if mvFlag d 0 then
        (s.onAx n (fun x => { x with waitQ := some d })).setObj (kAxMoveStatus n) (stQueued (stAccept (s.obj (kAxMoveStatus n))) (some d))
      else s.onAx n (fun x => { x with deferred := some (d, c), waitQ := none })
    | none => s.axTake n d

/-- AX_WAKE_DONE (R305): the deferred move starts, and the one queued behind it waits for its end (R140). -/
def axWakeDone (n : Fin 16) (s : State) : State :=
  let n := n.val
  match (s.ax n).deferred with
  | none => s
  | some (d, _) =>
    let q := (s.ax n).waitQ
    let s := ((s.onAx n (fun x => { x with deferred := none, waitQ := none })).setBit (kAxStatus n) axWaking false).axTake n d
    q.elim s (fun q => s.axTake n q)

/-! ### Standstill (R304) -/

/-- An axis applies its standstill mode. -/
def State.axStill (s : State) (n : Nat) : State :=
  let s := s.setBit (kAxStatus n) axStandstill true
  match s.n (kAxStillMode n) with
  | 0 => s.axEn n false
  | 1 => (s.axEn n true).axMs n (s.axCode n 6) (s.cycle * s.tns)
  | _ => (s.axEn n true).axMs n (s.axCode n 5) (s.cycle * s.tns)

/-- AX_IDLE (R304): the commanded position has not changed for AX_IDLE_TIME, whatever move is active. -/
def axIdle (n : Fin 16) (s : State) : State :=
  let n := n.val
  if !s.isIn [.run, .hold, .degraded] ∨ !s.axUsed n ∨ (s.ax n).stopped ∨ s.bit (kAxStatus n) axMoving ∨
      (s.ax n).deferred.isSome then s
  else s.axStill n

/-! ### Microstep resolution (R301, R302) -/

/-- Step size of a resolution index in 1/256 microsteps. -/
def msSize (k : Nat) : Nat := 4 ^ k

/-- Speed in full steps/s as a fraction: |velocity| × AX_SCALE. -/
def State.axSpeed (s : State) (n : Nat) : Nat × Nat :=
  let v := f64.ratio (f64.abs (s.ax n).vel)
  let k := f32.ratio (s.n (kAxScale n))
  (v.1.toNat * k.1.toNat, v.2 * k.2)

/-- A threshold U_k. -/
def State.msUp (s : State) (n k : Nat) : Nat := s.sub (kAxMsUp n) (4 * k) 4

/-- The wanted index: it rises, then falls, at most 4 times each. -/
def State.msRise (s : State) (n : Nat) (v : Nat × Nat) : Nat → Nat → Nat
  | 0, k => k
  | f + 1, k => if k < 4 ∧ s.msUp n k ≠ 0xFFFFFFFF ∧ s.msUp n k * v.2 ≤ v.1 then s.msRise n v f (k + 1) else k
def State.msFall (s : State) (n : Nat) (v : Nat × Nat) : Nat → Nat → Nat
  | 0, k => k
  | f + 1, k => if 0 < k ∧ v.1 * 1000 < s.msUp n (k - 1) * (1000 - s.n (kAxMsHyst n)) * v.2 then s.msFall n v f (k - 1) else k
def State.msWanted (s : State) (n : Nat) : Nat :=
  let v := s.axSpeed n
  let k := s.msFall n v 4 (s.msRise n v 4 (s.n (kAxMsActive n)))
  let r := s.n (kAxMsRange n)
  max (field r 0 3) (min k (field r 4 3))

/-- The MS balls show the active resolution: outside standstill, in the states in which R279 drives them. -/
def State.msShown (s : State) (n : Nat) : Bool := s.isIn [.ready, .run, .hold, .degraded] && !s.bit (kAxStatus n) axStandstill

/-- A pending change takes effect where the position is a multiple of the larger step size; the MS balls change at `t` at the earliest. -/
def State.msSettle (s : State) (n t : Nat) : State :=
  match (s.ax n).msPending with
  | none => s
  | some k =>
    if s.i (kAxPosOut n) % (max (msSize k) (msSize (s.n (kAxMsActive n))) : Nat) = 0 then
      let s := (s.setN (kAxMsActive n) k).setBit (kAxStatus n) axMsPending false
      let s := s.onAx n (fun x => { x with msPending := none })
      if s.msShown n then s.axMs n (s.axCode n k) t else s
    else s.setBit (kAxStatus n) axMsPending true

/-- The evaluation of a cycle (R301): it replaces a pending change. -/
def State.msEvaluate (s : State) (n : Nat) : State :=
  let k := s.msWanted n
  let same := k = s.n (kAxMsActive n)
  ((s.onAx n (fun x => { x with msPending := if same then none else some k })).setBit (kAxStatus n) axMsPending false).msSettle n
    (s.cycle * s.tns)

/-! ### Steps (R300) -/

/-- Commanded position at an instant in ns, in 1/256 microsteps, as a fraction. -/
def posAt (scale : Int × Nat) (hist : List (Nat × Nat)) (t : Nat) : Int × Nat :=
  let conv (p : Nat) : Int × Nat := let r := f64.ratio p; (r.1 * scale.1 * 256, r.2 * scale.2)
  match hist with
  | [] => (0, 1)
  | [(_, p)] => conv p
  | (t1, p1) :: (t0, p0) :: r =>
    if t1 ≤ t then conv p1
    else if t0 ≤ t then
      let a := conv p0
      let b := conv p1
      (a.1 * b.2 * ((t1 - t : Nat) : Int) + b.1 * a.2 * ((t - t0 : Nat) : Int), a.2 * b.2 * (t1 - t0))
    else posAt scale ((t0, p0) :: r) t

/-- Grid points between the emitted position and the line at an instant: positive where the line has passed the next one up.
DEDUCED, log entry 49. -/
def State.axDue (s : State) (n t : Nat) : Int :=
  let p := posAt (f32.ratio (s.n (kAxScale n))) (s.ax n).hist t
  let g : Int := msSize (s.n (kAxMsActive n))
  let x := s.i (kAxPosOut n)
  let d := p.1 - x * (p.2 : Int)
  if 0 ≤ d then d / (g * p.2) else -((-d) / (g * p.2))

/-- The torque grant of the axes: an arm that is not under STO of the Kerb, or no arm at all (DESIGN CHOICE, log entry 20). -/
def State.axTorque (s : State) : Bool := s.arms.isEmpty || s.arms.any (fun a => !(s.sarm a).stoH)

/-- An axis that still comes to rest after a stop that led to READY, or has not emitted all its steps (R299). DEDUCED, log entry 49. -/
def State.axRamps (s : State) (n : Nat) : Bool :=
  let m := (s.ax n).motion
  s.axUsed n && !(s.ax n).stopped && !s.bit (kAxStatus n) axStandstill &&
    (!(m.kind == 0 && resting m.start) && !m.over_ s.cycle || s.bit (kAxStatus n) axMoving || s.axDue n (s.applyAt s.cycle) != 0)

/-- The step generator runs (R279, R299): in READY only to finish a stop. -/
def State.axSteps (s : State) (n : Nat) : Bool :=
  (s.isIn [.run, .hold, .degraded] || s.dev.state == .ready && s.axRamps n) && s.axUsed n && !(s.ax n).stopped && (s.ax n).en && s.axTorque

/-- The limits of R300 allow a rising edge at `t` ns with DIR at `up`: the high and low time, 4 MHz, and the setup times of DIR and MS. A
new direction is set AX_DIR_SETUP before the edge. DESIGN CHOICE, log entry 82. -/
def State.axEdgeOk (s : State) (n t : Nat) (up : Bool) : Bool :=
  let x := s.ax n
  let h := s.n (kAxStepHigh n)
  let su := s.n (kAxDirSetup n)
  x.rise.all (fun r => decide (r + Nat.max 250 (2 * h) ≤ t) && (x.dir == up || decide (r + h + 2 * su ≤ t))) &&
    x.chgAt.all (fun c => decide (c + su ≤ t))

/-- STEP (R300): at `ns` after the cycle start, on the 5 ns grid, a rising edge, when the line has reached the next grid point and no limit
delays it. A step that the grid would have let come earlier is a delayed one. DEDUCED, log entry 49. -/
def axStep (n : Fin 16) (ns : Nat) (s : State) : State :=
  let n := n.val
  if !s.axSteps n then s
  else
    let t := s.cycle * s.tns + ns / 5 * 5
    let d := s.axDue n t
    if d = 0 then s
    else
      let up := decide (0 < d)
      let g : Int := msSize (s.n (kAxMsActive n))
      let ok := s.axEdgeOk n t up
      let late := if up then decide (0 < s.axDue n (t - 5)) else decide (s.axDue n (t - 5) < 0)
      let s := if late || !ok then s.setBit (kAxStatus n) axRateCap true else s
      if !ok then s
      else
        let turn := (s.ax n).dir != up
        let s := s.setI (kAxPosOut n) (wrap64 (s.i (kAxPosOut n) + if up then g else -g))
        (s.onAx n (fun x => { x with
          step := true, dir := up, rise := some t, chgAt := if turn then some (t - s.n (kAxDirSetup n)) else x.chgAt })).msSettle n t

/-! ### Torque, states and the cycle (R279, R297, R299) -/

/-- The step generators stop at once (R299). -/
def State.axHalt (s : State) : State :=
  (List.range 16).foldl (fun s n =>
    if !s.axUsed n ∨ (s.ax n).stopped then s
    else
      let s := if s.bit (kAxStatus n) axMoving then s.setBit (kAxStatus n) axPosUnsure true else s
      let s := ((s.axStop n).axEn n false).setBit (kAxStatus n) axMoving false
      s.onAx n (fun x => { x with stopped := true })) s

/-- Axis position of an emitted position, binary64. -/
def State.axFromOut (s : State) (n : Nat) : Nat :=
  let k := f32.ratio (s.n (kAxScale n))
  f64.ofRatio (s.i (kAxPosOut n) * k.2) (256 * k.1.toNat)

/-- Entry to RUN (R299): a stopped generator goes on from AX_POS_OUT. -/
def State.axRun (s : State) : State :=
  (List.range 16).foldl (fun s n =>
    if !s.axUsed n ∨ !(s.ax n).stopped then s
    else
      let p := s.axFromOut n
      let m := s.axHold n (restState p)
      let s := (s.onAx n (fun x => { x with stopped := false, motion := m, hist := [(s.cellNs, p)], vel := 0 })).setN (kAxPosCmd n) p
      s.axStill n) s

/-- Entry to READY (R279, R304): every axis is idle at once. -/
def State.axReady (s : State) : State := (List.range 16).foldl (fun s n => if s.axUsed n then s.axStill n else s) s

/-- A stop that leads to READY (R299, R304): an axis in motion comes to rest on its planned stop, and every other one is idle at once.
DEDUCED, log entry 49. -/
def State.axReadyStop (s : State) : State :=
  (List.range 16).foldl (fun s n => if !s.axUsed n ∨ (s.ax n).stopped ∨ s.axRamps n then s else s.axStill n) s

/-- The torque grant is gone (R299): in RUN, HOLD and DEGRADED always, in READY when it is withdrawn. -/
def State.torqueCheck (s : State) : State :=
  if s.axTorque then s
  else
    let s := if s.isIn [.run, .hold, .degraded] ∨ s.dev.state = .ready ∧ s.axes.granted then s.axHalt else s
    s.onAxes (fun x => { x with granted := false })

/-- Outputs of R279 low: entry to INERT, FAULT, SERVICE, CONFIG or SYNC. -/
def State.axInert (s : State) : State :=
  (List.range 16).foldl (fun s n =>
    let moving := s.bit (kAxStatus n) axMoving
    let s := (s.axEn n false).onAx n (fun x => { x with
      step := false, dir := false, ms := 0, deferred := none, waitQ := none, msPending := none, stopped := x.stopped || moving })
    s.setN (kAxStatus n) (s.n (kAxStatus n) &&& 0x60)) s

/-- A cam slave's position in a cycle (R152, R154). DEDUCED, log entry 49. -/
def State.axCam (s : State) (n : Nat) : State :=
  let x := s.axMov n
  match x.motion.cam with
  | none => s
  | some (cycle, off) =>
    if x.motion.kind ≠ 5 ∨ !x.active then s
    else
      let d := x.motion.desc
      let t := s.obj (camKey (num d 32 2))
      let y := camX d (s.master (num d 76 2) cycle)
      let p := camSlave t d off y
      let v := f64.div (f64.sub p (s.n (kAxPosCmd n))) s.t64
      let x := { x with motion := { x.motion with slave := p, start := le 8 p ++ le 8 v ++ zeros 8 } }
      if camOutside t d y then
        let x := x.advance (s.axPlan n) (s.cycle * 2 ^ 32) true
        s.setAxMov n { x with stat := stFlag x.stat 3 true }
      else s.setAxMov n x

/-- A motion planned under AX_V_DEG. DEDUCED, log entry 49. -/
def Motion.capped (m : Motion) : Bool := match m.par with
  | .axis p => p.cap.isSome
  | _ => false

/-- Entry to DEGRADED replans an axis's profile under AX_V_DEG (R298); with AX_V_DEG 0 the axis stops. DEDUCED, log entry 49. -/
def State.axDegrade (s : State) (n : Nat) : State :=
  let x := s.axMov n
  if s.dev.state ≠ .degraded ∨ !x.active then s
  else if f32.eqv (s.n (kAxVDeg n)) 0 then (s.setAxMov n { x with motion := { x.motion with done := true } }).axRest n
  else if x.motion.kind = 4 ∨ x.motion.kind = 5 ∨ x.motion.capped then s
  else s.setAxMov n { x with
    motion := startMotion x.motion.kind x.motion.desc (s.axState n s.cycle) x.motion.ref (s.axPlan n x.motion.desc) (s.cycle * 2 ^ 32) }

/-- An axis in standstill whose commanded position changes under a move that is already active takes up its driver at once (R304, R305).
DESIGN CHOICE, log entry 82. -/
def State.axUnstill (s : State) (n : Nat) : State :=
  ((s.axEn n true).axMs n (s.axCode n (s.n (kAxMsActive n))) (s.cycle * s.tns)).setBit (kAxStatus n) axStandstill false

/-- One axis in a cycle: moves, cams, the commanded position for the apply time, and the resolution. -/
def State.axCycle1 (s : State) (n : Nat) : State :=
  if !s.axUsed n ∨ (s.ax n).stopped then s
  else
    let due := (s.ax n).due
    let s := s.onAx n (fun x => { x with due := [], step := false })
    let s := due.foldl (fun s d => s.axApply n d) s
    let s := ((s.axDegrade n).axCam n).axCamStart n
    let s := (s.setAxMov n ((s.axMov n).advance (s.axPlan n) (s.cycle * 2 ^ 32) false)).axCamStart n
    let s := if (s.ax n).motion.done ∧ (s.ax n).motion.kind ≠ 0 then s.axRest n else s
    let cam := (s.ax n).motion.kind = 5
    let st := if cam then (s.ax n).motion.start else s.axState n s.cycle
    let p := s.axReach n (num st 0 8)
    let old := s.n (kAxPosCmd n)
    let v := if cam ∨ s.axHeldBack n then f64.div (f64.sub p old) s.t64 else num st 8 8
    let moves := !f64.eqv p old
    let s := s.onAx n (fun x => { x with hist := ((s.applyAt s.cycle, p) :: x.hist).take 3, vel := v })
    let s := if moves && s.bit (kAxStatus n) axStandstill then s.axUnstill n else s
    ((s.setN (kAxPosCmd n) p).setBit (kAxStatus n) axMoving moves).msEvaluate n

/-- An axis that its cycle does not move: it stands, in READY it is idle at once (R304), and its resolution is evaluated (R301). -/
def State.axStands (s : State) (n : Nat) : State :=
  if !s.axUsed n then s
  else
    let s := s.onAx n (fun x => { x with vel := 0, step := false })
    let s := if s.dev.state = .ready ∧ !(s.ax n).stopped ∧ !s.bit (kAxStatus n) axStandstill then s.axStill n else s
    s.msEvaluate n

/-- All axes of a cycle. -/
def State.axCycle (s : State) : State :=
  let s := s.torqueCheck
  let runs := s.isIn [.run, .hold, .degraded]
  let s := (List.range 16).foldl (fun s n =>
    if (runs || s.dev.state == .ready && s.axRamps n) && !(s.ax n).stopped then s.axCycle1 n else s.axStands n) s
  s.onAxes (fun x => { x with granted := s.axTorque })

/-- AX_MOVE_STATUS, with REMAIN (R145, R306). -/
def State.axMoveStatus (s : State) (n : Nat) : Bytes :=
  patch (s.obj (kAxMoveStatus n)) 8 (remain (s.ax n).motion (s.cycle * 2 ^ 32) s.tns s.free)

/-! ### Move commands (R138, R139, R155, R297) -/

/-- A write of a descriptor of a type to its target: MOVE_CMD, GRP_MOVE or AX_MOVE. DEDUCED, log entry 49. -/
def moveCmd (type : Nat) (rq : Requester) (t : MoveTarget) (d : Bytes) (s : State) : State :=
  let d := patch d 0 (le 1 type)
  match t with
  | .arm a => moveWrite rq (0x3002 + 0x100 * a.val) 0x01 a.val d (armMoveOwn a.val d) (armMoveEff a.val d) s
  | .group g => submitWrite rq (0x3800 + g.val) 0x05 d (grpMoveOwn g.val d) (grpMoveEff g.val d) s
  | .axis n => moveWrite rq (0x6000 + n.val) 0x14 (0x10 + n.val) d (axMoveOwn n.val d) (axMoveEff n.val d) s

end Sys2Proof.Machine
end

