-- ==== Sys2Proof/Machine/ExecAxisCmd.lean ====
section
/-! DEFINITION. Meanings of the commands of the opcode table: feedback and axes. -/

namespace Sys2Proof.Machine

/-- QUADRATURE_CHANGE (R282). -/
def execQuadratureChange (c : Fin 16) (a : Bool) (b : Bool) (s : State) : Host.Outcome State Fault Refusal :=
  .next (quadratureChange c a b s)

/-- INDEX_EVENT (R288). -/
def execIndexEvent (c : Fin 16) (s : State) : Host.Outcome State Fault Refusal :=
  .next (indexEvent c s)

/-- ABS_REQUEST (R284). -/
def execAbsRequest (c : Fin 16) (datHigh : Bool) (s : State) : Host.Outcome State Fault Refusal :=
  .next (absRequest c datHigh s)

/-- ABS_READING (R285). -/
def execAbsReading (c : Fin 16) (word : Nat) (trailing : Nat) (datHigh : Bool) (latch : Time96) (s : State) : Host.Outcome State Fault Refusal :=
  .next (absReading c word trailing datHigh latch s)

/-- CMP_VALUE (R291). -/
def execCmpValue (rq : Requester) (c : Fin 16) (u : Fin 2) (v : W64) (s : State) : Host.Outcome State Fault Refusal :=
  .next (cmpValue rq c u v s)

/-- DISARM (R310). -/
def execDisarm (rq : Requester) (c : Fin 16) (u : Fin 2) (v : Byte) (s : State) : Host.Outcome State Fault Refusal :=
  .next (disarm rq c u v s)

/-- CMP_PULSE_END (R293). -/
def execCmpPulseEnd (c : Fin 16) (u : Fin 2) (s : State) : Host.Outcome State Fault Refusal :=
  .next (cmpPulseEnd c u s)

/-- EMU_EDGE (R296). -/
def execEmuEdge (e : Fin 8) (s : State) : Host.Outcome State Fault Refusal :=
  .next (emuEdge e s)

/-- STEP (R300). -/
def execStep (n : Fin 16) (ns : Nat) (s : State) : Host.Outcome State Fault Refusal :=
  .next (axStep n ns s)

/-- AX_IDLE (R304). -/
def execAxIdle (n : Fin 16) (s : State) : Host.Outcome State Fault Refusal :=
  .next (axIdle n s)

/-- AX_WAKE_DONE (R305). -/
def execAxWakeDone (n : Fin 16) (s : State) : Host.Outcome State Fault Refusal :=
  .next (axWakeDone n s)

end Sys2Proof.Machine
end

