-- ==== Sys2Proof/Machine/WadraCmd.lean ====
section
/-! DEFINITION. The ring commands that act on the head or on a Wadra node (R71, R78, R96 to R112, R118, R405): SYNC and START
frames, cold start, insertion and the guardian, the node objects, links, and events. -/

namespace Sys2Proof.Machine

/-! ### Nodes -/

/-- Changes a node. -/
def State.onNode (s : State) (r : RingId) (a : Nat) (f : NodeSt → NodeSt) : State := s.setNode (f (s.node r a))

/-- The node is coldstart-capable (R95). -/
def State.capable (s : State) (r : RingId) (a : Nat) : Bool :=
  ((records 2 (s.obj (kCsNodes (ringNo r)))).map (fun x => num x 0 2 % 1024)).contains a

/-- TT_ID that a node's assignment names (R91). -/
def NodeSt.assignTt (n : NodeSt) : Nat := num n.assign 6 2

/-- A node enters LISTEN of R105: own frames stop, loops at live ports end, and the command SCNTs are forgotten (R118, R333). -/
def NodeSt.toListen (n : NodeSt) : NodeSt :=
  let port (p : PortSt) : PortSt := if p.sync then { p with looped := false } else p
  { n with state := .listen, syncRun := 0, heardA := false, heardB := false, lineA := none, lineB := none, hasTime := false,
           timeOff := none, lastDown := none, delayPending := none, own := [], inb := [], east := port n.east, west := port n.west,
           cmdP := none, cmdH := none }

/-- At cycle position 0 a node's written delays take effect, and an assigned node integrates (R100, R105). -/
def NodeSt.atPosition0 (n : NodeSt) : NodeSt :=
  let n := match n.delayPending with
    | some d => { n with delay := d, delayPending := none }
    | none => n
  if n.state = .assigned then { n with state := .integrated, senderCtr := 0 } else n

/-- The SYNC frame is consistent: its CYCLE_TIME is the cycle start of its SEQ (R83, R105). -/
def syncConsistent (f : Frame) : Bool :=
  let ns := time96Val (slice f.payload 0 12)
  let t := cycleNsOf (num f.payload 12 1)
  ns % 65536 == 0 && (ns / 65536) % t == 0 && (ns / 65536 / t) % 2 ^ 32 == f.seq.toNat

/-- The SYNC follows the last one without a gap. -/
def nextSync (last : Option Nat) (f : Frame) : Bool :=
  match last with
  | some l => f.seq.toNat == (l + 1) % 2 ^ 32 || f.seq.toNat == l
  | none => true

/-- The cycle start after an announcing SYNC (R121, R123): the node's silence ends, and with the operating timetable its loops. -/
def NodeSt.endSilence (n : NodeSt) (seq : Nat) : NodeSt :=
  let port (p : PortSt) : PortSt := if p.sync ∧ n.fbt.isNone then { p with looped := false } else p
  if n.silentIn.isSome ∧ n.silentIn ≠ some seq then { n with silentIn := none, east := port n.east, west := port n.west } else n

/-- The node's clock follows a SYNC that crosses its ingress at a cell time (2^-16 ns). Step 1 of R104 keeps that instant for the
channel. Step 2 sets the local cell time so that the instant is CYCLE_TIME + D_in of the channel: from the downlink channel, or
from the uplink channel while no downlink SYNC of the cycle has come. -/
def NodeSt.follow (n : NodeSt) (down : Bool) (f : Frame) (now : Nat) : NodeSt :=
  let n := if f.ch = .a then { n with heardA := true, lineA := some now } else { n with heardB := true, lineB := some now }
  let off : Int := n.lineStart f.ch (time96Val (slice f.payload 0 12)) - now
  let n := if n.hasTime ∧ n.delay.length = 8 ∧ syncConsistent f ∧ (down ∨ n.lastDown ≠ some f.seq.toNat) then { n with timeOff := some off } else n
  if down then { n with lastDown := some f.seq.toNat } else n

/-- SYNC at an ordinary node (R97, R104, R105, R121). -/
def NodeSt.sync (n : NodeSt) (capable down : Bool) (f : Frame) (now : Nat) : NodeSt :=
  let n := (n.endSilence f.seq.toNat).follow down f now
  let n := if capable ∧ n.cs = .listen then { n with cs := .integrate } else n
  let ok := syncConsistent f
  let again := n.lastSync == some f.seq.toNat
  let run := if !ok then 0 else if again then n.syncRun else if nextSync n.lastSync f then n.syncRun + 1 else 1
  let n := { n with syncRun := run, lastSync := some f.seq.toNat }
  let n := if n.state = .listen ∧ (!capable ∨ n.cs = .integrate) ∧ 8 ≤ run then { n with state := .locked } else n
  let fbt := (num f.payload 13 1).testBit 1
  let tt := num f.payload 14 2
  let new : Option Nat := if fbt then some tt else none
  let n := if n.state = .integrated ∧ !fbt ∧ tt ≠ n.assignTt then { n with state := .locked, assign := [] } else n
  let differs := decide (new ≠ n.fbt) || (!fbt && decide (tt ≠ n.ttId))
  let n := if differs then { n with silentIn := some f.seq.toNat, fbt := new } else n
  let n := if fbt then n else { n with ttId := tt }
  if f.mpos.toNat % 64 = 0 then n.atPosition0 else n

/-- SYNC at a head unit (R97, R375): its grid is locked when 8 consecutive SYNC frames of a head unit are consistent; it never locks
onto an interim head (R98). DESIGN CHOICE, log entry 78. -/
def State.headSync (s : State) (r : RingId) (f : Frame) : State :=
  let x := s.ring r
  let head := decide (f.addr.toNat ≤ 1)
  match x.cs with
  | .listen =>
    if head then s.setRing r { x with cs := .integrate, syncRun := 1, lastSync := some f.seq.toNat }
    else s.setRing r { x with cs := .coldstart, attempt := min 255 (x.attempt + 1), startsSent := 0 }
  | .integrate =>
    let run := if !syncConsistent f then 0 else if x.lastSync = some f.seq.toNat then x.syncRun
      else if nextSync x.lastSync f then x.syncRun + 1 else 1
    let x := if head then { x with syncRun := run, lastSync := some f.seq.toNat } else x
    if run < 8 ∨ !head then s.setRing r x
    else
      let q := time96Val (slice f.payload 0 12)
      let c := q / 65536 / s.tns
      let s := s.setRing r { x with cs := .running, syncFrom := (c / 64 + 1) * 64 }
      if s.pair.rejoining ∧ s.pair.gridAt.isNone then
        { s with
          time := { s.time with stepTo := some (q / 65536 / 1000000000, q / 65536 % 1000000000, q % 65536), stepSw := false }
          pair := { s.pair with gridAt := some c } }
      else s
  | _ => s.setRing r { x with lastSync := some f.seq.toNat }

/-- A channel is the downlink of a node (R62). -/
def State.downlink (s : State) (r : RingId) (a : Nat) (ch : Channel) : Bool :=
  let o := s.order r
  uplinkB o.length (posIn o a) == (ch == .a)

/-- A frame that passes a node is forwarded, or waits in its insertion buffer (R63, R71). -/
def State.passNode (s : State) (r : RingId) (a : Nat) (f : Frame) : State :=
  let (fwd, s) := s.nodeFwd
  s.onNode r a (fun n => n.forward (s.arbLimit r 0) (turnedBack (n.port (egressOf f.ch)) (egressOf f.ch))
    ((s.cellQ : Int) * 10 / 65536 + (fwd : Nat) / 100) (frameBytes f))

/-- SYNC (R104). -/
def sync (st : Station) (_port : Side) (f : Frame) (s : State) : State :=
  match st with
  | .head r => s.headSync r f
  | .node r a =>
    (s.passNode r a.toNat f).onNode r a.toNat (fun n => n.sync (s.capable r a.toNat) (s.downlink r a.toNat f.ch) f s.cellQ)

/-- SERIAL of a START frame (R86). -/
def startSerial (f : Frame) : Nat := num f.payload 0 8

/-- The R97 part of START that is common to every coldstart-capable node: next state, and whether a duplicate was seen. -/
def csOnStart (cs : CsState) (own ownSerial : Nat) (f : Frame) : CsState × Bool :=
  let a := f.addr.toNat
  match cs with
  | .listen =>
    if a < own then (.integrate, false)
    else if a > own then (.coldstart, false)
    else if startSerial f ≠ ownSerial then (.backoff, true) else (.listen, false)
  | .coldstart =>
    if a < own then (.integrate, false)
    else if a = own ∧ startSerial f ≠ ownSerial then (.backoff, true) else (.coldstart, false)
  | c => (c, false)

/-- START (R96, R97, R98). -/
def startFrame (st : Station) (f : Frame) (s : State) : State :=
  match st with
  | .head r =>
    let x := s.ring r
    let (c, dup) := csOnStart x.cs s.ownAddr s.sec.fuses.serial f
    let x := if c = .coldstart ∧ x.cs = .listen then { x with attempt := min 255 (x.attempt + 1), startsSent := 0 } else x
    let s := s.setRing r { x with cs := c }
    if dup then s.ringBit r 2 true else s
  | .node r a =>
    let mine := f.addr.toNat = a.toNat ∧ startSerial f = (s.node r a.toNat).serial
    let s := if mine then s else s.passNode r a.toNat f
    if !s.capable r a.toNat then s
    else s.onNode r a.toNat (fun n =>
      let (c, _) := csOnStart n.cs a.toNat n.serial f
      let c := if n.cs = .running ∧ f.addr.toNat < a.toNat then .listen else c
      let n := if c = .coldstart ∧ n.cs = .listen then { n with attempt := min 255 (n.attempt + 1), startsSent := 0 } else n
      { n with cs := c })

/-- COLDSTART_LISTEN_TIMEOUT (R97). -/
def coldstartListenTimeout (st : Station) (s : State) : State :=
  match st with
  | .head r =>
    let x := s.ring r
    if x.cs = .listen then s.setRing r { x with cs := .coldstart, attempt := min 255 (x.attempt + 1), startsSent := 0 } else s
  | .node r a =>
    if !s.capable r a.toNat then s
    else s.onNode r a.toNat (fun n =>
      if n.cs = .listen then { n with cs := .coldstart, attempt := min 255 (n.attempt + 1), startsSent := 0 } else n)

/-- COLDSTART_COMPLETE (R97): the 64th START of the attempt has been sent; the sender counter has counted all 64 (R78).
DEDUCED, log entry 45. -/
def coldstartComplete (st : Station) (s : State) : State :=
  match st with
  | .head r =>
    let x := s.ring r
    if x.cs = .coldstart then
      s.setRing r { x with cs := .running, startsSent := 64, senderCtr := (x.senderCtr + (64 - x.startsSent)) % 2 ^ 32,
                           syncFrom := s.cycle + 1 }
    else s
  | .node r a =>
    s.onNode r a.toNat (fun n => if n.cs = .coldstart then
      { n with cs := .running, startsSent := 64, senderCtr := (n.senderCtr + (64 - n.startsSent)) % 2 ^ 32 } else n)

/-- BACKOFF_ELAPSED (R97). -/
def backoffElapsed (st : Station) (s : State) : State :=
  match st with
  | .head r =>
    let x := s.ring r
    if x.cs = .backoff then s.setRing r { x with cs := .listen } else s
  | .node r a => s.onNode r a.toNat (fun n => if n.cs = .backoff then { n with cs := .listen } else n)

/-- SYNC_LOSS: no valid SYNC for 4 basic cycles (R105), or for 2 matrices (R97). -/
def syncLoss (st : Station) (matrices : Bool) (s : State) : State :=
  match st with
  | .head r =>
    let x := s.ring r
    if x.cs = .integrate ∧ matrices then s.setRing r { x with cs := .listen, syncRun := 0, lastSync := none } else s
  | .node r a => s.onNode r a.toNat (fun n =>
      let n := if n.cs = .integrate ∧ matrices then { n with cs := .listen } else n
      { n.toListen with lastSync := none })

/-- NODE_DELAY_WRITE (R100, R105): a value that is not 8 bytes is refused with TYPE_MISMATCH. -/
def nodeDelayWrite (r : RingId) (addr : BitVec 10) (v : Bytes) (s : State) : State :=
  if v.length ≠ 8 then s
  else s.onNode r addr.toNat (fun n =>
    let n := { n with delayPending := some v }
    if n.state = .locked ∨ n.state = .excluded then { n with state := .measured, hasTime := true } else n)

/-- NODE_ASSIGN_WRITE (R100, R105): in MEASURED accepted with the node's own address and the TT_ID of SYNC, else refused; in another
state the object takes the value, and the state stays. DEDUCED, log entry 61. -/
def nodeAssignWrite (r : RingId) (addr : BitVec 10) (v : Bytes) (s : State) : State :=
  s.onNode r addr.toNat (fun n =>
    if n.state = .measured then
      if num v 0 2 = n.addr ∧ num v 6 2 = n.ttId then { n with assign := v, state := .assigned } else n
    else { n with assign := v })

/-- EXCLUDE (R100, R105): a write of NODE_CTRL reaches the node; a value other than 1 is refused. -/
def excludeNode (r : RingId) (addr : BitVec 10) (v : Byte) (s : State) : State :=
  if v ≠ 1 then s
  else s.onNode r addr.toNat (fun n => if n.state = .integrated then { n with state := .excluded, own := [] } else n)

/-! ### DELAY requests -/

/-- Answer to a DELAY request (R101). DEDUCED, log entry 45. -/
def delayAnswer (req : Bytes) (t2 t3 fwd : Nat) : Bytes :=
  [1, 0] ++ slice req 2 2 ++ slice req 4 4 ++ slice req 8 12 ++ time96 t2 ++ time96 t3 ++ le 4 fwd

/-- Request payload: KIND 0, TARGET, EXCH and T1 (R101). -/
def delayRequestBytes (target exch t1 : Nat) : Bytes := [0, 0] ++ le 2 target ++ le 4 exch ++ time96 t1 ++ zeros 28

/-- DELAY_REQUEST (R101): answered from LOCKED on, at a head unit once its grid is locked, on the other channel; the answer's egress
stamp enters the FIFO (R41). The CX864 forwards in 240 ns (R63); a node's forwarding delay is its own and free.
DEDUCED, log entry 61. -/
def delayRequest (st : Station) (f : Frame) (ingress egress : Time96) (s : State) : State :=
  let target := num f.payload 2 2 % 1024
  let back : Channel := if f.ch = .a then .b else .a
  if num f.payload 0 1 ≠ 0 then s
  else match st with
  | .head r =>
    let x := s.ring r
    if target ≠ s.ownAddr ∨ x.cs ≠ .running ∨ s.pair.passThrough then s
    else
      let pi := arrivalPort r f.ch
      let t2 := s.stamp pi false false (time96Q ingress)
      let (t3, s) := s.takeStamp pi true false 0xFFF egress
      let a := delayAnswer f.payload t2 t3.1 240000
      s.setRing r { x with delayAnswer := a, line := x.line ++ [s.ownFrame r back 9 0xFFF x.senderCtr 0 0 a]
                           senderCtr := (x.senderCtr + 1) % 2 ^ 32 }
  | .node r a =>
    let s := s.passNode r a.toNat f
    if target ≠ a.toNat ∨ (s.node r a.toNat).state = .listen then s
    else
      let (v, s) := s.nodeFwd
      let n := s.node r a.toNat
      let b := delayAnswer f.payload (time96Q ingress) (time96Q egress) v
      s.setNode { n with
        delayAnswer := b
        line := n.line ++ [{ s.ownFrame r back 9 0xFFF n.senderCtr 0 0 b with addr := a }]
        senderCtr := (n.senderCtr + 1) % 2 ^ 32 }

/-! ### Arbitrating window and guardian -/

/-- The four conditions of R71. -/
def State.mayInsert (s : State) (r : RingId) (east : Bool) (buffered : List Bytes) (offset : Nat) (idle : Bool) (f : Frame) : Bool :=
  decide (s.arbStart r east ≤ offset) && decide (offset ≤ s.n (kArbLast (ringNo r))) && buffered.isEmpty && idle &&
    decide (f.payload.length ≤ s.n (kArbPlenMax (ringNo r)))

/-- A node's state lets it send a frame of a type on a channel in the arbitrating window (R98, R104, R105). -/
def nodeMaySend (n : NodeSt) (ch : Channel) (t : Nat) : Bool :=
  if n.cs = .running then true
  else match n.state with
  | .listen => false
  | .locked => (t == 5 || t == 9) && (if ch = .a then n.heardA else n.heardB)
  | .excluded => t == 9
  | _ => true

/-- LEG of a node's fall-back record for a break: 0 channel A, 1 channel B (R120). -/
def NodeSt.leg (n : NodeSt) (b : Nat) : Option Nat :=
  let ns := num n.fallback 2 2
  let v := num n.fallback (4 + b * (2 + 2 * ns)) 2
  if n.fallback.length < 4 + b * (2 + 2 * ns) + 2 ∨ v = 0xFFFF then none else some v

/-- A node of a healed ring is on path E, by its record, or by its position while it holds none (R118, R519, R121). -/
def State.onPathE (s : State) (r : RingId) (n : NodeSt) (b : Nat) : Bool :=
  match n.leg b with
  | some l => l == 0
  | none => b == 0 || decide (posIn (s.order r) n.addr < b)

/-- The channel on which a node sends its own frames: its uplink, in a fall-back the leg of its record, and for the answer to a
DELAY request the channel that is not the request's (R62, R101, R121). An interim head, or a node outside NODE_ORDER, has none. -/
def State.nodeChannel (s : State) (r : RingId) (n : NodeSt) (t : Nat) : Option Channel :=
  let p := posIn (s.order r) n.addr
  if t = 9 ∨ n.cs = .running ∨ p = 0 then none
  else match n.fbt with
    | some b => some (if s.onPathE r n b then .a else .b)
    | none => some (if uplinkB (s.order r).length p then .b else .a)

/-- The channel on which a node hears the head: its downlink, in a fall-back its outward leg (R62, R120). -/
def State.downChannel (s : State) (r : RingId) (a : Nat) : Channel :=
  let east := match (s.ring r).fbt with
    | some b => s.onPathE r (s.node r a) b
    | none => s.downlink r a .a
  if east then .a else .b

/-- A message of the head to a node may leave on a channel: the node's downlink channel (R402), or, while this unit does not originate
that one (R61), the channel that it originates. DEDUCED, log entry 62. -/
def State.goesOn (s : State) (r : RingId) (a : Nat) (ch : Channel) : Bool :=
  ch == s.downChannel r a || !(s.originLegs r).any (fun l => l.1 == s.downChannel r a)

/-- The first waiting message of a ring for a channel, and the messages that wait after it has left. -/
def State.popRingOut (s : State) (r : RingId) (ch : Channel) :
    List (RingId × Nat × DictMsg) → Option DictMsg × List (RingId × Nat × DictMsg)
  | [] => (none, [])
  | x :: l => if x.1 = r ∧ s.goesOn r x.2.1 ch then (some x.2.2, l) else ((s.popRingOut r ch l).1, x :: (s.popRingOut r ch l).2)

/-- The frame that a head unit has for the arbitrating window: a DICT frame carries the message that waits for the channel, padded to a
multiple of 4 and with MORE clear (R402), an EVENT the event that waits (R118); a DELAY frame is as given, and no other type is sent
there (R77). -/
def State.headFrame (s : State) (r : RingId) (ch : Channel) (f : Frame) : Option Frame :=
  if f.type = 5 then (s.popRingOut r ch s.dict.ringOut).1.map (fun m =>
    let b := msgBytes m
    { f with flags := 0, payload := fit ((b.length + 3) / 4 * 4) b })
  else if f.type = 7 then some { f with payload := (s.ring r).events.head?.getD f.payload }
  else if f.type = 9 then some f
  else none

/-- The stamp of an own frame that starts at a cell time of 0.1 ns at the ball: within 1 ns of it, plus PORT_EXT_OUT (R40, R41).
DEDUCED, log entry 44. -/
def State.ownStamp (s : State) (port : Nat) (at10 : Int) : Nat × State :=
  let (v, s) := s.fresh
  let ball : Int := at10 * 65536 / 10 + ((v % 131073 : Nat) : Int) - 65536
  ((ball + s.i (kPortExtOut port) * 65536 / 1000).toNat, s)

/-- The payload of an own frame in the arbitrating window: a DELAY request of an open exchange takes its T1, whose stamp enters the
FIFO (R101); any other is as given. -/
def State.arbPayload (s : State) (r : RingId) (ch : Channel) (port : Nat) (at10 : Int) (f : Frame) : Bytes × State :=
  let x := s.ring r
  if f.type = 9 then
    let (t1, s) := s.ownStamp port at10
    let s := s.pushStamp port true false 0xFFF t1
    let target := num f.payload 2 2 % 1024
    let exch := num f.payload 4 4
    let mine (e : DelayEx) : Bool := e.target == target && e.exch == exch && e.onB == (ch == .b)
    if num f.payload 0 1 = 0 ∧ x.exchanges.any mine then
      (delayRequestBytes target exch t1,
        s.setRing r { x with exchanges := x.exchanges.map (fun e => if mine e then { e with t1 := some t1 } else e) })
    else (f.payload, s)
  else (f.payload, s)

/-- MORE of a frame, at its place in FLAGS (R79). -/
def moreOf (f : Frame) : Nat := f.flags.toNat / 8 % 2 * 8

/-- A head unit starts an own frame when the conditions of R71 hold, on a channel that it originates (R61, R402). -/
def State.headInsert (s : State) (r : RingId) (ch : Channel) (offset : Nat) (idle : Bool) (f : Frame) : State :=
  let x := s.ring r
  if !s.sends r ∨ !(s.originLegs r).any (fun l => l.1 == ch) ∨
      !s.mayInsert r (ch = .a) (if ch = .a then x.insA else x.insB) offset idle f then s
  else
    let sd := (((s.originLegs r).find? (fun l => l.1 == ch)).map Prod.snd).getD (egressOf ch)
    let at10 := s.cycle10 + ((offset * 10 : Nat) : Int) - s.early10 r sd
    let w := s.arbWindow r (ch = .a) (- s.early10 r sd)
    let (pl, s) := s.arbPayload r ch (2 * ringNo r + sideNo sd) at10 f
    let y := s.ring r
    let g := s.ownFrame r ch f.type.toNat 0xFFF y.senderCtr 0 (moreOf f) pl
    let s := s.setRing r { (y.send sd 1 at10 w.1 w.2 g) with senderCtr := (y.senderCtr + 1) % 2 ^ 32 }
    if f.type = 5 then { s with dict := { s.dict with ringOut := (s.popRingOut r ch s.dict.ringOut).2 } } else s

/-- ARB_INSERT (R71, R78, R402): an own frame starts when its conditions hold, on a channel that the station originates or sends on
(R61, R62), with the header that the station gives it (R76). -/
def arbInsert (st : Station) (ch : Channel) (offset : Nat) (idle : Bool) (f : Frame) (s : State) : State :=
  match st with
  | .head r => ((s.headFrame r ch f).map (fun own => s.headInsert r ch offset idle own)).getD s
  | .node r a =>
    let n := s.node r a.toNat
    let east := match n.fbt with
      | some b => s.onPathE r n b
      | none => true
    let bars : Bool := match s.nodeChannel r n f.type.toNat with
      | some c => c != ch
      | none => false
    if !([5, 7, 9].contains f.type.toNat) ∨ !nodeMaySend n ch f.type.toNat ∨ bars ∨ !s.mayInsert r east (if ch = .a then n.insA else n.insB) offset idle f then s
    else
      let (fwd, s) := s.nodeFwd
      let n := s.node r a.toNat
      let dout := (n.lineStart ch 0) * 10 / 65536 + (fwd : Nat) / 100
      let at10 := s.cycle10 + ((offset * 10 : Nat) : Int) + dout
      let w := s.arbWindow r east dout
      let g := { s.ownFrame r ch f.type.toNat 0xFFF n.senderCtr 0 (moreOf f) f.payload with
        addr := a, flags := BitVec.ofNat 8 ((moreOf f) + (if n.fbt.isSome then 4 else 0)) }
      let sd := turnedBack (n.port (egressOf ch)) (egressOf ch)
      s.setNode { (n.send sd 1 at10 w.1 w.2 g) with senderCtr := (n.senderCtr + 1) % 2 ^ 32 }

/-- Counts `n` times. -/
def errIncBy (v : Bytes) (port off : Nat) : Nat → Bytes
  | 0 => v
  | n + 1 => errIncBy (errInc v port off) port off n

/-- ARB_LAST_DISCARD (R71, R114). -/
def arbLastDiscard (st : Station) (ch : Channel) (s : State) : State :=
  let port := sideNo (egressOf ch)
  match st with
  | .head r =>
    let x := s.ring r
    let n := (if ch = .a then x.insA else x.insB).length
    let s := s.setRing r (if ch = .a then { x with insA := [] } else { x with insB := [] })
    s.setObj (kPortErr (ringNo r)) (errIncBy (s.obj (kPortErr (ringNo r))) port 12 n)
  | .node r a => s.onNode r a.toNat (fun x =>
      let n := (if ch = .a then x.insA else x.insB).length
      let x := { x with err := errIncBy x.err port 12 n }
      if ch = .a then { x with insA := [] } else { x with insB := [] })

/-- GUARD_CUT (R108, R109, R114): a frame still in progress when its window closes is cut. -/
def guardCut (st : Station) (sd : Side) (s : State) : State :=
  match st with
  | .head r =>
    let x := s.ring r
    if x.own.any (fun o => o.side = sd) then
      (s.setRing r { x with own := x.own.filter (fun o => o.side ≠ sd) }).portErr r (sideNo sd) 24
    else s
  | .node r a => s.onNode r a.toNat (fun n =>
      if n.own.any (fun o => o.side = sd) then
        { n with own := n.own.filter (fun o => o.side ≠ sd), err := errInc n.err (sideNo sd) 24 }
      else n)

/-! ### Links (R118) -/

/-- EVENT payload of LINK_DOWN or LINK_UP (R87, R118), at the local cell time of its sender. -/
def State.linkEvent (s : State) (code : Nat) (sd : Side) (timeOff : Int) : Bytes :=
  le 2 code ++ [0, 0] ++ time96 ((s.cellQ : Int) + timeOff).toNat ++ le 1 (sideNo sd) ++ [0, 0, 0]

/-- A head unit has an event to send (R118). -/
def RingSt.raise (x : RingSt) (ev : Bytes) : RingSt := { x with events := x.events ++ [ev] }

/-- A node has an event to send, behind those that wait (R118, R405). -/
def NodeSt.raise (n : NodeSt) (ev : Bytes) : NodeSt :=
  if n.event.isNone then { n with event := some ev, resends := 0 } else { n with more := n.more ++ [ev] }

/-- The event in front is acknowledged or given up, and the next one takes its place. -/
def NodeSt.nextEvent (n : NodeSt) : NodeSt := { n with event := n.more.head?, more := n.more.drop 1, resends := 0 }

/-- LINK_LOSS (R118, R114): the station loops and has LINK_DOWN to send; for the head the loss itself stands for it (R522). -/
def linkLoss (st : Station) (sd : Side) (s : State) : State :=
  match st with
  | .head r =>
    let x := s.ring r
    let p := x.port sd
    let x := (x.setPort sd { p with sync := false, looped := !x.survivor, upSent := false }).raise (s.linkEvent 0xFF01 sd 0)
    let s := (s.setRing r x).portErr r (sideNo sd) 28
    if x.cs = .pass then s else s.loopDown r s.ownAddr (sd = .west)
  | .node r a =>
    let ev := s.linkEvent 0xFF01 sd ((s.node r a.toNat).timeOff.getD 0)
    s.onNode r a.toNat (fun n =>
      let n := n.setPort sd { n.port sd with sync := false, looped := true, upSent := false }
      ({ n with err := errInc n.err (sideNo sd) 28 } : NodeSt).raise ev)

/-- CODE_GROUP_SYNC_ACQUIRED (R118): the port has synchronisation again; a node in LISTEN ends its loop there. -/
def codeGroupSyncAcquired (st : Station) (sd : Side) (s : State) : State :=
  match st with
  | .head r =>
    s.onRing r (fun x =>
      let p := x.port sd
      x.setPort sd { p with sync := true, looped := p.looped && x.cs != .listen })
  | .node r a => s.onNode r a.toNat (fun n =>
      let p := n.port sd
      n.setPort sd { p with sync := true, looped := p.looped && n.state != .listen })

/-- LINK_UP (R118, R123): synchronisation has held for 1 s. -/
def linkUp (st : Station) (sd : Side) (s : State) : State :=
  match st with
  | .head r =>
    let x := s.ring r
    if (x.port sd).sync then
      (s.setRing r ((x.setPort sd { x.port sd with upSent := true }).raise (s.linkEvent 0xFF02 sd 0))).loopUp r s.ownAddr (sd = .west)
    else s
  | .node r a =>
    let ev := s.linkEvent 0xFF02 sd ((s.node r a.toNat).timeOff.getD 0)
    s.onNode r a.toNat (fun n =>
      if (n.port sd).sync then (n.setPort sd { n.port sd with upSent := true }).raise ev else n)

/-! ### Events (R405) -/

/-- Enqueues a record in HOST_EVENTS (R424). -/
def State.hostEvent (s : State) (r : RingId) (a : Nat) (payload : Bytes) : State :=
  let rec' := le 2 a ++ le 1 (ringNo r) ++ [0] ++ le 2 payload.length ++ [0, 0] ++ fit 32 payload
  let full := decide (256 ≤ s.dict.hostEvents.length)
  let q := (if full then s.dict.hostEvents.drop 1 else s.dict.hostEvents) ++ [rec']
  let s := { s with dict := { s.dict with hostEvents := q } }
  let s := if full then s.setBit kHostEvtStatus 8 true else s
  s.interrupt 2

/-- EVT_ACK message to a node (R396). -/
def ackMsg (a : Nat) (payload : Bytes) : DictMsg :=
  { op := 7, flags := 1, tid := 0, index := 0, sub := 0, dest := BitVec.ofNat 10 a, param := 0, data := fit 16 payload }

/-- What a complete event does (R405, R119). -/
def State.completeEvent (s : State) (r : RingId) (a : Nat) (payload : Bytes) : State :=
  let e : SeenEvent := ⟨a, num payload 0 2, slice payload 4 12⟩
  let s := if s.standby then s
    else { s with dict := { s.dict with ringOut := s.dict.ringOut ++ [(r, a, ackMsg a payload)] } }
  if s.dict.seen.contains e then s
  else
    let s := { s with dict := { s.dict with seen := s.dict.seen ++ [e] } }
    let s := s.log 0x0250 (le 2 a ++ le 1 (ringNo r) ++ [0] ++ le 2 payload.length ++ [0, 0] ++ payload)
    let s := s.hostEvent r a payload
    let west := num payload 16 1 == 1
    if e.code = 0xFF01 then s.loopDown r a west
    else if e.code = 0xFF02 then s.loopUp r a west
    else s

/-- EVENT (R405): segments with MORE are collected; a complete event is acknowledged, recorded and enqueued. -/
def event (f : Frame) (s : State) : State :=
  let r := f.ring
  let a := f.addr.toNat
  if s.dev.phase ≠ .up ∨ f.payload.length < 16 then s
  else
    let head := f.payload.take 16
    let old := s.dict.eventXfers.find? (fun x => x.ring = r ∧ x.addr = a ∧ x.head = head)
    let data := (old.map EventXfer.data).getD [] ++ f.payload.drop 16
    let rest := s.dict.eventXfers.filter (fun x => !(x.ring = r ∧ x.addr = a ∧ x.head = head))
    if f.flags.toNat.testBit 3 then
      { s with dict := { s.dict with eventXfers := rest ++ [⟨r, a, head, data⟩] } }
    else
      ({ s with dict := { s.dict with eventXfers := rest } } : State).completeEvent r a (head ++ data)

/-- An event of the head unit is acknowledged. -/
def RingSt.acked (x : RingSt) (head : Bytes) : RingSt :=
  match x.events with
  | e :: l => if e.take 16 = head.take 16 then { x with events := l, resends := 0 } else x
  | [] => x

/-- An event of the head unit without an acknowledgement is sent again, at most 4 times (R405). -/
def RingSt.resend (x : RingSt) : RingSt :=
  if x.events.isEmpty then x
  else if x.resends < 4 then { x with resends := x.resends + 1 }
  else { x with events := x.events.drop 1, resends := 0 }

/-- EVT_ACK reaches its node, or this head unit (R405). -/
def evtAck (r : RingId) (addr : BitVec 10) (head : Bytes) (s : State) : State :=
  if addr.toNat ≤ 1 then (if addr.toNat = s.ownAddr then s.onRing r (fun x => x.acked head) else s)
  else s.onNode r addr.toNat (fun n => match n.event with
    | some e => if e.take 16 = head.take 16 then n.nextEvent else n
    | none => n)

/-- EVENT_RESEND (R405): at most 4 times. -/
def eventResend (r : RingId) (addr : BitVec 10) (s : State) : State :=
  if addr.toNat ≤ 1 then (if addr.toNat = s.ownAddr then s.onRing r RingSt.resend else s)
  else s.onNode r addr.toNat (fun n =>
    if n.event.isNone then n
    else if n.resends < 4 then { n with resends := n.resends + 1 }
    else n.nextEvent)

/-- NODE_STATUS_SHARE (R102, R363, R375): the partner's view of delays and node states. -/
def nodeStatusShare (f : Frame) (s : State) : State :=
  if !s.paired then s
  else
    let upd (hp : Nat) (x : RingSt) : RingSt := (records 16 f.payload).foldl (fun (x : RingSt) b =>
      x.onRec (num b 0 2 % 1024) (fun n =>
        let c := num b 2 1
        let st : NState := match c with
          | 1 => .locked
          | 2 => .measured
          | 3 => .assigned
          | 4 => .integrated
          | 5 => .excluded
          | _ => n.state
        { n with
          heard := c != 0xFF
          state := st
          barred := c == 6
          writtenA := int b 8 4
          writtenB := int b 12 4
          compA := if hp = 2 ∨ n.rhoA.isNone then int b 8 4 else n.compA
          compB := if hp = 1 ∨ n.rhoB.isNone then int b 12 4 else n.compB })) x
    { s with rings := { s.rings with m := upd (s.n (kHeadPos 0)) s.rings.m, p := upd (s.n (kHeadPos 1)) s.rings.p } }

end Sys2Proof.Machine
end

