-- ==== Sys2Proof/Machine/Pair.lean ====
section
/-! DEFINITION. The redundant pair (chapter "Redundant pair", R355 to R382): the claim logic and its watchdog, heartbeats,
digests, forwarded requests, swap, detach and rejoin. -/

namespace Sys2Proof.Machine

/-- Replaces the pair's own state. -/
def State.onPair (s : State) (f : StPair → StPair) : State := { s with pair := f s.pair }

/-- A bit of RED_STATUS (R382); a change sets the RED interrupt (R418). -/
def State.redBit (s : State) (b : Nat) (v : Bool) : State :=
  if s.bit kRedStatus b = v then s else (s.setBit kRedStatus b v).interrupt 6

/-- Sets the claim state; the role is not settled until a heartbeat shows it (R361, R362). -/
def State.setClaim (s : State) (c : Nat) : State :=
  let was := s.owner
  let s := (s.setN kRedClaimState c).redBit 1 false
  if s.owner = was then s else s.interrupt 6

/-- Record 0x0240 (R380) and the start of RED_SINCE_SWAP (R379). DEDUCED, log entry 46. -/
def State.roleChange (s : State) (cause role : Nat) : State :=
  let s := s.log 0x0240 (le 1 cause ++ le 1 role ++ [0, 0] ++ le 8 s.cycle)
  (s.onPair (fun p => { p with roleSince := s.recd.optime })).redBit 10 false

/-- OFF and the device is eligible (R361). DEDUCED, log entry 46. -/
def State.becomeEligible (s : State) : State :=
  if s.n kRedClaimState = 0 ∧ s.pair.enteredSync ∧ s.pair.trip.isNone then
    if s.pair.peer then (s.setClaim 1).roleChange 0 0
    else (s.setClaim 2).onPair (fun p => { p with fromWait := false })
  else s

/-- The device has entered SYNC: it becomes eligible, and its heartbeats count from 0 (R84, R361). -/
def State.enteredSync (s : State) : State :=
  (s.onPair (fun p => { p with
    enteredSync := true
    link := { p.link with count := 0 }
    ringM := { p.ringM with count := 0 } })).becomeEligible

/-- The cycle number whose low 32 bits a frame carries, nearest at or below the next cycle. -/
def State.cycleOf (s : State) (low : Nat) : Nat :=
  let c := s.cycle + 2 ^ 31
  c - (c + 2 ^ 32 - low % 2 ^ 32) % 2 ^ 32

/-- ILK_PEER_CHANGE (R360, R361). -/
def ilkPeerChange (level : Bool) (s : State) : State :=
  let s := s.onPair (fun p => { p with peer := level })
  match s.n kRedClaimState with
  | 1 => if level then s else (s.setClaim 2).onPair (fun p => { p with fromWait := true })
  | 2 =>
    if level then
      let s := s.setClaim 1
      if s.pair.fromWait then s else s.roleChange 0 0
    else s
  | 3 =>
    if !level ∨ s.pair.swapAt = some s.cycle then s
    else if s.cellQ ≤ s.pair.claimedAt + 500 * 65536 then
      if s.dev.unitId then (s.setClaim 1).roleChange 3 0 else s
    else
      let s := (s.redBit 8 true).log 0x0243 [1, 0, 0, 0]
      if s.dev.unitId then
        let s := s.setClaim 4
        { s with dev := { s.dev with deviceFaults := s.dev.deviceFaults ++ [⟨0x0208, 0xFF, s.cycle, 0⟩] } }
      else s
  | _ => s

/-- HOLDOFF_ELAPSED (R361, R376, R377). DEDUCED, log entry 2. DEDUCED, log entry 46. -/
def holdoffElapsed (s : State) : State :=
  if s.n kRedClaimState ≠ 2 ∨ s.pair.peer then s
  else
    let take := s.pair.fromWait
    let s := (s.setClaim 3).onPair (fun p => { p with
      claimedAt := s.cellQ
      heardSinceClaim := false
      stopAtOwner := take && (s.bit kRedStatus 5 || s.bit kRedStatus 6)
      actAlone := p.actAlone || take })
    if take then (((s.redBit 2 true).inc kRedTakeovers).roleChange 1 1) else s.roleChange 0 1

/-- CLAIM_WD_TRIP (R359, R361, R376): outputs inert and ports in pass-through at once; the claim ends. DEDUCED, log entry 46. -/
def claimWdTrip (c : WdCause) (s : State) : State :=
  if s.dev.phase ≠ .up ∨ (c = .fault ∧ s.dev.state ≠ .fault) then s
  else
    let cause : WdCause := if s.pair.trip = some .fault then .fault else c
    let s := s.onPair (fun p => { p with trip := some cause, inert := true, passThrough := true })
    if s.n kRedClaimState = 4 then s else s.setClaim 0

/-- The ports are in hardware pass-through whatever the watchdog does (R23, R63, R375). -/
def State.portsThrough (s : State) : Bool :=
  s.isIn [.inert, .fault, .service] || !s.dev.committed || s.pair.rejoining

/-- A trip that FAULT does not hold clears when feeding and strobes resume, and the claim logic restarts from OFF (R359). -/
def State.clearTrip (s : State) : State :=
  if s.pair.trip = some .lateFeed ∨ s.pair.trip = some .noStrobe then
    (s.onPair (fun p => { p with trip := none, inert := false, passThrough := s.portsThrough })).becomeEligible
  else s

/-- What DEV_RESET does to the claim logic, and to the reference with the mastership (R48, R359, R361). -/
def State.resetClaim (s : State) : State :=
  ((s.setClaim 0).onPair (fun p =>
    { p with trip := none, inert := false, passThrough := true, enteredSync := false, swapAt := none, detachAt := none,
             fromWait := false, active := false, actAlone := false })).refFix s

/-! ### Digests (R368 to R370) -/

/-- DIVERGED is set (R369 to R371, R375); the standby sends NULL from the next cycle start. DEDUCED, log entry 46. -/
def State.diverge (s : State) (first : Nat) : State :=
  if s.bit kRedStatus 5 then s
  else
    let s := (s.redBit 5 true).log 0x0242 ([0, 0, 0, 0] ++ le 8 first)
    let s := s.onPair (fun p => { p with nullNext := true })
    if s.owner ∧ (s.ring .m).fbt.isSome then s.stopDemand else s

/-- One comparison of the digests of a cycle (R365, R368, R369). DEDUCED, log entry 46. -/
def State.compareDigest (s : State) (cycle : Nat) (equal : Bool) : State :=
  if equal then
    let s := s.onPair (fun p => { p with diffRun := 0, sameRun := p.sameRun + 1 })
    if 4 ≤ s.pair.sameRun ∧ !s.bit kRedStatus 6 then s.onPair (fun p => { p with splitNull := false }) else s
  else
    let s := s.inc kRedDigestMiss
    let s := s.onPair (fun p =>
      { p with sameRun := 0, diffRun := p.diffRun + 1, firstDiff := if p.diffRun = 0 then cycle else p.firstDiff })
    if 4 ≤ s.pair.diffRun then s.diverge s.pair.firstDiff else s

/-- The own digest of the cycle that ended is formed (R368). -/
def State.formDigest (s : State) : State :=
  if !s.paired ∨ s.cycle = 0 ∨ !s.pair.enteredSync then s
  else
    let c := s.cycle - 1
    let d := s.digestOf c
    s.onPair (fun p => { p with own := (⟨c, d⟩ :: p.own).take 4 })

/-- The partner's digest of a cycle arrives, on the first of its two paths: it is compared with the own one. -/
def State.peerDigest (s : State) (c d : Nat) : State :=
  match s.pair.own.find? (fun x => x.cycle == c) with
  | some x =>
    if s.pair.peerDigests.any (fun y => y.cycle == c) then s
    else (s.onPair (fun p => { p with peerDigests := (⟨c, d⟩ :: p.peerDigests).take 4 })).compareDigest c (x.digest == d)
  | none => s

/-! ### Heartbeats -/

/-- This device sends heartbeats: from SYNC on, and when it rejoins from the cycle in which its grid locked (R84, R375). -/
def State.beats (s : State) : Bool := s.paired && s.pair.enteredSync && (!s.pair.rejoining || s.pair.gridAt.isSome)

/-- Path number of R380. -/
def hbNo : HbPath → Nat
  | .link => 0
  | .ringM => 1

/-- A path's state. -/
def StPair.path (p : StPair) : HbPath → HbPathSt
  | .link => p.link
  | .ringM => p.ringM

/-- Replaces a path's state. -/
def StPair.setPath (p : StPair) (h : HbPath) (x : HbPathSt) : StPair :=
  match h with
  | .link => { p with link := x }
  | .ringM => { p with ringM := x }

/-- RED_STATUS bit of a lost path. -/
def hbBit (h : HbPath) : Nat := 3 + hbNo h

/-- The partner's newest heartbeat: from a path that is not lost, the link first. -/
def State.peerHb (s : State) : Bytes :=
  slice (s.obj kRedPeerHb) (if s.bit kRedStatus 3 then 16 else 0) 16

/-- ROLE_SETTLED (R362). -/
def State.settle (s : State) (role : Nat) : State :=
  let ok := s.owner && (role == 0 || s.bit kRedStatus 7) || s.n kRedClaimState == 1 && role == 1
  s.redBit 1 ok

/-- HB (R84, R362, R364, R365, R368); a second copy on the path brings nothing. -/
def hb (path : HbPath) (f : Frame) (s : State) : State :=
  if !s.paired ∨ s.dev.phase ≠ .up ∨ f.seq.toNat ≠ s.cycle % 2 ^ 32 ∨ (s.pair.path path).lastSeq = some f.seq.toNat then s
  else
    let x := s.pair.path path
    let s := s.onPair (fun p => { p.setPath path { x with okRun := x.okRun + 1, lastSeq := some f.seq.toNat } with
      heardSinceClaim := true
      partnerDetachAt := if (num f.payload 2 1).testBit 3 ∧ p.partnerDetachAt.isNone then some (s.cycle + 2) else p.partnerDetachAt })
    let s := s.patchObj kRedPeerHb (16 * hbNo path) (fit 16 f.payload)
    let s := s.settle (num f.payload 1 1)
    let s :=
      if s.bit kRedStatus (hbBit path) ∧ 4 ≤ (s.pair.path path).okRun then
        let s := (s.redBit (hbBit path) false).log 0x0241 (le 1 (hbNo path) ++ [1, 0, 0])
        if s.bit kRedStatus 6 then (s.redBit 6 false).onPair (fun p => { p with sameRun := 0 }) else s
      else s
    s.peerDigest (s.cycle - 1) (num f.payload 4 4)

/-- Misses of the cycle that ended: RED_HB_MISS counts them and the run of received heartbeats ends (R364, R381). -/
def State.hbMiss (s : State) (h : HbPath) : State :=
  let x := s.pair.path h
  if !s.paired ∨ s.cycle = 0 ∨ (!s.owner ∧ !s.standby) ∨ x.lastSeq = some ((s.cycle - 1) % 2 ^ 32) then s
  else
    let o := 4 * hbNo h
    let s := s.onPair (fun p => p.setPath h { x with okRun := 0 })
    s.patchObj kRedHbMiss o (le 4 (satInc 32 (s.sub kRedHbMiss o 4)))

/-- HB_PATH_LOSS (R364, R365, R374). -/
def hbPathLoss (path : HbPath) (s : State) : State :=
  if !s.paired ∨ s.bit kRedStatus (hbBit path) then s
  else
    let s := (s.redBit (hbBit path) true).log 0x0241 (le 1 (hbNo path) ++ [0, 0, 0])
    let s := s.onPair (fun p => p.setPath path { p.path path with okRun := 0 })
    if s.bit kRedStatus 3 ∧ s.bit kRedStatus 4 then
      if s.owner then
        let s := s.redBit 7 true
        s.onPair (fun p => { p with actAlone := true })
      else if s.standby ∧ s.pair.peer then
        let s := (s.redBit 6 true).log 0x0243 [0, 0, 0, 0]
        s.onPair (fun p => { p with splitNull := true, sameRun := 0 })
      else s
    else s

/-- PARTNER_ABSENT (R362). -/
def partnerAbsent (s : State) : State :=
  if s.paired ∧ s.owner ∧ !s.pair.heardSinceClaim then (s.redBit 7 true).redBit 1 true else s

/-! ### Forwarding (R371) -/

/-- CMD_UNACKED (R371): the owner still applies the write, which waits for its apply cycle. -/
def cmdUnacked (s : State) : State :=
  let late := s.pair.forwarded.filter (fun x => decide (x.applyCycle ≤ s.cycle + 1))
  if !s.owner ∨ late.isEmpty then s
  else (s.redBit 9 true).onPair (fun p =>
    { p with forwarded := p.forwarded.filter (fun x => decide (s.cycle + 1 < x.applyCycle)) })

/-- FORWARD_ACK (R363). -/
def forwardAck (f : Frame) (s : State) : State :=
  let c := num f.payload 0 4
  s.onPair (fun p => { p with forwarded := p.forwarded.filter (fun x => x.cseq != c) })

/-- A forwarded write waits for its apply cycle; a forwarded command waits for its evaluation there (R371, R378, R422). -/
def State.takeForwarded (s : State) (apply : Nat) (m : Bytes) : State :=
  let q := parseMsg m
  let key := objKey q.index.toNat q.sub.toNat
  let v := m.drop 16
  if q.op ≠ 2 then s
  else if key = kDevCmd then
    if leVal v = 0x0040 then s.onPair (fun p => { p with swapAt := some apply })
    else { s with dev := { s.dev with cmds := s.dev.cmds ++ [⟨.partner, leVal v, apply⟩] } }
  else { s with dict := { s.dict with pendingWrites := s.dict.pendingWrites ++ [⟨.partner, key, v, apply⟩] } }

/-- FORWARDED_REQUEST (R363, R371): a gap in CSEQ sets DIVERGED at once; the frame is acknowledged. -/
def forwardedRequest (f : Frame) (s : State) : State :=
  if !s.paired ∨ !s.standby then s
  else
    let c := num f.payload 0 4
    let gap := match s.pair.cseqIn with
      | some d => c != (d + 1) % 2 ^ 32
      | none => false
    let s := if gap then s.diverge s.cycle else s
    let s := (s.onPair (fun p => { p with cseqIn := some c })).linkSend 4 5 (le 4 c)
    s.takeForwarded (s.cycleOf (num f.payload 4 4)) (f.payload.drop 8)

/-- A state change that the owner makes on a local event is forwarded; the spec gives its request no layout (R373).
DESIGN CHOICE, log entry 11. DEDUCED, log entry 68. -/
def State.forwardEvent (s : State) : State :=
  if s.paired ∧ s.owner then
    ({ s with free := s.free + 1 } : State).forward s.cycle (Config.freeBytes s.free)
  else s

/-! ### Detach, rejoin and swap -/

/-- SINGLE_HEAD of both rings (R124). -/
def State.singleHead (s : State) (v : Bool) : State :=
  let s := (s.ringBit .m 5 v).ringBit .p 5 v
  if v then s else (s.onRing .m (fun x => { x with survivor := false })).onRing .p (fun x => { x with survivor := false })

/-- VER_MIXED after a rejoining commit, on both units (R375, R451). -/
def State.rejoinVersions (s : State) (peer : Option PeerInfo) : State := match peer with
  | some p => s.redBit 11 (!s.sameVersions p)
  | none => s

/-- REJOIN_TAKEUP (R375); `peer` is what the owner learns of the unit that rejoins. DEDUCED, log entry 46. -/
def rejoinTakeup (peer : Option PeerInfo) (s : State) : State :=
  if s.pair.rejoining then
    if s.pair.gridAt.isNone then s
    else (s.onPair (fun p => { p with rejoining := false, passThrough := false, inert := false })).roleChange 5 0
  else if s.owner ∧ (s.bit kRedStatus 7 ∨ s.bit (kRingStatus 0) 5) then
    let s := s.onPair (fun p => { p with peerInfo := peer.or p.peerInfo })
    (((s.singleHead false).redBit 7 false).roleChange 5 1).rejoinVersions peer
  else s

/-- Why a PLANNED_SWAP is refused (R378): the abort code, or 0. -/
def State.swapRefusal (s : State) : Nat :=
  if !s.isIn [.ready, .run, .hold] then abState
  else if !s.paired then abNoResource
  else
    let hb := s.peerHb
    let mixed := s.bit kRedStatus 11 && s.dev.state == .ready && num hb 0 1 == DevState.ready.code && decide (s.pair.diffRun = 0)
    let peerBad := match s.pair.peerInfo with
      | some i => i.channelFault || i.tierActive.toNat != s.tierActive
      | none => false
    let busy := !s.bit kRedStatus 1 || s.bit kRedStatus 3 || s.bit kRedStatus 4 || s.bit kRedStatus 6 || s.bit kRedStatus 7 ||
      (s.bit kRedStatus 5 && !mixed) || num hb 0 1 != s.dev.state.code || peerBad
    if busy then abBusy else 0

/-- Record 0x0244 (R380). -/
def State.swapRecord (s : State) (cancelled : Bool) (c : Nat) : State :=
  s.log 0x0244 (le 1 (b01 cancelled) ++ [0, 0, 0] ++ le 8 c)

/-- A refusal condition that arises before c_s cancels the swap (R378). -/
def State.checkSwap (s : State) : State :=
  match s.pair.swapAt with
  | some c =>
    if s.swapRefusal ≠ 0 then (s.onPair (fun p => { p with swapAt := none })).swapRecord true c else s
  | none => s

/-- SWAP_INSTANT (R378, R361, R48, R49). DEDUCED, log entry 46. -/
def swapInstant (s : State) : State :=
  match s.checkSwap.pair.swapAt with
  | none => s.checkSwap
  | some c =>
   if s.cycle < c then s
   else
    let s := s.onPair (fun p => { p with swapAt := none })
    let s := (s.inc kRedSwaps).swapRecord false c
    if s.owner then
      let s := (s.setClaim 1).onPair (fun p => { p with active := false })
      ((s.refSwitch s.refWanted).roleChange 2 0).settle 1
    else if s.n kRedClaimState = 1 then
      let s := (s.setClaim 3).onPair (fun p => { p with
        active := true, claimedAt := s.cellQ, heardSinceClaim := true, stopAtOwner := s.bit kRedStatus 5 || s.bit kRedStatus 6 })
      ((s.refSwitch s.refWanted).roleChange 2 1).settle 0
    else s

/-- Operating seconds since the last role change (R379). -/
def State.sinceSwap (s : State) : Nat := (s.recd.optime - s.pair.roleSince) / 16

/-- SWAP_DUE (R379). -/
def swapDue (s : State) : State :=
  if s.n kRedSwapAdvise ≤ s.sinceSwap then s.redBit 10 true else s

/-- The cycle-start work of the pair: trips that clear, digests, heartbeats, the role from this cycle on (R358, R369, R376, R377). -/
def State.pairCycle (s : State) : State :=
  let s := s.clearTrip.onPair (fun p => { p with nullDup := p.nullDup || p.nullNext, nullNext := false })
  let s := ((s.formDigest).hbMiss .link).hbMiss .ringM
  let s := s.onPair (fun p => { p with forwarded := p.forwarded.filter (fun x => decide (s.cycle < x.applyCycle)) })
  let s :=
    if s.owner ∧ !s.pair.active then
      let s := s.onPair (fun p => { p with active := true })
      s.refSwitch s.refWanted
    else if !s.owner ∧ s.pair.active then
      let s := s.onPair (fun p => { p with active := false })
      s.refSwitch s.refWanted
    else s
  let s := if s.pair.actAlone ∧ s.owner then (s.singleHead true).onPair (fun p => { p with actAlone := false }) else s
  let s := if s.pair.stopAtOwner ∧ s.owner then s.stopDemand.onPair (fun p => { p with stopAtOwner := false }) else s
  if s.bit kRedStatus 5 ∧ !s.bit kRedStatus 11 ∧ s.dev.state = .ready ∧ num s.peerHb 0 1 = DevState.ready.code then
    ((s.redBit 5 false).log 0x0242 ([1, 0, 0, 0] ++ le 8 s.pair.firstDiff)).onPair (fun p => { p with diffRun := 0 })
  else s

/-- Duplicates resume at an entry to RUN (R369). DEDUCED, log entry 46. -/
def State.pairRun (s : State) : State :=
  if s.bit kRedStatus 5 then s else s.onPair (fun p => { p with nullDup := false, nullNext := false })

end Sys2Proof.Machine
end

