-- ==== Sys2Proof/Machine/Monitor.lean ====
section
/-! DEFINITION. The supply monitor with its calibrations, the shedding logic, the clock watch, the PLLs and the Lamplighter's
burst domains (R460 to R488), and the hardware faults that DEVICE_FAULT_DETECTED reports (R25, R26). -/

namespace Sys2Proof.Machine

def State.onMon (s : State) (f : StMon → StMon) : State := { s with mon := f s.mon }

/-- A device fault waits for the cycle start of R28. -/
def State.devFault (s : State) (type unit detail : Nat) : State :=
  { s with dev := { s.dev with deviceFaults := s.dev.deviceFaults ++ [⟨type, unit, s.cycle, detail⟩] } }

/-! ### Channels (R472) -/

/-- Full scale of a channel in µV; 0 for a temperature channel. -/
def tapFs (c : Nat) : Nat :=
  if c < 10 then 1000000 else if c < 13 then 2048000 else if c < 16 then 4096000 else if c < 18 then 2048000
  else if c < 20 then 1536000 else if c < 24 then 1000000 else 0

/-- Channels of a group. -/
def groupTaps (g : Nat) : List Nat :=
  match g with
  | 0 => List.range 8
  | 1 => [8, 9]
  | 2 => [10, 11, 12]
  | 3 => [13, 14, 15]
  | 4 => [16, 17]
  | 5 => [18, 19]
  | 6 => [20, 21]
  | _ => []

/-- The group of a channel. -/
def tapGroup (c : Nat) : Option Nat := (List.range 7).find? (fun g => (groupTaps g).contains c)

/-- The lowest result, in 1/16 LSB, that is not below a level in µV. -/
def tapAt (c uv : Nat) : Nat := (uv * 65536 + tapFs c - 1) / max (tapFs c) 1

/-- Maximum of the range of a channel's rail, µV (R460). -/
def railMax (c : Nat) : Nat :=
  if c < 10 then 800000 else if c < 13 then 1890000 else if c < 16 then 3465000 else if c < 18 then 1890000
  else if c < 20 then 1170000 else 650000

/-! ### Shedding conditions (R480) -/

/-- A supply row of the table: its channels, threshold and hysteresis in µV, and stage. -/
structure ShedRow where
  taps : List Nat
  level : Nat
  back : Nat
  stage : Nat
deriving DecidableEq, Repr

/-- Rows 0 to 10 of the table. -/
def shedRows : List ShedRow :=
  [⟨groupTaps 0, 715000, 15000, 1⟩, ⟨groupTaps 0, 700000, 15000, 2⟩, ⟨groupTaps 0, 690000, 15000, 3⟩,
   ⟨groupTaps 0, 675000, 15000, 4⟩, ⟨groupTaps 0, 660000, 15000, 5⟩, ⟨groupTaps 1, 690000, 15000, 5⟩,
   ⟨groupTaps 2, 1650000, 30000, 5⟩, ⟨groupTaps 3, 3000000, 60000, 5⟩, ⟨groupTaps 4, 1650000, 30000, 3⟩,
   ⟨groupTaps 5, 1000000, 15000, 3⟩, ⟨groupTaps 6, 540000, 15000, 3⟩]

/-- Temperature channels. -/
def tempTaps : List Nat := (List.range 8).map (· + 24)

/-- Channels of each condition: the supply rows, 140 °C, and REF_FAULT. -/
def condTaps (i : Nat) : List Nat :=
  match shedRows[i]? with
  | some r => r.taps
  | none => if i = 11 then tempTaps else [22, 23]

/-- Stage of each condition. -/
def condStage (i : Nat) : Nat :=
  match shedRows[i]? with
  | some r => r.stage
  | none => 3

/-- A result of a channel of REF_FAULT lies outside its bounds (R473). DEDUCED, log entry 52. -/
def refOut (c v : Nat) : Bool :=
  if c = 22 then decide (v * 1000000 < 590000 * 65536) || decide (610000 * 65536 < v * 1000000)
  else decide (5000 * 65536 < v * 1000000)

/-- A result lies beyond a condition's threshold. 140 °C is C = 52,224. -/
def condBeyond (i c v : Nat) : Bool :=
  match shedRows[i]? with
  | some r => decide (v < tapAt c r.level)
  | none => if i = 11 then decide (52224 ≤ v) else refOut c v

/-- A result lies back by the hysteresis; 135 °C is C = 50,944. DEDUCED, log entry 52. -/
def condBack (i c v : Nat) : Bool :=
  match shedRows[i]? with
  | some r => decide (tapAt c (r.level + r.back) ≤ v)
  | none => if i = 11 then decide (v ≤ 50944) else !refOut c v

/-- A DRAM controller is in service: the device is up and one of them passed its test. DEDUCED, log entry 52. -/
def State.dramOn (s : State) : Bool := s.dev.phase == .up && !(s.bit kUnitFail 44 && s.bit kUnitFail 45)

/-- A condition is watched: the DRAM rails only while a DRAM controller is in service. -/
def State.condOn (s : State) (i : Nat) : Bool := !(i == 9 || i == 10) || s.dramOn

/-- The final record's trigger for a condition of stage S5 (R436). -/
def condTrigger (i : Nat) : Nat :=
  match i with
  | 4 => 0
  | 6 => 1
  | 7 => 2
  | _ => 3

/-! ### Stages (R481, R482) -/

/-- Every present arm stands still, or is under STO in both halves. -/
def State.allStill (s : State) : Bool := s.arms.all (fun a => s.atRest a || (s.sarm a).stoP && (s.sarm a).stoH)

/-- The end of S4's wait: STO for every arm, every brake applied, and the Motion Quarter clocks stop. -/
def State.s4Stop (s : State) : State :=
  (((s.clocksStop (fun e => e != 64)).onArms (fun _ x => x.stoBoth)).onMon (fun m => { m with s4wait := false, stopped := true })).drive

/-- What follows from standstill in S3 and S4 (R21, R481). -/
def State.shedStandstill (s : State) : State :=
  if s.n kShedStage < 3 ∨ !s.allStill then s
  else
    let s := { s with dev := { s.dev with shedStill := true } }
    if s.mon.s4wait then s.s4Stop else s

/-- The actions of one stage. -/
def State.shedAction (s : State) (k trigger : Nat) : State :=
  match k with
  | 1 => s.onRec (fun x => { x with general := { x.general with defer := true } })
  | 2 => s.setIterActive
  | 3 => s.motionStop.axStopAll
  | 4 => (s.axHalt.fbStop).onMon (fun m => { m with s4wait := true })
  | _ =>
    let s := (s.onArms (fun _ x => x.stoBoth)).drive
    (s.onPair (fun p => { p with passThrough := true })).finalRecord trigger

/-- Entry to a stage: it latches, and the actions of every shallower stage apply too. DEDUCED, log entry 53. -/
def State.enterStage (s : State) (k trigger : Nat) : State :=
  let old := s.n kShedStage
  if k ≤ old then s
  else
    let s := s.setN kShedStage k
    let s := s.patchObj kShedCount (4 * (k - 1)) (le 4 (satInc 32 (s.sub kShedCount (4 * (k - 1)) 4)))
    let s := (List.range 5).foldl (fun s j => if old ≤ j ∧ j < k then s.shedAction (j + 1) trigger else s) s
    let s := if 3 ≤ k then { s with dev := { s.dev with shedEvent := max s.dev.shedEvent k } } else s
    s.shedStandstill

/-- SHED_LIVE for the conditions that hold. -/
def liveStages (conds : List Bool) : Nat :=
  maskOf ((List.range 5).filter (fun k => conds.zipIdx.any (fun p => p.1 && condStage p.2 == k + 1)))

/-- The re-enable of R482; nothing while a condition holds. -/
def State.reenable (s : State) : State :=
  if s.mon.conds.any id then s
  else
    let deep := decide (4 ≤ s.n kShedStage)
    let s := ((s.setN kShedStage 0).setN kShedMinCore 0xFFFF).setIterActive
    let s := s.onRec (fun x => { x with general := x.general.undefer })
    let s := { s with dev := { s.dev with shedStill := false, shedEvent := 0 } }
    let s := s.onMon (fun m => { m with s4wait := false, stopped := false })
    if deep then s.fbResume else s

/-- The own checks of SHED_REENABLE. -/
def reenableOwn (v : Bytes) (s : State) : Nat :=
  if leVal v ≠ 1 then abRange else if s.dev.state = .fault then abState else if s.mon.conds.any id then abBusy else 0

/-- SHED_REENABLE (R482). -/
def shedReenable (rq : Requester) (v : Byte) (s : State) : State :=
  submitWrite rq 0x8800 0x04 [v] (reenableOwn [v]) State.reenable s

/-- S4_STANDSTILL_TIMEOUT (R481). DEDUCED, log entry 2. -/
def s4StandstillTimeout (s : State) : State := if s.mon.s4wait then s.s4Stop else s

/-! ### Injected conversions (R475) -/

/-- The slice of a slot calibrates. -/
def StMon.calibrates (m : StMon) (slot : Nat) : Bool := m.calib == some (slot % 4, true)

/-- The first slot from `n` on that an injection may take; one of the Kerb passes over those of the shedding logic. -/
def StMon.freeSlot (m : StMon) (by_ : Injector) (n : Nat) : Nat :=
  let taken (j : Nat) := m.injs.any (fun i => i.slot == j && (by_ == .shedding || i.by_ == .kerb))
  n + ((List.range 256).find? (fun j => !m.calibrates (n + j) && !taken (n + j))).getD 0

/-- Requests an injected conversion; a displaced request of the shedding logic takes the next free slot. DEDUCED, log entry 52. -/
def StMon.inject (m : StMon) (by_ : Injector) (c n : Nat) : StMon :=
  let j := m.freeSlot by_ n
  let out := m.injs.filter (fun i => i.slot == j)
  let m := { m with injs := m.injs.filter (fun i => i.slot != j) ++ [⟨j, c, by_⟩] }
  out.foldl (fun m i => { m with injs := m.injs ++ [⟨m.freeSlot .shedding (j + 1), i.chan, i.by_⟩] }) m

/-- Injections of the shedding logic that fall due with a result of slot `now`, after the one of slot `prev`: one every 400 ns
from the request that started the timing. DEDUCED, log entry 52. -/
def StMon.timedInject (m : StMon) (prev now : Nat) : StMon :=
  if m.conds.headD false then m
  else (groupTaps 0).foldl (fun m c =>
    match (m.chans.getD c .reset).since with
    | none => m
    | some n0 =>
      let due := (List.range 8).find? (fun j => decide (prev + j + 1 ≤ now) && decide (n0 < prev + j + 1) && (prev + j + 1 - n0) % 8 == 0)
      match due with
      | some j => m.inject .shedding c (prev + j + 8)
      | none => m) m

/-- A slice that waited for its injected conversion begins to calibrate (R477). -/
def StMon.calibrate (m : StMon) : StMon :=
  match m.calib with
  | some (c, false) => if m.injs.any (fun i => i.slot % 4 == c) then m else { m with calib := some (c, true) }
  | _ => m

/-! ### Results (R471, R473, R479, R480) -/

/-- The group's system correction of a self-calibrated result (R478): gain × v + offset. A result that is no whole number of
1/16 LSB is rounded freely, and one outside the field is free. DEDUCED, log entry 52. -/
def State.sysCorrect (s : State) (c v : Nat) : Nat × State :=
  match tapGroup c with
  | none => (v, s)
  | some g =>
    let r := f32.ratio (s.sub kMonSyscal (8 * g + 4) 4)
    let num : Int := r.1 * v * tapFs c + int (s.obj kMonSyscal) (8 * g) 4 * 65536 * r.2
    let den : Int := r.2 * tapFs c
    let q := num / den
    if num % den = 0 ∧ 0 ≤ q ∧ q ≤ 65535 then (q.toNat, s)
    else
      let f := s.fresh
      (if 0 ≤ q ∧ q < 65535 then q.toNat + f.1 % 2 else f.1 % 65536, f.2)

/-- The channel after a result: newest value, masks, run below 0.715 V, tracker, and the accumulator for a sequence result. -/
def MonCh.take (x : MonCh) (mask v slot : Nat) (seq : Bool) : MonCh :=
  let add := seq && !x.sat
  { last := some v, beyond := mask, since := if mask.testBit 0 then x.since.orElse (fun _ => some slot) else none,
    sum := if add then (x.sum + v) % 2 ^ 48 else x.sum, count := if add then x.count + 1 else x.count,
    min := Nat.min x.min v, max := Nat.max x.max v, sat := x.sat || add && x.count + 1 == 2 ^ 32 - 1 }

/-- Conditions that a channel's new result makes hold: two consecutive results, or 2 µs for the first (R480).
DEDUCED, log entry 52. -/
def condHolds (old new : MonCh) (slot : Nat) : Nat :=
  let two := old.beyond &&& new.beyond
  let long := match new.since with
    | some n0 => decide (n0 + 40 ≤ slot)
    | none => false
  setBit two 0 long

/-- A condition has every result of its taps back by the hysteresis. -/
def StMon.condClear (m : StMon) (i : Nat) : Bool :=
  (condTaps i).all (fun c => match (m.chans.getD c .reset).last with
    | some v => condBack i c v
    | none => true)

/-- Flags and objects that a result feeds besides the conditions (R482 to R487). -/
def State.resultFlags (s : State) (c v : Nat) : State :=
  let s := if c < 8 ∧ v < s.n kShedMinCore then s.setN kShedMinCore v else s
  let s := if c < 22 ∧ railMax c * 65536 < v * tapFs c then s.setBit kPwrStatus 4 true else s
  if 24 ≤ c ∧ (s.i kMonTjWarn + 64) * 256 ≤ (v : Int) then s.setBit kMonStatus 3 true else s

/-- A corrected result of a channel. -/
def State.monResult (s : State) (c v slot : Nat) (seq : Bool) : State :=
  let old := s.mon.chans.getD c .reset
  let mask := maskOf ((List.range 13).filter (fun i => (condTaps i).contains c && s.condOn i && condBeyond i c v))
  let new := old.take mask v slot seq
  let s := s.resultFlags c v
  let hold := condHolds old new slot
  let before := s.mon.conds
  let s := s.onMon (fun m =>
    let m := { m with chans := modAt m.chans c (fun _ => new) }
    { m with conds := (List.range 13).map (fun i =>
        s.condOn i && (hold.testBit i || before.getD i false && !m.condClear i)) })
  let s := (s.setN kShedLive (liveStages s.mon.conds)).setBit kPwrStatus 3 (s.mon.conds.getD 12 false)
  let s := if old.since.isNone ∧ new.since.isSome then s.onMon (fun m => m.inject .shedding c (slot + 7)) else s
  (List.range 13).foldl (fun s i =>
    if s.mon.conds.getD i false ∧ !before.getD i false then s.enterStage (condStage i) (condTrigger i) else s) s

/-- What every conversion's end brings: timed injections, and a calibration that waited. -/
def State.afterResult (s : State) (slot : Nat) : State :=
  s.onMon (fun m => ({ m with slotNow := max m.slotNow slot }.timedInject m.slotNow slot).calibrate)

/-- System calibration takes a sequence result of a tap, spread evenly over the taps, up to 65,536 in all (R478). -/
def AvgSt.take (a : AvgSt) (c v : Nat) : AvgSt :=
  match (groupTaps a.group).findIdx? (fun t => t == c) with
  | none => a
  | some i =>
    let k := (groupTaps a.group).length
    if (a.counts.getD i 0) * k < 65536 ∧ a.counts.sum < 65536 then { a with sum := a.sum + v, counts := modAt a.counts i (· + 1) } else a

/-- ADC_CONVERSION (R471, R474): `v` is the result of the slot after its slice's correction. -/
def adcConversion (slot : Nat) (v : W16) (s : State) : State :=
  let q := s.obj kMonSeq
  if s.dev.phase = .reset ∨ s.mon.calibrates slot ∨ s.mon.injs.any (fun i => i.slot == slot) then s
  else
    match q[s.mon.seqPos % q.length]? with
    | none => s
    | some c =>
      let c := c.toNat % 32
      let s := s.onMon (fun m => { m with seqPos := (m.seqPos + 1) % q.length, avg := m.avg.map (fun a => a.take c v.toNat) })
      let r := s.sysCorrect c v.toNat
      (r.2.monResult c r.1 slot true).afterResult slot

/-- The Kerb compares a result of its own request with its copies of the S5 thresholds (R475). -/
def State.kerbCompare (s : State) (i : Inj) (v : Nat) : State :=
  if i.by_ = .shedding then s
  else if i.chan = 13 then (if condBeyond 7 13 v then s.enterStage 5 2 else s)
  else if condBeyond 5 i.chan v then s.enterStage 5 3 else s

/-- INJECTED_CONVERSION (R475): the result of an injected conversion of the slot. -/
def injectedConversion (slot : Nat) (v : W16) (s : State) : State :=
  match s.mon.injs.find? (fun i => i.slot == slot) with
  | none => s
  | some i =>
    if s.dev.phase = .reset then s
    else
      let s := s.onMon (fun m => { m with injs := m.injs.filter (fun i => i.slot != slot) })
      let r := s.sysCorrect i.chan v.toNat
      ((r.2.monResult i.chan r.1 slot false).kerbCompare i r.1).afterResult slot

/-- The Kerb's requests of a 250 µs instant (R475). DEDUCED, log entry 52. -/
def State.kerbInject (s : State) : State :=
  s.onMon (fun m => (((m.inject .kerb 8 (m.slotNow + 7)).inject .kerb 9 (m.slotNow + 7)).inject .kerb 13 (m.slotNow + 7)))

/-- SAFETY_CHECK_TICK (R16): the safety checks, the Kerb's conversions, and the standstill that S3 and S4 wait for. -/
def safetyCheckTick (fromP fromH : Bool) (s : State) : State :=
  if s.dev.phase = .reset then s else (s.safetyChecks fromP fromH).kerbInject.shedStandstill

/-! ### Windows (R479, R488) -/

/-- MON_WINDOW_END: the copy to MON_RESULT, at a cycle number that is a multiple of the window length. -/
def monWindowEnd (c : Fin 32) (s : State) : State :=
  let x := s.mon.chans.getD c.val .reset
  let w := s.sub kMonWin (4 * c.val) 4
  if s.dev.phase = .reset ∨ s.cycle % w ≠ 0 then s
  else
    let r := le 8 x.sum ++ le 4 x.count ++ le 2 x.min ++ le 2 x.max ++ le 8 s.cycle ++ le 1 (b01 x.sat) ++ zeros 7
    (s.setObj (kMonResult c.val) r).onMon (fun m =>
      { m with chans := modAt m.chans c.val (fun x => { x with sum := 0, count := 0, min := 0xFFFF, max := 0, sat := false }) })

/-! ### Self-calibration (R476, R477) -/

/-- A slice falls due. -/
def State.calSlice (s : State) (c : Nat) : State := s.onMon (fun m => { m with calib := some (c, false) }.calibrate)

/-- MON_CAL_CMD (R476). -/
def monCalOwn (v : Bytes) (s : State) : Nat := if leVal v ≠ 1 then abRange else if s.mon.calib.isSome then abBusy else 0
def monCalEff (s : State) : State := if s.mon.calib.isSome then s else s.calSlice 0
def monCalCmd (rq : Requester) (v : Byte) (s : State) : State := submitWrite rq 0x8820 0x02 [v] (monCalOwn [v]) monCalEff s

/-- MON_CAL_PERIOD_EXPIRY (R476). -/
def monCalPeriodExpiry (s : State) : State :=
  if s.dev.phase = .reset ∨ s.n kMonCalPeriod = 0 ∨ s.mon.calib.isSome then s else s.calSlice 0

/-- SLICE_CALIBRATION_DONE (R476): the slice's new factors, and the next slice. -/
def sliceCalibrationDone (offset gain : W16) (skew : Byte) (s : State) : State :=
  match s.mon.calib with
  | some (c, true) =>
    let s := s.patchObj kMonSliceFact (8 * c) (le 2 offset.toNat ++ le 2 gain.toNat ++ [skew, 0, 0, 0])
    if c < 3 then s.calSlice (c + 1) else (s.onMon (fun m => { m with calib := none })).setBit kMonStatus 0 true
  | _ => s

/-! ### System calibration (R478) -/

/-- |V2 − V1| reaches 5 % of the group's full scale. -/
def levelsApart (g v1 v2 : Nat) : Bool := decide (tapFs ((groupTaps g).headD 0) ≤ 20 * (max v1 v2 - min v1 v2))

/-- The own checks of MON_SYSCAL_CMD; its response follows the average. DEDUCED, log entry 52. -/
def syscalOwn (d : Bytes) (s : State) : Nat :=
  let g := num d 0 1
  if s.dev.state ≠ .service then abState
  else if 6 < g ∨ (num d 1 1 ≠ 1 ∧ num d 1 1 ≠ 2) then abRange
  else if s.mon.avg.isSome then abBusy
  else if num d 1 1 = 1 then resPending
  else match s.mon.steps.getD g none with
    | none => abRange
    | some (v1, _, _) => if levelsApart g v1 (num d 4 4) then resPending else abRange

/-- The average of a step begins. -/
def syscalEff (rq : Requester) (d : Bytes) (s : State) : State :=
  let g := num d 0 1
  s.onMon (fun m => { m with avg := some ⟨rq, g, num d 1 1 == 2, num d 4 4, 0, (groupTaps g).map (fun _ => 0)⟩ })

/-- A write to MON_SYSCAL_CMD. -/
def syscalWrite (rq : Requester) (d : Bytes) (s : State) : State := submitWrite rq 0x8820 0x08 d (syscalOwn d) (syscalEff rq d) s

/-- SYSCAL_STEP1 and SYSCAL_STEP2. -/
def syscalStep1 (rq : Requester) (g : Byte) (uv : W32) (s : State) : State := syscalWrite rq ([g, 1, 0, 0] ++ le 4 uv.toNat) s
def syscalStep2 (rq : Requester) (g : Byte) (uv : W32) (s : State) : State := syscalWrite rq ([g, 2, 0, 0] ++ le 4 uv.toNat) s

/-- Gain and offset of step 2 as fractions, from levels in µV and sums of 65,536 results: gain = n/d, offset = o/d µV. None when
the means are equal. -/
def sysFactors (fs v1 s1 v2 s2 : Nat) : Option (Int × Int × Int) :=
  let n : Int := ((v2 : Int) - v1) * 2 ^ 32
  let d : Int := ((s2 : Int) - s1) * fs
  let (n, d) := if d < 0 then (-n, -d) else (n, d)
  if d = 0 then none else some (n, d, (v1 : Int) * d - n * (s1 * fs) / 2 ^ 32)

/-- The end of step 2. DEDUCED, log entry 52. -/
def State.sysFinish (s : State) (a : AvgSt) (v1 s1 : Nat) : State :=
  let fs := tapFs ((groupTaps a.group).headD 0)
  match sysFactors fs v1 s1 a.uv a.sum with
  | none => s.finish a.rq abRange
  | some (n, d, o) =>
    if 100 * n < 95 * d ∨ 105 * d < 100 * n ∨ fs * d < 20 * o ∨ 20 * o < -(fs * d) then s.finish a.rq abRange
    else
      let f := s.fresh
      let off := o / d
      let s := if o % d = 0 then s else f.2
      let off := if o % d = 0 then off else off + (f.1 % 2 : Nat)
      let s := s.patchObj kMonSyscal (8 * a.group) (leInt 4 off ++ le 4 (f32.ofRatio n d.toNat))
      (s.setBit kMonStatus 2 true).finish a.rq 0

/-- SYSCAL_AVERAGE_DONE (R478): 65,536 conversions have been averaged. -/
def syscalAverageDone (s : State) : State :=
  match s.mon.avg with
  | none => s
  | some a =>
    if a.counts.sum < 65536 then s
    else
      let s := s.onMon (fun m => { m with avg := none })
      if !a.second then
        (s.onMon (fun m => { m with steps := modAt m.steps a.group (fun _ => some (a.uv, a.sum, 65536)) })).finish a.rq 0
      else match s.mon.steps.getD a.group none with
        | some (v1, s1, _) => s.sysFinish a v1 s1
        | none => s.finish a.rq abRange

/-- Leaving SERVICE ends a system calibration. -/
def State.sysCalOff (s : State) : State := s.onMon (fun m => { m with steps := List.replicate 7 none, avg := none })

/-! ### PLLs and the clock watch (R53, R465 to R468) -/

def pllNo : Pll → Nat
  | .k => 0
  | .s => 1
  | .n => 2
  | .b => 3
  | .p => 4
  | .x => 5

/-- PLL_LOCK (R465): PLL_X gives the ports their hardware pass-through, PLL_B and PLL_P the burst domains their clocks. -/
def pllLock (l : Pll) (s : State) : State :=
  if s.dev.phase = .reset then s
  else
    let s := s.onMon (fun m => { m with pll := modAt m.pll (pllNo l) (fun _ => true) })
    match l with
    | .b => s.onMon (fun m => { m with on800 := true })
    | .p => s.onMon (fun m => { m with on1000 := true })
    | .x => if s.dev.phase = .booting then s.onPair (fun q => { q with passThrough := true }) else s
    | _ => s

/-- PLL_LOCK_LOSS (R466). DEDUCED, log entry 53. -/
def pllLockLoss (l : Pll) (s : State) : State :=
  if s.dev.phase = .reset ∨ !s.mon.pll.getD (pllNo l) false then s
  else
    let s := s.onMon (fun m => { m with pll := modAt m.pll (pllNo l) (fun _ => false) })
    match l with
    | .n => s.devFault 0x0203 0xFF 1
    | .b => s.devFault 0x0203 0xFF 2
    | .p => s.devFault 0x0203 0xFF 3
    | .k => s.devFault 0x0204 0xFF 1
    | .s => s.devFault 0x0204 0xFF 2
    | .x =>
      let s := s.setBit kClkStatus 3 true
      [Station.head .m, Station.head .p].foldl (fun s st => linkLoss st .west (linkLoss st .east s)) s

/-- Faults of the clock watch that wait are replaced by a later one of both watchers. -/
def State.dropClockFaults (s : State) : State :=
  { s with dev := { s.dev with deviceFaults := s.dev.deviceFaults.filter (fun f => !((f.type == 0x0203 || f.type == 0x0204) && f.detail == 0)) } }

/-- A watcher trips (R467): outputs go inert, and the device takes the fault. The watcher on REFCLK finds GUARD_CLK lost, the one
on GUARD_CLK finds REFCLK lost, which stops the time unit (R53). DEDUCED, log entry 53. -/
def State.watchTrip (s : State) (w : Watcher) : State :=
  let s := match w with
    | .onRefclk => s.onMon (fun m => { m with tripRef := true })
    | .onGuard =>
      let s := s.onMon (fun m => { m with tripGuard := true })
      { s with time := { s.time with running := false, invalid := true, cleanWindows := 0 } }
  let s := s.drive
  if s.mon.tripRef ∧ s.mon.tripGuard then
    let s := (s.dropClockFaults.onMon (fun m => { m with disagree := true }))
    s.devFault 0x0205 0xFF (s.mon.countRef + 65536 * s.mon.countGuard)
  else match w with
    | .onRefclk => s.devFault 0x0204 0xFF 0
    | .onGuard => s.devFault 0x0203 0xFF 0

/-- A watcher has tripped. -/
def State.tripped (s : State) (w : Watcher) : Bool := match w with
  | .onRefclk => s.mon.tripRef
  | .onGuard => s.mon.tripGuard

/-- CLOCK_WATCH_WINDOW (R467). A window inside the bounds ends a trip, and counts towards R53. DEDUCED, log entry 53. -/
def clockWatchWindow (w : Watcher) (count : W16) (s : State) : State :=
  if s.dev.phase = .reset then s
  else
    let n := count.toNat
    let s := s.onMon (fun m => match w with
      | .onRefclk => { m with countRef := n }
      | .onGuard => { m with countGuard := n })
    if 1248 ≤ n ∧ n ≤ 1252 then
      match w with
      | .onRefclk => (s.onMon (fun m => { m with tripRef := false })).drive
      | .onGuard =>
        let s := s.onMon (fun m => { m with tripGuard := false })
        ({ s with time := { s.time with cleanWindows := s.time.cleanWindows + 1 } } : State).drive
    else if s.tripped w then { s with time := { s.time with cleanWindows := if w = .onGuard then 0 else s.time.cleanWindows } }
    else s.watchTrip w

/-- CLOCK_EDGE_TIMEOUT (R467). -/
def clockEdgeTimeout (w : Watcher) (s : State) : State :=
  if s.dev.phase = .reset then s
  else if s.tripped w then { s with time := { s.time with cleanWindows := if w = .onGuard then 0 else s.time.cleanWindows } }
  else s.watchTrip w

/-- CLK_RATIO_WINDOW (R468). -/
def clkRatioWindow (count : W32) (s : State) : State :=
  if s.dev.phase = .reset then s
  else
    let n := count.toNat
    let s := s.setN kClkRatio n
    if n < 1048576 - 157 ∨ 1048576 + 157 < n then s.setBit kClkStatus 2 true else s

/-! ### The Lamplighter's domains (R469, R470) -/

/-- One of the burst domains on or off. -/
def State.burst (s : State) (d : Burst) (on : Bool) : State :=
  s.onMon (fun m => match d with
    | .m800 => { m with on800 := on }
    | .m1000 => { m with on1000 := on })

/-- The engines of a domain. -/
def engineIn (d : Burst) (e : Nat) : Bool := match d with
  | .m800 => !(decide (64 ≤ e) && decide (e < 80))
  | .m1000 => decide (64 ≤ e) && decide (e < 80)

/-- DOMAIN_WAKE (R469): each engine whose clock starts counts BURST_WAKE (R272). DEDUCED, log entry 53. -/
def domainWake (d : Burst) (s : State) : State := if s.dev.phase = .reset then s else (s.burst d true).clocksStart s

/-- An engine of a domain has work pending (R470): a Lane with a task or a transfer, or an instance that waits for one, while their
clock is not stopped by S4. A planner run is over within its command. DEDUCED, log entry 53. -/
def State.burstBusy (s : State) : Burst → Bool
  | .m800 => !s.mon.stopped && (s.lanes.any (fun l => l.task.isSome || l.slot.isSome || l.dma.isSome) || s.jn.ready.any (fun l => !l.isEmpty))
  | .m1000 => false

/-- DOMAIN_GATE_OFF (R470): not with gating disabled, nor while an engine has work pending. -/
def domainGateOff (d : Burst) (s : State) : State :=
  if s.n kLlGateEn = 0 ∨ s.burstBusy d then s else (s.clocksStop (engineIn d)).burst d false

/-! ### Supplies (R462, R480) -/

def railNo : Rail → Nat
  | .vdda1v8 => 0
  | .vddio1v8 => 1
  | .vddio3v3 => 2
  | .vddSafe => 3
  | .vddCore => 4
  | .vddDdr => 5
  | .vddqDdr => 6

/-- POWER_ON_DETECTOR (R462): the instant at which a rail reached 90 %. -/
def powerOnDetector (r : Rail) (atNs : Nat) (s : State) : State :=
  s.onMon (fun m => { m with rails := modAt m.rails (railNo r) (fun x => x.orElse (fun _ => some atNs)) })

/-- SEQ_EARLY, SEQ_LATE and SEQ_DDR for the recorded instants: rails 0 to 2 are Group 1, 3 and 4 Group 2, 5 and 6 Group 3. -/
def seqFlags (rails : List (Option Nat)) : Nat :=
  let at_ (i : Nat) : Option Nat := rails.getD i none
  let before (x y : Option Nat) : Bool := match x, y with
    | some a, some b => decide (a < b)
    | some _, none => true
    | none, _ => false
  let early := [3, 4].any (fun g => [0, 1, 2].any (fun h => before (at_ g) (at_ h)))
  let last := ([0, 1, 2].filterMap at_).foldl max 0
  let late := [0, 1, 2].all (fun h => (at_ h).isSome) && [3, 4].any (fun g => match at_ g with
    | some t => decide (last + 50000000 < t)
    | none => false)
  let ddr := [5, 6].any (fun g => [3, 4].any (fun h => before (at_ g) (at_ h)))
  b01 early + 2 * b01 late + 4 * b01 ddr

/-- VDD_SAFE_DETECT (R480): the Kerb's detector at a level of VDD_SAFE. DEDUCED, log entry 8. -/
def vddSafeDetect (uv : Nat) (s : State) : State := (s.onMon (fun m => { m with safeLow := decide (uv < 660000) })).drive

/-! ### Hardware faults (R25, R26) -/

/-- DEVICE_FAULT_DETECTED: the Boulevard and the SP have unit bits of their own. DESIGN CHOICE, log entry 14. -/
def deviceFaultDetected (k : HwFault) (unit : Byte) (detail : W32) (s : State) : State :=
  if s.dev.phase = .reset then s
  else match k with
    | .boulevard => s.devFault 0x0201 46 detail.toNat
    | .sramParity => s.devFault 0x0202 unit.toNat detail.toNat
    | .lockstep => s.devFault 0x0206 38 detail.toNat

end Sys2Proof.Machine
end

