-- ==== Sys2Proof/Machine/Tap.lean ====
section
/-! DEFINITION. The test access port (R507 to R514). The boundary register holds what a load or a capture left in its cells. -/

namespace Sys2Proof.Machine

def State.onTap (s : State) (f : StTap → StTap) : State := { s with tap := f s.tap }

/-- The device identification register (R508). -/
def idcodeValue : Nat := 0x2C8649C9

/-- Cells of the boundary register (R507). -/
def boundaryCells : Nat := 1302

/-- The boundary register filled from a load or a capture. DEDUCED, log entry 54. -/
def fitCells (l : List Bool) : List Bool := (l ++ List.replicate boundaryCells false).take boundaryCells

/-- The balls return to the levels of R23 (R509). -/
def State.tapRelease (s : State) : State := (s.onTap (fun t => { t with driving := false })).setBit kTstStatus 0 false

/-- An instruction that drives no ball becomes current. -/
def State.tapQuiet (s : State) (i : TapInstr) : State := s.tapRelease.onTap (fun t => { t with ir := i })

/-- Driving instructions may take the balls (R509). -/
def State.tapAllowed (s : State) : Bool := s.dev.state == .service && s.n kTstBscanEn == 1

/-- A driving instruction becomes current, or acts as the one that R509 names in its place. DEDUCED, log entry 54. -/
def State.tapDrive (s : State) (i other : TapInstr) (pulses : Nat) : State :=
  if s.tapAllowed then
    (s.onTap (fun t => { t with ir := i, driving := true, pulses := t.pulses + pulses })).setBit kTstStatus 0 true
  else (s.tapQuiet other).setBit kTstStatus 1 true

/-- Loads the boundary register. DEDUCED, log entry 54. -/
def State.tapLoad (s : State) (l : List Bool) : State := s.onTap (fun t => { t with boundary := fitCells l })

/-- EXTEST, EXTEST_PULSE and EXTEST_TRAIN: one pulse, and 255 (R511). -/
def extest (drive : List Bool) (s : State) : State := (s.tapLoad drive).tapDrive .extest .sample 0
def extestPulse (drive : List Bool) (s : State) : State := (s.tapLoad drive).tapDrive .pulse .sample 1
def extestTrain (drive : List Bool) (s : State) : State := (s.tapLoad drive).tapDrive .train .sample 255

/-- CLAMP and HIGHZ. -/
def tapClamp (s : State) : State := s.tapDrive .clamp .bypass 0
def tapHighz (s : State) : State := s.tapDrive .highz .bypass 0

/-- IDCODE, SAMPLE/PRELOAD and BYPASS. -/
def tapIdcode (s : State) : State := s.tapQuiet .idcode
def samplePreload (capture : List Bool) (s : State) : State := (s.tapQuiet .sample).tapLoad capture
def tapBypass (s : State) : State := s.tapQuiet .bypass

/-- TEST_LOGIC_RESET (R507, R509). -/
def testLogicReset (s : State) : State := s.tapQuiet .idcode

/-- SEAL_READ (R510): the scans begin anew. DEDUCED, log entry 54. -/
def sealRead (s : State) : State :=
  ((s.tapQuiet .sealRead).onTap (fun t => { t with scanA := none, scanB := none })).setBit kTstStatus 2 true

/-- Capture-DR under SEAL_READ (R510): the newest complete scan of each chain, where one has occurred. -/
def sealCapture (swA swB : Option W32) (s : State) : State :=
  if s.tap.ir ≠ .sealRead then s
  else
    let a := (swA.map BitVec.toNat).orElse (fun _ => s.tap.scanA)
    let b := (swB.map BitVec.toNat).orElse (fun _ => s.tap.scanB)
    let low := a.getD 0 + b.getD 0 * 2 ^ 32
    (s.onTap (fun t => { t with scanA := a, scanB := b, sealReg := low + b01 a.isSome * 2 ^ 64 + b01 b.isSome * 2 ^ 65 })).setN kTstSeal low

/-- The effect of TST_BSCAN_EN: 0 releases the balls (R509). -/
def bscanEff (v : Bytes) (s : State) : State :=
  let s := s.setObj kTstBscanEn v
  if leVal v = 0 then s.tapRelease else s

/-- TST_BSCAN_EN (R509). -/
def tstBscanEn (rq : Requester) (v : Byte) (s : State) : State := submitWrite rq 0x9800 0x01 [v] (fun _ => 0) (bscanEff [v]) s

/-- The effect of TST_PORT_LOOP (R513, R514). -/
def portLoopEff (v : Bytes) (s : State) : State := (s.setObj kTstPortLoop v).setBit kTstStatus 3 (leVal v != 0)

/-- The device leaves SERVICE (R509, R513). -/
def State.tapLeave (s : State) : State :=
  ((s.tapRelease.setN kTstBscanEn 0).setN kTstPortLoop 0).setBit kTstStatus 3 false

end Sys2Proof.Machine
end

