-- ==== Sys2Proof/Machine/Boot.lean ====
section
/-! DEFINITION. Reset and boot (R6, R10, R11, R17, R18, R20, R25, R29, R438, R447, R448, R462, R504): the power-on reset, the
release of PORST_N, the end of the start-up tests, and the reboot by SEC_REBOOT. -/

namespace Sys2Proof.Machine

/-! ### Tiers (R10, R11, R17, R18) -/

/-- None of a list of units has failed. DESIGN CHOICE, log entry 14. -/
def unitsOk (u : Nat) (l : List Nat) : Bool := l.all (fun b => !u.testBit b)

/-- Some of a list of units has not failed (R11). -/
def unitsSome (u : Nat) (l : List Nat) : Bool := l.any (fun b => !u.testBit b)

/-- What Tier 0 needs: Kerb and Lamplighter. -/
def tier0Ok (u : Nat) : Bool := unitsOk u [39, 40]

/-- What Tier 1 needs in addition: monitor, recorder, security unit, Boulevard, one planner core and one host path. -/
def tier1Ok (u : Nat) : Bool :=
  unitsOk u [41, 42, 43, 46] && unitsSome u ((List.range 16).map (· + 8)) && unitsSome u [35, 36, 37]

/-- What Tier 2 needs in addition: Junction, ring M, guardian, time unit, SP, DRAM channel 0 and one Street. -/
def tier2Ok (u : Nat) : Bool := unitsOk u [24, 30, 32, 33, 38, 44] && unitsSome u (List.range 8)

/-- What Tier 3 needs in addition: everything else, the redundancy link when a partner is configured. -/
def tier3Ok (u : Nat) (partner : Bool) : Bool :=
  unitsOk u (List.range 8 ++ (List.range 16).map (· + 8) ++ [25, 26, 27, 28, 29, 31, 45]) && (!partner || !u.testBit 34)

/-- TIER_AVAIL for a value of UNIT_FAIL (R17, R18, R20). DESIGN CHOICE, log entry 14. -/
def tierOf (u : Nat) (partner : Bool) : Nat :=
  if !tier0Ok u then 0xFF
  else if !tier1Ok u then 0
  else if !tier2Ok u then 1
  else if !tier3Ok u partner then 2
  else 3

/-! ### Reset -/

/-- A power-on reset (R6, R436, R438, R504): everything but the flashes, the fuses, what the always-on domain holds for the next
boot, the TAP's registers and the other stations of the rings. DEDUCED, log entry 8. DEDUCED, log entry 9. -/
def State.powerReset (s : State) : State :=
  let r := State.reset
  { r with
    pending := s.pending
    objs := s.objs.filter (fun p => p.1 == kRecSafeSect || p.1 == kAttCert)
    free := s.free
    recd := s.recd.powerOff
    sec := { r.sec with fuses := s.sec.fuses, main := { s.sec.main with running := none },
                        safety := { s.sec.safety with running := none }, lib := { s.sec.lib with running := none } }
    safe := { r.safe with sets := s.safe.sets }
    mon := { r.mon with rails := s.mon.rails, disagree := s.mon.disagree, safeLow := s.mon.safeLow }
    dev := { r.dev with held := s.dev.held }
    tap := { s.tap with driving := false }
    rings := { r.rings with nodes := s.rings.nodes } }

/-- PORST_N_ASSERT (R504): a pulse of at least 10 µs resets and one of at most 1 µs is ignored; what one between them does is
free. The detector of S6 resets as PORST_N does. DESIGN CHOICE, log entry 7. -/
def porstNAssert (cause : ResetCause) (s : State) : State :=
  match cause with
  | .internalPor => s.powerReset
  | .pulse ns =>
    if 10000 ≤ ns then s.powerReset
    else if ns ≤ 1000 then s
    else
      let (v, s) := s.fresh
      if v % 2 = 1 then s.powerReset else s

/-- PORST_N_RELEASE (R29, R341, R462, R467, R485, R504): UNIT_ID is latched, the rails' order and the last boot's clock trip go
into their status objects, the switch words are read, and the start-up tests begin. -/
def porstNRelease (unitId : Bool) (swA swB : W32) (s : State) : State :=
  if s.dev.phase ≠ .reset then s
  else
    let s := { s with dev := { s.dev with phase := .booting, unitId := unitId } }
    let s := s.setN kPwrStatus (s.n kPwrStatus / 8 * 8 + seqFlags s.mon.rails)
    let s := s.setBit kClkStatus 1 s.mon.disagree
    let s := s.onMon (fun m => { m with disagree := false })
    let s := (s.readSwitch true swA.toNat).readSwitch false swB.toNat
    s.calSlice 0

/-! ### End of boot -/

/-- The images of a type that a reset found in trial are reverted, with their records (R450). -/
def State.revertRecords (s : State) (main safety lib : Bool) : State :=
  let one (s : State) (b : Bool) := if b then s.logOpen 0 0x0102 else s
  one (one (one s main) safety) lib

/-- Record of a device fault (R26). DEDUCED, log entry 15. -/
def State.faultRecord (s : State) (f : DevFault) : State :=
  s.log f.type (le 1 f.unit ++ [0, 0, 0] ++ le 8 f.cycle ++ le 4 f.detail)

/-- UNIT_FAIL and what follows from it: TIER_AVAIL, the Streets that take work, and the self-tests that the third SYNC exit
condition asks for (R10, R18, R27, R235). In recovery TIER_AVAIL is 0 (R448). DESIGN CHOICE, log entry 14. -/
def State.setUnits (s : State) (u : Nat) (recovery : Bool) : State :=
  let u := u % 2 ^ 48
  let t := tierOf u s.paired
  let s := (s.setN kUnitFail u).setN kTierAvail (if recovery && t != 0xFF then 0 else t)
  let s := s.setN kJnStreets (255 - u % 256)
  s.onSafe (fun x => { x with testsOk := unitsOk u [38, 39] })

/-- BOOT_COMPLETE (R17, R18, R20, R25, R29, R439, R447, R448). The recorder is mounted unless it failed its test.
DEDUCED, log entry 51. -/
def bootComplete (failed : W64) (bootUs testNo : W32) (s : State) : State :=
  if s.dev.phase ≠ .booting then s
  else
    let trial (i : ImgSlots) := i.unconfirmed
    let (m, f, l) := (trial s.sec.main, trial s.sec.safety, trial s.sec.lib)
    let s := s.bootImages
    let recovery := s.sec.main.running.isNone
    let u := failed.toNat ||| s.sec.imageFail
    let s := (s.setUnits u recovery).setN kBootTime bootUs.toNat
    let s := if u.testBit 42 then s else s.mountRecorder
    let s := s.revertRecords m f l
    let s := if recovery then s else s.bootRecord
    let s := ({ s with dev := { s.dev with phase := .up } } : State).onSafe (fun x => { x with shown := 0, guardIn := 0, guardDone := 0 })
    let s := s.loadSet
    if tier0Ok u then s
    else
      let s := s.faultRecord ⟨0x0209, if u.testBit 39 then 39 else 40, s.cycle, testNo.toNat⟩
      (s.setN kFaultCause 0x0209).enter .fault

/-- DRAM_ECC_DONE (R27, R29). -/
def dramEccDone (s : State) : State :=
  if s.dev.phase = .up then { s with dev := { s.dev with dramReady := true } } else s

/-! ### SEC_REBOOT -/

/-- SEC_REBOOT is written in SERVICE, or in INERT in recovery (R448, R457). -/
def rebootOwn (s : State) : Nat := if s.dev.state == .service || s.bit kSecStatus 0 && s.dev.state == .inert then 0 else abState

/-- The effect of SEC_REBOOT (R438): a value other than 1 has none. DEDUCED, log entry 8. -/
def rebootEff (v : Bytes) (s : State) : State := if leVal v = 1 then (if s.recd.mounted then s.saveEntry 1 else s).powerReset else s

/-- SEC_REBOOT (R438, R457). -/
def secReboot (rq : Requester) (v : Byte) (s : State) : State := submitWrite rq 0x9000 0x07 [v] rebootOwn (rebootEff [v]) s

end Sys2Proof.Machine
end

