-- ==== Sys2Proof/Machine/ExecBoot.lean ====
section
/-! DEFINITION. Meanings of the commands of the opcode table: boot and reset. -/

namespace Sys2Proof.Machine

/-- PORST_N_RELEASE (R29). -/
def execPorstNRelease (unitId : Bool) (swA : W32) (swB : W32) (s : State) : Host.Outcome State Fault Refusal :=
  .next (porstNRelease unitId swA swB s)

/-- PORST_N_ASSERT (R504). -/
def execPorstNAssert (cause : ResetCause) (s : State) : Host.Outcome State Fault Refusal :=
  .next (porstNAssert cause s)

/-- VDD_SAFE_DETECT (R480). -/
def execVddSafeDetect (microvolt : Nat) (s : State) : Host.Outcome State Fault Refusal :=
  .next (vddSafeDetect microvolt s)

/-- PLL_LOCK (R465). -/
def execPllLock (pll : Pll) (s : State) : Host.Outcome State Fault Refusal :=
  .next (pllLock pll s)

/-- BOOT_COMPLETE (R25). -/
def execBootComplete (failed : W64) (bootUs : W32) (testNo : W32) (s : State) : Host.Outcome State Fault Refusal :=
  .next (bootComplete failed bootUs testNo s)

/-- DRAM_ECC_DONE (R29). -/
def execDramEccDone (s : State) : Host.Outcome State Fault Refusal :=
  .next (dramEccDone s)

end Sys2Proof.Machine
end

