-- ==== Sys2Proof/Machine/LaneEnc.lean ====
section
/-! DEFINITION. The 32-bit words of the Lane instructions (R256, R258): the encoding, and the decoding of a word, which refuses
an undefined OP or FN. -/

namespace Sys2Proof.Machine

/-- Word of an R-format instruction. -/
def encR (op fn : Nat) (w : LaneR) : W32 :=
  BitVec.ofNat 32 (op * 2 ^ 26 + w.rd.toNat * 2 ^ 20 + w.rs.toNat * 2 ^ 14 + w.rt.toNat * 2 ^ 8 + (if w.s then 128 else 0) + fn)

/-- Word of an I-format instruction. -/
def encI (op : Nat) (w : LaneI) : W32 :=
  BitVec.ofNat 32 (op * 2 ^ 26 + w.rd.toNat * 2 ^ 20 + w.rs.toNat * 2 ^ 14 + (if w.s then 8192 else 0) + w.imm.toNat)

/-- Word of an M-format instruction. -/
def encM (op : Nat) (w : LaneM) : W32 :=
  BitVec.ofNat 32 (op * 2 ^ 26 + w.rd.toNat * 2 ^ 20 + w.rb.toNat * 2 ^ 14 + w.mode.toNat * 2 ^ 12 + w.off.toNat)

/-- Word of a B-format instruction. -/
def encB (op : Nat) (w : LaneB) : W32 := BitVec.ofNat 32 (op * 2 ^ 26 + w.rd.toNat * 2 ^ 20 + w.imm.toNat)

/-- Fields of a word, by format. -/
def decR (v : Nat) : LaneR :=
  { rd := BitVec.ofNat 6 (v / 2 ^ 20), rs := BitVec.ofNat 6 (v / 2 ^ 14), rt := BitVec.ofNat 6 (v / 2 ^ 8)
    s := v / 128 % 2 == 1 }
def decI (v : Nat) : LaneI :=
  { rd := BitVec.ofNat 6 (v / 2 ^ 20), rs := BitVec.ofNat 6 (v / 2 ^ 14), s := v / 8192 % 2 == 1, imm := BitVec.ofNat 13 v }
def decM (v : Nat) : LaneM :=
  { rd := BitVec.ofNat 6 (v / 2 ^ 20), rb := BitVec.ofNat 6 (v / 2 ^ 14), mode := BitVec.ofNat 2 (v / 2 ^ 12)
    off := BitVec.ofNat 12 v }
def decB (v : Nat) : LaneB := { rd := BitVec.ofNat 6 (v / 2 ^ 20), imm := BitVec.ofNat 20 v }

/-- The word of a Lane instruction; none for every other command. -/
def laneEncode (i : Instr) : Option W32 :=
  match i with
  | .add _ w => some (encR 0 0 w)
  | .sub _ w => some (encR 0 1 w)
  | .and _ w => some (encR 0 2 w)
  | .or _ w => some (encR 0 3 w)
  | .xor _ w => some (encR 0 4 w)
  | .shl _ w => some (encR 0 5 w)
  | .shr _ w => some (encR 0 6 w)
  | .sar _ w => some (encR 0 7 w)
  | .mul _ w => some (encR 0 8 w)
  | .mulq _ w => some (encR 0 9 w)
  | .abs _ w => some (encR 0 10 w)
  | .norm _ w => some (encR 0 11 w)
  | .exp _ w => some (encR 0 12 w)
  | .mac _ w => some (encR 1 0 w)
  | .msu _ w => some (encR 1 1 w)
  | .movta _ w => some (encR 1 2 w)
  | .mova _ w => some (encR 1 3 w)
  | .expa _ w => some (encR 1 4 w)
  | .fadd _ w => some (encR 2 0 w)
  | .fsub _ w => some (encR 2 1 w)
  | .fmul _ w => some (encR 2 2 w)
  | .fma _ w => some (encR 2 3 w)
  | .fms _ w => some (encR 2 4 w)
  | .fdiv _ w => some (encR 2 5 w)
  | .fsqrt _ w => some (encR 2 6 w)
  | .fmin _ w => some (encR 2 7 w)
  | .fmax _ w => some (encR 2 8 w)
  | .fcmplt _ w => some (encR 2 9 w)
  | .fnorm _ w => some (encR 2 10 w)
  | .fexp _ w => some (encR 2 11 w)
  | .ftoi _ w => some (encR 2 12 w)
  | .itof _ w => some (encR 2 13 w)
  | .dmago _ w => some (encR 3 0 w)
  | .dmawt _ w => some (encR 3 1 w)
  | .endTask _ w => some (encR 3 2 w)
  | .addi _ w => some (encI 8 w)
  | .shli _ w => some (encI 9 w)
  | .sari _ w => some (encI 10 w)
  | .andi _ w => some (encI 11 w)
  | .rdcnt _ w => some (encI 12 w)
  | .ld _ w => some (encM 16 w)
  | .st _ w => some (encM 17 w)
  | .ldh _ w => some (encM 18 w)
  | .sth _ w => some (encM 19 w)
  | .li _ w => some (encB 24 w)
  | .lih _ w => some (encB 25 w)
  | .bz _ w => some (encB 26 w)
  | .bnz _ w => some (encB 27 w)
  | .blt _ w => some (encB 28 w)
  | .bloop _ w => some (encB 29 w)
  | _ => none

/-- The Lane that an instruction is for. -/
def laneOf (i : Instr) : Option (Fin 64) :=
  match i with
  | .add l _ => some l
  | .sub l _ => some l
  | .and l _ => some l
  | .or l _ => some l
  | .xor l _ => some l
  | .shl l _ => some l
  | .shr l _ => some l
  | .sar l _ => some l
  | .mul l _ => some l
  | .mulq l _ => some l
  | .abs l _ => some l
  | .norm l _ => some l
  | .exp l _ => some l
  | .mac l _ => some l
  | .msu l _ => some l
  | .movta l _ => some l
  | .mova l _ => some l
  | .expa l _ => some l
  | .fadd l _ => some l
  | .fsub l _ => some l
  | .fmul l _ => some l
  | .fma l _ => some l
  | .fms l _ => some l
  | .fdiv l _ => some l
  | .fsqrt l _ => some l
  | .fmin l _ => some l
  | .fmax l _ => some l
  | .fcmplt l _ => some l
  | .fnorm l _ => some l
  | .fexp l _ => some l
  | .ftoi l _ => some l
  | .itof l _ => some l
  | .dmago l _ => some l
  | .dmawt l _ => some l
  | .endTask l _ => some l
  | .addi l _ => some l
  | .shli l _ => some l
  | .sari l _ => some l
  | .andi l _ => some l
  | .rdcnt l _ => some l
  | .ld l _ => some l
  | .st l _ => some l
  | .ldh l _ => some l
  | .sth l _ => some l
  | .li l _ => some l
  | .lih l _ => some l
  | .bz l _ => some l
  | .bnz l _ => some l
  | .blt l _ => some l
  | .bloop l _ => some l
  | _ => none

/-- R-format instructions of OP 0, integer. -/
def decodeR0 (l : Fin 64) (fn : Nat) (w : LaneR) : Option Instr :=
  match fn with
  | 0 => some (.add l w)
  | 1 => some (.sub l w)
  | 2 => some (.and l w)
  | 3 => some (.or l w)
  | 4 => some (.xor l w)
  | 5 => some (.shl l w)
  | 6 => some (.shr l w)
  | 7 => some (.sar l w)
  | 8 => some (.mul l w)
  | 9 => some (.mulq l w)
  | 10 => some (.abs l w)
  | 11 => some (.norm l w)
  | 12 => some (.exp l w)
  | _ => none

/-- R-format instructions of OP 1, accumulator. -/
def decodeR1 (l : Fin 64) (fn : Nat) (w : LaneR) : Option Instr :=
  match fn with
  | 0 => some (.mac l w)
  | 1 => some (.msu l w)
  | 2 => some (.movta l w)
  | 3 => some (.mova l w)
  | 4 => some (.expa l w)
  | _ => none

/-- R-format instructions of OP 2, floating-point. -/
def decodeR2 (l : Fin 64) (fn : Nat) (w : LaneR) : Option Instr :=
  match fn with
  | 0 => some (.fadd l w)
  | 1 => some (.fsub l w)
  | 2 => some (.fmul l w)
  | 3 => some (.fma l w)
  | 4 => some (.fms l w)
  | 5 => some (.fdiv l w)
  | 6 => some (.fsqrt l w)
  | 7 => some (.fmin l w)
  | 8 => some (.fmax l w)
  | 9 => some (.fcmplt l w)
  | 10 => some (.fnorm l w)
  | 11 => some (.fexp l w)
  | 12 => some (.ftoi l w)
  | 13 => some (.itof l w)
  | _ => none

/-- R-format instructions of OP 3, control. -/
def decodeR3 (l : Fin 64) (fn : Nat) (w : LaneR) : Option Instr :=
  match fn with
  | 0 => some (.dmago l w)
  | 1 => some (.dmawt l w)
  | 2 => some (.endTask l w)
  | _ => none

/-- The instruction that a word is, fetched by Lane `l`; none for an undefined OP or FN (R257). -/
def laneDecode (l : Fin 64) (word : W32) : Option Instr :=
  let v := word.toNat
  match v / 2 ^ 26 with
  | 0 => decodeR0 l (v % 128) (decR v)
  | 1 => decodeR1 l (v % 128) (decR v)
  | 2 => decodeR2 l (v % 128) (decR v)
  | 3 => decodeR3 l (v % 128) (decR v)
  | 8 => some (.addi l (decI v))
  | 9 => some (.shli l (decI v))
  | 10 => some (.sari l (decI v))
  | 11 => some (.andi l (decI v))
  | 12 => some (.rdcnt l (decI v))
  | 16 => some (.ld l (decM v))
  | 17 => some (.st l (decM v))
  | 18 => some (.ldh l (decM v))
  | 19 => some (.sth l (decM v))
  | 24 => some (.li l (decB v))
  | 25 => some (.lih l (decB v))
  | 26 => some (.bz l (decB v))
  | 27 => some (.bnz l (decB v))
  | 28 => some (.blt l (decB v))
  | 29 => some (.bloop l (decB v))
  | _ => none

end Sys2Proof.Machine
end

