-- ==== Sys2Proof/Machine/Counters.lean ====
section
/-! DEFINITION. The objects of the performance counters (R270 to R277). -/

namespace Sys2Proof.Machine

/-- The events that an engine has (R272). -/
def eventsOf (e : Nat) : List Nat :=
  let all := [0, 1, 2, 3, 4, 5, 6]
  if e < 64 then all ++ [0x10, 0x11, 0x12, 0x13, 0x14, 0x15, 0x17, 0x18, 0x19, 0x1A, 0x1B, 0x1C, 0x1D, 0x1E, 0x1F, 0x20, 0x21, 0x22]
  else if e < 80 then all ++ [0x41, 0x42, 0x43, 0x44, 0x45]
  else if e = 80 then all ++ [0x60, 0x61, 0x62, 0x63, 0x64, 0x65, 0x66]
  else all ++ [0x70, 0x71, 0x72, 0x73, 0x74]

/-- Counters cannot be read: the block failed its start-up test (R11). -/
def State.cntFailed (s : State) : Bool := s.bit kUnitFail 47

/-- Why a host read of counters is refused, or 0 (R270, R481). -/
def State.cntRefusal (s : State) : Nat :=
  if s.cntFailed then abHwFault else if 1 ≤ s.n kShedStage then abBusy else 0

/-- A CNT_BLOCK value (R277). -/
def State.cntBytes (s : State) (e : Nat) : Bytes :=
  let c := s.cnt e
  s.cellTime ++ zeros 4 ++ le 8 c.cyc ++ ((List.range 6).map (fun k => le 8 (c.pmc.getD k 0))).flatten

/-- Clears an engine's counters. -/
def State.cntZero (s : State) (e : Nat) : State :=
  { s with cnts := modAt s.cnts e (fun _ => { cyc := 0, pmc := List.replicate 6 0, ran := false }) }

/-- A write of event numbers (R270, R272): each counter whose number is written clears. -/
def cntSelEff (e : Nat) (v : Bytes) (s : State) : State :=
  ({ s with cnts := modAt s.cnts e (fun c => { c with pmc := List.replicate 6 0, ran := false }) } : State).setObj (kCntSel e) v

/-- The own check of CNT_SEL. -/
def cntSelOwn (e : Nat) (v : Bytes) : Nat := if v.all (fun b => (eventsOf e).contains b.toNat) then 0 else abRange

/-- CNT_SEL (R270). -/
def cntSel (rq : Requester) (e : Fin 82) (v : Bytes) (s : State) : State :=
  submitWrite rq (0x5410 + e.val) 0x08 v (fun _ => cntSelOwn e.val v) (cntSelEff e.val v) s

/-- CNT_BLOCK (R273): a read samples the counters; the requester's answer is the block. DEDUCED, log entry 40. -/
def cntBlock (rq : Requester) (e : Fin 82) (s : State) : State :=
  if !s.served rq then s
  else if s.cntRefusal ≠ 0 then s.answer rq s.cntRefusal
  else
    let s := s.slack e.val
    (s.setObj (kCntBlock e.val) (s.cntBytes e.val)).answer rq 0

/-- The own check of the clear objects. -/
def isOneOwn (v : Bytes) : Nat := if leVal v = 1 then 0 else abRange

/-- CNT_CLEAR (R277). -/
def cntClear (rq : Requester) (e : Fin 82) (v : Byte) (s : State) : State :=
  submitWrite rq (0x5410 + e.val) 0x0B [v] (fun _ => isOneOwn [v]) (fun s => s.cntZero e.val) s

/-- Clears the counters of every engine. -/
def State.cntZeroAll (s : State) : State :=
  { s with cnts := s.cnts.map (fun _ => { cyc := 0, pmc := List.replicate 6 0, ran := false }) }

/-- CNT_CLEAR_ALL (R277). -/
def cntClearAll (rq : Requester) (v : Byte) (s : State) : State :=
  submitWrite rq 0x5400 0x02 [v] (fun _ => isOneOwn [v]) (fun s => s.cntZeroAll) s

/-- The rate of an event: how many of it one slot can hold (R272). -/
def eventRate (ev : Nat) : Nat := if ev = 0x22 then 2 else if ev = 0x71 ∨ ev = 0x72 ∨ ev = 0x74 then 16 else 1

/-- The class of the slots that an event needs (R271, R272): its own class, front or back slots for a stall, else retired ones.
DEDUCED, log entry 40. -/
def eventClass (ev : Nat) : Nat :=
  if ev = 2 ∨ ev = 0x12 ∨ ev = 0x14 then 2
  else if ev = 3 ∨ ev = 5 ∨ ev = 0x10 ∨ ev = 0x13 ∨ ev = 0x1B ∨ ev = 0x1C then 3
  else if ev = 4 ∨ ev = 0x45 ∨ 0x17 ≤ ev ∧ ev ≤ 0x1A then 4
  else 1

/-- PMC_WRAP (R270, R271): the counter has reached 2^48: the events that this takes have come, in slots of their class.
DEDUCED, log entry 40. -/
def pmcWrap (e : Fin 82) (k : Fin 6) (s : State) : State :=
  let ev := s.sub (kCntSel e.val) k.val 1
  if ev = 0 ∨ !s.clockOn e.val then s
  else
    let n := 2 ^ 48 - (s.cnt e.val).pmc.getD k.val 0
    let c := eventClass ev
    let slots := (n + eventRate ev - 1) / eventRate ev
    s.count e.val slots ((c, slots) :: if c = ev then [] else [(ev, n)])

end Sys2Proof.Machine
end

