-- ==== Sys2Proof/Machine/Flags.lean ====
section
/-! DEFINITION. The sticky status of a Lane's task, LSTAT (R263), and the flag computations of its instructions (R259 to R262). -/

namespace Sys2Proof.Machine

/-- Bits of LSTAT. -/
def fSatf : Nat := 0
def fFunf : Nat := 1
def fFovf : Nat := 2
def fInv : Nat := 3
def fDz : Nat := 4
def fTear : Nat := 5

/-- Sets a bit of LSTAT when a condition holds; the bits are sticky. -/
def LaneSt.flag (l : LaneSt) (b : Nat) (c : Bool) : LaneSt :=
  if c then { l with lstat := l.lstat ||| (1#32 <<< b) } else l

/-- Conditions of a floating-point result. DEDUCED, log entry 41. -/
def LaneSt.fpFlags (l : LaneSt) (r : FRes) : LaneSt :=
  (((l.flag fFovf r.overflow).flag fFunf r.underflow).flag fInv r.invalid).flag fDz r.divZero

/-- A signalling NaN, which makes an operation invalid (IEEE 754). -/
def snan (b : Nat) : Bool := f32.isNan b && !b.testBit 22

/-- The result with S (R262): an infinite result becomes the largest finite number with FOVF. -/
def fpSat (sat : Bool) (r : FRes) : FRes :=
  if sat ∧ f32.abs r.bits = f32.infBits then { r with bits := r.bits - 1, overflow := true } else r

/-- The end of the range of `n` bits that an exact result takes with S, or its low bits (R259); and whether it saturated. -/
def satInt (n : Nat) (sat : Bool) (v : Int) : Int × Bool :=
  let lo : Int := -(2 ^ (n - 1) : Nat)
  let hi : Int := (2 ^ (n - 1) : Nat) - 1
  if !sat then (v, false) else if v < lo then (lo, true) else if hi < v then (hi, true) else (v, false)

/-- Redundant sign bits of a two's complement number of `n` bits (R260). -/
def redundant (n : Nat) (v : Int) : Nat :=
  let m := if v < 0 then (-v - 1).toNat else v.toNat
  n - 1 - bitLen m

/-- SHL with a shift `h` on an exact integer: the exact product, 0 standing for shifts of the whole word (R258, R259). -/
def shlExact (v : Int) (h : Nat) : Int := v * (2 ^ h : Nat)

/-- MOVA's rounded shift of an accumulator (R261). -/
def movaShift (v : Int) (h : Nat) : Int := if h = 0 then v else (v + (2 ^ (h - 1) : Nat)) / (2 ^ h : Nat)

/-- FEXP (R262). -/
def fexpOf (b : Nat) : Int :=
  match f32.dec b with
  | .fin _ m e => if m = 0 then -150 else e + bitLen m - 1
  | _ => 128

/-- FNORM (R262). -/
def fnormOf (b : Nat) : Nat :=
  match f32.dec b with
  | .fin sg m _ => if m = 0 then b else (f32.round sg m (1 - (bitLen m : Int)) false).bits
  | _ => b

/-- Round-to-nearest-even of a binary32 value times 2^k; none for a NaN or an infinity, whose sign is then asked for (R262). -/
def ftoiOf (b k : Nat) : Option Int :=
  match f32.dec b with
  | .fin sg m e => let r : Int := (roundDyadic m (e + k) : Nat); some (if sg then -r else r)
  | _ => none

end Sys2Proof.Machine
end

