-- ==== Sys2Proof/Machine/Operands.lean ====
section
/-! DEFINITION. Operands of the Lane instructions: registers and accumulators (R250), the local address map (R253), the
addressing modes (R256) and the instruction area (R257). -/

namespace Sys2Proof.Machine

/-! ### Registers -/

/-- Physical rotating register of a name (R250). -/
def LaneSt.rot (l : LaneSt) (r : BitVec 6) : Nat := (r.toNat % 32 + l.rrb.toNat) % 32

/-- A general or rotating register; G0 reads as 0 (R250, R256). -/
def LaneSt.reg (l : LaneSt) (r : BitVec 6) : W32 :=
  if 32 ≤ r.toNat then l.q.getD (l.rot r) 0 else if r.toNat = 0 then 0 else l.g.getD r.toNat 0

/-- Writes a register; writes of G0 are ignored (R250). -/
def LaneSt.setReg (l : LaneSt) (r : BitVec 6) (v : W32) : LaneSt :=
  if 32 ≤ r.toNat then { l with q := modAt l.q (l.rot r) (fun _ => v) }
  else if r.toNat = 0 then l
  else { l with g := modAt l.g r.toNat (fun _ => v) }

/-- Writes the low 32 bits of an integer. -/
def LaneSt.setInt (l : LaneSt) (r : BitVec 6) (v : Int) : LaneSt := l.setReg r (BitVec.ofInt 32 v)

/-- An accumulator by the bit that selects it. -/
def LaneSt.acc (l : LaneSt) (x : Bool) : BitVec 72 := if x then l.ac1 else l.ac0

/-- Writes the low 72 bits of an integer to an accumulator. -/
def LaneSt.setAcc (l : LaneSt) (x : Bool) (v : Int) : LaneSt :=
  if x then { l with ac1 := BitVec.ofInt 72 v } else { l with ac0 := BitVec.ofInt 72 v }

/-! ### Instruction area -/

/-- The area of a kernel (R257): vendor kernels 0x0000 to 0x3FFF, user kernels 0x4000 to 0xFFFF. -/
def inArea (kernel : Nat) (pc : Int) : Bool :=
  if kernel < 0x80 then decide (0 ≤ pc) && decide (pc < 0x4000) else decide (0x4000 ≤ pc) && decide (pc < 0x10000)

/-- The next instruction. -/
def LaneSt.next (l : LaneSt) : LaneSt := { l with pc := l.pc + 4 }

/-- A taken branch: the target, or none where it leaves the kernel's area (R256, R257). DEDUCED, log entry 41. -/
def LaneSt.branch (l : LaneSt) (kernel : Nat) (imm : BitVec 20) : Option LaneSt :=
  let t : Int := l.pc.toNat + 4 * imm.toInt
  if inArea kernel t then some { l with pc := BitVec.ofInt 16 t } else none

/-! ### Local address map (R253) -/

/-- Areas of the local address map. -/
inductive Area | sram | desc | ops | block | out | table | lstat
deriving DecidableEq, Repr

/-- The area of an address. -/
def areaOf (a : Nat) : Option Area :=
  if 0x10000 ≤ a ∧ a < 0x40000 then some .sram
  else if 0x40000 ≤ a ∧ a < 0x40040 then some .desc
  else if 0x41000 ≤ a ∧ a < 0x42000 then some .ops
  else if 0x42000 ≤ a ∧ a < 0x42100 then some .block
  else if 0x44000 ≤ a ∧ a < 0x45000 then some .out
  else if 0x45000 ≤ a ∧ a < 0x45020 then some .table
  else if 0x46000 ≤ a ∧ a < 0x46004 then some .lstat
  else none

/-- One byte of the local map; bytes that no operand covers and state bytes beyond STATE_LEN read as 0.
DESIGN CHOICE, log entry 4. -/
def LaneSt.byteAt (l : LaneSt) (t : LaneTask) (a : Nat) : Byte :=
  match areaOf a with
  | some .desc => t.desc.getD (a - 0x40000) 0
  | some .ops => t.ops.getD (a - 0x41000) 0
  | some .block => if a - 0x42000 < t.stateLen then memGet l.mem a else 0
  | some .lstat => BitVec.ofNat 8 (l.lstat.toNat / 2 ^ (8 * (a - 0x46000)))
  | some _ => memGet l.mem a
  | none => 0

/-- The areas of whole accesses: none for an access that R257 calls illegal. -/
def accessArea (a size : Nat) : Option Area := if a % size = 0 then areaOf a else none

/-- A load of `size` bytes. -/
def LaneSt.load (l : LaneSt) (t : LaneTask) (a size : Nat) : Option Nat :=
  (accessArea a size).map (fun _ => leVal ((List.range size).map (fun i => l.byteAt t (a + i))))

/-- A store of `size` bytes: none to a read-only area; state bytes beyond STATE_LEN ignore writes. -/
def LaneSt.store (l : LaneSt) (t : LaneTask) (a size v : Nat) : Option LaneSt :=
  match accessArea a size with
  | some .sram => some { l with mem := memWrite l.mem a (le size v) }
  | some .out => some { l with mem := memWrite l.mem a (le size v) }
  | some .table => some { l with mem := memWrite l.mem a (le size v) }
  | some .block => some { l with mem := memWrite l.mem a ((le size v).take (t.stateLen - (a - 0x42000))) }
  | _ => none

/-! ### Addressing modes (R256) -/

/-- RB + OFF12 × size. -/
def LaneSt.offAddr (l : LaneSt) (w : LaneM) (size : Nat) : W32 := l.reg w.rb + BitVec.ofInt 32 (w.off.toInt * size)

/-- The address accessed; none for MODE 3. -/
def LaneSt.addr (l : LaneSt) (w : LaneM) (size : Nat) : Option Nat :=
  match w.mode.toNat with
  | 0 => some (l.offAddr w size).toNat
  | 1 => some (l.reg w.rb).toNat
  | 2 => some (l.offAddr w size).toNat
  | _ => none

/-- The effect of an access on RB, after the access; `old` is the Lane before it. DEDUCED, log entry 41. -/
def LaneSt.updateBase (l old : LaneSt) (w : LaneM) (size : Nat) : LaneSt :=
  if w.mode.toNat = 1 ∨ w.mode.toNat = 2 then l.setReg w.rb (old.offAddr w size) else l

end Sys2Proof.Machine
end

