-- ==== Sys2Proof/Machine/Lane.lean ====
section
/-! DEFINITION. The Lane instructions but END (R250 to R267): each executes completely before the next one starts (R252). An
instruction that comes while the Lane runs no task has no effect. -/

namespace Sys2Proof.Machine

/-- What an instruction does to its Lane: the Lane afterwards with the events it counts besides RETIRED, or an illegal
condition (R257). DEDUCED, log entry 42. -/
abbrev LaneOp := LaneSt → LaneTask → Option (LaneSt × List (Nat × Nat))

/-- An illegal condition (R257): a record once per template since the commit, and the task is handled as aborted.
DEDUCED, log entry 12. -/
def State.illegal (s : State) (lane : Nat) (l : LaneSt) (t : LaneTask) : State :=
  let s :=
    if s.jn.illegal.contains t.tmpl then s
    else
      (s.log 0x0333 (le 2 t.task.inst ++ le 1 t.kernel ++ [0] ++ le 2 l.pc.toNat ++ [0, 0])).onJn
        (fun j => { j with illegal := j.illegal ++ [t.tmpl] })
  (s.count lane 1 [(2, 1), (0x12, 1)]).abortTask t.task

/-- The word that a Lane in a user kernel fetches: what stands at its PC in the user part of instruction SRAM, as far as the committed
image reaches (R246, R257, R268). The images of the vendor kernels are outside the spec. -/
def State.laneWord (s : State) (l : LaneSt) : Option W32 :=
  let p := l.pc.toNat - 0x4000
  if 0x4000 ≤ l.pc.toNat ∧ p + 4 ≤ s.jn.code.length then some (BitVec.ofNat 32 (num s.jn.code p 4)) else none

/-- A Lane that runs a task comes to an instruction: a fetch outside the kernel's area, or of a word with an undefined OP or FN, is
illegal (R256, R257); where another instruction stands at the PC, this one does not come. DEDUCED, log entry 41. -/
def laneIssue (lane : Fin 64) (i : Instr) (s : State) (run : LaneSt → LaneTask → State) : State :=
  match s.mon.stopped, s.lanes[lane.val]? with
  | true, _ => s
  | false, none => s
  | false, some l =>
    match l.task with
    | none => s
    | some t =>
      if !inArea t.kernel l.pc.toNat then s.illegal lane.val l t
      else match s.laneWord l with
        | none => run l t
        | some v =>
          if laneEncode i = some v then run l t
          else if (laneDecode lane v).isNone then s.illegal lane.val l t
          else s

/-- Executes one instruction on a Lane: its own slot and those that it squashes. DEDUCED, log entry 41. -/
def laneRun (lane : Fin 64) (i : Instr) (op : LaneOp) (s : State) : State :=
  laneIssue lane i s (fun l t => match op l t with
    | some (l', evs) =>
      let waste := ((evs.filter (fun p => p.1 == 2)).map Prod.snd).sum
      (s.onLane lane.val (fun _ => l')).count lane.val (1 + waste) ((1, 1) :: evs)
    | none => s.illegal lane.val l t)

/-- An instruction that always completes. DEDUCED, log entry 41. -/
def plain (f : LaneSt → LaneSt) : LaneOp := fun l _ => some ((f l).next, [])

/-- S must be 0 (R257). DEDUCED, log entry 41. -/
def noS (w : LaneR) (op : LaneOp) : LaneOp := fun l t => if w.s then none else op l t

/-- An integer result under R259. -/
def LaneSt.intResult (l : LaneSt) (rd : BitVec 6) (sat : Bool) (v : Int) : LaneSt × Bool :=
  let r := satInt 32 sat v
  ((l.setInt rd r.1).flag fSatf r.2, r.2)

/-- An instruction with an exact integer result. -/
def intOp (rd : BitVec 6) (sat : Bool) (f : LaneSt → Int) : LaneOp := fun l _ =>
  let r := l.intResult rd sat (f l)
  some (r.1.next, if r.2 then [(0x1F, 1)] else [])

/-- Signed value of a register. -/
def LaneSt.sreg (l : LaneSt) (r : BitVec 6) : Int := (l.reg r).toInt

/-- Shift amount rt[5:0]. -/
def LaneSt.sh (l : LaneSt) (r : BitVec 6) : Nat := (l.reg r).toNat % 64

def laneAdd (l : Fin 64) (w : LaneR) (s : State) : State := laneRun l (.add l w) (intOp w.rd w.s (fun x => x.sreg w.rs + x.sreg w.rt)) s
def laneSub (l : Fin 64) (w : LaneR) (s : State) : State := laneRun l (.sub l w) (intOp w.rd w.s (fun x => x.sreg w.rs - x.sreg w.rt)) s
def laneAnd (l : Fin 64) (w : LaneR) (s : State) : State :=
  laneRun l (.and l w) (noS w (plain (fun x => x.setReg w.rd (x.reg w.rs &&& x.reg w.rt)))) s
def laneOr (l : Fin 64) (w : LaneR) (s : State) : State :=
  laneRun l (.or l w) (noS w (plain (fun x => x.setReg w.rd (x.reg w.rs ||| x.reg w.rt)))) s
def laneXor (l : Fin 64) (w : LaneR) (s : State) : State :=
  laneRun l (.xor l w) (noS w (plain (fun x => x.setReg w.rd (x.reg w.rs ^^^ x.reg w.rt)))) s
def laneShl (l : Fin 64) (w : LaneR) (s : State) : State :=
  laneRun l (.shl l w) (intOp w.rd w.s (fun x => shlExact (x.sreg w.rs) (x.sh w.rt))) s
def laneShr (l : Fin 64) (w : LaneR) (s : State) : State :=
  laneRun l (.shr l w) (noS w (plain (fun x => x.setReg w.rd (x.reg w.rs >>> x.sh w.rt)))) s
def laneSar (l : Fin 64) (w : LaneR) (s : State) : State :=
  laneRun l (.sar l w) (noS w (plain (fun x => x.setInt w.rd (x.sreg w.rs / (2 ^ min (x.sh w.rt) 31 : Nat))))) s
def laneMul (l : Fin 64) (w : LaneR) (s : State) : State := laneRun l (.mul l w) (intOp w.rd w.s (fun x => x.sreg w.rs * x.sreg w.rt)) s
def laneMulq (l : Fin 64) (w : LaneR) (s : State) : State :=
  laneRun l (.mulq l w) (intOp w.rd w.s (fun x => (x.sreg w.rs * x.sreg w.rt + 2 ^ 30) / 2 ^ 31)) s
def laneAbs (l : Fin 64) (w : LaneR) (s : State) : State := laneRun l (.abs l w) (intOp w.rd w.s (fun x => (x.sreg w.rs).natAbs)) s
def laneNorm (l : Fin 64) (w : LaneR) (s : State) : State :=
  laneRun l (.norm l w) (noS w (plain (fun x => x.setInt w.rd (x.sreg w.rs * (2 ^ redundant 32 (x.sreg w.rs) : Nat))))) s
def laneExp (l : Fin 64) (w : LaneR) (s : State) : State :=
  laneRun l (.exp l w) (noS w (plain (fun x => x.setInt w.rd (redundant 32 (x.sreg w.rs))))) s

/-! ### Accumulators -/

/-- MAC and MSU: the accumulator named by RD[0] takes an exact sum under R259. -/
def accOp (w : LaneR) (f : Int → Int → Int → Int) : LaneOp := fun l _ =>
  let x := w.rd.getLsbD 0
  let r := satInt 72 w.s (f (l.acc x).toInt (l.sreg w.rs) (l.sreg w.rt))
  some (((l.setAcc x r.1).flag fSatf r.2).next, (0x1E, 1) :: if r.2 then [(0x1F, 1)] else [])

def laneMac (l : Fin 64) (w : LaneR) (s : State) : State := laneRun l (.mac l w) (accOp w (fun a x y => a + x * y)) s
def laneMsu (l : Fin 64) (w : LaneR) (s : State) : State := laneRun l (.msu l w) (accOp w (fun a x y => a - x * y)) s
def laneMovta (l : Fin 64) (w : LaneR) (s : State) : State :=
  laneRun l (.movta l w) (noS w (fun x _ =>
    if 39 < w.rt.toNat then none
    else some ((x.setAcc (w.rd.getLsbD 0) (x.sreg w.rs * (2 ^ w.rt.toNat : Nat))).next, []))) s
def laneMova (l : Fin 64) (w : LaneR) (s : State) : State :=
  laneRun l (.mova l w) (intOp w.rd w.s (fun x => movaShift (x.acc (w.rs.getLsbD 0)).toInt w.rt.toNat)) s
def laneExpa (l : Fin 64) (w : LaneR) (s : State) : State :=
  laneRun l (.expa l w) (noS w (plain (fun x => x.setInt w.rd (redundant 72 (x.acc (w.rs.getLsbD 0)).toInt)))) s

/-! ### Floating point -/

/-- A floating-point result with its conditions; operands that are signalling NaNs make it invalid. DEDUCED, log entry 41. -/
def fpOp (rd : BitVec 6) (sat : Bool) (ins : LaneSt → List Nat) (f : LaneSt → FRes) : LaneOp := fun l _ =>
  let r := f l
  let r := fpSat sat r
  let r := { r with invalid := r.invalid || (ins l).any snan }
  some (((l.setReg rd (BitVec.ofNat 32 r.bits)).fpFlags r).next, [(0x1D, 1)])

/-- The pattern in a register. -/
def LaneSt.fr (l : LaneSt) (r : BitVec 6) : Nat := (l.reg r).toNat

/-- A two-operand instruction. -/
def fp2 (w : LaneR) (f : Nat → Nat → FRes) : LaneOp :=
  fpOp w.rd w.s (fun l => [l.fr w.rs, l.fr w.rt]) (fun l => f (l.fr w.rs) (l.fr w.rt))

def laneFadd (l : Fin 64) (w : LaneR) (s : State) : State := laneRun l (.fadd l w) (fp2 w f32.addR) s
def laneFsub (l : Fin 64) (w : LaneR) (s : State) : State := laneRun l (.fsub l w) (fp2 w f32.subR) s
def laneFmul (l : Fin 64) (w : LaneR) (s : State) : State := laneRun l (.fmul l w) (fp2 w f32.mulR) s
def laneFma (l : Fin 64) (w : LaneR) (s : State) : State :=
  laneRun l (.fma l w) (fpOp w.rd w.s (fun l => [l.fr w.rd, l.fr w.rs, l.fr w.rt]) (fun l => f32.fmaR (l.fr w.rs) (l.fr w.rt) (l.fr w.rd))) s
def laneFms (l : Fin 64) (w : LaneR) (s : State) : State :=
  laneRun l (.fms l w) (fpOp w.rd w.s (fun l => [l.fr w.rd, l.fr w.rs, l.fr w.rt])
    (fun l => f32.fmaR (f32.neg (l.fr w.rs)) (l.fr w.rt) (l.fr w.rd))) s
def laneFdiv (l : Fin 64) (w : LaneR) (s : State) : State := laneRun l (.fdiv l w) (fp2 w f32.divR) s
def laneFsqrt (l : Fin 64) (w : LaneR) (s : State) : State :=
  laneRun l (.fsqrt l w) (noS w (fpOp w.rd false (fun l => [l.fr w.rs]) (fun l => f32.sqrtR (l.fr w.rs)))) s
def laneFmin (l : Fin 64) (w : LaneR) (s : State) : State :=
  laneRun l (.fmin l w) (noS w (fp2 w (fun a b => FRes.plain (f32.minV a b)))) s
def laneFmax (l : Fin 64) (w : LaneR) (s : State) : State :=
  laneRun l (.fmax l w) (noS w (fp2 w (fun a b => FRes.plain (f32.maxV a b)))) s

/-- FCMPLT: whether a quiet NaN operand counts as an invalid operation is open, so the flag is then free. DEDUCED, log entry 41. -/
def laneFcmplt (l : Fin 64) (w : LaneR) (s : State) : State :=
  let f := s.fresh
  laneRun l (.fcmplt l w) (noS w (fun x _ =>
    let a := x.fr w.rs
    let b := x.fr w.rt
    let quiet := f32.isNan a || f32.isNan b
    some (((x.setInt w.rd (b01 (f32.lt a b))).flag fInv (snan a || snan b || quiet && f.1 % 2 == 1)).next, [(0x1D, 1)]))) f.2
def laneFnorm (l : Fin 64) (w : LaneR) (s : State) : State :=
  laneRun l (.fnorm l w) (noS w (fun x _ => some ((x.setReg w.rd (BitVec.ofNat 32 (fnormOf (x.fr w.rs)))).next, [(0x1D, 1)]))) s
def laneFexp (l : Fin 64) (w : LaneR) (s : State) : State :=
  laneRun l (.fexp l w) (noS w (fun x _ => some ((x.setInt w.rd (fexpOf (x.fr w.rs))).next, [(0x1D, 1)]))) s

/-- FTOI (R262). -/
def laneFtoi (l : Fin 64) (w : LaneR) (s : State) : State :=
  laneRun l (.ftoi l w) (fun x _ =>
    if 31 < w.rt.toNat then none
    else
      let a := x.fr w.rs
      let out (v : Int) := (((x.setInt w.rd (if w.s then v else -2 ^ 31)).flag fInv true).flag fSatf w.s).next
      let sat := if w.s then [(0x1D, 1), (0x1F, 1)] else [(0x1D, 1)]
      match ftoiOf a w.rt.toNat with
      | some v =>
        if v < -2 ^ 31 then some (out (-2 ^ 31), sat)
        else if 2 ^ 31 - 1 < v then some (out (2 ^ 31 - 1), sat)
        else some ((x.setInt w.rd v).next, [(0x1D, 1)])
      | none => some (out (if f32.isNan a then 0 else if f32.signBit ≤ a then -2 ^ 31 else 2 ^ 31 - 1), sat)) s

/-- ITOF (R262). -/
def laneItof (l : Fin 64) (w : LaneR) (s : State) : State :=
  laneRun l (.itof l w) (noS w (fun x _ =>
    if 31 < w.rt.toNat then none
    else some ((x.setReg w.rd (BitVec.ofNat 32 (f32.ofInt (x.sreg w.rs) (-(w.rt.toNat : Int))))).next, [(0x1D, 1)]))) s

/-! ### DMA (R266, R267) -/

/-- DMAGO: the transfer counts as complete at once for every load and store (R267). DEDUCED, log entry 42. -/
def laneDmago (l : Fin 64) (w : LaneR) (s : State) : State :=
  laneRun l (.dmago l w) (noS w (fun x t =>
    let a := (x.reg w.rs).toNat
    match x.load t a 4, x.load t (a + 4) 4, x.load t (a + 8) 4, x.load t (a + 12) 4 with
    | some src, some dst, some len, some ctrl =>
      if len < 4 ∨ 65536 < len ∨ t.ops.length < src + len ∨ dst < 0x10000 ∨ 0x40000 < dst + len ∨
          src % 4 ≠ 0 ∨ dst % 4 ≠ 0 ∨ len % 4 ≠ 0 ∨ ctrl ≠ 0 then none
      else some ({ x with mem := memWrite x.mem dst (slice t.ops src len), dma := some (dst, len) }.next, [(0x22, (len + 31) / 32)])
    | _, _, _, _ => none)) s

/-- DMAWT: the transfer has completed when it ends. DEDUCED, log entry 42. -/
def laneDmawt (l : Fin 64) (w : LaneR) (s : State) : State :=
  laneRun l (.dmawt l w) (noS w (plain (fun x => { x with dma := none }))) s

/-! ### Immediates, counters, loads and stores -/

def laneAddi (l : Fin 64) (w : LaneI) (s : State) : State :=
  laneRun l (.addi l w) (intOp w.rd w.s (fun x => x.sreg w.rs + w.imm.toInt)) s
def laneShli (l : Fin 64) (w : LaneI) (s : State) : State :=
  laneRun l (.shli l w) (fun x t => if 31 < w.imm.toNat then none else intOp w.rd w.s (fun x => shlExact (x.sreg w.rs) w.imm.toNat) x t) s
def laneSari (l : Fin 64) (w : LaneI) (s : State) : State :=
  laneRun l (.sari l w) (fun x _ =>
    if 31 < w.imm.toNat ∨ w.s then none else some ((x.setInt w.rd (x.sreg w.rs / (2 ^ w.imm.toNat : Nat))).next, [])) s
def laneAndi (l : Fin 64) (w : LaneI) (s : State) : State :=
  laneRun l (.andi l w) (fun x _ => if w.s then none else some ((x.setReg w.rd (x.reg w.rs &&& w.imm.signExtend 32)).next, [])) s

/-- Value of counter `n` of an engine: 0 CYC, 1 to 6 PMC0 to PMC5 (R275). -/
def CntSt.value (c : CntSt) (n : Nat) : Nat := if n = 0 then c.cyc else c.pmc.getD (n - 1) 0

/-- RDCNT is permitted to the task (R276). -/
def State.cntEnabled (s : State) (t : LaneTask) : Bool :=
  decide (0x80 ≤ t.tmpl) && (s.n kCntUserEn).testBit (t.tmpl - 0x80) && !s.cntFailed

/-- RDCNT (R275, R276). DEDUCED, log entry 40. -/
def laneRdcnt (l : Fin 64) (w : LaneI) (s : State) : State :=
  let s := if (s.lanes[l.val]?).any (fun x => x.task.isSome) then s.slack l.val else s
  laneRun l (.rdcnt l w) (fun x t =>
    let n := w.imm.toNat % 8
    if w.s ∨ w.rs ≠ 0 ∨ n = 7 ∨ 15 < w.imm.toNat then none
    else if !s.cntEnabled t then some ((x.setReg w.rd 0).next, [])
    else
      let v := (s.cnt l.val).value n
      if w.imm.toNat < 8 then some (({ x with shadow := some (n, v) }.setReg w.rd (BitVec.ofNat 32 v)).next, [])
      else match x.shadow with
        | some (m, u) =>
          if m = n then some ((x.setReg w.rd (BitVec.ofNat 32 (u / 2 ^ 32))).next, [])
          else some (((x.setReg w.rd (BitVec.ofNat 32 (v / 2 ^ 32))).flag fTear true).next, [])
        | none => some (((x.setReg w.rd (BitVec.ofNat 32 (v / 2 ^ 32))).flag fTear true).next, [])) s

/-- A load: the register takes the value, and RB its update. DEDUCED, log entry 41. -/
def loadOp (w : LaneM) (size : Nat) : LaneOp := fun x t =>
  match x.addr w size with
  | none => none
  | some a => match x.load t a size with
    | none => none
    | some v => some (((x.setInt w.rd (signed size v)).updateBase x w size).next, [(0x20, 1)])

/-- A store of rd. -/
def storeOp (w : LaneM) (size : Nat) : LaneOp := fun x t =>
  match x.addr w size with
  | none => none
  | some a => match x.store t a size (x.reg w.rd).toNat with
    | none => none
    | some y => some ((y.updateBase x w size).next, [(0x21, 1)])

def laneLd (l : Fin 64) (w : LaneM) (s : State) : State := laneRun l (.ld l w) (loadOp w 4) s
def laneSt (l : Fin 64) (w : LaneM) (s : State) : State := laneRun l (.st l w) (storeOp w 4) s
def laneLdh (l : Fin 64) (w : LaneM) (s : State) : State := laneRun l (.ldh l w) (loadOp w 2) s
def laneSth (l : Fin 64) (w : LaneM) (s : State) : State := laneRun l (.sth l w) (storeOp w 2) s

/-! ### Immediates of 20 bits, branches -/

def laneLi (l : Fin 64) (w : LaneB) (s : State) : State := laneRun l (.li l w) (plain (fun x => x.setReg w.rd (w.imm.signExtend 32))) s
def laneLih (l : Fin 64) (w : LaneB) (s : State) : State :=
  laneRun l (.lih l w) (plain (fun x => x.setReg w.rd ((x.reg w.rd &&& 0xFFF) ||| (w.imm.zeroExtend 32 <<< 12)))) s

/-- A conditional branch; a taken one squashes a slot. -/
def branchOp (w : LaneB) (c : W32 → Bool) : LaneOp := fun x t =>
  if c (x.reg w.rd) then (x.branch t.kernel w.imm).map (fun y => (y, [(0x14, 1), (2, 1)])) else some (x.next, [])

def laneBz (l : Fin 64) (w : LaneB) (s : State) : State := laneRun l (.bz l w) (branchOp w (fun v => v == 0)) s
def laneBnz (l : Fin 64) (w : LaneB) (s : State) : State := laneRun l (.bnz l w) (branchOp w (fun v => v != 0)) s
def laneBlt (l : Fin 64) (w : LaneB) (s : State) : State := laneRun l (.blt l w) (branchOp w (fun v => decide (v.toInt < 0))) s

/-- BLOOP (R265). G0 still reads as 0 after its decrement, so it never branches. -/
def laneBloop (l : Fin 64) (w : LaneB) (s : State) : State :=
  laneRun l (.bloop l w) (fun x t =>
    let v := x.reg w.rd - 1
    let y := { x.setReg w.rd v with rrb := x.rrb - 1 }
    if v ≠ 0 ∧ w.rd ≠ 0 then (y.branch t.kernel w.imm).map (fun z => (z, [(0x15, 1)])) else some (y.next, [])) s

end Sys2Proof.Machine
end

