-- ==== Sys2Proof/Machine/Kernels.lean ====
section
/-! DEFINITION. What the vendor kernels compute (R229, R240 to R245), the solver's results on their way to the Lanes, and END
(R255). The code of the vendor kernels is outside the spec; END delivers what the spec says the kernel computes. -/

namespace Sys2Proof.Machine

/-! ### Arm results and fills (R229, R240) -/

/-- τ_ff of an arm's joints at the committed accelerations (R168, R240): `old` is the state before the solve, whose front stage formed
M_a and h_a. DESIGN CHOICE, log entry 35. -/
def State.feedforward (s old : State) (a : Nat) : List Nat :=
  let acc := (List.range (s.nj a)).map (fun j => s.solver.a.getD (8 * a + j) 0)
  zipOp (fun r h => f32.add r h) ((old.mass a).map (fun r => dot r acc)) (old.effortOf a)

/-- The result of an arm: per joint q_c, q̇_c, a and τ_ff; `old` is the state before it was computed. DESIGN CHOICE, log entry 35. -/
def State.armResult (s old : State) (a : Nat) : Bytes :=
  let ff := s.feedforward old a
  ((List.range (s.nj a)).map (fun j =>
    let i := 8 * a + j
    le 4 (s.solver.q.getD i 0) ++ le 4 (s.solver.v.getD i 0) ++ le 4 (s.solver.a.getD i 0) ++ le 4 (ff.getD j 0))).flatten

/-- Delivers an arm's result to its joint loops, and over the NEXT edge to its KIN. -/
def State.deliverArm (s old : State) (a : Nat) : State :=
  let c := s.cycle % 65536
  s.arriveAll ((List.range (s.nj a)).map (fun j => (8 + 8 * a + j, 1, c)) ++ [(a, 1, (c + 1) % 65536)])
    ⟨s.armResult old a, false, false, 0, none⟩

/-- The results of a solve that was written in this cycle leave for the Lanes and the encoder emulation. DEDUCED, log entry 57.
DEDUCED, log entry 64. -/
def State.solveOut (s old : State) : State :=
  if s.solver.doneCycle = old.solver.doneCycle then s
  else s.arms.foldl (fun s a => s.deliverArm old a) (s.emuPush (fun c => c / 4096 == 0) (s.applyAt s.cycle))

/-- A solver run is counted: pivots replaced and a rejected result, out of its report (R190, R272). DEDUCED, log entry 40. -/
def State.solveCounts (s old : State) : State :=
  if s.solver.doneCycle = old.solver.doneCycle then s
  else
    let r := s.solver.result
    s.countWork 80 [(0x60, 1, 1), (0x65, num r 18 2 + num r 22 2, 1), (0x66, b01 ((num r 14 2).testBit fFallback), 1)]

/-- SOLVE with its results on their way. -/
def solveCmd (s : State) : State := ((solve s).solveOut s).solveCounts s

/-- SOLVER_LATE with the fallback output on its way. -/
def solverLateCmd (s : State) : State := ((solverLate s).solveOut s).solveCounts s

/-- A committed state that the Junction puts in place of a solver result: positions of the newest KIN output, or none (an empty
token) for the present measurement; at rest (R229). While the device moves or comes to rest it is the committed state. -/
def State.fillState (s : State) (a : Nat) : Bytes :=
  let js := (List.range (s.nj a)).map (fun j => 8 * a + j)
  if s.inMotion then s.armResult s a
  else if js.all (fun i => (s.jn.dec.getD i none).isSome) then
    (js.map (fun i => le 4 (s.solver.qm.getD i 0) ++ zeros 12)).flatten
  else []

/-- Fills of a cycle start (R229, R240): port 1 of each KIN that has no committed state, in READY port 1 of each joint loop,
and at Tier 2 the horizon samples of BYPASS; in READY a BYPASS does not run, and its tag waits. DESIGN CHOICE, log entry 59. -/
def State.fillPorts (s : State) : State :=
  if !s.jn.running then s
  else
    let c := s.cycle % 65536
    let ready := !s.inMotion
    let s := s.arms.foldl (fun s a => match s.inst? a with
      | some x => if ((x.ports.getD 1 emptyPort).cur).isSome ∨ x.tag ≠ c then s else s.arrive a 1 c ⟨s.fillState a, false, false, 0, none⟩
      | none => s) s
    if ready then
      let s := s.joints.foldl (fun s j => s.arrive (8 + j) 1 c ⟨[], false, false, 0, none⟩) s
      s.onJn (fun j => { j with insts := j.insts.map (fun x =>
        if 80 ≤ x.id ∧ x.id < 88 then { x with tag := c, ports := x.ports.map (fun _ => emptyPort) } else x) })
    else s.arms.foldl (fun s a => s.arrive (80 + a) 1 c ⟨s.sampleArgs a, false, false, 0, none⟩) s

/-! ### KIN (R242) -/

/-- Signed 32-bit difference of two counts. -/
def diff32 (a b : Int) : Int := signed 4 ((a - b) % 2 ^ 32).toNat

/-- A quotient of an integer by a binary32 scale, rounded once. -/
def overScale (v : Int) (scale : Nat) : Nat :=
  let r := f32.ratio scale
  let n := v * (r.2 : Int)
  f32.ofRatio (if r.1 < 0 then -n else n) r.1.natAbs

/-- A joint's sample is usable: the operand is fresh, VALID is 1 and FAULT is 0. -/
def sampleOk (b : Bytes) (stale : Bool) (j : Nat) : Bool := !stale && num b (14 + 12 * j) 2 % 4 == 1

/-- Decodes one joint of a measurement block (R131, R242). DEDUCED, log entry 58. -/
def State.decodeJoint (s : State) (i : Nat) (b : Bytes) : JointDec :=
  let j := i % 8
  let r := s.joint i
  let scale := num r 96 4
  let cnt := int b (4 + 12 * j) 4
  let q := match s.jn.dec.getD i none with
    | some d => if s.cont i then f32.add d.q (overScale (diff32 cnt (signed 4 d.count)) scale) else overScale (cnt - int r 100 4) scale
    | none => overScale (cnt - int r 100 4) scale
  { count := num b (4 + 12 * j) 4, q := q, v := overScale (int b (8 + 12 * j) 4) scale,
    tq := f32.mul (f32.ofInt (int b (12 + 12 * j) 2) 0) (num r 104 4) }

/-- One joint of a KIN task: a usable sample is decoded, else the last one stands; without one its values are free.
DESIGN CHOICE, log entry 35. DEDUCED, log entry 58. DESIGN CHOICE, log entry 59. -/
def State.kinJoint (s : State) (i : Nat) (b : Bytes) (stale : Bool) : State :=
  if sampleOk b stale (i % 8) then
    let d := s.decodeJoint i b
    let s := s.onJn (fun j => { j with dec := modAt j.dec i (fun _ => some d) })
    { s with solver := { s.solver with qm := modAt s.solver.qm i (fun _ => d.q), vm := modAt s.solver.vm i (fun _ => d.v) } }
  else match s.jn.dec.getD i none with
    | some _ => s
    | none =>
      let (x, s) := s.fresh
      let (y, s) := s.fresh
      { s with solver := { s.solver with
          qm := modAt s.solver.qm i (fun _ => x % 2 ^ 32), vm := modAt s.solver.vm i (fun _ => y % 2 ^ 32) } }

/-- The rest of a KIN output (R240), which the spec gives no layout (DESIGN CHOICE, log entry 35): link frames in ascending CHAIN, the tool pose, the
bias β of R171 and the end points at q_m and at q_pred of the capsules that the arm carries. -/
def State.kinRest (s : State) (a : Nat) (op1 : Bytes) : Bytes :=
  let k := s.obj (kArmKin a)
  let q := armVals s.solver.qm a
  let qd : Bytes := ((List.range 8).map (fun j => slice op1 (16 * j + 4) 4)).flatten
  let key := k ++ q ++ qd
  let ls := kinLinks k (vals32 q)
  let b := chainBias k (vals32 qd) (kinTool k ls).p ls
  let vec (key : Bytes) (i : Nat) (v : V3) : Bytes := (v.list.zipIdx.map (fun x => le 4 (Machine.settle key (i + x.2) x.1))).flatten
  let caps := (s.elems.filter (fun e => e.arm == some a)).flatMap (fun e =>
    (e.geo.hull.pts.map (fun p => le 4 p.x.bits ++ le 4 p.y.bits ++ le 4 p.z.bits)).flatten)
  (ls.map (fun l => l.after.bytes key)).flatten ++ toolPose k q ++ vec key 0 b.1 ++ vec key 3 b.2 ++ caps

/-- The output of KIN: per joint q_m, q̇_m and torque, the joints decoded as stale, and the rest. DESIGN CHOICE, log entry 35. -/
def State.kinOut (s : State) (a : Nat) (mask : Nat) (op1 : Bytes) : Bytes :=
  ((List.range (s.nj a)).map (fun j =>
    let i := 8 * a + j
    le 4 (s.solver.qm.getD i 0) ++ le 4 (s.solver.vm.getD i 0) ++ le 4 ((s.jn.dec.getD i none).elim 0 JointDec.tq))).flatten ++
    le 1 mask ++ s.kinRest a op1

/-- q_pred of a KIN's arm: from the committed state of its port 1, and the measured positions where that token is empty (R200, R229). -/
def State.kinPred (s : State) (a : Nat) (op1 : Bytes) : State :=
  let q (j : Nat) : Nat :=
    if op1.isEmpty then s.solver.qm.getD (8 * a + j) 0 else f32.add (num op1 (16 * j) 4) (f32.mul (num op1 (16 * j + 4) 4) s.t32)
  { s with solver := { s.solver with qp := (List.range (s.nj a)).foldl (fun l j => modAt l (8 * a + j) (fun _ => q j)) s.solver.qp } }

/-- A KIN task ends. DESIGN CHOICE, log entry 35. DEDUCED, log entry 57. -/
def State.kinEnd (s : State) (t : Fired) : State :=
  let a := t.inst
  let op := t.ops.headD ⟨[], false, true, 255, none⟩
  let js := List.range (s.nj a)
  let mask := maskOf (js.filter (fun j => !sampleOk op.data op.stale j))
  let op1 := (t.ops.getD 1 ⟨[], false, false, 0, none⟩).data
  let s := (js.foldl (fun s j => s.kinJoint (8 * a + j) op.data op.stale) s).kinPred a op1
  s.complete t t.block op.stale op.age [s.kinOut a mask op1]

/-! ### JLOOP (R243 to R245) -/

/-- A field of a joint's JL_PAR. -/
def State.jlPar (s : State) (i off : Nat) : Nat := s.sub (kJlPar i) off 4

/-- The reference (q_ref, v_ref) at an instant in ns (R244). DESIGN CHOICE, log entry 59. -/
def jlRef (hist : List JlHist) (at_ : Nat) : Nat × Nat :=
  -- newest first: the newest result applied by then, else the oldest
  let h := (hist.find? (fun h => decide (h.at_ ≤ at_))).getD (hist.getLastD ⟨0, 0, 0, 0⟩)
  let dt := f32.ofRatio ((at_ : Int) - h.at_) 1000000000
  (f32.add (f32.add h.q (f32.mul h.v dt)) (f32.mul (f32.mul 0x3F000000 h.a) (f32.mul dt dt)), f32.add h.v (f32.mul h.a dt))

/-- A biquad of JL_PAR with its two states (R244): output and next states. -/
def State.biquad (s : State) (i off x s1 s2 : Nat) : Nat × Nat × Nat :=
  let p k := s.jlPar i (off + 4 * k)
  let y := f32.add (f32.mul (p 0) x) s1
  (y, f32.add (f32.sub (f32.mul (p 1) x) (f32.mul (p 3) y)) s2, f32.sub (f32.mul (p 2) x) (f32.mul (p 4) y))

/-- Both biquads. -/
def State.filter (s : State) (i u : Nat) (st : List Nat) : Nat × List Nat :=
  let a := s.biquad i 24 u (st.getD 0 0) (st.getD 1 0)
  let b := s.biquad i 44 a.1 (st.getD 2 0) (st.getD 3 0)
  (b.1, [a.2.1, a.2.2, b.2.1, b.2.2])

/-- c_v (R245): each operation in binary32, 2π being the nearest binary32 number; how exp rounds the spec does not say, and its last bits are
free. DEDUCED, log entry 31. -/
def State.velCoeff (s : State) (i : Nat) : Nat :=
  let f := s.jlPar i 16
  let x := f32.mul (f32.mul 0x40C90FDB f) s.t32
  if f = 0x45FA0000 then f32one else f32.sub f32one (Machine.settle (le 4 x) 0 (Dbl.ofF32 x).expNeg)

/-- One evaluation of a joint loop (R244): torque command, SAT and the next state without its history.
DESIGN CHOICE, log entry 59. -/
def State.jlStep (s : State) (i : Nat) (x : JlSt) (qref vref qm vm ff : Nat) : Nat × Bool × JlSt :=
  let kpp := s.jlPar i 0
  let kvp := s.jlPar i 4
  let kvi := s.jlPar i 8
  let kff := s.jlPar i 12
  let tmax := s.jlPar i 20
  let ep := s.wrapDiff i (f32.sub qref qm)
  let vf := f32.add x.vf (f32.mul (s.velCoeff i) (f32.sub vm x.vf))
  let ev := f32.sub (f32.add vref (f32.mul kpp ep)) vf
  let di := f32.mul (f32.mul (f32.mul kvp kvi) ev) s.t32
  let base := f32.add (f32.mul kvp ev) x.ui
  let fwd := f32.mul kff ff
  let r := s.filter i (f32.add (f32.add base di) fwd) x.s
  if f32.lt 0 tmax ∧ f32.lt tmax (f32.abs r.1) then
    let r := s.filter i (f32.add base fwd) x.s
    (clamp32 r.1 (f32.neg tmax) tmax, true, { x with vf := vf, s := r.2 })
  else (r.1, false, { x with ui := f32.add x.ui di, vf := vf, s := r.2 })

/-- A JLOOP task ends. -/
def State.jloopEnd (s : State) (t : Fired) : State :=
  let i := t.inst - 8
  let j := i % 8
  let op0 := t.ops.headD ⟨[], false, true, 255, none⟩
  let op1 := (t.ops.getD 1 ⟨[], false, false, 0, none⟩).data
  let qm := num op0.data (12 * j) 4
  let vm := num op0.data (12 * j + 4) 4
  let stale := (num op0.data (12 * s.nj (i / 8)) 1).testBit j
  let ctrl (sat jog : Bool) : Nat := (if stale then 4 else 0) + (if jog then 8 else 0) + (if sat then 16 else 0)
  if op1 = [] then s.complete t t.block op0.stale op0.age [s.spEntry i qm 0 0 (ctrl false false)]
  else
    let q := num op1 (16 * j) 4
    let v := num op1 (16 * j + 4) 4
    let x := s.jn.jl.getD i { ui := 0, vf := 0, s := [], hist := [], fresh := true }
    let c := s.tagCycle t.tag
    let ref := jlRef x.hist ((c - op0.age) * s.tns)
    let r := s.jlStep i x ref.1 ref.2 qm vm (num op1 (16 * j + 12) 4)
    if !(f32.isFinite q && f32.isFinite v && f32.isFinite r.1) then s.abortTask t
    else
      let h : JlHist := ⟨q, v, num op1 (16 * j + 8) 4, s.applyAt c⟩
      let hist := h :: if x.fresh then [] else x.hist.take 3
      let s := s.onJn (fun y => { y with jl := modAt y.jl i (fun _ => { r.2.2 with hist := hist, fresh := false }) })
      s.complete t t.block op0.stale op0.age [s.spEntry i q v r.1 (ctrl r.2.1 (decide (s.tierRun = 2)))]

/-- Entry to RUN (R244): integral and filters cleared, the velocity filter at q̇_m, and the committed state at rest there.
DEDUCED, log entry 57. -/
def State.jloopRun (s : State) : State :=
  s.onJn (fun y => { y with jl := y.jl.zipIdx.map (fun p =>
    { ui := 0, vf := s.solver.vm.getD p.2 0, s := [0, 0, 0, 0], hist := [⟨s.solver.q.getD p.2 0, 0, 0, 0⟩], fresh := true }) })

/-! ### SETPT and BYPASS (R165, R243, R338) -/

/-- CTRL ENABLE of an arm (R243). -/
def State.enable (s : State) (a : Nat) : Bool := s.isIn [.run, .hold, .degraded] && !(s.sarm a).stoH

/-- The arm of a running brake test. DESIGN CHOICE, log entry 59. -/
def State.btArm (s : State) (a : Nat) : Bool := match s.safe.bt with
  | some b => b.arm == a
  | none => false

/-- One entry of ARM_SETPOINT out of a joint loop's output; in a brake test that of R338. DESIGN CHOICE, log entry 59. -/
def State.setptEntry (s : State) (a j : Nat) (o : Tok) : Bytes :=
  let e := fit 12 o.data
  let ctrl := num e 10 2 ||| (if o.late then 2 else 0) ||| b01 (s.enable a)
  if s.btArm a then
    slice e 0 4 ++ zeros 4 ++ (if (s.braked a).contains j then slice (s.obj (kSafeArm a)) (160 + 2 * j) 2 else zeros 2) ++ le 2 (ctrl ||| 1)
  else patch e 10 (le 2 ctrl)

/-- A SETPT task ends: it writes ARM_SETPOINT. DEDUCED, log entry 57. -/
def State.setptEnd (s : State) (t : Fired) : State :=
  let a := t.inst - 72
  let e := (t.ops.zipIdx.map (fun p => s.setptEntry a p.2 p.1)).flatten
  s.complete t t.block (t.ops.any Tok.stale) 0 [fit 96 e]

/-- A BYPASS task ends (R165): its arm's committed state advances by the clamped reference. DEDUCED, log entry 57. -/
def State.bypassEnd (s : State) (t : Fired) : State :=
  let a := t.inst - 80
  let js := (List.range (s.nj a)).map (fun j => 8 * a + j)
  let acc := js.map (fun i => (i, s.bypassAcc i))
  let s := if js.any (fun i => (s.jointBounds i).2.2) then s.setBit kSolverStatus 7 true else s
  let old := s
  let s := (s.advance acc).emuPush (fun c => c / 8 == a) (s.applyAt (s.tagCycle t.tag))
  s.complete t t.block ((t.ops.headD ⟨[], false, false, 0, none⟩).stale) ((t.ops.headD ⟨[], false, false, 0, none⟩).age) [s.armResult old a]

/-! ### END (R255) -/

/-- Output ranges of a user task: offset and length of each port. DEDUCED, log entry 41. -/
def outRanges (m : Mem) : List (Nat × Nat) :=
  (List.range 8).map (fun p => (leVal (memRead m (0x45000 + 4 * p) 2), leVal (memRead m (0x45002 + 4 * p) 2)))

/-- A user task ends: one token for each output port, the state block committed. DEDUCED, log entry 41. -/
def State.userEnd (s : State) (l : LaneSt) (t : LaneTask) : State :=
  s.complete t.task (memRead l.mem 0x42000 t.stateLen) false 0
    ((outRanges l.mem).map (fun r => memRead l.mem (0x44000 + r.1) r.2))

/-- END: the Lane is free, and the task's outputs are delivered. The instructions of a vendor kernel have passed unseen. -/
def endTask (lane : Fin 64) (w : LaneR) (s : State) : State :=
  laneIssue lane (.endTask lane w) s (fun l t =>
    let user := decide (88 ≤ t.task.inst)
    if w.s ∨ user ∧ (outRanges l.mem).any (fun r => decide (r.2 ≠ 0 ∧ 4096 < r.1 + r.2)) then s.illegal lane.val l t
    else
      let s := if s.vendorRun lane.val then s.slack lane.val else s
      let s := s.onLane lane.val (fun x => { x.next with task := none, dma := none })
      let s := s.count lane.val 1 [(1, 1), (0x11, 1)]
      if user then s.userEnd l t
      else if t.task.inst < 8 then s.kinEnd t.task
      else if t.task.inst < 72 then s.jloopEnd t.task
      else if t.task.inst < 80 then s.setptEnd t.task
      else s.bypassEnd t.task)

end Sys2Proof.Machine
end

