-- ==== Sys2Proof/Machine/Effects.lean ====
section
/-! DEFINITION. What a write does, object by object (R386 to R390): the own check of each object that has one, the effect of each
object that is more than its value, OBJECT_WRITE and WRITE_APPLY. -/

namespace Sys2Proof.Machine

/-! ### Own checks -/

/-- The number that an object under configuration holds. DEDUCED, log entry 24. -/
def State.cfgN (s : State) (k : Nat) : Nat := leVal (s.cfg k)

/-- T in ns under configuration. -/
def State.cfgTns (s : State) : Nat := cycleNsOf (s.cfgN kBasicCycle)

/-- OUT_OF_RANGE unless a condition holds. -/
def need (b : Bool) : Nat := if b then 0 else abRange

/-- The codes of DEV_CMD and the level that each needs (R421): 0 B, 1 E. -/
def cmdLevel : Nat → Option Nat
  | 0x01 => some 1
  | 0x02 => some 1
  | 0x03 => some 1
  | 0x10 => some 0
  | 0x11 => some 0
  | 0x12 => some 0
  | 0x13 => some 0
  | 0x20 => some 1
  | 0x30 => some 1
  | 0x31 => some 1
  | 0x40 => some 1
  | 0x41 => some 1
  | _ => none

/-- The own checks of DEV_CMD: code, level, standby, unfinished command (R372, R386, R421). -/
def devCmdOwn (rq : Requester) (v : Bytes) (s : State) : Nat :=
  match cmdLevel (leVal v) with
  | none => abRange
  | some l =>
    if s.level rq < l then abLevel
    else if s.standby && rq != .partner && leVal v != 0x41 && s.dev.state != .service then abBusy
    else if s.dev.cmds.any (fun c => c.rq = rq) then abBusy
    else resPending

/-- The effect of DEV_CMD: the command waits for its evaluation (R422), and the owner forwards it (R371). A swap is forwarded when
it has been accepted (R378), and DETACH is not (R374). DEDUCED, log entry 16. -/
def devCmdEff (rq : Requester) (v : Bytes) (s : State) : State :=
  let alone := rq = .partner ∨ leVal v = 0x40 ∨ leVal v = 0x41
  let a := if alone then s.cycle + 1 else s.applyCycle
  let s := { s with dev := { s.dev with cmds := s.dev.cmds ++ [⟨rq, leVal v, a⟩] } }
  if alone then s else s.forward a (writeMsgBytes 0x0110 0x01 v)

/-- The own check of HOST_MAP (R411): mapped objects exist and are of a fixed size. -/
def hostMapOwn (v : Bytes) : Nat :=
  need ((records 4 v).all (fun r => num r 0 2 == 0 || match objRow? (num r 0 2) (num r 2 1) with
    | some o => o.type != .str && o.type != .domain
    | none => false))

/-- A user kernel image is signed by an owner (R246, R444). DEDUCED, log entry 55. -/
def State.userSigned (s : State) (v : Bytes) : Bool := s.sec.verify "CX864-IMG" 1 ownerSigners v

/-- The own check of JN_USER_KERNEL (R246). -/
def userKernelOwn (v : Bytes) (s : State) : Nat :=
  if s.sec.fuses.devBlown && !s.userSigned v then abSignature
  else if 49152 < imgBodyLen v then abNoResource else 0

/-- Whether a binary32 value lies below another. -/
def below32 (v k : Nat) (s : State) : Nat := need (f32.lt v (s.cfgN k))

/-- The own check of SQ_TD: at least T (R221). -/
def sqTdOwn (v : Nat) (s : State) : Nat :=
  let r := f32.ratio v
  need (f32.le v f32one && decide ((s.cfgTns : Int) * r.2 ≤ r.1 * 1000000000))

/-- A vector of binary32 numbers keeps bounds in every element. -/
def allIn (v : Bytes) (lo hi : Nat) : Bool := (records 4 v).all (fun r => inF32 (leVal r) lo hi)

/-- The own check of JL_PAR (R245): ranges of its gains and corner. -/
def jlParOwn (v : Bytes) : Nat :=
  need (v.length == 64 && inF32 (num v 0 4) 0 0x461C4000 && inF32 (num v 4 4) 0 0x49742400 && inF32 (num v 8 4) 0 0x461C4000 &&
    inF32 (num v 12 4) 0 f32one && inF32 (num v 16 4) f32one 0x45FA0000)

/-- The own check of SQ_ARM_PAR (R223). -/
def sqArmParOwn (v : Bytes) : Nat :=
  let slack (x : Nat) : Bool := decide (x ≤ 63) || x == 0xFF
  need ((records 16 v).all (fun r => inF32 (num r 0 4) 0 0x3DCCCCCD && inF32 (num r 4 4) 0 0x3F000000 &&
    inF32 (num r 8 4) 0 0x40000000 && slack (num r 12 1) && slack (num r 13 1)))

/-- The own check of CR_ZONE (R216): a shape of the table, and half extents of a box above 0. -/
def crZoneOwn (v : Bytes) : Nat :=
  need (decide (num v 0 1 ≤ 2) && (num v 0 1 != 1 || (List.range 3).all (fun i => f32.lt 0 (num v (32 + 4 * i) 4))))

/-- Own checks of arms, groups, tables and the solver. DEDUCED, log entry 24. -/
def ownMotion (index sub : Nat) (v : Bytes) (s : State) : Nat :=
  let x := leVal v
  if 0x3000 ≤ index ∧ index ≤ 0x37FF then
    let a := (index - 0x3000) / 256
    match index % 256 with
    | 0 => if sub = 0x03 then need (decide (2 * s.cfgN (kPlanDiv a) + 4 ≤ x)) else 0
    | 2 => if sub = 0x01 then armMoveOwn a v s else 0
    | 3 => jogOwn a v s
    | _ => 0
  else if 0x3800 ≤ index ∧ index ≤ 0x3803 then
    let g := index - 0x3800
    match sub with
    | 0x02 => if s.n (kGrpState g) = 0 then 0 else abState
    | 0x03 => grpCmdOwn g v s
    | 0x05 => grpMoveOwn g v s
    | _ => 0
  else if index = 0x3A00 ∨ index = 0x3A01 then segOwn (128 * (index - 0x3A00) + (sub - 1)) v s
  else if index = 0x3A02 ∨ index = 0x3A03 then camOwn (128 * (index - 0x3A02) + (sub - 1)) v s
  else if index = 0x4000 then
    match sub with
    | 0x0B => need (allIn v 0x358637BD 0x49742400)
    | 0x0D => need (allIn v 0 0x4E6E6B28)
    | 0x0F => need (decide (5000 ≤ x) && decide (x + 42500 ≤ s.cfgTns))
    | _ => 0
  else if index = 0x4100 then
    match sub with
    | 0x08 => if f32.lt x 0 then abRange else below32 x kSqDi s
    | 0x09 => if f32.lt x 0 then abRange else below32 x kSqDi s
    | 0x0B => sqTdOwn x s
    | 0x0E => sqArmParOwn v
    | _ => 0
  else if index = 0x4200 ∧ sub = 0x02 then (if f32.lt x 0 then abRange else below32 x kSqDi s)
  else if index = 0x4201 then crZoneOwn v
  else if index = 0x4202 then crReqOwn (sub - 1) v s
  else 0

/-- A user template keeps the ranges of R247. -/
def tmplOk (tns : Nat) (r : Bytes) : Bool :=
  let f (off n lo hi : Nat) : Bool := decide (lo ≤ num r off n) && decide (num r off n ≤ hi)
  f 0 1 0x80 0xFE && f 1 1 0 3 && (f 2 1 0 7 || num r 2 1 == 0xF0) && f 3 1 1 8 && f 4 4 100 50000 && f 8 4 0 tns && f 20 2 0 256

/-- A user instance keeps the ranges of R247. -/
def instOk (r : Bytes) : Bool := decide (256 ≤ num r 0 2) && decide (num r 0 2 ≤ 1023) && decide (0x80 ≤ num r 2 1)

/-- A user edge keeps the kinds of R247. -/
def edgeOk (r : Bytes) : Bool := decide (num r 0 1 ≤ 1) && decide (num r 4 1 ≤ 1)

/-- Whole records of `n` bytes, each of which passes. -/
def allRecords (n : Nat) (v : Bytes) (ok : Bytes → Bool) : Nat := need (v.length % n == 0 && (records n v).all ok)

/-- Own checks of the Junction, counters, axes, feedback, emulation and compare units. DEDUCED, log entry 24. -/
def ownLine (index sub : Nat) (v : Bytes) (s : State) : Nat :=
  let x := leVal v
  if index = 0x5000 then
    match sub with
    | 0x04 => need (decide (2000 ≤ x) && decide (x + 10000 ≤ s.cfgTns))
    | 0x0B => allRecords 32 v (tmplOk s.cfgTns)
    | 0x0C => allRecords 16 v instOk
    | 0x0D => allRecords 12 v edgeOk
    | 0x0F => userKernelOwn v s
    | _ => 0
  else if index = 0x5001 then jlParOwn v
  else if index = 0x5400 then (if sub = 0x02 then isOneOwn v else 0)
  else if 0x5410 ≤ index ∧ index ≤ 0x5461 then
    match sub with
    | 0x08 => cntSelOwn (index - 0x5410) v
    | 0x0B => isOneOwn v
    | _ => 0
  else if 0x6000 ≤ index ∧ index ≤ 0x600F then
    let n := index - 0x6000
    match sub with
    | 0x07 => need (f32.lt (s.cfgN (kAxPosMin n)) x)
    | 0x0C => need (decide (x % 8 ≤ 4) && decide (x / 16 % 8 ≤ 4) && decide (x % 8 ≤ x / 16 % 8))
    | 0x0E => need (x % 5 == 0)
    | 0x0F => need (x % 5 == 0)
    | 0x14 => axMoveOwn n v s
    | _ => 0
  else if 0x6100 ≤ index ∧ index ≤ 0x610F then
    match sub with
    | 0x04 => need (x == 0 || decide (4 ≤ x))
    | 0x0D => need (x % 5 == 0)
    | 0x0E => need (decide (x < s.cfgTns))
    | _ => 0
  else if 0x6200 ≤ index ∧ index ≤ 0x6207 then
    match sub with
    | 0x02 => need (x != 0)
    | 0x06 => need (x % 4 == 0)
    | 0x07 => need (decide (x < s.cfgN (kEmuZper (index - 0x6200))) || x == 0)
    | 0x08 => need (x % 5 == 0)
    | _ => 0
  else if 0x6210 ≤ index ∧ index ≤ 0x621F then
    match sub % 16 with
    | 1 => cmpValueOwn (index - 0x6210) s
    | 4 => need (x % 5 == 0)
    | 7 => disarmOwn v
    | _ => 0
  else 0

/-- Own checks of the device, the rings, the time unit, safety, recorder, monitor, security and test objects. GUARD_GAP is held to
2 × PRECISION at its own write; a later rise of PRECISION is accepted. DEDUCED, log entry 24. DESIGN CHOICE, log entry 81. -/
def ownDevice (rq : Requester) (index sub : Nat) (v : Bytes) (s : State) : Nat :=
  let x := leVal v
  match index with
  | 0x0110 => devCmdOwn rq v s
  | 0x0200 =>
    (match sub with
    | 0x03 => onlyIn s [.inert, .config]
    | 0x06 => need (v.length == 4 && v.all (fun b => decide (b.toNat ≤ 1)))
    | _ => 0)
  | 0x0210 => if sub = 0x06 then hostMapOwn v else 0
  | 0x1000 => ring 0
  | 0x1400 => ring 1
  | 0x2000 =>
    (match sub with
    | 0x02 => timeIncOwn v s
    | 0x03 => phaseSlewOwn v s
    | _ => 0)
  | 0x7000 =>
    (match sub with
    | 0x08 => safeSetOwn v s
    | 0x0D => safeBtOwn s
    | _ => 0)
  | 0x8000 =>
    (match sub with
    | 0x05 => recSafeSectOwn v s
    | 0x06 => onlyIn s [.service]
    | _ => 0)
  | 0x8800 => if sub = 0x04 then reenableOwn v s else 0
  | 0x8820 =>
    (match sub with
    | 0x02 => monCalOwn v s
    | 0x03 => need (x == 0 || decide (60 ≤ x) && decide (x ≤ 86400))
    | 0x05 => need (!v.isEmpty)
    | 0x06 => need (v.length == 128 && (records 4 v).all (fun r => decide (1 ≤ leVal r) && decide (leVal r ≤ 16777216)))
    | 0x08 => syscalOwn v s
    | _ => 0)
  | 0x9000 =>
    (match sub with
    | 0x03 => imageOwn 1 s
    | 0x04 => imageOwn 2 s
    | 0x05 => imageOwn 3 s
    | 0x06 => onlyIn s [.inert, .config, .ready, .service]
    | 0x07 => rebootOwn s
    | 0x09 => ownerKeyOwn v s
    | 0x0A => ownerRevokeOwn v s
    | 0x10 => nonceOwn v s
    | 0x13 => certOwn v s
    | _ => 0)
  | _ => 0
where
  ring (i : Nat) : Nat :=
    match sub with
    | 0x06 => need (decide (2 * s.cfgN (kPrecision i) ≤ leVal v) && decide (leVal v ≤ 2000))
    | 0x09 => need (leVal v % 4 == 0)
    | _ => 0

/-- The own check of an object (R386 item 7). -/
def writeOwn (rq : Requester) (index sub : Nat) (v : Bytes) (s : State) : Nat :=
  if 0x3000 ≤ index ∧ index ≤ 0x4FFF then ownMotion index sub v s
  else if 0x5000 ≤ index ∧ index ≤ 0x6FFF then ownLine index sub v s
  else ownDevice rq index sub v s

/-! ### Effects -/

/-- Both burst domains run on while gating is off (R470). -/
def gateEff (v : Bytes) (s : State) : State :=
  let s := s.setObj kLlGateEn v
  if leVal v = 0 then
    (s.onMon (fun m => { m with on800 := m.on800 || m.pll.getD 3 false, on1000 := m.on1000 || m.pll.getD 4 false })).clocksStart s
  else s

/-- Every session ends (R407). -/
def State.endSessions (s : State) : State :=
  let gone (r : RqSt) : Bool := match r.rq with
    | .session _ _ => false
    | _ => true
  { s with dict := { s.dict with sessions := [], rqs := s.dict.rqs.filter gone } }

/-- A write of RED_STATUS clears W1C fields; a change sets the RED interrupt (R382, R418). -/
def redStatusEff (v : Bytes) (s : State) : State :=
  let t := storeWrite 0x7800 0x04 v s
  if t.obj kRedStatus = s.obj kRedStatus then t else t.interrupt 6

/-- The effect of an address object of the service port (R407). -/
def svcAddrEff (sub : Nat) (v : Bytes) (s : State) : State :=
  let same := s.obj (objKey 0x0210 sub) = v
  let s := storeWrite 0x0210 sub v s
  if same then s else s.endSessions

/-- Effects on arms, groups, correction channels and Crossings. -/
def effMotion (index sub : Nat) (v : Bytes) (s : State) : State :=
  if 0x3000 ≤ index ∧ index ≤ 0x37FF ∧ index % 256 = 2 ∧ sub = 1 then armMoveEff ((index - 0x3000) / 256) v s
  else if 0x3000 ≤ index ∧ index ≤ 0x37FF ∧ index % 256 = 3 then jogEff ((index - 0x3000) / 256) v s
  else if 0x3800 ≤ index ∧ index ≤ 0x3803 ∧ sub = 0x03 then grpCmdEff (index - 0x3800) v s
  else if 0x3800 ≤ index ∧ index ≤ 0x3803 ∧ sub = 0x05 then grpMoveEff (index - 0x3800) v s
  else if 0x3900 ≤ index ∧ index ≤ 0x391F ∧ sub = 0x0C then hcCtrlEff (index - 0x3900) v s
  else if index = 0x4202 then crReqEff (sub - 1) v s
  else if objKey index sub = kSolverIter then (storeWrite index sub v s).setIterActive
  else storeWrite index sub v s

/-- Effects on counters, axes and compare units. -/
def effLine (index sub : Nat) (v : Bytes) (s : State) : State :=
  if index = 0x5400 ∧ sub = 0x02 then s.cntZeroAll
  else if 0x5410 ≤ index ∧ index ≤ 0x5461 ∧ sub = 0x08 then cntSelEff (index - 0x5410) v s
  else if 0x5410 ≤ index ∧ index ≤ 0x5461 ∧ sub = 0x0B then s.cntZero (index - 0x5410)
  else if 0x6000 ≤ index ∧ index ≤ 0x600F ∧ sub = 0x14 then axMoveEff (index - 0x6000) v s
  else if 0x6210 ≤ index ∧ index ≤ 0x621F ∧ sub % 16 = 1 then cmpValueEff (index - 0x6210) (sub / 16) v s
  else if 0x6210 ≤ index ∧ index ≤ 0x621F ∧ sub % 16 = 7 then s.arm (index - 0x6210) (sub / 16) false
  else storeWrite index sub v s

/-- Effects on the device, the time unit, safety, recorder, monitor, security and test objects. -/
def effDevice (rq : Requester) (index sub : Nat) (v : Bytes) (s : State) : State :=
  match index, sub with
  | 0x0110, 0x01 => devCmdEff rq v s
  | 0x0200, 0x03 => s.setObj kAccECode v
  | 0x0210, 0x01 => svcAddrEff 1 v s
  | 0x0210, 0x02 => svcAddrEff 2 v s
  | 0x0210, 0x03 => svcAddrEff 3 v s
  | 0x1000, 0x1D => s.setObj (kPortErr 0) (objDefault (kPortErr 0))
  | 0x1400, 0x1D => s.setObj (kPortErr 1) (objDefault (kPortErr 1))
  | 0x2000, 0x02 => timeIncEff v s
  | 0x2000, 0x03 => phaseSlewEff v s
  | 0x2000, 0x05 => timeSetEff v s
  | 0x2000, 0x07 => cellRefEff v s
  | 0x2100, 0x01 => (storeWrite 0x2100 0x01 v s).sourceEff s
  | 0x2100, 0x02 => (storeWrite 0x2100 0x02 v s).sourceEff s
  | 0x2100, 0x03 => (storeWrite 0x2100 0x03 v s).sourceEff s
  | 0x2100, 0x11 => (storeWrite 0x2100 0x11 v s).sourceEff s
  | 0x2100, 0x12 => (storeWrite 0x2100 0x12 v s).sourceEff s
  | 0x2100, 0x13 => (storeWrite 0x2100 0x13 v s).sourceEff s
  | 0x7800, 0x01 => (storeWrite 0x7800 0x01 v s).sourceEff s
  | 0x7000, 0x08 => safeSetEff rq v s
  | 0x7000, 0x0D => safeBtEff v s
  | 0x7800, 0x04 => redStatusEff v s
  | 0x8000, 0x05 => recSafeSectEff v s
  | 0x8000, 0x06 => recClearEff v s
  | 0x8800, 0x04 => s.reenable
  | 0x8810, 0x03 => gateEff v s
  | 0x8820, 0x02 => monCalEff s
  | 0x8820, 0x08 => syscalEff rq v s
  | 0x9000, 0x03 => imageEff rq 1 v s
  | 0x9000, 0x04 => imageEff rq 2 v s
  | 0x9000, 0x05 => imageEff rq 3 v s
  | 0x9000, 0x06 => secConfirmEff v s
  | 0x9000, 0x07 => rebootEff v s
  | 0x9000, 0x09 => ownerKeyEff v s
  | 0x9000, 0x0A => ownerRevokeEff v s
  | 0x9000, 0x0B => devLockEff v s
  | 0x9000, 0x10 => nonceEff v s
  | 0x9800, 0x01 => bscanEff v s
  | 0x9800, 0x04 => portLoopEff v s
  | _, _ => storeWrite index sub v s

/-- The effect of a write on the device. -/
def writeEff (rq : Requester) (index sub : Nat) (v : Bytes) (s : State) : State :=
  if 0x3000 ≤ index ∧ index ≤ 0x4FFF then effMotion index sub v s
  else if 0x5000 ≤ index ∧ index ≤ 0x6FFF then effLine index sub v s
  else effDevice rq index sub v s

/-! ### ACC_UNLOCK, ACC_V_TOKEN and ACC_LOCK (R390 to R393) -/

/-- The own check of ACC_UNLOCK. -/
def unlockOwn (rq : Requester) (v : Bytes) (s : State) : Nat :=
  if (s.rq rq).lockout ∨ leVal v ≠ s.n kAccECode then abLevel else 0

/-- The effect of a matching code. -/
def unlockEff (rq : Requester) (s : State) : State :=
  let r := s.rq rq
  s.setRq { r with raised := max r.raised 1 }

/-- Counts a wrong value: the eighth of a requester within 60 s locks it out. DEDUCED, log entry 13. -/
def State.wrongCode (s : State) (rq : Requester) : State :=
  let r := s.rq rq
  if r.lockout then s
  else
    let now := s.recd.optime
    let w := r.wrong.filter (fun t => decide (now < t + 960)) ++ [now]
    s.setRq (if 8 ≤ w.length then { r with wrong := [], lockout := true } else { r with wrong := w })

/-- Bytes of a requester in a record of its own choosing: path, reserved, REQ of R423. -/
def State.rqBytes (s : State) (rq : Requester) : Bytes := le 1 (pathCode rq) ++ [0] ++ le 2 (s.reqNo rq)

/-- The own check of ACC_V_TOKEN (R393). -/
def tokenOwn (v : Bytes) (s : State) : Nat :=
  if v.length ≠ 32 + sigLen 1 then abType
  else if !s.sec.verify "CX864-TOK" 1 [0] v then abSignature
  else need (num v 0 4 == 0x56540001 && num v 4 8 == s.sec.fuses.serial && decide (s.recd.optime ≤ num v 12 8))

/-- The effect of an accepted token. DEDUCED, log entry 12. -/
def tokenEff (rq : Requester) (v : Bytes) (s : State) : State :=
  let s := s.setRq { s.rq rq with raised := 3, vUntil := some (num v 12 8) }
  s.log 0x0211 (s.rqBytes rq ++ le 8 (num v 12 8))

/-- The requester goes back to its base level. -/
def lockEff (rq : Requester) (s : State) : State := s.setRq { s.rq rq with raised := 0, vUntil := none }

/-- The own check of the access objects. -/
def accessOwn (rq : Requester) (sub : Nat) (v : Bytes) (s : State) : Nat :=
  match sub with
  | 0x02 => unlockOwn rq v s
  | 0x04 => tokenOwn v s
  | _ => isOneOwn v

/-- The effect of the access objects. -/
def accessEff (rq : Requester) (sub : Nat) (v : Bytes) (s : State) : State :=
  match sub with
  | 0x02 => unlockEff rq s
  | 0x04 => tokenEff rq v s
  | _ => lockEff rq s

/-- A write of an access object: a wrong code counts. -/
def accessWrite (rq : Requester) (sub : Nat) (v : Bytes) (s : State) : State :=
  let own := accessOwn rq sub v
  let s' := submitWrite rq 0x0200 sub v own (accessEff rq sub v) s
  if sub = 0x02 ∧ s.served rq ∧ writeCheck s rq 0x0200 sub v = 0 ∧ own s ≠ 0 then s'.wrongCode rq else s'

/-- ACC_UNLOCK (R392). -/
def accUnlock (rq : Requester) (v : W32) (s : State) : State := accessWrite rq 0x02 (le 4 v.toNat) s

/-- ACC_LOCKOUT_EXPIRY (R392). DEDUCED, log entry 2. -/
def accLockoutExpiry (rq : Requester) (s : State) : State :=
  if (s.rq rq).lockout then s.setRq { s.rq rq with lockout := false } else s

/-- ACC_V_TOKEN (R393). -/
def accVToken (rq : Requester) (token : Bytes) (s : State) : State := s.verifying rq 0x0200 0x04 token (accessWrite rq 0x04 token)

/-- TOKEN_EXPIRY (R393). DEDUCED, log entry 2. -/
def tokenExpiry (rq : Requester) (s : State) : State := if (s.rq rq).vUntil.isSome then lockEff rq s else s

/-- ACC_LOCK (R392). -/
def accLock (rq : Requester) (v : Byte) (s : State) : State := accessWrite rq 0x05 [v] s

/-! ### OBJECT_WRITE and WRITE_APPLY -/

/-- Whether an object is one of the three of R390. -/
def isAccess (index sub : Nat) : Bool := index == 0x0200 && (sub == 2 || sub == 4 || sub == 5)

/-- What a write leaves behind beside its effect: the record of a refused move (R145), IMG_REJECTED (R449), and the mark of an
unsigned user image (R246). -/
def afterWrite (rq : Requester) (index sub : Nat) (v : Bytes) (s s' : State) : State :=
  let c := if !s.served rq then abBusy else if writeCheck s rq index sub v = 0 then writeOwn rq index sub v s else abType
  if c = abRange ∧ 0x3000 ≤ index ∧ index ≤ 0x37FF ∧ index % 256 = 2 then s'.moveRefused ((index - 0x3000) / 256) v
  else if c = abRange ∧ 0x6000 ≤ index ∧ index ≤ 0x600F ∧ sub = 0x14 then s'.moveRefused (0x10 + (index - 0x6000)) v
  else if index = 0x9000 ∧ 3 ≤ sub ∧ sub ≤ 5 ∧ s.served rq ∧ (c = abState ∨ c = abBusy) then s'.setBit kSecStatus 4 true
  else if index = 0x5000 ∧ sub = 0x0F ∧ c = 0 then
    (if s.userSigned v then s'.setBit kJnStatus 6 false else (s'.setBit kJnStatus 6 true).logOpen 0 0x0332)
  else s'

/-- A write of any object, with its verification where it needs one. -/
def runWrite (rq : Requester) (index sub : Nat) (v : Bytes) (s : State) : State :=
  if isAccess index sub then accessWrite rq sub v s
  else afterWrite rq index sub v s (submitWrite rq index sub v (writeOwn rq index sub v) (writeEff rq index sub v) s)

/-- A write of any object; one that needs a verification may have to wait for it (R453). -/
def performObject (rq : Requester) (index sub : Nat) (v : Bytes) (s : State) : State :=
  if isVerified index sub then s.verifying rq index sub v (runWrite rq index sub v) else runWrite rq index sub v s

/-- The verifications that waited for a signature run in their order: an image read back meanwhile, then the writes (R453).
DEDUCED, log entry 55. -/
def State.runVerifies (s : State) : State :=
  let s := match s.sec.flashOp with
    | some (.readBack t d rq) => s.imageDone t d rq true
    | _ => s
  let l := s.sec.verifies
  l.foldl (fun s w =>
    let s := runWrite w.rq w.index w.sub w.data s
    let c := (s.rq w.rq).result
    if c = resPending then s else s.finish w.rq c) (s.onSec (fun x => { x with verifies := [] }))

/-- ATT_REPORT_DONE (R453, R454): the report stands in its mailbox, and the verifications that waited for it run. -/
def attReportDone (s : State) : State :=
  match s.sec.attNonce, s.sec.fuses.devSeed with
  | some nonce, some seed => (s.reportSigned nonce seed).runVerifies
  | _, _ => s

/-- OBJECT_WRITE (R386). -/
def objectWrite (rq : Requester) (index : W16) (sub : Byte) (data : Bytes) (s : State) : State :=
  performObject rq index.toNat sub.toNat data s

/-- Applies one waiting write; one that the owner forwarded from CONFIG goes into the staged copy (R371, R388). -/
def State.applyOne (s : State) (w : PendingWrite) : State :=
  if w.rq = .partner ∧ (objRow? (keyIndex w.key) (keySub w.key)).any (staging s) then s.stage w.key w.data
  else writeEff w.rq (keyIndex w.key) (keySub w.key) w.data s

/-- WRITE_APPLY (R389): the waiting writes whose apply cycle has begun take effect in order of acceptance. -/
def writeApply (s : State) : State :=
  let due := s.dict.pendingWrites.filter (fun w => decide (w.applyCycle ≤ s.cycle))
  let s := { s with dict := { s.dict with pendingWrites := s.dict.pendingWrites.filter (fun w => !decide (w.applyCycle ≤ s.cycle)) } }
  due.foldl State.applyOne s

end Sys2Proof.Machine
end

