-- ==== Sys2Proof/Machine/Values.lean ====
section
/-! DEFINITION. What a read of an object returns (R386, R388, R400, R416, R417): the value that the state lists, or the one that the
object's block computes; mailbox marks; queues and what their readers take away. -/

namespace Sys2Proof.Machine

/-! ### Computed values -/

/-- ACC_SESSIONS (R394). The spec's idle time is in ms; the model's clock for it counts 1/16 s. -/
def State.sessionRecords (s : State) : Bytes :=
  ((List.range 8).map (fun i => match s.dict.sessions.find? (fun x => x.slot == i) with
    | some x => le 4 x.ip.toNat ++ le 2 x.port.toNat ++ le 1 (s.level (.session x.ip x.port)) ++ [0] ++
        le 4 ((s.recd.optime - x.lastAt) * 1000 / 16) ++ zeros 4
    | none => zeros 16)).flatten

/-- A home Street was moved (R235). -/
def State.homesMoved (s : State) : Bool := s.buildInsts.any (fun x => s.home x != (s.tmpl x).home)

/-- JN_INST_STATUS (R248). DEDUCED, log entry 64. -/
def State.instStatus (s : State) : Bytes :=
  (s.jn.insts.map (fun x => le 2 x.id ++ le 2 (min x.late 65535) ++ le 1 (min x.consec 255) ++
    le 1 ((x.ports.getD 0 emptyPort).age) ++ le 1 (b01 x.aborted + 2 * b01 x.stolen) ++ [0])).flatten

/-- Zeros in place of the status of an absent arm. -/
def State.ofArm (s : State) (a n : Nat) (v : Bytes) : Bytes := if s.n (kArmNj a) = 0 then zeros n else v

/-- Computed values of the device, dictionary and time objects. -/
def State.viewDevice (s : State) (rq : Requester) (index sub : Nat) : Option Bytes :=
  match index, sub with
  | 0x0100, 0x05 => some (le 8 s.sec.fuses.serial)
  | 0x0111, 0x01 => some (le 1 s.dev.state.code)
  | 0x0111, 0x03 => some (le 1 s.tierActive)
  | 0x0112, 0x01 => some s.dict.hostEvents.flatten
  | 0x0112, 0x02 => some (le 2 (s.n kHostEvtStatus / 256 % 2 * 256 + min s.dict.hostEvents.length 255))
  | 0x0200, 0x01 => some (le 1 (s.level rq))
  | 0x0200, 0x0C => some s.sessionRecords
  | 0x0210, 0x04 => some (le 8 s.sec.fuses.mac)
  | 0x1000, 0x0E => some (le 1 (s.ringState .m))
  | 0x1400, 0x0E => some (le 1 (s.ringState .p))
  | 0x1000, 0x1C => some (s.nodeStatus .m)
  | 0x1400, 0x1C => some (s.nodeStatus .p)
  | 0x1800, 0x02 => some (le 2 ((s.obj kSlotMap).length / 16))
  | 0x2000, 0x01 => some s.cellTime
  | 0x2000, 0x03 => some (leInt 8 (s.time.slewRem.tdiv 256))
  | 0x2000, 0x09 => some (le 2 s.timeStatus)
  | 0x2000, 0x0B => some (le 8 s.cycle)
  | 0x2000, 0x20 => fifo 0
  | 0x2000, 0x21 => fifo 1
  | 0x2000, 0x22 => fifo 2
  | 0x2000, 0x23 => fifo 3
  | 0x2000, 0x24 => fifo 4
  | 0x2000, 0x25 => fifo 5
  | 0x2100, 0x05 => some (leInt 8 (s.domOffset 0))
  | 0x2100, 0x15 => some (leInt 8 (s.domOffset 1))
  | 0x2100, 0x07 => some (time96 (s.domTime 0))
  | 0x2100, 0x17 => some (time96 (s.domTime 1))
  | _, _ => none
where
  fifo (p : Nat) : Option Bytes := some (s.time.fifos.getD p []).flatten

/-- Computed values of arms, groups, solver, Junction, axes and counters. -/
def State.viewMotion (s : State) (index sub : Nat) : Option Bytes :=
  if 0x3000 ≤ index ∧ index ≤ 0x37FF then
    let a := (index - 0x3000) / 256
    match index % 256, sub with
    | 2, 2 => some (s.ofArm a 16 (s.moveStatus a))
    | 4, 1 => some (s.ofArm a 96 (s.obj (kArmSetpoint a)))
    | 4, 2 => some (s.ofArm a 4 (s.obj (kArmMeas a)))
    | 5, 1 => some (s.ofArm a 16 (s.mot a).cur.bytes)
    | 6, 1 => some (s.ofArm a 28 (s.obj (kToolPose a)))
    | _, _ => none
  else if 0x3800 ≤ index ∧ index ≤ 0x3803 ∧ sub = 6 then some (s.grpStatus (index - 0x3800))
  else if 0x3800 ≤ index ∧ index ≤ 0x3803 ∧ sub = 0x0B then some (s.grasps (index - 0x3800))
  else if index = 0x4100 ∧ sub = 2 then some s.scaleBytes
  else if index = 0x4000 ∧ sub = 1 then some (le 2 (Machine.setBit (s.n kSolverStatus) 11 s.bypassed))
  else if index = 0x5000 ∧ sub = 1 then some (le 2 (Machine.setBit (s.n kJnStatus) 0 s.homesMoved))
  else if index = 0x5000 ∧ sub = 0x0E then some s.instStatus
  else if 0x5410 ≤ index ∧ index ≤ 0x5461 then
    let e := index - 0x5410
    (if sub = 1 then some (le 8 (s.cnt e).cyc)
     else if 2 ≤ sub ∧ sub ≤ 7 then some (le 8 ((s.cnt e).pmc.getD (sub - 2) 0))
     else if sub = 9 then some (s.cntBytes e) else none)
  else if 0x6000 ≤ index ∧ index ≤ 0x600F ∧ sub = 0x15 then some (s.axMoveStatus (index - 0x6000))
  else none

/-- Computed values of safety, pair, recorder, supplies and security. -/
def State.viewService (s : State) (index sub : Nat) : Option Bytes :=
  match index, sub with
  | 0x7000, 0x09 => some s.setDir
  | 0x7000, 0x0A => some s.verdicts
  | 0x7000, 0x0B => some (le 4 s.outState)
  | 0x7000, 0x0C => some (le 4 s.degRemain)
  | 0x7000, 0x0E => some s.btStatus
  | 0x7800, 0x02 => some (le 1 (b01 s.dev.unitId))
  | 0x7800, 0x04 => some (le 2 (Machine.setBit (s.n kRedStatus) 0 s.owner))
  | 0x7800, 0x08 => some (le 4 s.sinceSwap)
  | 0x8000, 0x01 => some (le 2 s.recStatus)
  | 0x8000, 0x02 => some (le 8 s.recd.optime)
  | 0x8000, 0x03 => some (le 4 s.recd.pcc)
  | 0x8000, 0x04 => some s.recd.layout
  | 0x8000, 0x05 => some (le 4 s.recd.safety.count)
  | 0x8000, 0x07 => some s.recd.safety.range
  | 0x8000, 0x08 => some s.recd.general.range
  | 0x8000, 0x0A => some (s.recd.safety.read (s.n kRecSafeCursor))
  | 0x8000, 0x0C => some (s.recd.general.read (s.n kRecGenCursor))
  | 0x8000, 0x0E => some s.recd.typeStats
  | 0x8810, 0x01 => some (le 2 (Machine.setBit (s.n kClkStatus) 0 (s.mon.pll.all (fun b => b))))
  | 0x8810, 0x06 => some (le 8 s.mon.time800 ++ le 8 s.mon.time1000)
  | 0x8820, 0x01 => some (le 2 (Machine.setBit (s.n kMonStatus) 1 (match s.mon.calib with
      | some (_, b) => b
      | none => false)))
  | 0x9000, 0x02 => some s.sec.slots
  | 0x9000, 0x08 => some s.sec.fuses.bytes
  | 0x9000, 0x12 => some s.sec.fuses.devicePk
  | _, _ => none

/-- The live value of an object: computed, or as the state lists it; a staged value in CONFIG (R388). DEDUCED, log entry 64. -/
def State.view (s : State) (rq : Requester) (index sub : Nat) : Bytes :=
  let c := if index < 0x3000 then s.viewDevice rq index sub
    else if index < 0x7000 then s.viewMotion index sub
    else s.viewService index sub
  match c with
  | some v => v
  | none =>
    let key := objKey index sub
    match objRow? index sub with
    | some r => if staging s r then s.cfg key else s.obj key
    | none => []

/-! ### Mailboxes and queues (R189, R191, R416, R417, R453) -/

/-- Result and sequence of a mailbox object, and whether its READY is set. -/
def State.mailbox? (s : State) (index sub : Nat) : Option (Bytes × Nat × Bool) :=
  match index, sub with
  | 0x4000, 0x02 => some (s.solver.result, num s.solver.result 0 4, s.solver.ready)
  | 0x4000, 0x14 => some (s.solver.duals, num s.solver.duals 0 4, s.solver.ready)
  | 0x9000, 0x11 => some (s.sec.attReport, num s.sec.attReport 12 4, s.sec.attReady)
  | _, _ => none

/-- Number of reads of a result by a requester, counting this one. -/
def RqSt.reads (r : RqSt) (key seq : Nat) : Nat :=
  match r.marks.find? (fun m => m.key == key && m.seq == seq) with
  | some m => min (m.count + 1) 255
  | none => 1

/-- The copy that a read returns, its header marks, and the requester's read state after it. -/
def State.mailRead (s : State) (rq : Requester) (index sub : Nat) (v : Bytes) (seq : Nat) (ready : Bool) : Bytes × Nat × State :=
  if v.isEmpty then ([], 4, s)
  else
    let key := objKey index sub
    let r := s.rq rq
    let n := r.reads key seq
    let s := s.setRq { r with marks := ⟨key, seq, n⟩ :: r.marks.filter (fun m => m.key != key) }
    let flags := 4 * b01 (!ready) + 8 * b01 (decide (1 < n))
    let v := if index = 0x4000 ∧ sub = 0x02 then
        patch (patch v 14 (le 2 (num v 14 2 / 4 * 4 + b01 (!ready) + 2 * b01 (decide (1 < n))))) 45 (le 1 n)
      else v
    (v, flags, s)

/-- The records of a queue object. -/
def State.queue? (s : State) (index sub : Nat) : Option (List Bytes) :=
  if index = 0x0112 ∧ sub = 0x01 then some s.dict.hostEvents
  else if index = 0x2000 ∧ 0x20 ≤ sub ∧ sub ≤ 0x25 then some (s.time.fifos.getD (sub - 0x20) [])
  else none

/-- A queue without the records that a reader received: those of them that still stand at its head. -/
def removeRead : List Bytes → List Bytes → List Bytes
  | [], q => q
  | r :: rs, q => if (r :: rs).isPrefixOf q then q.drop (rs.length + 1) else removeRead rs q

/-- Removes what a reader received of a queue object. -/
def State.dequeue (s : State) (index sub : Nat) (v : Bytes) : State :=
  if index = 0x0112 ∧ sub = 0x01 then
    { s with dict := { s.dict with hostEvents := removeRead (records 40 v) s.dict.hostEvents } }
  else if index = 0x2000 ∧ 0x20 ≤ sub ∧ sub ≤ 0x25 then
    { s with time := { s.time with fifos := modAt s.time.fifos (sub - 0x20) (removeRead (records 16 v)) } }
  else s

/-! ### Reads -/

/-- Why a read is refused (R9, R270, R386, R387, R448, R481): 0 when it is not. -/
def readCheck (index sub : Nat) (s : State) : Nat :=
  match objRow? index sub with
  | none => if indexExists index then abNoSub else abNoObject
  | some r =>
    if s.bit kSecStatus 0 && !recoveryIndex index then abNoObject
    else if r.acc = .wo then abWriteOnly
    else if 0x5410 ≤ index ∧ index ≤ 0x5461 ∧ (sub ≤ 0x07 ∨ sub = 0x09) then s.cntRefusal
    else if index = 0x8000 ∧ (sub = 0x0A ∨ sub = 0x0C) ∧ s.bit kUnitFail 42 then abHwFault
    else 0

/-- A read of a counter samples it. -/
def State.sampled (s : State) (index sub : Nat) : State :=
  if 0x5410 ≤ index ∧ index ≤ 0x5461 ∧ (sub ≤ 0x07 ∨ sub = 0x09) then s.slack (index - 0x5410) else s

/-- What a read of an object returns to a requester: value, header marks, and the state after it. -/
def State.readObject (s : State) (rq : Requester) (index sub : Nat) : Bytes × Nat × State :=
  match s.mailbox? index sub with
  | some (v, seq, ready) => s.mailRead rq index sub v seq ready
  | none =>
    let s := s.sampled index sub
    (s.view rq index sub, 0, s)

/-- The value that a word of a window or of a planner sees: nothing of an object that is write-only, absent or of no fixed
size. -/
def State.wordValue (s : State) (rq : Requester) (index sub : Nat) : Bytes × State :=
  match objRow? index sub with
  | some r =>
    if readCheck index sub s = 0 ∧ r.type ≠ .str ∧ r.type ≠ .domain then
      let s := s.sampled index sub
      (s.view rq index sub, s)
    else ([], s)
  | none => ([], s)

end Sys2Proof.Machine
end

