-- ==== Sys2Proof/Machine/Message.lean ====
section
/-! DEFINITION. Dictionary messages (R395 to R406, R412): requests from every path, segmented transfers, INDIRECT moves, the CX864's
own requests to nodes, and the service port. -/

namespace Sys2Proof.Machine

/-- Segment size of a requester's path (R398). -/
def State.segSize (s : State) : Requester → Nat
  | .node r _ => min 1024 ((s.n (kArbPlenMax (ringNo r)) - 16) / 4 * 4)
  | _ => 1024

/-- Refuses a request. -/
def State.fail (s : State) (rq : Requester) (m : DictMsg) (code : Nat) : State := (s.answer rq code).respond rq (abortMsg m code)

/-- Open transfers of the device (R399). -/
def State.openXfers (s : State) : Nat := (s.dict.rqs.filter (fun r => r.xfer.isSome)).length

/-- Replaces a requester's transfer. -/
def State.setXfer (s : State) (rq : Requester) (x : Option Xfer) : State := s.setRq { s.rq rq with xfer := x }

/-- INDEX and SUB of a message. -/
def mIndex (m : DictMsg) : Nat := m.index.toNat
def mSub (m : DictMsg) : Nat := m.sub.toNat

/-- LAST is set. -/
def mLast (m : DictMsg) : Bool := m.flags.toNat.testBit 0

/-- The write of a whole value, and its response unless the object completes later (R386, R402). -/
def State.writeValue (s : State) (rq : Requester) (m : DictMsg) (v : Bytes) : State :=
  let s := performObject rq (mIndex m) (mSub m) v s
  if s.dev.phase ≠ .up then s
  else
    let c := (s.rq rq).result
    if c = resPending then s
    else if c = 0 then s.respond rq (respMsg m (0x80 + m.op.toNat) 1 (if m.op = 4 then m.param.toNat else 0) [])
    else s.respond rq (abortMsg m c)

/-- The image type that an object takes, 0 for none (R449). -/
def imageOf (index sub : Nat) : Nat := if index = 0x9000 ∧ 3 ≤ sub ∧ sub ≤ 5 then sub - 2 else 0

/-- A WRITE of the first of several segments to an image object erases the slot (R449). -/
def State.eraseSlot (s : State) (rq : Requester) (m : DictMsg) (x : Xfer) : State :=
  let t := imageOf (mIndex m) (mSub m)
  let c := writeCheck s rq (mIndex m) (mSub m) []
  let c := if c = 0 then imageOwn t s else c
  if c ≠ resPending then
    let s := s.refuse rq (mIndex m) (mSub m) c
    let s := if c = abState ∨ c = abBusy then s.setBit kSecStatus 4 true else s
    s.respond rq (abortMsg m c)
  else
    let s := s.onSec (fun y =>
      { y.onImg t (fun i => (i.setBytes i.target []).setSt i.target .empty) with flashOp := some (.erase rq) })
    (s.answer rq resPending).setXfer rq (some x)

/-- WRITE (R399). DEDUCED, log entry 25. -/
def State.execWrite (s : State) (rq : Requester) (m : DictMsg) : State :=
  let r := s.rq rq
  if mLast m then
    (if m.data.length = m.param.toNat then s.writeValue rq m m.data else s.fail rq m abType)
  else if r.xfer.isSome ∨ s.xferBusy rq (mIndex m) (mSub m) then s.fail rq m abBusy
  else if 16 ≤ s.openXfers then s.fail rq m abNoResource
  else
    let staged := match objRow? (mIndex m) (mSub m) with
      | some o => staging s o
      | none => false
    let x : Xfer := { index := mIndex m, sub := mSub m, isWrite := true, data := m.data, snapshot := false, total := m.param.toNat,
                      next := 1, closed := false, staged := staged, flags := 0 }
    if imageOf (mIndex m) (mSub m) ≠ 0 then s.eraseSlot rq m x
    else (s.setXfer rq (some x)).respond rq (respMsg m 0x82 1 0 [])

/-- SEG_WRITE (R399). DEDUCED, log entry 25. -/
def State.execSegWrite (s : State) (rq : Requester) (m : DictMsg) : State :=
  match (s.rq rq).xfer with
  | none => s.fail rq m abRange
  | some x =>
    if !x.isWrite ∨ x.index ≠ mIndex m ∨ x.sub ≠ mSub m then s.fail rq m abRange
    else if m.param.toNat = x.next then
      let v := x.data ++ m.data
      if mLast m then
        let s := s.setXfer rq none
        if v.length = x.total then s.writeValue rq m v else s.fail rq m abType
      else (s.setXfer rq (some { x with data := v, next := x.next + 1 })).respond rq (respMsg m 0x84 1 x.next [])
    else if 2 ≤ x.next ∧ m.param.toNat + 1 = x.next then s.respond rq (respMsg m 0x84 1 m.param.toNat [])
    else s.fail rq m abRange

/-- READ (R400, R416, R417). DEDUCED, log entry 25. -/
def State.execRead (s : State) (rq : Requester) (m : DictMsg) : State :=
  let c := readCheck (mIndex m) (mSub m) s
  if c ≠ 0 then s.fail rq m c
  else
    let (v, flags, s') := s.readObject rq (mIndex m) (mSub m)
    let size := s.segSize rq
    if v.length ≤ size then
      ((s'.answer rq 0).dequeue (mIndex m) (mSub m) v).respond rq (respMsg m 0x81 (1 + flags) v.length v)
    else if (s.rq rq).xfer.isSome then s.fail rq m abBusy
    else if 16 ≤ s.openXfers then s.fail rq m abNoResource
    else
      let snap := decide (v.length ≤ 65536)
      let x : Xfer := { index := mIndex m, sub := mSub m, isWrite := false, data := if snap then v else [], snapshot := snap,
                        total := v.length, next := 1, closed := false, staged := false, flags := flags }
      ((s'.answer rq 0).setXfer rq (some x)).respond rq (respMsg m 0x81 flags v.length (v.take size))

/-- SEG_READ (R400). DEDUCED, log entry 25. -/
def State.execSegRead (s : State) (rq : Requester) (m : DictMsg) : State :=
  match (s.rq rq).xfer with
  | none => s.fail rq m abRange
  | some x =>
    if x.isWrite ∨ x.index ≠ mIndex m ∨ x.sub ≠ mSub m then s.fail rq m abRange
    else if x.closed then (s.setXfer rq none).fail rq m abBusy
    else if m.param.toNat ≠ x.next then s.fail rq m abRange
    else
      let size := s.segSize rq
      let v := if x.snapshot then x.data else s.view rq (mIndex m) (mSub m)
      let seg := (v.drop (size * x.next)).take size
      if x.total ≤ size * (x.next + 1) then
        ((s.setXfer rq none).dequeue (mIndex m) (mSub m) v).respond rq (respMsg m 0x83 (1 + x.flags) x.next seg)
      else (s.setXfer rq (some { x with next := x.next + 1 })).respond rq (respMsg m 0x83 x.flags x.next seg)

/-- Codes of R397. -/
def typeCode : ObjType → Nat
  | .bool => 1
  | .i8 => 2
  | .i16 => 3
  | .i32 => 4
  | .u8 => 5
  | .u16 => 6
  | .u32 => 7
  | .f32 => 8
  | .i64 => 9
  | .u64 => 10
  | .f64 => 11
  | .time96 => 12
  | .str => 13
  | .domain => 15
def accCode : Acc → Nat
  | .ro => 0
  | .rw => 1
  | .wo => 2
  | .rws => 4
  | .roW1c => 5
def lvlCode : Lvl → Nat
  | .b => 0
  | .e => 1
  | .s => 2
  | .v => 3

/-- The description of an object (R397). -/
def describe (r : ObjRow) : Bytes :=
  le 1 (typeCode r.type) ++ le 1 (accCode r.acc) ++ le 1 (lvlCode r.lvl) ++ [0] ++ le 4 r.size ++ le 2 r.writable ++ [0, 0]

/-- DESC (R397). -/
def State.execDesc (s : State) (rq : Requester) (m : DictMsg) : State :=
  match objRow? (mIndex m) (mSub m) with
  | none => s.fail rq m (if indexExists (mIndex m) then abNoSub else abNoObject)
  | some r =>
    if s.bit kSecStatus 0 && !recoveryIndex (mIndex m) then s.fail rq m abNoObject
    else (s.answer rq 0).respond rq (respMsg m 0x85 1 0 (describe r))

/-- CANCEL (R396). DEDUCED, log entry 25. -/
def State.execCancel (s : State) (rq : Requester) (m : DictMsg) : State :=
  let s := match (s.rq rq).xfer with
    | some x => if x.index = mIndex m ∧ x.sub = mSub m then s.setXfer rq none else s
    | none => s
  (s.answer rq 0).respond rq (respMsg m 0x86 1 0 [])

/-- An INDIRECT message (R412). -/
def State.execIndirect (s : State) (m : DictMsg) : State :=
  if !s.dramOn then s.fail .pcie m abNoResource
  else if m.data.length ≠ 8 then s.fail .pcie m abType
  else if 2 ^ 28 < num m.data 0 4 + num m.data 4 4 then s.fail .pcie m abRange
  else { s with dict := { s.dict with indirect := some (m, num m.data 0 4, num m.data 4 4) } }

/-- The engine executes a request. DEDUCED, log entry 25. -/
def State.execMsg (s : State) (rq : Requester) (m : DictMsg) : State :=
  if rq = .pcie ∧ m.flags.toNat.testBit 1 ∧ (m.op = 1 ∨ m.op = 2) then s.execIndirect m
  else if s.segSize rq < m.data.length then s.fail rq m abRange
  else match m.op.toNat with
  | 1 => s.execRead rq m
  | 2 => s.execWrite rq m
  | 3 => s.execSegRead rq m
  | 4 => s.execSegWrite rq m
  | 5 => s.execDesc rq m
  | 6 => s.execCancel rq m
  | 7 => (match rq with
    | .node _ _ => s.setRq { s.rq rq with openReq := none, owed := false }
    | _ => s.fail rq m abRange)
  | _ => s.fail rq m abRange

/-- The request at the engine: it executes, or waits while stage S1 limits the engine to one request in a cycle (R481). -/
def State.toEngine (s : State) (rq : Requester) (m : DictMsg) : State :=
  if 1 ≤ s.n kShedStage ∧ (1 ≤ s.mon.served ∨ !s.dict.waiting.isEmpty) then
    { s with dict := { s.dict with waiting := s.dict.waiting ++ [rq] } }
  else (s.onMon (fun x => { x with served := x.served + 1 })).execMsg rq m

/-- Requests that wait are executed at a cycle start: one at stage S1 and beyond, else all (`n` bounds them). -/
def State.drainWaiting : Nat → State → State
  | 0, s => s
  | n + 1, s =>
    match s.dict.waiting with
    | [] => s
    | rq :: l =>
      if 1 ≤ s.n kShedStage ∧ 1 ≤ s.mon.served then s
      else
        let s := { s with dict := { s.dict with waiting := l } }
        let s := s.onMon (fun x => { x with served := x.served + 1 })
        State.drainWaiting n (match (s.rq rq).openReq with
          | some m => s.execMsg rq m
          | none => s)

/-- A PENDING response (R396, R402): not kept, since the final response follows. -/
def State.pendingTo (s : State) (rq : Requester) (m : DictMsg) : State :=
  match rq with
  | .session _ _ => s.deliver rq (respMsg m 0x7E 1 0 [])
  | .node _ _ => s.deliver rq (respMsg m 0x7E 1 0 [])
  | _ => s

/-- The PENDING responses owed at a cycle start (R402). -/
def State.sendOwed (s : State) : State :=
  (s.dict.rqs.filter (fun r => r.owed)).foldl (fun s r =>
    match r.openReq with
    | some m => (s.setRq { s.rq r.rq with owed := false }).pendingTo r.rq m
    | none => s.setRq { s.rq r.rq with owed := false }) s

/-- The service port serves sessions (R387, R406). -/
def State.svcServes (s : State) : Bool := s.n kSvcUdpEn == 1 && !s.bit kUnitFail 35

/-- Opens or refreshes a session (R406): none when a ninth is refused. -/
def State.openSession (s : State) (ip : W32) (port : W16) : Option State :=
  let now := s.recd.optime
  if s.dict.sessions.any (fun x => decide (x.ip = ip) && decide (x.port = port)) then
    some { s with dict := { s.dict with sessions := s.dict.sessions.map (fun x =>
      if x.ip = ip ∧ x.port = port then { x with lastAt := now } else x) } }
  else match (List.range 8).find? (fun i => s.dict.sessions.all (fun x => x.slot != i)) with
    | some i => some { s with dict := { s.dict with sessions := s.dict.sessions ++ [⟨i, ip, port, now⟩] } }
    | none => none

/-- A request with a TID of its own, or the repeat of one (R401, R402). -/
def State.request (s : State) (rq : Requester) (m : DictMsg) : State :=
  let r := s.rq rq
  if r.tid = some m.tid.toNat then
    match r.response, r.openReq with
    | some a, _ => s.deliver rq a
    | none, some q => s.pendingTo rq q
    | none, none => s
  else if r.openReq.isSome then s
  else
    let wait := match rq with
      | .session _ _ => true
      | .node _ _ => true
      | _ => false
    (s.setRq { r with tid := some m.tid.toNat, response := none, openReq := some m, owed := wait }).toEngine rq m

/-- A request arrives from a requester (R402, R406): a node's only when it names this unit, a session's only while the service
port serves. -/
def handleMsg (rq : Requester) (m : DictMsg) (s : State) : State :=
  if !s.served rq then s
  else match rq with
  | .node _ _ => if m.dest.toNat = s.ownAddr then s.request rq m else s
  | .session ip port =>
    if !s.svcServes then s
    else match s.openSession ip port with
      | some s => s.request rq m
      | none => { s with dict := { s.dict with svcOut := s.dict.svcOut ++ [(ip.toNat, port.toNat, msgBytes (abortMsg m abNoResource))] } }
  | _ => s.request rq m

/-- A message of one operation. -/
def opMsg (op : Nat) (rq : Requester) (m : DictMsg) (s : State) : State := handleMsg rq { m with op := BitVec.ofNat 8 op } s

/-- READ (R400). -/
def readCmd (rq : Requester) (m : DictMsg) (s : State) : State := opMsg 1 rq m s

/-- WRITE (R399). -/
def writeCmd (rq : Requester) (m : DictMsg) (s : State) : State := opMsg 2 rq m s

/-- SEG_READ (R400). -/
def segReadCmd (rq : Requester) (m : DictMsg) (s : State) : State := opMsg 3 rq m s

/-- SEG_WRITE (R399). -/
def segWriteCmd (rq : Requester) (m : DictMsg) (s : State) : State := opMsg 4 rq m s

/-- DESC (R397). -/
def descCmd (rq : Requester) (m : DictMsg) (s : State) : State := opMsg 5 rq m s

/-- CANCEL (R396). -/
def cancelCmd (rq : Requester) (m : DictMsg) (s : State) : State := opMsg 6 rq m s

/-- The READ with a requester's next TID. -/
def State.nextRead (s : State) (rq : Requester) (index sub : Nat) : DictMsg :=
  { op := 1, flags := 1, tid := BitVec.ofNat 16 ((s.rq rq).tid.getD 0 + 1), index := BitVec.ofNat 16 index, sub := BitVec.ofNat 8 sub,
    dest := match rq with
      | .node _ _ => BitVec.ofNat 10 s.ownAddr
      | _ => 0
    param := 0, data := [] }

/-- MAILBOX_READ (R416). -/
def mailboxRead (rq : Requester) (index : W16) (sub : Byte) (s : State) : State :=
  if (s.mailbox? index.toNat sub.toNat).isSome then handleMsg rq (s.nextRead rq index.toNat sub.toNat) s else s

/-- QUEUE_READ (R417). -/
def queueRead (rq : Requester) (index : W16) (sub : Byte) (s : State) : State :=
  if (s.queue? index.toNat sub.toNat).isSome then handleMsg rq (s.nextRead rq index.toNat sub.toNat) s else s

/-- XFER_TIMEOUT (R399, R400). DEDUCED, log entry 2. -/
def xferTimeout (rq : Requester) (s : State) : State :=
  if (s.rq rq).xfer.isSome then s.setXfer rq none else s

/-- INDIRECT_TRANSFER_DONE (R412): the value has moved between the object and the exchange area. -/
def indirectTransferDone (s : State) : State :=
  match s.dict.indirect with
  | none => s
  | some (m, off, len) =>
    let s := { s with dict := { s.dict with indirect := none } }
    if m.op = 1 then
      let c := readCheck (mIndex m) (mSub m) s
      if c ≠ 0 then s.fail .pcie m c
      else
        let (v, flags, s') := s.readObject .pcie (mIndex m) (mSub m)
        if len < v.length then s.fail .pcie m abType
        else
          let s := s'.dequeue (mIndex m) (mSub m) v
          let s := { s with dict := { s.dict with exchange := memWrite s.dict.exchange off v } }
          (s.answer .pcie 0).respond .pcie (respMsg m 0x81 (3 + flags) v.length [])
    else if m.param.toNat = len then s.writeValue .pcie m (memRead s.dict.exchange off len)
    else s.fail .pcie m abType

/-! ### The CX864 as requester (R403) -/

/-- The first request to a station that waits is sent. -/
def sendNext (k : OutKey) : List OutReq → List OutReq × Option DictMsg
  | [] => ([], none)
  | q :: l =>
    if q.key = k then ({ q with sent := true } :: l, some q.msg)
    else
      let (l, m) := sendNext k l
      (q :: l, m)

/-- A request has ended: the next one to the same station goes out. -/
def State.outEnd (s : State) (k : OutKey) (tid : Nat) : State :=
  let (l, m) := sendNext k (s.dict.outReqs.filter (fun q => !(decide (q.key = k) && q.tid == tid)))
  { s with dict := { s.dict with
      outReqs := l
      ringOut := match m with
        | some m => s.dict.ringOut ++ [(k.ring, k.toAddr.toNat, m)]
        | none => s.dict.ringOut } }

/-- The outstanding request to a station. -/
def State.outReq? (s : State) (k : OutKey) : Option OutReq := s.dict.outReqs.find? (fun q => decide (q.key = k) && q.sent)

/-- A final answer to a request of this unit. -/
def State.answered (s : State) (k : OutKey) (tid : W16) (ok : Bool) : State :=
  match s.outReq? k with
  | some q =>
    if q.tid ≠ tid.toNat then s
    else (s.outEnd k q.tid).nodeAnswered k.ring k.toAddr.toNat q.msg.sub.toNat q.msg.data ok
  | none => s

/-- PENDING (R403). -/
def pendingCmd (k : OutKey) (tid : W16) (s : State) : State :=
  { s with dict := { s.dict with outReqs := s.dict.outReqs.map (fun q =>
      if q.key = k ∧ q.tid = tid.toNat ∧ q.sent then { q with resends := 0 } else q) } }

/-- DICT_FINAL_RESPONSE (R401). -/
def dictFinalResponse (k : OutKey) (m : DictMsg) (s : State) : State := s.answered k m.tid true

/-- ABORT (R425). -/
def abortCmd (k : OutKey) (tid : W16) (_code : W32) (s : State) : State := s.answered k tid false

/-- DICT_RESPONSE_TIMEOUT (R403): the request is sent again, or has failed, which counts against a node being integrated. -/
def dictResponseTimeout (k : OutKey) (s : State) : State :=
  match s.outReq? k with
  | none => s
  | some q =>
    if q.resends < s.n kDictRetry then
      { s with dict := { s.dict with
          outReqs := s.dict.outReqs.map (fun x => if x.key = k ∧ x.tid = q.tid ∧ x.sent then { x with resends := x.resends + 1 } else x)
          ringOut := s.dict.ringOut ++ [(k.ring, k.toAddr.toNat, q.msg)] } }
    else
      let s := s.outEnd k q.tid
      match (s.ring k.ring).rec? k.toAddr.toNat with
      | some n => if n.state = .integrated ∨ n.state = .excluded then s else s.violation k.ring k.toAddr.toNat
      | none => s

/-! ### Service port (R406) -/

/-- SERVICE_DATAGRAM (R406). DEDUCED, log entry 29. -/
def serviceDatagram (ip : W32) (port dstPort : W16) (m : DictMsg) (s : State) : State :=
  if dstPort.toNat = 47120 then handleMsg (.session ip port) m s else s

/-- The service port's MAC answers. -/
def State.svcUp (s : State) : Bool := s.dev.phase == .up && decide (s.n kShedStage < 5) && !s.bit kSecStatus 0 && !s.bit kUnitFail 35

/-- Bytes of a number, most significant first. -/
def be (n v : Nat) : Bytes := (le n v).reverse

/-- ARP_REQUEST (R406): the answer names the MAC and IP address; it stands in `svcOut` under the number 0x10000.
DEDUCED, log entry 29. -/
def arpRequest (targetIp senderIp : W32) (s : State) : State :=
  if s.svcUp ∧ targetIp.toNat = s.n kSvcIp then
    { s with dict := { s.dict with svcOut := s.dict.svcOut ++ [(senderIp.toNat, 0x10000, be 6 s.sec.fuses.mac ++ be 4 (s.n kSvcIp))] } }
  else s

/-- ICMP_ECHO (R406): the answer carries the payload of the request; it stands in `svcOut` under the number 0x10001.
DEDUCED, log entry 29. -/
def icmpEcho (srcIp dstIp : W32) (payload : Bytes) (s : State) : State :=
  if s.svcUp ∧ dstIp.toNat = s.n kSvcIp then
    { s with dict := { s.dict with svcOut := s.dict.svcOut ++ [(srcIp.toNat, 0x10001, payload)] } }
  else s

/-- SESSION_TIMEOUT (R392, R406, R416): the session ends, and with it its level, transfer and read state. DEDUCED, log entry 2.
DEDUCED, log entry 29. -/
def sessionTimeout (ip : W32) (port : W16) (s : State) : State :=
  { s with dict := { s.dict with
      sessions := s.dict.sessions.filter (fun x => !(decide (x.ip = ip) && decide (x.port = port)))
      rqs := s.dict.rqs.filter (fun r => decide (r.rq ≠ .session ip port)) } }

end Sys2Proof.Machine
end

