-- ==== Sys2Proof/Machine/Commit.lean ====
section
/-! DEFINITION. The commit checks (R51, R92, R130, R132, R155, R163, R181, R199, R241, R245, R269, R284, R294, R303, R341, R348, R356,
R366, R398, R451, R474, R520) on a candidate: the state as it would be with the staged copy active. The order of the checks is
that of the chapters. -/

namespace Sys2Proof.Machine

/-! ### Arms, groups and correction channels -/

/-- Sum of the squares of binary32 numbers, as a fraction. -/
def sqSum (l : List Nat) : Nat × Nat :=
  l.foldl (fun s x => let r := f32.ratio x; (s.1 * r.2 ^ 2 + r.1.natAbs ^ 2 * s.2, s.2 * r.2 ^ 2)) (0, 1)

/-- Numbers of a record. -/
def f32s (r : Bytes) (off n : Nat) : List Nat := (List.range n).map (fun i => num r (off + 4 * i) 4)

/-- The norm of a vector is 1 within 10^-5. -/
def unitNorm (l : List Nat) : Bool :=
  let s := sqSum l
  l.all f32.isFinite && decide (99999 ^ 2 * s.2 ≤ s.1 * 10 ^ 10) && decide (s.1 * 10 ^ 10 ≤ 100001 ^ 2 * s.2)

/-- Finite and positive. -/
def posF32 (x : Nat) : Bool := f32.isFinite x && f32.lt 0 x

/-- A joint record passes R132. -/
def jointOk (r : Bytes) : Bool :=
  let w := f32s r 4 3
  let axis := match num r 0 1 with
    | 0 => unitNorm w
    | 1 => w.all (fun x => f32.eqv x 0) && unitNorm (f32s r 16 3)
    | _ => false
  let flags := num r 1 1
  axis && (flags.testBit 0 || f32.isFinite (num r 28 4) && f32.isFinite (num r 32 4) && f32.lt (num r 28 4) (num r 32 4)) &&
    [36, 40, 44, 96, 104].all (fun o => posF32 (num r o 4)) && (!flags.testBit 1 || num r 2 1 == 0)

/-- The model of an arm passes R132; an absent arm may have none. -/
def armKinOk (g : Conf) (a : Nat) : Bool :=
  let nj := Conf.n g (kArmNj a)
  let v := g (kArmKin a)
  let joints := records 112 (v.drop 96)
  nj == 0 && v.isEmpty || v.length == 96 + 112 * nj && num v 0 1 == nj &&
    (List.range nj).all (fun i => joints.any (fun r => num r 2 1 == i)) && [4, 32, 60].all (fun o => unitNorm (f32s v o 4)) &&
    joints.all jointOk

/-- Present members of a group. -/
def membersOf (g : Conf) (i : Nat) : List Nat := (bitsOf 8 (Conf.n g (kGrpMembers i))).filter (fun a => Conf.n g (kArmNj a) != 0)

/-- The checks of R155 on the groups. -/
def groupsOk (g : Conf) : Bool :=
  let m := (List.range 4).map (fun i => bitsOf 8 (Conf.n g (kGrpMembers i)))
  m.all (fun l => l.length != 1 && l.all (fun a => Conf.n g (kPlanDiv a) == Conf.n g (kPlanDiv (l.headD 0)))) &&
    (List.range 8).all (fun a => decide ((m.filter (fun l => l.contains a)).length ≤ 1)) &&
    decide ((m.map (fun l => l.length - 1)).sum ≤ 8)

/-- Motion checks: the first object that fails. DEDUCED, log entry 17. -/
def motionCheck (g : Conf) : Option Nat :=
  match (List.range 8).find? (fun a => !armKinOk g a) with
  | some a => some (kArmKin a)
  | none => match (List.range 8).find? (fun a => decide (Conf.n g (kHzLen a) < 2 * Conf.n g (kPlanDiv a) + 4)) with
  | some a => some (kHzLen a)
  | none =>
    if !groupsOk g then some (kGrpMembers 0)
    else ((List.range 32).find? (fun c =>
      let a := Conf.n g (kHcArm c)
      a != 0xFF && (decide (8 ≤ a) || Conf.n g (kArmNj a) == 0))).map kHcArm

/-! ### The cycle chain (R12, R239, R241) -/

/-- A level of a stage: the sum of its budgets and the largest, ns. -/
structure Level where
  sum : Nat
  top : Nat
deriving DecidableEq, Repr

/-- The level of a list of budgets. -/
def levelOf (l : List Nat) : Level := ⟨l.sum, l.foldl max 0⟩

/-- The bound of R239 in 1/8 ns on a Street of 8 Lanes. -/
def stageEnd8 (ready bg : Nat) (l : List Level) : Nat := 8 * ready + 8 * bg + (l.map (fun x => 800 + x.sum + 7 * x.top)).sum

/-- Capsules that an arm's KIN poses (R240). -/
def State.capsules (s : State) (a : Nat) : Nat :=
  let own := ((List.range 12).filter (fun k => s.sub (kSqCaps a) (32 * k) 1 != 0xFF)).length
  let tw := (List.range 32).filter (fun i =>
    let r := slice (s.obj kSqTw) (32 * i) 32
    let n := num r 1 1
    num r 0 1 == 2 && n == a || num r 0 1 == 3 && decide (n < 4) && (membersOf s.conf n).head? == some a)
  own + tw.length

/-- Budget of a KIN (R240). -/
def State.kinBudget (s : State) (a : Nat) : Nat := 1100 + 475 * s.nj a + 20 * s.capsules a

/-- Present arms homed on a Street. -/
def State.armsOn (s : State) (st : Nat) : List Nat := s.arms.filter (fun a => nextStreet s.street a 8 == st)

/-- Budgets of the user tasks of priority 0 homed on a Street. -/
def State.userBudgets (s : State) (st : Nat) : List Nat :=
  (records 16 (s.obj kJnInstances)).filterMap (fun r =>
    let t := userTmpl (s.obj kJnTemplates) (num r 2 1 - 0x80) (num r 4 4)
    if t.prio = 0 ∧ nextStreet s.street t.home 8 = st then some t.budget else none)

/-- The levels of a Street; user tasks of priority 0 count in each. -/
def State.kinLevel (s : State) (st : Nat) : Level := levelOf ((s.armsOn st).map s.kinBudget ++ s.userBudgets st)
def State.bypassLevel (s : State) (st : Nat) : Level := levelOf ((s.armsOn st).map (fun a => 300 + 50 * s.nj a) ++ s.userBudgets st)
def State.jloopLevel (s : State) (st : Nat) : Level :=
  levelOf ((s.armsOn st).flatMap (fun a => List.replicate (s.nj a) 300) ++ s.userBudgets st)
def State.setptLevel (s : State) (st : Nat) : Level := levelOf ((s.armsOn st).map (fun a => 100 + 10 * s.nj a) ++ s.userBudgets st)

/-- The latest end of a stage over the Streets with arms, in 1/8 ns; 0 without arms. -/
def State.latest (s : State) (ready : Nat) (levels : Nat → List Level) : Nat :=
  ((List.range 8).map (fun st => if (s.armsOn st).isEmpty then 0 else stageEnd8 ready (s.n kJnBgMax) (levels st))).foldl max 0

/-- Ends of the KIN stage, of the JLOOP and SETPT stage at Tier 3, and of the whole chain at Tier 2, in 1/8 ns. -/
def State.kinEnd8 (s : State) : Nat := s.latest (s.n kJnRxDeadline + 200) (fun st => [s.kinLevel st])
def State.setEnd8 (s : State) : Nat :=
  s.latest (29200 + s.n kSolverBudget) (fun st => [s.jloopLevel st, s.setptLevel st])
def State.chain2End8 (s : State) : Nat :=
  s.latest (s.n kJnRxDeadline + 200) (fun st => [s.kinLevel st, s.bypassLevel st, s.jloopLevel st, s.setptLevel st])

/-- The tier that the checks cover. -/
def State.checkTier (s : State) : Nat := min (s.n kTierAvail) (s.n kTierLimit)

/-- Reasons 1 and 2: the reason and the object that CFG_ERROR names. DEDUCED, log entry 18. -/
def State.chainTimes (s : State) : Option (Nat × Nat) :=
  let l := s.checkTier
  let bound := offSp s.conf - 2000
  if l = 3 ∧ 8 * 29000 < s.kinEnd8 + 8 * s.sqTEst then some (1, kJnRxDeadline)
  else if l = 3 ∧ 8 * bound < s.setEnd8 then some (2, kSolverBudget)
  else if 2 ≤ l ∧ 8 * bound < s.chain2End8 then some (2, kJnRxDeadline)
  else none

/-- User instances: id and number of ports. -/
def State.userInsts (s : State) : List (Nat × Nat) :=
  (records 16 (s.obj kJnInstances)).map (fun r => (num r 0 2, num (s.obj kJnTemplates) (32 * (num r 2 1 - 0x80) + 3) 1))

/-- Earliest ready time of a task, ns after cycle start (R241): RX tokens at JN_RX_DEADLINE + 200 ns, a vendor instance's output at the end of
its stage, a user instance's at the end of its budget; `fuel` bounds the length of a chain of user instances. DEDUCED, log entry 18. -/
def State.readyAt (s : State) : Nat → Nat → Nat → Nat
  | 0, _, _ => 0
  | fuel + 1, id, tmpl =>
    let t := userTmpl (s.obj kJnTemplates) (tmpl - 0x80) 0
    let rx := s.n kJnRxDeadline + 200
    let up (x : Nat) : Nat := (x + 7) / 8
    let set := if s.checkTier = 3 then s.setEnd8 else s.chain2End8
    let src (e : Edge) : Nat :=
      if e.next then 0
      else if e.kind = 1 then rx
      else if e.src < 8 then up s.kinEnd8
      else if e.src < 256 then up set
      else match (records 16 (s.obj kJnInstances)).find? (fun r => num r 0 2 == e.src) with
        | some r => s.readyAt fuel e.src (num r 2 1) + (userTmpl (s.obj kJnTemplates) (num r 2 1 - 0x80) 0).budget
        | none => 0
    let into := (edgesOf (s.obj kJnEdges)).filter (fun e => e.dstKind == 0 && e.dst == id)
    (into.map src).foldl max (max t.release (if t.rx = 0 then 0 else rx))

/-- User instances whose budget fails reason 3: against JN_BG_MAX, or against its deadline less its earliest ready time. -/
def State.budgetBad (s : State) : List Nat :=
  let l := records 16 (s.obj kJnInstances)
  l.filterMap (fun r =>
    let t := userTmpl (s.obj kJnTemplates) (num r 2 1 - 0x80) 0
    if t.prio ≠ 0 ∧ s.n kJnBgMax < t.budget ∨ t.deadline ≤ s.readyAt (l.length + 1) (num r 0 2) (num r 2 1) + t.budget then some (num r 0 2)
    else none)

/-- Arms whose KIN fails reason 3. -/
def State.kinBad (s : State) : List Nat :=
  if s.checkTier < 2 then [] else s.arms.filter (fun a => decide (29000 ≤ s.n kJnRxDeadline + 200 + s.kinBudget a + s.sqTEst))

/-- Reason 3: every template, with or without an instance, every instance, every KIN. -/
def State.budgetsOk (s : State) : Bool :=
  let user := (List.range ((s.obj kJnTemplates).length / 32)).map (fun i => userTmpl (s.obj kJnTemplates) i 0)
  user.all (fun t =>
    let ready := max t.release (if t.rx = 0 then 0 else s.n kJnRxDeadline + 200)
    (t.prio == 0 || decide (t.budget ≤ s.n kJnBgMax)) && decide (ready + t.budget < t.deadline)) &&
    s.budgetBad.isEmpty && s.kinBad.isEmpty

/-- A vendor instance exists. -/
def State.vendorExists (s : State) (id : Nat) : Bool :=
  if id < 8 then s.arms.contains id
  else if id < 72 then s.joints.contains (id - 8)
  else if id < 88 then s.arms.contains (id % 8)
  else false

/-- Both ends of a user edge exist. -/
def State.edgeEnds (s : State) (e : Edge) : Bool :=
  let insts := s.userInsts
  let src :=
    if e.kind = 0 then s.vendorExists e.src && e.port == 0 || insts.any (fun x => x.1 == e.src) && decide (e.port < 8)
    else match (mapOf (s.obj kSlotMap))[e.src]? with
      | some m => m.rx && m.token
      | none => false
  let dst := if e.dstKind = 0 then insts.any (fun x => x.1 == e.dst && decide (e.dstPort < x.2))
    else (objRow? e.dst e.dstSub).isSome
  src && dst

/-- Instances of a list that some edge without NEXT of the list reaches; what remains after `fuel` rounds lies on a cycle. -/
def prune (edges : List (Nat × Nat)) : Nat → List Nat → List Nat
  | 0, l => l
  | f + 1, l =>
    let l' := l.filter (fun x => edges.any (fun e => e.2 == x && l.contains e.1))
    if l'.length = l.length then l else prune edges f l'

/-- Reason 4: instances, tokens, ports, sources and cycles. DEDUCED, log entry 17. -/
def State.graphOk (s : State) : Bool :=
  let insts := s.userInsts
  let edges := edgesOf (s.obj kJnEdges)
  let into (id p : Nat) : Nat := (edges.filter (fun e => e.dstKind == 0 && e.dst == id && e.dstPort == p)).length
  let plain := (edges.filter (fun e => e.kind == 0 && e.dstKind == 0 && !e.next)).map (fun e => (e.src, e.dst))
  let ids := insts.map Prod.fst
  let map := mapOf (s.obj kSlotMap)
  (firstPair (fun (a b : Nat) => a == b) ids).isNone &&
    (records 16 (s.obj kJnInstances)).all (fun r => decide (32 * (num r 2 1 - 0x80) < (s.obj kJnTemplates).length)) &&
    edges.all s.edgeEnds && insts.all (fun x => (List.range x.2).all (fun p => into x.1 p == 1)) &&
    (decide (s.checkTier < 2) || s.arms.all (fun a =>
      (map.filter (fun e => e.rx && e.token && objKey e.index e.sub == kArmMeas a)).length == 1)) &&
    decide ((insts.map Prod.snd).sum + 3 * s.joints.length + 4 * s.arms.length ≤ 4096) && (prune plain 768 ids).isEmpty

/-- Instances that a reason of R241 may name: those of a stage that ends too late, those whose budget or graph fails. The spec does not say
which of several is named; that choice is free. DEDUCED, log entry 18. -/
def State.reasonInsts (s : State) (reason : Nat) : List Nat :=
  let late (ready bound : Nat) (lv : Nat → List Level) : List Nat :=
    ((List.range 8).filter (fun st => !(s.armsOn st).isEmpty && decide (8 * bound < stageEnd8 ready (s.n kJnBgMax) (lv st)))).flatMap s.armsOn
  let bound := offSp s.conf - 2000
  match reason with
  | 1 => late (s.n kJnRxDeadline + 200) (29000 - s.sqTEst) (fun st => [s.kinLevel st])
  | 2 =>
    (if s.checkTier = 3 then late (29200 + s.n kSolverBudget) bound (fun st => [s.jloopLevel st, s.setptLevel st])
     else late (s.n kJnRxDeadline + 200) bound (fun st => [s.kinLevel st, s.bypassLevel st, s.jloopLevel st, s.setptLevel st])).map (72 + ·)
  | 3 => s.kinBad ++ s.budgetBad
  | _ => s.userInsts.map Prod.fst

/-- The first failing reason of R241 and the object that CFG_ERROR names. DEDUCED, log entry 18. -/
def State.jnReason (s : State) : Option (Nat × Nat) :=
  match s.chainTimes with
  | some r => some r
  | none => if !s.budgetsOk then some (3, kJnTemplates) else if !s.graphOk then some (4, kJnEdges) else none

/-- JN_CHAIN_EST, in ns rounded up; a margin below 0 is free. DEDUCED, log entry 18. -/
def State.chainEst (s : State) : Bytes :=
  let up (x : Nat) : Nat := (x + 7) / 8
  let kin := up s.kinEnd8
  let last := up (if s.checkTier = 3 then s.setEnd8 else s.chain2End8)
  let bound := offSp s.conf - 2000
  le 4 kin ++ le 4 (kin + s.sqTEst) ++ le 4 last ++ (if last ≤ bound then le 4 (bound - last) else slice (Config.freeBytes s.free) 0 4)

/-- The code of a user image (R246). -/
def userCode (v : Bytes) : Bytes := (v.drop 64).take (imgBodyLen v)

/-- A biquad at an offset of JL_PAR has its poles inside the unit circle (R245). -/
def biquadOk (v : Bytes) (off : Nat) : Bool :=
  let a1 := f32.ratio (num v (off + 12) 4)
  let a2 := f32.ratio (num v (off + 16) 4)
  (f32s v off 5).all f32.isFinite && decide (a2.1.natAbs < a2.2) && decide ((a1.1.natAbs : Int) * a2.2 < a1.2 * (a2.2 + a2.1))

/-- The checks of R245, R269. DEDUCED, log entry 17. -/
def State.kernelCheck (s : State) : Option Nat :=
  let code := userCode (s.obj kJnUserKernel)
  if (records 32 (s.obj kJnTemplates)).any (fun r => num code (4 * (num r 0 1 - 0x80)) 4 % 65536 == 0) then some kJnTemplates
  else ((List.range 64).find? (fun j => let v := s.obj (kJlPar j); !(biquadOk v 24 && biquadOk v 44))).map kJlPar

/-! ### Feedback, emulation and axes -/

/-- One absolute request and its recovery fit within FB_ABS_DIV cycles (R284). -/
def absFits (g : Conf) (c : Nat) : Bool :=
  let f := Conf.n g (kFbAbsFmt c)
  let bits := field f 2 2 + Conf.n g (kFbAbsBits c) + field f 4 3
  let clk := Conf.n g (kFbAbsClk c)
  let h := (100000000 + clk - 1) / clk * 5
  decide (Conf.n g (kFbMode c) < 2) ||
    decide (h * (2 * bits - 1) + 1000 * Conf.n g (kFbAbsTm c) ≤ Conf.n g (kFbAbsDiv c) * cycleNsOf (Conf.n g kBasicCycle))

/-- A source of an emulation output (R294). -/
def emuSrcOk (v : Nat) : Bool := v == 0xFFFF || masterOk v && v / 4096 != 3

/-- The object of an axis that R303 refuses. DEDUCED, log entry 17. -/
def axisCheck (g : Conf) (n : Nat) : Option Nat :=
  let r := Conf.n g (kAxMsRange n)
  let lo := field r 0 3
  let hi := field r 4 3
  let u k := num (g (kAxMsUp n)) (4 * k) 4
  let m k := 256 / 4 ^ k
  let used := ((List.range 4).filter (fun k => decide (lo ≤ k) && decide (k ≤ hi) && u k != 0xFFFFFFFF)).map (fun k => u k * m k)
  let v := f32.ratio (Conf.n g (kAxVmax n))
  let k := f32.ratio (Conf.n g (kAxScale n))
  let top := v.1.natAbs * k.1.natAbs * m hi
  let lim := 4000000 * v.2 * k.2
  if Conf.n g (kAxMode n) ≠ 1 then none
  else if used.any (fun x => decide (4000000 < x)) ∨ !(decide (u 0 < u 1) && decide (u 1 < u 2) && decide (u 2 < u 3)) then some (kAxMsUp n)
  else if lim < top then some (kAxVmax n)
  else if 250 < 2 * Conf.n g (kAxStepHigh n) ∧ (used.contains 4000000 ∨ top = lim) then some (kAxStepHigh n)
  else none

/-- Checks of the chapter on feedback and axes. DEDUCED, log entry 17. -/
def lineCheck (g : Conf) : Option Nat :=
  match (List.range 16).find? (fun c => !absFits g c) with
  | some c => some (kFbAbsClk c)
  | none => match (List.range 8).find? (fun e => !emuSrcOk (Conf.n g (kEmuSrc e))) with
    | some e => some (kEmuSrc e)
    | none => (List.range 16).findSome? (axisCheck g)

/-! ### Safety, pair and monitor -/

/-- Fields of a model that ARM_KIN and SAFE_KIN share (R348). -/
def kinShared (nj : Nat) (v : Bytes) : Bytes :=
  slice v 4 84 ++ ((List.range nj).map (fun j => let r := slice v (96 + 112 * j) 112; slice r 0 3 ++ slice r 4 24 ++ slice r 96 8)).flatten

/-- The safety checks of R341 and R348. DEDUCED, log entry 19. -/
def State.safetyCheck (s : State) : Option Nat :=
  let sw b := (s.swInForce.1.testBit b, s.swInForce.2.testBit b)
  if sw 2 ≠ (s.paired, s.paired) then some kSafeSw
  else (s.arms.find? (fun a => decide (kinShared (s.nj a) (s.obj (kArmKin a)) ≠ kinShared (s.nj a) (s.obj (kSafeKin a))))).map kArmKin

/-- A device whose commit finds ILK_PEER asserted rejoins its pair (R375). -/
def State.rejoins (s : State) : Bool := s.paired && s.pair.peer && s.n kRedClaimState == 0

/-- The checks of R356, R366 and R451 against what the partner reports. DEDUCED, log entry 19. -/
def State.pairCheck (s : State) (peer : Option PeerInfo) : Option Nat :=
  if !s.paired then none
  else if !pairMapOk s.conf then some kSlotMap
  else match peer with
    | some p =>
      if p.switchWord.toNat ≠ s.n kSafeSw then some kSafeSw
      else if !s.rejoins && !s.sameVersions p then some kSecSlots else none
    | none => none

/-- Every channel of 0 to 23 stands in every 32 consecutive entries of a cyclic sequence (R474). -/
def monSeqOk (v : Bytes) : Bool :=
  let l := v.map BitVec.toNat
  let n := l.length
  (List.range n).all (fun i => (List.range 24).all (fun c => (List.range 32).any (fun k => l.getD ((i + k) % n) 0xFF == c)))

/-! ### All checks -/

/-- The candidate passes: none, or the object that CFG_ERROR names, in the order of the chapters. `old` is the configuration in
force, `keptM` and `keptP` tell which rings would be kept. DEDUCED, log entry 17. -/
def State.commitCheck (s : State) (old : Conf) (keptM keptP : Bool) (peer : Option PeerInfo) : Option Nat :=
  let g := s.conf
  (timeCommitCheck g).or <|
  ((ttCheck g keptM keptP old).map (fun x => reasonKey g x.1 x.2.1)).or <|
  (motionCheck g).or <|
  (if s.n kSolverBudget < solverEst g then some kSolverIter else none).or <|
  (squareCommitCheck g).or <|
  (s.jnReason.map Prod.snd).or <|
  s.kernelCheck.or <|
  (lineCheck g).or <|
  s.safetyCheck.or <|
  (s.pairCheck peer).or <|
  (if Conf.n g (kArbPlenMax 0) < 64 then some (kArbPlenMax 0)
   else if Conf.n g (kArbPlenMax 1) < 64 then some (kArbPlenMax 1) else none).or <|
  if monSeqOk (g kMonSeq) then none else some kMonSeq

/-- The estimates and check words that a commit's evaluation writes (R92, R181, R208, R241): `t` is the candidate. -/
def State.writeResults (s t : State) (old : Conf) (keptM keptP : Bool) : State :=
  let tt := ttCheck t.conf keptM keptP old
  let word (ring : Nat) : Nat := match tt with
    | some (reason, r, slot) => if r = ring then ttCheckWord reason r slot else 0
    | none => 0
  let s := (s.setN (kTtCheck 0) (word 0)).setN (kTtCheck 1) (word 1)
  let s := (s.setN kSolverTEst (solverEst t.conf)).setN kSqTEst t.sqTEst
  let s := { (s.setObj kJnChainEst { t with free := s.free }.chainEst) with free := s.free + 1 }
  match t.jnReason with
  | some (reason, _) =>
    let (v, s) := s.fresh
    let l := t.reasonInsts reason
    s.setN kJnChainCheck (reason * 2 ^ 24 + l.getD (v % max l.length 1) (v % 1024))
  | none => s.setN kJnChainCheck 0

end Sys2Proof.Machine
end

