-- ==== Sys2Proof/Machine/Device.lean ====
section
/-! DEFINITION. The device state machine (R19 to R28, R38, R99, R113, R312 to R317, R343, R356, R374 to R378, R420 to R422): what
entering a state does, the commit, the device commands, the end of SYNC, and the completion of boot-flash operations. -/

namespace Sys2Proof.Machine

/-! ### Entering a state -/

/-- Changes the device state machine's own fields. -/
def State.onDev (s : State) (f : StDev → StDev) : State := { s with dev := f s.dev }

/-- Emulation outputs stop, and compare units go low; with `disarm` they are disarmed (R279). -/
def State.lineOff (s : State) (disarm : Bool) : State :=
  let s := (List.range 8).foldl State.emuStop s
  (List.range 16).foldl (fun s c => s.cmpOff c disarm) s

/-- Both ring controllers in hardware pass-through (R23, R63). -/
def State.ringsPass (s : State) : State :=
  let off (x : RingSt) : RingSt := { x with cs := .pass, oper := false, operNext := false }
  (s.onRing .m off).onRing .p off

/-- The outputs of R23 and R279 in INERT, FAULT and SERVICE. DEDUCED, log entry 50. -/
def State.outputsInert (s : State) : State :=
  ((((s.onPair (fun p => { p with passThrough := true })).ringsPass).axInert).lineOff true).fbIdle

/-- Emulation outputs with a source start (R296). -/
def State.emuOn (s : State) : State := (List.range 8).foldl (fun s e => if s.n (kEmuSrc e) = 0xFFFF then s else s.emuStart e) s

/-- What the state just entered does, `old` being the one left. DEDUCED, log entry 21. -/
def State.entered (s : State) (old : DevState) : State :=
  let motion (d : DevState) : Bool := d == .ready || d == .run || d == .hold || d == .degraded
  let s := if old = .ready then s.btAbort else s
  let s := if old = .degraded then s.leaveDegraded else s
  let s := if old = .service then s.sysCalOff.tapLeave else s
  let s := match s.dev.state with
    | .inert => s.outputsInert.clearCrossings
    | .fault => s.outputsInert.clearCrossings
    | .service => s.outputsInert
    | .config => ((s.axInert).lineOff false).clearCrossings
    | .sync => (((s.axInert).lineOff false).setObj kSqTvTable (objDefault kSqTvTable)).enteredSync
    | .ready => if motion old then s.axReadyStop else s.axReady.emuOn
    | .degraded => (List.range 16).foldl State.axDegrade s
    | .run => s
    | .hold => s
  s.drive

/-- Goes to a state (R22, R418). -/
def State.goto (s : State) (d : DevState) : State := if s.dev.state = d then s else (s.enter d).entered s.dev.state

/-- The staged copy is dropped, and with it the transfers that write it (R388, R399). DEDUCED, log entry 21. -/
def State.dropStaged (s : State) : State :=
  let close (r : RqSt) : RqSt := if r.xfer.any (fun x => x.staged) then { r with xfer := none } else r
  { s with staged := none, dict := { s.dict with rqs := s.dict.rqs.map close } }

/-- A staged write transfer is open (R399, R421). -/
def State.stagedXfer (s : State) : Bool := s.dict.rqs.any (fun r => r.xfer.any (fun x => x.isWrite && x.staged))

/-- The end of motion by a stop: SS1 in both channels, stop ramps and axis stops (R25, R134, R299, R313). -/
def State.stopMotion (s : State) : State := (s.beginSs1.motionStop).axStopAll

/-- To FAULT (R25): by STO in both channels, or by SS1; FAULT_CAUSE takes the record type (R26). -/
def State.toFault (s : State) (cause : Nat) (sto : Bool) : State :=
  let s := s.setN kFaultCause cause
  let s := if sto then ((s.onArms (fun _ x => x.stoBoth)).motionStop).axHalt else s.stopMotion.axHalt
  (s.dropStaged).goto .fault

/-- RUN or HOLD to READY by a stop (R25); the units work on until standstill (R19). -/
def State.toReady (s : State) : State := (s.stopMotion.onDev (fun d => { d with stopRuns := true })).goto .ready

/-- RUN to HOLD: standstill monitoring begins (R25, R316). -/
def State.toHold (s : State) : State :=
  let e (x : SafeArm) : SafeArm := if x.stoP && x.stoH then x else { x with holdEnv := some (s.env x), stood := false }
  (s.onArms (fun _ x => e x)).goto .hold

/-! ### The commit (R25, R38, R99, R113) -/

/-- The state as it would be with the staged copy active and the safety set of the switches loaded (R343, R388). -/
def State.candidate (s : State) : State :=
  let objs := (s.staged.getD []).foldl (fun o p => storePut o p.1 p.2) s.objs
  let t := { s with objs := objs, staged := none }
  let t := (t.onSafe (fun x => { x with swCommit := some (x.swA.getD 0, x.swB.getD 0) })).loadSet
  t.setN kTierAvail (tierOf (t.n kUnitFail) t.paired)

/-- A ring is kept (R99): CONFIG was entered from READY, the ring is in its operating timetable, and none of the objects of R99
changes. -/
def State.keeps (s t : State) (r : RingId) : Bool :=
  let i := ringNo r
  let x := s.ring r
  s.dev.cfgFromReady && x.cs == .running && x.oper && x.fbt.isNone && x.switchTo.isNone &&
    [kBasicCycle, kHeadPos i, kPrecision i, kGuardGap i, kCsNodes i].all (fun k => s.obj k == t.obj k)

/-- A ring that starts again: LISTEN, with every node unheard; links, loops and what waits to be sent stay as they are, and ATTEMPT
counts on (R86). DEDUCED, log entry 45. -/
def RingSt.restart (x : RingSt) (order : List Nat) (tt : Nat) : RingSt :=
  { RingSt.reset with cs := .listen, attempt := x.attempt, ttId := tt, senderCtr := x.senderCtr, exch := x.exch,
                      nodes := order.map freshRec, busyE := x.busyE, busyW := x.busyW, events := x.events, resends := x.resends,
                      east := x.east, west := x.west, loops := x.loops.filter (fun l => !l.up), delayAnswer := x.delayAnswer }

/-- The objects of R99 item 1 are unchanged. -/
def sameTable (s t : State) (i : Nat) : Bool :=
  [kTtId i, kTtSlots i, kSlotMap, kNodeOrder i, kArbStart i, kArbLast i, kArbPlenMax i, kApplyLead i].all (fun k => s.obj k == t.obj k)

/-- Opens the measurement of nodes that rejoin (R103, R112). -/
def RingSt.rejoin (x : RingSt) (nodes : List Nat) (hp : Nat) : RingSt :=
  let mark (n : NodeRec) : NodeRec := if nodes.contains n.addr then { n with rejoining := true } else n
  ({ x with nodes := x.nodes.map mark } : RingSt).openRound .rejoin nodes hp

/-- The rejoins that a commit starts on a kept ring: barred nodes (R113), and nodes that NODE_ORDER adds. DEDUCED, log entry 45. -/
def State.keptRing (s old : State) (r : RingId) : State :=
  let i := ringNo r
  let x := s.ring r
  let order := s.order r
  let barred := (x.nodes.filter NodeRec.barred).map NodeRec.addr
  let clear (n : NodeRec) : NodeRec := { n with barred := false, viol := 0, exclusions := [] }
  let new := order.filter (fun a => (x.rec? a).isNone)
  let nodes := order.map (fun a => clear ((x.rec? a).getD (freshRec a)))
  let start := if s.n kRedClaimState = 1 then [] else (barred ++ new).filter (fun a => order.contains a)
  let s := s.setRing r (({ x with nodes := nodes, retime := !sameTable old s i } : RingSt).rejoin start (s.n (kHeadPos i)))
  if sameTable old s i then s else s.computeFallbacks r

/-- A ring at the commit. -/
def State.commitRing (s old : State) (kept : Bool) (r : RingId) : State :=
  if kept then s.keptRing old r
  else
    let i := ringNo r
    let s := s.setRing r ((s.ring r).restart (s.order r) (s.n (kTtId i)))
    ((s.ringBit r 0 false).setN (kBreakIdx i) 0xFFFF).setN (kFbtCheck i) 0

/-- Effects of the new values of objects that are more than their value. -/
def State.commitObjects (s old : State) : State :=
  let s := ((s.commitDomain old 0).commitDomain old 1).refFix old
  let s := (s.fbCommit old).setIterActive
  let s := if s.n kLlGateEn = 0 ∧ old.n kLlGateEn ≠ 0 then gateEff [0] s else s
  let svc (x : State) := [x.obj (objKey 0x0210 1), x.obj (objKey 0x0210 2), x.obj (objKey 0x0210 3)]
  let s := if svc s = svc old then s else s.endSessions
  s.onJn (fun j => { j with code := userCode (s.obj kJnUserKernel), illegal := [], insts := s.buildInsts })

/-- An accepted commit: `s` is the candidate with the results of its checks. -/
def State.commit (s old : State) (keptM keptP : Bool) (peer : Option PeerInfo) : State :=
  let rejoin := old.rejoins || s.rejoins
  let s := s.setN kCfgError 0
  let s := s.commitObjects old
  let s := if !old.dev.cfgFromReady ∧ !old.dev.committed then s.align else s
  let s := (s.commitRing old keptM .m).commitRing old keptP .p
  let s := s.onPair (fun p => { p with
    peerInfo := peer.or p.peerInfo
    passThrough := p.trip.isSome || rejoin
    inert := p.trip.isSome || rejoin && p.inert
    rejoining := rejoin
    gridAt := none })
  let s := if rejoin then s.rejoinVersions peer else s
  let s := { s with time := { s.time with lastCycle := s.cycle } }
  ((s.onDev (fun d => { d with committed := true, syncExpired := false })).dropStaged).goto .sync

/-- The evaluation of CFG_COMMIT in CONFIG: the abort code and the state after it. DEDUCED, log entry 21. -/
def State.evalCommit (s : State) (peer : Option PeerInfo) : Nat × State :=
  if s.stagedXfer then (abBusy, s)
  else
    let t := s.candidate
    let km := s.keeps t .m
    let kp := s.keeps t .p
    match t.commitCheck s.conf km kp peer with
    | some key => (abRange, (s.writeResults t s.conf km kp).setN kCfgError (key * 256))
    | none => (0, (t.writeResults t s.conf km kp).commit s km kp peer)

/-! ### The other commands (R25, R421) -/

/-- Entry to RUN (R25, R166, R186, R244, R299, R337, R369). DEDUCED, log entry 64. -/
def State.startRun (s : State) : State :=
  let s := s.onDev (fun d => { d with tierInUse := s.tierActive, stopRuns := false })
  let s := (s.goto .run).releaseBrakes
  let s := (s.motionRun.jloopRun).axRun
  let s := { s with solver := { s.solver with warm := none } }
  (s.advance []).pairRun.drive

/-- RUN_ENABLE in READY. -/
def State.evalRun (s : State) : Nat × State :=
  if s.tierActive < 2 then (abNoResource, s)
  else
    let s := s.resetByRun
    if s.runLocked then (abSafety, s) else (0, s.startRun)

/-- RESUME in HOLD. DEDUCED, log entry 38. -/
def State.evalResume (s : State) : Nat × State :=
  if s.dev.stopDemand || (s.inputDemand false ||| s.inputDemand true) % 4 != 0 then (abSafety, s)
  else (0, ((s.motionResume.onArms (fun _ x => { x with holdEnv := none, stood := false })).goto .run))

/-- STOP_REQ. -/
def State.evalStop (s : State) : State := if s.dev.state = .degraded then s.toFault 0x0407 false else s.toReady

/-- The cause of the present FAULT that still holds (R53, R421, R482). -/
def State.causeHolds (s : State) : Bool :=
  let c := s.n kFaultCause
  let lost := fun i => !s.mon.pll.getD i false
  let refclk := s.mon.tripGuard || !s.time.running && (decide (s.time.cleanWindows < 2) || !s.mon.pll.all id)
  c == 0x0203 && (refclk || lost 2 || lost 3 || lost 4) ||
    c == 0x0204 && (s.mon.tripRef || lost 0 || lost 1) ||
    c == 0x0205 && (refclk || s.mon.tripRef) ||
    decide (5 ≤ s.n kShedStage) && s.mon.conds.any id

/-- DEV_RESET in FAULT; `failed` is what the rerun of the VDD_CORE tests finds. The Kerb, the Lamplighter, the SP and the time unit
are not of VDD_CORE and keep their results. DESIGN CHOICE, log entry 22. -/
def State.evalReset (s : State) (failed : Nat) : Nat × State :=
  if s.n kTierAvail = 0xFF then (abHwFault, s)
  else if s.causeHolds then (abBusy, s)
  else
    let keep := 2 ^ 33 + 2 ^ 38 + 2 ^ 39 + 2 ^ 40
    let s := s.setUnits ((s.n kUnitFail &&& keep) ||| (failed - (failed &&& keep))) (s.bit kSecStatus 0)
    let s := if 5 ≤ s.n kShedStage then s.reenable else s
    let s := { s with time := { s.time with running := true } }
    let s := (((s.setN kSafeChFault 0).setBit kSafeStatus 0 true).setBit kSafeStatus 1 true).resetClaim
    let s := s.onDev (fun d => { d with chanFaults := [], deviceFaults := [], committed := false })
    (0, s.goto .inert)

/-- DETACH (R374). -/
def State.evalDetach (s : State) : Nat × State :=
  if s.n kRedClaimState ≠ 1 then (abBusy, s)
  else (0, s.onPair (fun p => { p with detachAt := some (s.cycle + 2) }))

/-- PLANNED_SWAP (R378): accepted, it is forwarded with its apply cycle. -/
def State.evalSwap (s : State) (peer : Option PeerInfo) : Nat × State :=
  let s := s.onPair (fun p => { p with peerInfo := peer.or p.peerInfo })
  let c := s.swapRefusal
  if c ≠ 0 then (c, s)
  else
    let a := s.cycle + s.n kRedCmdLag
    (0, (s.onPair (fun p => { p with swapAt := some a })).forward a (writeMsgBytes 0x0110 0x01 (le 2 0x40)))

/-- CFG_OPEN in INERT or READY. -/
def State.evalOpen (s : State) : Nat × State :=
  if s.tierActive < 1 then (abNoResource, s)
  else (0, (({ s with staged := some [] } : State).onDev (fun d => { d with cfgFromReady := s.dev.state == .ready })).goto .config)

/-- Operands that come with a command: what the partner reports, and the result of the start-up tests. -/
structure CmdIn where
  peer : Option PeerInfo
  failed : Option Nat
deriving DecidableEq, Repr

/-- States in which a command is legal (R421). -/
def legalIn : Nat → List DevState
  | 0x01 => [.inert, .ready]
  | 0x02 => [.config]
  | 0x03 => [.config]
  | 0x10 => [.ready]
  | 0x11 => [.run]
  | 0x12 => [.hold]
  | 0x13 => [.run, .hold, .degraded]
  | 0x20 => [.fault]
  | 0x30 => [.inert]
  | 0x31 => [.service]
  | 0x40 => [.ready, .run, .hold]
  | 0x41 => [.ready, .run, .hold, .degraded]
  | _ => []

/-- The evaluation of a command: the abort code, 0 when it is executed, and the state after it. -/
def State.evalCmd (s : State) (code : Nat) (x : CmdIn) : Nat × State :=
  if !s.isIn (legalIn code) then (abState, s)
  else match code with
  | 0x01 => s.evalOpen
  | 0x02 => s.evalCommit x.peer
  | 0x03 => (0, (s.dropStaged.onDev (fun d => { d with committed := false })).goto .inert)
  | 0x10 => s.evalRun
  | 0x11 => (0, s.toHold)
  | 0x12 => s.evalResume
  | 0x13 => (0, s.evalStop)
  | 0x20 => (match x.failed with
    | some u => s.evalReset u
    | none => let (u, s) := s.fresh; s.evalReset (u % 2 ^ 48))
  | 0x30 => if s.tierActive < 1 then (abNoResource, s) else (0, s.goto .service)
  | 0x31 => (0, (s.onDev (fun d => { d with committed := false })).goto .inert)
  | 0x40 => s.evalSwap x.peer
  | 0x41 => s.evalDetach
  | _ => (abRange, s)

/-- DEV_CMD_LAST (R420). -/
def cmdLast (code path abort cycle : Nat) : Bytes := le 2 code ++ le 1 path ++ [0] ++ le 4 abort ++ le 8 cycle

/-- The requester's open request writes DEV_CMD. -/
def RqSt.commands (r : RqSt) : Bool := match r.openReq with
  | some m => m.index == 0x0110 && m.sub == 0x01
  | none => false

/-- A command is evaluated: DEV_CMD_LAST, the record of a refusal by state, and the response (R422, R423).
DESIGN CHOICE, log entry 22. -/
def State.runCmd (s : State) (rq : Requester) (code : Nat) (x : CmdIn) : State :=
  let (c, s') := s.evalCmd code x
  let s' := s'.setObj kDevCmdLast (cmdLast code (pathCode rq) c s.cycle)
  let s' := if c = abState then s'.refusedRecord rq code 0x0110 1 else s'
  if (s'.rq rq).commands then s'.finish rq c else s'.answer rq c

/-! ### The end of SYNC (R25, R27) -/

/-- A ring is in its operating timetable and every node configured on it has integrated (R27). -/
def State.ringReady (s : State) (r : RingId) : Bool :=
  s.ringState r == 6 && (s.order r).all (fun a => ((s.ring r).rec? a).any (fun n => n.state == .integrated))

/-- Every SYNC exit condition is met (R27). -/
def State.syncReady (s : State) : Bool :=
  decide (2 ≤ s.tierActive) && s.ringReady .m && (s.tierActive != 3 || s.ringReady .p) && s.timeLocked &&
    s.setMatches && s.safe.testsOk && (s.tierActive != 3 || !s.paired || s.bit kRedStatus 1) && s.dev.dramReady

/-- SYNC_COMPLETE (R27, R375 step 5). -/
def syncComplete (s : State) : State :=
  if s.dev.state ≠ .sync ∨ !s.syncReady then s
  else
    let s := s.goto .ready
    if s.standby ∧ (num s.peerHb 0 1 ≠ DevState.ready.code ∨ s.bit kRedStatus 11) then s.diverge s.cycle else s

/-- A record whose type the spec leaves open among the device's types 0x0200 to 0x02FF. DESIGN CHOICE, log entry 11.
DEDUCED, log entry 65. -/
def State.logAnyType (s : State) : State :=
  let (t, s) := s.fresh
  s.logOpen 0 (0x0200 + t % 256)

/-- SYNC_TIMEOUT (R25). DEDUCED, log entry 65. -/
def syncTimeout (s : State) : State :=
  if s.dev.state ≠ .sync then s
  else
    let s := ({ s with staged := some [] } : State).onDev (fun d => { d with syncExpired := true, cfgFromReady := false })
    (s.logAnyType).goto .config

/-! ### Boot flash (R343, R449) -/

/-- BOOT_FLASH_OPERATION_DONE (R449, R343). -/
def bootFlashOperationDone (ok : Bool) (s : State) : State :=
  match s.sec.flashOp with
  | none => s
  | some (.erase rq) => (s.onSec (fun x => { x with flashOp := none })).finish rq (if ok then 0 else abHwFault)
  | some (.image t d rq) =>
    if ok ∧ s.sec.attNonce.isSome then s.onSec (fun x => { x with flashOp := some (.readBack t d rq) }) else s.imageDone t d rq ok
  | some (.readBack _ _ _) => s
  | some (.safetySet d rq) => s.setStored d rq ok

/-! ### Detach -/

/-- Back in INERT (R22, R23, R38, R220, R279). -/
def State.toInert (s : State) : State :=
  let s := s.goto .inert
  { s with dev := { s.dev with committed := false } }

/-- DETACH_EFFECT (R374, R361, R124). -/
def detachEffect (s : State) : State :=
  match s.pair.detachAt with
  | some d =>
    if s.cycle < d then s
    else
      let s := s.onPair (fun p =>
        { p with passThrough := true, inert := true, enteredSync := false, detachAt := none, active := false })
      let s := s.setClaim 0
      let s := { s with rings := { s.rings with m := { s.rings.m with cs := .pass }, p := { s.rings.p with cs := .pass } } }
      s.toInert.roleChange 4 0
  | none =>
    match s.pair.partnerDetachAt with
    | some d =>
      if s.cycle < d ∨ !s.owner then s
      else
        let s := s.onPair (fun p => { p with partnerDetachAt := none, actAlone := false })
        ((s.singleHead true).redBit 7 true).roleChange 4 1
    | none => s

end Sys2Proof.Machine
end

