-- ==== Sys2Proof/Machine/RxData.lean ====
section
/-! DEFINITION. Slots of the rings (R65, R68, R115 to R117, R518): what an accepted DATA, REPEAT or NULL frame brings, and what the
head sends in an occurrence of a slot. -/

namespace Sys2Proof.Machine

/-! ### Inbound -/

/-- An RX value passes the value rule of its object (R383, R518); HC_MEAS admits every value (R159). -/
def rxOk (e : MapE) (v : Bytes) : Bool := match objRow? e.index e.sub with
  | some r => lengthOk r v.length && (typeOk r v || decide (0x3900 ≤ e.index) && decide (e.index ≤ 0x391F) && e.sub == 0x0B)
  | none => false

/-- A correction channel takes its measurement (R159 to R161). DEDUCED, log entry 44. -/
def State.hcTake (s : State) (c cycle v : Nat) : State :=
  if f32.isFinite v then s.onHc c (fun x => { x with meas := some (v, cycle) }) else s.setBit (kHcStatus c) 4 true

/-- The value of an RX range enters its object; `cycle` is the cycle of its data and `seq` that of its frame.
DEDUCED, log entry 44. -/
def State.rxStore (s : State) (e : MapE) (cycle seq : Nat) (v : Bytes) : State :=
  if !rxOk e v then s
  else
    let k := objKey e.index e.sub
    let s := s.setObj k (cleanValue e.index e.sub v)
    if 0x3900 ≤ e.index ∧ e.index ≤ 0x391F ∧ e.sub = 0x0B then s.hcTake (e.index - 0x3900) cycle (leVal v)
    else match (List.range 16).find? (fun j => kSqTvBlock j == k) with
      | some j =>
        -- a buffer is dropped once another one has become the newest that any SQ_TV_LAG takes
        let l := (⟨j, seq, v⟩ : TvBuf) :: s.square.tv
        s.onSq (fun x => { x with tv := l.filter (fun b =>
          !l.any (fun y => y.block == b.block && decide (b.cycle < y.cycle) && decide (y.cycle + 255 ≤ s.cycle))) })
      | none => s

/-- A token whose frame's last bit crossed the ball at or after the RX deadline of its instance's template, in the cycle of its tag, is not
on time: its port counts as substituted already (R230). `ends` is that instant, 2^-16 ns. DEDUCED, log entry 43. -/
def State.tooLate (s : State) (id tag ends : Nat) : Bool :=
  match s.inst? id with
  | some x => let rx := (s.tmpl x).rx; rx != 0 && tag == x.tag && decide ((s.tagCycle tag * s.tns + rx) * 65536 ≤ ends)
  | none => false

/-- A TOKEN range goes to the ports that it feeds: KIN for ARM_MEAS, and user edges by map entry number (R90, R227, R247).
DEDUCED, log entry 44. -/
def State.rxToken (s : State) (no : Nat) (e : MapE) (tag ends : Nat) (t : Tok) : State :=
  let edges := (edgesOf (s.obj kJnEdges)).filter (fun x => x.kind == 1 && x.src == no)
  let l := ((List.range 8).filter (fun a => objKey e.index e.sub == kArmMeas a)).map (fun a => (a, 0, tag)) ++
    (edges.filter (fun x => x.dstKind == 0)).map (fun x => (x.dst, x.dstPort, if x.next then (tag + 1) % 65536 else tag))
  let late := l.filter (fun p => s.jnOn && s.tooLate p.1 p.2.2 ends)
  let s := late.foldl (fun (s : State) _ => s.dropToken) s
  let s := s.arriveAll (l.filter (fun p => !late.contains p)) t
  (edges.filter (fun x => x.dstKind != 0)).foldl (fun (s : State) x => s.toObject (objKey x.dst x.dstSub) s.cycle t.data) s

/-- The RX ranges of a slot, with their numbers in SLOT_MAP. -/
def State.rxOf (s : State) (r : RingId) (slot : Nat) : List (Nat × MapE) :=
  (mapOf (s.obj kSlotMap)).zipIdx.filterMap (fun p =>
    if p.1.rx && p.1.ring == ringNo r && p.1.slot == slot then some (p.2, p.1) else none)

/-- One RX range of a frame; the token carries the ingress stamp as R41 corrects it. DEDUCED, log entry 44. -/
def State.rxRange (s : State) (f : Frame) (stamp ends : Nat) (p : Nat × MapE) : State :=
  let v := slice f.payload p.2.off p.2.len
  let seq := s.cycleOf f.seq.toNat
  let c := seq - f.age.toNat
  let s := s.rxStore p.2 c seq v
  if p.2.token ∧ rxOk p.2 v then s.rxToken p.1 p.2 (c % 65536) ends ⟨v, false, false, 0, some stamp⟩ else s

/-- A frame carries the SEQ of the occurrence that is expected: of this cycle, or of the one before for a frame that crosses the
cycle start (R107, R117). -/
def State.seqExpected (s : State) (f : Frame) : Bool :=
  f.seq.toNat == s.seq32 || f.seq.toNat == (s.cycle - 1) % 2 ^ 32

/-- An accepted frame with data: the inbound buffer, the RX ranges, and data that a safety connection covers. Of several copies with
one SEQ the first is taken, and a frame with another SEQ is not (R117); FRAME_RECEIVE counts them. DEDUCED, log entry 44. -/
def State.takeFrame (s : State) (f : Frame) (stamp : Time96) : State :=
  if s.dev.phase ≠ .up ∨ s.pair.passThrough then s
  else
    let r := f.ring
    let slot := f.slot.toNat
    let i := (s.ring r).inSlot slot
    if !s.seqExpected f ∨ i.taken = some f.seq.toNat then s
    else
      let q := some f.seq.toNat
      let s := s.onRing r (fun x => { x with
        inb := putIn { i with payload := f.payload, seq := f.seq.toNat, age := f.age.toNat, kept := q, taken := q } x.inb })
      let st := s.stamp (arrivalPort r f.ch) false false (time96Q stamp)
      let ends := ballIn (time96Q stamp) + wire10 f.payload.length * 65536 / 10
      let s := (s.rxOf r slot).foldl (fun (s : State) p => s.rxRange f st ends p) s
      s.takeCoveredSlot r slot

/-- DATA (R115, R117). -/
def dataFrame (f : Frame) (stamp : Time96) (s : State) : State := s.takeFrame f stamp

/-- REPEAT (R116): its payload is that of the DATA frame of AGE cycles before, and is applied as such. -/
def repeatFrame (f : Frame) (stamp : Time96) (s : State) : State := s.takeFrame f stamp

/-- NULL (R116, R117): it carries nothing. DEDUCED, log entry 44. -/
def nullFrame (_f : Frame) (s : State) : State := s

/-! ### Outbound -/

/-- The port code of a ring's side. -/
def sidePort (r : RingId) (sd : Side) : Nat := 2 * ringNo r + sideNo sd

/-- The stamp of a SYNC frame at a port enters its FIFO: the cycle start instant, earlier on the channel that a single head takes
over (R41, R69, R124). DEDUCED, log entry 44. -/
def State.syncStamp (s : State) (r : RingId) (sd : Side) : State :=
  let (q, s) := s.ownStamp (sidePort r sd) (s.cycle10 - s.early10 r sd)
  s.pushStamp (sidePort r sd) true false 0 q

/-- What a slot of this unit sent: TYPE, AGE 0 and payload, out of some of its ports. -/
def State.sentOut (s : State) (r : RingId) (slot type off flags : Nat) (payload : Bytes) (legs : List (Channel × Side)) : State :=
  let x := s.ring r
  let s := s.setRing r { x with out := putOut { x.outSlot slot with sent := some (type, 0, s.seq32, payload) } x.out }
  s.sendSlot r slot type 0 off flags payload legs

/-- A head slot that sends a payload on the origin channels. -/
def State.sentIn (s : State) (r : RingId) (e : SlotE) (payload : Bytes) : State :=
  s.sentOut r e.slot e.ftype e.off (s.slotFlags r e) payload (s.originLegs r)

/-- SYNC goes out at the cycle start instant, once in a cycle (R69, R83). -/
def State.syncOccurrence (s : State) (r : RingId) : State :=
  if (s.ring r).line.any (fun f => f.type == 0) then s
  else
    let s := s.sentOut r 0 0 0 0 (s.syncPayload r) (s.originLegs r)
    (s.originSides r).foldl (fun (s : State) sd => s.syncStamp r sd) s

/-- The HB slot of ring M (R84). -/
def State.hbOccurrence (s : State) (r : RingId) (e : SlotE) : State :=
  if !s.beats then s
  else
    let s := s.sentIn r e (s.hbPayload s.lastDigest s.pair.ringM.count)
    s.onPair (fun p => { p with ringM := { p.ringM with count := p.ringM.count + 1 } })

/-- A slot that this unit sends. -/
def State.ownOccurrence (s : State) (r : RingId) (e : SlotE) : State :=
  if !s.sendsClass e.cls then s
  else match e.ftype with
    | 1 => s.dataOccurrence r e
    | 4 => s.sentIn r e (s.commandPayload (ringNo r))
    | 8 => s.hbOccurrence r e
    | _ => s

/-- NULL in the slot of an excluded node, at the slot's offset, on the slot's channel from the line start, with the own ADDR and the
node's slot id (R111). -/
def State.substituteNull (s : State) (r : RingId) (e : SlotE) : State :=
  match (s.ring r).rec? e.addr with
  | some n => if n.substituted ∧ !s.standby then
      s.sentOut r e.slot 2 (s.slotOffset r e) (s.slotFlags r e) [] ((s.originLegs r).filter (fun l =>
        let c := e.channels (s.order r)
        if l.1 = .a then c.1 else c.2)) else s
  | none => s

/-- SLOT_OCCURRENCE (R69, R110, R111, R116). NULL replaces an excluded node from the occurrence after its third violation on. -/
def slotOccurrence (r : RingId) (slot : BitVec 12) (seen : SlotSeen) (s : State) : State :=
  if s.dev.phase ≠ .up ∨ !s.sends r then s
  else if slot = 0 then s.syncOccurrence r
  else match (s.slots r).find? (fun e => e.slot == slot.toNat) with
    | none => s
    | some e =>
      if !e.occurs s.cycle then s
      else if e.cls = 0 then (s.substituteNull r e).nodeOccurrence r e seen
      else s.ownOccurrence r e

end Sys2Proof.Machine
end

