-- ==== Sys2Proof/Machine/Window.lean ====
section
/-! DEFINITION. The host windows (R408 to R415, R418, R419): host registers, buffers, the MSI-X table, the direct window with its
write latch and read shadow, 64-bit PCIe reads, and the transactions of the SPI port. -/

namespace Sys2Proof.Machine

/-- The requester of a host path. -/
def pathRq : HostPath → Requester
  | .pcie => .pcie
  | .spi => .spi

/-- The host registers and buffers of a path. -/
def State.host (s : State) : HostPath → HostSt
  | .pcie => s.dict.pcie
  | .spi => s.dict.spi

/-- Applies a function to the host registers of a path. -/
def State.onHost (s : State) (p : HostPath) (f : HostSt → HostSt) : State :=
  match p with
  | .pcie => { s with dict := { s.dict with pcie := f s.dict.pcie } }
  | .spi => { s with dict := { s.dict with spi := f s.dict.spi } }

/-- The window of a path answers: the dictionary serves it and its block has not failed (R17, R387). -/
def State.windowUp (s : State) (p : HostPath) : Bool :=
  s.served (pathRq p) && !s.bit kUnitFail (match p with
    | .pcie => 36
    | .spi => 37)

/-- Sets a bit of HOST_STATUS (R409). -/
def HostSt.flag (h : HostSt) (b : Nat) : HostSt := { h with status := setBit h.status b true }

/-! ### Wide values (R411, R414) -/

/-- The object that an entry of the direct window maps. -/
def State.entry? (s : State) (e : Nat) : Option ObjRow :=
  let i := s.sub kHostMap (4 * e) 2
  if i = 0 then none else objRow? i (s.sub kHostMap (4 * e + 2) 1)

/-- Words of an object. -/
def ObjRow.words (r : ObjRow) : Nat := (r.size + 3) / 4

/-- Base offset and number of the word at an offset, when it is a word of a value of R414. -/
def State.wide? (s : State) (off : Nat) : Option (Nat × Nat) :=
  if off = 0x18 ∨ off = 0x1C then some (0x18, (off - 0x18) / 4)
  else if off < 0x8000 then none
  else match s.entry? ((off - 0x8000) / 16) with
    | some r => if 2 ≤ r.words ∧ off % 16 / 4 < r.words then some (off / 16 * 16, off % 16 / 4) else none
    | none => none

/-- The live value of the entry at a direct window offset. -/
def State.entryValue (s : State) (rq : Requester) (off : Nat) : Bytes × State :=
  match s.entry? ((off - 0x8000) / 16) with
  | some r => s.wordValue rq r.idx r.sub
  | none => ([], s)

/-- The live value at a base offset. -/
def State.liveValue (s : State) (rq : Requester) (base : Nat) : Bytes × State :=
  if base = 0x18 then (le 8 s.cycle, s) else s.entryValue rq base

/-- Sets TEAR of a requester (R414). -/
def State.tore (s : State) (rq : Requester) : State :=
  match rq with
  | .pcie => s.onHost .pcie (HostSt.flag · 0)
  | .spi => s.onHost .spi (HostSt.flag · 0)
  | _ => s.setRq { s.rq rq with tear := true }

/-- A read of word `k` of the wide value at a base offset (R414). -/
def State.wideRead (s : State) (rq : Requester) (base k : Nat) : Nat × State :=
  if k = 0 then
    let (v, s) := s.liveValue rq base
    (num v 0 4, s.setRq { s.rq rq with shadow := some (base, v) })
  else match (s.rq rq).shadow with
    | some (b, v) =>
      if b = base then (num v (4 * k) 4, s)
      else
        let (v, s) := s.liveValue rq base
        (num v (4 * k) 4, s.tore rq)
    | none =>
      let (v, s) := s.liveValue rq base
      (num v (4 * k) 4, s.tore rq)

/-- A write by the requester to a word of the tagged value invalidates its shadow (R414). DEDUCED, log entry 27. -/
def State.dropShadow (s : State) (rq : Requester) (off : Nat) : State :=
  match s.wide? off, (s.rq rq).shadow with
  | some (base, _), some (b, _) => if b = base then s.setRq { s.rq rq with shadow := none } else s
  | _, _ => s

/-! ### Reads -/

/-- HOST_STATUS (R409). -/
def State.hostStatus (s : State) (p : HostPath) : Nat := Machine.setBit (s.host p).status 5 s.dramOn

/-- A word of the host registers and buffers of a path (R408, R409). -/
def State.regWord (s : State) (p : HostPath) (off : Nat) : Nat :=
  let h := s.host p
  let onPcie (v : Nat) : Nat := match p with
    | .pcie => v
    | .spi => 0
  match off with
  | 0x00 => 0xC86400A2
  | 0x04 => s.hostStatus p
  | 0x08 => h.intStatus
  | 0x0C => h.intEnable
  | 0x14 => s.dev.state.code + 256 * s.tierActive + 65536 * s.n kRedClaimState
  | 0x20 => h.directErr
  | 0x24 => h.cycDiv
  | 0x900 => onPcie h.msixPending
  | _ =>
    if 0x800 ≤ off ∧ off < 0x880 then onPcie (h.msix.getD ((off - 0x800) / 4) 0)
    else if 0x1000 ≤ off ∧ off < 0x1410 then num h.reqBuf (off - 0x1000) 4
    else if 0x2000 ≤ off ∧ off < 0x2410 then num h.rspBuf (off - 0x2000) 4
    else 0

/-- The host path of a requester. -/
def hostPath? : Requester → Option HostPath
  | .pcie => some .pcie
  | .spi => some .spi
  | _ => none

/-- A 32-bit read at a window offset: a misaligned one returns 0 (R408). DEDUCED, log entry 27. -/
def State.wordRead (s : State) (rq : Requester) (off : Nat) : Nat × State :=
  if off % 4 ≠ 0 then (0, s)
  else match s.wide? off with
    | some (base, k) => s.wideRead rq base k
    | none =>
      if 0x8000 ≤ off then
        (if off % 16 = 0 then
          let (v, s) := s.entryValue rq off
          (num v 0 4, s)
        else (0, s))
      else match hostPath? rq with
        | some p => (s.regWord p off, s)
        | none => (0, s)

/-- What a requester's reads returned. -/
def State.gave (s : State) (rq : Requester) (ws : List Nat) : State :=
  match hostPath? rq with
  | some p => s.onHost p (fun h => { h with lastRead := ws })
  | none => s.setRq { s.rq rq with word := ws.getLastD 0 }

/-- A requester that reads words of the window: a host path that answers, or a planner core (R414). -/
def State.mayRead (s : State) : Requester → Bool
  | .pcie => s.windowUp .pcie
  | .spi => s.windowUp .spi
  | .planner p => s.served (.planner p) && !s.bit kUnitFail (8 + p.val)
  | _ => false

/-- A read of one word by a requester. -/
def State.readOne (s : State) (rq : Requester) (off : Nat) : State :=
  if s.mayRead rq then
    let (v, s) := s.wordRead rq off
    s.gave rq [v]
  else s

/-- BASE_WORD_READ (R414). -/
def baseWordRead (rq : Requester) (offset : W16) (s : State) : State := s.readOne rq offset.toNat

/-- HIGHER_WORD_READ (R414). -/
def higherWordRead (rq : Requester) (offset : W16) (s : State) : State := s.readOne rq offset.toNat

/-- QWORD_READ (R415): both words come from one sample, since a read of the base word loads the shadow. -/
def qwordRead (offset : W16) (s : State) : State :=
  if !s.windowUp .pcie then s
  else if offset.toNat % 8 ≠ 0 then s.gave .pcie [0, 0]
  else
    let (a, s) := s.wordRead .pcie offset.toNat
    let (b, s) := s.wordRead .pcie (offset.toNat + 4)
    s.gave .pcie [a, b]

/-! ### Writes -/

/-- Submits the request buffer (R409, R410). -/
def State.ringBell (s : State) (p : HostPath) (v : Nat) : State :=
  if v ≠ 1 then s
  else if (s.host p).status.testBit 4 then s.onHost p (HostSt.flag · 7)
  else
    let s := s.onHost p (fun h => { h with status := Machine.setBit (Machine.setBit h.status 4 true) 3 false, dirty := false })
    handleMsg (pathRq p) (parseMsg (s.host p).reqBuf) s

/-- A refused direct write (R411, R418). DEDUCED, log entry 28. -/
def State.directRefused (s : State) (p : HostPath) (code : Nat) : State :=
  s.onHost p (fun h => { (h.flag 6) with directErr := code } |>.raise 7 (decide (p = HostPath.pcie)))

/-- The write of an object through the direct window. -/
def State.directObject (s : State) (p : HostPath) (r : ObjRow) (v : Bytes) : State :=
  let s := performObject (pathRq p) r.idx r.sub v s
  if s.dev.phase ≠ .up then s
  else
    let c := (s.rq (pathRq p)).result
    if c = 0 ∨ c = resPending then s else s.directRefused p c

/-- The write latch with a word staged (R411). -/
def latched (l : Option (Nat × List (Nat × Nat))) (e k v : Nat) : Option (Nat × List (Nat × Nat)) :=
  match l with
  | some (e', ws) => if e' = e then some (e, (k, v) :: ws.filter (fun w => w.1 != k)) else some (e, [(k, v)])
  | none => some (e, [(k, v)])

/-- The words below word `k` that the write latch holds for an entry, when it holds all of them. -/
def latchWords (l : Option (Nat × List (Nat × Nat))) (e k : Nat) : Option Bytes :=
  match l with
  | some (e', ws) =>
    if e' = e ∧ (List.range k).all (fun i => ws.any (fun w => w.1 == i)) then
      some ((List.range k).map (fun i => le 4 (((ws.find? (fun w => w.1 == i)).map Prod.snd).getD 0))).flatten
    else none
  | none => none

/-- A write to word `k` of direct window entry `e` (R411): an unused entry and words beyond the object ignore it.
DEDUCED, log entry 27. -/
def State.entryWrite (s : State) (p : HostPath) (e k v : Nat) : State :=
  match s.entry? e with
  | none => s
  | some r =>
    if r.words ≤ k then s
    else if r.words = 1 then s.directObject p r (le r.size v)
    else if k + 1 < r.words then s.onHost p (fun h => { h with latch := latched h.latch e k v })
    else match latchWords (s.host p).latch e k with
      | some low => (s.onHost p (fun h => { h with latch := none })).directObject p r (low ++ le 4 v)
      | none => s.directRefused p abType

/-- A word of the MSI-X table; unmasking a vector sends its pending message (R419). -/
def HostSt.msixWrite (h : HostSt) (i v : Nat) : HostSt :=
  let h := { h with msix := h.msix.set i v }
  let n := i / 4
  if i % 4 = 3 ∧ !v.testBit 0 ∧ h.msixPending.testBit n then
    { h with msixPending := setBit h.msixPending n false, msixSent := modAt h.msixSent n (· + 1) }
  else h

/-- A word of the request buffer; a change while REQ_BUSY is set leaves the pending request's outcome open (R410).
DESIGN CHOICE, log entry 26. -/
def HostSt.bufWrite (h : HostSt) (off v : Nat) : HostSt :=
  { h with reqBuf := patch (fit 1040 h.reqBuf) off (le 4 v), dirty := h.dirty || h.status.testBit 4 }

/-- The bits that a W1C write clears. -/
def w1c (old v mask : Nat) : Nat := old - (old &&& v &&& mask)

/-- A 32-bit write to the host registers and buffers of a path (R408, R409). DEDUCED, log entry 27. -/
def State.regWrite (s : State) (p : HostPath) (off v : Nat) : State :=
  match off with
  | 0x04 => s.onHost p (fun h => { h with status := w1c h.status v 0xC5 })
  | 0x08 => s.onHost p (fun h => { h with intStatus := w1c h.intStatus v 0xFF })
  | 0x0C => s.onHost p (fun h => { h with intEnable := v % 256 })
  | 0x10 => s.ringBell p v
  | 0x24 => if 1 ≤ v ∧ v ≤ 2 ^ 24 then s.onHost p (fun h => { h with cycDiv := v }) else s
  | _ =>
    if 0x800 ≤ off ∧ off < 0x880 then (match p with
      | .pcie => s.onHost .pcie (fun h => h.msixWrite ((off - 0x800) / 4) v)
      | .spi => s)
    else if 0x1000 ≤ off ∧ off < 0x1410 then s.onHost p (fun h => h.bufWrite (off - 0x1000) v)
    else s

/-- A write of one word at a window offset: a misaligned one is ignored and sets DWERR (R408). DEDUCED, log entry 27. -/
def State.windowWrite (s : State) (p : HostPath) (off v : Nat) : State :=
  if off % 4 ≠ 0 then s.onHost p (HostSt.flag · 6)
  else
    let s := s.dropShadow (pathRq p) off
    if 0x8000 ≤ off then s.entryWrite p ((off - 0x8000) / 16) (off % 16 / 4) v else s.regWrite p off v

/-- DOORBELL (R410). -/
def doorbell (path : HostPath) (v : W32) (s : State) : State := if s.windowUp path then s.windowWrite path 0x10 v.toNat else s

/-- DIRECT_WRITE (R408, R411). DEDUCED, log entry 28. -/
def directWrite (path : HostPath) (offset : W16) (v : W32) (s : State) : State :=
  if s.windowUp path then s.windowWrite path offset.toNat v.toNat else s

/-! ### SPI (R413) -/

/-- Reads of `n` words from an address that wraps within 64 KiB. DEDUCED, log entry 27. -/
def State.readWords (off : Nat) : Nat → State → List Nat × State
  | 0, s => ([], s)
  | n + 1, s =>
    let (v, s) := s.wordRead .spi (off % 65536)
    let (l, s) := State.readWords (off + 4) n s
    (v :: l, s)

/-- SPI_READ. -/
def spiRead (offset : W16) (words : Nat) (s : State) : State :=
  if !s.windowUp .spi then s
  else if offset.toNat % 4 ≠ 0 then s.onHost .spi (HostSt.flag · 2)
  else
    let (l, s) := State.readWords offset.toNat words s
    s.gave .spi l

/-- Writes of words from an address that wraps within 64 KiB; a write may end the path's service. -/
def State.writeWords (off : Nat) : List Bytes → State → State
  | [], s => s
  | w :: l, s => State.writeWords (off + 4) l (if s.windowUp .spi then s.windowWrite .spi (off % 65536) (leVal w) else s)

/-- SPI_WRITE: an incomplete word is discarded. -/
def spiWrite (offset : W16) (bytes : Bytes) (s : State) : State :=
  if !s.windowUp .spi then s
  else if offset.toNat % 4 ≠ 0 then s.onHost .spi (HostSt.flag · 2)
  else State.writeWords offset.toNat (records 4 bytes) s

/-- SPI_STATUS. DEDUCED, log entry 27. -/
def spiStatus (count : Nat) (s : State) : State :=
  if s.windowUp .spi then s.gave .spi (List.replicate count (s.hostStatus .spi % 256)) else s

end Sys2Proof.Machine
end

