-- ==== Sys2Proof/Machine/Cycle.lean ====
section
/-! DEFINITION. The start of a basic cycle (R28, R34, R53): the evaluation of events, the cycle graph, the readings, the planners
and correction channels, the axes, and what leaves for the rings and the hosts. -/

namespace Sys2Proof.Machine

/-! ### Events (R25, R26, R28) -/

/-- The fault stops the recorder's clock, which REFCLK makes through PLL_N, so its record waits for the next mount (R26).
DEDUCED, log entry 15. -/
def DevFault.isHeld (f : DevFault) : Bool := f.type == 0x0203 && decide (f.detail < 2) || f.type == 0x0205

/-- Device faults: the first one leads to FAULT. DEDUCED, log entry 15. -/
def State.deviceFaultEvents (s : State) : State :=
  let l := s.dev.deviceFaults
  let s := s.onDev (fun d => { d with deviceFaults := [] })
  match l with
  | [] => s
  | f :: _ =>
    if s.dev.state = .fault then s
    else
      let s := if f.isHeld then s.onDev (fun d => { d with held := d.held ++ [(f, s.recd.optime)] }) else s.faultRecord f
      s.toFault f.type true

/-- A single-channel safety fault in the present state. DEDUCED, log entry 50. -/
def State.chanFaultEvent (s : State) : State :=
  if s.isIn [.run, .hold] then
    if s.dev.degradedUsed then s.toFault 0x0402 false else s.enterDegraded.entered s.dev.state
  else if s.isIn [.config, .sync, .ready] then s.toFault 0x0402 false
  else s

/-- Single-channel safety faults, in the order of their detection. -/
def State.chanFaultEvents (s : State) : State :=
  let l := s.dev.chanFaults
  l.foldl (fun (s : State) _ => s.chanFaultEvent) (s.onDev (fun d => { d with chanFaults := [] }))

/-- TIER_ACTIVE has fallen below the tier in use (R19). -/
def State.tierFell (s : State) : Bool := s.isIn [.run, .hold, .degraded] && decide (s.tierActive < s.dev.tierInUse)

/-- A stop demand in the present state. -/
def State.stopEvent (s : State) : State :=
  match s.dev.state with
  | .run => s.toReady
  | .hold => s.toReady
  | .degraded => s.toFault 0x0407 false
  | .ready => s.btAbort
  | _ => s

/-- An SS2 demand in the present state. -/
def State.ss2Event (s : State) : State :=
  match s.dev.state with
  | .run => s.toHold
  | .degraded => s.toFault 0x0407 false
  | _ => s

/-- Stop demands, shedding stages and the end of DEGRADED. -/
def State.stopEvents (s : State) : State :=
  let d := s.dev
  let stop := d.stopDemand || s.tierFell || d.shedEvent == 3 || d.shedEvent == 4
  let s := s.onDev (fun d => { d with stopDemand := false, ss2Demand := false, degTimerEnd := false, shedEvent := 0 })
  let s := if d.shedEvent = 5 ∧ s.dev.state ≠ .fault then s.toFault 0x0260 true else s
  let s := if stop then s.stopEvent else s
  let s := if d.ss2Demand then s.ss2Event else s
  if d.degTimerEnd ∧ s.dev.state = .degraded then s.toFault 0x0407 false else s

/-- Items 1 to 3 of R28; the owner of a pair forwards a change of state (R373). -/
def State.localEvents (s : State) : State :=
  let old := s.dev.state
  let s := s.deviceFaultEvents.chanFaultEvents.stopEvents
  if s.dev.state = old then s else s.forwardEvent

/-- Commands in order of arrival, those whose apply cycle has come; `all` when no cycle comes (R53). DEDUCED, log entry 16. -/
def State.commandEvents (s : State) (all : Bool) : State :=
  let due (c : QueuedCmd) : Bool := all || decide (c.applyCycle ≤ s.cycle)
  let l := s.dev.cmds.filter due
  let s := s.onDev (fun d => { d with cmds := d.cmds.filter (fun c => !due c) })
  l.foldl (fun (s : State) c => s.runCmd c.rq c.code ⟨s.pair.peerInfo, none⟩) s

/-- The evaluation of events (R28), and the axes when the torque grant is gone (R299). DEDUCED, log entry 10. -/
def State.events (s : State) (all : Bool) : State :=
  (s.torqueCheck.localEvents.torqueCheck).commandEvents all

/-! ### Device commands (R25, R420 to R422) -/

/-- A command row: the checks that a write of DEV_CMD passes, then the evaluation, which R28 puts after the device faults,
single-channel faults and stop demands that wait, and after the commands that came before it. DEDUCED, log entry 16. -/
def deviceCmd (code : Nat) (rq : Requester) (x : CmdIn) (s : State) : State :=
  if !s.served rq then s
  else
    let c := devCmdOwn rq (le 2 code) s
    if c ≠ resPending then s.refuse rq 0x0110 1 c
    else
      let s := s.events (!s.time.running)
      let s := if rq = .partner ∨ code = 0x40 ∨ code = 0x41 then s else s.forward s.cycle (writeMsgBytes 0x0110 0x01 (le 2 code))
      s.runCmd rq code x

/-- CFG_OPEN (R25, R421). -/
def cfgOpen (rq : Requester) (s : State) : State := deviceCmd 0x01 rq ⟨none, none⟩ s

/-- CFG_COMMIT (R25, R421). -/
def cfgCommit (rq : Requester) (peer : Option PeerInfo) (s : State) : State := deviceCmd 0x02 rq ⟨peer, none⟩ s

/-- CFG_ABORT (R25, R421). -/
def cfgAbort (rq : Requester) (s : State) : State := deviceCmd 0x03 rq ⟨none, none⟩ s

/-- RUN_ENABLE (R25, R421). -/
def runEnable (rq : Requester) (s : State) : State := deviceCmd 0x10 rq ⟨none, none⟩ s

/-- HOLD_REQ (R25, R421). -/
def holdReq (rq : Requester) (s : State) : State := deviceCmd 0x11 rq ⟨none, none⟩ s

/-- RESUME (R25, R421). -/
def resumeCmd (rq : Requester) (s : State) : State := deviceCmd 0x12 rq ⟨none, none⟩ s

/-- STOP_REQ (R25, R421). -/
def stopReq (rq : Requester) (s : State) : State := deviceCmd 0x13 rq ⟨none, none⟩ s

/-- DEV_RESET (R25, R421). DESIGN CHOICE, log entry 22. -/
def devReset (rq : Requester) (failed : W64) (s : State) : State := deviceCmd 0x20 rq ⟨none, some failed.toNat⟩ s

/-- SVC_ENTER (R25, R421). -/
def svcEnter (rq : Requester) (s : State) : State := deviceCmd 0x30 rq ⟨none, none⟩ s

/-- SVC_LEAVE (R25, R421). -/
def svcLeave (rq : Requester) (s : State) : State := deviceCmd 0x31 rq ⟨none, none⟩ s

/-- PLANNED_SWAP (R378, R421). -/
def plannedSwap (rq : Requester) (peer : Option PeerInfo) (s : State) : State := deviceCmd 0x40 rq ⟨peer, none⟩ s

/-- DETACH (R374, R421). -/
def detach (rq : Requester) (s : State) : State := deviceCmd 0x41 rq ⟨none, none⟩ s

/-! ### The cycle graph (R229) -/

/-- The graph starts with the instances of the commit: every tag is the number of the first cycle, every port is empty. -/
def State.graphStart (s : State) : State :=
  let begin_ (x : InstSt) : InstSt :=
    { x with tag := s.cycle % 65536, ports := x.ports.map (fun p => { p with cur := none, nxt := none, subst := false }) }
  s.onJn (fun j => { j with running := true, insts := j.insts.map begin_, ready := List.replicate 32 [], delay := List.replicate 8 []
                            dec := List.replicate 64 none })

/-- The graph stops, and with it what runs or waits on the Lanes; its instances stay. DEDUCED, log entry 43. -/
def State.graphStop (s : State) : State :=
  let idle (l : LaneSt) : LaneSt := { l with task := none, slot := none, dma := none }
  let s := s.onJn (fun j => { j with running := false, ready := List.replicate 32 [], delay := List.replicate 8 [] })
  { s with lanes := s.lanes.map idle }

/-- BYPASS exists at Tier 2 only (R227). DEDUCED, log entry 43. -/
def State.bypassInsts (s : State) : State :=
  let isBy (x : InstSt) : Bool := decide (80 ≤ x.id) && decide (x.id < 88)
  if s.tierRun = 2 then
    if s.jn.insts.any isBy then s
    else
      let new := s.arms.map (fun a => ({ freshInst (80 + a) 4 0 2 0 with tag := s.cycle % 65536 } : InstSt))
      s.onJn (fun j => { j with insts := j.insts.filter (fun x => decide (x.id < 80)) ++ new ++ j.insts.filter (fun x => decide (88 ≤ x.id)) })
  else s.onJn (fun j => { j with insts := j.insts.filter (fun x => !isBy x) })

/-- The graph in a cycle: it starts, goes on or stops. -/
def State.graphCycle (s : State) : State :=
  if s.graphOn then (if s.jn.running then s else s.graphStart).bypassInsts
  else if s.jn.running then s.graphStop else s

/-- Instances whose bank of the present cycle is already full fire. -/
def State.fireFull (s : State) : State := (s.jn.insts.map InstSt.id).foldl State.fire s

/-! ### What leaves for the rings, the partner and the hosts -/

/-- Objects that tasks write: ARM_SETPOINT and the targets of user edges. -/
def State.taskKeys (s : State) : List Nat :=
  (List.range 8).map kArmSetpoint ++ ((edgesOf (s.obj kJnEdges)).filter (fun e => e.dstKind == 1)).map (fun e => objKey e.dst e.dstSub)

/-- The other TX objects go into the buffers of the present cycle (R115). -/
def State.txObjects (s : State) : State :=
  let keys := ((mapOf (s.obj kSlotMap)).filter (fun e => !e.rx)).map (fun e => objKey e.index e.sub)
  let mine := keys.eraseDups.filter (fun k => !s.taskKeys.contains k)
  mine.foldl (fun (s : State) k => s.txWrite k s.cycle (s.view .pcie (keyIndex k) (keySub k))) s

/-- The time-exchange message of a cycle (R46, R363): a DELAY request to the partner; what its time fields carry the spec does not
say. DESIGN CHOICE, log entry 11. -/
def State.linkExchange (s : State) : State :=
  let b := Config.freeBytes s.free
  let n := s.pair.exch
  let s := ({ s with free := s.free + 1 } : State).onPair (fun p => { p with exch := (n + 1) % 2 ^ 32 })
  s.linkSend 2 9 ([0, 0] ++ le 2 (1 - s.ownAddr) ++ le 4 n ++ fit 36 b ++ zeros 4)

/-- The frames of each cycle on the redundancy link: heartbeat and time exchange (R46, R363). DEDUCED, log entry 44. -/
def State.linkBeat (s : State) : State :=
  if !s.beats then s
  else
    let s := s.linkSend 1 8 (s.hbPayload s.lastDigest s.pair.link.count)
    (s.onPair (fun p => { p with link := { p.link with count := p.link.count + 1 } })).linkExchange

/-- The CYCLE interrupt of one window (R418). -/
def HostSt.cycleTick (h : HostSt) (cycle : Nat) (msi : Bool) : HostSt := if cycle % max h.cycDiv 1 = 0 then h.raise 3 msi else h

/-- The CYCLE interrupts. -/
def State.cycleTicks (s : State) : State :=
  { s with dict := { s.dict with pcie := s.dict.pcie.cycleTick s.cycle true, spi := s.dict.spi.cycleTick s.cycle false } }

/-- The dictionary engine at a cycle start: requests that waited, and the PENDING responses owed (R402, R481). -/
def State.engineCycle (s : State) : State :=
  let s := s.onMon (fun m => { m with served := 0 })
  (State.drainWaiting s.dict.waiting.length s).sendOwed

/-! ### The cycle start -/

/-- A coldstart-capable node at a cycle start: the START of its attempt out of both ports, or the SYNC of an interim head on both
channels, with TT_FLAGS 0 and TT_ID 0 (R96, R98). -/
def State.nodeCycle (s : State) (n : NodeSt) : NodeSt :=
  let n := { n with own := [], line := [] }
  let now := s.cycle10
  let frame (c : Channel) (type slot seq : Nat) (pl : Bytes) : Frame :=
    { s.ownFrame n.ring c type slot seq 0 0 pl with addr := BitVec.ofNat 10 n.addr, flags := 0 }
  match n.cs with
  | .coldstart =>
    let close : Int := now + (wire10 16 : Nat) + ((s.n (kPrecision (ringNo n.ring)) * 10 : Nat) : Int)
    let pl := startPayload n.serial 0 (s.n kBasicCycle) n.attempt
    let east := startFree n.busyE now n.insA
    let west := startFree n.busyW now n.insB
    let y := if east then n.send .east 2 now now close (frame .a 6 0xFFD n.senderCtr pl) else n
    let y := if west then y.send .west 2 now now close (frame .b 6 0xFFD n.senderCtr pl) else y
    if east || west then { y with startsSent := n.startsSent + 1, senderCtr := (n.senderCtr + 1) % 2 ^ 32 } else n
  | .running =>
    let pl := time96 (s.cycle * s.tns * 65536) ++ le 1 (s.n kBasicCycle) ++ zeros 3
    let prec : Int := ((s.n (kPrecision (ringNo n.ring)) * 10 : Nat) : Int)
    let go (n : NodeSt) (c : Channel) : NodeSt :=
      n.send (egressOf c) 0 now (now - prec) (now + (wire10 16 : Nat) + prec) (frame c 0 0 (s.cycle % 2 ^ 32) pl)
    go (go n .a) .b
  | _ => n

/-- Stations at a cycle start: frames of the past cycle are off their egresses. -/
def State.nodesCycle (s : State) : State :=
  let ring (x : RingSt) : RingSt := { x with own := [], line := [] }
  let s := { s with rings := { s.rings with m := ring s.rings.m, p := ring s.rings.p } }
  { s with rings := { s.rings with nodes := s.rings.nodes.map s.nodeCycle } }

/-- SYNC of a ring at the cycle start (R69, R83). -/
def State.syncCycle (s : State) (r : RingId) : State := if s.sends r then s.syncOccurrence r else s

/-- The rings and the pair. -/
def State.lineCycle (s : State) : State :=
  let s := s.onPair (fun p => { p with linkOut := [] })
  ((((s.pairCycle).nodesCycle.ringCycle .m).ringCycle .p).syncCycle .m |>.syncCycle .p).checkSwap

/-- Readings, planners, axes, emulation and the Square's part of a cycle start. DEDUCED, log entry 10. -/
def State.motionPart (s : State) : State :=
  let s := (s.fillPorts.fbCycle.motionCycle).axCycle
  ((s.emuPush (fun c => c / 4096 == 4) (s.applyAt s.cycle)).squareCycle).shedStandstill

/-- The work of a cycle start. DEDUCED, log entry 10. -/
def State.cycleWork (s : State) : State :=
  let s := (s.lineCycle).events false
  let s := s.spreadInc.graphCycle.motionPart
  ((s.fireFull.txObjects).linkBeat.engineCycle).cycleTicks

/-- CYCLE_START (R28, R34): the first tick of a new cycle number. DEDUCED, log entry 10. DEDUCED, log entry 68. -/
def cycleStart (s : State) : State :=
  if s.dev.phase ≠ .up ∨ !s.time.running ∨ s.cycle = s.time.lastCycle then s
  else ({ s with time := { s.time with lastCycle := s.cycle, ptpOut := [] } } : State).cycleWork

/-- SUBSTITUTE_CYCLE_START (R53): events and commands, while the time unit stands still. -/
def substituteCycleStart (s : State) : State :=
  if s.dev.phase ≠ .up ∨ s.time.running then s else s.events true

end Sys2Proof.Machine
end

