-- ==== Sys2Proof/Machine/ExecCellTime.lean ====
section
/-! DEFINITION. Meanings of the commands of the opcode table: cell time. -/

namespace Sys2Proof.Machine

/-- TIME_TICK (R32). -/
def execTimeTick (s : State) : Host.Outcome State Fault Refusal :=
  .next (timeTick s)

/-- CYCLE_START (R34). -/
def execCycleStart (s : State) : Host.Outcome State Fault Refusal :=
  .next (cycleStart s)

/-- SUBSTITUTE_CYCLE_START (R53). -/
def execSubstituteCycleStart (s : State) : Host.Outcome State Fault Refusal :=
  .next (substituteCycleStart s)

/-- TIME_SET (R37). -/
def execTimeSet (rq : Requester) (t : Time96) (s : State) : Host.Outcome State Fault Refusal :=
  .next (timeSet rq t s)

/-- TIME_INC_WRITE (R33). -/
def execTimeIncWrite (rq : Requester) (v : W32) (s : State) : Host.Outcome State Fault Refusal :=
  .next (timeIncWrite rq v s)

/-- PHASE_SLEW (R36). -/
def execPhaseSlew (rq : Requester) (v : W64) (s : State) : Host.Outcome State Fault Refusal :=
  .next (phaseSlew rq v s)

/-- CELL_REF_WRITE (R49). -/
def execCellRefWrite (rq : Requester) (v : Byte) (s : State) : Host.Outcome State Fault Refusal :=
  .next (cellRefWrite rq v s)

/-- PTP_MESSAGE (R45). -/
def execPtpMessage (m : PtpMsg) (s : State) : Host.Outcome State Fault Refusal :=
  .next (ptpMessage m s)

/-- TIME_EXCHANGE (R46). -/
def execTimeExchange (x : Exchange) (s : State) : Host.Outcome State Fault Refusal :=
  .next (timeExchange x s)

/-- DOM_UPDATE_TIMEOUT (R47). -/
def execDomUpdateTimeout (d : Fin 2) (s : State) : Host.Outcome State Fault Refusal :=
  .next (domUpdateTimeout d s)

/-- DOM_HOLDOVER_EXPIRY (R47). -/
def execDomHoldoverExpiry (d : Fin 2) (s : State) : Host.Outcome State Fault Refusal :=
  .next (domHoldoverExpiry d s)

/-- CLOCK_WATCH_WINDOW (R467). -/
def execClockWatchWindow (w : Watcher) (count : W16) (s : State) : Host.Outcome State Fault Refusal :=
  .next (clockWatchWindow w count s)

/-- CLOCK_EDGE_TIMEOUT (R467). -/
def execClockEdgeTimeout (w : Watcher) (s : State) : Host.Outcome State Fault Refusal :=
  .next (clockEdgeTimeout w s)

/-- CLK_RATIO_WINDOW (R468). -/
def execClkRatioWindow (count : W32) (s : State) : Host.Outcome State Fault Refusal :=
  .next (clkRatioWindow count s)

/-- PLL_LOCK_LOSS (R466). -/
def execPllLockLoss (pll : Pll) (s : State) : Host.Outcome State Fault Refusal :=
  .next (pllLockLoss pll s)

end Sys2Proof.Machine
end

