-- ==== Sys2Proof/Machine/ExecCounter.lean ====
section
/-! DEFINITION. Meanings of the commands of the opcode table: performance counters. -/

namespace Sys2Proof.Machine

/-- CNT_SEL (R270). -/
def execCntSel (rq : Requester) (e : Fin 82) (sel : Bytes) (s : State) : Host.Outcome State Fault Refusal :=
  .next (cntSel rq e sel s)

/-- CNT_BLOCK (R273). -/
def execCntBlock (rq : Requester) (e : Fin 82) (s : State) : Host.Outcome State Fault Refusal :=
  .next (cntBlock rq e s)

/-- CNT_CLEAR (R277). -/
def execCntClear (rq : Requester) (e : Fin 82) (v : Byte) (s : State) : Host.Outcome State Fault Refusal :=
  .next (cntClear rq e v s)

/-- CNT_CLEAR_ALL (R277). -/
def execCntClearAll (rq : Requester) (v : Byte) (s : State) : Host.Outcome State Fault Refusal :=
  .next (cntClearAll rq v s)

end Sys2Proof.Machine
end

