-- ==== Sys2Proof/Machine/ExecDeviceCmd.lean ====
section
/-! DEFINITION. Meanings of the commands of the opcode table: device commands. -/

namespace Sys2Proof.Machine

/-- CFG_OPEN (R25). -/
def execCfgOpen (rq : Requester) (s : State) : Host.Outcome State Fault Refusal :=
  .next (cfgOpen rq s)

/-- CFG_COMMIT (R25). -/
def execCfgCommit (rq : Requester) (peer : Option PeerInfo) (s : State) : Host.Outcome State Fault Refusal :=
  .next (cfgCommit rq peer s)

/-- CFG_ABORT (R25). -/
def execCfgAbort (rq : Requester) (s : State) : Host.Outcome State Fault Refusal :=
  .next (cfgAbort rq s)

/-- RUN_ENABLE (R25). -/
def execRunEnable (rq : Requester) (s : State) : Host.Outcome State Fault Refusal :=
  .next (runEnable rq s)

/-- HOLD_REQ (R25). -/
def execHoldReq (rq : Requester) (s : State) : Host.Outcome State Fault Refusal :=
  .next (holdReq rq s)

/-- RESUME (R25). -/
def execResume (rq : Requester) (s : State) : Host.Outcome State Fault Refusal :=
  .next (resumeCmd rq s)

/-- STOP_REQ (R25). -/
def execStopReq (rq : Requester) (s : State) : Host.Outcome State Fault Refusal :=
  .next (stopReq rq s)

/-- DEV_RESET (R25). -/
def execDevReset (rq : Requester) (failed : W64) (s : State) : Host.Outcome State Fault Refusal :=
  .next (devReset rq failed s)

/-- SVC_ENTER (R25). -/
def execSvcEnter (rq : Requester) (s : State) : Host.Outcome State Fault Refusal :=
  .next (svcEnter rq s)

/-- SVC_LEAVE (R25). -/
def execSvcLeave (rq : Requester) (s : State) : Host.Outcome State Fault Refusal :=
  .next (svcLeave rq s)

/-- PLANNED_SWAP (R378). -/
def execPlannedSwap (rq : Requester) (peer : Option PeerInfo) (s : State) : Host.Outcome State Fault Refusal :=
  .next (plannedSwap rq peer s)

/-- DETACH (R374). -/
def execDetach (rq : Requester) (s : State) : Host.Outcome State Fault Refusal :=
  .next (detach rq s)

/-- SYNC_COMPLETE (R27). -/
def execSyncComplete (s : State) : Host.Outcome State Fault Refusal :=
  .next (syncComplete s)

/-- SYNC_TIMEOUT (R25). -/
def execSyncTimeout (s : State) : Host.Outcome State Fault Refusal :=
  .next (syncTimeout s)

end Sys2Proof.Machine
end

