-- ==== Sys2Proof/Machine/ExecEventCmd.lean ====
section
/-! DEFINITION. Meanings of the commands of the opcode table: links, supplies and remaining events. -/

namespace Sys2Proof.Machine

/-- CODE_GROUP_SYNC_ACQUIRED (R118). -/
def execCodeGroupSyncAcquired (st : Station) (side : Side) (s : State) : Host.Outcome State Fault Refusal :=
  .next (codeGroupSyncAcquired st side s)

/-- S4_STANDSTILL_TIMEOUT (R481). -/
def execS4StandstillTimeout (s : State) : Host.Outcome State Fault Refusal :=
  .next (s4StandstillTimeout s)

/-- SP_WATCHDOG_EXPIRY (R312). -/
def execSpWatchdogExpiry (s : State) : Host.Outcome State Fault Refusal :=
  .next (spWatchdogExpiry s)

/-- PERIODIC_SELF_TEST (R312). -/
def execPeriodicSelfTest (u : TestUnit) (ok : Bool) (s : State) : Host.Outcome State Fault Refusal :=
  .next (periodicSelfTest u ok s)

/-- DEVICE_FAULT_DETECTED (R25). -/
def execDeviceFaultDetected (k : HwFault) (unit : Byte) (detail : W32) (s : State) : Host.Outcome State Fault Refusal :=
  .next (deviceFaultDetected k unit detail s)

/-- POWER_ON_DETECTOR (R462). -/
def execPowerOnDetector (rail : Rail) (atNs : Nat) (s : State) : Host.Outcome State Fault Refusal :=
  .next (powerOnDetector rail atNs s)

/-- BOOT_FLASH_OPERATION_DONE (R449). -/
def execBootFlashOperationDone (ok : Bool) (s : State) : Host.Outcome State Fault Refusal :=
  .next (bootFlashOperationDone ok s)

/-- INDIRECT_TRANSFER_DONE (R412). -/
def execIndirectTransferDone (s : State) : Host.Outcome State Fault Refusal :=
  .next (indirectTransferDone s)

/-- PMC_WRAP (R270). -/
def execPmcWrap (e : Fin 82) (k : Fin 6) (s : State) : Host.Outcome State Fault Refusal :=
  .next (pmcWrap e k s)

end Sys2Proof.Machine
end

