-- ==== Sys2Proof/Machine/ExecFrame.lean ====
section
/-! DEFINITION. Meanings of the commands of the opcode table: Wadra frames. -/

namespace Sys2Proof.Machine

/-- FRAME_RECEIVE (R82). -/
def execFrameReceive (ingress : Ingress) (startOk : Bool) (bytes : Bytes) (endOk : Bool) (stamp : Time96) (software : Bool) (s : State) : Host.Outcome State Fault Refusal :=
  .next (frameReceive ingress startOk bytes endOk stamp software s)

/-- SYNC (R104). -/
def execSync (st : Station) (port : Side) (f : Frame) (s : State) : Host.Outcome State Fault Refusal :=
  .next (sync st port f s)

/-- DATA (R117). -/
def execData (f : Frame) (stamp : Time96) (s : State) : Host.Outcome State Fault Refusal :=
  .next (dataFrame f stamp s)

/-- REPEAT (R116). -/
def execRepeat (f : Frame) (stamp : Time96) (s : State) : Host.Outcome State Fault Refusal :=
  .next (repeatFrame f stamp s)

/-- NULL (R116). -/
def execNull (f : Frame) (s : State) : Host.Outcome State Fault Refusal :=
  .next (nullFrame f s)

/-- START (R97). -/
def execStart (st : Station) (f : Frame) (s : State) : Host.Outcome State Fault Refusal :=
  .next (startFrame st f s)

/-- EVENT (R405). -/
def execEvent (f : Frame) (s : State) : Host.Outcome State Fault Refusal :=
  .next (event f s)

/-- HB (R364). -/
def execHb (path : HbPath) (f : Frame) (s : State) : Host.Outcome State Fault Refusal :=
  .next (hb path f s)

/-- DELAY_REQUEST (R101). -/
def execDelayRequest (st : Station) (f : Frame) (ingress : Time96) (egress : Time96) (s : State) : Host.Outcome State Fault Refusal :=
  .next (delayRequest st f ingress egress s)

/-- DELAY_RESPONSE (R102). -/
def execDelayResponse (f : Frame) (t4 : Time96) (software : Bool) (s : State) : Host.Outcome State Fault Refusal :=
  .next (delayResponse f t4 software s)

/-- DELAY_ROUND (R103). -/
def execDelayRound (ring : RingId) (s : State) : Host.Outcome State Fault Refusal :=
  .next (delayRound ring s)

/-- SAFETY_COMMAND (R333). -/
def execSafetyCommand (ring : RingId) (addr : BitVec 10) (f : Frame) (ownCycle : W32) (s : State) : Host.Outcome State Fault Refusal :=
  .next (safetyCommand ring addr f ownCycle s)

/-- SAFETY_STATUS (R334). -/
def execSafetyStatus (f : Frame) (s : State) : Host.Outcome State Fault Refusal :=
  .next (safetyStatus f s)

/-- FORWARDED_REQUEST (R371). -/
def execForwardedRequest (f : Frame) (s : State) : Host.Outcome State Fault Refusal :=
  .next (forwardedRequest f s)

/-- FORWARD_ACK (R363). -/
def execForwardAck (f : Frame) (s : State) : Host.Outcome State Fault Refusal :=
  .next (forwardAck f s)

/-- NODE_STATUS_SHARE (R363). -/
def execNodeStatusShare (f : Frame) (s : State) : Host.Outcome State Fault Refusal :=
  .next (nodeStatusShare f s)

/-- SLOT_OCCURRENCE (R116). -/
def execSlotOccurrence (ring : RingId) (slot : BitVec 12) (seen : SlotSeen) (s : State) : Host.Outcome State Fault Refusal :=
  .next (slotOccurrence ring slot seen s)

/-- REJOIN_HOLD_EXPIRY (R112). -/
def execRejoinHoldExpiry (ring : RingId) (addr : BitVec 10) (s : State) : Host.Outcome State Fault Refusal :=
  .next (rejoinHoldExpiry ring addr s)

/-- ARB_INSERT (R71). -/
def execArbInsert (st : Station) (ch : Channel) (offsetNs : Nat) (idle : Bool) (f : Frame) (s : State) : Host.Outcome State Fault Refusal :=
  .next (arbInsert st ch offsetNs idle f s)

/-- ARB_LAST_DISCARD (R71). -/
def execArbLastDiscard (st : Station) (ch : Channel) (s : State) : Host.Outcome State Fault Refusal :=
  .next (arbLastDiscard st ch s)

/-- GUARD_CUT (R108). -/
def execGuardCut (st : Station) (side : Side) (s : State) : Host.Outcome State Fault Refusal :=
  .next (guardCut st side s)

/-- COLDSTART_LISTEN_TIMEOUT (R97). -/
def execColdstartListenTimeout (st : Station) (s : State) : Host.Outcome State Fault Refusal :=
  .next (coldstartListenTimeout st s)

/-- COLDSTART_COMPLETE (R97). -/
def execColdstartComplete (st : Station) (s : State) : Host.Outcome State Fault Refusal :=
  .next (coldstartComplete st s)

/-- BACKOFF_ELAPSED (R97). -/
def execBackoffElapsed (st : Station) (s : State) : Host.Outcome State Fault Refusal :=
  .next (backoffElapsed st s)

/-- SYNC_LOSS (R105). -/
def execSyncLoss (loss : SyncLossAt) (s : State) : Host.Outcome State Fault Refusal :=
  .next (syncLoss loss.st loss.matrices s)

/-- NODE_DELAY_WRITE (R105). -/
def execNodeDelayWrite (ring : RingId) (addr : BitVec 10) (value : Bytes) (s : State) : Host.Outcome State Fault Refusal :=
  .next (nodeDelayWrite ring addr value s)

/-- NODE_ASSIGN_WRITE (R105). -/
def execNodeAssignWrite (ring : RingId) (addr : BitVec 10) (value : Bytes) (s : State) : Host.Outcome State Fault Refusal :=
  .next (nodeAssignWrite ring addr value s)

/-- EXCLUDE (R105). -/
def execExclude (ring : RingId) (ctrl : NodeCtrl) (s : State) : Host.Outcome State Fault Refusal :=
  .next (excludeNode ring ctrl.addr ctrl.value s)

/-- LINK_LOSS (R118). -/
def execLinkLoss (st : Station) (side : Side) (s : State) : Host.Outcome State Fault Refusal :=
  .next (linkLoss st side s)

/-- LINK_UP (R118). -/
def execLinkUp (st : Station) (side : Side) (s : State) : Host.Outcome State Fault Refusal :=
  .next (linkUp st side s)

/-- BREAK_PATTERN_TIMEOUT (R522). -/
def execBreakPatternTimeout (ring : RingId) (s : State) : Host.Outcome State Fault Refusal :=
  .next (breakPatternTimeout ring s)

/-- EVENT_RESEND (R405). -/
def execEventResend (ring : RingId) (addr : BitVec 10) (s : State) : Host.Outcome State Fault Refusal :=
  .next (eventResend ring addr s)

end Sys2Proof.Machine
end

