-- ==== Sys2Proof/Machine/ExecJunctionCmd.lean ====
section
/-! DEFINITION. Meanings of the commands of the opcode table: Junction. -/

namespace Sys2Proof.Machine

/-- TOKEN_ARRIVAL (R228). -/
def execTokenArrival (inst : Fin 1024) (port : Fin 8) (t : Token) (s : State) : Host.Outcome State Fault Refusal :=
  .next (tokenArrival inst port t s)

/-- RX_DEADLINE_SUBSTITUTION (R230). -/
def execRxDeadlineSubstitution (s : State) : Host.Outcome State Fault Refusal :=
  .next (rxDeadlineSubstitution s)

/-- RELEASE_TICK (R233). -/
def execReleaseTick (tick : Nat) (s : State) : Host.Outcome State Fault Refusal :=
  .next (releaseTick tick s)

/-- TASK_START (R234). -/
def execTaskStart (lane : Fin 64) (s : State) : Host.Outcome State Fault Refusal :=
  .next (taskStart lane s)

/-- TASK_ABORT (R237). -/
def execTaskAbort (inst : Fin 1024) (s : State) : Host.Outcome State Fault Refusal :=
  .next (taskAbort inst s)

/-- DMA_DONE (R267). -/
def execDmaDone (lane : Fin 64) (s : State) : Host.Outcome State Fault Refusal :=
  .next (dmaDone lane s)

end Sys2Proof.Machine
end

