-- ==== Sys2Proof/Machine/ExecLaneIsa.lean ====
section
/-! DEFINITION. Meanings of the commands of the opcode table: Lane instructions. -/

namespace Sys2Proof.Machine

/-- ADD (R258). -/
def execAdd (l : Fin 64) (w : LaneR) (s : State) : Host.Outcome State Fault Refusal :=
  .next (laneAdd l w s)

/-- SUB (R258). -/
def execSub (l : Fin 64) (w : LaneR) (s : State) : Host.Outcome State Fault Refusal :=
  .next (laneSub l w s)

/-- AND (R258). -/
def execAnd (l : Fin 64) (w : LaneR) (s : State) : Host.Outcome State Fault Refusal :=
  .next (laneAnd l w s)

/-- OR (R258). -/
def execOr (l : Fin 64) (w : LaneR) (s : State) : Host.Outcome State Fault Refusal :=
  .next (laneOr l w s)

/-- XOR (R258). -/
def execXor (l : Fin 64) (w : LaneR) (s : State) : Host.Outcome State Fault Refusal :=
  .next (laneXor l w s)

/-- SHL (R259). -/
def execShl (l : Fin 64) (w : LaneR) (s : State) : Host.Outcome State Fault Refusal :=
  .next (laneShl l w s)

/-- SHR (R258). -/
def execShr (l : Fin 64) (w : LaneR) (s : State) : Host.Outcome State Fault Refusal :=
  .next (laneShr l w s)

/-- SAR (R258). -/
def execSar (l : Fin 64) (w : LaneR) (s : State) : Host.Outcome State Fault Refusal :=
  .next (laneSar l w s)

/-- MUL (R259). -/
def execMul (l : Fin 64) (w : LaneR) (s : State) : Host.Outcome State Fault Refusal :=
  .next (laneMul l w s)

/-- MULQ (R259). -/
def execMulq (l : Fin 64) (w : LaneR) (s : State) : Host.Outcome State Fault Refusal :=
  .next (laneMulq l w s)

/-- ABS (R259). -/
def execAbs (l : Fin 64) (w : LaneR) (s : State) : Host.Outcome State Fault Refusal :=
  .next (laneAbs l w s)

/-- NORM (R260). -/
def execNorm (l : Fin 64) (w : LaneR) (s : State) : Host.Outcome State Fault Refusal :=
  .next (laneNorm l w s)

/-- EXP (R260). -/
def execExp (l : Fin 64) (w : LaneR) (s : State) : Host.Outcome State Fault Refusal :=
  .next (laneExp l w s)

/-- MAC (R259). -/
def execMac (l : Fin 64) (w : LaneR) (s : State) : Host.Outcome State Fault Refusal :=
  .next (laneMac l w s)

/-- MSU (R259). -/
def execMsu (l : Fin 64) (w : LaneR) (s : State) : Host.Outcome State Fault Refusal :=
  .next (laneMsu l w s)

/-- MOVTA (R258). -/
def execMovta (l : Fin 64) (w : LaneR) (s : State) : Host.Outcome State Fault Refusal :=
  .next (laneMovta l w s)

/-- MOVA (R261). -/
def execMova (l : Fin 64) (w : LaneR) (s : State) : Host.Outcome State Fault Refusal :=
  .next (laneMova l w s)

/-- EXPA (R260). -/
def execExpa (l : Fin 64) (w : LaneR) (s : State) : Host.Outcome State Fault Refusal :=
  .next (laneExpa l w s)

/-- FADD (R262). -/
def execFadd (l : Fin 64) (w : LaneR) (s : State) : Host.Outcome State Fault Refusal :=
  .next (laneFadd l w s)

/-- FSUB (R262). -/
def execFsub (l : Fin 64) (w : LaneR) (s : State) : Host.Outcome State Fault Refusal :=
  .next (laneFsub l w s)

/-- FMUL (R262). -/
def execFmul (l : Fin 64) (w : LaneR) (s : State) : Host.Outcome State Fault Refusal :=
  .next (laneFmul l w s)

/-- FMA (R262). -/
def execFma (l : Fin 64) (w : LaneR) (s : State) : Host.Outcome State Fault Refusal :=
  .next (laneFma l w s)

/-- FMS (R262). -/
def execFms (l : Fin 64) (w : LaneR) (s : State) : Host.Outcome State Fault Refusal :=
  .next (laneFms l w s)

/-- FDIV (R262). -/
def execFdiv (l : Fin 64) (w : LaneR) (s : State) : Host.Outcome State Fault Refusal :=
  .next (laneFdiv l w s)

/-- FSQRT (R262). -/
def execFsqrt (l : Fin 64) (w : LaneR) (s : State) : Host.Outcome State Fault Refusal :=
  .next (laneFsqrt l w s)

/-- FMIN (R262). -/
def execFmin (l : Fin 64) (w : LaneR) (s : State) : Host.Outcome State Fault Refusal :=
  .next (laneFmin l w s)

/-- FMAX (R262). -/
def execFmax (l : Fin 64) (w : LaneR) (s : State) : Host.Outcome State Fault Refusal :=
  .next (laneFmax l w s)

/-- FCMPLT (R262). -/
def execFcmplt (l : Fin 64) (w : LaneR) (s : State) : Host.Outcome State Fault Refusal :=
  .next (laneFcmplt l w s)

/-- FNORM (R262). -/
def execFnorm (l : Fin 64) (w : LaneR) (s : State) : Host.Outcome State Fault Refusal :=
  .next (laneFnorm l w s)

/-- FEXP (R262). -/
def execFexp (l : Fin 64) (w : LaneR) (s : State) : Host.Outcome State Fault Refusal :=
  .next (laneFexp l w s)

/-- FTOI (R262). -/
def execFtoi (l : Fin 64) (w : LaneR) (s : State) : Host.Outcome State Fault Refusal :=
  .next (laneFtoi l w s)

/-- ITOF (R262). -/
def execItof (l : Fin 64) (w : LaneR) (s : State) : Host.Outcome State Fault Refusal :=
  .next (laneItof l w s)

/-- DMAGO (R266). -/
def execDmago (l : Fin 64) (w : LaneR) (s : State) : Host.Outcome State Fault Refusal :=
  .next (laneDmago l w s)

/-- DMAWT (R258). -/
def execDmawt (l : Fin 64) (w : LaneR) (s : State) : Host.Outcome State Fault Refusal :=
  .next (laneDmawt l w s)

/-- END (R255). -/
def execEndTask (l : Fin 64) (w : LaneR) (s : State) : Host.Outcome State Fault Refusal :=
  .next (endTask l w s)

/-- ADDI (R258). -/
def execAddi (l : Fin 64) (w : LaneI) (s : State) : Host.Outcome State Fault Refusal :=
  .next (laneAddi l w s)

/-- SHLI (R258). -/
def execShli (l : Fin 64) (w : LaneI) (s : State) : Host.Outcome State Fault Refusal :=
  .next (laneShli l w s)

/-- SARI (R258). -/
def execSari (l : Fin 64) (w : LaneI) (s : State) : Host.Outcome State Fault Refusal :=
  .next (laneSari l w s)

/-- ANDI (R258). -/
def execAndi (l : Fin 64) (w : LaneI) (s : State) : Host.Outcome State Fault Refusal :=
  .next (laneAndi l w s)

/-- RDCNT (R275). -/
def execRdcnt (l : Fin 64) (w : LaneI) (s : State) : Host.Outcome State Fault Refusal :=
  .next (laneRdcnt l w s)

/-- LD (R256). -/
def execLd (l : Fin 64) (w : LaneM) (s : State) : Host.Outcome State Fault Refusal :=
  .next (laneLd l w s)

/-- ST (R256). -/
def execSt (l : Fin 64) (w : LaneM) (s : State) : Host.Outcome State Fault Refusal :=
  .next (laneSt l w s)

/-- LDH (R256). -/
def execLdh (l : Fin 64) (w : LaneM) (s : State) : Host.Outcome State Fault Refusal :=
  .next (laneLdh l w s)

/-- STH (R256). -/
def execSth (l : Fin 64) (w : LaneM) (s : State) : Host.Outcome State Fault Refusal :=
  .next (laneSth l w s)

/-- LI (R258). -/
def execLi (l : Fin 64) (w : LaneB) (s : State) : Host.Outcome State Fault Refusal :=
  .next (laneLi l w s)

/-- LIH (R258). -/
def execLih (l : Fin 64) (w : LaneB) (s : State) : Host.Outcome State Fault Refusal :=
  .next (laneLih l w s)

/-- BZ (R258). -/
def execBz (l : Fin 64) (w : LaneB) (s : State) : Host.Outcome State Fault Refusal :=
  .next (laneBz l w s)

/-- BNZ (R258). -/
def execBnz (l : Fin 64) (w : LaneB) (s : State) : Host.Outcome State Fault Refusal :=
  .next (laneBnz l w s)

/-- BLT (R258). -/
def execBlt (l : Fin 64) (w : LaneB) (s : State) : Host.Outcome State Fault Refusal :=
  .next (laneBlt l w s)

/-- BLOOP (R265). -/
def execBloop (l : Fin 64) (w : LaneB) (s : State) : Host.Outcome State Fault Refusal :=
  .next (laneBloop l w s)

end Sys2Proof.Machine
end

