-- ==== Sys2Proof/Machine/ExecMessage.lean ====
section
/-! DEFINITION. Meanings of the commands of the opcode table: dictionary messages. -/

namespace Sys2Proof.Machine

/-- READ (R400). -/
def execRead (rq : Requester) (m : DictMsg) (s : State) : Host.Outcome State Fault Refusal :=
  .next (readCmd rq m s)

/-- WRITE (R399). -/
def execWrite (rq : Requester) (m : DictMsg) (s : State) : Host.Outcome State Fault Refusal :=
  .next (writeCmd rq m s)

/-- SEG_READ (R400). -/
def execSegRead (rq : Requester) (m : DictMsg) (s : State) : Host.Outcome State Fault Refusal :=
  .next (segReadCmd rq m s)

/-- SEG_WRITE (R399). -/
def execSegWrite (rq : Requester) (m : DictMsg) (s : State) : Host.Outcome State Fault Refusal :=
  .next (segWriteCmd rq m s)

/-- DESC (R397). -/
def execDesc (rq : Requester) (m : DictMsg) (s : State) : Host.Outcome State Fault Refusal :=
  .next (descCmd rq m s)

/-- CANCEL (R396). -/
def execCancel (rq : Requester) (m : DictMsg) (s : State) : Host.Outcome State Fault Refusal :=
  .next (cancelCmd rq m s)

/-- EVT_ACK (R405). -/
def execEvtAck (ring : RingId) (addr : BitVec 10) (head : Bytes) (s : State) : Host.Outcome State Fault Refusal :=
  .next (evtAck ring addr head s)

/-- PENDING (R403). -/
def execPending (k : OutKey) (tid : W16) (s : State) : Host.Outcome State Fault Refusal :=
  .next (pendingCmd k tid s)

/-- DICT_FINAL_RESPONSE (R401). -/
def execDictFinalResponse (k : OutKey) (m : DictMsg) (s : State) : Host.Outcome State Fault Refusal :=
  .next (dictFinalResponse k m s)

/-- ABORT (R425). -/
def execAbort (k : OutKey) (tid : W16) (code : W32) (s : State) : Host.Outcome State Fault Refusal :=
  .next (abortCmd k tid code s)

/-- DICT_RESPONSE_TIMEOUT (R403). -/
def execDictResponseTimeout (k : OutKey) (s : State) : Host.Outcome State Fault Refusal :=
  .next (dictResponseTimeout k s)

/-- XFER_TIMEOUT (R399). -/
def execXferTimeout (rq : Requester) (s : State) : Host.Outcome State Fault Refusal :=
  .next (xferTimeout rq s)

/-- SERVICE_DATAGRAM (R406). -/
def execServiceDatagram (ip : W32) (port : W16) (dstPort : W16) (m : DictMsg) (s : State) : Host.Outcome State Fault Refusal :=
  .next (serviceDatagram ip port dstPort m s)

/-- ARP_REQUEST (R406). -/
def execArpRequest (targetIp : W32) (senderIp : W32) (s : State) : Host.Outcome State Fault Refusal :=
  .next (arpRequest targetIp senderIp s)

/-- ICMP_ECHO (R406). -/
def execIcmpEcho (srcIp : W32) (dstIp : W32) (payload : Bytes) (s : State) : Host.Outcome State Fault Refusal :=
  .next (icmpEcho srcIp dstIp payload s)

/-- SESSION_TIMEOUT (R406). -/
def execSessionTimeout (ip : W32) (port : W16) (s : State) : Host.Outcome State Fault Refusal :=
  .next (sessionTimeout ip port s)

end Sys2Proof.Machine
end

