-- ==== Sys2Proof/Machine/ExecMonitorCmd.lean ====
section
/-! DEFINITION. Meanings of the commands of the opcode table: monitor and Lamplighter. -/

namespace Sys2Proof.Machine

/-- ADC_CONVERSION (R471). -/
def execAdcConversion (slot : Nat) (v : W16) (s : State) : Host.Outcome State Fault Refusal :=
  .next (adcConversion slot v s)

/-- INJECTED_CONVERSION (R475). -/
def execInjectedConversion (slot : Nat) (v : W16) (s : State) : Host.Outcome State Fault Refusal :=
  .next (injectedConversion slot v s)

/-- SHED_REENABLE (R482). -/
def execShedReenable (rq : Requester) (v : Byte) (s : State) : Host.Outcome State Fault Refusal :=
  .next (shedReenable rq v s)

/-- MON_CAL_CMD (R476). -/
def execMonCalCmd (rq : Requester) (v : Byte) (s : State) : Host.Outcome State Fault Refusal :=
  .next (monCalCmd rq v s)

/-- MON_CAL_PERIOD_EXPIRY (R476). -/
def execMonCalPeriodExpiry (s : State) : Host.Outcome State Fault Refusal :=
  .next (monCalPeriodExpiry s)

/-- SLICE_CALIBRATION_DONE (R476). -/
def execSliceCalibrationDone (offset : W16) (gain : W16) (skew : Byte) (s : State) : Host.Outcome State Fault Refusal :=
  .next (sliceCalibrationDone offset gain skew s)

/-- SYSCAL_STEP1 (R478). -/
def execSyscalStep1 (rq : Requester) (g : Byte) (microvolt : W32) (s : State) : Host.Outcome State Fault Refusal :=
  .next (syscalStep1 rq g microvolt s)

/-- SYSCAL_STEP2 (R478). -/
def execSyscalStep2 (rq : Requester) (g : Byte) (microvolt : W32) (s : State) : Host.Outcome State Fault Refusal :=
  .next (syscalStep2 rq g microvolt s)

/-- SYSCAL_AVERAGE_DONE (R478). -/
def execSyscalAverageDone (s : State) : Host.Outcome State Fault Refusal :=
  .next (syscalAverageDone s)

/-- MON_WINDOW_END (R479). -/
def execMonWindowEnd (c : Fin 32) (s : State) : Host.Outcome State Fault Refusal :=
  .next (monWindowEnd c s)

/-- DOMAIN_WAKE (R469). -/
def execDomainWake (d : Burst) (s : State) : Host.Outcome State Fault Refusal :=
  .next (domainWake d s)

/-- DOMAIN_GATE_OFF (R470). -/
def execDomainGateOff (d : Burst) (s : State) : Host.Outcome State Fault Refusal :=
  .next (domainGateOff d s)

end Sys2Proof.Machine
end

