-- ==== Sys2Proof/Machine/ExecMove.lean ====
section
/-! DEFINITION. Meanings of the commands of the opcode table: motion. -/

namespace Sys2Proof.Machine

/-- MOVE_JOINT (R142). -/
def execMoveJoint (rq : Requester) (t : MoveTarget) (d : Bytes) (s : State) : Host.Outcome State Fault Refusal :=
  .next (moveCmd 1 rq t d s)

/-- MOVE_LINEAR (R143). -/
def execMoveLinear (rq : Requester) (t : MoveTarget) (d : Bytes) (s : State) : Host.Outcome State Fault Refusal :=
  .next (moveCmd 2 rq t d s)

/-- MOVE_CIRCULAR (R143). -/
def execMoveCircular (rq : Requester) (t : MoveTarget) (d : Bytes) (s : State) : Host.Outcome State Fault Refusal :=
  .next (moveCmd 3 rq t d s)

/-- MOVE_SEGMENT (R150). -/
def execMoveSegment (rq : Requester) (t : MoveTarget) (d : Bytes) (s : State) : Host.Outcome State Fault Refusal :=
  .next (moveCmd 4 rq t d s)

/-- MOVE_CAM (R154). -/
def execMoveCam (rq : Requester) (t : MoveTarget) (d : Bytes) (s : State) : Host.Outcome State Fault Refusal :=
  .next (moveCmd 5 rq t d s)

/-- MOVE_STOP (R145). -/
def execMoveStop (rq : Requester) (t : MoveTarget) (d : Bytes) (s : State) : Host.Outcome State Fault Refusal :=
  .next (moveCmd 6 rq t d s)

/-- JOG_CMD (R524). -/
def execJogCmd (rq : Requester) (a : Fin 8) (d : Bytes) (s : State) : Host.Outcome State Fault Refusal :=
  .next (jogCmd rq a d s)

/-- JOG_TIMEOUT (R524). -/
def execJogTimeout (a : Fin 8) (s : State) : Host.Outcome State Fault Refusal :=
  .next (jogTimeout a s)

/-- GRP_CLOSE (R156). -/
def execGrpClose (rq : Requester) (g : Fin 4) (s : State) : Host.Outcome State Fault Refusal :=
  .next (grpClose rq g s)

/-- GRP_OPEN (R156). -/
def execGrpOpen (rq : Requester) (g : Fin 4) (s : State) : Host.Outcome State Fault Refusal :=
  .next (grpOpen rq g s)

/-- SEG_TABLE_WRITE (R149). -/
def execSegTableWrite (rq : Requester) (n : Fin 256) (d : Bytes) (s : State) : Host.Outcome State Fault Refusal :=
  .next (segTableWrite rq n d s)

/-- CAM_TABLE_WRITE (R151). -/
def execCamTableWrite (rq : Requester) (n : Fin 256) (d : Bytes) (s : State) : Host.Outcome State Fault Refusal :=
  .next (camTableWrite rq n d s)

/-- HC_SWITCH_ON (R162). -/
def execHcSwitchOn (rq : Requester) (c : Fin 32) (s : State) : Host.Outcome State Fault Refusal :=
  .next (hcSwitchOn rq c s)

/-- HC_SWITCH_OFF (R162). -/
def execHcSwitchOff (rq : Requester) (c : Fin 32) (s : State) : Host.Outcome State Fault Refusal :=
  .next (hcSwitchOff rq c s)

end Sys2Proof.Machine
end

