-- ==== Sys2Proof/Machine/ExecPairCmd.lean ====
section
/-! DEFINITION. Meanings of the commands of the opcode table: redundant pair. -/

namespace Sys2Proof.Machine

/-- ILK_PEER_CHANGE (R361). -/
def execIlkPeerChange (level : Bool) (s : State) : Host.Outcome State Fault Refusal :=
  .next (ilkPeerChange level s)

/-- HOLDOFF_ELAPSED (R361). -/
def execHoldoffElapsed (s : State) : Host.Outcome State Fault Refusal :=
  .next (holdoffElapsed s)

/-- CLAIM_WD_TRIP (R359). -/
def execClaimWdTrip (cause : WdCause) (s : State) : Host.Outcome State Fault Refusal :=
  .next (claimWdTrip cause s)

/-- HB_PATH_LOSS (R364). -/
def execHbPathLoss (path : HbPath) (s : State) : Host.Outcome State Fault Refusal :=
  .next (hbPathLoss path s)

/-- PARTNER_ABSENT (R362). -/
def execPartnerAbsent (s : State) : Host.Outcome State Fault Refusal :=
  .next (partnerAbsent s)

/-- CMD_UNACKED (R371). -/
def execCmdUnacked (s : State) : Host.Outcome State Fault Refusal :=
  .next (cmdUnacked s)

/-- DETACH_EFFECT (R374). -/
def execDetachEffect (s : State) : Host.Outcome State Fault Refusal :=
  .next (detachEffect s)

/-- REJOIN_TAKEUP (R375). -/
def execRejoinTakeup (peer : Option PeerInfo) (s : State) : Host.Outcome State Fault Refusal :=
  .next (rejoinTakeup peer s)

/-- SWAP_INSTANT (R378). -/
def execSwapInstant (s : State) : Host.Outcome State Fault Refusal :=
  .next (swapInstant s)

/-- SWAP_DUE (R379). -/
def execSwapDue (s : State) : Host.Outcome State Fault Refusal :=
  .next (swapDue s)

end Sys2Proof.Machine
end

