-- ==== Sys2Proof/Machine/ExecSafetyCmd.lean ====
section
/-! DEFINITION. Meanings of the commands of the opcode table: safety. -/

namespace Sys2Proof.Machine

/-- SAFE_SCAN (R320). -/
def execSafeScan (ch : SafeChan) (bits : BitVec 40) (s : State) : Host.Outcome State Fault Refusal :=
  .next (safeScan ch bits s)

/-- DISC_TIME_EXPIRY (R322). -/
def execDiscTimeExpiry (n : Fin 32) (s : State) : Host.Outcome State Fault Refusal :=
  .next (discTimeExpiry n s)

/-- SAFETY_CHECK_TICK (R16). -/
def execSafetyCheckTick (imageFromP : Bool) (imageFromH : Bool) (s : State) : Host.Outcome State Fault Refusal :=
  .next ((safetyCheckTick imageFromP imageFromH s).torqueCheck)

/-- DEGRADED_TIMER_EXPIRY (R346). -/
def execDegradedTimerExpiry (s : State) : Host.Outcome State Fault Refusal :=
  .next (degradedTimerExpiry s)

/-- ARM_STOP_CLEAR (R317). -/
def execArmStopClear (a : Fin 8) (s : State) : Host.Outcome State Fault Refusal :=
  .next (armStopClear a s)

/-- BRAKE_CLOSE_EXPIRY (R315). -/
def execBrakeCloseExpiry (a : Fin 8) (s : State) : Host.Outcome State Fault Refusal :=
  .next (brakeCloseExpiry a s)

/-- SS1_TMAX_EXPIRY (R315). -/
def execSs1TmaxExpiry (a : Fin 8) (s : State) : Host.Outcome State Fault Refusal :=
  .next (ss1TmaxExpiry a s)

/-- BRAKE_OPEN_EXPIRY (R337). -/
def execBrakeOpenExpiry (a : Fin 8) (s : State) : Host.Outcome State Fault Refusal :=
  .next (brakeOpenExpiry a s)

/-- BRAKE_RELEASE_TIMEOUT (R337). -/
def execBrakeReleaseTimeout (a : Fin 8) (s : State) : Host.Outcome State Fault Refusal :=
  .next (brakeReleaseTimeout a s)

/-- OUTPUT_DARK_TEST (R335). -/
def execOutputDarkTest (ch : SafeChan) (follows : W32) (s : State) : Host.Outcome State Fault Refusal :=
  .next (outputDarkTest ch follows s)

/-- READBACK_MISMATCH (R335). -/
def execReadbackMismatch (ch : SafeChan) (out : Fin 32) (s : State) : Host.Outcome State Fault Refusal :=
  .next (readbackMismatch ch out s)

/-- SWITCH_READ (R341). -/
def execSwitchRead (ch : SafeChan) (word : W32) (s : State) : Host.Outcome State Fault Refusal :=
  .next (switchRead ch word s)

/-- CONN_LOST (R334). -/
def execConnLost (n : Fin 64) (s : State) : Host.Outcome State Fault Refusal :=
  .next (connLost n s)

/-- NODE_SAFETY_WATCHDOG (R333). -/
def execNodeSafetyWatchdog (ring : RingId) (addr : BitVec 10) (ch : SafeChan) (s : State) : Host.Outcome State Fault Refusal :=
  .next (nodeSafetyWatchdog ring addr ch s)

/-- NODE_SS1_TIMER_EXPIRY (R333). -/
def execNodeSs1TimerExpiry (ring : RingId) (addr : BitVec 10) (s : State) : Host.Outcome State Fault Refusal :=
  .next (nodeSs1TimerExpiry ring addr s)

/-- SAFE_BT_CMD (R338). -/
def execSafeBtCmd (rq : Requester) (arms : Byte) (s : State) : Host.Outcome State Fault Refusal :=
  .next (safeBtCmd rq arms s)

/-- BT_COMPARE (R338). -/
def execBtCompare (s : State) : Host.Outcome State Fault Refusal :=
  .next (btCompare s)

/-- BT_DUE (R339). -/
def execBtDue (a : Fin 8) (s : State) : Host.Outcome State Fault Refusal :=
  .next (btDueAt a s)

/-- BT_OVERDUE (R339). -/
def execBtOverdue (a : Fin 8) (s : State) : Host.Outcome State Fault Refusal :=
  .next (btOverdue a s)

/-- SAFE_SET_DL (R343). -/
def execSafeSetDl (rq : Requester) (d : Bytes) (s : State) : Host.Outcome State Fault Refusal :=
  .next (safeSetDl rq d s)

end Sys2Proof.Machine
end

