-- ==== Sys2Proof/Machine/ExecSecurityCmd.lean ====
section
/-! DEFINITION. Meanings of the commands of the opcode table: recorder, boot and security. -/

namespace Sys2Proof.Machine

/-- RECORD_REQUEST (R433). -/
def execRecordRequest (source : BitVec 2) (type : W16) (software : Bool) (payload : Bytes) (s : State) : Host.Outcome State Fault Refusal :=
  .next (recordRequest source type software payload s)

/-- FLASH_PROGRAM_DONE (R433). -/
def execFlashProgramDone (r : RecRing) (ok : Bool) (s : State) : Host.Outcome State Fault Refusal :=
  .next (flashProgramDone r ok s)

/-- SECTOR_ERASE_DONE (R435). -/
def execSectorEraseDone (r : RecRing) (ok : Bool) (s : State) : Host.Outcome State Fault Refusal :=
  .next (sectorEraseDone r ok s)

/-- PERIODIC_SAVE (R438). -/
def execPeriodicSave (s : State) : Host.Outcome State Fault Refusal :=
  .next (periodicSave s)

/-- REC_CLEAR (R441). -/
def execRecClear (rq : Requester) (v : Byte) (s : State) : Host.Outcome State Fault Refusal :=
  .next (recClear rq v s)

/-- REC_SAFE_SECT (R441). -/
def execRecSafeSect (rq : Requester) (v : W32) (s : State) : Host.Outcome State Fault Refusal :=
  .next (recSafeSect rq v s)

/-- IMAGE_WRITE (R449). -/
def execImageWrite (rq : Requester) (t : ImgType) (d : Bytes) (s : State) : Host.Outcome State Fault Refusal :=
  .next (imageWrite rq t d s)

/-- SEC_CONFIRM (R450). -/
def execSecConfirm (rq : Requester) (v : Byte) (s : State) : Host.Outcome State Fault Refusal :=
  .next (secConfirm rq v s)

/-- SEC_REBOOT (R438). -/
def execSecReboot (rq : Requester) (v : Byte) (s : State) : Host.Outcome State Fault Refusal :=
  .next (secReboot rq v s)

/-- SEC_OWNER_KEY (R457). -/
def execSecOwnerKey (rq : Requester) (d : Bytes) (s : State) : Host.Outcome State Fault Refusal :=
  .next (secOwnerKey rq d s)

/-- SEC_OWNER_REVOKE (R457). -/
def execSecOwnerRevoke (rq : Requester) (v : Byte) (s : State) : Host.Outcome State Fault Refusal :=
  .next (secOwnerRevoke rq v s)

/-- SEC_DEV_LOCK (R457). -/
def execSecDevLock (rq : Requester) (v : Byte) (s : State) : Host.Outcome State Fault Refusal :=
  .next (secDevLock rq v s)

/-- ATT_NONCE (R453). -/
def execAttNonce (rq : Requester) (d : Bytes) (s : State) : Host.Outcome State Fault Refusal :=
  .next (attNonce rq d s)

/-- ATT_REPORT_DONE (R454). -/
def execAttReportDone (s : State) : Host.Outcome State Fault Refusal :=
  .next (attReportDone s)

/-- ATT_CERT (R452). -/
def execAttCert (rq : Requester) (d : Bytes) (s : State) : Host.Outcome State Fault Refusal :=
  .next (attCert rq d s)

end Sys2Proof.Machine
end

