-- ==== Sys2Proof/Machine/ExecSquareSolve.lean ====
section
/-! DEFINITION. Meanings of the commands of the opcode table: Square and solver. -/

namespace Sys2Proof.Machine

/-- CR_REQ (R217). -/
def execCrReq (rq : Requester) (a : Fin 8) (mask : W32) (s : State) : Host.Outcome State Fault Refusal :=
  .next (crReq rq a mask s)

/-- SQUARE_RUN (R194). -/
def execSquareRun (s : State) : Host.Outcome State Fault Refusal :=
  .next (squareRun s)

/-- SQ_LATE (R195). -/
def execSqLate (s : State) : Host.Outcome State Fault Refusal :=
  .next (sqLate s)

/-- SOLVE (R176). -/
def execSolve (s : State) : Host.Outcome State Fault Refusal :=
  .next (solveCmd s)

/-- SOLVER_LATE (R182). -/
def execSolverLate (s : State) : Host.Outcome State Fault Refusal :=
  .next (solverLateCmd s)

end Sys2Proof.Machine
end

