-- ==== Sys2Proof/Machine/ExecTapCmd.lean ====
section
/-! DEFINITION. Meanings of the commands of the opcode table: test access port. -/

namespace Sys2Proof.Machine

/-- EXTEST (R509). -/
def execExtest (drive : List Bool) (s : State) : Host.Outcome State Fault Refusal :=
  .next (extest drive s)

/-- IDCODE (R508). -/
def execIdcode (s : State) : Host.Outcome State Fault Refusal :=
  .next (tapIdcode s)

/-- SAMPLE_PRELOAD (R507). -/
def execSamplePreload (capture : List Bool) (s : State) : Host.Outcome State Fault Refusal :=
  .next (samplePreload capture s)

/-- EXTEST_PULSE (R511). -/
def execExtestPulse (drive : List Bool) (s : State) : Host.Outcome State Fault Refusal :=
  .next (extestPulse drive s)

/-- EXTEST_TRAIN (R511). -/
def execExtestTrain (drive : List Bool) (s : State) : Host.Outcome State Fault Refusal :=
  .next (extestTrain drive s)

/-- CLAMP (R507). -/
def execClamp (s : State) : Host.Outcome State Fault Refusal :=
  .next (tapClamp s)

/-- HIGHZ (R507). -/
def execHighz (s : State) : Host.Outcome State Fault Refusal :=
  .next (tapHighz s)

/-- SEAL_READ (R510). -/
def execSealRead (s : State) : Host.Outcome State Fault Refusal :=
  .next (sealRead s)

/-- SEAL_CAPTURE (R510). -/
def execSealCapture (swA : Option W32) (swB : Option W32) (s : State) : Host.Outcome State Fault Refusal :=
  .next (sealCapture swA swB s)

/-- BYPASS (R507). -/
def execBypass (s : State) : Host.Outcome State Fault Refusal :=
  .next (tapBypass s)

/-- TEST_LOGIC_RESET (R509). -/
def execTestLogicReset (s : State) : Host.Outcome State Fault Refusal :=
  .next (testLogicReset s)

/-- TST_BSCAN_EN (R509). -/
def execTstBscanEn (rq : Requester) (v : Byte) (s : State) : Host.Outcome State Fault Refusal :=
  .next (tstBscanEn rq v s)

end Sys2Proof.Machine
end

