-- ==== Sys2Proof/Machine/ExecWindow.lean ====
section
/-! DEFINITION. Meanings of the commands of the opcode table: host windows. -/

namespace Sys2Proof.Machine

/-- DOORBELL (R410). -/
def execDoorbell (path : HostPath) (v : W32) (s : State) : Host.Outcome State Fault Refusal :=
  .next (doorbell path v s)

/-- DIRECT_WRITE (R411). -/
def execDirectWrite (path : HostPath) (offset : W16) (v : W32) (s : State) : Host.Outcome State Fault Refusal :=
  .next (directWrite path offset v s)

/-- BASE_WORD_READ (R414). -/
def execBaseWordRead (rq : Requester) (offset : W16) (s : State) : Host.Outcome State Fault Refusal :=
  .next (baseWordRead rq offset s)

/-- HIGHER_WORD_READ (R414). -/
def execHigherWordRead (rq : Requester) (offset : W16) (s : State) : Host.Outcome State Fault Refusal :=
  .next (higherWordRead rq offset s)

/-- QWORD_READ (R415). -/
def execQwordRead (offset : W16) (s : State) : Host.Outcome State Fault Refusal :=
  .next (qwordRead offset s)

/-- SPI_READ (R413). -/
def execSpiRead (offset : W16) (words : Nat) (s : State) : Host.Outcome State Fault Refusal :=
  .next (spiRead offset words s)

/-- SPI_WRITE (R413). -/
def execSpiWrite (offset : W16) (bytes : Bytes) (s : State) : Host.Outcome State Fault Refusal :=
  .next (spiWrite offset bytes s)

/-- SPI_STATUS (R413). -/
def execSpiStatus (count : Nat) (s : State) : Host.Outcome State Fault Refusal :=
  .next (spiStatus count s)

/-- MAILBOX_READ (R416). -/
def execMailboxRead (rq : Requester) (index : W16) (sub : Byte) (s : State) : Host.Outcome State Fault Refusal :=
  .next (mailboxRead rq index sub s)

/-- QUEUE_READ (R417). -/
def execQueueRead (rq : Requester) (index : W16) (sub : Byte) (s : State) : Host.Outcome State Fault Refusal :=
  .next (queueRead rq index sub s)

end Sys2Proof.Machine
end

