-- ==== Sys2Proof/Machine/ExecWriteCmd.lean ====
section
/-! DEFINITION. Meanings of the commands of the opcode table: writes and access. -/

namespace Sys2Proof.Machine

/-- OBJECT_WRITE (R386). -/
def execObjectWrite (rq : Requester) (index : W16) (sub : Byte) (data : Bytes) (s : State) : Host.Outcome State Fault Refusal :=
  .next (objectWrite rq index sub data s)

/-- WRITE_APPLY (R389). -/
def execWriteApply (s : State) : Host.Outcome State Fault Refusal :=
  .next (writeApply s)

/-- ACC_UNLOCK (R392). -/
def execAccUnlock (rq : Requester) (v : W32) (s : State) : Host.Outcome State Fault Refusal :=
  .next (accUnlock rq v s)

/-- ACC_LOCKOUT_EXPIRY (R392). -/
def execAccLockoutExpiry (rq : Requester) (s : State) : Host.Outcome State Fault Refusal :=
  .next (accLockoutExpiry rq s)

/-- ACC_V_TOKEN (R393). -/
def execAccVToken (rq : Requester) (token : Bytes) (s : State) : Host.Outcome State Fault Refusal :=
  .next (accVToken rq token s)

/-- TOKEN_EXPIRY (R393). -/
def execTokenExpiry (rq : Requester) (s : State) : Host.Outcome State Fault Refusal :=
  .next (tokenExpiry rq s)

/-- ACC_LOCK (R392). -/
def execAccLock (rq : Requester) (v : Byte) (s : State) : Host.Outcome State Fault Refusal :=
  .next (accLock rq v s)

end Sys2Proof.Machine
end

