-- ==== Sys2Proof/Machine/Dispatch.lean ====
section
/-! DEFINITION. The dispatch: one arm for each command of spec/opcode_table.json. -/

namespace Sys2Proof.Machine

/-- The effect of a command on everything but the queue. -/
def exec (i : Instr) (s : State) : Host.Outcome State Fault Refusal :=
  match i with
  | .porstNRelease unitId swA swB => Sys2Proof.Machine.execPorstNRelease unitId swA swB s
  | .porstNAssert cause => Sys2Proof.Machine.execPorstNAssert cause s
  | .vddSafeDetect microvolt => Sys2Proof.Machine.execVddSafeDetect microvolt s
  | .pllLock pll => Sys2Proof.Machine.execPllLock pll s
  | .bootComplete failed bootUs testNo => Sys2Proof.Machine.execBootComplete failed bootUs testNo s
  | .dramEccDone => Sys2Proof.Machine.execDramEccDone s
  | .timeTick => Sys2Proof.Machine.execTimeTick s
  | .cycleStart => Sys2Proof.Machine.execCycleStart s
  | .substituteCycleStart => Sys2Proof.Machine.execSubstituteCycleStart s
  | .timeSet rq t => Sys2Proof.Machine.execTimeSet rq t s
  | .timeIncWrite rq v => Sys2Proof.Machine.execTimeIncWrite rq v s
  | .phaseSlew rq v => Sys2Proof.Machine.execPhaseSlew rq v s
  | .cellRefWrite rq v => Sys2Proof.Machine.execCellRefWrite rq v s
  | .ptpMessage m => Sys2Proof.Machine.execPtpMessage m s
  | .timeExchange x => Sys2Proof.Machine.execTimeExchange x s
  | .domUpdateTimeout d => Sys2Proof.Machine.execDomUpdateTimeout d s
  | .domHoldoverExpiry d => Sys2Proof.Machine.execDomHoldoverExpiry d s
  | .clockWatchWindow w count => Sys2Proof.Machine.execClockWatchWindow w count s
  | .clockEdgeTimeout w => Sys2Proof.Machine.execClockEdgeTimeout w s
  | .clkRatioWindow count => Sys2Proof.Machine.execClkRatioWindow count s
  | .pllLockLoss pll => Sys2Proof.Machine.execPllLockLoss pll s
  | .cfgOpen rq => Sys2Proof.Machine.execCfgOpen rq s
  | .cfgCommit rq peer => Sys2Proof.Machine.execCfgCommit rq peer s
  | .cfgAbort rq => Sys2Proof.Machine.execCfgAbort rq s
  | .runEnable rq => Sys2Proof.Machine.execRunEnable rq s
  | .holdReq rq => Sys2Proof.Machine.execHoldReq rq s
  | .resume rq => Sys2Proof.Machine.execResume rq s
  | .stopReq rq => Sys2Proof.Machine.execStopReq rq s
  | .devReset rq failed => Sys2Proof.Machine.execDevReset rq failed s
  | .svcEnter rq => Sys2Proof.Machine.execSvcEnter rq s
  | .svcLeave rq => Sys2Proof.Machine.execSvcLeave rq s
  | .plannedSwap rq peer => Sys2Proof.Machine.execPlannedSwap rq peer s
  | .detach rq => Sys2Proof.Machine.execDetach rq s
  | .syncComplete => Sys2Proof.Machine.execSyncComplete s
  | .syncTimeout => Sys2Proof.Machine.execSyncTimeout s
  | .objectWrite rq index sub data => Sys2Proof.Machine.execObjectWrite rq index sub data s
  | .writeApply => Sys2Proof.Machine.execWriteApply s
  | .accUnlock rq v => Sys2Proof.Machine.execAccUnlock rq v s
  | .accLockoutExpiry rq => Sys2Proof.Machine.execAccLockoutExpiry rq s
  | .accVToken rq token => Sys2Proof.Machine.execAccVToken rq token s
  | .tokenExpiry rq => Sys2Proof.Machine.execTokenExpiry rq s
  | .accLock rq v => Sys2Proof.Machine.execAccLock rq v s
  | .read rq m => Sys2Proof.Machine.execRead rq m s
  | .write rq m => Sys2Proof.Machine.execWrite rq m s
  | .segRead rq m => Sys2Proof.Machine.execSegRead rq m s
  | .segWrite rq m => Sys2Proof.Machine.execSegWrite rq m s
  | .desc rq m => Sys2Proof.Machine.execDesc rq m s
  | .cancel rq m => Sys2Proof.Machine.execCancel rq m s
  | .evtAck ring addr head => Sys2Proof.Machine.execEvtAck ring addr head s
  | .pending k tid => Sys2Proof.Machine.execPending k tid s
  | .dictFinalResponse k m => Sys2Proof.Machine.execDictFinalResponse k m s
  | .abort k tid code => Sys2Proof.Machine.execAbort k tid code s
  | .dictResponseTimeout k => Sys2Proof.Machine.execDictResponseTimeout k s
  | .xferTimeout rq => Sys2Proof.Machine.execXferTimeout rq s
  | .serviceDatagram ip port dstPort m => Sys2Proof.Machine.execServiceDatagram ip port dstPort m s
  | .arpRequest targetIp senderIp => Sys2Proof.Machine.execArpRequest targetIp senderIp s
  | .icmpEcho srcIp dstIp payload => Sys2Proof.Machine.execIcmpEcho srcIp dstIp payload s
  | .sessionTimeout ip port => Sys2Proof.Machine.execSessionTimeout ip port s
  | .doorbell path v => Sys2Proof.Machine.execDoorbell path v s
  | .directWrite path offset v => Sys2Proof.Machine.execDirectWrite path offset v s
  | .baseWordRead rq offset => Sys2Proof.Machine.execBaseWordRead rq offset s
  | .higherWordRead rq offset => Sys2Proof.Machine.execHigherWordRead rq offset s
  | .qwordRead offset => Sys2Proof.Machine.execQwordRead offset s
  | .spiRead offset words => Sys2Proof.Machine.execSpiRead offset words s
  | .spiWrite offset bytes => Sys2Proof.Machine.execSpiWrite offset bytes s
  | .spiStatus count => Sys2Proof.Machine.execSpiStatus count s
  | .mailboxRead rq index sub => Sys2Proof.Machine.execMailboxRead rq index sub s
  | .queueRead rq index sub => Sys2Proof.Machine.execQueueRead rq index sub s
  | .frameReceive ingress startOk bytes endOk stamp software => Sys2Proof.Machine.execFrameReceive ingress startOk bytes endOk stamp software s
  | .sync st port f => Sys2Proof.Machine.execSync st port f s
  | .data f stamp => Sys2Proof.Machine.execData f stamp s
  | .repeat f stamp => Sys2Proof.Machine.execRepeat f stamp s
  | .null f => Sys2Proof.Machine.execNull f s
  | .start st f => Sys2Proof.Machine.execStart st f s
  | .event f => Sys2Proof.Machine.execEvent f s
  | .hb path f => Sys2Proof.Machine.execHb path f s
  | .delayRequest st f ingress egress => Sys2Proof.Machine.execDelayRequest st f ingress egress s
  | .delayResponse f t4 software => Sys2Proof.Machine.execDelayResponse f t4 software s
  | .delayRound ring => Sys2Proof.Machine.execDelayRound ring s
  | .safetyCommand ring addr f ownCycle => Sys2Proof.Machine.execSafetyCommand ring addr f ownCycle s
  | .safetyStatus f => Sys2Proof.Machine.execSafetyStatus f s
  | .forwardedRequest f => Sys2Proof.Machine.execForwardedRequest f s
  | .forwardAck f => Sys2Proof.Machine.execForwardAck f s
  | .nodeStatusShare f => Sys2Proof.Machine.execNodeStatusShare f s
  | .slotOccurrence ring slot seen => Sys2Proof.Machine.execSlotOccurrence ring slot seen s
  | .rejoinHoldExpiry ring addr => Sys2Proof.Machine.execRejoinHoldExpiry ring addr s
  | .arbInsert st ch offsetNs idle f => Sys2Proof.Machine.execArbInsert st ch offsetNs idle f s
  | .arbLastDiscard st ch => Sys2Proof.Machine.execArbLastDiscard st ch s
  | .guardCut st side => Sys2Proof.Machine.execGuardCut st side s
  | .coldstartListenTimeout st => Sys2Proof.Machine.execColdstartListenTimeout st s
  | .coldstartComplete st => Sys2Proof.Machine.execColdstartComplete st s
  | .backoffElapsed st => Sys2Proof.Machine.execBackoffElapsed st s
  | .syncLoss loss => Sys2Proof.Machine.execSyncLoss loss s
  | .nodeDelayWrite ring addr value => Sys2Proof.Machine.execNodeDelayWrite ring addr value s
  | .nodeAssignWrite ring addr value => Sys2Proof.Machine.execNodeAssignWrite ring addr value s
  | .exclude ring ctrl => Sys2Proof.Machine.execExclude ring ctrl s
  | .linkLoss st side => Sys2Proof.Machine.execLinkLoss st side s
  | .linkUp st side => Sys2Proof.Machine.execLinkUp st side s
  | .breakPatternTimeout ring => Sys2Proof.Machine.execBreakPatternTimeout ring s
  | .eventResend ring addr => Sys2Proof.Machine.execEventResend ring addr s
  | .moveJoint rq t d => Sys2Proof.Machine.execMoveJoint rq t d s
  | .moveLinear rq t d => Sys2Proof.Machine.execMoveLinear rq t d s
  | .moveCircular rq t d => Sys2Proof.Machine.execMoveCircular rq t d s
  | .moveSegment rq t d => Sys2Proof.Machine.execMoveSegment rq t d s
  | .moveCam rq t d => Sys2Proof.Machine.execMoveCam rq t d s
  | .moveStop rq t d => Sys2Proof.Machine.execMoveStop rq t d s
  | .jogCmd rq a d => Sys2Proof.Machine.execJogCmd rq a d s
  | .jogTimeout a => Sys2Proof.Machine.execJogTimeout a s
  | .grpClose rq g => Sys2Proof.Machine.execGrpClose rq g s
  | .grpOpen rq g => Sys2Proof.Machine.execGrpOpen rq g s
  | .segTableWrite rq n d => Sys2Proof.Machine.execSegTableWrite rq n d s
  | .camTableWrite rq n d => Sys2Proof.Machine.execCamTableWrite rq n d s
  | .hcSwitchOn rq c => Sys2Proof.Machine.execHcSwitchOn rq c s
  | .hcSwitchOff rq c => Sys2Proof.Machine.execHcSwitchOff rq c s
  | .crReq rq a mask => Sys2Proof.Machine.execCrReq rq a mask s
  | .squareRun => Sys2Proof.Machine.execSquareRun s
  | .sqLate => Sys2Proof.Machine.execSqLate s
  | .solve => Sys2Proof.Machine.execSolve s
  | .solverLate => Sys2Proof.Machine.execSolverLate s
  | .tokenArrival inst port t => Sys2Proof.Machine.execTokenArrival inst port t s
  | .rxDeadlineSubstitution => Sys2Proof.Machine.execRxDeadlineSubstitution s
  | .releaseTick tick => Sys2Proof.Machine.execReleaseTick tick s
  | .taskStart lane => Sys2Proof.Machine.execTaskStart lane s
  | .taskAbort inst => Sys2Proof.Machine.execTaskAbort inst s
  | .dmaDone lane => Sys2Proof.Machine.execDmaDone lane s
  | .add l w => Sys2Proof.Machine.execAdd l w s
  | .sub l w => Sys2Proof.Machine.execSub l w s
  | .and l w => Sys2Proof.Machine.execAnd l w s
  | .or l w => Sys2Proof.Machine.execOr l w s
  | .xor l w => Sys2Proof.Machine.execXor l w s
  | .shl l w => Sys2Proof.Machine.execShl l w s
  | .shr l w => Sys2Proof.Machine.execShr l w s
  | .sar l w => Sys2Proof.Machine.execSar l w s
  | .mul l w => Sys2Proof.Machine.execMul l w s
  | .mulq l w => Sys2Proof.Machine.execMulq l w s
  | .abs l w => Sys2Proof.Machine.execAbs l w s
  | .norm l w => Sys2Proof.Machine.execNorm l w s
  | .exp l w => Sys2Proof.Machine.execExp l w s
  | .mac l w => Sys2Proof.Machine.execMac l w s
  | .msu l w => Sys2Proof.Machine.execMsu l w s
  | .movta l w => Sys2Proof.Machine.execMovta l w s
  | .mova l w => Sys2Proof.Machine.execMova l w s
  | .expa l w => Sys2Proof.Machine.execExpa l w s
  | .fadd l w => Sys2Proof.Machine.execFadd l w s
  | .fsub l w => Sys2Proof.Machine.execFsub l w s
  | .fmul l w => Sys2Proof.Machine.execFmul l w s
  | .fma l w => Sys2Proof.Machine.execFma l w s
  | .fms l w => Sys2Proof.Machine.execFms l w s
  | .fdiv l w => Sys2Proof.Machine.execFdiv l w s
  | .fsqrt l w => Sys2Proof.Machine.execFsqrt l w s
  | .fmin l w => Sys2Proof.Machine.execFmin l w s
  | .fmax l w => Sys2Proof.Machine.execFmax l w s
  | .fcmplt l w => Sys2Proof.Machine.execFcmplt l w s
  | .fnorm l w => Sys2Proof.Machine.execFnorm l w s
  | .fexp l w => Sys2Proof.Machine.execFexp l w s
  | .ftoi l w => Sys2Proof.Machine.execFtoi l w s
  | .itof l w => Sys2Proof.Machine.execItof l w s
  | .dmago l w => Sys2Proof.Machine.execDmago l w s
  | .dmawt l w => Sys2Proof.Machine.execDmawt l w s
  | .endTask l w => Sys2Proof.Machine.execEndTask l w s
  | .addi l w => Sys2Proof.Machine.execAddi l w s
  | .shli l w => Sys2Proof.Machine.execShli l w s
  | .sari l w => Sys2Proof.Machine.execSari l w s
  | .andi l w => Sys2Proof.Machine.execAndi l w s
  | .rdcnt l w => Sys2Proof.Machine.execRdcnt l w s
  | .ld l w => Sys2Proof.Machine.execLd l w s
  | .st l w => Sys2Proof.Machine.execSt l w s
  | .ldh l w => Sys2Proof.Machine.execLdh l w s
  | .sth l w => Sys2Proof.Machine.execSth l w s
  | .li l w => Sys2Proof.Machine.execLi l w s
  | .lih l w => Sys2Proof.Machine.execLih l w s
  | .bz l w => Sys2Proof.Machine.execBz l w s
  | .bnz l w => Sys2Proof.Machine.execBnz l w s
  | .blt l w => Sys2Proof.Machine.execBlt l w s
  | .bloop l w => Sys2Proof.Machine.execBloop l w s
  | .cntSel rq e sel => Sys2Proof.Machine.execCntSel rq e sel s
  | .cntBlock rq e => Sys2Proof.Machine.execCntBlock rq e s
  | .cntClear rq e v => Sys2Proof.Machine.execCntClear rq e v s
  | .cntClearAll rq v => Sys2Proof.Machine.execCntClearAll rq v s
  | .quadratureChange c a b => Sys2Proof.Machine.execQuadratureChange c a b s
  | .indexEvent c => Sys2Proof.Machine.execIndexEvent c s
  | .absRequest c datHigh => Sys2Proof.Machine.execAbsRequest c datHigh s
  | .absReading c word trailing datHigh latch => Sys2Proof.Machine.execAbsReading c word trailing datHigh latch s
  | .cmpValue rq c u v => Sys2Proof.Machine.execCmpValue rq c u v s
  | .disarm rq c u v => Sys2Proof.Machine.execDisarm rq c u v s
  | .cmpPulseEnd c u => Sys2Proof.Machine.execCmpPulseEnd c u s
  | .emuEdge e => Sys2Proof.Machine.execEmuEdge e s
  | .step n ns => Sys2Proof.Machine.execStep n ns s
  | .axIdle n => Sys2Proof.Machine.execAxIdle n s
  | .axWakeDone n => Sys2Proof.Machine.execAxWakeDone n s
  | .safeScan ch bits => Sys2Proof.Machine.execSafeScan ch bits s
  | .discTimeExpiry n => Sys2Proof.Machine.execDiscTimeExpiry n s
  | .safetyCheckTick imageFromP imageFromH => Sys2Proof.Machine.execSafetyCheckTick imageFromP imageFromH s
  | .degradedTimerExpiry => Sys2Proof.Machine.execDegradedTimerExpiry s
  | .armStopClear a => Sys2Proof.Machine.execArmStopClear a s
  | .brakeCloseExpiry a => Sys2Proof.Machine.execBrakeCloseExpiry a s
  | .ss1TmaxExpiry a => Sys2Proof.Machine.execSs1TmaxExpiry a s
  | .brakeOpenExpiry a => Sys2Proof.Machine.execBrakeOpenExpiry a s
  | .brakeReleaseTimeout a => Sys2Proof.Machine.execBrakeReleaseTimeout a s
  | .outputDarkTest ch follows => Sys2Proof.Machine.execOutputDarkTest ch follows s
  | .readbackMismatch ch out => Sys2Proof.Machine.execReadbackMismatch ch out s
  | .switchRead ch word => Sys2Proof.Machine.execSwitchRead ch word s
  | .connLost n => Sys2Proof.Machine.execConnLost n s
  | .nodeSafetyWatchdog ring addr ch => Sys2Proof.Machine.execNodeSafetyWatchdog ring addr ch s
  | .nodeSs1TimerExpiry ring addr => Sys2Proof.Machine.execNodeSs1TimerExpiry ring addr s
  | .safeBtCmd rq arms => Sys2Proof.Machine.execSafeBtCmd rq arms s
  | .btCompare => Sys2Proof.Machine.execBtCompare s
  | .btDue a => Sys2Proof.Machine.execBtDue a s
  | .btOverdue a => Sys2Proof.Machine.execBtOverdue a s
  | .safeSetDl rq d => Sys2Proof.Machine.execSafeSetDl rq d s
  | .ilkPeerChange level => Sys2Proof.Machine.execIlkPeerChange level s
  | .holdoffElapsed => Sys2Proof.Machine.execHoldoffElapsed s
  | .claimWdTrip cause => Sys2Proof.Machine.execClaimWdTrip cause s
  | .hbPathLoss path => Sys2Proof.Machine.execHbPathLoss path s
  | .partnerAbsent => Sys2Proof.Machine.execPartnerAbsent s
  | .cmdUnacked => Sys2Proof.Machine.execCmdUnacked s
  | .detachEffect => Sys2Proof.Machine.execDetachEffect s
  | .rejoinTakeup peer => Sys2Proof.Machine.execRejoinTakeup peer s
  | .swapInstant => Sys2Proof.Machine.execSwapInstant s
  | .swapDue => Sys2Proof.Machine.execSwapDue s
  | .recordRequest source type software payload => Sys2Proof.Machine.execRecordRequest source type software payload s
  | .flashProgramDone r ok => Sys2Proof.Machine.execFlashProgramDone r ok s
  | .sectorEraseDone r ok => Sys2Proof.Machine.execSectorEraseDone r ok s
  | .periodicSave => Sys2Proof.Machine.execPeriodicSave s
  | .recClear rq v => Sys2Proof.Machine.execRecClear rq v s
  | .recSafeSect rq v => Sys2Proof.Machine.execRecSafeSect rq v s
  | .imageWrite rq t d => Sys2Proof.Machine.execImageWrite rq t d s
  | .secConfirm rq v => Sys2Proof.Machine.execSecConfirm rq v s
  | .secReboot rq v => Sys2Proof.Machine.execSecReboot rq v s
  | .secOwnerKey rq d => Sys2Proof.Machine.execSecOwnerKey rq d s
  | .secOwnerRevoke rq v => Sys2Proof.Machine.execSecOwnerRevoke rq v s
  | .secDevLock rq v => Sys2Proof.Machine.execSecDevLock rq v s
  | .attNonce rq d => Sys2Proof.Machine.execAttNonce rq d s
  | .attReportDone => Sys2Proof.Machine.execAttReportDone s
  | .attCert rq d => Sys2Proof.Machine.execAttCert rq d s
  | .adcConversion slot v => Sys2Proof.Machine.execAdcConversion slot v s
  | .injectedConversion slot v => Sys2Proof.Machine.execInjectedConversion slot v s
  | .shedReenable rq v => Sys2Proof.Machine.execShedReenable rq v s
  | .monCalCmd rq v => Sys2Proof.Machine.execMonCalCmd rq v s
  | .monCalPeriodExpiry => Sys2Proof.Machine.execMonCalPeriodExpiry s
  | .sliceCalibrationDone offset gain skew => Sys2Proof.Machine.execSliceCalibrationDone offset gain skew s
  | .syscalStep1 rq g microvolt => Sys2Proof.Machine.execSyscalStep1 rq g microvolt s
  | .syscalStep2 rq g microvolt => Sys2Proof.Machine.execSyscalStep2 rq g microvolt s
  | .syscalAverageDone => Sys2Proof.Machine.execSyscalAverageDone s
  | .monWindowEnd c => Sys2Proof.Machine.execMonWindowEnd c s
  | .domainWake d => Sys2Proof.Machine.execDomainWake d s
  | .domainGateOff d => Sys2Proof.Machine.execDomainGateOff d s
  | .extest drive => Sys2Proof.Machine.execExtest drive s
  | .idcode => Sys2Proof.Machine.execIdcode s
  | .samplePreload capture => Sys2Proof.Machine.execSamplePreload capture s
  | .extestPulse drive => Sys2Proof.Machine.execExtestPulse drive s
  | .extestTrain drive => Sys2Proof.Machine.execExtestTrain drive s
  | .clamp => Sys2Proof.Machine.execClamp s
  | .highz => Sys2Proof.Machine.execHighz s
  | .sealRead => Sys2Proof.Machine.execSealRead s
  | .sealCapture swA swB => Sys2Proof.Machine.execSealCapture swA swB s
  | .bypass => Sys2Proof.Machine.execBypass s
  | .testLogicReset => Sys2Proof.Machine.execTestLogicReset s
  | .tstBscanEn rq v => Sys2Proof.Machine.execTstBscanEn rq v s
  | .codeGroupSyncAcquired st side => Sys2Proof.Machine.execCodeGroupSyncAcquired st side s
  | .s4StandstillTimeout => Sys2Proof.Machine.execS4StandstillTimeout s
  | .spWatchdogExpiry => Sys2Proof.Machine.execSpWatchdogExpiry s
  | .periodicSelfTest u ok => Sys2Proof.Machine.execPeriodicSelfTest u ok s
  | .deviceFaultDetected k unit detail => Sys2Proof.Machine.execDeviceFaultDetected k unit detail s
  | .powerOnDetector rail atNs => Sys2Proof.Machine.execPowerOnDetector rail atNs s
  | .bootFlashOperationDone ok => Sys2Proof.Machine.execBootFlashOperationDone ok s
  | .indirectTransferDone => Sys2Proof.Machine.execIndirectTransferDone s
  | .pmcWrap e k => Sys2Proof.Machine.execPmcWrap e k s

end Sys2Proof.Machine
end

