-- ==== Sys2Proof/Safety.lean ====
section
/-! DEFINITION. What counts as a safe run, and the words in which statements about a command are made: a command completes with
a property of its next state; parts of the state that a command leaves alone; a write that every check lets through. -/

namespace Sys2Proof

/-- `n` steps from a state stop at no fault and no refusal. -/
def runsFor : Nat → Machine.State → Prop
  | 0, _ => True
  | n + 1, s => ∃ t, Machine.step s = .next t ∧ runsFor n t

/-- A run of any length never stops. -/
def Safe (s : Machine.State) : Prop := ∀ n, runsFor n s

/-- The command runs in the state and answers a next state of which `P` holds. -/
def Completes (c : Instr) (s : Machine.State) (P : Machine.State → Prop) : Prop := ∃ t, Machine.exec c s = .next t ∧ P t

namespace Machine

/-- The fields of `State`, the queue apart. -/
inductive Part
  | free | objs | staged | dev | time | dict | recd | sec | pair | rings | motion | solver | square | jn | lanes | cnts | safe
  | axes | mon | tap
deriving DecidableEq, Repr

/-- Two states agree in a part. -/
def Part.same (s t : State) : Part → Prop
  | .free => t.free = s.free
  | .objs => t.objs = s.objs
  | .staged => t.staged = s.staged
  | .dev => t.dev = s.dev
  | .time => t.time = s.time
  | .dict => t.dict = s.dict
  | .recd => t.recd = s.recd
  | .sec => t.sec = s.sec
  | .pair => t.pair = s.pair
  | .rings => t.rings = s.rings
  | .motion => t.motion = s.motion
  | .solver => t.solver = s.solver
  | .square => t.square = s.square
  | .jn => t.jn = s.jn
  | .lanes => t.lanes = s.lanes
  | .cnts => t.cnts = s.cnts
  | .safe => t.safe = s.safe
  | .axes => t.axes = s.axes
  | .mon => t.mon = s.mon
  | .tap => t.tap = s.tap

/-- Nothing but the named parts differs between two states: the frame of a command. -/
def Changes (ps : List Part) (s t : State) : Prop := t.pending = s.pending ∧ ∀ p : Part, p ∉ ps → p.same s t

/-- No object but those of the named keys has another value. -/
def ChangesObjs (ks : List Nat) (s t : State) : Prop := ∀ k, k ∉ ks → t.obj k = s.obj k

/-- The checks of R386 let a write through: the dictionary serves the requester, items 1 to 6 pass, the object's block has not
failed, and the object's own check passes. -/
def Allowed (rq : Requester) (index sub : Nat) (v : Bytes) (own : State → Nat) (s : State) : Prop :=
  s.served rq = true ∧ writeCheck s rq index sub v = 0 ∧ s.blockFailed index sub = false ∧ own s = 0

end Machine
end Sys2Proof
end

