-- ==== Sys2Proof/Certificates/Slice0/Obligations.lean ====
section
/-! DEFINITION. The statements about the model, chapter by chapter of the spec. A title ending in "(model)" or a docstring naming a
log entry marks what rests on a choice of the model. -/

open Sys2Proof Sys2Proof.Machine

/-! ### The queue, reset and boot -/

/-- A step takes the command at the front of the queue and runs it with the rest of the queue; on an empty queue the block
idles (log entry 1). Every command completes: it answers a next state for all operands in every state. -/
def Obligations.StepRunsFrontCommand : Prop :=
  (∀ (c : Instr) (rest : List Instr) (s : State), s.pending = c :: rest → step s = exec c { s with pending := rest }) ∧
  (∀ s : State, s.pending = [] → step s = .next s) ∧
  (∀ (c : Instr) (s : State), ∃ t : State, exec c s = .next t)

/-- What every state keeps: the canonical form of the object store, of the exchange area and of every Lane's memory. -/
def Canonical (s : State) : Prop :=
  storeWf s.objs = true ∧ memWf s.dict.exchange = true ∧ ∀ x ∈ s.lanes, memWf x.mem = true

/-- Reset as R6, R22, R31, R54 and R315 state it: INERT, cell time 0 with the nominal increment and no slew, the reference FREE,
every arm in STO in both halves with both brake outputs de-energised, every object at its default; its stores are in canonical form. -/
def Obligations.ResetState : Prop :=
  State.reset.pending = [] ∧ State.reset.dev.phase = .reset ∧ State.reset.dev.state = .inert ∧
  State.reset.cellQ = 0 ∧ State.reset.n kTimeInc = 0x28000000 ∧ State.reset.n kCellRef = 0 ∧ State.reset.time.slewRem = 0 ∧
  (∀ a ∈ State.reset.safe.arms, a.stoP = true ∧ a.stoH = true ∧ a.release = .applied) ∧
  (∀ k, State.reset.obj k = objDefault k) ∧ Canonical State.reset

/-- PORST_N held for 10 µs or more, or the internal detector of S6, brings the reset state back except what the spec lets
survive: fuses, boot flash with the device certificate, recorder flash with its layout, loaded safety sets, TAP registers. A pulse of at most 1 µs changes nothing. -/
def Obligations.PowerOnReset : Prop :=
  ∀ (s : State) (cause : ResetCause),
    (cause = .internalPor ∨ (∃ ns, cause = .pulse ns ∧ 10000 ≤ ns) →
      Completes (.porstNAssert cause) s (fun t =>
        t.dev.phase = .reset ∧ t.dev.state = .inert ∧
        t.objs = s.objs.filter (fun p => p.1 == kRecSafeSect || p.1 == kAttCert) ∧ t.staged = none ∧ t.time = State.reset.time ∧
        t.dict = State.reset.dict ∧ t.lanes = State.reset.lanes ∧ t.safe.arms = State.reset.safe.arms ∧
        t.sec.fuses = s.sec.fuses ∧ t.sec.main.imgA = s.sec.main.imgA ∧ t.sec.main.imgB = s.sec.main.imgB ∧
        t.safe.sets = s.safe.sets ∧ t.pending = s.pending)) ∧
    (∀ ns, ns ≤ 1000 → cause = .pulse ns → Completes (.porstNAssert cause) s (fun t => t = s))

/-- PORST_N_RELEASE starts the boot of a device held in reset: UNIT_ID is latched, PWR_STATUS takes the rails' order in its three
low bits and keeps the others, CLK_DISAGREE of the last boot is reported, and cell time, rings and recorder stand as they did. Past
the release it changes nothing. -/
def Obligations.BootBegins : Prop :=
  ∀ (s : State) (u : Bool) (a b : W32),
    (s.dev.phase = .reset → Completes (.porstNRelease u a b) s (fun t =>
      t.dev.phase = .booting ∧ t.dev.unitId = u ∧ t.dev.state = s.dev.state ∧ t.time = s.time ∧ t.rings = s.rings ∧
      t.recd = s.recd ∧ t.n kPwrStatus % 8 = seqFlags s.mon.rails ∧ t.n kPwrStatus / 8 = s.n kPwrStatus / 8 % 2 ^ 13 ∧
      t.bit kClkStatus 1 = s.mon.disagree ∧ t.mon.disagree = false)) ∧
    (s.dev.phase ≠ .reset → Completes (.porstNRelease u a b) s (fun t => t = s))

/-- Some bit of a list is set in a number; every bit of it is. -/
def anyBit (u : Nat) (l : List Nat) : Prop := ∃ b ∈ l, u.testBit b = true
def allBits (u : Nat) (l : List Nat) : Prop := ∀ b ∈ l, u.testBit b = true

/-- The end of the start-up tests: UNIT_FAIL holds the failed units with those whose image is missing, BOOT_TIME the time, and
TIER_AVAIL is the highest tier of R17 whose units all passed, a Street, a core or a host path being missed only when none of its
kind is left (R10, R11, R18). A Tier 0 unit that failed leads to FAULT with TIER_AVAIL 0xFF and the cause 0x0209 (R20, R26);
otherwise the device state stays. Without a main image the device is in recovery, at tier 0 (R448). -/
def Obligations.BootSetsTier : Prop :=
  ∀ (s : State) (failed : W64) (us no : W32), s.dev.phase = .booting →
    Completes (.bootComplete failed us no) s (fun t =>
      let u := t.n kUnitFail
      t.dev.phase = .up ∧ u = (failed.toNat ||| s.bootImages.sec.imageFail) % 2 ^ 48 ∧ t.n kBootTime = us.toNat ∧
      (anyBit u [39, 40] → t.n kTierAvail = 0xFF ∧ t.dev.state = .fault ∧ t.n kFaultCause = 0x0209) ∧
      (¬ anyBit u [39, 40] → t.dev.state = s.dev.state ∧
        (s.bootImages.sec.main.running = none → t.n kTierAvail = 0) ∧
        (s.bootImages.sec.main.running ≠ none →
          (anyBit u [41, 42, 43, 46] ∨ allBits u ((List.range 16).map (· + 8)) ∨ allBits u [35, 36, 37] → t.n kTierAvail = 0) ∧
          (¬ anyBit u [41, 42, 43, 46] ∧ ¬ allBits u ((List.range 16).map (· + 8)) ∧ ¬ allBits u [35, 36, 37] →
            (anyBit u [24, 30, 32, 33, 38, 44] ∨ allBits u (List.range 8) → t.n kTierAvail = 1) ∧
            (¬ anyBit u [24, 30, 32, 33, 38, 44] ∧ ¬ allBits u (List.range 8) →
              (anyBit u (List.range 24 ++ [25, 26, 27, 28, 29, 31, 45]) ∨ s.paired = true ∧ u.testBit 34 = true →
                t.n kTierAvail = 2) ∧
              (¬ anyBit u (List.range 24 ++ [25, 26, 27, 28, 29, 31, 45]) ∧ ¬ (s.paired = true ∧ u.testBit 34 = true) →
                t.n kTierAvail = 3))))))

/-- DRAM_ECC_DONE gives the fifth SYNC exit condition of R27 on a device that has booted, POWER_ON_DETECTOR keeps the first
instant of its rail, VDD_SAFE_DETECT compares with 0.660 V, and PLL_LOCK marks its PLL; PLL_B and PLL_P start the burst domains. -/
def Obligations.BoardSignals : Prop :=
  ∀ s : State,
    (s.dev.phase = .up → Completes .dramEccDone s (fun t => t = { s with dev := { s.dev with dramReady := true } })) ∧
    (∀ (r : Rail) (at_ : Nat), s.mon.rails.length = 7 → Completes (.powerOnDetector r at_) s (fun t =>
      Changes [.mon] s t ∧ t.mon.rails[railNo r]? = some (some (((s.mon.rails[railNo r]?).join).getD at_)) ∧
      ∀ j, j ≠ railNo r → t.mon.rails[j]? = s.mon.rails[j]?)) ∧
    (∀ uv, Completes (.vddSafeDetect uv) s (fun t => t.mon.safeLow = decide (uv < 660000) ∧ Changes [.mon, .safe] s t)) ∧
    (∀ l : Pll, s.dev.phase ≠ .reset → s.mon.pll.length = 6 → Completes (.pllLock l) s (fun t =>
      t.mon.pll[pllNo l]? = some true ∧ (∀ j, j ≠ pllNo l → t.mon.pll[j]? = s.mon.pll[j]?) ∧
      t.mon.on800 = (s.mon.on800 || l == .b) ∧ t.mon.on1000 = (s.mon.on1000 || l == .p) ∧ Changes [.mon, .pair] s t))

/-! ### Cell time -/

/-- Cell time with the unreadable residue, in 2^-24 ns (R32). -/
def cell24 (s : State) : Nat := s.time.sec * (1000000000 * 2 ^ 24) + s.time.acc

/-- A REFCLK edge without a step: cell time advances by TIME_INC and the slew's part, the slew loses what it gave, the residue
rolls over at one second, and no object changes. The premises hold the accumulator in its range and the advance below a second. -/
def Obligations.TickAdvancesCellTime : Prop :=
  ∀ (s : State) (d : Int), s.dev.phase ≠ .reset → s.time.running = true → s.time.stepTo = none →
    s.time.acc < 1000000000 * 2 ^ 24 → s.time.sec + 1 < 2 ^ 48 →
    d = (if s.time.slewRem < 0 then -1 else 1) * min (s.time.slewStep : Int) s.time.slewRem.natAbs →
    0 ≤ (s.n kTimeInc : Int) + d → (s.n kTimeInc : Int) + d ≤ 1000000000 * 2 ^ 24 →
    Completes .timeTick s (fun t =>
      (cell24 t : Int) = cell24 s + s.n kTimeInc + d ∧ t.time.slewRem = s.time.slewRem - d ∧
      t.time.acc < 1000000000 * 2 ^ 24 ∧ t.objs = s.objs ∧ Changes [.time, .recd, .safe, .mon] s t)

/-- The step tick: cell time takes the stepped value, the residue below FRAC is clear, the slew is cancelled, TIME_INVALID clears,
and TIME_STEPPED stands in TIME_STATUS. While the clock stands still, or before release, a tick changes nothing. -/
def Obligations.StepTickTakesValue : Prop :=
  (∀ (s : State) (sec ns frac : Nat), s.dev.phase ≠ .reset → s.time.running = true → s.time.stepTo = some (sec, ns, frac) →
    Completes .timeTick s (fun t =>
      t.time.sec = sec % 2 ^ 48 ∧ t.time.acc = ns * 2 ^ 24 + frac * 256 ∧ t.time.slewRem = 0 ∧ t.time.stepTo = none ∧
      t.time.invalid = false ∧ t.bit kTimeStatus 7 = true ∧ t.n kTimeInc = s.n kTimeInc)) ∧
  (∀ s : State, s.dev.phase = .reset ∨ s.time.running = false → Completes .timeTick s (fun t => t = s))

/-- The object takes effect at once on this write: no apply cycle of R389 and no staged copy of R388. -/
def Direct (index sub : Nat) (s : State) : Prop :=
  s.isIn [.inert, .config, .fault, .service] = true ∧ ∀ r, objRow? index sub = some r → staging s r = false

/-- The four writes that steer cell time, where they take effect at once: TIME_SET waits for the next tick, TIME_INC takes its value
and moves no more than the rates of the domains, PHASE_SLEW starts a slew with the step that R36 fixes, CELL_REF takes its value,
which on a device with time mastership is followed, but not into the PARTNER domain.
Nothing else of the time unit moves, and nothing outside it but the requester's record and what is forwarded. TIME_INC outside its
range is OUT_OF_RANGE, and while the firmware servo owns it BUSY, without an effect. -/
def Obligations.TimeWrites : Prop :=
  (∀ (s : State) (rq : Requester),
      (∀ t0 : Time96, Allowed rq 0x2000 0x05 (time96Bytes t0) (fun _ => 0) s → Direct 0x2000 0x05 s →
        Completes (.timeSet rq t0) s (fun t =>
          t.time = { s.time with stepTo := some (t0.sec.toNat, t0.nsec.toNat, t0.frac.toNat), stepSw := false } ∧
          t.obj kTimeSet = time96Bytes t0 ∧ ChangesObjs [kTimeSet] s t ∧ Changes [.time, .objs, .dict, .pair] s t)) ∧
      (∀ v : W32, s.served rq = true → writeCheck s rq 0x2000 0x02 (le 4 v.toNat) = 0 → Direct 0x2000 0x02 s → s.n kTimeServo = 1 →
        0x27F00000 ≤ v.toNat → v.toNat ≤ 0x28100000 →
        Completes (.timeIncWrite rq v) s (fun t =>
          t.n kTimeInc = v.toNat ∧ cell24 t = cell24 s ∧ t.time.slewRem = s.time.slewRem ∧ t.time.slewStep = s.time.slewStep ∧
          ChangesObjs [kTimeInc, kDomRate 0, kDomRate 1] s t ∧ Changes [.objs, .time, .dict, .pair] s t)) ∧
      (∀ v : W64, s.served rq = true → writeCheck s rq 0x2000 0x03 (le 8 v.toNat) = 0 → Direct 0x2000 0x03 s → s.n kTimeServo = 1 →
        v.toInt.natAbs ≤ 65536000000 →
        Completes (.phaseSlew rq v) s (fun t =>
          t.time = { s.time with slewRem := v.toInt * 256, slewStep := s.n kTimeInc * s.n kSlewRate / 1000000 } ∧
          t.objs = s.objs ∧ Changes [.time, .dict, .pair] s t)) ∧
      (∀ v : Byte, Allowed rq 0x2000 0x07 [v] (fun _ => 0) s → Direct 0x2000 0x07 s →
        Completes (.cellRefWrite rq v) s (fun t =>
          t.obj kCellRef = [v] ∧ (s.mastership = true → t.n kRefEffective = if v.toNat = s.partnerRef then 0 else v.toNat) ∧
          (s.mastership = false → t.time = s.time ∧ ChangesObjs [kCellRef] s t)))) ∧
  (∀ (s : State) (rq : Requester) (v : W32), s.served rq = true → writeCheck s rq 0x2000 0x02 (le 4 v.toNat) = 0 →
      (s.n kTimeServo = 1 → (v.toNat < 0x27F00000 ∨ 0x28100000 < v.toNat) →
        Completes (.timeIncWrite rq v) s (fun t =>
          (t.rq rq).result = 0x00000302 ∧ t.objs = s.objs ∧ Changes [.dict] s t)) ∧
      (s.n kTimeServo = 0 → Completes (.timeIncWrite rq v) s (fun t =>
          (t.rq rq).result = 0x00000402 ∧ t.objs = s.objs ∧ Changes [.dict] s t)))

/-- HOLDOVER and LOST (R47): a LOCKED domain without an update goes to HOLDOVER, one in HOLDOVER past its limit to LOST, with
REF_LOST when it was followed; a domain in another state does not move. -/
def Obligations.DomainTimeouts : Prop :=
  ∀ (s : State) (d : Fin 2),
    (s.n (kDomState d) = 2 → Completes (.domUpdateTimeout d) s (fun t =>
      t.n (kDomState d) = 3 ∧ ChangesObjs [kDomState d] s t ∧ Changes [.objs] s t)) ∧
    (s.n (kDomState d) ≠ 2 → Completes (.domUpdateTimeout d) s (fun t => t = s)) ∧
    (s.n (kDomState d) = 3 → s.n kRefEffective ≠ d + 1 → Completes (.domHoldoverExpiry d) s (fun t =>
      t.n (kDomState d) = 4 ∧ ChangesObjs [kDomState d] s t ∧ Changes [.objs] s t)) ∧
    (s.n (kDomState d) = 3 → s.n kRefEffective = d + 1 → s.n kDomAuto = 0 → Completes (.domHoldoverExpiry d) s (fun t =>
      t.n (kDomState d) = 4 ∧ t.bit kTimeStatus 2 = true ∧ t.time = s.time ∧
      ChangesObjs [kDomState d, kTimeStatus] s t ∧ Changes [.objs] s t)) ∧
    (s.n (kDomState d) ≠ 3 → Completes (.domHoldoverExpiry d) s (fun t => t = s))

/-- The record that a timestamp leaves in the FIFO of its port (R41, R42). -/
def stampRecord (s : State) (port : Nat) (egress sw : Bool) (tag q : Nat) : Bytes :=
  time96 q ++ le 2 tag ++ le 1 ((if egress then 128 else 0) + port) ++ le 1 ((if s.time.lost.getD port false then 2 else 0) + b01 sw)

/-- PTP and partner messages (R41 to R47). Every event message leaves its corrected ingress stamp in the FIFO of the service port,
and a message of a domain that this device does not track leaves nothing else; an Announce selects the first master; a Sync of another master moves no domain. A
one-step Sync of the selected master with a hardware stamp gives the exchange its two times and sends the domain's own delay
request. A time exchange stores its two stamps in the FIFO of port 4, and updates the PARTNER domain with the offset of R46 (halved
rounding down, log entry 73); without a partner it does nothing. -/
def Obligations.TimeMessages : Prop :=
  ∀ s : State, s.dev.phase = .up → s.time.fifos.length = 6 →
    (∀ m : PtpMsg, Completes (.ptpMessage m) s (fun t => Changes [.time, .objs, .recd, .free] s t)) ∧
    (∀ m : PtpMsg, s.ptpDomain m = none → ptpEvent m.kind = false → Completes (.ptpMessage m) s (fun t => t = s)) ∧
    (∀ m : PtpMsg, s.ptpDomain m = none → ptpEvent m.kind = true → s.fifoFull 5 = false → Completes (.ptpMessage m) s (fun t =>
      t.time.fifos.getD 5 [] = s.time.fifos.getD 5 [] ++
        [stampRecord s 5 false m.software m.seqId.toNat (s.stamp 5 false m.software (time96Q m.ingress))] ∧
      t.time.d0 = s.time.d0 ∧ t.time.d1 = s.time.d1 ∧ t.objs = s.objs ∧ Changes [.time] s t)) ∧
    (∀ (m : PtpMsg) (d : Nat), s.ptpDomain m = some d → m.kind = .announce → (s.dom d).master = none →
      Completes (.ptpMessage m) s (fun t =>
        (t.dom d).master = some (ptpMaster m) ∧ t.n (kDomGmId d) = m.gmId.toNat ∧ t.n (kDomUtcOffset d) = m.utcOffset.toNat ∧
        ChangesObjs [kDomGmId d, kDomUtcOffset d] s t ∧ Changes [.objs, .time] s t)) ∧
    (∀ (m : PtpMsg) (d : Nat), s.ptpDomain m = some d → m.kind = .syncOneStep → s.fifoFull 5 = false →
      ((∀ y, (s.dom d).master = some y → y.sends m = false) → Completes (.ptpMessage m) s (fun t =>
        t.objs = s.objs ∧ t.time.d0 = s.time.d0 ∧ t.time.d1 = s.time.d1 ∧ Changes [.time] s t ∧
        (t.time.fifos.getD 5 []).length = (s.time.fifos.getD 5 []).length + 1)) ∧
      (∀ y, (s.dom d).master = some y → y.sends m = true → ptpIntervalOk m = true → m.software = false → (s.dom d).pathDelay = none →
        Completes (.ptpMessage m) s (fun t =>
          (t.dom d).t1t2 = some (time96Q m.remote, s.stamp 5 false false (time96Q m.ingress), false) ∧
          (t.dom d).reqOpen = some (s.dom d).reqSeq ∧
          t.time.ptpOut = s.time.ptpOut ++
            [⟨if s.bit (kDomPtpMode d) 1 then .pdelayReq else .delayReq, s.n (kDomPtpNum d), (s.dom d).reqSeq, 0⟩] ∧
          t.objs = s.objs ∧ Changes [.time] s t))) ∧
    (∀ x : Exchange, s.paired = false → Completes (.timeExchange x) s (fun t => t = s)) ∧
    (∀ x : Exchange, s.paired = true → (s.time.fifos.getD 4 []).length < 63 →
      Completes (.timeExchange x) s (fun t =>
        (t.time.fifos.getD 4 []).length = (s.time.fifos.getD 4 []).length + 2 ∧ (s.partnerRef = 0 → t.objs = s.objs ∧ Changes [.time] s t)) ∧
      ∀ r, s.partnerRef = r + 1 → x.software = false → s.n (kDomState r) = 1 → (s.dom r).run < 15 →
        Completes (.timeExchange x) s (fun t =>
          (t.dom r).off24 = ((((time96Q x.t2 : Int) - s.stamp 4 true false (time96Q x.t1)) -
            ((s.stamp 4 false false (time96Q x.t4) : Int) - time96Q x.t3)) / 2) * 256 ∧
          (t.dom r).lastAt = some s.cellQ ∧ t.n (kDomState r) = 1 ∧
          t.n (kDomUpdates r) = min (s.n (kDomUpdates r) + 1) (2 ^ 32 - 1) ∧
          ChangesObjs [kDomRate r, kDomUpdates r] s t ∧ Changes [.time, .objs] s t))

/-- The windows of the clock watch (R467) and of the drift count (R468), and loss of lock of a PLL (R466). A count inside 1,248 to
1,252 trips nothing; one outside, or a missing edge, trips its watcher, which finds the other clock lost. -/
def Obligations.ClockWatch : Prop :=
  ∀ s : State, s.dev.phase ≠ .reset →
    (∀ (w : Watcher) (n : W16), 1248 ≤ n.toNat → n.toNat ≤ 1252 → Completes (.clockWatchWindow w n) s (fun t =>
      t.tripped w = false ∧ t.dev.deviceFaults = s.dev.deviceFaults ∧ t.time.running = s.time.running ∧ t.objs = s.objs)) ∧
    (∀ (w : Watcher) (n : W16), (n.toNat < 1248 ∨ 1252 < n.toNat) → s.mon.tripRef = false → s.mon.tripGuard = false →
      Completes (.clockWatchWindow w n) s (fun t =>
        t.tripped w = true ∧ t.objs = s.objs ∧ (t.time.running = true → w = .onRefclk) ∧ (w = .onGuard → t.time.invalid = true) ∧
        t.dev.deviceFaults = s.dev.deviceFaults ++ [⟨if w = .onRefclk then 0x0204 else 0x0203, 0xFF, s.cycle, 0⟩])) ∧
    (∀ w : Watcher, s.mon.tripRef = false → s.mon.tripGuard = false → Completes (.clockEdgeTimeout w) s (fun t =>
      t.tripped w = true ∧ (w = .onGuard → t.time.running = false ∧ t.time.invalid = true) ∧
      t.dev.deviceFaults = s.dev.deviceFaults ++ [⟨if w = .onRefclk then 0x0204 else 0x0203, 0xFF, s.cycle, 0⟩])) ∧
    (∀ n : W32, Completes (.clkRatioWindow n) s (fun t =>
      t.n kClkRatio = n.toNat ∧ (n.toNat < 1048576 - 157 ∨ 1048576 + 157 < n.toNat → t.bit kClkStatus 2 = true) ∧
      ChangesObjs [kClkRatio, kClkStatus] s t ∧ Changes [.objs] s t)) ∧
    (∀ l : Pll, l ≠ .x → s.mon.pll.getD (pllNo l) false = true → Completes (.pllLockLoss l) s (fun t =>
      t.mon.pll.getD (pllNo l) false = false ∧ Changes [.mon, .dev] s t ∧
      t.dev.deviceFaults = s.dev.deviceFaults ++ [⟨if l = .k ∨ l = .s then 0x0204 else 0x0203, 0xFF, s.cycle,
        match l with | .n => 1 | .b => 2 | .p => 3 | .k => 1 | _ => 2⟩]))

/-! ### Device commands and states -/

/-- The command rows of R421, by code. -/
def commandRow (rq : Requester) (peer : Option PeerInfo) (failed : W64) : Nat → Option Instr
  | 0x01 => some (.cfgOpen rq)
  | 0x02 => some (.cfgCommit rq peer)
  | 0x03 => some (.cfgAbort rq)
  | 0x10 => some (.runEnable rq)
  | 0x11 => some (.holdReq rq)
  | 0x12 => some (.resume rq)
  | 0x13 => some (.stopReq rq)
  | 0x20 => some (.devReset rq failed)
  | 0x30 => some (.svcEnter rq)
  | 0x31 => some (.svcLeave rq)
  | 0x40 => some (.plannedSwap rq peer)
  | 0x41 => some (.detach rq)
  | _ => none

/-- The states of R421 in which a command is legal. -/
def commandStates : Nat → List DevState
  | 0x01 => [.inert, .ready]
  | 0x02 => [.config]
  | 0x03 => [.config]
  | 0x10 => [.ready]
  | 0x11 => [.run]
  | 0x12 => [.hold]
  | 0x13 => [.run, .hold, .degraded]
  | 0x20 => [.fault]
  | 0x30 => [.inert]
  | 0x31 => [.service]
  | 0x40 => [.ready, .run, .hold]
  | 0x41 => [.ready, .run, .hold, .degraded]
  | _ => []

/-- Level E for the commands that R421 gives it, level B for the others. -/
def commandLevel (code : Nat) : Nat := if 0x10 ≤ code ∧ code ≤ 0x13 then 0 else 1

/-- A requester may send a command: the dictionary serves it, its level suffices, no command of its own is unfinished, and this
device is no standby, or the command is one that a standby takes (R372, R386). -/
def MaySend (rq : Requester) (code : Nat) (s : State) : Prop :=
  s.served rq = true ∧ commandLevel code ≤ s.level rq ∧ (∀ q ∈ s.dev.cmds, q.rq ≠ rq) ∧
    (s.standby = false ∨ rq = .partner ∨ code = 0x41 ∨ s.dev.state = .service)

/-- No event waits that R28 puts before a new command: no device fault, channel fault or stop demand, and no earlier command is due. -/
def Quiet (s : State) : Prop :=
  s.dev.deviceFaults = [] ∧ s.dev.chanFaults = [] ∧ s.dev.stopDemand = false ∧ s.dev.ss2Demand = false ∧
    s.dev.degTimerEnd = false ∧ s.dev.shedEvent = 0 ∧ s.tierFell = false ∧
    ∀ c ∈ s.dev.cmds, s.time.running = true ∧ s.cycle < c.applyCycle

/-- The evaluation of events finds the torque grant of the axes as it left it (R299). -/
def TorqueKept (s : State) : Prop := s.axTorque = true ∨ s.axes.granted = false ∧ s.isIn [.run, .hold, .degraded] = false

/-- A command that may be sent and meets no earlier event. -/
def MayCommand (rq : Requester) (code : Nat) (s : State) : Prop := MaySend rq code s ∧ Quiet s

/-- A command that is not legal in the present state is refused with STATE_REFUSED and reported in DEV_CMD_LAST with its path and
cycle; the device state, the configuration, cell time, rings, motion and the safety outputs stay. A command whose requester has too
low a level is LEVEL_DENIED, ACC_DENIED is one more, and nothing else changes but the requester's record. -/
def Obligations.CommandsRefused : Prop :=
  (∀ (s : State) (rq : Requester) (peer : Option PeerInfo) (failed : W64) (code : Nat) (c : Instr),
      commandRow rq peer failed code = some c → MayCommand rq code s → TorqueKept s → s.dev.state ∉ commandStates code →
      Completes c s (fun t =>
        t.dev = s.dev ∧ t.staged = s.staged ∧ (t.rq rq).result = 0x00000401 ∧
        t.obj kDevCmdLast = le 2 code ++ le 1 (pathCode rq) ++ [0] ++ le 4 0x00000401 ++ le 8 s.cycle ∧
        ChangesObjs [kDevCmdLast, kRecStatus, kRecDrops] s t ∧ Changes [.objs, .dict, .pair, .recd, .free] s t)) ∧
  (∀ (s : State) (rq : Requester) (peer : Option PeerInfo) (failed : W64) (code : Nat) (c : Instr),
      commandRow rq peer failed code = some c → s.served rq = true → s.level rq < commandLevel code →
      Completes c s (fun t => t.dev = s.dev ∧ (t.rq rq).result = 0x00000201 ∧
        t.n kAccDenied = min (s.n kAccDenied + 1) (2 ^ 32 - 1) % 2 ^ 32 ∧ ChangesObjs [kAccDenied] s t ∧ Changes [.objs, .dict] s t))

/-- The transitions of R25 that a command makes, under the conditions of R25 and R421. -/
def Obligations.CommandTransitions : Prop :=
  ∀ (s : State) (rq : Requester),
    (MayCommand rq 0x01 s → s.dev.state = .inert ∨ s.dev.state = .ready → 1 ≤ s.tierActive → Completes (.cfgOpen rq) s (fun t =>
      t.dev.state = .config ∧ t.staged = some [] ∧ t.dev.cfgFromReady = decide (s.dev.state = .ready) ∧ (t.rq rq).result = 0)) ∧
    (MayCommand rq 0x03 s → s.dev.state = .config → Completes (.cfgAbort rq) s (fun t =>
      t.dev.state = .inert ∧ t.staged = none ∧ (t.rq rq).result = 0)) ∧
    (MayCommand rq 0x11 s → s.dev.state = .run → Completes (.holdReq rq) s (fun t =>
      t.dev.state = .hold ∧ (t.rq rq).result = 0)) ∧
    (MayCommand rq 0x12 s → s.dev.state = .hold → s.dev.stopDemand = false →
      (s.inputDemand false ||| s.inputDemand true) % 4 = 0 → Completes (.resume rq) s (fun t =>
      t.dev.state = .run ∧ (t.rq rq).result = 0)) ∧
    (MayCommand rq 0x13 s → s.dev.state = .run ∨ s.dev.state = .hold → Completes (.stopReq rq) s (fun t =>
      t.dev.state = .ready ∧ (t.rq rq).result = 0)) ∧
    (MayCommand rq 0x13 s → s.dev.state = .degraded → Completes (.stopReq rq) s (fun t =>
      t.dev.state = .fault ∧ t.n kFaultCause = 0x0407 ∧ (t.rq rq).result = 0)) ∧
    (MayCommand rq 0x30 s → s.dev.state = .inert → 1 ≤ s.tierActive → Completes (.svcEnter rq) s (fun t =>
      t.dev.state = .service ∧ (t.rq rq).result = 0)) ∧
    (MayCommand rq 0x31 s → s.dev.state = .service → Completes (.svcLeave rq) s (fun t =>
      t.dev.state = .inert ∧ (t.rq rq).result = 0)) ∧
    (MayCommand rq 0x41 s → s.isIn [.ready, .run, .hold, .degraded] = true → s.n kRedClaimState = 1 → Completes (.detach rq) s (fun t =>
      t.dev.state = s.dev.state ∧ t.pair.detachAt = some (s.cycle + 2) ∧ (t.rq rq).result = 0))

/-- RUN_ENABLE leads to RUN at a tier of 2 or 3 when nothing locks it, and the tier in use is TIER_ACTIVE; below tier 2 it is
refused with NO_RESOURCE. DEV_RESET leads from FAULT to INERT when the cause is gone; after a failed Tier 0 unit it is refused
with HW_FAULT. -/
def Obligations.RunAndResetCommands : Prop :=
  ∀ (s : State) (rq : Requester),
    (MayCommand rq 0x10 s → s.dev.state = .ready → 2 ≤ s.tierActive → s.resetByRun.runLocked = false →
      Completes (.runEnable rq) s (fun t => t.dev.state = .run ∧ (t.rq rq).result = 0 ∧ t.dev.tierInUse = s.tierActive)) ∧
    (MayCommand rq 0x10 s → s.dev.state = .ready → s.tierActive < 2 →
      Completes (.runEnable rq) s (fun t => t.dev = s.dev ∧ (t.rq rq).result = 0x00000501)) ∧
    (∀ failed, MayCommand rq 0x20 s → s.dev.state = .fault → s.n kTierAvail ≠ 0xFF → s.causeHolds = false →
      Completes (.devReset rq failed) s (fun t => t.dev.state = .inert ∧ (t.rq rq).result = 0 ∧ t.time.running = true ∧
        t.n kSafeChFault = 0)) ∧
    (∀ failed, MayCommand rq 0x20 s → s.dev.state = .fault → s.n kTierAvail = 0xFF →
      Completes (.devReset rq failed) s (fun t => t.dev = s.dev ∧ (t.rq rq).result = 0x00000601))

/-- CFG_COMMIT: with every commit check passed the staged copy becomes active, CFG_ERROR reads 0 and the device enters SYNC; when
a check fails the command is refused with OUT_OF_RANGE, CFG_ERROR names the object and the device stays in CONFIG; an open write
transfer of the staged copy is BUSY. PLANNED_SWAP, accepted, is set for CMD_LAG cycles later. The end of SYNC: with every exit
condition of R27 met the device enters READY, else it stays; the timeout leads to CONFIG with an empty staged copy; outside SYNC
neither does anything. -/
def Obligations.CommitSwapAndSync : Prop :=
  (∀ (s : State) (rq : Requester) (peer : Option PeerInfo),
      (MayCommand rq 0x02 s → TorqueKept s → s.dev.state = .config → s.stagedXfer = false →
        (s.candidate.commitCheck s.conf (s.keeps s.candidate .m) (s.keeps s.candidate .p) peer = none →
          Completes (.cfgCommit rq peer) s (fun t =>
            t.dev.state = .sync ∧ t.staged = none ∧ t.n kCfgError = 0 ∧ t.dev.committed = true ∧ (t.rq rq).result = 0)) ∧
        (∀ key, s.candidate.commitCheck s.conf (s.keeps s.candidate .m) (s.keeps s.candidate .p) peer = some key →
          Completes (.cfgCommit rq peer) s (fun t =>
            t.dev = s.dev ∧ t.staged = s.staged ∧ t.n kCfgError = key * 256 % 2 ^ 32 ∧ (t.rq rq).result = 0x00000302))) ∧
      (MayCommand rq 0x02 s → s.dev.state = .config → s.stagedXfer = true → Completes (.cfgCommit rq peer) s (fun t =>
        t.dev = s.dev ∧ t.staged = s.staged ∧ (t.rq rq).result = 0x00000402)) ∧
      (MayCommand rq 0x40 s → s.isIn [.ready, .run, .hold] = true →
        ({ s with pair := { s.pair with peerInfo := peer.or s.pair.peerInfo } } : State).swapRefusal = 0 →
        Completes (.plannedSwap rq peer) s (fun t =>
          t.dev = s.dev ∧ t.pair.swapAt = some (s.cycle + s.n kRedCmdLag) ∧ (t.rq rq).result = 0))) ∧
  (∀ s : State,
      (s.dev.state = .sync → s.syncReady = true → Completes .syncComplete s (fun t => t.dev.state = .ready)) ∧
      (s.dev.state ≠ .sync ∨ s.syncReady = false → Completes .syncComplete s (fun t => t = s)) ∧
      (s.dev.state = .sync → Completes .syncTimeout s (fun t =>
        t.dev.state = .config ∧ t.staged = some [] ∧ t.dev.syncExpired = true ∧ t.dev.cfgFromReady = false)) ∧
      (s.dev.state ≠ .sync → Completes .syncTimeout s (fun t => t = s)))

/-- Events in the order of R28: the first device fault that waits leads to FAULT with its type in FAULT_CAUSE, STO in both halves of
every arm and no staged copy, at a cycle start, at a substitute cycle start while the clock stands still, and before any command that
arrives, which is then not legal; a stop demand leads from RUN to READY. A cycle start begins its cycle, and without an event that
waits a substitute one leaves the state. Where no cycle number has changed, and where the clock runs on, each does nothing. The
premises leave no command and no request waiting. -/
def Obligations.DeviceFaultAtCycleStart : Prop :=
  ∀ s : State, s.dev.phase = .up → s.dev.cmds = [] →
    (∀ (f : DevFault) (rest : List DevFault), s.dev.deviceFaults = f :: rest → s.dev.state ≠ .fault → f.type < 65536 →
      (s.time.running = true → s.cycle ≠ s.time.lastCycle → s.dict.waiting = [] →
        Completes .cycleStart s (fun t => t.dev.state = .fault ∧ t.time.lastCycle = s.cycle)) ∧
      (s.time.running = false → Completes .substituteCycleStart s (fun t =>
        t.dev.state = .fault ∧ t.n kFaultCause = f.type ∧ t.staged = none ∧ t.time.running = false ∧
        ∀ a ∈ t.safe.arms, a.stoP = true ∧ a.stoH = true)) ∧
      (∀ (rq : Requester) (peer : Option PeerInfo) (failed : W64) (code : Nat) (c : Instr), commandRow rq peer failed code = some c →
        MaySend rq code s → code ≠ 0x20 → Completes c s (fun t => t.dev.state = .fault ∧ t.dev.deviceFaults = []))) ∧
    (s.time.running = true → s.cycle ≠ s.time.lastCycle → s.dict.waiting = [] →
      Completes .cycleStart s (fun t => t.time.lastCycle = s.cycle)) ∧
    (s.time.running = false → Quiet s → Completes .substituteCycleStart s (fun t =>
      t.dev.state = s.dev.state ∧ t.dev.cmds = [] ∧ t.time = s.time)) ∧
    (s.time.running = false → s.dev.deviceFaults = [] → s.dev.chanFaults = [] → s.dev.shedEvent ≠ 5 → s.dev.stopDemand = true →
      s.dev.state = .run → Completes .substituteCycleStart s (fun t =>
        t.dev.state = .ready ∧ t.dev.stopDemand = false ∧ t.time = s.time)) ∧
    (s.cycle = s.time.lastCycle → Completes .cycleStart s (fun t => t = s)) ∧
    (s.time.running = true → Completes .substituteCycleStart s (fun t => t = s))

/-! ### Writes and access -/

/-- The rows that write one object: requester, index, sub-index and the bytes written. -/
def writeRow : Instr → Option (Requester × W16 × Byte × Bytes)
  | .objectWrite rq index sub v => some (rq, index, sub, v)
  | .timeSet rq t => some (rq, 0x2000, 0x05, time96Bytes t)
  | .timeIncWrite rq v => some (rq, 0x2000, 0x02, le 4 v.toNat)
  | .phaseSlew rq v => some (rq, 0x2000, 0x03, le 8 v.toNat)
  | .cellRefWrite rq v => some (rq, 0x2000, 0x07, [v])
  | .accUnlock rq v => some (rq, 0x0200, 0x02, le 4 v.toNat)
  | .accVToken rq d => some (rq, 0x0200, 0x04, d)
  | .accLock rq v => some (rq, 0x0200, 0x05, [v])
  | .moveJoint rq t d => some (moveTarget rq t 1 d)
  | .moveLinear rq t d => some (moveTarget rq t 2 d)
  | .moveCircular rq t d => some (moveTarget rq t 3 d)
  | .moveSegment rq t d => some (moveTarget rq t 4 d)
  | .moveCam rq t d => some (moveTarget rq t 5 d)
  | .moveStop rq t d => some (moveTarget rq t 6 d)
  | .jogCmd rq a d => some (rq, BitVec.ofNat 16 (0x3003 + 0x100 * a.val), 0x01, d)
  | .grpClose rq g => some (rq, BitVec.ofNat 16 (0x3800 + g.val), 0x03, [1])
  | .grpOpen rq g => some (rq, BitVec.ofNat 16 (0x3800 + g.val), 0x03, [2])
  | .segTableWrite rq n d => some (rq, BitVec.ofNat 16 (0x3A00 + n.val / 128), BitVec.ofNat 8 (n.val % 128 + 1), d)
  | .camTableWrite rq n d => some (rq, BitVec.ofNat 16 (0x3A02 + n.val / 128), BitVec.ofNat 8 (n.val % 128 + 1), d)
  | .hcSwitchOn rq c => some (rq, BitVec.ofNat 16 (0x3900 + c.val), 0x0C, [1])
  | .hcSwitchOff rq c => some (rq, BitVec.ofNat 16 (0x3900 + c.val), 0x0C, [0])
  | .crReq rq a m => some (rq, 0x4202, BitVec.ofNat 8 (1 + a.val), le 4 m.toNat)
  | .cntSel rq e v => some (rq, BitVec.ofNat 16 (0x5410 + e.val), 0x08, v)
  | .cntClear rq e v => some (rq, BitVec.ofNat 16 (0x5410 + e.val), 0x0B, [v])
  | .cntClearAll rq v => some (rq, 0x5400, 0x02, [v])
  | .cmpValue rq c u v => some (rq, BitVec.ofNat 16 (0x6210 + c.val), BitVec.ofNat 8 (0x01 + 0x10 * u.val), le 8 v.toNat)
  | .disarm rq c u v => some (rq, BitVec.ofNat 16 (0x6210 + c.val), BitVec.ofNat 8 (0x07 + 0x10 * u.val), [v])
  | .safeSetDl rq d => some (rq, 0x7000, 0x08, d)
  | .safeBtCmd rq m => some (rq, 0x7000, 0x0D, [m])
  | .recSafeSect rq v => some (rq, 0x8000, 0x05, le 4 v.toNat)
  | .recClear rq v => some (rq, 0x8000, 0x06, [v])
  | .shedReenable rq v => some (rq, 0x8800, 0x04, [v])
  | .monCalCmd rq v => some (rq, 0x8820, 0x02, [v])
  | .syscalStep1 rq g uv => some (rq, 0x8820, 0x08, [g, 1, 0, 0] ++ le 4 uv.toNat)
  | .syscalStep2 rq g uv => some (rq, 0x8820, 0x08, [g, 2, 0, 0] ++ le 4 uv.toNat)
  | .imageWrite rq .main d => some (rq, 0x9000, 0x03, d)
  | .imageWrite rq .safety d => some (rq, 0x9000, 0x04, d)
  | .imageWrite rq .library d => some (rq, 0x9000, 0x05, d)
  | .secConfirm rq v => some (rq, 0x9000, 0x06, [v])
  | .secReboot rq v => some (rq, 0x9000, 0x07, [v])
  | .secOwnerKey rq d => some (rq, 0x9000, 0x09, d)
  | .secOwnerRevoke rq v => some (rq, 0x9000, 0x0A, [v])
  | .secDevLock rq v => some (rq, 0x9000, 0x0B, [v])
  | .attNonce rq d => some (rq, 0x9000, 0x10, d)
  | .attCert rq d => some (rq, 0x9000, 0x13, d)
  | .tstBscanEn rq v => some (rq, 0x9800, 0x01, [v])
  | _ => none
where
  /-- The command object of a move's target, and the descriptor with its TYPE byte. -/
  moveTarget (rq : Requester) (t : MoveTarget) (type : Nat) (d : Bytes) : Requester × W16 × Byte × Bytes :=
    let d := patch d 0 (le 1 type)
    match t with
    | .arm a => (rq, BitVec.ofNat 16 (0x3002 + 0x100 * a.val), 0x01, d)
    | .group g => (rq, BitVec.ofNat 16 (0x3800 + g.val), 0x05, d)
    | .axis n => (rq, BitVec.ofNat 16 (0x6000 + n.val), 0x14, d)

/-- Each of those rows is the write of its object: it answers what OBJECT_WRITE of the same bytes answers. What R386 to R390 say of
every write therefore holds of the row. -/
def Obligations.WriteRowsAreObjectWrites : Prop :=
  ∀ (c : Instr) (s : State) (rq : Requester) (index : W16) (sub : Byte) (v : Bytes), writeRow c = some (rq, index, sub, v) →
    exec c s = exec (.objectWrite rq index sub v) s

/-- The order of the checks of R386: the first that fails gives the abort code of the refusal, and no object but the counter of
denied levels and the recorder's changes. -/
def Obligations.WriteChecksInOrder : Prop :=
  ∀ (s : State) (rq : Requester) (index : W16) (sub : Byte) (v : Bytes), s.served rq = true → s.bit kSecStatus 0 = false →
    let refused (code : Nat) : Prop := Completes (.objectWrite rq index sub v) s (fun t =>
      (t.rq rq).result = code ∧ t.staged = s.staged ∧ t.dict.pendingWrites = s.dict.pendingWrites ∧
      ChangesObjs [kAccDenied, kRecStatus, kRecDrops, kSecStatus] s t)
    (objRow? index.toNat sub.toNat = none → indexExists index.toNat = false → refused 0x00000101) ∧
    (objRow? index.toNat sub.toNat = none → indexExists index.toNat = true → refused 0x00000102) ∧
    ∀ r, objRow? index.toNat sub.toNat = some r →
      (r.acc = .ro → refused 0x00000202) ∧
      (r.acc ≠ .ro → s.level rq < lvlNeed r.lvl → refused 0x00000201) ∧
      (r.acc ≠ .ro → lvlNeed r.lvl ≤ s.level rq → lengthOk r v.length = false → refused 0x00000301) ∧
      (r.acc = .rws → lvlNeed r.lvl ≤ s.level rq → lengthOk r v.length = true → r.writable.testBit (s.dev.state.code - 1) = false →
        refused 0x00000401) ∧
      (r.acc ≠ .ro → lvlNeed r.lvl ≤ s.level rq → lengthOk r v.length = true →
        (r.acc = .rws → r.writable.testBit (s.dev.state.code - 1) = true) →
        s.standby = true → rq ≠ .partner → index ≠ 0x7800 → s.dev.state ≠ .service →
        ¬ (index = 0x0110 ∧ sub = 0x01) → refused 0x00000402)

/-- Objects whose write only changes their value: not of the motion, Junction or line blocks, and none that commands something. -/
def PlainObject (index sub : Nat) : Prop :=
  (index < 0x3000 ∨ 0x7000 ≤ index) ∧
    (index, sub) ∉ [(0x0110, 0x01), (0x0200, 0x02), (0x0200, 0x04), (0x0200, 0x05), (0x0210, 0x01), (0x0210, 0x02), (0x0210, 0x03),
      (0x1000, 0x1D), (0x1400, 0x1D), (0x2000, 0x02), (0x2000, 0x03), (0x2000, 0x05), (0x2000, 0x07), (0x2100, 0x01), (0x2100, 0x02),
      (0x2100, 0x03), (0x2100, 0x11), (0x2100, 0x12), (0x2100, 0x13), (0x7000, 0x08), (0x7000, 0x0D), (0x7800, 0x01), (0x7800, 0x04),
      (0x8000, 0x05), (0x8000, 0x06), (0x8800, 0x04), (0x8810, 0x03), (0x8820, 0x02), (0x8820, 0x08), (0x9000, 0x03), (0x9000, 0x04),
      (0x9000, 0x05), (0x9000, 0x06), (0x9000, 0x07), (0x9000, 0x09), (0x9000, 0x0A), (0x9000, 0x0B), (0x9000, 0x10), (0x9000, 0x13),
      (0x9800, 0x01), (0x9800, 0x04)]

/-- A write that takes effect at once (R388, R390): the object holds the value with its reserved bits clear, no other object
changes, and nothing but the requester's record and what is forwarded beside it. -/
def Obligations.WriteAtOnceStoresValue : Prop :=
  ∀ (s : State) (rq : Requester) (index : W16) (sub : Byte) (v : Bytes) (r : ObjRow),
    objRow? index.toNat sub.toNat = some r → (r.acc = .rw ∨ r.acc = .rws) → PlainObject index.toNat sub.toNat →
    Allowed rq index.toNat sub.toNat v (writeOwn rq index.toNat sub.toNat v) s → Direct index.toNat sub.toNat s →
    Completes (.objectWrite rq index sub v) s (fun t =>
      t.obj (objKey index.toNat sub.toNat) = cleanValue index.toNat sub.toNat v ∧ (t.rq rq).result = 0 ∧
      ChangesObjs [objKey index.toNat sub.toNat] s t ∧ Changes [.objs, .dict, .pair] s t)

/-- A write in CONFIG to an object that is RWS there changes the staged copy and not the active configuration (R388). -/
def Obligations.WriteInConfigIsStaged : Prop :=
  ∀ (s : State) (rq : Requester) (index : W16) (sub : Byte) (v : Bytes) (r : ObjRow),
    objRow? index.toNat sub.toNat = some r → r.acc = .rws → r.writable.testBit 1 = true → s.dev.state = .config →
    s.staged.isSome = true → ¬ (index = 0x5000 ∧ sub = 0x0F) →
    Allowed rq index.toNat sub.toNat v (writeOwn rq index.toNat sub.toNat v) s →
    Completes (.objectWrite rq index sub v) s (fun t =>
      t.objs = s.objs ∧ t.cfg (objKey index.toNat sub.toNat) = cleanValue index.toNat sub.toNat v ∧
      (∀ k, k ≠ objKey index.toNat sub.toNat → t.cfg k = s.cfg k) ∧ (t.rq rq).result = 0 ∧ Changes [.staged, .dict, .pair] s t)

/-- A write by any of the rows, accepted in SYNC, READY, RUN, HOLD or DEGRADED, waits for its apply cycle, the next basic cycle on a
single device, and no object changes; WRITE_APPLY at that cycle gives the object its value, takes the write off the list, and leaves those that are
not due (R389). -/
def Obligations.WriteWaitsForApplyCycle : Prop :=
  (∀ (c : Instr) (s : State) (rq : Requester) (index : W16) (sub : Byte) (v : Bytes) (r : ObjRow),
    writeRow c = some (rq, index, sub, v) →
    objRow? index.toNat sub.toNat = some r → s.isIn [.sync, .ready, .run, .hold, .degraded] = true → s.paired = false →
    ¬ (index = 0x0110 ∧ sub = 0x01) → ¬ (index = 0x0200 ∧ (sub = 0x02 ∨ sub = 0x04 ∨ sub = 0x05)) → ¬ (index = 0x5000 ∧ sub = 0x0F) →
    Allowed rq index.toNat sub.toNat v (writeOwn rq index.toNat sub.toNat v) s →
    Completes c s (fun t =>
      t.dict.pendingWrites = s.dict.pendingWrites ++ [⟨rq, objKey index.toNat sub.toNat, v, s.cycle + 1⟩] ∧
      t.objs = s.objs ∧ (t.rq rq).result = 0 ∧ Changes [.dict] s t)) ∧
  (∀ (s : State) (w : PendingWrite) (later : List PendingWrite) (r : ObjRow), s.dict.pendingWrites = w :: later →
    w.applyCycle ≤ s.cycle → (∀ x ∈ later, s.cycle < x.applyCycle) → objRow? (keyIndex w.key) (keySub w.key) = some r →
    (r.acc = .rw ∨ r.acc = .rws) → PlainObject (keyIndex w.key) (keySub w.key) → s.dev.state ≠ .config →
    Completes .writeApply s (fun t =>
      t.obj w.key = cleanValue (keyIndex w.key) (keySub w.key) w.data ∧ t.dict.pendingWrites = later ∧
      ChangesObjs [w.key] s t ∧ Changes [.objs, .dict] s t))

/-- The levels of R392 and R393, in every device state: the held code raises to E, a valid service token to V, ACC_LOCK returns to
the base level, and so does the end of a token; a wrong code is LEVEL_DENIED, counts, and raises nothing. The eighth wrong code of a
requester within 60 s (960 units of 1/16 s) locks it out, and then the right code is refused as well, until ACC_LOCKOUT_EXPIRY. -/
def Obligations.AccessLevels : Prop :=
  (∀ (s : State) (rq : Requester), s.served rq = true →
      (∀ v : W32, writeCheck s rq 0x0200 0x02 (le 4 v.toNat) = 0 → (s.rq rq).lockout = false → v.toNat = s.n kAccECode →
        Completes (.accUnlock rq v) s (fun t => 1 ≤ t.level rq ∧ (t.rq rq).raised = max (s.rq rq).raised 1 ∧ (t.rq rq).result = 0 ∧
          (∀ q, q ≠ rq → t.level q = s.level q) ∧ t.objs = s.objs ∧ Changes [.dict] s t)) ∧
      (∀ v : W32, writeCheck s rq 0x0200 0x02 (le 4 v.toNat) = 0 → v.toNat ≠ s.n kAccECode →
        Completes (.accUnlock rq v) s (fun t => t.level rq = s.level rq ∧ (t.rq rq).result = 0x00000201 ∧
          t.n kAccDenied = min (s.n kAccDenied + 1) (2 ^ 32 - 1) % 2 ^ 32 ∧ ChangesObjs [kAccDenied] s t ∧ Changes [.objs, .dict] s t)) ∧
      (∀ d : Bytes, writeCheck s rq 0x0200 0x04 d = 0 → tokenOwn d s = 0 → s.sec.attNonce = none →
        Completes (.accVToken rq d) s (fun t => 3 ≤ t.level rq ∧ (t.rq rq).vUntil = some (num d 12 8) ∧
          ChangesObjs [kRecStatus, kRecDrops] s t ∧ Changes [.objs, .dict, .recd] s t)) ∧
      (writeCheck s rq 0x0200 0x05 [1] = 0 → Completes (.accLock rq 1) s (fun t =>
        t.level rq = s.baseLevel rq ∧ (t.rq rq).vUntil = none ∧ t.objs = s.objs ∧ Changes [.dict] s t)) ∧
      ((s.rq rq).vUntil.isSome = true → Completes (.tokenExpiry rq) s (fun t =>
        t.level rq = s.baseLevel rq ∧ (t.rq rq).vUntil = none ∧ t.objs = s.objs ∧ Changes [.dict] s t))) ∧
  (∀ (s : State) (rq : Requester) (v : W32), s.served rq = true → writeCheck s rq 0x0200 0x02 (le 4 v.toNat) = 0 →
      ((s.rq rq).lockout = false → v.toNat ≠ s.n kAccECode → 7 ≤ ((s.rq rq).wrong.filter (fun t => decide (s.recd.optime < t + 960))).length →
        Completes (.accUnlock rq v) s (fun t => (t.rq rq).lockout = true ∧ (t.rq rq).result = 0x00000201)) ∧
      ((s.rq rq).lockout = true → v.toNat = s.n kAccECode →
        Completes (.accUnlock rq v) s (fun t => (t.rq rq).lockout = true ∧ (t.rq rq).raised = (s.rq rq).raised ∧ (t.rq rq).result = 0x00000201)) ∧
      ((s.rq rq).lockout = true → Completes (.accLockoutExpiry rq) s (fun t => (t.rq rq).lockout = false ∧ t.objs = s.objs ∧ Changes [.dict] s t)))

/-! ### Dictionary messages -/

/-- A request is heard and executed at once: the dictionary serves its requester, its TID is new and no request of the requester
is open, no shedding stage limits the engine, its data fit a segment, it is not INDIRECT, a node names this unit, and a session
of the service port is open. -/
def Heard (rq : Requester) (m : DictMsg) (s : State) : Prop :=
  s.served rq = true ∧ (s.rq rq).tid ≠ some m.tid.toNat ∧ (s.rq rq).openReq = none ∧ s.n kShedStage = 0 ∧
    m.data.length ≤ s.segSize rq ∧ (rq = .pcie → m.flags.toNat.testBit 1 = false) ∧
    (∀ r a, rq = .node r a → m.dest.toNat = s.ownAddr) ∧
    (∀ ip port, rq = .session ip port → s.svcServes = true ∧
      s.dict.sessions.any (fun x => decide (x.ip = ip) && decide (x.port = port)) = true)

/-- The response to a message with another OP, FLAGS, PARAM and data; TID, object and DEST are those of the request (R396). -/
def answerTo (m : DictMsg) (op flags : Byte) (param : W32) (data : Bytes) : DictMsg :=
  { m with op := op, flags := flags, param := param, data := data }

/-- READ of a value that fits one segment returns it with LAST set, from a state in which only bookkeeping of the dictionary has
changed; SEG_READ returns the next segment of a snapshot; DESC returns the description of R397; a READ that a check of R386
refuses is answered with ABORT and its code. No object changes, but that the events which a slot engine has counted by the time its
counters are read may set its CNT_OVF (log entry 40). -/
def Obligations.ReadsAnswer : Prop :=
  let sameBut (m : DictMsg) (s t : State) : Prop :=
    let counters : Prop := 0x5410 ≤ m.index.toNat ∧ m.index.toNat ≤ 0x5461
    (¬ counters → t.objs = s.objs) ∧ (counters → ChangesObjs [kCntOvf (m.index.toNat - 0x5410)] s t) ∧
      Changes [.dict, .mon, .free, .cnts, .objs] s t
  ∀ (s : State) (rq : Requester) (m : DictMsg), Heard rq m s →
    (readCheck m.index.toNat m.sub.toNat s = 0 → s.mailbox? m.index.toNat m.sub.toNat = none →
      s.queue? m.index.toNat m.sub.toNat = none →
      Completes (.read rq m) s (fun t => sameBut m s t ∧ ∃ u : State, sameBut m s u ∧
          ((u.view rq m.index.toNat m.sub.toNat).length ≤ s.segSize rq →
            (t.rq rq).response = some (answerTo m 0x81 1 (BitVec.ofNat 32 (u.view rq m.index.toNat m.sub.toNat).length)
              (u.view rq m.index.toNat m.sub.toNat))))) ∧
    (readCheck m.index.toNat m.sub.toNat s ≠ 0 → Completes (.read rq m) s (fun t =>
      t.objs = s.objs ∧ (t.rq rq).result = readCheck m.index.toNat m.sub.toNat s ∧
      (t.rq rq).response = some (answerTo m 0x7F 1 (BitVec.ofNat 32 (readCheck m.index.toNat m.sub.toNat s)) []))) ∧
    (∀ r, objRow? m.index.toNat m.sub.toNat = some r → s.bit kSecStatus 0 = false → Completes (.desc rq m) s (fun t =>
      t.objs = s.objs ∧ (t.rq rq).response = some (answerTo m 0x85 1 0 (le 1 (typeCode r.type) ++ le 1 (accCode r.acc) ++
        le 1 (lvlCode r.lvl) ++ [0] ++ le 4 r.size ++ le 2 r.writable ++ [0, 0])))) ∧
    (∀ x, (s.rq rq).xfer = some x → x.isWrite = false → x.index = m.index.toNat → x.sub = m.sub.toNat → x.closed = false →
      x.snapshot = true → m.param.toNat = x.next → s.segSize rq * (x.next + 1) < x.total →
      Completes (.segRead rq m) s (fun t => t.objs = s.objs ∧ (t.rq rq).xfer = some { x with next := x.next + 1 } ∧
        (t.rq rq).response = some (answerTo m 0x83 (BitVec.ofNat 8 x.flags) m.param
          ((x.data.drop (s.segSize rq * x.next)).take (s.segSize rq)))))

/-- A write transfer (R399): WRITE without LAST opens it; SEG_WRITE with the expected number adds its data, one with the number
last received is acknowledged again and not stored twice, any other is OUT_OF_RANGE and leaves the transfer open; CANCEL and
XFER_TIMEOUT close it. None of these writes the object. -/
def Obligations.WriteTransfers : Prop :=
  ∀ (s : State) (rq : Requester) (m : DictMsg),
    (Heard rq m s →
      (m.flags.toNat.testBit 0 = false → (s.rq rq).xfer = none → s.xferBusy rq m.index.toNat m.sub.toNat = false → s.openXfers < 16 →
        ¬ (m.index = 0x9000 ∧ 3 ≤ m.sub.toNat ∧ m.sub.toNat ≤ 5) → Completes (.write rq m) s (fun t =>
          t.objs = s.objs ∧ (t.rq rq).response = some (answerTo m 0x82 1 0 []) ∧
          ∃ x, (t.rq rq).xfer = some x ∧ x.isWrite = true ∧ x.data = m.data ∧ x.total = m.param.toNat ∧ x.next = 1 ∧
            x.index = m.index.toNat ∧ x.sub = m.sub.toNat)) ∧
      (∀ x, (s.rq rq).xfer = some x → x.isWrite = true → x.index = m.index.toNat → x.sub = m.sub.toNat →
        (m.flags.toNat.testBit 0 = false → m.param.toNat = x.next → Completes (.segWrite rq m) s (fun t =>
          t.objs = s.objs ∧ (t.rq rq).xfer = some { x with data := x.data ++ m.data, next := x.next + 1 } ∧
          (t.rq rq).response = some (answerTo m 0x84 1 m.param []))) ∧
        (2 ≤ x.next → m.param.toNat + 1 = x.next → Completes (.segWrite rq m) s (fun t =>
          t.objs = s.objs ∧ (t.rq rq).xfer = some x ∧ (t.rq rq).response = some (answerTo m 0x84 1 m.param []))) ∧
        (m.param.toNat ≠ x.next → ¬ (2 ≤ x.next ∧ m.param.toNat + 1 = x.next) → Completes (.segWrite rq m) s (fun t =>
          t.objs = s.objs ∧ (t.rq rq).xfer = some x ∧ (t.rq rq).response = some (answerTo m 0x7F 1 0x00000302 []))) ∧
        Completes (.cancel rq m) s (fun t =>
          t.objs = s.objs ∧ (t.rq rq).xfer = none ∧ (t.rq rq).response = some (answerTo m 0x86 1 0 [])))) ∧
    ((s.rq rq).xfer.isSome = true → Completes (.xferTimeout rq) s (fun t =>
      (t.rq rq).xfer = none ∧ (∀ q, q ≠ rq → t.rq q = s.rq q) ∧ t.objs = s.objs ∧ Changes [.dict] s t))

/-- WRITE with LAST of a whole value to an object that only stores it, where the write takes effect at once: the object holds it and
the response is an acknowledgement without data; a length other than PARAM is TYPE_MISMATCH. -/
def Obligations.WriteMessageStores : Prop :=
  ∀ (s : State) (rq : Requester) (m : DictMsg) (r : ObjRow), Heard rq m s → m.flags.toNat.testBit 0 = true →
    objRow? m.index.toNat m.sub.toNat = some r → (r.acc = .rw ∨ r.acc = .rws) → PlainObject m.index.toNat m.sub.toNat →
    (m.data.length = m.param.toNat →
      Allowed rq m.index.toNat m.sub.toNat m.data (writeOwn rq m.index.toNat m.sub.toNat m.data) s →
      Direct m.index.toNat m.sub.toNat s →
      Completes (.write rq m) s (fun t =>
        t.obj (objKey m.index.toNat m.sub.toNat) = cleanValue m.index.toNat m.sub.toNat m.data ∧
        (t.rq rq).response = some (answerTo m 0x82 1 0 []) ∧ ChangesObjs [objKey m.index.toNat m.sub.toNat] s t ∧
        Changes [.objs, .dict, .pair, .mon, .free] s t)) ∧
    (m.data.length ≠ m.param.toNat → Completes (.write rq m) s (fun t =>
        t.objs = s.objs ∧ (t.rq rq).response = some (answerTo m 0x7F 1 0x00000301 [])))

/-- The repeat of a TID is answered with the response kept for it, and nothing is executed again (R401): no object, transfer or
waiting write changes, whatever the message. -/
def Obligations.RepeatedTidNotExecuted : Prop :=
  ∀ (s : State) (rq : Requester) (m a : DictMsg), s.served rq = true → (s.rq rq).tid = some m.tid.toNat →
    (s.rq rq).response = some a → (∀ ip port, rq ≠ .session ip port) → (∀ r n, rq = .node r n → m.dest.toNat = s.ownAddr) →
    ∀ c ∈ [Instr.read rq m, .write rq m, .segRead rq m, .segWrite rq m, .desc rq m, .cancel rq m],
      Completes c s (fun t => t = s.deliver rq a ∧ t.objs = s.objs ∧ t.dict.rqs = s.dict.rqs ∧
        t.dict.pendingWrites = s.dict.pendingWrites ∧ Changes [.dict, .free] s t)

/-- This unit's own requests (R403): PENDING clears the count of resends; the final response and ABORT of the awaited TID end the
request; a timeout sends it again until DICT_RETRY resends have been made, and then ends it. Another TID changes nothing. -/
def Obligations.OwnRequests : Prop :=
  ∀ (s : State) (k : OutKey) (q : OutReq), s.dict.outReqs = [q] → q.key = k → q.sent = true →
    (Completes (.pending k (BitVec.ofNat 16 q.tid)) s (fun t =>
      (q.tid < 65536 → t.dict.outReqs = [{ q with resends := 0 }]) ∧ t.objs = s.objs ∧ Changes [.dict] s t)) ∧
    (∀ m : DictMsg, m.tid.toNat = q.tid → Completes (.dictFinalResponse k m) s (fun t => t.dict.outReqs = [] ∧ Changes [.dict, .rings] s t)) ∧
    (∀ m : DictMsg, m.tid.toNat ≠ q.tid → Completes (.dictFinalResponse k m) s (fun t => t = s)) ∧
    (∀ (tid : W16) (code : W32), tid.toNat = q.tid → Completes (.abort k tid code) s (fun t => t.dict.outReqs = [] ∧ Changes [.dict, .rings] s t)) ∧
    (q.resends < s.n kDictRetry → Completes (.dictResponseTimeout k) s (fun t =>
      t.dict.outReqs = [{ q with resends := q.resends + 1 }] ∧
      t.dict.ringOut = s.dict.ringOut ++ [(k.ring, k.toAddr.toNat, q.msg)] ∧ t.objs = s.objs ∧ Changes [.dict] s t)) ∧
    (s.n kDictRetry ≤ q.resends → (s.ring k.ring).rec? k.toAddr.toNat = none →
      Completes (.dictResponseTimeout k) s (fun t => t.dict.outReqs = [] ∧ t.objs = s.objs ∧ Changes [.dict] s t))

/-- The service port (R406): ARP for SVC_IP and ICMP echo are answered, other addresses and other UDP ports are not; a ninth
session is refused with NO_RESOURCE; the end of a session drops it and what is kept for it. -/
def Obligations.ServicePort : Prop :=
  ∀ s : State,
    (∀ t0 f : W32, s.svcUp = true → (t0.toNat = s.n kSvcIp → Completes (.arpRequest t0 f) s (fun t =>
        t.dict.svcOut = s.dict.svcOut ++ [(f.toNat, 0x10000, (le 6 s.sec.fuses.mac).reverse ++ (le 4 (s.n kSvcIp)).reverse)] ∧
        t.objs = s.objs ∧ Changes [.dict] s t)) ∧
      (t0.toNat ≠ s.n kSvcIp → Completes (.arpRequest t0 f) s (fun t => t = s))) ∧
    (∀ (a b : W32) (p : Bytes), s.svcUp = true → (b.toNat = s.n kSvcIp → Completes (.icmpEcho a b p) s (fun t =>
        t.dict.svcOut = s.dict.svcOut ++ [(a.toNat, 0x10001, p)] ∧ t.objs = s.objs ∧ Changes [.dict] s t)) ∧
      (b.toNat ≠ s.n kSvcIp → Completes (.icmpEcho a b p) s (fun t => t = s))) ∧
    (∀ (ip : W32) (port dst : W16) (m : DictMsg), dst.toNat ≠ 47120 → Completes (.serviceDatagram ip port dst m) s (fun t => t = s)) ∧
    (∀ (ip : W32) (port : W16) (m : DictMsg), s.served (.session ip port) = true → s.svcServes = true →
      s.dict.sessions = [] → (s.rq (.session ip port)).tid = none → (s.rq (.session ip port)).openReq = none → s.n kShedStage = 0 →
      m.op = 6 → Completes (.serviceDatagram ip port 47120 m) s (fun t =>
        t.dict.sessions = [⟨0, ip, port, s.recd.optime⟩] ∧
        (m.data.length ≤ 1024 → (t.rq (.session ip port)).response = some (answerTo m 0x86 1 0 [])))) ∧
    (∀ (ip : W32) (port : W16) (m : DictMsg), s.served (.session ip port) = true → s.svcServes = true →
      s.dict.sessions.any (fun x => decide (x.ip = ip) && decide (x.port = port)) = false →
      (∀ i, i < 8 → s.dict.sessions.any (fun x => x.slot == i) = true) →
      Completes (.serviceDatagram ip port 47120 m) s (fun t =>
        t.dict.sessions = s.dict.sessions ∧
        t.dict.svcOut = s.dict.svcOut ++ [(ip.toNat, port.toNat, msgBytes (answerTo m 0x7F 1 0x00000501 []))] ∧
        t.objs = s.objs ∧ Changes [.dict] s t)) ∧
    (∀ (ip : W32) (port : W16), Completes (.sessionTimeout ip port) s (fun t =>
      t.dict.sessions.any (fun x => decide (x.ip = ip) && decide (x.port = port)) = false ∧
      t.level (.session ip port) = t.baseLevel (.session ip port) ∧ (t.rq (.session ip port)).xfer = none ∧
      (∀ q, q ≠ .session ip port → t.rq q = s.rq q) ∧ t.objs = s.objs ∧ Changes [.dict] s t))

/-! ### Host windows -/

/-- The doorbell (R410): 1 while no request is busy sets REQ_BUSY or, when the response came at once, RSP_READY without it; a
doorbell while REQ_BUSY is set does not start a second request; a value other than 1 does nothing. The premise of the first
clause leaves the request buffer with a CANCEL, which any path may send. -/
def Obligations.DoorbellSubmits : Prop :=
  ∀ (s : State) (p : HostPath), s.windowUp p = true →
    (∀ v : W32, v ≠ 1 → Completes (.doorbell p v) s (fun t => t.objs = s.objs ∧ (t.host p).status = (s.host p).status ∧ Changes [.dict] s t)) ∧
    ((s.host p).status.testBit 4 = true → Completes (.doorbell p 1) s (fun t =>
      (t.host p).status.testBit 7 = true ∧ (t.host p).status.testBit 4 = true ∧ (t.host p).reqBuf = (s.host p).reqBuf ∧
      (t.host p).rspBuf = (s.host p).rspBuf ∧ t.objs = s.objs ∧ Changes [.dict] s t)) ∧
    ((s.host p).status.testBit 4 = false → (parseMsg (s.host p).reqBuf).op = 6 → (parseMsg (s.host p).reqBuf).data.length ≤ 1024 →
      (s.rq (pathRq p)).tid ≠ some (parseMsg (s.host p).reqBuf).tid.toNat →
      (s.rq (pathRq p)).openReq = none → s.n kShedStage = 0 →
      Completes (.doorbell p 1) s (fun t =>
        (t.host p).status.testBit 4 = false ∧ (t.host p).status.testBit 3 = true ∧ (t.host p).intStatus.testBit 0 = true ∧
        (t.host p).rspBuf = msgBytes (answerTo (parseMsg (s.host p).reqBuf) 0x86 1 0 []) ∧ t.objs = s.objs))

/-- Words of the host registers: INT_STATUS and HOST_STATUS clear the bits written 1, INT_ENABLE holds its low byte; a misaligned
write is ignored and sets DWERR; for an entry of an object of more than one word, a lower word goes into the write latch and the
highest without its latch is TYPE_MISMATCH. An SPI write of one word is the same access, and a misaligned SPI address sets
SPI_FRAME. -/
def Obligations.WindowWrites : Prop :=
  ∀ (s : State) (p : HostPath), s.windowUp p = true →
    (∀ v : W32, Completes (.directWrite p 0x08 v) s (fun t =>
      (t.host p).intStatus = (s.host p).intStatus - ((s.host p).intStatus &&& v.toNat &&& 0xFF) ∧ t.objs = s.objs ∧ Changes [.dict] s t)) ∧
    (∀ v : W32, Completes (.directWrite p 0x0C v) s (fun t =>
      (t.host p).intEnable = v.toNat % 256 ∧ t.objs = s.objs ∧ Changes [.dict] s t)) ∧
    (∀ (o : W16) (v : W32), o.toNat % 4 ≠ 0 → Completes (.directWrite p o v) s (fun t =>
      (t.host p).status.testBit 6 = true ∧ t.dict.rqs = s.dict.rqs ∧ t.objs = s.objs ∧ Changes [.dict] s t)) ∧
    (∀ (o : W16) (v : W32) (r : ObjRow), o.toNat % 4 = 0 → 0x8000 ≤ o.toNat → s.entry? ((o.toNat - 0x8000) / 16) = some r →
      o.toNat % 16 / 4 + 1 < r.words → Completes (.directWrite p o v) s (fun t =>
        (∃ ws, (t.host p).latch = some ((o.toNat - 0x8000) / 16, (o.toNat % 16 / 4, v.toNat) :: ws)) ∧
        t.objs = s.objs ∧ Changes [.dict] s t)) ∧
    (∀ (o : W16) (v : W32) (r : ObjRow), o.toNat % 4 = 0 → 0x8000 ≤ o.toNat → s.entry? ((o.toNat - 0x8000) / 16) = some r →
      o.toNat % 16 / 4 + 1 = r.words → 2 ≤ r.words → (s.host p).latch = none → Completes (.directWrite p o v) s (fun t =>
        (t.host p).directErr = 0x00000301 ∧ (t.host p).status.testBit 6 = true ∧ (t.host p).intStatus.testBit 7 = true ∧
        t.objs = s.objs ∧ Changes [.dict] s t)) ∧
    (∀ (o : W16) (b0 b1 b2 b3 : Byte), p = .spi → o.toNat % 4 = 0 →
      exec (.spiWrite o [b0, b1, b2, b3]) s = exec (.directWrite .spi o (BitVec.ofNat 32 (leVal [b0, b1, b2, b3]))) s) ∧
    (∀ (o : W16) (l : Bytes), p = .spi → o.toNat % 4 ≠ 0 → Completes (.spiWrite o l) s (fun t =>
      (t.host .spi).status.testBit 2 = true ∧ t.objs = s.objs ∧ Changes [.dict] s t))

/-- The shadow of R414 on CYCLE_LO and CYCLE_HI: a base word read returns the low word of the live cycle number and keeps the whole
value; a higher word read afterwards returns the kept high word, without TEAR, whatever the cycle number has become; without a
shadow it returns the live one and sets TEAR. An 8-byte read returns both words of one sample. -/
def Obligations.CycleReadsAreCoherent : Prop :=
  ∀ s : State, s.windowUp .pcie = true →
    Completes (.baseWordRead .pcie 0x18) s (fun t =>
      (t.host .pcie).lastRead = [s.cycle % 2 ^ 32] ∧ (t.rq .pcie).shadow = some (0x18, le 8 s.cycle) ∧ t.objs = s.objs ∧ Changes [.dict] s t) ∧
    (∀ n : Nat, (s.rq .pcie).shadow = some (0x18, le 8 n) → Completes (.higherWordRead .pcie 0x1C) s (fun t =>
      (t.host .pcie).lastRead = [n / 2 ^ 32 % 2 ^ 32] ∧ (t.host .pcie).status = (s.host .pcie).status ∧
      (t.rq .pcie).shadow = some (0x18, le 8 n) ∧ t.objs = s.objs ∧ Changes [.dict] s t)) ∧
    ((s.rq .pcie).shadow = none → Completes (.higherWordRead .pcie 0x1C) s (fun t =>
      (t.host .pcie).lastRead = [s.cycle / 2 ^ 32 % 2 ^ 32] ∧ (t.host .pcie).status.testBit 0 = true ∧ t.objs = s.objs ∧ Changes [.dict] s t)) ∧
    Completes (.qwordRead 0x18) s (fun t =>
      (t.host .pcie).lastRead = [s.cycle % 2 ^ 32, s.cycle / 2 ^ 32 % 2 ^ 32] ∧ t.objs = s.objs ∧ Changes [.dict] s t)

/-- SPI reads and status bytes (R413): SPI_READ returns as many words as are asked for, those of the host registers and buffers as
they stand, and a misaligned address sets SPI_FRAME; SPI_STATUS returns the low byte of HOST_STATUS as often as is asked for. A read of the first result of a mailbox object marks it, and a read of a queue object removes what it
returns (R416, R417). An INDIRECT read moves the value into the exchange area, or is TYPE_MISMATCH when it does not fit (R412). -/
def Obligations.SpiMailboxQueueReads : Prop :=
  ∀ s : State,
    (s.windowUp .spi = true →
      (∀ (o : W16) (n : Nat), o.toNat % 4 = 0 → Completes (.spiRead o n) s (fun t => (t.host .spi).lastRead.length = n ∧
        (o.toNat + 4 * n ≤ 0x18 ∨ 0x20 ≤ o.toNat ∧ o.toNat + 4 * n ≤ 0x8000 →
          (t.host .spi).lastRead = (List.range n).map (fun i => s.regWord .spi (o.toNat + 4 * i)) ∧ t.objs = s.objs ∧
          Changes [.dict] s t))) ∧
      (∀ (o : W16) (n : Nat), o.toNat % 4 ≠ 0 → Completes (.spiRead o n) s (fun t =>
        (t.host .spi).status.testBit 2 = true ∧ (t.host .spi).lastRead = (s.host .spi).lastRead ∧ t.objs = s.objs ∧ Changes [.dict] s t)) ∧
      (∀ n : Nat, Completes (.spiStatus n) s (fun t =>
        (t.host .spi).lastRead = List.replicate n (s.hostStatus .spi % 256) ∧ t.objs = s.objs ∧ Changes [.dict] s t))) ∧
    (∀ rq : Requester, Heard rq (s.nextRead rq 0x4000 0x02) s → s.solver.result.length = 64 →
      s.bit kSecStatus 0 = false → Completes (.mailboxRead rq 0x4000 0x02) s (fun t =>
        t.solver = s.solver ∧ t.objs = s.objs ∧
        (t.rq rq).marks.any (fun k => k.key == objKey 0x4000 0x02 && k.seq == num s.solver.result 0 4 && decide (1 ≤ k.count)) = true)) ∧
    (∀ rq : Requester, Heard rq (s.nextRead rq 0x0112 0x01) s → s.bit kSecStatus 0 = false →
      (∀ e ∈ s.dict.hostEvents, e.length = 40) → s.dict.hostEvents.length ≤ 5 → 240 ≤ s.segSize rq →
      Completes (.queueRead rq 0x0112 0x01) s (fun t => t.dict.hostEvents = [] ∧ t.objs = s.objs ∧
        ∃ m, (t.rq rq).response = some m ∧ m.data = s.dict.hostEvents.flatten)) ∧
    (∀ (m : DictMsg) (off len : Nat), s.dict.indirect = some (m, off, len) → m.op = 1 → m.index = 0x2000 → m.sub = 0x0B →
      s.bit kSecStatus 0 = false → memWf s.dict.exchange = true →
      (8 ≤ len → Completes .indirectTransferDone s (fun t => t.dict.indirect = none ∧
        memRead t.dict.exchange off 8 = le 8 s.cycle ∧ (∀ a, a < off ∨ off + 8 ≤ a → memGet t.dict.exchange a = memGet s.dict.exchange a) ∧
        t.objs = s.objs)) ∧
      (len < 8 → Completes .indirectTransferDone s (fun t => t.dict.indirect = none ∧ t.dict.exchange = s.dict.exchange ∧
        (t.rq .pcie).result = 0x00000301 ∧ t.objs = s.objs))) ∧
    (s.dict.indirect = none → Completes .indirectTransferDone s (fun t => t = s))

/-! ### Wadra rings -/

/-- No other node of the rings has changed, and nothing outside the rings. -/
def OnlyNode (r : RingId) (a : Nat) (s t : State) : Prop :=
  (∀ r' a', ¬ (r' = r ∧ a' = a) → t.node r' a' = s.node r' a') ∧ t.rings.m = s.rings.m ∧ t.rings.p = s.rings.p ∧ Changes [.rings] s t

/-- The states of an ordinary node (R105): eight consistent SYNC frames lock it, its delays make it MEASURED, its own assignment
ASSIGNED, cycle position 0 INTEGRATED, EXCLUDE EXCLUDED, and the loss of SYNC LISTEN. A delay value that is not 8 bytes, an
assignment for another address or table, and EXCLUDE in another state or with another value than 1 leave the state. A SYNC passes
through the node, whose forwarding delay is its own and free (log entry 61). -/
def Obligations.NodeStates : Prop :=
  ∀ (s : State) (r : RingId) (a : BitVec 10),
    let n := s.node r a.toNat
    (∀ v : Bytes, v.length = 8 → n.state = .locked ∨ n.state = .excluded → Completes (.nodeDelayWrite r a v) s (fun t =>
      (t.node r a.toNat).state = .measured ∧ (t.node r a.toNat).delayPending = some v ∧ OnlyNode r a.toNat s t)) ∧
    (∀ v : Bytes, v.length ≠ 8 → Completes (.nodeDelayWrite r a v) s (fun t => t = s)) ∧
    (∀ v : Bytes, n.state = .measured → num v 0 2 = a.toNat → num v 6 2 = n.ttId → Completes (.nodeAssignWrite r a v) s (fun t =>
      (t.node r a.toNat).state = .assigned ∧ (t.node r a.toNat).assign = v ∧ OnlyNode r a.toNat s t)) ∧
    (∀ v : Bytes, n.state = .measured → num v 0 2 ≠ a.toNat ∨ num v 6 2 ≠ n.ttId → Completes (.nodeAssignWrite r a v) s (fun t =>
      t.node r a.toNat = n ∧ OnlyNode r a.toNat s t)) ∧
    (n.state = .integrated → Completes (.exclude r ⟨a, 1⟩) s (fun t => (t.node r a.toNat).state = .excluded ∧ OnlyNode r a.toNat s t)) ∧
    (n.state ≠ .integrated → Completes (.exclude r ⟨a, 1⟩) s (fun t => t.node r a.toNat = n ∧ OnlyNode r a.toNat s t)) ∧
    (∀ v : Byte, v ≠ 1 → Completes (.exclude r ⟨a, v⟩) s (fun t => t = s)) ∧
    (∀ (sd : Side) (f : Frame), n.state = .listen → n.cs = .listen ∨ n.cs = .integrate → n.syncRun = 7 → n.lastSync = some f.seq.toNat → f.seq.toNat + 1 < 2 ^ 32 →
      syncConsistent { f with seq := f.seq + 1 } = true → f.mpos.toNat % 64 ≠ 0 →
      Completes (.sync (.node r a) sd { f with seq := f.seq + 1 }) s (fun t =>
        (t.node r a.toNat).state = .locked ∧ (t.node r a.toNat).syncRun = 8 ∧ OnlyNode r a.toNat s { t with free := s.free })) ∧
    (∀ (sd : Side) (f : Frame), n.state = .assigned → f.mpos.toNat % 64 = 0 → Completes (.sync (.node r a) sd f) s (fun t =>
      (t.node r a.toNat).state = .integrated ∧ (t.node r a.toNat).senderCtr = 0 ∧ OnlyNode r a.toNat s { t with free := s.free })) ∧
    ∀ m : Bool, Completes (.syncLoss ⟨.node r a, m⟩) s (fun t =>
      (t.node r a.toNat).state = .listen ∧ (t.node r a.toNat).lastSync = none ∧
      (t.node r a.toNat).cs = (if n.cs = .integrate ∧ m = true then .listen else n.cs) ∧ OnlyNode r a.toNat s t)

/-- The cold start of R97 at this unit: START from a lower address makes it integrate, from a higher one start itself, from its own
address with another serial number back off with the duplicate reported; the listen time ends in COLDSTART, the back-off in
LISTEN, the 64th START in sending SYNC from the next cycle, and the loss of SYNC for 2 matrices while integrating in LISTEN. The
eighth consistent SYNC of a head unit locks the grid (log entry 78). A capable node starts itself by the same rule. -/
def Obligations.ColdStart : Prop :=
  ∀ (s : State) (r : RingId) (f : Frame),
    let x := s.ring r
    (x.cs = .listen → f.addr.toNat < s.ownAddr → Completes (.start (.head r) f) s (fun t =>
      (t.ring r).cs = .integrate ∧ t.objs = s.objs ∧ Changes [.rings] s t)) ∧
    (x.cs = .listen → s.ownAddr < f.addr.toNat → Completes (.start (.head r) f) s (fun t =>
      (t.ring r).cs = .coldstart ∧ (t.ring r).attempt = min 255 (x.attempt + 1) ∧ (t.ring r).startsSent = 0 ∧ t.objs = s.objs ∧ Changes [.rings] s t)) ∧
    (x.cs = .listen ∨ x.cs = .coldstart → f.addr.toNat = s.ownAddr → startSerial f ≠ s.sec.fuses.serial →
      Completes (.start (.head r) f) s (fun t =>
        (t.ring r).cs = .backoff ∧ t.bit (kRingStatus (ringNo r)) 2 = true ∧ ChangesObjs [kRingStatus (ringNo r)] s t ∧ Changes [.rings, .objs] s t)) ∧
    (x.cs = .coldstart → f.addr.toNat < s.ownAddr → Completes (.start (.head r) f) s (fun t =>
      (t.ring r).cs = .integrate ∧ t.objs = s.objs ∧ Changes [.rings] s t)) ∧
    (x.cs = .listen → Completes (.coldstartListenTimeout (.head r)) s (fun t => (t.ring r).cs = .coldstart ∧ Changes [.rings] s t)) ∧
    (x.cs ≠ .listen → Completes (.coldstartListenTimeout (.head r)) s (fun t => t = s)) ∧
    (x.cs = .coldstart → Completes (.coldstartComplete (.head r)) s (fun t =>
      (t.ring r).cs = .running ∧ (t.ring r).syncFrom = s.cycle + 1 ∧ Changes [.rings] s t)) ∧
    (x.cs = .backoff → Completes (.backoffElapsed (.head r)) s (fun t => (t.ring r).cs = .listen ∧ Changes [.rings] s t)) ∧
    (x.cs = .integrate → Completes (.syncLoss ⟨.head r, true⟩) s (fun t => (t.ring r).cs = .listen ∧ Changes [.rings] s t)) ∧
    (∀ m : Bool, x.cs ≠ .integrate ∨ m = false → Completes (.syncLoss ⟨.head r, m⟩) s (fun t => t = s)) ∧
    (∀ sd : Side, x.cs = .integrate → x.syncRun = 7 → x.lastSync = some f.seq.toNat → f.addr.toNat ≤ 1 → s.pair.rejoining = false →
      syncConsistent { f with seq := f.seq + 1 } = true → Completes (.sync (.head r) sd { f with seq := f.seq + 1 }) s (fun t =>
        (t.ring r).cs = .running ∧ Changes [.rings] s t)) ∧
    (∀ sd : Side, x.cs = .listen → f.addr.toNat ≤ 1 → Completes (.sync (.head r) sd f) s (fun t =>
      (t.ring r).cs = .integrate ∧ (t.ring r).syncRun = 1 ∧ (t.ring r).lastSync = some f.seq.toNat ∧ Changes [.rings] s t)) ∧
    (∀ a : BitVec 10,
      (s.capable r a.toNat = true → (s.node r a.toNat).cs = .listen → Completes (.coldstartListenTimeout (.node r a)) s (fun t =>
        (t.node r a.toNat).cs = .coldstart ∧ (t.node r a.toNat).attempt = min 255 ((s.node r a.toNat).attempt + 1) ∧
        (t.node r a.toNat).startsSent = 0 ∧ OnlyNode r a.toNat s t)) ∧
      ((s.node r a.toNat).cs = .coldstart → Completes (.coldstartComplete (.node r a)) s (fun t =>
        (t.node r a.toNat).cs = .running ∧ (t.node r a.toNat).startsSent = 64 ∧ OnlyNode r a.toNat s t)) ∧
      ((s.node r a.toNat).cs = .backoff → Completes (.backoffElapsed (.node r a)) s (fun t =>
        (t.node r a.toNat).cs = .listen ∧ OnlyNode r a.toNat s t)))

/-- FRAME_RECEIVE (R41, R42, R82, R114, R117): in pass-through nothing is taken. A frame whose header fails its check counts at offset
0 of the port's errors, at a node's port of the node's, one that fails a later check of R82 at offset 4, and neither is stored or
stamped, though both are forwarded (R63). Where no window is checked, a valid SYNC leaves its stamp in the FIFO of the port, the
first copy of a DATA frame of the present cycle is kept, a second one counts at offset 20, and one of another cycle at offset 16. -/
def Obligations.InvalidFramesCounted : Prop :=
  (∀ (s : State) (port : Port) (r : RingId) (p : Nat) (ok0 ok1 sw : Bool) (b : Bytes) (st : Time96), s.dev.phase = .up →
    portRing port = some (r, p) →
    let counts (off : Nat) : Prop := Completes (.frameReceive (.own port) ok0 b ok1 st sw) s (fun t =>
      t.obj (kPortErr (ringNo r)) = errInc (s.obj (kPortErr (ringNo r))) p off ∧ ChangesObjs [kPortErr (ringNo r)] s t ∧
      Changes [.objs, .rings] s t)
    let f := parseFrame r b
    (s.pair.passThrough = true → Completes (.frameReceive (.own port) ok0 b ok1 st sw) s (fun t => t = s)) ∧
    (s.pair.passThrough = false → num b 14 2 ≠ hcrc (b.take 14) ∨ b.length < 16 → counts 0) ∧
    (s.pair.passThrough = false → num b 14 2 = hcrc (b.take 14) → 16 ≤ b.length → ok0 = false ∨ frameBodyOk b (ringNo r) ok1 = false → counts 4) ∧
    (s.pair.passThrough = false → num b 14 2 = hcrc (b.take 14) → 16 ≤ b.length → ok0 = true → frameBodyOk b (ringNo r) ok1 = true →
      (s.ring r).cs ≠ .running ∨ (s.ring r).measured = false →
      (f.type = 0 → s.time.fifos.length = 6 → s.fifoFull (portCode port) = false →
        Completes (.frameReceive (.own port) ok0 b ok1 st sw) s (fun t =>
          t.time.fifos.getD (portCode port) [] = s.time.fifos.getD (portCode port) [] ++
            [stampRecord s (portCode port) false (sw || s.bit kTstPortLoop (portCode port)) f.slot.toNat
              (s.stamp (portCode port) false (sw || s.bit kTstPortLoop (portCode port)) (time96Q st))] ∧
          t.objs = s.objs ∧ Changes [.time, .rings] s t)) ∧
      (f.type = 1 → f.seq.toNat = s.cycle % 2 ^ 32 → ((s.ring r).inSlot f.slot.toNat).kept ≠ some f.seq.toNat →
        Completes (.frameReceive (.own port) ok0 b ok1 st sw) s (fun t =>
          ((t.ring r).inSlot f.slot.toNat).kept = some f.seq.toNat ∧ t.objs = s.objs ∧ Changes [.rings] s t)) ∧
      (f.type = 1 → f.seq.toNat = s.cycle % 2 ^ 32 → ((s.ring r).inSlot f.slot.toNat).kept = some f.seq.toNat → counts 20) ∧
      (f.type = 1 → f.seq.toNat ≠ s.cycle % 2 ^ 32 → counts 16))) ∧
  (∀ (s : State) (r : RingId) (a : BitVec 10) (sd : Side) (ok0 ok1 sw : Bool) (b : Bytes) (st : Time96),
    let counts (off : Nat) : Prop := Completes (.frameReceive (.node r a sd) ok0 b ok1 st sw) s (fun t =>
      (t.node r a.toNat).err = errInc (s.node r a.toNat).err (sideNo sd) off ∧ OnlyNode r a.toNat s { t with free := s.free })
    (num b 14 2 ≠ hcrc (b.take 14) ∨ b.length < 16 → counts 0) ∧
    (num b 14 2 = hcrc (b.take 14) → 16 ≤ b.length → ok0 = false ∨ frameBodyOk b (ringNo r) ok1 = false → counts 4))

/-- Accepted DATA and REPEAT frames (R115 to R117, R518): the inbound buffer of the slot holds payload, SEQ and AGE; a plain RX range
of the slot puts its bytes into its object and no other object changes, and a value that breaks its type's rule is not stored. A
second copy, and a frame whose SEQ is not the one expected, bring nothing, and neither does NULL. The premises name a slot without
safety connection. -/
def Obligations.DataFramesFillSlots : Prop :=
  ∀ (s : State) (f : Frame) (st : Time96) (c : Instr), c = .data f st ∨ c = .repeat f st → s.dev.phase = .up →
    s.pair.passThrough = false → s.connRecs = [] → s.safe.bt = none →
    (s.seqExpected f = false ∨ ((s.ring f.ring).inSlot f.slot.toNat).taken = some f.seq.toNat → Completes c s (fun t => t = s)) ∧
    (s.seqExpected f = true → ((s.ring f.ring).inSlot f.slot.toNat).taken ≠ some f.seq.toNat →
      (s.rxOf f.ring f.slot.toNat = [] → Completes c s (fun t =>
        ((t.ring f.ring).inSlot f.slot.toNat).payload = f.payload ∧ ((t.ring f.ring).inSlot f.slot.toNat).seq = f.seq.toNat ∧
        ((t.ring f.ring).inSlot f.slot.toNat).age = f.age.toNat ∧
        (∀ sl, sl ≠ f.slot.toNat → (t.ring f.ring).inSlot sl = (s.ring f.ring).inSlot sl) ∧ t.objs = s.objs ∧ Changes [.rings] s t)) ∧
      (∀ (no : Nat) (e : MapE), s.rxOf f.ring f.slot.toNat = [(no, e)] → e.token = false → e.index < 0x3900 ∨ 0x4200 ≤ e.index →
        objKey e.index e.sub ≠ kSafeConn →
        (rxOk e (slice f.payload e.off e.len) = true → Completes c s (fun t =>
          t.obj (objKey e.index e.sub) = cleanValue e.index e.sub (slice f.payload e.off e.len) ∧
          ChangesObjs [objKey e.index e.sub] s t ∧ Changes [.rings, .objs] s t)) ∧
        (rxOk e (slice f.payload e.off e.len) = false → Completes c s (fun t => t.objs = s.objs ∧ Changes [.rings] s t)))) ∧
    Completes (.null f) s (fun t => t = s)

/-- A NODE slot (R110, R111): a correct frame clears the run of violations, a wrong one lengthens it, the third in a row excludes the
node and stops the cell when the node is of ring M and the device moves; in the cycle of a timetable change nothing counts. -/
def Obligations.NodeSlotViolations : Prop :=
  ∀ (s : State) (r : RingId) (slot : BitVec 12) (e : SlotE) (n : NodeRec), s.dev.phase = .up → s.sends r = true → slot ≠ 0 →
    (s.slots r).find? (fun e => e.slot == slot.toNat) = some e → e.occurs s.cycle = true → e.cls = 0 →
    (s.ring r).rec? e.addr = some n → n.substituted = false → n.sends = true → n.state = .integrated → s.standby = false →
    (Completes (.slotOccurrence r slot .correct) s (fun t =>
      ((t.ring r).rec? e.addr).map NodeRec.consec = some 0 ∧ ((t.ring r).rec? e.addr).map NodeRec.state = some .integrated ∧
      t.objs = s.objs ∧ Changes [.rings] s t)) ∧
    (∀ seen, seen ≠ .correct → (s.ring r).changing s.cycle = true → Completes (.slotOccurrence r slot seen) s (fun t => t = s)) ∧
    (∀ seen, seen ≠ .correct → (s.ring r).changing s.cycle = false → n.consec ≠ 2 → n.consec < 255 →
      Completes (.slotOccurrence r slot seen) s (fun t =>
        ((t.ring r).rec? e.addr).map NodeRec.consec = some (n.consec + 1) ∧
        ((t.ring r).rec? e.addr).map NodeRec.state = some .integrated ∧ t.objs = s.objs ∧ Changes [.rings] s t)) ∧
    (∀ seen, seen ≠ .correct → (s.ring r).changing s.cycle = false → n.consec = 2 →
      Completes (.slotOccurrence r slot seen) s (fun t =>
        ((t.ring r).rec? e.addr).map NodeRec.state = some .excluded ∧ t.bit (kRingStatus (ringNo r)) 3 = true ∧
        (r = .m → s.isIn [.run, .hold, .degraded] = true → t.dev.stopDemand = true)))

/-- The DATA slot of this unit (R115, R116): a buffer completed since the last DATA is sent as DATA with AGE 0; without one a
privileged slot repeats its last data with their age while R116 allows it, and any other slot sends NULL. A unit that does not
run the grid, or whose ports are in pass-through, sends nothing. -/
def Obligations.DataSlotSelection : Prop :=
  ∀ (s : State) (r : RingId) (slot : BitVec 12) (seen : SlotSeen) (e : SlotE), s.dev.phase = .up → slot ≠ 0 →
    (s.sends r = false → Completes (.slotOccurrence r slot seen) s (fun t => t = s)) ∧
    (s.sends r = true → (s.slots r).find? (fun e => e.slot == slot.toNat) = some e → e.occurs s.cycle = true → e.cls = 1 →
      e.ftype = 1 → s.paired = false →
      let o := (s.ring r).outSlot slot.toNat
      (∀ c pl, o.fresh = true → o.complete = some (c, pl) → Completes (.slotOccurrence r slot seen) s (fun t =>
        ((t.ring r).outSlot slot.toNat).sent = some (1, 0, s.cycle % 2 ^ 32, pl) ∧ ((t.ring r).outSlot slot.toNat).fresh = false ∧
        t.objs = s.objs ∧ Changes [.rings] s t)) ∧
      (∀ pl c, o.fresh = false → o.lastData = some (pl, c) → privileged s.conf (ringNo r) e = true →
        min (s.cycle - c) 255 ≤ s.n (kRepeatMax (ringNo r)) → Completes (.slotOccurrence r slot seen) s (fun t =>
          ((t.ring r).outSlot slot.toNat).sent = some (3, min (s.cycle - c) 255, s.cycle % 2 ^ 32, pl) ∧ t.objs = s.objs ∧ Changes [.rings] s t)) ∧
      (o.fresh = false → o.lastData = none ∨ privileged s.conf (ringNo r) e = false → Completes (.slotOccurrence r slot seen) s (fun t =>
        ((t.ring r).outSlot slot.toNat).sent = some (2, 0, s.cycle % 2 ^ 32, []) ∧ t.objs = s.objs ∧ Changes [.rings] s t)))

/-- Delay measurement (R101 to R103): a round opens one exchange for each node and channel; a response is a round-trip sample and
makes a LISTEN node LOCKED in the head's books; a second response of one exchange reports a duplicate address; a request to this
unit is answered with its stamps and 240 ns, one to a node with a forwarding delay of at most 300 ns (R93). -/
def Obligations.DelayMeasurement : Prop :=
  ∀ (s : State) (r : RingId),
    ((s.ring r).cs = .running → (s.order r).isEmpty = false → s.n (kHeadPos (ringNo r)) = 0 → (s.ring r).exchanges = [] → Completes (.delayRound r) s (fun t =>
      (t.ring r).exchanges.length = 2 * (s.order r).length ∧ (∀ e ∈ (t.ring r).exchanges, e.answered = false) ∧ t.objs = s.objs ∧ Changes [.rings] s t)) ∧
    ((s.ring r).cs ≠ .running → Completes (.delayRound r) s (fun t => t = s)) ∧
    (∀ (f : Frame) (t4 : Time96) (e : DelayEx), f.ring = r → num f.payload 0 1 = 1 →
      (s.ring r).exchanges.find? (fun e => e.target == num f.payload 2 2 % 1024 && e.exch == num f.payload 4 4) = some e →
      (e.answered = true → Completes (.delayResponse f t4 false) s (fun t =>
        t.bit (kRingStatus (ringNo r)) 2 = true ∧ ChangesObjs [kRingStatus (ringNo r)] s t ∧ Changes [.rings, .objs] s t)) ∧
      (e.answered = false → e.kind = .round →
        (∃ y ∈ (s.ring r).exchanges, y.answered = false ∧ 2 ≤ y.target ∧ y.kind = .round ∧ y.exch ≠ num f.payload 4 4) →
        ∀ n, (s.ring r).rec? (num f.payload 2 2 % 1024) = some n → Completes (.delayResponse f t4 false) s (fun t =>
          (∀ n', (t.ring r).rec? (num f.payload 2 2 % 1024) = some n' → n'.heard = true ∧ n'.state ≠ .listen ∧
            (e.onB = true → n'.rhoB.isSome = true) ∧ (e.onB = false → n'.rhoA.isSome = true)) ∧
          t.objs = s.objs ∧ Changes [.rings] s t))) ∧
    (∀ (f : Frame) (i e : Time96), num f.payload 0 1 = 0 → num f.payload 2 2 % 1024 = s.ownAddr →
      (s.ring r).cs = .running → s.pair.passThrough = false → s.fifoFull (arrivalPort r f.ch) = false → Completes (.delayRequest (.head r) f i e) s (fun t =>
        num (t.ring r).delayAnswer 44 4 = 240000 ∧ num (t.ring r).delayAnswer 4 4 = num f.payload 4 4 ∧ t.objs = s.objs ∧ Changes [.rings, .time] s t)) ∧
    (∀ (a : BitVec 10) (f : Frame) (i e : Time96), num f.payload 0 1 = 0 → num f.payload 2 2 % 1024 = a.toNat →
      (s.node r a.toNat).state ≠ .listen → Completes (.delayRequest (.node r a) f i e) s (fun t =>
        num (t.node r a.toNat).delayAnswer 4 4 = num f.payload 4 4 ∧ num (t.node r a.toNat).delayAnswer 44 4 ≤ 300000 ∧
        t.free = s.free + 2 ∧ Changes [.rings, .free] s t))

/-- Links, the arbitrating window and the guardian (R71, R108, R114, R118): a port that loses synchronisation turns frames back and
counts, a node reports it as an event; synchronisation ends the loop only in LISTEN; a frame still in progress at the end of its
window is cut and counted; an insertion buffer that cannot leave by ARB_LAST is emptied; a frame is inserted, with this unit's own
header, only when the four conditions of R71 hold and this unit sends on the channel; a DICT frame of the head carries the message
that waits for the channel, whole words of it, and none leaves while none waits (R402). -/
def Obligations.LinksAndArbitration : Prop :=
  ∀ (s : State) (r : RingId) (a : BitVec 10) (sd : Side) (ch : Channel) (off : Nat) (idle : Bool) (f : Frame),
    Completes (.linkLoss (.node r a) sd) s (fun t =>
      ((t.node r a.toNat).port sd).sync = false ∧ ((t.node r a.toNat).port sd).looped = true ∧ (t.node r a.toNat).event.isSome = true ∧
      OnlyNode r a.toNat s t) ∧
    Completes (.codeGroupSyncAcquired (.node r a) sd) s (fun t =>
      ((t.node r a.toNat).port sd).sync = true ∧
      ((t.node r a.toNat).port sd).looped = (((s.node r a.toNat).port sd).looped && (s.node r a.toNat).state != .listen) ∧ OnlyNode r a.toNat s t) ∧
    (((s.node r a.toNat).port sd).sync = true → Completes (.linkUp (.node r a) sd) s (fun t =>
      ((t.node r a.toNat).port sd).upSent = true ∧ (t.node r a.toNat).event.isSome = true ∧ OnlyNode r a.toNat s t)) ∧
    Completes (.linkLoss (.head r) sd) s (fun t => ((t.ring r).port sd).sync = false ∧
      t.obj (kPortErr (ringNo r)) = errInc (s.obj (kPortErr (ringNo r))) (sideNo sd) 28) ∧
    Completes (.codeGroupSyncAcquired (.head r) sd) s (fun t => ((t.ring r).port sd).sync = true ∧
      ((t.ring r).port sd).looped = (((s.ring r).port sd).looped && (s.ring r).cs != .listen) ∧ t.objs = s.objs ∧ Changes [.rings] s t) ∧
    (((s.ring r).port sd).sync = true → (s.ring r).fbt = none → Completes (.linkUp (.head r) sd) s (fun t =>
      ((t.ring r).port sd).upSent = true ∧ (∃ e, (t.ring r).events = (s.ring r).events ++ [e]) ∧ t.objs = s.objs ∧ Changes [.rings] s t)) ∧
    Completes (.arbLastDiscard (.head r) ch) s (fun t =>
      (ch = .a → (t.ring r).insA = []) ∧ (ch = .b → (t.ring r).insB = []) ∧
      t.obj (kPortErr (ringNo r)) = errIncBy (s.obj (kPortErr (ringNo r))) (sideNo (egressOf ch)) 12
        (if ch = .a then (s.ring r).insA else (s.ring r).insB).length ∧ ChangesObjs [kPortErr (ringNo r)] s t ∧ Changes [.rings, .objs] s t) ∧
    ((s.node r a.toNat).own.any (fun o => decide (o.side = sd)) = true → Completes (.guardCut (.node r a) sd) s (fun t =>
      (t.node r a.toNat).own.any (fun o => decide (o.side = sd)) = false ∧
      (t.node r a.toNat).err = errInc (s.node r a.toNat).err (sideNo sd) 24 ∧ OnlyNode r a.toNat s t)) ∧
    ((s.ring r).own.any (fun o => decide (o.side = sd)) = true → Completes (.guardCut (.head r) sd) s (fun t =>
      (t.ring r).own.any (fun o => decide (o.side = sd)) = false ∧
      t.obj (kPortErr (ringNo r)) = errInc (s.obj (kPortErr (ringNo r))) (sideNo sd) 24 ∧
      ChangesObjs [kPortErr (ringNo r)] s t ∧ Changes [.rings, .objs] s t)) ∧
    ((s.ring r).own.any (fun o => decide (o.side = sd)) = false → Completes (.guardCut (.head r) sd) s (fun t => t = s)) ∧
    Completes (.arbLastDiscard (.node r a) ch) s (fun t =>
      (ch = .a → (t.node r a.toNat).insA = []) ∧ (ch = .b → (t.node r a.toNat).insB = []) ∧ OnlyNode r a.toNat s t) ∧
    (f.type.toNat ∉ [5, 7, 9] → Completes (.arbInsert (.head r) ch off idle f) s (fun t => t = s) ∧
      Completes (.arbInsert (.node r a) ch off idle f) s (fun t => t = s)) ∧
    (nodeMaySend (s.node r a.toNat) ch f.type.toNat = false → Completes (.arbInsert (.node r a) ch off idle f) s (fun t => t = s)) ∧
    (f.type = 5 → (∀ x ∈ s.dict.ringOut, x.1 = r → s.goesOn r x.2.1 ch = false) →
      Completes (.arbInsert (.head r) ch off idle f) s (fun t => t = s)) ∧
    (∀ (m : DictMsg) (to2 : Nat), f.type = 5 → s.dict.ringOut = [(r, to2, m)] → s.goesOn r to2 ch = true →
      s.headFrame r ch f = some { f with flags := 0, payload := msgBytes m ++ zeros ((4 - (msgBytes m).length % 4) % 4) }) ∧
    (∀ (own : Frame) (sends : Bool), s.headFrame r ch f = some own → sends = (s.sends r && (s.originLegs r).any (fun l => l.1 == ch) &&
        s.mayInsert r (ch = .a) (if ch = .a then (s.ring r).insA else (s.ring r).insB) off idle own) →
      (sends = true → f.type ≠ 9 → Completes (.arbInsert (.head r) ch off idle f) s (fun t =>
        (∃ l ∈ s.originLegs r, l.1 = ch ∧ (t.ring r).own.any (fun o => decide (o.side = l.2)) = true) ∧
        (∃ g : Frame, (t.ring r).line = (s.ring r).line ++ [g] ∧ g.type = f.type ∧ g.slot = 0xFFF ∧ g.addr.toNat = s.ownAddr ∧
          g.seq.toNat = (s.ring r).senderCtr % 2 ^ 32 ∧ g.payload = own.payload) ∧
        (f.type = 5 → t.dict.ringOut = (s.popRingOut r ch s.dict.ringOut).2) ∧
        (t.ring r).senderCtr = ((s.ring r).senderCtr + 1) % 2 ^ 32 ∧ t.objs = s.objs ∧ Changes [.rings, .dict] s t)) ∧
      (sends = false → Completes (.arbInsert (.head r) ch off idle f) s (fun t => t = s))) ∧
    ((s.ring r).loops = [] → Completes (.breakPatternTimeout r) s (fun t => t = s)) ∧
    (∀ l : LoopRec, (s.ring r).loops = [l] → l.up = false → Completes (.breakPatternTimeout r) s (fun t =>
      t.bit (kRingStatus (ringNo r)) 7 = true ∧ ChangesObjs [kRingStatus (ringNo r)] s t ∧ Changes [.objs] s t))

/-- Events (R405): a complete event of one frame is acknowledged, recorded and enqueued in HOST_EVENTS, its copy with the same
sender, code and cell time is acknowledged again and not enqueued; a frame with MORE is kept; EVT_ACK ends the node's resends, of
which there are at most four, and brings up the next event that waits. -/
def Obligations.NodeEvents : Prop :=
  ∀ (s : State) (f : Frame), s.dev.phase = .up → 16 ≤ f.payload.length →
    (f.flags.toNat.testBit 3 = false → s.standby = false → s.dict.eventXfers = [] →
      s.dict.seen.contains ⟨f.addr.toNat, num f.payload 0 2, slice f.payload 4 12⟩ = true →
      Completes (.event f) s (fun t => t.dict.hostEvents = s.dict.hostEvents ∧ t.objs = s.objs ∧ Changes [.dict] s t ∧
        t.dict.ringOut = s.dict.ringOut ++ [(f.ring, f.addr.toNat, ackMsg f.addr.toNat f.payload)])) ∧
    (f.flags.toNat.testBit 3 = false → s.standby = false → s.dict.eventXfers = [] → s.dict.hostEvents.length < 256 →
      s.dict.seen.contains ⟨f.addr.toNat, num f.payload 0 2, slice f.payload 4 12⟩ = false →
      num f.payload 0 2 ≠ 0xFF01 → num f.payload 0 2 ≠ 0xFF02 →
      Completes (.event f) s (fun t => t.dict.hostEvents.length = s.dict.hostEvents.length + 1 ∧
        t.dict.pcie.intStatus.testBit 2 = true ∧ ChangesObjs [kRecStatus, kRecDrops] s t ∧ Changes [.dict, .objs, .recd] s t ∧
        t.dict.ringOut = s.dict.ringOut ++ [(f.ring, f.addr.toNat, ackMsg f.addr.toNat f.payload)])) ∧
    (f.flags.toNat.testBit 3 = true → Completes (.event f) s (fun t =>
      t.dict.hostEvents = s.dict.hostEvents ∧ t.dict.ringOut = s.dict.ringOut ∧ t.objs = s.objs ∧ Changes [.dict] s t)) ∧
    (∀ (r : RingId) (a : BitVec 10) (head e : Bytes), 2 ≤ a.toNat → (s.node r a.toNat).event = some e →
      (e.take 16 = head.take 16 → Completes (.evtAck r a head) s (fun t =>
        (t.node r a.toNat).event = (s.node r a.toNat).more.head? ∧ (t.node r a.toNat).resends = 0 ∧ OnlyNode r a.toNat s t)) ∧
      ((s.node r a.toNat).resends < 4 → Completes (.eventResend r a) s (fun t =>
        (t.node r a.toNat).resends = (s.node r a.toNat).resends + 1 ∧ (t.node r a.toNat).event = some e ∧ OnlyNode r a.toNat s t)) ∧
      (4 ≤ (s.node r a.toNat).resends → Completes (.eventResend r a) s (fun t =>
        (t.node r a.toNat).event = (s.node r a.toNat).more.head? ∧ (t.node r a.toNat).resends = 0 ∧ OnlyNode r a.toNat s t))) ∧
    (∀ (r : RingId) (a : BitVec 10) (head e : Bytes) (l : List Bytes), a.toNat = s.ownAddr → (s.ring r).events = e :: l →
      e.take 16 = head.take 16 → Completes (.evtAck r a head) s (fun t => (t.ring r).events = l ∧ Changes [.rings] s t)) ∧
    (∀ r : RingId, ∀ (a : BitVec 10) (n : NodeRec), (s.ring r).rec? a.toNat = some n → n.state = .excluded → n.barred = false →
      s.standby = false → Completes (.rejoinHoldExpiry r a) s (fun t =>
        ((t.ring r).rec? a.toNat).map NodeRec.rejoining = some true ∧
        (∃ e ∈ (t.ring r).exchanges, e.target = a.toNat ∧ e.kind = .rejoin ∧ e.answered = false) ∧
        t.objs = s.objs ∧ Changes [.rings] s t)) ∧
    (s.paired = false → Completes (.nodeStatusShare f) s (fun t => t = s)) ∧
    (∀ (a : Nat) (n : NodeRec), s.paired = true → f.payload.length = 16 → num f.payload 0 2 % 1024 = a → num f.payload 2 1 = 4 →
      s.rings.m.rec? a = some n → Completes (.nodeStatusShare f) s (fun t =>
        (t.rings.m.rec? a).map NodeRec.state = some .integrated ∧ (t.rings.m.rec? a).map NodeRec.writtenA = some (int f.payload 8 4) ∧
        (∀ b, b ≠ a → t.rings.m.rec? b = s.rings.m.rec? b) ∧ t.rings.nodes = s.rings.nodes ∧ Changes [.rings] s t))


/-! ### Redundant pair -/

/-- The claim logic of R361, the trip of R359, DETACH of R374, the rejoin of R375, the swap of R378 and the advice of R379, each under
its conditions; where they do not hold the claim state stays. -/
def Obligations.ClaimLogic : Prop :=
  ∀ (s : State) (peer : Option PeerInfo),
    let claim (t : State) : Nat := t.n kRedClaimState
    let objs : List Nat := [kRedClaimState, kRedStatus, kRecStatus, kRecDrops]
    (∀ lvl : Bool, Completes (.ilkPeerChange lvl) s (fun t => t.pair.peer = lvl ∧
      (claim s = 1 → claim t = if lvl then 1 else 2) ∧ (claim s = 2 → claim t = if lvl then 1 else 2) ∧
      (claim s = 3 → lvl = false ∨ s.pair.swapAt = some s.cycle → t.objs = s.objs) ∧
      (claim s = 3 → lvl = true → s.pair.swapAt ≠ some s.cycle →
        (s.cellQ ≤ s.pair.claimedAt + 500 * 65536 → claim t = if s.dev.unitId then 1 else 3) ∧
        (s.pair.claimedAt + 500 * 65536 < s.cellQ → t.bit kRedStatus 8 = true ∧ claim t = (if s.dev.unitId then 4 else 3) ∧
          (s.dev.unitId = true → t.dev.deviceFaults = s.dev.deviceFaults ++ [⟨0x0208, 0xFF, s.cycle, 0⟩]))) ∧
      (claim s = 0 ∨ claim s = 4 → t.objs = s.objs) ∧ t.dev.state = s.dev.state ∧
      ChangesObjs objs s t ∧ Changes [.objs, .pair, .dict, .recd, .dev] s t)) ∧
    (claim s = 2 → s.pair.peer = false → Completes .holdoffElapsed s (fun t => claim t = 3 ∧ t.pair.claimedAt = s.cellQ ∧
      (s.pair.fromWait = true → t.bit kRedStatus 2 = true ∧ t.n kRedTakeovers = min (s.n kRedTakeovers + 1) (2 ^ 32 - 1) % 2 ^ 32 ∧
        t.pair.actAlone = true) ∧ t.dev = s.dev ∧ ChangesObjs (kRedTakeovers :: objs) s t ∧ Changes [.objs, .pair, .dict, .recd] s t)) ∧
    (claim s ≠ 2 ∨ s.pair.peer = true → Completes .holdoffElapsed s (fun t => t = s)) ∧
    (∀ c : WdCause, s.dev.phase = .up → (c = .fault → s.dev.state = .fault) → Completes (.claimWdTrip c) s (fun t =>
      claim t = (if claim s = 4 then 4 else 0) ∧ t.pair.inert = true ∧ t.pair.passThrough = true ∧ t.pair.trip.isSome = true ∧
      ChangesObjs objs s t ∧ Changes [.objs, .pair, .dict] s t)) ∧
    (∀ d, s.pair.detachAt = some d → d ≤ s.cycle → Completes .detachEffect s (fun t => claim t = 0 ∧ t.dev.state = .inert ∧
      t.pair.passThrough = true ∧ t.pair.inert = true ∧ t.pair.detachAt = none ∧ t.rings.m.cs = .pass ∧ t.rings.p.cs = .pass)) ∧
    (∀ d, s.pair.detachAt = some d → s.cycle < d → Completes .detachEffect s (fun t => t = s)) ∧
    (∀ d, s.pair.detachAt = none → s.pair.partnerDetachAt = some d → d ≤ s.cycle → s.owner = true →
      Completes .detachEffect s (fun t => t.bit kRedStatus 7 = true ∧ t.bit (kRingStatus 0) 5 = true ∧ t.bit (kRingStatus 1) 5 = true ∧
        claim t = 3 ∧ t.dev = s.dev)) ∧
    (s.pair.rejoining = true → s.pair.gridAt.isSome = true → Completes (.rejoinTakeup peer) s (fun t =>
      t.pair.rejoining = false ∧ t.pair.passThrough = false ∧ t.pair.inert = false ∧ t.dev = s.dev)) ∧
    (s.pair.rejoining = true → s.pair.gridAt = none → Completes (.rejoinTakeup peer) s (fun t => t = s)) ∧
    (s.pair.rejoining = false → s.owner = true → s.bit kRedStatus 7 = true → Completes (.rejoinTakeup peer) s (fun t =>
      t.bit kRedStatus 7 = false ∧ t.bit (kRingStatus 0) 5 = false ∧ t.bit (kRingStatus 1) 5 = false ∧
      (∀ p, peer = some p → t.bit kRedStatus 11 = !s.sameVersions p) ∧ t.dev = s.dev)) ∧
    (∀ c, s.pair.swapAt = some c → s.cycle < c → s.swapRefusal = 0 → Completes .swapInstant s (fun t => t = s)) ∧
    (∀ c, s.pair.swapAt = some c → c ≤ s.cycle → s.swapRefusal = 0 → Completes .swapInstant s (fun t => t.pair.swapAt = none ∧
      t.n kRedSwaps = min (s.n kRedSwaps + 1) (2 ^ 32 - 1) % 2 ^ 32 ∧ (claim s = 3 → claim t = 1 ∧ t.pair.active = false) ∧
      (claim s = 1 → claim t = 3 ∧ t.pair.active = true) ∧ t.dev = s.dev)) ∧
    (∀ c, s.pair.swapAt = some c → s.swapRefusal ≠ 0 → Completes .swapInstant s (fun t => t.pair.swapAt = none ∧
      ChangesObjs [kRecStatus, kRecDrops] s t ∧ t.dev = s.dev)) ∧
    (s.pair.swapAt = none → Completes .swapInstant s (fun t => t = s)) ∧
    (s.n kRedSwapAdvise ≤ s.sinceSwap → Completes .swapDue s (fun t => t.bit kRedStatus 10 = true ∧
      ChangesObjs [kRedStatus] s t ∧ Changes [.objs, .dict] s t)) ∧
    (s.sinceSwap < s.n kRedSwapAdvise → Completes .swapDue s (fun t => t = s))

/-- Heartbeats and forwarded requests (R362, R364, R365, R371): a heartbeat of the present cycle is counted on its path and kept in
RED_PEER_HB, and the fourth in a row restores a lost path; the loss of a path is marked, and with both lost the owner acts alone
and the standby whose peer still claims sees a split view; the owner without a heartbeat since its claim is settled alone. A
forwarded write waits at the standby for its apply cycle and is acknowledged; a gap in CSEQ is a divergence; the owner marks a
request that nobody acknowledged. -/
def Obligations.PairTraffic : Prop :=
  ∀ (s : State) (path : HbPath) (f : Frame),
    (s.paired = true → s.dev.phase = .up → f.seq.toNat = s.cycle % 2 ^ 32 → (s.pair.path path).lastSeq ≠ some f.seq.toNat →
      Completes (.hb path f) s (fun t =>
      (t.pair.path path).okRun = (s.pair.path path).okRun + 1 ∧ (t.pair.path path).lastSeq = some f.seq.toNat ∧
      t.obj kRedPeerHb = patch (s.obj kRedPeerHb) (16 * hbNo path) (fit 16 f.payload) ∧ t.pair.heardSinceClaim = true ∧
      (3 ≤ (s.pair.path path).okRun → t.bit kRedStatus (hbBit path) = false) ∧
      (s.owner = true → num f.payload 1 1 = 0 → t.bit kRedStatus 1 = true) ∧
      (s.owner = true → num f.payload 1 1 = 1 → s.bit kRedStatus 7 = false → t.bit kRedStatus 1 = false) ∧ t.dev.state = s.dev.state ∧
      ChangesObjs [kRedPeerHb, kRedStatus, kRedDigestMiss, kRecStatus, kRecDrops] s t ∧ Changes [.objs, .pair, .dict, .recd, .dev] s t)) ∧
    (s.paired = false ∨ s.dev.phase ≠ .up ∨ f.seq.toNat ≠ s.cycle % 2 ^ 32 ∨ (s.pair.path path).lastSeq = some f.seq.toNat →
      Completes (.hb path f) s (fun t => t = s)) ∧
    (s.paired = true → s.bit kRedStatus (hbBit path) = false → Completes (.hbPathLoss path) s (fun t =>
      t.bit kRedStatus (hbBit path) = true ∧ (t.pair.path path).okRun = 0 ∧
      (s.bit kRedStatus (7 - hbBit path) = true →
        (s.owner = true → t.bit kRedStatus 7 = true ∧ t.pair.actAlone = true) ∧
        (s.standby = true → s.pair.peer = true → t.bit kRedStatus 6 = true ∧ t.pair.splitNull = true)) ∧
      (s.bit kRedStatus (7 - hbBit path) = false → t.bit kRedStatus 7 = s.bit kRedStatus 7 ∧ t.bit kRedStatus 6 = s.bit kRedStatus 6) ∧
      ChangesObjs [kRedStatus, kRecStatus, kRecDrops] s t ∧ Changes [.objs, .pair, .dict, .recd] s t)) ∧
    (s.paired = true → s.owner = true → s.pair.heardSinceClaim = false → Completes .partnerAbsent s (fun t =>
      t.bit kRedStatus 7 = true ∧ t.bit kRedStatus 1 = true ∧ ChangesObjs [kRedStatus] s t ∧ Changes [.objs, .dict] s t)) ∧
    (s.paired = false ∨ s.owner = false ∨ s.pair.heardSinceClaim = true → Completes .partnerAbsent s (fun t => t = s)) ∧
    (s.paired = true → s.standby = true → (parseMsg (f.payload.drop 8)).op = 2 →
      let q := parseMsg (f.payload.drop 8)
      objKey q.index.toNat q.sub.toNat ≠ kDevCmd → Completes (.forwardedRequest f) s (fun t =>
        t.dict.pendingWrites = s.dict.pendingWrites ++
          [⟨.partner, objKey q.index.toNat q.sub.toNat, f.payload.drop 24, s.cycleOf (num f.payload 4 4)⟩] ∧
        t.pair.cseqIn = some (num f.payload 0 4) ∧ (∃ g : Frame, t.pair.linkOut = s.pair.linkOut ++ [g] ∧ g.slot = 4 ∧ g.type = 5 ∧ g.payload = le 4 (num f.payload 0 4)) ∧
        (∀ d, s.pair.cseqIn = some d → num f.payload 0 4 ≠ (d + 1) % 2 ^ 32 → t.bit kRedStatus 5 = true) ∧
        (s.pair.cseqIn = none ∨ (∃ d, s.pair.cseqIn = some d ∧ num f.payload 0 4 = (d + 1) % 2 ^ 32) → t.objs = s.objs))) ∧
    (s.paired = false ∨ s.standby = false → Completes (.forwardedRequest f) s (fun t => t = s)) ∧
    Completes (.forwardAck f) s (fun t => t.pair.forwarded = s.pair.forwarded.filter (fun x => x.cseq != num f.payload 0 4) ∧
      t.objs = s.objs ∧ Changes [.pair] s t) ∧
    (∀ x, s.owner = true → s.pair.forwarded = [x] → x.applyCycle ≤ s.cycle + 1 → Completes .cmdUnacked s (fun t =>
      t.bit kRedStatus 9 = true ∧ t.pair.forwarded = [] ∧ ChangesObjs [kRedStatus] s t ∧ Changes [.objs, .pair, .dict] s t)) ∧
    ((∀ x ∈ s.pair.forwarded, s.cycle + 1 < x.applyCycle) → Completes .cmdUnacked s (fun t => t = s))

/-! ### Motion, Square and solver -/

/-- Motion rows reach their planners at their apply cycle (R137, R140, R146, R156, R161): the descriptor of a move joins those that
the arm's next planner run applies, a jog governs its arm from that cycle start, GRP_CMD waits for the next cycle start, HC_CTRL
takes its value; JOG_TIMEOUT takes VEL as 0. The Square and the crossings (R194, R195, R217, R220): a run marks its cycle, its rows
are no more than SQ_ROW_MAX and stand in SQ_ROWS, and eight scales are written; a Square that is late is marked and keeps its
outputs, and with either READY of the solver's result clears (log entry 83); a request of an arm without zones waits with its apply cycle, and a request of no zone releases what the arm holds. -/
def Obligations.MotionAndSquare : Prop :=
  (∀ (s : State) (a : Fin 8), s.motion.arms.length = 8 →
      (∀ w, s.dict.pendingWrites = [w] → w.applyCycle ≤ s.cycle →
        (w.key = kMoveCmd a → Completes .writeApply s (fun t => (t.mot a).due = (s.mot a).due ++ [w.data] ∧
          (∀ b, b ≠ a.val → t.mot b = s.mot b) ∧ ChangesObjs [kMoveCmd a] s t ∧ Changes [.motion, .objs, .dict] s t)) ∧
        (w.key = kJogCmd a → Completes .writeApply s (fun t =>
          ((t.mot a).jog.map Jog.desc = some w.data ∧ (t.mot a).jog.map Jog.zero = some false) ∧
          (∀ b, b ≠ a.val → t.mot b = s.mot b) ∧ ChangesObjs [kJogCmd a] s t ∧ Changes [.motion, .objs, .dict, .safe] s t)) ∧
        (∀ g : Fin 4, w.key = kGrpCmd g → Completes .writeApply s (fun t =>
          t.motion.grpCmds = s.motion.grpCmds ++ [(g.val, leVal w.data)] ∧ t.objs = s.objs ∧ Changes [.motion, .dict] s t)) ∧
        (∀ c : Fin 32, w.key = kHcCtrl c → Completes .writeApply s (fun t => t.obj (kHcCtrl c) = w.data ∧
          ChangesObjs [kHcCtrl c] s t ∧ Changes [.motion, .objs, .dict] s t))) ∧
      (∀ j, (s.mot a).jog = some j → Completes (.jogTimeout a) s (fun t => (t.mot a).jog = some { j with zero := true } ∧
        (∀ b, b ≠ a.val → t.mot b = s.mot b) ∧ t.objs = s.objs ∧ Changes [.motion] s t))) ∧
  (∀ s : State,
      (s.dev.phase = .up → s.squareOn = true → s.square.doneCycle ≠ some s.cycle → s.square.late = false → Completes .squareRun s (fun t =>
        t.square.doneCycle = some s.cycle ∧ t.square.late = false ∧ t.square.rows.length ≤ s.n kSqRowMax ∧
        t.obj kSqRows = (t.square.rows.map SqRow.bytes).flatten ∧ (t.obj kSqScale).length = 32 ∧ t.square.pend = s.square.pend ∧
        t.solver = { s.solver with ready := false } ∧ Changes [.square, .objs, .dev, .free, .solver, .cnts] s t)) ∧
      (s.squareOn = false ∨ s.square.doneCycle = some s.cycle ∨ s.square.late = true → Completes .squareRun s (fun t => t = s)) ∧
      (s.squareOn = true → s.square.doneCycle ≠ some s.cycle → Completes .sqLate s (fun t =>
        t.square = { s.square with late := true } ∧ t.bit kSqStatus 2 = true ∧ t.solver = { s.solver with ready := false } ∧
        ChangesObjs [kSqStatus] s t ∧ Changes [.square, .objs, .solver] s t)) ∧
      (s.squareOn = false ∨ s.square.doneCycle = some s.cycle → Completes .sqLate s (fun t => t = s)) ∧
      (∀ (a : Fin 8) (w : PendingWrite), s.dict.pendingWrites = [w] → w.applyCycle ≤ s.cycle → w.key = kCrReq a → w.data.length = 4 →
        s.groupOf a = none → s.square.releasing.length = 8 →
        (leVal w.data ≠ 0 → s.held a = 0 → Completes .writeApply s (fun t =>
          t.square.pend = s.square.pend.filter (fun p => p.arm != a.val) ++ [⟨a.val, leVal w.data, s.cycle⟩] ∧
          t.n (kCrReq a) = leVal w.data ∧ ChangesObjs [kCrReq a] s t ∧ Changes [.square, .objs, .dict] s t)) ∧
        (leVal w.data = 0 → Completes .writeApply s (fun t =>
          t.square.pend = s.square.pend.filter (fun p => p.arm != a.val) ∧ t.n (kCrReq a) = 0 ∧
          t.square.releasing.getD a 0 = s.square.releasing.getD a 0 ||| s.held a ∧
          ChangesObjs [kCrReq a] s t ∧ Changes [.square, .objs, .dict] s t))))

/-- The whole-cell solver (R164, R182, R184, R189, R193): in a cycle that is to be solved, SOLVE publishes a result of the cycle, which is
accepted or rejected; SOLVER_LATE rejects with the fallback output, both totals and LATE and FALLBACK in SOLVER_STATUS, and the third
rejection in a row is a stop demand. In any other cycle neither does anything. -/
def Obligations.SolverResults : Prop :=
  ∀ s : State,
    (s.solves = true → Completes .solve s (fun t =>
      t.n kSolverSeq = s.cycle % 2 ^ 32 ∧ t.solver.ready = true ∧ t.solver.doneCycle = some s.cycle ∧
      (t.solver.fbRun = 0 ∧ t.solver.warm.isSome = true ∨
        t.solver.fbRun = s.solver.fbRun + 1 ∧ t.solver.warm = none ∧ t.bit kSolverStatus 3 = true ∧
          t.n kSolverFbTotal = min (s.n kSolverFbTotal + 1) (2 ^ 32 - 1) % 2 ^ 32 ∧ (s.solver.fbRun = 2 → t.dev.stopDemand = true)))) ∧
    (s.solves = true → Completes .solverLate s (fun t =>
      t.n kSolverSeq = s.cycle % 2 ^ 32 ∧ t.solver.ready = true ∧ t.solver.doneCycle = some s.cycle ∧
      t.solver.fbRun = s.solver.fbRun + 1 ∧ t.solver.warm = none ∧ t.bit kSolverStatus 3 = true ∧ t.bit kSolverStatus 4 = true ∧
      t.n kSolverFbTotal = min (s.n kSolverFbTotal + 1) (2 ^ 32 - 1) % 2 ^ 32 ∧
      t.n kSolverLateTotal = min (s.n kSolverLateTotal + 1) (2 ^ 32 - 1) % 2 ^ 32 ∧ (s.solver.fbRun = 2 → t.dev.stopDemand = true))) ∧
    (s.solves = false → Completes .solve s (fun t => t = s) ∧ Completes .solverLate s (fun t => t = s))

/-! ### Junction -/

/-- The instruction comes to the Lane: where the Lane fetches a word of the user part of instruction SRAM, that word spells it (R256,
log entry 41). -/
def Comes (c : Instr) (s : State) (x : LaneSt) : Prop := ∀ v, s.laneWord x = some v → laneEncode c = some v

/-- Tokens and tasks (R228, R230, R233 to R235, R237, R255, R267): a token of the current or the next tag fills its empty port; one of
another tag, or for a substituted port, is dropped and counted with TOKEN_DROP, one for a filled port only counted; the last operand fires the instance; an empty RX port takes its last token, one cycle older and STALE, at
the deadline; a delayed task joins its ready list at its tick; an idle Lane starts the task in its slot with cleared registers; an
aborted task leaves its Lane and counts as LATE; the end of a transfer frees the DMA; END frees the Lane. -/
def Obligations.JunctionTasks : Prop :=
  ∀ s : State,
    (∀ (id : Fin 1024) (port : Fin 8) (t0 : Token) (x : InstSt) (p : JPort), s.jnOn = true → s.inst? id.val = some x →
      x.ports[port.val]? = some p →
      let tok : Tok := ⟨t0.data, t0.late, t0.stale, t0.age.toNat, none⟩
      let waits : Prop := ∃ q ∈ x.ports, q.cur = none
      (waits → (t0.tag.toNat ≠ x.tag ∧ t0.tag.toNat ≠ (x.tag + 1) % 65536 ∨ t0.tag.toNat = x.tag ∧ p.subst = true) →
        Completes (.tokenArrival id port t0) s (fun t =>
        t.jn = s.jn ∧ t.bit kJnStatus 3 = true ∧ t.n kJnTokenDrop = min (s.n kJnTokenDrop + 1) (2 ^ 32 - 1) % 2 ^ 32 ∧
        ChangesObjs [kJnStatus, kJnTokenDrop] s t ∧ Changes [.objs] s t)) ∧
      (waits → t0.tag.toNat = x.tag → p.subst = false → p.cur.isSome = true → Completes (.tokenArrival id port t0) s (fun t =>
        t.jn = s.jn ∧ t.n kJnTokenDrop = min (s.n kJnTokenDrop + 1) (2 ^ 32 - 1) % 2 ^ 32 ∧
        ChangesObjs [kJnTokenDrop] s t ∧ Changes [.objs] s t)) ∧
      (waits → t0.tag.toNat = (x.tag + 1) % 65536 → t0.tag.toNat ≠ x.tag → p.nxt = none → Completes (.tokenArrival id port t0) s (fun t =>
        (t.inst? id.val).map InstSt.ports = some (modAt x.ports port.val (fun p => { p with nxt := some tok, last := some tok, age := t0.age.toNat })) ∧
        t.objs = s.objs ∧ Changes [.jn] s t)) ∧
      (t0.tag.toNat = x.tag → p.subst = false → p.cur = none → 8 ≤ id.val → (∃ q ∈ x.ports, q.cur = none ∧ q ≠ p) →
        Completes (.tokenArrival id port t0) s (fun t =>
          (t.inst? id.val).map InstSt.ports = some (modAt x.ports port.val (fun p => { p with cur := some tok, last := some tok, age := t0.age.toNat })) ∧
          t.objs = s.objs ∧ Changes [.jn] s t)) ∧
      (t0.tag.toNat = x.tag → x.ports = [p] → p.subst = false → p.cur = none → 8 ≤ id.val → tagDue x.tag s.cycle = true →
        s.shedInst x = false → (s.tmpl x).release = 0 → s.weakSlot (s.home x) (s.tmpl x).prio = none → s.jn.ready.length = 32 →
        (s.tmpl x).prio < 4 → Completes (.tokenArrival id port t0) s (fun t =>
          (t.inst? id.val).map InstSt.tag = some ((x.tag + 1) % 65536) ∧
          t.jn.list (s.home x) (s.tmpl x).prio = s.jn.list (s.home x) (s.tmpl x).prio ++ [⟨id.val, x.tag, [tok], x.block, false⟩] ∧
          t.objs = s.objs ∧ Changes [.jn] s t))) ∧
    (∀ (x : InstSt) (p q : JPort) (len : Nat), s.jnOn = true → s.jn.insts = [x] → x.ports = [p, q] → p.cur = none → q.cur = none →
      (s.tmpl x).rx ≠ 0 → (s.tmpl x).rx + 200 ≤ s.cellNs - s.cycle * s.tns → tagDue x.tag s.cycle = true → s.rxPorts x.id = [(0, len)] →
      8 ≤ x.id → Completes .rxDeadlineSubstitution s (fun t => t.bit kJnStatus 2 = true ∧
        (∀ l, p.last = some l → ((t.inst? x.id).bind (fun y => y.ports[0]?)).bind JPort.cur =
          some { l with stale := true, age := min (p.age + 1) 255 }) ∧
        (p.last = none → ((t.inst? x.id).bind (fun y => y.ports[0]?)).bind JPort.cur = some ⟨zeros len, false, true, 255, none⟩) ∧
        ChangesObjs [kJnStatus] s t ∧ Changes [.jn, .objs] s t)) ∧
    (s.jnOn = false → Completes .rxDeadlineSubstitution s (fun t => t = s)) ∧
    (∀ (tick st r : Nat) (f : Fired) (x : InstSt), s.mon.stopped = false → st < 8 →
      s.jn.delay = modAt (List.replicate 8 []) st (fun _ => [(r, f)]) → s.inst? f.inst = some x → s.weakSlot (s.home x) (s.tmpl x).prio = none →
      s.jn.ready.length = 32 → (s.tmpl x).prio < 4 →
      (r ≤ tick → Completes (.releaseTick tick) s (fun t =>
        t.jn.list (s.home x) (s.tmpl x).prio = s.jn.list (s.home x) (s.tmpl x).prio ++ [f] ∧ t.jn.delay = List.replicate 8 [] ∧
        t.objs = s.objs ∧ Changes [.jn] s t)) ∧
      (tick < r → Completes (.releaseTick tick) s (fun t => t = s))) ∧
    (∀ (l : Fin 64) (y : LaneSt) (k : SlotTask) (x : InstSt), s.jnOn = true → s.street (l.val / 8) = true → s.lanes[l.val]? = some y →
      y.task = none → y.slot = some k → s.inst? k.task.inst = some x → Completes (.taskStart l) s (fun t => ∃ z : LaneSt,
        t.lanes[l.val]? = some z ∧ z.task.map LaneTask.task = some k.task ∧ z.g = List.replicate 32 0 ∧ z.q = List.replicate 32 0 ∧
        z.rrb = 0 ∧ z.ac0 = 0 ∧ z.ac1 = 0 ∧ z.lstat = 0 ∧ z.pc = BitVec.ofNat 16 (s.entry (s.tmpl x).kernel))) ∧
    (∀ (l : Fin 64) (y : LaneSt), s.lanes[l.val]? = some y → y.task.isSome = true → Completes (.taskStart l) s (fun t => t = s)) ∧
    (∀ (id : Fin 1024) (f : Fired) (x : InstSt), s.mon.stopped = false → s.taskOf id.val = some f → s.inst? id.val = some x →
      Completes (.taskAbort id) s (fun t => (∀ z ∈ t.lanes, ∀ k, z.task = some k → k.task.inst ≠ id.val) ∧
        (t.inst? id.val).map InstSt.late = some (satInc 16 x.late) ∧ (t.inst? id.val).map InstSt.block = some x.block)) ∧
    (s.mon.stopped = true → ∀ id, Completes (.taskAbort id) s (fun t => t = s)) ∧
    (∀ (l : Fin 64) (y : LaneSt), s.mon.stopped = false → s.lanes[l.val]? = some y → Completes (.dmaDone l) s (fun t =>
      t.lanes[l.val]? = some { y with dma := none } ∧ (∀ j, j ≠ l.val → t.lanes[j]? = s.lanes[j]?) ∧ Changes [.lanes] s t)) ∧
    (∀ (l : Fin 64) (w : LaneR) (y : LaneSt) (k : LaneTask) (x : InstSt), s.mon.stopped = false → s.lanes[l.val]? = some y → y.task = some k →
      inArea k.kernel y.pc.toNat = true → Comes (.endTask l w) s y → w.s = false → 256 ≤ k.task.inst → s.inst? k.task.inst = some x →
      (outRanges y.mem).all (fun r => decide (r.2 = 0 ∨ r.1 + r.2 ≤ 4096)) = true → Completes (.endTask l w) s (fun t =>
        (t.lanes[l.val]?).map LaneSt.task = some none ∧
        (t.inst? k.task.inst).map InstSt.block = some (memRead y.mem 0x42000 k.stateLen) ∧
        (t.inst? k.task.inst).map InstSt.outs = some (some ((outRanges y.mem).map (fun r => memRead y.mem (0x44000 + r.1) r.2))) ∧
        (t.inst? k.task.inst).map InstSt.consec = some 0))

/-! ### Lane instructions -/

/-- The Lane runs a task inside its area, its register files are whole, and its memory is in canonical form. -/
def Runs (l : Fin 64) (s : State) (x : LaneSt) (k : LaneTask) : Prop :=
  s.mon.stopped = false ∧ s.lanes[l.val]? = some x ∧ x.task = some k ∧ inArea k.kernel x.pc.toNat = true ∧
    x.g.length = 32 ∧ x.q.length = 32 ∧ memWf x.mem = true

/-- The Lane has become `y`; no other Lane, no object but its overflow flags, and nothing outside Lanes and counters. -/
def LaneIs (l : Fin 64) (s t : State) (y : LaneSt) : Prop :=
  t.lanes[l.val]? = some y ∧ (∀ j, j ≠ l.val → t.lanes[j]? = s.lanes[j]?) ∧ ChangesObjs [kCntOvf l] s t ∧
    Changes [.lanes, .cnts, .objs, .free] s t

/-- What the rest of the Lane keeps: rotating base, accumulators, memory, tasks, DMA and the counter shadow. -/
def LaneKeeps (x y : LaneSt) : Prop :=
  y.rrb = x.rrb ∧ y.ac0 = x.ac0 ∧ y.ac1 = x.ac1 ∧ y.mem = x.mem ∧ y.task = x.task ∧ y.slot = x.slot ∧ y.dma = x.dma ∧
    y.shadow = x.shadow

/-- An instruction that comes to the Lane completes with a property of the next state. -/
def LaneRuns (c : Instr) (s : State) (x : LaneSt) (P : State → Prop) : Prop := Comes c s x → Completes c s P

/-- The instruction writes `v` to `rd` (a write of G0 is ignored), sets LSTAT bits, steps the PC, and no more. -/
def LaneGives (c : Instr) (l : Fin 64) (s : State) (x : LaneSt) (rd : BitVec 6) (v st : W32) : Prop :=
  LaneRuns c s x (fun t => ∃ y, LaneIs l s t y ∧ y.pc = x.pc + 4 ∧ (∀ r, y.reg r = if r = rd ∧ rd ≠ 0 then v else x.reg r) ∧
    y.lstat = x.lstat ||| st ∧ LaneKeeps x y)

/-- An illegal condition (R257): the Lane has no task any more, and the template is marked. -/
def LaneStops (c : Instr) (l : Fin 64) (s : State) (x : LaneSt) (k : LaneTask) : Prop :=
  LaneRuns c s x (fun t => (t.lanes[l.val]?).map LaneSt.task = some none ∧ k.tmpl ∈ t.jn.illegal)

/-- The destination range of `n` bits with S, and SATF (R259). -/
def clampTo (n : Nat) (sat : Bool) (v : Int) : Int := if sat then max (-(2 : Int) ^ (n - 1)) (min v ((2 : Int) ^ (n - 1) - 1)) else v
def satf (n : Nat) (sat : Bool) (v : Int) : W32 := if sat = true ∧ (v < -(2 : Int) ^ (n - 1) ∨ (2 : Int) ^ (n - 1) ≤ v) then 1 else 0

/-- `e` is the number of redundant sign bits of an `n`-bit number (R260). -/
def SignBits (n : Nat) (v : Int) (e : Nat) : Prop :=
  let fits (k : Nat) : Prop := -(2 : Int) ^ (n - 1) ≤ v * 2 ^ k ∧ v * 2 ^ k < (2 : Int) ^ (n - 1)
  e ≤ n - 1 ∧ fits e ∧ (e = n - 1 ∨ ¬ fits (e + 1))

/-- Integer instructions of OP 0, OP 1 and the immediates (R258 to R261): the result, SATF, and nothing else. -/
def Obligations.LaneIntegers : Prop :=
  ∀ (l : Fin 64) (s : State) (x : LaneSt) (k : LaneTask), Runs l s x k →
    (∀ w : LaneR,
      let a := (x.reg w.rs).toInt
      let b := (x.reg w.rt).toInt
      let h := (x.reg w.rt).toNat % 64
      let acc := (if w.rs.getLsbD 0 then x.ac1 else x.ac0).toInt
      (∀ p ∈ [(Instr.add l w, a + b), (.sub l w, a - b), (.mul l w, a * b), (.mulq l w, (a * b + 2 ^ 30) / 2 ^ 31), (.abs l w, |a|),
          (.shl l w, a * 2 ^ h), (.mova l w, if w.rt = 0 then acc else (acc + 2 ^ (w.rt.toNat - 1)) / 2 ^ w.rt.toNat)],
        LaneGives p.1 l s x w.rd (BitVec.ofInt 32 (clampTo 32 w.s p.2)) (satf 32 w.s p.2)) ∧
      (w.s = false → ∀ p ∈ [(Instr.and l w, x.reg w.rs &&& x.reg w.rt), (.or l w, x.reg w.rs ||| x.reg w.rt),
          (.xor l w, x.reg w.rs ^^^ x.reg w.rt), (.shr l w, x.reg w.rs >>> h), (.sar l w, (x.reg w.rs).sshiftRight h)],
        LaneGives p.1 l s x w.rd p.2 0) ∧
      (w.s = false → ∀ e, SignBits 32 a e → LaneGives (.exp l w) l s x w.rd (BitVec.ofNat 32 e) 0 ∧
        LaneGives (.norm l w) l s x w.rd (BitVec.ofInt 32 (a * 2 ^ e)) 0) ∧
      (w.s = false → ∀ e, SignBits 72 acc e → LaneGives (.expa l w) l s x w.rd (BitVec.ofNat 32 e) 0) ∧
      (∀ p ∈ [(Instr.mac l w, a * b), (.msu l w, -(a * b))],
        let v := (if w.rd.getLsbD 0 then x.ac1 else x.ac0).toInt + p.2
        LaneRuns p.1 s x (fun t => ∃ y, LaneIs l s t y ∧ y.pc = x.pc + 4 ∧ y.lstat = x.lstat ||| satf 72 w.s v ∧
          LaneKeeps { x with ac0 := if w.rd.getLsbD 0 then x.ac0 else BitVec.ofInt 72 (clampTo 72 w.s v),
                             ac1 := if w.rd.getLsbD 0 then BitVec.ofInt 72 (clampTo 72 w.s v) else x.ac1 } y ∧ ∀ r, y.reg r = x.reg r)) ∧
      (w.s = false → w.rt.toNat ≤ 39 → LaneRuns (.movta l w) s x (fun t => ∃ y, LaneIs l s t y ∧ y.pc = x.pc + 4 ∧ y.lstat = x.lstat ∧
        (if w.rd.getLsbD 0 then y.ac1 else y.ac0).toInt = (a * 2 ^ w.rt.toNat : Int).bmod (2 ^ 72) ∧
        (if w.rd.getLsbD 0 then y.ac0 = x.ac0 else y.ac1 = x.ac1) ∧ ∀ r, y.reg r = x.reg r)) ∧
      (w.s = true → ∀ c ∈ [Instr.and l w, .or l w, .xor l w, .shr l w, .sar l w, .norm l w, .exp l w, .movta l w, .expa l w],
        LaneStops c l s x k)) ∧
    (∀ w : LaneI,
      let a := (x.reg w.rs).toInt
      LaneGives (.addi l w) l s x w.rd (BitVec.ofInt 32 (clampTo 32 w.s (a + w.imm.toInt))) (satf 32 w.s (a + w.imm.toInt)) ∧
      (w.imm.toNat ≤ 31 → LaneGives (.shli l w) l s x w.rd (BitVec.ofInt 32 (clampTo 32 w.s (a * 2 ^ w.imm.toNat)))
        (satf 32 w.s (a * 2 ^ w.imm.toNat))) ∧
      (w.imm.toNat ≤ 31 → w.s = false → LaneGives (.sari l w) l s x w.rd ((x.reg w.rs).sshiftRight w.imm.toNat) 0) ∧
      (w.s = false → LaneGives (.andi l w) l s x w.rd (x.reg w.rs &&& w.imm.signExtend 32) 0) ∧
      (31 < w.imm.toNat → LaneStops (.shli l w) l s x k ∧ LaneStops (.sari l w) l s x k)) ∧
    (∀ w : LaneB, LaneGives (.li l w) l s x w.rd (w.imm.signExtend 32) 0 ∧
      LaneGives (.lih l w) l s x w.rd ((x.reg w.rd &&& 0xFFF) ||| (w.imm.zeroExtend 32 <<< 12)) 0)

/-- LSTAT bits of floating-point conditions (R263). -/
def fpBits (r : FRes) (signalling : Bool) : W32 :=
  (if r.underflow then 2 else 0) ||| (if r.overflow then 4 else 0) ||| (if r.invalid || signalling then 8 else 0) |||
    (if r.divZero then 16 else 0)

/-- Floating-point instructions of OP 2 (R262, R263): the binary32 result and its conditions, an infinity made finite by S, the
comparisons with NaN, the exponent and normalisation, and the conversions with their out-of-range cases. -/
def Obligations.LaneFloats : Prop :=
  ∀ (l : Fin 64) (s : State) (x : LaneSt) (k : LaneTask) (w : LaneR), Runs l s x k →
    let a := (x.reg w.rs).toNat
    let b := (x.reg w.rt).toNat
    let d := (x.reg w.rd).toNat
    let two := snan a || snan b
    (∀ p ∈ [(Instr.fadd l w, f32.addR a b, two), (.fsub l w, f32.subR a b, two), (.fmul l w, f32.mulR a b, two),
        (.fdiv l w, f32.divR a b, two), (.fma l w, f32.fmaR a b d, snan d || snan a || snan b),
        (.fms l w, f32.fmaR (f32.neg a) b d, snan d || snan a || snan b)],
      (w.s = false ∨ f32.abs p.2.1.bits ≠ 0x7F800000 → LaneGives p.1 l s x w.rd (BitVec.ofNat 32 p.2.1.bits) (fpBits p.2.1 p.2.2)) ∧
      (w.s = true → f32.abs p.2.1.bits = 0x7F800000 →
        LaneGives p.1 l s x w.rd (BitVec.ofNat 32 (p.2.1.bits - 1)) (fpBits { p.2.1 with overflow := true } p.2.2))) ∧
    (w.s = false →
      LaneGives (.fsqrt l w) l s x w.rd (BitVec.ofNat 32 (f32.sqrtR a).bits) (fpBits (f32.sqrtR a) (snan a)) ∧
      (f32.isNan a = false → f32.isNan b = false → f32.lt a b = true →
        LaneGives (.fmin l w) l s x w.rd (x.reg w.rs) 0 ∧ LaneGives (.fmax l w) l s x w.rd (x.reg w.rt) 0 ∧
        LaneGives (.fcmplt l w) l s x w.rd 1 0) ∧
      (f32.isNan a = true → f32.isNan b = false → snan a = false →
        LaneGives (.fmin l w) l s x w.rd (x.reg w.rt) 0 ∧ LaneGives (.fmax l w) l s x w.rd (x.reg w.rt) 0 ∧
        ∃ st : W32, (st = 0 ∨ st = 8) ∧ LaneGives (.fcmplt l w) l s x w.rd 0 st) ∧
      (a = 0 ∨ a = 0x80000000 → LaneGives (.fexp l w) l s x w.rd (BitVec.ofInt 32 (-150)) 0 ∧
        LaneGives (.fnorm l w) l s x w.rd (x.reg w.rs) 0) ∧
      (0x7F800000 ≤ a % 2 ^ 31 → LaneGives (.fexp l w) l s x w.rd 128 0 ∧ LaneGives (.fnorm l w) l s x w.rd (x.reg w.rs) 0) ∧
      (0x00800000 ≤ a % 2 ^ 31 → a % 2 ^ 31 < 0x7F800000 →
        LaneGives (.fexp l w) l s x w.rd (BitVec.ofInt 32 ((a % 2 ^ 31 / 2 ^ 23 : Nat) - 127)) 0 ∧
        LaneGives (.fnorm l w) l s x w.rd (BitVec.ofNat 32 (a / 2 ^ 31 * 2 ^ 31 + 0x3F800000 + a % 2 ^ 23)) 0) ∧
      (w.rt.toNat ≤ 31 →
        LaneGives (.itof l w) l s x w.rd (BitVec.ofNat 32 (f32.ofInt (x.reg w.rs).toInt (-(w.rt.toNat : Int)))) 0)) ∧
    (w.rt.toNat ≤ 31 →
      (∀ v, ftoiOf a w.rt.toNat = some v → -2 ^ 31 ≤ v → v < 2 ^ 31 → LaneGives (.ftoi l w) l s x w.rd (BitVec.ofInt 32 v) 0) ∧
      (f32.isNan a = true → LaneGives (.ftoi l w) l s x w.rd (if w.s then 0 else 0x80000000) (if w.s then 9 else 8)) ∧
      (∀ v, ftoiOf a w.rt.toNat = some v → 2 ^ 31 ≤ v →
        LaneGives (.ftoi l w) l s x w.rd (if w.s then 0x7FFFFFFF else 0x80000000) (if w.s then 9 else 8)))

/-- Loads, stores, DMA, branches and RDCNT (R253, R256, R258, R265 to R267, R275, R276). Where the word that the Lane fetches has an
undefined OP or FN, the Lane stops (R257); where it is another instruction than the one that is sent, that one does not come. -/
def Obligations.LaneMemoryAndBranches : Prop :=
  ∀ (l : Fin 64) (s : State) (x : LaneSt) (k : LaneTask), Runs l s x k →
    (∀ (c : Instr) (v : W32), laneOf c = some l → (laneEncode c).isSome = true → s.laneWord x = some v → laneEncode c ≠ some v →
      (laneDecode l v = none → Completes c s (fun t => (t.lanes[l.val]?).map LaneSt.task = some none ∧ k.tmpl ∈ t.jn.illegal)) ∧
      (laneDecode l v ≠ none → Completes c s (fun t => t.lanes = s.lanes ∧ t.jn = s.jn ∧ Changes [.cnts, .objs, .free] s t))) ∧
    (∀ (w : LaneM) (size : Nat) (ld st : Instr), size = 4 ∧ ld = .ld l w ∧ st = .st l w ∨ size = 2 ∧ ld = .ldh l w ∧ st = .sth l w →
      let base := x.reg w.rb
      let moved := base + BitVec.ofInt 32 (w.off.toInt * size)
      let a := (if w.mode = 1 then base else moved).toNat
      let upd (r : BitVec 6) : Prop := (w.mode = 1 ∨ w.mode = 2) ∧ r = w.rb ∧ w.rb ≠ 0
      (w.mode ≠ 3 → a % size = 0 → (areaOf a).isSome = true → LaneRuns ld s x (fun t => ∃ y, LaneIs l s t y ∧ y.pc = x.pc + 4 ∧
        (∀ r, upd r → y.reg r = moved) ∧
        (∀ r, ¬ upd r → y.reg r = if r = w.rd ∧ w.rd ≠ 0 then
            BitVec.ofInt 32 (signed size (leVal ((List.range size).map (fun i => x.byteAt k (a + i))))) else x.reg r) ∧
        y.lstat = x.lstat ∧ LaneKeeps x y)) ∧
      (w.mode ≠ 3 → a % size = 0 → areaOf a = some .sram ∨ areaOf a = some .out ∨ areaOf a = some .table ∨ areaOf a = some .block →
        LaneRuns st s x (fun t => ∃ y, LaneIs l s t y ∧ y.pc = x.pc + 4 ∧ (∀ r, upd r → y.reg r = moved) ∧ (∀ r, ¬ upd r → y.reg r = x.reg r) ∧
          (∀ i, i < size → memGet y.mem (a + i) = if areaOf a = some .block ∧ k.stateLen ≤ a + i - 0x42000 then memGet x.mem (a + i)
            else BitVec.ofNat 8 ((x.reg w.rd).toNat / 256 ^ i)) ∧
          (∀ a', a' < a ∨ a + size ≤ a' → memGet y.mem a' = memGet x.mem a') ∧ y.lstat = x.lstat ∧ LaneKeeps { x with mem := y.mem } y)) ∧
      (w.mode = 3 ∨ a % size ≠ 0 ∨ areaOf a = none → LaneStops ld l s x k ∧ LaneStops st l s x k) ∧
      (areaOf a = some .desc ∨ areaOf a = some .ops ∨ areaOf a = some .lstat → LaneStops st l s x k)) ∧
    (∀ w : LaneB,
      let v := x.reg w.rd
      let target : Int := x.pc.toNat + 4 * w.imm.toInt
      let goes (c : Instr) (pc : W16) : Prop := LaneRuns c s x (fun t => ∃ y, LaneIs l s t y ∧ y.pc = pc ∧ (∀ r, y.reg r = x.reg r) ∧
        y.lstat = x.lstat ∧ LaneKeeps x y)
      (∀ p ∈ [(Instr.bz l w, v == 0), (.bnz l w, v != 0), (.blt l w, v.msb)],
        (p.2 = false → goes p.1 (x.pc + 4)) ∧
        (p.2 = true → inArea k.kernel target = true → goes p.1 (BitVec.ofInt 16 target)) ∧
        (p.2 = true → inArea k.kernel target = false → LaneStops p.1 l s x k)) ∧
      (v = 1 ∨ w.rd = 0 ∨ inArea k.kernel target = true → LaneRuns (.bloop l w) s x (fun t => ∃ y, LaneIs l s t y ∧
        y.pc = (if v = 1 ∨ w.rd = 0 then x.pc + 4 else BitVec.ofInt 16 target) ∧ y.rrb = x.rrb - 1 ∧
        (∀ r, ({ y with rrb := x.rrb } : LaneSt).reg r = if r = w.rd ∧ w.rd ≠ 0 then v - 1 else x.reg r) ∧
        y.lstat = x.lstat ∧ LaneKeeps { x with rrb := y.rrb } y)) ∧
      (v ≠ 1 → w.rd ≠ 0 → inArea k.kernel target = false → LaneStops (.bloop l w) l s x k)) ∧
    (∀ (w : LaneR) (src dst len : Nat), w.s = false → x.load k (x.reg w.rs).toNat 4 = some src →
      x.load k ((x.reg w.rs).toNat + 4) 4 = some dst → x.load k ((x.reg w.rs).toNat + 8) 4 = some len →
      x.load k ((x.reg w.rs).toNat + 12) 4 = some 0 →
      (4 ≤ len → len ≤ 65536 → src + len ≤ k.ops.length → 0x10000 ≤ dst → dst + len ≤ 0x40000 → src % 4 = 0 → dst % 4 = 0 → len % 4 = 0 →
        LaneRuns (.dmago l w) s x (fun t => ∃ y, LaneIs l s t y ∧ y.pc = x.pc + 4 ∧ y.dma = some (dst, len) ∧ (∀ r, y.reg r = x.reg r) ∧
          (∀ i, i < len → memGet y.mem (dst + i) = k.ops.getD (src + i) 0) ∧
          (∀ a', a' < dst ∨ dst + len ≤ a' → memGet y.mem a' = memGet x.mem a') ∧
          LaneKeeps { x with mem := y.mem, dma := y.dma } y)) ∧
      (k.ops.length < src + len ∨ dst < 0x10000 ∨ 0x40000 < dst + len ∨ len % 4 ≠ 0 → LaneStops (.dmago l w) l s x k)) ∧
    (∀ w : LaneR, w.s = false → LaneRuns (.dmawt l w) s x (fun t => LaneIs l s t { x with dma := none, pc := x.pc + 4 })) ∧
    (∀ w : LaneI, w.s = false → w.rs = 0 → w.imm.toNat ≤ 15 → w.imm.toNat % 8 ≠ 7 →
      (s.cntEnabled k = false → LaneGives (.rdcnt l w) l s x w.rd 0 0) ∧
      (s.cntEnabled k = true → w.imm.toNat < 8 → LaneRuns (.rdcnt l w) s x (fun t => ∃ y u, LaneIs l s t y ∧ y.pc = x.pc + 4 ∧
        y.shadow = some (w.imm.toNat, u) ∧ (∀ r, y.reg r = if r = w.rd ∧ w.rd ≠ 0 then BitVec.ofNat 32 u else x.reg r) ∧ y.lstat = x.lstat ∧
        LaneKeeps { x with shadow := y.shadow } y)) ∧
      (∀ u, s.cntEnabled k = true → 8 ≤ w.imm.toNat → x.shadow = some (w.imm.toNat - 8, u) →
        LaneGives (.rdcnt l w) l s x w.rd (BitVec.ofNat 32 (u / 2 ^ 32)) 0) ∧
      (s.cntEnabled k = true → 8 ≤ w.imm.toNat → x.shadow = none → LaneRuns (.rdcnt l w) s x (fun t => ∃ y, LaneIs l s t y ∧
        y.pc = x.pc + 4 ∧ y.lstat.getLsbD 5 = true ∧ (∀ r, r ≠ w.rd → y.reg r = x.reg r) ∧
        LaneKeeps x y)))

/-- The words of R256 and R258 lose nothing: every Lane instruction, with every operand at every value that its format admits, is the
decoding of its word, and an undefined OP or FN decodes to nothing. -/
def Obligations.LaneWordsRoundTrip : Prop :=
  (∀ (l : Fin 64) (i : Instr) (word : W32), laneOf i = some l → laneEncode i = some word → laneDecode l word = some i) ∧
  (∀ (l : Fin 64) (word : W32) (i : Instr), laneDecode l word = some i → laneOf i = some l) ∧
  (∀ (l : Fin 64) (word : W32), word.toNat / 2 ^ 26 ∉ [0, 1, 2, 3, 8, 9, 10, 11, 12, 16, 17, 18, 19, 24, 25, 26, 27, 28, 29] ∨
      (word.toNat / 2 ^ 26 = 0 ∧ 12 < word.toNat % 128) ∨ (word.toNat / 2 ^ 26 = 1 ∧ 4 < word.toNat % 128) ∨
      (word.toNat / 2 ^ 26 = 2 ∧ 13 < word.toNat % 128) ∨ (word.toNat / 2 ^ 26 = 3 ∧ 2 < word.toNat % 128) → laneDecode l word = none)

/-! ### Counters -/

/-- Performance counters (R270, R273, R277): a write of CNT_SEL clears the counters whose numbers it writes and keeps CYC; CNT_CLEAR
clears one engine and CNT_CLEAR_ALL every one; while the engine's clock runs, a wrap sets the counter's bit of CNT_OVF; a read of CNT_BLOCK answers the block, and is
refused with HW_FAULT where the counters failed and with BUSY under shedding. -/
def Obligations.Counters : Prop :=
  ∀ (s : State) (rq : Requester) (e : Fin 82) (c : CntSt), s.cnts[e.val]? = some c →
    (∀ w, s.dict.pendingWrites = [w] → w.applyCycle ≤ s.cycle →
      (w.key = objKey (0x5410 + e.val) 0x08 → w.data.length = 6 → Completes .writeApply s (fun t =>
        t.cnts[e.val]? = some { c with pmc := List.replicate 6 0, ran := false } ∧ t.obj (kCntSel e) = w.data ∧
        (∀ j, j ≠ e.val → t.cnts[j]? = s.cnts[j]?) ∧ ChangesObjs [kCntSel e] s t ∧ Changes [.cnts, .objs, .dict] s t)) ∧
      (w.key = objKey (0x5410 + e.val) 0x0B → Completes .writeApply s (fun t =>
        t.cnts[e.val]? = some { cyc := 0, pmc := List.replicate 6 0, ran := false } ∧ (∀ j, j ≠ e.val → t.cnts[j]? = s.cnts[j]?) ∧
        t.objs = s.objs ∧ Changes [.cnts, .dict] s t)) ∧
      (w.key = objKey 0x5400 0x02 → Completes .writeApply s (fun t => (∀ d ∈ t.cnts, d = { cyc := 0, pmc := List.replicate 6 0, ran := false }) ∧
        t.objs = s.objs ∧ Changes [.cnts, .dict] s t))) ∧
    (∀ k : Fin 6, s.sub (kCntSel e) k 1 = 0 ∨ s.clockOn e = false → Completes (.pmcWrap e k) s (fun t => t = s)) ∧
    (∀ k : Fin 6, s.sub (kCntSel e) k 1 ≠ 0 → s.clockOn e = true → k.val < c.pmc.length → c.pmc.getD k 0 < 2 ^ 48 → Completes (.pmcWrap e k) s (fun t =>
      (t.cnts[e.val]?).bind (fun d => d.pmc[k.val]?) = some 0 ∧ t.bit (kCntOvf e) k = true ∧
      (∀ j, j ≠ e.val → t.cnts[j]? = s.cnts[j]?) ∧ ChangesObjs [kCntOvf e] s t ∧ Changes [.cnts, .objs] s t)) ∧
    (s.served rq = true → s.cntFailed = false → s.n kShedStage = 0 → Completes (.cntBlock rq e) s (fun t =>
      (t.rq rq).result = 0 ∧ t.obj (kCntBlock e) = t.cntBytes e ∧ (t.obj (kCntBlock e)).length = 72 ∧
      ChangesObjs [kCntBlock e, kCntOvf e] s t ∧ Changes [.cnts, .objs, .dict, .free] s t)) ∧
    (s.served rq = true → s.cntFailed = true → Completes (.cntBlock rq e) s (fun t =>
      (t.rq rq).result = 0x00000601 ∧ t.objs = s.objs ∧ Changes [.dict] s t)) ∧
    (s.served rq = true → s.cntFailed = false → 1 ≤ s.n kShedStage → Completes (.cntBlock rq e) s (fun t =>
      (t.rq rq).result = 0x00000402 ∧ t.objs = s.objs ∧ Changes [.dict] s t))

/-! ### Feedback, compare, emulation and axes -/

/-- Feedback channels, compare units, emulation and axes (R282 to R286, R288, R289, R292, R293, R296, R300, R304, R305). A step that the
timing limits of R300 do not let rise yet sets RATE_CAP; when DIR changes beside it is log entry 82. -/
def Obligations.FeedbackAndAxes : Prop :=
  ∀ (s : State) (c : Fin 16), s.axes.fbs.length = 16 → s.axes.emus.length = 8 → s.axes.axes.length = 16 →
    let x := s.fb c
    let quiet : Prop := s.armed c 0 = false ∧ s.armed c 1 = false
    (∀ a b : Bool, s.fbCounts c = true → s.fbMode c = 1 ∨ s.fbMode c = 3 → quiet →
      let d := (quadPhase a b + 4 - quadPhase x.a x.b) % 4
      (d = 0 → Completes (.quadratureChange c a b) s (fun t => (t.fb c).count = x.count ∧ t.objs = s.objs ∧ Changes [.axes] s t)) ∧
      (d = 1 ∨ d = 3 → Completes (.quadratureChange c a b) s (fun t =>
        (t.fb c).count = wrap64 (x.count + if d = 1 then s.fbSign c else -s.fbSign c) ∧ (t.fb c).a = a ∧ (t.fb c).b = b ∧
        (∀ j, j ≠ c.val → t.fb j = s.fb j) ∧ t.objs = s.objs ∧ Changes [.axes] s t)) ∧
      (d = 2 → Completes (.quadratureChange c a b) s (fun t => (t.fb c).count = x.count ∧ t.bit (kFbStatus c) 2 = true ∧
        t.n (kFbIllegalCnt c) = min (s.n (kFbIllegalCnt c) + 1) (2 ^ 32 - 1) % 2 ^ 32 ∧
        ChangesObjs [kFbStatus c, kFbIllegalCnt c] s t ∧ Changes [.axes, .objs] s t))) ∧
    (∀ a b : Bool, s.isIn [.ready, .run, .hold, .degraded] = true → s.fbCounts c = true → s.fbMode c = 1 → (quadPhase a b + 4 - quadPhase x.a x.b) % 4 = 1 → s.fbSign c = 1 →
      s.armed c 0 = true → s.armed c 1 = false → s.i (kCmpInc c 0) = 0 → s.n (kCmpOnedir c 0) = 0 →
      s.i (kCmpValue c 0) = wrap64 (x.count + 1) → wrap64 (x.count + 1) ≠ x.count → Completes (.quadratureChange c a b) s (fun t =>
        t.bit (kCmpStatus c 0) 4 = true ∧ t.armed c 0 = false ∧ (t.cmp c 0).pulse = true ∧
        int (t.obj (kCmpLast c 0)) 0 8 = wrap64 (x.count + 1) ∧ (t.cmp c 0).fires = (x.u0.fires + 1) % 2 ^ 32)) ∧
    (∀ u : Fin 2, Completes (.cmpPulseEnd c u) s (fun t => (t.cmp c u).pulse = false ∧ (t.cmp c u).fires = (s.cmp c u).fires ∧
      t.objs = s.objs ∧ Changes [.axes] s t)) ∧
    (s.fbCounts c = true → s.n (kFbCpr c) ≠ 0 → s.n (kFbZGate c) = 0 →
      let dev := indexDev x.count (s.n (kFbCpr c)) (s.n (kFbIndexExp c))
      Completes (.indexEvent c) s (fun t => t.obj (kFbIndexCap c) = leInt 8 x.count ++ s.cellTime ++ leInt 4 dev ∧
        t.bit (kFbStatus c) 7 = true ∧ (s.n (kFbIndexTol c) < dev.natAbs → t.bit (kFbStatus c) 8 = true) ∧
        (s.n (kFbIndexMode c) ≠ 1 ∨ dev = 0 → (t.fb c).count = x.count) ∧
        (s.n (kFbIndexMode c) = 1 → dev ≠ 0 → s.dev.state ≠ .run → quiet →
          (t.fb c).count = wrap64 (x.count - dev) ∧ t.bit (kFbStatus c) 9 = true))) ∧
    (s.requests = true → s.fbCounts c = true → 2 ≤ s.fbMode c → s.cycle % max (s.n (kFbAbsDiv c)) 1 = 0 →
      Completes (.absRequest c true) s (fun t => (t.fb c).req = some x.count ∧ (t.fb c).clk = false ∧
        t.objs = s.objs ∧ Changes [.axes] s t) ∧
      Completes (.absRequest c false) s (fun t => t.bit (kFbStatus c) 3 = true ∧ ChangesObjs [kFbStatus c] s t ∧ Changes [.objs] s t)) ∧
    (∀ (word trailing : Nat) (latch : Time96), s.requests = true → s.fbCounts c = true → s.fbMode c = 2 → s.n (kFbAbsErr c) = 0 →
      x.word = none → s.bit (kFbStatus c) 1 = false → s.bit (kFbAbsFmt c) 0 = false → quiet →
      Completes (.absReading c word trailing true latch) s (fun t =>
        (t.fb c).count = s.fbSign c * ((word % 2 ^ s.n (kFbAbsBits c) : Nat) : Int) ∧ t.bit (kFbStatus c) 1 = true ∧ (t.fb c).clk = true ∧
        (t.fb c).word = some (word % 2 ^ s.n (kFbAbsBits c)) ∧ (t.fb c).newest = some ((t.fb c).count, time96Q latch) ∧
        t.n (kFbAbsRaw c) = (word % 2 ^ s.n (kFbAbsBits c) + trailing % 128 * 2 ^ 48) % 2 ^ 64) ∧
      Completes (.absReading c word trailing false latch) s (fun t =>
        (t.fb c).count = x.count ∧ t.bit (kFbStatus c) 3 = true ∧ t.bit (kFbStatus c) 1 = false)) ∧
    (∀ e : Fin 8, s.bit (kEmuStatus e) 0 = true →
      (s.emuTarget e ≠ s.i (kEmuEdges e) → Completes (.emuEdge e) s (fun t =>
        t.obj (kEmuEdges e) = leInt 8 (if s.i (kEmuEdges e) < s.emuTarget e then s.i (kEmuEdges e) + 1 else s.i (kEmuEdges e) - 1) ∧
        ChangesObjs [kEmuEdges e, kEmuStatus e] s t ∧ Changes [.axes, .objs] s t)) ∧
      (s.emuTarget e = s.i (kEmuEdges e) → Completes (.emuEdge e) s (fun t => t = s))) ∧
    (∀ ns : Nat, s.axSteps c = true → (s.ax c).msPending = none →
      let at_ := s.cycle * s.tns + ns / 5 * 5
      let due := s.axDue c at_
      let g : Int := msSize (s.n (kAxMsActive c))
      (due ≠ 0 → s.axEdgeOk c at_ (decide (0 < due)) = false → Completes (.step c ns) s (fun t =>
        t.bit (kAxStatus c) 5 = true ∧ ChangesObjs [kAxStatus c] s t ∧ Changes [.objs] s t)) ∧
      (due ≠ 0 → s.axEdgeOk c at_ (decide (0 < due)) = true → Completes (.step c ns) s (fun t =>
        t.obj (kAxPosOut c) = leInt 8 (wrap64 (s.i (kAxPosOut c) + if 0 < due then g else -g)) ∧ (t.ax c).step = true ∧
        (t.ax c).dir = decide (0 < due) ∧ (t.ax c).rise = some at_ ∧ ChangesObjs [kAxPosOut c, kAxStatus c] s t ∧ Changes [.axes, .objs] s t)) ∧
      (due = 0 → Completes (.step c ns) s (fun t => t = s))) ∧
    (s.axSteps c = false → ∀ ns, Completes (.step c ns) s (fun t => t = s)) ∧
    (s.isIn [.run, .hold, .degraded] = true → s.axUsed c = true → (s.ax c).stopped = false → s.bit (kAxStatus c) 0 = false →
      (s.ax c).deferred = none → Completes (.axIdle c) s (fun t => t.bit (kAxStatus c) 2 = true ∧
        (s.n (kAxStillMode c) = 0 → (t.ax c).en = false) ∧ (s.n (kAxStillMode c) ≠ 0 → (t.ax c).en = true) ∧
        ChangesObjs [kAxStatus c] s t ∧ Changes [.axes, .objs] s t)) ∧
    (s.bit (kAxStatus c) 0 = true ∨ (s.ax c).deferred.isSome = true → Completes (.axIdle c) s (fun t => t = s)) ∧
    (∀ d cy, (s.ax c).deferred = some (d, cy) → (s.ax c).waitQ = none → mvType d = 1 → (s.axMov c).active = false → Completes (.axWakeDone c) s (fun t =>
      (t.ax c).deferred = none ∧ t.bit (kAxStatus c) 3 = false ∧ (t.ax c).motion.kind = 1 ∧ (t.ax c).motion.desc = d ∧
      ChangesObjs [kAxStatus c, kAxMoveStatus c] s t ∧ Changes [.axes, .objs] s t)) ∧
    ((s.ax c).deferred = none → Completes (.axWakeDone c) s (fun t => t = s))

/-! ### Safety -/

/-- A channel that has no fault takes one: its code in SAFE_CH_FAULT, its OK bit clear; a second faulted channel is a device fault. -/
def ChannelFault (h : Bool) (code : Nat) (s t : State) : Prop :=
  t.chFault h = code ∧ t.chOk h = false ∧ t.chFault (!h) = s.chFault (!h) ∧
    (s.chFault (!h) = 0 → t.dev.chanFaults = s.dev.chanFaults ++ [(h, code)] ∧ t.dev.deviceFaults = s.dev.deviceFaults) ∧
    (s.chFault (!h) ≠ 0 → t.dev.chanFaults = s.dev.chanFaults ∧ t.dev.deviceFaults.map DevFault.type =
      s.dev.deviceFaults.map DevFault.type ++ [0x0207])

/-- Inputs, outputs and channel faults of the safety channels (R312, R320 to R322, R335, R341, R346). -/
def Obligations.SafetyInputsAndFaults : Prop :=
  ∀ (s : State) (ch : SafeChan),
    let h := ch == .h
    let x := s.safe.scan h
    let faultFree : Prop := s.chFault h = 0
    (∀ bits : BitVec 40, s.dev.phase ≠ .reset → bits.toNat / 2 ^ 32 ≠ 0xA5 →
      (x.bad ≠ 2 → Completes (.safeScan ch bits) s (fun t =>
        t.safe.scan h = { x with num := x.num + 1, bad := x.bad + 1, h1 := none, h2 := x.h1 } ∧ t.safe.scan (!h) = s.safe.scan (!h) ∧
        t.objs = s.objs ∧ Changes [.safe] s t)) ∧
      (x.bad = 2 → faultFree → Completes (.safeScan ch bits) s (fun t => ChannelFault h (if h then 4 else 3) s t ∧
        (t.safe.scan h).acc = x.acc))) ∧
    (∀ (bits : BitVec 40) (i : Fin 32), s.dev.phase ≠ .reset → bits.toNat / 2 ^ 32 = 0xA5 → pulseSource x.num ≠ some (s.source h i) →
      Completes (.safeScan ch bits) s (fun t => (t.safe.scan h).num = x.num + 1 ∧ (t.safe.scan h).bad = 0 ∧
        (t.safe.scan h).acc.testBit i = (if x.seen.testBit i && (x.last.testBit i == bits.getLsbD i) then bits.getLsbD i else x.acc.testBit i) ∧
        (t.safe.scan h).last.testBit i = bits.getLsbD i ∧ t.safe.scan (!h) = s.safe.scan (!h))) ∧
    (∀ i : Fin 32, s.dev.phase ≠ .reset →
      (s.contactDemand false i ≠ s.contactDemand true i → Completes (.discTimeExpiry i) s (fun t =>
        t.bit kSafeInFault i = true ∧ (s.bit kSafeInFault i = false → t.bit kSafeStatus 8 = true))) ∧
      (s.contactDemand false i = s.contactDemand true i → Completes (.discTimeExpiry i) s (fun t => t = s))) ∧
    (∀ w : W32, s.dev.phase ≠ .reset → Completes (.switchRead ch w) s (fun t =>
      (h = true → t.safe.swA = some w.toNat ∧ t.safe.swB = s.safe.swB) ∧ (h = false → t.safe.swB = some w.toNat ∧ t.safe.swA = s.safe.swA) ∧
      (∀ a b, t.safe.swA = some a → t.safe.swB = some b → t.bit kSafeStatus 6 = swMismatch a b))) ∧
    (∀ o : Fin 32, s.owner = false → Completes (.readbackMismatch ch o) s (fun t => t = s)) ∧
    (∀ o : Fin 32, s.dev.phase ≠ .reset → s.owner = true → faultFree → ¬ (s.chFault false = 8 ∧ s.chFault true = 7) →
      Completes (.readbackMismatch ch o) s (fun t =>
        ChannelFault h (if h then 6 else 5) s t ∧ t.bit kSafeStatus 9 = true)) ∧
    (∀ f : W32, s.dev.phase ≠ .reset →
      ((bitsOf 32 (if h then s.safe.outA else s.safe.outB)).all (fun o => f.toNat.testBit o) = true →
        Completes (.outputDarkTest ch f) s (fun t => t = s)) ∧
      ((bitsOf 32 (if h then s.safe.outA else s.safe.outB)).all (fun o => f.toNat.testBit o) = false → faultFree →
        Completes (.outputDarkTest ch f) s (fun t => ChannelFault h (if h then 6 else 5) s t ∧ t.bit kSafeStatus 9 = true))) ∧
    (∀ u : TestUnit, Completes (.periodicSelfTest u true) s (fun t => t = s)) ∧
    (s.dev.phase ≠ .reset → s.chFault true = 0 → Completes (.periodicSelfTest .kerb false) s (fun t => ChannelFault true 2 s t)) ∧
    (s.dev.phase ≠ .reset → s.chFault false = 0 → Completes (.periodicSelfTest .sp false) s (fun t => ChannelFault false 1 s t) ∧
      Completes .spWatchdogExpiry s (fun t => ChannelFault false 1 s t)) ∧
    (s.dev.state = .degraded → Completes .degradedTimerExpiry s (fun t => t.dev = { s.dev with degTimerEnd := true } ∧
      t.objs = s.objs ∧ Changes [.dev] s t)) ∧
    (s.dev.state ≠ .degraded → Completes .degradedTimerExpiry s (fun t => t = s)) ∧
    (s.dev.phase = .up → s.arms = [] → s.safe.missP = 1 → s.chFault false = 0 → s.chFault true = 0 →
      Completes (.safetyCheckTick false true) s (fun t => ChannelFault false 8 s t ∧ t.safe.missP = 2))

/-- STO of both halves: no torque, brakes applied, no envelope that still runs. -/
def Stopped (x : SafeArm) : Prop := x.stoP = true ∧ x.stoH = true ∧ x.release = .applied ∧ x.ss1 = none ∧ x.closing = false

/-- Stops, brakes, messages and the brake test (R315, R317, R331 to R334, R337 to R339, R343). -/
def Obligations.SafetyStops : Prop :=
  ∀ (s : State) (a : Fin 8), s.safe.arms.length = 8 →
    let x := s.sarm a
    let others (t : State) : Prop := ∀ b, b ≠ a.val → t.sarm b = s.sarm b
    (∀ e, s.dev.phase = .up → s.arms = [a.val] → s.n kShedStage = 0 → x.ss1 = some e → x.closing = false → x.meas.isSome = true →
      x.holdEnv = none → x.stopEnv = none → s.slsLimits a = [] ∨ x.slsEnv = none →
      (s.atRest a = true → Completes (.safetyCheckTick true true) s (fun t => (t.sarm a).closing = true ∧ (t.sarm a).release = .applied)) ∧
      (s.atRest a = false → s.inEnv a e (s.still a) = false → Completes (.safetyCheckTick true true) s (fun t =>
        (t.sarm a).stoP = true ∧ (t.sarm a).stoH = true))) ∧
    (x.closing = true → Completes (.brakeCloseExpiry a) s (fun t => Stopped (t.sarm a) ∧ others t ∧ t.objs = s.objs ∧ Changes [.safe] s t)) ∧
    (x.closing = false → Completes (.brakeCloseExpiry a) s (fun t => t = s)) ∧
    (x.ss1.isSome = true → x.closing = false → Completes (.ss1TmaxExpiry a) s (fun t =>
      Stopped (t.sarm a) ∧ others t ∧ t.objs = s.objs ∧ Changes [.safe] s t)) ∧
    (x.ss1 = none ∨ x.closing = true → Completes (.ss1TmaxExpiry a) s (fun t => t = s)) ∧
    (x.armStop = true → x.verdP = false → x.verdH = false → Completes (.armStopClear a) s (fun t =>
      (t.sarm a).armStop = false ∧ (t.sarm a).stopEnv = none ∧ others t ∧ ChangesObjs [kSafeStatus] s t ∧ Changes [.safe, .objs] s t)) ∧
    (x.armStop = false ∨ x.verdP = true ∨ x.verdH = true → Completes (.armStopClear a) s (fun t => t = s)) ∧
    (x.release = .opening → Completes (.brakeOpenExpiry a) s (fun t => (t.sarm a).release = .released ∧ others t ∧ Changes [.safe] s t)) ∧
    (x.release = .wanted → Completes (.brakeReleaseTimeout a) s (fun t =>
      (t.sarm a).release = .applied ∧ t.dev.stopDemand = true ∧ ChangesObjs [kRecStatus, kRecDrops] s t)) ∧
    (∀ (n : Fin 64) (c : Bytes), s.dev.phase = .up → s.connRecs[n.val]? = some c → connKind c ≠ 0 → n.val < s.safe.conns.length →
      Completes (.connLost n) s (fun t => t.conn n = ⟨true, none⟩ ∧ t.bit kSafeStatus 10 = true ∧
        (connKind c = 1 → (connArms c).testBit a = true → s.chOk false = true → s.chOk true = true →
          (t.sarm a).stoP = true ∧ (t.sarm a).stoH = true ∧ t.dev.stopDemand = true))) ∧
    (∀ (r : RingId) (ad : BitVec 10) (f : Frame) (own : W32) (c arm : Nat), s.cmdConn (ringNo r) = some c → s.nodeArm r ad.toNat = some arm →
      let b := slice f.payload 0 16
      let k := slice f.payload 16 16
      (num b 12 4 ≠ safetyCrc (b.take 12) → num k 12 4 ≠ safetyCrc (k.take 12) → Completes (.safetyCommand r ad f own) s (fun t =>
        (t.node r ad.toNat).cmdP = (s.node r ad.toNat).cmdP ∧ (t.node r ad.toNat).cmdH = (s.node r ad.toNat).cmdH ∧ OnlyNode r ad.toNat s t)) ∧
      (num b 12 4 = safetyCrc (b.take 12) → num b 0 2 = c → num b 2 1 = 0 → (s.node r ad.toNat).cmdP = none → num b 4 4 ≤ own.toNat →
        Completes (.safetyCommand r ad f own) s (fun t => (t.node r ad.toNat).cmdP = some (num b 4 4, num b 8 4) ∧
          (t.node r ad.toNat).aliveP = true ∧ ((field (num b 8 4) (4 * arm) 4).testBit 0 = true → (t.node r ad.toNat).torque = false) ∧
          OnlyNode r ad.toNat s t))) ∧
    (∀ (r : RingId) (ad : BitVec 10) (ch : SafeChan), Completes (.nodeSafetyWatchdog r ad ch) s (fun t =>
      (t.node r ad.toNat).torque = false ∧ (ch = .h → (t.node r ad.toNat).aliveH = false) ∧
      (ch = .p → (t.node r ad.toNat).aliveP = false) ∧ OnlyNode r ad.toNat s t)) ∧
    (∀ (r : RingId) (ad : BitVec 10), (s.node r ad.toNat).ss1 = true → Completes (.nodeSs1TimerExpiry r ad) s (fun t =>
      (t.node r ad.toNat).torque = false ∧ OnlyNode r ad.toNat s t)) ∧
    (∀ f : Frame, s.dev.phase = .up → s.connRecs = [] → Completes (.safetyStatus f) s (fun t => t = s)) ∧
    (∀ (f : Frame) (c : Bytes), s.dev.phase = .up → s.connRecs = [c] → connKind c = 1 → connNode c = f.addr.toNat →
      connRing c = ringNo f.ring → connSafe c = f.slot.toNat → connId c = num f.payload 0 2 → connArms c = 2 ^ a.val →
      num f.payload 28 4 = safetyCrc (f.payload.take 28) → num f.payload 4 4 = s.seq32 → num f.payload 8 4 = s.seq32 →
      s.safe.conns.length = 1 → Completes (.safetyStatus f) s (fun t => (t.conn 0).lost = false ∧ (t.sarm a).torque = num f.payload 2 1)) ∧
    (∀ (b : BtRun) (q0 : List Int), s.safe.bt = some b → b.arm = a.val → b.rest = 0 → b.recorded = some q0 →
      Completes .btCompare s (fun t => t.safe.bt = none ∧ (t.sarm a).stoP = true ∧ (t.sarm a).stoH = true ∧
        (((s.braked a).all (fun j => decide ((((s.sarm a).counts.getD j 0) - q0.getD j 0).natAbs ≤ s.armPar a (176 + 4 * j) 4))) = true →
          (t.sarm a).btLast = 1 ∧ (t.sarm a).btFail = false ∧ (t.sarm a).btTime = 0 ∧ (t.sarm a).btDue = false) ∧
        (((s.braked a).all (fun j => decide ((((s.sarm a).counts.getD j 0) - q0.getD j 0).natAbs ≤ s.armPar a (176 + 4 * j) 4))) = false →
          (t.sarm a).btLast = 2 ∧ (t.sarm a).btFail = true ∧ t.bit kSafeStatus 13 = true))) ∧
    (s.safe.bt = none → Completes .btCompare s (fun t => t = s)) ∧
    (x.btDue = false → Completes (.btDue a) s (fun t => (t.sarm a).btDue = true ∧ t.bit kSafeStatus 11 = true ∧ others t)) ∧
    (x.btDue = true → Completes (.btDue a) s (fun t => t = s)) ∧
    Completes (.btOverdue a) s (fun t => (t.sarm a).btOver = true ∧ t.bit kSafeStatus 12 = true ∧ t.dev.btCap = true ∧ others t) ∧
    (∀ (w : PendingWrite), s.dict.pendingWrites = [w] → w.applyCycle ≤ s.cycle → w.key = objKey 0x7000 0x0D →
      leVal w.data = 2 ^ a.val → s.dev.state = .ready → s.safe.bt = none → s.n (kArmNj a) ≠ 0 →
      (s.stopping = false → Completes .writeApply s (fun t =>
        t.safe.bt = some ⟨a.val, 0, none⟩ ∧ (t.sarm a).stoP = false ∧ (t.sarm a).stoH = false ∧ others t ∧ t.objs = s.objs)) ∧
      (s.stopping = true → Completes .writeApply s (fun t =>
        t.safe.bt = none ∧ (t.sarm a).stoP = x.stoP ∧ (t.sarm a).stoH = x.stoH ∧ (t.sarm a).btLast = 3 ∧ others t))) ∧
    (∀ (rq : Requester) (d : Bytes), s.served rq = true → writeCheck s rq 0x7000 0x08 d = 0 → s.blockFailed 0x7000 0x08 = false →
      s.dev.state = .service → s.sec.flashOp = none → s.sec.attNonce = none →
      let good : Bool := s.sec.verify "CX864-SET" 1 ownerSigners d
      Completes (.safeSetDl rq d) s (fun t => t.safe = s.safe ∧ t.objs = s.objs ∧
        t.sec = (if good && setOk (setBody d) then { s.sec with flashOp := some (.safetySet d rq) } else s.sec) ∧
        (good = false → (t.rq rq).result = 0x00000801) ∧ (good = true → setOk (setBody d) = false → (t.rq rq).result = 0x00000302)))

/-! ### Recorder, images, fuses and attestation -/

/-- In SERVICE a write to an object of this index passes the checks of R386 and takes effect at once. -/
def InService (rq : Requester) (index sub : Nat) (v : Bytes) (s : State) : Prop :=
  s.served rq = true ∧ writeCheck s rq index sub v = 0 ∧ s.blockFailed index sub = false ∧ s.dev.state = .service

/-- The event recorder (R430 to R438, R441): an accepted record enters its ring's queue with the next SEQ, a full ring drops it and
counts; a programmed page appends its record to the open sector; an erased sector is kept ahead; a periodic save alternates; a clear
empties the rings of its mask and keeps their SEQ. -/
def Obligations.EventRecorder : Prop :=
  ∀ s : State,
    (∀ (src : BitVec 2) (type : W16) (sw : Bool) (p : Bytes), s.recd.mounted = true → s.recd.stopped = false →
      type.toNat / 256 ≠ 4 → s.recd.programming.isSome = true → s.recd.general.nextSeq < 2 ^ 24 →
      4 ≤ s.recd.general.usable s.recd.bad →
      (queueLen s.recd.general.queue + 4128 ≤ 262144 → Completes (.recordRequest src type sw p) s (fun t =>
        (∃ b, t.recd.general.queue = s.recd.general.queue ++ [b] ∧ num b 2 2 = type.toNat ∧ num b 13 3 = s.recd.general.nextSeq ∧
          num b 4 5 = s.recd.optime % 2 ^ 40 ∧ num b (b.length - 4) 4 = crc32c (b.take (b.length - 4))) ∧
        t.recd.general.nextSeq = (s.recd.general.nextSeq + 1) % 2 ^ 24 ∧ t.recd.safety = s.recd.safety ∧
        ChangesObjs [kRecStatus] s t ∧ Changes [.recd, .objs] s t)) ∧
      (262144 ≤ queueLen s.recd.general.queue → Completes (.recordRequest src type sw p) s (fun t =>
        t.recd.general.queue = s.recd.general.queue ∧ t.recd.general.lost = true ∧ t.bit kRecStatus 4 = true ∧
        t.sub kRecDrops 4 4 = min (s.sub kRecDrops 4 4 + 1) (2 ^ 32 - 1) ∧ ChangesObjs [kRecStatus, kRecDrops] s t))) ∧
    (s.recd.mounted = false → ∀ src type sw p, Completes (.recordRequest src type sw p) s (fun t => t = s)) ∧
    (∀ (b : Bytes) (x : RecSector), s.recd.programming = some (false, b.length) → s.recd.general.queue = [b] → b ≠ [] →
      s.recd.general.progressed = 0 → s.recd.general.sectors = [x] → s.recd.safety.queue = [] → Completes (.flashProgramDone .general true) s (fun t =>
        t.recd.general.queue = [] ∧ t.recd.general.sectors = [{ x with recs := x.recs ++ [b] }] ∧ t.recd.programming = none ∧
        t.objs = s.objs ∧ Changes [.recd] s t)) ∧
    (s.recd.programming = none → ∀ ring ok, Completes (.flashProgramDone ring ok) s (fun t => t = s)) ∧
    (∀ (ring : RecRing) (n : Nat), (s.recd.ring (recRing ring)).erasing = some n → (s.recd.ring (recRing ring)).waiting = false →
      s.recd.safety.queue = [] → s.recd.general.queue = [] → Completes (.sectorEraseDone ring true) s (fun t =>
        (t.recd.ring (recRing ring)).ahead = some n ∧ (t.recd.ring (recRing ring)).erasing = none ∧ t.objs = s.objs ∧ Changes [.recd] s t)) ∧
    (∀ ring ok, (s.recd.ring (recRing ring)).erasing = none → Completes (.sectorEraseDone ring ok) s (fun t => t = s)) ∧
    (s.recd.mounted = true → Completes .periodicSave s (fun t =>
      (if s.recd.saveNext then t.recd.save1 else t.recd.save0) = some ⟨s.recd.optime, s.recd.pcc, 0⟩ ∧
      t.recd.saveNext = !s.recd.saveNext ∧ ChangesObjs [kRecStatus, kRecDrops] s t ∧ Changes [.recd, .objs] s t)) ∧
    (s.recd.mounted = false → Completes .periodicSave s (fun t => t = s)) ∧
    (∀ (rq : Requester) (v : Byte), InService rq 0x8000 0x06 [v] s → v.toNat % 4 = 1 → Completes (.recClear rq v) s (fun t =>
      (t.rq rq).result = 0 ∧ t.recd.safety.sectors = [] ∧ t.recd.safety.queue = [] ∧ t.recd.safety.nextSeq = s.recd.safety.nextSeq)) ∧
    (∀ (rq : Requester) (v : W32), InService rq 0x8000 0x05 (le 4 v.toNat) s → 4 ≤ v.toNat → v.toNat + 6 ≤ s.recd.sectorsTotal →
      Completes (.recSafeSect rq v) s (fun t => (t.rq rq).result = 0 ∧ t.recd.safety.count = v.toNat ∧
        t.recd.general.first = 2 + v.toNat ∧ t.recd.general.count = s.recd.sectorsTotal - 2 - v.toNat ∧
        t.recd.safety.sectors = [] ∧ t.n kRecSafeSect = v.toNat)) ∧
    (∀ (rq : Requester) (v : W32), InService rq 0x8000 0x05 (le 4 v.toNat) s → v.toNat < 4 ∨ s.recd.sectorsTotal < v.toNat + 6 →
      Completes (.recSafeSect rq v) s (fun t => (t.rq rq).result = 0x00000302 ∧ t.recd = s.recd))

/-- Images, fuses and attestation in SERVICE (R447, R449, R450, R452, R453, R457): an image write starts the read-back of the slot that
does not run, whose end makes it pending, or invalid with IMG_REJECTED; a confirmation makes the trial the active slot; a reboot is
a reset; a fuse once blown stays; a nonce yields a report, and a verification that is asked for while the report is being signed waits for it. -/
def Obligations.ImagesAndFuses : Prop :=
  ∀ (s : State) (rq : Requester),
    (∀ d : Bytes, InService rq 0x9000 0x03 d s → s.sec.main.trial = false → s.sec.flashOp = none → Completes (.imageWrite rq .main d) s (fun t =>
      t.sec.flashOp = some (.image 1 d rq) ∧ t.sec.main.st s.sec.main.target = .empty ∧
      t.sec.main.bytes (!s.sec.main.target) = s.sec.main.bytes (!s.sec.main.target) ∧ t.sec.fuses = s.sec.fuses ∧ t.objs = s.objs)) ∧
    (∀ (d : Bytes) (ok : Bool), s.sec.flashOp = some (.image 1 d rq) → s.sec.attNonce = none →
      let code : Nat := if ok then s.sec.imageCheck 1 false d else 0x00000601
      Completes (.bootFlashOperationDone ok) s (fun t => t.sec.flashOp = none ∧ (t.rq rq).result = code ∧
        (code = 0 → t.sec.main.st s.sec.main.target = .pending ∧ t.sec.main.bytes s.sec.main.target = d ∧
          t.sec.main.active = s.sec.main.active ∧ t.bit kSecStatus 4 = s.bit kSecStatus 4) ∧
        (code ≠ 0 → t.sec.main.st s.sec.main.target = .invalid ∧ t.bit kSecStatus 4 = true))) ∧
    (∀ d : Bytes, s.sec.flashOp = some (.image 1 d rq) → s.sec.attNonce.isSome = true → Completes (.bootFlashOperationDone true) s (fun t =>
      t.sec = { s.sec with flashOp := some (.readBack 1 d rq) } ∧ t.objs = s.objs ∧ Changes [.sec] s t)) ∧
    (s.sec.flashOp = none → ∀ ok, Completes (.bootFlashOperationDone ok) s (fun t => t = s)) ∧
    (∀ b, InService rq 0x9000 0x06 [1] s → s.sec.main.running = some b → s.sec.main.st b = .trial → Completes (.secConfirm rq 1) s (fun t =>
      t.sec.main.st b = .valid ∧ t.sec.main.active = b ∧ t.bit kSecStatus 2 = false ∧ (t.rq rq).result = 0 ∧ t.dev = s.dev)) ∧
    (InService rq 0x9000 0x07 [1] s → Completes (.secReboot rq 1) s (fun t => t.dev.phase = .reset ∧ t.dev.state = .inert ∧
      t.objs = s.objs.filter (fun p => p.1 == kRecSafeSect || p.1 == kAttCert) ∧ t.sec.fuses = s.sec.fuses ∧ t.sec.main.imgA = s.sec.main.imgA ∧ t.sec.main.imgB = s.sec.main.imgB)) ∧
    (∀ (d : Bytes) (i : Nat), InService rq 0x9000 0x09 d s → d.length = 64 → s.sec.fuses.blank = some i → s.sec.fuses.owner.length = 4 →
      Completes (.secOwnerKey rq d) s (fun t => t.sec.fuses.owner.getD i none = some (fit 32 (Config.shake256 d 32)) ∧
        (∀ j, j ≠ i → t.sec.fuses.owner.getD j none = s.sec.fuses.owner.getD j none) ∧ (t.rq rq).result = 0)) ∧
    (∀ v : Byte, InService rq 0x9000 0x0A [v] s → v.toNat ≤ 3 → s.sec.fuses.otherOwner v.toNat = true → s.sec.fuses.revoked.length = 4 →
      Completes (.secOwnerRevoke rq v) s (fun t => t.sec.fuses.revoked.getD v.toNat false = true ∧
        t.sec.fuses.owner = s.sec.fuses.owner ∧ (t.rq rq).result = 0)) ∧
    (∀ v : Byte, InService rq 0x9000 0x0A [v] s → 3 < v.toNat ∨ s.sec.fuses.otherOwner v.toNat = false →
      Completes (.secOwnerRevoke rq v) s (fun t => t.sec = s.sec ∧ (t.rq rq).result = 0x00000302)) ∧
    (InService rq 0x9000 0x0B [1] s → Completes (.secDevLock rq 1) s (fun t => t.sec.fuses.devBlown = true ∧ (t.rq rq).result = 0 ∧
      (s.sec.fuses.devBlown = false → t.bit kSecStatus 1 = false))) ∧
    (∀ d : Bytes, InService rq 0x9000 0x10 d s → d.length = 32 → s.sec.attNonce = none → s.sec.trngOk = true →
      s.sec.fuses.devSeed.isSome = true → Completes (.attNonce rq d) s (fun t =>
        t.sec = { s.sec with attNonce := some d, attReady := false } ∧ t.bit kSecStatus 5 = true ∧ (t.rq rq).result = 0)) ∧
    (∀ d : Bytes, s.sec.attNonce = some d → s.sec.fuses.devSeed.isSome = true → s.sec.verifies = [] →
      (∀ n b q, s.sec.flashOp ≠ some (.readBack n b q)) → Completes .attReportDone s (fun t =>
      t.sec.attNonce = none ∧ t.sec.attReady = true ∧ t.sec.attSeq = s.sec.attSeq + 1 ∧ t.sec.attReport.take 4 = le 4 0x41540001 ∧
      slice t.sec.attReport 16 32 = fit 32 d ∧ t.bit kSecStatus 5 = false ∧ t.sec.fuses = s.sec.fuses)) ∧
    (s.sec.attNonce = none → Completes .attReportDone s (fun t => t = s)) ∧
    (∀ d : Bytes, InService rq 0x9000 0x13 d s → s.sec.attNonce.isSome = true → d.length = 30080 →
      Completes (.attCert rq d) s (fun t => t.sec = { s.sec with verifies := s.sec.verifies ++ [⟨rq, 0x9000, 0x13, d⟩] } ∧
        (t.rq rq).result = resPending ∧ t.objs = s.objs)) ∧
    (∀ n d : Bytes, InService rq 0x9000 0x13 d s → s.sec.attNonce = some n → s.sec.fuses.devSeed.isSome = true → s.sec.flashOp = none →
      s.sec.verifies = [⟨rq, 0x9000, 0x13, d⟩] → Completes .attReportDone s (fun t =>
        (t.rq rq).result = certOwn d s ∧ (certOwn d s = 0 → t.obj (objKey 0x9000 0x13) = d) ∧ t.sec.verifies = [] ∧
        t.sec.attReady = true)) ∧
    (∀ d : Bytes, InService rq 0x9000 0x13 d s → s.sec.attNonce = none → Completes (.attCert rq d) s (fun t =>
      (t.rq rq).result = certOwn d s ∧ t.sec = s.sec ∧ (certOwn d s = 0 → t.obj (objKey 0x9000 0x13) = d) ∧
      (d.length ≠ 30080 → certOwn d s = 0x00000301) ∧ ChangesObjs [objKey 0x9000 0x13, kRecStatus, kRecDrops] s t))

/-! ### Monitor and shedding -/

/-- The monitor and the shedding logic (R470, R471, R475 to R482): a result updates its channel; the second in a row beyond a threshold
enters at least the condition's stage; no result lowers a stage; a re-enable with no condition left does; calibration, windows,
domains, hardware faults and the end of S4's wait act as their rules say. -/
def Obligations.MonitorAndShedding : Prop :=
  ∀ s : State, s.mon.chans.length = 32 →
    (∀ (slot : Nat) (v : W16) (q : Byte) (c : Nat), s.dev.phase ≠ .reset → s.mon.calibrates slot = false →
      s.mon.injs.any (fun i => i.slot == slot) = false → (s.obj kMonSeq)[s.mon.seqPos % (s.obj kMonSeq).length]? = some q →
      c = q.toNat % 32 → s.sysCorrect c v.toNat = (v.toNat, s) →
      Completes (.adcConversion slot v) s (fun t =>
        (t.mon.chans.getD c .reset).last = some v.toNat ∧
        (t.mon.chans.getD c .reset).min = min (s.mon.chans.getD c .reset).min v.toNat ∧
        (t.mon.chans.getD c .reset).max = max (s.mon.chans.getD c .reset).max v.toNat ∧
        ((s.mon.chans.getD c .reset).sat = false →
          (t.mon.chans.getD c .reset).sum = ((s.mon.chans.getD c .reset).sum + v.toNat) % 2 ^ 48 ∧
          (t.mon.chans.getD c .reset).count = (s.mon.chans.getD c .reset).count + 1) ∧
        t.mon.seqPos = (s.mon.seqPos + 1) % (s.obj kMonSeq).length ∧ s.n kShedStage ≤ t.n kShedStage ∧
        (∀ i, 1 ≤ i → i < 13 → (condTaps i).contains c = true → s.condOn i = true → condBeyond i c v.toNat = true →
          (s.mon.chans.getD c .reset).beyond.testBit i = true → s.mon.conds.getD i false = false → condStage i ≤ t.n kShedStage) ∧
        (s.mon.conds = List.replicate 13 false → (∀ i, i < 13 → (condTaps i).contains c = true → condBeyond i c v.toNat = false) → t.n kShedStage = s.n kShedStage ∧
          t.safe = s.safe ∧ t.dev = s.dev))) ∧
    (∀ (slot : Nat) (v : W16) (i : Inj), s.dev.phase ≠ .reset → s.mon.injs.find? (fun j => j.slot == slot) = some i → i.chan < 32 →
      s.sysCorrect i.chan v.toNat = (v.toNat, s) → Completes (.injectedConversion slot v) s (fun t =>
        (t.mon.chans.getD i.chan .reset).last = some v.toNat ∧
        (t.mon.chans.getD i.chan .reset).count = (s.mon.chans.getD i.chan .reset).count ∧
        (i.by_ = .kerb → i.chan = 13 → condBeyond 7 13 v.toNat = true → 5 ≤ t.n kShedStage))) ∧
    (∀ (slot : Nat) (v : W16), s.mon.injs.find? (fun j => j.slot == slot) = none → Completes (.injectedConversion slot v) s (fun t => t = s)) ∧
    (∀ rq : Requester, InService rq 0x8800 0x04 [1] s → s.mon.conds.any id = false → Completes (.shedReenable rq 1) s (fun t =>
      (t.rq rq).result = 0 ∧ t.n kShedStage = 0 ∧ t.n kShedMinCore = 0xFFFF ∧ t.mon.stopped = false ∧ t.mon.s4wait = false)) ∧
    (∀ rq : Requester, InService rq 0x8800 0x04 [1] s → s.mon.conds.any id = true → Completes (.shedReenable rq 1) s (fun t =>
      (t.rq rq).result = 0x00000402 ∧ t.n kShedStage = s.n kShedStage ∧ t.mon = s.mon)) ∧
    (s.mon.s4wait = true → Completes .s4StandstillTimeout s (fun t => t.mon.stopped = true ∧ t.mon.s4wait = false ∧
      (∀ x ∈ t.safe.arms, Stopped x) ∧ t.objs = s.objs ∧ Changes [.mon, .safe, .cnts] s t)) ∧
    (s.mon.s4wait = false → Completes .s4StandstillTimeout s (fun t => t = s)) ∧
    (∀ rq : Requester, InService rq 0x8820 0x02 [1] s → s.mon.calib = none → Completes (.monCalCmd rq 1) s (fun t =>
      (t.rq rq).result = 0 ∧ ∃ b, t.mon.calib = some (0, b))) ∧
    (s.dev.phase ≠ .reset → s.n kMonCalPeriod ≠ 0 → s.mon.calib = none → Completes .monCalPeriodExpiry s (fun t =>
      (∃ b, t.mon.calib = some (0, b)) ∧ t.objs = s.objs ∧ Changes [.mon] s t)) ∧
    (s.n kMonCalPeriod = 0 ∨ s.mon.calib.isSome = true → Completes .monCalPeriodExpiry s (fun t => t = s)) ∧
    (∀ (c : Nat) (o g : W16) (k : Byte), s.mon.calib = some (c, true) → c ≤ 3 → Completes (.sliceCalibrationDone o g k) s (fun t =>
      t.obj kMonSliceFact = patch (s.obj kMonSliceFact) (8 * c) (le 2 o.toNat ++ le 2 g.toNat ++ [k, 0, 0, 0]) ∧
      (c < 3 → ∃ b, t.mon.calib = some (c + 1, b)) ∧ (c = 3 → t.mon.calib = none ∧ t.bit kMonStatus 0 = true) ∧
      ChangesObjs [kMonSliceFact, kMonStatus] s t ∧ Changes [.mon, .objs] s t)) ∧
    (∀ (rq : Requester) (g : Byte) (uv : W32), g.toNat ≤ 6 → s.mon.avg = none →
      (InService rq 0x8820 0x08 ([g, 1, 0, 0] ++ le 4 uv.toNat) s → Completes (.syscalStep1 rq g uv) s (fun t =>
        t.mon.avg.map AvgSt.group = some g.toNat ∧ t.mon.avg.map AvgSt.second = some false ∧ t.mon.avg.map AvgSt.uv = some uv.toNat ∧ t.objs = s.objs)) ∧
      (s.mon.steps.getD g.toNat none = none → InService rq 0x8820 0x08 ([g, 2, 0, 0] ++ le 4 uv.toNat) s →
        Completes (.syscalStep2 rq g uv) s (fun t => (t.rq rq).result = 0x00000302 ∧ t.mon = s.mon)) ∧
      (∀ v1 s1 n1, s.mon.steps.getD g.toNat none = some (v1, s1, n1) → levelsApart g.toNat v1 uv.toNat = true →
        InService rq 0x8820 0x08 ([g, 2, 0, 0] ++ le 4 uv.toNat) s → Completes (.syscalStep2 rq g uv) s (fun t =>
          t.mon.avg.map AvgSt.group = some g.toNat ∧ t.mon.avg.map AvgSt.second = some true ∧ t.objs = s.objs))) ∧
    (∀ a : AvgSt, s.mon.avg = some a → 65536 ≤ a.counts.sum → a.second = false → a.group < s.mon.steps.length →
      Completes .syscalAverageDone s (fun t => t.mon.avg = none ∧ t.mon.steps.getD a.group none = some (a.uv, a.sum, 65536) ∧
        (t.rq a.rq).result = 0 ∧ t.objs = s.objs)) ∧
    (∀ c : Fin 32, s.dev.phase ≠ .reset → s.cycle % s.sub kMonWin (4 * c.val) 4 = 0 → Completes (.monWindowEnd c) s (fun t =>
      let x := s.mon.chans.getD c.val .reset
      t.obj (kMonResult c) = le 8 x.sum ++ le 4 x.count ++ le 2 x.min ++ le 2 x.max ++ le 8 s.cycle ++ le 1 (b01 x.sat) ++ zeros 7 ∧
      t.mon.chans.getD c.val .reset = { x with sum := 0, count := 0, min := 0xFFFF, max := 0, sat := false } ∧
      ChangesObjs [kMonResult c] s t ∧ Changes [.mon, .objs] s t)) ∧
    (∀ d : Burst, s.dev.phase ≠ .reset → Completes (.domainWake d) s (fun t =>
      (if d = .m800 then t.mon.on800 else t.mon.on1000) = true ∧
      ((∀ e, e < 82 → s.clockOn e = t.clockOn e) → t.objs = s.objs ∧ t.cnts = s.cnts) ∧ Changes [.mon, .cnts, .objs] s t)) ∧
    (∀ d : Burst, (s.n kLlGateEn ≠ 0 → s.burstBusy d = false → Completes (.domainGateOff d) s (fun t =>
        (if d = .m800 then t.mon.on800 else t.mon.on1000) = false ∧ t.cnts.map CntSt.pmc = s.cnts.map CntSt.pmc ∧ t.objs = s.objs ∧
        Changes [.mon, .cnts] s t)) ∧
      (s.n kLlGateEn = 0 ∨ s.burstBusy d = true → Completes (.domainGateOff d) s (fun t => t = s))) ∧
    (∀ (k : HwFault) (u : Byte) (d : W32), s.dev.phase ≠ .reset → Completes (.deviceFaultDetected k u d) s (fun t =>
      t.dev = { s.dev with deviceFaults := s.dev.deviceFaults ++ [⟨match k with | .boulevard => 0x0201 | .sramParity => 0x0202 | .lockstep => 0x0206,
        match k with | .boulevard => 46 | .sramParity => u.toNat | .lockstep => 38, s.cycle, d.toNat⟩] } ∧ t.objs = s.objs ∧ Changes [.dev] s t))

/-! ### Test access port -/

/-- The test access port (R507 to R511): in SERVICE with TST_BSCAN_EN set a driving instruction takes the balls; elsewhere EXTEST and
its AC forms act as SAMPLE, CLAMP and HIGHZ as BYPASS, and TST_BLOCKED is set; the others leave the balls alone; SEAL_READ's captures
hold the newest scans with their valid bits; a write of 0 to TST_BSCAN_EN releases the balls. -/
def Obligations.TestPort : Prop :=
  ∀ (s : State) (l : List Bool),
    let drives (c : Instr) (i other : TapInstr) (pulses : Nat) : Prop :=
      (s.tapAllowed = true → Completes c s (fun t => t.tap.ir = i ∧ t.tap.driving = true ∧ t.bit kTstStatus 0 = true ∧
        t.tap.pulses = s.tap.pulses + pulses ∧ ChangesObjs [kTstStatus] s t ∧ Changes [.tap, .objs] s t)) ∧
      (s.tapAllowed = false → Completes c s (fun t => t.tap.ir = other ∧ t.tap.driving = false ∧ t.bit kTstStatus 1 = true ∧
        t.bit kTstStatus 0 = false ∧ t.tap.pulses = s.tap.pulses ∧ ChangesObjs [kTstStatus] s t ∧ Changes [.tap, .objs] s t))
    let quiet (c : Instr) (i : TapInstr) : Prop := Completes c s (fun t => t.tap.ir = i ∧ t.tap.driving = false ∧
      t.bit kTstStatus 0 = false ∧ t.bit kTstStatus 1 = s.bit kTstStatus 1 ∧ ChangesObjs [kTstStatus] s t ∧ Changes [.tap, .objs] s t)
    drives (.extest l) .extest .sample 0 ∧ drives (.extestPulse l) .pulse .sample 1 ∧ drives (.extestTrain l) .train .sample 255 ∧
    drives .clamp .clamp .bypass 0 ∧ drives .highz .highz .bypass 0 ∧
    quiet .idcode .idcode ∧ quiet .bypass .bypass ∧ quiet .testLogicReset .idcode ∧ quiet (.samplePreload l) .sample ∧
    quiet .sealRead .sealRead ∧
    (l.length = 1302 → Completes (.extest l) s (fun t => t.tap.boundary = l) ∧ Completes (.samplePreload l) s (fun t => t.tap.boundary = l)) ∧
    Completes .sealRead s (fun t => t.tap.scanA = none ∧ t.tap.scanB = none ∧ t.bit kTstStatus 2 = true) ∧
    (∀ a b : W32, s.tap.ir = .sealRead → Completes (.sealCapture (some a) (some b)) s (fun t =>
      t.tap.sealReg = a.toNat + b.toNat * 2 ^ 32 + 3 * 2 ^ 64 ∧ t.n kTstSeal = a.toNat + b.toNat * 2 ^ 32 ∧
      ChangesObjs [kTstSeal] s t ∧ Changes [.tap, .objs] s t)) ∧
    (s.tap.ir = .sealRead → Completes (.sealCapture none none) s (fun t =>
      t.tap.scanA = s.tap.scanA ∧ t.tap.scanB = s.tap.scanB ∧ t.tap.ir = .sealRead)) ∧
    (s.tap.ir ≠ .sealRead → ∀ a b, Completes (.sealCapture a b) s (fun t => t = s)) ∧
    (∀ rq : Requester, InService rq 0x9800 0x01 [0] s → Completes (.tstBscanEn rq 0) s (fun t => t.n kTstBscanEn = 0 ∧
      t.tap.driving = false ∧ t.bit kTstStatus 0 = false ∧ t.tap.ir = s.tap.ir ∧ (t.rq rq).result = 0)) ∧
    (∀ rq : Requester, InService rq 0x9800 0x01 [1] s → Completes (.tstBscanEn rq 1) s (fun t => t.n kTstBscanEn = 1 ∧
      t.tap = s.tap ∧ (t.rq rq).result = 0))

/-! ### Every step -/

/-- Every step completes, keeps the invariant, takes exactly one command off the queue, and blows fuses without ever clearing one: fused keys,
revocations and the device lock stay, and no rollback counter falls (R444, R459). -/
def Obligations.EveryStepKeeps : Prop :=
  ∀ s : State, ∃ t : State, step s = .next t ∧
    (Canonical s → Canonical t) ∧ t.pending = s.pending.tail ∧
    (s.sec.fuses.devBlown = true → t.sec.fuses.devBlown = true) ∧
    (∀ i h, s.sec.fuses.owner.getD i none = some h → t.sec.fuses.owner.getD i none = some h) ∧
    (∀ i, s.sec.fuses.revoked.getD i false = true → t.sec.fuses.revoked.getD i false = true) ∧
    (∀ i, s.sec.fuses.rollback.getD i 0 ≤ t.sec.fuses.rollback.getD i 0) ∧
    (s.sec.fuses.vendorKey = t.sec.fuses.vendorKey ∧ s.sec.fuses.safetyKey = t.sec.fuses.safetyKey ∧
      s.sec.fuses.serial = t.sec.fuses.serial)
end

