-- ==== Sys2Proof/Laws/State.lean ====
section
/-! SUPPORT. What each update of the state leaves in each field, so that no later proof unfolds a record update. Every lemma is
true by `rfl`. -/

namespace Sys2Proof.Machine

variable (s : State)

/-! ### `State.onDev` -/

@[simp] theorem State.onDev_pending (f : StDev → StDev) : (s.onDev f).pending = s.pending := rfl
@[simp] theorem State.onDev_free (f : StDev → StDev) : (s.onDev f).free = s.free := rfl
@[simp] theorem State.onDev_objs (f : StDev → StDev) : (s.onDev f).objs = s.objs := rfl
@[simp] theorem State.onDev_staged (f : StDev → StDev) : (s.onDev f).staged = s.staged := rfl
@[simp] theorem State.onDev_dev (f : StDev → StDev) : (s.onDev f).dev = f s.dev := rfl
@[simp] theorem State.onDev_time (f : StDev → StDev) : (s.onDev f).time = s.time := rfl
@[simp] theorem State.onDev_dict (f : StDev → StDev) : (s.onDev f).dict = s.dict := rfl
@[simp] theorem State.onDev_recd (f : StDev → StDev) : (s.onDev f).recd = s.recd := rfl
@[simp] theorem State.onDev_sec (f : StDev → StDev) : (s.onDev f).sec = s.sec := rfl
@[simp] theorem State.onDev_pair (f : StDev → StDev) : (s.onDev f).pair = s.pair := rfl
@[simp] theorem State.onDev_rings (f : StDev → StDev) : (s.onDev f).rings = s.rings := rfl
@[simp] theorem State.onDev_motion (f : StDev → StDev) : (s.onDev f).motion = s.motion := rfl
@[simp] theorem State.onDev_solver (f : StDev → StDev) : (s.onDev f).solver = s.solver := rfl
@[simp] theorem State.onDev_square (f : StDev → StDev) : (s.onDev f).square = s.square := rfl
@[simp] theorem State.onDev_jn (f : StDev → StDev) : (s.onDev f).jn = s.jn := rfl
@[simp] theorem State.onDev_lanes (f : StDev → StDev) : (s.onDev f).lanes = s.lanes := rfl
@[simp] theorem State.onDev_cnts (f : StDev → StDev) : (s.onDev f).cnts = s.cnts := rfl
@[simp] theorem State.onDev_safe (f : StDev → StDev) : (s.onDev f).safe = s.safe := rfl
@[simp] theorem State.onDev_axes (f : StDev → StDev) : (s.onDev f).axes = s.axes := rfl
@[simp] theorem State.onDev_mon (f : StDev → StDev) : (s.onDev f).mon = s.mon := rfl
@[simp] theorem State.onDev_tap (f : StDev → StDev) : (s.onDev f).tap = s.tap := rfl

/-! ### `State.onMon` -/

@[simp] theorem State.onMon_pending (f : StMon → StMon) : (s.onMon f).pending = s.pending := rfl
@[simp] theorem State.onMon_free (f : StMon → StMon) : (s.onMon f).free = s.free := rfl
@[simp] theorem State.onMon_objs (f : StMon → StMon) : (s.onMon f).objs = s.objs := rfl
@[simp] theorem State.onMon_staged (f : StMon → StMon) : (s.onMon f).staged = s.staged := rfl
@[simp] theorem State.onMon_dev (f : StMon → StMon) : (s.onMon f).dev = s.dev := rfl
@[simp] theorem State.onMon_time (f : StMon → StMon) : (s.onMon f).time = s.time := rfl
@[simp] theorem State.onMon_dict (f : StMon → StMon) : (s.onMon f).dict = s.dict := rfl
@[simp] theorem State.onMon_recd (f : StMon → StMon) : (s.onMon f).recd = s.recd := rfl
@[simp] theorem State.onMon_sec (f : StMon → StMon) : (s.onMon f).sec = s.sec := rfl
@[simp] theorem State.onMon_pair (f : StMon → StMon) : (s.onMon f).pair = s.pair := rfl
@[simp] theorem State.onMon_rings (f : StMon → StMon) : (s.onMon f).rings = s.rings := rfl
@[simp] theorem State.onMon_motion (f : StMon → StMon) : (s.onMon f).motion = s.motion := rfl
@[simp] theorem State.onMon_solver (f : StMon → StMon) : (s.onMon f).solver = s.solver := rfl
@[simp] theorem State.onMon_square (f : StMon → StMon) : (s.onMon f).square = s.square := rfl
@[simp] theorem State.onMon_jn (f : StMon → StMon) : (s.onMon f).jn = s.jn := rfl
@[simp] theorem State.onMon_lanes (f : StMon → StMon) : (s.onMon f).lanes = s.lanes := rfl
@[simp] theorem State.onMon_cnts (f : StMon → StMon) : (s.onMon f).cnts = s.cnts := rfl
@[simp] theorem State.onMon_safe (f : StMon → StMon) : (s.onMon f).safe = s.safe := rfl
@[simp] theorem State.onMon_axes (f : StMon → StMon) : (s.onMon f).axes = s.axes := rfl
@[simp] theorem State.onMon_mon (f : StMon → StMon) : (s.onMon f).mon = f s.mon := rfl
@[simp] theorem State.onMon_tap (f : StMon → StMon) : (s.onMon f).tap = s.tap := rfl

/-! ### `State.onPair` -/

@[simp] theorem State.onPair_pending (f : StPair → StPair) : (s.onPair f).pending = s.pending := rfl
@[simp] theorem State.onPair_free (f : StPair → StPair) : (s.onPair f).free = s.free := rfl
@[simp] theorem State.onPair_objs (f : StPair → StPair) : (s.onPair f).objs = s.objs := rfl
@[simp] theorem State.onPair_staged (f : StPair → StPair) : (s.onPair f).staged = s.staged := rfl
@[simp] theorem State.onPair_dev (f : StPair → StPair) : (s.onPair f).dev = s.dev := rfl
@[simp] theorem State.onPair_time (f : StPair → StPair) : (s.onPair f).time = s.time := rfl
@[simp] theorem State.onPair_dict (f : StPair → StPair) : (s.onPair f).dict = s.dict := rfl
@[simp] theorem State.onPair_recd (f : StPair → StPair) : (s.onPair f).recd = s.recd := rfl
@[simp] theorem State.onPair_sec (f : StPair → StPair) : (s.onPair f).sec = s.sec := rfl
@[simp] theorem State.onPair_pair (f : StPair → StPair) : (s.onPair f).pair = f s.pair := rfl
@[simp] theorem State.onPair_rings (f : StPair → StPair) : (s.onPair f).rings = s.rings := rfl
@[simp] theorem State.onPair_motion (f : StPair → StPair) : (s.onPair f).motion = s.motion := rfl
@[simp] theorem State.onPair_solver (f : StPair → StPair) : (s.onPair f).solver = s.solver := rfl
@[simp] theorem State.onPair_square (f : StPair → StPair) : (s.onPair f).square = s.square := rfl
@[simp] theorem State.onPair_jn (f : StPair → StPair) : (s.onPair f).jn = s.jn := rfl
@[simp] theorem State.onPair_lanes (f : StPair → StPair) : (s.onPair f).lanes = s.lanes := rfl
@[simp] theorem State.onPair_cnts (f : StPair → StPair) : (s.onPair f).cnts = s.cnts := rfl
@[simp] theorem State.onPair_safe (f : StPair → StPair) : (s.onPair f).safe = s.safe := rfl
@[simp] theorem State.onPair_axes (f : StPair → StPair) : (s.onPair f).axes = s.axes := rfl
@[simp] theorem State.onPair_mon (f : StPair → StPair) : (s.onPair f).mon = s.mon := rfl
@[simp] theorem State.onPair_tap (f : StPair → StPair) : (s.onPair f).tap = s.tap := rfl

/-! ### `State.onRec` -/

@[simp] theorem State.onRec_pending (f : StRec → StRec) : (s.onRec f).pending = s.pending := rfl
@[simp] theorem State.onRec_free (f : StRec → StRec) : (s.onRec f).free = s.free := rfl
@[simp] theorem State.onRec_objs (f : StRec → StRec) : (s.onRec f).objs = s.objs := rfl
@[simp] theorem State.onRec_staged (f : StRec → StRec) : (s.onRec f).staged = s.staged := rfl
@[simp] theorem State.onRec_dev (f : StRec → StRec) : (s.onRec f).dev = s.dev := rfl
@[simp] theorem State.onRec_time (f : StRec → StRec) : (s.onRec f).time = s.time := rfl
@[simp] theorem State.onRec_dict (f : StRec → StRec) : (s.onRec f).dict = s.dict := rfl
@[simp] theorem State.onRec_recd (f : StRec → StRec) : (s.onRec f).recd = f s.recd := rfl
@[simp] theorem State.onRec_sec (f : StRec → StRec) : (s.onRec f).sec = s.sec := rfl
@[simp] theorem State.onRec_pair (f : StRec → StRec) : (s.onRec f).pair = s.pair := rfl
@[simp] theorem State.onRec_rings (f : StRec → StRec) : (s.onRec f).rings = s.rings := rfl
@[simp] theorem State.onRec_motion (f : StRec → StRec) : (s.onRec f).motion = s.motion := rfl
@[simp] theorem State.onRec_solver (f : StRec → StRec) : (s.onRec f).solver = s.solver := rfl
@[simp] theorem State.onRec_square (f : StRec → StRec) : (s.onRec f).square = s.square := rfl
@[simp] theorem State.onRec_jn (f : StRec → StRec) : (s.onRec f).jn = s.jn := rfl
@[simp] theorem State.onRec_lanes (f : StRec → StRec) : (s.onRec f).lanes = s.lanes := rfl
@[simp] theorem State.onRec_cnts (f : StRec → StRec) : (s.onRec f).cnts = s.cnts := rfl
@[simp] theorem State.onRec_safe (f : StRec → StRec) : (s.onRec f).safe = s.safe := rfl
@[simp] theorem State.onRec_axes (f : StRec → StRec) : (s.onRec f).axes = s.axes := rfl
@[simp] theorem State.onRec_mon (f : StRec → StRec) : (s.onRec f).mon = s.mon := rfl
@[simp] theorem State.onRec_tap (f : StRec → StRec) : (s.onRec f).tap = s.tap := rfl

/-! ### `State.onSec` -/

@[simp] theorem State.onSec_pending (f : StSec → StSec) : (s.onSec f).pending = s.pending := rfl
@[simp] theorem State.onSec_free (f : StSec → StSec) : (s.onSec f).free = s.free := rfl
@[simp] theorem State.onSec_objs (f : StSec → StSec) : (s.onSec f).objs = s.objs := rfl
@[simp] theorem State.onSec_staged (f : StSec → StSec) : (s.onSec f).staged = s.staged := rfl
@[simp] theorem State.onSec_dev (f : StSec → StSec) : (s.onSec f).dev = s.dev := rfl
@[simp] theorem State.onSec_time (f : StSec → StSec) : (s.onSec f).time = s.time := rfl
@[simp] theorem State.onSec_dict (f : StSec → StSec) : (s.onSec f).dict = s.dict := rfl
@[simp] theorem State.onSec_recd (f : StSec → StSec) : (s.onSec f).recd = s.recd := rfl
@[simp] theorem State.onSec_sec (f : StSec → StSec) : (s.onSec f).sec = f s.sec := rfl
@[simp] theorem State.onSec_pair (f : StSec → StSec) : (s.onSec f).pair = s.pair := rfl
@[simp] theorem State.onSec_rings (f : StSec → StSec) : (s.onSec f).rings = s.rings := rfl
@[simp] theorem State.onSec_motion (f : StSec → StSec) : (s.onSec f).motion = s.motion := rfl
@[simp] theorem State.onSec_solver (f : StSec → StSec) : (s.onSec f).solver = s.solver := rfl
@[simp] theorem State.onSec_square (f : StSec → StSec) : (s.onSec f).square = s.square := rfl
@[simp] theorem State.onSec_jn (f : StSec → StSec) : (s.onSec f).jn = s.jn := rfl
@[simp] theorem State.onSec_lanes (f : StSec → StSec) : (s.onSec f).lanes = s.lanes := rfl
@[simp] theorem State.onSec_cnts (f : StSec → StSec) : (s.onSec f).cnts = s.cnts := rfl
@[simp] theorem State.onSec_safe (f : StSec → StSec) : (s.onSec f).safe = s.safe := rfl
@[simp] theorem State.onSec_axes (f : StSec → StSec) : (s.onSec f).axes = s.axes := rfl
@[simp] theorem State.onSec_mon (f : StSec → StSec) : (s.onSec f).mon = s.mon := rfl
@[simp] theorem State.onSec_tap (f : StSec → StSec) : (s.onSec f).tap = s.tap := rfl

/-! ### `State.onSq` -/

@[simp] theorem State.onSq_pending (f : StSquare → StSquare) : (s.onSq f).pending = s.pending := rfl
@[simp] theorem State.onSq_free (f : StSquare → StSquare) : (s.onSq f).free = s.free := rfl
@[simp] theorem State.onSq_objs (f : StSquare → StSquare) : (s.onSq f).objs = s.objs := rfl
@[simp] theorem State.onSq_staged (f : StSquare → StSquare) : (s.onSq f).staged = s.staged := rfl
@[simp] theorem State.onSq_dev (f : StSquare → StSquare) : (s.onSq f).dev = s.dev := rfl
@[simp] theorem State.onSq_time (f : StSquare → StSquare) : (s.onSq f).time = s.time := rfl
@[simp] theorem State.onSq_dict (f : StSquare → StSquare) : (s.onSq f).dict = s.dict := rfl
@[simp] theorem State.onSq_recd (f : StSquare → StSquare) : (s.onSq f).recd = s.recd := rfl
@[simp] theorem State.onSq_sec (f : StSquare → StSquare) : (s.onSq f).sec = s.sec := rfl
@[simp] theorem State.onSq_pair (f : StSquare → StSquare) : (s.onSq f).pair = s.pair := rfl
@[simp] theorem State.onSq_rings (f : StSquare → StSquare) : (s.onSq f).rings = s.rings := rfl
@[simp] theorem State.onSq_motion (f : StSquare → StSquare) : (s.onSq f).motion = s.motion := rfl
@[simp] theorem State.onSq_solver (f : StSquare → StSquare) : (s.onSq f).solver = s.solver := rfl
@[simp] theorem State.onSq_square (f : StSquare → StSquare) : (s.onSq f).square = f s.square := rfl
@[simp] theorem State.onSq_jn (f : StSquare → StSquare) : (s.onSq f).jn = s.jn := rfl
@[simp] theorem State.onSq_lanes (f : StSquare → StSquare) : (s.onSq f).lanes = s.lanes := rfl
@[simp] theorem State.onSq_cnts (f : StSquare → StSquare) : (s.onSq f).cnts = s.cnts := rfl
@[simp] theorem State.onSq_safe (f : StSquare → StSquare) : (s.onSq f).safe = s.safe := rfl
@[simp] theorem State.onSq_axes (f : StSquare → StSquare) : (s.onSq f).axes = s.axes := rfl
@[simp] theorem State.onSq_mon (f : StSquare → StSquare) : (s.onSq f).mon = s.mon := rfl
@[simp] theorem State.onSq_tap (f : StSquare → StSquare) : (s.onSq f).tap = s.tap := rfl

/-! ### `State.onTap` -/

@[simp] theorem State.onTap_pending (f : StTap → StTap) : (s.onTap f).pending = s.pending := rfl
@[simp] theorem State.onTap_free (f : StTap → StTap) : (s.onTap f).free = s.free := rfl
@[simp] theorem State.onTap_objs (f : StTap → StTap) : (s.onTap f).objs = s.objs := rfl
@[simp] theorem State.onTap_staged (f : StTap → StTap) : (s.onTap f).staged = s.staged := rfl
@[simp] theorem State.onTap_dev (f : StTap → StTap) : (s.onTap f).dev = s.dev := rfl
@[simp] theorem State.onTap_time (f : StTap → StTap) : (s.onTap f).time = s.time := rfl
@[simp] theorem State.onTap_dict (f : StTap → StTap) : (s.onTap f).dict = s.dict := rfl
@[simp] theorem State.onTap_recd (f : StTap → StTap) : (s.onTap f).recd = s.recd := rfl
@[simp] theorem State.onTap_sec (f : StTap → StTap) : (s.onTap f).sec = s.sec := rfl
@[simp] theorem State.onTap_pair (f : StTap → StTap) : (s.onTap f).pair = s.pair := rfl
@[simp] theorem State.onTap_rings (f : StTap → StTap) : (s.onTap f).rings = s.rings := rfl
@[simp] theorem State.onTap_motion (f : StTap → StTap) : (s.onTap f).motion = s.motion := rfl
@[simp] theorem State.onTap_solver (f : StTap → StTap) : (s.onTap f).solver = s.solver := rfl
@[simp] theorem State.onTap_square (f : StTap → StTap) : (s.onTap f).square = s.square := rfl
@[simp] theorem State.onTap_jn (f : StTap → StTap) : (s.onTap f).jn = s.jn := rfl
@[simp] theorem State.onTap_lanes (f : StTap → StTap) : (s.onTap f).lanes = s.lanes := rfl
@[simp] theorem State.onTap_cnts (f : StTap → StTap) : (s.onTap f).cnts = s.cnts := rfl
@[simp] theorem State.onTap_safe (f : StTap → StTap) : (s.onTap f).safe = s.safe := rfl
@[simp] theorem State.onTap_axes (f : StTap → StTap) : (s.onTap f).axes = s.axes := rfl
@[simp] theorem State.onTap_mon (f : StTap → StTap) : (s.onTap f).mon = s.mon := rfl
@[simp] theorem State.onTap_tap (f : StTap → StTap) : (s.onTap f).tap = f s.tap := rfl

/-! ### `State.onSafe` -/

@[simp] theorem State.onSafe_pending (f : StSafe → StSafe) : (s.onSafe f).pending = s.pending := rfl
@[simp] theorem State.onSafe_free (f : StSafe → StSafe) : (s.onSafe f).free = s.free := rfl
@[simp] theorem State.onSafe_objs (f : StSafe → StSafe) : (s.onSafe f).objs = s.objs := rfl
@[simp] theorem State.onSafe_staged (f : StSafe → StSafe) : (s.onSafe f).staged = s.staged := rfl
@[simp] theorem State.onSafe_dev (f : StSafe → StSafe) : (s.onSafe f).dev = s.dev := rfl
@[simp] theorem State.onSafe_time (f : StSafe → StSafe) : (s.onSafe f).time = s.time := rfl
@[simp] theorem State.onSafe_dict (f : StSafe → StSafe) : (s.onSafe f).dict = s.dict := rfl
@[simp] theorem State.onSafe_recd (f : StSafe → StSafe) : (s.onSafe f).recd = s.recd := rfl
@[simp] theorem State.onSafe_sec (f : StSafe → StSafe) : (s.onSafe f).sec = s.sec := rfl
@[simp] theorem State.onSafe_pair (f : StSafe → StSafe) : (s.onSafe f).pair = s.pair := rfl
@[simp] theorem State.onSafe_rings (f : StSafe → StSafe) : (s.onSafe f).rings = s.rings := rfl
@[simp] theorem State.onSafe_motion (f : StSafe → StSafe) : (s.onSafe f).motion = s.motion := rfl
@[simp] theorem State.onSafe_solver (f : StSafe → StSafe) : (s.onSafe f).solver = s.solver := rfl
@[simp] theorem State.onSafe_square (f : StSafe → StSafe) : (s.onSafe f).square = s.square := rfl
@[simp] theorem State.onSafe_jn (f : StSafe → StSafe) : (s.onSafe f).jn = s.jn := rfl
@[simp] theorem State.onSafe_lanes (f : StSafe → StSafe) : (s.onSafe f).lanes = s.lanes := rfl
@[simp] theorem State.onSafe_cnts (f : StSafe → StSafe) : (s.onSafe f).cnts = s.cnts := rfl
@[simp] theorem State.onSafe_safe (f : StSafe → StSafe) : (s.onSafe f).safe = f s.safe := rfl
@[simp] theorem State.onSafe_axes (f : StSafe → StSafe) : (s.onSafe f).axes = s.axes := rfl
@[simp] theorem State.onSafe_mon (f : StSafe → StSafe) : (s.onSafe f).mon = s.mon := rfl
@[simp] theorem State.onSafe_tap (f : StSafe → StSafe) : (s.onSafe f).tap = s.tap := rfl

/-! ### `State.onAxes` -/

@[simp] theorem State.onAxes_pending (f : StAxes → StAxes) : (s.onAxes f).pending = s.pending := rfl
@[simp] theorem State.onAxes_free (f : StAxes → StAxes) : (s.onAxes f).free = s.free := rfl
@[simp] theorem State.onAxes_objs (f : StAxes → StAxes) : (s.onAxes f).objs = s.objs := rfl
@[simp] theorem State.onAxes_staged (f : StAxes → StAxes) : (s.onAxes f).staged = s.staged := rfl
@[simp] theorem State.onAxes_dev (f : StAxes → StAxes) : (s.onAxes f).dev = s.dev := rfl
@[simp] theorem State.onAxes_time (f : StAxes → StAxes) : (s.onAxes f).time = s.time := rfl
@[simp] theorem State.onAxes_dict (f : StAxes → StAxes) : (s.onAxes f).dict = s.dict := rfl
@[simp] theorem State.onAxes_recd (f : StAxes → StAxes) : (s.onAxes f).recd = s.recd := rfl
@[simp] theorem State.onAxes_sec (f : StAxes → StAxes) : (s.onAxes f).sec = s.sec := rfl
@[simp] theorem State.onAxes_pair (f : StAxes → StAxes) : (s.onAxes f).pair = s.pair := rfl
@[simp] theorem State.onAxes_rings (f : StAxes → StAxes) : (s.onAxes f).rings = s.rings := rfl
@[simp] theorem State.onAxes_motion (f : StAxes → StAxes) : (s.onAxes f).motion = s.motion := rfl
@[simp] theorem State.onAxes_solver (f : StAxes → StAxes) : (s.onAxes f).solver = s.solver := rfl
@[simp] theorem State.onAxes_square (f : StAxes → StAxes) : (s.onAxes f).square = s.square := rfl
@[simp] theorem State.onAxes_jn (f : StAxes → StAxes) : (s.onAxes f).jn = s.jn := rfl
@[simp] theorem State.onAxes_lanes (f : StAxes → StAxes) : (s.onAxes f).lanes = s.lanes := rfl
@[simp] theorem State.onAxes_cnts (f : StAxes → StAxes) : (s.onAxes f).cnts = s.cnts := rfl
@[simp] theorem State.onAxes_safe (f : StAxes → StAxes) : (s.onAxes f).safe = s.safe := rfl
@[simp] theorem State.onAxes_axes (f : StAxes → StAxes) : (s.onAxes f).axes = f s.axes := rfl
@[simp] theorem State.onAxes_mon (f : StAxes → StAxes) : (s.onAxes f).mon = s.mon := rfl
@[simp] theorem State.onAxes_tap (f : StAxes → StAxes) : (s.onAxes f).tap = s.tap := rfl

/-! ### `State.onMot` -/

@[simp] theorem State.onMot_pending (f : StMotion → StMotion) : (s.onMot f).pending = s.pending := rfl
@[simp] theorem State.onMot_free (f : StMotion → StMotion) : (s.onMot f).free = s.free := rfl
@[simp] theorem State.onMot_objs (f : StMotion → StMotion) : (s.onMot f).objs = s.objs := rfl
@[simp] theorem State.onMot_staged (f : StMotion → StMotion) : (s.onMot f).staged = s.staged := rfl
@[simp] theorem State.onMot_dev (f : StMotion → StMotion) : (s.onMot f).dev = s.dev := rfl
@[simp] theorem State.onMot_time (f : StMotion → StMotion) : (s.onMot f).time = s.time := rfl
@[simp] theorem State.onMot_dict (f : StMotion → StMotion) : (s.onMot f).dict = s.dict := rfl
@[simp] theorem State.onMot_recd (f : StMotion → StMotion) : (s.onMot f).recd = s.recd := rfl
@[simp] theorem State.onMot_sec (f : StMotion → StMotion) : (s.onMot f).sec = s.sec := rfl
@[simp] theorem State.onMot_pair (f : StMotion → StMotion) : (s.onMot f).pair = s.pair := rfl
@[simp] theorem State.onMot_rings (f : StMotion → StMotion) : (s.onMot f).rings = s.rings := rfl
@[simp] theorem State.onMot_motion (f : StMotion → StMotion) : (s.onMot f).motion = f s.motion := rfl
@[simp] theorem State.onMot_solver (f : StMotion → StMotion) : (s.onMot f).solver = s.solver := rfl
@[simp] theorem State.onMot_square (f : StMotion → StMotion) : (s.onMot f).square = s.square := rfl
@[simp] theorem State.onMot_jn (f : StMotion → StMotion) : (s.onMot f).jn = s.jn := rfl
@[simp] theorem State.onMot_lanes (f : StMotion → StMotion) : (s.onMot f).lanes = s.lanes := rfl
@[simp] theorem State.onMot_cnts (f : StMotion → StMotion) : (s.onMot f).cnts = s.cnts := rfl
@[simp] theorem State.onMot_safe (f : StMotion → StMotion) : (s.onMot f).safe = s.safe := rfl
@[simp] theorem State.onMot_axes (f : StMotion → StMotion) : (s.onMot f).axes = s.axes := rfl
@[simp] theorem State.onMot_mon (f : StMotion → StMotion) : (s.onMot f).mon = s.mon := rfl
@[simp] theorem State.onMot_tap (f : StMotion → StMotion) : (s.onMot f).tap = s.tap := rfl

/-! ### `State.onJn` -/

@[simp] theorem State.onJn_pending (f : StJn → StJn) : (s.onJn f).pending = s.pending := rfl
@[simp] theorem State.onJn_free (f : StJn → StJn) : (s.onJn f).free = s.free := rfl
@[simp] theorem State.onJn_objs (f : StJn → StJn) : (s.onJn f).objs = s.objs := rfl
@[simp] theorem State.onJn_staged (f : StJn → StJn) : (s.onJn f).staged = s.staged := rfl
@[simp] theorem State.onJn_dev (f : StJn → StJn) : (s.onJn f).dev = s.dev := rfl
@[simp] theorem State.onJn_time (f : StJn → StJn) : (s.onJn f).time = s.time := rfl
@[simp] theorem State.onJn_dict (f : StJn → StJn) : (s.onJn f).dict = s.dict := rfl
@[simp] theorem State.onJn_recd (f : StJn → StJn) : (s.onJn f).recd = s.recd := rfl
@[simp] theorem State.onJn_sec (f : StJn → StJn) : (s.onJn f).sec = s.sec := rfl
@[simp] theorem State.onJn_pair (f : StJn → StJn) : (s.onJn f).pair = s.pair := rfl
@[simp] theorem State.onJn_rings (f : StJn → StJn) : (s.onJn f).rings = s.rings := rfl
@[simp] theorem State.onJn_motion (f : StJn → StJn) : (s.onJn f).motion = s.motion := rfl
@[simp] theorem State.onJn_solver (f : StJn → StJn) : (s.onJn f).solver = s.solver := rfl
@[simp] theorem State.onJn_square (f : StJn → StJn) : (s.onJn f).square = s.square := rfl
@[simp] theorem State.onJn_jn (f : StJn → StJn) : (s.onJn f).jn = f s.jn := rfl
@[simp] theorem State.onJn_lanes (f : StJn → StJn) : (s.onJn f).lanes = s.lanes := rfl
@[simp] theorem State.onJn_cnts (f : StJn → StJn) : (s.onJn f).cnts = s.cnts := rfl
@[simp] theorem State.onJn_safe (f : StJn → StJn) : (s.onJn f).safe = s.safe := rfl
@[simp] theorem State.onJn_axes (f : StJn → StJn) : (s.onJn f).axes = s.axes := rfl
@[simp] theorem State.onJn_mon (f : StJn → StJn) : (s.onJn f).mon = s.mon := rfl
@[simp] theorem State.onJn_tap (f : StJn → StJn) : (s.onJn f).tap = s.tap := rfl

/-! ### `State.onLane` -/

@[simp] theorem State.onLane_pending (l : Nat) (f : LaneSt → LaneSt) : (s.onLane l f).pending = s.pending := rfl
@[simp] theorem State.onLane_free (l : Nat) (f : LaneSt → LaneSt) : (s.onLane l f).free = s.free := rfl
@[simp] theorem State.onLane_objs (l : Nat) (f : LaneSt → LaneSt) : (s.onLane l f).objs = s.objs := rfl
@[simp] theorem State.onLane_staged (l : Nat) (f : LaneSt → LaneSt) : (s.onLane l f).staged = s.staged := rfl
@[simp] theorem State.onLane_dev (l : Nat) (f : LaneSt → LaneSt) : (s.onLane l f).dev = s.dev := rfl
@[simp] theorem State.onLane_time (l : Nat) (f : LaneSt → LaneSt) : (s.onLane l f).time = s.time := rfl
@[simp] theorem State.onLane_dict (l : Nat) (f : LaneSt → LaneSt) : (s.onLane l f).dict = s.dict := rfl
@[simp] theorem State.onLane_recd (l : Nat) (f : LaneSt → LaneSt) : (s.onLane l f).recd = s.recd := rfl
@[simp] theorem State.onLane_sec (l : Nat) (f : LaneSt → LaneSt) : (s.onLane l f).sec = s.sec := rfl
@[simp] theorem State.onLane_pair (l : Nat) (f : LaneSt → LaneSt) : (s.onLane l f).pair = s.pair := rfl
@[simp] theorem State.onLane_rings (l : Nat) (f : LaneSt → LaneSt) : (s.onLane l f).rings = s.rings := rfl
@[simp] theorem State.onLane_motion (l : Nat) (f : LaneSt → LaneSt) : (s.onLane l f).motion = s.motion := rfl
@[simp] theorem State.onLane_solver (l : Nat) (f : LaneSt → LaneSt) : (s.onLane l f).solver = s.solver := rfl
@[simp] theorem State.onLane_square (l : Nat) (f : LaneSt → LaneSt) : (s.onLane l f).square = s.square := rfl
@[simp] theorem State.onLane_jn (l : Nat) (f : LaneSt → LaneSt) : (s.onLane l f).jn = s.jn := rfl
@[simp] theorem State.onLane_lanes (l : Nat) (f : LaneSt → LaneSt) : (s.onLane l f).lanes = modAt s.lanes l f := rfl
@[simp] theorem State.onLane_cnts (l : Nat) (f : LaneSt → LaneSt) : (s.onLane l f).cnts = s.cnts := rfl
@[simp] theorem State.onLane_safe (l : Nat) (f : LaneSt → LaneSt) : (s.onLane l f).safe = s.safe := rfl
@[simp] theorem State.onLane_axes (l : Nat) (f : LaneSt → LaneSt) : (s.onLane l f).axes = s.axes := rfl
@[simp] theorem State.onLane_mon (l : Nat) (f : LaneSt → LaneSt) : (s.onLane l f).mon = s.mon := rfl
@[simp] theorem State.onLane_tap (l : Nat) (f : LaneSt → LaneSt) : (s.onLane l f).tap = s.tap := rfl

/-! ### `State.setNode` -/

@[simp] theorem State.setNode_pending (n : NodeSt) : (s.setNode n).pending = s.pending := rfl
@[simp] theorem State.setNode_free (n : NodeSt) : (s.setNode n).free = s.free := rfl
@[simp] theorem State.setNode_objs (n : NodeSt) : (s.setNode n).objs = s.objs := rfl
@[simp] theorem State.setNode_staged (n : NodeSt) : (s.setNode n).staged = s.staged := rfl
@[simp] theorem State.setNode_dev (n : NodeSt) : (s.setNode n).dev = s.dev := rfl
@[simp] theorem State.setNode_time (n : NodeSt) : (s.setNode n).time = s.time := rfl
@[simp] theorem State.setNode_dict (n : NodeSt) : (s.setNode n).dict = s.dict := rfl
@[simp] theorem State.setNode_recd (n : NodeSt) : (s.setNode n).recd = s.recd := rfl
@[simp] theorem State.setNode_sec (n : NodeSt) : (s.setNode n).sec = s.sec := rfl
@[simp] theorem State.setNode_pair (n : NodeSt) : (s.setNode n).pair = s.pair := rfl
@[simp] theorem State.setNode_rings (n : NodeSt) : (s.setNode n).rings = { s.rings with nodes := putNode n s.rings.nodes } := rfl
@[simp] theorem State.setNode_motion (n : NodeSt) : (s.setNode n).motion = s.motion := rfl
@[simp] theorem State.setNode_solver (n : NodeSt) : (s.setNode n).solver = s.solver := rfl
@[simp] theorem State.setNode_square (n : NodeSt) : (s.setNode n).square = s.square := rfl
@[simp] theorem State.setNode_jn (n : NodeSt) : (s.setNode n).jn = s.jn := rfl
@[simp] theorem State.setNode_lanes (n : NodeSt) : (s.setNode n).lanes = s.lanes := rfl
@[simp] theorem State.setNode_cnts (n : NodeSt) : (s.setNode n).cnts = s.cnts := rfl
@[simp] theorem State.setNode_safe (n : NodeSt) : (s.setNode n).safe = s.safe := rfl
@[simp] theorem State.setNode_axes (n : NodeSt) : (s.setNode n).axes = s.axes := rfl
@[simp] theorem State.setNode_mon (n : NodeSt) : (s.setNode n).mon = s.mon := rfl
@[simp] theorem State.setNode_tap (n : NodeSt) : (s.setNode n).tap = s.tap := rfl

/-! ### `State.setRq` -/

@[simp] theorem State.setRq_pending (e : RqSt) : (s.setRq e).pending = s.pending := rfl
@[simp] theorem State.setRq_free (e : RqSt) : (s.setRq e).free = s.free := rfl
@[simp] theorem State.setRq_objs (e : RqSt) : (s.setRq e).objs = s.objs := rfl
@[simp] theorem State.setRq_staged (e : RqSt) : (s.setRq e).staged = s.staged := rfl
@[simp] theorem State.setRq_dev (e : RqSt) : (s.setRq e).dev = s.dev := rfl
@[simp] theorem State.setRq_time (e : RqSt) : (s.setRq e).time = s.time := rfl
@[simp] theorem State.setRq_dict (e : RqSt) : (s.setRq e).dict = { s.dict with rqs := putRq e s.dict.rqs } := rfl
@[simp] theorem State.setRq_recd (e : RqSt) : (s.setRq e).recd = s.recd := rfl
@[simp] theorem State.setRq_sec (e : RqSt) : (s.setRq e).sec = s.sec := rfl
@[simp] theorem State.setRq_pair (e : RqSt) : (s.setRq e).pair = s.pair := rfl
@[simp] theorem State.setRq_rings (e : RqSt) : (s.setRq e).rings = s.rings := rfl
@[simp] theorem State.setRq_motion (e : RqSt) : (s.setRq e).motion = s.motion := rfl
@[simp] theorem State.setRq_solver (e : RqSt) : (s.setRq e).solver = s.solver := rfl
@[simp] theorem State.setRq_square (e : RqSt) : (s.setRq e).square = s.square := rfl
@[simp] theorem State.setRq_jn (e : RqSt) : (s.setRq e).jn = s.jn := rfl
@[simp] theorem State.setRq_lanes (e : RqSt) : (s.setRq e).lanes = s.lanes := rfl
@[simp] theorem State.setRq_cnts (e : RqSt) : (s.setRq e).cnts = s.cnts := rfl
@[simp] theorem State.setRq_safe (e : RqSt) : (s.setRq e).safe = s.safe := rfl
@[simp] theorem State.setRq_axes (e : RqSt) : (s.setRq e).axes = s.axes := rfl
@[simp] theorem State.setRq_mon (e : RqSt) : (s.setRq e).mon = s.mon := rfl
@[simp] theorem State.setRq_tap (e : RqSt) : (s.setRq e).tap = s.tap := rfl

/-! ### `State.setObj` -/

@[simp] theorem State.setObj_pending (k : Nat) (v : Bytes) : (s.setObj k v).pending = s.pending := rfl
@[simp] theorem State.setObj_free (k : Nat) (v : Bytes) : (s.setObj k v).free = s.free := rfl
@[simp] theorem State.setObj_objs (k : Nat) (v : Bytes) : (s.setObj k v).objs = storePut s.objs k v := rfl
@[simp] theorem State.setObj_staged (k : Nat) (v : Bytes) : (s.setObj k v).staged = s.staged := rfl
@[simp] theorem State.setObj_dev (k : Nat) (v : Bytes) : (s.setObj k v).dev = s.dev := rfl
@[simp] theorem State.setObj_time (k : Nat) (v : Bytes) : (s.setObj k v).time = s.time := rfl
@[simp] theorem State.setObj_dict (k : Nat) (v : Bytes) : (s.setObj k v).dict = s.dict := rfl
@[simp] theorem State.setObj_recd (k : Nat) (v : Bytes) : (s.setObj k v).recd = s.recd := rfl
@[simp] theorem State.setObj_sec (k : Nat) (v : Bytes) : (s.setObj k v).sec = s.sec := rfl
@[simp] theorem State.setObj_pair (k : Nat) (v : Bytes) : (s.setObj k v).pair = s.pair := rfl
@[simp] theorem State.setObj_rings (k : Nat) (v : Bytes) : (s.setObj k v).rings = s.rings := rfl
@[simp] theorem State.setObj_motion (k : Nat) (v : Bytes) : (s.setObj k v).motion = s.motion := rfl
@[simp] theorem State.setObj_solver (k : Nat) (v : Bytes) : (s.setObj k v).solver = s.solver := rfl
@[simp] theorem State.setObj_square (k : Nat) (v : Bytes) : (s.setObj k v).square = s.square := rfl
@[simp] theorem State.setObj_jn (k : Nat) (v : Bytes) : (s.setObj k v).jn = s.jn := rfl
@[simp] theorem State.setObj_lanes (k : Nat) (v : Bytes) : (s.setObj k v).lanes = s.lanes := rfl
@[simp] theorem State.setObj_cnts (k : Nat) (v : Bytes) : (s.setObj k v).cnts = s.cnts := rfl
@[simp] theorem State.setObj_safe (k : Nat) (v : Bytes) : (s.setObj k v).safe = s.safe := rfl
@[simp] theorem State.setObj_axes (k : Nat) (v : Bytes) : (s.setObj k v).axes = s.axes := rfl
@[simp] theorem State.setObj_mon (k : Nat) (v : Bytes) : (s.setObj k v).mon = s.mon := rfl
@[simp] theorem State.setObj_tap (k : Nat) (v : Bytes) : (s.setObj k v).tap = s.tap := rfl

/-! ### `State.setN` -/

@[simp] theorem State.setN_pending (k v : Nat) : (s.setN k v).pending = s.pending := rfl
@[simp] theorem State.setN_free (k v : Nat) : (s.setN k v).free = s.free := rfl
@[simp] theorem State.setN_objs (k v : Nat) : (s.setN k v).objs = storePut s.objs k (le (objDefault k).length v) := rfl
@[simp] theorem State.setN_staged (k v : Nat) : (s.setN k v).staged = s.staged := rfl
@[simp] theorem State.setN_dev (k v : Nat) : (s.setN k v).dev = s.dev := rfl
@[simp] theorem State.setN_time (k v : Nat) : (s.setN k v).time = s.time := rfl
@[simp] theorem State.setN_dict (k v : Nat) : (s.setN k v).dict = s.dict := rfl
@[simp] theorem State.setN_recd (k v : Nat) : (s.setN k v).recd = s.recd := rfl
@[simp] theorem State.setN_sec (k v : Nat) : (s.setN k v).sec = s.sec := rfl
@[simp] theorem State.setN_pair (k v : Nat) : (s.setN k v).pair = s.pair := rfl
@[simp] theorem State.setN_rings (k v : Nat) : (s.setN k v).rings = s.rings := rfl
@[simp] theorem State.setN_motion (k v : Nat) : (s.setN k v).motion = s.motion := rfl
@[simp] theorem State.setN_solver (k v : Nat) : (s.setN k v).solver = s.solver := rfl
@[simp] theorem State.setN_square (k v : Nat) : (s.setN k v).square = s.square := rfl
@[simp] theorem State.setN_jn (k v : Nat) : (s.setN k v).jn = s.jn := rfl
@[simp] theorem State.setN_lanes (k v : Nat) : (s.setN k v).lanes = s.lanes := rfl
@[simp] theorem State.setN_cnts (k v : Nat) : (s.setN k v).cnts = s.cnts := rfl
@[simp] theorem State.setN_safe (k v : Nat) : (s.setN k v).safe = s.safe := rfl
@[simp] theorem State.setN_axes (k v : Nat) : (s.setN k v).axes = s.axes := rfl
@[simp] theorem State.setN_mon (k v : Nat) : (s.setN k v).mon = s.mon := rfl
@[simp] theorem State.setN_tap (k v : Nat) : (s.setN k v).tap = s.tap := rfl

/-! ### `State.setI` -/

@[simp] theorem State.setI_pending (k : Nat) (v : Int) : (s.setI k v).pending = s.pending := rfl
@[simp] theorem State.setI_free (k : Nat) (v : Int) : (s.setI k v).free = s.free := rfl
@[simp] theorem State.setI_objs (k : Nat) (v : Int) : (s.setI k v).objs = storePut s.objs k (leInt (objDefault k).length v) := rfl
@[simp] theorem State.setI_staged (k : Nat) (v : Int) : (s.setI k v).staged = s.staged := rfl
@[simp] theorem State.setI_dev (k : Nat) (v : Int) : (s.setI k v).dev = s.dev := rfl
@[simp] theorem State.setI_time (k : Nat) (v : Int) : (s.setI k v).time = s.time := rfl
@[simp] theorem State.setI_dict (k : Nat) (v : Int) : (s.setI k v).dict = s.dict := rfl
@[simp] theorem State.setI_recd (k : Nat) (v : Int) : (s.setI k v).recd = s.recd := rfl
@[simp] theorem State.setI_sec (k : Nat) (v : Int) : (s.setI k v).sec = s.sec := rfl
@[simp] theorem State.setI_pair (k : Nat) (v : Int) : (s.setI k v).pair = s.pair := rfl
@[simp] theorem State.setI_rings (k : Nat) (v : Int) : (s.setI k v).rings = s.rings := rfl
@[simp] theorem State.setI_motion (k : Nat) (v : Int) : (s.setI k v).motion = s.motion := rfl
@[simp] theorem State.setI_solver (k : Nat) (v : Int) : (s.setI k v).solver = s.solver := rfl
@[simp] theorem State.setI_square (k : Nat) (v : Int) : (s.setI k v).square = s.square := rfl
@[simp] theorem State.setI_jn (k : Nat) (v : Int) : (s.setI k v).jn = s.jn := rfl
@[simp] theorem State.setI_lanes (k : Nat) (v : Int) : (s.setI k v).lanes = s.lanes := rfl
@[simp] theorem State.setI_cnts (k : Nat) (v : Int) : (s.setI k v).cnts = s.cnts := rfl
@[simp] theorem State.setI_safe (k : Nat) (v : Int) : (s.setI k v).safe = s.safe := rfl
@[simp] theorem State.setI_axes (k : Nat) (v : Int) : (s.setI k v).axes = s.axes := rfl
@[simp] theorem State.setI_mon (k : Nat) (v : Int) : (s.setI k v).mon = s.mon := rfl
@[simp] theorem State.setI_tap (k : Nat) (v : Int) : (s.setI k v).tap = s.tap := rfl

/-! ### `State.setBit` -/

@[simp] theorem State.setBit_pending (k b : Nat) (v : Bool) : (s.setBit k b v).pending = s.pending := rfl
@[simp] theorem State.setBit_free (k b : Nat) (v : Bool) : (s.setBit k b v).free = s.free := rfl
@[simp] theorem State.setBit_staged (k b : Nat) (v : Bool) : (s.setBit k b v).staged = s.staged := rfl
@[simp] theorem State.setBit_dev (k b : Nat) (v : Bool) : (s.setBit k b v).dev = s.dev := rfl
@[simp] theorem State.setBit_time (k b : Nat) (v : Bool) : (s.setBit k b v).time = s.time := rfl
@[simp] theorem State.setBit_dict (k b : Nat) (v : Bool) : (s.setBit k b v).dict = s.dict := rfl
@[simp] theorem State.setBit_recd (k b : Nat) (v : Bool) : (s.setBit k b v).recd = s.recd := rfl
@[simp] theorem State.setBit_sec (k b : Nat) (v : Bool) : (s.setBit k b v).sec = s.sec := rfl
@[simp] theorem State.setBit_pair (k b : Nat) (v : Bool) : (s.setBit k b v).pair = s.pair := rfl
@[simp] theorem State.setBit_rings (k b : Nat) (v : Bool) : (s.setBit k b v).rings = s.rings := rfl
@[simp] theorem State.setBit_motion (k b : Nat) (v : Bool) : (s.setBit k b v).motion = s.motion := rfl
@[simp] theorem State.setBit_solver (k b : Nat) (v : Bool) : (s.setBit k b v).solver = s.solver := rfl
@[simp] theorem State.setBit_square (k b : Nat) (v : Bool) : (s.setBit k b v).square = s.square := rfl
@[simp] theorem State.setBit_jn (k b : Nat) (v : Bool) : (s.setBit k b v).jn = s.jn := rfl
@[simp] theorem State.setBit_lanes (k b : Nat) (v : Bool) : (s.setBit k b v).lanes = s.lanes := rfl
@[simp] theorem State.setBit_cnts (k b : Nat) (v : Bool) : (s.setBit k b v).cnts = s.cnts := rfl
@[simp] theorem State.setBit_safe (k b : Nat) (v : Bool) : (s.setBit k b v).safe = s.safe := rfl
@[simp] theorem State.setBit_axes (k b : Nat) (v : Bool) : (s.setBit k b v).axes = s.axes := rfl
@[simp] theorem State.setBit_mon (k b : Nat) (v : Bool) : (s.setBit k b v).mon = s.mon := rfl
@[simp] theorem State.setBit_tap (k b : Nat) (v : Bool) : (s.setBit k b v).tap = s.tap := rfl

/-! ### `State.inc` -/

@[simp] theorem State.inc_pending (k : Nat) : (s.inc k).pending = s.pending := rfl
@[simp] theorem State.inc_free (k : Nat) : (s.inc k).free = s.free := rfl
@[simp] theorem State.inc_staged (k : Nat) : (s.inc k).staged = s.staged := rfl
@[simp] theorem State.inc_dev (k : Nat) : (s.inc k).dev = s.dev := rfl
@[simp] theorem State.inc_time (k : Nat) : (s.inc k).time = s.time := rfl
@[simp] theorem State.inc_dict (k : Nat) : (s.inc k).dict = s.dict := rfl
@[simp] theorem State.inc_recd (k : Nat) : (s.inc k).recd = s.recd := rfl
@[simp] theorem State.inc_sec (k : Nat) : (s.inc k).sec = s.sec := rfl
@[simp] theorem State.inc_pair (k : Nat) : (s.inc k).pair = s.pair := rfl
@[simp] theorem State.inc_rings (k : Nat) : (s.inc k).rings = s.rings := rfl
@[simp] theorem State.inc_motion (k : Nat) : (s.inc k).motion = s.motion := rfl
@[simp] theorem State.inc_solver (k : Nat) : (s.inc k).solver = s.solver := rfl
@[simp] theorem State.inc_square (k : Nat) : (s.inc k).square = s.square := rfl
@[simp] theorem State.inc_jn (k : Nat) : (s.inc k).jn = s.jn := rfl
@[simp] theorem State.inc_lanes (k : Nat) : (s.inc k).lanes = s.lanes := rfl
@[simp] theorem State.inc_cnts (k : Nat) : (s.inc k).cnts = s.cnts := rfl
@[simp] theorem State.inc_safe (k : Nat) : (s.inc k).safe = s.safe := rfl
@[simp] theorem State.inc_axes (k : Nat) : (s.inc k).axes = s.axes := rfl
@[simp] theorem State.inc_mon (k : Nat) : (s.inc k).mon = s.mon := rfl
@[simp] theorem State.inc_tap (k : Nat) : (s.inc k).tap = s.tap := rfl

/-! ### `State.patchObj` -/

@[simp] theorem State.patchObj_pending (k o : Nat) (v : Bytes) : (s.patchObj k o v).pending = s.pending := rfl
@[simp] theorem State.patchObj_free (k o : Nat) (v : Bytes) : (s.patchObj k o v).free = s.free := rfl
@[simp] theorem State.patchObj_staged (k o : Nat) (v : Bytes) : (s.patchObj k o v).staged = s.staged := rfl
@[simp] theorem State.patchObj_dev (k o : Nat) (v : Bytes) : (s.patchObj k o v).dev = s.dev := rfl
@[simp] theorem State.patchObj_time (k o : Nat) (v : Bytes) : (s.patchObj k o v).time = s.time := rfl
@[simp] theorem State.patchObj_dict (k o : Nat) (v : Bytes) : (s.patchObj k o v).dict = s.dict := rfl
@[simp] theorem State.patchObj_recd (k o : Nat) (v : Bytes) : (s.patchObj k o v).recd = s.recd := rfl
@[simp] theorem State.patchObj_sec (k o : Nat) (v : Bytes) : (s.patchObj k o v).sec = s.sec := rfl
@[simp] theorem State.patchObj_pair (k o : Nat) (v : Bytes) : (s.patchObj k o v).pair = s.pair := rfl
@[simp] theorem State.patchObj_rings (k o : Nat) (v : Bytes) : (s.patchObj k o v).rings = s.rings := rfl
@[simp] theorem State.patchObj_motion (k o : Nat) (v : Bytes) : (s.patchObj k o v).motion = s.motion := rfl
@[simp] theorem State.patchObj_solver (k o : Nat) (v : Bytes) : (s.patchObj k o v).solver = s.solver := rfl
@[simp] theorem State.patchObj_square (k o : Nat) (v : Bytes) : (s.patchObj k o v).square = s.square := rfl
@[simp] theorem State.patchObj_jn (k o : Nat) (v : Bytes) : (s.patchObj k o v).jn = s.jn := rfl
@[simp] theorem State.patchObj_lanes (k o : Nat) (v : Bytes) : (s.patchObj k o v).lanes = s.lanes := rfl
@[simp] theorem State.patchObj_cnts (k o : Nat) (v : Bytes) : (s.patchObj k o v).cnts = s.cnts := rfl
@[simp] theorem State.patchObj_safe (k o : Nat) (v : Bytes) : (s.patchObj k o v).safe = s.safe := rfl
@[simp] theorem State.patchObj_axes (k o : Nat) (v : Bytes) : (s.patchObj k o v).axes = s.axes := rfl
@[simp] theorem State.patchObj_mon (k o : Nat) (v : Bytes) : (s.patchObj k o v).mon = s.mon := rfl
@[simp] theorem State.patchObj_tap (k o : Nat) (v : Bytes) : (s.patchObj k o v).tap = s.tap := rfl

/-! ### `State.onArm` -/

@[simp] theorem State.onArm_pending (a : Nat) (f : SafeArm → SafeArm) : (s.onArm a f).pending = s.pending := rfl
@[simp] theorem State.onArm_free (a : Nat) (f : SafeArm → SafeArm) : (s.onArm a f).free = s.free := rfl
@[simp] theorem State.onArm_objs (a : Nat) (f : SafeArm → SafeArm) : (s.onArm a f).objs = s.objs := rfl
@[simp] theorem State.onArm_staged (a : Nat) (f : SafeArm → SafeArm) : (s.onArm a f).staged = s.staged := rfl
@[simp] theorem State.onArm_dev (a : Nat) (f : SafeArm → SafeArm) : (s.onArm a f).dev = s.dev := rfl
@[simp] theorem State.onArm_time (a : Nat) (f : SafeArm → SafeArm) : (s.onArm a f).time = s.time := rfl
@[simp] theorem State.onArm_dict (a : Nat) (f : SafeArm → SafeArm) : (s.onArm a f).dict = s.dict := rfl
@[simp] theorem State.onArm_recd (a : Nat) (f : SafeArm → SafeArm) : (s.onArm a f).recd = s.recd := rfl
@[simp] theorem State.onArm_sec (a : Nat) (f : SafeArm → SafeArm) : (s.onArm a f).sec = s.sec := rfl
@[simp] theorem State.onArm_pair (a : Nat) (f : SafeArm → SafeArm) : (s.onArm a f).pair = s.pair := rfl
@[simp] theorem State.onArm_rings (a : Nat) (f : SafeArm → SafeArm) : (s.onArm a f).rings = s.rings := rfl
@[simp] theorem State.onArm_motion (a : Nat) (f : SafeArm → SafeArm) : (s.onArm a f).motion = s.motion := rfl
@[simp] theorem State.onArm_solver (a : Nat) (f : SafeArm → SafeArm) : (s.onArm a f).solver = s.solver := rfl
@[simp] theorem State.onArm_square (a : Nat) (f : SafeArm → SafeArm) : (s.onArm a f).square = s.square := rfl
@[simp] theorem State.onArm_jn (a : Nat) (f : SafeArm → SafeArm) : (s.onArm a f).jn = s.jn := rfl
@[simp] theorem State.onArm_lanes (a : Nat) (f : SafeArm → SafeArm) : (s.onArm a f).lanes = s.lanes := rfl
@[simp] theorem State.onArm_cnts (a : Nat) (f : SafeArm → SafeArm) : (s.onArm a f).cnts = s.cnts := rfl
@[simp] theorem State.onArm_safe (a : Nat) (f : SafeArm → SafeArm) : (s.onArm a f).safe = { s.safe with arms := modAt s.safe.arms a f } := rfl
@[simp] theorem State.onArm_axes (a : Nat) (f : SafeArm → SafeArm) : (s.onArm a f).axes = s.axes := rfl
@[simp] theorem State.onArm_mon (a : Nat) (f : SafeArm → SafeArm) : (s.onArm a f).mon = s.mon := rfl
@[simp] theorem State.onArm_tap (a : Nat) (f : SafeArm → SafeArm) : (s.onArm a f).tap = s.tap := rfl

/-! ### `State.onArms` -/

@[simp] theorem State.onArms_pending (f : Nat → SafeArm → SafeArm) : (s.onArms f).pending = s.pending := rfl
@[simp] theorem State.onArms_free (f : Nat → SafeArm → SafeArm) : (s.onArms f).free = s.free := rfl
@[simp] theorem State.onArms_objs (f : Nat → SafeArm → SafeArm) : (s.onArms f).objs = s.objs := rfl
@[simp] theorem State.onArms_staged (f : Nat → SafeArm → SafeArm) : (s.onArms f).staged = s.staged := rfl
@[simp] theorem State.onArms_dev (f : Nat → SafeArm → SafeArm) : (s.onArms f).dev = s.dev := rfl
@[simp] theorem State.onArms_time (f : Nat → SafeArm → SafeArm) : (s.onArms f).time = s.time := rfl
@[simp] theorem State.onArms_dict (f : Nat → SafeArm → SafeArm) : (s.onArms f).dict = s.dict := rfl
@[simp] theorem State.onArms_recd (f : Nat → SafeArm → SafeArm) : (s.onArms f).recd = s.recd := rfl
@[simp] theorem State.onArms_sec (f : Nat → SafeArm → SafeArm) : (s.onArms f).sec = s.sec := rfl
@[simp] theorem State.onArms_pair (f : Nat → SafeArm → SafeArm) : (s.onArms f).pair = s.pair := rfl
@[simp] theorem State.onArms_rings (f : Nat → SafeArm → SafeArm) : (s.onArms f).rings = s.rings := rfl
@[simp] theorem State.onArms_motion (f : Nat → SafeArm → SafeArm) : (s.onArms f).motion = s.motion := rfl
@[simp] theorem State.onArms_solver (f : Nat → SafeArm → SafeArm) : (s.onArms f).solver = s.solver := rfl
@[simp] theorem State.onArms_square (f : Nat → SafeArm → SafeArm) : (s.onArms f).square = s.square := rfl
@[simp] theorem State.onArms_jn (f : Nat → SafeArm → SafeArm) : (s.onArms f).jn = s.jn := rfl
@[simp] theorem State.onArms_lanes (f : Nat → SafeArm → SafeArm) : (s.onArms f).lanes = s.lanes := rfl
@[simp] theorem State.onArms_cnts (f : Nat → SafeArm → SafeArm) : (s.onArms f).cnts = s.cnts := rfl
@[simp] theorem State.onArms_safe (f : Nat → SafeArm → SafeArm) : (s.onArms f).safe = { s.safe with arms := s.safe.arms.zipIdx.map (fun p => f p.2 p.1) } := rfl
@[simp] theorem State.onArms_axes (f : Nat → SafeArm → SafeArm) : (s.onArms f).axes = s.axes := rfl
@[simp] theorem State.onArms_mon (f : Nat → SafeArm → SafeArm) : (s.onArms f).mon = s.mon := rfl
@[simp] theorem State.onArms_tap (f : Nat → SafeArm → SafeArm) : (s.onArms f).tap = s.tap := rfl

/-! ### `State.onNode` -/

@[simp] theorem State.onNode_pending (r : RingId) (a : Nat) (f : NodeSt → NodeSt) : (s.onNode r a f).pending = s.pending := rfl
@[simp] theorem State.onNode_free (r : RingId) (a : Nat) (f : NodeSt → NodeSt) : (s.onNode r a f).free = s.free := rfl
@[simp] theorem State.onNode_objs (r : RingId) (a : Nat) (f : NodeSt → NodeSt) : (s.onNode r a f).objs = s.objs := rfl
@[simp] theorem State.onNode_staged (r : RingId) (a : Nat) (f : NodeSt → NodeSt) : (s.onNode r a f).staged = s.staged := rfl
@[simp] theorem State.onNode_dev (r : RingId) (a : Nat) (f : NodeSt → NodeSt) : (s.onNode r a f).dev = s.dev := rfl
@[simp] theorem State.onNode_time (r : RingId) (a : Nat) (f : NodeSt → NodeSt) : (s.onNode r a f).time = s.time := rfl
@[simp] theorem State.onNode_dict (r : RingId) (a : Nat) (f : NodeSt → NodeSt) : (s.onNode r a f).dict = s.dict := rfl
@[simp] theorem State.onNode_recd (r : RingId) (a : Nat) (f : NodeSt → NodeSt) : (s.onNode r a f).recd = s.recd := rfl
@[simp] theorem State.onNode_sec (r : RingId) (a : Nat) (f : NodeSt → NodeSt) : (s.onNode r a f).sec = s.sec := rfl
@[simp] theorem State.onNode_pair (r : RingId) (a : Nat) (f : NodeSt → NodeSt) : (s.onNode r a f).pair = s.pair := rfl
@[simp] theorem State.onNode_rings (r : RingId) (a : Nat) (f : NodeSt → NodeSt) : (s.onNode r a f).rings = { s.rings with nodes := putNode (f (s.node r a)) s.rings.nodes } := rfl
@[simp] theorem State.onNode_motion (r : RingId) (a : Nat) (f : NodeSt → NodeSt) : (s.onNode r a f).motion = s.motion := rfl
@[simp] theorem State.onNode_solver (r : RingId) (a : Nat) (f : NodeSt → NodeSt) : (s.onNode r a f).solver = s.solver := rfl
@[simp] theorem State.onNode_square (r : RingId) (a : Nat) (f : NodeSt → NodeSt) : (s.onNode r a f).square = s.square := rfl
@[simp] theorem State.onNode_jn (r : RingId) (a : Nat) (f : NodeSt → NodeSt) : (s.onNode r a f).jn = s.jn := rfl
@[simp] theorem State.onNode_lanes (r : RingId) (a : Nat) (f : NodeSt → NodeSt) : (s.onNode r a f).lanes = s.lanes := rfl
@[simp] theorem State.onNode_cnts (r : RingId) (a : Nat) (f : NodeSt → NodeSt) : (s.onNode r a f).cnts = s.cnts := rfl
@[simp] theorem State.onNode_safe (r : RingId) (a : Nat) (f : NodeSt → NodeSt) : (s.onNode r a f).safe = s.safe := rfl
@[simp] theorem State.onNode_axes (r : RingId) (a : Nat) (f : NodeSt → NodeSt) : (s.onNode r a f).axes = s.axes := rfl
@[simp] theorem State.onNode_mon (r : RingId) (a : Nat) (f : NodeSt → NodeSt) : (s.onNode r a f).mon = s.mon := rfl
@[simp] theorem State.onNode_tap (r : RingId) (a : Nat) (f : NodeSt → NodeSt) : (s.onNode r a f).tap = s.tap := rfl

/-! ### `State.portErr` -/

@[simp] theorem State.portErr_pending (r : RingId) (port off : Nat) : (s.portErr r port off).pending = s.pending := rfl
@[simp] theorem State.portErr_free (r : RingId) (port off : Nat) : (s.portErr r port off).free = s.free := rfl
@[simp] theorem State.portErr_objs (r : RingId) (port off : Nat) : (s.portErr r port off).objs = storePut s.objs (kPortErr (ringNo r)) (errInc (s.obj (kPortErr (ringNo r))) port off) := rfl
@[simp] theorem State.portErr_staged (r : RingId) (port off : Nat) : (s.portErr r port off).staged = s.staged := rfl
@[simp] theorem State.portErr_dev (r : RingId) (port off : Nat) : (s.portErr r port off).dev = s.dev := rfl
@[simp] theorem State.portErr_time (r : RingId) (port off : Nat) : (s.portErr r port off).time = s.time := rfl
@[simp] theorem State.portErr_dict (r : RingId) (port off : Nat) : (s.portErr r port off).dict = s.dict := rfl
@[simp] theorem State.portErr_recd (r : RingId) (port off : Nat) : (s.portErr r port off).recd = s.recd := rfl
@[simp] theorem State.portErr_sec (r : RingId) (port off : Nat) : (s.portErr r port off).sec = s.sec := rfl
@[simp] theorem State.portErr_pair (r : RingId) (port off : Nat) : (s.portErr r port off).pair = s.pair := rfl
@[simp] theorem State.portErr_rings (r : RingId) (port off : Nat) : (s.portErr r port off).rings = s.rings := rfl
@[simp] theorem State.portErr_motion (r : RingId) (port off : Nat) : (s.portErr r port off).motion = s.motion := rfl
@[simp] theorem State.portErr_solver (r : RingId) (port off : Nat) : (s.portErr r port off).solver = s.solver := rfl
@[simp] theorem State.portErr_square (r : RingId) (port off : Nat) : (s.portErr r port off).square = s.square := rfl
@[simp] theorem State.portErr_jn (r : RingId) (port off : Nat) : (s.portErr r port off).jn = s.jn := rfl
@[simp] theorem State.portErr_lanes (r : RingId) (port off : Nat) : (s.portErr r port off).lanes = s.lanes := rfl
@[simp] theorem State.portErr_cnts (r : RingId) (port off : Nat) : (s.portErr r port off).cnts = s.cnts := rfl
@[simp] theorem State.portErr_safe (r : RingId) (port off : Nat) : (s.portErr r port off).safe = s.safe := rfl
@[simp] theorem State.portErr_axes (r : RingId) (port off : Nat) : (s.portErr r port off).axes = s.axes := rfl
@[simp] theorem State.portErr_mon (r : RingId) (port off : Nat) : (s.portErr r port off).mon = s.mon := rfl
@[simp] theorem State.portErr_tap (r : RingId) (port off : Nat) : (s.portErr r port off).tap = s.tap := rfl

/-! ### `State.clocksStop` -/

@[simp] theorem State.clocksStop_pending (p : Nat → Bool) : (s.clocksStop p).pending = s.pending := rfl
@[simp] theorem State.clocksStop_free (p : Nat → Bool) : (s.clocksStop p).free = s.free := rfl
@[simp] theorem State.clocksStop_objs (p : Nat → Bool) : (s.clocksStop p).objs = s.objs := rfl
@[simp] theorem State.clocksStop_staged (p : Nat → Bool) : (s.clocksStop p).staged = s.staged := rfl
@[simp] theorem State.clocksStop_dev (p : Nat → Bool) : (s.clocksStop p).dev = s.dev := rfl
@[simp] theorem State.clocksStop_time (p : Nat → Bool) : (s.clocksStop p).time = s.time := rfl
@[simp] theorem State.clocksStop_dict (p : Nat → Bool) : (s.clocksStop p).dict = s.dict := rfl
@[simp] theorem State.clocksStop_recd (p : Nat → Bool) : (s.clocksStop p).recd = s.recd := rfl
@[simp] theorem State.clocksStop_sec (p : Nat → Bool) : (s.clocksStop p).sec = s.sec := rfl
@[simp] theorem State.clocksStop_pair (p : Nat → Bool) : (s.clocksStop p).pair = s.pair := rfl
@[simp] theorem State.clocksStop_rings (p : Nat → Bool) : (s.clocksStop p).rings = s.rings := rfl
@[simp] theorem State.clocksStop_motion (p : Nat → Bool) : (s.clocksStop p).motion = s.motion := rfl
@[simp] theorem State.clocksStop_solver (p : Nat → Bool) : (s.clocksStop p).solver = s.solver := rfl
@[simp] theorem State.clocksStop_square (p : Nat → Bool) : (s.clocksStop p).square = s.square := rfl
@[simp] theorem State.clocksStop_jn (p : Nat → Bool) : (s.clocksStop p).jn = s.jn := rfl
@[simp] theorem State.clocksStop_lanes (p : Nat → Bool) : (s.clocksStop p).lanes = s.lanes := rfl
@[simp] theorem State.clocksStop_cnts (p : Nat → Bool) : (s.clocksStop p).cnts = s.cnts.zipIdx.map (fun x => if p x.2 && s.clockOn x.2 then { x.1 with ran := true } else x.1) := rfl
@[simp] theorem State.clocksStop_safe (p : Nat → Bool) : (s.clocksStop p).safe = s.safe := rfl
@[simp] theorem State.clocksStop_axes (p : Nat → Bool) : (s.clocksStop p).axes = s.axes := rfl
@[simp] theorem State.clocksStop_mon (p : Nat → Bool) : (s.clocksStop p).mon = s.mon := rfl
@[simp] theorem State.clocksStop_tap (p : Nat → Bool) : (s.clocksStop p).tap = s.tap := rfl

/-! ### `State.count` -/

@[simp] theorem State.count_pending (e slots : Nat) (evs : List (Nat × Nat)) : (s.count e slots evs).pending = s.pending := rfl
@[simp] theorem State.count_free (e slots : Nat) (evs : List (Nat × Nat)) : (s.count e slots evs).free = s.free := rfl
@[simp] theorem State.count_staged (e slots : Nat) (evs : List (Nat × Nat)) : (s.count e slots evs).staged = s.staged := rfl
@[simp] theorem State.count_dev (e slots : Nat) (evs : List (Nat × Nat)) : (s.count e slots evs).dev = s.dev := rfl
@[simp] theorem State.count_time (e slots : Nat) (evs : List (Nat × Nat)) : (s.count e slots evs).time = s.time := rfl
@[simp] theorem State.count_dict (e slots : Nat) (evs : List (Nat × Nat)) : (s.count e slots evs).dict = s.dict := rfl
@[simp] theorem State.count_recd (e slots : Nat) (evs : List (Nat × Nat)) : (s.count e slots evs).recd = s.recd := rfl
@[simp] theorem State.count_sec (e slots : Nat) (evs : List (Nat × Nat)) : (s.count e slots evs).sec = s.sec := rfl
@[simp] theorem State.count_pair (e slots : Nat) (evs : List (Nat × Nat)) : (s.count e slots evs).pair = s.pair := rfl
@[simp] theorem State.count_rings (e slots : Nat) (evs : List (Nat × Nat)) : (s.count e slots evs).rings = s.rings := rfl
@[simp] theorem State.count_motion (e slots : Nat) (evs : List (Nat × Nat)) : (s.count e slots evs).motion = s.motion := rfl
@[simp] theorem State.count_solver (e slots : Nat) (evs : List (Nat × Nat)) : (s.count e slots evs).solver = s.solver := rfl
@[simp] theorem State.count_square (e slots : Nat) (evs : List (Nat × Nat)) : (s.count e slots evs).square = s.square := rfl
@[simp] theorem State.count_jn (e slots : Nat) (evs : List (Nat × Nat)) : (s.count e slots evs).jn = s.jn := rfl
@[simp] theorem State.count_lanes (e slots : Nat) (evs : List (Nat × Nat)) : (s.count e slots evs).lanes = s.lanes := rfl
@[simp] theorem State.count_safe (e slots : Nat) (evs : List (Nat × Nat)) : (s.count e slots evs).safe = s.safe := rfl
@[simp] theorem State.count_axes (e slots : Nat) (evs : List (Nat × Nat)) : (s.count e slots evs).axes = s.axes := rfl
@[simp] theorem State.count_mon (e slots : Nat) (evs : List (Nat × Nat)) : (s.count e slots evs).mon = s.mon := rfl
@[simp] theorem State.count_tap (e slots : Nat) (evs : List (Nat × Nat)) : (s.count e slots evs).tap = s.tap := rfl

/-! ### `State.setRing` -/

@[simp] theorem State.setRing_pending (r : RingId) (x : RingSt) : (s.setRing r x).pending = s.pending := by cases r <;> rfl
@[simp] theorem State.setRing_free (r : RingId) (x : RingSt) : (s.setRing r x).free = s.free := by cases r <;> rfl
@[simp] theorem State.setRing_objs (r : RingId) (x : RingSt) : (s.setRing r x).objs = s.objs := by cases r <;> rfl
@[simp] theorem State.setRing_staged (r : RingId) (x : RingSt) : (s.setRing r x).staged = s.staged := by cases r <;> rfl
@[simp] theorem State.setRing_dev (r : RingId) (x : RingSt) : (s.setRing r x).dev = s.dev := by cases r <;> rfl
@[simp] theorem State.setRing_time (r : RingId) (x : RingSt) : (s.setRing r x).time = s.time := by cases r <;> rfl
@[simp] theorem State.setRing_dict (r : RingId) (x : RingSt) : (s.setRing r x).dict = s.dict := by cases r <;> rfl
@[simp] theorem State.setRing_recd (r : RingId) (x : RingSt) : (s.setRing r x).recd = s.recd := by cases r <;> rfl
@[simp] theorem State.setRing_sec (r : RingId) (x : RingSt) : (s.setRing r x).sec = s.sec := by cases r <;> rfl
@[simp] theorem State.setRing_pair (r : RingId) (x : RingSt) : (s.setRing r x).pair = s.pair := by cases r <;> rfl
@[simp] theorem State.setRing_motion (r : RingId) (x : RingSt) : (s.setRing r x).motion = s.motion := by cases r <;> rfl
@[simp] theorem State.setRing_solver (r : RingId) (x : RingSt) : (s.setRing r x).solver = s.solver := by cases r <;> rfl
@[simp] theorem State.setRing_square (r : RingId) (x : RingSt) : (s.setRing r x).square = s.square := by cases r <;> rfl
@[simp] theorem State.setRing_jn (r : RingId) (x : RingSt) : (s.setRing r x).jn = s.jn := by cases r <;> rfl
@[simp] theorem State.setRing_lanes (r : RingId) (x : RingSt) : (s.setRing r x).lanes = s.lanes := by cases r <;> rfl
@[simp] theorem State.setRing_cnts (r : RingId) (x : RingSt) : (s.setRing r x).cnts = s.cnts := by cases r <;> rfl
@[simp] theorem State.setRing_safe (r : RingId) (x : RingSt) : (s.setRing r x).safe = s.safe := by cases r <;> rfl
@[simp] theorem State.setRing_axes (r : RingId) (x : RingSt) : (s.setRing r x).axes = s.axes := by cases r <;> rfl
@[simp] theorem State.setRing_mon (r : RingId) (x : RingSt) : (s.setRing r x).mon = s.mon := by cases r <;> rfl
@[simp] theorem State.setRing_tap (r : RingId) (x : RingSt) : (s.setRing r x).tap = s.tap := by cases r <;> rfl

@[simp] theorem State.onRing_pending (r : RingId) (f : RingSt → RingSt) : (s.onRing r f).pending = s.pending := by cases r <;> rfl
@[simp] theorem State.onRing_free (r : RingId) (f : RingSt → RingSt) : (s.onRing r f).free = s.free := by cases r <;> rfl
@[simp] theorem State.onRing_objs (r : RingId) (f : RingSt → RingSt) : (s.onRing r f).objs = s.objs := by cases r <;> rfl
@[simp] theorem State.onRing_staged (r : RingId) (f : RingSt → RingSt) : (s.onRing r f).staged = s.staged := by cases r <;> rfl
@[simp] theorem State.onRing_dev (r : RingId) (f : RingSt → RingSt) : (s.onRing r f).dev = s.dev := by cases r <;> rfl
@[simp] theorem State.onRing_time (r : RingId) (f : RingSt → RingSt) : (s.onRing r f).time = s.time := by cases r <;> rfl
@[simp] theorem State.onRing_dict (r : RingId) (f : RingSt → RingSt) : (s.onRing r f).dict = s.dict := by cases r <;> rfl
@[simp] theorem State.onRing_recd (r : RingId) (f : RingSt → RingSt) : (s.onRing r f).recd = s.recd := by cases r <;> rfl
@[simp] theorem State.onRing_sec (r : RingId) (f : RingSt → RingSt) : (s.onRing r f).sec = s.sec := by cases r <;> rfl
@[simp] theorem State.onRing_pair (r : RingId) (f : RingSt → RingSt) : (s.onRing r f).pair = s.pair := by cases r <;> rfl
@[simp] theorem State.onRing_motion (r : RingId) (f : RingSt → RingSt) : (s.onRing r f).motion = s.motion := by cases r <;> rfl
@[simp] theorem State.onRing_solver (r : RingId) (f : RingSt → RingSt) : (s.onRing r f).solver = s.solver := by cases r <;> rfl
@[simp] theorem State.onRing_square (r : RingId) (f : RingSt → RingSt) : (s.onRing r f).square = s.square := by cases r <;> rfl
@[simp] theorem State.onRing_jn (r : RingId) (f : RingSt → RingSt) : (s.onRing r f).jn = s.jn := by cases r <;> rfl
@[simp] theorem State.onRing_lanes (r : RingId) (f : RingSt → RingSt) : (s.onRing r f).lanes = s.lanes := by cases r <;> rfl
@[simp] theorem State.onRing_cnts (r : RingId) (f : RingSt → RingSt) : (s.onRing r f).cnts = s.cnts := by cases r <;> rfl
@[simp] theorem State.onRing_safe (r : RingId) (f : RingSt → RingSt) : (s.onRing r f).safe = s.safe := by cases r <;> rfl
@[simp] theorem State.onRing_axes (r : RingId) (f : RingSt → RingSt) : (s.onRing r f).axes = s.axes := by cases r <;> rfl
@[simp] theorem State.onRing_mon (r : RingId) (f : RingSt → RingSt) : (s.onRing r f).mon = s.mon := by cases r <;> rfl
@[simp] theorem State.onRing_tap (r : RingId) (f : RingSt → RingSt) : (s.onRing r f).tap = s.tap := by cases r <;> rfl

/-! ### `State.clocksStart` -/

/-- Clocks that start change counters, and through their overflow flags the objects, and nothing else. -/
theorem State.clocksStart_frame (old : State) : (s.clocksStart old) = { s with cnts := (s.clocksStart old).cnts, objs := (s.clocksStart old).objs } := by
  have key : ∀ (l : List Nat) (t : State), { s with cnts := t.cnts, objs := t.objs } = t →
      { s with cnts := (l.foldl (fun (t : State) e => t.count e 1 [(3, 1), (5, 1)]) t).cnts,
               objs := (l.foldl (fun (t : State) e => t.count e 1 [(3, 1), (5, 1)]) t).objs } =
        l.foldl (fun (t : State) e => t.count e 1 [(3, 1), (5, 1)]) t := by
    intro l
    induction l with
    | nil => exact fun _ h => h
    | cons e l ih => exact fun t h => ih _ (by rw [← h]; rfl)
  exact (key _ s rfl).symm

end Sys2Proof.Machine
end

