-- ==== Sys2Proof/Laws/Store.lean ====
section
/-! SUPPORT. Laws of byte strings, of the object store and of memory: read after write, every other place unchanged, and the
canonical form kept. -/

namespace Sys2Proof.Machine

/-! ### Byte strings -/

@[simp] theorem le_length (n v : Nat) : (le n v).length = n := by
  induction n generalizing v with
  | zero => rfl
  | succ n ih => simp [le, ih]

@[simp] theorem leVal_le (n v : Nat) : leVal (le n v) = v % 256 ^ n := by
  induction n generalizing v with
  | zero => simp [le, leVal, Nat.mod_one]
  | succ n ih =>
    have h : v % 256 ^ (n + 1) = v % 256 + 256 * (v / 256 % 256 ^ n) := by rw [Nat.pow_succ', Nat.mod_mul]
    rw [le, leVal, ih, h, BitVec.toNat_ofNat]

theorem leVal_lt (b : Bytes) : leVal b < 256 ^ b.length := by
  induction b with
  | nil => simp [leVal]
  | cons x r ih =>
    have := x.isLt
    simp only [leVal, List.length_cons, Nat.pow_succ]
    omega

@[simp] theorem zeros_length (n : Nat) : (zeros n).length = n := by simp [zeros]

@[simp] theorem slice_length (b : Bytes) (o n : Nat) : (slice b o n).length = n := by
  simp [slice, List.length_take, List.length_drop]

@[simp] theorem fit_length (n : Nat) (b : Bytes) : (fit n b).length = n := slice_length b 0 n

@[simp] theorem patch_length (b : Bytes) (o : Nat) (v : Bytes) : (patch b o v).length = b.length := by
  simp only [patch, List.length_append, List.length_take, List.length_drop]; omega

theorem num_lt (b : Bytes) (o n : Nat) : num b o n < 256 ^ n :=
  lt_of_lt_of_le (leVal_lt _) (Nat.pow_le_pow_right (by omega) (by simp))

@[simp] theorem modAt_length {α : Type} (l : List α) (i : Nat) (f : α → α) : (modAt l i f).length = l.length := by
  induction l generalizing i with
  | nil => simp [modAt]
  | cons a r ih => cases i <;> simp [modAt, ih]

theorem getElem?_modAt_same {α : Type} (l : List α) (i : Nat) (f : α → α) : (modAt l i f)[i]? = l[i]?.map f := by
  induction l generalizing i with
  | nil => simp [modAt]
  | cons a r ih => cases i <;> simp [modAt, ih]

theorem getElem?_modAt_other {α : Type} (l : List α) {i j : Nat} (f : α → α) (h : i ≠ j) : (modAt l i f)[j]? = l[j]? := by
  induction l generalizing i j with
  | nil => simp [modAt]
  | cons a r ih =>
    cases i <;> cases j <;> simp_all [modAt]

/-! ### The object store -/

theorem storeFind_erase_same (st : Store) (k : Nat) : storeFind (storeErase st k) k = none := by
  induction st with
  | nil => rfl
  | cons p r ih => obtain ⟨k', v⟩ := p; by_cases h : k' = k <;> simp [storeErase, storeFind, h, ih]

theorem storeFind_erase_other (st : Store) {k j : Nat} (h : j ≠ k) : storeFind (storeErase st k) j = storeFind st j := by
  induction st with
  | nil => rfl
  | cons p r ih =>
    obtain ⟨k', v⟩ := p
    by_cases hk : k' = k
    · subst hk; simp [storeErase, storeFind, ih, Ne.symm h]
    · simp [storeErase, storeFind, hk, ih]

theorem storeFind_insert_same (st : Store) (k : Nat) (v : Bytes) : storeFind (storeInsert st k v) k = some v := by
  induction st with
  | nil => simp [storeInsert, storeFind]
  | cons p r ih =>
    obtain ⟨k', v'⟩ := p
    by_cases h : k' < k
    · have : k' ≠ k := by omega
      simp [storeInsert, storeFind, h, this, ih]
    · by_cases h2 : k' = k <;> simp [storeInsert, storeFind, h, h2]

theorem storeFind_insert_other (st : Store) {k j : Nat} (v : Bytes) (h : j ≠ k) :
    storeFind (storeInsert st k v) j = storeFind st j := by
  induction st with
  | nil => simp [storeInsert, storeFind, Ne.symm h]
  | cons p r ih =>
    obtain ⟨k', v'⟩ := p
    by_cases h1 : k' < k
    · simp [storeInsert, storeFind, h1, ih]
    · by_cases h2 : k' = k
      · subst h2; simp [storeInsert, storeFind, Ne.symm h]
      · simp [storeInsert, storeFind, h1, h2, Ne.symm h]

/-- Reading an object after writing it gives the value written. -/
@[simp] theorem State.obj_setObj_same (s : State) (k : Nat) (v : Bytes) : (s.setObj k v).obj k = v := by
  simp only [State.obj, State.setObj_objs, storePut]
  split
  · rename_i h; simp [storeFind_erase_same, h]
  · simp [storeFind_insert_same]

/-- Writing an object leaves every other object alone. -/
theorem State.obj_setObj_other (s : State) {k j : Nat} (v : Bytes) (h : j ≠ k) : (s.setObj k v).obj j = s.obj j := by
  simp only [State.obj, State.setObj_objs, storePut]
  split
  · rw [storeFind_erase_other _ h]
  · rw [storeFind_insert_other _ _ h]

/-- Both at once, for rewriting. -/
theorem State.obj_setObj (s : State) (k j : Nat) (v : Bytes) : (s.setObj k v).obj j = if j = k then v else s.obj j := by
  by_cases h : j = k
  · subst h; simp
  · simp [h, State.obj_setObj_other]

theorem State.obj_setN (s : State) (k j v : Nat) :
    (s.setN k v).obj j = if j = k then le (objDefault k).length v else s.obj j := State.obj_setObj ..

theorem State.n_setN_same (s : State) (k v : Nat) : (s.setN k v).n k = v % 256 ^ (objDefault k).length := by
  simp [State.n, State.obj_setN]

theorem State.n_setN_other (s : State) {k j : Nat} (v : Nat) (h : j ≠ k) : (s.setN k v).n j = s.n j := by
  simp [State.n, State.obj_setN, h]

theorem State.n_setObj_other (s : State) {k j : Nat} (v : Bytes) (h : j ≠ k) : (s.setObj k v).n j = s.n j := by
  simp [State.n, State.obj_setObj, h]

/-- Fields that hold no object do not change what objects read as. -/
theorem State.obj_congr {s t : State} (h : s.objs = t.objs) (k : Nat) : s.obj k = t.obj k := by simp [State.obj, h]

theorem State.n_congr {s t : State} (h : s.objs = t.objs) (k : Nat) : s.n k = t.n k := by simp [State.n, State.obj_congr h]

/-! ### The canonical form of the store -/

theorem storeErase_mem {st : Store} {k : Nat} {p : Nat × Bytes} (h : p ∈ storeErase st k) : p ∈ st ∧ p.1 ≠ k := by
  induction st with
  | nil => simp [storeErase] at h
  | cons q r ih =>
    obtain ⟨k', v⟩ := q
    by_cases hk : k' = k
    · simp only [storeErase, hk, if_true] at h
      exact ⟨List.mem_cons_of_mem _ (ih h).1, (ih h).2⟩
    · simp only [storeErase, hk, if_false, List.mem_cons] at h
      rcases h with rfl | h
      · exact ⟨List.mem_cons_self, hk⟩
      · exact ⟨List.mem_cons_of_mem _ (ih h).1, (ih h).2⟩

theorem storeWf_erase {st : Store} (k : Nat) (h : storeWf st = true) : storeWf (storeErase st k) = true := by
  induction st with
  | nil => rfl
  | cons q r ih =>
    obtain ⟨k', v⟩ := q
    simp only [storeWf, Bool.and_eq_true, List.all_eq_true] at h
    by_cases hk : k' = k
    · simp [storeErase, hk, ih h.2]
    · simp only [storeErase, hk, if_false, storeWf, Bool.and_eq_true, List.all_eq_true]
      exact ⟨⟨h.1.1, fun p hp => h.1.2 p (storeErase_mem hp).1⟩, ih h.2⟩

theorem storeInsert_mem {st : Store} {k : Nat} {v : Bytes} {p : Nat × Bytes} (h : p ∈ storeInsert st k v) :
    p = (k, v) ∨ p ∈ st := by
  induction st with
  | nil => simpa [storeInsert] using h
  | cons q r ih =>
    obtain ⟨k', v'⟩ := q
    simp only [storeInsert] at h
    split at h
    · simp only [List.mem_cons] at h ⊢
      rcases h with h | h
      · exact .inr (.inl h)
      · exact (ih h).imp id .inr
    · split at h <;> simp only [List.mem_cons] at h ⊢ <;> tauto

theorem storeWf_insert {st : Store} {k : Nat} {v : Bytes} (hv : v ≠ objDefault k) (h : storeWf st = true) :
    storeWf (storeInsert st k v) = true := by
  induction st with
  | nil => simp [storeInsert, storeWf, hv]
  | cons q r ih =>
    obtain ⟨k', v'⟩ := q
    simp only [storeWf, Bool.and_eq_true, List.all_eq_true, decide_eq_true_eq] at h
    simp only [storeInsert]
    split
    · rename_i hlt
      simp only [storeWf, Bool.and_eq_true, List.all_eq_true, decide_eq_true_eq]
      refine ⟨⟨h.1.1, fun p hp => ?_⟩, ih h.2⟩
      rcases storeInsert_mem hp with rfl | hp
      · exact hlt
      · exact h.1.2 p hp
    · split
      · rename_i _ he
        subst he
        simp only [storeWf, Bool.and_eq_true, List.all_eq_true, decide_eq_true_eq]
        exact ⟨⟨hv, h.1.2⟩, h.2⟩
      · rename_i hn he
        simp only [storeWf, Bool.and_eq_true, List.all_eq_true, decide_eq_true_eq, List.mem_cons]
        refine ⟨⟨hv, ?_⟩, h⟩
        rintro p (rfl | hp)
        · show k < k'; omega
        · have := h.1.2 p hp; omega

/-- A write keeps the canonical form of the store. -/
theorem storeWf_put {st : Store} (k : Nat) (v : Bytes) (h : storeWf st = true) : storeWf (storePut st k v) = true := by
  unfold storePut
  split
  · exact storeWf_erase k h
  · exact storeWf_insert ‹_› h

/-! ### Memory -/

theorem memGet_set_same (m : Mem) (a : Nat) (b : Byte) (h : memWf m = true) : memGet (memSet m a b) a = b := by
  induction m with
  | nil => rw [memSet]; split <;> simp_all [memGet]
  | cons p r ih =>
    obtain ⟨a', b'⟩ := p
    simp only [memWf, Bool.and_eq_true, List.all_eq_true, decide_eq_true_eq] at h
    have none_in : ∀ (l : Mem), (∀ p ∈ l, a < p.1) → memGet l a = 0 := by
      intro l hl
      induction l with
      | nil => rfl
      | cons q l ihl =>
        obtain ⟨c, d⟩ := q
        have h1 := hl (c, d) List.mem_cons_self
        simp only at h1
        have : c ≠ a := by omega
        simp [memGet, this, ihl (fun p hp => hl p (List.mem_cons_of_mem _ hp))]
    simp only [memSet]
    split
    · have : a' ≠ a := by omega
      simp [memGet, this, ih h.2]
    · split
      · rename_i _ he
        subst he
        split
        · rename_i hb; rw [none_in r h.1.2, hb]
        · simp [memGet]
      · split
        · rename_i hb
          have ha : a' ≠ a := by assumption
          have : ∀ p ∈ r, a < p.1 := fun p hp => by have := h.1.2 p hp; omega
          simp [memGet, ha, none_in r this, hb]
        · simp [memGet]

theorem memGet_set_other (m : Mem) {a c : Nat} (b : Byte) (h : c ≠ a) : memGet (memSet m a b) c = memGet m c := by
  induction m with
  | nil => rw [memSet]; split <;> simp [memGet, Ne.symm h]
  | cons p r ih =>
    obtain ⟨a', b'⟩ := p
    simp only [memSet]
    split
    · by_cases hc : a' = c <;> simp [memGet, hc, ih]
    · split
      · rename_i _ he
        subst he
        split <;> simp [memGet, Ne.symm h]
      · split <;> simp [memGet, Ne.symm h]

theorem memSet_mem {m : Mem} {a : Nat} {b : Byte} {p : Host.Cell} (h : p ∈ memSet m a b) : p.1 = a ∨ p ∈ m := by
  induction m with
  | nil =>
    simp only [memSet] at h
    split at h <;> simp_all
  | cons q r ih =>
    obtain ⟨a', b'⟩ := q
    simp only [memSet] at h
    split at h
    · simp only [List.mem_cons] at h ⊢
      rcases h with h | h
      · exact .inr (.inl h)
      · exact (ih h).imp id .inr
    · split at h <;> split at h <;> simp only [List.mem_cons] at h ⊢ <;>
        (try (rcases h with rfl | h)) <;> tauto

/-- Writing a byte keeps the canonical form of memory. -/
theorem memWf_set {m : Mem} (a : Nat) (b : Byte) (h : memWf m = true) : memWf (memSet m a b) = true := by
  induction m with
  | nil => rw [memSet]; split <;> simp_all [memWf]
  | cons q r ih =>
    obtain ⟨a', b'⟩ := q
    have h' := h
    simp only [memWf, Bool.and_eq_true, List.all_eq_true, decide_eq_true_eq] at h
    simp only [memSet]
    split
    · rename_i hlt
      simp only [memWf, Bool.and_eq_true, List.all_eq_true, decide_eq_true_eq]
      refine ⟨⟨h.1.1, fun p hp => ?_⟩, ih h.2⟩
      rcases memSet_mem hp with he | hp
      · omega
      · exact h.1.2 p hp
    · split
      · rename_i _ he
        subst he
        split
        · exact h.2
        · simp only [memWf, Bool.and_eq_true, List.all_eq_true, decide_eq_true_eq]
          exact ⟨⟨by assumption, h.1.2⟩, h.2⟩
      · split
        · exact h'
        · simp only [memWf, Bool.and_eq_true, List.all_eq_true, decide_eq_true_eq, List.mem_cons]
          refine ⟨⟨by assumption, ?_⟩, h⟩
          rintro p (rfl | hp)
          · show a < a'; omega
          · have := h.1.2 p hp; omega

/-- Writing bytes keeps the canonical form of memory. -/
theorem memWf_write {m : Mem} (a : Nat) (bs : Bytes) (h : memWf m = true) : memWf (memWrite m a bs) = true := by
  induction bs generalizing m a with
  | nil => exact h
  | cons b r ih => exact ih (a + 1) (memWf_set a b h)

/-- Writing bytes leaves every address outside them alone. -/
theorem memGet_write_other (m : Mem) (a c : Nat) (bs : Bytes) (h : c < a ∨ a + bs.length ≤ c) :
    memGet (memWrite m a bs) c = memGet m c := by
  induction bs generalizing m a with
  | nil => rfl
  | cons b r ih =>
    simp only [List.length_cons] at h
    rw [memWrite, ih _ _ (by omega), memGet_set_other _ _ (by omega)]

/-- Keeping the cells that satisfy a condition keeps the canonical form. -/
theorem memWf_filter {m : Mem} (p : Host.Cell → Bool) (h : memWf m = true) : memWf (m.filter p) = true := by
  induction m with
  | nil => rfl
  | cons q r ih =>
    obtain ⟨a, b⟩ := q
    simp only [memWf, Bool.and_eq_true, List.all_eq_true, decide_eq_true_eq] at h
    simp only [List.filter_cons]
    split
    · simp only [memWf, Bool.and_eq_true, List.all_eq_true, decide_eq_true_eq]
      exact ⟨⟨h.1.1, fun x hx => h.1.2 x (List.mem_filter.mp hx).1⟩, ih h.2⟩
    · exact ih h.2

end Sys2Proof.Machine
end

