-- ==== Sys2Proof/WellFormed.lean ====
section
/-! DEFINITION. Well-formed commands: what the board can put on the wires. A frame has a payload of at most 1,024 bytes and a
type of R77; a dictionary message holds as many data bytes as its header can state; a time names at most 999,999,999 ns. -/

namespace Sys2Proof

/-- A TIME96 value that the layout of R30 allows. -/
def Time96.wf (t : Time96) : Bool := decide (t.nsec.toNat < 1000000000)

/-- A frame of R76 with a type of R77. -/
def Frame.wf (f : Frame) : Bool := decide (f.payload.length ≤ 1024) && decide (f.type.toNat ≤ 0x9)

/-- A dictionary message of R395: at most 1,024 data bytes, the largest segment (R398). -/
def DictMsg.wf (m : DictMsg) : Bool := decide (m.data.length ≤ 1024)

/-- A word on the absolute line has at most 48 bits and 7 trailing bits (R284). -/
def absWf (word trailing : Nat) : Bool := decide (word < 2 ^ 48) && decide (trailing < 2 ^ 7)

/-- A descriptor written to MOVE_CMD, GRP_MOVE or AX_MOVE has at most 96 bytes (R138). -/
def moveWf (d : Bytes) : Bool := decide (d.length ≤ 96)

/-- Whether a command is well-formed. -/
def Instr.wf (i : Instr) : Bool :=
  match i with
  | .timeSet _ t => t.wf
  | .ptpMessage m => m.remote.wf && m.egress.wf && m.ingress.wf
  | .timeExchange x => x.t1.wf && x.t2.wf && x.t3.wf && x.t4.wf
  | .read _ m => m.wf
  | .write _ m => m.wf
  | .segRead _ m => m.wf
  | .segWrite _ m => m.wf
  | .desc _ m => m.wf
  | .cancel _ m => m.wf
  | .dictFinalResponse _ m => m.wf
  | .serviceDatagram _ _ _ m => m.wf
  | .frameReceive _ _ _ _ stamp _ => stamp.wf
  | .sync _ _ f => f.wf
  | .data f stamp => f.wf && stamp.wf
  | .repeat f stamp => f.wf && stamp.wf
  | .null f => f.wf
  | .start _ f => f.wf
  | .event f => f.wf
  | .hb _ f => f.wf
  | .delayRequest _ f a b => f.wf && a.wf && b.wf
  | .delayResponse f t _ => f.wf && t.wf
  | .safetyCommand _ _ f _ => f.wf
  | .safetyStatus f => f.wf
  | .forwardedRequest f => f.wf
  | .forwardAck f => f.wf
  | .nodeStatusShare f => f.wf
  | .arbInsert _ _ _ _ f => f.wf
  | .moveJoint _ _ d => moveWf d
  | .moveLinear _ _ d => moveWf d
  | .moveCircular _ _ d => moveWf d
  | .moveSegment _ _ d => moveWf d
  | .moveCam _ _ d => moveWf d
  | .moveStop _ _ d => moveWf d
  | .absReading _ w t _ latch => absWf w t && latch.wf
  | _ => true

end Sys2Proof
end

