-- ==== Sys2Proof/Tests/Slice0.lean ====
section
/-! SUPPORT. Named tests: each check of well-formedness refuses an ill-formed command, words of Lane instructions written out bit by
bit decode as R256 and R258 say, worked examples of the spec, and for every statement states and operands that meet its premises. -/

namespace Sys2Proof.Tests

set_option Elab.async false

open Sys2Proof.Machine

/-! ### States -/

/-- A device that has booted, in a device state, with every path at level V and the main image running. -/
def up (d : DevState) : State :=
  { State.reset with
    dev := { State.reset.dev with phase := .up, state := d, committed := true }
    time := { State.reset.time with sec := 100, acc := 123 * 2 ^ 24 + 77 }
    staged := if d = .config then some [] else none
    recd := { State.reset.recd with mounted := true, optime := 5000 }
    sec := { State.reset.sec with main := { State.reset.sec.main with running := some false, stA := .valid } }
    objs := [(kDevState, [BitVec.ofNat 8 d.code]), (kAccPathLevel, [3, 3, 3, 3])] }

/-- The owner of a pair, and its standby. -/
def ownerOf (s : State) : State := (s.setN kRedPartner 1).setN kRedClaimState 3
def standbyOf (s : State) : State := (s.setN kRedPartner 1).setN kRedClaimState 1

/-- A frame and a dictionary message to build on. -/
def frame0 : Frame :=
  { ring := .m, ch := .a, type := 1, addr := 5, slot := 1, seq := 0, age := 0, flags := 0, mpos := 0, payload := [] }
def message0 : DictMsg := { op := 1, flags := 1, tid := 7, index := 0x2000, sub := 0x0B, dest := 0, param := 0, data := [] }
def time0 : Time96 := ⟨1, 2, 3⟩

/-- A write that waits, due at once. -/
def waiting (s : State) (k : Nat) (d : Bytes) : State := { s with dict := { s.dict with pendingWrites := [⟨.pcie, k, d, s.cycle⟩] } }

/-! ### Premises as decidable propositions -/

theorem direct_of {i j : Nat} {s : State}
    (h : (s.isIn [.inert, .config, .fault, .service] && (objRow? i j).all (fun r => !staging s r)) = true) : Direct i j s := by
  simp only [Bool.and_eq_true] at h
  refine ⟨h.1, fun r hr => ?_⟩
  have := h.2
  rw [hr] at this
  simpa using this

theorem heard_pcie {m : DictMsg} {s : State}
    (h : s.served .pcie = true ∧ (s.rq .pcie).tid ≠ some m.tid.toNat ∧ (s.rq .pcie).openReq = none ∧ s.n kShedStage = 0 ∧
      m.data.length ≤ s.segSize .pcie ∧ m.flags.toNat.testBit 1 = false) : Heard .pcie m s :=
  ⟨h.1, h.2.1, h.2.2.1, h.2.2.2.1, h.2.2.2.2.1, fun _ => h.2.2.2.2.2, nofun, nofun⟩

/-! ### Well-formedness: each check refuses a command -/

theorem test_wf_timeSet : (Instr.timeSet .pcie ⟨0, 1000000000, 0⟩).wf = false ∧ (Instr.timeSet .pcie ⟨0, 999999999, 0⟩).wf = true := by
  decide
theorem test_wf_exchange : (Instr.timeExchange ⟨0, time0, time0, time0, ⟨0, 1000000000, 0⟩, false⟩).wf = false := by decide
/-- A PTP message of domain 0 from a port of clock 77. -/
def ptp0 (k : PtpKind) (ingress : Time96) : PtpMsg :=
  ⟨k, false, 0, 77, 1, 9, 0, time0, time0, ingress, false, 77, 37, ⟨128, 6, 0x20, 0x4000, 128, 0⟩⟩
theorem test_wf_ptp : (Instr.ptpMessage (ptp0 .syncOneStep ⟨0, 1000000000, 0⟩)).wf = false := by decide
theorem test_wf_message : ∀ op ∈ [Instr.read .pcie, .write .pcie, .segRead .pcie, .segWrite .pcie, .desc .pcie, .cancel .pcie,
      .dictFinalResponse ⟨.m, 5, 0⟩, .serviceDatagram 0 0 47120],
    (op { message0 with data := zeros 1025 }).wf = false ∧ (op { message0 with data := zeros 1024 }).wf = true := by decide +kernel
theorem test_wf_frame_length : ∀ c ∈ [Instr.data, .repeat], (c { frame0 with payload := zeros 1025 } time0).wf = false ∧
    (c { frame0 with payload := zeros 1024 } time0).wf = true := by decide +kernel
theorem test_wf_frame_type : ∀ c ∈ [Instr.null, .start (.head .m), .event, .hb .link, .safetyStatus, .forwardedRequest, .forwardAck,
      .nodeStatusShare, .sync (.head .m) .east, .arbInsert (.head .m) .a 0 true],
    (c { frame0 with type := 10 }).wf = false ∧ (c { frame0 with type := 9 }).wf = true := by decide +kernel
theorem test_wf_stamps : (Instr.delayRequest (.head .m) frame0 ⟨0, 1000000000, 0⟩ time0).wf = false ∧
    (Instr.delayResponse frame0 ⟨0, 1000000000, 0⟩ true).wf = false ∧
    (Instr.frameReceive (.own .me) true [] true ⟨0, 1000000000, 0⟩ false).wf = false ∧
    (Instr.safetyCommand .m 5 { frame0 with type := 15 } 0).wf = false := by decide
theorem test_wf_move : ∀ c ∈ [Instr.moveJoint, .moveLinear, .moveCircular, .moveSegment, .moveCam, .moveStop],
    (c .pcie (.arm 0) (zeros 97)).wf = false ∧ (c .pcie (.arm 0) (zeros 96)).wf = true := by decide +kernel
theorem test_wf_absReading : (Instr.absReading 0 (2 ^ 48) 0 true time0).wf = false ∧
    (Instr.absReading 0 0 128 true time0).wf = false ∧ (Instr.absReading 0 (2 ^ 48 - 1) 127 true time0).wf = true := by decide

/-! ### Premises: the queue, reset and boot -/

theorem test_premises_queue : ({ State.reset with pending := [.timeTick] } : State).pending = .timeTick :: [] ∧
    State.reset.pending = [] := by decide

theorem test_premises_powerOn : (ResetCause.internalPor = .internalPor ∨ False) ∧
    (∃ ns, ResetCause.pulse 10000 = .pulse ns ∧ 10000 ≤ ns) ∧ 1000 ≤ 1000 := ⟨.inl rfl, ⟨10000, rfl, by decide⟩, by decide⟩

theorem test_premises_bootBegins : State.reset.dev.phase = .reset ∧ (up .run).dev.phase ≠ .reset := by decide

/-- A device in its start-up tests. -/
def booting : State := { State.reset with dev := { State.reset.dev with phase := .booting } }
def bootingWith : State := { booting with sec := (up .inert).sec }
theorem test_premises_bootSetsTier : booting.dev.phase = .booting ∧ bootingWith.dev.phase = .booting := by decide
theorem test_premises_bootSetsTier_bits :
    anyBit (2 ^ 40) [39, 40] ∧ ¬ anyBit (2 ^ 41) [39, 40] ∧ anyBit (2 ^ 41) [41, 42, 43, 46] ∧
    allBits 0xFFFF00 ((List.range 16).map (· + 8)) ∧ ¬ allBits 0x7FFF00 ((List.range 16).map (· + 8)) ∧
    allBits 0x3800000000 [35, 36, 37] ∧ anyBit (2 ^ 24) [24, 30, 32, 33, 38, 44] ∧ allBits 0xFF (List.range 8) ∧
    ¬ allBits 0x7F (List.range 8) ∧ anyBit 0x7F (List.range 24 ++ [25, 26, 27, 28, 29, 31, 45]) := by
  unfold anyBit allBits; decide +kernel

theorem test_premises_boardSignals : (up .sync).dev.phase = .up ∧ (up .sync).mon.rails.length = 7 ∧ (up .sync).mon.pll.length = 6 := by
  decide +kernel

/-! ### Premises: cell time -/

/-- A slew that has less left than its step, at the end of a second. -/
def slewing (rem : Int) : State :=
  { up .run with time := { (up .run).time with slewRem := rem, slewStep := 3, acc := 999999999 * 2 ^ 24 + 2 ^ 23 } }
theorem test_premises_tick : ∀ p ∈ [(slewing (-2), (-2 : Int)), (slewing 5, 3), (slewing 0, 0)],
    p.1.dev.phase ≠ .reset ∧ p.1.time.running = true ∧ p.1.time.stepTo = none ∧ p.1.time.acc < 1000000000 * 2 ^ 24 ∧
    p.1.time.sec + 1 < 2 ^ 48 ∧ p.2 = (if p.1.time.slewRem < 0 then -1 else 1) * min (p.1.time.slewStep : Int) p.1.time.slewRem.natAbs ∧
    0 ≤ (p.1.n kTimeInc : Int) + p.2 ∧ (p.1.n kTimeInc : Int) + p.2 ≤ 1000000000 * 2 ^ 24 := by decide +kernel

/-- A step is set; and a clock that stands still. -/
def stepping : State := { up .run with time := { (up .run).time with stepTo := some (7, 999999999, 0xFFFF) } }
def stopped : State := { up .run with time := { (up .run).time with running := false } }
theorem test_premises_stepTick : stepping.dev.phase ≠ .reset ∧ stepping.time.running = true ∧
    stepping.time.stepTo = some (7, 999999999, 0xFFFF) ∧ stopped.time.running = false := by decide +kernel

def steered : State := (up .inert).setN kTimeServo 1
theorem test_premises_timeWrites : Allowed .pcie 0x2000 0x05 (time96Bytes time0) (fun _ => 0) (up .inert) ∧ Direct 0x2000 0x05 (up .inert) ∧
    steered.served .pcie = true ∧ writeCheck steered .pcie 0x2000 0x02 (le 4 0x27F00000) = 0 ∧
    writeCheck steered .pcie 0x2000 0x02 (le 4 0x28100001) = 0 ∧ Direct 0x2000 0x02 steered ∧
    steered.n kTimeServo = 1 ∧ writeCheck steered .pcie 0x2000 0x03 (le 8 (-65536000000 : BitVec 64).toNat) = 0 ∧
    Direct 0x2000 0x03 steered ∧ (-65536000000 : BitVec 64).toInt.natAbs ≤ 65536000000 ∧
    Allowed .pcie 0x2000 0x07 [2] (fun _ => 0) (up .inert) ∧ Direct 0x2000 0x07 (up .inert) ∧
    (up .inert).mastership = true ∧ (standbyOf (up .inert)).mastership = false ∧
    ((0x27EFFFFF : W32).toNat < 0x27F00000 ∨ 0x28100000 < (0x28100001 : W32).toNat) ∧ (up .inert).n kTimeServo = 0 :=
  ⟨by unfold Allowed; decide +kernel, direct_of (by decide +kernel), by decide +kernel, by decide +kernel, by decide +kernel,
    direct_of (by decide +kernel), by decide +kernel, by decide +kernel, direct_of (by decide +kernel), by decide +kernel,
    by unfold Allowed; decide +kernel, direct_of (by decide +kernel), by decide +kernel, by decide +kernel, by decide, by decide +kernel⟩

theorem test_premises_domains : ((up .run).setN (kDomState 1) 2).n (kDomState 1) = 2 ∧ (up .run).n (kDomState 1) ≠ 2 ∧
    ((up .run).setN (kDomState 1) 3).n (kDomState 1) = 3 ∧ (up .run).n kRefEffective ≠ (1 : Fin 2) + 1 ∧
    (((up .run).setN (kDomState 1) 3).setN kRefEffective 2).n kRefEffective = (1 : Fin 2) + 1 ∧
    ((((up .run).setN (kDomState 1) 3).setN kRefEffective 2).setN kDomAuto 0).n kDomAuto = 0 := by decide +kernel

/-- A tracked domain of the service port, PTP domain 0. -/
def tracking : State := (up .run).setN (kDomSource 0) 1
def announce0 : PtpMsg := ptp0 .announce time0
/-- Its grandmaster's port is selected. -/
def mastered : State := tracking.setDom 0 { tracking.dom 0 with master := some (ptpMaster announce0) }
/-- A pair whose domain 0 is the PARTNER domain and acquires. -/
def partnered : State := ((ownerOf (up .run)).setN (kDomSource 0) 2).setN (kDomState 0) 1
theorem test_premises_timeMessages : (up .run).dev.phase = .up ∧ (up .run).time.fifos.length = 6 ∧ (up .run).ptpDomain announce0 = none ∧
    ptpEvent announce0.kind = false ∧ ptpEvent (ptp0 .syncOneStep time0).kind = true ∧ (up .run).fifoFull 5 = false ∧
    tracking.ptpDomain announce0 = some 0 ∧ announce0.kind = .announce ∧ (tracking.dom 0).master = none ∧ tracking.fifoFull 5 = false ∧
    tracking.ptpDomain (ptp0 .syncOneStep time0) = some 0 ∧ mastered.ptpDomain (ptp0 .syncOneStep time0) = some 0 ∧
    (mastered.dom 0).master = some (ptpMaster announce0) ∧ (ptpMaster announce0).sends (ptp0 .syncOneStep time0) = true ∧
    ptpIntervalOk (ptp0 .syncOneStep time0) = true ∧ (mastered.dom 0).pathDelay = none ∧ mastered.fifoFull 5 = false ∧
    (up .run).paired = false ∧ (ownerOf (up .run)).paired = true ∧ (ownerOf (up .run)).partnerRef = 0 ∧
    ((ownerOf (up .run)).time.fifos.getD 4 []).length < 63 ∧ partnered.paired = true ∧ partnered.partnerRef = 0 + 1 ∧
    partnered.n (kDomState 0) = 1 ∧ (partnered.dom 0).run < 15 := by decide +kernel

theorem test_premises_clockWatch : (up .run).dev.phase ≠ .reset ∧ (up .run).mon.tripRef = false ∧ (up .run).mon.tripGuard = false ∧
    1248 ≤ (1248 : W16).toNat ∧ (1252 : W16).toNat ≤ 1252 ∧ ((1247 : W16).toNat < 1248 ∨ 1252 < (1253 : W16).toNat) ∧
    ({ up .run with mon := { (up .run).mon with pll := List.replicate 6 true } } : State).mon.pll.getD (pllNo .b) false = true := by
  decide +kernel

/-! ### Premises: device commands -/

theorem test_premises_torqueKept : TorqueKept (up .ready) ∧ TorqueKept (standbyOf (up .sync)) ∧ TorqueKept (up .config) :=
  ⟨.inl (by decide +kernel), .inl (by decide +kernel), .inl (by decide +kernel)⟩
theorem test_premises_commandsRefused : commandRow .pcie none 0 0x11 = some (.holdReq .pcie) ∧ MayCommand .pcie 0x11 (up .ready) ∧
    (up .ready).dev.state ∉ commandStates 0x11 ∧ MayCommand .pcie 0x41 (standbyOf (up .sync)) ∧
    (standbyOf (up .sync)).dev.state ∉ commandStates 0x41 ∧ commandRow .pcie none 0 0x01 = some (.cfgOpen .pcie) ∧
    ((up .inert).setN kAccPathLevel 0).served .pcie = true ∧
    ((up .inert).setN kAccPathLevel 0).level .pcie < commandLevel 0x01 := by
  unfold MayCommand; and_intros <;> decide +kernel

/-- A device whose units all passed, limited to tier 3. -/
def tier3 (d : DevState) : State := ((up d).setN kTierAvail 3).setN kTierLimit 3
theorem test_premises_transitions : MayCommand .pcie 0x01 (tier3 .inert) ∧ MayCommand .pcie 0x01 (tier3 .ready) ∧
    (tier3 .inert).dev.state = .inert ∧ (tier3 .ready).dev.state = .ready ∧ 1 ≤ (tier3 .inert).tierActive ∧
    MayCommand .pcie 0x03 (up .config) ∧ MayCommand .pcie 0x11 (up .run) ∧ MayCommand .pcie 0x12 (up .hold) ∧
    (up .hold).dev.stopDemand = false ∧ ((up .hold).inputDemand false ||| (up .hold).inputDemand true) % 4 = 0 ∧
    MayCommand .pcie 0x13 (up .run) ∧ MayCommand .pcie 0x13 (up .degraded) ∧ MayCommand .pcie 0x30 (tier3 .inert) ∧
    MayCommand .pcie 0x31 (up .service) ∧ MayCommand .pcie 0x41 (standbyOf (up .run)) ∧
    (standbyOf (up .run)).isIn [.ready, .run, .hold, .degraded] = true ∧ (standbyOf (up .run)).n kRedClaimState = 1 := by
  unfold MayCommand; and_intros <;> decide +kernel

/-- FAULT after a failed Tier 0 unit, in recovery. -/
def recovering : State := ((up .fault).setN kTierAvail 0xFF).setN kSecStatus 1
theorem test_premises_runAndReset : MayCommand .pcie 0x10 (tier3 .ready) ∧ 2 ≤ (tier3 .ready).tierActive ∧
    (tier3 .ready).resetByRun.runLocked = false ∧ ((tier3 .ready).setN kTierLimit 1).tierActive < 2 ∧
    MayCommand .pcie 0x10 ((tier3 .ready).setN kTierLimit 1) ∧ MayCommand .pcie 0x20 (tier3 .fault) ∧
    (tier3 .fault).n kTierAvail ≠ 0xFF ∧ (tier3 .fault).causeHolds = false ∧
    MayCommand .pcie 0x20 recovering ∧ recovering.n kTierAvail = 0xFF := by
  unfold MayCommand; and_intros <;> decide +kernel

/-- CONFIG with a staged copy that the commit checks refuse: an arm with 9 joints. -/
def badStaged : State := { up .config with staged := some [(kArmNj 1, [9])] }
/-- CONFIG with a write transfer to a staged object open. -/
def openStaged : State :=
  { up .config with dict := { (up .config).dict with
      rqs := [{ freshRq .pcie with xfer := some ⟨0x1000, 4, true, [], false, 10, 1, false, true, 0⟩ }] } }
/-- An owner that may hand over. -/
def swappable : State :=
  ((ownerOf (up .run)).setN kRedStatus 2).setObj kRedPeerHb (patch (zeros 32) 0 [5])
theorem test_premises_commit : MayCommand .pcie 0x02 (up .config) ∧ (up .config).stagedXfer = false ∧
    (up .config).candidate.commitCheck (up .config).conf ((up .config).keeps (up .config).candidate .m)
      ((up .config).keeps (up .config).candidate .p) none = none ∧
    (badStaged.candidate.commitCheck badStaged.conf (badStaged.keeps badStaged.candidate .m) (badStaged.keeps badStaged.candidate .p)
      none).isSome = true ∧ MayCommand .pcie 0x02 badStaged ∧ badStaged.stagedXfer = false ∧
    MayCommand .pcie 0x02 openStaged ∧ openStaged.dev.state = .config ∧ openStaged.stagedXfer = true := by
  unfold MayCommand; and_intros <;> decide +kernel
theorem test_premises_swap : MayCommand .pcie 0x40 swappable ∧ swappable.isIn [.ready, .run, .hold] = true ∧
    ({ swappable with pair := { swappable.pair with peerInfo := none } } : State).swapRefusal = 0 := by
  unfold MayCommand; and_intros <;> decide +kernel

/-- SYNC with every exit condition met. -/
def synced : State :=
  let s := up .sync
  { s with
    dev := { s.dev with dramReady := true }
    rings := { s.rings with m := { s.rings.m with cs := .running, oper := true }, p := { s.rings.p with cs := .running, oper := true } }
    safe := { s.safe with testsOk := true } }
theorem test_premises_sync : synced.dev.state = .sync ∧ synced.syncReady = true ∧ (up .sync).syncReady = false ∧
    (up .run).dev.state ≠ .sync := by and_intros <;> decide +kernel

/-- A device fault waits. -/
def faulty (s : State) : State := { s with dev := { s.dev with deviceFaults := [⟨0x0204, 3, 77, 9⟩, ⟨0x0203, 1, 2, 3⟩] } }
theorem test_premises_deviceFault : (faulty (up .run)).dev.phase = .up ∧
    (faulty (up .run)).dev.deviceFaults = ⟨0x0204, 3, 77, 9⟩ :: [⟨0x0203, 1, 2, 3⟩] ∧ (faulty (up .run)).dev.state ≠ .fault ∧
    (faulty (up .run)).dev.cmds = [] ∧ 0x0204 < 65536 ∧ (faulty (up .run)).time.running = true ∧
    (faulty (up .run)).cycle ≠ (faulty (up .run)).time.lastCycle ∧ (faulty (up .run)).dict.waiting = [] ∧
    (faulty stopped).time.running = false ∧ (faulty stopped).dev.deviceFaults = ⟨0x0204, 3, 77, 9⟩ :: [⟨0x0203, 1, 2, 3⟩] ∧
    ({ up .run with time := { (up .run).time with lastCycle := (up .run).cycle } } : State).cycle = (up .run).cycle := by and_intros <;> decide +kernel
/-- A clock that stands still, and a stop demand. -/
def demanded : State := { stopped with dev := { stopped.dev with stopDemand := true } }
theorem test_premises_cycleStarts : MaySend .pcie 0x13 (faulty (up .run)) ∧ commandRow .pcie none 0 0x13 = some (.stopReq .pcie) ∧
    (up .run).dev.phase = .up ∧ (up .run).dev.cmds = [] ∧ (up .run).time.running = true ∧ (up .run).cycle ≠ (up .run).time.lastCycle ∧
    (up .run).dict.waiting = [] ∧ stopped.dev.phase = .up ∧ stopped.dev.cmds = [] ∧ stopped.time.running = false ∧ Quiet stopped ∧
    demanded.dev.phase = .up ∧ demanded.dev.cmds = [] ∧ demanded.time.running = false ∧ demanded.dev.deviceFaults = [] ∧
    demanded.dev.chanFaults = [] ∧ demanded.dev.shedEvent ≠ 5 ∧ demanded.dev.stopDemand = true ∧ demanded.dev.state = .run := by
  unfold MaySend Quiet; and_intros <;> decide +kernel

/-! ### Premises: writes and access -/

theorem test_premises_writeRows : writeRow (.moveStop .pcie (.axis 15) (zeros 96)) =
      some (.pcie, 0x600F, 0x14, patch (zeros 96) 0 [6]) ∧ writeRow (.camTableWrite .pcie 255 []) = some (.pcie, 0x3A03, 0x80, []) := by
  decide +kernel

theorem test_premises_writeChecks : (up .inert).served .pcie = true ∧ (up .inert).bit kSecStatus 0 = false ∧
    objRow? 0xFFFF 1 = none ∧ indexExists 0xFFFF = false ∧ objRow? 0x2000 0xFF = none ∧ indexExists 0x2000 = true ∧
    (objRow? 0x0111 0x01).map ObjRow.acc = some .ro ∧
    ((objRow? 0x8000 0x06).map fun r => decide (((up .inert).setN kAccPathLevel 0).level .pcie < lvlNeed r.lvl)) = some true ∧
    ((objRow? 0x2000 0x02).map fun r => lengthOk r 3) = some false ∧
    ((objRow? 0x1000 0x04).map fun r => (r.acc, r.writable.testBit (DevState.code .run - 1))) = some (.rws, false) ∧
    (standbyOf (up .inert)).standby = true ∧ (standbyOf (up .inert)).dev.state ≠ .service := by and_intros <;> decide +kernel

/-- TIME_SERVO, and SQ_VH, as plain objects. -/
theorem test_premises_writeAtOnce : (objRow? 0x7001 0x01).isSome = true ∧ ((objRow? 0x2000 0x06).map ObjRow.acc).isSome = true ∧
    PlainObject 0x2000 0x06 ∧ Allowed .pcie 0x2000 0x06 [1] (writeOwn .pcie 0x2000 0x06 [1]) (up .inert) ∧
    Direct 0x2000 0x06 (up .inert) := by
  refine ⟨by decide +kernel, by decide +kernel, by unfold PlainObject; decide, by unfold Allowed; decide +kernel, direct_of (by decide +kernel)⟩

theorem test_premises_staged : (objRow? 0x1000 0x04).map (fun r => (r.acc, r.writable.testBit 1)) = some (.rws, true) ∧
    (up .config).dev.state = .config ∧ (up .config).staged.isSome = true ∧
    Allowed .pcie 0x1000 0x04 (le 2 7) (writeOwn .pcie 0x1000 0x04 (le 2 7)) (up .config) := by
  unfold Allowed; and_intros <;> decide +kernel

/-- Writes that are accepted in RUN and wait, by several rows. -/
theorem test_premises_applyCycle : writeRow (.cntSel .pcie 0 (zeros 6)) = some (.pcie, 0x5410, 8, zeros 6) ∧ (objRow? 0x5410 8).isSome = true ∧
    (tier3 .run).isIn [.sync, .ready, .run, .hold, .degraded] = true ∧ (up .run).paired = false ∧
    Allowed .pcie 0x5410 8 (zeros 6) (writeOwn .pcie 0x5410 8 (zeros 6)) (tier3 .run) ∧
    (waiting (up .run) kTimeServo [1]).dict.pendingWrites = ⟨.pcie, kTimeServo, [1], (up .run).cycle⟩ :: [] ∧
    (waiting (up .run) kTimeServo [1]).dev.state ≠ .config ∧
    (objRow? (keyIndex kTimeServo) (keySub kTimeServo)).isSome = true ∧ PlainObject (keyIndex kTimeServo) (keySub kTimeServo) := by
  unfold Allowed PlainObject; and_intros <;> decide +kernel

/-- A requester with seven wrong codes in the last minute, raised and with a token; and one that is locked out. -/
def coded (s : State) (f : RqSt → RqSt) : State :=
  let s := s.setN kAccECode 5
  { s with dict := { s.dict with rqs := [f (freshRq .pcie)] } }
def wrong7 : State := coded (up .run) (fun q => { q with wrong := List.replicate 7 4041, raised := 1, vUntil := some 8 })
def locked : State := coded (up .run) (fun q => { q with lockout := true })
theorem test_premises_access : wrong7.served .pcie = true ∧ writeCheck wrong7 .pcie 0x0200 0x02 (le 4 5) = 0 ∧
    (wrong7.rq .pcie).lockout = false ∧ (5 : W32).toNat = wrong7.n kAccECode ∧ (6 : W32).toNat ≠ wrong7.n kAccECode ∧
    writeCheck wrong7 .pcie 0x0200 0x05 [1] = 0 ∧ (wrong7.rq .pcie).vUntil.isSome = true ∧
    7 ≤ ((wrong7.rq .pcie).wrong.filter (fun t => decide (wrong7.recd.optime < t + 960))).length ∧
    (locked.rq .pcie).lockout = true ∧ writeCheck locked .pcie 0x0200 0x02 (le 4 5) = 0 ∧ (5 : W32).toNat = locked.n kAccECode := by
  and_intros <;> decide +kernel

/-! ### Premises: dictionary messages -/

/-- A device whose requester has a transfer or a kept response. -/
def withRq (s : State) (f : RqSt → RqSt) : State := { s with dict := { s.dict with rqs := [f (freshRq .pcie)] } }
def readXfer (n : Nat) : Xfer := ⟨0x1000, 0x1C, false, List.replicate 4000 3, true, 4000, n, false, false, 1⟩
def writeXfer (n : Nat) : Xfer := ⟨0x1000, 0x04, true, [3], false, 2000, n, false, true, 0⟩
def reading : State := withRq (up .run) (fun q => { q with xfer := some (readXfer 1) })
def writing : State := withRq (up .config) (fun q => { q with xfer := some (writeXfer 2) })

theorem test_premises_heard : Heard .pcie message0 (up .run) := heard_pcie (by and_intros <;> decide +kernel)
theorem test_premises_heard_reading : Heard .pcie { message0 with op := 3, index := 0x1000, sub := 0x1C, param := 1 } reading :=
  heard_pcie (by and_intros <;> decide +kernel)
theorem test_premises_reads : readCheck 0x2000 0x0B (up .run) = 0 ∧
    (up .run).mailbox? 0x2000 0x0B = none ∧ (up .run).queue? 0x2000 0x0B = none ∧ readCheck 0xFFFF 0x01 (up .run) ≠ 0 ∧
    (objRow? 0x2000 0x0B).isSome = true ∧ (up .run).bit kSecStatus 0 = false ∧
    (reading.rq .pcie).xfer = some (readXfer 1) ∧ (readXfer 1).snapshot = true ∧ (readXfer 1).closed = false ∧
    reading.segSize .pcie * ((readXfer 1).next + 1) < (readXfer 1).total := by and_intros <;> decide +kernel

theorem test_premises_heard_open : Heard .pcie { message0 with flags := 0, index := 0x1000, sub := 4 } (up .config) :=
  heard_pcie (by and_intros <;> decide +kernel)
def segWriteMessage (p : W32) : DictMsg := { message0 with op := 4, flags := 0, index := 0x1000, sub := 4, param := p }
theorem test_premises_heard_writing : Heard .pcie (segWriteMessage 2) writing ∧ Heard .pcie (segWriteMessage 1) writing ∧
    Heard .pcie (segWriteMessage 0) writing :=
  ⟨heard_pcie (by and_intros <;> decide +kernel), heard_pcie (by and_intros <;> decide +kernel),
    heard_pcie (by and_intros <;> decide +kernel)⟩
theorem test_premises_transfers : ((up .config).rq .pcie).xfer = none ∧ (up .config).xferBusy .pcie 0x1000 4 = false ∧
    (up .config).openXfers < 16 ∧ (writing.rq .pcie).xfer = some (writeXfer 2) ∧ (2 : W32).toNat = (writeXfer 2).next ∧
    2 ≤ (writeXfer 2).next ∧ (1 : W32).toNat + 1 = (writeXfer 2).next ∧ (0 : W32).toNat ≠ (writeXfer 2).next ∧
    ¬ (2 ≤ (writeXfer 2).next ∧ (0 : W32).toNat + 1 = (writeXfer 2).next) := by and_intros <;> decide +kernel

def servoMessage (p : W32) : DictMsg := { message0 with op := 2, sub := 6, param := p, data := [1] }
theorem test_premises_heard_servo : Heard .pcie (servoMessage 1) (up .inert) ∧ Heard .pcie (servoMessage 2) (up .inert) :=
  ⟨heard_pcie (by and_intros <;> decide +kernel), heard_pcie (by and_intros <;> decide +kernel)⟩
theorem test_premises_servo_direct : Direct 0x2000 6 (up .inert) := direct_of (by decide +kernel)
theorem test_premises_writeMessage : (servoMessage 1).flags.toNat.testBit 0 = true ∧
    (objRow? 0x2000 6).isSome = true ∧ PlainObject 0x2000 6 ∧ (servoMessage 1).data.length = (servoMessage 1).param.toNat ∧
    Allowed .pcie 0x2000 6 [1] (writeOwn .pcie 0x2000 6 [1]) (up .inert) ∧
    (servoMessage 2).data.length ≠ (servoMessage 2).param.toNat := by unfold Allowed PlainObject; and_intros <;> decide +kernel

def repeated : State := withRq (up .run) (fun q => { q with tid := some 7, response := some message0 })
theorem test_premises_repeat : repeated.served .pcie = true ∧ (repeated.rq .pcie).tid = some message0.tid.toNat ∧
    (repeated.rq .pcie).response = some message0 ∧ (∀ ip port, Requester.pcie ≠ .session ip port) ∧
    (∀ r n, Requester.pcie = .node r n → message0.dest.toNat = repeated.ownAddr) :=
  ⟨by decide +kernel, by decide +kernel, by decide +kernel, nofun, nofun⟩

/-- An own request with `n` resends. -/
def asked (n : Nat) : OutReq := ⟨⟨.m, 0, 3⟩, 5, message0, n, true⟩
def asking (n : Nat) : State := { up .run with dict := { (up .run).dict with outReqs := [asked n] } }
theorem test_premises_ownRequests : (asking 0).dict.outReqs = [asked 0] ∧ (asked 0).sent = true ∧ (asked 0).tid < 65536 ∧
    { message0 with tid := 5 }.tid.toNat = (asked 0).tid ∧ message0.tid.toNat ≠ (asked 0).tid ∧
    (asked 2).resends < (asking 2).n kDictRetry ∧ (asking 255).n kDictRetry ≤ (asked 255).resends ∧
    ((asking 255).ring .m).rec? (asked 255).key.toAddr.toNat = none := by and_intros <;> decide +kernel

/-- The service port with `n` sessions. -/
def serving (n : Nat) : State :=
  let s := (up .run).setN kSvcIp 5
  { s with dict := { s.dict with sessions := (List.range n).map (fun i => ⟨i, BitVec.ofNat 32 (i + 5), 9, 4900⟩) } }
theorem test_premises_servicePort : (serving 0).svcUp = true ∧ (5 : W32).toNat = (serving 0).n kSvcIp ∧
    (6 : W32).toNat ≠ (serving 0).n kSvcIp ∧ (47119 : W16).toNat ≠ 47120 ∧ (serving 0).served (.session 5 9) = true ∧
    (serving 0).svcServes = true ∧ (serving 0).dict.sessions = [] ∧ ((serving 0).rq (.session 5 9)).tid = none ∧
    ((serving 0).rq (.session 5 9)).openReq = none ∧ (serving 0).n kShedStage = 0 ∧ { message0 with op := 6 }.op = 6 ∧
    message0.data.length ≤ 1024 ∧ (serving 8).served (.session 13 9) = true ∧ (serving 8).svcServes = true ∧
    (serving 8).dict.sessions.any (fun x => decide (x.ip = 13) && decide (x.port = 9)) = false ∧
    (∀ i, i < 8 → (serving 8).dict.sessions.any (fun x => x.slot == i) = true) := by and_intros <;> decide +kernel

/-! ### Premises: host windows -/

def hosted (f : HostSt → HostSt) (b : Bytes) : State :=
  { up .run with dict := { (up .run).dict with pcie := f { (up .run).dict.pcie with reqBuf := b } } }
theorem test_premises_doorbell : (up .run).windowUp .pcie = true ∧ (0 : W32) ≠ 1 ∧
    ((hosted (fun h => { h with status := 16 }) []).host .pcie).status.testBit 4 = true ∧
    let s := hosted id (msgBytes { message0 with op := 6 })
    (s.windowUp .pcie = true ∧ (s.host .pcie).status.testBit 4 = false ∧ (parseMsg (s.host .pcie).reqBuf).op = 6 ∧
      (parseMsg (s.host .pcie).reqBuf).data.length ≤ 1024 ∧ (s.rq (pathRq .pcie)).tid ≠ some (parseMsg (s.host .pcie).reqBuf).tid.toNat ∧
      (s.rq (pathRq .pcie)).openReq = none ∧ s.n kShedStage = 0) := by and_intros <;> decide +kernel
/-- HOST_MAP with one entry of two words (CYCLE_NUM) and one of one word. -/
def mapped : State := (up .run).setObj kHostMap (le 2 0x2000 ++ le 2 0x0B ++ le 2 0x2000 ++ le 2 0x07 ++ zeros 8)
theorem test_premises_window : mapped.windowUp .pcie = true ∧ mapped.windowUp .spi = true ∧ (0x7FFE : W16).toNat % 4 ≠ 0 ∧
    ((mapped.entry? 0).map ObjRow.words) = some 2 ∧ (0x8000 : W16).toNat % 4 = 0 ∧ 0x8000 ≤ (0x8000 : W16).toNat ∧
    (0x8000 : W16).toNat % 16 / 4 + 1 < 2 ∧ (0x8004 : W16).toNat % 16 / 4 + 1 = 2 ∧ ((0x8004 : W16).toNat - 0x8000) / 16 = 0 ∧
    (mapped.host .pcie).latch = none := by and_intros <;> decide +kernel

def shadowed : State := withRq (up .run) (fun q => { q with shadow := some (0x18, le 8 0x700000005) })
theorem test_premises_cycleReads : (up .run).windowUp .pcie = true ∧ shadowed.windowUp .pcie = true ∧
    (shadowed.rq .pcie).shadow = some (0x18, le 8 0x700000005) ∧ ((up .run).rq .pcie).shadow = none := by and_intros <;> decide +kernel

/-- A solver result, five events in the queue and an INDIRECT read of CYCLE_NUM into `len` bytes. -/
def queued (len : Nat) : State :=
  { up .run with
    solver := { (up .run).solver with result := List.replicate 64 1 }
    dict := { (up .run).dict with
      hostEvents := List.replicate 5 (zeros 40), indirect := some ({ message0 with flags := 2 }, 5, len), exchange := [(2, 3), (6, 9)] } }
theorem test_premises_spi : (queued 8).windowUp .spi = true ∧ (9 : W16).toNat % 4 ≠ 0 ∧ (queued 8).solver.result.length = 64 ∧
    (queued 8).bit kSecStatus 0 = false ∧ (queued 8).dict.hostEvents.length ≤ 5 ∧ (∀ e ∈ (queued 8).dict.hostEvents, e.length = 40) ∧
    240 ≤ (queued 8).segSize .pcie ∧ (queued 8).dict.indirect = some ({ message0 with flags := 2 }, 5, 8) ∧
    memWf (queued 8).dict.exchange = true ∧ (up .run).dict.indirect = none := by and_intros <;> decide +kernel
theorem test_premises_heard_mailbox : Heard .pcie ((queued 8).nextRead .pcie 0x4000 0x02) (queued 8) ∧
    Heard .pcie ((queued 8).nextRead .pcie 0x0112 0x01) (queued 8) :=
  ⟨heard_pcie (by and_intros <;> decide +kernel), heard_pcie (by and_intros <;> decide +kernel)⟩

/-! ### Premises: Wadra rings -/

/-- A state with one node of ring M at address 5. -/
def noded (st : NState) (run : Nat) (last : Option Nat) : State :=
  { up .run with rings := { (up .run).rings with
      nodes := [{ freshNode .m 5 with state := st, syncRun := run, lastSync := last, ttId := 3, event := some (List.replicate 20 7),
                                      east := ⟨true, false, false⟩, cmdP := none }] } }
/-- A SYNC frame that names cycle 1. -/
def sync1 : Frame := { frame0 with type := 0, mpos := 5, payload := time96 (250000 * 65536) ++ [2] ++ zeros 31 }
theorem test_premises_nodes : (zeros 8).length = 8 ∧ ((noded .locked 0 none).node .m 5).state = .locked ∧
    ((noded .excluded 0 none).node .m 5).state = .excluded ∧ (zeros 7).length ≠ 8 ∧ ((noded .measured 0 none).node .m 5).state = .measured ∧
    num (le 2 5 ++ zeros 4 ++ le 2 3) 0 2 = 5 ∧ num (le 2 5 ++ zeros 4 ++ le 2 3) 6 2 = ((noded .measured 0 none).node .m 5).ttId ∧
    num (le 2 6 ++ zeros 4 ++ le 2 3) 0 2 ≠ 5 ∧ ((noded .integrated 0 none).node .m 5).state = .integrated ∧
    ((noded .listen 7 (some 0)).node .m 5).state = .listen ∧ ((noded .listen 7 (some 0)).node .m 5).cs = .listen ∧ ((noded .listen 7 (some 0)).node .m 5).syncRun = 7 ∧
    ((noded .listen 7 (some 0)).node .m 5).lastSync = some sync1.seq.toNat ∧ sync1.seq.toNat + 1 < 2 ^ 32 ∧
    syncConsistent { sync1 with seq := sync1.seq + 1 } = true ∧ sync1.mpos.toNat % 64 ≠ 0 ∧
    ((noded .assigned 0 none).node .m 5).state = .assigned ∧ frame0.mpos.toNat % 64 = 0 ∧ (0 : Byte) ≠ 1 := by and_intros <;> decide +kernel

/-- Ring M in a state of the cold start. -/
def ringAt (c : CsState) : State := (up .run).setRing .m { (up .run).rings.m with cs := c }
theorem test_premises_coldStart : ∀ c ∈ [CsState.listen, .coldstart, .backoff, .integrate], ((ringAt c).ring .m).cs = c := by decide +kernel
theorem test_premises_coldStart_frames : (ringAt .listen).ownAddr < (5 : BitVec 10).toNat ∧
    (BitVec.ofNat 10 (ringAt .listen).ownAddr).toNat = (ringAt .listen).ownAddr ∧ startSerial frame0 ≠ 1 ∧
    (0 : BitVec 10).toNat < (standbyOf { up .run with pair := { (up .run).pair with active := false } }).ownAddr ∧
    (1 : BitVec 10).toNat ≤ 1 := by and_intros <;> decide +kernel
/-- A head unit that has counted seven SYNC frames of an interim head, and a capable node of the cold start. -/
def following : State := let s := ringAt .integrate; s.setRing .m { s.rings.m with syncRun := 7, lastSync := some sync1.seq.toNat }
def capableNode (c : CsState) : State :=
  let s := (noded .listen 0 none).setObj (kCsNodes 0) (le 2 5)
  s.setNode { s.node .m 5 with cs := c }
theorem test_premises_coldStart_sync : (following.ring .m).cs = .integrate ∧ (following.ring .m).syncRun = 7 ∧
    (following.ring .m).lastSync = some sync1.seq.toNat ∧ { sync1 with addr := 1 }.addr.toNat ≤ 1 ∧ following.pair.rejoining = false ∧
    syncConsistent { { sync1 with addr := 1 } with seq := sync1.seq + 1 } = true ∧
    (∀ c ∈ [CsState.listen, .coldstart, .backoff], (capableNode c).capable .m 5 = true ∧ ((capableNode c).node .m 5).cs = c) := by
  and_intros <;> decide +kernel

/-- An inbound slot, an excluded one and a timetable with a NODE, an ACTIVE and a data slot of this unit. -/
def slotRec (slot cls addr ftype fl : Nat) : Bytes :=
  le 2 slot ++ le 2 (addr + cls * 1024) ++ le 2 100 ++ le 2 50 ++ le 2 64 ++ [0, 0] ++ le 1 ftype ++ le 1 fl ++ [0, 0]
def nodeRec (st : NState) (consec : Nat) : NodeRec :=
  { addr := 5, heard := true, state := st, barred := false, consec := consec, viol := 0, exclusions := [], writtenA := 0, writtenB := 0,
    compA := 0, compB := 0, fwdA := 0, fwdB := 0, rhoA := none, rhoB := none, offRun := 0, sawGood := false, sawBad := false, sends := true,
    substituted := false, rejoining := false, dup := false }
def running (st : NState) (consec : Nat) : State :=
  let s := ((up .run).setObj (kTtSlots 0) (slotRec 1 0 5 1 0 ++ slotRec 2 1 0 1 1 ++ slotRec 3 1 0 1 0)).setObj (kNodeOrder 0) (le 2 5)
  let s := s.setObj kSlotMap (le 2 1 ++ le 2 0 ++ le 2 4 ++ le 2 0x3000 ++ [0x0C, 1] ++ le 2 5 ++ [0] ++ zeros 3)
  { s with
    pair := { s.pair with passThrough := false }
    rings := { s.rings with
      m := { s.rings.m with cs := .running, nodes := [nodeRec st consec], syncFrom := 0,
                            exchanges := [⟨5, 1, false, some 3, false, .round⟩, ⟨5, 2, true, some 3, true, .round⟩], exch := 2,
                            own := [⟨.west, 1, 0, 0⟩] } } }
def dataSlot (o : OutSlot) : State := let s := running .integrated 0; s.setRing .m { s.rings.m with out := [o] }
theorem test_premises_frames : (running .integrated 0).dev.phase = .up ∧ portRing .me = some (.m, 0) ∧
    (up .run).pair.passThrough = true ∧ (running .integrated 0).pair.passThrough = false ∧ num (zeros 16) 14 2 ≠ hcrc ((zeros 16).take 14) ∧
    (zeros 15).length < 16 ∧ (num (zeros 14 ++ le 2 (hcrc (zeros 14))) 14 2 = hcrc (zeros 14)) ∧
    16 ≤ (zeros 14 ++ le 2 (hcrc (zeros 14))).length ∧ frameBodyOk (zeros 14 ++ le 2 (hcrc (zeros 14))) 0 true = false := by
  and_intros <;> decide +kernel
/-- Valid frames: a SYNC, and DATA of the present cycle and of another. -/
def frameNow (n : Nat) : Frame := { frame0 with seq := BitVec.ofNat 32 n }
def unmeasured (k : Option Nat) : State :=
  let s := running .integrated 0
  s.setRing .m { s.rings.m with measured := false, inb := [{ (s.rings.m.inSlot 1) with kept := k }] }
theorem test_premises_frames_valid : (∀ f ∈ [sync1, frameNow 0, frameNow 9],
      num (frameBytes f) 14 2 = hcrc ((frameBytes f).take 14) ∧ 16 ≤ (frameBytes f).length ∧ frameBodyOk (frameBytes f) 0 true = true ∧
      parseFrame .m (frameBytes f) = f) ∧ sync1.type = 0 ∧ (frameNow 0).type = 1 ∧
    ((unmeasured none).ring .m).measured = false ∧ (unmeasured none).pair.passThrough = false ∧ (unmeasured none).time.fifos.length = 6 ∧
    (unmeasured none).fifoFull (portCode .me) = false ∧ (unmeasured none).dev.phase = .up ∧
    (frameNow (unmeasured none).cycle).seq.toNat = (unmeasured none).cycle % 2 ^ 32 ∧
    ((unmeasured none).ring .m).inSlot 1 = { ((unmeasured none).ring .m).inSlot 1 with kept := none } ∧
    (((unmeasured (some 3)).ring .m).inSlot 1).kept = some 3 ∧ (frameNow 9).seq.toNat ≠ (unmeasured none).cycle % 2 ^ 32 := by
  and_intros <;> decide +kernel

theorem test_premises_dataFrames_seq : (let s := running .integrated 0
      s.seqExpected (frameNow s.cycle) = true ∧ s.seqExpected (frameNow 9) = false ∧ ((s.ring .m).inSlot 1).taken ≠ some (frameNow s.cycle).seq.toNat ∧
      s.pair.passThrough = false) ∧
    ((let s := running .integrated 0
      s.setRing .m { s.rings.m with inb := [{ (s.rings.m.inSlot 1) with taken := some 0 }] } : State).ring .m).inSlot 1 =
      { ((running .integrated 0).rings.m.inSlot 1) with taken := some 0 } := by and_intros <;> decide +kernel
theorem test_premises_dataFrames : (running .integrated 0).connRecs = [] ∧ (running .integrated 0).safe.bt = none ∧
    (running .integrated 0).rxOf .m 4 = [] ∧ ((running .integrated 0).rxOf .m 1).length = 1 ∧
    ((running .integrated 0).rxOf .m 1).all (fun p => !p.2.token && decide (p.2.index < 0x3900) &&
      decide (objKey p.2.index p.2.sub ≠ kSafeConn) && rxOk p.2 (slice (le 4 0x3C23D70A) p.2.off p.2.len)) = true ∧
    ((running .integrated 0).rxOf .m 1).all (fun p => !rxOk p.2 (slice (le 4 0x7FC00000) p.2.off p.2.len)) = true := by
  and_intros <;> decide +kernel

theorem test_premises_nodeSlot : ∀ n ∈ [0, 2, 254], (running .integrated n).sends .m = true ∧
    ((running .integrated n).slots .m).find? (fun e => e.slot == 1) = (slotsOf (slotRec 1 0 5 1 0)).head? ∧
    ((slotsOf (slotRec 1 0 5 1 0)).all fun e => e.occurs (running .integrated n).cycle && e.cls == 0 && e.addr == 5) = true ∧
    ((running .integrated n).ring .m).rec? 5 = some (nodeRec .integrated n) ∧ (nodeRec .integrated n).substituted = false ∧ (nodeRec .integrated n).sends = true ∧
    (running .integrated n).standby = false ∧ ((running .integrated n).ring .m).changing (running .integrated n).cycle = false := by
  decide +kernel
theorem test_premises_nodeSlot_change : let s := running .integrated 2
    ((s.setRing .m { s.rings.m with changeAt := some (s.cycle - 1) }).ring .m).changing s.cycle = true := by decide +kernel

/-- Buffers of slots 2 and 3: fresh data; old data; none. -/
def buf (slot : Nat) (c : Option (Nat × Bytes)) (fresh : Bool) (l : Option (Bytes × Nat)) : OutSlot :=
  { slot := slot, building := none, complete := c, fresh := fresh, lastData := l, sent := none, sel := none }
theorem test_premises_dataSlot : (up .run).sends .m = false ∧ (running .integrated 0).paired = false ∧
    ((running .integrated 0).slots .m).find? (fun e => e.slot == 2) = (slotsOf (slotRec 2 1 0 1 1)).head? ∧
    ((slotsOf (slotRec 2 1 0 1 1)).all fun e => e.occurs (running .integrated 0).cycle && e.cls == 1 && e.ftype == 1) = true ∧
    ((dataSlot (buf 2 (some (3, [1, 2])) true none)).ring .m).outSlot 2 = buf 2 (some (3, [1, 2])) true none ∧
    (let s := dataSlot (buf 2 none false (some ([9], (running .integrated 0).cycle - 1)))
     ((slotsOf (slotRec 2 1 0 1 1)).all fun e => privileged s.conf 0 e) = true ∧ min (s.cycle - (s.cycle - 1)) 255 ≤ s.n (kRepeatMax 0)) ∧
    ((slotsOf (slotRec 3 1 0 1 0)).all fun e => !privileged (running .integrated 0).conf 0 e) = true := by and_intros <;> decide +kernel

/-- A delay frame. -/
def delayFrame (op target exch : Nat) : Frame :=
  { frame0 with type := 5, slot := 0, payload := le 1 op ++ [0] ++ le 2 target ++ le 4 exch ++ zeros 50 }
theorem test_premises_delays : ((running .listen 0).ring .m).cs = .running ∧ ((running .listen 0).order .m).isEmpty = false ∧
    (running .listen 0).n (kHeadPos 0) = 0 ∧ ((ringAt .listen).ring .m).cs ≠ .running ∧ num (delayFrame 1 5 1).payload 0 1 = 1 ∧
    ((running .listen 0).ring .m).exchanges.find? (fun e => e.target == num (delayFrame 1 5 2).payload 2 2 % 1024 &&
      e.exch == num (delayFrame 1 5 2).payload 4 4) = some ⟨5, 2, true, some 3, true, .round⟩ ∧
    (⟨5, 2, true, some 3, true, .round⟩ : DelayEx).answered = true ∧ num (delayFrame 0 0 9).payload 0 1 = 0 ∧
    num (delayFrame 0 0 9).payload 2 2 % 1024 = (running .listen 0).ownAddr ∧ (running .listen 0).pair.passThrough = false ∧
    (running .listen 0).fifoFull (arrivalPort .m .a) = false ∧ num (delayFrame 0 5 9).payload 2 2 % 1024 = 5 ∧
    (let s := running .listen 0
     ((s.setRing .m { s.rings.m with exchanges := [] }).ring .m).exchanges = []) ∧
    ((noded .locked 0 none).node .m 5).state ≠ .listen := by and_intros <;> decide +kernel
/-- Two open exchanges: one is answered, the other stays. -/
def measuring : State :=
  let s := running .listen 0
  s.setRing .m { s.rings.m with exchanges := [⟨5, 1, false, some 3, false, .round⟩, ⟨5, 2, true, some 3, false, .round⟩] }
theorem test_premises_delays_open : (measuring.ring .m).exchanges.find? (fun e => e.target == num (delayFrame 1 5 1).payload 2 2 % 1024 &&
      e.exch == num (delayFrame 1 5 1).payload 4 4) = some ⟨5, 1, false, some 3, false, .round⟩ ∧
    (∃ y ∈ (measuring.ring .m).exchanges, y.answered = false ∧ 2 ≤ y.target ∧ y.kind = .round ∧ y.exch ≠ 1) ∧ (measuring.ring .m).rec? 5 = some (nodeRec .listen 0) := by
  and_intros <;> decide +kernel

/-- An event of node 5. -/
def eventFrame : Frame := { frame0 with type := 7, slot := 0, payload := le 2 0x1234 ++ zeros 14 }
/-- A loop without a pattern. -/
def looping : State :=
  let s := running .integrated 0
  s.setRing .m { s.rings.m with loops := [⟨5, false, 3, false⟩] }
theorem test_premises_links : (((noded .listen 0 none).node .m 5).port .east).sync = true ∧
    ((running .integrated 0).ring .m).own.any (fun o => decide (o.side = .west)) = true ∧
    ((running .integrated 0).ring .m).own.any (fun o => decide (o.side = .east)) = false ∧
    ((running .integrated 0).ring .m).loops = [] ∧ (looping.ring .m).loops = [⟨5, false, 3, false⟩] ∧
    (running .integrated 0).mayInsert .m true ((running .integrated 0).ring .m).insA ((running .integrated 0).arbStart .m true) true eventFrame = true ∧
    (running .integrated 0).mayInsert .m true ((running .integrated 0).ring .m).insA ((running .integrated 0).arbStart .m true) false eventFrame = false ∧
    (running .integrated 0).sends .m = true ∧ ((running .integrated 0).originLegs .m).any (fun l => l.1 == .a) = true ∧
    eventFrame.type ≠ 9 ∧ (running .integrated 0).headFrame .m .a eventFrame = some eventFrame ∧ (6 : Nat) ∉ [5, 7, 9] ∧
    nodeMaySend (noded .listen 0 none |>.node .m 5) .a 7 = false ∧ (let s := running .integrated 0
      let s : State := { s with dict := { s.dict with ringOut := [(.m, 5, message0)] } }
      s.goesOn .m 5 .a = true ∧ (s.headFrame .m .a { eventFrame with type := 5 }).isSome = true ∧
        (s.popRingOut .m .a s.dict.ringOut).2 = []) ∧ (((let s := running .integrated 0
      s.setRing .m (s.rings.m.setPort .east ⟨true, false, false⟩) : State).ring .m).port .east).sync = true ∧
    ((running .integrated 0).ring .m).fbt = none ∧
    (let s := noded .integrated 0 none
     ((s.setNode { s.node .m 5 with own := [⟨.west, 1, 0, 0⟩] }).node .m 5).own.any (fun o => decide (o.side = .west)) = true) := by
  and_intros <;> decide +kernel

/-- A device that has seen it. -/
def seen : State := { up .run with dict := { (up .run).dict with seen := [⟨5, 0x1234, zeros 12⟩] } }
theorem test_premises_events : (up .run).dev.phase = .up ∧ 16 ≤ eventFrame.payload.length ∧ eventFrame.flags.toNat.testBit 3 = false ∧
    (up .run).standby = false ∧ (up .run).dict.eventXfers = [] ∧ (up .run).dict.hostEvents.length < 256 ∧
    (up .run).dict.seen.contains ⟨eventFrame.addr.toNat, num eventFrame.payload 0 2, slice eventFrame.payload 4 12⟩ = false ∧
    seen.dict.seen.contains ⟨eventFrame.addr.toNat, num eventFrame.payload 0 2, slice eventFrame.payload 4 12⟩ = true ∧
    num eventFrame.payload 0 2 ≠ 0xFF01 ∧ num eventFrame.payload 0 2 ≠ 0xFF02 ∧ (8 : Byte).toNat.testBit 3 = true ∧
    ((noded .listen 0 none).node .m 5).event = some (List.replicate 20 7) ∧ ((noded .listen 0 none).node .m 5).resends < 4 ∧
    (let s := running .integrated 0
     ((s.setRing .m { s.rings.m with events := [List.replicate 20 7] }).ring .m).events = List.replicate 20 7 :: []) ∧
    (BitVec.ofNat 10 (up .run).ownAddr).toNat = (up .run).ownAddr ∧
    ((running .excluded 0).ring .m).rec? (5 : BitVec 10).toNat = some (nodeRec .excluded 0) ∧ (nodeRec .excluded 0).barred = false ∧
    (up .run).paired = false ∧ (ownerOf (running .integrated 0)).paired = true ∧
    (ownerOf (running .integrated 0)).rings.m.rec? 5 = some (nodeRec .integrated 0) ∧ num (le 2 5 ++ [4] ++ zeros 13) 2 1 = 4 := by
  and_intros <;> decide +kernel

/-! ### Premises: the pair -/

/-- A redundant unit with its claim state, its RED_STATUS and its partner's line. -/
def claiming (c rs : Nat) (peer : Bool) : State :=
  let s := ((up .run).setN kRedClaimState c).setN kRedStatus rs
  { s with pair := { s.pair with peer := peer, fromWait := true } }
/-- A swap is due at the present cycle start: both units are healthy and in step. -/
def swapped (c : Nat) : State :=
  let s := (((claiming c 2 true).setN kRedPartner 1).setObj kRedPeerHb (patch (zeros 32) 0 [5])).setN kRedSwapAdvise 0
  { s with pair := { s.pair with swapAt := some s.cycle, peerInfo := none, active := decide (c = 3) } }
theorem test_premises_claim : (∀ c ∈ [0, 1, 2, 3, 4], (claiming c 0 true).n kRedClaimState = c ∧ (claiming c 0 true).pair.swapAt = none) ∧
    (claiming 3 0 true).cellQ ≤ ({ claiming 3 0 true with pair := { (claiming 3 0 true).pair with claimedAt := (claiming 3 0 true).cellQ } }).pair.claimedAt + 500 * 65536 ∧
    (claiming 3 0 true).pair.claimedAt + 500 * 65536 < (claiming 3 0 true).cellQ ∧ (claiming 2 0 false).pair.peer = false ∧
    (claiming 2 0 true).pair.peer = true ∧ (claiming 2 0 false).pair.fromWait = true ∧ (claiming 3 0 true).dev.phase = .up ∧
    (up .fault).dev.state = .fault := by and_intros <;> decide +kernel
theorem test_premises_swapInstant : (∀ c ∈ [1, 3], (swapped c).pair.swapAt = some (swapped c).cycle ∧ (swapped c).swapRefusal = 0) ∧
    (let s := swapped 3
     let t := { s with pair := { s.pair with swapAt := some (s.cycle + 1) } }
     t.cycle < s.cycle + 1 ∧ t.swapRefusal = 0) ∧
    ({ swapped 3 with dev := { (swapped 3).dev with state := .inert } }).swapRefusal ≠ 0 ∧ (claiming 3 0 true).pair.swapAt = none ∧
    (swapped 3).n kRedSwapAdvise ≤ (swapped 3).sinceSwap ∧
    ((swapped 3).setN kRedSwapAdvise 1000000).sinceSwap < ((swapped 3).setN kRedSwapAdvise 1000000).n kRedSwapAdvise := by
  and_intros <;> decide +kernel
theorem test_premises_detach : (claiming 3 0x80 true).owner = true ∧ (claiming 3 0x80 true).bit kRedStatus 7 = true ∧
    (claiming 3 0x80 true).pair.rejoining = false ∧ (claiming 3 0x80 true).pair.detachAt = none ∧
    (let s := claiming 3 0 true
     let t := { s with pair := { s.pair with detachAt := some s.cycle, partnerDetachAt := some s.cycle, rejoining := true, gridAt := some 1 } }
     (∃ d, t.pair.detachAt = some d ∧ d ≤ t.cycle) ∧ (∃ d, t.pair.partnerDetachAt = some d ∧ d ≤ t.cycle) ∧ t.pair.rejoining = true ∧
       t.pair.gridAt.isSome = true ∧ t.cycle < t.cycle + 1) :=
  ⟨by decide +kernel, by decide +kernel, by decide +kernel, by decide +kernel, ⟨_, rfl, Nat.le_refl _⟩, ⟨_, rfl, Nat.le_refl _⟩, rfl, rfl, Nat.lt_succ_self _⟩

/-- A unit of a pair: a path's run of heartbeats, a link sequence number and one forwarded request. -/
def linked (s : State) (rs run : Nat) (cseq : Option Nat) (due : Nat) : State :=
  let s := s.setN kRedStatus rs
  { s with pair := { s.pair with peer := true, link := { s.pair.link with okRun := run }, cseqIn := cseq, heardSinceClaim := false,
                                 forwarded := [⟨4, s.cycle + due⟩] } }
def beat : Frame := { frame0 with type := 9, seq := BitVec.ofNat 32 (up .run).cycle, payload := [5, 0, 1, 0] ++ zeros 12 }
def request (n : Nat) : Frame := { frame0 with type := 9, payload := le 4 n ++ le 4 0 ++ msgBytes { message0 with op := 2, sub := 4, data := [1, 0], param := 2 } }
theorem test_premises_pairTraffic : (linked (ownerOf (up .run)) 0 3 none 1).paired = true ∧ (up .run).paired = false ∧
    beat.seq.toNat = (linked (ownerOf (up .run)) 0 3 none 1).cycle % 2 ^ 32 ∧ ((linked (ownerOf (up .run)) 0 3 none 1).pair.path .link).lastSeq ≠ some beat.seq.toNat ∧
    3 ≤ ((linked (ownerOf (up .run)) 0 3 none 1).pair.path .link).okRun ∧
    (linked (ownerOf (up .run)) 0 3 none 1).owner = true ∧ num beat.payload 1 1 = 0 ∧
    num (patch beat.payload 1 [1]) 1 1 = 1 ∧ (linked (ownerOf (up .run)) 0 3 none 1).bit kRedStatus 7 = false ∧
    (linked (ownerOf (up .run)) 0 3 none 1).bit kRedStatus (hbBit .link) = false ∧
    (linked (ownerOf (up .run)) 0x10 3 none 1).bit kRedStatus (7 - hbBit .link) = true ∧
    (linked (ownerOf (up .run)) 0x10 3 none 1).bit kRedStatus (hbBit .link) = false ∧
    (linked (standbyOf (up .run)) 0x10 3 none 1).standby = true ∧ (linked (standbyOf (up .run)) 0x10 3 none 1).pair.peer = true ∧
    (linked (ownerOf (up .run)) 0 3 none 1).pair.heardSinceClaim = false ∧ (linked (standbyOf (up .run)) 0 3 none 1).owner = false ∧
    (parseMsg ((request 5).payload.drop 8)).op = 2 ∧
    objKey (parseMsg ((request 5).payload.drop 8)).index.toNat (parseMsg ((request 5).payload.drop 8)).sub.toNat ≠ kDevCmd := by
  and_intros <;> decide +kernel
theorem test_premises_pairTraffic_cseq : num (request 5).payload 0 4 = (4 + 1) % 2 ^ 32 ∧ num (request 6).payload 0 4 ≠ (4 + 1) % 2 ^ 32 ∧
    (linked (standbyOf (up .run)) 0 3 (some 4) 1).pair.cseqIn = some 4 ∧ (linked (standbyOf (up .run)) 0 3 none 1).pair.cseqIn = none ∧
    (linked (ownerOf (up .run)) 0 3 none 1).pair.forwarded = [⟨4, (up .run).cycle + 1⟩] ∧
    (∀ x ∈ (linked (ownerOf (up .run)) 0 3 none 2).pair.forwarded, (linked (ownerOf (up .run)) 0 3 none 2).cycle + 1 < x.applyCycle) := by
  and_intros <;> decide +kernel

/-! ### Premises: motion, Square, solver and Junction -/

theorem test_premises_motion : (up .run).motion.arms.length = 8 ∧
    (∀ k ∈ [kMoveCmd 0, kJogCmd 7, kGrpCmd 3, kHcCtrl 31, kCrReq 7],
      ∃ w, (waiting (up .run) k (le 4 5)).dict.pendingWrites = [w] ∧ w.applyCycle ≤ (waiting (up .run) k (le 4 5)).cycle ∧ w.key = k ∧
        w.data.length = 4 ∧ leVal w.data ≠ 0) ∧ leVal (zeros 4) = 0 :=
  ⟨by decide +kernel, fun _ _ => ⟨_, rfl, Nat.le_refl _, rfl, rfl, (by decide +kernel : leVal (le 4 5) ≠ 0)⟩, by decide +kernel⟩
/-- Tier 3, in use. -/
def whole : State := { (up .run).setN kTierLimit 3 with dev := { (up .run).dev with tierInUse := 3 } }
theorem test_premises_square : whole.squareOn = true ∧ (up .inert).squareOn = false ∧ whole.square.doneCycle ≠ some whole.cycle ∧
    whole.dev.phase = .up ∧ whole.square.late = false ∧ ({ whole with square := { whole.square with late := true } }).square.late = true ∧
    whole.groupOf 7 = none ∧ whole.square.releasing.length = 8 ∧ whole.held 7 = 0 ∧ whole.solves = true ∧ (up .inert).solves = false ∧
    ({ whole with solver := { whole.solver with fbRun := 2 } }).solves = true := by and_intros <;> decide +kernel

/-- User templates 0x80 (Street 0) and 0x81 (an RX deadline of 20 µs), the graph running with the given instances. -/
def tmplRec (kernel prio home rx : Nat) : Bytes :=
  le 1 kernel ++ le 1 prio ++ le 1 home ++ [1] ++ le 4 500 ++ le 4 40000 ++ le 4 rx ++ le 4 0 ++ le 2 8 ++ zeros 10
def portOf (c l : Option Tok) : JPort := { cur := c, nxt := none, subst := false, last := l, age := 0 }
def tok (n : Byte) : Tok := ⟨[n, 0, 0, 0], false, false, 0, none⟩
def instOf (id tmpl tag : Nat) (ports : List JPort) : InstSt :=
  { id := id, tmpl := tmpl, param := 0, tag := tag, ports := ports, block := zeros 8, late := 7, consec := 2, outs := none,
    aborted := false, stolen := false, lost := false }
def graph (insts : List InstSt) : State :=
  let s := ((up .run).setObj kJnTemplates (tmplRec 0x80 1 0 0 ++ tmplRec 0x81 2 3 20000)).setN kJnStreets 0xFF
  let s := s.setObj kSlotMap (le 2 1 ++ le 2 0 ++ le 2 4 ++ le 2 0x2000 ++ [4, 1] ++ le 2 5 ++ le 1 2 ++ le 2 301 ++ le 1 0)
  let s := s.setObj kJnEdges ([1, 0] ++ le 2 0 ++ [0, 0] ++ le 2 301 ++ zeros 4)
  { s with jn := { s.jn with running := true, insts := insts } }
def nowTag : Nat := (up .run).cycle % 65536
def waitingInst : InstSt := instOf 300 0x80 nowTag [portOf none none]
def twoPorts (l : Option Tok) : InstSt := instOf 301 0x81 nowTag [portOf none l, portOf none none]
theorem test_premises_tokens : (graph [waitingInst]).jnOn = true ∧ (graph [waitingInst]).inst? 300 = some waitingInst ∧
    waitingInst.ports[0]? = some (portOf none none) ∧ (∃ q ∈ waitingInst.ports, q.cur = none) ∧
    (∃ q ∈ (instOf 302 0x80 nowTag [portOf (some (tok 1)) none, portOf none none]).ports, q.cur = none) ∧ 5 ≠ waitingInst.tag ∧ 5 ≠ (waitingInst.tag + 1) % 65536 ∧
    (waitingInst.tag + 1) % 65536 ≠ waitingInst.tag ∧ (portOf none none).nxt = none ∧ (portOf (some (tok 1)) none).cur.isSome = true ∧
    (∃ q ∈ (instOf 302 0x80 nowTag [portOf none none, portOf none (some (tok 1))]).ports, q.cur = none ∧ q ≠ portOf none none) ∧
    tagDue waitingInst.tag (graph []).cycle = true ∧ (graph [waitingInst]).shedInst waitingInst = false ∧
    ((graph [waitingInst]).tmpl waitingInst).release = 0 ∧ ((graph [waitingInst]).tmpl waitingInst).prio < 4 ∧
    (graph [waitingInst]).weakSlot ((graph [waitingInst]).home waitingInst) ((graph [waitingInst]).tmpl waitingInst).prio = none ∧
    (graph [waitingInst]).jn.ready.length = 32 := by and_intros <;> decide +kernel
theorem test_premises_substitution : ∀ l ∈ [none, some (tok 9)], let s := graph [twoPorts l]
    let t := { s with time := { s.time with acc := s.time.acc + 21000 * 2 ^ 24 } }
    (t.tmpl (twoPorts l)).rx ≠ 0 ∧ (t.tmpl (twoPorts l)).rx + 200 ≤ t.cellNs - t.cycle * t.tns ∧ tagDue (twoPorts l).tag t.cycle = true ∧
      t.rxPorts 301 = [(0, 4)] ∧ t.jnOn = true ∧ t.jn.insts = [twoPorts l] := by decide +kernel
/-- A fired task, delayed to tick 9; a Lane with a task in its slot; a Lane that runs one. -/
def firedOf (id : Nat) : Fired := ⟨id, nowTag, [tok 1], zeros 8, false⟩
def delayed : State :=
  let s := graph [waitingInst]
  { s with jn := { s.jn with delay := modAt (List.replicate 8 []) 0 (fun _ => [(9, firedOf 300)]) } }
def runningTask (id : Nat) : LaneTask :=
  { task := firedOf id, kernel := 0x80, tmpl := 0x80, desc := zeros 64, ops := zeros 8, stateLen := 8, outPorts := 1 }
def idleLane : LaneSt := { LaneSt.reset with slot := some ⟨firedOf 300, 0⟩, g := List.replicate 32 7, lstat := 1 }
def busyLane : LaneSt :=
  { LaneSt.reset with
    task := some (runningTask 300), pc := 0x4000, dma := some (0, 64)
    mem := memWrite (memWrite [] 0x42000 [1, 2, 3]) 0x45000 [0, 0, 4, 0] }
def withLane (l : Nat) (x : LaneSt) (s : State) : State := { s with lanes := modAt s.lanes l (fun _ => x) }
theorem test_premises_tasks : delayed.mon.stopped = false ∧ delayed.inst? (firedOf 300).inst = some waitingInst ∧
    delayed.weakSlot (delayed.home waitingInst) (delayed.tmpl waitingInst).prio = none ∧ delayed.jn.ready.length = 32 ∧
    (withLane 63 idleLane (graph [waitingInst])).street (63 / 8) = true ∧
    (withLane 63 idleLane (graph [waitingInst])).lanes[63]? = some idleLane ∧
    (withLane 63 busyLane (graph [waitingInst])).lanes[63]? = some busyLane ∧
    (withLane 63 busyLane (graph [waitingInst])).taskOf 300 = some (firedOf 300) ∧
    inArea (runningTask 300).kernel busyLane.pc.toNat = true ∧
    (withLane 63 busyLane (graph [waitingInst])).inst? (runningTask 300).task.inst = some waitingInst ∧
    (outRanges busyLane.mem).all (fun r => decide (r.2 = 0 ∨ r.1 + r.2 ≤ 4096)) = true := by and_intros <;> decide +kernel

/-! ### Lane words, written out from the formats of R256 and the table of R258

The operands are G5 (000101), Q3 (100011), G18 (010010), S = 1, IMM13 = -1, MODE 2, OFF12 = 100000000001, IMM20 = 10000000000000000001. -/

def fieldsR : LaneR := ⟨5, 35, 18, true⟩
def fieldsI : LaneI := ⟨5, 35, false, 0x1001⟩
def fieldsM : LaneM := ⟨5, 35, 2, 0x801⟩
def fieldsB : LaneB := ⟨5, 0x80001⟩

theorem test_words_op0 : ∀ p ∈ ([
    (0b00000000010110001101001010000000, .add 9 fieldsR), (0b00000000010110001101001010000001, .sub 9 fieldsR),
    (0b00000000010110001101001010000010, .and 9 fieldsR), (0b00000000010110001101001010000011, .or 9 fieldsR),
    (0b00000000010110001101001010000100, .xor 9 fieldsR), (0b00000000010110001101001010000101, .shl 9 fieldsR),
    (0b00000000010110001101001010000110, .shr 9 fieldsR), (0b00000000010110001101001010000111, .sar 9 fieldsR),
    (0b00000000010110001101001010001000, .mul 9 fieldsR), (0b00000000010110001101001010001001, .mulq 9 fieldsR),
    (0b00000000010110001101001010001010, .abs 9 fieldsR), (0b00000000010110001101001010001011, .norm 9 fieldsR),
    (0b00000000010110001101001010001100, .exp 9 fieldsR)] : List (W32 × Instr)), laneDecode 9 p.1 = some p.2 ∧ laneEncode p.2 = some p.1 := by decide +kernel

theorem test_words_op1 : ∀ p ∈ ([
    (0b00000100010110001101001010000000, .mac 9 fieldsR), (0b00000100010110001101001010000001, .msu 9 fieldsR),
    (0b00000100010110001101001010000010, .movta 9 fieldsR), (0b00000100010110001101001010000011, .mova 9 fieldsR),
    (0b00000100010110001101001010000100, .expa 9 fieldsR)] : List (W32 × Instr)), laneDecode 9 p.1 = some p.2 ∧ laneEncode p.2 = some p.1 := by decide +kernel

theorem test_words_op2 : ∀ p ∈ ([
    (0b00001000010110001101001010000000, .fadd 9 fieldsR), (0b00001000010110001101001010000001, .fsub 9 fieldsR),
    (0b00001000010110001101001010000010, .fmul 9 fieldsR), (0b00001000010110001101001010000011, .fma 9 fieldsR),
    (0b00001000010110001101001010000100, .fms 9 fieldsR), (0b00001000010110001101001010000101, .fdiv 9 fieldsR),
    (0b00001000010110001101001010000110, .fsqrt 9 fieldsR), (0b00001000010110001101001010000111, .fmin 9 fieldsR),
    (0b00001000010110001101001010001000, .fmax 9 fieldsR), (0b00001000010110001101001010001001, .fcmplt 9 fieldsR),
    (0b00001000010110001101001010001010, .fnorm 9 fieldsR), (0b00001000010110001101001010001011, .fexp 9 fieldsR),
    (0b00001000010110001101001010001100, .ftoi 9 fieldsR), (0b00001000010110001101001010001101, .itof 9 fieldsR)] : List (W32 × Instr)), laneDecode 9 p.1 = some p.2 ∧ laneEncode p.2 = some p.1 := by decide +kernel

theorem test_words_op3 : ∀ p ∈ ([
    (0b00001100010110001101001010000000, .dmago 9 fieldsR), (0b00001100010110001101001010000001, .dmawt 9 fieldsR),
    (0b00001100010110001101001010000010, .endTask 9 fieldsR)] : List (W32 × Instr)), laneDecode 9 p.1 = some p.2 ∧ laneEncode p.2 = some p.1 := by decide +kernel

theorem test_words_immediates : ∀ p ∈ ([
    (0b00100000010110001101000000000001, .addi 9 fieldsI), (0b00100100010110001101000000000001, .shli 9 fieldsI),
    (0b00101000010110001101000000000001, .sari 9 fieldsI), (0b00101100010110001101000000000001, .andi 9 fieldsI),
    (0b00110000010110001101000000000001, .rdcnt 9 fieldsI)] : List (W32 × Instr)), laneDecode 9 p.1 = some p.2 ∧ laneEncode p.2 = some p.1 := by decide +kernel

theorem test_words_memory : ∀ p ∈ ([
    (0b01000000010110001110100000000001, .ld 9 fieldsM), (0b01000100010110001110100000000001, .st 9 fieldsM),
    (0b01001000010110001110100000000001, .ldh 9 fieldsM), (0b01001100010110001110100000000001, .sth 9 fieldsM)] : List (W32 × Instr)), laneDecode 9 p.1 = some p.2 ∧ laneEncode p.2 = some p.1 := by decide +kernel

theorem test_words_branches : ∀ p ∈ ([
    (0b01100000010110000000000000000001, .li 9 fieldsB), (0b01100100010110000000000000000001, .lih 9 fieldsB),
    (0b01101000010110000000000000000001, .bz 9 fieldsB), (0b01101100010110000000000000000001, .bnz 9 fieldsB),
    (0b01110000010110000000000000000001, .blt 9 fieldsB), (0b01110100010110000000000000000001, .bloop 9 fieldsB)] : List (W32 × Instr)), laneDecode 9 p.1 = some p.2 ∧ laneEncode p.2 = some p.1 := by decide +kernel

/-- A no-operation is ADD G0, G0, G0; an undefined OP, and an undefined FN of each R-format OP, decode to nothing. -/
theorem test_words_nop : laneDecode 0 0 = some (.add 0 ⟨0, 0, 0, false⟩) := by decide +kernel
theorem test_words_undefined : ([0b00000000000000000000000000001101, 0b00000100000000000000000000000101,
    0b00001000000000000000000000001110, 0b00001100000000000000000000000011, 0b00010000000000000000000000000000,
    0b01111000000000000000000000000000, 0b11111111111111111111111111111111] : List W32).map (laneDecode 3) = List.replicate 7 none := by decide +kernel
theorem test_premises_roundTrip : laneOf (.add 9 fieldsR) = some 9 ∧ laneEncode (.add 9 fieldsR) = some 0b00000000010110001101001010000000 ∧
    laneDecode 9 0b00000000010110001101001010000000 = some (.add 9 fieldsR) ∧
    (0xFFFFFFFF : W32).toNat / 2 ^ 26 ∉ [0, 1, 2, 3, 8, 9, 10, 11, 12, 16, 17, 18, 19, 24, 25, 26, 27, 28, 29] ∧
    (0b1101 : W32).toNat / 2 ^ 26 = 0 ∧ 12 < (0b1101 : W32).toNat % 128 := by and_intros <;> decide +kernel

/-! ### Lane instructions -/

/-- A Lane that runs a task at 0x4100 with `a` in G2, `b` in G3, `d` in G4. -/
def calcLane (a b d : W32) : LaneSt :=
  { busyLane with g := [0, 0, a, b, d] ++ List.replicate 27 0, pc := 0x4100, ac0 := 0x7FFFFFFFFFFFFFFFFF }
def calcIn (a b d : W32) : State := withLane 9 (calcLane a b d) (graph [waitingInst])
/-- What a Lane instruction leaves in G4 and LSTAT. -/
def result (c : Instr) (a b d : W32) : Option (W32 × W32) :=
  match exec c (calcIn a b d) with
  | .next t => (t.lanes[9]?).map (fun y => (y.reg 4, y.lstat))
  | _ => none
/-- rd G4, rs G2, rt G3. -/
def abd (s : Bool) : LaneR := ⟨4, 2, 3, s⟩

/-- The worked values of R260 and R262, and rows of R259's table. -/
theorem test_exp : result (.exp 9 (abd false)) 0x1234 0 0 = some (18, 0) ∧ result (.exp 9 (abd false)) 0xFFFFFF00 0 0 = some (23, 0) := by
  decide +kernel
theorem test_norm : result (.norm 9 (abd false)) 0x1234 0 0 = some (0x48D00000, 0) ∧
    result (.norm 9 (abd false)) 0xFFFFFF00 0 0 = some (0x80000000, 0) := by decide +kernel
theorem test_fexp : result (.fexp 9 (abd false)) 0x40D00000 0 0 = some (2, 0) ∧ result (.fexp 9 (abd false)) 1 0 0 = some (0xFFFFFF6B, 0) := by
  decide +kernel
theorem test_fnorm : result (.fnorm 9 (abd false)) 0x40D00000 0 0 = some (0x3FD00000, 0) := by decide +kernel
theorem test_mulq : result (.mulq 9 (abd false)) 0x80000000 0x80000000 0 = some (0x80000000, 0) ∧
    result (.mulq 9 (abd true)) 0x80000000 0x80000000 0 = some (0x7FFFFFFF, 1) := by decide +kernel
theorem test_abs : result (.abs 9 (abd false)) 0x80000000 0 0 = some (0x80000000, 0) ∧
    result (.abs 9 (abd true)) 0x80000000 0 0 = some (0x7FFFFFFF, 1) := by decide +kernel
theorem test_shl : result (.shl 9 (abd false)) 1 32 0 = some (0, 0) ∧ result (.shl 9 (abd true)) 1 32 0 = some (0x7FFFFFFF, 1) := by
  decide +kernel
theorem test_fdiv : result (.fdiv 9 (abd true)) 0x3F800000 0 0 = some (0x7F7FFFFF, 0x14) ∧
    result (.fdiv 9 (abd false)) 0 0 0 = some (0x7FC00000, 8) := by decide +kernel
theorem test_ftoi : result (.ftoi 9 ⟨4, 2, 0, false⟩) 0x4F000000 0 0 = some (0x80000000, 8) ∧
    result (.ftoi 9 ⟨4, 2, 0, true⟩) 0x7FC00000 0 0 = some (0, 9) := by decide +kernel
theorem test_lih : result (.lih 9 ⟨4, 0x12345⟩) 0 0 0xFFFFF678 = some (0x12345678, 0) := by decide +kernel

/-- The user part of instruction SRAM holds a word at the Lane's PC. -/
def fetching (v : Nat) : State := { calcIn 1 2 3 with jn := { (calcIn 1 2 3).jn with code := zeros 0x100 ++ le 4 v } }
theorem test_premises_comes : (calcIn 1 2 3).laneWord (calcLane 1 2 3) = none ∧
    (∀ v ∈ [0b00000000010110001101001010000000, 0b1101, 0], (fetching v).laneWord (calcLane 1 2 3) = some (BitVec.ofNat 32 v)) ∧
    Runs 9 (fetching 0b1101) (calcLane 1 2 3) (runningTask 300) := by unfold Runs; and_intros <;> decide +kernel
theorem test_premises_comes_words : laneEncode (.add 9 fieldsR) = some 0b00000000010110001101001010000000 ∧
    (laneEncode (.add 9 fieldsR)).map BitVec.toNat ≠ some 0b1101 ∧ (laneEncode (.add 9 fieldsR)).map BitVec.toNat ≠ some 0 ∧
    laneDecode 9 0b1101 = none ∧ (laneDecode 9 0).isSome = true := by and_intros <;> decide +kernel
/-- An undefined FN at the PC stops the task, whatever instruction is sent (R257). -/
theorem test_undefined_word : (match exec (.add 9 (abd false)) (fetching 0b1101) with
    | .next t => (t.lanes[9]?).map LaneSt.task
    | _ => none) = some none := by decide +kernel
theorem test_premises_runs : Runs 9 (calcIn 1 2 3) (calcLane 1 2 3) (runningTask 300) := by unfold Runs; and_intros <;> decide +kernel
theorem test_premises_integers : satf 32 true ((0x80000000 : W32).toInt + (0xFFFFFFFF : W32).toInt) = 1 ∧ SignBits 32 0x1234 18 ∧
    SignBits 32 (-256) 23 ∧ SignBits 72 (2 ^ 71 - 1) 0 ∧ SignBits 72 0 71 ∧ (abd true).s = true ∧ (abd false).s = false ∧
    (39 : BitVec 6).toNat ≤ 39 ∧ (31 : BitVec 13).toNat ≤ 31 ∧ 31 < (32 : BitVec 13).toNat := by
  unfold SignBits; and_intros <;> decide +kernel
theorem test_premises_floats : f32.abs (f32.divR 0x3F800000 0).bits = 0x7F800000 ∧ f32.abs (f32.addR 0x3F800000 0).bits ≠ 0x7F800000 ∧
    f32.isNan 0x3F800000 = false ∧ f32.lt 0x3F800000 0x40000000 = true ∧ f32.isNan 0x7FC00000 = true ∧ snan 0x7FC00000 = false ∧
    0x7F800000 ≤ 0xFF800000 % 2 ^ 31 ∧ 0x00800000 ≤ 0x80800000 % 2 ^ 31 ∧ 0x80800000 % 2 ^ 31 < 0x7F800000 ∧
    ftoiOf 0xCF000000 0 = some (-2 ^ 31) ∧ ftoiOf 0x4F000000 0 = some (2 ^ 31) ∧ ftoiOf 0x3F800000 31 = some (2 ^ 31) := by
  and_intros <;> decide +kernel
/-- Addresses of R253 at the ends of their areas, and outside. -/
theorem test_premises_memory : ∀ p ∈ ([(0x10000, some .sram), (0x3FFFC, some .sram), (0x40000, some .desc), (0x41FFC, some .ops),
    (0x420FC, some .block), (0x44FFC, some .out), (0x4501C, some .table), (0x46000, some .lstat), (0x45020, none), (0xFFFC, none)] :
    List (Nat × Option Area)), areaOf p.1 = p.2 ∧ p.1 % 4 = 0 := by decide +kernel
theorem test_premises_branches : inArea 0x80 (0x4100 + 4 * (-64)) = true ∧ inArea 0x80 (0x4100 + 4 * (-65)) = false ∧
    inArea 0x80 0x10000 = false ∧ inArea 0x7F 0x3FFC = true ∧ (0x80000000 : W32).msb = true ∧ (1 : W32).msb = false := by
  and_intros <;> decide +kernel

/-- A Lane with a DMA descriptor at 0x20000. -/
def dmaLane (src dst len : Nat) : LaneSt :=
  { calcLane 0x20000 0 0 with mem := memWrite (calcLane 0 0 0).mem 0x20000 (le 4 src ++ le 4 dst ++ le 4 len ++ zeros 4) }
theorem test_premises_dma : ∀ p ∈ [(4, 0x20100, 4), (0, 0x3FFF8, 8), (8, 0x20100, 4), (0, 0x3FFFC, 8), (0, 0xFFFC, 4), (0, 0x20100, 6)],
    let x := dmaLane p.1 p.2.1 p.2.2
    Runs 9 (withLane 9 x (graph [waitingInst])) x (runningTask 300) ∧ x.load (runningTask 300) (x.reg 2).toNat 4 = some p.1 ∧
      x.load (runningTask 300) ((x.reg 2).toNat + 4) 4 = some p.2.1 ∧ x.load (runningTask 300) ((x.reg 2).toNat + 8) 4 = some p.2.2 ∧
      x.load (runningTask 300) ((x.reg 2).toNat + 12) 4 = some 0 := by unfold Runs; decide +kernel
theorem test_premises_rdcnt : (calcIn 0 0 0).cntEnabled (runningTask 300) = false ∧
    ((calcIn 0 0 0).setN kCntUserEn 1).cntEnabled (runningTask 300) = true ∧ (7 : BitVec 13).toNat % 8 = 7 ∧
    (14 : BitVec 13).toNat ≤ 15 ∧ (14 : BitVec 13).toNat % 8 ≠ 7 ∧ (calcLane 0 0 0).shadow = none ∧
    ({ calcLane 0 0 0 with shadow := some (6, 0x700000005) }).shadow = some ((14 : BitVec 13).toNat - 8, 0x700000005) := by
  and_intros <;> decide +kernel

/-! ### Premises: counters, feedback and axes -/

def counting : State :=
  { (up .run).setObj (kCntSel 81) [0, 2, 3, 4, 5, 6] with
    cnts := List.replicate 82 ⟨77, [1, 2, 3, 4, 5, 6], false⟩, mon := { (up .run).mon with on800 := true } }
theorem test_premises_counters : counting.cnts[81]? = some ⟨77, [1, 2, 3, 4, 5, 6], false⟩ ∧ counting.sub (kCntSel 81) 5 1 ≠ 0 ∧
    counting.sub (kCntSel 81) 0 1 = 0 ∧ counting.clockOn 81 = true ∧ counting.clockOn 64 = false ∧ [1, 2, 3, 4, 5, 6].getD 5 0 < 2 ^ 48 ∧
    (5 : Fin 6).val < [1, 2, 3, 4, 5, 6].length ∧ counting.served .pcie = true ∧ counting.cntFailed = false ∧ counting.n kShedStage = 0 ∧
    (counting.setN kShedStage 1).served .pcie = true ∧ (counting.setN kShedStage 1).n kShedStage = 1 ∧
    (zeros 6).length = 6 := by and_intros <;> decide +kernel
theorem test_premises_counters_failed : ((up .run).setN kUnitFail (2 ^ 47)).cntFailed = true ∧
    ((up .run).setN kUnitFail (2 ^ 47)).served .pcie = true := by and_intros <;> decide +kernel
theorem test_premises_counters_due : ∀ k ∈ [objKey (0x5410 + 81) 0x08, objKey (0x5410 + 81) 0x0B, objKey 0x5400 0x02],
    ∃ w, (waiting counting k (zeros 6)).dict.pendingWrites = [w] ∧ w.applyCycle ≤ (waiting counting k (zeros 6)).cycle ∧ w.key = k ∧
      w.data.length = 6 := fun _ _ => ⟨_, rfl, Nat.le_refl _, rfl, rfl⟩

/-- Channel 15 counts in a mode, its lines low. -/
def encoder (d : DevState) (mode count : Nat) : State :=
  let s := ((up d).setN (kFbMode 15) mode).setN (kFbStatus 15) 1
  { s with axes := { s.axes with fbs := s.axes.fbs.map (fun x => { x with count := count, a := false, b := false }) } }
def comparing : State := ((encoder .run 1 5).setN (kCmpStatus 15 0) 1).setObj (kCmpValue 15 0) (leInt 8 6)
theorem test_premises_quadrature : (encoder .run 1 5).axes.fbs.length = 16 ∧ (encoder .run 1 5).axes.emus.length = 8 ∧
    (encoder .run 1 5).axes.axes.length = 16 ∧ (encoder .run 1 5).fbCounts 15 = true ∧ (encoder .run 1 5).fbMode 15 = 1 ∧
    (encoder .run 3 5).fbMode 15 = 3 ∧ (encoder .run 1 5).armed 15 0 = false ∧ (encoder .run 1 5).armed 15 1 = false ∧
    [(false, false), (true, false), (true, true), (false, true)].map (fun p => (quadPhase p.1 p.2 + 4 - quadPhase false false) % 4) =
      [0, 1, 2, 3] := by and_intros <;> decide +kernel
theorem test_premises_compare : comparing.isIn [.ready, .run, .hold, .degraded] = true ∧ comparing.fbCounts 15 = true ∧ comparing.fbMode 15 = 1 ∧ comparing.fbSign 15 = 1 ∧
    comparing.armed 15 0 = true ∧ comparing.armed 15 1 = false ∧ comparing.i (kCmpInc 15 0) = 0 ∧ comparing.n (kCmpOnedir 15 0) = 0 ∧
    comparing.i (kCmpValue 15 0) = wrap64 ((comparing.fb 15).count + 1) ∧ wrap64 ((comparing.fb 15).count + 1) ≠ (comparing.fb 15).count := by
  and_intros <;> decide +kernel
theorem test_premises_index : ((encoder .run 1 5).setN (kFbCpr 15) 4000).fbCounts 15 = true ∧
    ((encoder .run 1 5).setN (kFbCpr 15) 4000).n (kFbCpr 15) ≠ 0 ∧ ((encoder .run 1 5).setN (kFbCpr 15) 4000).n (kFbZGate 15) = 0 ∧
    ((encoder .run 1 5).setN (kFbCpr 15) 4000).n (kFbIndexTol 15) < (indexDev 5 4000 0).natAbs ∧
    (((encoder .hold 1 5).setN (kFbCpr 15) 4000).setN (kFbIndexMode 15) 1).n (kFbIndexMode 15) = 1 ∧ indexDev 4000 4000 0 = 0 ∧
    (encoder .hold 1 5).dev.state ≠ .run := by and_intros <;> decide +kernel
theorem test_premises_absolute : let s := ((encoder .run 2 5).setN (kFbAbsErr 15) 0).setN (kFbAbsFmt 15) 0
    s.requests = true ∧ s.fbCounts 15 = true ∧ s.fbMode 15 = 2 ∧ s.cycle % max (s.n (kFbAbsDiv 15)) 1 = 0 ∧ s.n (kFbAbsErr 15) = 0 ∧
      (s.fb 15).word = none ∧ s.bit (kFbStatus 15) 1 = false ∧ s.bit (kFbAbsFmt 15) 0 = false ∧ s.armed 15 0 = false ∧
      s.armed 15 1 = false := by decide +kernel

def emulating (edges : Int) : State := ((up .run).setN (kEmuStatus 7) 1).setObj (kEmuEdges 7) (leInt 8 edges)
theorem test_premises_emulation : (emulating 3).bit (kEmuStatus 7) 0 = true ∧ (emulating 3).emuTarget 7 ≠ (emulating 3).i (kEmuEdges 7) ∧
    (emulating 0).emuTarget 7 = (emulating 0).i (kEmuEdges 7) := by and_intros <;> decide +kernel

/-- Axis 15 in use and enabled, 100 steps from its line. -/
def axisOn (due : Bool) : State :=
  let s := ((up .run).setN (kAxMode 15) 1).setN (kAxScale 15) 0x3F800000
  { s with axes := { s.axes with axes := s.axes.axes.map (fun x => { x with
      en := true, hist := if due then [(s.cellNs + 5, 0x4059000000000000), (s.cellNs - 62500, 0)] else [] }) } }
theorem test_premises_steps : (axisOn true).axSteps 15 = true ∧ ((axisOn true).ax 15).msPending = none ∧
    (axisOn true).axDue 15 ((axisOn true).cycle * (axisOn true).tns + 62000) ≠ 0 ∧
    (axisOn true).axEdgeOk 15 ((axisOn true).cycle * (axisOn true).tns + 62000)
      (decide (0 < (axisOn true).axDue 15 ((axisOn true).cycle * (axisOn true).tns + 62000))) = true ∧
    (let s := axisOn true
     let t := s.cycle * s.tns + 62000
     let u : State := { s with axes := { s.axes with axes := s.axes.axes.map (fun x => { x with rise := some t }) } }
     u.axSteps 15 = true ∧ u.axDue 15 t ≠ 0 ∧ u.axEdgeOk 15 t (decide (0 < u.axDue 15 t)) = false) ∧
    (axisOn false).axDue 15 ((axisOn false).cycle * (axisOn false).tns + 62000) = 0 ∧ (axisOn false).axSteps 15 = true ∧
    (up .run).axSteps 15 = false := by and_intros <;> decide +kernel
def waking : State := let s := axisOn false
  { s with axes := { s.axes with axes := s.axes.axes.map (fun x => { x with deferred := some (le 1 1 ++ zeros 95, 5) }) } }
theorem test_premises_standstill : (axisOn false).isIn [.run, .hold, .degraded] = true ∧ (axisOn false).axUsed 15 = true ∧
    ((axisOn false).ax 15).stopped = false ∧ (axisOn false).bit (kAxStatus 15) 0 = false ∧ ((axisOn false).axMov 15).active = false ∧
    ((axisOn false).ax 15).deferred = none ∧ ((axisOn false).setN (kAxStillMode 15) 1).n (kAxStillMode 15) ≠ 0 ∧
    (waking.ax 15).deferred = some (le 1 1 ++ zeros 95, 5) ∧ (waking.ax 15).waitQ = none ∧ mvType (le 1 1 ++ zeros 95) = 1 ∧ (waking.axMov 15).active = false := by
  and_intros <;> decide +kernel

/-! ### Premises: safety -/

/-- A channel that has discarded `bad` scans, at scan `num`, with faults in the channels. -/
def scanning (bad num fp fh : Nat) : State :=
  let s := (up .run).setN kSafeChFault (fp + 256 * fh)
  { s with safe := { s.safe with scanP := { s.safe.scanP with bad := bad, num := num }, outB := 0x10003, missP := 1 } }
theorem test_premises_scans : (scanning 0 0 0 0).dev.phase = .up ∧ (0 : BitVec 40).toNat / 2 ^ 32 ≠ 0xA5 ∧
    ((scanning 0 0 0 0).safe.scan false).bad ≠ 2 ∧ ((scanning 2 0 0 0).safe.scan false).bad = 2 ∧ (scanning 2 0 0 0).chFault false = 0 ∧
    (scanning 2 0 0 5).chFault false = 0 ∧ (scanning 2 0 0 5).chFault true ≠ 0 ∧ (0xA500000001 : BitVec 40).toNat / 2 ^ 32 = 0xA5 ∧
    pulseSource ((scanning 0 1 0 0).safe.scan false).num ≠ some ((scanning 0 1 0 0).source false (0 : Fin 32)) := by
  and_intros <;> decide +kernel
theorem test_premises_outputs : ¬ ((scanning 0 0 0 0).chFault false = 8 ∧ (scanning 0 0 0 0).chFault true = 7) ∧
    (bitsOf 32 (scanning 0 0 0 0).safe.outB).all (fun o => (0x10003 : W32).toNat.testBit o) = true ∧
    (bitsOf 32 (scanning 0 0 0 0).safe.outB).all (fun o => (0x10001 : W32).toNat.testBit o) = false ∧
    (ownerOf (scanning 0 0 0 0)).owner = true ∧ (ownerOf (scanning 0 0 0 0)).chFault false = 0 ∧ (standbyOf (scanning 0 0 0 0)).owner = false ∧ (scanning 0 0 0 0).arms = [] ∧ (scanning 0 0 0 0).safe.missP = 1 ∧ (up .degraded).dev.state = .degraded ∧
    swMismatch 5 5 = false ∧ swMismatch 5 6 = true := by and_intros <;> decide +kernel
/-- An input of two contacts of which one shows demand. -/
def discrepant : State :=
  let s := (up .run).setObj kSafeInCfg ([1, 0, 0, 0] ++ zeros 508)
  { s with safe := { s.safe with scanP := { s.safe.scanP with acc := 1, seen := 1, last := 1 } } }
theorem test_premises_discrepancy : discrepant.contactDemand false 0 ≠ discrepant.contactDemand true 0 ∧
    (up .run).contactDemand false 0 = (up .run).contactDemand true 0 ∧ discrepant.bit kSafeInFault 0 = false ∧
    booting.dev.phase ≠ .reset := by and_intros <;> decide +kernel

/-- Arm 1 has six joints, at rest in an envelope of SS1 that began now or long ago. -/
def stoppable (f : SafeArm → SafeArm) : State :=
  let s := ((up .run).setObj (kArmNj 1) [6]).setObj (kSafeArm 1) (List.replicate 300 100)
  { s with safe := { s.safe with arms := s.safe.arms.map f } }
def braking (speed : Int) : State :=
  let s := stoppable (fun x => { x with ss1 := some ⟨1000, [5, 5, 5, 5, 5, 5, 5, 5]⟩, meas := some (List.replicate 8 1, List.replicate 8 speed), stoP := false, stoH := false })
  { s with dev := { s.dev with state := .ready } }
theorem test_premises_stops : (braking 0).safe.arms.length = 8 ∧ (braking 0).dev.phase = .up ∧ (braking 0).arms = [(1 : Fin 8).val] ∧
    (braking 0).n kShedStage = 0 ∧ ((braking 0).sarm 1).ss1 = some ⟨1000, [5, 5, 5, 5, 5, 5, 5, 5]⟩ ∧ ((braking 0).sarm 1).closing = false ∧
    ((braking 0).sarm 1).meas.isSome = true ∧ ((braking 0).sarm 1).holdEnv = none ∧ ((braking 0).sarm 1).stopEnv = none ∧ ((braking 0).sarm 1).slsEnv = none ∧ (braking 0).atRest 1 = true ∧ (braking 9999999999999).atRest 1 = false ∧
    (braking 9999999999999).inEnv 1 ⟨1000, [5, 5, 5, 5, 5, 5, 5, 5]⟩ ((braking 9999999999999).still 1) = false ∧
    ((stoppable (fun x => { x with closing := true })).sarm 1).closing = true ∧
    ((stoppable (fun x => { x with armStop := true })).sarm 1).armStop = true ∧
    ((stoppable (fun x => { x with release := .opening })).sarm 1).release = .opening ∧
    ((stoppable (fun x => { x with release := .wanted })).sarm 1).release = .wanted ∧
    ((stoppable (fun x => { x with btDue := true })).sarm 1).btDue = true ∧ ((stoppable id).sarm 1).btDue = false ∧
    ((stoppable id).sarm 1).verdP = false ∧ ((stoppable id).sarm 1).verdH = false ∧ ((stoppable id).sarm 1).armStop = false := by
  and_intros <;> decide +kernel

/-- Safety connections: a drive of arm 1 at node 5, and a command connection. -/
def connRec (id node kind arms data safe : Nat) : Bytes :=
  le 2 id ++ le 2 node ++ [0, BitVec.ofNat 8 kind, BitVec.ofNat 8 arms, 0] ++ le 2 data ++ le 2 safe ++ zeros 4
def driveConn : Bytes := connRec 9 5 1 2 30 31
def connected (l : List Bytes) : State :=
  let s := (stoppable id).setObj kSafeConn l.flatten
  { s with safe := { s.safe with conns := List.replicate l.length ⟨false, none⟩ } }
def sealed (b : Bytes) : Bytes := b ++ le 4 (safetyCrc b)
def statusFrame : Frame :=
  { frame0 with slot := 31, payload := sealed (le 2 9 ++ [7, 0] ++ le 4 (up .run).seq32 ++ le 4 (up .run).seq32 ++ zeros 16) }
theorem test_premises_connections : (connected [driveConn]).connRecs[(0 : Fin 64).val]? = some driveConn ∧ connKind driveConn = 1 ∧
    (0 : Fin 64).val < (connected [driveConn]).safe.conns.length ∧ (connArms driveConn).testBit (1 : Fin 8) = true ∧
    (connected [driveConn]).chOk false = true ∧ (connected [driveConn]).chOk true = true ∧ (connected []).connRecs = [] ∧
    connNode driveConn = statusFrame.addr.toNat ∧ connRing driveConn = ringNo statusFrame.ring ∧
    connSafe driveConn = statusFrame.slot.toNat ∧ connId driveConn = num statusFrame.payload 0 2 ∧ connArms driveConn = 2 ^ (1 : Fin 8).val ∧
    num statusFrame.payload 28 4 = safetyCrc (statusFrame.payload.take 28) ∧ num statusFrame.payload 4 4 = (connected [driveConn]).seq32 ∧
    num statusFrame.payload 8 4 = (connected [driveConn]).seq32 ∧ (connected [driveConn]).safe.conns.length = 1 := by
  and_intros <;> decide +kernel

/-- A safety command for channel P from connection 7, and the node that hears it. -/
def commandFrame (c : Nat) : Frame := { frame0 with payload := sealed (le 2 c ++ [0, 0] ++ le 4 5 ++ le 4 0x11111111) ++ sealed (le 2 c ++ [1, 0] ++ le 4 5 ++ le 4 0x11111111) }
def commanding : State :=
  let s := connected [connRec 7 0 0 0 0 32, driveConn]
  { s with rings := { s.rings with nodes := [{ freshNode .m 5 with ss1 := true, torque := true }] } }
theorem test_premises_commands : commanding.cmdConn (ringNo .m) = some 7 ∧ commanding.nodeArm .m (5 : BitVec 10).toNat = some 1 ∧
    (let b := slice (commandFrame 7).payload 0 16
     num b 12 4 = safetyCrc (b.take 12) ∧ num b 0 2 = 7 ∧ num b 2 1 = 0 ∧ num b 4 4 ≤ (5 : W32).toNat ∧
       (field (num b 8 4) (4 * 1) 4).testBit 0 = true) ∧
    (commanding.node .m 5).cmdP = none ∧ (commanding.node .m 5).ss1 = true ∧
    num (slice (zeros 32 : Bytes) 0 16) 12 4 ≠ safetyCrc ((slice (zeros 32 : Bytes) 0 16).take 12) ∧
    num (slice (zeros 32 : Bytes) 16 16) 12 4 ≠ safetyCrc ((slice (zeros 32 : Bytes) 16 16).take 12) := by and_intros <;> decide +kernel

/-- A brake test of arm 1 in its comparison: the joints stood, or joint 7 moved. -/
def testing (moved : Int) : State :=
  let s := (stoppable (fun x => { x with meas := some (List.replicate 8 moved, List.replicate 8 0) })).setObj kSafeBrkCfg ([1, 0xFF, 0, 0] ++ zeros 60)
  { s with safe := { s.safe with bt := some ⟨1, 0, some (List.replicate 8 0)⟩ } }
theorem test_premises_brakeTest : (testing 0).safe.bt = some ⟨(1 : Fin 8).val, 0, some (List.replicate 8 0)⟩ ∧
    (((testing 0).braked 1).all (fun j => decide (((((testing 0).sarm 1).counts.getD j 0) - (List.replicate 8 0).getD j 0).natAbs ≤
      (testing 0).armPar 1 (176 + 4 * j) 4))) = true ∧
    (((testing 999999999999).braked 1).all (fun j => decide (((((testing 999999999999).sarm 1).counts.getD j 0) - (List.replicate 8 0).getD j 0).natAbs ≤
      (testing 999999999999).armPar 1 (176 + 4 * j) 4))) = false ∧ (stoppable id).safe.bt = none := by and_intros <;> decide +kernel
theorem test_premises_brakeTest_begin : let s := waiting ((up .ready).setObj (kArmNj 1) [6]) (objKey 0x7000 0x0D) [2]
    (∃ w, s.dict.pendingWrites = [w] ∧ w.applyCycle ≤ s.cycle ∧ w.key = objKey 0x7000 0x0D ∧ leVal w.data = 2 ^ (1 : Fin 8).val) ∧
      s.dev.state = .ready ∧ s.safe.bt = none ∧ s.n (kArmNj 1) ≠ 0 ∧ s.stopping = false ∧
      ({ s with dev := { s.dev with stopDemand := true } } : State).stopping = true :=
  ⟨⟨_, rfl, Nat.le_refl _, rfl, by decide +kernel⟩, rfl, rfl, by decide +kernel, by decide +kernel, by decide +kernel⟩
theorem test_premises_safetySet : (up .service).served .pcie = true ∧ writeCheck (up .service) .pcie 0x7000 0x08 (zeros 8000) = 0 ∧
    (up .service).blockFailed 0x7000 0x08 = false ∧ (up .service).dev.state = .service ∧ (up .service).sec.flashOp = none := by
  and_intros <;> decide +kernel

/-! ### Premises: recorder, images and fuses -/

/-- A recorder that programs a page: its queue, one open sector, one erasure. -/
def recording (q : List Bytes) (page : Option (Bool × Nat)) (erasing : Option Nat) : State :=
  let s := up .service
  { s with recd := { s.recd with
      programming := page
      general := { s.recd.general with queue := q, sectors := [⟨600, 3, 4, []⟩], erasing := erasing, nextSeq := 2 ^ 24 - 1 } } }
def oneRecord : Bytes := recordBytes 0 0x300 5 6 7 [1, 2, 3]
theorem test_premises_records : (recording [] (some (false, 4096)) none).recd.mounted = true ∧
    (recording [] (some (false, 4096)) none).recd.stopped = false ∧ (0x0300 : W16).toNat / 256 ≠ 4 ∧
    (recording [] (some (false, 4096)) none).recd.programming.isSome = true ∧
    (recording [] (some (false, 4096)) none).recd.general.nextSeq < 2 ^ 24 ∧
    4 ≤ (recording [] (some (false, 4096)) none).recd.general.usable (recording [] (some (false, 4096)) none).recd.bad ∧
    queueLen (recording [] (some (false, 4096)) none).recd.general.queue + 4128 ≤ 262144 ∧
    262144 ≤ queueLen (recording (List.replicate 64 (zeros 4096)) (some (false, 4096)) none).recd.general.queue ∧
    State.reset.recd.mounted = false ∧ State.reset.recd.programming = none := by and_intros <;> decide +kernel
theorem test_premises_programming : let s := recording [oneRecord] (some (false, oneRecord.length)) none
    s.recd.programming = some (false, oneRecord.length) ∧ s.recd.general.queue = [oneRecord] ∧ oneRecord ≠ [] ∧
      s.recd.general.progressed = 0 ∧ s.recd.general.sectors = [⟨600, 3, 4, []⟩] ∧ s.recd.safety.queue = [] := by decide +kernel
theorem test_premises_erasing : let s := recording [] none (some 7)
    (s.recd.ring (recRing .general)).erasing = some 7 ∧ (s.recd.ring (recRing .general)).waiting = false ∧ s.recd.safety.queue = [] ∧
      s.recd.general.queue = [] ∧ (s.recd.ring (recRing .safety)).erasing = none := by decide +kernel

/-- A service write passes its checks. -/
theorem test_premises_service : ∀ p ∈ ([(0x8000, 0x06, [1]), (0x8000, 0x05, le 4 4), (0x8000, 0x05, le 4 4090), (0x8000, 0x05, le 4 3),
    (0x8000, 0x05, le 4 4091), (0x9000, 0x06, [1]), (0x9000, 0x07, [1]), (0x9000, 0x09, zeros 64), (0x9000, 0x0A, [3]), (0x9000, 0x0A, [4]),
    (0x9000, 0x0B, [1]), (0x9000, 0x10, zeros 32), (0x8800, 0x04, [1]), (0x8820, 0x02, [1]), (0x8820, 0x08, [6, 1, 0, 0] ++ le 4 100000),
    (0x8820, 0x08, [6, 2, 0, 0] ++ le 4 1000000), (0x9800, 0x01, [0]), (0x9800, 0x01, [1])] : List (Nat × Nat × Bytes)),
    InService .pcie p.1 p.2.1 p.2.2 (up .service) := by unfold InService; decide +kernel
theorem test_premises_service_image : InService .pcie 0x9000 0x03 (zeros 30080) (up .service) := by unfold InService; and_intros <;> decide +kernel
theorem test_premises_service_cert : InService .pcie 0x9000 0x13 (zeros 30080) (up .service) := by unfold InService; and_intros <;> decide +kernel
theorem test_premises_sectors : State.reset.recd.sectorsTotal = 4096 ∧ (1 : Byte).toNat % 4 = 1 ∧ (4 : W32).toNat + 6 ≤ 4096 ∧
    (4090 : W32).toNat + 6 ≤ 4096 ∧ 4096 < (4091 : W32).toNat + 6 ∧ (3 : W32).toNat < 4 := by and_intros <;> decide +kernel

/-- Images and fuses in SERVICE: a slot in trial, owner keys, a device seed. -/
def imaged (st : SlotState) (op : Option FlashOp) (nonce : Option Bytes) : State :=
  let s := up .service
  { s with sec := { s.sec with
      flashOp := op, attNonce := nonce
      main := { s.sec.main with running := some false, stA := st, stB := .empty }
      fuses := { s.sec.fuses with owner := [some [1], none, some [2], none], revoked := [false, false, true, false], devSeed := some [1, 2, 3] } } }
theorem test_premises_images : (imaged .valid none none).sec.main.trial = false ∧ (imaged .valid none none).sec.flashOp = none ∧
    (imaged .valid (some (.image 1 [1, 2] .pcie)) none).sec.flashOp = some (.image 1 [1, 2] .pcie) ∧
    (imaged .trial none none).sec.main.running = some false ∧ (imaged .trial none none).sec.main.st false = .trial ∧
    (zeros 64 : Bytes).length = 64 ∧ (imaged .valid none none).sec.fuses.blank = some 1 ∧ (imaged .valid none none).sec.fuses.owner.length = 4 ∧
    (imaged .valid none none).sec.fuses.otherOwner (3 : Byte).toNat = true ∧ (imaged .valid none none).sec.fuses.revoked.length = 4 ∧
    (imaged .valid none none).sec.fuses.otherOwner (0 : Byte).toNat = false ∧ (imaged .valid none none).sec.fuses.devBlown = false ∧
    (zeros 32 : Bytes).length = 32 ∧ (imaged .valid none none).sec.attNonce = none ∧ (imaged .valid none none).sec.trngOk = true ∧
    (imaged .valid none none).sec.fuses.devSeed.isSome = true ∧ (imaged .valid none (some (zeros 32))).sec.attNonce = some (zeros 32) ∧
    (imaged .valid none none).sec.verifies = [] ∧ (imaged .valid none (some (zeros 32))).sec.attNonce.isSome = true := by
  and_intros <;> decide +kernel
theorem test_premises_images_service : ∀ p ∈ ([(0x06, [1]), (0x09, zeros 64), (0x0A, [3]), (0x0A, [0]), (0x0B, [1]), (0x10, zeros 32)] :
    List (Nat × Bytes)), InService .pcie 0x9000 p.1 p.2 (imaged .trial none none) := by unfold InService; decide +kernel
/-- A report is being signed while a certificate of the right length waits. -/
def signing (l : List WaitingWrite) : State :=
  let s := imaged .valid none (some (zeros 32))
  { s with sec := { s.sec with verifies := l } }
theorem test_premises_verifies : (zeros 30080 : Bytes).length = 30080 ∧ (signing []).sec.attNonce = some (zeros 32) ∧
    (signing [⟨.pcie, 0x9000, 0x13, zeros 30080⟩]).sec.verifies = [⟨.pcie, 0x9000, 0x13, zeros 30080⟩] ∧
    (signing []).sec.flashOp = none ∧ (signing []).sec.fuses.devSeed.isSome = true :=
  ⟨List.length_replicate, rfl, rfl, rfl, rfl⟩
theorem test_premises_verifies_service : InService .pcie 0x9000 0x13 (zeros 30080) (signing []) := by
  unfold InService; decide +kernel

/-! ### Premises: monitor, test access port, every step -/

/-- A sequence of taps, a condition that has been beyond once or stands, injections and a running calibration. -/
def monitoring (pos : Nat) (stands : Bool) (inj : List Inj) (cal : Option (Nat × Bool)) : State :=
  let s := ((up .service).setObj kMonSeq [13, 1, 2]).setObj kMonSyscal ((List.replicate 7 (zeros 4 ++ le 4 0x3F800000)).flatten)
  { s with mon := { s.mon with
      seqPos := pos, chans := s.mon.chans.map (fun c => { c with beyond := 0x1FFF })
      conds := List.replicate 13 stands, injs := inj, calib := cal, s4wait := stands
      steps := List.replicate 7 (if stands then some (100000, 5, 65536) else none)
      avg := if stands then some ⟨.pcie, 3, false, 5, 77, [65536, 65536]⟩ else none } }
theorem test_premises_conversions : (monitoring 0 false [] none).mon.chans.length = 32 ∧ (monitoring 0 false [] none).dev.phase ≠ .reset ∧
    (monitoring 0 false [] none).mon.calibrates 9 = false ∧ (monitoring 0 false [] none).mon.injs.any (fun i => i.slot == 9) = false ∧
    ((monitoring 0 false [] none).obj kMonSeq)[(monitoring 0 false [] none).mon.seqPos % ((monitoring 0 false [] none).obj kMonSeq).length]? = some 13 ∧
    (monitoring 0 false [] none).sysCorrect 13 0 = (0, monitoring 0 false [] none) ∧ (condTaps 7).contains 13 = true ∧
    (monitoring 0 false [] none).condOn 7 = true ∧ condBeyond 7 13 0 = true ∧ condBeyond 7 13 0xFFFF = false ∧
    (monitoring 0 false [] none).sysCorrect 13 0xFFFF = (0xFFFF, monitoring 0 false [] none) ∧
    ((monitoring 0 false [] none).mon.chans.getD 13 .reset).beyond.testBit 7 = true ∧
    (monitoring 0 false [] none).mon.conds.getD 7 false = false ∧ (monitoring 0 false [] none).mon.conds = List.replicate 13 false := by
  and_intros <;> decide +kernel
theorem test_premises_injections : (monitoring 0 false [⟨7, 13, .kerb⟩] none).mon.injs.find? (fun j => j.slot == 7) = some ⟨7, 13, .kerb⟩ ∧
    (⟨7, 13, .kerb⟩ : Inj).chan < 32 ∧ (⟨7, 13, .kerb⟩ : Inj).by_ = .kerb ∧ (monitoring 0 false [] none).mon.injs.find? (fun j => j.slot == 7) = none ∧
    (monitoring 0 false [⟨7, 13, .kerb⟩] none).sysCorrect 13 0 = (0, monitoring 0 false [⟨7, 13, .kerb⟩] none) ∧
    condBeyond 7 13 0 = true := by and_intros <;> decide +kernel
theorem test_premises_shedding : (monitoring 0 false [] none).mon.conds.any id = false ∧ (monitoring 0 true [] none).mon.conds.any id = true ∧
    (monitoring 0 true [] none).mon.s4wait = true ∧ (monitoring 0 false [] none).mon.s4wait = false ∧
    (monitoring 0 false [] none).mon.calib = none ∧ ((up .run).setN kMonCalPeriod 5).n kMonCalPeriod ≠ 0 ∧
    ((up .run).setN kMonCalPeriod 0).n kMonCalPeriod = 0 ∧ (monitoring 0 false [] (some (3, true))).mon.calib = some (3, true) ∧
    (6 : Byte).toNat ≤ 6 ∧ (monitoring 0 false [] none).mon.avg = none ∧ (monitoring 0 false [] none).mon.steps.getD 6 none = none ∧
    (monitoring 0 true [] none).mon.steps.getD 6 none = some (100000, 5, 65536) ∧ levelsApart 6 100000 1000000 = true ∧
    (monitoring 0 true [] none).mon.avg = some ⟨.pcie, 3, false, 5, 77, [65536, 65536]⟩ ∧ 65536 ≤ ([65536, 65536] : List Nat).sum ∧
    3 < (monitoring 0 true [] none).mon.steps.length ∧ ((up .run).setN kLlGateEn 0).n kLlGateEn = 0 ∧
    ((up .run).setN kLlGateEn 1).n kLlGateEn ≠ 0 ∧ ((up .run).setN kLlGateEn 1).burstBusy .m800 = false ∧ ((up .run).setN kLlGateEn 1).burstBusy .m1000 = false ∧ (up .run).cycle % (up .run).sub kMonWin (4 * (31 : Fin 32).val) 4 = 0 := by
  and_intros <;> decide +kernel
theorem test_premises_shedding_service : InService .pcie 0x8800 0x04 [1] (monitoring 0 true [] none) ∧
    InService .pcie 0x8820 0x08 ([6, 2, 0, 0] ++ le 4 1000000) ({ monitoring 0 true [] none with mon := { (monitoring 0 true [] none).mon with avg := none } }) := by
  unfold InService; and_intros <;> decide +kernel

def scannable : State := (up .service).setN kTstBscanEn 1
theorem test_premises_tap : scannable.tapAllowed = true ∧ (up .service).tapAllowed = false ∧ (List.replicate 1302 false).length = 1302 ∧
    ({ scannable with tap := { scannable.tap with ir := .sealRead } }).tap.ir = .sealRead ∧ scannable.tap.ir ≠ .sealRead := by
  and_intros <;> decide +kernel
theorem test_premises_tap_service : InService .pcie 0x9800 0x01 [0] scannable ∧ InService .pcie 0x9800 0x01 [1] scannable := by
  unfold InService; and_intros <;> decide +kernel

/-- A step at a queue of one command, from a canonical state with blown fuses. -/
def oneStep : State := { imaged .valid none none with pending := [.testLogicReset], sec := { (imaged .valid none none).sec with fuses := { (imaged .valid none none).sec.fuses with devBlown := true, rollback := [1, 2, 3] } } }
theorem test_premises_step_canonical : Canonical oneStep := by unfold Canonical; and_intros <;> decide +kernel
theorem test_premises_step : ∃ t, step oneStep = .next t ∧ oneStep.sec.fuses.devBlown = true ∧ oneStep.sec.fuses.owner.getD 0 none = some [1] ∧
    oneStep.sec.fuses.revoked.getD 2 false = true := ⟨_, rfl, rfl, rfl, rfl⟩

end Sys2Proof.Tests
end

section
/-! SUPPORT. Reset and boot: what the reset state holds, what PORST_N_ASSERT and PORST_N_RELEASE answer, and what the release
leaves alone; with them the statements about the reset state, the power-on reset and the beginning of the boot. -/

namespace Sys2Proof.Machine

/-! ### Numbers and single bits of objects -/

/-- Setting or clearing a bit of a number decides that bit. -/
@[simp] theorem testBit_setBit_same (v i : Nat) (b : Bool) : (setBit v i b).testBit i = b := by
  cases b with
  | true => simp [setBit, Nat.testBit_or, Nat.one_shiftLeft]
  | false =>
    by_cases hv : v.testBit i = true
    · have hodd : v / 2 ^ i % 2 = 1 := by simpa [Nat.testBit_eq_decide_div_mod_eq] using hv
      have hsub : (v - 2 ^ i) / 2 ^ i = v / 2 ^ i - 1 := by simpa using Nat.sub_mul_div v (2 ^ i) 1
      have heven : (v / 2 ^ i - 1) % 2 = 0 := by omega
      simp [setBit, hv, Nat.one_shiftLeft, Nat.testBit_eq_decide_div_mod_eq, hsub, heven]
    · simp [setBit, hv]

/-- A bit that the object has room for reads as it was written. -/
theorem State.bit_setBit_same (s : State) (k b : Nat) (v : Bool) (hb : b < 8 * (objDefault k).length) :
    (s.setBit k b v).bit k b = v := by
  have hroom : 256 ^ (objDefault k).length = 2 ^ (8 * (objDefault k).length) := by rw [Nat.pow_mul]
  simp [State.bit, State.setBit, State.n_setN_same, hroom, Nat.testBit_mod_two_pow, hb]

theorem State.n_setBit_other (s : State) {k j : Nat} (b : Nat) (v : Bool) (h : j ≠ k) : (s.setBit k b v).n j = s.n j :=
  State.n_setN_other s _ h

/-! ### Frames -/

theorem Changes.refl (ps : List Part) (s : State) : Changes ps s s := ⟨rfl, fun p _ => by cases p <;> rfl⟩

theorem Part.same_trans {p : Part} {s t u : State} (hst : p.same s t) (htu : p.same t u) : p.same s u := by
  cases p <;> exact Eq.trans htu hst

theorem Changes.trans {ps : List Part} {s t u : State} (hst : Changes ps s t) (htu : Changes ps t u) : Changes ps s u :=
  ⟨htu.1.trans hst.1, fun p hp => Part.same_trans (hst.2 p hp) (htu.2 p hp)⟩

theorem Changes.mono {ps qs : List Part} {s t : State} (h : Changes ps s t) (hsub : ps ⊆ qs) : Changes qs s t :=
  ⟨h.1, fun p hp => h.2 p fun hps => hp (hsub hps)⟩

/-! ### The reset state -/

@[simp] theorem State.obj_reset (k : Nat) : State.reset.obj k = objDefault k := rfl

theorem n_timeInc_reset : State.reset.n kTimeInc = 0x28000000 := by decide

theorem n_cellRef_reset : State.reset.n kCellRef = 0 := by decide

theorem arms_reset {a : SafeArm} (h : a ∈ State.reset.safe.arms) : a = .reset := List.eq_of_mem_replicate h

theorem lanes_reset {x : LaneSt} (h : x ∈ State.reset.lanes) : x = .reset := List.eq_of_mem_replicate h

theorem canonical_reset : Canonical State.reset :=
  ⟨rfl, rfl, fun _ hx => lanes_reset hx ▸ rfl⟩

/-! ### The power-on reset -/

/-- What a power-on reset brings back to its reset value (R6). -/
theorem State.powerReset_resets (s : State) :
    s.powerReset.dev.phase = .reset ∧ s.powerReset.dev.state = .inert ∧ s.powerReset.staged = none ∧
    s.powerReset.time = State.reset.time ∧ s.powerReset.dict = State.reset.dict ∧ s.powerReset.lanes = State.reset.lanes ∧
    s.powerReset.safe.arms = State.reset.safe.arms := ⟨rfl, rfl, rfl, rfl, rfl, rfl, rfl⟩

/-- What survives a power-on reset (log entry 9). -/
theorem State.powerReset_keeps (s : State) :
    s.powerReset.objs = s.objs.filter (fun p => p.1 == kRecSafeSect || p.1 == kAttCert) ∧
    s.powerReset.sec.fuses = s.sec.fuses ∧ s.powerReset.sec.main.imgA = s.sec.main.imgA ∧
    s.powerReset.sec.main.imgB = s.sec.main.imgB ∧ s.powerReset.safe.sets = s.safe.sets ∧
    s.powerReset.pending = s.pending := ⟨rfl, rfl, rfl, rfl, rfl, rfl⟩

/-! ### PORST_N_ASSERT -/

theorem exec_porstNAssert (cause : ResetCause) (s : State) : exec (.porstNAssert cause) s = .next (porstNAssert cause s) := rfl

theorem porstNAssert_internalPor (s : State) : porstNAssert .internalPor s = s.powerReset := rfl

theorem porstNAssert_long (s : State) {ns : Nat} (h : 10000 ≤ ns) : porstNAssert (.pulse ns) s = s.powerReset := by
  simp [porstNAssert, h]

theorem porstNAssert_short (s : State) {ns : Nat} (h : ns ≤ 1000) : porstNAssert (.pulse ns) s = s := by
  have hlong : ¬ 10000 ≤ ns := by omega
  simp [porstNAssert, h, hlong]

/-- The detector of S6 and a pulse of at least 10 µs reset the device (R480, R504). -/
theorem porstNAssert_resets (s : State) {cause : ResetCause}
    (h : cause = .internalPor ∨ ∃ ns, cause = .pulse ns ∧ 10000 ≤ ns) : porstNAssert cause s = s.powerReset := by
  obtain rfl | ⟨ns, rfl, hns⟩ := h
  · exact porstNAssert_internalPor s
  · exact porstNAssert_long s hns

/-! ### The switch words and the first slice of the self-calibration -/

/-- Reading a switch word updates the Safety Quarter, then SAFE_SW, and SW_MISMATCH where both words are known (R341). -/
theorem State.readSwitch_cases (s : State) (h : Bool) (w : Nat) :
    ∃ f v, s.readSwitch h w = (s.onSafe f).setN kSafeSw v ∨
      ∃ b, s.readSwitch h w = ((s.onSafe f).setN kSafeSw v).setBit kSafeStatus 6 b := by
  unfold State.readSwitch
  dsimp only
  split
  · exact ⟨_, _, .inr ⟨_, rfl⟩⟩
  · exact ⟨_, _, .inl rfl⟩

/-- What neither the Safety Quarter nor an object holds stands as it did. -/
theorem State.readSwitch_frame (s : State) (h : Bool) (w : Nat) : Changes [.safe, .objs] s (s.readSwitch h w) := by
  obtain ⟨f, v, e | ⟨b, e⟩⟩ := s.readSwitch_cases h w
  all_goals
    rw [e]
    refine ⟨rfl, fun p hp => ?_⟩
    cases p <;> simp [Part.same] at hp ⊢

@[simp] theorem State.readSwitch_dev (s : State) (h : Bool) (w : Nat) : (s.readSwitch h w).dev = s.dev :=
  (s.readSwitch_frame h w).2 .dev (by decide)

@[simp] theorem State.readSwitch_mon (s : State) (h : Bool) (w : Nat) : (s.readSwitch h w).mon = s.mon :=
  (s.readSwitch_frame h w).2 .mon (by decide)

/-- The objects that a switch word changes are SAFE_SW and SAFE_STATUS. -/
theorem State.n_readSwitch_other (s : State) (h : Bool) (w : Nat) {k : Nat} (hsw : k ≠ kSafeSw) (hst : k ≠ kSafeStatus) :
    (s.readSwitch h w).n k = s.n k := by
  have hn (f : StSafe → StSafe) : (s.onSafe f).n k = s.n k := rfl
  obtain ⟨f, v, e | ⟨b, e⟩⟩ := s.readSwitch_cases h w
  · rw [e, State.n_setN_other _ _ hsw, hn]
  · rw [e, State.n_setBit_other _ _ _ hst, State.n_setN_other _ _ hsw, hn]

@[simp] theorem StMon.calibrate_disagree (m : StMon) : m.calibrate.disagree = m.disagree := by
  unfold StMon.calibrate
  split
  · split <;> rfl
  · rfl

/-- A slice that falls due changes the monitor alone. -/
theorem State.calSlice_frame (s : State) (c : Nat) : Changes [.mon] s (s.calSlice c) := by
  refine ⟨rfl, fun p hp => ?_⟩
  cases p <;> simp [Part.same, State.calSlice] at hp ⊢

@[simp] theorem State.n_onMon (s : State) (f : StMon → StMon) (k : Nat) : (s.onMon f).n k = s.n k := rfl

@[simp] theorem State.n_calSlice (s : State) (c k : Nat) : (s.calSlice c).n k = s.n k := rfl

/-! ### PORST_N_RELEASE -/

theorem exec_porstNRelease (u : Bool) (a b : W32) (s : State) :
    exec (.porstNRelease u a b) s = .next (porstNRelease u a b s) := rfl

theorem porstNRelease_of_ne_reset {s : State} (h : s.dev.phase ≠ .reset) (u : Bool) (a b : W32) : porstNRelease u a b s = s := by
  simp [porstNRelease, h]

/-- The release changes the device, the monitor, the Safety Quarter and objects, and nothing else. -/
theorem porstNRelease_frame (u : Bool) (a b : W32) (s : State) :
    Changes [.dev, .objs, .safe, .mon] s (porstNRelease u a b s) := by
  by_cases h : s.dev.phase = .reset
  · simp only [porstNRelease, h, ne_eq, not_true_eq_false, if_false]
    refine Changes.trans ?_ ((State.calSlice_frame _ _).mono (by decide))
    refine Changes.trans ?_ ((State.readSwitch_frame _ _ _).mono (by decide))
    refine Changes.trans ?_ ((State.readSwitch_frame _ _ _).mono (by decide))
    refine ⟨rfl, fun p hp => ?_⟩
    cases p <;> simp [Part.same] at hp ⊢
  · rw [porstNRelease_of_ne_reset h]
    exact .refl _ s

theorem seqFlags_lt (rails : List (Option Nat)) : seqFlags rails < 8 := by
  have hb (b : Bool) : b01 b ≤ 1 := by cases b <;> decide
  unfold seqFlags
  dsimp only
  refine lt_of_le_of_lt (Nat.add_le_add (Nat.add_le_add (hb _) (Nat.mul_le_mul_left 2 (hb _))) (Nat.mul_le_mul_left 4 (hb _))) ?_
  decide

theorem length_pwrStatus : (objDefault kPwrStatus).length = 2 := by decide

theorem length_clkStatus : (objDefault kClkStatus).length = 2 := by decide

section
variable {s : State} (h : s.dev.phase = .reset) (u : Bool) (a b : W32)
include h

theorem porstNRelease_dev : (porstNRelease u a b s).dev = { s.dev with phase := .booting, unitId := u } := by
  simp [porstNRelease, h, State.calSlice]

theorem porstNRelease_disagree : (porstNRelease u a b s).mon.disagree = false := by simp [porstNRelease, h, State.calSlice]

/-- PWR_STATUS after the release: the rails' order in the three low bits, the others as they stood (R462). -/
theorem n_pwrStatus_porstNRelease :
    (porstNRelease u a b s).n kPwrStatus = (s.n kPwrStatus / 8 * 8 + seqFlags s.mon.rails) % 2 ^ 16 := by
  simp only [porstNRelease, h, ne_eq, not_true_eq_false, if_false, State.n_calSlice]
  rw [State.n_readSwitch_other _ _ _ (by decide) (by decide), State.n_readSwitch_other _ _ _ (by decide) (by decide)]
  rw [State.n_onMon, State.n_setBit_other _ _ _ (by decide), State.n_setN_same, length_pwrStatus]
  rfl

/-- CLK_DISAGREE after the release is the trip of the last boot (R485). -/
theorem bit_clkStatus_porstNRelease : (porstNRelease u a b s).bit kClkStatus 1 = s.mon.disagree := by
  simp only [porstNRelease, h, ne_eq, not_true_eq_false, if_false, State.bit, State.n_calSlice]
  rw [State.n_readSwitch_other _ _ _ (by decide) (by decide), State.n_readSwitch_other _ _ _ (by decide) (by decide)]
  rw [State.n_onMon]
  exact State.bit_setBit_same _ _ _ _ (by rw [length_clkStatus]; decide)

end

end Sys2Proof.Machine

namespace Sys2Proof

open Machine

/-- Settles O2: the reset state lists no object, and its arms and Lanes are copies of one reset value. -/
theorem resetState : Obligations.ResetState := by
  refine ⟨rfl, rfl, rfl, rfl, n_timeInc_reset, n_cellRef_reset, rfl, ?arms, State.obj_reset, canonical_reset⟩
  case arms =>
    intro a ha
    rw [arms_reset ha]
    exact ⟨rfl, rfl, rfl⟩

/-- Settles O3: every cause of the statement answers the power-on reset, and a short pulse the same state. -/
theorem powerOnReset : Obligations.PowerOnReset := by
  intro s cause
  constructor
  · intro hcause
    obtain ⟨hphase, hstate, hstaged, htime, hdict, hlanes, harms⟩ := s.powerReset_resets
    obtain ⟨hobjs, hfuses, himgA, himgB, hsets, hpending⟩ := s.powerReset_keeps
    exact ⟨s.powerReset, by rw [exec_porstNAssert, porstNAssert_resets s hcause], hphase, hstate, hobjs, hstaged, htime, hdict,
      hlanes, harms, hfuses, himgA, himgB, hsets, hpending⟩
  · rintro ns hns rfl
    exact ⟨s, by rw [exec_porstNAssert, porstNAssert_short s hns], rfl⟩

/-- Settles O4: the frame of the release, with its device part and the two status objects that it writes. -/
theorem bootBegins : Obligations.BootBegins := by
  intro s u a b
  constructor
  · intro h
    obtain ⟨-, hframe⟩ := porstNRelease_frame u a b s
    have hdev := porstNRelease_dev h u a b
    have hpwr := n_pwrStatus_porstNRelease h u a b
    have hseq := seqFlags_lt s.mon.rails
    exact ⟨_, exec_porstNRelease u a b s, by rw [hdev], by rw [hdev], by rw [hdev],
      hframe .time (by decide), hframe .rings (by decide), hframe .recd (by decide), by omega, by omega,
      bit_clkStatus_porstNRelease h u a b, porstNRelease_disagree h u a b⟩
  · intro h
    exact ⟨s, by rw [exec_porstNRelease, porstNRelease_of_ne_reset h], rfl⟩

end Sys2Proof
end

section
/-! SUPPORT. Signals of the board: what DRAM_ECC_DONE, POWER_ON_DETECTOR, VDD_SAFE_DETECT and PLL_LOCK answer and leave alone. -/

namespace Sys2Proof.Machine

theorem exec_dramEccDone (s : State) : exec .dramEccDone s = .next (dramEccDone s) := rfl
theorem exec_powerOnDetector (r : Rail) (t : Nat) (s : State) : exec (.powerOnDetector r t) s = .next (powerOnDetector r t s) := rfl
theorem exec_vddSafeDetect (uv : Nat) (s : State) : exec (.vddSafeDetect uv) s = .next (vddSafeDetect uv s) := rfl
theorem exec_pllLock (l : Pll) (s : State) : exec (.pllLock l) s = .next (pllLock l s) := rfl

theorem railNo_lt (r : Rail) : railNo r < 7 := by cases r <;> decide
theorem pllNo_lt (l : Pll) : pllNo l < 6 := by cases l <;> decide

theorem changes_onMon (s : State) (f : StMon → StMon) : Changes [.mon] s (s.onMon f) :=
  ⟨rfl, fun p hp => by cases p <;> simp [Part.same] at hp ⊢⟩

theorem changes_onPair (s : State) (f : StPair → StPair) : Changes [.pair] s (s.onPair f) :=
  ⟨rfl, fun p hp => by cases p <;> simp [Part.same] at hp ⊢⟩

theorem changes_onSafe (s : State) (f : StSafe → StSafe) : Changes [.safe] s (s.onSafe f) :=
  ⟨rfl, fun p hp => by cases p <;> simp [Part.same] at hp ⊢⟩

/-- The record of a rail keeps its first instant (R462). -/
theorem rails_powerOnDetector (s : State) (r : Rail) (t : Nat) (h : s.mon.rails.length = 7) :
    (powerOnDetector r t s).mon.rails[railNo r]? = some (some (((s.mon.rails[railNo r]?).join).getD t)) := by
  have hr : railNo r < s.mon.rails.length := h ▸ railNo_lt r
  simp only [powerOnDetector, State.onMon_mon, getElem?_modAt_same, List.getElem?_eq_getElem hr, Option.map_some]
  cases s.mon.rails[railNo r] <;> rfl

theorem rails_powerOnDetector_other (s : State) (r : Rail) (t : Nat) {j : Nat} (h : j ≠ railNo r) :
    (powerOnDetector r t s).mon.rails[j]? = s.mon.rails[j]? := getElem?_modAt_other _ _ h.symm

/-- A lock marks its PLL; PLL_B and PLL_P start the burst domains (R465). -/
theorem mon_pllLock {s : State} (l : Pll) (h : s.dev.phase ≠ .reset) :
    (pllLock l s).mon = { s.mon with
      pll := modAt s.mon.pll (pllNo l) (fun _ => true)
      on800 := s.mon.on800 || l == .b
      on1000 := s.mon.on1000 || l == .p } := by
  cases l
  case x => by_cases hb : s.dev.phase = .booting <;> simp [pllLock, h, hb]
  all_goals simp [pllLock, h]

theorem pllLock_frame (l : Pll) (s : State) : Changes [.mon, .pair] s (pllLock l s) := by
  by_cases h : s.dev.phase = .reset
  · simpa [pllLock, h] using Changes.refl _ s
  have hlock := (changes_onMon s fun m => { m with pll := modAt m.pll (pllNo l) fun _ => true }).mono
    (show [.mon] ⊆ [Part.mon, .pair] by decide)
  simp only [pllLock, h, if_false]
  cases l
  case b => exact hlock.trans ((changes_onMon _ _).mono (by decide))
  case p => exact hlock.trans ((changes_onMon _ _).mono (by decide))
  case x =>
    dsimp only
    split
    · exact hlock.trans ((changes_onPair _ _).mono (by decide))
    · exact hlock
  all_goals exact hlock

theorem vddSafeDetect_frame (uv : Nat) (s : State) : Changes [.mon, .safe] s (vddSafeDetect uv s) :=
  ((changes_onMon s _).mono (by decide)).trans ((changes_onSafe _ _).mono (by decide))

end Sys2Proof.Machine

namespace Sys2Proof

open Machine

/-- Settles O6: one law for each signal. -/
theorem boardSignals : Obligations.BoardSignals := by
  intro s
  refine ⟨?dram, ?rail, ?safe, ?pll⟩
  case dram =>
    intro h
    exact ⟨_, exec_dramEccDone s, by rw [dramEccDone, if_pos h]⟩
  case rail =>
    intro r t h
    exact ⟨_, exec_powerOnDetector r t s, changes_onMon s _, rails_powerOnDetector s r t h,
      fun j hj => rails_powerOnDetector_other s r t hj⟩
  case safe =>
    intro uv
    exact ⟨_, exec_vddSafeDetect uv s, rfl, vddSafeDetect_frame uv s⟩
  case pll =>
    intro l hup hlen
    have hl : pllNo l < s.mon.pll.length := hlen ▸ pllNo_lt l
    refine ⟨_, exec_pllLock l s, ?_, ?_, ?_, ?_, pllLock_frame l s⟩
    all_goals rw [mon_pllLock l hup]
    · simp only [getElem?_modAt_same, List.getElem?_eq_getElem hl, Option.map_some]
    · exact fun j hj => getElem?_modAt_other _ _ hj.symm

end Sys2Proof
end

section
/-! SUPPORT. Device commands: what a requester's record, the answer, the report and the forwarding to the partner change, and the events
that do not wait (R25, R28, R371, R421). -/

namespace Sys2Proof.Machine

/-! ### Frames of objects -/

theorem ChangesObjs.refl (ks : List Nat) (s : State) : ChangesObjs ks s s := fun _ _ => rfl

theorem ChangesObjs.trans {ks : List Nat} {s t u : State} (hst : ChangesObjs ks s t) (htu : ChangesObjs ks t u) : ChangesObjs ks s u :=
  fun k hk => (htu k hk).trans (hst k hk)

theorem ChangesObjs.mono {ks js : List Nat} {s t : State} (h : ChangesObjs ks s t) (hsub : ks ⊆ js) : ChangesObjs js s t :=
  fun k hk => h k fun hks => hk (hsub hks)

theorem ChangesObjs.of_objs {s t : State} (h : t.objs = s.objs) (ks : List Nat) : ChangesObjs ks s t := fun k _ => State.obj_congr h k

theorem changes_setObj (s : State) (k : Nat) (v : Bytes) : Changes [.objs] s (s.setObj k v) :=
  ⟨rfl, fun p hp => by cases p <;> simp [Part.same] at hp ⊢⟩

theorem changesObjs_setObj (s : State) (k : Nat) (v : Bytes) : ChangesObjs [k] s (s.setObj k v) :=
  fun _ hj => State.obj_setObj_other s v (by simpa using hj)

theorem changesObjs_setN (s : State) (k v : Nat) : ChangesObjs [k] s (s.setN k v) := changesObjs_setObj s k _

/-! ### Records -/

/-- What a record request changes: the recorder, and the objects that count and flag its losses. -/
def RecordOnly (s t : State) : Prop := Changes [.objs, .recd] s t ∧ ChangesObjs [kRecStatus, kRecDrops] s t

theorem RecordOnly.refl (s : State) : RecordOnly s s := ⟨.refl _ s, .refl _ s⟩

theorem RecordOnly.trans {s t u : State} (hst : RecordOnly s t) (htu : RecordOnly t u) : RecordOnly s u :=
  ⟨hst.1.trans htu.1, hst.2.trans htu.2⟩

theorem RecordOnly.ite {c : Prop} [Decidable c] {s t u : State} (ht : RecordOnly s t) (hu : RecordOnly s u) :
    RecordOnly s (if c then t else u) := by split <;> assumption

theorem recordOnly_status (s : State) (b : Nat) (v : Bool) : RecordOnly s (s.setBit kRecStatus b v) :=
  ⟨(changes_setObj s _ _).mono (by decide), (changesObjs_setObj s _ _).mono (by decide)⟩

theorem recordOnly_drops (s : State) (o : Nat) (v : Bytes) : RecordOnly s (s.patchObj kRecDrops o v) :=
  ⟨(changes_setObj s _ _).mono (by decide), (changesObjs_setObj s _ _).mono (by decide)⟩

theorem recordOnly_recd (s : State) (x : StRec) : RecordOnly s { s with recd := x } :=
  ⟨⟨rfl, fun p hp => by cases p <;> simp [Part.same] at hp ⊢⟩, .of_objs rfl _⟩

/-- A record request enters a queue, or is dropped and counted (R430 to R437). -/
theorem record_recordOnly (s : State) (source type : Nat) (sw : Bool) (b : Bytes) : RecordOnly s (s.record source type sw b) := by
  have hhot (c : Prop) [Decidable c] : RecordOnly s (if c then s.setBit kRecStatus 5 true else s) :=
    .ite (recordOnly_status s 5 true) (.refl s)
  have hdrop (u : State) (c : Bool) (v : Bytes) : RecordOnly u ((u.patchObj kRecDrops (if c then 0 else 4) v).setBit kRecStatus
      (if c then 3 else 4) true) := (recordOnly_drops _ _ _).trans (recordOnly_status _ _ _)
  unfold State.record
  dsimp only
  exact .ite (.refl s) (.ite (.refl s) (.ite (((hhot _).trans (recordOnly_recd _ _)).trans (hdrop _ _ _))
    ((hhot _).trans (recordOnly_recd _ _))))

theorem refusedRecord_recordOnly (s : State) (rq : Requester) (cmd index sub : Nat) :
    RecordOnly s (s.refusedRecord rq cmd index sub) := record_recordOnly ..

/-! ### Requesters and their outcomes -/

theorem find?_putRq_same (e : RqSt) (l : List RqSt) : (putRq e l).find? (fun r => r.rq = e.rq) = some e := by
  induction l with
  | nil => simp [putRq]
  | cons r l ih => by_cases h : r.rq = e.rq <;> simp [putRq, h, ih]

/-- What is kept for a requester after it has been replaced. -/
theorem State.rq_setRq_same (s : State) (e : RqSt) : (s.setRq e).rq e.rq = e := by
  simp [State.rq, State.setRq, find?_putRq_same]

theorem State.rq_congr {s t : State} (h : t.dict.rqs = s.dict.rqs) (rq : Requester) : t.rq rq = s.rq rq := by simp [State.rq, h]

/-- What is kept for a requester names it. -/
@[simp] theorem State.rq_rq (s : State) (rq : Requester) : (s.rq rq).rq = rq := by
  unfold State.rq
  cases h : s.dict.rqs.find? (fun r => r.rq = rq) with
  | none => rfl
  | some r => simpa using List.find?_some h

@[simp] theorem State.rq_answer (s : State) (rq : Requester) (c : Nat) : (s.answer rq c).rq rq = { s.rq rq with result := c } := by
  simpa [State.answer] using s.rq_setRq_same { s.rq rq with result := c }

theorem changes_setRq (s : State) (e : RqSt) : Changes [.dict] s (s.setRq e) :=
  ⟨rfl, fun p hp => by cases p <;> simp [Part.same] at hp ⊢⟩

/-- A delivered response leaves the requesters and those that wait as they were. -/
theorem State.deliver_dict (s : State) (rq : Requester) (m : DictMsg) :
    (s.deliver rq m).dict.rqs = s.dict.rqs ∧ (s.deliver rq m).dict.waiting = s.dict.waiting := by
  cases rq <;> exact ⟨rfl, rfl⟩

theorem deliver_frame (s : State) (rq : Requester) (m : DictMsg) : Changes [.dict, .free] s (s.deliver rq m) := by
  refine ⟨by cases rq <;> rfl, fun p hp => ?_⟩
  cases rq <;> cases p <;> simp [Part.same, State.deliver] at hp ⊢

/-- What answering a requester changes: its record and the way its response takes. -/
def AnswerOnly (s t : State) : Prop := Changes [.dict, .free] s t ∧ t.dict.waiting = s.dict.waiting

theorem answerOnly_answer (s : State) (rq : Requester) (c : Nat) : AnswerOnly s (s.answer rq c) :=
  ⟨(changes_setRq s _).mono (by decide), rfl⟩

theorem answerOnly_respond (s : State) (rq : Requester) (m : DictMsg) : AnswerOnly s (s.respond rq m) :=
  ⟨((changes_setRq s _).mono (by decide)).trans (deliver_frame _ rq m), (State.deliver_dict _ rq m).2⟩

theorem answerOnly_finish (s : State) (rq : Requester) (c : Nat) : AnswerOnly s (s.finish rq c) := by
  have hans := answerOnly_answer s rq c
  unfold State.finish
  dsimp only
  split
  · have hresp := answerOnly_respond (s.answer rq c) rq
    exact ⟨hans.1.trans (hresp _).1, (hresp _).2.trans hans.2⟩
  · exact hans

theorem State.result_respond (s : State) (rq : Requester) (m : DictMsg) : ((s.respond rq m).rq rq).result = (s.rq rq).result := by
  unfold State.respond
  rw [State.rq_congr (State.deliver_dict _ rq m).1]
  have h := s.rq_setRq_same { s.rq rq with response := some m, openReq := none, owed := false }
  dsimp only at h ⊢
  rw [State.rq_rq] at h
  rw [State.rq_rq, h]

theorem State.result_finish (s : State) (rq : Requester) (c : Nat) : ((s.finish rq c).rq rq).result = c := by
  unfold State.finish
  dsimp only
  split
  · rw [State.result_respond, State.rq_answer]
  · rw [State.rq_answer]

/-! ### What a command reports -/

/-- The end of a command: DEV_CMD_LAST, the record of a refusal by state, and the response (R422, R423). -/
def State.reported (t : State) (rq : Requester) (code c cycle : Nat) : State :=
  let t := t.setObj kDevCmdLast (cmdLast code (pathCode rq) c cycle)
  let t := if c = abState then t.refusedRecord rq code 0x0110 1 else t
  if (t.rq rq).commands then t.finish rq c else t.answer rq c

theorem State.runCmd_eq (s : State) (rq : Requester) (code : Nat) (x : CmdIn) :
    s.runCmd rq code x = (s.evalCmd code x).2.reported rq code (s.evalCmd code x).1 s.cycle := rfl

section
variable (t : State) (rq : Requester) (code c cycle : Nat)

/-- The report, taken apart: DEV_CMD_LAST, perhaps a record, then the answer. -/
theorem State.reported_steps : ∃ u : State, RecordOnly (t.setObj kDevCmdLast (cmdLast code (pathCode rq) c cycle)) u ∧
    (t.reported rq code c cycle = u.finish rq c ∨ t.reported rq code c cycle = u.answer rq c) := by
  unfold State.reported
  dsimp only
  by_cases h : c = abState
  · rw [if_pos h]
    exact ⟨_, refusedRecord_recordOnly .., ite_eq_or_eq _ _ _⟩
  · rw [if_neg h]
    exact ⟨_, .refl _, ite_eq_or_eq _ _ _⟩

theorem State.result_reported : ((t.reported rq code c cycle).rq rq).result = c := by
  obtain ⟨u, -, h | h⟩ := t.reported_steps rq code c cycle
  · rw [h, State.result_finish]
  · rw [h, State.rq_answer]

/-- A report changes DEV_CMD_LAST, the recorder with its own objects, and the dictionary engine's requesters. -/
theorem State.reported_frame : Changes [.objs, .dict, .recd, .free] t (t.reported rq code c cycle) ∧
    ChangesObjs [kDevCmdLast, kRecStatus, kRecDrops] t (t.reported rq code c cycle) ∧
    (t.reported rq code c cycle).dict.waiting = t.dict.waiting := by
  obtain ⟨u, ⟨hrec, hrecObjs⟩, h⟩ := t.reported_steps rq code c cycle
  have hans : AnswerOnly u (t.reported rq code c cycle) := by
    obtain h | h := h
    · exact h ▸ answerOnly_finish u rq c
    · exact h ▸ answerOnly_answer u rq c
  obtain ⟨hframe, hwait⟩ := hans
  have hobjs : (t.reported rq code c cycle).objs = u.objs := hframe.2 .objs (by decide)
  have hdict : u.dict = t.dict := hrec.2 .dict (by decide)
  exact ⟨(((changes_setObj t _ _).mono (by decide)).trans (hrec.mono (by decide))).trans (hframe.mono (by decide)),
    (((changesObjs_setObj t _ _).mono (by decide)).trans (hrecObjs.mono (by decide))).trans (.of_objs hobjs _), by rw [hwait, hdict]⟩

theorem State.cmdLast_reported : (t.reported rq code c cycle).obj kDevCmdLast = cmdLast code (pathCode rq) c cycle := by
  obtain ⟨u, ⟨-, hrecObjs⟩, h⟩ := t.reported_steps rq code c cycle
  have hu : u.obj kDevCmdLast = cmdLast code (pathCode rq) c cycle := by rw [hrecObjs _ (by decide), State.obj_setObj_same]
  obtain h | h := h
  · rw [h, State.obj_congr ((answerOnly_finish u rq c).1.2 .objs (by decide)), hu]
  · rw [h, State.obj_congr ((answerOnly_answer u rq c).1.2 .objs (by decide)), hu]

end

/-! ### Forwarding to the partner -/

/-- A change of the pair logic that is traffic to the partner alone: the sequence of forwarded requests, and the redundancy link. -/
def PairTraffic (g : StPair → StPair) : Prop :=
  ∀ p, ∃ c f o l, g p = { p with cseqOut := c, forwarded := f, linkOut := o, linkCtr := l }

theorem PairTraffic.id : PairTraffic id := fun p => ⟨p.cseqOut, p.forwarded, p.linkOut, p.linkCtr, rfl⟩

/-- Forwarding is traffic to the partner alone (R371). -/
theorem State.forward_traffic (s : State) (a : Nat) (b : Bytes) : ∃ g, PairTraffic g ∧ s.forward a b = s.onPair g := by
  by_cases h : (s.paired && s.owner && !s.bit kRedStatus 7) = true
  · refine ⟨fun p => { p with
      cseqOut := (s.forward a b).pair.cseqOut, forwarded := (s.forward a b).pair.forwarded
      linkOut := (s.forward a b).pair.linkOut, linkCtr := (s.forward a b).pair.linkCtr }, fun p => ⟨_, _, _, _, rfl⟩, ?_⟩
    simp [State.forward, h, State.linkSend, State.onPair]
  · exact ⟨id, .id, by simp [State.forward, h, State.onPair]⟩

/-! ### Device commands -/

theorem legalIn_eq (code : Nat) : legalIn code = commandStates code := by
  unfold legalIn commandStates
  rfl

theorem State.evalCmd_refused {s : State} {code : Nat} (h : s.dev.state ∉ commandStates code) (x : CmdIn) :
    s.evalCmd code x = (abState, s) := by
  simp [State.evalCmd, State.isIn, legalIn_eq, h]

/-- The rows of R421: each is `deviceCmd` with its code, whose level is the one of R421. -/
theorem exec_commandRow {rq : Requester} {peer : Option PeerInfo} {failed : W64} {code : Nat} {c : Instr}
    (h : commandRow rq peer failed code = some c) :
    (∃ x, ∀ s, exec c s = .next (deviceCmd code rq x s)) ∧ leVal (le 2 code) = code ∧ cmdLevel code = some (commandLevel code) := by
  unfold commandRow at h
  split at h
  case h_13 => exact absurd h (by simp)
  all_goals
    obtain rfl := Option.some.inj h
    exact ⟨⟨_, fun s => rfl⟩, by decide, by decide⟩

/-- The own checks of DEV_CMD pass for a requester that may send the command (R372, R386, R421). -/
theorem devCmdOwn_maySend {rq : Requester} {code : Nat} {s : State} (h : MaySend rq code s) (hval : leVal (le 2 code) = code)
    (hlvl : cmdLevel code = some (commandLevel code)) : devCmdOwn rq (le 2 code) s = resPending := by
  obtain ⟨-, hlevel, hfree, hstandby⟩ := h
  have hcmds : (s.dev.cmds.any fun c => decide (c.rq = rq)) = false := by simpa using hfree
  have hbusy : (s.standby && rq != .partner && code != 0x41 && s.dev.state != .service) = false := by
    obtain h | h | h | h := hstandby <;> simp [h]
  simp [devCmdOwn, hval, hlvl, Nat.not_lt.mpr hlevel, hbusy, hcmds]

/-- A command that may be sent is evaluated after the events that wait; what it forwards first is traffic to the partner. -/
theorem deviceCmd_eq {rq : Requester} {code : Nat} {s : State} (h : MaySend rq code s) (hval : leVal (le 2 code) = code)
    (hlvl : cmdLevel code = some (commandLevel code)) (x : CmdIn) :
    ∃ g, PairTraffic g ∧ deviceCmd code rq x s = ((s.events (!s.time.running)).onPair g).runCmd rq code x := by
  have hserved := h.1
  have hown := devCmdOwn_maySend h hval hlvl
  simp only [deviceCmd, hserved, hown, Bool.not_true, Bool.false_eq_true, if_false, ne_eq, not_true_eq_false]
  split
  · exact ⟨id, .id, rfl⟩
  · obtain ⟨g, hg, hfwd⟩ := (s.events (!s.time.running)).forward_traffic (s.events (!s.time.running)).cycle
      (writeMsgBytes 0x0110 0x01 (le 2 code))
    exact ⟨g, hg, by rw [hfwd]⟩

/-! ### Events that do not wait -/

theorem State.onDev_eq_self {s : State} {f : StDev → StDev} (h : f s.dev = s.dev) : s.onDev f = s := by
  rw [State.onDev, h]

theorem deviceFaultEvents_nil {s : State} (h : s.dev.deviceFaults = []) : s.deviceFaultEvents = s := by
  have hdev : s.onDev (fun d => { d with deviceFaults := [] }) = s := State.onDev_eq_self (by rw [← h])
  simp only [State.deviceFaultEvents, h, hdev]

theorem chanFaultEvents_nil {s : State} (h : s.dev.chanFaults = []) : s.chanFaultEvents = s := by
  have hdev : s.onDev (fun d => { d with chanFaults := [] }) = s := State.onDev_eq_self (by rw [← h])
  simp only [State.chanFaultEvents, h, hdev, List.foldl_nil]

theorem stopEvents_quiet {s : State} (h : Quiet s) : s.stopEvents = s := by
  obtain ⟨-, -, hstop, hss2, hdeg, hshed, htier, -⟩ := h
  have hself : s.dev = { s.dev with stopDemand := s.dev.stopDemand, ss2Demand := s.dev.ss2Demand, degTimerEnd := s.dev.degTimerEnd
                                    shedEvent := s.dev.shedEvent } := rfl
  rw [hstop, hss2, hdeg, hshed] at hself
  have hdev : s.onDev (fun d => { d with stopDemand := false, ss2Demand := false, degTimerEnd := false, shedEvent := 0 }) = s :=
    State.onDev_eq_self hself.symm
  simp [State.stopEvents, hdev, hstop, hss2, hdeg, hshed, htier]

theorem localEvents_quiet {s : State} (h : Quiet s) : s.localEvents = s := by
  simp [State.localEvents, deviceFaultEvents_nil h.1, chanFaultEvents_nil h.2.1, stopEvents_quiet h]

/-- No command is due: none is evaluated. -/
theorem commandEvents_notDue {s : State} {all : Bool} (h : ∀ c ∈ s.dev.cmds, all = false ∧ s.cycle < c.applyCycle) :
    s.commandEvents all = s := by
  have hdue : s.dev.cmds.filter (fun c => all || decide (c.applyCycle ≤ s.cycle)) = [] :=
    List.filter_eq_nil_iff.mpr fun c hc => by simp [(h c hc).1, (h c hc).2]
  have hwait : s.dev.cmds.filter (fun c => !(all || decide (c.applyCycle ≤ s.cycle))) = s.dev.cmds :=
    List.filter_eq_self.mpr fun c hc => by simp [(h c hc).1, (h c hc).2]
  simp only [State.commandEvents, hdue, List.foldl_nil]
  exact State.onDev_eq_self (by rw [hwait])

theorem torqueCheck_kept {s : State} (h : TorqueKept s) : s.torqueCheck = s := by
  obtain h | ⟨hg, hs⟩ := h
  · simp [State.torqueCheck, h]
  · have haxes : s.onAxes (fun x => { x with granted := false }) = s := by
      rw [← hg, State.onAxes]
    by_cases ht : s.axTorque = true <;> simp [State.torqueCheck, ht, hg, hs, haxes]

theorem events_kept {s : State} (h : Quiet s) (ht : TorqueKept s) : s.events (!s.time.running) = s := by
  have hcmds : ∀ c ∈ s.dev.cmds, (!s.time.running) = false ∧ s.cycle < c.applyCycle := by
    obtain ⟨-, -, -, -, -, -, -, hc⟩ := h
    simpa using hc
  rw [State.events, torqueCheck_kept ht, localEvents_quiet h, torqueCheck_kept ht, commandEvents_notDue hcmds]

end Sys2Proof.Machine
end

section
/-! SUPPORT. Device commands that are refused (R386, R391, R421). -/

namespace Sys2Proof.Machine

/-- A refusal for too low a level counts in ACC_DENIED, and its code is the requester's outcome (R386, R391). -/
theorem refuse_level (s : State) (rq : Requester) :
    s.refuse rq 0x0110 1 abLevel = (s.inc kAccDenied).answer rq abLevel := by
  simp [State.refuse, abLevel, abState]

theorem length_accDenied : (objDefault kAccDenied).length = 4 := by decide

theorem n_accDenied_inc (s : State) : (s.inc kAccDenied).n kAccDenied = min (s.n kAccDenied + 1) (2 ^ 32 - 1) % 2 ^ 32 := by
  have hsat (v : Nat) : satInc 32 v = min (v + 1) (2 ^ 32 - 1) := by
    unfold satInc
    split <;> omega
  rw [State.inc, State.n_setN_same, length_accDenied, hsat, ← Nat.pow_mul 2 8 4]

/-- A command whose requester has too low a level (R386). -/
theorem deviceCmd_level {rq : Requester} {code : Nat} {s : State} (hserved : s.served rq = true) (hlow : s.level rq < commandLevel code)
    (hval : leVal (le 2 code) = code) (hlvl : cmdLevel code = some (commandLevel code)) (x : CmdIn) :
    deviceCmd code rq x s = (s.inc kAccDenied).answer rq abLevel := by
  have hown : devCmdOwn rq (le 2 code) s = abLevel := by simp [devCmdOwn, hval, hlvl, hlow]
  have hne : abLevel ≠ resPending := by decide
  simp [deviceCmd, hserved, hown, hne, refuse_level]

end Sys2Proof.Machine

namespace Sys2Proof

open Machine

/-- Settles O13: nothing waits, so the refused command leaves its report; too low a level leaves its count and its answer. -/
theorem commandsRefused : Obligations.CommandsRefused := by
  constructor
  · intro s rq peer failed code c hrow ⟨hsend, hquiet⟩ htorque hstate
    obtain ⟨⟨x, hexec⟩, hval, hlvl⟩ := exec_commandRow hrow
    obtain ⟨g, -, hcmd⟩ := deviceCmd_eq hsend hval hlvl x
    have hrefused : (s.onPair g).evalCmd code x = (abState, s.onPair g) := State.evalCmd_refused (s := s.onPair g) hstate x
    rw [events_kept hquiet htorque, State.runCmd_eq, hrefused] at hcmd
    obtain ⟨hframe, hobjs, -⟩ := State.reported_frame (s.onPair g) rq code abState s.cycle
    have hall := ((changes_onPair s g).mono (show [.pair] ⊆ [Part.objs, .dict, .pair, .recd, .free] by decide)).trans
      (hframe.mono (by decide))
    exact ⟨_, (hexec s).trans (congrArg _ hcmd), hall.2 .dev (by decide), hall.2 .staged (by decide), State.result_reported ..,
      State.cmdLast_reported .., hobjs, hall⟩
  · intro s rq peer failed code c hrow hserved hlow
    obtain ⟨⟨x, hexec⟩, hval, hlvl⟩ := exec_commandRow hrow
    have hcmd := deviceCmd_level hserved hlow hval hlvl x
    have hans := (answerOnly_answer (s.inc kAccDenied) rq abLevel).1
    have hobjs : ((s.inc kAccDenied).answer rq abLevel).objs = (s.inc kAccDenied).objs := hans.2 .objs (by decide)
    refine ⟨_, (hexec s).trans (congrArg _ hcmd), rfl, by rw [State.rq_answer]; rfl, by rw [State.n_congr hobjs, n_accDenied_inc],
      (changesObjs_setN s _ _).trans (.of_objs hobjs _), ?_⟩
    exact ((changes_setObj s _ _).mono (by decide)).trans ((changes_setRq _ _).mono (by decide))

end Sys2Proof
end

section
/-! SUPPORT. The core of a state: the device, cell time, the staged copy, the requests that wait and three object numbers; what stops, faults
and the entry of a state leave of it. -/

namespace Sys2Proof.Machine

/-- The parts that device commands and events decide by, and that most of their work leaves alone. -/
structure Core where
  dev : StDev
  time : StTime
  staged : Option Store
  waiting : List Requester
  faultCause : Nat
  cfgError : Nat
  chFault : Nat

/-- The core of a state. -/
def State.core (s : State) : Core :=
  { dev := s.dev, time := s.time, staged := s.staged, waiting := s.dict.waiting, faultCause := s.n kFaultCause
    cfgError := s.n kCfgError, chFault := s.n kSafeChFault }

/-- FAULT_CAUSE, CFG_ERROR and SAFE_CH_FAULT, the objects of the core. -/
def coreKeys : List Nat := [kFaultCause, kCfgError, kSafeChFault]

section
variable (s : State)

/-! ### Updates of the state -/

theorem core_setObj {k : Nat} (v : Bytes) (h : k ∉ coreKeys) : (s.setObj k v).core = s.core := by
  have hne : ∀ j ∈ coreKeys, (s.setObj k v).n j = s.n j := fun j hj => State.n_setObj_other s v fun he => h (he ▸ hj)
  simp only [State.core, State.setObj_dev, State.setObj_time, State.setObj_staged, State.setObj_dict, hne kFaultCause (by decide),
    hne kCfgError (by decide), hne kSafeChFault (by decide)]

theorem core_setN {k : Nat} (v : Nat) (h : k ∉ coreKeys) : (s.setN k v).core = s.core := core_setObj s _ h
theorem core_setI {k : Nat} (v : Int) (h : k ∉ coreKeys) : (s.setI k v).core = s.core := core_setObj s _ h
theorem core_setBit {k : Nat} (b : Nat) (v : Bool) (h : k ∉ coreKeys) : (s.setBit k b v).core = s.core := core_setObj s _ h
theorem core_patchObj {k : Nat} (o : Nat) (v : Bytes) (h : k ∉ coreKeys) : (s.patchObj k o v).core = s.core := core_setObj s _ h

theorem core_faultCause (v : Nat) : (s.setN kFaultCause v).core = { s.core with faultCause := v % 256 ^ 2 } := by
  simp [State.core, State.n_setN_same, State.n_setN_other s v (show kCfgError ≠ kFaultCause by decide),
    State.n_setN_other s v (show kSafeChFault ≠ kFaultCause by decide), show (objDefault kFaultCause).length = 2 by decide]

theorem core_cfgError (v : Nat) : (s.setN kCfgError v).core = { s.core with cfgError := v % 256 ^ 4 } := by
  simp [State.core, State.n_setN_same, State.n_setN_other s v (show kFaultCause ≠ kCfgError by decide),
    State.n_setN_other s v (show kSafeChFault ≠ kCfgError by decide), show (objDefault kCfgError).length = 4 by decide]

theorem core_chFault (v : Nat) : (s.setN kSafeChFault v).core = { s.core with chFault := v % 256 ^ 2 } := by
  simp [State.core, State.n_setN_same, State.n_setN_other s v (show kFaultCause ≠ kSafeChFault by decide),
    State.n_setN_other s v (show kCfgError ≠ kSafeChFault by decide), show (objDefault kSafeChFault).length = 2 by decide]

/-- A state that differs in other parts, and in objects outside the core, has the same core. -/
theorem core_eq_of_changes {ps : List Part} {ks : List Nat} {t : State} (h : Changes ps s t) (ho : ChangesObjs ks s t)
    (hps : Part.dev ∉ ps ∧ Part.time ∉ ps ∧ Part.staged ∉ ps) (hks : ∀ k ∈ coreKeys, k ∉ ks)
    (hw : t.dict.waiting = s.dict.waiting) : t.core = s.core := by
  have hn : ∀ k ∈ coreKeys, t.n k = s.n k := fun k hk => congrArg leVal (ho k (hks k hk))
  have hdev : t.dev = s.dev := h.2 .dev hps.1
  have htime : t.time = s.time := h.2 .time hps.2.1
  have hstaged : t.staged = s.staged := h.2 .staged hps.2.2
  simp only [State.core, hdev, htime, hstaged, hw, hn kFaultCause (by decide), hn kCfgError (by decide), hn kSafeChFault (by decide)]

@[simp] theorem core_onDev (f : StDev → StDev) : (s.onDev f).core = { s.core with dev := f s.core.dev } := rfl
@[simp] theorem core_onMon (f : StMon → StMon) : (s.onMon f).core = s.core := rfl
@[simp] theorem core_onPair (f : StPair → StPair) : (s.onPair f).core = s.core := rfl
@[simp] theorem core_onSafe (f : StSafe → StSafe) : (s.onSafe f).core = s.core := rfl
@[simp] theorem core_onArm (a : Nat) (f : SafeArm → SafeArm) : (s.onArm a f).core = s.core := rfl
@[simp] theorem core_onArms (f : Nat → SafeArm → SafeArm) : (s.onArms f).core = s.core := rfl
@[simp] theorem core_onAxes (f : StAxes → StAxes) : (s.onAxes f).core = s.core := rfl
@[simp] theorem core_onAx (n : Nat) (f : AxSt → AxSt) : (s.onAx n f).core = s.core := rfl
@[simp] theorem core_onCmp (c u : Nat) (f : CmpSt → CmpSt) : (s.onCmp c u f).core = s.core := rfl
@[simp] theorem core_onFb (c : Nat) (f : FbSt → FbSt) : (s.onFb c f).core = s.core := rfl
@[simp] theorem core_onEmu (e : Nat) (f : EmuSt → EmuSt) : (s.onEmu e f).core = s.core := rfl
@[simp] theorem core_onMArm (a : Nat) (f : ArmSt → ArmSt) : (s.onMArm a f).core = s.core := rfl
@[simp] theorem core_onGrp (g : Nat) (f : GrpSt → GrpSt) : (s.onGrp g f).core = s.core := rfl
@[simp] theorem core_onSq (f : StSquare → StSquare) : (s.onSq f).core = s.core := rfl
@[simp] theorem core_onTap (f : StTap → StTap) : (s.onTap f).core = s.core := rfl
@[simp] theorem core_onJn (f : StJn → StJn) : (s.onJn f).core = s.core := rfl
@[simp] theorem core_setRing (r : RingId) (x : RingSt) : (s.setRing r x).core = s.core := by cases r <;> rfl
@[simp] theorem core_onRing (r : RingId) (f : RingSt → RingSt) : (s.onRing r f).core = s.core := core_setRing s r _
@[simp] theorem core_interrupt (b : Nat) : (s.interrupt b).core = s.core := rfl
@[simp] theorem core_jogMask : s.jogMask.core = s.core := rfl
@[simp] theorem core_drive : s.drive.core = s.core := rfl
@[simp] theorem core_beginSs1 : s.beginSs1.core = s.core := rfl
@[simp] theorem core_fbIdle : s.fbIdle.core = s.core := rfl
@[simp] theorem core_sysCalOff : s.sysCalOff.core = s.core := rfl
@[simp] theorem core_axRest (n : Nat) : (s.axRest n).core = s.core := rfl
@[simp] theorem core_dropStaged : s.dropStaged.core = { s.core with staged := none } := rfl
@[simp] theorem core_fresh : s.fresh.2.core = s.core := rfl

@[simp] theorem core_ite (c : Prop) [Decidable c] (t u : State) : (if c then t else u).core = if c then t.core else u.core :=
  apply_ite _ _ _ _

/-- A fold of steps that keep the core keeps it. -/
theorem core_foldl_mem {α : Type} {f : State → α → State} (l : List α) (h : ∀ s, ∀ x ∈ l, (f s x).core = s.core) :
    (l.foldl f s).core = s.core := by
  induction l generalizing s with
  | nil => rfl
  | cons x l ih =>
    rw [List.foldl_cons, ih _ fun s y hy => h s y (List.mem_cons_of_mem x hy), h s x List.mem_cons_self]

theorem core_foldl {α : Type} {f : State → α → State} (h : ∀ s x, (f s x).core = s.core) (l : List α) :
    (l.foldl f s).core = s.core := core_foldl_mem s l fun s x _ => h s x

/-! ### Objects outside the core -/

theorem lineKeys_notMem (n u : Nat) : kAxStatus n ∉ coreKeys ∧ kAxMoveStatus n ∉ coreKeys ∧ kAxPosCmd n ∉ coreKeys ∧
    kCmpStatus n u ∉ coreKeys ∧ kEmuEdges n ∉ coreKeys ∧ kEmuStatus n ∉ coreKeys ∧ kFbStatus n ∉ coreKeys := by
  simp only [coreKeys, kAxStatus, kAxMoveStatus, kAxPosCmd, kCmpStatus, kEmuEdges, kEmuStatus, kFbStatus, kFaultCause, kCfgError,
    kSafeChFault, List.mem_cons, List.not_mem_nil, or_false]
  omega

theorem motionKeys_notMem (n : Nat) : kMoveStatus n ∉ coreKeys ∧ kGrpStatus n ∉ coreKeys ∧ kToolPose n ∉ coreKeys := by
  simp only [coreKeys, kMoveStatus, kGrpStatus, kToolPose, kFaultCause, kCfgError, kSafeChFault, List.mem_cons, List.not_mem_nil, or_false]
  omega

theorem crossingKeys_notMem {a : Nat} (h : a < 8) : kCrHeld a ∉ coreKeys ∧ kCrReq a ∉ coreKeys := by
  simp only [coreKeys, kCrHeld, kCrReq, kFaultCause, kCfgError, kSafeChFault, List.mem_cons, List.not_mem_nil, or_false]
  omega

/-! ### Records, claim and role -/

@[simp] theorem core_record (source type : Nat) (sw : Bool) (b : Bytes) : (s.record source type sw b).core = s.core := by
  obtain ⟨hframe, hobjs⟩ := record_recordOnly s source type sw b
  exact core_eq_of_changes s hframe hobjs (by decide) (by decide) (congrArg StDict.waiting (hframe.2 .dict (by decide)))

@[simp] theorem core_log (type : Nat) (b : Bytes) : (s.log type b).core = s.core := core_record ..
@[simp] theorem core_safeLog (h : Bool) (type : Nat) (b : Bytes) : (s.safeLog h type b).core = s.core := core_record ..
@[simp] theorem core_logOpen (source type : Nat) : (s.logOpen source type).core = s.core := core_record { s with free := s.free + 1 } ..

@[simp] theorem core_redBit (b : Nat) (v : Bool) : (s.redBit b v).core = s.core := by
  simp [State.redBit, core_setBit s (k := kRedStatus) b v (by decide)]

@[simp] theorem core_setClaim (c : Nat) : (s.setClaim c).core = s.core := by
  have hset : ((s.setN kRedClaimState c).redBit 1 false).core = s.core := by rw [core_redBit, core_setN s c (by decide)]
  simp only [State.setClaim, core_ite, core_interrupt, hset, ite_self]

@[simp] theorem core_roleChange (cause role : Nat) : (s.roleChange cause role).core = s.core := by simp [State.roleChange]

@[simp] theorem core_becomeEligible : s.becomeEligible.core = s.core := by simp [State.becomeEligible]

@[simp] theorem core_enteredSync : s.enteredSync.core = s.core := by simp [State.enteredSync]

/-! ### Safety outputs, brake test, test access port -/

@[simp] theorem core_btRec (a result moved : Nat) : (s.btRec a result moved).core = s.core := by simp [State.btRec]
@[simp] theorem core_btRecFree (a result : Nat) : (s.btRecFree a result).core = s.core := core_btRec s.fresh.2 ..

@[simp] theorem core_btAbort : s.btAbort.core = s.core := by
  unfold State.btAbort
  split
  · rfl
  · simp

@[simp] theorem core_leaveDegraded : s.leaveDegraded.core = s.core := by simp [State.leaveDegraded]

@[simp] theorem core_tapLeave : s.tapLeave.core = s.core := by
  unfold State.tapLeave State.tapRelease
  rw [core_setBit _ _ _ (by decide), core_setN _ _ (by decide), core_setN _ _ (by decide), core_setBit _ _ _ (by decide), core_onTap]

/-! ### Feedback, emulation and axes -/

@[simp] theorem core_arm (c u : Nat) (v : Bool) : (s.arm c u v).core = s.core := by simp [State.arm, core_setBit, lineKeys_notMem]
@[simp] theorem core_cmpOff (c : Nat) (d : Bool) : (s.cmpOff c d).core = s.core :=
  core_foldl s (fun s x => by cases d <;> simp) _
@[simp] theorem core_emuStop (e : Nat) : (s.emuStop e).core = s.core := by simp [State.emuStop, core_setBit, lineKeys_notMem e 0]
@[simp] theorem core_emuStart (e : Nat) : (s.emuStart e).core = s.core := by
  simp [State.emuStart, core_setBit, core_setI, lineKeys_notMem e 0]
@[simp] theorem core_emuOn : s.emuOn.core = s.core := core_foldl s (fun s e => by simp) _
@[simp] theorem core_lineOff (d : Bool) : (s.lineOff d).core = s.core := by
  simp [State.lineOff, core_foldl]
@[simp] theorem core_fbReset (c : Nat) : (s.fbReset c).core = s.core := by
  simp [State.fbReset, core_setBit, lineKeys_notMem c 0]

@[simp] theorem core_axEn (n : Nat) (v : Bool) : (s.axEn n v).core = s.core := by
  simp [State.axEn, core_setBit, lineKeys_notMem n 0]
@[simp] theorem core_axMs (n c t : Nat) : (s.axMs n c t).core = s.core := by simp [State.axMs]
@[simp] theorem core_axStill (n : Nat) : (s.axStill n).core = s.core := by
  have hset := core_setBit s axStandstill true (lineKeys_notMem n 0).1
  unfold State.axStill
  dsimp only
  split <;> simp [hset]
@[simp] theorem core_setAxMov (n : Nat) (x : Mov) : (s.setAxMov n x).core = s.core := by
  simp [State.setAxMov, core_setObj, lineKeys_notMem n 0]
@[simp] theorem core_axStop (n : Nat) : (s.axStop n).core = s.core := by
  simp [State.axStop, core_setBit, lineKeys_notMem n 0]
@[simp] theorem core_axStopAll : s.axStopAll.core = s.core := core_foldl s core_axStop _
@[simp] theorem core_axHalt : s.axHalt.core = s.core :=
  core_foldl s (fun s n => by simp [core_setBit, lineKeys_notMem n 0]) _
@[simp] theorem core_axInert : s.axInert.core = s.core :=
  core_foldl s (fun s n => by simp [core_setN, lineKeys_notMem n 0]) _
@[simp] theorem core_axReady : s.axReady.core = s.core := core_foldl s (fun s n => by simp) _
@[simp] theorem core_axReadyStop : s.axReadyStop.core = s.core := core_foldl s (fun s n => by simp) _
@[simp] theorem core_axDegrade (n : Nat) : (s.axDegrade n).core = s.core := by
  simp [State.axDegrade]
@[simp] theorem core_axRun : s.axRun.core = s.core :=
  core_foldl s (fun s n => by simp [core_setN, lineKeys_notMem n 0]) _
@[simp] theorem core_torqueCheck : s.torqueCheck.core = s.core := by
  simp [State.torqueCheck]

/-! ### Crossings and motion -/

@[simp] theorem core_crHolders : s.crHolders.core = s.core :=
  core_foldl s (fun s z => by simp [core_patchObj, show kCrStatus ∉ coreKeys by decide]) _

@[simp] theorem core_clearCrossings : s.clearCrossings.core = s.core := by
  rw [State.clearCrossings, core_crHolders, core_onSq]
  refine core_foldl_mem s _ fun s a ha => ?_
  obtain ⟨hheld, hreq⟩ := crossingKeys_notMem (List.mem_range.mp ha)
  rw [core_setN _ _ hreq, core_setN _ _ hheld]

@[simp] theorem core_setArmMov (a : Nat) (x : Mov) : (s.setArmMov a x).core = s.core := by
  simp [State.setArmMov, core_setObj, motionKeys_notMem]
@[simp] theorem core_setGrpMov (g : Nat) (x : Mov) : (s.setGrpMov g x).core = s.core := by
  simp [State.setGrpMov, core_setObj, motionKeys_notMem]
@[simp] theorem core_failGrp (g m e : Nat) : (s.failGrp g m e).core = s.core := core_setGrpMov ..
@[simp] theorem core_motionStop : s.motionStop.core = s.core := by
  simp [State.motionStop, core_foldl]
@[simp] theorem core_stopMotion : s.stopMotion.core = s.core := by simp [State.stopMotion]

/-! ### Entering a state -/

@[simp] theorem core_ringsPass : s.ringsPass.core = s.core := by rw [State.ringsPass, core_onRing, core_onRing]
@[simp] theorem core_outputsInert : s.outputsInert.core = s.core := by
  rw [State.outputsInert, core_fbIdle, core_lineOff, core_axInert, core_ringsPass, core_onPair]

@[simp] theorem core_entered (old : DevState) : (s.entered old).core = s.core := by
  have hready : ∀ t : State, (if old = .ready then t.btAbort else t).core = t.core := fun t => by simp
  have hdegraded : ∀ t : State, (if old = .degraded then t.leaveDegraded else t).core = t.core := fun t => by simp
  have hservice : ∀ t : State, (if old = .service then t.sysCalOff.tapLeave else t).core = t.core := fun t => by simp
  unfold State.entered
  dsimp only
  rw [core_drive]
  split
  · rw [core_clearCrossings, core_outputsInert, hservice, hdegraded, hready]
  · rw [core_clearCrossings, core_outputsInert, hservice, hdegraded, hready]
  · rw [core_outputsInert, hservice, hdegraded, hready]
  · rw [core_clearCrossings, core_lineOff, core_axInert, hservice, hdegraded, hready]
  · rw [core_enteredSync, core_setObj _ _ (by decide), core_lineOff, core_axInert, hservice, hdegraded, hready]
  · rw [core_ite, core_axReadyStop, core_emuOn, core_axReady, ite_self, hservice, hdegraded, hready]
  · rw [core_foldl _ core_axDegrade, hservice, hdegraded, hready]
  · rw [hservice, hdegraded, hready]
  · rw [hservice, hdegraded, hready]

/-- Entering a state changes the device state and nothing else of the core (R22). -/
@[simp] theorem core_enter (d : DevState) : (s.enter d).core = { s.core with dev := { s.core.dev with state := d } } := by
  unfold State.enter
  split
  · rename_i h
    rw [← h]
    rfl
  · rfl

@[simp] theorem core_goto (d : DevState) : (s.goto d).core = { s.core with dev := { s.core.dev with state := d } } := by
  unfold State.goto
  split
  · rename_i h
    rw [← h]
    rfl
  · rw [core_entered, core_enter]

end
end Sys2Proof.Machine
end

section
/-! SUPPORT. What a device command finds when it is evaluated: the axes that the torque check stops, and traffic to the partner, beside the
state that the command met. -/

namespace Sys2Proof.Machine

section
variable (s : State)

/-! ### Stops and faults -/

theorem core_toFault (c : Nat) (sto : Bool) : (s.toFault c sto).core =
    { s.core with dev := { s.core.dev with state := .fault }, staged := none, faultCause := c % 65536 } := by
  have hset := core_faultCause s c
  unfold State.toFault
  dsimp only
  rw [core_goto, core_dropStaged]
  cases sto <;> simp [hset]

theorem core_toReady : s.toReady.core = { s.core with dev := { s.core.dev with stopRuns := true, state := .ready } } := by
  rw [State.toReady, core_goto, core_onDev, core_stopMotion]

theorem core_toHold : s.toHold.core = { s.core with dev := { s.core.dev with state := .hold } } := by
  rw [State.toHold, core_goto, core_onArms]

/-! ### Reports and forwarding -/

theorem core_reported (rq : Requester) (code c cycle : Nat) : (s.reported rq code c cycle).core = s.core := by
  obtain ⟨hframe, hobjs, hwait⟩ := s.reported_frame rq code c cycle
  exact core_eq_of_changes s hframe hobjs (by decide) (by decide) hwait

theorem core_forward (a : Nat) (b : Bytes) : (s.forward a b).core = s.core := by
  obtain ⟨g, -, h⟩ := s.forward_traffic a b
  rw [h, core_onPair]

theorem core_runCmd (rq : Requester) (code : Nat) (x : CmdIn) : (s.runCmd rq code x).core = (s.evalCmd code x).2.core := by
  rw [State.runCmd_eq, core_reported]

theorem result_runCmd (rq : Requester) (code : Nat) (x : CmdIn) :
    ((s.runCmd rq code x).rq rq).result = (s.evalCmd code x).1 := by
  rw [State.runCmd_eq, State.result_reported]

theorem pair_runCmd (rq : Requester) (code : Nat) (x : CmdIn) : (s.runCmd rq code x).pair = (s.evalCmd code x).2.pair := by
  rw [State.runCmd_eq]
  exact (State.reported_frame _ rq code _ _).1.2 .pair (by decide)

end

/-! ### What the torque check leaves -/

/-- An object of an auxiliary axis. -/
def axisKey (k : Nat) : Bool := decide (0x600000 ≤ k) && decide (k < 0x601000)

/-- Work on the axes alone: their state and their objects. -/
def AxisWork (s t : State) : Prop := Changes [.objs, .axes] s t ∧ ∀ k, axisKey k = false → t.obj k = s.obj k

theorem AxisWork.refl (s : State) : AxisWork s s := ⟨.refl _ s, fun _ _ => rfl⟩

theorem AxisWork.trans {s t u : State} (hst : AxisWork s t) (htu : AxisWork t u) : AxisWork s u :=
  ⟨hst.1.trans htu.1, fun k hk => (htu.2 k hk).trans (hst.2 k hk)⟩

theorem AxisWork.ite {c : Prop} [Decidable c] {s t u : State} (ht : AxisWork s t) (hu : AxisWork s u) :
    AxisWork s (if c then t else u) := by split <;> assumption

theorem AxisWork.foldl {α : Type} {f : State → α → State} (l : List α) (h : ∀ s, ∀ x ∈ l, AxisWork s (f s x)) (s : State) :
    AxisWork s (l.foldl f s) := by
  induction l generalizing s with
  | nil => exact .refl s
  | cons x l ih => exact (h s x List.mem_cons_self).trans (ih (fun s y hy => h s y (List.mem_cons_of_mem x hy)) _)

section
variable (s : State)

theorem axisWork_onAxes (f : StAxes → StAxes) : AxisWork s (s.onAxes f) :=
  ⟨⟨rfl, fun p hp => by cases p <;> simp [Part.same] at hp ⊢⟩, fun _ _ => rfl⟩

theorem axisWork_onAx (n : Nat) (f : AxSt → AxSt) : AxisWork s (s.onAx n f) := axisWork_onAxes s _

theorem axisWork_setObj {k : Nat} (v : Bytes) (h : axisKey k = true) : AxisWork s (s.setObj k v) :=
  ⟨(changes_setObj s k v).mono (by decide), fun _ hj => State.obj_setObj_other s v fun he => by simp [he, h] at hj⟩

theorem axisKey_status {n : Nat} (h : n < 16) : axisKey (kAxStatus n) = true := by
  rw [axisKey, Bool.and_eq_true, decide_eq_true_eq, decide_eq_true_eq, kAxStatus]; omega

theorem axisKey_moveStatus {n : Nat} (h : n < 16) : axisKey (kAxMoveStatus n) = true := by
  rw [axisKey, Bool.and_eq_true, decide_eq_true_eq, decide_eq_true_eq, kAxMoveStatus]; omega

section
variable {n : Nat} (h : n < 16)
include h

theorem axisWork_status (b : Nat) (v : Bool) : AxisWork s (s.setBit (kAxStatus n) b v) := axisWork_setObj s _ (axisKey_status h)

theorem axisWork_axEn (v : Bool) : AxisWork s (s.axEn n v) := (axisWork_onAxes s _).trans (axisWork_status _ h _ _)

theorem axisWork_axStop : AxisWork s (s.axStop n) := by
  unfold State.axStop
  have hmov : AxisWork s (s.setAxMov n ((s.axMov n).fail 3 3)) :=
    (axisWork_onAx s n _).trans (axisWork_setObj _ _ (axisKey_moveStatus h))
  have hbase := (hmov.trans (axisWork_onAx _ n fun x => { x with due := [], deferred := none, waitQ := none })).trans
    (axisWork_status _ h axWaking false)
  exact .ite (hbase.trans (axisWork_onAx _ n _)) hbase

end

theorem axisWork_axHalt : AxisWork s s.axHalt := by
  refine AxisWork.foldl _ (fun s n hn => ?_) s
  have h := List.mem_range.mp hn
  refine .ite (.refl s) ?_
  have hunsure : AxisWork s (if s.bit (kAxStatus n) axMoving then s.setBit (kAxStatus n) axPosUnsure true else s) :=
    .ite (axisWork_status s h _ _) (.refl s)
  exact (((hunsure.trans (axisWork_axStop _ h)).trans (axisWork_axEn _ h _)).trans (axisWork_status _ h _ _)).trans
    (axisWork_onAxes _ _)

theorem axisWork_torqueCheck : AxisWork s s.torqueCheck :=
  .ite (.refl s) ((AxisWork.ite (axisWork_axHalt s) (.refl s)).trans (axisWork_onAxes _ _))

end

/-! ### What a command finds when it is evaluated -/

/-- The state that a command finds, where nothing waits: the axes may have lost their torque, and the partner may have traffic. -/
def AtEval (s t : State) : Prop := ∃ u g, AxisWork s u ∧ PairTraffic g ∧ t = u.onPair g

section
variable {s t : State} (h : AtEval s t)
include h

theorem AtEval.changes : Changes [.objs, .axes, .pair] s t := by
  obtain ⟨u, g, hu, -, rfl⟩ := h
  exact (hu.1.mono (by decide)).trans ((changes_onPair u g).mono (by decide))

theorem AtEval.obj {k : Nat} (hk : axisKey k = false) : t.obj k = s.obj k := by
  obtain ⟨u, g, hu, -, rfl⟩ := h
  exact hu.2 k hk

theorem AtEval.n {k : Nat} (hk : axisKey k = false) : t.n k = s.n k := congrArg leVal (h.obj hk)
theorem AtEval.dev : t.dev = s.dev := h.changes.2 .dev (by decide)
theorem AtEval.time : t.time = s.time := h.changes.2 .time (by decide)
theorem AtEval.mon : t.mon = s.mon := h.changes.2 .mon (by decide)
theorem AtEval.safe : t.safe = s.safe := h.changes.2 .safe (by decide)

theorem AtEval.tierActive : t.tierActive = s.tierActive := by
  simp [State.tierActive, h.dev, h.n (k := kTierAvail) (by decide), h.n (k := kTierLimit) (by decide), h.n (k := kShedStage) (by decide)]

theorem AtEval.cycle : t.cycle = s.cycle := by
  simp [State.cycle, State.cellNs, State.tns, h.time, h.n (k := kBasicCycle) (by decide)]

theorem AtEval.isIn (l : List DevState) : t.isIn l = s.isIn l := by simp [State.isIn, h.dev]

theorem AtEval.pair : t.pair.diffRun = s.pair.diffRun ∧ t.pair.peerInfo = s.pair.peerInfo := by
  obtain ⟨u, g, hu, hg, rfl⟩ := h
  obtain ⟨c, f, o, l, hp⟩ := hg u.pair
  have hpair : u.pair = s.pair := hu.1.2 .pair (by decide)
  rw [State.onPair, hp, hpair]
  exact ⟨rfl, rfl⟩

theorem AtEval.quiet (hq : Quiet s) : Quiet t := by
  have htier : t.tierFell = s.tierFell := by simp [State.tierFell, h.isIn, h.tierActive, h.dev]
  simpa only [Quiet, h.dev, h.time, h.cycle, htier] using hq

theorem AtEval.causeHolds : t.causeHolds = s.causeHolds := by
  simp [State.causeHolds, h.mon, h.time, h.n (k := kFaultCause) (by decide), h.n (k := kShedStage) (by decide)]

end

theorem atEval_torqueCheck (s : State) : AtEval s s.torqueCheck := ⟨_, id, axisWork_torqueCheck s, .id, rfl⟩

/-- Where nothing waits, the evaluation of events checks the torque of the axes (R299). -/
theorem events_quiet {s : State} (h : Quiet s) : s.events (!s.time.running) = s.torqueCheck.torqueCheck := by
  have hfirst := atEval_torqueCheck s
  have hsecond := atEval_torqueCheck s.torqueCheck
  have hq := hsecond.quiet (hfirst.quiet h)
  have hcmds : ∀ c ∈ s.torqueCheck.torqueCheck.dev.cmds,
      (!s.torqueCheck.torqueCheck.time.running) = false ∧ s.torqueCheck.torqueCheck.cycle < c.applyCycle := by
    obtain ⟨-, -, -, -, -, -, -, hc⟩ := hq
    simpa using hc
  rw [hsecond.time, hfirst.time] at hcmds
  rw [State.events, localEvents_quiet (hfirst.quiet h), commandEvents_notDue hcmds]

/-- A command that meets no earlier event is evaluated in a state that differs in the axes and the partner's traffic alone. -/
theorem deviceCmd_atEval {rq : Requester} {code : Nat} {s : State} (h : MayCommand rq code s) (hval : leVal (le 2 code) = code)
    (hlvl : cmdLevel code = some (commandLevel code)) (x : CmdIn) :
    ∃ t, AtEval s t ∧ deviceCmd code rq x s = t.runCmd rq code x := by
  obtain ⟨hsend, hquiet⟩ := h
  obtain ⟨g, hg, hcmd⟩ := deviceCmd_eq hsend hval hlvl x
  rw [events_quiet hquiet] at hcmd
  exact ⟨_, ⟨_, g, (axisWork_torqueCheck s).trans (axisWork_torqueCheck _), hg, rfl⟩, hcmd⟩

/-! ### What the safety channels read -/

/-- Two states agree in what the safety channels decide by. -/
def SafetyAgrees (s t : State) : Prop :=
  t.dev = s.dev ∧ t.safe = s.safe ∧ t.obj kSafeInCfg = s.obj kSafeInCfg ∧ t.obj kSafeInFault = s.obj kSafeInFault ∧
    t.obj kSafeStatus = s.obj kSafeStatus

theorem AtEval.safetyAgrees {s t : State} (h : AtEval s t) : SafetyAgrees s t :=
  ⟨h.dev, h.safe, h.obj (by decide), h.obj (by decide), h.obj (by decide)⟩

section
variable {s t : State} (h : SafetyAgrees s t)
include h

theorem SafetyAgrees.inField (i off : Nat) : t.inField i off = s.inField i off := by
  obtain ⟨-, -, hcfg, -, -⟩ := h
  simp [State.inField, State.sub, hcfg]

theorem SafetyAgrees.inputs (f : Nat) : t.inputs f = s.inputs f := by simp [State.inputs, State.inFunc, h.inField]

theorem SafetyAgrees.inDemand (c : Bool) (i : Nat) : t.inDemand c i = s.inDemand c i := by
  obtain ⟨-, hsafe, -, hfault, -⟩ := id h
  simp [State.inDemand, State.contactDemand, State.contact, State.bit, State.n, hsafe, hfault, h.inField]

theorem SafetyAgrees.automatic : t.automatic = s.automatic := by
  obtain ⟨-, hsafe, -, -, -⟩ := id h
  simp only [State.automatic, State.anyDemand, State.swBit, State.swInForce, h.inputs, h.inDemand, hsafe]

theorem SafetyAgrees.inputKind (c : Bool) (i : Nat) : t.inputKind c i = s.inputKind c i := by
  have hfunc : t.inFunc i = s.inFunc i := h.inField i 0
  rw [State.inputKind, State.inputKind, hfunc, h.inField, h.automatic, h.inDemand]

theorem SafetyAgrees.inputDemand (c : Bool) : t.inputDemand c = s.inputDemand c := by
  simp only [State.inputDemand, h.inputKind]

theorem SafetyAgrees.bit (b : Nat) : t.bit kSafeStatus b = s.bit kSafeStatus b := by
  obtain ⟨-, -, -, -, hst⟩ := h
  simp [State.bit, State.n, hst]

theorem SafetyAgrees.runLocked : t.runLocked = s.runLocked := by
  obtain ⟨hdev, hsafe, -, -, -⟩ := id h
  simp only [State.runLocked, State.stopping, State.chOk, h.inputDemand, h.bit, h.automatic, hdev, hsafe]

theorem SafetyAgrees.resetByRun : SafetyAgrees s.resetByRun t.resetByRun := by
  have houts : t.estopsOut = s.estopsOut := by simp only [State.estopsOut, State.anyDemand, h.inputs, h.inDemand]
  obtain ⟨hdev, hsafe, hcfg, hfault, hst⟩ := id h
  have hn : t.n kSafeStatus = s.n kSafeStatus := congrArg leVal hst
  simp only [State.resetByRun, houts, h.inputs]
  split
  · refine ⟨hdev, hsafe, ?_, ?_, ?_⟩
    · rw [State.setBit, State.setBit, State.obj_setN, State.obj_setN, if_neg (by decide), if_neg (by decide), hcfg]
    · rw [State.setBit, State.setBit, State.obj_setN, State.obj_setN, if_neg (by decide), if_neg (by decide), hfault]
    · rw [State.setBit, State.setBit, State.obj_setN, State.obj_setN, if_pos rfl, if_pos rfl, hn]
  · exact h

end
end Sys2Proof.Machine
end

section
/-! SUPPORT. The evaluation of the commands that make a transition (R25, R421). -/

namespace Sys2Proof.Machine

/-- A device command completes as its evaluation says: the core, the pair logic and the result are those that the evaluation gives. -/
theorem completes_of_runCmd {c : Instr} {rq : Requester} {code : Nat} {x : CmdIn} {s t v : State} {r : Nat} {P : State → Prop}
    (hexec : ∀ s, exec c s = .next (deviceCmd code rq x s)) (hcmd : deviceCmd code rq x s = t.runCmd rq code x)
    (heval : t.evalCmd code x = (r, v))
    (hP : ∀ u : State, u.core = v.core → u.pair = v.pair → (u.rq rq).result = r → P u) : Completes c s P := by
  refine ⟨_, (hexec s).trans (congrArg _ hcmd), hP _ ?_ ?_ ?_⟩
  · rw [core_runCmd, heval]
  · rw [pair_runCmd, heval]
  · rw [result_runCmd, heval]

/-- A device command that nothing precedes completes as its evaluation in a state that differs in axes and traffic says. -/
theorem completes_of_evalCmd {c : Instr} {rq : Requester} {code : Nat} {x : CmdIn} {s : State} {P : State → Prop}
    (hexec : ∀ s, exec c s = .next (deviceCmd code rq x s)) (hval : leVal (le 2 code) = code)
    (hlvl : cmdLevel code = some (commandLevel code)) (h : MayCommand rq code s)
    (hP : ∀ t, AtEval s t → ∃ r v, t.evalCmd code x = (r, v) ∧
      ∀ u : State, u.core = v.core → u.pair = v.pair → (u.rq rq).result = r → P u) : Completes c s P := by
  obtain ⟨t, ht, hcmd⟩ := deviceCmd_atEval h hval hlvl x
  obtain ⟨r, v, heval, hfinal⟩ := hP t ht
  exact completes_of_runCmd hexec hcmd heval hfinal

section
variable {s : State} (x : CmdIn)

theorem State.not_isIn {l : List DevState} (h : s.dev.state ∈ l) : ¬(!s.isIn l) = true := by simp [State.isIn, h]

theorem State.evalCmd_cfgOpen (h : s.dev.state ∈ legalIn 0x01) : s.evalCmd 0x01 x = s.evalOpen := if_neg (State.not_isIn h)
theorem State.evalCmd_cfgCommit (h : s.dev.state ∈ legalIn 0x02) : s.evalCmd 0x02 x = s.evalCommit x.peer := if_neg (State.not_isIn h)
theorem State.evalCmd_cfgAbort (h : s.dev.state ∈ legalIn 0x03) :
    s.evalCmd 0x03 x = (0, (s.dropStaged.onDev (fun d => { d with committed := false })).goto .inert) := if_neg (State.not_isIn h)
theorem State.evalCmd_runEnable (h : s.dev.state ∈ legalIn 0x10) : s.evalCmd 0x10 x = s.evalRun := if_neg (State.not_isIn h)
theorem State.evalCmd_hold (h : s.dev.state ∈ legalIn 0x11) : s.evalCmd 0x11 x = (0, s.toHold) := if_neg (State.not_isIn h)
theorem State.evalCmd_resume (h : s.dev.state ∈ legalIn 0x12) : s.evalCmd 0x12 x = s.evalResume := if_neg (State.not_isIn h)
theorem State.evalCmd_stop (h : s.dev.state ∈ legalIn 0x13) : s.evalCmd 0x13 x = (0, s.evalStop) := if_neg (State.not_isIn h)
theorem State.evalCmd_devReset (h : s.dev.state ∈ legalIn 0x20) (u : Nat) : s.evalCmd 0x20 ⟨none, some u⟩ = s.evalReset u :=
  if_neg (State.not_isIn h)
theorem State.evalCmd_svcEnter (h : s.dev.state ∈ legalIn 0x30) :
    s.evalCmd 0x30 x = if s.tierActive < 1 then (abNoResource, s) else (0, s.goto .service) := if_neg (State.not_isIn h)
theorem State.evalCmd_svcLeave (h : s.dev.state ∈ legalIn 0x31) :
    s.evalCmd 0x31 x = (0, (s.onDev (fun d => { d with committed := false })).goto .inert) := if_neg (State.not_isIn h)
theorem State.evalCmd_swap (h : s.dev.state ∈ legalIn 0x40) : s.evalCmd 0x40 x = s.evalSwap x.peer := if_neg (State.not_isIn h)
theorem State.evalCmd_detach (h : s.dev.state ∈ legalIn 0x41) : s.evalCmd 0x41 x = s.evalDetach := if_neg (State.not_isIn h)

end

theorem State.evalResume_free {s : State} (hstop : s.dev.stopDemand = false)
    (hdemand : (s.inputDemand false ||| s.inputDemand true) % 4 = 0) :
    s.evalResume = (0, (s.motionResume.onArms (fun _ x => { x with holdEnv := none, stood := false })).goto .run) := by
  simp [State.evalResume, hstop, hdemand]

section
variable {s : State} {rq : Requester}

theorem cfgOpen_completes (hmay : MayCommand rq 0x01 s) (hstate : s.dev.state = .inert ∨ s.dev.state = .ready)
    (htier : 1 ≤ s.tierActive) :
    Completes (.cfgOpen rq) s (fun t =>
      t.dev.state = .config ∧ t.staged = some [] ∧ t.dev.cfgFromReady = decide (s.dev.state = .ready) ∧ (t.rq rq).result = 0) := by
  refine completes_of_evalCmd (x := ⟨none, none⟩) (fun _ => rfl) (by decide) (by decide) hmay fun t ht => ?_
  have htier' : ¬ t.tierActive < 1 := by rw [ht.tierActive]; omega
  have heval := (State.evalCmd_cfgOpen (s := t) ⟨none, none⟩ (by simpa [ht.dev, legalIn] using hstate)).trans (if_neg htier')
  refine ⟨_, _, heval, fun u hcore _ hres => ?_⟩
  rw [core_goto] at hcore
  exact ⟨congrArg (·.dev.state) hcore, congrArg (·.staged) hcore,
    (congrArg (·.dev.cfgFromReady) hcore).trans (by rw [← ht.dev]; exact beq_eq_decide ..), hres⟩

theorem cfgAbort_completes (hmay : MayCommand rq 0x03 s) (hstate : s.dev.state = .config) :
    Completes (.cfgAbort rq) s (fun t =>
      t.dev.state = .inert ∧ t.staged = none ∧ (t.rq rq).result = 0) := by
  refine completes_of_evalCmd (x := ⟨none, none⟩) (fun _ => rfl) (by decide) (by decide) hmay fun t ht => ?_
  refine ⟨_, _, State.evalCmd_cfgAbort _ (by simp [ht.dev, legalIn, hstate]), fun u hcore _ hres => ?_⟩
  rw [core_goto] at hcore
  exact ⟨congrArg (·.dev.state) hcore, congrArg (·.staged) hcore, hres⟩

theorem holdReq_completes (hmay : MayCommand rq 0x11 s) (hstate : s.dev.state = .run) :
    Completes (.holdReq rq) s (fun t =>
      t.dev.state = .hold ∧ (t.rq rq).result = 0) := by
  refine completes_of_evalCmd (x := ⟨none, none⟩) (fun _ => rfl) (by decide) (by decide) hmay fun t ht => ?_
  refine ⟨_, _, State.evalCmd_hold _ (by simp [ht.dev, legalIn, hstate]), fun u hcore _ hres => ?_⟩
  rw [core_toHold] at hcore
  exact ⟨congrArg (·.dev.state) hcore, hres⟩

theorem resume_completes (hmay : MayCommand rq 0x12 s) (hstate : s.dev.state = .hold) (hstop : s.dev.stopDemand = false)
    (hdemand : (s.inputDemand false ||| s.inputDemand true) % 4 = 0) :
    Completes (.resume rq) s (fun t =>
      t.dev.state = .run ∧ (t.rq rq).result = 0) := by
  refine completes_of_evalCmd (x := ⟨none, none⟩) (fun _ => rfl) (by decide) (by decide) hmay fun t ht => ?_
  have hdemands : (t.inputDemand false ||| t.inputDemand true) % 4 = 0 := by
    rw [ht.safetyAgrees.inputDemand, ht.safetyAgrees.inputDemand, hdemand]
  have heval := (State.evalCmd_resume ⟨none, none⟩ (by simp [ht.dev, legalIn, hstate])).trans
    (State.evalResume_free (by rw [ht.dev, hstop]) hdemands)
  refine ⟨_, _, heval, fun u hcore _ hres => ?_⟩
  rw [core_goto] at hcore
  exact ⟨congrArg (·.dev.state) hcore, hres⟩

theorem stopReq_completes (hmay : MayCommand rq 0x13 s) (hstate : s.dev.state = .run ∨ s.dev.state = .hold) :
    Completes (.stopReq rq) s (fun t =>
      t.dev.state = .ready ∧ (t.rq rq).result = 0) := by
  refine completes_of_evalCmd (x := ⟨none, none⟩) (fun _ => rfl) (by decide) (by decide) hmay fun t ht => ?_
  have hlegal : t.dev.state ∈ legalIn 0x13 := by rw [ht.dev]; obtain h | h := hstate <;> simp [h, legalIn]
  have hdegraded : t.dev.state ≠ .degraded := by rw [ht.dev]; intro h; simp [h] at hstate
  have hstop : t.evalStop = t.toReady := if_neg hdegraded
  refine ⟨_, _, State.evalCmd_stop _ hlegal, fun u hcore _ hres => ?_⟩
  rw [hstop, core_toReady] at hcore
  exact ⟨congrArg (·.dev.state) hcore, hres⟩

theorem stopReq_degraded_completes (hmay : MayCommand rq 0x13 s) (hstate : s.dev.state = .degraded) :
    Completes (.stopReq rq) s (fun t =>
      t.dev.state = .fault ∧ t.n kFaultCause = 0x0407 ∧ (t.rq rq).result = 0) := by
  refine completes_of_evalCmd (x := ⟨none, none⟩) (fun _ => rfl) (by decide) (by decide) hmay fun t ht => ?_
  have hdegraded : t.dev.state = .degraded := by rw [ht.dev, hstate]
  have hstop : t.evalStop = t.toFault 0x0407 false := if_pos hdegraded
  refine ⟨_, _, State.evalCmd_stop _ (by simp [hdegraded, legalIn]), fun u hcore _ hres => ?_⟩
  rw [hstop, core_toFault] at hcore
  exact ⟨congrArg (·.dev.state) hcore, congrArg (·.faultCause) hcore, hres⟩

theorem svcEnter_completes (hmay : MayCommand rq 0x30 s) (hstate : s.dev.state = .inert) (htier : 1 ≤ s.tierActive) :
    Completes (.svcEnter rq) s (fun t =>
      t.dev.state = .service ∧ (t.rq rq).result = 0) := by
  refine completes_of_evalCmd (x := ⟨none, none⟩) (fun _ => rfl) (by decide) (by decide) hmay fun t ht => ?_
  have htier' : ¬ t.tierActive < 1 := by rw [ht.tierActive]; omega
  have heval := (State.evalCmd_svcEnter (s := t) ⟨none, none⟩ (by simp [ht.dev, legalIn, hstate])).trans (if_neg htier')
  refine ⟨_, _, heval, fun u hcore _ hres => ?_⟩
  rw [core_goto] at hcore
  exact ⟨congrArg (·.dev.state) hcore, hres⟩

theorem svcLeave_completes (hmay : MayCommand rq 0x31 s) (hstate : s.dev.state = .service) :
    Completes (.svcLeave rq) s (fun t =>
      t.dev.state = .inert ∧ (t.rq rq).result = 0) := by
  refine completes_of_evalCmd (x := ⟨none, none⟩) (fun _ => rfl) (by decide) (by decide) hmay fun t ht => ?_
  refine ⟨_, _, State.evalCmd_svcLeave _ (by simp [ht.dev, legalIn, hstate]), fun u hcore _ hres => ?_⟩
  rw [core_goto] at hcore
  exact ⟨congrArg (·.dev.state) hcore, hres⟩

theorem detach_completes (hmay : MayCommand rq 0x41 s) (hstate : s.isIn [.ready, .run, .hold, .degraded] = true)
    (hclaim : s.n kRedClaimState = 1) :
    Completes (.detach rq) s (fun t =>
      t.dev.state = s.dev.state ∧ t.pair.detachAt = some (s.cycle + 2) ∧ (t.rq rq).result = 0) := by
  refine completes_of_evalCmd (x := ⟨none, none⟩) (fun _ => rfl) (by decide) (by decide) hmay fun t ht => ?_
  have hlegal : t.dev.state ∈ legalIn 0x41 := by rw [ht.dev]; exact List.contains_iff_mem.mp hstate
  have hclaimed : ¬ t.n kRedClaimState ≠ 1 := by rw [ht.n (by decide), hclaim]; decide
  refine ⟨_, _, (State.evalCmd_detach ⟨none, none⟩ hlegal).trans (if_neg hclaimed), fun u hcore hpair hres => ?_⟩
  rw [core_onPair] at hcore
  rw [ht.cycle] at hpair
  exact ⟨(congrArg (·.dev.state) hcore).trans (congrArg (·.state) ht.dev), congrArg (·.detachAt) hpair, hres⟩

end
end Sys2Proof.Machine

namespace Sys2Proof

open Machine

/-- Settles O14: each command finds the device state, the tier and the demands as they were, and its evaluation makes the transition. -/
theorem commandTransitions : Obligations.CommandTransitions := fun _ _ =>
  ⟨cfgOpen_completes, cfgAbort_completes, holdReq_completes, resume_completes, stopReq_completes, stopReq_degraded_completes,
    svcEnter_completes, svcLeave_completes, detach_completes⟩

end Sys2Proof
end

section
/-! SUPPORT. RUN_ENABLE and DEV_RESET: the work on cell time that a reset starts, and the start of a run. -/

namespace Sys2Proof.Machine

/-! ### Time work -/

/-- The core without cell time: of the time unit it keeps whether the clock runs, and the last cycle. -/
structure Steady where
  dev : StDev
  staged : Option Store
  waiting : List Requester
  faultCause : Nat
  cfgError : Nat
  chFault : Nat
  running : Bool
  lastCycle : Nat

def Core.steady (k : Core) : Steady :=
  { dev := k.dev, staged := k.staged, waiting := k.waiting, faultCause := k.faultCause, cfgError := k.cfgError, chFault := k.chFault
    running := k.time.running, lastCycle := k.time.lastCycle }

theorem domainKeys_notMem (d : Nat) : kDomState d ∉ coreKeys ∧ kDomRate d ∉ coreKeys := by
  simp only [coreKeys, kDomState, kDomRate, kFaultCause, kCfgError, kSafeChFault, List.mem_cons, List.not_mem_nil, or_false]
  omega

section
variable (s : State)

theorem steady_setDom (d : Nat) (x : DomSt) : (s.setDom d x).core.steady = s.core.steady := by
  unfold State.setDom
  split
  · rfl
  · rfl

theorem steady_rebase (d : Nat) : (s.rebase d).core.steady = s.core.steady := steady_setDom s d _

theorem steady_rebaseRate (d : Nat) (v : Int) : ((s.rebase d).setI (kDomRate d) v).core.steady = s.core.steady := by
  rw [core_setI _ _ (domainKeys_notMem d).2, steady_rebase]

theorem steady_setTimeInc (v : Nat) : (s.setTimeInc v).core.steady = s.core.steady := by
  unfold State.setTimeInc
  dsimp only
  rw [core_setN _ _ (by decide)]
  simp only [core_ite, apply_ite Core.steady, steady_rebaseRate, ite_self]

theorem steady_incNow (v : Nat) : (s.incNow v).core.steady = s.core.steady := steady_setTimeInc s v

theorem steady_servoInc (v : Nat) : (s.servoInc v).core.steady = s.core.steady := by
  unfold State.servoInc
  split
  · rfl
  · split
    · rfl
    · exact steady_incNow s v

theorem steady_startSlew (x : Int) : (s.startSlew x).core.steady = s.core.steady := rfl

theorem steady_followRate (d : Nat) : (s.followRate d).core.steady = s.core.steady := steady_servoInc s _

theorem steady_refSwitch (new : Nat) : (s.refSwitch new).core.steady = s.core.steady := by
  have hset : (s.setN kRefEffective new).core.steady = s.core.steady := by rw [core_setN _ _ (by decide)]
  unfold State.refSwitch
  split
  · rfl
  · dsimp only
    rw [core_logOpen, core_setBit _ _ _ (by decide)]
    split
    · exact hset
    · split
      · exact hset
      · rw [steady_startSlew, steady_followRate, hset]

theorem refFix_eq (old : State) : s.refFix old = s ∨ ∃ w, s.refFix old = s.refSwitch w := by
  rw [State.refFix]
  generalize s.refBarred = barred
  generalize s.refWanted = wanted
  split
  · exact .inr ⟨_, rfl⟩
  · split
    · exact .inr ⟨_, rfl⟩
    · exact .inl rfl

theorem steady_refFix (old : State) : (s.refFix old).core.steady = s.core.steady := by
  obtain h | ⟨w, h⟩ := refFix_eq s old
  · rw [h]
  · rw [h, steady_refSwitch]

theorem steady_resetClaim : s.resetClaim.core.steady = s.core.steady := by
  rw [State.resetClaim, steady_refFix, core_onPair, core_setClaim]

end

/-! ### Starting a run -/

section
variable (s : State)

theorem core_openBrakes (a : Nat) : (s.openBrakes a).core = s.core := by
  rw [State.openBrakes, core_ite, core_drive, core_onArm, ite_self]

theorem core_releaseBrakes : s.releaseBrakes.core = s.core := by
  rw [State.releaseBrakes, core_foldl _ core_openBrakes, core_onArms]

theorem core_reseed (rest : Bool) (a : Nat) : (s.reseed rest a).core = s.core := rfl

theorem core_reseedGroup (rest : Bool) (g : Nat) : (s.reseedGroup rest g).core = s.core := by
  unfold State.reseedGroup
  split
  · rfl
  · rfl

theorem core_reseedAll (rest : Bool) : (s.reseedAll rest).core = s.core := by
  rw [State.reseedAll, core_foldl _ (fun s g => core_reseedGroup s rest g), core_foldl _ (fun s a => core_reseed s rest a)]

theorem core_endRamps : s.endRamps.core = s.core := by
  rw [State.endRamps, core_jogMask, core_foldl _ (fun s a => core_onMArm s a _)]

theorem core_motionRun : s.motionRun.core = s.core := (core_reseedAll _ _).trans (core_endRamps _)

theorem toolPose_notMem {a : Nat} (h : a < 8) : kToolPose a ∉ coreKeys := by
  simp only [coreKeys, kToolPose, kFaultCause, kCfgError, kSafeChFault, List.mem_cons, List.not_mem_nil, or_false]
  omega

theorem core_advance (l : List (Nat × Nat)) : (s.advance l).core = s.core := by
  unfold State.advance
  dsimp only
  rw [core_foldl_mem _ _ fun s a ha => core_setObj s _ (toolPose_notMem (by simpa using (List.mem_filter.mp ha).1)), core_foldl]
  exact fun _ _ => rfl

theorem core_pairRun : s.pairRun.core = s.core := by rw [State.pairRun, core_ite, core_onPair, ite_self]

theorem core_startRun : s.startRun.core =
    { s.core with dev := { s.core.dev with tierInUse := s.tierActive, stopRuns := false, state := .run } } := by
  have hwarm (t : State) : ({ t with solver := { t.solver with warm := none } } : State).core = t.core := rfl
  rw [State.startRun, core_drive, core_pairRun, core_advance, hwarm, core_axRun, State.jloopRun, core_onJn, core_motionRun,
    core_releaseBrakes, core_goto, core_onDev]

theorem core_resetByRun : s.resetByRun.core = s.core := by
  rw [State.resetByRun, core_ite, core_setBit _ _ _ (by decide), ite_self]

end

theorem AtEval.resetByRun_tierActive {s t : State} (h : AtEval s t) : t.resetByRun.tierActive = s.tierActive := by
  have hn (k : Nat) (hk : k ≠ kSafeStatus) : t.resetByRun.n k = t.n k := by
    unfold State.resetByRun
    split
    · exact State.n_setN_other t _ hk
    · rfl
  have hdev : t.resetByRun.dev = t.dev := congrArg Core.dev (core_resetByRun t)
  rw [← h.tierActive]
  simp only [State.tierActive, hn kTierAvail (by decide), hn kTierLimit (by decide), hn kShedStage (by decide), hdev]

section
variable {s : State} {rq : Requester}

theorem runEnable_completes (hmay : MayCommand rq 0x10 s) (hstate : s.dev.state = .ready) (htier : 2 ≤ s.tierActive)
    (hfree : s.resetByRun.runLocked = false) :
    Completes (.runEnable rq) s (fun t => t.dev.state = .run ∧ (t.rq rq).result = 0 ∧ t.dev.tierInUse = s.tierActive) := by
  refine completes_of_evalCmd (x := ⟨none, none⟩) (fun _ => rfl) (by decide) (by decide) hmay fun t ht => ?_
  have htier' : ¬ t.tierActive < 2 := by rw [ht.tierActive]; omega
  have hunlocked : t.resetByRun.runLocked = false := by rw [ht.safetyAgrees.resetByRun.runLocked, hfree]
  have hrun : t.evalRun = (0, t.resetByRun.startRun) := by simp [State.evalRun, htier', hunlocked]
  refine ⟨_, _, (State.evalCmd_runEnable _ (by simp [ht.dev, legalIn, hstate])).trans hrun, fun u hcore _ hres => ?_⟩
  rw [core_startRun, ht.resetByRun_tierActive] at hcore
  exact ⟨congrArg (·.dev.state) hcore, hres, congrArg (·.dev.tierInUse) hcore⟩

theorem runEnable_lowTier_completes (hmay : MayCommand rq 0x10 s) (hstate : s.dev.state = .ready) (htier : s.tierActive < 2) :
    Completes (.runEnable rq) s (fun t => t.dev = s.dev ∧ (t.rq rq).result = 0x00000501) := by
  refine completes_of_evalCmd (x := ⟨none, none⟩) (fun _ => rfl) (by decide) (by decide) hmay fun t ht => ?_
  have htier' : t.tierActive < 2 := by rw [ht.tierActive]; omega
  refine ⟨_, _, (State.evalCmd_runEnable _ (by simp [ht.dev, legalIn, hstate])).trans (if_pos htier'), fun u hcore _ hres => ?_⟩
  exact ⟨(congrArg Core.dev hcore).trans ht.dev, hres⟩

end

/-- A reset that is granted leads to INERT, starts the clock and clears the channels' faults (R25, R53). -/
theorem State.evalReset_granted {s : State} (htier : s.n kTierAvail ≠ 0xFF) (hcause : s.causeHolds = false) (failed : Nat) :
    ∃ v, s.evalReset failed = (0, v) ∧ v.core.dev.state = .inert ∧ v.core.steady.running = true ∧ v.core.steady.chFault = 0 := by
  unfold State.evalReset
  rw [if_neg htier, if_neg (by simp [hcause])]
  refine ⟨_, rfl, ?_⟩
  dsimp only
  generalize State.setUnits s _ _ = t
  generalize (if 5 ≤ t.n kShedStage then t.reenable else t) = u
  generalize hreset : State.resetClaim _ = v
  have hsteady : v.core.steady = { u.core.steady with running := true, chFault := 0 } := by
    rw [← hreset, steady_resetClaim, core_setBit _ _ _ (by decide), core_setBit _ _ _ (by decide), core_chFault]
    rfl
  rw [core_goto, core_onDev]
  exact ⟨rfl, congrArg Steady.running hsteady, congrArg Steady.chFault hsteady⟩

section
variable {s : State} {rq : Requester} {failed : W64}

theorem devReset_completes (hmay : MayCommand rq 0x20 s) (hstate : s.dev.state = .fault) (htier : s.n kTierAvail ≠ 0xFF)
    (hcause : s.causeHolds = false) :
    Completes (.devReset rq failed) s (fun t => t.dev.state = .inert ∧ (t.rq rq).result = 0 ∧ t.time.running = true ∧
      t.n kSafeChFault = 0) := by
  refine completes_of_evalCmd (x := ⟨none, some failed.toNat⟩) (fun _ => rfl) (by decide) (by decide) hmay fun t ht => ?_
  have htier' : t.n kTierAvail ≠ 0xFF := by rw [ht.n (by decide)]; exact htier
  have hcause' : t.causeHolds = false := by rw [ht.causeHolds, hcause]
  obtain ⟨v, hreset, hstate', hrunning, hfault⟩ := State.evalReset_granted htier' hcause' failed.toNat
  have heval := (State.evalCmd_devReset (s := t) (by simp [ht.dev, legalIn, hstate]) failed.toNat).trans hreset
  refine ⟨_, _, heval, fun u hcore _ hres => ?_⟩
  rw [← hcore] at hstate' hrunning hfault
  exact ⟨hstate', hres, hrunning, hfault⟩

theorem devReset_failedUnit_completes (hmay : MayCommand rq 0x20 s) (hstate : s.dev.state = .fault) (htier : s.n kTierAvail = 0xFF) :
    Completes (.devReset rq failed) s (fun t => t.dev = s.dev ∧ (t.rq rq).result = 0x00000601) := by
  refine completes_of_evalCmd (x := ⟨none, some failed.toNat⟩) (fun _ => rfl) (by decide) (by decide) hmay fun t ht => ?_
  have htier' : t.n kTierAvail = 0xFF := by rw [ht.n (by decide), htier]
  have heval := (State.evalCmd_devReset (s := t) (by simp [ht.dev, legalIn, hstate]) failed.toNat).trans (if_pos htier')
  exact ⟨_, _, heval, fun u hcore _ hres => ⟨(congrArg Core.dev hcore).trans ht.dev, hres⟩⟩

end
end Sys2Proof.Machine

namespace Sys2Proof

open Machine

/-- Settles O15: the run starts with the tier of the state that the command found; the reset runs the clock and leads to INERT. -/
theorem runAndResetCommands : Obligations.RunAndResetCommands := fun _ _ =>
  ⟨runEnable_completes, runEnable_lowTier_completes, fun _ => devReset_completes, fun _ => devReset_failedUnit_completes⟩

end Sys2Proof
end

section
/-! SUPPORT. The commit checks see no traffic to the partner: the candidate of a commit is built alike with and without it. -/

namespace Sys2Proof.Machine

/-- The same state with the traffic to the partner of another pair logic: sequence, forwarded requests and redundancy link. -/
def State.withTraffic (s : State) (q : StPair) : State :=
  s.onPair fun p => { p with cseqOut := q.cseqOut, forwarded := q.forwarded, linkOut := q.linkOut, linkCtr := q.linkCtr }

theorem PairTraffic.onPair_eq {g : StPair → StPair} (h : PairTraffic g) (s : State) : s.onPair g = s.withTraffic (g s.pair) := by
  obtain ⟨c, f, o, l, hg⟩ := h s.pair
  simp only [State.withTraffic, State.onPair, hg]

section
variable (s old : State) (q : StPair)

theorem ite_withTraffic (c : Prop) [Decidable c] (t u : State) :
    (if c then t.withTraffic q else u.withTraffic q) = (if c then t else u).withTraffic q := by
  split <;> rfl

theorem foldl_withTraffic {α : Type} {f g : State → α → State} (h : ∀ s x, f (s.withTraffic q) x = (g s x).withTraffic q)
    (l : List α) : l.foldl f (s.withTraffic q) = (l.foldl g s).withTraffic q := by
  induction l generalizing s with
  | nil => rfl
  | cons x l ih => rw [List.foldl_cons, h, ih, List.foldl_cons]

theorem record_withTraffic (source type : Nat) (sw : Bool) (b : Bytes) :
    (s.withTraffic q).record source type sw b = (s.record source type sw b).withTraffic q := by
  have hrecd : (s.withTraffic q).recd = s.recd := rfl
  have hn (k) : (s.withTraffic q).n k = s.n k := rfl
  have hset (v) : (s.withTraffic q).setBit kRecStatus 5 v = (s.setBit kRecStatus 5 v).withTraffic q := rfl
  have hstandby (t : State) : (t.withTraffic q).standby = t.standby := rfl
  unfold State.record
  simp only [hrecd, hn, hset, hstandby, ite_withTraffic]
  split
  · rfl
  split
  · rfl
  generalize List.any _ _ = hot
  generalize (if hot = true then s.setBit kRecStatus 5 true else s) = t
  generalize (if t.standby = true then 4 else 0) = standby
  generalize (if sw = true then 8 else 0) = software
  generalize (if RecRingSt.lost _ = true then 16 else 0) = lost
  split
  · rfl
  · rfl

theorem drive_withTraffic : (s.withTraffic q).drive = s.drive.withTraffic q := rfl
theorem guardTest_withTraffic : (s.withTraffic q).guardTest = s.guardTest.withTraffic q := by
  unfold State.guardTest
  rw [← ite_withTraffic]
  rfl

theorem act_withTraffic (h : Bool) (kind who : Nat) : (s.withTraffic q).act h kind who = (s.act h kind who).withTraffic q := by
  have hrec : (s.withTraffic q).stopRecord h kind who = (s.stopRecord h kind who).withTraffic q := record_withTraffic ..
  unfold State.act
  rw [hrec]
  split <;> rfl

theorem inField_withTraffic (i off : Nat) : (s.withTraffic q).inField i off = s.inField i off := rfl
theorem inFunc_withTraffic (i : Nat) : (s.withTraffic q).inFunc i = s.inFunc i := rfl
theorem inputs_withTraffic (f : Nat) : (s.withTraffic q).inputs f = s.inputs f := rfl
theorem inDemand_withTraffic (h : Bool) (i : Nat) : (s.withTraffic q).inDemand h i = s.inDemand h i := rfl
theorem inputKind_withTraffic (h : Bool) (i : Nat) : (s.withTraffic q).inputKind h i = s.inputKind h i := rfl
theorem automatic_withTraffic : (s.withTraffic q).automatic = s.automatic := rfl
theorem enabled_withTraffic : (s.withTraffic q).enabled = s.enabled := rfl

theorem settleInput_withTraffic (i : Nat) : (s.withTraffic q).settleInput i = (s.settleInput i).withTraffic q := by
  have hcontact (h : Bool) : (s.withTraffic q).contactDemand h i = s.contactDemand h i := rfl
  have hfault : (s.withTraffic q).bit kSafeInFault i = s.bit kSafeInFault i := rfl
  have hsafe : (s.withTraffic q).safe = s.safe := rfl
  unfold State.settleInput
  simp only [hcontact, hfault, hsafe]
  split
  · rfl
  split
  · split <;> rfl
  · rfl

theorem newDemands_withTraffic (h : Bool) :
    State.newDemands (old.withTraffic q) (s.withTraffic q) h = (State.newDemands old s h).withTraffic q := by
  refine foldl_withTraffic s q (fun s i => ?_) _
  have hset : (s.withTraffic q).setBit kSafeStatus 4 true = (s.setBit kSafeStatus 4 true).withTraffic q := rfl
  simp only [inputKind_withTraffic, inFunc_withTraffic, hset, ite_withTraffic]
  generalize (if s.inFunc i = 1 ∧ s.inputKind h i ≠ 0 then s.setBit kSafeStatus 4 true else s) = t
  have harms : (t.withTraffic q).onArms (fun _ x => x.sto h) = (t.onArms (fun _ x => x.sto h)).withTraffic q := rfl
  simp only [inField_withTraffic, act_withTraffic, harms, ite_withTraffic]

theorem resetInput_withTraffic : (s.withTraffic q).resetInput = s.resetInput.withTraffic q := by
  have hsafe : (s.withTraffic q).safe = s.safe := rfl
  unfold State.resetInput
  simp only [inputs_withTraffic, inDemand_withTraffic, hsafe]
  split
  · rfl
  split
  · rw [← ite_withTraffic]
    rfl
  · rw [← ite_withTraffic, ← ite_withTraffic]
    rfl

theorem evalInputs_withTraffic : State.evalInputs (old.withTraffic q) (s.withTraffic q) = (State.evalInputs old s).withTraffic q := by
  unfold State.evalInputs
  rw [foldl_withTraffic s q (fun s i => settleInput_withTraffic s q i)]
  dsimp only
  have hisIn (t : State) (l : List DevState) : (t.withTraffic q).isIn l = t.isIn l := rfl
  simp only [newDemands_withTraffic, hisIn, automatic_withTraffic, enabled_withTraffic, inputs_withTraffic, act_withTraffic,
    ite_withTraffic, resetInput_withTraffic, guardTest_withTraffic]
  have hbit (t : State) (b : Nat) (v : Bool) : (t.withTraffic q).setBit kSafeStatus b v = (t.setBit kSafeStatus b v).withTraffic q := rfl
  have hmode (t : State) (v : Nat) : (t.withTraffic q).setN kSafeMode v = (t.setN kSafeMode v).withTraffic q := rfl
  have hnj (t : State) (a : Nat) : (t.withTraffic q).nj a = t.nj a := rfl
  have hlim (t : State) (a : Nat) : (t.withTraffic q).slsLimits a = t.slsLimits a := rfl
  simp only [hbit, hmode, hnj, hlim, drive_withTraffic]

theorem takeSet_withTraffic (b : Bytes) : (s.withTraffic q).takeSet b = (s.takeSet b).withTraffic q := by
  unfold State.takeSet
  dsimp only
  have hset (s : State) (k : Nat) (v : Bytes) : (s.withTraffic q).setObj k v = (s.setObj k v).withTraffic q := rfl
  rw [foldl_withTraffic s q (fun s k => hset s k _), foldl_withTraffic _ q (fun s p => hset s p.1 _)]

theorem loadSet_withTraffic : (s.withTraffic q).loadSet = s.loadSet.withTraffic q := by
  have hsafe : (s.withTraffic q).safe = s.safe := rfl
  have hcrc (t : State) (v : Nat) : (t.withTraffic q).setN kSafeSetCrc v = (t.setN kSafeSetCrc v).withTraffic q := rfl
  have hbit (t : State) (v : Bool) : (t.withTraffic q).setBit kSafeStatus 5 v = (t.setBit kSafeStatus 5 v).withTraffic q := rfl
  have hconns (t : State) : (t.withTraffic q).connRecs = t.connRecs := rfl
  have hon (t : State) (f : StSafe → StSafe) : (t.withTraffic q).onSafe f = (t.onSafe f).withTraffic q := rfl
  unfold State.loadSet
  dsimp only
  rw [hsafe]
  split
  · simp only [takeSet_withTraffic, ite_withTraffic, hcrc, hbit, hconns, hon, evalInputs_withTraffic]
  · simp only [hcrc, hbit, hconns, hon, evalInputs_withTraffic]

theorem candidate_withTraffic : (s.withTraffic q).candidate = s.candidate.withTraffic q := by
  unfold State.candidate
  dsimp only
  generalize hbase : State.onSafe _ _ = base
  generalize hbase' : State.onSafe _ _ = base'
  have hsame : base = base'.withTraffic q := by rw [← hbase, ← hbase']; rfl
  have hn (t : State) (k : Nat) : (t.withTraffic q).n k = t.n k := rfl
  have hpaired (t : State) : (t.withTraffic q).paired = t.paired := rfl
  have hset (t : State) (v : Nat) : (t.withTraffic q).setN kTierAvail v = (t.setN kTierAvail v).withTraffic q := rfl
  rw [hsame, loadSet_withTraffic, hn, hpaired, hset]

theorem keeps_withTraffic (t : State) (r : RingId) : (s.withTraffic q).keeps (t.withTraffic q) r = s.keeps t r := by
  cases r <;> rfl

theorem readyAt_withTraffic (fuel id tmpl : Nat) : (s.withTraffic q).readyAt fuel id tmpl = s.readyAt fuel id tmpl := by
  have hobj (k : Nat) : (s.withTraffic q).obj k = s.obj k := rfl
  have hn (k : Nat) : (s.withTraffic q).n k = s.n k := rfl
  have htier : (s.withTraffic q).checkTier = s.checkTier := rfl
  have hkin : (s.withTraffic q).kinEnd8 = s.kinEnd8 := rfl
  have hset : (s.withTraffic q).setEnd8 = s.setEnd8 := rfl
  have hchain : (s.withTraffic q).chain2End8 = s.chain2End8 := rfl
  induction fuel generalizing id tmpl with
  | zero => rfl
  | succ fuel ih => simp only [State.readyAt, hobj, hn, htier, hkin, hset, hchain, ih]

theorem jnReason_withTraffic : (s.withTraffic q).jnReason = s.jnReason := by
  have hchain : (s.withTraffic q).chainTimes = s.chainTimes := by
    have hsq : (s.withTraffic q).sqTEst = s.sqTEst := rfl
    have hkin : (s.withTraffic q).kinEnd8 = s.kinEnd8 := rfl
    have hset : (s.withTraffic q).setEnd8 = s.setEnd8 := rfl
    have hchain2 : (s.withTraffic q).chain2End8 = s.chain2End8 := rfl
    have hconf : (s.withTraffic q).conf = s.conf := rfl
    have htier : (s.withTraffic q).checkTier = s.checkTier := rfl
    simp only [State.chainTimes, hsq, hkin, hset, hchain2, hconf, htier]
  have hbudgets : (s.withTraffic q).budgetsOk = s.budgetsOk := by
    have hobj (k : Nat) : (s.withTraffic q).obj k = s.obj k := rfl
    have hn (k : Nat) : (s.withTraffic q).n k = s.n k := rfl
    have hbad : (s.withTraffic q).budgetBad = s.budgetBad := by
      simp only [State.budgetBad, hobj, hn, readyAt_withTraffic]
    have hkin : (s.withTraffic q).kinBad = s.kinBad := by
      have htier : (s.withTraffic q).checkTier = s.checkTier := rfl
      have harms : (s.withTraffic q).arms = s.arms := rfl
      have hbudget (a : Nat) : (s.withTraffic q).kinBudget a = s.kinBudget a := rfl
      have hsq : (s.withTraffic q).sqTEst = s.sqTEst := rfl
      simp only [State.kinBad, htier, harms, hn, hbudget, hsq]
    simp only [State.budgetsOk, hobj, hn, hbad, hkin]
  have hgraph : (s.withTraffic q).graphOk = s.graphOk := rfl
  simp only [State.jnReason, hchain, hbudgets, hgraph]

theorem commitCheck_withTraffic (g : Conf) (km kp : Bool) (peer : Option PeerInfo) :
    (s.withTraffic q).commitCheck g km kp peer = s.commitCheck g km kp peer := by
  have hconf : (s.withTraffic q).conf = s.conf := rfl
  have hn (k) : (s.withTraffic q).n k = s.n k := rfl
  have hjn : (s.withTraffic q).jnReason = s.jnReason := jnReason_withTraffic s q
  have hkernel : (s.withTraffic q).kernelCheck = s.kernelCheck := rfl
  have hsafety : (s.withTraffic q).safetyCheck = s.safetyCheck := rfl
  have hpair : (s.withTraffic q).pairCheck peer = s.pairCheck peer := rfl
  simp only [State.commitCheck, hconf, hn, hjn, hkernel, hsafety, hpair]

end
end Sys2Proof.Machine
end

section
/-! SUPPORT. CFG_COMMIT, PLANNED_SWAP and the end of SYNC (R25, R27, R378). -/

namespace Sys2Proof.Machine

/-! ### The commit -/

theorem ringKeys_notMem (i : Nat) :
    kBreakIdx i ∉ coreKeys ∧ kFbtCheck i ∉ coreKeys ∧ kRingStatus i ∉ coreKeys ∧ kTtCheck i ∉ coreKeys := by
  simp only [coreKeys, kBreakIdx, kFbtCheck, kRingStatus, kTtCheck, kFaultCause, kCfgError, kSafeChFault, List.mem_cons, List.not_mem_nil,
    or_false]
  omega

theorem masterKeys_notMem (d : Nat) : kDomGmId d ∉ coreKeys ∧ kDomUtcOffset d ∉ coreKeys := by
  simp only [coreKeys, kDomGmId, kDomUtcOffset, kFaultCause, kCfgError, kSafeChFault, List.mem_cons, List.not_mem_nil, or_false]
  omega

theorem countKeys_notMem (e : Nat) : kCntOvf e ∉ coreKeys ∧ kDomUpdates e ∉ coreKeys := by
  simp only [coreKeys, kCntOvf, kDomUpdates, kFaultCause, kCfgError, kSafeChFault, List.mem_cons, List.not_mem_nil, or_false]
  omega

section
variable (s old : State)

theorem steady_ite (c : Prop) [Decidable c] (t u : State) :
    (if c then t else u).core.steady = if c then t.core.steady else u.core.steady := by
  split <;> rfl

theorem steady_forgetMaster (d : Nat) : (s.forgetMaster d).core.steady = s.core.steady := by
  obtain ⟨hmaster, hoffset⟩ := masterKeys_notMem d
  unfold State.forgetMaster
  dsimp only
  rw [steady_setDom, core_setN _ _ hoffset, core_setN _ _ hmaster]

theorem steady_domSource (d : Nat) : (s.domSource old d).core.steady = s.core.steady := by
  unfold State.domSource
  dsimp only
  rw [steady_ite, steady_forgetMaster, ite_self]

theorem steady_commitDomain (d : Nat) : (s.commitDomain old d).core.steady = s.core.steady := by
  have hkeys := domainKeys_notMem d
  have hupdates := (countKeys_notMem d).2
  unfold State.commitDomain
  dsimp only
  split
  · rw [steady_setDom, core_setI _ _ hkeys.2, core_setN _ _ hkeys.1, steady_domSource]
  · split
    · rw [steady_setDom, core_setN _ _ hupdates, core_setN _ _ hkeys.1, steady_domSource]
    · exact steady_domSource s old d

theorem core_fbCommit : (s.fbCommit old).core = s.core := by
  refine core_foldl s (fun s c => ?_) _
  split
  · exact core_fbReset s c
  · rfl

theorem core_setIterActive : s.setIterActive.core = s.core := core_setN s _ (by decide)

theorem core_count (e slots : Nat) (evs : List (Nat × Nat)) : (s.count e slots evs).core = s.core :=
  core_setN _ _ (countKeys_notMem e).1

theorem core_clocksStart : (s.clocksStart old).core = s.core := core_foldl s (fun s e => core_count s e _ _) _

theorem core_gateEff (v : Bytes) : (gateEff v s).core = s.core := by
  unfold gateEff
  dsimp only
  split
  · rw [core_clocksStart, core_onMon, core_setObj _ _ (by decide)]
  · rw [core_setObj _ _ (by decide)]

theorem core_endSessions : s.endSessions.core = s.core := rfl

theorem steady_commitObjects : (s.commitObjects old).core.steady = s.core.steady := by
  have hdomains : (((s.commitDomain old 0).commitDomain old 1).refFix old).core.steady = s.core.steady := by
    rw [steady_refFix, steady_commitDomain, steady_commitDomain]
  unfold State.commitObjects
  dsimp only
  rw [core_onJn, core_ite, core_endSessions, ite_self, core_ite, core_gateEff, ite_self, core_setIterActive, core_fbCommit, hdomains]

theorem steady_align : s.align.core.steady = s.core.steady := by
  have hinc (c : Prop) [Decidable c] (v : Nat) : (if c then s.incNow v else s).core.steady = s.core.steady := by
    rw [steady_ite, steady_incNow, ite_self]
  unfold State.align
  dsimp only
  split
  · rfl
  split
  · exact hinc _ _
  · rfl

theorem core_computeFallbacks (r : RingId) : (s.computeFallbacks r).core = s.core := by
  unfold State.computeFallbacks
  dsimp only
  split
  · rw [core_setN _ _ (ringKeys_notMem _).2.1, core_setRing]
  · rw [core_setN _ _ (ringKeys_notMem _).2.1, core_setRing]

theorem core_keptRing (r : RingId) : (s.keptRing old r).core = s.core := by
  unfold State.keptRing
  dsimp only
  rw [core_ite, core_computeFallbacks, ite_self, core_setRing]

theorem core_commitRing (kept : Bool) (r : RingId) : (s.commitRing old kept r).core = s.core := by
  obtain ⟨hbreak, hcheck, hstatus, -⟩ := ringKeys_notMem (ringNo r)
  unfold State.commitRing
  split
  · exact core_keptRing s old r
  · dsimp only
    rw [core_setN _ _ hcheck, core_setN _ _ hbreak, State.ringBit, core_setBit _ _ _ hstatus, core_setRing]

theorem core_rejoinVersions (peer : Option PeerInfo) : (s.rejoinVersions peer).core = s.core := by
  cases peer with
  | none => rfl
  | some p => exact core_redBit s _ _

/-- A commit makes the staged copy active, clears CFG_ERROR and enters SYNC (R378, R421). -/
theorem commit_core (km kp : Bool) (peer : Option PeerInfo) :
    (s.commit old km kp peer).core.dev.state = .sync ∧ (s.commit old km kp peer).core.staged = none ∧
      (s.commit old km kp peer).core.cfgError = 0 ∧ (s.commit old km kp peer).core.dev.committed = true := by
  have herror : (s.setN kCfgError 0).core.steady.cfgError = 0 := by rw [core_cfgError]; rfl
  have halign (c : Prop) [Decidable c] (t : State) : (if c then t.align else t).core.steady = t.core.steady := by
    rw [steady_ite, steady_align, ite_self]
  have hrejoin (c : Prop) [Decidable c] (t : State) : (if c then t.rejoinVersions peer else t).core = t.core := by
    rw [core_ite, core_rejoinVersions, ite_self]
  have htime (t : State) (n : Nat) :
      ({ t with time := { t.time with lastCycle := n } } : State).core.cfgError = t.core.steady.cfgError := rfl
  unfold State.commit
  dsimp only
  rw [core_goto, core_dropStaged, core_onDev]
  refine ⟨rfl, rfl, ?_, rfl⟩
  dsimp only
  rw [htime, hrejoin, core_onPair, core_commitRing, core_commitRing, halign, steady_commitObjects, herror]

theorem core_writeResults (t : State) (g : Conf) (km kp : Bool) : (s.writeResults t g km kp).core = s.core := by
  have hfree (u : State) (n : Nat) : ({ u with free := n } : State).core = u.core := rfl
  have hresults (w0 w1 a b : Nat) (v : Bytes) :
      (((((s.setN (kTtCheck 0) w0).setN (kTtCheck 1) w1).setN kSolverTEst a).setN kSqTEst b).setObj kJnChainEst v).core = s.core := by
    rw [core_setObj _ _ (by decide), core_setN _ _ (by decide), core_setN _ _ (by decide), core_setN _ _ (by decide),
      core_setN _ _ (by decide)]
  unfold State.writeResults
  dsimp only
  split
  · rw [core_setN _ _ (by decide), core_fresh, hfree, hresults]
  · rw [core_setN _ _ (by decide), hfree, hresults]

end

/-- A command that nothing precedes, and where the axes keep their torque, is evaluated in a state that differs in traffic alone. -/
theorem deviceCmd_kept {rq : Requester} {code : Nat} {s : State} (h : MayCommand rq code s) (htorque : TorqueKept s)
    (hval : leVal (le 2 code) = code) (hlvl : cmdLevel code = some (commandLevel code)) (x : CmdIn) :
    ∃ q, deviceCmd code rq x s = (s.withTraffic q).runCmd rq code x := by
  obtain ⟨hsend, hquiet⟩ := h
  obtain ⟨g, hg, hcmd⟩ := deviceCmd_eq hsend hval hlvl x
  rw [events_kept hquiet htorque, hg.onPair_eq] at hcmd
  exact ⟨_, hcmd⟩

/-- The commit checks of a state see no traffic to the partner. -/
theorem commitChecks_withTraffic (s : State) (q : StPair) (peer : Option PeerInfo) :
    (s.withTraffic q).candidate.commitCheck (s.withTraffic q).conf ((s.withTraffic q).keeps (s.withTraffic q).candidate .m)
        ((s.withTraffic q).keeps (s.withTraffic q).candidate .p) peer =
      s.candidate.commitCheck s.conf (s.keeps s.candidate .m) (s.keeps s.candidate .p) peer := by
  rw [candidate_withTraffic, keeps_withTraffic, keeps_withTraffic, commitCheck_withTraffic]
  rfl

theorem evalCommit_busy {s : State} (h : s.stagedXfer = true) (peer : Option PeerInfo) : s.evalCommit peer = (abBusy, s) := if_pos h

/-- What the evaluation of a commit gives when every check passes. -/
theorem evalCommit_passed {s : State} {peer : Option PeerInfo} (hxfer : s.stagedXfer = false)
    (h : s.candidate.commitCheck s.conf (s.keeps s.candidate .m) (s.keeps s.candidate .p) peer = none) :
    ∃ v, s.evalCommit peer = (0, v) ∧
      v.core.dev.state = .sync ∧ v.core.staged = none ∧ v.core.cfgError = 0 ∧ v.core.dev.committed = true := by
  unfold State.evalCommit
  simp only [hxfer, h]
  exact ⟨_, rfl, commit_core ..⟩

/-- What the evaluation of a commit gives when a check fails. -/
theorem evalCommit_failed {s : State} {peer : Option PeerInfo} {key : Nat} (hxfer : s.stagedXfer = false)
    (h : s.candidate.commitCheck s.conf (s.keeps s.candidate .m) (s.keeps s.candidate .p) peer = some key) :
    ∃ v, s.evalCommit peer = (abRange, v) ∧ v.core = { s.core with cfgError := key * 256 % 2 ^ 32 } := by
  unfold State.evalCommit
  simp only [hxfer, h]
  exact ⟨_, rfl, by rw [core_cfgError, core_writeResults]; rfl⟩

section
variable {s : State} {rq : Requester} {peer : Option PeerInfo}

theorem cfgCommit_passed_completes (hmay : MayCommand rq 0x02 s) (htorque : TorqueKept s) (hstate : s.dev.state = .config)
    (hxfer : s.stagedXfer = false)
    (hpass : s.candidate.commitCheck s.conf (s.keeps s.candidate .m) (s.keeps s.candidate .p) peer = none) :
    Completes (.cfgCommit rq peer) s (fun t =>
      t.dev.state = .sync ∧ t.staged = none ∧ t.n kCfgError = 0 ∧ t.dev.committed = true ∧ (t.rq rq).result = 0) := by
  obtain ⟨q, hcmd⟩ := deviceCmd_kept hmay htorque (by decide) (by decide) ⟨peer, none⟩
  obtain ⟨v, hcommit, hsync, hstaged, herror, hdone⟩ :=
    evalCommit_passed (s := s.withTraffic q) hxfer ((commitChecks_withTraffic s q peer).trans hpass)
  have hlegal : (s.withTraffic q).dev.state ∈ legalIn 0x02 := List.mem_singleton.mpr hstate
  refine completes_of_runCmd (fun _ => rfl) hcmd ((State.evalCmd_cfgCommit _ hlegal).trans hcommit) fun u hcore _ hres => ?_
  rw [← hcore] at hsync hstaged herror hdone
  exact ⟨hsync, hstaged, herror, hdone, hres⟩

theorem cfgCommit_failed_completes (hmay : MayCommand rq 0x02 s) (htorque : TorqueKept s) (hstate : s.dev.state = .config)
    (hxfer : s.stagedXfer = false) (key : Nat)
    (hfail : s.candidate.commitCheck s.conf (s.keeps s.candidate .m) (s.keeps s.candidate .p) peer = some key) :
    Completes (.cfgCommit rq peer) s (fun t =>
      t.dev = s.dev ∧ t.staged = s.staged ∧ t.n kCfgError = key * 256 % 2 ^ 32 ∧ (t.rq rq).result = 0x00000302) := by
  obtain ⟨q, hcmd⟩ := deviceCmd_kept hmay htorque (by decide) (by decide) ⟨peer, none⟩
  obtain ⟨v, hcommit, hv⟩ := evalCommit_failed (s := s.withTraffic q) hxfer ((commitChecks_withTraffic s q peer).trans hfail)
  have hlegal : (s.withTraffic q).dev.state ∈ legalIn 0x02 := List.mem_singleton.mpr hstate
  refine completes_of_runCmd (fun _ => rfl) hcmd ((State.evalCmd_cfgCommit _ hlegal).trans hcommit) fun u hcore _ hres => ?_
  rw [hv] at hcore
  exact ⟨congrArg Core.dev hcore, congrArg Core.staged hcore, congrArg Core.cfgError hcore, hres⟩

theorem cfgCommit_busy_completes (hmay : MayCommand rq 0x02 s) (hstate : s.dev.state = .config) (hxfer : s.stagedXfer = true) :
    Completes (.cfgCommit rq peer) s (fun t => t.dev = s.dev ∧ t.staged = s.staged ∧ (t.rq rq).result = 0x00000402) := by
  refine completes_of_evalCmd (x := ⟨peer, none⟩) (fun _ => rfl) (by decide) (by decide) hmay fun t ht => ?_
  have hdict : t.dict = s.dict := ht.changes.2 .dict (by decide)
  have hstaged : t.staged = s.staged := ht.changes.2 .staged (by decide)
  have hxfer' : t.stagedXfer = true := by rw [State.stagedXfer, hdict]; exact hxfer
  have heval := (State.evalCmd_cfgCommit (s := t) ⟨peer, none⟩ (by simp [ht.dev, legalIn, hstate])).trans (evalCommit_busy hxfer' peer)
  refine ⟨_, _, heval, fun u hcore _ hres => ?_⟩
  exact ⟨(congrArg Core.dev hcore).trans ht.dev, (congrArg Core.staged hcore).trans hstaged, hres⟩

end

/-! ### The planned swap -/

/-- What PLANNED_SWAP is refused by (R371): the device, some objects, and two fields of the pair logic. -/
theorem swapRefusal_congr {s t : State} (hdev : t.dev = s.dev)
    (hobj : ∀ k ∈ [kRedPartner, kRedStatus, kRedPeerHb], t.obj k = s.obj k) (htier : t.tierActive = s.tierActive)
    (hdiff : t.pair.diffRun = s.pair.diffRun) (hinfo : t.pair.peerInfo = s.pair.peerInfo) : t.swapRefusal = s.swapRefusal := by
  have hstatus (b : Nat) : t.bit kRedStatus b = s.bit kRedStatus b := by
    rw [State.bit, State.bit, State.n, State.n, hobj _ (by decide)]
  have hpaired : t.paired = s.paired := by rw [State.paired, State.paired, State.n, State.n, hobj _ (by decide)]
  have hhb : t.peerHb = s.peerHb := by rw [State.peerHb, State.peerHb, hobj _ (by decide), hstatus]
  simp only [State.swapRefusal, State.isIn, hdev, hpaired, hhb, hstatus, hdiff, hinfo, htier]

theorem swapAt_forward (s : State) (a : Nat) (b : Bytes) : (s.forward a b).pair.swapAt = s.pair.swapAt := by
  obtain ⟨g, hg, h⟩ := s.forward_traffic a b
  obtain ⟨c, f, o, l, hp⟩ := hg s.pair
  rw [h, State.onPair, hp]

theorem evalSwap_accepted {s : State} {peer : Option PeerInfo}
    (h : (s.onPair (fun p => { p with peerInfo := peer.or p.peerInfo })).swapRefusal = 0) :
    ∃ v, s.evalSwap peer = (0, v) ∧ v.core = s.core ∧ v.pair.swapAt = some (s.cycle + s.n kRedCmdLag) := by
  unfold State.evalSwap
  simp only [h]
  refine ⟨_, rfl, ?_, ?_⟩
  · rw [core_forward, core_onPair, core_onPair]
  · rw [swapAt_forward]
    rfl

theorem plannedSwap_completes {s : State} {rq : Requester} {peer : Option PeerInfo} (hmay : MayCommand rq 0x40 s)
    (hstate : s.isIn [.ready, .run, .hold] = true)
    (hfree : ({ s with pair := { s.pair with peerInfo := peer.or s.pair.peerInfo } } : State).swapRefusal = 0) :
    Completes (.plannedSwap rq peer) s (fun t =>
      t.dev = s.dev ∧ t.pair.swapAt = some (s.cycle + s.n kRedCmdLag) ∧ (t.rq rq).result = 0) := by
  refine completes_of_evalCmd (x := ⟨peer, none⟩) (fun _ => rfl) (by decide) (by decide) hmay fun t ht => ?_
  obtain ⟨hdiff, hinfo⟩ := ht.pair
  have hkeys : ∀ k ∈ [kRedPartner, kRedStatus, kRedPeerHb], axisKey k = false := by decide
  have hrefusal := swapRefusal_congr (s := { s with pair := { s.pair with peerInfo := peer.or s.pair.peerInfo } })
    (t := t.onPair (fun p => { p with peerInfo := peer.or p.peerInfo })) ht.dev (fun k hk => ht.obj (hkeys k hk)) ht.tierActive hdiff
    (congrArg peer.or hinfo)
  obtain ⟨v, hswap, hcore, hat⟩ := evalSwap_accepted (hrefusal.trans hfree)
  have hlegal : t.dev.state ∈ legalIn 0x40 := by rw [ht.dev]; exact List.contains_iff_mem.mp hstate
  refine ⟨_, _, (State.evalCmd_swap _ hlegal).trans hswap, fun u hu hpair hres => ?_⟩
  rw [hcore] at hu
  rw [← hpair, ht.cycle, ht.n (by decide)] at hat
  exact ⟨(congrArg Core.dev hu).trans ht.dev, hat, hres⟩

/-! ### The end of SYNC -/

theorem core_diverge (s : State) (first : Nat) :
    ∃ d, (s.diverge first).core = { s.core with dev := { s.core.dev with stopDemand := d } } := by
  unfold State.diverge
  split
  · exact ⟨s.dev.stopDemand, rfl⟩
  · dsimp only
    have hrest : ((((s.redBit 5 true).log 0x0242 ([0, 0, 0, 0] ++ le 8 first)).onPair fun p => { p with nullNext := true }) : State).core =
        s.core := by rw [core_onPair, core_log, core_redBit]
    split
    · exact ⟨true, congrArg (fun k : Core => { k with dev := { k.dev with stopDemand := true } }) hrest⟩
    · exact ⟨s.dev.stopDemand, hrest⟩

theorem core_logAnyType (s : State) : s.logAnyType.core = s.core := core_logOpen s.fresh.2 ..

section
variable {s : State}

theorem syncComplete_ready (hstate : s.dev.state = .sync) (hready : s.syncReady = true) : (syncComplete s).dev.state = .ready := by
  have hgoto : (s.goto .ready).core.dev.state = .ready := by rw [core_goto]
  unfold syncComplete
  rw [if_neg (by simp [hstate, hready])]
  dsimp only
  split
  · obtain ⟨d, hd⟩ := core_diverge (s.goto .ready) (s.goto .ready).cycle
    exact (congrArg (·.dev.state) hd).trans hgoto
  · exact hgoto

theorem syncComplete_waits (h : s.dev.state ≠ .sync ∨ s.syncReady = false) : syncComplete s = s :=
  if_pos (by simpa using h)

theorem syncTimeout_core (hstate : s.dev.state = .sync) : (syncTimeout s).core =
    { s.core with staged := some [], dev := { s.core.dev with syncExpired := true, cfgFromReady := false, state := .config } } := by
  unfold syncTimeout
  rw [if_neg (by simp [hstate]), core_goto, core_logAnyType]
  rfl

theorem syncTimeout_outside (hstate : s.dev.state ≠ .sync) : syncTimeout s = s := if_pos hstate

end
end Sys2Proof.Machine

namespace Sys2Proof

open Machine

/-- Settles O16: commit and swap find what the checks read unchanged, and the end of SYNC is one transition or none. -/
theorem commitSwapAndSync : Obligations.CommitSwapAndSync := by
  refine ⟨fun s rq peer => ⟨fun hmay htorque hstate hxfer => ⟨?_, ?_⟩, ?_, ?_⟩, fun s => ⟨?_, ?_, ?_, ?_⟩⟩
  · exact cfgCommit_passed_completes hmay htorque hstate hxfer
  · exact cfgCommit_failed_completes hmay htorque hstate hxfer
  · exact cfgCommit_busy_completes
  · exact plannedSwap_completes
  · exact fun hstate hready => ⟨_, rfl, syncComplete_ready hstate hready⟩
  · exact fun h => ⟨_, rfl, syncComplete_waits h⟩
  · intro hstate
    have hcore := syncTimeout_core hstate
    exact ⟨_, rfl, congrArg (·.dev.state) hcore, congrArg Core.staged hcore, congrArg (·.dev.syncExpired) hcore,
      congrArg (·.dev.cfgFromReady) hcore⟩
  · exact fun hstate => ⟨_, rfl, syncTimeout_outside hstate⟩

end Sys2Proof
end


section
/-! SUPPORT. The course of a state: what the work of a cycle keeps beside the events (R28). -/

namespace Sys2Proof.Machine

/-- The device state, the commands and device faults that wait, the requests that wait, and the last cycle. -/
structure Course where
  state : DevState
  cmds : List QueuedCmd
  deviceFaults : List DevFault
  waiting : List Requester
  lastCycle : Nat

def State.course (s : State) : Course := ⟨s.dev.state, s.dev.cmds, s.dev.deviceFaults, s.dict.waiting, s.time.lastCycle⟩

section
variable {s t u : State}

theorem course_of_core (h : t.core = s.core) : t.course = s.course :=
  congrArg (fun k : Core => (⟨k.dev.state, k.dev.cmds, k.dev.deviceFaults, k.waiting, k.time.lastCycle⟩ : Course)) h

theorem course_of_steady (h : t.core.steady = s.core.steady) : t.course = s.course :=
  congrArg (fun k : Steady => (⟨k.dev.state, k.dev.cmds, k.dev.deviceFaults, k.waiting, k.lastCycle⟩ : Course)) h

theorem course_ite {c : Prop} [Decidable c] {k : Course} (ht : t.course = k) (hu : u.course = k) : (if c then t else u).course = k := by
  split <;> assumption

/-- A step of the work under a condition. -/
theorem course_if {c : Prop} [Decidable c] (h : t.course = s.course) : (if c then t else s).course = s.course := course_ite h rfl

theorem course_foldl {α : Type} {f : State → α → State} (h : ∀ s x, (f s x).course = s.course) (l : List α) (s : State) :
    (l.foldl f s).course = s.course := by
  induction l generalizing s with
  | nil => rfl
  | cons x l ih => exact (ih (f s x)).trans (h s x)

end

section
variable (s : State)

/-- A stop demand stands beside the course. -/
theorem course_stopIf (c : Prop) [Decidable c] : (if c then s.stopDemand else s).course = s.course := course_if rfl

theorem course_setN (k v : Nat) : (s.setN k v).course = s.course := rfl

theorem course_setBit (k b : Nat) (v : Bool) : (s.setBit k b v).course = s.course := rfl

/-! ### Dictionary, records and time -/

theorem course_log (type : Nat) (b : Bytes) : (s.log type b).course = s.course := course_of_core (core_log s type b)

theorem course_deliver (rq : Requester) (m : DictMsg) : (s.deliver rq m).course = s.course := by cases rq <;> rfl

theorem course_pendingTo (rq : Requester) (m : DictMsg) : (s.pendingTo rq m).course = s.course := by
  cases rq
  case session ip port => exact course_deliver s _ _
  case node r a => exact course_deliver s _ _
  all_goals rfl

theorem course_sendOwed : s.sendOwed.course = s.course := by
  refine course_foldl (fun s r => ?_) _ s
  split
  · exact course_pendingTo _ r.rq _
  · rfl

theorem course_spreadInc : s.spreadInc.course = s.course := by
  have hinc (v : Nat) : (s.setTimeInc v).course = s.course := course_of_steady (steady_setTimeInc s v)
  have hnow (v : Nat) : (s.incNow v).course = s.course := course_of_steady (steady_incNow s v)
  unfold State.spreadInc
  split
  · rfl
  · dsimp only
    split
    · exact hnow _
    · exact course_ite (hinc _) (course_ite (hinc _) (hnow _))

theorem course_pushStamp (port : Nat) (egress sw : Bool) (tag q : Nat) : (s.pushStamp port egress sw tag q).course = s.course :=
  course_ite rfl rfl

theorem course_countWork (e : Nat) (l : List (Nat × Nat × Nat)) : (s.countWork e l).course = s.course := rfl

/-! ### Rings -/

theorem course_setRing (r : RingId) (x : RingSt) : (s.setRing r x).course = s.course := by cases r <;> rfl

theorem course_onRing (r : RingId) (f : RingSt → RingSt) : (s.onRing r f).course = s.course := course_setRing s r _

theorem course_sendSlot (r : RingId) (slot type age off flags : Nat) (payload : Bytes) (legs : List (Channel × Side)) :
    (s.sendSlot r slot type age off flags payload legs).course = s.course := course_foldl (fun s _ => course_setRing s r _) legs s

theorem course_txWrite (key cycle : Nat) (v : Bytes) : (s.txWrite key cycle v).course = s.course := by
  unfold State.txWrite
  dsimp only
  refine (course_foldl (fun s e => ?_) _ _).trans (course_foldl (fun s e => ?_) _ _)
  · split
    · rfl
    · exact course_setRing s .p _
  · split
    · rfl
    · exact course_setRing s .m _

theorem course_txObjects : s.txObjects.course = s.course := course_foldl (fun s k => course_txWrite s k _ _) _ s

theorem course_headRequest (r : RingId) (a index sub : Nat) (v : Bytes) : (s.headRequest r a index sub v).course = s.course :=
  course_ite rfl rfl

theorem course_writeDelay (r : RingId) (a : Nat) : (s.writeDelay r a).course = s.course := by
  unfold State.writeDelay
  split
  · rfl
  · exact (course_headRequest _ r a _ _ _).trans (course_onRing s r _)

theorem course_integrate (r : RingId) (a : Nat) : (s.integrate r a).course = s.course :=
  (course_headRequest _ r a _ _ _).trans ((course_headRequest _ r a _ _ _).trans (course_writeDelay s r a))

theorem course_delayChecks (r : RingId) : (s.delayChecks r).course = s.course := by
  unfold State.delayChecks
  dsimp only
  split <;> split <;> rfl

theorem course_applySwitch (r : RingId) : (s.applySwitch r).course = s.course := by
  unfold State.applySwitch
  dsimp only
  split
  · rfl
  · split
    · exact (course_stopIf _ _).trans (course_setRing s r _)
    · exact course_setRing s r _

theorem course_retimeRing (r : RingId) : (s.retimeRing r).course = s.course := by
  refine course_ite rfl ?_
  refine (course_foldl (fun s a => ?_) _ _).trans ((course_delayChecks _ r).trans (course_setRing s r _))
  split
  · exact course_if (course_integrate s r a)
  · rfl

theorem course_sendStart (r : RingId) : (s.sendStart r).course = s.course := course_if (course_setRing s r _)

theorem course_ringCycle (r : RingId) : (s.ringCycle r).course = s.course := by
  have hloops : ((s.onRing r (fun x => x.endLoops s.cycle)).retimeRing r).course = s.course :=
    (course_retimeRing _ r).trans (course_onRing s r _)
  exact (course_applySwitch _ r).trans <| (course_ite (course_setRing _ r _) (course_if (course_setRing _ r _))).trans <|
    (course_if (course_onRing _ r _)).trans <| (course_if (course_sendStart _ r)).trans hloops

theorem course_sentOut (r : RingId) (slot type off flags : Nat) (payload : Bytes) (legs : List (Channel × Side)) :
    (s.sentOut r slot type off flags payload legs).course = s.course := (course_sendSlot _ r _ _ _ _ _ _ _).trans (course_setRing s r _)

theorem course_syncStamp (r : RingId) (sd : Side) : (s.syncStamp r sd).course = s.course := course_pushStamp s.fresh.2 _ _ _ _ _

theorem course_syncOccurrence (r : RingId) : (s.syncOccurrence r).course = s.course :=
  course_ite rfl ((course_foldl (fun s sd => course_syncStamp s r sd) _ _).trans (course_sentOut s r _ _ _ _ _ _))

theorem course_syncCycle (r : RingId) : (s.syncCycle r).course = s.course := course_if (course_syncOccurrence s r)

/-! ### Job network -/

theorem course_onJn (f : StJn → StJn) : (s.onJn f).course = s.course := rfl

theorem course_makeReady (t : Fired) : (s.makeReady t).course = s.course := by
  unfold State.makeReady
  split
  · rfl
  · dsimp only
    split <;> rfl

theorem course_enlist (x : InstSt) (t : Fired) : (s.enlist x t).course = s.course := course_ite (course_makeReady s t) rfl

theorem course_fire (id : Nat) : (s.fire id).course = s.course := by
  unfold State.fire
  split
  · rfl
  · exact course_ite rfl (course_enlist _ _ _)

theorem course_fireFull : s.fireFull.course = s.course := course_foldl course_fire _ s

theorem course_checkMeas (id age : Nat) : (s.checkMeas id age).course = s.course := by
  have hstop (c : Prop) [Decidable c] : (if c then s.stopDemand.setBit kJnStatus 5 true else s).course = s.course := course_if rfl
  refine course_ite rfl (course_ite rfl ?_)
  dsimp only
  split
  · exact Eq.trans (course_ite rfl (course_log _ _ _)) (hstop _)
  · exact hstop _

theorem course_place (id port tag : Nat) (t : Tok) : (s.place id port tag t).course = s.course := by
  unfold State.place
  split
  · rfl
  refine course_ite rfl ?_
  split
  · rfl
  refine course_ite (course_ite rfl (course_ite rfl ?_)) (course_ite (course_ite rfl rfl) rfl)
  exact course_if (course_checkMeas _ id _)

theorem course_arrive (id port tag : Nat) (t : Tok) : (s.arrive id port tag t).course = s.course :=
  (course_fire _ id).trans (course_place s id port tag t)

theorem course_fillPorts : s.fillPorts.course = s.course := by
  unfold State.fillPorts
  split
  · rfl
  dsimp only
  generalize hfilled : s.arms.foldl _ s = t
  have ht : t.course = s.course := by
    rw [← hfilled]
    refine course_foldl (fun s a => ?_) _ _
    split
    · exact course_ite rfl (course_arrive s _ _ _ _)
    · rfl
  split
  · exact (course_onJn _ _).trans ((course_foldl (fun s j => course_arrive s _ _ _ _) _ _).trans ht)
  · exact (course_foldl (fun s a => course_arrive s _ _ _ _) _ _).trans ht

theorem course_bypassInsts : s.bypassInsts.course = s.course := course_ite (course_ite rfl rfl) rfl

theorem course_graphCycle : s.graphCycle.course = s.course :=
  course_ite ((course_bypassInsts _).trans (course_ite rfl rfl)) (course_ite rfl rfl)

/-! ### Motion of the arms -/

theorem course_setGrpMov (g : Nat) (x : Mov) : (s.setGrpMov g x).course = s.course := rfl

theorem course_armCam (a : Nat) : (s.armCam a).course = s.course := by
  unfold State.armCam
  dsimp only
  split
  · rfl
  · exact course_ite rfl (course_ite rfl rfl)

theorem course_armEngage (a : Nat) (x : Motion) : (s.armEngage a x).1.course = s.course := by
  unfold State.armEngage
  dsimp only
  split <;> rfl

theorem course_armCamStart (a : Nat) : (s.armCamStart a).course = s.course := by
  refine course_ite rfl ?_
  have hengage := course_armEngage s a (s.armMov a).motion
  split
  next t off h => rw [h] at hengage; exact hengage
  next t h => rw [h] at hengage; exact hengage

theorem course_armTake (a n : Nat) (d : Bytes) : (s.armTake a n d).course = s.course := course_armCamStart _ a

theorem course_armJog (a n : Nat) : (s.armJog a n).course = s.course := by
  unfold State.armJog
  split
  · rfl
  · exact course_ite (course_ite rfl rfl) rfl

theorem course_armRest (a n : Nat) : (s.armRest a n).course = s.course := course_ite rfl rfl

theorem course_clockStep (l : Nat) (arms : List Nat) : (s.clockStep l arms).course = s.course := course_foldl (fun _ _ => by rfl) arms s

theorem course_clocks : s.clocks.course = s.course :=
  (course_foldl (fun s _ => course_ite rfl (course_clockStep s _ _)) _ _).trans
    (course_foldl (fun s _ => course_if (course_clockStep s _ _)) _ _)

theorem course_joinCrossings (ms : List Nat) : (s.joinCrossings ms).course = s.course := course_foldl (fun _ _ => by rfl) ms s

theorem course_grpNow (g cmd : Nat) : (s.grpNow g cmd).course = s.course := by
  refine course_ite rfl ((course_foldl (fun s a => course_of_core (core_reseed s true a)) _ _).trans (course_ite ?_ rfl))
  exact (course_foldl (fun _ _ => by rfl) _ _).trans (course_joinCrossings _ _)

theorem course_onMot (f : StMotion → StMotion) : (s.onMot f).course = s.course := rfl

theorem course_onMArm (a : Nat) (f : ArmSt → ArmSt) : (s.onMArm a f).course = s.course := rfl

theorem course_grpCycle : s.grpCycle.course = s.course := by
  rw [State.grpCycle, course_onMot]
  refine course_foldl (fun s p => ?_) _ s
  rw [course_grpNow]

theorem course_membersStart (g n : Nat) : (s.membersStart g n).course = s.course := course_foldl (fun _ _ => by rfl) _ s

theorem course_groupAgain (g n : Nat) : (s.groupAgain g n).course = s.course := course_ite rfl (course_membersStart s g n)

theorem course_groupRun (g : Nat) : (s.groupRun g).course = s.course :=
  course_ite (course_ite (course_membersStart _ g _) rfl) ((course_foldl (fun _ _ => by rfl) _ _).trans (course_membersStart _ g _))

theorem course_ikFail (a : Nat) : (s.ikFail a).course = s.course := by
  unfold State.ikFail
  dsimp only
  split
  · exact (course_foldl (fun _ _ => by rfl) _ _).trans rfl
  · rfl

theorem course_planAgain (a n : Nat) : (s.planAgain a n).course = s.course := course_ite rfl rfl

theorem course_planMoves (a n : Nat) : (s.planMoves a n).course = s.course := by
  unfold State.planMoves
  dsimp only
  split
  · have hagain (c : Prop) [Decidable c] (t : State) (g : Nat) :
        ((if c then t.membersStart g n else t).groupAgain g n).course = t.course :=
      (course_groupAgain _ g n).trans (course_if (course_membersStart t g n))
    exact course_ite rfl (course_ite (hagain _ _ _) ((course_groupRun _ _).trans (hagain _ _ _)))
  · refine (course_ite (course_if (course_armRest _ a n)) ?_).trans (course_planAgain s a n)
    exact (course_armRest _ a n).trans ((course_armJog _ a n).trans (course_foldl (fun s d => course_armTake s a n d) _ _))

theorem course_runArm (a : Nat) : (s.runArm a).course = s.course := by
  have hfail (c : Prop) [Decidable c] (t : State) : (if c then t.ikFail a else t).course = t.course := course_if (course_ikFail t a)
  exact (course_onMArm _ a _).trans ((course_countWork _ _ _).trans ((hfail _ _).trans (course_planMoves s a _)))

theorem course_planners : s.planners.course = s.course :=
  course_ite rfl (course_foldl (fun s a => course_if (course_runArm s a)) _ s)

theorem course_underruns : s.underruns.course = s.course := by
  refine course_ite rfl (course_foldl (fun s a => ?_) _ s)
  refine course_ite (course_onMArm s a _) (course_ite rfl ?_)
  dsimp only
  rw [State.stopDemand]
  exact course_log _ _ _

theorem course_moveEnds : s.moveEnds.course = s.course := by
  have hcam (t : State) (a : Nat) : ((t.armCam a).armCamStart a).course = t.course :=
    (course_armCamStart _ a).trans (course_armCam t a)
  unfold State.moveEnds
  refine Eq.trans (course_foldl (fun s g => ?_) _ _) (course_foldl (fun s a => ?_) _ _)
  · refine course_if ?_
    dsimp only
    rw [course_setGrpMov]
    exact course_ite rfl (course_membersStart s g _)
  · exact course_ite (hcam s a) ((course_armCamStart _ a).trans (hcam s a))

/-! ### Height controls and virtual masters -/

theorem course_hcEval (c m age : Nat) : (s.hcEval c m age).course = s.course := by
  unfold State.hcEval
  rw [State.onHc, course_onMot]
  simp only [course_setBit, course_setN]

theorem course_hcStep (c : Nat) : (s.hcStep c).course = s.course := by
  unfold State.hcStep
  dsimp only
  rw [State.onHc, course_onMot]
  refine course_ite rfl (course_ite ?_ (course_ite (course_ite rfl rfl) rfl))
  split
  · exact course_ite (course_hcEval s c _ _) rfl
  · rfl

theorem course_hcCycle : s.hcCycle.course = s.course := course_foldl course_hcStep _ s

theorem course_vmStep (n : Nat) : (s.vmStep n).course = s.course := course_ite rfl rfl

theorem course_vmCycle : s.vmCycle.course = s.course := course_ite rfl (course_foldl course_vmStep _ s)

theorem course_motionCycle : s.motionCycle.course = s.course :=
  (course_vmCycle _).trans <| (course_planners _).trans <| (course_underruns _).trans <| (course_moveEnds _).trans <|
    (course_clocks _).trans <| (course_hcCycle _).trans (course_grpCycle _)

/-! ### Feedback and emulation -/

theorem course_fbVelocity (c : Nat) : (s.fbVelocity c).course = s.course := by
  unfold State.fbVelocity
  split
  · exact course_ite rfl rfl
  · rfl

theorem course_fbRead (c : Nat) : (s.fbRead c).course = s.course := by
  refine course_ite rfl ?_
  dsimp only
  split
  · rfl
  · exact course_fbVelocity _ c

theorem course_fbCycle : s.fbCycle.course = s.course := course_foldl course_fbRead _ s

theorem course_emuPush (mine : Nat → Bool) (t : Nat) : (s.emuPush mine t).course = s.course :=
  course_foldl (fun _ _ => by exact course_ite rfl rfl) _ s

/-! ### Square -/

theorem course_setReq (a m : Nat) : (s.setReq a m).course = s.course := course_foldl (fun _ _ => by rfl) _ s

theorem course_dropReq (a : Nat) : (s.dropReq a).course = s.course := course_setReq _ a 0

theorem course_endReleases : s.endReleases.course = s.course := course_foldl (fun _ _ => by exact course_ite rfl rfl) _ s

theorem course_grants (l : List CrPend) (named : Nat) (s : State) : (State.grants l named s).course = s.course := by
  induction l generalizing named s with
  | nil => rfl
  | cons r l ih => exact (ih _ _).trans (course_if ((course_foldl (fun _ _ => by rfl) _ _).trans (course_dropReq s r.arm)))

theorem course_squareCycle : s.squareCycle.course = s.course :=
  course_ite ((course_of_core (core_crHolders _)).trans ((course_grants _ _ _).trans (course_endReleases _))) rfl

/-! ### Auxiliary axes -/

theorem course_axCamStart (n : Nat) : (s.axCamStart n).course = s.course := by
  refine course_ite rfl ?_
  dsimp only
  split <;> rfl

theorem course_axTake (n : Nat) (d : Bytes) : (s.axTake n d).course = s.course := course_axCamStart _ n

theorem course_axMs (n c t : Nat) : (s.axMs n c t).course = s.course := course_of_core (core_axMs s n c t)

theorem course_axApply (n : Nat) (d : Bytes) : (s.axApply n d).course = s.course := by
  refine course_ite (course_axMs _ n _ _) ?_
  split
  · exact course_ite rfl rfl
  · exact course_axTake s n d

theorem course_msSettle (n t : Nat) : (s.msSettle n t).course = s.course := by
  unfold State.msSettle
  split
  · rfl
  · exact course_ite (course_ite (course_axMs _ n _ t) rfl) rfl

theorem course_msEvaluate (n : Nat) : (s.msEvaluate n).course = s.course := course_msSettle _ n _

theorem course_axCam (n : Nat) : (s.axCam n).course = s.course := by
  unfold State.axCam
  dsimp only
  split
  · rfl
  · exact course_ite rfl (course_ite rfl rfl)

theorem course_onAx (n : Nat) (f : AxSt → AxSt) : (s.onAx n f).course = s.course := rfl

theorem course_setAxMov (n : Nat) (x : Mov) : (s.setAxMov n x).course = s.course := rfl

theorem course_axDegrade (n : Nat) : (s.axDegrade n).course = s.course := course_of_core (core_axDegrade s n)

theorem course_axUnstill (n : Nat) : (s.axUnstill n).course = s.course := course_axMs _ n _ _

theorem course_axCycle1 (n : Nat) : (s.axCycle1 n).course = s.course := by
  have hrest (c : Prop) [Decidable c] (t : State) : (if c then t.axRest n else t).course = t.course := course_if rfl
  have hunstill (c : Prop) [Decidable c] (t : State) : (if c then t.axUnstill n else t).course = t.course :=
    course_if (course_axUnstill t n)
  refine course_ite rfl ?_
  dsimp only
  rw [course_msEvaluate, course_setBit, course_setN, hunstill, course_onAx, hrest, course_axCamStart, course_setAxMov, course_axCamStart,
    course_axCam, course_axDegrade]
  exact course_foldl (fun s d => course_axApply s n d) _ _

theorem course_axStands (n : Nat) : (s.axStands n).course = s.course := by
  have hstill (c : Prop) [Decidable c] (t : State) : (if c then t.axStill n else t).course = t.course :=
    course_if (course_of_core (core_axStill t n))
  exact course_ite rfl ((course_msEvaluate _ n).trans (hstill _ _))

theorem course_axCycle : s.axCycle.course = s.course :=
  (course_foldl (fun s n => course_ite (course_axCycle1 s n) (course_axStands s n)) _ _).trans (course_of_core (core_torqueCheck s))

theorem course_shedStandstill : s.shedStandstill.course = s.course := course_ite rfl (course_ite rfl rfl)

theorem course_motionPart : s.motionPart.course = s.course :=
  (course_shedStandstill _).trans <| (course_squareCycle _).trans <| (course_emuPush _ _ _).trans <| (course_axCycle _).trans <|
    (course_motionCycle _).trans <| (course_fbCycle _).trans (course_fillPorts s)

/-! ### Pair logic and the cycle -/

theorem course_clearTrip : s.clearTrip.course = s.course := course_if (course_of_core (core_becomeEligible _))

theorem course_formDigest : s.formDigest.course = s.course := course_ite rfl rfl

theorem course_hbMiss (h : HbPath) : (s.hbMiss h).course = s.course := course_ite rfl rfl

theorem course_singleHead (v : Bool) : (s.singleHead v).course = s.course :=
  course_ite rfl ((course_onRing _ .p _).trans (course_onRing _ .m _))

theorem course_checkSwap : s.checkSwap.course = s.course := by
  unfold State.checkSwap
  split
  · exact course_if (course_log _ _ _)
  · rfl

theorem course_onPair (f : StPair → StPair) : (s.onPair f).course = s.course := rfl

theorem course_refSwitch (new : Nat) : (s.refSwitch new).course = s.course := course_of_steady (steady_refSwitch s new)

theorem course_pairCycle : s.pairCycle.course = s.course := by
  have hstop (c : Prop) [Decidable c] (t : State) (f : StPair → StPair) : (if c then t.stopDemand.onPair f else t).course = t.course :=
    course_if rfl
  have hhead (c : Prop) [Decidable c] (t : State) (f : StPair → StPair) :
      (if c then (t.singleHead true).onPair f else t).course = t.course := course_if (course_singleHead t true)
  have hequal (t : State) (b : Bytes) (f : StPair → StPair) : (((t.redBit 5 false).log 0x0242 b).onPair f).course = t.course :=
    (course_log _ _ _).trans (course_of_core (core_redBit t 5 false))
  have hrole (c d : Prop) [Decidable c] [Decidable d] (t : State) :
      (if c then (t.onPair fun p => { p with active := true }).refSwitch (t.onPair fun p => { p with active := true }).refWanted
        else if d then (t.onPair fun p => { p with active := false }).refSwitch (t.onPair fun p => { p with active := false }).refWanted
        else t).course = t.course := course_ite (course_refSwitch _ _) (course_ite (course_refSwitch _ _) rfl)
  refine Eq.trans (course_if (hequal _ _ _)) ?_
  rw [hstop, hhead, hrole, course_onPair, course_hbMiss, course_hbMiss, course_formDigest, course_onPair, course_clearTrip]

theorem course_lineCycle : s.lineCycle.course = s.course :=
  (course_checkSwap _).trans <| (course_syncCycle _ .p).trans <| (course_syncCycle _ .m).trans <| (course_ringCycle _ .p).trans <|
    (course_ringCycle _ .m).trans (course_pairCycle _)

theorem course_linkBeat : s.linkBeat.course = s.course := course_ite rfl rfl

/-- Where no request waits, the dictionary engine works off none (R396). -/
theorem course_engineCycle (h : s.dict.waiting = []) : s.engineCycle.course = s.course := by
  have hserved : (s.onMon fun m => { m with served := 0 }).dict.waiting.length = 0 := congrArg List.length h
  unfold State.engineCycle
  dsimp only
  rw [hserved]
  exact course_sendOwed _

end
end Sys2Proof.Machine
end

section
/-! SUPPORT. The local events: what they keep, and how FAULT puts the arms in STO (R25, R26, R28). -/

namespace Sys2Proof.Machine

/-! ### Events beside the queues -/

/-- What no local event changes: the commands and requests that wait, and cell time (R28). -/
def Core.queues (k : Core) : List QueuedCmd × List Requester × StTime := (k.dev.cmds, k.waiting, k.time)

section
variable (s : State)

theorem queues_toFault (c : Nat) (sto : Bool) : (s.toFault c sto).core.queues = s.core.queues := by rw [core_toFault]; rfl

theorem queues_toReady : s.toReady.core.queues = s.core.queues := by rw [core_toReady]; rfl

theorem queues_toHold : s.toHold.core.queues = s.core.queues := by rw [core_toHold]; rfl

theorem queues_ite (c : Prop) [Decidable c] (t u : State) :
    (if c then t else u).core.queues = if c then t.core.queues else u.core.queues := by
  split <;> rfl

theorem core_faultRecord (f : DevFault) : (s.faultRecord f).core = s.core := core_log s _ _

theorem core_forwardEvent : s.forwardEvent.core = s.core := by
  have h := core_forward { s with free := s.free + 1 } s.cycle (Config.freeBytes s.free)
  rw [State.forwardEvent, core_ite, h]
  exact ite_self _

theorem queues_deviceFaultEvents : s.deviceFaultEvents.core.queues = s.core.queues := by
  unfold State.deviceFaultEvents
  dsimp only
  split
  · rfl
  · rw [queues_ite, queues_toFault, queues_ite, core_faultRecord]
    exact (ite_congr rfl (fun _ => rfl) (fun _ => ite_self _)).trans (ite_self _)

theorem queues_enterDegraded : s.enterDegraded.core.queues = s.core.queues := by
  have henter : (s.enter .degraded).core.queues = s.core.queues := by rw [core_enter]; rfl
  unfold State.enterDegraded
  dsimp only
  rw [core_safeLog, core_faultCause, core_setBit _ _ _ (by decide)]
  exact henter

theorem queues_chanFaultEvent : s.chanFaultEvent.core.queues = s.core.queues := by
  unfold State.chanFaultEvent
  rw [queues_ite, queues_ite, queues_ite, queues_toFault, core_entered, queues_enterDegraded, ite_self, ite_self, ite_self]

theorem queues_chanFaultEvents : s.chanFaultEvents.core.queues = s.core.queues := by
  unfold State.chanFaultEvents
  dsimp only
  generalize s.dev.chanFaults = l
  have hmarks : (s.onDev fun d => { d with chanFaults := [] }).core.queues = s.core.queues := rfl
  rw [← hmarks]
  generalize (s.onDev fun d => { d with chanFaults := [] }) = t
  induction l generalizing t with
  | nil => rfl
  | cons x l ih => exact (ih _).trans (queues_chanFaultEvent t)

theorem queues_stopEvent : s.stopEvent.core.queues = s.core.queues := by
  unfold State.stopEvent
  split
  · exact queues_toReady s
  · exact queues_toReady s
  · exact queues_toFault s _ _
  · rw [core_btAbort]
  · rfl

theorem queues_ss2Event : s.ss2Event.core.queues = s.core.queues := by
  unfold State.ss2Event
  split
  · exact queues_toHold s
  · exact queues_toFault s _ _
  · rfl

theorem queues_stopEvents : s.stopEvents.core.queues = s.core.queues := by
  unfold State.stopEvents
  dsimp only
  rw [queues_ite, queues_toFault, ite_self, queues_ite, queues_ss2Event, ite_self, queues_ite, queues_stopEvent, ite_self, queues_ite,
    queues_toFault, ite_self]
  rfl

theorem queues_localEvents : s.localEvents.core.queues = s.core.queues := by
  have hevents : s.deviceFaultEvents.chanFaultEvents.stopEvents.core.queues = s.core.queues := by
    rw [queues_stopEvents, queues_chanFaultEvents, queues_deviceFaultEvents]
  unfold State.localEvents
  dsimp only
  rw [queues_ite, core_forwardEvent, ite_self, hevents]

theorem queues_torqueCheck : s.torqueCheck.core.queues = s.core.queues := congrArg Core.queues (core_torqueCheck s)

end

/-- Where no command waits, the events are the local ones between two torque checks (R28, R299). -/
theorem events_noCommands {s : State} (h : s.dev.cmds = []) (all : Bool) : s.events all = s.torqueCheck.localEvents.torqueCheck := by
  have hcmds : s.torqueCheck.localEvents.torqueCheck.dev.cmds = [] := by
    have hqueues : s.torqueCheck.localEvents.torqueCheck.core.queues = s.core.queues := by
      rw [queues_torqueCheck, queues_localEvents, queues_torqueCheck]
    exact (congrArg Prod.fst hqueues).trans h
  rw [State.events, commandEvents_notDue]
  intro c hc
  rw [hcmds] at hc
  exact absurd hc List.not_mem_nil

theorem queues_events {s : State} (h : s.dev.cmds = []) (all : Bool) : (s.events all).core.queues = s.core.queues := by
  rw [events_noCommands h, queues_torqueCheck, queues_localEvents, queues_torqueCheck]

/-! ### Events in FAULT -/

/-- Both safety halves of every arm are in STO. -/
def State.allSto (s : State) : Prop := ∀ a ∈ s.safe.arms, a.stoP = true ∧ a.stoH = true

section
variable {s : State}

theorem chanFaultEvents_fault (h : s.dev.state = .fault) : s.chanFaultEvents = s.onDev fun d => { d with chanFaults := [] } := by
  have hone {t : State} (ht : t.dev.state = .fault) : t.chanFaultEvent = t := by simp [State.chanFaultEvent, State.isIn, ht]
  have hfold {α : Type} (l : List α) {t : State} (ht : t.dev.state = .fault) :
      l.foldl (fun (s : State) _ => s.chanFaultEvent) t = t := by
    induction l with
    | nil => rfl
    | cons x l ih => rw [List.foldl_cons, hone ht, ih]
  exact hfold s.dev.chanFaults h

theorem stopEvents_fault (h : s.dev.state = .fault) : s.stopEvents =
    s.onDev fun d => { d with stopDemand := false, ss2Demand := false, degTimerEnd := false, shedEvent := 0 } := by
  have hstop {t : State} (ht : t.dev.state = .fault) : t.stopEvent = t := by simp [State.stopEvent, ht]
  have hss2 {t : State} (ht : t.dev.state = .fault) : t.ss2Event = t := by simp [State.ss2Event, ht]
  unfold State.stopEvents
  dsimp only
  generalize hbase : (s.onDev fun d => { d with stopDemand := false, ss2Demand := false, degTimerEnd := false, shedEvent := 0 }) = t
  have ht : t.dev.state = .fault := by rw [← hbase]; exact h
  have hdegraded : ¬(s.dev.degTimerEnd = true ∧ t.dev.state = .degraded) := fun hc => by rw [ht] at hc; exact absurd hc.2 (by decide)
  have hshed : ¬(s.dev.shedEvent = 5 ∧ t.dev.state ≠ .fault) := fun hc => hc.2 ht
  rw [if_neg hshed, hstop ht, ite_self, hss2 ht, ite_self, if_neg hdegraded]

theorem safe_forwardEvent : s.forwardEvent.safe = s.safe := by
  obtain ⟨g, -, h⟩ := ({ s with free := s.free + 1 } : State).forward_traffic s.cycle (Config.freeBytes s.free)
  rw [State.forwardEvent, h]
  split <;> rfl

/-- After a device fault the other events of the evaluation clear their marks alone. -/
theorem localEvents_of_fault {s : State} (h : s.deviceFaultEvents.dev.state = .fault) :
    ∃ d : StDev → StDev, (∀ x, (d x).state = x.state ∧ (d x).deviceFaults = x.deviceFaults) ∧
      s.localEvents.core = (s.deviceFaultEvents.onDev d).core ∧ s.localEvents.safe = s.deviceFaultEvents.safe := by
  have hchan := chanFaultEvents_fault h
  have hstop := stopEvents_fault (s := s.deviceFaultEvents.chanFaultEvents) (by rw [hchan]; exact h)
  rw [hchan] at hstop
  refine ⟨fun d => { d with chanFaults := [], stopDemand := false, ss2Demand := false, degTimerEnd := false, shedEvent := 0 },
    fun _ => ⟨rfl, rfl⟩, ?_, ?_⟩
  · unfold State.localEvents
    dsimp only
    rw [core_ite, core_forwardEvent, ite_self, hchan, hstop]
    rfl
  · unfold State.localEvents
    dsimp only
    rw [apply_ite State.safe, safe_forwardEvent, ite_self, hchan, hstop]
    rfl

end
/-! ### STO in FAULT -/

theorem arms_foldl {α : Type} {f : State → α → State} (h : ∀ s x, (f s x).safe.arms = s.safe.arms) (l : List α) (s : State) :
    (l.foldl f s).safe.arms = s.safe.arms := by
  induction l generalizing s with
  | nil => rfl
  | cons x l ih => exact (ih (f s x)).trans (h s x)

section
variable (s : State)

theorem arms_record (source type : Nat) (sw : Bool) (b : Bytes) : (s.record source type sw b).safe.arms = s.safe.arms :=
  congrArg StSafe.arms ((record_recordOnly s source type sw b).1.2 .safe (by decide))

theorem arms_motionStop : s.motionStop.safe.arms = s.safe.arms := by
  have hjog (t : State) : t.jogMask.safe.arms = t.safe.arms := rfl
  have hmov (t : State) (a : Nat) (x : Mov) : (t.setArmMov a x).safe.arms = t.safe.arms := rfl
  have hstop (t : State) (a : Nat) (f : ArmSt → ArmSt) : (t.onMArm a f).safe.arms = t.safe.arms := rfl
  rw [State.motionStop, hjog]
  refine Eq.trans (arms_foldl (fun s g => ?_) _ _) (arms_foldl (fun s a => ?_) _ s)
  · rfl
  · dsimp only
    split
    · rw [hmov, hstop]
    · rw [hmov, hstop]

theorem arms_axHalt : s.axHalt.safe.arms = s.safe.arms := congrArg StSafe.arms ((axisWork_axHalt s).1.2 .safe (by decide))

theorem arms_leaveDegraded : s.leaveDegraded.safe.arms = s.safe.arms := arms_record s _ _ _ _

theorem arms_cmpOff (c : Nat) (d : Bool) : (s.cmpOff c d).safe.arms = s.safe.arms := by cases d <;> rfl

theorem arms_lineOff (d : Bool) : (s.lineOff d).safe.arms = s.safe.arms :=
  (arms_foldl (fun s c => arms_cmpOff s c d) _ _).trans (arms_foldl (fun _ _ => by rfl) _ s)

theorem arms_axInert : s.axInert.safe.arms = s.safe.arms := arms_foldl (fun _ _ => by rfl) _ s

theorem arms_outputsInert : s.outputsInert.safe.arms = s.safe.arms := by
  have hidle (t : State) : t.fbIdle.safe.arms = t.safe.arms := rfl
  have hpass (t : State) : t.ringsPass.safe.arms = t.safe.arms := rfl
  rw [State.outputsInert, hidle, arms_lineOff, arms_axInert, hpass]
  rfl

theorem arms_clearCrossings : s.clearCrossings.safe.arms = s.safe.arms :=
  (arms_foldl (fun _ _ => by rfl) _ _).trans (arms_foldl (fun _ _ => by rfl) _ s)

theorem arms_enter (d : DevState) : (s.enter d).safe.arms = s.safe.arms := by
  unfold State.enter
  split <;> rfl

end

theorem SafeArm.stoBoth_sto (x : SafeArm) : x.stoBoth.stoP = true ∧ x.stoBoth.stoH = true := ⟨rfl, rfl⟩

theorem forall_modAt {α : Type} {P : α → Prop} {f : α → α} (hf : ∀ x, P x → P (f x)) {l : List α} (h : ∀ x ∈ l, P x)
    (i : Nat) :
    ∀ x ∈ modAt l i f, P x := by
  induction l generalizing i with
  | nil => simp [modAt]
  | cons a l ih =>
    obtain ⟨ha, hl⟩ := List.forall_mem_cons.mp h
    cases i with
    | zero => exact List.forall_mem_cons.mpr ⟨hf a ha, hl⟩
    | succ i => exact List.forall_mem_cons.mpr ⟨ha, ih hl i⟩

section
variable {s t : State}

theorem State.allSto.of_arms (h : s.allSto) (ht : t.safe.arms = s.safe.arms) : t.allSto := by rw [State.allSto, ht]; exact h

theorem State.allSto.btAbort (h : s.allSto) : s.btAbort.allSto := by
  unfold State.btAbort
  split
  · exact h
  · rename_i b _
    have harm : (s.onArm b.arm SafeArm.stoBoth).allSto := forall_modAt (fun x _ => SafeArm.stoBoth_sto x) h b.arm
    have hdone : (((s.onArm b.arm SafeArm.stoBoth).onSafe (fun x => { x with bt := none })).onArm b.arm
        (fun x => { x with btLast := 3 })).allSto := forall_modAt (fun _ hx => by exact hx) harm b.arm
    exact hdone.of_arms (arms_record _ _ _ _ _)

theorem State.allSto.entered (h : s.allSto) (hstate : s.dev.state = .fault) (old : DevState) : (s.entered old).allSto := by
  have hready : (if old = .ready then s.btAbort else s).allSto := by
    split
    · exact h.btAbort
    · exact h
  have hdegraded (t : State) : (if old = .degraded then t.leaveDegraded else t).safe.arms = t.safe.arms := by
    split
    · exact arms_leaveDegraded t
    · rfl
  have hservice (t : State) : (if old = .service then t.sysCalOff.tapLeave else t).safe.arms = t.safe.arms := by
    split <;> rfl
  unfold State.entered
  dsimp only
  generalize hleft : (if old = .service then State.tapLeave _ else _ : State) = t
  have hcore : t.core = s.core := by
    rw [← hleft, core_ite, core_tapLeave, core_sysCalOff, ite_self, core_ite, core_leaveDegraded, ite_self, core_ite,
      core_btAbort, ite_self]
  have ht : t.dev.state = .fault := (congrArg (·.dev.state) hcore).trans hstate
  have harms : t.allSto := hready.of_arms (by rw [← hleft, hservice, hdegraded])
  have hdrive (u : State) : u.drive.safe.arms = u.safe.arms := rfl
  simp only [ht]
  exact harms.of_arms (by rw [hdrive, arms_clearCrossings, arms_outputsInert])

theorem State.allSto.goto_fault (h : s.allSto) (hstate : s.dev.state ≠ .fault) : (s.goto .fault).allSto := by
  have henter : (s.enter .fault).dev.state = .fault := congrArg (·.dev.state) (core_enter s .fault)
  rw [State.goto, if_neg hstate]
  exact (h.of_arms (arms_enter s .fault)).entered henter _

theorem allSto_onArms (s : State) : (s.onArms (fun _ x => x.stoBoth)).allSto := by
  intro a ha
  obtain ⟨p, -, rfl⟩ := List.mem_map.mp ha
  exact SafeArm.stoBoth_sto p.1

/-- A fault that demands STO puts both halves of every arm in STO (R26). -/
theorem allSto_toFault (hstate : s.dev.state ≠ .fault) (c : Nat) : (s.toFault c true).allSto := by
  have hdrop (t : State) : t.dropStaged.safe.arms = t.safe.arms := rfl
  have hstopped := allSto_onArms (s.setN kFaultCause c)
  generalize hsto : (s.setN kFaultCause c).onArms (fun _ x => x.stoBoth) = t at hstopped
  have hstate' : t.motionStop.axHalt.dropStaged.dev.state ≠ .fault := by
    have hdev : t.motionStop.axHalt.dropStaged.dev = s.dev := by
      have hcore : t.motionStop.axHalt.core.dev = s.dev := by
        rw [core_axHalt, core_motionStop, ← hsto, core_onArms, core_faultCause]
        rfl
      exact hcore
    rw [hdev]
    exact hstate
  unfold State.toFault
  dsimp only
  rw [if_pos rfl, hsto]
  refine State.allSto.goto_fault (hstopped.of_arms ?_) hstate'
  rw [hdrop, arms_axHalt, arms_motionStop]

end
end Sys2Proof.Machine
end

section
/-! SUPPORT. Device faults and stop demands at a cycle start, at a substitute one, and before a command (R28). -/

namespace Sys2Proof.Machine

/-! ### A device fault takes effect -/

theorem deviceFaultEvents_eq {s : State} {f : DevFault} {rest : List DevFault} (h : s.dev.deviceFaults = f :: rest)
    (hstate : s.dev.state ≠ .fault) :
    ∃ u : State, s.deviceFaultEvents = u.toFault f.type true ∧ u.dev.state ≠ .fault ∧ u.dev.deviceFaults = [] := by
  unfold State.deviceFaultEvents
  rw [h]
  dsimp only
  generalize hbase : (s.onDev fun d => { d with deviceFaults := [] }) = t
  have ht : t.dev.state ≠ .fault ∧ t.dev.deviceFaults = [] := by rw [← hbase]; exact ⟨hstate, rfl⟩
  rw [if_neg ht.1]
  refine ⟨_, rfl, ?_⟩
  split
  · exact ht
  · rw [show (t.faultRecord f).dev = t.dev from congrArg Core.dev (core_faultRecord t f)]
    exact ht

/-- What a device fault leaves: FAULT with its cause, no further device fault, no staged copy, STO in every arm (R26). -/
def State.faultedBy (s : State) (cause : Nat) : Prop :=
  s.dev.state = .fault ∧ s.dev.deviceFaults = [] ∧ s.n kFaultCause = cause % 65536 ∧ s.staged = none ∧ s.allSto

/-- What `State.faultedBy` says beside STO is said of the core. -/
theorem State.faultedBy.of_core {s t : State} {cause : Nat} (h : s.faultedBy cause) (ht : t.core = s.core) (hsafe : t.safe = s.safe) :
    t.faultedBy cause := by
  obtain ⟨hstate, hfaults, hcause, hstaged, hsto⟩ := h
  exact ⟨(congrArg (·.dev.state) ht).trans hstate, (congrArg (·.dev.deviceFaults) ht).trans hfaults,
    (congrArg Core.faultCause ht).trans hcause, (congrArg Core.staged ht).trans hstaged, hsto.of_arms (congrArg StSafe.arms hsafe)⟩

theorem State.faultedBy.onDev {s : State} {cause : Nat} (h : s.faultedBy cause) {d : StDev → StDev}
    (hd : ∀ x, (d x).state = x.state ∧ (d x).deviceFaults = x.deviceFaults) : (s.onDev d).faultedBy cause := by
  obtain ⟨hstate, hfaults, hrest⟩ := h
  exact ⟨(hd _).1.trans hstate, (hd _).2.trans hfaults, hrest⟩

theorem faultedBy_toFault {s : State} (hstate : s.dev.state ≠ .fault) (hfaults : s.dev.deviceFaults = []) (cause : Nat) :
    (s.toFault cause true).faultedBy cause := by
  have hcore := core_toFault s cause true
  have hsto := allSto_toFault hstate cause
  generalize s.toFault cause true = t at hcore hsto
  exact ⟨congrArg (·.dev.state) hcore, (congrArg (·.dev.deviceFaults) hcore).trans hfaults, congrArg Core.faultCause hcore,
    congrArg Core.staged hcore, hsto⟩

/-- The evaluation with a device fault that waits (R25, R26, R28). -/
theorem localEvents_deviceFault {s : State} {f : DevFault} {rest : List DevFault} (h : s.dev.deviceFaults = f :: rest)
    (hstate : s.dev.state ≠ .fault) : s.localEvents.faultedBy f.type := by
  obtain ⟨u, hu, hustate, hufaults⟩ := deviceFaultEvents_eq h hstate
  have hfaulted : s.deviceFaultEvents.faultedBy f.type := by
    rw [hu]
    exact faultedBy_toFault hustate hufaults f.type
  obtain ⟨d, hd, hcore, hsafe⟩ := localEvents_of_fault hfaulted.1
  exact (hfaulted.onDev hd).of_core hcore hsafe

theorem events_deviceFault {s : State} {f : DevFault} {rest : List DevFault} (h : s.dev.deviceFaults = f :: rest)
    (hstate : s.dev.state ≠ .fault) (hcmds : s.dev.cmds = []) (all : Bool) : (s.events all).faultedBy f.type := by
  have hdev : s.torqueCheck.dev = s.dev := congrArg Core.dev (core_torqueCheck s)
  have hlocal : s.torqueCheck.localEvents.faultedBy f.type :=
    localEvents_deviceFault (by rw [hdev, h]) (by rw [hdev]; exact hstate)
  rw [events_noCommands hcmds]
  exact hlocal.of_core (core_torqueCheck _) ((axisWork_torqueCheck _).1.2 .safe (by decide))

/-! ### The cycle start -/

theorem course_fields {s t : State} (h : t.course = s.course) : t.dev.state = s.dev.state ∧ t.dev.cmds = s.dev.cmds ∧
    t.dev.deviceFaults = s.dev.deviceFaults ∧ t.dict.waiting = s.dict.waiting ∧ t.time.lastCycle = s.time.lastCycle :=
  ⟨congrArg Course.state h, congrArg Course.cmds h, congrArg Course.deviceFaults h, congrArg Course.waiting h,
    congrArg Course.lastCycle h⟩

theorem queues_fields {s t : State} (h : t.core.queues = s.core.queues) :
    t.dev.cmds = s.dev.cmds ∧ t.dict.waiting = s.dict.waiting ∧ t.time = s.time :=
  ⟨congrArg Prod.fst h, congrArg (·.2.1) h, congrArg (·.2.2) h⟩

/-- The work of a cycle after its events. -/
def State.afterEvents (s : State) : State := (s.spreadInc.graphCycle.motionPart.fireFull.txObjects.linkBeat.engineCycle).cycleTicks

theorem cycleWork_eq (s : State) : s.cycleWork = (s.lineCycle.events false).afterEvents := rfl

theorem course_dict (s : State) {d : StDict} (h : d.waiting = s.dict.waiting) : ({ s with dict := d } : State).course = s.course := by
  show (⟨s.dev.state, s.dev.cmds, s.dev.deviceFaults, d.waiting, s.time.lastCycle⟩ : Course) = s.course
  rw [h]
  rfl

theorem course_cycleTicks (s : State) : s.cycleTicks.course = s.course :=
  course_dict s (d := { s.dict with pcie := s.dict.pcie.cycleTick s.cycle true, spi := s.dict.spi.cycleTick s.cycle false }) rfl

theorem course_afterEvents {s : State} (hwait : s.dict.waiting = []) : s.afterEvents.course = s.course := by
  have hwork : (s.spreadInc.graphCycle.motionPart.fireFull.txObjects.linkBeat).course = s.course := by
    rw [course_linkBeat, course_txObjects, course_fireFull, course_motionPart, course_graphCycle, course_spreadInc]
  rw [State.afterEvents, course_cycleTicks]
  generalize s.spreadInc.graphCycle.motionPart.fireFull.txObjects.linkBeat = t at hwork ⊢
  obtain ⟨-, -, -, htwait, -⟩ := course_fields hwork
  exact (course_engineCycle t (htwait.trans hwait)).trans hwork

/-- Where no command and no request waits, the course after a cycle is the one after its events. -/
theorem course_cycleWork {s : State} (hcmds : s.dev.cmds = []) (hwait : s.dict.waiting = []) :
    s.cycleWork.course = (s.lineCycle.events false).course := by
  obtain ⟨-, hlineCmds, -, hlineWait, -⟩ := course_fields (course_lineCycle s)
  obtain ⟨-, heventsWait, -⟩ := queues_fields (queues_events (hlineCmds.trans hcmds) false)
  rw [cycleWork_eq, course_afterEvents (heventsWait.trans (hlineWait.trans hwait))]

theorem cycleStart_runs {s : State} (hup : s.dev.phase = .up) (hrun : s.time.running = true) (hcycle : s.cycle ≠ s.time.lastCycle) :
    cycleStart s = ({ s with time := { s.time with lastCycle := s.cycle, ptpOut := [] } } : State).cycleWork := by
  simp [cycleStart, hup, hrun, hcycle]

/-- A cycle start begins its cycle. -/
theorem cycleStart_lastCycle {s : State} (hup : s.dev.phase = .up) (hcmds : s.dev.cmds = []) (hrun : s.time.running = true)
    (hcycle : s.cycle ≠ s.time.lastCycle) (hwait : s.dict.waiting = []) : (cycleStart s).time.lastCycle = s.cycle := by
  rw [cycleStart_runs hup hrun hcycle]
  generalize hbegun : ({ s with time := { s.time with lastCycle := s.cycle, ptpOut := [] } } : State) = t
  have ht : t.dev.cmds = [] ∧ t.dict.waiting = [] ∧ t.time.lastCycle = s.cycle := by rw [← hbegun]; exact ⟨hcmds, hwait, rfl⟩
  obtain ⟨htcmds, htwait, htcycle⟩ := ht
  obtain ⟨-, hlineCmds, -, -, hlineCycle⟩ := course_fields (course_lineCycle t)
  obtain ⟨-, -, htime⟩ := queues_fields (queues_events (hlineCmds.trans htcmds) false)
  obtain ⟨-, -, -, -, hwork⟩ := course_fields (course_cycleWork htcmds htwait)
  rw [hwork, htime, hlineCycle, htcycle]

theorem cycleStart_deviceFault {s : State} {f : DevFault} {rest : List DevFault} (h : s.dev.deviceFaults = f :: rest)
    (hstate : s.dev.state ≠ .fault) (hup : s.dev.phase = .up) (hcmds : s.dev.cmds = []) (hrun : s.time.running = true)
    (hcycle : s.cycle ≠ s.time.lastCycle) (hwait : s.dict.waiting = []) : (cycleStart s).dev.state = .fault := by
  rw [cycleStart_runs hup hrun hcycle]
  generalize hbegun : ({ s with time := { s.time with lastCycle := s.cycle, ptpOut := [] } } : State) = t
  have ht : t.dev = s.dev ∧ t.dict.waiting = [] := by rw [← hbegun]; exact ⟨rfl, hwait⟩
  obtain ⟨htdev, htwait⟩ := ht
  obtain ⟨hlineState, hlineCmds, hlineFaults, -, -⟩ := course_fields (course_lineCycle t)
  rw [← htdev] at h hstate hcmds
  rw [← hlineState] at hstate
  obtain ⟨hfault, -⟩ := events_deviceFault (hlineFaults.trans h) hstate (hlineCmds.trans hcmds) false
  obtain ⟨hwork, -⟩ := course_fields (course_cycleWork hcmds htwait)
  exact hwork.trans hfault

/-! ### The substitute cycle start -/

theorem exec_cycleStart (s : State) : exec .cycleStart s = .next (cycleStart s) := rfl

theorem exec_substituteCycleStart {s : State} (hup : s.dev.phase = .up) (hstand : s.time.running = false) :
    exec .substituteCycleStart s = .next (s.events true) := by
  have hevents : substituteCycleStart s = s.events true := by simp [substituteCycleStart, hup, hstand]
  rw [← hevents]
  rfl

theorem substituteCycleStart_deviceFault {s : State} {f : DevFault} {rest : List DevFault} (h : s.dev.deviceFaults = f :: rest)
    (hstate : s.dev.state ≠ .fault) (htype : f.type < 65536) (hup : s.dev.phase = .up) (hcmds : s.dev.cmds = [])
    (hstand : s.time.running = false) :
    Completes .substituteCycleStart s (fun t => t.dev.state = .fault ∧ t.n kFaultCause = f.type ∧ t.staged = none ∧
      t.time.running = false ∧ ∀ a ∈ t.safe.arms, a.stoP = true ∧ a.stoH = true) := by
  obtain ⟨hfault, -, hcause, hstaged, hsto⟩ := events_deviceFault h hstate hcmds true
  obtain ⟨-, -, htime⟩ := queues_fields (queues_events hcmds true)
  exact ⟨_, exec_substituteCycleStart hup hstand, hfault, hcause.trans (Nat.mod_eq_of_lt htype), hstaged, by rw [htime, hstand], hsto⟩

/-- A stop demand leads from RUN to READY where no fault waits before it (R25, R28). -/
theorem stopEvents_run {s : State} (hshed : s.dev.shedEvent ≠ 5) (hstop : s.dev.stopDemand = true) (hrun : s.dev.state = .run) :
    s.stopEvents.core.dev.state = .ready ∧ s.stopEvents.core.dev.stopDemand = false := by
  unfold State.stopEvents
  dsimp only
  generalize hbase : (s.onDev fun d => { d with stopDemand := false, ss2Demand := false, degTimerEnd := false, shedEvent := 0 }) = t
  have ht : t.dev.state = .run ∧ t.dev.stopDemand = false := by rw [← hbase]; exact ⟨hrun, rfl⟩
  obtain ⟨htrun, htstop⟩ := ht
  have hevent : t.stopEvent = t.toReady := by simp [State.stopEvent, htrun]
  have hnoShed : ¬(s.dev.shedEvent = 5 ∧ t.dev.state ≠ .fault) := fun hc => hshed hc.1
  rw [if_neg hnoShed, hstop, Bool.true_or, Bool.true_or, Bool.true_or, if_pos rfl, hevent]
  have hcore := core_toReady t
  generalize t.toReady = u at hcore ⊢
  have hready : u.dev.state = .ready := congrArg (·.dev.state) hcore
  have hcleared : u.dev.stopDemand = false := (congrArg (·.dev.stopDemand) hcore).trans htstop
  have hss2 : u.ss2Event = u := by simp [State.ss2Event, hready]
  have hdegraded : ¬(s.dev.degTimerEnd = true ∧ u.dev.state = .degraded) := fun hc => by rw [hready] at hc; exact absurd hc.2 (by decide)
  rw [hss2, ite_self, if_neg hdegraded]
  exact ⟨hready, hcleared⟩

/-- Standing still, the device leaves RUN at the next evaluation of a stop demand. -/
theorem events_stopDemand {s : State} (hcmds : s.dev.cmds = []) (hfaults : s.dev.deviceFaults = []) (hchan : s.dev.chanFaults = [])
    (hshed : s.dev.shedEvent ≠ 5) (hstop : s.dev.stopDemand = true) (hrun : s.dev.state = .run) (all : Bool) :
    (s.events all).dev.state = .ready ∧ (s.events all).dev.stopDemand = false ∧ (s.events all).time = s.time := by
  obtain ⟨-, -, htime⟩ := queues_fields (queues_events hcmds all)
  have hdev : s.torqueCheck.dev = s.dev := congrArg Core.dev (core_torqueCheck s)
  rw [events_noCommands hcmds] at htime ⊢
  generalize s.torqueCheck = t at hdev htime ⊢
  rw [← hdev] at hfaults hchan hshed hstop hrun
  obtain ⟨hready, hcleared⟩ := stopEvents_run hshed hstop hrun
  have hlocal : t.localEvents.core = t.stopEvents.core := by
    unfold State.localEvents
    dsimp only
    rw [deviceFaultEvents_nil hfaults, chanFaultEvents_nil hchan, core_ite, core_forwardEvent, ite_self]
  have hcore := (core_torqueCheck t.localEvents).trans hlocal
  rw [← hcore] at hready hcleared
  exact ⟨hready, hcleared, htime⟩

/-- Standing still and with nothing that waits, the evaluation changes nothing of the device and of time. -/
theorem core_events_quiet {s : State} (h : Quiet s) (hstand : s.time.running = false) : (s.events true).core = s.core := by
  have hevents := events_quiet h
  rw [hstand] at hevents
  rw [show s.events true = s.torqueCheck.torqueCheck from hevents, core_torqueCheck, core_torqueCheck]

theorem substituteCycleStart_quiet {s : State} (hup : s.dev.phase = .up) (hcmds : s.dev.cmds = []) (hstand : s.time.running = false)
    (hquiet : Quiet s) :
    Completes .substituteCycleStart s (fun t => t.dev.state = s.dev.state ∧ t.dev.cmds = [] ∧ t.time = s.time) := by
  have hcore := core_events_quiet hquiet hstand
  have hexec := exec_substituteCycleStart hup hstand
  generalize s.events true = t at hcore hexec
  exact ⟨t, hexec, congrArg (·.dev.state) hcore, (congrArg (·.dev.cmds) hcore).trans hcmds, congrArg Core.time hcore⟩

/-! ### A command after a device fault -/

theorem fault_notMem_commandStates {code : Nat} (h : code ≠ 0x20) : DevState.fault ∉ commandStates code := by
  unfold commandStates
  split
  case h_8 => exact absurd rfl h
  all_goals decide

/-- A device fault takes effect before a command, which FAULT then refuses (R25, R28, R421). -/
theorem command_after_deviceFault {s : State} {rq : Requester} {code : Nat} {f : DevFault} {rest : List DevFault}
    (h : s.dev.deviceFaults = f :: rest) (hstate : s.dev.state ≠ .fault) (hcmds : s.dev.cmds = []) (hsend : MaySend rq code s)
    (hval : leVal (le 2 code) = code) (hlvl : cmdLevel code = some (commandLevel code)) (hcode : code ≠ 0x20) (x : CmdIn) :
    (deviceCmd code rq x s).dev.state = .fault ∧ (deviceCmd code rq x s).dev.deviceFaults = [] := by
  obtain ⟨g, -, hcmd⟩ := deviceCmd_eq hsend hval hlvl x
  obtain ⟨hfault, hnone, -⟩ := events_deviceFault h hstate hcmds (!s.time.running)
  rw [hcmd]
  generalize s.events (!s.time.running) = t at hfault hnone ⊢
  have hrefused : (t.onPair g).evalCmd code x = (abState, t.onPair g) :=
    State.evalCmd_refused (s := t.onPair g) (by rw [State.onPair_dev, hfault]; exact fault_notMem_commandStates hcode) x
  have hcore := core_runCmd (t.onPair g) rq code x
  rw [hrefused, core_onPair] at hcore
  exact ⟨(congrArg (·.dev.state) hcore).trans hfault, (congrArg (·.dev.deviceFaults) hcore).trans hnone⟩

end Sys2Proof.Machine

namespace Sys2Proof

open Machine

/-- Settles O17: the events between two torque checks take the fault first, and the rest of a cycle keeps the device state and the
cycle that has begun. -/
theorem deviceFaultAtCycleStart : Obligations.DeviceFaultAtCycleStart := by
  intro s hup hcmds
  refine ⟨fun f rest hfaults hstate htype => ⟨?_, ?_, ?_⟩, ?_, ?_, ?_, ?_, ?_⟩
  · intro hrun hcycle hwait
    exact ⟨_, exec_cycleStart s, cycleStart_deviceFault hfaults hstate hup hcmds hrun hcycle hwait,
      cycleStart_lastCycle hup hcmds hrun hcycle hwait⟩
  · exact fun hstand => substituteCycleStart_deviceFault hfaults hstate htype hup hcmds hstand
  · intro rq peer failed code c hrow hsend hcode
    obtain ⟨⟨x, hexec⟩, hval, hlvl⟩ := exec_commandRow hrow
    exact ⟨_, hexec s, command_after_deviceFault hfaults hstate hcmds hsend hval hlvl hcode x⟩
  · intro hrun hcycle hwait
    exact ⟨_, exec_cycleStart s, cycleStart_lastCycle hup hcmds hrun hcycle hwait⟩
  · exact fun hstand hquiet => substituteCycleStart_quiet hup hcmds hstand hquiet
  · intro hstand hfaults hchan hshed hstop hrun
    exact ⟨_, exec_substituteCycleStart hup hstand, events_stopDemand hcmds hfaults hchan hshed hstop hrun true⟩
  · exact fun hsame => ⟨_, exec_cycleStart s, by simp [cycleStart, hsame]⟩
  · exact fun hrun => ⟨_, rfl, by simp [substituteCycleStart, hrun]⟩

end Sys2Proof
end

section
/-! SUPPORT. A stored safety set that names BOOT_TIME. -/

namespace Sys2Proof.Machine

/-! ### A stored safety set that names BOOT_TIME -/

/-- A safety set of one entry, which writes 1 to BOOT_TIME (0x0111.06): an object that no set accepted by SAFE_SET_DL can name. -/
def straySet : Bytes := zeros 12 ++ le 4 1 ++ zeros 16 ++ (le 2 0x0111 ++ [0x06, 0] ++ le 4 4 ++ le 4 1)

/-- A booting device whose safety switches select that set, with its check value. -/
def strayBoot : State :=
  { State.reset with
    dev := { State.reset.dev with phase := .booting }
    safe := { State.reset.safe with sets := [some straySet], swA := some (setCrc straySet * 4096) } }

/-- The set is loaded at the end of the boot, after BOOT_TIME is written. -/
theorem bootTime_strayBoot : (bootComplete 0 0 0 strayBoot).n kBootTime = 1 := by decide +kernel

end Sys2Proof.Machine

namespace Sys2Proof

open Machine

/-- Refutes O5: the end of the boot writes every object that the selected safety set names, and a state may hold a set that names
BOOT_TIME (no download would have stored it); BOOT_TIME then reads the set's value and not the time of the boot. -/
theorem not_bootSetsTier : ¬ Obligations.BootSetsTier := by
  intro h
  obtain ⟨t, hexec, -, -, htime, -⟩ := h strayBoot 0 0 0 rfl
  have hnext : bootComplete 0 0 0 strayBoot = t := Host.Outcome.next.inj hexec
  rw [← hnext, bootTime_strayBoot] at htime
  exact absurd htime (by decide)

end Sys2Proof
end

section
/-! SUPPORT. TIME_TICK: the counts that a REFCLK edge carries along, the advance of cell time with its slew, and the step tick. -/

namespace Sys2Proof.Machine

theorem exec_timeTick (s : State) : exec .timeTick s = .next (timeTick s) := rfl

theorem changes_time (s : State) (x : StTime) : Changes [.time] s { s with time := x } :=
  ⟨rfl, fun p hp => by cases p <;> simp [Part.same] at hp ⊢⟩

/-! ### What a tick counts -/

/-- What a REFCLK edge counts beside cell time: operating time, brake time and the burst domains' running time. -/
def State.countTick (s : State) : State :=
  let t : State := { s with recd := s.recd.tick }
  (if t.recd.optime = s.recd.optime then t else t.brakeTime).burstTime

theorem State.countTick_frame (s : State) : Changes [.recd, .safe, .mon] s s.countTick := by
  unfold State.countTick
  dsimp only
  split
  all_goals exact ⟨rfl, fun p hp => by cases p <;> simp [Part.same, State.burstTime, State.brakeTime] at hp ⊢⟩

@[simp] theorem State.countTick_time (s : State) : s.countTick.time = s.time := s.countTick_frame.2 .time (by decide)
@[simp] theorem State.countTick_objs (s : State) : s.countTick.objs = s.objs := s.countTick_frame.2 .objs (by decide)
@[simp] theorem State.n_countTick (s : State) (k : Nat) : s.countTick.n k = s.n k := State.n_congr s.countTick_objs k

/-! ### The three kinds of tick -/

/-- Before release, and while REFCLK stands still, no tick counts (R31, R53). -/
theorem timeTick_still {s : State} (h : s.dev.phase = .reset ∨ s.time.running = false) : timeTick s = s := by
  simp [timeTick, h]

section
variable {s : State} (hphase : s.dev.phase ≠ .reset) (hrun : s.time.running = true)
include hphase hrun

/-- A tick counts, and then takes the step that waits, or advances. -/
theorem timeTick_cases :
    (∃ sec ns frac, s.time.stepTo = some (sec, ns, frac) ∧ timeTick s = s.countTick.stepTick sec ns frac) ∨
    (s.time.stepTo = none ∧ timeTick s = { s.countTick with time := s.time.advance (s.n kTimeInc) }) := by
  have htime : s.countTick.time = s.time := s.countTick_time
  have hadvance : { s.countTick with time := s.countTick.time.advance (s.countTick.n kTimeInc) } =
      { s.countTick with time := s.time.advance (s.n kTimeInc) } := by rw [htime, s.n_countTick]
  simp only [timeTick, hphase, hrun, Bool.not_true, Bool.false_eq_true, or_self, if_false]
  split
  case h_1 sec ns frac hstep => exact .inl ⟨sec, ns, frac, htime ▸ hstep, rfl⟩
  case h_2 hstep => exact .inr ⟨htime ▸ hstep, hadvance⟩

theorem timeTick_advance (hstep : s.time.stepTo = none) :
    timeTick s = { s.countTick with time := s.time.advance (s.n kTimeInc) } := by
  obtain ⟨_, _, _, h, -⟩ | ⟨-, h⟩ := timeTick_cases hphase hrun
  · exact absurd (hstep.symm.trans h) (by simp)
  · exact h

theorem timeTick_step {sec ns frac : Nat} (hstep : s.time.stepTo = some (sec, ns, frac)) :
    timeTick s = s.countTick.stepTick sec ns frac := by
  obtain ⟨_, _, _, h, htick⟩ | ⟨h, -⟩ := timeTick_cases hphase hrun
  · obtain ⟨rfl, rfl, rfl⟩ : _ ∧ _ ∧ _ := by simpa using hstep.symm.trans h
    exact htick
  · exact absurd (hstep.symm.trans h) (by simp)

end

/-! ### The advance (R32) -/

/-- What a slew gives to a tick: its step, or what is left of it, with its sign. -/
theorem StTime.slewPart_eq (t : StTime) :
    t.slewPart = (if t.slewRem < 0 then -1 else 1) * min (t.slewStep : Int) t.slewRem.natAbs := by
  unfold StTime.slewPart
  split <;> simp

/-- The nanoseconds' accumulator takes the advance, and rolls over at one second. -/
theorem StTime.advance_eq (t : StTime) (inc : Nat) :
    (t.advance inc).slewRem = t.slewRem - t.slewPart ∧
    ((t.advance inc).sec, (t.advance inc).acc) =
      if 1000000000 * 2 ^ 24 ≤ (t.acc + inc + t.slewPart).toNat then
        ((t.sec + 1) % 2 ^ 48, (t.acc + inc + t.slewPart).toNat - 1000000000 * 2 ^ 24)
      else (t.sec, (t.acc + inc + t.slewPart).toNat) := by
  unfold StTime.advance
  dsimp only
  split
  all_goals exact ⟨rfl, rfl⟩

/-- An advance of at most a second is exact, and leaves the accumulator below a second. -/
theorem StTime.advance_exact {t : StTime} {inc : Nat} (hacc : t.acc < 1000000000 * 2 ^ 24) (hsec : t.sec + 1 < 2 ^ 48)
    (hlow : 0 ≤ (inc : Int) + t.slewPart) (hhigh : (inc : Int) + t.slewPart ≤ 1000000000 * 2 ^ 24) :
    (((t.advance inc).sec * (1000000000 * 2 ^ 24) + (t.advance inc).acc : Nat) : Int) =
      (t.sec * (1000000000 * 2 ^ 24) + t.acc : Nat) + inc + t.slewPart ∧
    (t.advance inc).acc < 1000000000 * 2 ^ 24 := by
  have h := (t.advance_eq inc).2
  split at h
  all_goals
    obtain ⟨hs, ha⟩ := Prod.mk.inj h
    rw [hs, ha]
    omega

/-! ### The step tick (R37) -/

theorem length_timeStatus : (objDefault kTimeStatus).length = 2 := by decide

theorem RecordOnly.n {s t : State} (h : RecordOnly s t) {k : Nat} (hstatus : k ≠ kRecStatus) (hdrops : k ≠ kRecDrops) : t.n k = s.n k :=
  congrArg leVal (h.2 k (by simp [hstatus, hdrops]))

/-- The step tick takes the stepped value into the time unit, marks TIME_STATUS, and writes a record. -/
theorem State.stepTick_eq (s : State) (sec ns frac : Nat) : ∃ x sw b,
    s.stepTick sec ns frac = (({ s with time := x } : State).setBit kTimeStatus 7 true).record 0 0x0231 sw b ∧
    x.sec = sec % 2 ^ 48 ∧ x.acc = ns * 2 ^ 24 + frac * 256 ∧ x.slewRem = 0 ∧ x.stepTo = none ∧ x.invalid = false :=
  ⟨_, _, _, by unfold State.stepTick; rfl, rfl, rfl, rfl, rfl, rfl⟩

/-- What stands after the step tick. -/
theorem State.stepTick_takes (s : State) (sec ns frac : Nat) :
    (s.stepTick sec ns frac).time.sec = sec % 2 ^ 48 ∧ (s.stepTick sec ns frac).time.acc = ns * 2 ^ 24 + frac * 256 ∧
    (s.stepTick sec ns frac).time.slewRem = 0 ∧ (s.stepTick sec ns frac).time.stepTo = none ∧
    (s.stepTick sec ns frac).time.invalid = false ∧ (s.stepTick sec ns frac).bit kTimeStatus 7 = true ∧
    (s.stepTick sec ns frac).n kTimeInc = s.n kTimeInc := by
  obtain ⟨x, sw, b, htick, hsec, hacc, hslew, hto, hvalid⟩ := s.stepTick_eq sec ns frac
  have hmarked := record_recordOnly (({ s with time := x } : State).setBit kTimeStatus 7 true) 0 0x0231 sw b
  rw [← htick] at hmarked
  have htime : (s.stepTick sec ns frac).time = x := hmarked.1.2 .time (by decide)
  have hbit : (s.stepTick sec ns frac).bit kTimeStatus 7 = true := by
    rw [State.bit, hmarked.n (by decide) (by decide)]
    exact State.bit_setBit_same _ _ _ _ (by rw [length_timeStatus]; decide)
  have hinc : (s.stepTick sec ns frac).n kTimeInc = s.n kTimeInc :=
    (hmarked.n (by decide) (by decide)).trans (State.n_setBit_other _ _ _ (by decide))
  rw [htime]
  exact ⟨hsec, hacc, hslew, hto, hvalid, hbit, hinc⟩

end Sys2Proof.Machine

namespace Sys2Proof

open Machine

/-- Settles O7: a tick without a step is the advance of R32, which is exact below a second, beside what a tick counts. -/
theorem tickAdvancesCellTime : Obligations.TickAdvancesCellTime := by
  intro s d hphase hrun hstep hacc hsec hd hlow hhigh
  rw [← StTime.slewPart_eq] at hd
  subst hd
  obtain ⟨hexact, hrange⟩ := StTime.advance_exact hacc hsec hlow hhigh
  have hframe := (s.countTick_frame.mono (show _ ⊆ [Part.time, .recd, .safe, .mon] by decide)).trans
    ((changes_time s.countTick (s.time.advance (s.n kTimeInc))).mono (by decide))
  exact ⟨_, (exec_timeTick s).trans (congrArg _ (timeTick_advance hphase hrun hstep)), hexact, (s.time.advance_eq _).1, hrange,
    s.countTick_objs, hframe⟩

/-- Settles O8: a tick with a step is the step tick, and a tick of a clock that does not run is none. -/
theorem stepTickTakesValue : Obligations.StepTickTakesValue := by
  constructor
  · intro s sec ns frac hphase hrun hstep
    obtain ⟨hs, ha, hslew, hto, hvalid, hbit, hinc⟩ := s.countTick.stepTick_takes sec ns frac
    exact ⟨_, (exec_timeTick s).trans (congrArg _ (timeTick_step hphase hrun hstep)), hs, ha, hslew, hto, hvalid, hbit,
      hinc.trans (s.n_countTick _)⟩
  · exact fun s h => ⟨_, exec_timeTick s, timeTick_still h⟩

end Sys2Proof
end

section
/-! SUPPORT. The time domains: their objects, the switch when a followed domain is lost, and what DOM_UPDATE_TIMEOUT and
DOM_HOLDOVER_EXPIRY answer. -/

namespace Sys2Proof.Machine

theorem exec_domUpdateTimeout (d : Fin 2) (s : State) : exec (.domUpdateTimeout d) s = .next (domUpdateTimeout d s) := rfl
theorem exec_domHoldoverExpiry (d : Fin 2) (s : State) : exec (.domHoldoverExpiry d) s = .next (domHoldoverExpiry d s) := rfl

/-! ### Objects of a domain -/

theorem length_domState (d : Fin 2) : (objDefault (kDomState d)).length = 1 := by revert d; decide

theorem n_domState_setN (s : State) (d : Fin 2) {v : Nat} (h : v < 256) : (s.setN (kDomState d) v).n (kDomState d) = v := by
  rw [State.n_setN_same, length_domState, pow_one, Nat.mod_eq_of_lt h]

/-- The objects of a domain stand apart from those of the time unit (R54, R56). -/
theorem domState_ne (d : Nat) : kRefEffective ≠ kDomState d ∧ kDomAuto ≠ kDomState d ∧ kDomState d ≠ kTimeStatus := by
  simp only [kRefEffective, kDomAuto, kTimeStatus, kDomState]
  omega

theorem changes_setN (s : State) (k v : Nat) : Changes [.objs] s (s.setN k v) := changes_setObj s k _

theorem changesObjs_setBit (s : State) (k b : Nat) (v : Bool) : ChangesObjs [k] s (s.setBit k b v) := changesObjs_setN s k _

theorem changes_setBit (s : State) (k b : Nat) (v : Bool) : Changes [.objs] s (s.setBit k b v) := changes_setN s k _

/-! ### The switch when a domain is lost (R50) -/

theorem autoSwitch_unfollowed {s : State} {d : Nat} (h : s.n kRefEffective ≠ d + 1) : s.autoSwitch d = s := if_pos h

/-- Without DOM_AUTO the loss of the followed domain is reported, and no other domain is followed. -/
theorem autoSwitch_manual {s : State} {d : Nat} (h : s.n kRefEffective = d + 1) (hauto : s.n kDomAuto = 0) :
    s.autoSwitch d = s.setBit kTimeStatus 2 true := by
  have hstays : (s.setBit kTimeStatus 2 true).n kDomAuto = 0 := (State.n_setBit_other s _ _ (by decide)).trans hauto
  simp [State.autoSwitch, h, hstays]

/-! ### The two timeouts (R47) -/

section
variable {s : State} {d : Fin 2}

theorem domUpdateTimeout_locked (h : s.n (kDomState d) = 2) : domUpdateTimeout d s = s.setN (kDomState d) 3 := if_pos h

theorem domUpdateTimeout_other (h : s.n (kDomState d) ≠ 2) : domUpdateTimeout d s = s := if_neg h

theorem domHoldoverExpiry_other (h : s.n (kDomState d) ≠ 3) : domHoldoverExpiry d s = s := if_neg h

theorem domHoldoverExpiry_unfollowed (h : s.n (kDomState d) = 3) (href : s.n kRefEffective ≠ d + 1) :
    domHoldoverExpiry d s = s.setN (kDomState d) 4 :=
  (if_pos h).trans (autoSwitch_unfollowed (by rwa [State.n_setN_other s _ (domState_ne d).1]))

theorem domHoldoverExpiry_followed (h : s.n (kDomState d) = 3) (href : s.n kRefEffective = d + 1) (hauto : s.n kDomAuto = 0) :
    domHoldoverExpiry d s = (s.setN (kDomState d) 4).setBit kTimeStatus 2 true :=
  (if_pos h).trans (autoSwitch_manual (by rwa [State.n_setN_other s _ (domState_ne d).1])
    (by rwa [State.n_setN_other s _ (domState_ne d).2.1]))

end

end Sys2Proof.Machine

namespace Sys2Proof

open Machine

/-- Settles O10: each timeout writes the state of its domain, and the loss of a followed domain is marked beside it. -/
theorem domainTimeouts : Obligations.DomainTimeouts := by
  intro s d
  refine ⟨?holdover, ?stays, ?lost, ?refLost, ?other⟩
  case holdover =>
    intro h
    exact ⟨_, (exec_domUpdateTimeout d s).trans (congrArg _ (domUpdateTimeout_locked h)), n_domState_setN s d (by decide),
      changesObjs_setN s _ _, changes_setN s _ _⟩
  case stays => exact fun h => ⟨_, exec_domUpdateTimeout d s, domUpdateTimeout_other h⟩
  case lost =>
    intro h href
    exact ⟨_, (exec_domHoldoverExpiry d s).trans (congrArg _ (domHoldoverExpiry_unfollowed h href)), n_domState_setN s d (by decide),
      changesObjs_setN s _ _, changes_setN s _ _⟩
  case refLost =>
    intro h href hauto
    have hstate : ((s.setN (kDomState d) 4).setBit kTimeStatus 2 true).n (kDomState d) = 4 :=
      (State.n_setBit_other _ _ _ (domState_ne d).2.2).trans (n_domState_setN s d (by decide))
    exact ⟨_, (exec_domHoldoverExpiry d s).trans (congrArg _ (domHoldoverExpiry_followed h href hauto)), hstate,
      State.bit_setBit_same _ _ _ _ (by rw [length_timeStatus]; decide), rfl,
      ((changesObjs_setN s _ _).mono (by simp)).trans ((changesObjs_setBit _ _ _ _).mono (by simp)),
      (changes_setN s _ _).trans (changes_setBit _ _ _ _)⟩
  case other => exact fun h => ⟨_, exec_domHoldoverExpiry d s, domHoldoverExpiry_other h⟩

end Sys2Proof
end

section
/-! SUPPORT. What steers cell time: the work of the servo and of a change of the followed reference, a write that takes effect at
once or is refused, and the four writes TIME_SET, TIME_INC, PHASE_SLEW and CELL_REF. -/

namespace Sys2Proof.Machine

theorem exec_timeSet (rq : Requester) (t : Time96) (s : State) : exec (.timeSet rq t) s = .next (timeSet rq t s) := rfl
theorem exec_timeIncWrite (rq : Requester) (v : W32) (s : State) : exec (.timeIncWrite rq v) s = .next (timeIncWrite rq v s) := rfl
theorem exec_phaseSlew (rq : Requester) (v : W64) (s : State) : exec (.phaseSlew rq v) s = .next (phaseSlew rq v s) := rfl
theorem exec_cellRefWrite (rq : Requester) (v : Byte) (s : State) : exec (.cellRefWrite rq v) s = .next (cellRefWrite rq v s) := rfl

/-! ### Changes of the rate -/

/-- Cell time, the slew and the timestamp FIFOs stand as they did. -/
def SameClock (t u : StTime) : Prop :=
  u.sec = t.sec ∧ u.acc = t.acc ∧ u.slewRem = t.slewRem ∧ u.slewStep = t.slewStep ∧ u.fifos = t.fifos

/-- What a change of TIME_INC changes: the increment, the rates of the domains over it, and what the domains keep (R33, R56). -/
def RateWork (s t : State) : Prop :=
  Changes [.objs, .time] s t ∧ ChangesObjs [kTimeInc, kDomRate 0, kDomRate 1] s t ∧ SameClock s.time t.time

theorem SameClock.refl (t : StTime) : SameClock t t := ⟨rfl, rfl, rfl, rfl, rfl⟩

theorem SameClock.trans {t u v : StTime} (htu : SameClock t u) (huv : SameClock u v) : SameClock t v := by
  obtain ⟨h1, h2, h3, h4, h5⟩ := htu
  obtain ⟨g1, g2, g3, g4, g5⟩ := huv
  exact ⟨g1.trans h1, g2.trans h2, g3.trans h3, g4.trans h4, g5.trans h5⟩

theorem RateWork.refl (s : State) : RateWork s s := ⟨.refl _ s, .refl _ s, .refl _⟩

theorem RateWork.trans {s t u : State} (hst : RateWork s t) (htu : RateWork t u) : RateWork s u :=
  ⟨hst.1.trans htu.1, hst.2.1.trans htu.2.1, hst.2.2.trans htu.2.2⟩

theorem RateWork.cell24_eq {s t : State} (h : RateWork s t) : cell24 t = cell24 s := by
  obtain ⟨-, -, hsec, hacc, -⟩ := h
  rw [cell24, cell24, hsec, hacc]

section
variable (s : State)

theorem changes_setDom (d : Nat) (x : DomSt) : Changes [.time] s (s.setDom d x) := by
  unfold State.setDom
  split
  all_goals exact changes_time s _

@[simp] theorem State.setDom_objs (d : Nat) (x : DomSt) : (s.setDom d x).objs = s.objs := (changes_setDom s d x).2 .objs (by decide)

theorem sameClock_setDom (d : Nat) (x : DomSt) : SameClock s.time (s.setDom d x).time := by
  unfold State.setDom
  split
  all_goals exact .refl _

theorem changes_setI (k : Nat) (v : Int) : Changes [.objs] s (s.setI k v) := changes_setObj s k _

theorem changesObjs_setI (k : Nat) (v : Int) : ChangesObjs [k] s (s.setI k v) := changesObjs_setObj s k _

theorem rateWork_rebaseRate {d : Nat} (hd : d < 2) (v : Int) : RateWork s ((s.rebase d).setI (kDomRate d) v) := by
  have hkey : kDomRate d ∈ [kTimeInc, kDomRate 0, kDomRate 1] := by interval_cases d <;> simp
  exact ⟨((changes_setDom s d _).mono (by decide)).trans ((changes_setI _ _ _).mono (by decide)),
    (ChangesObjs.of_objs (s.setDom_objs d _) _).trans ((changesObjs_setI _ _ _).mono (by simpa using hkey)), sameClock_setDom s d _⟩

theorem rateWork_setTimeInc (v : Nat) : RateWork s (s.setTimeInc v) := by
  have hinc (t : State) : RateWork t (t.setN kTimeInc v) :=
    ⟨(changes_setN t _ _).mono (by decide), (changesObjs_setN t _ _).mono (by simp), .refl _⟩
  have hadj (c : Prop) [Decidable c] (t : State) {d : Nat} (hd : d < 2) (x : Int) :
      RateWork t (if c then t else (t.rebase d).setI (kDomRate d) x) := by
    split
    · exact .refl t
    · exact rateWork_rebaseRate t hd x
  exact ((hadj _ s (by decide) _).trans (hadj _ _ (by decide) _)).trans (hinc _)

theorem rateWork_incNow (v : Nat) : RateWork s (s.incNow v) :=
  (rateWork_setTimeInc s v).trans ⟨(changes_time _ _).mono (by decide), .of_objs rfl _, .refl _⟩

theorem length_timeInc : (objDefault kTimeInc).length = 4 := by decide

theorem n_timeInc_incNow (v : Nat) : (s.incNow v).n kTimeInc = v % 2 ^ 32 := by
  rw [show (s.incNow v).n kTimeInc = (s.setTimeInc v).n kTimeInc from rfl, State.setTimeInc, State.n_setN_same, length_timeInc]
  rfl

theorem rateWork_servoInc (v : Nat) : RateWork s (s.servoInc v) := by
  unfold State.servoInc
  split
  · exact .refl s
  · split
    · exact ⟨(changes_time s _).mono (by decide), .of_objs rfl _, .refl _⟩
    · exact rateWork_incNow s v

theorem rateWork_followRate (d : Nat) : RateWork s (s.followRate d) := rateWork_servoInc s _

end

/-! ### Work of the servo, and the change of the followed reference (R49) -/

/-- What the servo's work leaves: everything but cell time's unit, objects and the recorder; and the timestamp FIFOs. -/
def TimeWork (s t : State) : Prop := Changes [.time, .objs, .recd, .free] s t ∧ t.time.fifos = s.time.fifos

/-- The objects that the servo and the record of a change of reference write. -/
def servoKeys : List Nat := [kTimeInc, kDomRate 0, kDomRate 1, kTimeStatus, kRecStatus, kRecDrops]

/-- The work of the servo, with its objects. -/
def ServoWork (s t : State) : Prop := TimeWork s t ∧ ChangesObjs servoKeys s t

theorem TimeWork.refl (s : State) : TimeWork s s := ⟨.refl _ s, rfl⟩

theorem TimeWork.trans {s t u : State} (hst : TimeWork s t) (htu : TimeWork t u) : TimeWork s u :=
  ⟨hst.1.trans htu.1, htu.2.trans hst.2⟩

theorem TimeWork.ite {c : Prop} [Decidable c] {s t u : State} (ht : TimeWork s t) (hu : TimeWork s u) :
    TimeWork s (if c then t else u) := by split <;> assumption

theorem ServoWork.trans {s t u : State} (hst : ServoWork s t) (htu : ServoWork t u) : ServoWork s u :=
  ⟨hst.1.trans htu.1, hst.2.trans htu.2⟩

theorem RateWork.servoWork {s t : State} (h : RateWork s t) : ServoWork s t := by
  obtain ⟨hframe, hobjs, -, -, -, -, hfifos⟩ := h
  exact ⟨⟨hframe.mono (by decide), hfifos⟩, hobjs.mono (by decide)⟩

section
variable (s : State)

theorem timeWork_setObj (k : Nat) (v : Bytes) : TimeWork s (s.setObj k v) := ⟨(changes_setObj s k v).mono (by decide), rfl⟩

theorem timeWork_setN (k v : Nat) : TimeWork s (s.setN k v) := timeWork_setObj s k _

theorem timeWork_setDom (d : Nat) (x : DomSt) : TimeWork s (s.setDom d x) := by
  obtain ⟨-, -, -, -, hfifos⟩ := sameClock_setDom s d x
  exact ⟨(changes_setDom s d x).mono (by decide), hfifos⟩

/-- A change of the time unit that leaves its FIFOs. -/
theorem servoWork_time {x : StTime} (h : x.fifos = s.time.fifos) : ServoWork s { s with time := x } :=
  ⟨⟨(changes_time s x).mono (by decide), h⟩, .of_objs rfl _⟩

theorem servoWork_startSlew (x : Int) : ServoWork s (s.startSlew x) := servoWork_time s rfl

theorem servoWork_timeStatus (b : Nat) (v : Bool) : ServoWork s (s.setBit kTimeStatus b v) :=
  ⟨timeWork_setN s _ _, (changesObjs_setBit s _ _ _).mono (by decide)⟩

theorem servoWork_logOpen (source type : Nat) : ServoWork s (s.logOpen source type) := by
  obtain ⟨hframe, hobjs⟩ := record_recordOnly { s with free := s.free + 1 } source type false (Config.freeBytes s.free)
  have hfree : Changes [.free] s { s with free := s.free + 1 } := ⟨rfl, fun p hp => by cases p <;> simp [Part.same] at hp ⊢⟩
  have htime : (s.logOpen source type).time = s.time := hframe.2 .time (by decide)
  exact ⟨⟨(hfree.mono (by decide)).trans (hframe.mono (by decide)), congrArg StTime.fifos htime⟩, hobjs.mono (by decide)⟩

/-- The servo takes rate and offset of a followed domain. -/
theorem servoWork_follow (d : Nat) (x : Int) : ServoWork s ((s.followRate d).startSlew x) :=
  (rateWork_followRate s d).servoWork.trans (servoWork_startSlew _ x)

/-- A change of the followed reference: REF_EFFECTIVE names it, and the servo works. -/
theorem servoWork_refSwitch {new : Nat} (h : s.n kRefEffective ≠ new) : ServoWork (s.setN kRefEffective new) (s.refSwitch new) := by
  rw [State.refSwitch, if_neg h]
  dsimp only
  refine ServoWork.trans ?_ ((servoWork_timeStatus _ _ _).trans (servoWork_logOpen _ _ _))
  split
  · exact (RateWork.refl _).servoWork
  · split
    · exact servoWork_time _ rfl
    · exact servoWork_follow _ _ _

theorem refSwitch_self {new : Nat} (h : s.n kRefEffective = new) : s.refSwitch new = s := if_pos h

theorem timeWork_refSwitch (new : Nat) : TimeWork s (s.refSwitch new) := by
  by_cases h : s.n kRefEffective = new
  · rw [refSwitch_self s h]
    exact .refl s
  · exact (timeWork_setN s _ _).trans (servoWork_refSwitch s h).1

theorem length_refEffective : (objDefault kRefEffective).length = 1 := by decide

theorem n_refEffective_refSwitch {new : Nat} (hnew : new < 256) : (s.refSwitch new).n kRefEffective = new := by
  by_cases h : s.n kRefEffective = new
  · rw [refSwitch_self s h, h]
  · have hobj := (servoWork_refSwitch s h).2 kRefEffective (by decide)
    rw [State.n, hobj]
    exact (State.n_setN_same s _ _).trans (by rw [length_refEffective, pow_one, Nat.mod_eq_of_lt hnew])

theorem obj_refSwitch_other {new k : Nat} (hk : k ∉ kRefEffective :: servoKeys) : (s.refSwitch new).obj k = s.obj k := by
  simp only [List.mem_cons, not_or] at hk
  by_cases h : s.n kRefEffective = new
  · rw [refSwitch_self s h]
  · exact ((servoWork_refSwitch s h).2 k hk.2).trans (State.obj_setObj_other s _ hk.1)

end

/-! ### A write that takes effect at once, and one that its own check refuses (R386 to R390) -/

theorem objRow?_of_writeCheck {s : State} {rq : Requester} {index sub : Nat} {v : Bytes} (h : writeCheck s rq index sub v = 0) :
    ∃ r, objRow? index sub = some r := by
  cases hrow : objRow? index sub with
  | none =>
    rw [writeCheck, hrow] at h
    exact absurd h (by dsimp only; split <;> decide)
  | some r => exact ⟨r, rfl⟩

theorem changes_dict (s : State) (x : StDict) : Changes [.dict] s { s with dict := x } :=
  ⟨rfl, fun p hp => by cases p <;> simp [Part.same] at hp ⊢⟩

/-- What the acceptance of a write at once leaves with its requester: the outcome, and closed read transfers. -/
def State.accepted (s : State) (rq : Requester) (index sub : Nat) : State := (s.answer rq 0).closeReads index sub

theorem State.accepted_frame (s : State) (rq : Requester) (index sub : Nat) : Changes [.dict] s (s.accepted rq index sub) :=
  (changes_setRq s _).trans (changes_dict (s.answer rq 0) _)

/-- Where no cycle start is waited for, a write waits for none (R389). -/
theorem deferring_of_direct {index sub : Nat} {s : State} (h : Direct index sub s) (key : Nat) : deferring s key = false := by
  have hstate := h.1
  unfold deferring
  simp only [State.isIn] at hstate ⊢
  cases hs : s.dev.state <;> simp [hs] at hstate ⊢

section
variable {rq : Requester} {index sub : Nat} {v : Bytes} {own : State → Nat} {s : State}

/-- An accepted write that takes effect at once: its effect on the state in which its requester has its outcome, and what is
forwarded to the partner. -/
theorem submitWrite_direct (h : Allowed rq index sub v own s) (hdirect : Direct index sub s) (eff : State → State) :
    ∃ g, submitWrite rq index sub v own eff s = (eff (s.accepted rq index sub)).onPair g := by
  obtain ⟨hserved, hcheck, hblock, hown⟩ := h
  obtain ⟨r, hrow⟩ := objRow?_of_writeCheck hcheck
  have hstaging : staging (s.accepted rq index sub) r = false := hdirect.2 r hrow
  have hdefer : deferring (s.accepted rq index sub) (objKey index sub) = false := deferring_of_direct hdirect _
  have hwrite : submitWrite rq index sub v own eff s =
      if rq = .partner ∨ isAccessWrite (objKey index sub) ∨ objKey index sub = kDevCmd then eff (s.accepted rq index sub)
      else (eff (s.accepted rq index sub)).forward (eff (s.accepted rq index sub)).applyCycle (writeMsgBytes index sub v) := by
    rw [State.accepted] at hstaging hdefer ⊢
    simp only [submitWrite, hserved, hcheck, hblock, hown, hrow, hstaging, hdefer, Bool.not_true, Bool.false_eq_true, if_false, if_true,
      ne_eq, not_true_eq_false, false_and]
  rw [hwrite]
  split
  · exact ⟨id, rfl⟩
  · obtain ⟨g, -, hforward⟩ := (eff (s.accepted rq index sub)).forward_traffic _ _
    exact ⟨g, hforward⟩

/-- A write that its own check refuses, with a code that neither counts nor is recorded: the requester has the code. -/
theorem submitWrite_refused (hserved : s.served rq = true) (hcheck : writeCheck s rq index sub v = 0)
    (hblock : s.blockFailed index sub = false) {c : Nat} (hown : own s = c) (hzero : c ≠ 0) (hpending : c ≠ resPending)
    (hlevel : c ≠ abLevel) (hstate : c ≠ abState) (eff : State → State) : submitWrite rq index sub v own eff s = s.answer rq c := by
  simp [submitWrite, hserved, hcheck, hblock, hown, hzero, hpending, State.refuse, hlevel, hstate]

end

/-! ### The four writes -/

/-- No block serves the time unit's objects. -/
theorem blockFailed_time (s : State) (sub : Nat) : s.blockFailed 0x2000 sub = false := rfl

theorem num_append_left (a b : Bytes) {o n : Nat} (h : o + n ≤ a.length) : num (a ++ b) o n = num a o n := by
  rw [num, num, List.drop_append_of_le_length (by omega), List.take_append_of_le_length (by simp; omega)]

theorem num_append_right (a b : Bytes) {o n : Nat} (h : a.length ≤ o) : num (a ++ b) o n = num b (o - a.length) n := by
  rw [num, num, List.drop_append, List.drop_of_length_le h, List.nil_append]

theorem num_le (n v : Nat) : num (le n v) 0 n = v % 256 ^ n := by
  rw [num, List.drop_zero, List.take_of_length_le (by simp), leVal_le]

/-- The three numbers of a TIME96 operand, as its layout holds them (R30). -/
theorem num_time96Bytes (t : Time96) : num (time96Bytes t) 6 6 = t.sec.toNat ∧ num (time96Bytes t) 2 4 = t.nsec.toNat ∧
    num (time96Bytes t) 0 2 = t.frac.toNat := by
  have hlow (o n : Nat) (h : o + n ≤ 6) : num (time96Bytes t) o n = num (le 2 t.frac.toNat ++ le 4 t.nsec.toNat) o n :=
    num_append_left _ _ (by simpa using h)
  have hsec : num (time96Bytes t) 6 6 = num (le 6 t.sec.toNat) 0 6 := num_append_right _ _ (by simp)
  have hnsec : num (le 2 t.frac.toNat ++ le 4 t.nsec.toNat) 2 4 = num (le 4 t.nsec.toNat) 0 4 := num_append_right _ _ (by simp)
  have hfrac : num (le 2 t.frac.toNat ++ le 4 t.nsec.toNat) 0 2 = num (le 2 t.frac.toNat) 0 2 := num_append_left _ _ (by simp)
  rw [hsec, hlow 2 4 (by decide), hlow 0 2 (by decide), hnsec, hfrac, num_le, num_le, num_le]
  exact ⟨Nat.mod_eq_of_lt t.sec.isLt, Nat.mod_eq_of_lt t.nsec.isLt, Nat.mod_eq_of_lt t.frac.isLt⟩

theorem leVal_word {n : Nat} (v : BitVec (8 * n)) : leVal (le n v.toNat) = v.toNat := by
  rw [leVal_le, Nat.mod_eq_of_lt]
  exact Nat.pow_mul 2 8 n ▸ v.isLt

/-- The two's complement value of a 64-bit operand. -/
theorem signed_word (v : W64) : signed 8 (leVal (le 8 v.toNat)) = v.toInt := by
  rw [leVal_word (n := 8) v, signed, BitVec.toInt]
  split <;> split <;> omega

section
variable {s : State} {rq : Requester}

/-- The own check of TIME_INC and of PHASE_SLEW passes a value in range from a host that owns the servo (R33, R35, R36). -/
theorem timeIncOwn_host (hservo : s.n kTimeServo = 1) (v : W32) : timeIncOwn (le 4 v.toNat) s =
    if v.toNat < 0x27F00000 ∨ 0x28100000 < v.toNat then abRange else 0 := by
  simp only [timeIncOwn, State.servoBusy, hservo, leVal_word (n := 4) v]
  rfl

theorem timeIncOwn_firmware (hservo : s.n kTimeServo = 0) (v : Bytes) : timeIncOwn v s = abBusy := by
  simp [timeIncOwn, State.servoBusy, hservo]

theorem phaseSlewOwn_host (hservo : s.n kTimeServo = 1) {v : W64} (h : v.toInt.natAbs ≤ 65536000000) :
    phaseSlewOwn (le 8 v.toNat) s = 0 := by
  simp only [phaseSlewOwn, State.servoBusy, hservo, signed_word, Nat.not_lt.mpr h]
  rfl

/-- The effect of TIME_SET: the object, and the step that waits for the next tick. -/
theorem timeSetEff_eq (s : State) (t : Time96) : timeSetEff (time96Bytes t) s =
    { s.setObj kTimeSet (time96Bytes t) with
      time := { s.time with stepTo := some (t.sec.toNat, t.nsec.toNat, t.frac.toNat), stepSw := false } } := by
  obtain ⟨hsec, hnsec, hfrac⟩ := num_time96Bytes t
  rw [timeSetEff, hsec, hnsec, hfrac]
  rfl

theorem timeSetEff_frame (s : State) (t : Time96) : Changes [.time, .objs] s (timeSetEff (time96Bytes t) s) := by
  rw [timeSetEff_eq]
  exact ((changes_setObj s _ _).mono (by decide)).trans ((changes_time _ _).mono (by decide))

theorem timeSet_direct (t0 : Time96) (h : Allowed rq 0x2000 0x05 (time96Bytes t0) (fun _ => 0) s) (hdirect : Direct 0x2000 0x05 s) :
    Completes (.timeSet rq t0) s (fun t =>
      t.time = { s.time with stepTo := some (t0.sec.toNat, t0.nsec.toNat, t0.frac.toNat), stepSw := false } ∧
      t.obj kTimeSet = time96Bytes t0 ∧ ChangesObjs [kTimeSet] s t ∧ Changes [.time, .objs, .dict, .pair] s t) := by
  obtain ⟨g, hwrite⟩ := submitWrite_direct h hdirect (timeSetEff (time96Bytes t0))
  refine ⟨_, (exec_timeSet rq t0 s).trans (congrArg _ hwrite), ?time, ?value, ?objs, ?frame⟩
  case time => rw [timeSetEff_eq]; rfl
  case value => rw [timeSetEff_eq]; exact State.obj_setObj_same (s.accepted rq 0x2000 0x05) _ _
  case objs => rw [timeSetEff_eq]; exact changesObjs_setObj (s.accepted rq 0x2000 0x05) _ _
  case frame =>
    exact ((s.accepted_frame _ _ _).mono (by decide)).trans
      (((timeSetEff_frame _ _).mono (by decide)).trans ((changes_onPair _ g).mono (by decide)))

theorem timeIncWrite_direct (v : W32) (hserved : s.served rq = true) (hcheck : writeCheck s rq 0x2000 0x02 (le 4 v.toNat) = 0)
    (hdirect : Direct 0x2000 0x02 s) (hservo : s.n kTimeServo = 1) (hlow : 0x27F00000 ≤ v.toNat) (hhigh : v.toNat ≤ 0x28100000) :
    Completes (.timeIncWrite rq v) s (fun t =>
      t.n kTimeInc = v.toNat ∧ cell24 t = cell24 s ∧ t.time.slewRem = s.time.slewRem ∧ t.time.slewStep = s.time.slewStep ∧
      ChangesObjs [kTimeInc, kDomRate 0, kDomRate 1] s t ∧ Changes [.objs, .time, .dict, .pair] s t) := by
  have hown : timeIncOwn (le 4 v.toNat) s = 0 := (timeIncOwn_host hservo v).trans (if_neg (by omega))
  obtain ⟨g, hwrite⟩ := submitWrite_direct ⟨hserved, hcheck, blockFailed_time s _, hown⟩ hdirect (timeIncEff (le 4 v.toNat))
  have hwork := rateWork_incNow (s.accepted rq 0x2000 0x02) (leVal (le 4 v.toNat))
  have hcell := hwork.cell24_eq
  have hinc : ((s.accepted rq 0x2000 0x02).incNow (leVal (le 4 v.toNat))).n kTimeInc = v.toNat := by
    rw [n_timeInc_incNow, leVal_word (n := 4) v, Nat.mod_eq_of_lt v.isLt]
  obtain ⟨hframe, hobjs, -, -, hrem, hstep, -⟩ := hwork
  exact ⟨_, (exec_timeIncWrite rq v s).trans (congrArg _ hwrite), hinc, hcell, hrem, hstep, hobjs,
    ((s.accepted_frame _ _ _).mono (by decide)).trans ((hframe.mono (by decide)).trans ((changes_onPair _ g).mono (by decide)))⟩

theorem phaseSlew_direct (v : W64) (hserved : s.served rq = true) (hcheck : writeCheck s rq 0x2000 0x03 (le 8 v.toNat) = 0)
    (hdirect : Direct 0x2000 0x03 s) (hservo : s.n kTimeServo = 1) (hrange : v.toInt.natAbs ≤ 65536000000) :
    Completes (.phaseSlew rq v) s (fun t =>
      t.time = { s.time with slewRem := v.toInt * 256, slewStep := s.n kTimeInc * s.n kSlewRate / 1000000 } ∧
      t.objs = s.objs ∧ Changes [.time, .dict, .pair] s t) := by
  obtain ⟨g, hwrite⟩ := submitWrite_direct ⟨hserved, hcheck, blockFailed_time s _, phaseSlewOwn_host hservo hrange⟩ hdirect
    (phaseSlewEff (le 8 v.toNat))
  have heff (t : State) : phaseSlewEff (le 8 v.toNat) t = t.startSlew v.toInt := by rw [phaseSlewEff, signed_word]
  rw [heff] at hwrite
  exact ⟨_, (exec_phaseSlew rq v s).trans (congrArg _ hwrite), rfl, rfl,
    ((s.accepted_frame _ _ _).mono (by decide)).trans
      (((changes_time _ _).mono (by decide)).trans ((changes_onPair _ g).mono (by decide)))⟩

theorem mastership_setCellRef (s : State) (v : Bytes) : (s.setObj kCellRef v).mastership = s.mastership := by
  rw [State.mastership, State.paired, State.n_setObj_other s _ (by decide)]
  rfl

/-- The reference wanted once CELL_REF has a value, on a device with time mastership (R48). -/
theorem refWanted_setCellRef (s : State) (h : s.mastership = true) (v : Byte) :
    (s.setObj kCellRef [v]).refWanted = if v.toNat = s.partnerRef then 0 else v.toNat := by
  have hmaster : (s.setObj kCellRef [v]).mastership = true := (mastership_setCellRef s _).trans h
  have hpartner : (s.setObj kCellRef [v]).partnerRef = s.partnerRef := by
    rw [State.partnerRef, State.n_setObj_other s _ (by decide), State.n_setObj_other s _ (by decide), State.partnerRef]
  have hvalue : (s.setObj kCellRef [v]).n kCellRef = v.toNat := by simp [State.n, leVal]
  simp [State.refWanted, hmaster, hpartner, hvalue]

theorem cellRefEff_master {s : State} (h : s.mastership = true) (v : Byte) : cellRefEff [v] s =
    (s.setObj kCellRef [v]).refSwitch (if v.toNat = s.partnerRef then 0 else v.toNat) := by
  have hmaster : (s.setObj kCellRef [v]).mastership = true := (mastership_setCellRef s _).trans h
  rw [← refWanted_setCellRef s h]
  exact if_pos hmaster

theorem cellRefEff_follower {s : State} (h : s.mastership = false) (v : Byte) : cellRefEff [v] s = s.setObj kCellRef [v] := by
  have hmaster : (s.setObj kCellRef [v]).mastership = false := (mastership_setCellRef s _).trans h
  exact if_neg (by simp [hmaster])

theorem cellRefWrite_direct (v : Byte) (h : Allowed rq 0x2000 0x07 [v] (fun _ => 0) s) (hdirect : Direct 0x2000 0x07 s) :
    Completes (.cellRefWrite rq v) s (fun t =>
      t.obj kCellRef = [v] ∧ (s.mastership = true → t.n kRefEffective = if v.toNat = s.partnerRef then 0 else v.toNat) ∧
      (s.mastership = false → t.time = s.time ∧ ChangesObjs [kCellRef] s t)) := by
  obtain ⟨g, hwrite⟩ := submitWrite_direct h hdirect (cellRefEff [v])
  refine ⟨_, (exec_cellRefWrite rq v s).trans (congrArg _ hwrite), ?value, ?master, ?follower⟩
  case value =>
    show (cellRefEff [v] (s.accepted rq 0x2000 0x07)).obj kCellRef = [v]
    cases hm : (s.accepted rq 0x2000 0x07).mastership
    · rw [cellRefEff_follower hm, State.obj_setObj_same]
    · rw [cellRefEff_master hm, obj_refSwitch_other _ (by decide), State.obj_setObj_same]
  case master =>
    intro hm
    have hbyte : (if v.toNat = s.partnerRef then 0 else v.toNat) < 256 := by
      have := v.isLt
      split <;> omega
    show (cellRefEff [v] (s.accepted rq 0x2000 0x07)).n kRefEffective = _
    rw [cellRefEff_master (s := s.accepted rq 0x2000 0x07) hm]
    exact n_refEffective_refSwitch _ hbyte
  case follower =>
    intro hm
    rw [cellRefEff_follower (s := s.accepted rq 0x2000 0x07) hm]
    exact ⟨rfl, changesObjs_setObj (s.accepted rq 0x2000 0x07) _ _⟩

theorem timeIncWrite_refused (v : W32) (hserved : s.served rq = true) (hcheck : writeCheck s rq 0x2000 0x02 (le 4 v.toNat) = 0)
    {c : Nat} (hown : timeIncOwn (le 4 v.toNat) s = c) (hcode : c = abRange ∨ c = abBusy) :
    Completes (.timeIncWrite rq v) s (fun t => (t.rq rq).result = c ∧ t.objs = s.objs ∧ Changes [.dict] s t) := by
  have hne : c ≠ 0 ∧ c ≠ resPending ∧ c ≠ abLevel ∧ c ≠ abState := by
    obtain rfl | rfl := hcode
    all_goals decide
  obtain ⟨hzero, hpending, hlevel, hstate⟩ := hne
  have hwrite := submitWrite_refused hserved hcheck (blockFailed_time s _) hown hzero hpending hlevel hstate (timeIncEff (le 4 v.toNat))
  exact ⟨_, (exec_timeIncWrite rq v s).trans (congrArg _ hwrite), by rw [State.rq_answer], rfl, changes_setRq s _⟩

end

end Sys2Proof.Machine

namespace Sys2Proof

open Machine

/-- Settles O9: each write that is let through has its effect, and the own check of TIME_INC refuses the others. -/
theorem timeWrites : Obligations.TimeWrites := by
  constructor
  · intro s rq
    exact ⟨fun t0 => timeSet_direct t0, fun v => timeIncWrite_direct v, fun v => phaseSlew_direct v, fun v => cellRefWrite_direct v⟩
  · intro s rq v hserved hcheck
    refine ⟨fun hservo hrange => ?_, fun hservo => ?_⟩
    · exact timeIncWrite_refused v hserved hcheck ((timeIncOwn_host hservo v).trans (if_pos hrange)) (.inl rfl)
    · exact timeIncWrite_refused v hserved hcheck (timeIncOwn_firmware hservo _) (.inr rfl)

end Sys2Proof
end

section
/-! SUPPORT. PTP messages and time exchanges: timestamps and their FIFOs, the update of a domain, and what PTP_MESSAGE and
TIME_EXCHANGE answer. -/

namespace Sys2Proof.Machine

theorem exec_ptpMessage (m : PtpMsg) (s : State) : exec (.ptpMessage m) s = .next (ptpMessage m s) := rfl
theorem exec_timeExchange (x : Exchange) (s : State) : exec (.timeExchange x) s = .next (timeExchange x s) := rfl

/-! ### Timestamps (R41, R42) -/

/-- The FIFO of a port takes a record. -/
def StTime.store (t : StTime) (port : Nat) (r : Bytes) : StTime :=
  { t with fifos := modAt t.fifos port (fun l => l ++ [r]), lost := modAt t.lost port (fun _ => false) }

/-- The FIFO of a port takes a stamp. -/
def State.stampIn (s : State) (port : Nat) (egress sw : Bool) (tag : Nat) (t : Time96) : State :=
  { s with time := s.time.store port (stampRecord s port egress sw tag (s.stamp port egress sw (time96Q t))) }

theorem getD_modAt_same {α : Type} {l : List α} {i : Nat} (h : i < l.length) (f : α → α) (a : α) :
    (modAt l i f).getD i a = f (l.getD i a) := by
  simp [List.getD_eq_getElem?_getD, getElem?_modAt_same, List.getElem?_eq_getElem h]

theorem StTime.fifo_store {t : StTime} {port : Nat} (h : port < t.fifos.length) (r : Bytes) :
    (t.store port r).fifos.getD port [] = t.fifos.getD port [] ++ [r] := getD_modAt_same h _ _

@[simp] theorem StTime.store_fifos_length (t : StTime) (port : Nat) (r : Bytes) : (t.store port r).fifos.length = t.fifos.length :=
  modAt_length ..

section
variable {s : State} {port : Nat}

theorem pushStamp_room (h : s.fifoFull port = false) (egress sw : Bool) (tag q : Nat) :
    s.pushStamp port egress sw tag q = { s with time := s.time.store port (stampRecord s port egress sw tag q) } := by
  rw [State.pushStamp, if_neg (by simp [h])]
  rfl

/-- A FIFO with room stores the stamp, and the stamp is used as it was taken. -/
theorem takeStamp_room (h : s.fifoFull port = false) (egress sw : Bool) (tag : Nat) (t : Time96) :
    s.takeStamp port egress sw tag t = ((s.stamp port egress sw (time96Q t), sw), s.stampIn port egress sw tag t) := by
  simp [State.takeStamp, h, pushStamp_room h, State.stampIn]

end

theorem changes_stampIn (s : State) (port : Nat) (egress sw : Bool) (tag : Nat) (t : Time96) :
    Changes [.time] s (s.stampIn port egress sw tag t) := changes_time s _

theorem takeStamp_frame (s : State) (port : Nat) (egress sw : Bool) (tag : Nat) (t : Time96) :
    Changes [.time, .objs] s (s.takeStamp port egress sw tag t).2 := by
  unfold State.takeStamp State.pushStamp
  dsimp only
  split
  · exact ((changes_time s _).mono (by decide)).trans ((changes_setBit _ _ _ _).mono (by decide))
  · exact (changes_time s _).mono (by decide)

/-! ### What a domain keeps -/

section
variable (s : State) (d : Nat) (x : DomSt)

@[simp] theorem State.dom_setDom : (s.setDom d x).dom d = x := by
  unfold State.setDom State.dom
  split <;> rfl

@[simp] theorem State.setDom_ptpOut : (s.setDom d x).time.ptpOut = s.time.ptpOut := by
  unfold State.setDom
  split <;> rfl

@[simp] theorem State.n_setDom (k : Nat) : (s.setDom d x).n k = s.n k := State.n_congr (s.setDom_objs d x) k

@[simp] theorem State.bit_setDom (k b : Nat) : (s.setDom d x).bit k b = s.bit k b := by simp [State.bit]

end

/-! ### The update of a domain (R47) -/

/-- An update counts, unless its domain was lost: its count starts anew. -/
def State.domCounted (s : State) (d st : Nat) : State := if st = 4 then s.setN (kDomUpdates d) 0 else s.inc (kDomUpdates d)

/-- The state that a domain takes after an update, with the switch back to a domain that locks. -/
def State.domMoved (s : State) (d st run : Nat) (agree : Bool) : State :=
  if st = 1 ∧ 16 ≤ run then (s.setN (kDomState d) 2).switchBack d
  else if st = 3 ∧ agree then (s.setN (kDomState d) 2).switchBack d
  else if st = 4 then s.setN (kDomState d) 1
  else s

/-- The servo follows a locked domain. -/
def State.domFollowed (s : State) (d : Nat) : State :=
  if s.n kRefEffective = d + 1 ∧ s.n (kDomState d) = 2 ∧ s.n kTimeServo = 0 then
    (s.followRate d).startSlew ((s.followRate d).domOffset d)
  else s

/-- An update of a domain that is not OFF with a stamp that may be used, step by step. -/
theorem domUpdate_steps {s : State} {d : Nat} {sw : Bool} (hoff : s.n (kDomState d) ≠ 0) (huse : s.stampUsable d sw = true)
    (meas : Int) : ∃ x rate run agree, x.off24 = meas * 256 ∧ x.lastAt = some s.cellQ ∧ run ≤ (s.dom d).run + 1 ∧
      s.domUpdate d sw meas =
        (((((if sw then s.setBit kTimeStatus 4 true else s).setDom d x).setI (kDomRate d) rate).domCounted d
          (s.n (kDomState d))).domMoved d (s.n (kDomState d)) run agree).domFollowed d := by
  have hgo : ¬(s.n (kDomState d) = 0 ∨ (!s.stampUsable d sw) = true) := by simp [hoff, huse]
  rw [State.domUpdate, if_neg hgo]
  refine ⟨_, _, _, _, ?_, ?_, ?_, rfl⟩
  · rfl
  · cases sw <;> rfl
  · have hrun : ((if sw = true then s.setBit kTimeStatus 4 true else s).dom d).run = (s.dom d).run := by cases sw <;> rfl
    have hle (c : Prop) [Decidable c] (n : Nat) : (if c then n + 1 else 0) ≤ n + 1 := by split <;> omega
    rw [hrun]
    exact hle _ _

section
variable (s : State) (d : Nat)

theorem timeWork_switchBack : TimeWork s (s.switchBack d) := by
  unfold State.switchBack
  split
  · exact .ite (timeWork_refSwitch s _) (.refl s)
  · exact .ite (timeWork_refSwitch s _) (.refl s)

theorem timeWork_domCounted (st : Nat) : TimeWork s (s.domCounted d st) := .ite (timeWork_setN s _ _) (timeWork_setN s _ _)

theorem timeWork_domMoved (st run : Nat) (agree : Bool) : TimeWork s (s.domMoved d st run agree) :=
  have hlocks : TimeWork s ((s.setN (kDomState d) 2).switchBack d) := (timeWork_setN s _ _).trans (timeWork_switchBack _ d)
  .ite hlocks (.ite hlocks (.ite (timeWork_setN s _ _) (.refl s)))

theorem timeWork_domFollowed : TimeWork s (s.domFollowed d) := .ite (servoWork_follow s _ _).1 (.refl s)

theorem timeWork_domUpdate (sw : Bool) (meas : Int) : TimeWork s (s.domUpdate d sw meas) := by
  by_cases hgo : s.n (kDomState d) = 0 ∨ (!s.stampUsable d sw) = true
  · rw [State.domUpdate, if_pos hgo]
    exact .refl s
  · simp only [not_or, Bool.not_eq_true', Bool.not_eq_false] at hgo
    obtain ⟨x, rate, run, agree, -, -, -, hsteps⟩ := domUpdate_steps hgo.1 hgo.2 meas
    have hmark : TimeWork s (if sw then s.setBit kTimeStatus 4 true else s) := .ite (timeWork_setN s _ _) (.refl s)
    rw [hsteps]
    exact (((hmark.trans (timeWork_setDom _ d x)).trans (timeWork_setObj _ _ _)).trans (timeWork_domCounted _ d _)).trans
      ((timeWork_domMoved _ d _ _ _).trans (timeWork_domFollowed _ d))

end

/-- A hardware stamp may always be used (R43). -/
theorem stampUsable_hardware (s : State) (d : Nat) : s.stampUsable d false = true := rfl

theorem domainKeys_apart (d : Nat) : kDomState d ≠ kDomRate d ∧ kDomState d ≠ kDomUpdates d ∧ kDomUpdates d ≠ kDomRate d := by
  simp only [kDomState, kDomRate, kDomUpdates]
  omega

theorem State.n_setI_other (s : State) {k j : Nat} (v : Int) (h : j ≠ k) : (s.setI k v).n j = s.n j := State.n_setObj_other s _ h

theorem State.n_inc_other (s : State) {k j : Nat} (h : j ≠ k) : (s.inc k).n j = s.n j := State.n_setN_other s _ h

/-- A counter of four bytes saturates. -/
theorem State.n_inc_same (s : State) {k : Nat} (hlen : (objDefault k).length = 4) :
    (s.inc k).n k = min (s.n k + 1) (2 ^ 32 - 1) := by
  rw [State.inc, State.n_setN_same, hlen, satInc]
  split <;> omega

theorem length_domUpdates (d : Fin 2) : (objDefault (kDomUpdates d)).length = 4 := by revert d; decide

section
variable {s : State} {d : Nat} (hstate : s.n (kDomState d) = 1) (hrun : (s.dom d).run < 15) (meas : Int)
include hstate hrun

/-- An update of a domain that acquires, before the sixteenth that agrees: the measured offset, the rate and one update more. -/
theorem domUpdate_acquiring : ∃ x rate, x.off24 = meas * 256 ∧ x.lastAt = some s.cellQ ∧
    s.domUpdate d false meas = ((s.setDom d x).setI (kDomRate d) rate).inc (kDomUpdates d) := by
  obtain ⟨x, rate, run, agree, hoff, hlast, hle, hsteps⟩ :=
    domUpdate_steps (by omega : s.n (kDomState d) ≠ 0) (stampUsable_hardware s d) meas
  obtain ⟨hrate, hupdates, -⟩ := domainKeys_apart d
  have hshort : ¬16 ≤ run := by omega
  refine ⟨x, rate, hoff, hlast, ?_⟩
  simp [hsteps, hstate, State.domCounted, State.domMoved, State.domFollowed, hshort, State.n_inc_other _ hupdates,
    State.n_setI_other _ _ hrate]

/-- What stands after such an update. -/
theorem domUpdate_acquiring_takes (hd : d < 2) :
    ((s.domUpdate d false meas).dom d).off24 = meas * 256 ∧ ((s.domUpdate d false meas).dom d).lastAt = some s.cellQ ∧
    (s.domUpdate d false meas).n (kDomState d) = 1 ∧
    (s.domUpdate d false meas).n (kDomUpdates d) = min (s.n (kDomUpdates d) + 1) (2 ^ 32 - 1) ∧
    ChangesObjs [kDomRate d, kDomUpdates d] s (s.domUpdate d false meas) ∧
    Changes [.time, .objs] s (s.domUpdate d false meas) := by
  obtain ⟨x, rate, hoff, hlast, hupdate⟩ := domUpdate_acquiring hstate hrun meas
  obtain ⟨hrate, hupdates, hapart⟩ := domainKeys_apart d
  have hdom : (s.domUpdate d false meas).dom d = x := by
    rw [hupdate]
    exact s.dom_setDom d x
  rw [hdom, hupdate]
  refine ⟨hoff, hlast, ?_, ?_, ?_, ?_⟩
  · rw [State.n_inc_other _ hupdates, State.n_setI_other _ _ hrate, State.n_setDom, hstate]
  · rw [State.n_inc_same _ (length_domUpdates ⟨d, hd⟩), State.n_setI_other _ _ hapart, State.n_setDom]
  · exact (ChangesObjs.of_objs (s.setDom_objs d x) _).trans
      (((changesObjs_setI _ _ _).mono (by simp)).trans ((changesObjs_setN _ _ _).mono (by simp)))
  · exact ((changes_setDom s d x).mono (by decide)).trans
      (((changes_setI _ _ _).mono (by decide)).trans ((changes_setN _ _ _).mono (by decide)))

end

/-! ### PTP messages (R45) -/

theorem ptpDomain_lt {s : State} {m : PtpMsg} {d : Nat} (h : s.ptpDomain m = some d) : d < 2 := by
  unfold State.ptpDomain at h
  dsimp only at h
  split at h
  · exact Option.some.inj h ▸ (by decide)
  · split at h
    · exact Option.some.inj h ▸ (by decide)
    · exact absurd h (by simp)

/-- What a PTP message changes at most. -/
def ptpParts : List Part := [.time, .objs, .recd, .free]

theorem TimeWork.ptpChanges {s t : State} (h : TimeWork s t) : Changes ptpParts s t := h.1

theorem ptpChanges_takeStamp (s : State) (port : Nat) (egress sw : Bool) (tag : Nat) (t : Time96) :
    Changes ptpParts s (s.takeStamp port egress sw tag t).2 := (takeStamp_frame s port egress sw tag t).mono (by decide)

section
variable (s : State) (d : Nat) (m : PtpMsg)

theorem ptpChanges_setDom (x : DomSt) : Changes ptpParts s (s.setDom d x) := (timeWork_setDom s d x).ptpChanges

theorem ptpChanges_send (k : PtpSend) (seq time : Nat) : Changes ptpParts s (s.ptpSend d k seq time) := (changes_time s _).mono (by decide)

theorem ptpChanges_request : Changes ptpParts s (s.ptpRequest d) := (ptpChanges_setDom s d _).trans (ptpChanges_send _ d _ _ _)

theorem ptpChanges_mark (c : Bool) : Changes ptpParts s (if c then s.setBit kTimeStatus 4 true else s) :=
  (TimeWork.ite (timeWork_setN s _ _) (.refl s)).ptpChanges

theorem ptpChanges_syncExchange (t1 t2 : Nat) (sw : Bool) : Changes ptpParts s (s.syncExchange d t1 t2 sw) := by
  unfold State.syncExchange
  dsimp only
  refine Changes.trans ?_ (ptpChanges_request _ d)
  split
  · exact (ptpChanges_setDom s d _).trans (timeWork_domUpdate _ d _ _).ptpChanges
  · exact ptpChanges_setDom s d _

theorem ptpChanges_setPathDelay (twice : Int) (sw : Bool) : Changes ptpParts s (s.setPathDelay d twice sw) :=
  (ptpChanges_mark s sw).trans (ptpChanges_setDom _ d _)

theorem ptpChanges_announce : Changes ptpParts s (s.ptpAnnounce d m) := by
  have htake (x : DomSt) : Changes ptpParts s
      (((s.setDom d x).setN (kDomGmId d) m.gmId.toNat).setN (kDomUtcOffset d) m.utcOffset.toNat) :=
    (((timeWork_setDom s d x).trans (timeWork_setN _ _ _)).trans (timeWork_setN _ _ _)).ptpChanges
  unfold State.ptpAnnounce
  dsimp only
  split
  · exact htake _
  · split
    · exact htake _
    · split
      · exact htake _
      · exact .refl _ s

theorem ptpChanges_delayResp : Changes ptpParts s (s.ptpDelayResp d m) := by
  unfold State.ptpDelayResp
  dsimp only
  split
  · exact .refl _ s
  · refine (ptpChanges_takeStamp s 5 true m.software m.seqId.toNat m.egress).trans ?_
    split
    · split
      · exact ptpChanges_setPathDelay _ d _ _
      · exact ptpChanges_setDom _ d _
    · exact .refl _ _

theorem ptpChanges_answer (i : Nat × Bool) : Changes ptpParts s (s.ptpAnswer d m i) := by
  unfold State.ptpAnswer
  dsimp only
  split
  · exact .refl _ s
  · refine (ptpChanges_takeStamp s 5 true m.software m.seqId.toNat m.egress).trans ?_
    split
    · exact .refl _ _
    · exact ((ptpChanges_mark _ _).trans (ptpChanges_send _ d _ _ _)).trans (ptpChanges_send _ d _ _ _)

theorem ptpChanges_use (i : Nat × Bool) : Changes ptpParts s (s.ptpUse d m i) := by
  have hif {c : Prop} [Decidable c] {t : State} (h : Changes ptpParts s t) : Changes ptpParts s (if c then t else s) := by
    split
    · exact h
    · exact .refl _ s
  unfold State.ptpUse
  dsimp only
  cases m.kind
  case announce => exact ptpChanges_announce s d m
  case syncOneStep => exact hif (ptpChanges_syncExchange s d _ _ _)
  case syncTwoStep => exact hif (ptpChanges_setDom s d _)
  case followUp =>
    dsimp only
    split
    · exact hif (ptpChanges_syncExchange s d _ _ _)
    · exact .refl _ s
  case delayResp => exact hif (ptpChanges_delayResp s d m)
  case pdelayReq => exact ptpChanges_answer s d m i
  case pdelayResp =>
    dsimp only
    split
    · exact .refl _ s
    · exact (ptpChanges_takeStamp s 5 true m.software m.seqId.toNat m.egress).trans (ptpChanges_setDom _ d _)
  case pdelayRespFollowUp =>
    dsimp only
    split
    · exact hif ((ptpChanges_setDom s d _).trans (ptpChanges_setPathDelay _ d _ _))
    · exact .refl _ s
  case management => exact .refl _ s
  case signalling => exact .refl _ s

theorem ptpMessage_frame : Changes ptpParts s (ptpMessage m s) := by
  have huse (t : State) (i : Nat × Bool) : Changes ptpParts t (match t.ptpDomain m with
      | none => t
      | some d => t.ptpUse d m i) := by
    split
    · exact .refl _ t
    · exact ptpChanges_use t _ m i
  unfold ptpMessage
  split
  · exact .refl _ s
  · cases ptpEvent m.kind
    · exact huse s _
    · exact (ptpChanges_takeStamp s 5 false m.software m.seqId.toNat m.ingress).trans (huse _ _)

end

/-! ### Messages, case by case -/

/-- The stamp that an event message leaves (R41). -/
def State.ptpStamped (s : State) (m : PtpMsg) : State := s.stampIn 5 false m.software m.seqId.toNat m.ingress

section
variable {s : State} (hup : s.dev.phase = .up) {m : PtpMsg}
include hup

theorem ptpMessage_untracked (hdom : s.ptpDomain m = none) (hevent : ptpEvent m.kind = false) : ptpMessage m s = s := by
  simp [ptpMessage, hup, hevent, hdom]

theorem ptpMessage_tracked {d : Nat} (hdom : s.ptpDomain m = some d) (hevent : ptpEvent m.kind = false) :
    ptpMessage m s = s.ptpUse d m (0, false) := by
  simp [ptpMessage, hup, hevent, hdom]

section
variable (hevent : ptpEvent m.kind = true) (hroom : s.fifoFull 5 = false)
include hevent hroom

theorem ptpMessage_untracked_event (hdom : s.ptpDomain m = none) : ptpMessage m s = s.ptpStamped m := by
  have hdom' : (s.stampIn 5 false m.software m.seqId.toNat m.ingress).ptpDomain m = none := hdom
  simp [ptpMessage, hup, hevent, takeStamp_room hroom, hdom', State.ptpStamped]

theorem ptpMessage_tracked_event {d : Nat} (hdom : s.ptpDomain m = some d) :
    ptpMessage m s = (s.ptpStamped m).ptpUse d m (s.stamp 5 false m.software (time96Q m.ingress), m.software) := by
  have hdom' : (s.stampIn 5 false m.software m.seqId.toNat m.ingress).ptpDomain m = some d := hdom
  simp [ptpMessage, hup, hevent, takeStamp_room hroom, hdom', State.ptpStamped]

end
end

/-! ### The first Announce -/

theorem length_domMaster (d : Fin 2) : (objDefault (kDomGmId d)).length = 8 ∧ (objDefault (kDomUtcOffset d)).length = 2 := by
  revert d; decide

theorem domMaster_ne (d : Nat) : kDomGmId d ≠ kDomUtcOffset d := by
  simp only [kDomGmId, kDomUtcOffset]
  omega

/-- An Announce in a domain without a master selects its own (R45). -/
theorem ptpAnnounce_first {s : State} {d : Nat} (h : (s.dom d).master = none) (m : PtpMsg) :
    ∃ x, x.master = some (ptpMaster m) ∧ s.ptpAnnounce d m =
      ((s.setDom d x).setN (kDomGmId d) m.gmId.toNat).setN (kDomUtcOffset d) m.utcOffset.toNat := by
  unfold State.ptpAnnounce
  dsimp only
  rw [h]
  exact ⟨_, rfl, rfl⟩

theorem ptpUse_announce {s : State} {d : Nat} {m : PtpMsg} (h : m.kind = .announce) (i : Nat × Bool) :
    s.ptpUse d m i = s.ptpAnnounce d m := by
  simp [State.ptpUse, h]

theorem announce_first {s : State} {m : PtpMsg} {d : Nat} (hup : s.dev.phase = .up) (hdom : s.ptpDomain m = some d)
    (hkind : m.kind = .announce) (hfirst : (s.dom d).master = none) : Completes (.ptpMessage m) s (fun t =>
      (t.dom d).master = some (ptpMaster m) ∧ t.n (kDomGmId d) = m.gmId.toNat ∧ t.n (kDomUtcOffset d) = m.utcOffset.toNat ∧
      ChangesObjs [kDomGmId d, kDomUtcOffset d] s t ∧ Changes [.objs, .time] s t) := by
  have huse := ptpMessage_tracked hup hdom (by rw [hkind]; rfl)
  obtain ⟨x, hmaster, hann⟩ := ptpAnnounce_first hfirst m
  obtain ⟨hgm, hutc⟩ := length_domMaster ⟨d, ptpDomain_lt hdom⟩
  refine ⟨_, (exec_ptpMessage m s).trans (congrArg _ (huse.trans ((ptpUse_announce hkind _).trans hann))), ?_, ?_, ?_, ?_, ?_⟩
  · exact (congrArg DomSt.master (s.dom_setDom d x)).trans hmaster
  · rw [State.n_setN_other _ _ (domMaster_ne d), State.n_setN_same, hgm]
    exact Nat.mod_eq_of_lt m.gmId.isLt
  · rw [State.n_setN_same, hutc]
    exact Nat.mod_eq_of_lt m.utcOffset.isLt
  · exact (ChangesObjs.of_objs (s.setDom_objs d x) _).trans
      (((changesObjs_setN _ _ _).mono (by simp)).trans ((changesObjs_setN _ _ _).mono (by simp)))
  · exact ((changes_setDom s d x).mono (by decide)).trans
      (((changes_setN _ _ _).mono (by decide)).trans ((changes_setN _ _ _).mono (by decide)))

/-! ### A one-step Sync -/

section
variable {s : State} {m : PtpMsg} {d : Nat}

/-- A Sync that the selected master did not send moves no domain (R45). -/
theorem ptpUse_sync_stranger (hkind : m.kind = .syncOneStep) (h : ∀ y, (s.dom d).master = some y → y.sends m = false)
    (i : Nat × Bool) : s.ptpUse d m i = s := by
  cases hmaster : (s.dom d).master with
  | none => simp [State.ptpUse, hkind, hmaster]
  | some y => simp [State.ptpUse, hkind, hmaster, h y hmaster]

theorem ptpUse_sync_selected (hkind : m.kind = .syncOneStep) {y : PtpMaster} (hmaster : (s.dom d).master = some y)
    (hsends : y.sends m = true) (hinterval : ptpIntervalOk m = true) (i : Nat × Bool) :
    s.ptpUse d m i = s.syncExchange d (time96Q m.remote) i.1 i.2 := by
  simp [State.ptpUse, hkind, hmaster, hsends, hinterval]

end

/-- Without a path delay an exchange by hardware stamps keeps its two times, and the domain's own request leaves (R45). -/
theorem syncExchange_first {s : State} {d : Nat} (hpath : (s.dom d).pathDelay = none) (t1 t2 : Nat) :
    s.syncExchange d t1 t2 false = (s.setDom d { s.dom d with t1t2 := some (t1, t2, false), sync := none }).ptpRequest d := by
  simp [State.syncExchange, hpath, stampUsable_hardware]

/-- The request that leaves names the domain's number and its own sequence, which stays open. -/
theorem ptpRequest_sends (s : State) (d : Nat) :
    ((s.ptpRequest d).dom d).t1t2 = (s.dom d).t1t2 ∧ ((s.ptpRequest d).dom d).reqOpen = some (s.dom d).reqSeq ∧
    (s.ptpRequest d).time.ptpOut = s.time.ptpOut ++
      [⟨if s.bit (kDomPtpMode d) 1 then .pdelayReq else .delayReq, s.n (kDomPtpNum d), (s.dom d).reqSeq, 0⟩] ∧
    (s.ptpRequest d).objs = s.objs ∧ Changes [.time] s (s.ptpRequest d) := by
  have hdom (t : State) (k : PtpSend) (seq : Nat) : (t.ptpSend d k seq 0).dom d = t.dom d := rfl
  refine ⟨?_, ?_, ?_, ?_, (changes_setDom s d _).trans (changes_time _ _)⟩
  · rw [State.ptpRequest, hdom, State.dom_setDom]
  · rw [State.ptpRequest, hdom, State.dom_setDom]
  · simp [State.ptpRequest, State.ptpSend]
  · exact s.setDom_objs d _

theorem fifo_ptpStamped {s : State} (hfifos : s.time.fifos.length = 6) (m : PtpMsg) :
    (s.ptpStamped m).time.fifos.getD 5 [] = s.time.fifos.getD 5 [] ++
      [stampRecord s 5 false m.software m.seqId.toNat (s.stamp 5 false m.software (time96Q m.ingress))] :=
  StTime.fifo_store (by omega) _

section
variable {s : State} {m : PtpMsg} {d : Nat} (hup : s.dev.phase = .up) (hdom : s.ptpDomain m = some d) (hkind : m.kind = .syncOneStep)
  (hroom : s.fifoFull 5 = false)
include hup hdom hkind hroom

theorem sync_stranger (hfifos : s.time.fifos.length = 6) (h : ∀ y, (s.dom d).master = some y → y.sends m = false) :
    Completes (.ptpMessage m) s (fun t =>
      t.objs = s.objs ∧ t.time.d0 = s.time.d0 ∧ t.time.d1 = s.time.d1 ∧ Changes [.time] s t ∧
      (t.time.fifos.getD 5 []).length = (s.time.fifos.getD 5 []).length + 1) := by
  have huse := ptpMessage_tracked_event hup (by rw [hkind]; rfl) hroom hdom
  rw [ptpUse_sync_stranger (s := s.ptpStamped m) hkind h] at huse
  exact ⟨_, (exec_ptpMessage m s).trans (congrArg _ huse), rfl, rfl, rfl, changes_stampIn s _ _ _ _ _,
    by rw [fifo_ptpStamped hfifos, List.length_append, List.length_singleton]⟩

theorem sync_selected {y : PtpMaster} (hmaster : (s.dom d).master = some y) (hsends : y.sends m = true)
    (hinterval : ptpIntervalOk m = true) (hsw : m.software = false) (hpath : (s.dom d).pathDelay = none) :
    Completes (.ptpMessage m) s (fun t =>
      (t.dom d).t1t2 = some (time96Q m.remote, s.stamp 5 false false (time96Q m.ingress), false) ∧
      (t.dom d).reqOpen = some (s.dom d).reqSeq ∧
      t.time.ptpOut = s.time.ptpOut ++
        [⟨if s.bit (kDomPtpMode d) 1 then .pdelayReq else .delayReq, s.n (kDomPtpNum d), (s.dom d).reqSeq, 0⟩] ∧
      t.objs = s.objs ∧ Changes [.time] s t) := by
  have huse := ptpMessage_tracked_event hup (by rw [hkind]; rfl) hroom hdom
  rw [ptpUse_sync_selected (s := s.ptpStamped m) hkind hmaster hsends hinterval, hsw,
    syncExchange_first (s := s.ptpStamped m) hpath] at huse
  obtain ⟨ht, hopen, hout, hobjs, hframe⟩ := ptpRequest_sends ((s.ptpStamped m).setDom d
    { s.dom d with t1t2 := some (time96Q m.remote, s.stamp 5 false false (time96Q m.ingress), false), sync := none }) d
  rw [State.dom_setDom] at ht hopen hout
  rw [State.setDom_ptpOut, State.n_setDom, State.bit_setDom] at hout
  exact ⟨_, (exec_ptpMessage m s).trans (congrArg _ huse), ht, hopen, hout, hobjs.trans (State.setDom_objs _ d _),
    (changes_stampIn s _ _ _ _ _).trans ((changes_setDom _ d _).trans hframe)⟩

end

/-! ### Time exchanges (R46) -/

/-- The two stamps that a time exchange leaves in the FIFO of port 4. -/
def State.exchanged (s : State) (x : Exchange) : State :=
  (s.stampIn 4 true x.software x.number.toNat x.t1).stampIn 4 false x.software x.number.toNat x.t4

/-- The sample of an exchange: half the difference of the two ways, rounded down. -/
def State.exchangeOffset (s : State) (x : Exchange) : Int :=
  (((time96Q x.t2 : Int) - s.stamp 4 true x.software (time96Q x.t1)) -
    ((s.stamp 4 false x.software (time96Q x.t4) : Int) - time96Q x.t3)) / 2

theorem changes_exchanged (s : State) (x : Exchange) : Changes [.time] s (s.exchanged x) :=
  (changes_stampIn s _ _ _ _ _).trans (changes_stampIn _ _ _ _ _ _)

theorem fifo_exchanged {s : State} (hfifos : s.time.fifos.length = 6) (x : Exchange) :
    ((s.exchanged x).time.fifos.getD 4 []).length = (s.time.fifos.getD 4 []).length + 2 := by
  rw [State.exchanged, State.stampIn, StTime.fifo_store (by simp [State.stampIn, hfifos]), State.stampIn, StTime.fifo_store (by omega)]
  simp

theorem timeExchange_single {s : State} (h : s.paired = false) (x : Exchange) : timeExchange x s = s := by
  simp [timeExchange, h]

section
variable {s : State} (hup : s.dev.phase = .up) (hpaired : s.paired = true) (hfifos : s.time.fifos.length = 6)
  (hroom : (s.time.fifos.getD 4 []).length < 63) (x : Exchange)
include hup hpaired hfifos hroom

/-- With room for both stamps, the exchange updates the PARTNER domain, if one is. -/
theorem timeExchange_cases :
    (s.partnerRef = 0 ∧ timeExchange x s = s.exchanged x) ∨
    ∃ r, s.partnerRef = r + 1 ∧ timeExchange x s = (s.exchanged x).domUpdate r x.software (s.exchangeOffset x) := by
  have hfirst : s.fifoFull 4 = false := by simp only [State.fifoFull, decide_eq_false_iff_not]; omega
  have hsecond : (s.stampIn 4 true x.software x.number.toNat x.t1).fifoFull 4 = false := by
    simp only [State.fifoFull, State.stampIn, StTime.fifo_store (show 4 < s.time.fifos.length by omega), List.length_append,
      List.length_singleton, decide_eq_false_iff_not]
    omega
  have hrun : ¬(s.dev.phase ≠ .up ∨ (!s.paired) = true) := by simp [hup, hpaired]
  rw [timeExchange, if_neg hrun]
  simp only [takeStamp_room hfirst, takeStamp_room hsecond, Bool.or_self]
  have href : (s.exchanged x).partnerRef = s.partnerRef := rfl
  rw [State.exchanged] at href ⊢
  cases hp : s.partnerRef with
  | zero => exact .inl ⟨rfl, by rw [href, hp]⟩
  | succ r => exact .inr ⟨r, rfl, by rw [href, hp]; rfl⟩

theorem timeExchange_noPartner (h : s.partnerRef = 0) : timeExchange x s = s.exchanged x := by
  obtain ⟨-, hx⟩ | ⟨r, hr, -⟩ := timeExchange_cases hup hpaired hfifos hroom x
  · exact hx
  · exact absurd (h.symm.trans hr) (by omega)

theorem timeExchange_partner {r : Nat} (h : s.partnerRef = r + 1) :
    timeExchange x s = (s.exchanged x).domUpdate r x.software (s.exchangeOffset x) := by
  obtain ⟨h0, -⟩ | ⟨r', hr, hx⟩ := timeExchange_cases hup hpaired hfifos hroom x
  · exact absurd (h0.symm.trans h) (by omega)
  · obtain rfl : r' = r := Nat.succ.inj (hr.symm.trans h)
    exact hx

theorem timeExchange_stamps : Completes (.timeExchange x) s (fun t =>
    (t.time.fifos.getD 4 []).length = (s.time.fifos.getD 4 []).length + 2 ∧
    (s.partnerRef = 0 → t.objs = s.objs ∧ Changes [.time] s t)) := by
  refine ⟨_, exec_timeExchange x s, ?_, fun h => ?_⟩
  · obtain ⟨-, hx⟩ | ⟨r, -, hx⟩ := timeExchange_cases hup hpaired hfifos hroom x
    · rw [hx, fifo_exchanged hfifos]
    · rw [hx, (timeWork_domUpdate _ r _ _).2, fifo_exchanged hfifos]
  · rw [timeExchange_noPartner hup hpaired hfifos hroom x h]
    exact ⟨rfl, changes_exchanged s x⟩

end

theorem partnerRef_lt {s : State} {r : Nat} (h : s.partnerRef = r + 1) : r < 2 := by
  unfold State.partnerRef at h
  split at h
  · omega
  · split at h <;> omega

/-- An exchange by hardware stamps is an update of the PARTNER domain that acquires. -/
theorem timeExchange_acquiring {s : State} (hup : s.dev.phase = .up) (hpaired : s.paired = true) (hfifos : s.time.fifos.length = 6)
    (hroom : (s.time.fifos.getD 4 []).length < 63) {x : Exchange} {r : Nat} (href : s.partnerRef = r + 1) (hsw : x.software = false)
    (hstate : s.n (kDomState r) = 1) (hrun : (s.dom r).run < 15) :
    Completes (.timeExchange x) s (fun t =>
      (t.dom r).off24 = ((((time96Q x.t2 : Int) - s.stamp 4 true false (time96Q x.t1)) -
        ((s.stamp 4 false false (time96Q x.t4) : Int) - time96Q x.t3)) / 2) * 256 ∧
      (t.dom r).lastAt = some s.cellQ ∧ t.n (kDomState r) = 1 ∧
      t.n (kDomUpdates r) = min (s.n (kDomUpdates r) + 1) (2 ^ 32 - 1) ∧
      ChangesObjs [kDomRate r, kDomUpdates r] s t ∧ Changes [.time, .objs] s t) := by
  have hexchange := timeExchange_partner hup hpaired hfifos hroom x href
  rw [hsw] at hexchange
  obtain ⟨hoff, hlast, hkept, hcount, hobjs, hframe⟩ :=
    domUpdate_acquiring_takes (s := s.exchanged x) hstate hrun (s.exchangeOffset x) (partnerRef_lt href)
  have hsample : s.exchangeOffset x = (((time96Q x.t2 : Int) - s.stamp 4 true false (time96Q x.t1)) -
      ((s.stamp 4 false false (time96Q x.t4) : Int) - time96Q x.t3)) / 2 := by rw [State.exchangeOffset, hsw]
  exact ⟨_, (exec_timeExchange x s).trans (congrArg _ hexchange), hsample ▸ hoff, hlast, hkept, hcount, hobjs,
    ((changes_exchanged s x).mono (by decide)).trans hframe⟩

end Sys2Proof.Machine

namespace Sys2Proof

open Machine

/-- Settles O11: each kind of message and exchange has its law above. -/
theorem timeMessages : Obligations.TimeMessages := by
  intro s hup hfifos
  refine ⟨?frame, ?untracked, ?event, ?announce, ?sync, ?single, ?exchange⟩
  case frame => exact fun m => ⟨_, exec_ptpMessage m s, ptpMessage_frame s m⟩
  case untracked => exact fun m hdom hevent => ⟨_, exec_ptpMessage m s, ptpMessage_untracked hup hdom hevent⟩
  case event =>
    intro m hdom hevent hroom
    exact ⟨_, (exec_ptpMessage m s).trans (congrArg _ (ptpMessage_untracked_event hup hevent hroom hdom)), fifo_ptpStamped hfifos m,
      rfl, rfl, rfl, changes_stampIn s _ _ _ _ _⟩
  case announce => exact fun m d hdom hkind hfirst => announce_first hup hdom hkind hfirst
  case sync =>
    intro m d hdom hkind hroom
    exact ⟨sync_stranger hup hdom hkind hroom hfifos,
      fun y hmaster hsends hinterval hsw hpath => sync_selected hup hdom hkind hroom hmaster hsends hinterval hsw hpath⟩
  case single => exact fun x h => ⟨_, exec_timeExchange x s, timeExchange_single h x⟩
  case exchange =>
    intro x hpaired hroom
    exact ⟨timeExchange_stamps hup hpaired hfifos hroom x,
      fun r href hsw hstate hrun => timeExchange_acquiring hup hpaired hfifos hroom href hsw hstate hrun⟩

end Sys2Proof
end

section
/-! SUPPORT. FRAME_RECEIVE: what a port of the head and a node's port do with a frame that fails its checks, with a SYNC, and with the
copies of a DATA frame. -/

namespace Sys2Proof.Machine

theorem exec_frameReceive (i : Ingress) (ok0 ok1 sw : Bool) (b : Bytes) (st : Time96) (s : State) :
    exec (.frameReceive i ok0 b ok1 st sw) s = .next (frameReceive i ok0 b ok1 st sw s) := rfl

/-! ### Rings and their controllers -/

@[simp] theorem State.ring_setRing (s : State) (r : RingId) (x : RingSt) : (s.setRing r x).ring r = x := by cases r <;> rfl

theorem changes_setRing (s : State) (r : RingId) (x : RingSt) : Changes [.rings] s (s.setRing r x) := by
  refine ⟨s.setRing_pending r x, fun p hp => ?_⟩
  cases p <;> simp [Part.same] at hp ⊢

/-! ### What the head forwards (R63) -/

/-- A controller that has forwarded: its grid, its measurement and its inbound slots stand as they did. -/
def FrameForwarded (x y : RingSt) : Prop := y.cs = x.cs ∧ y.measured = x.measured ∧ y.inb = x.inb

theorem forwarded_forward (x : RingSt) (limit : Int) (sd : Side) (at10 : Int) (b : Bytes) :
    FrameForwarded x (x.forward limit sd at10 b) := by
  cases sd
  all_goals exact ⟨rfl, rfl, rfl⟩

/-- Forwarding changes the controller of the ring alone. -/
def ForwardOnly (r : RingId) (s t : State) : Prop := Changes [.rings] s t ∧ FrameForwarded (s.ring r) (t.ring r)

theorem ForwardOnly.refl (r : RingId) (s : State) : ForwardOnly r s s := ⟨.refl _ s, rfl, rfl, rfl⟩

theorem ForwardOnly.objs {r : RingId} {s t : State} (h : ForwardOnly r s t) : t.objs = s.objs := h.1.2 .objs (by decide)

theorem forwardOnly_bufferForward (s : State) (r : RingId) (port : Nat) (b : Bytes) (q : Nat) :
    ForwardOnly r s (s.bufferForward r port b q) := by
  unfold State.bufferForward
  dsimp only
  split
  · exact .refl r s
  · exact ⟨changes_setRing s r _, (s.ring_setRing r _).symm ▸ forwarded_forward _ _ _ _ _⟩

/-! ### The counters of a port (R114) -/

theorem changes_portErr (s : State) (r : RingId) (p off : Nat) : Changes [.objs] s (s.portErr r p off) := changes_setObj s _ _

/-- An error counted at a port after forwarding. -/
theorem portErr_counts {s t : State} {r : RingId} (h : ForwardOnly r s t) (p off : Nat) :
    (t.portErr r p off).obj (kPortErr (ringNo r)) = errInc (s.obj (kPortErr (ringNo r))) p off ∧
    ChangesObjs [kPortErr (ringNo r)] s (t.portErr r p off) ∧ Changes [.objs, .rings] s (t.portErr r p off) := by
  have hobj : t.obj (kPortErr (ringNo r)) = s.obj (kPortErr (ringNo r)) := State.obj_congr h.objs _
  refine ⟨?_, (ChangesObjs.of_objs h.objs _).trans (changesObjs_setObj t _ _),
    (h.1.mono (by decide)).trans ((changes_portErr t r p off).mono (by decide))⟩
  rw [State.portErr, State.obj_setObj_same, hobj]

/-! ### A frame at a port of the head -/

/-- A valid frame is forwarded, unless it is the unit's own START, and then accepted (R63, R96, R117). -/
def State.received (s : State) (r : RingId) (p : Nat) (f : Frame) (q : Nat) (b : Bytes) (st : Time96) : State :=
  (if s.ownStart f then s else s.bufferForward r p b (time96Q st)).acceptFrame r p f q

theorem frameReceive_passThrough {s : State} (h : s.pair.passThrough = true) (port : Port) (ok0 ok1 sw : Bool) (b : Bytes)
    (st : Time96) : frameReceive (.own port) ok0 b ok1 st sw s = s := by
  simp [frameReceive, h]

section
variable {s : State} {port : Port} {r : RingId} {p : Nat} (hup : s.dev.phase = .up) (hpass : s.pair.passThrough = false)
  (hport : portRing port = some (r, p)) (ok0 ok1 sw : Bool) (b : Bytes) (st : Time96)
include hup hpass

theorem frameReceive_own : frameReceive (.own port) ok0 b ok1 st sw s = s.ownReceive port ok0 b ok1 st sw := by
  simp [frameReceive, hup, hpass]

include hport

/-- A frame whose header fails its check counts at offset 0 (R82, R114). -/
theorem frameReceive_badHeader (hbad : num b 14 2 ≠ hcrc (b.take 14) ∨ b.length < 16) :
    frameReceive (.own port) ok0 b ok1 st sw s = (s.bufferForward r p b (time96Q st)).portErr r p 0 := by
  simp [frameReceive_own hup hpass, State.ownReceive, hport, hbad.symm]

section
variable (hheader : num b 14 2 = hcrc (b.take 14)) (hlen : 16 ≤ b.length)
include hheader hlen

/-- A frame that fails a later check counts at offset 4. -/
theorem frameReceive_badBody (hbad : ok0 = false ∨ frameBodyOk b (ringNo r) ok1 = false) :
    frameReceive (.own port) ok0 b ok1 st sw s = (s.bufferForward r p b (time96Q st)).portErr r p 4 := by
  simp [frameReceive_own hup hpass, State.ownReceive, hport, hheader, Nat.not_lt.mpr hlen, hbad]

variable (hok0 : ok0 = true) (hbody : frameBodyOk b (ringNo r) ok1 = true)
include hok0 hbody

/-- A valid frame of a type that leaves no stamp goes on to the window and the copies (R107, R117). -/
theorem frameReceive_unstamped (h : ¬((parseFrame r b).type = 0 ∨ (parseFrame r b).type = 9)) : ∃ q,
    frameReceive (.own port) ok0 b ok1 st sw s = s.received r p (parseFrame r b) q b st := by
  rw [frameReceive_own hup hpass, State.ownReceive, hport]
  dsimp only
  rw [if_neg (by simp [hheader, Nat.not_lt.mpr hlen, hok0, hbody]), if_neg h]
  exact ⟨_, rfl⟩

/-- A valid SYNC or time exchange leaves its stamp first (R41). -/
theorem frameReceive_stamped (h : (parseFrame r b).type = 0 ∨ (parseFrame r b).type = 9) (hroom : s.fifoFull (portCode port) = false) :
    ∃ q, frameReceive (.own port) ok0 b ok1 st sw s =
      (s.stampIn (portCode port) false (sw || s.bit kTstPortLoop (portCode port)) (parseFrame r b).slot.toNat st).received r p
        (parseFrame r b) q b st := by
  rw [frameReceive_own hup hpass, State.ownReceive, hport]
  dsimp only
  rw [if_neg (by simp [hheader, Nat.not_lt.mpr hlen, hok0, hbody]), if_pos h, takeStamp_room hroom]
  exact ⟨_, rfl⟩

end
end

/-! ### What a valid frame leaves -/

section
variable {s : State} {r : RingId} {p : Nat} {f : Frame} (hopen : (s.ring r).cs ≠ .running ∨ (s.ring r).measured = false)
include hopen

theorem unchecked : ((s.ring r).cs == .running && (s.ring r).measured) = false := by
  obtain h | h := hopen <;> simp [h]

/-- A SYNC has no copies: it passes (R117). -/
theorem acceptFrame_sync (htype : f.type = 0) (q : Nat) : s.acceptFrame r p f q = s := by
  simp [State.acceptFrame, unchecked hopen, htype]

/-- Where no window is checked, a DATA frame belongs to the present cycle. -/
theorem acceptFrame_data (htype : f.type = 1) (q : Nat) : s.acceptFrame r p f q = s.keepCopy r p s.cycle f := by
  simp [State.acceptFrame, unchecked hopen, htype]

end

/-- A slot's state with the copy of a frame kept. -/
def InSlot.keep (i : InSlot) (seq : Nat) : InSlot := { i with kept := some seq }

section
variable {s : State} {r : RingId} {f : Frame} {cycle : Nat}

theorem keepCopy_otherCycle (h : f.seq.toNat ≠ cycle % 2 ^ 32) (p : Nat) : s.keepCopy r p cycle f = s.portErr r p 16 := by
  simp only [State.keepCopy, keepRule, if_pos h]

/-- The rule of the copies for a DATA frame of the cycle (R117). -/
theorem keepRule_data (x : RingSt) (htype : f.type = 1) (hseq : f.seq.toNat = cycle % 2 ^ 32) :
    keepRule x.inb cycle f = if (x.inSlot f.slot.toNat).kept = some f.seq.toNat then (x.inb, some 20)
      else (putIn ((x.inSlot f.slot.toNat).keep f.seq.toNat) x.inb, none) := by
  have hnull : ¬f.type = 2 := by rw [htype]; decide
  rw [keepRule, if_neg (not_not.mpr hseq), if_neg hnull]
  rfl

theorem keepCopy_second (htype : f.type = 1) (hseq : f.seq.toNat = cycle % 2 ^ 32)
    (hkept : ((s.ring r).inSlot f.slot.toNat).kept = some f.seq.toNat) (p : Nat) : s.keepCopy r p cycle f = s.portErr r p 20 := by
  rw [State.keepCopy, keepRule_data _ htype hseq, if_pos hkept]

theorem keepCopy_first (htype : f.type = 1) (hseq : f.seq.toNat = cycle % 2 ^ 32)
    (hkept : ((s.ring r).inSlot f.slot.toNat).kept ≠ some f.seq.toNat) (p : Nat) : s.keepCopy r p cycle f =
      s.onRing r (fun x => { x with inb := putIn (((s.ring r).inSlot f.slot.toNat).keep f.seq.toNat) (s.ring r).inb }) := by
  rw [State.keepCopy, keepRule_data _ htype hseq, if_neg hkept]

end

/-- The inbound state kept for a slot names it. -/
@[simp] theorem slot_inSlotOf (l : List InSlot) (slot : Nat) : (inSlotOf l slot).slot = slot := by
  unfold inSlotOf
  cases h : l.find? (fun i => i.slot == slot) with
  | none => rfl
  | some i => simpa using List.find?_some h

theorem inSlotOf_putIn_same (e : InSlot) (l : List InSlot) : inSlotOf (putIn e l) e.slot = e := by
  have hfind : (putIn e l).find? (fun i => i.slot == e.slot) = some e := by
    induction l with
    | nil => simp [putIn]
    | cons i l ih => by_cases h : i.slot = e.slot <;> simp [putIn, h, ih]
  rw [inSlotOf, hfind]
  rfl

/-! ### DATA and SYNC at the head -/

theorem ownStart_other {s : State} {f : Frame} (h : f.type ≠ 6) : s.ownStart f = false := by
  rw [State.ownStart, beq_false_of_ne h]
  rfl

/-- A frame that is no START is forwarded before it is accepted. -/
theorem received_forwards {s : State} {f : Frame} (h : f.type ≠ 6) (r : RingId) (p q : Nat) (b : Bytes) (st : Time96) :
    ∃ t, ForwardOnly r s t ∧ s.received r p f q b st = t.acceptFrame r p f q := by
  refine ⟨_, forwardOnly_bufferForward s r p b (time96Q st), ?_⟩
  rw [State.received, ownStart_other h]
  rfl

section
variable {s t : State} {r : RingId} (h : ForwardOnly r s t)
include h

theorem ForwardOnly.cycle : t.cycle = s.cycle := by
  have htime : t.time = s.time := h.1.2 .time (by decide)
  rw [State.cycle, State.cellNs, State.tns, htime, State.n_congr h.objs]
  rfl

theorem ForwardOnly.inSlot (slot : Nat) : (t.ring r).inSlot slot = (s.ring r).inSlot slot := by
  obtain ⟨-, -, -, hinb⟩ := h
  rw [RingSt.inSlot, RingSt.inSlot, hinb]

theorem ForwardOnly.unchecked (hopen : (s.ring r).cs ≠ .running ∨ (s.ring r).measured = false) :
    (t.ring r).cs ≠ .running ∨ (t.ring r).measured = false := by
  obtain ⟨-, hcs, hmeasured, -⟩ := h
  rwa [hcs, hmeasured]

end

section
variable {s : State} {r : RingId} {f : Frame} (hopen : (s.ring r).cs ≠ .running ∨ (s.ring r).measured = false)
include hopen

theorem received_sync (htype : f.type = 0) (p q : Nat) (b : Bytes) (st : Time96) : ForwardOnly r s (s.received r p f q b st) := by
  obtain ⟨t, hforward, hreceived⟩ := received_forwards (s := s) (f := f) (by rw [htype]; decide) r p q b st
  rw [hreceived, acceptFrame_sync (hforward.unchecked hopen) htype]
  exact hforward

variable (htype : f.type = 1)
include htype

/-- A DATA frame meets the rule of the copies in a state that has forwarded it. -/
theorem received_data (p q : Nat) (b : Bytes) (st : Time96) :
    ∃ t, ForwardOnly r s t ∧ s.received r p f q b st = t.keepCopy r p s.cycle f := by
  obtain ⟨t, hforward, hreceived⟩ := received_forwards (s := s) (f := f) (by rw [htype]; decide) r p q b st
  rw [acceptFrame_data (hforward.unchecked hopen) htype, hforward.cycle] at hreceived
  exact ⟨t, hforward, hreceived⟩

theorem received_first (hseq : f.seq.toNat = s.cycle % 2 ^ 32) (hkept : ((s.ring r).inSlot f.slot.toNat).kept ≠ some f.seq.toNat)
    (p q : Nat) (b : Bytes) (st : Time96) :
    (((s.received r p f q b st).ring r).inSlot f.slot.toNat).kept = some f.seq.toNat ∧ (s.received r p f q b st).objs = s.objs ∧
    Changes [.rings] s (s.received r p f q b st) := by
  obtain ⟨t, hforward, hreceived⟩ := received_data hopen htype p q b st
  rw [keepCopy_first htype hseq (by rwa [hforward.inSlot])] at hreceived
  have hslot := inSlotOf_putIn_same (((t.ring r).inSlot f.slot.toNat).keep f.seq.toNat) (t.ring r).inb
  rw [show (((t.ring r).inSlot f.slot.toNat).keep f.seq.toNat).slot = f.slot.toNat from slot_inSlotOf _ _] at hslot
  rw [hreceived]
  refine ⟨?_, (State.onRing_objs _ _ _).trans hforward.objs, hforward.1.trans (changes_setRing t r _)⟩
  rw [State.onRing, State.ring_setRing]
  exact congrArg InSlot.kept hslot

end

/-! ### A frame at a node's port -/

/-- What is kept for a node names its ring and its address. -/
theorem State.node_names (s : State) (r : RingId) (a : Nat) : (s.node r a).ring = r ∧ (s.node r a).addr = a := by
  unfold State.node
  cases h : s.rings.nodes.find? (fun n => n.ring = r ∧ n.addr = a) with
  | none => exact ⟨rfl, rfl⟩
  | some n => simpa using List.find?_some h

theorem find?_putNode_same (e : NodeSt) (l : List NodeSt) :
    (putNode e l).find? (fun n => n.ring = e.ring ∧ n.addr = e.addr) = some e := by
  induction l with
  | nil => simp [putNode]
  | cons n l ih =>
    by_cases h : n.ring = e.ring ∧ n.addr = e.addr
    · simp [putNode, h]
    · rw [putNode, if_neg h, List.find?_cons_of_neg (by simpa using h), ih]

theorem find?_putNode_other {e : NodeSt} {r : RingId} {a : Nat} (h : ¬(r = e.ring ∧ a = e.addr)) (l : List NodeSt) :
    (putNode e l).find? (fun n => n.ring = r ∧ n.addr = a) = l.find? (fun n => n.ring = r ∧ n.addr = a) := by
  have he : ¬(e.ring = r ∧ e.addr = a) := fun ⟨hr, ha⟩ => h ⟨hr.symm, ha.symm⟩
  induction l with
  | nil => simp [putNode, he]
  | cons n l ih =>
    by_cases hn : n.ring = e.ring ∧ n.addr = e.addr
    · have hn' : ¬(n.ring = r ∧ n.addr = a) := by rw [hn.1, hn.2]; exact he
      simp [putNode, hn, he]
    · simp only [putNode, hn, if_false, List.find?_cons, ih]

theorem State.node_setNode_same (s : State) (n : NodeSt) : (s.setNode n).node n.ring n.addr = n := by
  simp only [State.node, State.setNode, find?_putNode_same]
  rfl

theorem State.node_setNode_other (s : State) {n : NodeSt} {r : RingId} {a : Nat} (h : ¬(r = n.ring ∧ a = n.addr)) :
    (s.setNode n).node r a = s.node r a := by
  simp only [State.node, State.setNode, find?_putNode_other h]

/-- A replaced node is the only change, beside the free values drawn for it. -/
theorem onlyNode_setNode {s : State} {r : RingId} {a : Nat} {n : NodeSt} (hring : n.ring = r) (haddr : n.addr = a) (k : Nat) :
    ((({ s with free := k } : State).setNode n).node r a) = n ∧
    OnlyNode r a s { ({ s with free := k } : State).setNode n with free := s.free } := by
  subst hring haddr
  refine ⟨State.node_setNode_same _ n, fun r' a' h => State.node_setNode_other { s with free := k } h, rfl, rfl, rfl, fun p hp => ?_⟩
  cases p <;> simp [Part.same] at hp ⊢

/-- A node that forwards keeps its name and its counters. -/
theorem nodeForward_keeps (n : NodeSt) (limit : Int) (sd : Side) (at10 : Int) (b : Bytes) :
    (n.forward limit sd at10 b).ring = n.ring ∧ (n.forward limit sd at10 b).addr = n.addr ∧
    (n.forward limit sd at10 b).err = n.err := by
  cases sd
  all_goals exact ⟨rfl, rfl, rfl⟩

section
variable (s : State) (r : RingId) (a : Nat) (sd : Side) {ok0 ok1 : Bool} {b : Bytes} (st : Time96)

/-- A frame that fails a check counts at the node, which may have forwarded it. -/
def NodeCounts (off : Nat) (t : State) : Prop :=
  ∃ n : NodeSt, n.ring = r ∧ n.addr = a ∧ n.err = (s.node r a).err ∧
    t = ({ s with free := s.free + 1 } : State).setNode { n with err := errInc n.err (sideNo sd) off }

theorem NodeCounts.onlyNode {off : Nat} {t : State} (h : NodeCounts s r a sd off t) :
    (t.node r a).err = errInc (s.node r a).err (sideNo sd) off ∧ OnlyNode r a s { t with free := s.free } := by
  obtain ⟨n, hring, haddr, herr, rfl⟩ := h
  obtain ⟨hnode, honly⟩ := onlyNode_setNode (s := s) (n := { n with err := errInc n.err (sideNo sd) off }) hring haddr (s.free + 1)
  exact ⟨by rw [hnode, herr], honly⟩

/-- What a node holds once the frame has been forwarded, or consumed as its own START. -/
theorem nodeForwards_keeps (mine : Bool) (limit : Int) (out : Side) (at10 : Int) :
    let n := if mine then s.node r a else (s.node r a).forward limit out at10 b
    n.ring = r ∧ n.addr = a ∧ n.err = (s.node r a).err := by
  obtain ⟨hring, haddr⟩ := s.node_names r a
  obtain ⟨hfring, hfaddr, hferr⟩ := nodeForward_keeps (s.node r a) limit out at10 b
  cases mine
  · exact ⟨hfring.trans hring, hfaddr.trans haddr, hferr⟩
  · exact ⟨hring, haddr, rfl⟩

theorem nodeReceive_badHeader (hbad : num b 14 2 ≠ hcrc (b.take 14) ∨ b.length < 16) :
    NodeCounts s r a sd 0 (s.nodeReceive r a sd ok0 b ok1 st) := by
  unfold State.nodeReceive
  dsimp only
  rw [if_pos hbad.symm]
  obtain ⟨hring, haddr, herr⟩ := nodeForwards_keeps s r a _ _ _ _
  exact ⟨_, hring, haddr, herr, rfl⟩

theorem nodeReceive_badBody (hheader : num b 14 2 = hcrc (b.take 14)) (hlen : 16 ≤ b.length)
    (hbad : ok0 = false ∨ frameBodyOk b (ringNo r) ok1 = false) : NodeCounts s r a sd 4 (s.nodeReceive r a sd ok0 b ok1 st) := by
  unfold State.nodeReceive
  dsimp only
  rw [if_neg (by simp [hheader, Nat.not_lt.mpr hlen]), if_pos (by simpa using hbad)]
  obtain ⟨hring, haddr, herr⟩ := nodeForwards_keeps s r a _ _ _ _
  exact ⟨_, hring, haddr, herr, rfl⟩

end

theorem portCode_lt (p : Port) : portCode p < 6 := by cases p <;> decide

end Sys2Proof.Machine

namespace Sys2Proof

open Machine

/-- Settles O36: at a port of the head and at a node's port, one law for each way that a frame can go. -/
theorem invalidFramesCounted : Obligations.InvalidFramesCounted := by
  constructor
  · intro s port r p ok0 ok1 sw b st hup hport counts f
    have hcounts {t : State} (h : ForwardOnly r s t) {off : Nat}
        (hreceive : frameReceive (.own port) ok0 b ok1 st sw s = t.portErr r p off) : counts off :=
      ⟨_, (exec_frameReceive _ ok0 ok1 sw b st s).trans (congrArg _ hreceive), portErr_counts h p off⟩
    refine ⟨?passThrough, ?badHeader, ?badBody, ?valid⟩
    case passThrough =>
      exact fun h => ⟨_, exec_frameReceive _ ok0 ok1 sw b st s, frameReceive_passThrough h port ok0 ok1 sw b st⟩
    case badHeader =>
      exact fun hpass hbad => hcounts (forwardOnly_bufferForward s r p b _)
        (frameReceive_badHeader hup hpass hport ok0 ok1 sw b st hbad)
    case badBody =>
      exact fun hpass hheader hlen hbad => hcounts (forwardOnly_bufferForward s r p b _)
        (frameReceive_badBody hup hpass hport ok0 ok1 sw b st hheader hlen hbad)
    case valid =>
      intro hpass hheader hlen hok0 hbody hopen
      have hplain (htype : f.type = 1) := frameReceive_unstamped hup hpass hport ok0 ok1 sw b st hheader hlen hok0 hbody
        (by rw [show (parseFrame r b).type = 1 from htype]; decide)
      refine ⟨?sync, ?first, ?second, ?otherCycle⟩
      case sync =>
        intro htype hfifos hroom
        obtain ⟨q, hreceive⟩ := frameReceive_stamped hup hpass hport ok0 ok1 sw b st hheader hlen hok0 hbody (.inl htype) hroom
        have hforward := received_sync (s := s.stampIn (portCode port) false (sw || s.bit kTstPortLoop (portCode port))
          (parseFrame r b).slot.toNat st) hopen htype p q b st
        have htime := hforward.1.2 .time (by decide)
        refine ⟨_, (exec_frameReceive _ ok0 ok1 sw b st s).trans (congrArg _ hreceive), ?_, hforward.objs,
          ((changes_stampIn s _ _ _ _ _).mono (by decide)).trans (hforward.1.mono (by decide))⟩
        rw [htime]
        exact StTime.fifo_store (hfifos ▸ portCode_lt port) _
      case first =>
        intro htype hseq hkept
        obtain ⟨q, hreceive⟩ := hplain htype
        exact ⟨_, (exec_frameReceive _ ok0 ok1 sw b st s).trans (congrArg _ hreceive), received_first hopen htype hseq hkept p q b st⟩
      case second =>
        intro htype hseq hkept
        obtain ⟨q, hreceive⟩ := hplain htype
        obtain ⟨t, hforward, hdata⟩ := received_data hopen htype p q b st
        rw [keepCopy_second htype hseq (by rwa [hforward.inSlot])] at hdata
        exact hcounts hforward (hreceive.trans hdata)
      case otherCycle =>
        intro htype hseq
        obtain ⟨q, hreceive⟩ := hplain htype
        obtain ⟨t, hforward, hdata⟩ := received_data hopen htype p q b st
        exact hcounts hforward (hreceive.trans (hdata.trans (keepCopy_otherCycle hseq p)))
  · intro s r a sd ok0 ok1 sw b st counts
    refine ⟨fun hbad => ?_, fun hheader hlen hbad => ?_⟩
    · exact ⟨_, exec_frameReceive _ ok0 ok1 sw b st s, (nodeReceive_badHeader s r a.toNat sd st hbad).onlyNode⟩
    · exact ⟨_, exec_frameReceive _ ok0 ok1 sw b st s, (nodeReceive_badBody s r a.toNat sd st hheader hlen hbad).onlyNode⟩

end Sys2Proof
end

section
/-! SUPPORT. Links, the arbitrating window and the guardian: what LINK_LOSS, CODE_GROUP_SYNC_ACQUIRED, LINK_UP, ARB_LAST_DISCARD,
GUARD_CUT, ARB_INSERT and BREAK_PATTERN_TIMEOUT do at the head and at a node. -/

namespace Sys2Proof.Machine

theorem exec_linkLoss (st : Station) (sd : Side) (s : State) : exec (.linkLoss st sd) s = .next (linkLoss st sd s) := rfl
theorem exec_codeGroupSyncAcquired (st : Station) (sd : Side) (s : State) :
    exec (.codeGroupSyncAcquired st sd) s = .next (codeGroupSyncAcquired st sd s) := rfl
theorem exec_linkUp (st : Station) (sd : Side) (s : State) : exec (.linkUp st sd) s = .next (linkUp st sd s) := rfl
theorem exec_arbLastDiscard (st : Station) (ch : Channel) (s : State) :
    exec (.arbLastDiscard st ch) s = .next (arbLastDiscard st ch s) := rfl
theorem exec_guardCut (st : Station) (sd : Side) (s : State) : exec (.guardCut st sd) s = .next (guardCut st sd s) := rfl
theorem exec_arbInsert (st : Station) (ch : Channel) (off : Nat) (idle : Bool) (f : Frame) (s : State) :
    exec (.arbInsert st ch off idle f) s = .next (arbInsert st ch off idle f s) := rfl
theorem exec_breakPatternTimeout (r : RingId) (s : State) : exec (.breakPatternTimeout r) s = .next (breakPatternTimeout r s) := rfl

/-! ### Ports and events -/

@[simp] theorem NodeSt.port_setPort_same (n : NodeSt) (sd : Side) (p : PortSt) : (n.setPort sd p).port sd = p := by cases sd <;> rfl
@[simp] theorem NodeSt.setPort_ring (n : NodeSt) (sd : Side) (p : PortSt) : (n.setPort sd p).ring = n.ring := by cases sd <;> rfl
@[simp] theorem NodeSt.setPort_addr (n : NodeSt) (sd : Side) (p : PortSt) : (n.setPort sd p).addr = n.addr := by cases sd <;> rfl

@[simp] theorem NodeSt.raise_port (n : NodeSt) (ev : Bytes) (sd : Side) : (n.raise ev).port sd = n.port sd := by
  unfold NodeSt.raise
  split <;> cases sd <;> rfl

@[simp] theorem NodeSt.raise_ring (n : NodeSt) (ev : Bytes) : (n.raise ev).ring = n.ring := by
  unfold NodeSt.raise
  split <;> rfl

@[simp] theorem NodeSt.raise_addr (n : NodeSt) (ev : Bytes) : (n.raise ev).addr = n.addr := by
  unfold NodeSt.raise
  split <;> rfl

/-- A node that has an event to send has one in front (R405). -/
@[simp] theorem NodeSt.raise_event (n : NodeSt) (ev : Bytes) : (n.raise ev).event.isSome = true := by
  unfold NodeSt.raise
  split
  · rfl
  · next h => simpa [Option.isSome_iff_ne_none] using h

@[simp] theorem RingSt.port_setPort_same (x : RingSt) (sd : Side) (p : PortSt) : (x.setPort sd p).port sd = p := by cases sd <;> rfl
@[simp] theorem RingSt.raise_port (x : RingSt) (ev : Bytes) (sd : Side) : (x.raise ev).port sd = x.port sd := by cases sd <;> rfl

/-! ### Commands that replace one node, one controller, or a controller and one object -/

/-- A change of a node that leaves its ring and its address. -/
def KeepsName (f : NodeSt → NodeSt) : Prop := ∀ n, (f n).ring = n.ring ∧ (f n).addr = n.addr

theorem completes_onNode {c : Instr} {s : State} {r : RingId} {a : Nat} {f : NodeSt → NodeSt}
    (hexec : exec c s = .next (s.onNode r a f)) (hname : KeepsName f) {Q : State → Prop}
    (hQ : ∀ t, t.node r a = f (s.node r a) → OnlyNode r a s t → Q t) : Completes c s Q := by
  obtain ⟨hring, haddr⟩ := s.node_names r a
  obtain ⟨hfring, hfaddr⟩ := hname (s.node r a)
  obtain ⟨hnode, honly⟩ := onlyNode_setNode (hfring.trans hring) (hfaddr.trans haddr) s.free
  exact ⟨_, hexec, hQ _ hnode honly⟩

theorem completes_setRing {c : Instr} {s : State} {r : RingId} {x : RingSt} (hexec : exec c s = .next (s.setRing r x))
    {Q : State → Prop} (hQ : ∀ t, t.ring r = x → t.objs = s.objs → Changes [.rings] s t → Q t) : Completes c s Q :=
  ⟨_, hexec, hQ _ (s.ring_setRing r x) (s.setRing_objs r x) (changes_setRing s r x)⟩

@[simp] theorem State.obj_setRing (s : State) (r : RingId) (x : RingSt) (k : Nat) : (s.setRing r x).obj k = s.obj k :=
  State.obj_congr (s.setRing_objs r x) k

@[simp] theorem State.n_setRing (s : State) (r : RingId) (x : RingSt) (k : Nat) : (s.setRing r x).n k = s.n k :=
  State.n_congr (s.setRing_objs r x) k

@[simp] theorem State.ring_setObj (s : State) (k : Nat) (v : Bytes) (r : RingId) : (s.setObj k v).ring r = s.ring r := by
  cases r <;> rfl

theorem completes_setRing_setObj {c : Instr} {s : State} {r : RingId} {x : RingSt} {k : Nat} {v : Bytes}
    (hexec : exec c s = .next ((s.setRing r x).setObj k v)) {Q : State → Prop}
    (hQ : ∀ t, t.ring r = x → t.obj k = v → ChangesObjs [k] s t → Changes [.rings, .objs] s t → Q t) : Completes c s Q := by
  refine ⟨_, hexec, hQ _ (by simp) (State.obj_setObj_same _ k v) ?_ ?_⟩
  · exact (ChangesObjs.of_objs (s.setRing_objs r x) _).trans (changesObjs_setObj _ k v)
  · exact ((changes_setRing s r x).mono (by decide)).trans ((changes_setObj _ k v).mono (by decide))

/-- An error counted at a port beside a change of the controller (R114). -/
theorem setRing_portErr (s : State) (r : RingId) (x : RingSt) (p off : Nat) : (s.setRing r x).portErr r p off =
    (s.setRing r x).setObj (kPortErr (ringNo r)) (errInc (s.obj (kPortErr (ringNo r))) p off) := by
  rw [State.portErr, State.obj_setRing]

/-! ### Loops and breaks (R119, R121, R122, R522) -/

/-- What a reported loop leaves alone: the synchronisation of the ports, and every object but RING_STATUS. -/
def LoopWork (r : RingId) (s t : State) : Prop :=
  (∀ sd, ((t.ring r).port sd).sync = ((s.ring r).port sd).sync) ∧ ChangesObjs [kRingStatus (ringNo r)] s t

theorem LoopWork.refl (s : State) (r : RingId) : LoopWork r s s := ⟨fun _ => rfl, .refl _ s⟩

theorem LoopWork.trans {r : RingId} {s t u : State} (hst : LoopWork r s t) (htu : LoopWork r t u) : LoopWork r s u :=
  ⟨fun sd => (htu.1 sd).trans (hst.1 sd), hst.2.trans htu.2⟩

theorem LoopWork.ite {r : RingId} {c : Prop} [Decidable c] {s t u : State} (ht : LoopWork r s t) (hu : LoopWork r s u) :
    LoopWork r s (if c then t else u) := by split <;> assumption

section
variable (s : State) (r : RingId)

theorem loopWork_setRing {x : RingSt} (h : ∀ sd, (x.port sd).sync = ((s.ring r).port sd).sync) : LoopWork r s (s.setRing r x) :=
  ⟨fun sd => by rw [State.ring_setRing, h], .of_objs (s.setRing_objs r x) _⟩

theorem loopWork_ringBit (b : Nat) (v : Bool) : LoopWork r s (s.ringBit r b v) :=
  ⟨fun _ => congrArg (fun x => (RingSt.port x _).sync) (s.ring_setObj _ _ r), changesObjs_setN s _ _⟩

theorem loopWork_headRequest (a index sub : Nat) (v : Bytes) : LoopWork r s (s.headRequest r a index sub v) :=
  .ite (.refl s r) ⟨fun _ => by cases r <;> rfl, .of_objs rfl _⟩

theorem loopWork_stopIf (c : Prop) [Decidable c] : LoopWork r s (if c then s.stopDemand else s) :=
  .ite ⟨fun _ => by cases r <;> rfl, .of_objs rfl _⟩ (.refl s r)

theorem loopWork_exclude (a : Nat) : LoopWork r s (s.exclude r a) := by
  unfold State.exclude
  refine .trans (.trans ?barred (loopWork_headRequest _ r a _ _ _)) (loopWork_stopIf _ r _)
  case barred =>
    have hmarked (g : NodeRec → NodeRec) : LoopWork r s ((s.setRing r ((s.ring r).onRec a g)).ringBit r 3 true) :=
      (loopWork_setRing s r (fun sd => by cases sd <;> rfl)).trans (loopWork_ringBit _ r 3 true)
    split
    · exact .ite ((hmarked _).trans (loopWork_ringBit _ r 4 true)) (hmarked _)
    · exact hmarked _

theorem loopWork_survive : LoopWork r s (s.survive r) :=
  (loopWork_setRing s r (fun sd => by cases sd <;> rfl)).trans (loopWork_ringBit _ r 5 true)

theorem loopWork_surviveIf (c : Prop) [Decidable c] : LoopWork r s (if c then s.survive r else s) :=
  .ite (loopWork_survive s r) (.refl s r)

theorem loopWork_deriveBreak : LoopWork r s (s.deriveBreak r) := by
  have hfail : LoopWork r s (s.healFail r) := loopWork_ringBit s r 7 true
  unfold State.deriveBreak
  refine .ite (.refl s r) ?_
  split
  case h_1 => exact .refl s r
  case h_2 => exact hfail
  case h_3 =>
    split
    case h_1 => exact hfail
    case h_2 =>
      refine .ite hfail (.trans ?lost (loopWork_surviveIf _ r _))
      have hswitch (b : Option (Option Nat)) : LoopWork r s (s.setRing r { s.ring r with switchTo := b }) :=
        loopWork_setRing s r (fun sd => by cases sd <;> rfl)
      split
      · exact (hswitch _).trans (loopWork_exclude _ r _)
      · exact hswitch _

theorem loopWork_loopDown (a : Nat) (west : Bool) : LoopWork r s (s.loopDown r a west) := by
  have hloop (l : List LoopRec) : LoopWork r s (s.setRing r { s.ring r with loops := l }) :=
    loopWork_setRing s r (fun sd => by cases sd <;> rfl)
  exact .ite (.ite (hloop _) ((hloop _).trans (loopWork_ringBit _ r 7 true))) ((hloop _).trans (loopWork_deriveBreak _ r))

end

/-! ### LINK_LOSS, CODE_GROUP_SYNC_ACQUIRED and LINK_UP (R114, R118) -/

/-- A node whose port has lost synchronisation turns frames back, counts and has LINK_DOWN to send. -/
def NodeSt.linkLost (sd : Side) (ev : Bytes) (n : NodeSt) : NodeSt :=
  let n := n.setPort sd { n.port sd with sync := false, looped := true, upSent := false }
  ({ n with err := errInc n.err (sideNo sd) 28 } : NodeSt).raise ev

/-- A node whose port has synchronisation again. -/
def NodeSt.linkSynced (sd : Side) (n : NodeSt) : NodeSt :=
  n.setPort sd { n.port sd with sync := true, looped := (n.port sd).looped && n.state != .listen }

/-- A node that has LINK_UP to send for a port with synchronisation. -/
def NodeSt.linkRaised (sd : Side) (ev : Bytes) (n : NodeSt) : NodeSt :=
  if (n.port sd).sync then (n.setPort sd { n.port sd with upSent := true }).raise ev else n

/-- The head's controller with a port that has lost synchronisation, and LINK_DOWN to send. -/
def RingSt.linkLost (sd : Side) (ev : Bytes) (x : RingSt) : RingSt :=
  (x.setPort sd { x.port sd with sync := false, looped := !x.survivor, upSent := false }).raise ev

/-- The head's controller with LINK_UP to send for a port. -/
def RingSt.linkRaised (sd : Side) (ev : Bytes) (x : RingSt) : RingSt := (x.setPort sd { x.port sd with upSent := true }).raise ev

theorem keepsName_linkLost (sd : Side) (ev : Bytes) : KeepsName (.linkLost sd ev) := fun n => by simp [NodeSt.linkLost]

theorem keepsName_linkSynced (sd : Side) : KeepsName (.linkSynced sd) := fun n => by simp [NodeSt.linkSynced]

theorem keepsName_linkRaised (sd : Side) (ev : Bytes) : KeepsName (.linkRaised sd ev) := fun n => by
  unfold NodeSt.linkRaised
  split <;> simp

theorem NodeSt.port_linkLost (sd : Side) (ev : Bytes) (n : NodeSt) :
    (n.linkLost sd ev).port sd = { sync := false, looped := true, upSent := false } := by
  rw [NodeSt.linkLost, NodeSt.raise_port]
  cases sd <;> rfl

section
variable (s : State) (r : RingId)

theorem linkLoss_node (a : BitVec 10) (sd : Side) : Completes (.linkLoss (.node r a) sd) s (fun t =>
    ((t.node r a.toNat).port sd).sync = false ∧ ((t.node r a.toNat).port sd).looped = true ∧
    (t.node r a.toNat).event.isSome = true ∧ OnlyNode r a.toNat s t) := by
  refine completes_onNode (exec_linkLoss _ sd s) (keepsName_linkLost sd _) fun t hnode honly => ?_
  rw [hnode, NodeSt.port_linkLost]
  exact ⟨rfl, rfl, NodeSt.raise_event _ _, honly⟩

theorem codeGroupSyncAcquired_node (a : BitVec 10) (sd : Side) : Completes (.codeGroupSyncAcquired (.node r a) sd) s (fun t =>
    ((t.node r a.toNat).port sd).sync = true ∧
    ((t.node r a.toNat).port sd).looped = (((s.node r a.toNat).port sd).looped && (s.node r a.toNat).state != .listen) ∧
    OnlyNode r a.toNat s t) := by
  refine completes_onNode (exec_codeGroupSyncAcquired _ sd s) (keepsName_linkSynced sd) fun t hnode honly => ?_
  rw [hnode, NodeSt.linkSynced, NodeSt.port_setPort_same]
  exact ⟨rfl, rfl, honly⟩

theorem linkUp_node {a : BitVec 10} {sd : Side} (h : ((s.node r a.toNat).port sd).sync = true) :
    Completes (.linkUp (.node r a) sd) s (fun t =>
      ((t.node r a.toNat).port sd).upSent = true ∧ (t.node r a.toNat).event.isSome = true ∧ OnlyNode r a.toNat s t) := by
  refine completes_onNode (exec_linkUp _ sd s) (keepsName_linkRaised sd _) fun t hnode honly => ?_
  rw [hnode, NodeSt.linkRaised, if_pos h, NodeSt.raise_port, NodeSt.port_setPort_same]
  exact ⟨rfl, NodeSt.raise_event _ _, honly⟩

/-- The loss of the head's own port counts, and reports its loop unless the ring is in pass-through (R119). -/
theorem linkLoss_head_reports (sd : Side) :
    LoopWork r ((s.setRing r ((s.ring r).linkLost sd (s.linkEvent 0xFF01 sd 0))).portErr r (sideNo sd) 28) (linkLoss (.head r) sd s) :=
  .ite (.refl _ r) (loopWork_loopDown _ r _ _)

theorem linkLoss_head (sd : Side) : Completes (.linkLoss (.head r) sd) s (fun t => ((t.ring r).port sd).sync = false ∧
    t.obj (kPortErr (ringNo r)) = errInc (s.obj (kPortErr (ringNo r))) (sideNo sd) 28) := by
  have hother : kPortErr (ringNo r) ∉ [kRingStatus (ringNo r)] := by cases r <;> decide
  obtain ⟨hsync, hobjs⟩ := linkLoss_head_reports s r sd
  rw [setRing_portErr] at hsync hobjs
  refine ⟨_, exec_linkLoss _ sd s, (hsync sd).trans ?_, (hobjs _ hother).trans (State.obj_setObj_same _ _ _)⟩
  rw [State.ring_setObj, State.ring_setRing, RingSt.linkLost, RingSt.raise_port, RingSt.port_setPort_same]

theorem codeGroupSyncAcquired_head (sd : Side) : Completes (.codeGroupSyncAcquired (.head r) sd) s (fun t =>
    ((t.ring r).port sd).sync = true ∧
    ((t.ring r).port sd).looped = (((s.ring r).port sd).looped && (s.ring r).cs != .listen) ∧
    t.objs = s.objs ∧ Changes [.rings] s t) := by
  refine completes_setRing (exec_codeGroupSyncAcquired _ sd s) fun t hring hobjs hchanges => ?_
  rw [hring, RingSt.port_setPort_same]
  exact ⟨rfl, rfl, hobjs, hchanges⟩

theorem State.setRing_setRing (x y : RingSt) : (s.setRing r x).setRing r y = s.setRing r y := by cases r <;> rfl

/-- In the operating timetable LINK_UP notes the end of a loop, and no return follows (R123). -/
theorem loopUp_operating {x : RingSt} (h : x.fbt = none) (a : Nat) (west : Bool) : (s.setRing r x).loopUp r a west =
    s.setRing r { x with loops := x.loops.map (fun l => if l.addr == a && l.west == west then { l with up := true } else l) } := by
  simp [State.loopUp, State.onRing, State.setRing_setRing, h]

theorem linkUp_head {sd : Side} (h : ((s.ring r).port sd).sync = true) (hfbt : (s.ring r).fbt = none) :
    Completes (.linkUp (.head r) sd) s (fun t => ((t.ring r).port sd).upSent = true ∧
      (∃ e, (t.ring r).events = (s.ring r).events ++ [e]) ∧ t.objs = s.objs ∧ Changes [.rings] s t) := by
  have hlink : linkUp (.head r) sd s =
      (s.setRing r ((s.ring r).linkRaised sd (s.linkEvent 0xFF02 sd 0))).loopUp r s.ownAddr (sd = .west) := if_pos h
  have hraised : ((s.ring r).linkRaised sd (s.linkEvent 0xFF02 sd 0)).fbt = none := by
    rw [← hfbt]
    cases sd <;> rfl
  rw [loopUp_operating s r hraised] at hlink
  refine completes_setRing ((exec_linkUp _ sd s).trans (congrArg _ hlink)) fun t hring hobjs hchanges => ?_
  rw [hring]
  refine ⟨?_, ⟨s.linkEvent 0xFF02 sd 0, ?_⟩, hobjs, hchanges⟩
  all_goals cases sd <;> rfl

end

/-! ### ARB_LAST_DISCARD, GUARD_CUT and BREAK_PATTERN_TIMEOUT (R71, R108, R114, R522) -/

/-- A node whose insertion buffer of a channel is emptied. -/
def NodeSt.emptied (ch : Channel) (n : NodeSt) : NodeSt :=
  let k := (if ch = .a then n.insA else n.insB).length
  let n := { n with err := errIncBy n.err (sideNo (egressOf ch)) 12 k }
  if ch = .a then { n with insA := [] } else { n with insB := [] }

/-- A node whose frames in progress at a side are cut. -/
def NodeSt.cut (sd : Side) (n : NodeSt) : NodeSt :=
  if n.own.any (fun o => o.side = sd) then
    { n with own := n.own.filter (fun o => o.side ≠ sd), err := errInc n.err (sideNo sd) 24 }
  else n

theorem keepsName_emptied (ch : Channel) : KeepsName (.emptied ch) := fun n => by cases ch <;> exact ⟨rfl, rfl⟩

theorem keepsName_cut (sd : Side) : KeepsName (.cut sd) := fun n => by
  unfold NodeSt.cut
  split <;> exact ⟨rfl, rfl⟩

/-- No frame of a side is left once those of the side are cut. -/
theorem any_side_filter (l : List OwnFrame) (sd : Side) :
    (l.filter (fun o => o.side ≠ sd)).any (fun o => decide (o.side = sd)) = false := by
  simp [List.any_filter]

section
variable (s : State) (r : RingId)

theorem arbLastDiscard_head (ch : Channel) : Completes (.arbLastDiscard (.head r) ch) s (fun t =>
    (ch = .a → (t.ring r).insA = []) ∧ (ch = .b → (t.ring r).insB = []) ∧
    t.obj (kPortErr (ringNo r)) = errIncBy (s.obj (kPortErr (ringNo r))) (sideNo (egressOf ch)) 12
      (if ch = .a then (s.ring r).insA else (s.ring r).insB).length ∧
    ChangesObjs [kPortErr (ringNo r)] s t ∧ Changes [.rings, .objs] s t) := by
  refine completes_setRing_setObj (exec_arbLastDiscard _ ch s) fun t hring hobj hobjs hchanges => ?_
  rw [hring, hobj, State.obj_setRing]
  exact ⟨fun h => by rw [h]; rfl, fun h => by rw [h]; rfl, rfl, hobjs, hchanges⟩

theorem arbLastDiscard_node (a : BitVec 10) (ch : Channel) : Completes (.arbLastDiscard (.node r a) ch) s (fun t =>
    (ch = .a → (t.node r a.toNat).insA = []) ∧ (ch = .b → (t.node r a.toNat).insB = []) ∧ OnlyNode r a.toNat s t) := by
  refine completes_onNode (exec_arbLastDiscard _ ch s) (keepsName_emptied ch) fun t hnode honly => ?_
  rw [hnode]
  exact ⟨fun h => by rw [h]; rfl, fun h => by rw [h]; rfl, honly⟩

theorem guardCut_node {a : BitVec 10} {sd : Side} (h : (s.node r a.toNat).own.any (fun o => decide (o.side = sd)) = true) :
    Completes (.guardCut (.node r a) sd) s (fun t =>
      (t.node r a.toNat).own.any (fun o => decide (o.side = sd)) = false ∧
      (t.node r a.toNat).err = errInc (s.node r a.toNat).err (sideNo sd) 24 ∧ OnlyNode r a.toNat s t) := by
  refine completes_onNode (exec_guardCut _ sd s) (keepsName_cut sd) fun t hnode honly => ?_
  rw [hnode, NodeSt.cut, if_pos h]
  exact ⟨any_side_filter _ sd, rfl, honly⟩

theorem guardCut_head {sd : Side} (h : (s.ring r).own.any (fun o => decide (o.side = sd)) = true) :
    Completes (.guardCut (.head r) sd) s (fun t =>
      (t.ring r).own.any (fun o => decide (o.side = sd)) = false ∧
      t.obj (kPortErr (ringNo r)) = errInc (s.obj (kPortErr (ringNo r))) (sideNo sd) 24 ∧
      ChangesObjs [kPortErr (ringNo r)] s t ∧ Changes [.rings, .objs] s t) := by
  have hcut : guardCut (.head r) sd s =
      (s.setRing r { s.ring r with own := (s.ring r).own.filter (fun o => o.side ≠ sd) }).portErr r (sideNo sd) 24 := if_pos h
  rw [setRing_portErr] at hcut
  refine completes_setRing_setObj ((exec_guardCut _ sd s).trans (congrArg _ hcut)) fun t hring hobj hobjs hchanges => ?_
  rw [hring]
  exact ⟨any_side_filter _ sd, hobj, hobjs, hchanges⟩

theorem guardCut_head_idle {sd : Side} (h : (s.ring r).own.any (fun o => decide (o.side = sd)) = false) :
    guardCut (.head r) sd s = s := if_neg (by simpa using h)

theorem breakPatternTimeout_noLoop (h : (s.ring r).loops = []) : breakPatternTimeout r s = s := by
  simp [breakPatternTimeout, h]

/-- One live loop is no complete pattern (R119, R522). -/
theorem breakPatternTimeout_oneLoop {l : LoopRec} (h : (s.ring r).loops = [l]) (hup : l.up = false) :
    breakPatternTimeout r s = s.healFail r := by
  simp [breakPatternTimeout, h, hup]

theorem length_ringStatus : (objDefault (kRingStatus (ringNo r))).length = 2 := by cases r <;> decide

theorem healFail_marks : (s.healFail r).bit (kRingStatus (ringNo r)) 7 = true ∧
    ChangesObjs [kRingStatus (ringNo r)] s (s.healFail r) ∧ Changes [.objs] s (s.healFail r) :=
  ⟨s.bit_setBit_same _ 7 true (by rw [length_ringStatus]; decide), changesObjs_setN s _ _, changes_setObj s _ _⟩

end

/-! ### The frame of the head for the arbitrating window (R77, R118, R402) -/

section
variable {s : State} {r : RingId} {ch : Channel} {f : Frame}

/-- A head unit has no frame of another type than DICT, EVENT and DELAY. -/
theorem headFrame_other (h : f.type.toNat ∉ [5, 7, 9]) : s.headFrame r ch f = none := by
  have hne (v : BitVec 4) (hv : v.toNat ∈ [5, 7, 9]) : f.type ≠ v := fun e => h (e ▸ hv)
  rw [State.headFrame, if_neg (hne 5 (by decide)), if_neg (hne 7 (by decide)), if_neg (hne 9 (by decide))]

theorem headFrame_type {own : Frame} (h : s.headFrame r ch f = some own) : own.type = f.type := by
  unfold State.headFrame at h
  split at h
  · obtain ⟨m, -, rfl⟩ := Option.map_eq_some_iff.mp h
    rfl
  · split at h
    · cases h
      rfl
    · split at h
      · cases h
        rfl
      · cases h

theorem popRingOut_none {l : List (RingId × Nat × DictMsg)} (h : ∀ x ∈ l, x.1 = r → s.goesOn r x.2.1 ch = false) :
    (s.popRingOut r ch l).1 = none := by
  induction l with
  | nil => rfl
  | cons x l ih =>
    obtain ⟨hx, hl⟩ := List.forall_mem_cons.mp h
    rw [State.popRingOut, if_neg (fun ⟨hr, hgo⟩ => by simp [hx hr] at hgo)]
    exact ih hl

/-- No DICT frame leaves while no message waits for the channel. -/
theorem headFrame_noMessage (htype : f.type = 5) (h : ∀ x ∈ s.dict.ringOut, x.1 = r → s.goesOn r x.2.1 ch = false) :
    s.headFrame r ch f = none := by
  rw [State.headFrame, if_pos htype, popRingOut_none h]
  rfl

/-- A message padded to whole words. -/
theorem fit_words (b : Bytes) : fit ((b.length + 3) / 4 * 4) b = b ++ zeros ((4 - b.length % 4) % 4) := by
  have hlen : b.length ≤ (b.length + 3) / 4 * 4 := by omega
  rw [fit, slice, List.drop_zero, List.take_of_length_le hlen]
  congr 2
  omega

theorem headFrame_message {to2 : Nat} {m : DictMsg} (htype : f.type = 5) (hwait : s.dict.ringOut = [(r, to2, m)])
    (hgo : s.goesOn r to2 ch = true) :
    s.headFrame r ch f = some { f with flags := 0, payload := msgBytes m ++ zeros ((4 - (msgBytes m).length % 4) % 4) } := by
  rw [State.headFrame, if_pos htype, hwait, State.popRingOut, if_pos ⟨rfl, hgo⟩, ← fit_words]
  rfl

end

/-! ### ARB_INSERT (R71, R78, R402) -/

section
variable (s : State) (r : RingId)

/-- What the channels of this unit's own frames depend on in a controller. -/
def SameLegs (x y : RingSt) : Prop := y.fbt = x.fbt ∧ y.survivor = x.survivor ∧ y.east = x.east ∧ y.west = x.west

theorem originLegs_setRing {x : RingSt} (h : SameLegs (s.ring r) x) : (s.setRing r x).originLegs r = s.originLegs r := by
  obtain ⟨-, hsurvivor, heast, hwest⟩ := h
  have hport (sd : Side) : x.port sd = (s.ring r).port sd := by
    cases sd
    · exact heast
    · exact hwest
  unfold State.originLegs
  dsimp only
  rw [State.ring_setRing, State.n_setRing, State.bit, State.n_setRing, ← State.bit, hsurvivor, hport, hport]

theorem downChannel_setRing {x : RingSt} (h : SameLegs (s.ring r) x) (a : Nat) :
    (s.setRing r x).downChannel r a = s.downChannel r a := by
  obtain ⟨hfbt, -⟩ := h
  have hnode : (s.setRing r x).node r a = s.node r a := by cases r <;> rfl
  have horder : (s.setRing r x).order r = s.order r := congrArg orderOf (State.obj_setRing s r x _)
  have hpath : (s.setRing r x).onPathE r (s.node r a) = s.onPathE r (s.node r a) := by
    funext b
    rw [State.onPathE, State.onPathE, horder]
  rw [State.downChannel, State.downChannel, State.ring_setRing, hnode, hfbt, hpath, State.downlink, horder, ← State.downlink]

/-- The messages of a channel are the same once an own frame has started. -/
theorem popRingOut_setRing {x : RingSt} (h : SameLegs (s.ring r) x) (ch : Channel) (l : List (RingId × Nat × DictMsg)) :
    (s.setRing r x).popRingOut r ch l = s.popRingOut r ch l := by
  induction l with
  | nil => rfl
  | cons m l ih =>
    have hgo : (s.setRing r x).goesOn r m.2.1 ch = s.goesOn r m.2.1 ch := by
      rw [State.goesOn, State.goesOn, originLegs_setRing s r h, downChannel_setRing s r h]
    rw [State.popRingOut, State.popRingOut, hgo, ih]

/-- The controller after an own frame of the arbitrating window has started (R71, R78). -/
def RingSt.inserted (x : RingSt) (sd : Side) (at10 opens closes : Int) (g : Frame) : RingSt :=
  { (x.send sd 1 at10 opens closes g) with senderCtr := (x.senderCtr + 1) % 2 ^ 32 }

theorem sameLegs_inserted (x : RingSt) (sd : Side) (at10 opens closes : Int) (g : Frame) :
    SameLegs x (x.inserted sd at10 opens closes g) := by
  cases sd <;> exact ⟨rfl, rfl, rfl, rfl⟩

theorem inserted_line (x : RingSt) (sd : Side) (at10 opens closes : Int) (g : Frame) :
    (x.inserted sd at10 opens closes g).line = x.line ++ [g] := by cases sd <;> rfl

theorem inserted_own (x : RingSt) (sd : Side) (at10 opens closes : Int) (g : Frame) :
    (x.inserted sd at10 opens closes g).own.any (fun o => decide (o.side = sd)) = true := by
  have hown : (x.inserted sd at10 opens closes g).own = putOwn x.own ⟨sd, 1, opens, closes⟩ := by cases sd <;> rfl
  simp [hown, putOwn]

theorem ownAddr_lt : s.ownAddr < 1024 := by
  unfold State.ownAddr
  split <;> decide

/-- The frame that the head sends for an own frame without a stamp of its own (R76, R78). -/
def State.insertFrame (s : State) (r : RingId) (ch : Channel) (own : Frame) : Frame :=
  s.ownFrame r ch own.type.toNat 0xFFF (s.ring r).senderCtr 0 (moreOf own) own.payload

/-- The conditions under which the head starts an own frame on a channel: it sends on the channel, and those of R71 hold. -/
def State.insertsNow (s : State) (r : RingId) (ch : Channel) (off : Nat) (idle : Bool) (own : Frame) : Bool :=
  s.sends r && (s.originLegs r).any (fun l => l.1 == ch) &&
    s.mayInsert r (ch = .a) (if ch = .a then (s.ring r).insA else (s.ring r).insB) off idle own

theorem barred_iff (a b c : Bool) : (!a ∨ !b ∨ !c) ↔ (a && b && c) = false := by
  simp only [Bool.not_eq_true', Bool.and_eq_false_iff, or_assoc]

/-- The port by which an own frame of a channel leaves (R61, R118). -/
def State.insertSide (s : State) (r : RingId) (ch : Channel) : Side :=
  (((s.originLegs r).find? (fun l => l.1 == ch)).map Prod.snd).getD (egressOf ch)

theorem legSide_mem {s : State} {r : RingId} {ch : Channel} (h : (s.originLegs r).any (fun l => l.1 == ch) = true) :
    (ch, s.insertSide r ch) ∈ s.originLegs r := by
  obtain ⟨x, hx⟩ := Option.isSome_iff_exists.mp (List.find?_isSome.mpr (List.any_eq_true.mp h))
  have hch : x.1 = ch := by simpa using List.find?_some hx
  rw [State.insertSide, hx, ← hch]
  exact List.mem_of_find?_eq_some hx

/-- The controller of the head after an own frame has started: its port, its start and its guardian window (R71, R108). -/
def State.insertRing (s : State) (r : RingId) (ch : Channel) (off : Nat) (own : Frame) : RingSt :=
  let sd := s.insertSide r ch
  let w := s.arbWindow r (ch = .a) (- s.early10 r sd)
  (s.ring r).inserted sd (s.cycle10 + ((off * 10 : Nat) : Int) - s.early10 r sd) w.1 w.2 (s.insertFrame r ch own)

/-- The message that waits first for a channel has left (R402). -/
def State.messageLeft (s : State) (r : RingId) (ch : Channel) : State :=
  { s with dict := { s.dict with ringOut := (s.popRingOut r ch s.dict.ringOut).2 } }

theorem changes_messageLeft (ch : Channel) : Changes [.dict] s (s.messageLeft r ch) :=
  ⟨rfl, fun p hp => by cases p <;> simp [Part.same, State.messageLeft] at hp ⊢⟩

theorem State.ringOut_messageLeft (ch : Channel) :
    (s.messageLeft r ch).dict.ringOut = (s.popRingOut r ch s.dict.ringOut).2 := rfl

theorem State.ring_messageLeft (ch : Channel) : (s.messageLeft r ch).ring r = s.ring r := by cases r <;> rfl

variable {ch : Channel} {off : Nat} {idle : Bool} {own : Frame}

theorem sameLegs_insertRing : SameLegs (s.ring r) (s.insertRing r ch off own) := sameLegs_inserted _ _ _ _ _ _

theorem headInsert_blocked (h : s.insertsNow r ch off idle own = false) : s.headInsert r ch off idle own = s :=
  if_pos ((barred_iff _ _ _).mpr h)

theorem insertsNow_legs (h : s.insertsNow r ch off idle own = true) : (s.originLegs r).any (fun l => l.1 == ch) = true := by
  rw [State.insertsNow, Bool.and_eq_true, Bool.and_eq_true] at h
  obtain ⟨⟨-, hlegs⟩, -⟩ := h
  exact hlegs

theorem headInsert_sends (h : s.insertsNow r ch off idle own = true) (htype : own.type ≠ 9) : s.headInsert r ch off idle own =
    if own.type = 5 then (s.setRing r (s.insertRing r ch off own)).messageLeft r ch else s.setRing r (s.insertRing r ch off own) := by
  have hfree := mt (barred_iff _ _ _).mp (by rw [← State.insertsNow, h]; decide)
  have hpayload (port : Nat) (at10 : Int) : s.arbPayload r ch port at10 own = (own.payload, s) := if_neg htype
  unfold State.headInsert
  dsimp only
  rw [if_neg hfree, hpayload]
  rfl

/-- What the start of an own frame brings and leaves (R71, R78, R402). -/
theorem headInsert_starts (h : s.insertsNow r ch off idle own = true) (htype : own.type ≠ 9) :
    (s.headInsert r ch off idle own).ring r = s.insertRing r ch off own ∧
    (own.type = 5 → (s.headInsert r ch off idle own).dict.ringOut = (s.popRingOut r ch s.dict.ringOut).2) ∧
    (s.headInsert r ch off idle own).objs = s.objs ∧ Changes [.rings, .dict] s (s.headInsert r ch off idle own) := by
  have hring : Changes [.rings, .dict] s (s.setRing r (s.insertRing r ch off own)) := (changes_setRing s r _).mono (by decide)
  rw [headInsert_sends s r h htype]
  split
  case isTrue =>
    refine ⟨(State.ring_messageLeft _ r ch).trans (s.ring_setRing r _), fun _ => ?_, s.setRing_objs r _,
      hring.trans ((changes_messageLeft _ r ch).mono (by decide))⟩
    rw [State.ringOut_messageLeft, popRingOut_setRing s r (sameLegs_insertRing s r), State.setRing_dict]
  case isFalse hother => exact ⟨s.ring_setRing r _, fun hdict => absurd hdict hother, s.setRing_objs r _, hring⟩

/-- The frame carries this unit's own header, and the payload as it is (R76, R78). -/
theorem insertFrame_header : (s.insertFrame r ch own).type = own.type ∧ (s.insertFrame r ch own).slot = 0xFFF ∧
    (s.insertFrame r ch own).addr.toNat = s.ownAddr ∧ (s.insertFrame r ch own).seq.toNat = (s.ring r).senderCtr % 2 ^ 32 ∧
    (s.insertFrame r ch own).payload = own.payload :=
  ⟨BitVec.ofNat_toNat _ _, rfl, (BitVec.toNat_ofNat ..).trans (Nat.mod_eq_of_lt (ownAddr_lt s)), BitVec.toNat_ofNat .., rfl⟩

theorem arbInsert_head_none {f : Frame} (h : s.headFrame r ch f = none) : arbInsert (.head r) ch off idle f s = s := by
  rw [arbInsert, h]
  rfl

theorem arbInsert_head_some {f : Frame} (h : s.headFrame r ch f = some own) :
    arbInsert (.head r) ch off idle f s = s.headInsert r ch off idle own := by
  rw [arbInsert, h]
  rfl

theorem arbInsert_head_starts {f : Frame} (hown : s.headFrame r ch f = some own) (h : s.insertsNow r ch off idle own = true)
    (htype : f.type ≠ 9) : Completes (.arbInsert (.head r) ch off idle f) s (fun t =>
      (∃ l ∈ s.originLegs r, l.1 = ch ∧ (t.ring r).own.any (fun o => decide (o.side = l.2)) = true) ∧
      (∃ g : Frame, (t.ring r).line = (s.ring r).line ++ [g] ∧ g.type = f.type ∧ g.slot = 0xFFF ∧ g.addr.toNat = s.ownAddr ∧
        g.seq.toNat = (s.ring r).senderCtr % 2 ^ 32 ∧ g.payload = own.payload) ∧
      (f.type = 5 → t.dict.ringOut = (s.popRingOut r ch s.dict.ringOut).2) ∧
      (t.ring r).senderCtr = ((s.ring r).senderCtr + 1) % 2 ^ 32 ∧ t.objs = s.objs ∧ Changes [.rings, .dict] s t) := by
  have hlegs := insertsNow_legs s r h
  rw [← headFrame_type hown] at htype ⊢
  obtain ⟨hring, hdict, hobjs, hchanges⟩ := headInsert_starts s r h htype
  refine ⟨_, (exec_arbInsert _ ch off idle f s).trans (congrArg _ (arbInsert_head_some s r hown)), ?_, ?_, hdict, ?_, hobjs, hchanges⟩
  · exact ⟨_, legSide_mem hlegs, rfl, hring.symm ▸ inserted_own _ _ _ _ _ _⟩
  · exact ⟨_, (congrArg _ hring).trans (inserted_line _ _ _ _ _ _), insertFrame_header s r⟩
  · exact congrArg _ hring

/-- A node sends no frame of another type than DICT, EVENT and DELAY. -/
theorem arbInsert_node_other {f : Frame} (h : f.type.toNat ∉ [5, 7, 9]) (a : BitVec 10) :
    arbInsert (.node r a) ch off idle f s = s := if_pos (.inl (by simpa using h))

theorem arbInsert_node_barred {f : Frame} {a : BitVec 10} (h : nodeMaySend (s.node r a.toNat) ch f.type.toNat = false) :
    arbInsert (.node r a) ch off idle f s = s := if_pos (.inr (.inl (by simpa using h)))

end

end Sys2Proof.Machine

namespace Sys2Proof

open Machine

/-- Settles O41: each command has its law above, at the head and at a node. -/
theorem linksAndArbitration : Obligations.LinksAndArbitration := by
  intro s r a sd ch off idle f
  refine ⟨linkLoss_node s r a sd, codeGroupSyncAcquired_node s r a sd, linkUp_node s r, linkLoss_head s r sd,
    codeGroupSyncAcquired_head s r sd, linkUp_head s r, arbLastDiscard_head s r ch, guardCut_node s r, guardCut_head s r,
    fun h => ⟨_, exec_guardCut _ sd s, guardCut_head_idle s r h⟩, arbLastDiscard_node s r a ch, ?otherType,
    fun h => ⟨_, exec_arbInsert _ ch off idle f s, arbInsert_node_barred s r h⟩, ?noMessage, fun m to2 => headFrame_message, ?insert,
    fun h => ⟨_, exec_breakPatternTimeout r s, breakPatternTimeout_noLoop s r h⟩, ?oneLoop⟩
  case otherType =>
    exact fun h => ⟨⟨_, exec_arbInsert _ ch off idle f s, arbInsert_head_none s r (headFrame_other h)⟩,
      ⟨_, exec_arbInsert _ ch off idle f s, arbInsert_node_other s r h a⟩⟩
  case noMessage =>
    exact fun htype h => ⟨_, exec_arbInsert _ ch off idle f s, arbInsert_head_none s r (headFrame_noMessage htype h)⟩
  case insert =>
    rintro own sends hown rfl
    refine ⟨fun h htype => arbInsert_head_starts s r hown h htype, fun h => ⟨_, exec_arbInsert _ ch off idle f s, ?_⟩⟩
    exact (arbInsert_head_some s r hown).trans (headInsert_blocked s r h)
  case oneLoop =>
    exact fun l hloops hup => ⟨_, (exec_breakPatternTimeout r s).trans (congrArg _ (breakPatternTimeout_oneLoop s r hloops hup)),
      healFail_marks s r⟩

end Sys2Proof
end

section
/-! SUPPORT. The states of an ordinary node: what a frame that passes it, SYNC, the loss of SYNC and the writes of the node objects do
to it (R63, R100, R104, R105). -/

namespace Sys2Proof.Machine

theorem exec_sync (st : Station) (sd : Side) (f : Frame) (s : State) : exec (.sync st sd f) s = .next (sync st sd f s) := rfl
theorem exec_syncLoss (st : Station) (m : Bool) (s : State) : exec (.syncLoss ⟨st, m⟩) s = .next (syncLoss st m s) := rfl
theorem exec_nodeDelayWrite (r : RingId) (a : BitVec 10) (v : Bytes) (s : State) :
    exec (.nodeDelayWrite r a v) s = .next (nodeDelayWrite r a v s) := rfl
theorem exec_nodeAssignWrite (r : RingId) (a : BitVec 10) (v : Bytes) (s : State) :
    exec (.nodeAssignWrite r a v) s = .next (nodeAssignWrite r a v s) := rfl
theorem exec_exclude (r : RingId) (a : BitVec 10) (v : Byte) (s : State) :
    exec (.exclude r ⟨a, v⟩) s = .next (excludeNode r a v s) := rfl

/-! ### A frame that passes a node (R63, R71) -/

/-- A node that has forwarded a frame: its insertion buffers and its egresses alone may have moved. -/
def NodePassed (n m : NodeSt) : Prop := m = { n with insA := m.insA, insB := m.insB, busyE := m.busyE, busyW := m.busyW }

theorem nodePassed_forward (n : NodeSt) (limit : Int) (sd : Side) (at10 : Int) (b : Bytes) :
    NodePassed n (n.forward limit sd at10 b) := by
  cases sd
  all_goals rfl

theorem putNode_putNode {e e' : NodeSt} (hring : e'.ring = e.ring) (haddr : e'.addr = e.addr) (l : List NodeSt) :
    putNode e' (putNode e l) = putNode e' l := by
  induction l with
  | nil => simp [putNode, hring, haddr]
  | cons n l ih => by_cases h : n.ring = e.ring ∧ n.addr = e.addr <;> simp [putNode, h, hring, haddr, ih]

/-- The later of two replacements of one node stands. -/
theorem State.setNode_setNode (s : State) {n n' : NodeSt} (hring : n'.ring = n.ring) (haddr : n'.addr = n.addr) :
    (s.setNode n).setNode n' = s.setNode n' := by
  rw [State.setNode, State.setNode, putNode_putNode hring haddr, State.setNode]

section
variable {s : State} {r : RingId} {a : Nat} {n : NodeSt} (h : NodePassed (s.node r a) n)
include h

/-- A node that has passed a frame still has its name. -/
theorem NodePassed.names : n.ring = r ∧ n.addr = a := by
  obtain ⟨hring, haddr⟩ := s.node_names r a
  exact ⟨(congrArg NodeSt.ring h).trans hring, (congrArg NodeSt.addr h).trans haddr⟩

theorem node_setNode_passed (k : Nat) : (({ s with free := k } : State).setNode n).node r a = n := by
  obtain ⟨rfl, rfl⟩ := h.names
  exact State.node_setNode_same _ n

end

section
variable (s : State) (r : RingId) (a : Nat) (f : Frame)

theorem passNode_eq : ∃ n, NodePassed (s.node r a) n ∧ s.passNode r a f = ({ s with free := s.free + 1 } : State).setNode n :=
  ⟨_, nodePassed_forward _ _ _ _ _, rfl⟩

/-- A change of a node behind a frame that passes it is the only change, beside the free value of the forwarding delay. -/
theorem passNode_onNode {g : NodeSt → NodeSt} (hname : KeepsName g) : ∃ n, NodePassed (s.node r a) n ∧
    ((s.passNode r a f).onNode r a g).node r a = g n ∧
    OnlyNode r a s { (s.passNode r a f).onNode r a g with free := s.free } := by
  obtain ⟨n, hn, hpass⟩ := passNode_eq s r a f
  obtain ⟨hring, haddr⟩ := hn.names
  obtain ⟨hgring, hgaddr⟩ := hname n
  have heq : (s.passNode r a f).onNode r a g = ({ s with free := s.free + 1 } : State).setNode (g n) := by
    rw [State.onNode, hpass, node_setNode_passed hn, State.setNode_setNode _ hgring hgaddr]
  obtain ⟨hnode, honly⟩ := onlyNode_setNode (s := s) (hgring.trans hring) (hgaddr.trans haddr) (s.free + 1)
  exact ⟨n, hn, heq ▸ hnode, heq ▸ honly⟩

end

/-! ### SYNC at an ordinary node (R104, R105) -/

/-- Consecutive consistent SYNC frames after one more. -/
def runAfter (run : Nat) (last : Option Nat) (f : Frame) : Nat :=
  if !syncConsistent f then 0 else if last == some f.seq.toNat then run else if nextSync last f then run + 1 else 1

/-- A consistent SYNC of the following cycle lengthens the run. -/
theorem runAfter_next {f : Frame} {l : Nat} (hok : syncConsistent f = true) (hnext : f.seq.toNat = (l + 1) % 2 ^ 32)
    (hnew : l ≠ f.seq.toNat) (run : Nat) : runAfter run (some l) f = run + 1 := by
  have hnot : (some l == some f.seq.toNat) = false := by simpa using hnew
  have hfollows : nextSync (some l) f = true := by simp [nextSync, hnext]
  rw [runAfter, hok, hnot, hfollows]
  rfl

/-- The SEQ of a frame one cycle later. -/
theorem seq_succ (q : BitVec 32) : (q + 1).toNat = (q.toNat + 1) % 2 ^ 32 ∧ q.toNat ≠ (q + 1).toNat := by
  have hlt := q.isLt
  have hsucc : (q + 1).toNat = (q.toNat + 1) % 2 ^ 32 := BitVec.toNat_add q 1
  exact ⟨hsucc, by omega⟩

/-- A SYNC counts: a capable node integrates, the run grows, and after eight a node in LISTEN is LOCKED (R97, R105). -/
def NodeSt.counted (n : NodeSt) (capable : Bool) (f : Frame) : NodeSt :=
  let n := if capable ∧ n.cs = .listen then { n with cs := .integrate } else n
  let run := runAfter n.syncRun n.lastSync f
  let n := { n with syncRun := run, lastSync := some f.seq.toNat }
  if n.state = .listen ∧ (!capable ∨ n.cs = .integrate) ∧ 8 ≤ run then { n with state := .locked } else n

/-- Another timetable than the assigned one releases an integrated node (R99). -/
def NodeSt.reassigned (n : NodeSt) (f : Frame) : NodeSt :=
  if n.state = .integrated ∧ !(num f.payload 13 1).testBit 1 ∧ num f.payload 14 2 ≠ n.assignTt then
    { n with state := .locked, assign := [] }
  else n

/-- Another timetable or fall-back than the present one silences a node for the cycle (R121). -/
def NodeSt.silenced (n : NodeSt) (f : Frame) : NodeSt :=
  let fbt := (num f.payload 13 1).testBit 1
  let tt := num f.payload 14 2
  let new : Option Nat := if fbt then some tt else none
  let differs := decide (new ≠ n.fbt) || (!fbt && decide (tt ≠ n.ttId))
  if differs then { n with silentIn := some f.seq.toNat, fbt := new } else n

/-- The operating timetable that a SYNC names is in force at the node. -/
def NodeSt.retimed (n : NodeSt) (f : Frame) : NodeSt :=
  if (num f.payload 13 1).testBit 1 then n else { n with ttId := num f.payload 14 2 }

/-- What the payload of a SYNC announces. -/
def NodeSt.announced (n : NodeSt) (f : Frame) : NodeSt := ((n.reassigned f).silenced f).retimed f

/-- What the states of R97 and R105 turn on: a node's name, its two states and its run of SYNC frames. -/
structure NodeGrid where
  ring : RingId
  addr : Nat
  state : NState
  cs : CsState
  syncRun : Nat
  lastSync : Option Nat

/-- The grid of a node. -/
def NodeSt.grid (n : NodeSt) : NodeGrid := ⟨n.ring, n.addr, n.state, n.cs, n.syncRun, n.lastSync⟩

theorem NodePassed.grid {n m : NodeSt} (h : NodePassed n m) : m.grid = n.grid := (congrArg NodeSt.grid h :)

section
variable (n : NodeSt) (capable down : Bool) (f : Frame) (now : Nat)

/-- The stages of a SYNC at a node. -/
theorem NodeSt.sync_eq : n.sync capable down f now =
    let m := (((n.endSilence f.seq.toNat).follow down f now).counted capable f).announced f
    if f.mpos.toNat % 64 = 0 then m.atPosition0 else m := rfl

theorem NodeSt.grid_endSilence (seq : Nat) : (n.endSilence seq).grid = n.grid := by
  unfold NodeSt.endSilence
  dsimp only
  split <;> rfl

theorem NodeSt.grid_follow : (n.follow down f now).grid = n.grid := by
  unfold NodeSt.follow
  dsimp only
  split <;> split <;> split <;> rfl

theorem NodeSt.names_counted : (n.counted capable f).ring = n.ring ∧ (n.counted capable f).addr = n.addr := by
  unfold NodeSt.counted
  dsimp only
  split <;> split <;> exact ⟨rfl, rfl⟩

theorem NodeSt.names_reassigned : (n.reassigned f).ring = n.ring ∧ (n.reassigned f).addr = n.addr := by
  unfold NodeSt.reassigned
  split <;> exact ⟨rfl, rfl⟩

theorem NodeSt.grid_silenced : (n.silenced f).grid = n.grid := (apply_ite NodeSt.grid _ _ _).trans (ite_self _)

theorem NodeSt.grid_retimed : (n.retimed f).grid = n.grid := by
  unfold NodeSt.retimed
  split <;> rfl

/-- Of what a SYNC announces, another assignment alone bears on the grid. -/
theorem NodeSt.grid_announced : (n.announced f).grid = (n.reassigned f).grid :=
  (NodeSt.grid_retimed _ f).trans (NodeSt.grid_silenced _ f)

theorem NodeSt.names_atPosition0 : n.atPosition0.ring = n.ring ∧ n.atPosition0.addr = n.addr := by
  unfold NodeSt.atPosition0
  dsimp only
  split <;> split <;> exact ⟨rfl, rfl⟩

/-- The eighth consistent SYNC in a row locks a node in LISTEN, which is not starting the ring itself (R105). -/
theorem NodeSt.counted_locks {n : NodeSt} {f : Frame} (hstate : n.state = .listen) (hcs : n.cs = .listen ∨ n.cs = .integrate)
    (hrun : 8 ≤ runAfter n.syncRun n.lastSync f) :
    (n.counted capable f).state = .locked ∧ (n.counted capable f).syncRun = runAfter n.syncRun n.lastSync f := by
  obtain hcs | hcs := hcs
  all_goals cases capable <;> simp [NodeSt.counted, hstate, hcs, hrun]

theorem NodeSt.state_counted {n : NodeSt} (h : n.state ≠ .listen) : (n.counted capable f).state = n.state := by
  unfold NodeSt.counted
  dsimp only
  split <;> simp [h]

theorem NodeSt.grid_announced_keeps {n : NodeSt} (h : n.state ≠ .integrated) : (n.announced f).grid = n.grid := by
  rw [NodeSt.grid_announced, NodeSt.reassigned, if_neg (fun hint => h hint.1)]

theorem NodeSt.atPosition0_assigned {n : NodeSt} (h : n.state = .assigned) :
    n.atPosition0.state = .integrated ∧ n.atPosition0.senderCtr = 0 := by
  unfold NodeSt.atPosition0
  dsimp only
  split <;> simp [h]

/-- Before it counts, a SYNC leaves the grid as it was. -/
theorem NodeSt.sync_counted : ∃ m : NodeSt, m.grid = n.grid ∧ n.sync capable down f now =
    if f.mpos.toNat % 64 = 0 then ((m.counted capable f).announced f).atPosition0 else (m.counted capable f).announced f :=
  ⟨_, (NodeSt.grid_follow _ down f now).trans (n.grid_endSilence _), n.sync_eq capable down f now⟩

theorem keepsName_announced : KeepsName (fun n => n.announced f) := fun n => by
  have hgrid := n.grid_announced f
  obtain ⟨hring, haddr⟩ := n.names_reassigned f
  exact ⟨(congrArg NodeGrid.ring hgrid).trans hring, (congrArg NodeGrid.addr hgrid).trans haddr⟩

theorem KeepsName.comp {g h : NodeSt → NodeSt} (hg : KeepsName g) (hh : KeepsName h) : KeepsName (fun n => g (h n)) := fun n =>
  ⟨(hg (h n)).1.trans (hh n).1, (hg (h n)).2.trans (hh n).2⟩

theorem keepsName_sync : KeepsName (fun n => n.sync capable down f now) := fun n => by
  obtain ⟨m, hgrid, hsync⟩ := n.sync_counted capable down f now
  have hm : m.ring = n.ring ∧ m.addr = n.addr := ⟨congrArg NodeGrid.ring hgrid, congrArg NodeGrid.addr hgrid⟩
  have hcounted : KeepsName (fun m => (m.counted capable f).announced f) :=
    (keepsName_announced f).comp (fun n => n.names_counted capable f)
  have hmoved : KeepsName (fun m => ((m.counted capable f).announced f).atPosition0) := .comp NodeSt.names_atPosition0 hcounted
  dsimp only
  rw [hsync, ← hm.1, ← hm.2]
  split
  · exact hmoved m
  · exact hcounted m

variable {n f} in
theorem NodeSt.sync_locks (hstate : n.state = .listen) (hcs : n.cs = .listen ∨ n.cs = .integrate)
    (hrun : runAfter n.syncRun n.lastSync f = 8) (hmpos : f.mpos.toNat % 64 ≠ 0) :
    (n.sync capable down f now).state = .locked ∧ (n.sync capable down f now).syncRun = 8 := by
  obtain ⟨m, hgrid, hsync⟩ := n.sync_counted capable down f now
  have hmrun : runAfter m.syncRun m.lastSync f = 8 :=
    (congrArg (fun g : NodeGrid => runAfter g.syncRun g.lastSync f) hgrid).trans hrun
  obtain ⟨hlocked, hcount⟩ := NodeSt.counted_locks capable ((congrArg NodeGrid.state hgrid).trans hstate)
    ((show m.cs = n.cs from congrArg NodeGrid.cs hgrid) ▸ hcs) hmrun.ge
  have hannounced := NodeSt.grid_announced_keeps f (n := m.counted capable f) (by rw [hlocked]; decide)
  rw [hsync, if_neg hmpos]
  exact ⟨(congrArg NodeGrid.state hannounced).trans hlocked,
    (congrArg NodeGrid.syncRun hannounced).trans (hcount.trans hmrun)⟩

variable {n f} in
theorem NodeSt.sync_integrates (hstate : n.state = .assigned) (hmpos : f.mpos.toNat % 64 = 0) :
    (n.sync capable down f now).state = .integrated ∧ (n.sync capable down f now).senderCtr = 0 := by
  obtain ⟨m, hgrid, hsync⟩ := n.sync_counted capable down f now
  have hm : m.state = .assigned := (congrArg NodeGrid.state hgrid).trans hstate
  have hcounted : (m.counted capable f).state = .assigned :=
    (NodeSt.state_counted capable f (by rw [hm]; decide)).trans hm
  have hannounced := NodeSt.grid_announced_keeps f (n := m.counted capable f) (by rw [hcounted]; decide)
  rw [hsync, if_pos hmpos]
  exact NodeSt.atPosition0_assigned ((congrArg NodeGrid.state hannounced).trans hcounted)

end

theorem completes_sync_node {s : State} {r : RingId} {a : BitVec 10} {sd : Side} {f : Frame} {Q : State → Prop}
    (hQ : ∀ (n : NodeSt) (t : State), n.grid = (s.node r a.toNat).grid →
      t.node r a.toNat = n.sync (s.capable r a.toNat) (s.downlink r a.toNat f.ch) f s.cellQ →
      OnlyNode r a.toNat s { t with free := s.free } → Q t) : Completes (.sync (.node r a) sd f) s Q := by
  obtain ⟨n, hn, hnode, honly⟩ := passNode_onNode s r a.toNat f
    (keepsName_sync (s.capable r a.toNat) (s.downlink r a.toNat f.ch) f s.cellQ)
  exact ⟨_, exec_sync _ sd f s, hQ n _ hn.grid hnode honly⟩

/-! ### Commands that change one node alone (R97, R100, R105) -/

/-- A command that changes a node where a condition holds of it, and the condition holds. -/
theorem completes_onNode_if {c : Instr} {s : State} {r : RingId} {a : Nat} {p : NodeSt → Prop} [DecidablePred p]
    {g : NodeSt → NodeSt} (hexec : exec c s = .next (s.onNode r a (fun n => if p n then g n else n))) (hname : KeepsName g)
    (hp : p (s.node r a)) {Q : State → Prop} (hQ : ∀ t, t.node r a = g (s.node r a) → OnlyNode r a s t → Q t) :
    Completes c s Q := by
  refine completes_onNode hexec (fun n => ?_) fun t hnode honly => hQ t (hnode.trans (if_pos hp)) honly
  dsimp only
  split
  · exact hname n
  · exact ⟨rfl, rfl⟩

section
variable (s : State) (r : RingId) (a : BitVec 10)

theorem nodeDelayWrite_measures {v : Bytes} (hlen : v.length = 8)
    (hstate : (s.node r a.toNat).state = .locked ∨ (s.node r a.toNat).state = .excluded) :
    Completes (.nodeDelayWrite r a v) s (fun t => (t.node r a.toNat).state = .measured ∧
      (t.node r a.toNat).delayPending = some v ∧ OnlyNode r a.toNat s t) := by
  refine completes_onNode ((exec_nodeDelayWrite r a v s).trans (congrArg _ (if_neg (not_not.mpr hlen))))
    (fun n => by dsimp only; split <;> exact ⟨rfl, rfl⟩) fun t hnode honly => ?_
  rw [hnode]
  dsimp only
  rw [if_pos hstate]
  exact ⟨rfl, rfl, honly⟩

/-- What NODE_ASSIGN_WRITE makes of a node. -/
def NodeSt.assignWritten (v : Bytes) (n : NodeSt) : NodeSt :=
  if n.state = .measured then
    if num v 0 2 = n.addr ∧ num v 6 2 = n.ttId then { n with assign := v, state := .assigned } else n
  else { n with assign := v }

theorem completes_nodeAssignWrite {v : Bytes} {Q : State → Prop}
    (hQ : ∀ t, t.node r a.toNat = (s.node r a.toNat).assignWritten v → OnlyNode r a.toNat s t → Q t) :
    Completes (.nodeAssignWrite r a v) s Q := by
  refine completes_onNode (f := .assignWritten v) (exec_nodeAssignWrite r a v s) (fun n => ?_) hQ
  unfold NodeSt.assignWritten
  split
  · split <;> exact ⟨rfl, rfl⟩
  · exact ⟨rfl, rfl⟩

theorem nodeAssignWrite_assigns {v : Bytes} (hstate : (s.node r a.toNat).state = .measured) (haddr : num v 0 2 = a.toNat)
    (htt : num v 6 2 = (s.node r a.toNat).ttId) : Completes (.nodeAssignWrite r a v) s (fun t =>
      (t.node r a.toNat).state = .assigned ∧ (t.node r a.toNat).assign = v ∧ OnlyNode r a.toNat s t) := by
  refine completes_nodeAssignWrite s r a fun t hnode honly => ?_
  rw [hnode, NodeSt.assignWritten, if_pos hstate, if_pos ⟨haddr.trans (s.node_names r a.toNat).2.symm, htt⟩]
  exact ⟨rfl, rfl, honly⟩

theorem nodeAssignWrite_refuses {v : Bytes} (hstate : (s.node r a.toNat).state = .measured)
    (hother : num v 0 2 ≠ a.toNat ∨ num v 6 2 ≠ (s.node r a.toNat).ttId) : Completes (.nodeAssignWrite r a v) s (fun t =>
      t.node r a.toNat = s.node r a.toNat ∧ OnlyNode r a.toNat s t) := by
  refine completes_nodeAssignWrite s r a fun t hnode honly => ⟨?_, honly⟩
  have hname := (s.node_names r a.toNat).2
  rw [hnode, NodeSt.assignWritten, if_pos hstate, if_neg (by rw [hname]; tauto)]

theorem excludeNode_one : excludeNode r a 1 s =
    s.onNode r a.toNat (fun n => if n.state = .integrated then { n with state := .excluded, own := [] } else n) := rfl

theorem exclude_excludes (h : (s.node r a.toNat).state = .integrated) : Completes (.exclude r ⟨a, 1⟩) s (fun t =>
    (t.node r a.toNat).state = .excluded ∧ OnlyNode r a.toNat s t) :=
  completes_onNode_if ((exec_exclude r a 1 s).trans (congrArg _ (excludeNode_one s r a))) (fun _ => ⟨rfl, rfl⟩) h
    fun _ hnode honly => ⟨congrArg NodeSt.state hnode, honly⟩

theorem exclude_leaves (h : (s.node r a.toNat).state ≠ .integrated) : Completes (.exclude r ⟨a, 1⟩) s (fun t =>
    t.node r a.toNat = s.node r a.toNat ∧ OnlyNode r a.toNat s t) := by
  refine completes_onNode ((exec_exclude r a 1 s).trans (congrArg _ (excludeNode_one s r a))) (fun n => ?_)
    fun t hnode honly => ⟨hnode.trans (if_neg h), honly⟩
  dsimp only
  split <;> exact ⟨rfl, rfl⟩

/-- What the loss of SYNC makes of a node. -/
def NodeSt.syncLost (matrices : Bool) (n : NodeSt) : NodeSt :=
  let n := if n.cs = .integrate ∧ matrices then { n with cs := .listen } else n
  { n.toListen with lastSync := none }

theorem NodeSt.syncLost_fields (m : Bool) (n : NodeSt) : (n.syncLost m).ring = n.ring ∧ (n.syncLost m).addr = n.addr ∧
    (n.syncLost m).state = .listen ∧ (n.syncLost m).lastSync = none ∧
    (n.syncLost m).cs = if n.cs = .integrate ∧ m = true then .listen else n.cs := by
  unfold NodeSt.syncLost
  split <;> exact ⟨rfl, rfl, rfl, rfl, rfl⟩

theorem syncLoss_node (m : Bool) : Completes (.syncLoss ⟨.node r a, m⟩) s (fun t =>
    (t.node r a.toNat).state = .listen ∧ (t.node r a.toNat).lastSync = none ∧
    (t.node r a.toNat).cs = (if (s.node r a.toNat).cs = .integrate ∧ m = true then .listen else (s.node r a.toNat).cs) ∧
    OnlyNode r a.toNat s t) := by
  refine completes_onNode (f := .syncLost m) (exec_syncLoss _ m s)
    (fun n => ⟨(n.syncLost_fields m).1, (n.syncLost_fields m).2.1⟩) fun t hnode honly => ?_
  obtain ⟨-, -, hstate, hlast, hcs⟩ := (s.node r a.toNat).syncLost_fields m
  rw [hnode]
  exact ⟨hstate, hlast, hcs, honly⟩

/-! ### SYNC at a node in LISTEN and in ASSIGNED -/

theorem sync_node_locks {sd : Side} {f : Frame} (hstate : (s.node r a.toNat).state = .listen)
    (hcs : (s.node r a.toNat).cs = .listen ∨ (s.node r a.toNat).cs = .integrate) (hcount : (s.node r a.toNat).syncRun = 7)
    (hlast : (s.node r a.toNat).lastSync = some f.seq.toNat) (hok : syncConsistent { f with seq := f.seq + 1 } = true)
    (hmpos : f.mpos.toNat % 64 ≠ 0) : Completes (.sync (.node r a) sd { f with seq := f.seq + 1 }) s (fun t =>
      (t.node r a.toNat).state = .locked ∧ (t.node r a.toNat).syncRun = 8 ∧ OnlyNode r a.toNat s { t with free := s.free }) := by
  refine completes_sync_node fun n t hgrid hnode honly => ?_
  obtain ⟨hnext, hnew⟩ := seq_succ f.seq
  have hrun : runAfter n.syncRun n.lastSync { f with seq := f.seq + 1 } = 8 := by
    rw [show n.syncRun = 7 from (congrArg NodeGrid.syncRun hgrid).trans hcount,
      show n.lastSync = some f.seq.toNat from (congrArg NodeGrid.lastSync hgrid).trans hlast]
    exact runAfter_next hok hnext hnew 7
  obtain ⟨hlocked, height⟩ := NodeSt.sync_locks (s.capable r a.toNat) (s.downlink r a.toNat f.ch) s.cellQ
    ((congrArg NodeGrid.state hgrid).trans hstate)
    ((show n.cs = (s.node r a.toNat).cs from congrArg NodeGrid.cs hgrid) ▸ hcs) hrun hmpos
  rw [hnode]
  exact ⟨hlocked, height, honly⟩

theorem sync_node_integrates {sd : Side} {f : Frame} (hstate : (s.node r a.toNat).state = .assigned)
    (hmpos : f.mpos.toNat % 64 = 0) : Completes (.sync (.node r a) sd f) s (fun t =>
      (t.node r a.toNat).state = .integrated ∧ (t.node r a.toNat).senderCtr = 0 ∧
      OnlyNode r a.toNat s { t with free := s.free }) := by
  refine completes_sync_node fun n t hgrid hnode honly => ?_
  obtain ⟨hintegrated, hcounter⟩ := NodeSt.sync_integrates (s.capable r a.toNat) (s.downlink r a.toNat f.ch) s.cellQ
    ((congrArg NodeGrid.state hgrid).trans hstate) hmpos
  rw [hnode]
  exact ⟨hintegrated, hcounter, honly⟩

end
end Sys2Proof.Machine

namespace Sys2Proof

open Machine

/-- Settles O34: one law for each write and each signal that a node takes. -/
theorem nodeStates : Obligations.NodeStates := by
  intro s r a n
  refine ⟨?delay, ?delayLength, ?assign, ?assignOther, ?exclude, ?excludeOther, ?excludeValue, ?lock, ?integrate, ?loss⟩
  case delay => exact fun v hlen hstate => nodeDelayWrite_measures s r a hlen hstate
  case delayLength => exact fun v hlen => ⟨_, exec_nodeDelayWrite r a v s, if_pos hlen⟩
  case assign => exact fun v hstate haddr htt => nodeAssignWrite_assigns s r a hstate haddr htt
  case assignOther => exact fun v hstate hother => nodeAssignWrite_refuses s r a hstate hother
  case exclude => exact exclude_excludes s r a
  case excludeOther => exact exclude_leaves s r a
  case excludeValue => exact fun v hv => ⟨_, exec_exclude r a v s, if_pos hv⟩
  case lock =>
    exact fun sd f hstate hcs hcount hlast _ hok hmpos => sync_node_locks s r a hstate hcs hcount hlast hok hmpos
  case integrate => exact fun sd f hstate hmpos => sync_node_integrates s r a hstate hmpos
  case loss => exact syncLoss_node s r a

end Sys2Proof
end

section
/-! SUPPORT. The cold start of a ring (R97): what START, SYNC and the timers of the cold start do at a head unit, and the timers at a
capable node. -/

namespace Sys2Proof.Machine

theorem exec_start (st : Station) (f : Frame) (s : State) : exec (.start st f) s = .next (startFrame st f s) := rfl
theorem exec_coldstartListenTimeout (st : Station) (s : State) :
    exec (.coldstartListenTimeout st) s = .next (coldstartListenTimeout st s) := rfl
theorem exec_coldstartComplete (st : Station) (s : State) : exec (.coldstartComplete st) s = .next (coldstartComplete st s) := rfl
theorem exec_backoffElapsed (st : Station) (s : State) : exec (.backoffElapsed st) s = .next (backoffElapsed st s) := rfl

/-- A bit of RING_STATUS set beside a change of the controller. -/
theorem completes_setRing_ringBit {c : Instr} {s : State} {r : RingId} {x : RingSt} {b : Nat} (hb : b < 16)
    (hexec : exec c s = .next ((s.setRing r x).ringBit r b true)) {Q : State → Prop}
    (hQ : ∀ t, t.ring r = x → t.bit (kRingStatus (ringNo r)) b = true → ChangesObjs [kRingStatus (ringNo r)] s t →
      Changes [.rings, .objs] s t → Q t) : Completes c s Q := by
  refine ⟨_, hexec, hQ _ ((State.ring_setObj _ _ _ r).trans (s.ring_setRing r x)) ?_ ?_ ?_⟩
  · exact State.bit_setBit_same _ _ b true (by rw [length_ringStatus]; omega)
  · exact (ChangesObjs.of_objs (s.setRing_objs r x) _).trans (changesObjs_setN _ _ _)
  · exact ((changes_setRing s r x).mono (by decide)).trans ((changes_setObj _ _ _).mono (by decide))

/-! ### START (R97) -/

section
variable {own serial : Nat} {f : Frame}

theorem csOnStart_lower {cs : CsState} (hcs : cs = .listen ∨ cs = .coldstart) (h : f.addr.toNat < own) :
    csOnStart cs own serial f = (.integrate, false) := by
  obtain rfl | rfl := hcs
  all_goals exact if_pos h

theorem csOnStart_higher (h : own < f.addr.toNat) : csOnStart .listen own serial f = (.coldstart, false) :=
  (if_neg h.le.not_gt).trans (if_pos h)

theorem csOnStart_duplicate {cs : CsState} (hcs : cs = .listen ∨ cs = .coldstart) (h : f.addr.toNat = own)
    (hserial : startSerial f ≠ serial) : csOnStart cs own serial f = (.backoff, true) := by
  obtain rfl | rfl := hcs
  all_goals simp [csOnStart, h, hserial]

end

/-- The head's controller in the state to which START leads; a unit that starts itself begins a new attempt. -/
def RingSt.onStart (x : RingSt) (c : CsState) : RingSt :=
  let x := if c = .coldstart ∧ x.cs = .listen then { x with attempt := min 255 (x.attempt + 1), startsSent := 0 } else x
  { x with cs := c }

section
variable {s : State} {r : RingId} {f : Frame}

theorem startFrame_head {c : CsState} {dup : Bool} (h : csOnStart (s.ring r).cs s.ownAddr s.sec.fuses.serial f = (c, dup)) :
    startFrame (.head r) f s =
      if dup then (s.setRing r ((s.ring r).onStart c)).ringBit r 2 true else s.setRing r ((s.ring r).onStart c) := by
  rw [startFrame, h]
  rfl

theorem start_head {c : CsState} (h : csOnStart (s.ring r).cs s.ownAddr s.sec.fuses.serial f = (c, false)) :
    Completes (.start (.head r) f) s (fun t => t.ring r = (s.ring r).onStart c ∧ t.objs = s.objs ∧ Changes [.rings] s t) :=
  completes_setRing ((exec_start _ f s).trans (congrArg _ (startFrame_head h))) fun _ hring hobjs hchanges =>
    ⟨hring, hobjs, hchanges⟩

/-- A START from a lower address makes the unit integrate. -/
theorem start_head_lower (hcs : (s.ring r).cs = .listen ∨ (s.ring r).cs = .coldstart) (haddr : f.addr.toNat < s.ownAddr) :
    Completes (.start (.head r) f) s (fun t => (t.ring r).cs = .integrate ∧ t.objs = s.objs ∧ Changes [.rings] s t) := by
  obtain ⟨t, hexec, hring, hrest⟩ := start_head (csOnStart_lower (serial := s.sec.fuses.serial) hcs haddr)
  exact ⟨t, hexec, congrArg RingSt.cs hring, hrest⟩

theorem start_head_duplicate {cs : CsState} (h : csOnStart (s.ring r).cs s.ownAddr s.sec.fuses.serial f = (cs, true)) :
    Completes (.start (.head r) f) s (fun t => (t.ring r).cs = cs ∧ t.bit (kRingStatus (ringNo r)) 2 = true ∧
      ChangesObjs [kRingStatus (ringNo r)] s t ∧ Changes [.rings, .objs] s t) :=
  completes_setRing_ringBit (by decide) ((exec_start _ f s).trans (congrArg _ (startFrame_head h)))
    fun _ hring hbit hobjs hchanges => ⟨congrArg RingSt.cs hring, hbit, hobjs, hchanges⟩

/-! ### The timers of the cold start at a head unit -/

theorem coldstartListenTimeout_head (h : (s.ring r).cs = .listen) : Completes (.coldstartListenTimeout (.head r)) s (fun t =>
    (t.ring r).cs = .coldstart ∧ Changes [.rings] s t) := by
  have hstart : coldstartListenTimeout (.head r) s = s.setRing r
      { s.ring r with cs := .coldstart, attempt := min 255 ((s.ring r).attempt + 1), startsSent := 0 } := if_pos h
  exact completes_setRing ((exec_coldstartListenTimeout _ s).trans (congrArg _ hstart)) fun _ hring _ hchanges =>
    ⟨congrArg RingSt.cs hring, hchanges⟩

theorem coldstartComplete_head (h : (s.ring r).cs = .coldstart) : Completes (.coldstartComplete (.head r)) s (fun t =>
    (t.ring r).cs = .running ∧ (t.ring r).syncFrom = s.cycle + 1 ∧ Changes [.rings] s t) := by
  have hrun : coldstartComplete (.head r) s = s.setRing r { s.ring r with
      cs := .running, startsSent := 64, senderCtr := ((s.ring r).senderCtr + (64 - (s.ring r).startsSent)) % 2 ^ 32,
      syncFrom := s.cycle + 1 } := if_pos h
  exact completes_setRing ((exec_coldstartComplete _ s).trans (congrArg _ hrun)) fun _ hring _ hchanges =>
    ⟨congrArg RingSt.cs hring, congrArg RingSt.syncFrom hring, hchanges⟩

theorem backoffElapsed_head (h : (s.ring r).cs = .backoff) : Completes (.backoffElapsed (.head r)) s (fun t =>
    (t.ring r).cs = .listen ∧ Changes [.rings] s t) := by
  have hlisten : backoffElapsed (.head r) s = s.setRing r { s.ring r with cs := .listen } := if_pos h
  exact completes_setRing ((exec_backoffElapsed _ s).trans (congrArg _ hlisten)) fun _ hring _ hchanges =>
    ⟨congrArg RingSt.cs hring, hchanges⟩

theorem syncLoss_head (h : (s.ring r).cs = .integrate) : Completes (.syncLoss ⟨.head r, true⟩) s (fun t =>
    (t.ring r).cs = .listen ∧ Changes [.rings] s t) := by
  have hlisten : syncLoss (.head r) true s = s.setRing r { s.ring r with cs := .listen, syncRun := 0, lastSync := none } :=
    if_pos ⟨h, rfl⟩
  exact completes_setRing ((exec_syncLoss _ true s).trans (congrArg _ hlisten)) fun _ hring _ hchanges =>
    ⟨congrArg RingSt.cs hring, hchanges⟩

theorem syncLoss_head_stays {m : Bool} (h : (s.ring r).cs ≠ .integrate ∨ m = false) : syncLoss (.head r) m s = s :=
  if_neg (by rintro ⟨hcs, rfl⟩; simp [hcs] at h)

/-! ### SYNC at a head unit (R97, log entry 78) -/

theorem sync_head_listen (h : (s.ring r).cs = .listen) (haddr : f.addr.toNat ≤ 1) (sd : Side) :
    Completes (.sync (.head r) sd f) s (fun t => (t.ring r).cs = .integrate ∧ (t.ring r).syncRun = 1 ∧
      (t.ring r).lastSync = some f.seq.toNat ∧ Changes [.rings] s t) := by
  have hsync : sync (.head r) sd f s =
      s.setRing r { s.ring r with cs := .integrate, syncRun := 1, lastSync := some f.seq.toNat } := by
    simp [sync, State.headSync, h, haddr]
  refine completes_setRing ((exec_sync _ sd f s).trans (congrArg _ hsync)) fun t hring _ hchanges => ?_
  rw [hring]
  exact ⟨rfl, rfl, rfl, hchanges⟩

/-- The eighth consistent SYNC of a head unit locks the grid; the sending of SYNC begins with the next matrix. -/
theorem sync_head_locks (h : (s.ring r).cs = .integrate) (hcount : (s.ring r).syncRun = 7)
    (hlast : (s.ring r).lastSync = some f.seq.toNat) (haddr : f.addr.toNat ≤ 1) (hrejoin : s.pair.rejoining = false)
    (hok : syncConsistent { f with seq := f.seq + 1 } = true) (sd : Side) :
    Completes (.sync (.head r) sd { f with seq := f.seq + 1 }) s (fun t => (t.ring r).cs = .running ∧ Changes [.rings] s t) := by
  obtain ⟨-, hnew⟩ := seq_succ f.seq
  obtain ⟨x, hx, hsync⟩ : ∃ x : RingSt, x.cs = .running ∧ sync (.head r) sd { f with seq := f.seq + 1 } s = s.setRing r x := by
    have hfollows : nextSync (some f.seq.toNat) { f with seq := f.seq + 1 } = true := by simp [nextSync]
    simp only [sync, State.headSync, h, hcount, hlast, hok, hfollows, Option.some.injEq, hnew, haddr, State.setRing_pair, hrejoin]
    exact ⟨_, rfl, rfl⟩
  exact completes_setRing ((exec_sync _ sd _ s).trans (congrArg _ hsync)) fun t hring _ hchanges =>
    ⟨(congrArg RingSt.cs hring).trans hx, hchanges⟩

end

/-! ### The timers of the cold start at a capable node -/

section
variable {s : State} {r : RingId} {a : BitVec 10}

theorem coldstartListenTimeout_node (hcap : s.capable r a.toNat = true) (h : (s.node r a.toNat).cs = .listen) :
    Completes (.coldstartListenTimeout (.node r a)) s (fun t => (t.node r a.toNat).cs = .coldstart ∧
      (t.node r a.toNat).attempt = min 255 ((s.node r a.toNat).attempt + 1) ∧ (t.node r a.toNat).startsSent = 0 ∧
      OnlyNode r a.toNat s t) := by
  have hstart : coldstartListenTimeout (.node r a) s = s.onNode r a.toNat (fun n => if n.cs = .listen then
      { n with cs := .coldstart, attempt := min 255 (n.attempt + 1), startsSent := 0 } else n) := if_neg (by simp [hcap])
  exact completes_onNode_if ((exec_coldstartListenTimeout _ s).trans (congrArg _ hstart)) (fun _ => ⟨rfl, rfl⟩) h
    fun _ hnode honly => ⟨congrArg NodeSt.cs hnode, congrArg NodeSt.attempt hnode, congrArg NodeSt.startsSent hnode, honly⟩

theorem coldstartComplete_node (h : (s.node r a.toNat).cs = .coldstart) :
    Completes (.coldstartComplete (.node r a)) s (fun t => (t.node r a.toNat).cs = .running ∧
      (t.node r a.toNat).startsSent = 64 ∧ OnlyNode r a.toNat s t) := by
  have hrun : coldstartComplete (.node r a) s = s.onNode r a.toNat (fun n => if n.cs = .coldstart then
      { n with cs := .running, startsSent := 64, senderCtr := (n.senderCtr + (64 - n.startsSent)) % 2 ^ 32 } else n) := rfl
  exact completes_onNode_if ((exec_coldstartComplete _ s).trans (congrArg _ hrun)) (fun _ => ⟨rfl, rfl⟩) h
    fun _ hnode honly => ⟨congrArg NodeSt.cs hnode, congrArg NodeSt.startsSent hnode, honly⟩

theorem backoffElapsed_node (h : (s.node r a.toNat).cs = .backoff) : Completes (.backoffElapsed (.node r a)) s (fun t =>
    (t.node r a.toNat).cs = .listen ∧ OnlyNode r a.toNat s t) := by
  have hlisten : backoffElapsed (.node r a) s =
      s.onNode r a.toNat (fun n => if n.cs = .backoff then { n with cs := .listen } else n) := rfl
  exact completes_onNode_if ((exec_backoffElapsed _ s).trans (congrArg _ hlisten)) (fun _ => ⟨rfl, rfl⟩) h
    fun _ hnode honly => ⟨congrArg NodeSt.cs hnode, honly⟩

end
end Sys2Proof.Machine

namespace Sys2Proof

open Machine

/-- Settles O35: one law for each way of START, SYNC and the timers at a head unit, and for the timers at a capable node. -/
theorem coldStart : Obligations.ColdStart := by
  intro s r f x
  refine ⟨?lower, ?higher, ?duplicate, ?yields, ?timeout, ?timeoutOther, ?complete, ?backoff, ?loss, ?lossOther, ?locks, ?hears,
    ?node⟩
  case lower => exact fun hcs haddr => start_head_lower (.inl hcs) haddr
  case higher =>
    intro hcs haddr
    obtain ⟨t, hexec, hring, hrest⟩ := start_head (s := s) (r := r) (f := f) (c := .coldstart)
      ((show (s.ring r).cs = .listen from hcs).symm ▸ csOnStart_higher haddr)
    refine ⟨t, hexec, ?_, ?_, ?_, hrest⟩
    all_goals rw [hring, RingSt.onStart, if_pos ⟨rfl, hcs⟩]
  case duplicate =>
    exact fun hcs haddr hserial => start_head_duplicate (csOnStart_duplicate hcs haddr hserial)
  case yields => exact fun hcs haddr => start_head_lower (.inr hcs) haddr
  case timeout => exact coldstartListenTimeout_head
  case timeoutOther => exact fun hcs => ⟨_, exec_coldstartListenTimeout _ s, if_neg hcs⟩
  case complete => exact coldstartComplete_head
  case backoff => exact backoffElapsed_head
  case loss => exact syncLoss_head
  case lossOther => exact fun m h => ⟨_, exec_syncLoss _ m s, syncLoss_head_stays h⟩
  case locks => exact fun sd hcs hcount hlast haddr hrejoin hok => sync_head_locks hcs hcount hlast haddr hrejoin hok sd
  case hears => exact fun sd hcs haddr => sync_head_listen hcs haddr sd
  case node => exact fun a => ⟨coldstartListenTimeout_node, coldstartComplete_node, backoffElapsed_node⟩

end Sys2Proof
end

section
/-! SUPPORT. DATA and REPEAT at the head (R115 to R117, R518): the inbound buffer that an accepted frame fills, and the object that a
plain RX range of its slot fills. -/

namespace Sys2Proof.Machine

theorem exec_data (f : Frame) (st : Time96) (s : State) : exec (.data f st) s = .next (s.takeFrame f st) := rfl
theorem exec_repeat (f : Frame) (st : Time96) (s : State) : exec (.repeat f st) s = .next (s.takeFrame f st) := rfl
theorem exec_null (f : Frame) (s : State) : exec (.null f) s = .next s := rfl

/-! ### Inbound slots -/

theorem inSlotOf_putIn_other {e : InSlot} {slot : Nat} (h : slot ≠ e.slot) (l : List InSlot) :
    inSlotOf (putIn e l) slot = inSlotOf l slot := by
  have hfind : (putIn e l).find? (fun i => i.slot == slot) = l.find? (fun i => i.slot == slot) := by
    have he : ¬e.slot = slot := h.symm
    induction l with
    | nil => simp [putIn, he]
    | cons i l ih =>
      by_cases hi : i.slot = e.slot
      · simp [putIn, hi, he]
      · simp only [putIn, hi, if_false, List.find?_cons, ih]
  rw [inSlotOf, hfind, inSlotOf]

/-- The inbound state of a slot whose newest accepted frame is `f`. -/
def InSlot.filled (i : InSlot) (f : Frame) : InSlot :=
  { i with payload := f.payload, seq := f.seq.toNat, age := f.age.toNat, kept := some f.seq.toNat, taken := some f.seq.toNat }

/-- The head's controller with the inbound buffer of a frame's slot filled. -/
def RingSt.slotFilled (x : RingSt) (f : Frame) : RingSt := { x with inb := putIn ((x.inSlot f.slot.toNat).filled f) x.inb }

theorem RingSt.slot_filled (x : RingSt) (f : Frame) : ((x.inSlot f.slot.toNat).filled f).slot = f.slot.toNat := slot_inSlotOf _ _

theorem RingSt.inSlot_slotFilled_same (x : RingSt) (f : Frame) :
    (x.slotFilled f).inSlot f.slot.toNat = (x.inSlot f.slot.toNat).filled f := by
  have hput := inSlotOf_putIn_same ((x.inSlot f.slot.toNat).filled f) x.inb
  rwa [x.slot_filled] at hput

theorem RingSt.inSlot_slotFilled_other (x : RingSt) (f : Frame) {slot : Nat} (h : slot ≠ f.slot.toNat) :
    (x.slotFilled f).inSlot slot = x.inSlot slot :=
  inSlotOf_putIn_other (by rwa [x.slot_filled]) x.inb

/-! ### RX ranges (R90, R518) -/

/-- The entries of SLOT_MAP hold sub-indices of one byte. -/
theorem sub_lt_of_mem_rxOf {s : State} {r : RingId} {slot no : Nat} {e : MapE} (h : (no, e) ∈ s.rxOf r slot) : e.sub < 256 := by
  obtain ⟨⟨e', no'⟩, hmem, hsome⟩ := List.mem_filterMap.mp h
  split at hsome
  case isTrue =>
    obtain ⟨-, rfl⟩ := Prod.mk.inj (Option.some.inj hsome)
    obtain ⟨b, -, rfl⟩ := List.mem_map.mp (List.fst_mem_of_mem_zipIdx hmem)
    exact num_lt b 8 1
  case isFalse => cases hsome

/-- A value that breaks the rule of its type is not stored. -/
theorem rxStore_refused {e : MapE} {v : Bytes} (h : rxOk e v = false) (s : State) (cycle seq : Nat) :
    s.rxStore e cycle seq v = s := if_pos (by rw [h]; rfl)

/-- Outside the correction channels and the volume blocks a value only enters its object. -/
theorem rxStore_plain {e : MapE} {v : Bytes} (hok : rxOk e v = true) (hindex : e.index < 0x3900 ∨ 0x4200 ≤ e.index)
    (hsub : e.sub < 256) (s : State) (cycle seq : Nat) :
    s.rxStore e cycle seq v = s.setObj (objKey e.index e.sub) (cleanValue e.index e.sub v) := by
  have hchannel : ¬(0x3900 ≤ e.index ∧ e.index ≤ 0x391F ∧ e.sub = 0x0B) := by omega
  have hblock : (List.range 16).find? (fun j => kSqTvBlock j == objKey e.index e.sub) = none := by
    rw [List.find?_eq_none]
    intro j hj
    have := List.mem_range.mp hj
    simp only [kSqTvBlock, objKey, beq_iff_eq]
    omega
  rw [State.rxStore, if_neg (by simp [hok])]
  dsimp only
  rw [if_neg hchannel, hblock]

theorem rxRange_plain {p : Nat × MapE} (h : p.2.token = false) (s : State) (f : Frame) (stamp ends : Nat) :
    s.rxRange f stamp ends p =
      s.rxStore p.2 (s.cycleOf f.seq.toNat - f.age.toNat) (s.cycleOf f.seq.toNat) (slice f.payload p.2.off p.2.len) :=
  if_neg (by simp [h])

/-! ### What a frame brings -/

/-- Without safety connections and brake test no covered data wait. -/
theorem takeCoveredSlot_none {s : State} (hconns : s.connRecs = []) (hbt : s.safe.bt = none) (r : RingId) (slot : Nat) :
    s.takeCoveredSlot r slot = s := by
  simp [State.takeCoveredSlot, hconns, State.btRecord, hbt]

theorem connRecs_congr {s t : State} (h : t.obj kSafeConn = s.obj kSafeConn) : t.connRecs = s.connRecs :=
  congrArg (records 16) h

/-- The head with the inbound buffer of a frame's slot filled. -/
def State.slotFilled (s : State) (f : Frame) : State := s.setRing f.ring ((s.ring f.ring).slotFilled f)

theorem takeCoveredSlot_slotFilled {s : State} (hconns : s.connRecs = []) (hbt : s.safe.bt = none) (f : Frame) :
    (s.slotFilled f).takeCoveredSlot f.ring f.slot.toNat = s.slotFilled f :=
  takeCoveredSlot_none ((connRecs_congr (s.obj_setRing _ _ _)).trans hconns)
    ((congrArg StSafe.bt (s.setRing_safe _ _)).trans hbt) _ _

section
variable {s : State} {f : Frame} (hup : s.dev.phase = .up) (hpass : s.pair.passThrough = false)
include hup hpass

/-- A frame of another cycle, and a second copy, bring nothing (R117). -/
theorem takeFrame_nothing (h : s.seqExpected f = false ∨ ((s.ring f.ring).inSlot f.slot.toNat).taken = some f.seq.toNat)
    (st : Time96) : s.takeFrame f st = s := by
  rw [State.takeFrame, if_neg (by simp [hup, hpass])]
  exact if_pos (by simpa using h)

section
variable (hseq : s.seqExpected f = true) (hfirst : ((s.ring f.ring).inSlot f.slot.toNat).taken ≠ some f.seq.toNat)
include hseq hfirst

/-- An accepted frame fills its slot, then the RX ranges of the slot, and then what a safety connection covers. -/
theorem takeFrame_fills (st : Time96) : ∃ stamp ends, s.takeFrame f st =
    ((s.rxOf f.ring f.slot.toNat).foldl (fun s p => s.rxRange f stamp ends p) (s.slotFilled f)).takeCoveredSlot f.ring
      f.slot.toNat := by
  refine ⟨(s.slotFilled f).stamp (arrivalPort f.ring f.ch) false false (time96Q st),
    ballIn (time96Q st) + wire10 f.payload.length * 65536 / 10, ?_⟩
  have hranges : (s.slotFilled f).rxOf f.ring f.slot.toNat = s.rxOf f.ring f.slot.toNat := by
    rw [State.rxOf, State.slotFilled, State.obj_setRing, State.rxOf]
  rw [State.takeFrame, if_neg (by simp [hup, hpass]), ← hranges]
  exact if_neg (by simp [hseq, hfirst])

variable (hconns : s.connRecs = []) (hbt : s.safe.bt = none)
include hconns hbt

theorem takeFrame_noRange (hrx : s.rxOf f.ring f.slot.toNat = []) (st : Time96) : s.takeFrame f st = s.slotFilled f := by
  obtain ⟨stamp, ends, htake⟩ := takeFrame_fills hup hpass hseq hfirst st
  rw [htake, hrx]
  exact takeCoveredSlot_slotFilled hconns hbt f

section
variable {no : Nat} {e : MapE} (hrx : s.rxOf f.ring f.slot.toNat = [(no, e)]) (htoken : e.token = false)
include hrx htoken

theorem takeFrame_refused (hok : rxOk e (slice f.payload e.off e.len) = false) (st : Time96) :
    s.takeFrame f st = s.slotFilled f := by
  obtain ⟨stamp, ends, htake⟩ := takeFrame_fills hup hpass hseq hfirst st
  rw [htake, hrx, List.foldl_cons, List.foldl_nil, rxRange_plain (p := (no, e)) htoken, rxStore_refused hok]
  exact takeCoveredSlot_slotFilled hconns hbt f

theorem takeFrame_plain (hindex : e.index < 0x3900 ∨ 0x4200 ≤ e.index) (hkey : objKey e.index e.sub ≠ kSafeConn)
    (hok : rxOk e (slice f.payload e.off e.len) = true) (st : Time96) : s.takeFrame f st =
      (s.slotFilled f).setObj (objKey e.index e.sub) (cleanValue e.index e.sub (slice f.payload e.off e.len)) := by
  obtain ⟨stamp, ends, htake⟩ := takeFrame_fills hup hpass hseq hfirst st
  have hsub : e.sub < 256 := sub_lt_of_mem_rxOf (hrx ▸ List.mem_singleton_self (no, e))
  rw [htake, hrx, List.foldl_cons, List.foldl_nil, rxRange_plain (p := (no, e)) htoken, rxStore_plain hok hindex hsub]
  have hobj (v : Bytes) : ((s.slotFilled f).setObj (objKey e.index e.sub) v).obj kSafeConn = s.obj kSafeConn :=
    (State.obj_setObj_other _ v hkey.symm).trans (s.obj_setRing _ _ _)
  exact takeCoveredSlot_none ((connRecs_congr (hobj _)).trans hconns) ((congrArg StSafe.bt (s.setRing_safe _ _)).trans hbt) _ _

end
end
end
end Sys2Proof.Machine

namespace Sys2Proof

open Machine

/-- Settles O37: DATA and REPEAT are one operation, with a law for each thing that a frame can bring. -/
theorem dataFramesFillSlots : Obligations.DataFramesFillSlots := by
  intro s f st c hc hup hpass hconns hbt
  have hexec : exec c s = .next (s.takeFrame f st) := by
    obtain rfl | rfl := hc
    · exact exec_data f st s
    · exact exec_repeat f st s
  refine ⟨?nothing, ?accepted, ⟨_, exec_null f s, rfl⟩⟩
  case nothing => exact fun h => ⟨_, hexec, takeFrame_nothing hup hpass h st⟩
  case accepted =>
    intro hseq hfirst
    refine ⟨?noRange, fun no e hrx htoken hindex hkey => ⟨?stored, ?refused⟩⟩
    case noRange =>
      intro hrx
      refine completes_setRing (hexec.trans (congrArg _ (takeFrame_noRange hup hpass hseq hfirst hconns hbt hrx st)))
        fun t hring hobjs hchanges => ?_
      rw [hring, RingSt.inSlot_slotFilled_same]
      exact ⟨rfl, rfl, rfl, fun slot hslot => RingSt.inSlot_slotFilled_other _ f hslot, hobjs, hchanges⟩
    case stored =>
      exact fun hok => completes_setRing_setObj
        (hexec.trans (congrArg _ (takeFrame_plain hup hpass hseq hfirst hconns hbt hrx htoken hindex hkey hok st)))
        fun t _ hobj hobjs hchanges => ⟨hobj, hobjs, hchanges⟩
    case refused =>
      exact fun hok => completes_setRing
        (hexec.trans (congrArg _ (takeFrame_refused hup hpass hseq hfirst hconns hbt hrx htoken hok st)))
        fun t _ hobjs hchanges => ⟨hobjs, hchanges⟩

end Sys2Proof
end

section
/-! SUPPORT. SLOT_OCCURRENCE of a NODE slot (R110, R111): what the head counts of the slot, and the exclusion of its node. -/

namespace Sys2Proof.Machine

theorem exec_slotOccurrence (r : RingId) (slot : BitVec 12) (seen : SlotSeen) (s : State) :
    exec (.slotOccurrence r slot seen) s = .next (slotOccurrence r slot seen s) := rfl

theorem slotOccurrence_silent {s : State} {r : RingId} (h : s.sends r = false) (slot : BitVec 12) (seen : SlotSeen) :
    slotOccurrence r slot seen s = s := if_pos (.inr (by rw [h]; rfl))

/-- The occurrence of a slot of the timetable, by its class. -/
theorem slotOccurrence_occurs {s : State} {r : RingId} {slot : BitVec 12} {e : SlotE} (hup : s.dev.phase = .up)
    (hsends : s.sends r = true) (hslot : slot ≠ 0) (hfind : (s.slots r).find? (fun e => e.slot == slot.toNat) = some e)
    (hoccurs : e.occurs s.cycle = true) (seen : SlotSeen) : slotOccurrence r slot seen s =
      if e.cls = 0 then (s.substituteNull r e).nodeOccurrence r e seen else s.ownOccurrence r e := by
  rw [slotOccurrence, if_neg (by simp [hup, hsends]), if_neg hslot, hfind]
  exact if_neg (by simp [hoccurs])

/-! ### The head's books of a node -/

/-- A change of an address's record is what the head then holds of the address. -/
theorem RingSt.rec?_onRec_same (x : RingSt) (a : Nat) {g : NodeRec → NodeRec} (hg : ∀ n, (g n).addr = n.addr) :
    (x.onRec a g).rec? a = (x.rec? a).map g := by
  have haddr : (fun n => n.addr == a) ∘ (fun n => if n.addr = a then g n else n) = fun n : NodeRec => n.addr == a := by
    funext n
    by_cases h : n.addr = a <;> simp [h, hg]
  rw [RingSt.rec?, RingSt.onRec, List.find?_map, haddr, RingSt.rec?]
  cases hfind : x.nodes.find? (fun n => n.addr == a) with
  | none => rfl
  | some n => simp [show n.addr = a by simpa using List.find?_some hfind]

theorem NodeRec.addr_judge (n : NodeRec) (good : Bool) : (n.judge good).addr = n.addr := by cases good <;> rfl

/-- The controller with a frame of a node judged. -/
def RingSt.judged (x : RingSt) (a : Nat) (good : Bool) : RingSt := x.onRec a (fun n => n.judge good)

theorem RingSt.rec?_judged {x : RingSt} {a : Nat} {n : NodeRec} (h : x.rec? a = some n) (good : Bool) :
    (x.judged a good).rec? a = some (n.judge good) := by
  rw [RingSt.judged, RingSt.rec?_onRec_same x a (fun n => n.addr_judge good), h, Option.map_some]

/-! ### Exclusion (R111, R113) -/

theorem State.ring_congr {s t : State} (h : t.rings = s.rings) (r : RingId) : t.ring r = s.ring r := by
  cases r
  · exact congrArg StRings.m h
  · exact congrArg StRings.p h

/-- The record of a node excluded at a cell time. -/
def NodeRec.excludedAt (n : NodeRec) (now most : Nat) : NodeRec :=
  { n with state := .excluded, substituted := true, exclusions := n.recent now ++ [now],
           barred := n.barred || decide (most ≤ (n.recent now ++ [now]).length) }

theorem NodeRec.addr_excludedAt (n : NodeRec) (now most : Nat) : (n.excludedAt now most).addr = n.addr := rfl

/-- The controller with a node excluded at the present cell time. -/
def State.excludedRing (s : State) (r : RingId) (a : Nat) : RingSt :=
  (s.ring r).onRec a (fun n => n.excludedAt s.cellNs (s.n (kExclMax (ringNo r))))

/-- The exclusion as RING_STATUS tells it: NODE_EXCLUDED, and NODE_BARRED for a node excluded too often. -/
def State.excludeMarked (s : State) (r : RingId) (a : Nat) : State :=
  let t := (s.setRing r (s.excludedRing r a)).ringBit r 3 true
  match (s.excludedRing r a).rec? a with
  | some n => if n.barred then t.ringBit r 4 true else t
  | none => t

theorem exclude_eq (s : State) (r : RingId) (a : Nat) : s.exclude r a =
    let t := (s.excludeMarked r a).headRequest r a 0x1F00 6 [1]
    if r = .m ∧ t.isIn [.run, .hold, .degraded] then t.stopDemand else t := rfl

theorem changes_headRequest (s : State) (r : RingId) (a index sub : Nat) (v : Bytes) :
    Changes [.dict] s (s.headRequest r a index sub v) := by
  unfold State.headRequest
  dsimp only
  split
  · exact .refl _ s
  · exact ⟨rfl, fun p hp => by cases p <;> simp [Part.same] at hp ⊢⟩

/-- A bit that is set stays set when another one is. -/
theorem bit_ringBit_keeps {s : State} {r : RingId} {b : Nat} (hb : b < 16) (h : s.bit (kRingStatus (ringNo r)) b = true) (c : Nat) :
    (s.ringBit r c true).bit (kRingStatus (ringNo r)) b = true := by
  have hlen : 256 ^ (objDefault (kRingStatus (ringNo r))).length = 2 ^ 16 := by rw [length_ringStatus]; decide
  have hset : (s.n (kRingStatus (ringNo r))).testBit b = true := h
  rw [State.bit, State.ringBit, State.setBit, State.n_setN_same, hlen, Nat.testBit_mod_two_pow]
  simp [setBit, Nat.testBit_or, hset, hb]

section
variable (s : State) (r : RingId) (a : Nat)

theorem changes_ringBit (b : Nat) (v : Bool) : Changes [.objs] s (s.ringBit r b v) := changes_setObj s _ _

theorem excludeMarked_marks : (s.excludeMarked r a).ring r = s.excludedRing r a ∧
    (s.excludeMarked r a).bit (kRingStatus (ringNo r)) 3 = true ∧ Changes [.rings, .objs] s (s.excludeMarked r a) := by
  have hring (t : State) (b : Nat) : (t.ringBit r b true).ring r = t.ring r := t.ring_setObj _ _ r
  have hmarked : ((s.setRing r (s.excludedRing r a)).ringBit r 3 true).ring r = s.excludedRing r a :=
    (hring _ 3).trans (s.ring_setRing r _)
  have hbit : ((s.setRing r (s.excludedRing r a)).ringBit r 3 true).bit (kRingStatus (ringNo r)) 3 = true :=
    State.bit_setBit_same _ _ 3 true (by rw [length_ringStatus]; decide)
  have hchanges : Changes [.rings, .objs] s ((s.setRing r (s.excludedRing r a)).ringBit r 3 true) :=
    ((changes_setRing s r _).mono (by decide)).trans ((changes_ringBit _ r 3 true).mono (by decide))
  unfold State.excludeMarked
  dsimp only
  split
  · split
    · exact ⟨(hring _ 4).trans hmarked, bit_ringBit_keeps (by decide) hbit 4,
        hchanges.trans ((changes_ringBit _ r 4 true).mono (by decide))⟩
    · exact ⟨hmarked, hbit, hchanges⟩
  · exact ⟨hmarked, hbit, hchanges⟩

/-- The request to the node leaves what the exclusion has marked. -/
theorem excludeMarked_requests (index sub : Nat) (v : Bytes) :
    let t := (s.excludeMarked r a).headRequest r a index sub v
    t.ring r = s.excludedRing r a ∧ t.bit (kRingStatus (ringNo r)) 3 = true ∧ t.dev = s.dev := by
  obtain ⟨hring, hbit, hmarks⟩ := excludeMarked_marks s r a
  obtain ⟨-, hrequest⟩ := changes_headRequest (s.excludeMarked r a) r a index sub v
  refine ⟨(State.ring_congr (hrequest .rings (by decide)) r).trans hring, ?_,
    (hrequest .dev (by decide)).trans (hmarks.2 .dev (by decide))⟩
  rw [State.bit, State.n_congr (hrequest .objs (by decide))]
  exact hbit

/-- What an exclusion brings: the record, the mark, and a stop of a cell that moves on ring M (R111). -/
theorem exclude_brings : (s.exclude r a).ring r = s.excludedRing r a ∧
    (s.exclude r a).bit (kRingStatus (ringNo r)) 3 = true ∧
    (r = .m → s.isIn [.run, .hold, .degraded] = true → (s.exclude r a).dev.stopDemand = true) := by
  obtain ⟨hring, hbit, hdev⟩ := excludeMarked_requests s r a 0x1F00 6 [1]
  rw [exclude_eq]
  dsimp only
  split
  case isTrue => exact ⟨(State.ring_congr rfl r).trans hring, hbit, fun _ _ => rfl⟩
  case isFalse hstays =>
    refine ⟨hring, hbit, fun hr hin => absurd ⟨hr, ?_⟩ hstays⟩
    rwa [State.isIn, hdev]

end

/-! ### A NODE slot (R110) -/

section
variable {s : State} {r : RingId} {a : Nat} {n : NodeRec} (hrec : (s.ring r).rec? a = some n)
include hrec

theorem violation_eq : s.violation r a =
    let t := s.setRing r ((s.ring r).judged a false)
    if min (n.consec + 1) 255 = 3 ∧ n.state ≠ .excluded ∧ !s.standby then t.exclude r a else t := by
  have hread : ((s.onRing r (fun x => x.onRec a (fun n => n.judge false))).ring r).rec? a = some (n.judge false) := by
    rw [State.onRing, State.ring_setRing]
    exact RingSt.rec?_judged hrec false
  have hstandby : (s.setRing r ((s.ring r).judged a false)).standby = s.standby := by
    rw [State.standby, State.n_setRing, State.standby]
  unfold State.violation
  dsimp only
  rw [hread, ← hstandby]
  rfl

/-- A violation that is not the third in a row is only counted. -/
theorem violation_counts (h : n.consec ≠ 2) : s.violation r a = s.setRing r ((s.ring r).judged a false) := by
  have hthird : min (n.consec + 1) 255 ≠ 3 := by omega
  rw [violation_eq hrec]
  exact if_neg (fun h => hthird h.1)

/-- The third violation in a row excludes the node (R111). -/
theorem violation_excludes (h : n.consec = 2) (hstate : n.state ≠ .excluded) (hstandby : s.standby = false) :
    s.violation r a = (s.setRing r ((s.ring r).judged a false)).exclude r a := by
  rw [violation_eq hrec]
  exact if_pos ⟨by rw [h]; rfl, hstate, by rw [hstandby]; rfl⟩

theorem rec?_excludedRing_judged : ((s.setRing r ((s.ring r).judged a false)).excludedRing r a).rec? a =
    some ((n.judge false).excludedAt (s.setRing r ((s.ring r).judged a false)).cellNs (s.n (kExclMax (ringNo r)))) := by
  rw [State.excludedRing, State.ring_setRing, State.n_setRing, RingSt.rec?_onRec_same _ _ (fun n => n.addr_excludedAt _ _),
    RingSt.rec?_judged hrec, Option.map_some]

end

section
variable {s : State} {r : RingId} {e : SlotE} {n : NodeRec} (hrec : (s.ring r).rec? e.addr = some n)
  (hsubst : n.substituted = false) (hsends : n.sends = true) (hstate : n.state = .integrated)
include hrec hsubst

theorem substituteNull_not : s.substituteNull r e = s := by
  simp [State.substituteNull, hrec, hsubst]

include hsends hstate

/-- The occurrence of a slot of an integrated node that sends. -/
theorem nodeOccurrence_eq (seen : SlotSeen) : (s.substituteNull r e).nodeOccurrence r e seen =
    if seen = .correct then s.setRing r ((s.ring r).judged e.addr true)
    else if (s.ring r).changing s.cycle then s else s.violation r e.addr := by
  rw [substituteNull_not hrec hsubst]
  simp [State.nodeOccurrence, hrec, hsubst, hsends, hstate, RingSt.judged]

end
end Sys2Proof.Machine

namespace Sys2Proof

open Machine

/-- Settles O38: the occurrence of a NODE slot, by what was seen in it and by the run of violations before. -/
theorem nodeSlotViolations : Obligations.NodeSlotViolations := by
  intro s r slot e n hup hsends hslot hfind hoccurs hcls hrec hsubst hnsends hstate hstandby
  have hexec (seen : SlotSeen) : exec (.slotOccurrence r slot seen) s = .next
      (if seen = .correct then s.setRing r ((s.ring r).judged e.addr true)
        else if (s.ring r).changing s.cycle then s else s.violation r e.addr) := by
    rw [exec_slotOccurrence, slotOccurrence_occurs hup hsends hslot hfind hoccurs, if_pos hcls,
      nodeOccurrence_eq hrec hsubst hnsends hstate]
  have hwrong {seen : SlotSeen} (hseen : seen ≠ .correct) (hchange : (s.ring r).changing s.cycle = false) :
      exec (.slotOccurrence r slot seen) s = .next (s.violation r e.addr) := by
    rw [hexec, if_neg hseen, if_neg (by rw [hchange]; decide)]
  refine ⟨?correct, ?changing, ?counts, ?third⟩
  case correct =>
    refine completes_setRing ((hexec .correct).trans (congrArg _ (if_pos rfl))) fun t hring hobjs hchanges => ?_
    rw [hring, RingSt.rec?_judged hrec]
    exact ⟨rfl, congrArg some hstate, hobjs, hchanges⟩
  case changing =>
    intro seen hseen hchange
    exact ⟨_, hexec seen, by rw [if_neg hseen, if_pos hchange]⟩
  case counts =>
    intro seen hseen hchange hrun hroom
    refine completes_setRing ((hwrong hseen hchange).trans (congrArg _ (violation_counts hrec hrun)))
      fun t hring hobjs hchanges => ?_
    rw [hring, RingSt.rec?_judged hrec]
    exact ⟨congrArg some (Nat.min_eq_left hroom), congrArg some hstate, hobjs, hchanges⟩
  case third =>
    intro seen hseen hchange hrun
    obtain ⟨hring, hbit, hstop⟩ := exclude_brings (s.setRing r ((s.ring r).judged e.addr false)) r e.addr
    refine ⟨_, (hwrong hseen hchange).trans
      (congrArg _ (violation_excludes hrec hrun (by rw [hstate]; decide) hstandby)), ?_, hbit, fun hr hin => hstop hr ?_⟩
    · rw [hring, rec?_excludedRing_judged hrec]
      rfl
    · rwa [State.isIn, State.setRing_dev]

end Sys2Proof
end

section
/-! SUPPORT. SLOT_OCCURRENCE of a DATA slot of this unit (R115, R116): what R116 selects, and what is then held of the slot. -/

namespace Sys2Proof.Machine

/-! ### The selection of R116 -/

section
variable {o : OutSlot} {cycle most : Nat}

theorem outSelect_fresh {c : Nat} {pl : Bytes} (hfresh : o.fresh = true) (hcomplete : o.complete = some (c, pl)) (priv : Bool) :
    outSelect o priv cycle most = (1, 0, pl) := by
  simp [outSelect, hfresh, hcomplete]

variable (hfresh : o.fresh = false)
include hfresh

theorem outSelect_repeat {pl : Bytes} {c : Nat} (hlast : o.lastData = some (pl, c)) (hage : min (cycle - c) 255 ≤ most) :
    outSelect o true cycle most = (3, min (cycle - c) 255, pl) := by
  simp [outSelect, hfresh, hlast, hage]

theorem outSelect_null {priv : Bool} (h : o.lastData = none ∨ priv = false) : outSelect o priv cycle most = (2, 0, []) := by
  obtain hlast | hpriv := h
  · simp [outSelect, hfresh, hlast]
  · cases hlast : o.lastData <;> simp [outSelect, hfresh, hlast, hpriv]

end

/-! ### Outbound slots -/

@[simp] theorem RingSt.slot_outSlot (x : RingSt) (slot : Nat) : (x.outSlot slot).slot = slot := by
  unfold RingSt.outSlot
  cases h : x.out.find? (fun o => o.slot == slot) with
  | none => rfl
  | some o => simpa using List.find?_some h

theorem RingSt.outSlot_congr {x y : RingSt} (h : y.out = x.out) (slot : Nat) : y.outSlot slot = x.outSlot slot := by
  rw [RingSt.outSlot, h, RingSt.outSlot]

/-- The head's controller with the state of an outbound slot put in place. -/
def RingSt.withOut (x : RingSt) (e : OutSlot) : RingSt := { x with out := putOut e x.out }

theorem RingSt.outSlot_withOut_same (x : RingSt) (e : OutSlot) : (x.withOut e).outSlot e.slot = e := by
  have hfind (l : List OutSlot) : (putOut e l).find? (fun o => o.slot == e.slot) = some e := by
    induction l with
    | nil => simp [putOut]
    | cons o l ih => by_cases h : o.slot = e.slot <;> simp [putOut, h, ih]
  rw [RingSt.outSlot, RingSt.withOut, hfind]
  rfl

/-! ### Sending -/

theorem RingSt.out_send (x : RingSt) (sd : Side) (kind : Nat) (at10 opens closes : Int) (f : Frame) :
    (x.send sd kind at10 opens closes f).out = x.out := by
  cases sd <;> rfl

/-- Frames that start leave what is held of the outbound slots. -/
theorem sendSlot_keeps (s : State) (r : RingId) (slot type age off flags : Nat) (pl : Bytes) (legs : List (Channel × Side)) :
    ((s.sendSlot r slot type age off flags pl legs).ring r).out = (s.ring r).out ∧
    Changes [.rings] s (s.sendSlot r slot type age off flags pl legs) := by
  unfold State.sendSlot
  dsimp only
  generalize ((s.n (kPrecision (ringNo r)) * 10 : Nat) : Int) = prec
  induction legs generalizing s with
  | nil => exact ⟨rfl, .refl _ s⟩
  | cons l legs ih =>
    rw [List.foldl_cons]
    obtain ⟨hout, hchanges⟩ := ih _
    refine ⟨hout.trans ?_, (changes_setRing s r _).trans hchanges⟩
    rw [State.ring_setRing, RingSt.out_send]

/-! ### A DATA slot of this unit -/

/-- What is held of an outbound slot that has sent a selection of R116 in a cycle. -/
def OutSlot.sentAt (o : OutSlot) (sel : Nat × Nat × Bytes) (cycle : Nat) : OutSlot :=
  let o := if sel.1 = 1 then { o with fresh := false, lastData := some (sel.2.2, cycle) } else o
  { o with sent := some (sel.1, sel.2.1, cycle % 2 ^ 32, sel.2.2), sel := some sel }

theorem OutSlot.slot_sentAt (o : OutSlot) (sel : Nat × Nat × Bytes) (cycle : Nat) : (o.sentAt sel cycle).slot = o.slot := by
  unfold OutSlot.sentAt
  split <;> rfl

section
variable {s : State} {r : RingId} {e : SlotE}

/-- The selection of R116 for a slot of this unit. -/
def State.selection (s : State) (r : RingId) (e : SlotE) : Nat × Nat × Bytes :=
  outSelect ((s.ring r).outSlot e.slot) (privileged s.conf (ringNo r) e) s.cycle (s.n (kRepeatMax (ringNo r)))

/-- A unit without a partner sends its selection. -/
theorem dataOccurrence_single (h : s.paired = false) : ∃ type age off flags pl legs, s.dataOccurrence r e =
    (s.setRing r ((s.ring r).withOut (((s.ring r).outSlot e.slot).sentAt (s.selection r e) s.cycle))).sendSlot r e.slot type age
      off flags pl legs := by
  have hnulling : ¬(s.nulling = true ∧ e.cls = 2) := by simp [State.nulling, h]
  unfold State.dataOccurrence
  dsimp only
  rw [if_neg hnulling]
  exact ⟨_, _, _, _, _, _, rfl⟩

theorem dataOccurrence_holds (h : s.paired = false) :
    ((s.dataOccurrence r e).ring r).outSlot e.slot = ((s.ring r).outSlot e.slot).sentAt (s.selection r e) s.cycle ∧
    Changes [.rings] s (s.dataOccurrence r e) := by
  obtain ⟨type, age, off, flags, pl, legs, hdata⟩ := dataOccurrence_single (r := r) (e := e) h
  obtain ⟨hout, hchanges⟩ := sendSlot_keeps
    (s.setRing r ((s.ring r).withOut (((s.ring r).outSlot e.slot).sentAt (s.selection r e) s.cycle))) r e.slot type age off flags pl
    legs
  rw [State.ring_setRing] at hout
  rw [hdata]
  refine ⟨(RingSt.outSlot_congr hout e.slot).trans ?_, (changes_setRing s r _).trans hchanges⟩
  have hput := (s.ring r).outSlot_withOut_same (((s.ring r).outSlot e.slot).sentAt (s.selection r e) s.cycle)
  rwa [OutSlot.slot_sentAt, RingSt.slot_outSlot] at hput

variable {slot : BitVec 12} (hup : s.dev.phase = .up) (hsends : s.sends r = true) (hslot : slot ≠ 0)
  (hfind : (s.slots r).find? (fun e => e.slot == slot.toNat) = some e) (hoccurs : e.occurs s.cycle = true) (hcls : e.cls = 1)
  (hftype : e.ftype = 1) (hpaired : s.paired = false)
include hup hsends hslot hfind hoccurs hcls hftype hpaired

/-- The occurrence of a DATA slot of class ACTIVE at a unit without a partner. -/
theorem slotOccurrence_data (seen : SlotSeen) : Completes (.slotOccurrence r slot seen) s (fun t =>
    (t.ring r).outSlot slot.toNat = ((s.ring r).outSlot slot.toNat).sentAt (s.selection r e) s.cycle ∧
    t.objs = s.objs ∧ Changes [.rings] s t) := by
  have hnum : e.slot = slot.toNat := by simpa using List.find?_some hfind
  have hclass : s.sendsClass 1 = true := by simp [State.sendsClass, hpaired]
  have hown : s.ownOccurrence r e = s.dataOccurrence r e := by simp [State.ownOccurrence, hcls, hclass, hftype]
  obtain ⟨hout, hchanges⟩ := dataOccurrence_holds (r := r) (e := e) hpaired
  refine ⟨_, (exec_slotOccurrence r slot seen s).trans (congrArg _ (slotOccurrence_occurs hup hsends hslot hfind hoccurs seen)), ?_⟩
  rw [if_neg (by rw [hcls]; decide), hown, ← hnum]
  exact ⟨hout, hchanges.2 .objs (by decide), hchanges⟩

end
end Sys2Proof.Machine

namespace Sys2Proof

open Machine

/-- Settles O39: the slot is then held as having sent the selection of R116, which is one of three. -/
theorem dataSlotSelection : Obligations.DataSlotSelection := by
  intro s r slot seen e hup hslot
  refine ⟨fun h => ⟨_, exec_slotOccurrence r slot seen s, slotOccurrence_silent h slot seen⟩, ?_⟩
  intro hsends hfind hoccurs hcls hftype hpaired o
  have hnum : e.slot = slot.toNat := by simpa using List.find?_some hfind
  obtain ⟨t, hexec, hout, hrest⟩ := slotOccurrence_data hup hsends hslot hfind hoccurs hcls hftype hpaired seen
  rw [State.selection, hnum] at hout
  refine ⟨?data, ?again, ?null⟩
  case data =>
    intro c pl hfresh hcomplete
    rw [outSelect_fresh hfresh hcomplete] at hout
    exact ⟨t, hexec, congrArg OutSlot.sent hout, congrArg OutSlot.fresh hout, hrest⟩
  case again =>
    intro pl c hfresh hlast hpriv hage
    rw [hpriv, outSelect_repeat hfresh hlast hage] at hout
    exact ⟨t, hexec, congrArg OutSlot.sent hout, hrest⟩
  case null =>
    intro hfresh hnone
    rw [outSelect_null hfresh hnone] at hout
    exact ⟨t, hexec, congrArg OutSlot.sent hout, hrest⟩

end Sys2Proof
end

section
/-! SUPPORT. Delay measurement (R93, R101 to R103): the exchanges that a round opens, the sample that a response gives, and the answers
to a request at this unit and at a node. -/

namespace Sys2Proof.Machine

theorem exec_delayRound (r : RingId) (s : State) : exec (.delayRound r) s = .next (delayRound r s) := rfl
theorem exec_delayResponse (f : Frame) (t4 : Time96) (sw : Bool) (s : State) :
    exec (.delayResponse f t4 sw) s = .next (delayResponse f t4 sw s) := rfl
theorem exec_delayRequest (st : Station) (f : Frame) (i e : Time96) (s : State) :
    exec (.delayRequest st f i e) s = .next (delayRequest st f i e s) := rfl

/-! ### Rounds (R103) -/

/-- A single head measures every node on both channels. -/
theorem length_exchangesFor_single (first : Nat) (kind : ExKind) (nodes : List Nat) :
    (exchangesFor 0 first kind nodes).length = 2 * nodes.length := by
  simp [exchangesFor, List.length_flatMap, Nat.mul_comm]

theorem exchangesFor_open {hp first : Nat} {kind : ExKind} {nodes : List Nat} {e : DelayEx}
    (h : e ∈ exchangesFor hp first kind nodes) : e.answered = false := by
  obtain ⟨p, -, rfl⟩ := List.mem_map.mp h
  rfl

section
variable {s : State} {r : RingId}

theorem exchanges_openRound {x : RingSt} (h : x.exchanges = []) (kind : ExKind) (nodes : List Nat) (hp : Nat) :
    (x.openRound kind nodes hp).exchanges = exchangesFor hp x.exch kind nodes := by
  rw [RingSt.openRound, h]
  rfl

theorem delayRound_first (hrun : (s.ring r).cs = .running) (hnodes : (s.order r).isEmpty = false)
    (hpos : s.n (kHeadPos (ringNo r)) = 0) (hnone : (s.ring r).exchanges = []) :
    delayRound r s = s.setRing r ((s.ring r).openRound .round (s.order r) 0) := by
  have htargets : s.roundTargets r (s.order r) = s.order r := by simp [State.roundTargets, hpos]
  have horder (x : RingSt) : (s.setRing r x).order r = s.order r := by rw [State.order, State.obj_setRing, State.order]
  simp [delayRound, hrun, hnone, State.onRing, htargets, hpos, horder, hnodes]

/-! ### Responses (R101, R102) -/

/-- A node's record with a round-trip sample. -/
def NodeRec.sampled (n : NodeRec) (onB : Bool) (hp : Nat) (rho fwd : Int) : NodeRec :=
  let n := if onB then { n with rhoB := some rho, fwdB := fwd } else { n with rhoA := some rho, fwdA := fwd }
  let n := if hp = 0 then n else { n with fwdA := fwd, fwdB := fwd }
  { n with heard := true, state := if n.state = .listen then .locked else n.state }

theorem NodeRec.addr_sampled (n : NodeRec) (onB : Bool) (hp : Nat) (rho fwd : Int) :
    (n.sampled onB hp rho fwd).addr = n.addr := by
  unfold NodeRec.sampled
  cases onB <;> by_cases hp = 0 <;> simp [*]

theorem NodeRec.sampled_marks (n : NodeRec) (onB : Bool) (hp : Nat) (rho fwd : Int) :
    (n.sampled onB hp rho fwd).heard = true ∧ (n.sampled onB hp rho fwd).state ≠ .listen ∧
    (onB = true → (n.sampled onB hp rho fwd).rhoB.isSome = true) ∧
    (onB = false → (n.sampled onB hp rho fwd).rhoA.isSome = true) := by
  unfold NodeRec.sampled
  refine ⟨rfl, ?_, ?_, ?_⟩
  · cases hn : n.state <;> cases onB <;> by_cases hp = 0 <;> simp [*]
  · rintro rfl
    by_cases hp = 0 <;> simp [*]
  · rintro rfl
    by_cases hp = 0 <;> simp [*]

/-- Once the controller has taken a sample, the record of the station holds it. -/
theorem rec?_sample (x : RingSt) (e : DelayEx) (hp : Nat) (rho fwd : Int) :
    (x.sample e hp rho fwd).rec? e.target = (x.rec? e.target).map (fun n => n.sampled e.onB hp rho fwd) := by
  have hrec := RingSt.rec?_onRec_same
    { x with exchanges := x.exchanges.map (fun (y : DelayEx) => if y.exch = e.exch then { y with answered := true } else y) }
    e.target (fun n => n.addr_sampled e.onB hp rho fwd)
  unfold RingSt.sample
  dsimp only
  split <;> exact hrec

theorem exchanges_sample (x : RingSt) (e : DelayEx) (hp : Nat) (rho fwd : Int) : (x.sample e hp rho fwd).exchanges =
    x.exchanges.map (fun (y : DelayEx) => if y.exch = e.exch then { y with answered := true } else y) := by
  unfold RingSt.sample
  dsimp only
  split <;> rfl

/-- A round goes on while an ordinary node has not answered another exchange. -/
theorem answered_sample_false {x : RingSt} {e y : DelayEx} (hmem : y ∈ x.exchanges) (hopen : y.answered = false)
    (hnode : 2 ≤ y.target) (hkind : y.kind = .round) (hother : y.exch ≠ e.exch) (hp : Nat) (rho fwd : Int) :
    (x.sample e hp rho fwd).answered .round none = false := by
  have hstays : y ∈ (x.sample e hp rho fwd).exchanges := by
    rw [exchanges_sample]
    exact List.mem_map.mpr ⟨y, hmem, if_neg hother⟩
  rw [RingSt.answered, List.all_eq_false]
  exact ⟨y, hstays, by simp [hopen, hkind, Nat.not_le.mpr hnode]⟩

theorem measureDone_open {e : DelayEx} (hkind : e.kind = .round) (h : (s.ring r).answered .round none = false) :
    s.measureDone r e = s := by
  simp [State.measureDone, hkind, h]

variable {f : Frame} {e : DelayEx} (hkind : num f.payload 0 1 = 1)
  (hfind : (s.ring f.ring).exchanges.find? (fun e => e.target == num f.payload 2 2 % 1024 && e.exch == num f.payload 4 4) = some e)
include hkind hfind

/-- A second response of one exchange marks the address as a duplicate (R101). -/
theorem delayResponse_second (h : e.answered = true) (t4 : Time96) : delayResponse f t4 false s =
    (s.setRing f.ring ((s.ring f.ring).onRec (num f.payload 2 2 % 1024) (fun n => { n with dup := true }))).ringBit f.ring 2 true := by
  unfold delayResponse
  dsimp only
  rw [if_neg (by simp [hkind]), hfind]
  exact if_pos h

/-- The first response is a sample, which ends the measurement when it is the last. -/
theorem delayResponse_first (h : e.answered = false) (t4 : Time96) : ∃ rho fwd, delayResponse f t4 false s =
    (s.setRing f.ring ((s.ring f.ring).sample e (s.n (kHeadPos (ringNo f.ring))) rho fwd)).measureDone f.ring e := by
  unfold delayResponse
  dsimp only
  rw [if_neg (by simp [hkind]), hfind]
  dsimp only
  rw [if_neg (by simp [h])]
  exact ⟨_, _, rfl⟩

end

/-! ### Requests (R93, R101) -/

theorem leVal_append_zeros (b : Bytes) (n : Nat) : leVal (b ++ zeros n) = leVal b := by
  induction b with
  | nil =>
    induction n with
    | zero => rfl
    | succ n ih => simpa [zeros, List.replicate_succ, leVal] using ih
  | cons x b ih => rw [List.cons_append, leVal, ih, leVal]

/-- A slice read as a number. -/
theorem num_slice (b : Bytes) (o n : Nat) : num (slice b o n) 0 n = num b o n := by
  rw [num, List.drop_zero, List.take_of_length_le (slice_length b o n).le, slice, leVal_append_zeros, num]

theorem time96_length (q : Nat) : (time96 q).length = 12 := by simp [time96]

section
variable (req : Bytes) (t2 t3 fwd : Nat)

theorem num_delayAnswer_exch : num (delayAnswer req t2 t3 fwd) 4 4 = num req 4 4 := by
  have hhead : ([1, 0] ++ slice req 2 2 : Bytes).length = 4 := by simp
  rw [delayAnswer, num_append_left _ _ (by simp [time96_length]), num_append_left _ _ (by simp [time96_length]),
    num_append_left _ _ (by simp), num_append_left _ _ (by simp), num_append_right _ _ hhead.le, hhead]
  exact num_slice req 4 4

theorem num_delayAnswer_fwd : num (delayAnswer req t2 t3 fwd) 44 4 = fwd % 2 ^ 32 := by
  rw [delayAnswer, num_append_right _ _ (by simp [time96_length])]
  simp only [List.length_append, slice_length, time96_length]
  exact num_le 4 fwd

end

/-! ### The answers of this unit and of a node (R93) -/

/-- The limit of R93. -/
theorem nodeFwd_le (s : State) : s.nodeFwd.1 ≤ 300000 := Nat.le_of_lt_succ (Nat.mod_lt _ (by decide))

/-- A node that has sent the answer to a DELAY request. -/
def NodeSt.delayAnswered (n : NodeSt) (answer : Bytes) (g : Frame) : NodeSt :=
  { n with delayAnswer := answer, line := n.line ++ [g], senderCtr := (n.senderCtr + 1) % 2 ^ 32 }

theorem State.setNode_delayAnswered (s : State) (n : NodeSt) (answer : Bytes) (g : Frame) :
    (s.setNode n).setNode (n.delayAnswered answer g) = s.setNode (n.delayAnswered answer g) := s.setNode_setNode rfl rfl

section
variable (s : State) (r : RingId) {f : Frame} (hkind : num f.payload 0 1 = 0)
include hkind

theorem delayRequest_head (htarget : num f.payload 2 2 % 1024 = s.ownAddr) (hrun : (s.ring r).cs = .running)
    (hpass : s.pair.passThrough = false) (hroom : s.fifoFull (arrivalPort r f.ch) = false) (i e : Time96) : ∃ t2 t3 line ctr,
    delayRequest (.head r) f i e s = (s.stampIn (arrivalPort r f.ch) true false 0xFFF e).setRing r
      { s.ring r with delayAnswer := delayAnswer f.payload t2 t3 240000, line := line, senderCtr := ctr } := by
  unfold delayRequest
  dsimp only
  rw [if_neg (by simp [hkind]), if_neg (by simp [htarget, hrun, hpass]), takeStamp_room hroom]
  exact ⟨_, _, _, _, rfl⟩

/-- A node from LOCKED on answers behind the frame that passes it, with a forwarding delay of its own. -/
theorem delayRequest_node {a : BitVec 10} (htarget : num f.payload 2 2 % 1024 = a.toNat)
    (hstate : (s.node r a.toNat).state ≠ .listen) (i e : Time96) : ∃ (n : NodeSt) (t2 t3 fwd : Nat),
    n.ring = r ∧ n.addr = a.toNat ∧ fwd ≤ 300000 ∧ n.delayAnswer = delayAnswer f.payload t2 t3 fwd ∧
    delayRequest (.node r a) f i e s = ({ s with free := s.free + 2 } : State).setNode n := by
  obtain ⟨n, hn, hpass⟩ := passNode_eq s r a.toNat f
  obtain ⟨hring, haddr⟩ := hn.names
  have hread : (({ s with free := s.free + 1 } : State).setNode n).node r a.toNat = n := node_setNode_passed hn _
  have hnstate : n.state ≠ .listen := fun h => hstate ((congrArg NodeGrid.state hn.grid).symm.trans h)
  have hreadNext : (({ s with free := s.free + 2 } : State).setNode n).node r a.toNat = n := node_setNode_passed hn _
  obtain ⟨g, hrequest⟩ : ∃ g, delayRequest (.node r a) f i e s = (({ s with free := s.free + 2 } : State).setNode n).setNode
      (((({ s with free := s.free + 2 } : State).setNode n).node r a.toNat).delayAnswered
        (delayAnswer f.payload (time96Q i) (time96Q e) ({ s with free := s.free + 1 } : State).nodeFwd.1) g) := by
    unfold delayRequest
    dsimp only
    rw [if_neg (by simp [hkind]), hpass, if_neg (by rw [hread]; simp [htarget, hnstate])]
    exact ⟨_, rfl⟩
  rw [hreadNext, State.setNode_delayAnswered] at hrequest
  exact ⟨n.delayAnswered _ g, time96Q i, time96Q e, _, hring, haddr, nodeFwd_le _, rfl, hrequest⟩

end

theorem changes_setNode (s : State) (k : Nat) (n : NodeSt) : Changes [.rings, .free] s (({ s with free := k } : State).setNode n) :=
  ⟨rfl, fun p hp => by cases p <;> simp [Part.same] at hp ⊢⟩

end Sys2Proof.Machine

namespace Sys2Proof

open Machine

/-- Settles O40: rounds, responses, and requests at this unit and at a node have their laws above. -/
theorem delayMeasurement : Obligations.DelayMeasurement := by
  intro s r
  refine ⟨?round, ?notRunning, ?response, ?head, ?node⟩
  case round =>
    intro hrun hnodes hpos hnone
    refine completes_setRing ((exec_delayRound r s).trans (congrArg _ (delayRound_first hrun hnodes hpos hnone)))
      fun t hring hobjs hchanges => ?_
    rw [hring, exchanges_openRound hnone]
    exact ⟨length_exchangesFor_single _ _ _, fun e => exchangesFor_open, hobjs, hchanges⟩
  case notRunning => exact fun h => ⟨_, exec_delayRound r s, if_pos h⟩
  case response =>
    rintro f t4 e rfl hkind hfind
    refine ⟨fun hanswered => ?second, fun hopen hround hothers n _ => ?first⟩
    case second =>
      exact completes_setRing_ringBit (by decide)
        ((exec_delayResponse f t4 false s).trans (congrArg _ (delayResponse_second hkind hfind hanswered t4)))
        fun t _ hbit hobjs hchanges => ⟨hbit, hobjs, hchanges⟩
    case first =>
      obtain ⟨y, hmem, hy, hnode, hykind, hother⟩ := hothers
      obtain ⟨htarget, hexch⟩ : e.target = num f.payload 2 2 % 1024 ∧ e.exch = num f.payload 4 4 := by
        simpa using List.find?_some hfind
      obtain ⟨rho, fwd, hsample⟩ := delayResponse_first hkind hfind hopen t4
      have hopens := answered_sample_false hmem hy hnode hykind (hexch ▸ hother) (s.n (kHeadPos (ringNo f.ring))) rho fwd
      rw [measureDone_open hround (by rwa [State.ring_setRing])] at hsample
      refine completes_setRing ((exec_delayResponse f t4 false s).trans (congrArg _ hsample)) fun t hring hobjs hchanges =>
        ⟨fun n' hn' => ?_, hobjs, hchanges⟩
      rw [hring, ← htarget, rec?_sample] at hn'
      obtain ⟨n, -, rfl⟩ := Option.map_eq_some_iff.mp hn'
      exact n.sampled_marks _ _ _ _
  case head =>
    intro f i e hkind htarget hrun hpass hroom
    obtain ⟨t2, t3, line, ctr, hrequest⟩ := delayRequest_head s r hkind htarget hrun hpass hroom i e
    refine ⟨_, (exec_delayRequest _ f i e s).trans (congrArg _ hrequest), ?_, ?_, State.setRing_objs _ _ _,
      ((changes_stampIn s _ _ _ _ _).mono (by decide)).trans ((changes_setRing _ r _).mono (by decide))⟩
    · rw [State.ring_setRing]
      exact num_delayAnswer_fwd _ _ _ _
    · rw [State.ring_setRing]
      exact num_delayAnswer_exch _ _ _ _
  case node =>
    intro a f i e hkind htarget hstate
    obtain ⟨n, t2, t3, fwd, hring, haddr, hfwd, hanswer, hrequest⟩ := delayRequest_node s r hkind htarget hstate i e
    refine ⟨_, (exec_delayRequest _ f i e s).trans (congrArg _ hrequest), ?_⟩
    dsimp only
    rw [(onlyNode_setNode (s := s) hring haddr (s.free + 2)).1, hanswer, num_delayAnswer_fwd]
    exact ⟨num_delayAnswer_exch _ _ _ _, (Nat.mod_le _ _).trans hfwd, rfl, changes_setNode s _ n⟩

end Sys2Proof
end

section
/-! SUPPORT. Motion rows at their apply cycle (R137, R140, R146, R156, R161, R524), the Crossings' requests (R217, R220), and the
runs of the Square (R194, R195). -/

namespace Sys2Proof.Machine

theorem exec_writeApply (s : State) : exec .writeApply s = .next (writeApply s) := rfl
theorem exec_jogTimeout (a : Fin 8) (s : State) : exec (.jogTimeout a) s = .next (jogTimeout a s) := rfl
theorem exec_squareRun (s : State) : exec .squareRun s = .next (squareRun s) := rfl
theorem exec_sqLate (s : State) : exec .sqLate s = .next (sqLate s) := rfl

/-! ### Frames -/

section
variable (s : State)

theorem changes_onMot (f : StMotion → StMotion) : Changes [.motion] s (s.onMot f) :=
  ⟨rfl, fun p hp => by cases p <;> simp [Part.same] at hp ⊢⟩

theorem changes_onMArm (a : Nat) (f : ArmSt → ArmSt) : Changes [.motion] s (s.onMArm a f) := changes_onMot s _

theorem changes_onSq (f : StSquare → StSquare) : Changes [.square] s (s.onSq f) :=
  ⟨rfl, fun p hp => by cases p <;> simp [Part.same] at hp ⊢⟩

theorem changes_stopDemand : Changes [.dev] s s.stopDemand :=
  ⟨rfl, fun p hp => by cases p <;> simp [Part.same, State.stopDemand] at hp ⊢⟩

theorem changes_solveStarts : Changes [.solver] s s.solveStarts :=
  ⟨rfl, fun p hp => by cases p <;> simp [Part.same, State.solveStarts] at hp ⊢⟩

theorem changes_countWork (e : Nat) (l : List (Nat × Nat × Nat)) : Changes [.objs, .cnts] s (s.countWork e l) :=
  ⟨rfl, fun p hp => by cases p <;> simp [Part.same, State.countWork, State.count] at hp ⊢⟩

theorem changesObjs_countWork (e : Nat) (l : List (Nat × Nat × Nat)) : ChangesObjs [kCntOvf e] s (s.countWork e l) :=
  fun k hk => changesObjs_setN ({ s with cnts := (s.countWork e l).cnts } : State) _ _ k hk

/-- A plain store leaves every object but its own. -/
theorem storeWrite_frame (index sub : Nat) (v : Bytes) :
    Changes [.objs] s (storeWrite index sub v s) ∧ ChangesObjs [objKey index sub] s (storeWrite index sub v s) := by
  unfold storeWrite
  split
  case h_1 r _ =>
    dsimp only
    split
    · exact ⟨.refl _ s, .refl _ s⟩
    · exact ⟨changes_setObj s _ _, changesObjs_setObj s _ _⟩
  case h_2 => exact ⟨.refl _ s, .refl _ s⟩

end

/-! ### WRITE_APPLY of one waiting write (R389) -/

/-- An object of this key may enter the staged copy in CONFIG (R388). -/
def mayStage (key : Nat) : Bool := (objRow? (keyIndex key) (keySub key)).any (fun r => r.acc == .rws && r.writable.testBit 1)

theorem mayStage_motion :
    (∀ a : Fin 8, mayStage (kMoveCmd a) = false ∧ mayStage (kJogCmd a) = false ∧ mayStage (kCrReq a) = false) ∧
    (∀ g : Fin 4, mayStage (kGrpCmd g) = false) ∧ ∀ c : Fin 32, mayStage (kHcCtrl c) = false := by decide

/-- The state without its waiting writes. -/
def State.noWrites (s : State) : State := { s with dict := { s.dict with pendingWrites := [] } }

theorem changes_noWrites (s : State) : Changes [.dict] s s.noWrites := changes_dict s _

/-- One due write of an object that is never staged has its effect, beside which only the waiting write goes. -/
theorem completes_writeApply {s t : State} {w : PendingWrite} {ps qs : List Part} {P : State → Prop}
    (hw : s.dict.pendingWrites = [w]) (hdue : w.applyCycle ≤ s.cycle) (hstage : mayStage w.key = false)
    (heff : writeEff w.rq (keyIndex w.key) (keySub w.key) w.data s.noWrites = t) (hparts : Changes ps s.noWrites t)
    (hsub : .dict :: ps ⊆ qs) (h : Changes qs s t → P t) : Completes .writeApply s P := by
  have hnot : ¬(w.rq = .partner ∧ (objRow? (keyIndex w.key) (keySub w.key)).any (staging s.noWrites)) := by
    rintro ⟨-, h⟩
    cases hrow : objRow? (keyIndex w.key) (keySub w.key) <;> simp_all [mayStage, staging]
  have hone : s.noWrites.applyOne w = t := (if_neg hnot).trans heff
  have hall : writeApply s = s.noWrites.applyOne w := by
    simp [writeApply, hw, hdue, State.noWrites]
  obtain ⟨hdict, hrest⟩ := List.cons_subset.mp hsub
  exact ⟨t, (exec_writeApply s).trans (congrArg _ (hall.trans hone)),
    h (((changes_noWrites s).mono (List.cons_subset.mpr ⟨hdict, List.nil_subset _⟩)).trans (hparts.mono hrest))⟩

/-! ### Motion rows and CR_REQ at their apply cycle -/

section
variable (rq : Requester) (v : Bytes) (s : State)

theorem writeEff_moveCmd {key : Nat} {a : Fin 8} (hkey : key = kMoveCmd a) :
    writeEff rq (keyIndex key) (keySub key) v s = armMoveEff a v s := by
  have hindex : keyIndex key = 0x3002 + 0x100 * a := by rw [hkey, keyIndex, kMoveCmd]; omega
  have hsub : keySub key = 1 := by rw [hkey, keySub, kMoveCmd]; omega
  have harm : (0x3002 + 0x100 * (a : Nat) - 0x3000) / 256 = a := by omega
  rw [hindex, hsub, writeEff, if_pos (by omega), effMotion, if_pos (by omega), harm]

theorem writeEff_jogCmd {key : Nat} {a : Fin 8} (hkey : key = kJogCmd a) :
    writeEff rq (keyIndex key) (keySub key) v s = jogEff a v s := by
  have hindex : keyIndex key = 0x3003 + 0x100 * a := by rw [hkey, keyIndex, kJogCmd]; omega
  have hsub : keySub key = 1 := by rw [hkey, keySub, kJogCmd]; omega
  have harm : (0x3003 + 0x100 * (a : Nat) - 0x3000) / 256 = a := by omega
  rw [hindex, hsub, writeEff, if_pos (by omega), effMotion, if_neg (by omega), if_pos (by omega), harm]

theorem writeEff_grpCmd {key : Nat} {g : Fin 4} (hkey : key = kGrpCmd g) :
    writeEff rq (keyIndex key) (keySub key) v s = grpCmdEff g v s := by
  have hindex : keyIndex key = 0x3800 + g := by rw [hkey, keyIndex, kGrpCmd]; omega
  have hsub : keySub key = 3 := by rw [hkey, keySub, kGrpCmd]; omega
  rw [hindex, hsub, writeEff, if_pos (by omega), effMotion, if_neg (by omega), if_neg (by omega), if_pos (by omega),
    Nat.add_sub_cancel_left]

theorem writeEff_hcCtrl {key : Nat} {c : Fin 32} (hkey : key = kHcCtrl c) :
    writeEff rq (keyIndex key) (keySub key) v s = hcCtrlEff c v s := by
  have hindex : keyIndex key = 0x3900 + c := by rw [hkey, keyIndex, kHcCtrl]; omega
  have hsub : keySub key = 0x0C := by rw [hkey, keySub, kHcCtrl]; omega
  rw [hindex, hsub, writeEff, if_pos (by omega), effMotion, if_neg (by omega), if_neg (by omega), if_neg (by omega),
    if_neg (by omega), if_pos (by omega), Nat.add_sub_cancel_left]

theorem writeEff_crReq {key : Nat} {a : Fin 8} (hkey : key = kCrReq a) :
    writeEff rq (keyIndex key) (keySub key) v s = crReqEff a v s := by
  have hindex : keyIndex key = 0x4202 := by rw [hkey, keyIndex, kCrReq]; omega
  have hsub : keySub key = 1 + a := by rw [hkey, keySub, kCrReq]; omega
  rw [hindex, hsub, writeEff, if_pos (by omega), effMotion, if_neg (by omega), if_neg (by omega), if_neg (by omega),
    if_neg (by omega), if_neg (by omega), if_pos rfl, Nat.add_sub_cancel_left]

end

section
variable {s : State} {a : Nat}

theorem mot_onMArm_same (h : a < s.motion.arms.length) (f : ArmSt → ArmSt) : (s.onMArm a f).mot a = f (s.mot a) := getD_modAt_same h f _

theorem mot_onMArm_other {b : Nat} (h : b ≠ a) (f : ArmSt → ArmSt) : (s.onMArm a f).mot b = s.mot b := by
  simp only [State.mot, State.onMArm, State.onMot, List.getD_eq_getElem?_getD, getElem?_modAt_other _ f h.symm]

/-- A row of an arm that is stored and changes the arm's planners. -/
theorem storeWrite_onMArm (h : a < s.motion.arms.length) {index sub k : Nat} (hk : objKey index sub = k) (v : Bytes) (f : ArmSt → ArmSt) :
    ((storeWrite index sub v s).onMArm a f).mot a = f (s.mot a) ∧
    (∀ b, b ≠ a → ((storeWrite index sub v s).onMArm a f).mot b = s.mot b) ∧
    ChangesObjs [k] s ((storeWrite index sub v s).onMArm a f) ∧ Changes [.motion, .objs] s ((storeWrite index sub v s).onMArm a f) := by
  obtain ⟨hparts, hobjs⟩ := storeWrite_frame s index sub v
  have hmotion : (storeWrite index sub v s).motion = s.motion := hparts.2 .motion (by decide)
  have hmot (b : Nat) : (storeWrite index sub v s).mot b = s.mot b := by rw [State.mot, hmotion, State.mot]
  refine ⟨?_, fun b hb => ?_, hk ▸ hobjs, (hparts.mono (by decide)).trans ((changes_onMArm _ a f).mono (by decide))⟩
  · rw [mot_onMArm_same (hmotion ▸ h), hmot]
  · rw [mot_onMArm_other hb, hmot]

theorem armMoveEff_applies (h : a < s.motion.arms.length) (v : Bytes) :
    ((armMoveEff a v s).mot a).due = (s.mot a).due ++ [v] ∧ (∀ b, b ≠ a → (armMoveEff a v s).mot b = s.mot b) ∧
    ChangesObjs [kMoveCmd a] s (armMoveEff a v s) ∧ Changes [.motion, .objs] s (armMoveEff a v s) := by
  have hkey : objKey (0x3002 + 0x100 * a) 1 = kMoveCmd a := by unfold objKey kMoveCmd; omega
  obtain ⟨harm, hframe⟩ := storeWrite_onMArm h hkey v (fun x => { x with due := x.due ++ [v] })
  exact ⟨congrArg ArmSt.due harm, hframe⟩

theorem jogEff_applies (h : a < s.motion.arms.length) (v : Bytes) :
    ((jogEff a v s).mot a).jog = some ⟨v, s.cycle * s.tns, false⟩ ∧ (∀ b, b ≠ a → (jogEff a v s).mot b = s.mot b) ∧
    ChangesObjs [kJogCmd a] s (jogEff a v s) ∧ Changes [.motion, .objs, .safe] s (jogEff a v s) := by
  have hkey : objKey (0x3003 + 0x100 * a) 1 = kJogCmd a := by unfold objKey kJogCmd; omega
  obtain ⟨harm, hothers, hobjs, hparts⟩ := storeWrite_onMArm h hkey v (fun x => { x with jog := some ⟨v, s.cycle * s.tns, false⟩ })
  exact ⟨congrArg ArmSt.jog harm, hothers, hobjs, (hparts.mono (by decide)).trans ((changes_onSafe _ _).mono (by decide))⟩

theorem hcCtrlEff_applies (v : Bytes) : (hcCtrlEff a v s).obj (kHcCtrl a) = v ∧ ChangesObjs [kHcCtrl a] s (hcCtrlEff a v s) ∧
    Changes [.motion, .objs] s (hcCtrlEff a v s) := by
  have hstarts (c : Prop) [Decidable c] (f : HcSt → HcSt) : ChangesObjs [kHcCtrl a] s (if c then s.onHc a f else s) ∧
      Changes [.motion, .objs] s (if c then s.onHc a f else s) := by
    split
    · exact ⟨.of_objs rfl _, (changes_onMot s _).mono (by decide)⟩
    · exact ⟨.refl _ s, .refl _ s⟩
  obtain ⟨hobjs, hparts⟩ := hstarts (leVal v = 1 ∧ s.n (kHcCtrl a) = 0) (fun x => { x with justOn := true })
  exact ⟨State.obj_setObj_same _ _ _, hobjs.trans (changesObjs_setObj _ _ _), hparts.trans ((changes_setObj _ _ _).mono (by decide))⟩

theorem jogTimeout_applies {a : Fin 8} (h : a.val < s.motion.arms.length) {j : Jog} (hjog : (s.mot a).jog = some j) :
    ((jogTimeout a s).mot a).jog = some { j with zero := true } ∧ ∀ b, b ≠ a.val → (jogTimeout a s).mot b = s.mot b := by
  refine ⟨?_, fun b hb => mot_onMArm_other hb _⟩
  rw [jogTimeout, mot_onMArm_same h, hjog]
  rfl

end

/-! ### Crossings' requests (R217, R220) -/

section
variable {s : State} {a : Fin 8}

theorem groupOf_setN_crReq (v b : Nat) : (s.setN (kCrReq a) v).groupOf b = s.groupOf b := by
  have hstate {g : Nat} (hg : g < 4) : (s.setN (kCrReq a) v).n (kGrpState g) = s.n (kGrpState g) :=
    State.n_setN_other s v (by simp only [kGrpState, kCrReq]; omega)
  have hmembers {g : Nat} (hg : g < 4) : (s.setN (kCrReq a) v).members g = s.members g := by
    have hmask : (s.setN (kCrReq a) v).n (kGrpMembers g) = s.n (kGrpMembers g) :=
      State.n_setN_other s v (by simp only [kGrpMembers, kCrReq]; omega)
    have hjoints (i : Nat) : (s.setN (kCrReq a) v).n (kArmNj i) = s.n (kArmNj i) :=
      State.n_setN_other s v (by simp only [kArmNj, kCrReq]; omega)
    simp only [State.members, hmask, hjoints]
  refine List.find?_congr fun g hg => ?_
  rw [hstate (List.mem_range.mp hg), hmembers (List.mem_range.mp hg)]

theorem n_setN_crReq (t : State) {m : Nat} (h : m < 256 ^ 4) : (t.setN (kCrReq a) m).n (kCrReq a) = m := by
  have hlen : ∀ a : Fin 8, (objDefault (kCrReq a)).length = 4 := by decide
  rw [State.n_setN_same, hlen a, Nat.mod_eq_of_lt h]

/-- The Crossings without what an arm has requested. -/
def StSquare.withoutRequest (x : StSquare) (a : Nat) : StSquare := { x with pend := x.pend.filter (fun p => p.arm != a) }

/-- The Crossings with one more request. -/
def StSquare.request (x : StSquare) (p : CrPend) : StSquare := { x with pend := x.pend ++ [p] }

/-- The Crossings with zones that an arm begins to release. -/
def StSquare.release (x : StSquare) (a m : Nat) : StSquare := { x with releasing := modAt x.releasing a (· ||| m) }

variable (hgroup : s.groupOf a = none)
include hgroup

theorem team_alone : s.team a = [a.val] := by rw [State.team, hgroup]

theorem dropReq_alone : s.dropReq a = (s.onSq (·.withoutRequest a)).setN (kCrReq a) 0 := by
  have hteam : (s.onSq (·.withoutRequest a)).team a = [a.val] := team_alone hgroup
  have hpend : s.onSq (fun x => { x with pend := x.pend.filter (fun p => !(s.team a).contains p.arm) }) =
      s.onSq (·.withoutRequest a) := by
    simp only [team_alone hgroup, List.contains_cons, List.contains_nil, Bool.or_false]
    rfl
  rw [State.dropReq, hpend, State.setReq, hteam]
  rfl

theorem groupOf_dropReq : (s.dropReq a).groupOf a = none := by
  rw [dropReq_alone hgroup]
  exact (groupOf_setN_crReq 0 a).trans hgroup

theorem crReqEff_requests {v : Bytes} (hmask : leVal v ≠ 0) (hheld : s.held a = 0) : crReqEff a v s =
    (((s.onSq (·.withoutRequest a)).setN (kCrReq a) 0).onSq (·.request ⟨a, leVal v, s.cycle⟩)).setN (kCrReq a) (leVal v) := by
  have hteam : (s.dropReq a).team a = [a.val] := team_alone (groupOf_dropReq hgroup)
  have hcycle : (s.dropReq a).cycle = s.cycle := by
    have hbasic : kBasicCycle ≠ kCrReq a := by simp only [kBasicCycle, kCrReq]; omega
    rw [dropReq_alone hgroup]
    exact congrArg (s.cellNs / cycleNsOf ·) (State.n_setN_other _ 0 hbasic)
  have hsetReq (f : StSquare → StSquare) (m : Nat) : ((s.dropReq a).onSq f).setReq a m = ((s.dropReq a).onSq f).setN (kCrReq a) m := by
    rw [State.setReq, show ((s.dropReq a).onSq f).team a = [a.val] from hteam]
    rfl
  rw [crReqEff]
  dsimp only
  rw [if_neg hmask, if_pos hheld, hsetReq, hteam, hcycle, dropReq_alone hgroup]
  rfl

theorem crReqEff_releases {v : Bytes} (hmask : leVal v = 0) : crReqEff a v s =
    ((s.onSq (·.withoutRequest a)).setN (kCrReq a) 0).onSq (·.release a (s.held a)) := by
  have hteam : (s.dropReq a).team a = [a.val] := team_alone (groupOf_dropReq hgroup)
  rw [crReqEff]
  dsimp only
  rw [if_pos hmask, State.release, hteam, dropReq_alone hgroup]
  rfl

theorem crReqEff_requests_frame {v : Bytes} (hmask : leVal v ≠ 0) (hheld : s.held a = 0) :
    ChangesObjs [kCrReq a] s (crReqEff a v s) ∧ Changes [.square, .objs] s (crReqEff a v s) := by
  rw [crReqEff_requests hgroup hmask hheld]
  exact ⟨(changesObjs_setN (s.onSq _) _ 0).trans (changesObjs_setN (State.onSq _ _) _ _),
    (((changes_onSq s _).mono (by decide)).trans ((changes_setN _ _ _).mono (by decide))).trans
      (((changes_onSq _ _).mono (by decide)).trans ((changes_setN _ _ _).mono (by decide)))⟩

theorem crReqEff_releases_frame {v : Bytes} (hmask : leVal v = 0) :
    ChangesObjs [kCrReq a] s (crReqEff a v s) ∧ Changes [.square, .objs] s (crReqEff a v s) := by
  rw [crReqEff_releases hgroup hmask]
  exact ⟨changesObjs_setN (s.onSq _) _ 0,
    (((changes_onSq s _).mono (by decide)).trans ((changes_setN _ _ _).mono (by decide))).trans ((changes_onSq _ _).mono (by decide))⟩

end

/-! ### A run of the Square (R194, R202 to R219) -/

/-- Rows have distinct keys, so no more are sorted than there are. -/
theorem length_sortRows_le (l : List SqRow) : (sortRows l).length ≤ l.length := by
  have hnodup : (sortRows l).Nodup := List.nodup_range.filterMap fun i j r hi hj => by
    have hri : r.key = i := by simpa using List.find?_some hi
    have hrj : r.key = j := by simpa using List.find?_some hj
    exact hri.symm.trans hrj
  have hsubset : sortRows l ⊆ l := fun r hr => by
    obtain ⟨k, -, hfind⟩ := List.mem_filterMap.mp hr
    exact List.mem_of_find?_eq_some hfind
  exact (hnodup.subperm hsubset).length_le

theorem length_assignKeys (held : List SqKey) (l : List Cand) (used : List Nat) : (assignKeys held l used).length = l.length := by
  induction l generalizing used with
  | nil => rfl
  | cons c l ih =>
    rw [assignKeys]
    split <;> simp [ih]

theorem length_flatten_words (l : List Nat) : (l.map (le 4)).flatten.length = 4 * l.length := by
  induction l with
  | nil => rfl
  | cons v l ih => simp [ih]; omega

/-- The objects that taking the volumes and marking the zones write. -/
def squareMarkKeys : List Nat := [kSqTvTable, kSqTvRej, kSqStatus, kCrStatus]

/-- What taking the volumes and marking the zones change. -/
def SquareMarks (s t : State) : Prop := Changes [.objs, .dev] s t ∧ ChangesObjs squareMarkKeys s t

section
variable {s t u : State}

theorem SquareMarks.refl (s : State) : SquareMarks s s := ⟨.refl _ s, .refl _ s⟩

theorem SquareMarks.trans (hst : SquareMarks s t) (htu : SquareMarks t u) : SquareMarks s u := ⟨hst.1.trans htu.1, hst.2.trans htu.2⟩

theorem SquareMarks.ite {c : Prop} [Decidable c] (ht : SquareMarks s t) (hu : SquareMarks s u) : SquareMarks s (if c then t else u) := by
  split <;> assumption

theorem SquareMarks.foldl {α : Type} {f : State → α → State} (h : ∀ s x, SquareMarks s (f s x)) (l : List α) (s : State) :
    SquareMarks s (l.foldl f s) := by
  induction l generalizing s with
  | nil => exact .refl s
  | cons x l ih => exact (h s x).trans (ih _)

theorem squareMarks_setObj {k : Nat} (hk : k ∈ squareMarkKeys) (s : State) (v : Bytes) : SquareMarks s (s.setObj k v) :=
  ⟨(changes_setObj s k v).mono (by decide), (changesObjs_setObj s k v).mono (by simpa using hk)⟩

theorem squareMarks_stopDemand (s : State) : SquareMarks s s.stopDemand := ⟨(changes_stopDemand s).mono (by decide), .of_objs rfl _⟩

theorem squareMarks_setVolumes (s : State) (l : List Bytes) : SquareMarks s (s.setVolumes l) :=
  (squareMarks_setObj (by decide) s _).trans (.ite (squareMarks_setObj (by decide) _ _) (.refl _))

theorem squareMarks_takeVolumes (s : State) : SquareMarks s s.takeVolumes := by
  have hrejected (l : List Bytes) : SquareMarks s ((l.foldl (fun s _ => s.inc kSqTvRej) s).setBit kSqStatus 7 true) :=
    (SquareMarks.foldl (fun s _ => squareMarks_setObj (by decide) s _) l s).trans (squareMarks_setObj (by decide) _ _)
  exact (SquareMarks.ite (.refl s) (hrejected _)).trans (squareMarks_setVolumes _ _)

theorem squareMarks_markZones (s : State) (inside : List (Nat × Nat)) : SquareMarks s (s.markZones inside) := by
  refine SquareMarks.foldl (fun s z => ?_) _ s
  dsimp only
  refine SquareMarks.trans ?_ (.ite (squareMarks_setObj (by decide) _ _) (.refl _))
  refine SquareMarks.trans ?_ (.ite ((squareMarks_setObj (by decide) _ _).trans (squareMarks_stopDemand _)) (.refl _))
  exact (squareMarks_setObj (by decide) s _).trans (squareMarks_setObj (by decide) _ _)

theorem SquareMarks.cycle (h : SquareMarks s t) : t.cycle = s.cycle := by
  have htime : t.time = s.time := h.1.2 .time (by decide)
  have hbasic : t.obj kBasicCycle = s.obj kBasicCycle := h.2 _ (by decide)
  rw [State.cycle, State.cellNs, State.tns, State.n, htime, hbasic]
  rfl

theorem SquareMarks.rowMax (h : SquareMarks s t) : t.n kSqRowMax = s.n kSqRowMax := congrArg leVal (h.2 _ (by decide))

end

/-- What a run of the Square finds: the rows and their keys, the numbers of pairs and candidates, the scales, the marks of SQ_STATUS,
whether every candidate found a row, and the work that it counts. -/
structure SquareResult where
  rows : List SqRow
  keys : List SqKey
  pairs : Nat
  cands : Nat
  scales : List Nat
  people : Bool
  still : Bool
  fits : Bool
  work : List (Nat × Nat × Nat)

/-- The rows and scales of a run. -/
def State.squareOutputs (s : State) (o : SquareResult) : State :=
  let s := s.onSq (fun x => { x with rows := sortRows o.rows, keys := o.keys, doneCycle := some s.cycle, late := false })
  let s := ((s.setN kSqPairs o.pairs).setN kSqCand o.cands).setObj kSqRows ((s.square.rows.map SqRow.bytes).flatten)
  s.setObj kSqScale ((o.scales.map (le 4)).flatten)

/-- The marks with which a run ends. -/
def State.squareEnds (s : State) (o : SquareResult) : State :=
  let s := ((s.setBit kSqStatus 0 o.people).setBit kSqStatus 1 o.still).solveStarts
  let s := if o.fits then s else (s.setBit kSqStatus 5 true).inc kSqOvfTotal
  s.countWork 81 o.work

section
variable {s : State}

theorem squareRun_stands (h : s.squareOn = false ∨ s.square.doneCycle = some s.cycle ∨ s.square.late = true) : squareRun s = s :=
  if_pos (.inr (by simpa using h))

/-- A run takes the volumes, marks the zones, and writes no more rows than SQ_ROW_MAX and eight scales. -/
theorem squareRun_runs (hup : s.dev.phase = .up) (hon : s.squareOn = true) (hdone : s.square.doneCycle ≠ some s.cycle)
    (hlate : s.square.late = false) : ∃ (u : State) (o : SquareResult), SquareMarks s u ∧ o.rows.length ≤ u.n kSqRowMax ∧
      o.scales.length = 8 ∧ squareRun s = (u.squareOutputs o).squareEnds o := by
  have hruns : ¬(s.dev.phase ≠ .up ∨ !s.squareOn ∨ s.square.doneCycle = some s.cycle ∨ s.square.late) := by
    simp [hup, hon, hdone, hlate]
  obtain ⟨t, ht⟩ : ∃ t, squareRun s = t := ⟨_, rfl⟩
  rw [ht]
  rw [squareRun, if_neg hruns] at ht
  extract_lets v l ps zs nears zNears inside u persons di c1 c2 ranked m held rows folded folds sqRows
    scales keys done outs scaled marked ended at ht
  have hmarks : SquareMarks s u := (squareMarks_takeVolumes s).trans (squareMarks_markZones _ _)
  have hrows : sqRows.length ≤ m := by
    rw [List.length_map, length_assignKeys]
    exact List.length_take_le _ _
  have hscales : scales.length = 8 := by rw [List.length_map, List.length_range]
  clear_value u sqRows scales keys ranked folded rows c1 ps zs
  exact ⟨u, ⟨sqRows, keys, _, _, scales, _, _, _, _⟩, hmarks, hrows, hscales, ht.symm⟩

end

section
variable (s : State) (o : SquareResult)

theorem squareOutputs_square : (s.squareOutputs o).square.rows = sortRows o.rows ∧
    (s.squareOutputs o).square.doneCycle = some s.cycle ∧ (s.squareOutputs o).square.late = false ∧
    (s.squareOutputs o).square.pend = s.square.pend := by
  simp only [State.squareOutputs, State.setObj_square, State.setN_square, State.onSq_square, and_self]

theorem squareOutputs_rows : (s.squareOutputs o).obj kSqRows = ((sortRows o.rows).map SqRow.bytes).flatten := by
  have hkey : kSqRows ≠ kSqScale := by decide
  rw [State.squareOutputs, State.obj_setObj_other _ _ hkey, State.obj_setObj_same, State.onSq_square]

theorem squareOutputs_scale : (s.squareOutputs o).obj kSqScale = (o.scales.map (le 4)).flatten := State.obj_setObj_same _ _ _

theorem changes_squareOutputs : Changes [.square, .objs] s (s.squareOutputs o) := by
  have hsquare := changes_onSq s fun x => { x with rows := sortRows o.rows, keys := o.keys, doneCycle := some s.cycle, late := false }
  have hobjs (t : State) (v w : Bytes) : Changes [.objs] t ((((t.setN kSqPairs o.pairs).setN kSqCand o.cands).setObj kSqRows v).setObj
      kSqScale w) :=
    (((changes_setN t _ _).trans (changes_setN _ _ _)).trans (changes_setObj _ _ _)).trans (changes_setObj _ _ _)
  exact (hsquare.mono (by decide)).trans ((hobjs _ _ _).mono (by decide))

/-- The overflow of the rows, where there is one. -/
theorem squareOverflow_frame (c : Prop) [Decidable c] :
    Changes [.objs] s (if c then s else (s.setBit kSqStatus 5 true).inc kSqOvfTotal) ∧
    ChangesObjs [kSqStatus, kSqOvfTotal] s (if c then s else (s.setBit kSqStatus 5 true).inc kSqOvfTotal) := by
  split
  · exact ⟨.refl _ s, .refl _ s⟩
  · exact ⟨(changes_setBit s _ _ _).trans (changes_setN _ _ _),
      ((changesObjs_setBit s _ _ _).mono (by decide)).trans ((changesObjs_setN _ _ _).mono (by decide))⟩

theorem squareEnds_frame : Changes [.objs, .solver, .cnts] s (s.squareEnds o) ∧
    ChangesObjs [kSqStatus, kSqOvfTotal, kCntOvf 81] s (s.squareEnds o) ∧
    (s.squareEnds o).solver = { s.solver with ready := false } := by
  obtain ⟨hparts, hobjs⟩ := squareOverflow_frame ((s.setBit kSqStatus 0 o.people).setBit kSqStatus 1 o.still).solveStarts o.fits
  refine ⟨?_, ?_, hparts.2 .solver (by decide)⟩
  · have hmarks := ((changes_setBit s kSqStatus 0 o.people).trans (changes_setBit _ kSqStatus 1 o.still)).mono
      (qs := [.objs, .solver, .cnts]) (by decide)
    exact (hmarks.trans ((changes_solveStarts _).mono (by decide))).trans
      ((hparts.mono (by decide)).trans ((changes_countWork _ _ _).mono (by decide)))
  · have hmarks : ChangesObjs [kSqStatus] s ((s.setBit kSqStatus 0 o.people).setBit kSqStatus 1 o.still).solveStarts :=
      (changesObjs_setBit s kSqStatus 0 o.people).trans (changesObjs_setBit _ kSqStatus 1 o.still)
    exact (hmarks.mono (by decide)).trans ((hobjs.mono (by decide)).trans ((changesObjs_countWork _ _ _).mono (by decide)))

end

/-- What a run of the Square leaves: its outputs after the marks of volumes and zones. -/
theorem squareRun_completes {s : State} (hup : s.dev.phase = .up) (hon : s.squareOn = true) (hdone : s.square.doneCycle ≠ some s.cycle)
    (hlate : s.square.late = false) : Completes .squareRun s (fun t =>
      t.square.doneCycle = some s.cycle ∧ t.square.late = false ∧ t.square.rows.length ≤ s.n kSqRowMax ∧
      t.obj kSqRows = (t.square.rows.map SqRow.bytes).flatten ∧ (t.obj kSqScale).length = 32 ∧ t.square.pend = s.square.pend ∧
      t.solver = { s.solver with ready := false } ∧ Changes [.square, .objs, .dev, .free, .solver, .cnts] s t) := by
  obtain ⟨u, o, hmarks, hrows, hscales, hrun⟩ := squareRun_runs hup hon hdone hlate
  obtain ⟨hparts, hobjs, hsolver⟩ := squareEnds_frame (u.squareOutputs o) o
  obtain ⟨hsorted, hmarkedDone, hnotLate, hpend⟩ := squareOutputs_square u o
  have hsquare : ((u.squareOutputs o).squareEnds o).square = (u.squareOutputs o).square := hparts.2 .square (by decide)
  have hpends : u.square.pend = s.square.pend := congrArg StSquare.pend (hmarks.1.2 .square (by decide))
  have hsolvers : (u.squareOutputs o).solver = s.solver :=
    ((changes_squareOutputs u o).2 .solver (by decide)).trans (hmarks.1.2 .solver (by decide))
  have hmost : (sortRows o.rows).length ≤ s.n kSqRowMax := (length_sortRows_le o.rows).trans (hrows.trans_eq hmarks.rowMax)
  have hmarked : Changes [.square, .objs, .dev, .free, .solver, .cnts] s (u.squareOutputs o) :=
    (hmarks.1.mono (by decide)).trans ((changes_squareOutputs u o).mono (by decide))
  refine ⟨_, (exec_squareRun s).trans (congrArg _ hrun), ?_⟩
  dsimp only
  rw [hsquare, hsorted, hobjs kSqRows (by decide), hobjs kSqScale (by decide), squareOutputs_rows, squareOutputs_scale,
    length_flatten_words, hscales]
  exact ⟨hmarks.cycle ▸ hmarkedDone, hnotLate, hmost, rfl, rfl, hpend.trans hpends, hsolvers ▸ hsolver,
    hmarked.trans (hparts.mono (by decide))⟩

/-! ### SQ_LATE (R195) -/

section
variable {s : State}

theorem sqLate_stands (h : s.squareOn = false ∨ s.square.doneCycle = some s.cycle) : sqLate s = s :=
  if_neg fun ⟨hon, hdone⟩ => h.elim (fun hoff => by simp [hoff] at hon) hdone

theorem sqLate_completes (hon : s.squareOn = true) (hdone : s.square.doneCycle ≠ some s.cycle) : Completes .sqLate s (fun t =>
    t.square = { s.square with late := true } ∧ t.bit kSqStatus 2 = true ∧ t.solver = { s.solver with ready := false } ∧
    ChangesObjs [kSqStatus] s t ∧ Changes [.square, .objs, .solver] s t) := by
  refine ⟨_, (exec_sqLate s).trans (congrArg _ (if_pos ⟨hon, hdone⟩)), rfl,
    State.bit_setBit_same (State.onSq _ _) _ _ _ (by decide), rfl,
    changesObjs_setBit (s.onSq _) _ _ _, ?_⟩
  exact (((changes_onSq s _).mono (by decide)).trans ((changes_setBit _ _ _ _).mono (by decide))).trans
    ((changes_solveStarts _).mono (by decide))

end

end Sys2Proof.Machine

namespace Sys2Proof

open Machine

/-- Settles O45: each row that waits is one effect at its apply cycle, and the Square's rows have their laws above. -/
theorem motionAndSquare : Obligations.MotionAndSquare := by
  obtain ⟨hstageArm, hstageGroup, hstageChannel⟩ := mayStage_motion
  refine ⟨fun s a hlen => ⟨fun w hw hdue => ⟨?move, ?jog, ?group, ?channel⟩, ?timeout⟩,
    fun s => ⟨squareRun_completes, ?stands, sqLate_completes, ?lateStands, fun a w hw hdue hkey hdata hgroup hreleasing => ?crossing⟩⟩
  case move =>
    intro hkey
    obtain ⟨hdueMoves, hothers, hobjs, hparts⟩ := armMoveEff_applies (s := s.noWrites) (a.isLt.trans_eq hlen.symm) w.data
    exact completes_writeApply hw hdue (hkey ▸ (hstageArm a).1) (writeEff_moveCmd _ _ _ hkey) hparts (by decide) fun hframe =>
      ⟨hdueMoves, hothers, hobjs, hframe⟩
  case jog =>
    intro hkey
    obtain ⟨hjog, hothers, hobjs, hparts⟩ := jogEff_applies (s := s.noWrites) (a.isLt.trans_eq hlen.symm) w.data
    exact completes_writeApply hw hdue (hkey ▸ (hstageArm a).2.1) (writeEff_jogCmd _ _ _ hkey) hparts (by decide) fun hframe =>
      ⟨⟨congrArg (Option.map Jog.desc) hjog, congrArg (Option.map Jog.zero) hjog⟩, hothers, hobjs, hframe⟩
  case group =>
    intro g hkey
    exact completes_writeApply hw hdue (hkey ▸ hstageGroup g) (writeEff_grpCmd _ _ _ hkey) (changes_onMot _ _) (by decide) fun hframe =>
      ⟨rfl, rfl, hframe⟩
  case channel =>
    intro c hkey
    obtain ⟨hvalue, hobjs, hparts⟩ := hcCtrlEff_applies (s := s.noWrites) (a := c) w.data
    exact completes_writeApply hw hdue (hkey ▸ hstageChannel c) (writeEff_hcCtrl _ _ _ hkey) hparts (by decide) fun hframe =>
      ⟨hvalue, hobjs, hframe⟩
  case timeout =>
    intro j hjog
    obtain ⟨harm, hothers⟩ := jogTimeout_applies (a.isLt.trans_eq hlen.symm) hjog
    exact ⟨_, exec_jogTimeout a s, harm, hothers, rfl, changes_onMArm s a _⟩
  case stands => exact fun h => ⟨_, exec_squareRun s, squareRun_stands h⟩
  case lateStands => exact fun h => ⟨_, exec_sqLate s, sqLate_stands h⟩
  case crossing =>
    have hgroup' : s.noWrites.groupOf a = none := hgroup
    have hword : leVal w.data < 256 ^ 4 := hdata ▸ leVal_lt w.data
    have hstage : mayStage w.key = false := hkey ▸ (hstageArm a).2.2
    refine ⟨fun hmask hheld => ?request, fun hmask => ?release⟩
    case request =>
      obtain ⟨hobjs, hparts⟩ := crReqEff_requests_frame hgroup' hmask hheld
      refine completes_writeApply hw hdue hstage (writeEff_crReq _ _ _ hkey) hparts (by decide) fun hframe => ⟨?_, ?_, hobjs, hframe⟩
      · rw [crReqEff_requests hgroup' hmask hheld]
        rfl
      · rw [crReqEff_requests hgroup' hmask hheld, n_setN_crReq _ hword]
    case release =>
      obtain ⟨hobjs, hparts⟩ := crReqEff_releases_frame hgroup' hmask
      refine completes_writeApply hw hdue hstage (writeEff_crReq _ _ _ hkey) hparts (by decide) fun hframe =>
        ⟨?_, ?_, ?_, hobjs, hframe⟩
      · rw [crReqEff_releases hgroup' hmask]
        rfl
      · rw [crReqEff_releases hgroup' hmask]
        exact n_setN_crReq _ (by decide)
      · rw [crReqEff_releases hgroup' hmask]
        exact getD_modAt_same (a.isLt.trans_eq hreleasing.symm) _ _

end Sys2Proof
end

section
/-! SUPPORT. The whole-cell solver (R164, R182 to R184, R189, R193): what a result settles, the work of a cycle that leaves it standing,
and the two ends of a solve. -/

namespace Sys2Proof.Machine

theorem exec_solve (s : State) : exec .solve s = .next (solveCmd s) := rfl
theorem exec_solverLate (s : State) : exec .solverLate s = .next (solverLateCmd s) := rfl

/-! ### Work that leaves the solver's verdict standing -/

/-- The objects that a result settles, and the one that numbers the cycles. -/
def verdictKeys : List Nat := [kSolverSeq, kSolverStatus, kSolverFbTotal, kSolverLateTotal, kBasicCycle]

/-- The solver's verdict on the cycle stands: mailbox, rejections in a row, warm start, objects and cell time are as they were, and a
stop demand is not taken back. -/
structure KeepsVerdict (s t : State) : Prop where
  ready : t.solver.ready = s.solver.ready
  doneCycle : t.solver.doneCycle = s.solver.doneCycle
  fbRun : t.solver.fbRun = s.solver.fbRun
  warm : t.solver.warm = s.solver.warm
  time : t.time = s.time
  stopDemand : s.dev.stopDemand = true → t.dev.stopDemand = true
  obj : ∀ k ∈ verdictKeys, t.obj k = s.obj k

section
variable {s t u : State}

theorem KeepsVerdict.refl (s : State) : KeepsVerdict s s := ⟨rfl, rfl, rfl, rfl, rfl, id, fun _ _ => rfl⟩

theorem KeepsVerdict.trans (hst : KeepsVerdict s t) (htu : KeepsVerdict t u) : KeepsVerdict s u :=
  ⟨htu.ready.trans hst.ready, htu.doneCycle.trans hst.doneCycle, htu.fbRun.trans hst.fbRun, htu.warm.trans hst.warm,
    htu.time.trans hst.time, htu.stopDemand ∘ hst.stopDemand, fun k hk => (htu.obj k hk).trans (hst.obj k hk)⟩

theorem KeepsVerdict.ite {c : Prop} [Decidable c] (ht : KeepsVerdict s t) (hu : KeepsVerdict s u) :
    KeepsVerdict s (if c then t else u) := by split <;> assumption

theorem KeepsVerdict.foldl_mem {α : Type} {f : State → α → State} (l : List α) (h : ∀ s, ∀ x ∈ l, KeepsVerdict s (f s x)) (s : State) :
    KeepsVerdict s (l.foldl f s) := by
  induction l generalizing s with
  | nil => exact .refl s
  | cons x l ih => exact (h s x List.mem_cons_self).trans (ih (fun s y hy => h s y (List.mem_cons_of_mem x hy)) _)

theorem KeepsVerdict.foldl {α : Type} {f : State → α → State} (h : ∀ s x, KeepsVerdict s (f s x)) (l : List α) (s : State) :
    KeepsVerdict s (l.foldl f s) := .foldl_mem l (fun s x _ => h s x) s

/-- Work on other parts, and on other objects. -/
theorem KeepsVerdict.of_changes {ps : List Part} {ks : List Nat} (h : Changes ps s t) (ho : ChangesObjs ks s t)
    (hps : Part.solver ∉ ps ∧ Part.dev ∉ ps ∧ Part.time ∉ ps) (hks : ∀ k ∈ verdictKeys, k ∉ ks) : KeepsVerdict s t := by
  have hsolver : t.solver = s.solver := h.2 .solver hps.1
  have hdev : t.dev = s.dev := h.2 .dev hps.2.1
  have htime : t.time = s.time := h.2 .time hps.2.2
  exact ⟨by rw [hsolver], by rw [hsolver], by rw [hsolver], by rw [hsolver], htime, by rw [hdev]; exact id, fun k hk => ho k (hks k hk)⟩

/-- Work on no object, and on other parts. -/
theorem KeepsVerdict.of_same (hsolver : t.solver = s.solver) (hdev : t.dev = s.dev) (htime : t.time = s.time) (hobjs : t.objs = s.objs) :
    KeepsVerdict s t :=
  ⟨by rw [hsolver], by rw [hsolver], by rw [hsolver], by rw [hsolver], htime, by rw [hdev]; exact id, fun k _ => State.obj_congr hobjs k⟩

theorem KeepsVerdict.n (h : KeepsVerdict s t) {k : Nat} (hk : k ∈ verdictKeys) : t.n k = s.n k := congrArg leVal (h.obj k hk)

theorem KeepsVerdict.cycle (h : KeepsVerdict s t) : t.cycle = s.cycle := by
  rw [State.cycle, State.cellNs, State.tns, h.time, h.n (k := kBasicCycle) (by decide)]
  rfl

end

section
variable (s : State)

theorem keepsVerdict_setObj {k : Nat} (hk : k ∉ verdictKeys) (v : Bytes) : KeepsVerdict s (s.setObj k v) :=
  .of_changes (changes_setObj s k v) (changesObjs_setObj s k v) (by decide) fun j hj => by
    rw [List.mem_singleton]
    exact fun he => hk (he ▸ hj)

theorem keepsVerdict_stopDemand : KeepsVerdict s s.stopDemand := ⟨rfl, rfl, rfl, rfl, rfl, fun _ => rfl, fun _ _ => rfl⟩

theorem keepsVerdict_log (type : Nat) (b : Bytes) : KeepsVerdict s (s.log type b) := by
  obtain ⟨hparts, hobjs⟩ := record_recordOnly s 0 type false b
  exact .of_changes hparts hobjs (by decide) (by decide)

theorem keepsVerdict_countWork (l : List (Nat × Nat × Nat)) : KeepsVerdict s (s.countWork 80 l) :=
  .of_changes (changes_countWork s 80 l) (changesObjs_countWork s 80 l) (by decide) (by decide)

theorem keepsVerdict_onInst (id : Nat) (f : InstSt → InstSt) : KeepsVerdict s (s.onInst id f) := .of_same rfl rfl rfl rfl

/-! ### The results on their way -/

theorem keepsVerdict_makeReady (t : Fired) : KeepsVerdict s (s.makeReady t) := by
  unfold State.makeReady
  split
  · exact .refl s
  · dsimp only
    split <;> exact .of_same rfl rfl rfl rfl

theorem keepsVerdict_enlist (x : InstSt) (t : Fired) : KeepsVerdict s (s.enlist x t) :=
  .ite (keepsVerdict_makeReady s t) (.of_same rfl rfl rfl rfl)

theorem keepsVerdict_fire (id : Nat) : KeepsVerdict s (s.fire id) := by
  unfold State.fire
  split
  · exact .refl s
  · exact .ite (.refl s) ((keepsVerdict_onInst s id _).trans (keepsVerdict_enlist _ _ _))

theorem keepsVerdict_checkMeas (id age : Nat) : KeepsVerdict s (s.checkMeas id age) := by
  have hstop (c : Prop) [Decidable c] : KeepsVerdict s (if c then s.stopDemand.setBit kJnStatus 5 true else s) :=
    .ite ((keepsVerdict_stopDemand s).trans (keepsVerdict_setObj _ (by decide) _)) (.refl s)
  refine .ite (.refl s) (.ite (keepsVerdict_onInst s id _) ?_)
  dsimp only
  split
  · exact (hstop _).trans (.ite (.refl _) ((keepsVerdict_log _ _ _).trans (keepsVerdict_onInst _ _ _)))
  · exact hstop _

theorem keepsVerdict_dropToken : KeepsVerdict s s.dropToken :=
  (keepsVerdict_setObj s (by decide) _).trans (keepsVerdict_setObj _ (by decide) _)

theorem keepsVerdict_place (id port tag : Nat) (t : Tok) : KeepsVerdict s (s.place id port tag t) := by
  have hcount : KeepsVerdict s (s.inc kJnTokenDrop) := keepsVerdict_setObj s (by decide) _
  have hdrop := keepsVerdict_dropToken s
  unfold State.place
  split
  · exact .refl s
  refine .ite (.refl s) ?_
  split
  · exact .refl s
  refine .ite (.ite hdrop (.ite hcount ?_)) (.ite (.ite hcount (keepsVerdict_onInst s id _)) hdrop)
  exact (keepsVerdict_onInst s id _).trans (.ite (keepsVerdict_checkMeas _ _ _) (.refl _))

theorem keepsVerdict_deliverArm (old : State) (a : Nat) : KeepsVerdict s (s.deliverArm old a) :=
  (KeepsVerdict.foldl (fun s (p : Nat × Nat × Nat) => keepsVerdict_place s p.1 p.2.1 p.2.2 _) _ s).trans (.foldl keepsVerdict_fire _ _)

theorem keepsVerdict_emuPush (mine : Nat → Bool) (t : Nat) : KeepsVerdict s (s.emuPush mine t) := by
  refine .foldl (fun s e => ?_) _ s
  exact .ite (.of_same rfl rfl rfl rfl) (.refl s)

theorem keepsVerdict_solveOut (old : State) : KeepsVerdict s (s.solveOut old) :=
  .ite (.refl s) ((keepsVerdict_emuPush s _ _).trans (.foldl (fun s a => keepsVerdict_deliverArm s old a) _ _))

theorem keepsVerdict_solveCounts (old : State) : KeepsVerdict s (s.solveCounts old) := .ite (.refl s) (keepsVerdict_countWork s _)

/-! ### Committed state, re-seed and drift -/

theorem toolPose_notMem_verdictKeys (a : Nat) : kToolPose a ∉ verdictKeys := by
  simp only [verdictKeys, kToolPose, kSolverSeq, kSolverStatus, kSolverFbTotal, kSolverLateTotal, kBasicCycle, List.mem_cons,
    List.not_mem_nil, or_false]
  omega

theorem grpStatus_notMem_verdictKeys (g : Nat) : kGrpStatus g ∉ verdictKeys := by
  simp only [verdictKeys, kGrpStatus, kSolverSeq, kSolverStatus, kSolverFbTotal, kSolverLateTotal, kBasicCycle, List.mem_cons,
    List.not_mem_nil, or_false]
  omega

theorem keepsVerdict_advance (l : List (Nat × Nat)) : KeepsVerdict s (s.advance l) := by
  unfold State.advance
  dsimp only
  refine KeepsVerdict.trans (.foldl (fun s p => ?joint) l s) (.foldl (fun s a => ?pose) _ _)
  case joint => exact ⟨rfl, rfl, rfl, rfl, rfl, id, fun _ _ => rfl⟩
  case pose => exact keepsVerdict_setObj s (toolPose_notMem_verdictKeys a) _

theorem keepsVerdict_reseed (rest : Bool) (a : Nat) : KeepsVerdict s (s.reseed rest a) := by
  unfold State.reseed
  exact .of_same rfl rfl rfl rfl

theorem keepsVerdict_reseedGroup (rest : Bool) (g : Nat) : KeepsVerdict s (s.reseedGroup rest g) := by
  unfold State.reseedGroup
  exact .ite (.refl s) (.of_same rfl rfl rfl rfl)

theorem keepsVerdict_reseedAll (rest : Bool) : KeepsVerdict s (s.reseedAll rest) :=
  (KeepsVerdict.foldl (fun s a => keepsVerdict_reseed s rest a) _ s).trans
    (.foldl (fun s g => keepsVerdict_reseedGroup s rest g) _ _)

theorem keepsVerdict_setGrpMov (g : Nat) (x : Mov) : KeepsVerdict s (s.setGrpMov g x) := by
  refine KeepsVerdict.trans (t := s.onGrp g _) ?_ (keepsVerdict_setObj _ (grpStatus_notMem_verdictKeys g) _)
  exact .of_same rfl rfl rfl rfl

theorem keepsVerdict_driftCheck : KeepsVerdict s s.driftCheck := by
  refine .foldl (fun s p => ?_) _ s
  exact .ite ((keepsVerdict_setGrpMov s _ _).trans (keepsVerdict_stopDemand _)) (.refl s)

end

/-! ### Masks and the bits of SOLVER_STATUS (R193) -/

theorem testBit_maskOf {l : List Nat} {i : Nat} (h : i ∈ l) : (maskOf l).testBit i = true := by
  have hkeeps (l : List Nat) (m : Nat) (hm : m.testBit i = true) : (l.foldl (fun m i => setBit m i true) m).testBit i = true := by
    induction l generalizing m with
    | nil => exact hm
    | cons j l ih => exact ih _ (by simp [setBit, hm])
  obtain ⟨before, after, rfl⟩ := List.append_of_mem h
  rw [maskOf, List.foldl_append, List.foldl_cons]
  exact hkeeps after _ (testBit_setBit_same _ i true)

/-- Flags of R190 and the bits of SOLVER_STATUS that they mark. -/
def statusPairs : List (Nat × Nat) := [(fClipped, 10), (fConflict, 7), (fResHigh, 6), (fInputBad, 5), (fLate, 4), (fFallback, 3),
  (fResultOvf, 2), (fPivotZero, 1), (fPivotTiny, 0)]

/-- A flag of the result marks its bit, below those of the start values. -/
theorem testBit_statusBits {flags f b : Nat} (hflag : flags.testBit f = true) (warm : Nat) (hbit : b < 8)
    (hpair : (f, b) ∈ statusPairs) : (statusBits flags warm).testBit b = true := by
  rw [statusBits]
  generalize hmask : maskOf _ = mask
  have hset : mask.testBit b = true := by
    rw [← hmask]
    exact testBit_maskOf (List.mem_map.mpr ⟨(f, b), List.mem_filter.mpr ⟨hpair, hflag⟩, rfl⟩)
  split
  · rw [Nat.add_comm, show 512 = 2 ^ 9 by rfl, Nat.testBit_two_pow_add_gt (by omega), hset]
  · split
    · rw [Nat.add_comm, show 256 = 2 ^ 8 by rfl, Nat.testBit_two_pow_add_gt hbit, hset]
    · exact hset

/-! ### A result enters the mailbox -/

/-- The cycle has a result in the mailbox (R189). -/
structure Published (s t : State) : Prop where
  seq : t.n kSolverSeq = s.cycle % 2 ^ 32
  ready : t.solver.ready = true
  doneCycle : t.solver.doneCycle = some s.cycle

/-- The result is accepted: the row of rejections ends, with a warm start for the next problem (R184, R186). -/
structure Accepted (t : State) : Prop where
  fbRun : t.solver.fbRun = 0
  warm : t.solver.warm.isSome = true

/-- The result is rejected: the fallback output, its total, and the third in a row a stop demand (R182 to R184). -/
structure Rejected (s t : State) : Prop where
  fbRun : t.solver.fbRun = s.solver.fbRun + 1
  warm : t.solver.warm = none
  fallback : t.bit kSolverStatus 3 = true
  total : t.n kSolverFbTotal = min (s.n kSolverFbTotal + 1) (2 ^ 32 - 1) % 2 ^ 32
  stops : s.solver.fbRun = 2 → t.dev.stopDemand = true

/-- A result of the cycle is accepted or rejected. -/
def Ends (s t : State) : Prop := Published s t ∧ (Accepted t ∨ Rejected s t)

/-- The rejected result is a late one (R182). -/
structure MarkedLate (s t : State) : Prop where
  late : t.bit kSolverStatus 4 = true
  total : t.n kSolverLateTotal = min (s.n kSolverLateTotal + 1) (2 ^ 32 - 1) % 2 ^ 32

section
variable {s t u : State}

/-- A state with other parts, but the objects and cell time of another, is in the same cycle. -/
theorem cycle_congr (hobjs : t.objs = s.objs) (htime : t.time = s.time) : t.cycle = s.cycle := by
  rw [State.cycle, State.cellNs, State.tns, htime, State.n_congr hobjs]
  rfl

theorem Published.congr (hobjs : t.objs = s.objs) (htime : t.time = s.time) (h : Published t u) : Published s u :=
  have hcycle := cycle_congr hobjs htime
  ⟨hcycle ▸ h.seq, h.ready, hcycle ▸ h.doneCycle⟩

theorem Published.keeps (h : Published s t) (hk : KeepsVerdict t u) : Published s u :=
  ⟨(hk.n (by decide)).trans h.seq, hk.ready.trans h.ready, hk.doneCycle.trans h.doneCycle⟩

theorem KeepsVerdict.published (hk : KeepsVerdict s t) (h : Published t u) : Published s u :=
  ⟨hk.cycle ▸ h.seq, h.ready, hk.cycle ▸ h.doneCycle⟩

theorem KeepsVerdict.bit (hk : KeepsVerdict s t) (b : Nat) : t.bit kSolverStatus b = s.bit kSolverStatus b :=
  congrArg (Nat.testBit · b) (hk.n (by decide))

theorem Rejected.keeps (h : Rejected s t) (hk : KeepsVerdict t u) : Rejected s u :=
  ⟨hk.fbRun.trans h.fbRun, hk.warm.trans h.warm, (hk.bit 3).trans h.fallback, (hk.n (by decide)).trans h.total,
    fun hrun => hk.stopDemand (h.stops hrun)⟩

theorem KeepsVerdict.rejected (hk : KeepsVerdict s t) (h : Rejected t u) : Rejected s u :=
  ⟨hk.fbRun ▸ h.fbRun, h.warm, h.fallback, hk.n (k := kSolverFbTotal) (by decide) ▸ h.total, hk.fbRun ▸ h.stops⟩

theorem Ends.keeps (h : Ends s t) (hk : KeepsVerdict t u) : Ends s u :=
  ⟨h.1.keeps hk, h.2.imp (fun ha => ⟨hk.fbRun.trans ha.fbRun, hk.warm ▸ ha.warm⟩) (Rejected.keeps · hk)⟩

theorem KeepsVerdict.ends (hk : KeepsVerdict s t) (h : Ends t u) : Ends s u :=
  ⟨hk.published h.1, h.2.imp_right hk.rejected⟩

theorem MarkedLate.keeps (h : MarkedLate s t) (hk : KeepsVerdict t u) : MarkedLate s u :=
  ⟨(hk.bit 4).trans h.late, (hk.n (by decide)).trans h.total⟩

end

section
variable (s : State) (result duals : Bytes) (flags warm sig : Nat)

theorem publish_solver : (s.publish result duals flags warm sig).solver =
    { s.solver with result := result, prevResult := s.solver.result, duals := duals, prevDuals := s.solver.duals, ready := true,
                    doneCycle := some s.cycle } := by
  rw [State.publish, State.interrupt]
  simp only [State.setN_solver]

theorem publish_objs : (s.publish result duals flags warm sig).objs =
    (((s.setN kSolverSeq s.seq32).setN kSolverSig sig).setN kSolverStatus (s.n kSolverStatus ||| statusBits flags warm)).objs := by
  simp only [State.publish, State.interrupt, State.setN_objs, State.seq32, State.cycle, State.cellNs, State.tns, State.n, State.obj]

theorem n_publish_seq : (s.publish result duals flags warm sig).n kSolverSeq = s.cycle % 2 ^ 32 := by
  rw [State.n_congr (publish_objs s result duals flags warm sig), State.n_setN_other _ _ (by decide), State.n_setN_other _ _ (by decide),
    State.n_setN_same, show 256 ^ (objDefault kSolverSeq).length = 2 ^ 32 by decide, State.seq32, Nat.mod_mod]

theorem n_publish_other {k : Nat} (h : k ∉ [kSolverSeq, kSolverSig, kSolverStatus]) :
    (s.publish result duals flags warm sig).n k = s.n k := by
  simp only [List.mem_cons, List.not_mem_nil, or_false, not_or] at h
  obtain ⟨hseq, hsig, hstatus⟩ := h
  rw [State.n_congr (publish_objs s result duals flags warm sig), State.n_setN_other _ _ hstatus, State.n_setN_other _ _ hsig,
    State.n_setN_other _ _ hseq]

/-- A flag of the result marks its bit of SOLVER_STATUS. -/
theorem bit_publish {f b : Nat} (hflag : flags.testBit f = true) (hbit : b < 8) (hpair : (f, b) ∈ statusPairs) :
    (s.publish result duals flags warm sig).bit kSolverStatus b = true := by
  have hroom : b < 16 := by omega
  rw [State.bit, State.n_congr (publish_objs s result duals flags warm sig), State.n_setN_same,
    show 256 ^ (objDefault kSolverStatus).length = 2 ^ 16 by decide, Nat.testBit_mod_two_pow, Nat.testBit_or,
    testBit_statusBits hflag warm hbit hpair]
  simp [hroom]

theorem publish_published : Published s (s.publish result duals flags warm sig) :=
  ⟨n_publish_seq s result duals flags warm sig, by rw [publish_solver], by rw [publish_solver]⟩

end

/-! ### The two ends of a solve (R182 to R184) -/

section
variable (s : State)

/-- A saturated counter of four bytes fits its object. -/
theorem min_mod_counter (v : Nat) : min v (2 ^ 32 - 1) % 2 ^ 32 = min v (2 ^ 32 - 1) := Nat.mod_eq_of_lt (by omega)

/-- The totals of a rejected result (R182, R184). -/
def State.rejectTotals (s : State) (late : Bool) : State :=
  let s := s.inc kSolverFbTotal
  if late then s.inc kSolverLateTotal else s

theorem rejectTotals_solver (late : Bool) : (s.rejectTotals late).solver = s.solver := by cases late <;> rfl

theorem n_rejectTotals_fb (late : Bool) : (s.rejectTotals late).n kSolverFbTotal = min (s.n kSolverFbTotal + 1) (2 ^ 32 - 1) := by
  cases late with
  | false => exact State.n_inc_same s (by decide)
  | true => exact (State.n_inc_other _ (by decide)).trans (State.n_inc_same s (by decide))

theorem n_rejectTotals_late : (s.rejectTotals true).n kSolverLateTotal = min (s.n kSolverLateTotal + 1) (2 ^ 32 - 1) :=
  (State.n_inc_same _ (by decide)).trans (by rw [State.n_inc_other s (by decide)])

theorem n_rejectTotals_other (late : Bool) {k : Nat} (h : k ∉ [kSolverFbTotal, kSolverLateTotal]) :
    (s.rejectTotals late).n k = s.n k := by
  simp only [List.mem_cons, List.not_mem_nil, or_false, not_or] at h
  cases late with
  | false => exact State.n_inc_other s h.1
  | true => exact (State.n_inc_other _ h.2).trans (State.n_inc_other s h.1)

/-- A rejected result up to its totals: a result with the fallback flag is written for a problem without warm start, and logged. -/
theorem reject_cases (p : Prob) (sig : Nat) (r : Report) (nu y : List Nat) :
    ∃ (w logged : State) (result duals : Bytes), w.solver = { s.solver with warm := none, fbRun := s.solver.fbRun + 1 } ∧
      w.objs = s.objs ∧ w.time = s.time ∧
      KeepsVerdict (w.publish result duals (r.flags ||| 2 ^ fFallback) r.warm sig) logged ∧
      KeepsVerdict (logged.rejectTotals ((r.flags ||| 2 ^ fFallback).testBit fLate)) (s.reject p sig r nu y) ∧
      (s.solver.fbRun = 2 → (s.reject p sig r nu y).dev.stopDemand = true) := by
  obtain ⟨t, ht⟩ : ∃ t, s.reject p sig r nu y = t := ⟨_, rfl⟩
  rw [ht]
  unfold State.reject at ht
  extract_lets k r' acc x ts run result u w total late counted advanced at ht
  clear_value result acc
  have hstops : KeepsVerdict advanced (advanced.log 0x0321 (le 8 advanced.cycle)).stopDemand :=
    (keepsVerdict_log _ _ _).trans (keepsVerdict_stopDemand _)
  refine ⟨w, total, result, w.dualBytes nu y, rfl, rfl, rfl, keepsVerdict_log _ _ _, ?_, fun h => ?_⟩
  · rw [← ht]
    exact (keepsVerdict_advance counted acc).trans (.ite hstops (.refl _))
  · rw [← ht, if_pos (show run = 3 by omega)]
    rfl

/-- A rejected result is published, counted, and the third in a row a stop demand; a late one is marked and counted as late. -/
theorem reject_rejected (p : Prob) (sig : Nat) (r : Report) (nu y : List Nat) :
    Published s (s.reject p sig r nu y) ∧ Rejected s (s.reject p sig r nu y) ∧
    (r.flags.testBit fLate = true → MarkedLate s (s.reject p sig r nu y)) := by
  obtain ⟨w, logged, result, duals, hsolver, hobjs, htime, hlogged, hended, hstops⟩ := reject_cases s p sig r nu y
  have hn (k : Nat) : w.n k = s.n k := State.n_congr hobjs k
  have hcycle : w.cycle = s.cycle := cycle_congr hobjs htime
  have hfallback : (r.flags ||| 2 ^ fFallback).testBit fFallback = true := by
    rw [Nat.testBit_or, Nat.testBit_two_pow_self, Bool.or_true]
  have hlate (h : r.flags.testBit fLate = true) : (r.flags ||| 2 ^ fFallback).testBit fLate = true := by
    rw [Nat.testBit_or, h, Bool.true_or]
  generalize r.flags ||| 2 ^ fFallback = flags at *
  have hsolverKept : (logged.rejectTotals (flags.testBit fLate)).solver = logged.solver := rejectTotals_solver logged _
  have hwarm : logged.solver.warm = none := by rw [hlogged.warm, publish_solver, hsolver]
  have hrun : logged.solver.fbRun = s.solver.fbRun + 1 := by rw [hlogged.fbRun, publish_solver, hsolver]
  have hbit {f b : Nat} (hflag : flags.testBit f = true) (hbit : b < 8) (hpair : (f, b) ∈ statusPairs) :
      (s.reject p sig r nu y).bit kSolverStatus b = true := by
    rw [hended.bit, State.bit, n_rejectTotals_other _ _ (by decide)]
    exact (hlogged.bit b).trans (bit_publish w result duals flags r.warm sig hflag hbit hpair)
  have htotal {k : Nat} (hk : k ∈ verdictKeys) (hne : k ∉ [kSolverSeq, kSolverSig, kSolverStatus]) : logged.n k = s.n k :=
    (hlogged.n hk).trans ((n_publish_other w result duals flags r.warm sig hne).trans (hn k))
  refine ⟨⟨?seq, ?ready, ?done⟩, ⟨?run, ?cold, hbit hfallback (by decide) (by decide), ?total, hstops⟩,
    fun h => ⟨hbit (hlate h) (by decide) (by decide), ?late⟩⟩
  case seq =>
    rw [hended.n (by decide), n_rejectTotals_other _ _ (by decide), hlogged.n (by decide), n_publish_seq, hcycle]
  case ready => rw [hended.ready, hsolverKept, hlogged.ready, publish_solver]
  case done => rw [hended.doneCycle, hsolverKept, hlogged.doneCycle, publish_solver, hcycle]
  case run => rw [hended.fbRun, hsolverKept, hrun]
  case cold => rw [hended.warm, hsolverKept, hwarm]
  case total => rw [hended.n (by decide), n_rejectTotals_fb, htotal (by decide) (by decide), min_mod_counter]
  case late => rw [hended.n (by decide), hlate h, n_rejectTotals_late, htotal (by decide) (by decide), min_mod_counter]

theorem reject_ends (p : Prob) (sig : Nat) (r : Report) (nu y : List Nat) : Ends s (s.reject p sig r nu y) :=
  have ⟨hpublished, hrejected, _⟩ := reject_rejected s p sig r nu y
  ⟨hpublished, .inr hrejected⟩

/-- The end of the iterations: a rejected result, or one that is published with its warm start for the next problem, then committed. -/
theorem finishSolve_cases (p : Prob) (q : Scaled) (sig warm : Nat) (f : Fact) (it : Iter) :
    (∃ (r : Report) (nu y : List Nat), s.finishSolve p q sig warm f it = s.reject p sig r nu y) ∨
    ∃ (u : State) (w : Warm) (result duals : Bytes) (flags : Nat), u.solver = { s.solver with warm := some w, fbRun := 0 } ∧
      u.objs = s.objs ∧ u.time = s.time ∧
      KeepsVerdict (u.publish result duals flags warm sig) (s.finishSolve p q sig warm f it) := by
  obtain ⟨t, ht⟩ : ∃ t, s.finishSolve p q sig warm f it = t := ⟨_, rfl⟩
  rw [ht]
  unfold State.finishSolve at ht
  extract_lets sp n pri eqv dua warnAt high x ovf clamped clip hx obj flags r y nu r' w at ht
  split at ht
  case isTrue => exact .inl ⟨_, nu, y, ht.symm⟩
  case isFalse =>
    subst ht
    exact .inr ⟨{ s with free := s.free + 1, solver := { s.solver with warm := some w, fbRun := 0 } }, w, _, _, _, rfl, rfl, rfl,
      (keepsVerdict_advance _ _).trans (.ite (keepsVerdict_reseedAll _ false) (.refl _))⟩

theorem finishSolve_ends (p : Prob) (q : Scaled) (sig warm : Nat) (f : Fact) (it : Iter) :
    Ends s (s.finishSolve p q sig warm f it) := by
  obtain ⟨r, nu, y, hreject⟩ | ⟨u, w, result, duals, flags, hsolver, hobjs, htime, hkeeps⟩ := finishSolve_cases s p q sig warm f it
  · exact hreject ▸ reject_ends s p sig r nu y
  · refine ⟨((publish_published u result duals flags warm sig).congr hobjs htime).keeps hkeeps, .inl ⟨?_, ?_⟩⟩
    · rw [hkeeps.fbRun, publish_solver, hsolver]
    · rw [hkeeps.warm, publish_solver, hsolver]
      rfl

/-! ### SOLVE and SOLVER_LATE -/

theorem solve_ends (h : s.solves = true) : Ends s (solve s) := by
  obtain ⟨t, ht⟩ : ∃ t, solve s = t := ⟨_, rfl⟩
  rw [ht]
  unfold solve at ht
  rw [if_neg (by simp [h])] at ht
  extract_lets d p q sig zeros a f st at ht
  have hdrift : KeepsVerdict s d := keepsVerdict_driftCheck s
  clear_value d
  refine hdrift.ends ?_
  split at ht
  case isTrue => exact ht ▸ reject_ends d p sig _ _ _
  case isFalse => exact ht ▸ finishSolve_ends d p q sig _ _ _

/-- The flags of a late result: a conflict of the problem and bad input are other bits. -/
theorem testBit_lateFlags (p : Prob) (bad : Bool) : (p.flags + 2 ^ fLate + if bad then 2 ^ fInputBad else 0).testBit fLate = true := by
  have hbits (conflict bad : Bool) :
      ((if conflict then 2 ^ fConflict else 0) + 2 ^ fLate + if bad then 2 ^ fInputBad else 0).testBit fLate = true := by
    revert conflict bad
    decide
  exact hbits p.conflict bad

theorem solverLate_rejects (h : s.solves = true) :
    Published s (solverLate s) ∧ Rejected s (solverLate s) ∧ MarkedLate s (solverLate s) := by
  rw [solverLate, if_neg (by simp [h])]
  obtain ⟨hpublished, hrejected, hlate⟩ := reject_rejected s s.problem (s.signature s.problem)
    (Report.none (s.problem.flags + 2 ^ fLate + if s.problem.scaled.p.bad then 2 ^ fInputBad else 0))
    (s.problem.eqIds.map fun _ => 0) (s.problem.inIds.map fun _ => 0)
  exact ⟨hpublished, hrejected, hlate (testBit_lateFlags _ _)⟩

/-- What follows a solve or its lateness: the results on their way, and the run counted. -/
theorem keepsVerdict_delivered (old : State) : KeepsVerdict s ((s.solveOut old).solveCounts old) :=
  (keepsVerdict_solveOut s old).trans (keepsVerdict_solveCounts _ old)

/-- In a cycle that is not to be solved, or is solved, neither command does anything. -/
theorem solveCmd_stands (h : s.solves = false) : solveCmd s = s ∧ solverLateCmd s = s := by
  have hsolve : solve s = s := if_pos (by simp [h])
  have hlate : solverLate s = s := if_pos (by simp [h])
  have hdelivered : (s.solveOut s).solveCounts s = s := by simp [State.solveOut, State.solveCounts]
  rw [solveCmd, solverLateCmd, hsolve, hlate]
  exact ⟨hdelivered, hdelivered⟩

end

end Sys2Proof.Machine

namespace Sys2Proof

open Machine

/-- Settles O46: the verdict of a solve is that of its result, and what the command does after it leaves the verdict standing. -/
theorem solverResults : Obligations.SolverResults := by
  refine fun s => ⟨fun hsolves => ⟨_, exec_solve s, ?solved⟩, fun hsolves => ⟨_, exec_solverLate s, ?late⟩,
    fun hstands => ⟨⟨_, exec_solve s, (solveCmd_stands s hstands).1⟩, ⟨_, exec_solverLate s, (solveCmd_stands s hstands).2⟩⟩⟩
  case solved =>
    obtain ⟨hpublished, hends⟩ := (solve_ends s hsolves).keeps (keepsVerdict_delivered (solve s) s)
    exact ⟨hpublished.seq, hpublished.ready, hpublished.doneCycle, hends.imp (fun ha => ⟨ha.fbRun, ha.warm⟩)
      fun hr => ⟨hr.fbRun, hr.warm, hr.fallback, hr.total, hr.stops⟩⟩
  case late =>
    have hk := keepsVerdict_delivered (solverLate s) s
    obtain ⟨hpublished, hrejected, hlate⟩ := solverLate_rejects s hsolves
    obtain ⟨hseq, hready, hdone⟩ := hpublished.keeps hk
    obtain ⟨hrun, hcold, hfallback, htotal, hstops⟩ := hrejected.keeps hk
    obtain ⟨hmark, hlateTotal⟩ := hlate.keeps hk
    exact ⟨hseq, hready, hdone, hrun, hcold, hfallback, hmark, htotal, hlateTotal, hstops⟩

end Sys2Proof
end

section
/-! SUPPORT. Instances, tokens and ready lists of the Junction: what a token does at its port, when a task fires, what the RX
deadline fills, and what a release tick sets free (R228, R230, R232, R233). -/

namespace Sys2Proof.Machine

theorem exec_tokenArrival (id : Fin 1024) (port : Fin 8) (t : Token) (s : State) :
    exec (.tokenArrival id port t) s = .next (tokenArrival id port t s) := rfl
theorem exec_rxDeadlineSubstitution (s : State) : exec .rxDeadlineSubstitution s = .next (rxDeadlineSubstitution s) := rfl
theorem exec_releaseTick (tick : Nat) (s : State) : exec (.releaseTick tick) s = .next (releaseTick tick s) := rfl

/-! ### Instances -/

/-- What template and home depend on is the same in both. -/
def InstSt.SameKind (x y : InstSt) : Prop := y.id = x.id ∧ y.tmpl = x.tmpl ∧ y.param = x.param

section
variable {s t : State} {id : Nat} {x y : InstSt}

theorem State.id_of_inst? (h : s.inst? id = some x) : x.id = id := by simpa using List.find?_some h

theorem State.inst?_of_single (h : s.jn.insts = [x]) : s.inst? x.id = some x := by simp [State.inst?, h]

theorem State.inst?_congr (h : t.jn.insts = s.jn.insts) (id : Nat) : t.inst? id = s.inst? id := by rw [State.inst?, h, State.inst?]

/-- A change under an id that keeps the id is found under it. -/
theorem State.inst?_onInst (h : s.inst? id = some x) {f : InstSt → InstSt} (hf : ∀ x, (f x).id = x.id) :
    (s.onInst id f).inst? id = some (f x) := by
  have hid := State.id_of_inst? h
  have hkeeps : ((fun x : InstSt => x.id == id) ∘ fun x => if x.id = id then f x else x) = fun x => x.id == id := by
    funext y
    by_cases hy : y.id = id <;> simp [hy, hf]
  rw [State.inst?] at h
  simp only [State.inst?, State.onInst, State.onJn_jn, List.find?_map, hkeeps, h, Option.map_some, hid, if_true]

theorem changes_onJn (s : State) (f : StJn → StJn) : Changes [.jn] s (s.onJn f) :=
  ⟨rfl, fun p hp => by cases p <;> simp [Part.same] at hp ⊢⟩

theorem changes_onInst (s : State) (id : Nat) (f : InstSt → InstSt) : Changes [.jn] s (s.onInst id f) := changes_onJn s _

/-- A template is read from objects alone. -/
theorem State.tmpl_congr (ho : t.objs = s.objs) (hk : x.SameKind y) : t.tmpl y = s.tmpl x := by
  obtain ⟨hid, htmpl, hparam⟩ := hk
  have hobj (k : Nat) : t.obj k = s.obj k := State.obj_congr ho k
  have hn (k : Nat) : t.n k = s.n k := State.n_congr ho k
  have hconf : t.conf = s.conf := funext hobj
  have hnj (a : Nat) : t.nj a = s.nj a := by rw [State.nj, hn, State.nj]
  have hvendor : vendorTmpl t x.id = vendorTmpl s x.id := by simp only [vendorTmpl, hconf, hn, hnj]
  rw [State.tmpl, hid, htmpl, hparam, hvendor, hobj, State.tmpl]

theorem State.home_congr (ho : t.objs = s.objs) (hk : x.SameKind y) : t.home y = s.home x := by
  have hstreet : t.street = s.street := by
    funext n
    simp only [State.street, State.bit, State.n_congr ho]
  rw [State.home, State.tmpl_congr ho hk, hstreet, State.home]

theorem nextStreet_lt (w : Nat → Bool) (n k : Nat) : nextStreet w n k < 8 := by
  induction k generalizing n with
  | zero => exact Nat.mod_lt _ (by decide)
  | succ k ih =>
    rw [nextStreet]
    split
    · exact Nat.mod_lt _ (by decide)
    · exact ih _

theorem State.home_lt (s : State) (x : InstSt) : s.home x < 8 := nextStreet_lt ..

/-- A change of instances that keeps their kinds leaves every task its priority. -/
theorem State.prio_onInst (s : State) (id : Nat) {f : InstSt → InstSt} (hf : ∀ x : InstSt, x.SameKind (f x)) (k : Fired) :
    (s.onInst id f).prio k = s.prio k := by
  have hkind (y : InstSt) : y.SameKind (if y.id = id then f y else y) := by
    split
    · exact hf y
    · exact ⟨rfl, rfl, rfl⟩
  have hfind : ((fun y : InstSt => y.id == k.inst) ∘ fun y => if y.id = id then f y else y) = fun y => y.id == k.inst :=
    funext fun y => congrArg (· == k.inst) (hkind y).1
  have htmpl : (fun y => ((s.onInst id f).tmpl y).prio) ∘ (fun y => if y.id = id then f y else y) = fun y => (s.tmpl y).prio :=
    funext fun y => congrArg Tmpl.prio (State.tmpl_congr (s := s) (t := s.onInst id f) rfl (hkind y))
  simp only [State.prio, State.inst?, State.onInst, State.onJn_jn, List.find?_map, hfind, Option.map_map]
  exact congrArg (fun g => (Option.map g _).getD 3) htmpl

theorem State.weakSlot_onInst (s : State) (id : Nat) {f : InstSt → InstSt} (hf : ∀ x : InstSt, x.SameKind (f x)) (st p : Nat) :
    (s.onInst id f).weakSlot st p = s.weakSlot st p := by
  have hprio : (s.onInst id f).prio = s.prio := funext (s.prio_onInst id hf)
  have hlanes : (s.onInst id f).lanes = s.lanes := rfl
  rw [State.weakSlot, hprio, hlanes, State.weakSlot]

end

/-! ### Ready lists (R232) -/

theorem StJn.list_onList {j : StJn} {st p : Nat} (h : 4 * st + p < j.ready.length) (f : List Fired → List Fired) :
    (j.onList st p f).list st p = f (j.list st p) := getD_modAt_same h f []

/-- A ready task takes its place at the end of a ready list. -/
def State.joinList (s : State) (st p : Nat) (k : Fired) : State := s.onJn (fun j => j.onList st p (fun r => r ++ [k]))

theorem State.makeReady_joins {s : State} {x : InstSt} {k : Fired} (hx : s.inst? k.inst = some x)
    (hweak : s.weakSlot (s.home x) (s.tmpl x).prio = none) : s.makeReady k = s.joinList (s.home x) (s.tmpl x).prio k := by
  simp only [State.makeReady, hx, hweak, State.joinList]

theorem State.list_joinList {s : State} {st p : Nat} (hready : s.jn.ready.length = 32) (hst : st < 8) (hp : p < 4) (k : Fired) :
    (s.joinList st p k).jn.list st p = s.jn.list st p ++ [k] := StJn.list_onList (by omega) _

theorem changes_joinList (s : State) (st p : Nat) (k : Fired) : Changes [.jn] s (s.joinList st p k) := changes_onJn s _

/-! ### Firing (R228) -/

/-- The next tag has come, and every port takes the token of the next cycle. -/
def InstSt.advance (x : InstSt) : InstSt := { x with tag := (x.tag + 1) % 65536, ports := x.ports.map JPort.shift }

/-- The task that fires. -/
def InstSt.fired (x : InstSt) (id : Nat) : Fired := ⟨id, x.tag, x.ports.filterMap JPort.cur, x.block, false⟩

section
variable {s : State} {id : Nat} {x : InstSt} (hx : s.inst? id = some x)
include hx

/-- Where a port is empty, nothing fires. -/
theorem State.fire_waits (h : ∃ q ∈ x.ports, q.cur = none) : s.fire id = s := by
  obtain ⟨q, hq, hcur⟩ := h
  have hnot : x.ports.all (fun p => p.cur.isSome) = false := by
    rw [List.all_eq_false]
    exact ⟨q, hq, by simp [hcur]⟩
  simp [State.fire, hx, hnot]

/-- With all operands, and with neither a release offset nor a weaker task in a slot, the task fires into its ready list. -/
theorem State.fire_joins (hon : s.jnOn = true) (hshed : s.shedInst x = false) (hne : x.ports ≠ [])
    (hfull : x.ports.all (fun p => p.cur.isSome) = true) (hdue : tagDue x.tag s.cycle = true) (hrel : (s.tmpl x).release = 0)
    (hweak : s.weakSlot (s.home x) (s.tmpl x).prio = none) :
    s.fire id = (s.onInst id InstSt.advance).joinList (s.home x) (s.tmpl x).prio (x.fired id) := by
  have htmpl (y : InstSt) (hk : x.SameKind y) : (s.onInst id InstSt.advance).tmpl y = s.tmpl x := State.tmpl_congr rfl hk
  have hhome : (s.onInst id InstSt.advance).home x.advance = s.home x := State.home_congr rfl ⟨rfl, rfl, rfl⟩
  have hfired : (s.onInst id InstSt.advance).inst? (x.fired id).inst = some x.advance := State.inst?_onInst hx fun _ => rfl
  have hweak' : (s.onInst id InstSt.advance).weakSlot (s.home x) (s.tmpl x).prio = none := by
    rw [State.weakSlot_onInst s id (f := InstSt.advance) (fun _ => ⟨rfl, rfl, rfl⟩), hweak]
  have hfire : s.fire id = (s.onInst id InstSt.advance).enlist x (x.fired id) := by
    have hempty : x.ports.isEmpty = false := by simpa using hne
    simp only [State.fire, hx, hon, hshed, hempty, hfull, hdue]
    rfl
  have hready := State.makeReady_joins hfired
  rw [hhome, htmpl x.advance ⟨rfl, rfl, rfl⟩] at hready
  rw [hfire, State.enlist, if_pos (by rw [htmpl x ⟨rfl, rfl, rfl⟩, hrel]), hready hweak']

end

/-- A port of a list changes; another empty one, or an empty one that stays empty, still waits. -/
theorem exists_empty_modAt {l : List JPort} {i : Nat} {p q : JPort} {f : JPort → JPort} (hp : l[i]? = some p) (hq : q ∈ l)
    (hcur : q.cur = none) (h : q ≠ p ∨ (f p).cur = none) : ∃ r ∈ modAt l i f, r.cur = none := by
  obtain ⟨j, hj⟩ := List.getElem?_of_mem hq
  by_cases hij : i = j
  · subst hij
    obtain rfl : q = p := by simpa [hj] using hp
    exact ⟨f q, List.mem_of_getElem? ((getElem?_modAt_same l i f).trans (by simp [hj])), h.resolve_left (fun hne => hne rfl)⟩
  · exact ⟨q, List.mem_of_getElem? ((getElem?_modAt_other l f hij).trans hj), hcur⟩

/-! ### Tokens at their ports (R228) -/

theorem length_jnStatus : (objDefault kJnStatus).length = 2 := by decide

theorem length_jnTokenDrop : (objDefault kJnTokenDrop).length = 4 := by decide

/-- A counter of four bytes, in the words of the statements. -/
theorem State.n_inc_wrapped (s : State) {k : Nat} (hlen : (objDefault k).length = 4) :
    (s.inc k).n k = min (s.n k + 1) (2 ^ 32 - 1) % 2 ^ 32 := by
  rw [State.n_inc_same s hlen]
  omega

/-- A dropped token is counted, and TOKEN_DROP tells it. -/
theorem State.dropToken_drops (s : State) : s.dropToken.jn = s.jn ∧ s.dropToken.bit kJnStatus 3 = true ∧
    s.dropToken.n kJnTokenDrop = min (s.n kJnTokenDrop + 1) (2 ^ 32 - 1) % 2 ^ 32 ∧
    ChangesObjs [kJnStatus, kJnTokenDrop] s s.dropToken ∧ Changes [.objs] s s.dropToken := by
  refine ⟨rfl, ?status, ?count, ?objs, (changes_setBit s _ _ _).trans (changes_setN _ _ _)⟩
  case status =>
    rw [State.dropToken, State.bit, State.n_inc_other _ (by decide)]
    exact State.bit_setBit_same s _ _ _ (by rw [length_jnStatus]; decide)
  case count =>
    rw [State.dropToken, State.n_inc_wrapped _ length_jnTokenDrop, State.n_setBit_other _ _ _ (by decide)]
  case objs =>
    exact ((changesObjs_setBit s _ _ _).mono (by decide)).trans ((changesObjs_setN _ _ _).mono (by decide))

/-- A port takes a token of the current tag, or of the next one. -/
def JPort.take (p : JPort) (t : Tok) : JPort := { p with cur := some t, last := some t, age := t.age }
def JPort.takeNext (p : JPort) (t : Tok) : JPort := { p with nxt := some t, last := some t, age := t.age }

/-- A change of one port. -/
def State.onPort (s : State) (id port : Nat) (f : JPort → JPort) : State :=
  s.onInst id (fun x => { x with ports := modAt x.ports port f })

section
variable {s : State} {id port tag : Nat} {t : Tok} {x : InstSt} {p : JPort}

theorem State.inst?_onPort (hx : s.inst? id = some x) (f : JPort → JPort) :
    (s.onPort id port f).inst? id = some { x with ports := modAt x.ports port f } := State.inst?_onInst hx fun _ => rfl

theorem State.weakSlot_onPort (s : State) (id port : Nat) (f : JPort → JPort) (st p : Nat) :
    (s.onPort id port f).weakSlot st p = s.weakSlot st p :=
  s.weakSlot_onInst id (f := fun x => { x with ports := modAt x.ports port f }) (fun _ => ⟨rfl, rfl, rfl⟩) st p

theorem State.ports_onPort (hx : s.inst? id = some x) (f : JPort → JPort) :
    ((s.onPort id port f).inst? id).map InstSt.ports = some (modAt x.ports port f) := by
  rw [State.inst?_onPort hx, Option.map_some]

/-- The operand of a changed port. -/
theorem State.cur_onPort (hx : s.inst? id = some x) {p : JPort} (hp : x.ports[port]? = some p) (f : JPort → JPort) :
    (((s.onPort id port f).inst? id).bind (fun y => y.ports[port]?)).bind JPort.cur = (f p).cur := by
  rw [State.inst?_onPort hx, Option.bind_some, getElem?_modAt_same, hp]
  rfl

theorem changes_onPort (s : State) (id port : Nat) (f : JPort → JPort) : Changes [.jn] s (s.onPort id port f) := changes_onInst s id _

variable (hon : s.jnOn = true) (hx : s.inst? id = some x) (hp : x.ports[port]? = some p)
include hon hx hp

theorem State.place_eq : s.place id port tag t =
    if tag = x.tag then
      if p.subst then s.dropToken
      else if p.cur.isSome then s.inc kJnTokenDrop
      else if port = 0 then (s.onPort id port (JPort.take · t)).checkMeas id t.age else s.onPort id port (JPort.take · t)
    else if tag = (x.tag + 1) % 65536 then
      if p.nxt.isSome then s.inc kJnTokenDrop else s.onPort id port (JPort.takeNext · t)
    else s.dropToken := by
  simp only [State.place, hx, hon, hp]
  rfl

theorem State.place_drops (h : tag ≠ x.tag ∧ tag ≠ (x.tag + 1) % 65536 ∨ tag = x.tag ∧ p.subst = true) :
    s.place id port tag t = s.dropToken := by
  rw [State.place_eq hon hx hp]
  obtain ⟨hcur, hnext⟩ | ⟨hcur, hsubst⟩ := h
  · rw [if_neg hcur, if_neg hnext]
  · rw [if_pos hcur, if_pos hsubst]

theorem State.place_filled (htag : tag = x.tag) (hsubst : p.subst = false) (hcur : p.cur.isSome = true) :
    s.place id port tag t = s.inc kJnTokenDrop := by
  simp only [State.place_eq hon hx hp, htag, hsubst, hcur, if_true, Bool.false_eq_true, if_false]

theorem State.place_next (htag : tag = (x.tag + 1) % 65536) (hother : tag ≠ x.tag) (hnext : p.nxt = none) :
    s.place id port tag t = s.onPort id port (JPort.takeNext · t) := by
  simp only [State.place_eq hon hx hp, if_neg hother, if_pos htag, hnext, Option.isSome_none, Bool.false_eq_true, if_false]

/-- Only a KIN judges the age of what it takes (R238). -/
theorem State.place_current (htag : tag = x.tag) (hsubst : p.subst = false) (hcur : p.cur = none) (hid : 8 ≤ id) :
    s.place id port tag t = s.onPort id port (JPort.take · t) := by
  have hage : (s.onPort id port (JPort.take · t)).checkMeas id t.age = s.onPort id port (JPort.take · t) := if_pos hid
  simp only [State.place_eq hon hx hp, htag, hsubst, hcur, hage, if_true, Option.isSome_none, Bool.false_eq_true, if_false, ite_self]

/-! What a token does while a port stays empty. -/

theorem State.arrive_drops (hwaits : ∃ q ∈ x.ports, q.cur = none)
    (h : tag ≠ x.tag ∧ tag ≠ (x.tag + 1) % 65536 ∨ tag = x.tag ∧ p.subst = true) : s.arrive id port tag t = s.dropToken := by
  rw [State.arrive, State.place_drops hon hx hp h]
  exact State.fire_waits (s := s.dropToken) hx hwaits

theorem State.arrive_filled (hwaits : ∃ q ∈ x.ports, q.cur = none) (htag : tag = x.tag) (hsubst : p.subst = false)
    (hcur : p.cur.isSome = true) : s.arrive id port tag t = s.inc kJnTokenDrop := by
  rw [State.arrive, State.place_filled hon hx hp htag hsubst hcur]
  exact State.fire_waits (s := s.inc kJnTokenDrop) hx hwaits

theorem State.arrive_next (hwaits : ∃ q ∈ x.ports, q.cur = none) (htag : tag = (x.tag + 1) % 65536) (hother : tag ≠ x.tag)
    (hnext : p.nxt = none) : s.arrive id port tag t = s.onPort id port (JPort.takeNext · t) := by
  obtain ⟨q, hq, hcur⟩ := hwaits
  have hstill : q ≠ p ∨ (p.takeNext t).cur = none := (ne_or_eq q p).imp_right fun (he : q = p) => he ▸ hcur
  rw [State.arrive, State.place_next hon hx hp htag hother hnext]
  exact State.fire_waits (State.inst?_onPort hx _) (exists_empty_modAt hp hq hcur hstill)

theorem State.arrive_current (htag : tag = x.tag) (hsubst : p.subst = false) (hcur : p.cur = none) (hid : 8 ≤ id)
    (hwaits : ∃ q ∈ x.ports, q.cur = none ∧ q ≠ p) : s.arrive id port tag t = s.onPort id port (JPort.take · t) := by
  obtain ⟨q, hq, hqcur, hne⟩ := hwaits
  rw [State.arrive, State.place_current hon hx hp htag hsubst hcur hid]
  exact State.fire_waits (State.inst?_onPort hx _) (exists_empty_modAt hp hq hqcur (.inl hne))

end

/-- The last operand fires: the task joins the ready list of its home and priority. -/
theorem State.arrive_last {s : State} {id tag : Nat} {t : Tok} {x : InstSt} {p : JPort} (hon : s.jnOn = true) (hx : s.inst? id = some x)
    (htag : tag = x.tag) (hports : x.ports = [p]) (hsubst : p.subst = false) (hcur : p.cur = none) (hid : 8 ≤ id)
    (hdue : tagDue x.tag s.cycle = true) (hshed : s.shedInst x = false) (hrel : (s.tmpl x).release = 0)
    (hweak : s.weakSlot (s.home x) (s.tmpl x).prio = none) :
    s.arrive id 0 tag t = ((s.onPort id 0 (JPort.take · t)).onInst id InstSt.advance).joinList (s.home x) (s.tmpl x).prio
      ⟨id, x.tag, [t], x.block, false⟩ := by
  have hp : x.ports[0]? = some p := by rw [hports]; rfl
  have hfilled : (s.onPort id 0 (JPort.take · t)).inst? id = some { x with ports := [p.take t] } := by
    rw [State.inst?_onPort hx, hports]
    rfl
  have htmpl : (s.onPort id 0 (JPort.take · t)).tmpl { x with ports := [p.take t] } = s.tmpl x := State.tmpl_congr rfl ⟨rfl, rfl, rfl⟩
  have hhome : (s.onPort id 0 (JPort.take · t)).home { x with ports := [p.take t] } = s.home x := State.home_congr rfl ⟨rfl, rfl, rfl⟩
  have hjoins := State.fire_joins hfilled hon hshed (List.cons_ne_nil _ _) rfl hdue
  rw [htmpl, hhome, State.weakSlot_onPort] at hjoins
  rw [State.arrive, State.place_current hon hx hp htag hsubst hcur hid]
  exact hjoins hrel hweak

/-! ### RX deadline (R230) -/

/-- An empty port takes its last token, one cycle older and STALE; one that never had a token takes zeros of the greatest age. -/
def JPort.substitute (len : Nat) (q : JPort) : JPort :=
  let age := if q.last.isNone then 255 else min (q.age + 1) 255
  { q with cur := some { q.last.getD ⟨zeros len, false, true, 255, none⟩ with stale := true, age := age }, subst := true, age := age }

theorem JPort.cur_substitute_some {q : JPort} {l : Tok} (h : q.last = some l) (len : Nat) :
    (q.substitute len).cur = some { l with stale := true, age := min (q.age + 1) 255 } := by simp [JPort.substitute, h]

theorem JPort.cur_substitute_none {q : JPort} (h : q.last = none) (len : Nat) :
    (q.substitute len).cur = some ⟨zeros len, false, true, 255, none⟩ := by simp [JPort.substitute, h]

section
variable {s : State} {x : InstSt} {p q : JPort} {len : Nat}

/-- The empty RX port is filled; as the other port is empty, nothing fires. -/
theorem State.substitute_first (hx : s.inst? x.id = some x) (hports : x.ports = [p, q]) (hp : p.cur = none) (hq : q.cur = none)
    (hdue : tagDue x.tag s.cycle = true) (hrx : s.rxPorts x.id = [(0, len)]) (hid : 8 ≤ x.id) :
    s.substitute x = (s.setBit kJnStatus 2 true).onPort x.id 0 (JPort.substitute len) := by
  let u := (s.setBit kJnStatus 2 true).onPort x.id 0 (JPort.substitute len)
  have hu : u.inst? x.id = some { x with ports := modAt x.ports 0 (JPort.substitute len) } :=
    State.inst?_onPort (s := s.setBit kJnStatus 2 true) hx _
  have hfire : u.fire x.id = u := State.fire_waits hu ⟨q, by simp [hports, modAt], hq⟩
  have hmeas (age : Nat) : u.checkMeas x.id age = u := if_pos hid
  have hempty : (s.rxPorts x.id).filter (fun r => (x.ports[r.1]?).any (fun q => q.cur.isNone)) = [(0, len)] := by
    simp [hrx, hports, hp]
  have hsub : ∃ age, s.substitute x = (u.checkMeas x.id age).fire x.id := by
    simp only [State.substitute, hdue, hempty]
    exact ⟨_, rfl⟩
  obtain ⟨age, hsub⟩ := hsub
  rw [hsub, hmeas, hfire]

theorem rxDeadlineSubstitution_off (h : s.jnOn = false) : rxDeadlineSubstitution s = s := by simp [rxDeadlineSubstitution, h]

/-- Instances whose RX time has come. -/
def State.rxDue (s : State) : List InstSt :=
  let now := s.cellNs - s.cycle * s.tns
  s.jn.insts.filter (fun x => let r := (s.tmpl x).rx; r != 0 && decide (r + 200 ≤ now))

theorem rxDeadlineSubstitution_on (h : s.jnOn = true) :
    rxDeadlineSubstitution s = s.rxDue.foldl (fun s x => s.substitute x) s := by
  have hoff : ¬ (!s.jnOn) = true := by rw [h]; decide
  exact if_neg hoff

theorem State.rxDue_single (hinsts : s.jn.insts = [x]) (hrx : (s.tmpl x).rx ≠ 0)
    (hnow : (s.tmpl x).rx + 200 ≤ s.cellNs - s.cycle * s.tns) : s.rxDue = [x] := by
  dsimp only [State.rxDue]
  rw [hinsts, List.filter_singleton, decide_eq_true hnow, bne_iff_ne.2 hrx, Bool.and_self, cond_true]

/-- The deadline where the RX time of one task of two empty ports has come. -/
theorem rxDeadlineSubstitution_single (hon : s.jnOn = true) (hinsts : s.jn.insts = [x]) (hports : x.ports = [p, q]) (hp : p.cur = none)
    (hq : q.cur = none) (hrx : (s.tmpl x).rx ≠ 0) (hnow : (s.tmpl x).rx + 200 ≤ s.cellNs - s.cycle * s.tns)
    (hdue : tagDue x.tag s.cycle = true) (hrange : s.rxPorts x.id = [(0, len)]) (hid : 8 ≤ x.id) :
    rxDeadlineSubstitution s = (s.setBit kJnStatus 2 true).onPort x.id 0 (JPort.substitute len) := by
  rw [rxDeadlineSubstitution_on hon, State.rxDue_single hinsts hrx hnow, List.foldl_cons, List.foldl_nil]
  exact State.substitute_first (State.inst?_of_single hinsts) hports hp hq hdue hrange hid

end

/-! ### Release ticks (R233) -/

/-- What a release tick does in one Street. -/
def State.releaseStreet (tick : Nat) (s : State) (st : Nat) : State :=
  ((s.jn.delay.getD st []).filter (fun p => decide (p.1 ≤ tick))).foldl (fun s p => s.makeReady p.2)
    (s.onJn (fun j => { j with delay := modAt j.delay st (fun l => l.filter (fun p => decide (tick < p.1))) }))

theorem releaseTick_eq (tick : Nat) {s : State} (h : s.mon.stopped = false) :
    releaseTick tick s = (List.range 8).foldl (State.releaseStreet tick) s := by
  simp only [releaseTick, h]
  rfl

theorem modAt_fixed {α : Type} {l : List α} {i : Nat} {f : α → α} (h : ∀ a, l[i]? = some a → f a = a) : modAt l i f = l := by
  refine List.ext_getElem? fun j => ?_
  by_cases hij : i = j
  · subst hij
    rw [getElem?_modAt_same]
    cases hi : l[i]? with
    | none => rfl
    | some a => exact congrArg some (h a hi)
  · exact getElem?_modAt_other l f hij

/-- A Street in which no task is due stays as it is. -/
theorem State.releaseStreet_idle {tick : Nat} {s : State} {st : Nat} (h : ∀ p ∈ s.jn.delay.getD st [], tick < p.1) :
    s.releaseStreet tick st = s := by
  have hnone : (s.jn.delay.getD st []).filter (fun p => decide (p.1 ≤ tick)) = [] := by
    rw [List.filter_eq_nil_iff]
    intro p hp
    simpa using h p hp
  have hdelay : modAt s.jn.delay st (fun l => l.filter (fun p => decide (tick < p.1))) = s.jn.delay := by
    refine modAt_fixed fun l hl => List.filter_eq_self.2 fun p hp => decide_eq_true (h p ?_)
    rwa [List.getD_eq_getElem?_getD, hl]
  rw [State.releaseStreet, hnone, List.foldl_nil, State.onJn, hdelay]

/-- Streets in which no task is due, one after another. -/
theorem State.foldl_releaseStreet_idle {tick : Nat} {s : State} {l : List Nat} (h : ∀ st ∈ l, ∀ p ∈ s.jn.delay.getD st [], tick < p.1) :
    l.foldl (State.releaseStreet tick) s = s := by
  induction l with
  | nil => rfl
  | cons st l ih =>
    rw [List.foldl_cons, State.releaseStreet_idle (h st List.mem_cons_self)]
    exact ih fun k hk => h k (List.mem_cons_of_mem _ hk)

/-- No task is delayed. -/
def State.noDelay (s : State) : State := s.onJn (fun j => { j with delay := List.replicate 8 [] })

/-- The delay lists when a single task is delayed. -/
def soleDelay (st r : Nat) (f : Fired) : List (List (Nat × Fired)) := modAt (List.replicate 8 []) st (fun _ => [(r, f)])

theorem soleDelay_same {st : Nat} (h : st < 8) (r : Nat) (f : Fired) : (soleDelay st r f).getD st [] = [(r, f)] :=
  getD_modAt_same (by simpa using h) _ _

theorem getD_noDelay (st : Nat) : (List.replicate 8 ([] : List (Nat × Fired))).getD st [] = [] := by
  rw [List.getD_eq_getElem?_getD, List.getElem?_replicate]
  split <;> rfl

theorem soleDelay_other {st i : Nat} (h : st ≠ i) (r : Nat) (f : Fired) : (soleDelay st r f).getD i [] = [] := by
  rw [List.getD_eq_getElem?_getD, soleDelay, getElem?_modAt_other _ _ h, ← List.getD_eq_getElem?_getD, getD_noDelay]

/-- The delay lists without their single task. -/
theorem modAt_soleDelay (st r : Nat) (f : Fired) {g : List (Nat × Fired) → List (Nat × Fired)} (hg : g [(r, f)] = []) :
    modAt (soleDelay st r f) st g = List.replicate 8 [] := by
  refine List.ext_getElem? fun i => ?_
  by_cases hi : st = i
  · subst hi
    rw [getElem?_modAt_same, soleDelay, getElem?_modAt_same, Option.map_map, List.getElem?_replicate]
    split
    · exact congrArg some hg
    · rfl
  · rw [getElem?_modAt_other _ _ hi, soleDelay, getElem?_modAt_other _ _ hi]

/-- The Streets, cut at one of them. -/
theorem range_cut {st : Nat} (h : st < 8) : ∃ l r, List.range 8 = l ++ st :: r ∧ st ∉ l ∧ st ∉ r := by
  obtain ⟨l, r, hrange⟩ := List.append_of_mem (List.mem_range.2 h)
  have hnodup : (l ++ st :: r).Nodup := hrange ▸ List.nodup_range
  have hmem : st ∉ l ++ r := (List.nodup_cons.1 (List.nodup_middle.1 hnodup)).1
  exact ⟨l, r, hrange, fun hl => hmem (List.mem_append_left r hl), fun hr => hmem (List.mem_append_right l hr)⟩

section
variable {s : State} {tick st r : Nat} {f : Fired} (hstopped : s.mon.stopped = false) (hst : st < 8) (hdelay : s.jn.delay = soleDelay st r f)
include hstopped hst hdelay

theorem releaseTick_early (h : tick < r) : releaseTick tick s = s := by
  rw [releaseTick_eq tick hstopped]
  refine State.foldl_releaseStreet_idle fun i _ p hp => ?_
  rw [hdelay] at hp
  by_cases hi : st = i
  · subst hi
    rw [soleDelay_same hst, List.mem_singleton] at hp
    rwa [hp]
  · rw [soleDelay_other hi] at hp
    exact absurd hp List.not_mem_nil

/-- At its tick the delayed task becomes ready, and no task is delayed any more. -/
theorem releaseTick_due {x : InstSt} (h : r ≤ tick) (hx : s.inst? f.inst = some x)
    (hweak : s.weakSlot (s.home x) (s.tmpl x).prio = none) :
    releaseTick tick s = s.noDelay.joinList (s.home x) (s.tmpl x).prio f := by
  obtain ⟨before, after, hrange, hbefore, hafter⟩ := range_cut hst
  have hstreet : s.releaseStreet tick st = s.noDelay.joinList (s.home x) (s.tmpl x).prio f := by
    have hlater : ([(r, f)].filter (fun p => decide (tick < p.1))) = [] := by simp [h]
    have hnow : ([(r, f)].filter (fun p => decide (p.1 ≤ tick))) = [(r, f)] := by simp [h]
    have hu : s.onJn (fun j => { j with delay := modAt j.delay st (fun l => l.filter (fun p => decide (tick < p.1))) }) = s.noDelay := by
      rw [State.onJn, hdelay, modAt_soleDelay st r f hlater, State.noDelay, State.onJn]
    rw [State.releaseStreet, hdelay, soleDelay_same hst, hnow, hu]
    exact State.makeReady_joins (s := s.noDelay) hx hweak
  rw [releaseTick_eq tick hstopped, hrange, List.foldl_append, List.foldl_cons, State.foldl_releaseStreet_idle (l := before), hstreet]
  · refine State.foldl_releaseStreet_idle fun i _ p hp => ?_
    have hnone : (s.noDelay.joinList (s.home x) (s.tmpl x).prio f).jn.delay.getD i [] = [] := getD_noDelay i
    rw [hnone] at hp
    exact absurd hp List.not_mem_nil
  · intro i hi p hp
    rw [hdelay, soleDelay_other fun he : st = i => hbefore (he ▸ hi)] at hp
    exact absurd hp List.not_mem_nil

end

end Sys2Proof.Machine
end

section
/-! SUPPORT. Tasks of the Lanes: how a task starts, what is booked at its end or its abort, and the work of the Junction that
leaves running tasks and books alone (R234, R237, R251, R255, R267). -/

namespace Sys2Proof.Machine

theorem exec_taskStart (l : Fin 64) (s : State) : exec (.taskStart l) s = .next (taskStart l s) := rfl
theorem exec_taskAbort (id : Fin 1024) (s : State) : exec (.taskAbort id) s = .next (taskAbort id s) := rfl
theorem exec_dmaDone (l : Fin 64) (s : State) : exec (.dmaDone l) s = .next (dmaDone l s) := rfl
theorem exec_endTask (l : Fin 64) (w : LaneR) (s : State) : exec (.endTask l w) s = .next (endTask l w s) := rfl

/-! ### TASK_START (R234, R251) -/

theorem changes_onLane (s : State) (l : Nat) (f : LaneSt → LaneSt) : Changes [.lanes] s (s.onLane l f) :=
  ⟨rfl, fun p hp => by cases p <;> simp [Part.same] at hp ⊢⟩

/-- The choice of a task takes it out of its ready list, and counts a steal. -/
theorem State.choose_changes {s t : State} {st : Nat} {k : SlotTask} (h : s.choose st = some (k, t)) : Changes [.jn, .objs] s t := by
  have hjn (j : StJn) : Changes [.jn, .objs] s { s with jn := j } := (changes_onJn s fun _ => j).mono (by decide)
  unfold State.choose at h
  split at h
  case h_1 _ _ j _ =>
    obtain ⟨-, rfl⟩ := by simpa using h
    exact hjn j
  case h_2 =>
    obtain ⟨-, h⟩ := Option.ite_none_left_eq_some.1 h
    split at h
    case h_1 _ _ j _ =>
      obtain ⟨-, rfl⟩ := by simpa using h
      exact (hjn j).trans ((changes_setObj _ _ _).mono (by decide))
    case h_2 => cases h

/-- A prefetch fills the slot of its Lane. -/
theorem State.prefetch_lane {s : State} {l : Nat} {z : LaneSt} (hz : s.lanes[l]? = some z) :
    ∃ o, (s.prefetch l).lanes[l]? = some { z with slot := o } := by
  unfold State.prefetch
  split
  · exact ⟨z.slot, hz⟩
  · split
    case h_1 _ k t hchoose =>
      have hlanes : t.lanes = s.lanes := (State.choose_changes hchoose).2 .lanes (by decide)
      exact ⟨some k, by rw [State.onLane_lanes, getElem?_modAt_same, hlanes, hz, Option.map_some]⟩
    case h_2 => exact ⟨z.slot, hz⟩

section
variable {s : State} {l : Fin 64} {y : LaneSt} (hy : s.lanes[l.val]? = some y)
include hy

theorem taskStart_busy (h : y.task.isSome = true) : taskStart l s = s := by simp [taskStart, hy, h]

/-- An idle Lane begins the task of its slot, counts it and prefetches the next one. -/
theorem taskStart_begins {k : SlotTask} {x : InstSt} (hon : s.jnOn = true) (hstreet : s.street (l.val / 8) = true) (hidle : y.task = none)
    (hslot : y.slot = some k) (hx : s.inst? k.task.inst = some x) :
    ∃ o, (taskStart l s).lanes[l.val]? = some { y.begin x (s.tmpl x) (s.entry (s.tmpl x).kernel) k.task with slot := o } := by
  have hpre : s.prefetch l.val = s := by simp [State.prefetch, hy, hslot]
  have hstart : taskStart l s = ((s.onLane l.val (fun y => y.begin x (s.tmpl x) (s.entry (s.tmpl x).kernel) k.task)).count l.val 1
      [(3, 1), (0x10, 1), (0x13, b01 k.task.stolen)]).prefetch l.val := by
    simp [taskStart, hy, hidle, hon, hstreet, hpre, hslot, hx]
  rw [hstart]
  refine State.prefetch_lane ?_
  rw [State.count_lanes, State.onLane_lanes, getElem?_modAt_same, hy, Option.map_some]

end

/-! ### DMA_DONE (R267) -/

theorem dmaDone_eq (l : Fin 64) {s : State} (h : s.mon.stopped = false) :
    dmaDone l s = s.onLane l.val (fun y => { y with dma := none }) := by simp [dmaDone, h]

/-! ### What a Lane counts (R270, R271) -/

section
variable (s : State)

theorem changes_count (e slots : Nat) (evs : List (Nat × Nat)) : Changes [.objs, .cnts] s (s.count e slots evs) :=
  ⟨rfl, fun p hp => by cases p <;> simp [Part.same, State.count] at hp ⊢⟩

/-- What has passed unseen on an engine changes its counters and their overflow flags, and takes free values. -/
theorem changes_slack (e : Nat) : Changes [.free, .objs, .cnts] s (s.slack e) := by
  unfold State.slack
  split
  · exact .refl _ s
  · exact ⟨rfl, fun p hp => by cases p <;> simp [Part.same] at hp ⊢⟩

theorem changes_abortCounts (id : Nat) : Changes [.free, .objs, .cnts] s (s.abortCounts id) := by
  unfold State.abortCounts
  split
  case h_1 l _ =>
    have hslack : Changes [.free, .objs, .cnts] s (if s.vendorRun l then s.slack l else s) := by
      split
      · exact changes_slack s l
      · exact .refl _ s
    exact hslack.trans ((changes_count _ _ _ _).mono (by decide))
  case h_2 => exact .refl _ s

end

/-! ### Running tasks and the books of instances -/

/-- What stays of the tasks of one id: state block, late ones, and the outputs of the last one. -/
structure Books where
  id : Nat
  block : Bytes
  late : Nat
  consec : Nat
  outs : Option (List Bytes)

def InstSt.books (x : InstSt) : Books := ⟨x.id, x.block, x.late, x.consec, x.outs⟩

/-- The Lanes run the tasks that they ran, and the books of all instances are as they were. -/
structure KeepsWork (s t : State) : Prop where
  tasks : t.lanes.map LaneSt.task = s.lanes.map LaneSt.task
  books : t.jn.insts.map InstSt.books = s.jn.insts.map InstSt.books

section
variable {s t u : State}

theorem KeepsWork.refl (s : State) : KeepsWork s s := ⟨rfl, rfl⟩

theorem KeepsWork.trans (hst : KeepsWork s t) (htu : KeepsWork t u) : KeepsWork s u :=
  ⟨htu.tasks.trans hst.tasks, htu.books.trans hst.books⟩

theorem KeepsWork.ite {c : Prop} [Decidable c] (ht : KeepsWork s t) (hu : KeepsWork s u) : KeepsWork s (if c then t else u) := by
  split <;> assumption

theorem KeepsWork.foldl {α : Type} {f : State → α → State} (h : ∀ s x, KeepsWork s (f s x)) (l : List α) (s : State) :
    KeepsWork s (l.foldl f s) := by
  induction l generalizing s with
  | nil => exact .refl s
  | cons x l ih => exact (h s x).trans (ih _)

/-- Work on other parts. -/
theorem KeepsWork.of_changes {ps : List Part} (h : Changes ps s t) (hps : Part.jn ∉ ps ∧ Part.lanes ∉ ps) : KeepsWork s t := by
  have hjn : t.jn = s.jn := h.2 .jn hps.1
  have hlanes : t.lanes = s.lanes := h.2 .lanes hps.2
  exact ⟨by rw [hlanes], by rw [hjn]⟩

theorem KeepsWork.task (h : KeepsWork s t) (l : Nat) : (t.lanes[l]?).map LaneSt.task = (s.lanes[l]?).map LaneSt.task := by
  rw [← List.getElem?_map, h.tasks, List.getElem?_map]

theorem KeepsWork.inst (h : KeepsWork s t) (id : Nat) : (t.inst? id).map InstSt.books = (s.inst? id).map InstSt.books := by
  have hfind (u : State) : (u.inst? id).map InstSt.books = (u.jn.insts.map InstSt.books).find? (fun b => b.id == id) := by
    rw [List.find?_map]
    rfl
  rw [hfind, h.books, hfind]

end

theorem map_modAt {α β : Type} {f : α → α} {g : α → β} (h : ∀ a, g (f a) = g a) (l : List α) (i : Nat) :
    (modAt l i f).map g = l.map g := by
  induction l generalizing i with
  | nil => rfl
  | cons a l ih =>
    cases i with
    | zero => simp only [modAt, List.map_cons, h]
    | succ i => simp only [modAt, List.map_cons, ih]

section
variable (s : State)

theorem keepsWork_onInst (id : Nat) {f : InstSt → InstSt} (hf : ∀ x, (f x).books = x.books) : KeepsWork s (s.onInst id f) := by
  refine ⟨rfl, ?_⟩
  rw [State.onInst, State.onJn_jn, List.map_map]
  refine List.map_congr_left fun x _ => ?_
  by_cases hx : x.id = id <;> simp [hx, hf]

theorem keepsWork_slot (l : Nat) (k : SlotTask) : KeepsWork s (s.onLane l (fun x => { x with slot := some k })) :=
  ⟨map_modAt (fun _ => by rfl) _ _, rfl⟩

theorem keepsWork_setObj (k : Nat) (v : Bytes) : KeepsWork s (s.setObj k v) := .of_changes (changes_setObj s k v) (by decide)

theorem keepsWork_setBit (k b : Nat) (v : Bool) : KeepsWork s (s.setBit k b v) := keepsWork_setObj s k _

theorem keepsWork_inc (k : Nat) : KeepsWork s (s.inc k) := keepsWork_setObj s k _

theorem keepsWork_stopDemand : KeepsWork s s.stopDemand := ⟨rfl, rfl⟩

theorem keepsWork_log (type : Nat) (b : Bytes) : KeepsWork s (s.log type b) :=
  .of_changes (record_recordOnly s 0 type false b).1 (by decide)


/-! ### The work of the Junction -/

theorem keepsWork_makeReady (k : Fired) : KeepsWork s (s.makeReady k) := by
  unfold State.makeReady
  split
  · exact .refl s
  · dsimp only
    split
    · exact (⟨rfl, rfl⟩ : KeepsWork s (s.onJn _)).trans (keepsWork_slot _ _ _)
    · exact ⟨rfl, rfl⟩

theorem keepsWork_enlist (x : InstSt) (k : Fired) : KeepsWork s (s.enlist x k) := .ite (keepsWork_makeReady s k) ⟨rfl, rfl⟩

theorem keepsWork_fire (id : Nat) : KeepsWork s (s.fire id) := by
  unfold State.fire
  split
  · exact .refl s
  · exact .ite (.refl s) ((keepsWork_onInst s id fun _ => by rfl).trans (keepsWork_enlist _ _ _))

theorem keepsWork_checkMeas (id age : Nat) : KeepsWork s (s.checkMeas id age) := by
  have hstop (c : Prop) [Decidable c] : KeepsWork s (if c then s.stopDemand.setBit kJnStatus 5 true else s) :=
    .ite ((keepsWork_stopDemand s).trans (keepsWork_setBit _ _ _ _)) (.refl s)
  refine .ite (.refl s) (.ite (keepsWork_onInst s id fun _ => by rfl) ?_)
  dsimp only
  split
  · exact (hstop _).trans (.ite (.refl _) ((keepsWork_log _ _ _).trans (keepsWork_onInst _ _ fun _ => by rfl)))
  · exact hstop _

theorem keepsWork_place (id port tag : Nat) (t : Tok) : KeepsWork s (s.place id port tag t) := by
  have hcount : KeepsWork s (s.inc kJnTokenDrop) := keepsWork_inc s _
  have hdrop : KeepsWork s s.dropToken := (keepsWork_setBit s _ _ _).trans (keepsWork_inc _ _)
  unfold State.place
  split
  · exact .refl s
  refine .ite (.refl s) ?_
  split
  · exact .refl s
  refine .ite (.ite hdrop (.ite hcount ?_)) (.ite (.ite hcount (keepsWork_onInst s id fun _ => by rfl)) hdrop)
  exact (keepsWork_onInst s id fun _ => by rfl).trans (.ite (keepsWork_checkMeas _ _ _) (.refl _))

theorem keepsWork_txWrite (key cycle : Nat) (v : Bytes) : KeepsWork s (s.txWrite key cycle v) := by
  have hring (s : State) (r : RingId) (x : RingSt) : KeepsWork s (s.setRing r x) := .of_changes (changes_setRing s r x) (by decide)
  unfold State.txWrite
  dsimp only
  refine (KeepsWork.foldl (fun s e => ?_) _ _).trans (.foldl (fun s e => ?_) _ _)
  · exact .ite (.refl s) (hring s .m _)
  · exact .ite (.refl s) (hring s .p _)

theorem keepsWork_toObject (key cycle : Nat) (v : Bytes) : KeepsWork s (s.toObject key cycle v) :=
  (keepsWork_setObj s key v).trans (keepsWork_txWrite _ _ _ _)

theorem keepsWork_placeOut (id port tag : Nat) (t : Tok) : KeepsWork s (s.placeOut id port tag t) := by
  refine KeepsWork.trans ?_ (.foldl (fun s e => keepsWork_toObject s _ _ _) _ _)
  have hplaced : KeepsWork s ((s.consumers id port tag).foldl (fun s p => s.place p.1 p.2.1 p.2.2 t) s) :=
    .foldl (fun s p => keepsWork_place s _ _ _ _) _ _
  exact .ite (hplaced.trans (keepsWork_toObject _ _ _ _)) hplaced

theorem keepsWork_deliverOuts (id tag : Nat) (late stale : Bool) (age : Nat) (outs : List Bytes) :
    KeepsWork s (s.deliverOuts id tag late stale age outs) :=
  (KeepsWork.foldl (fun s _ => keepsWork_placeOut s _ _ _ _) _ s).trans (.foldl keepsWork_fire _ _)

theorem keepsWork_initialOuts (id : Nat) : KeepsWork s (s.initialOuts id).2 := by
  unfold State.initialOuts
  split
  · exact .refl s
  · exact ⟨rfl, rfl⟩

end

/-! ### The end of a task, and its abort (R237, R255) -/

section
variable {s : State} {id : Nat} {x : InstSt}

/-- Previous outputs in place of a task's own: one more late task is booked, and nothing else of the books changes. -/
theorem State.lateOut_books (tag : Nat) (hx : s.inst? id = some x) : ∃ (u : State) (c : Nat), KeepsWork s u ∧
    KeepsWork (u.onInst id (fun x => { x with late := satInc 16 x.late, consec := c })) (s.lateOut id tag) := by
  have hcounted (u : State) (hu : KeepsWork s u) :
      KeepsWork s ((u.inc kJnLateTotal).setBit kJnStatus 1 true) := hu.trans ((keepsWork_inc u _).trans (keepsWork_setBit _ _ _ _))
  have hlogged (u : State) (hu : KeepsWork s u) (b : Bytes) : KeepsWork s (if x.consec = 0 then u.log 0x0330 b else u) :=
    .ite (hu.trans (keepsWork_log u _ _)) hu
  have hdelivered (u : State) (c : Prop) [Decidable c] (outs : List Bytes) :
      KeepsWork u ((if c then u.stopDemand else u).deliverOuts id tag true false 0 outs) :=
    KeepsWork.trans (.ite (keepsWork_stopDemand u) (.refl u)) (keepsWork_deliverOuts _ _ _ _ _ _ _)
  simp only [State.lateOut, hx]
  cases x.outs with
  | some o => exact ⟨_, _, hlogged _ (hcounted s (.refl s)) _, hdelivered _ _ _⟩
  | none => exact ⟨_, _, hlogged _ (hcounted _ (keepsWork_initialOuts s id)) _, hdelivered _ _ _⟩

/-- The books after a late task. -/
theorem State.lateOut_inst (tag : Nat) (hx : s.inst? id = some x) : ∃ y, (s.lateOut id tag).inst? id = some y ∧
    y.late = satInc 16 x.late ∧ y.block = x.block := by
  obtain ⟨u, c, hsu, hlate⟩ := State.lateOut_books tag hx
  have hu := hsu.inst id
  rw [hx, Option.map_some, Option.map_eq_some_iff] at hu
  obtain ⟨z, hz, hbooks⟩ := hu
  have hy := hlate.inst id
  rw [State.inst?_onInst hz fun _ => by rfl, Option.map_some, Option.map_eq_some_iff] at hy
  obtain ⟨y, hy, hybooks⟩ := hy
  have hzlate : z.late = x.late := congrArg Books.late hbooks
  have hylate : y.late = satInc 16 z.late := congrArg Books.late hybooks
  exact ⟨y, hy, by rw [hylate, hzlate], (congrArg Books.block hybooks).trans (congrArg Books.block hbooks)⟩

theorem State.lateOut_tasks (tag : Nat) (hx : s.inst? id = some x) :
    (s.lateOut id tag).lanes.map LaneSt.task = s.lanes.map LaneSt.task := by
  obtain ⟨u, c, hsu, hlate⟩ := State.lateOut_books tag hx
  exact hlate.tasks.trans hsu.tasks

/-- A Lane that has dropped the tasks of an id runs none of them. -/
theorem LaneSt.inst_ne_of_forget {l : LaneSt} {k : LaneTask} (h : (l.forget id).task = some k) : k.task.inst ≠ id := by
  intro hid
  simp only [LaneSt.forget] at h
  split at h
  case isTrue => cases h
  case isFalse hnot => exact hnot (by simp [h, hid])

/-- A task leaves the Lanes and the lists, and is marked as aborted. -/
def State.dropTask (s : State) (k : Fired) : State :=
  ((({ s with lanes := s.lanes.map (fun l => l.forget k.inst) } : State).onJn (fun j => j.forget k.inst)).setBit kJnStatus 4 true).onInst
    k.inst (fun x => { x with aborted := true, stolen := k.stolen })

theorem State.abortTask_eq (s : State) (k : Fired) : s.abortTask k = (s.dropTask k).lateOut k.inst k.tag := rfl

/-- An aborted task has left the Lanes and is booked as late; the state block stays. -/
theorem State.abortTask_books {k : Fired} (hx : s.inst? k.inst = some x) :
    (∀ z ∈ (s.abortTask k).lanes, ∀ j, z.task = some j → j.task.inst ≠ k.inst) ∧
    ∃ y, (s.abortTask k).inst? k.inst = some y ∧ y.late = satInc 16 x.late ∧ y.block = x.block := by
  have hdropped : (s.dropTask k).inst? k.inst = some { x with aborted := true, stolen := k.stolen } := State.inst?_onInst hx fun _ => rfl
  obtain ⟨y, hy, hlate, hblock⟩ := State.lateOut_inst k.tag hdropped
  rw [State.abortTask_eq]
  refine ⟨fun z hz j hj => ?lanes, y, hy, hlate, hblock⟩
  case lanes =>
    have hmem : some j ∈ ((s.dropTask k).lateOut k.inst k.tag).lanes.map LaneSt.task := List.mem_map.2 ⟨z, hz, hj⟩
    rw [State.lateOut_tasks k.tag hdropped] at hmem
    obtain ⟨l, hl, hlj⟩ := List.mem_map.1 hmem
    obtain ⟨l, -, rfl⟩ := List.mem_map.1 hl
    exact LaneSt.inst_ne_of_forget hlj

/-- A task that completes on time leaves its state block and its outputs in the books. -/
theorem State.complete_inst {k : Fired} (hx : s.inst? k.inst = some x) (block : Bytes) (stale : Bool) (age : Nat) (outs : List Bytes) :
    ∃ y, (s.complete k block stale age outs).inst? k.inst = some y ∧ y.block = block ∧ y.outs = some outs ∧ y.consec = 0 := by
  have hbooked := State.inst?_onInst (f := fun x =>
    { x with block := block, outs := some outs, consec := 0, aborted := false, stolen := k.stolen }) hx fun _ => rfl
  have hy : ((s.complete k block stale age outs).inst? k.inst).map InstSt.books = _ :=
    (keepsWork_deliverOuts _ k.inst k.tag false stale age outs).inst k.inst
  rw [hbooked, Option.map_some, Option.map_eq_some_iff] at hy
  obtain ⟨y, hy, hbooks⟩ := hy
  exact ⟨y, hy, congrArg Books.block hbooks, congrArg Books.outs hbooks, congrArg Books.consec hbooks⟩

theorem State.complete_task {k : Fired} (block : Bytes) (stale : Bool) (age : Nat) (outs : List Bytes) (l : Nat) :
    ((s.complete k block stale age outs).lanes[l]?).map LaneSt.task = (s.lanes[l]?).map LaneSt.task :=
  (keepsWork_deliverOuts _ k.inst k.tag false stale age outs).task l

end

/-! ### TASK_ABORT (R237) -/

theorem State.inst_of_taskOf {s : State} {id : Nat} {k : Fired} (h : s.taskOf id = some k) : k.inst = id := by
  simpa using List.find?_some h

theorem taskAbort_stopped {s : State} (h : s.mon.stopped = true) (id : Fin 1024) : taskAbort id s = s := by simp [taskAbort, h]

theorem taskAbort_eq {s : State} {id : Fin 1024} {k : Fired} {x : InstSt} (h : s.mon.stopped = false) (hk : s.taskOf id.val = some k)
    (hx : s.inst? id.val = some x) : taskAbort id s = (s.abortCounts id.val).abortTask k := by simp [taskAbort, h, hk, hx]

/-- The count of an abort leaves all instances alone. -/
theorem State.inst?_abortCounts (s : State) (id j : Nat) : (s.abortCounts id).inst? j = s.inst? j :=
  State.inst?_congr (congrArg StJn.insts ((changes_abortCounts s id).2 .jn (by decide))) j

/-! ### END (R255) -/

section
variable {s : State} {l : Fin 64} {y : LaneSt} {k : LaneTask}

/-- An instruction that comes to a Lane inside its area is executed. -/
theorem laneIssue_comes {i : Instr} (hstopped : s.mon.stopped = false) (hy : s.lanes[l.val]? = some y) (hk : y.task = some k)
    (harea : inArea k.kernel y.pc.toNat = true) (hcomes : Comes i s y) (run : LaneSt → LaneTask → State) :
    laneIssue l i s run = run y k := by
  simp only [laneIssue, hstopped, hy, hk, harea]
  cases hword : s.laneWord y with
  | none => rfl
  | some v => simp [hcomes v hword]

/-- The Lane is free, and has counted the task. -/
def State.freeLane (s : State) (l : Fin 64) : State :=
  ((if s.vendorRun l.val then s.slack l.val else s).onLane l.val (fun y => { y.next with task := none, dma := none })).count l.val 1
    [(1, 1), (0x11, 1)]

/-- END of a user task whose outputs lie in the output area. -/
theorem endTask_user {w : LaneR} (hstopped : s.mon.stopped = false) (hy : s.lanes[l.val]? = some y) (hk : y.task = some k)
    (harea : inArea k.kernel y.pc.toNat = true) (hcomes : Comes (.endTask l w) s y) (hs : w.s = false) (huser : 256 ≤ k.task.inst)
    (houts : (outRanges y.mem).all (fun r => decide (r.2 = 0 ∨ r.1 + r.2 ≤ 4096)) = true) :
    endTask l w s = (s.freeLane l).userEnd y k := by
  have hlegal : (outRanges y.mem).any (fun r => decide (r.2 ≠ 0 ∧ 4096 < r.1 + r.2)) = false := by
    rw [List.any_eq_false]
    intro r hr
    have hfits := of_decide_eq_true (List.all_eq_true.1 houts r hr)
    rw [decide_eq_true_eq]
    omega
  have h88 : 88 ≤ k.task.inst := by omega
  rw [endTask, laneIssue_comes hstopped hy hk harea hcomes]
  simp only [hs, hlegal, decide_eq_true h88]
  rfl

theorem State.freeLane_task (hy : s.lanes[l.val]? = some y) : ((s.freeLane l).lanes[l.val]?).map LaneSt.task = some none := by
  have hlanes : (if s.vendorRun l.val then s.slack l.val else s).lanes = s.lanes := by
    split
    · exact (changes_slack s l.val).2 .lanes (by decide)
    · rfl
  rw [State.freeLane, State.count_lanes, State.onLane_lanes, getElem?_modAt_same, hlanes, hy]
  rfl

theorem State.inst?_freeLane (s : State) (l : Fin 64) (id : Nat) : (s.freeLane l).inst? id = s.inst? id := by
  refine State.inst?_congr ?_ id
  rw [State.freeLane, State.count_jn, State.onLane_jn]
  split
  · exact congrArg StJn.insts ((changes_slack s l.val).2 .jn (by decide))
  · rfl

end

end Sys2Proof.Machine

namespace Sys2Proof

open Machine

/-- Settles O47: each command is evaluated on the case of its clause, and what follows the task of an abort or an END keeps its books. -/
theorem junctionTasks : Obligations.JunctionTasks := by
  refine fun s => ⟨fun id port t0 x p hon hx hp => ⟨fun hwaits h => ⟨_, exec_tokenArrival id port t0 s, ?dropped⟩,
      fun hwaits htag hsubst hcur => ⟨_, exec_tokenArrival id port t0 s, ?filled⟩,
      fun hwaits htag hother hnext => ⟨_, exec_tokenArrival id port t0 s, ?next⟩,
      fun htag hsubst hcur hid hwaits => ⟨_, exec_tokenArrival id port t0 s, ?current⟩,
      fun htag hports hsubst hcur hid hdue hshed hrel hweak hready hprio => ⟨_, exec_tokenArrival id port t0 s, ?fires⟩⟩,
    fun x p q len hon hinsts hports hp hq hrx hnow hdue hrange hid => ⟨_, exec_rxDeadlineSubstitution s, ?deadline⟩,
    fun hoff => ⟨_, exec_rxDeadlineSubstitution s, rxDeadlineSubstitution_off hoff⟩,
    fun tick st r f x hstopped hst hdelay hx hweak hready hprio =>
      ⟨fun hr => ⟨_, exec_releaseTick tick s, ?due⟩,
        fun hr => ⟨_, exec_releaseTick tick s, releaseTick_early hstopped hst hdelay hr⟩⟩,
    fun l y k x hon hstreet hy hidle hslot hx => ⟨_, exec_taskStart l s, ?start⟩,
    fun l y hy hbusy => ⟨_, exec_taskStart l s, taskStart_busy hy hbusy⟩,
    fun id f x hstopped hf hx => ⟨_, exec_taskAbort id s, ?abort⟩,
    fun hstopped id => ⟨_, exec_taskAbort id s, taskAbort_stopped hstopped id⟩,
    fun l y hstopped hy => ⟨_, exec_dmaDone l s, ?dma⟩,
    fun l w y k x hstopped hy hk harea hcomes hs huser hx houts => ⟨_, exec_endTask l w s, ?ends⟩⟩
  case dropped =>
    rw [tokenArrival, State.arrive_drops hon hx hp hwaits h]
    exact s.dropToken_drops
  case filled =>
    rw [tokenArrival, State.arrive_filled hon hx hp hwaits htag hsubst hcur]
    exact ⟨rfl, s.n_inc_wrapped length_jnTokenDrop, changesObjs_setN s _ _, changes_setN s _ _⟩
  case next =>
    rw [tokenArrival, State.arrive_next hon hx hp hwaits htag hother hnext]
    exact ⟨State.ports_onPort hx _, rfl, changes_onPort s _ _ _⟩
  case current =>
    rw [tokenArrival, State.arrive_current hon hx hp htag hsubst hcur hid hwaits]
    exact ⟨State.ports_onPort hx _, rfl, changes_onPort s _ _ _⟩
  case fires =>
    have hport : port.val = 0 := by
      rw [hports] at hp
      simpa using (List.getElem?_eq_some_iff.1 hp).1
    rw [tokenArrival, hport]
    rw [State.arrive_last hon hx htag hports hsubst hcur hid hdue hshed hrel hweak]
    have hadvanced := fun f => State.inst?_onInst (f := InstSt.advance) (State.inst?_onPort hx (port := 0) f) fun _ => rfl
    exact ⟨congrArg (Option.map InstSt.tag) (hadvanced _), State.list_joinList hready (s.home_lt x) hprio _, rfl,
      ((changes_onPort s _ _ _).trans (changes_onInst _ _ _)).trans (changes_joinList _ _ _ _)⟩
  case deadline =>
    have hx : (s.setBit kJnStatus 2 true).inst? x.id = some x := State.inst?_of_single hinsts
    have hfilled := State.cur_onPort hx (port := 0) (p := p) (by rw [hports]; rfl) (JPort.substitute len)
    rw [rxDeadlineSubstitution_single hon hinsts hports hp hq hrx hnow hdue hrange hid]
    exact ⟨State.bit_setBit_same s _ _ _ (by rw [length_jnStatus]; decide), fun _ h => hfilled.trans (JPort.cur_substitute_some h len),
      fun h => hfilled.trans (JPort.cur_substitute_none h len), changesObjs_setBit s _ _ _,
      ((changes_setBit s _ _ _).mono (by decide)).trans ((changes_onPort _ _ _ _).mono (by decide))⟩
  case due =>
    rw [releaseTick_due hstopped hst hdelay hr hx hweak]
    exact ⟨State.list_joinList (s := s.noDelay) hready (s.home_lt x) hprio f, rfl, rfl,
      (changes_onJn s _).trans (changes_joinList _ _ _ _)⟩
  case start =>
    obtain ⟨o, hz⟩ := taskStart_begins hy hon hstreet hidle hslot hx
    exact ⟨_, hz, rfl, rfl, rfl, rfl, rfl, rfl, rfl, rfl⟩
  case abort =>
    have hfinst := State.inst_of_taskOf hf
    have hcounted : (s.abortCounts id.val).inst? f.inst = some x := by rw [State.inst?_abortCounts, hfinst, hx]
    obtain ⟨htasks, y, hy, hlate, hblock⟩ := State.abortTask_books hcounted
    rw [hfinst] at htasks hy
    rw [taskAbort_eq hstopped hf hx]
    exact ⟨htasks, Option.map_eq_some_iff.2 ⟨y, hy, hlate⟩, Option.map_eq_some_iff.2 ⟨y, hy, hblock⟩⟩
  case dma =>
    rw [dmaDone_eq l hstopped]
    refine ⟨?_, fun j hj => getElem?_modAt_other _ _ (Ne.symm hj), changes_onLane s _ _⟩
    rw [State.onLane_lanes, getElem?_modAt_same, hy, Option.map_some]
  case ends =>
    have hfree : (s.freeLane l).inst? k.task.inst = some x := (State.inst?_freeLane s l _).trans hx
    obtain ⟨z, hz, hblock, hzouts, hconsec⟩ := State.complete_inst hfree (memRead y.mem 0x42000 k.stateLen) false 0
      ((outRanges y.mem).map (fun r => memRead y.mem (0x44000 + r.1) r.2))
    rw [endTask_user hstopped hy hk harea hcomes hs huser houts, State.userEnd]
    exact ⟨(State.complete_task _ _ _ _ l.val).trans (State.freeLane_task hy), Option.map_eq_some_iff.2 ⟨z, hz, hblock⟩,
      Option.map_eq_some_iff.2 ⟨z, hz, hzouts⟩, Option.map_eq_some_iff.2 ⟨z, hz, hconsec⟩⟩

end Sys2Proof
end

section
/-! SUPPORT. The words of the Lane instructions (R256, R258): the fields of a word, format by format, and the decoding of every encoding. -/

namespace Sys2Proof.Machine

/-! ### Fields of a word, by format (R256) -/

section
variable {op : Nat} (hop : op < 64)
include hop

theorem toNat_encR {fn : Nat} (hfn : fn < 128) (w : LaneR) : (encR op fn w).toNat =
    op * 2 ^ 26 + w.rd.toNat * 2 ^ 20 + w.rs.toNat * 2 ^ 14 + w.rt.toNat * 2 ^ 8 + (if w.s then 128 else 0) + fn := by
  have hrd := w.rd.isLt
  have hrs := w.rs.isLt
  have hrt := w.rt.isLt
  rw [encR, BitVec.toNat_ofNat, Nat.mod_eq_of_lt]
  split <;> omega

theorem toNat_encI (w : LaneI) : (encI op w).toNat =
    op * 2 ^ 26 + w.rd.toNat * 2 ^ 20 + w.rs.toNat * 2 ^ 14 + (if w.s then 8192 else 0) + w.imm.toNat := by
  have hrd := w.rd.isLt
  have hrs := w.rs.isLt
  have himm := w.imm.isLt
  rw [encI, BitVec.toNat_ofNat, Nat.mod_eq_of_lt]
  split <;> omega

theorem toNat_encM (w : LaneM) : (encM op w).toNat =
    op * 2 ^ 26 + w.rd.toNat * 2 ^ 20 + w.rb.toNat * 2 ^ 14 + w.mode.toNat * 2 ^ 12 + w.off.toNat := by
  have hrd := w.rd.isLt
  have hrb := w.rb.isLt
  have hmode := w.mode.isLt
  have hoff := w.off.isLt
  rw [encM, BitVec.toNat_ofNat, Nat.mod_eq_of_lt (by omega)]

theorem toNat_encB (w : LaneB) : (encB op w).toNat = op * 2 ^ 26 + w.rd.toNat * 2 ^ 20 + w.imm.toNat := by
  have hrd := w.rd.isLt
  have himm := w.imm.isLt
  rw [encB, BitVec.toNat_ofNat, Nat.mod_eq_of_lt (by omega)]

/-- OP, FN and the operands of an R-format word. -/
theorem fields_encR {fn : Nat} (hfn : fn < 128) (w : LaneR) : (encR op fn w).toNat / 2 ^ 26 = op ∧ (encR op fn w).toNat % 128 = fn ∧
    decR (encR op fn w).toNat = w := by
  obtain ⟨rd, rs, rt, s⟩ := w
  have hrd := rd.isLt
  have hrs := rs.isLt
  have hrt := rt.isLt
  rw [toNat_encR hop hfn]
  dsimp only
  refine ⟨by split <;> omega, by split <;> omega, ?_⟩
  rw [decR, LaneR.mk.injEq]
  refine ⟨BitVec.eq_of_toNat_eq ?_, BitVec.eq_of_toNat_eq ?_, BitVec.eq_of_toNat_eq ?_, ?sat⟩
  case sat => cases s <;> simp <;> omega
  all_goals rw [BitVec.toNat_ofNat]; split <;> omega

/-- OP and the operands of an I-format word. -/
theorem fields_encI (w : LaneI) : (encI op w).toNat / 2 ^ 26 = op ∧ decI (encI op w).toNat = w := by
  obtain ⟨rd, rs, s, imm⟩ := w
  have hrd := rd.isLt
  have hrs := rs.isLt
  have himm := imm.isLt
  rw [toNat_encI hop]
  dsimp only
  refine ⟨by split <;> omega, ?_⟩
  rw [decI, LaneI.mk.injEq]
  refine ⟨BitVec.eq_of_toNat_eq ?_, BitVec.eq_of_toNat_eq ?_, ?sat, BitVec.eq_of_toNat_eq ?_⟩
  case sat => cases s <;> simp <;> omega
  all_goals rw [BitVec.toNat_ofNat]; split <;> omega

/-- OP and the operands of an M-format word. -/
theorem fields_encM (w : LaneM) : (encM op w).toNat / 2 ^ 26 = op ∧ decM (encM op w).toNat = w := by
  obtain ⟨rd, rb, mode, off⟩ := w
  have hrd := rd.isLt
  have hrb := rb.isLt
  have hmode := mode.isLt
  have hoff := off.isLt
  rw [toNat_encM hop]
  dsimp only
  refine ⟨by omega, ?_⟩
  rw [decM, LaneM.mk.injEq]
  refine ⟨BitVec.eq_of_toNat_eq ?_, BitVec.eq_of_toNat_eq ?_, BitVec.eq_of_toNat_eq ?_, BitVec.eq_of_toNat_eq ?_⟩
  all_goals rw [BitVec.toNat_ofNat]; omega

/-- OP and the operands of a B-format word. -/
theorem fields_encB (w : LaneB) : (encB op w).toNat / 2 ^ 26 = op ∧ decB (encB op w).toNat = w := by
  obtain ⟨rd, imm⟩ := w
  have hrd := rd.isLt
  have himm := imm.isLt
  rw [toNat_encB hop]
  dsimp only
  refine ⟨by omega, ?_⟩
  rw [decB, LaneB.mk.injEq]
  refine ⟨BitVec.eq_of_toNat_eq ?_, BitVec.eq_of_toNat_eq ?_⟩
  all_goals rw [BitVec.toNat_ofNat]; omega

end

/-! ### Decoding (R258) -/

section
variable (l : Fin 64)

theorem laneDecode_encR (w : LaneR) {fn : Nat} (hfn : fn < 128) :
    laneDecode l (encR 0 fn w) = decodeR0 l fn w ∧ laneDecode l (encR 1 fn w) = decodeR1 l fn w ∧
    laneDecode l (encR 2 fn w) = decodeR2 l fn w ∧ laneDecode l (encR 3 fn w) = decodeR3 l fn w := by
  refine ⟨?_, ?_, ?_, ?_⟩
  · simp only [laneDecode, fields_encR (op := 0) (by decide) hfn w]
  · simp only [laneDecode, fields_encR (op := 1) (by decide) hfn w]
  · simp only [laneDecode, fields_encR (op := 2) (by decide) hfn w]
  · simp only [laneDecode, fields_encR (op := 3) (by decide) hfn w]

theorem laneDecode_encI (w : LaneI) :
    laneDecode l (encI 8 w) = some (.addi l w) ∧ laneDecode l (encI 9 w) = some (.shli l w) ∧
    laneDecode l (encI 10 w) = some (.sari l w) ∧ laneDecode l (encI 11 w) = some (.andi l w) ∧
    laneDecode l (encI 12 w) = some (.rdcnt l w) := by
  refine ⟨?_, ?_, ?_, ?_, ?_⟩
  · simp only [laneDecode, fields_encI (op := 8) (by decide) w]
  · simp only [laneDecode, fields_encI (op := 9) (by decide) w]
  · simp only [laneDecode, fields_encI (op := 10) (by decide) w]
  · simp only [laneDecode, fields_encI (op := 11) (by decide) w]
  · simp only [laneDecode, fields_encI (op := 12) (by decide) w]

theorem laneDecode_encM (w : LaneM) :
    laneDecode l (encM 16 w) = some (.ld l w) ∧ laneDecode l (encM 17 w) = some (.st l w) ∧
    laneDecode l (encM 18 w) = some (.ldh l w) ∧ laneDecode l (encM 19 w) = some (.sth l w) := by
  refine ⟨?_, ?_, ?_, ?_⟩
  · simp only [laneDecode, fields_encM (op := 16) (by decide) w]
  · simp only [laneDecode, fields_encM (op := 17) (by decide) w]
  · simp only [laneDecode, fields_encM (op := 18) (by decide) w]
  · simp only [laneDecode, fields_encM (op := 19) (by decide) w]

theorem laneDecode_encB (w : LaneB) :
    laneDecode l (encB 24 w) = some (.li l w) ∧ laneDecode l (encB 25 w) = some (.lih l w) ∧
    laneDecode l (encB 26 w) = some (.bz l w) ∧ laneDecode l (encB 27 w) = some (.bnz l w) ∧
    laneDecode l (encB 28 w) = some (.blt l w) ∧ laneDecode l (encB 29 w) = some (.bloop l w) := by
  refine ⟨?_, ?_, ?_, ?_, ?_, ?_⟩
  · simp only [laneDecode, fields_encB (op := 24) (by decide) w]
  · simp only [laneDecode, fields_encB (op := 25) (by decide) w]
  · simp only [laneDecode, fields_encB (op := 26) (by decide) w]
  · simp only [laneDecode, fields_encB (op := 27) (by decide) w]
  · simp only [laneDecode, fields_encB (op := 28) (by decide) w]
  · simp only [laneDecode, fields_encB (op := 29) (by decide) w]

variable {l} {i : Instr}

/-- The word of an instruction decodes to the instruction, by the decoding of its format. -/
theorem laneDecode_laneEncode {word : W32} (hl : laneOf i = some l) (hword : laneEncode i = some word) :
    laneDecode l word = some i := by
  have hR := @laneDecode_encR l
  have hI := laneDecode_encI l
  have hM := laneDecode_encM l
  have hB := laneDecode_encB l
  unfold laneEncode at hword
  split at hword <;> cases hword <;> cases hl <;>
    simp only [hR, hI, hM, hB, decodeR0, decodeR1, decodeR2, decodeR3, Nat.reduceLT]

/-! ### Words that are no instruction (R257) -/

theorem laneOf_decodeR {fn : Nat} {w : LaneR}
    (h : decodeR0 l fn w = some i ∨ decodeR1 l fn w = some i ∨ decodeR2 l fn w = some i ∨ decodeR3 l fn w = some i) :
    laneOf i = some l := by
  unfold decodeR0 decodeR1 decodeR2 decodeR3 at h
  rcases h with h | h | h | h <;> split at h <;> cases h <;> rfl

theorem laneOf_laneDecode {word : W32} (h : laneDecode l word = some i) : laneOf i = some l := by
  simp only [laneDecode] at h
  split at h
  case h_1 => exact laneOf_decodeR (.inl h)
  case h_2 => exact laneOf_decodeR (.inr (.inl h))
  case h_3 => exact laneOf_decodeR (.inr (.inr (.inl h)))
  case h_4 => exact laneOf_decodeR (.inr (.inr (.inr h)))
  all_goals cases h <;> rfl

theorem decodeR_undefined {fn : Nat} (w : LaneR) :
    (12 < fn → decodeR0 l fn w = none) ∧ (4 < fn → decodeR1 l fn w = none) ∧ (13 < fn → decodeR2 l fn w = none) ∧
    (2 < fn → decodeR3 l fn w = none) := by
  unfold decodeR0 decodeR1 decodeR2 decodeR3
  refine ⟨fun h => ?_, fun h => ?_, fun h => ?_, fun h => ?_⟩ <;> split <;> simp at h ⊢

/-- A word whose OP, or whose FN under its OP, the table of R258 does not have. -/
theorem laneDecode_undefined {word : W32}
    (h : word.toNat / 2 ^ 26 ∉ [0, 1, 2, 3, 8, 9, 10, 11, 12, 16, 17, 18, 19, 24, 25, 26, 27, 28, 29] ∨
      (word.toNat / 2 ^ 26 = 0 ∧ 12 < word.toNat % 128) ∨ (word.toNat / 2 ^ 26 = 1 ∧ 4 < word.toNat % 128) ∨
      (word.toNat / 2 ^ 26 = 2 ∧ 13 < word.toNat % 128) ∨ (word.toNat / 2 ^ 26 = 3 ∧ 2 < word.toNat % 128)) :
    laneDecode l word = none := by
  obtain ⟨h0, h1, h2, h3⟩ := decodeR_undefined (l := l) (fn := word.toNat % 128) (decR word.toNat)
  simp only [laneDecode]
  generalize word.toNat / 2 ^ 26 = op at h ⊢
  split
  case h_1 => exact h0 (by simpa using h)
  case h_2 => exact h1 (by simpa using h)
  case h_3 => exact h2 (by simpa using h)
  case h_4 => exact h3 (by simpa using h)
  case h_20 => rfl
  all_goals simp at h

end

end Sys2Proof.Machine

namespace Sys2Proof

open Machine

/-- Settles O51: each format keeps its fields, and OP and FN pick one instruction. -/
theorem laneWordsRoundTrip : Obligations.LaneWordsRoundTrip := by
  exact ⟨fun _ _ _ => laneDecode_laneEncode, fun _ _ _ => laneOf_laneDecode, fun _ _ => laneDecode_undefined⟩

end Sys2Proof
end

section
/-! SUPPORT. A Lane instruction: registers after a write, the state after an instruction that a Lane executes, and an illegal
condition (R250, R256, R257, R263). -/

namespace Sys2Proof.Machine

/-! ### Registers (R250) -/

section
variable (x : LaneSt) (r : BitVec 6) (v : W32)

@[simp] theorem LaneSt.setReg_rrb : (x.setReg r v).rrb = x.rrb := by unfold LaneSt.setReg; split_ifs <;> rfl
@[simp] theorem LaneSt.setReg_ac0 : (x.setReg r v).ac0 = x.ac0 := by unfold LaneSt.setReg; split_ifs <;> rfl
@[simp] theorem LaneSt.setReg_ac1 : (x.setReg r v).ac1 = x.ac1 := by unfold LaneSt.setReg; split_ifs <;> rfl
@[simp] theorem LaneSt.setReg_pc : (x.setReg r v).pc = x.pc := by unfold LaneSt.setReg; split_ifs <;> rfl
@[simp] theorem LaneSt.setReg_lstat : (x.setReg r v).lstat = x.lstat := by unfold LaneSt.setReg; split_ifs <;> rfl
@[simp] theorem LaneSt.setReg_mem : (x.setReg r v).mem = x.mem := by unfold LaneSt.setReg; split_ifs <;> rfl
@[simp] theorem LaneSt.setReg_task : (x.setReg r v).task = x.task := by unfold LaneSt.setReg; split_ifs <;> rfl
@[simp] theorem LaneSt.setReg_slot : (x.setReg r v).slot = x.slot := by unfold LaneSt.setReg; split_ifs <;> rfl
@[simp] theorem LaneSt.setReg_dma : (x.setReg r v).dma = x.dma := by unfold LaneSt.setReg; split_ifs <;> rfl
@[simp] theorem LaneSt.setReg_shadow : (x.setReg r v).shadow = x.shadow := by unfold LaneSt.setReg; split_ifs <;> rfl
@[simp] theorem LaneSt.setReg_g_length : (x.setReg r v).g.length = x.g.length := by unfold LaneSt.setReg; split_ifs <;> simp
@[simp] theorem LaneSt.setReg_q_length : (x.setReg r v).q.length = x.q.length := by unfold LaneSt.setReg; split_ifs <;> simp

end

/-- A register file and the base of its rotation hold all that a register read sees. -/
theorem LaneSt.reg_congr {x y : LaneSt} (hg : y.g = x.g) (hq : y.q = x.q) (hrrb : y.rrb = x.rrb) (r : BitVec 6) : y.reg r = x.reg r := by
  simp only [LaneSt.reg, LaneSt.rot, hg, hq, hrrb]

theorem getD_modAt {α : Type} {l : List α} {i : Nat} (h : i < l.length) (j : Nat) (a d : α) :
    (modAt l i (fun _ => a)).getD j d = if j = i then a else l.getD j d := by
  split
  case isTrue hj => rw [hj, getD_modAt_same h]
  case isFalse hj => simp only [List.getD_eq_getElem?_getD, getElem?_modAt_other l _ (Ne.symm hj)]

/-- Two names of rotating registers that name one register are equal (R250). -/
theorem LaneSt.rot_inj (x : LaneSt) {r rd : BitVec 6} (hr : 32 ≤ r.toNat) (hrd : 32 ≤ rd.toNat) : x.rot r = x.rot rd ↔ r = rd := by
  rw [← BitVec.toNat_inj]
  have h1 := r.isLt
  have h2 := rd.isLt
  have h3 := x.rrb.isLt
  simp only [LaneSt.rot]
  omega

/-- Whole register files read back what was written, and G0 reads as 0 (R250). -/
theorem LaneSt.reg_setReg {x : LaneSt} (hg : x.g.length = 32) (hq : x.q.length = 32) (rd : BitVec 6) (v : W32) (r : BitVec 6) :
    (x.setReg rd v).reg r = if r = rd ∧ rd ≠ 0 then v else x.reg r := by
  have hzero : rd = 0 ↔ rd.toNat = 0 := by rw [← BitVec.toNat_inj]; rfl
  by_cases hrot : 32 ≤ rd.toNat
  case pos =>
    have hlt : x.rot rd < x.q.length := by rw [hq]; exact Nat.mod_lt _ (by decide)
    have hset : x.setReg rd v = { x with q := modAt x.q (x.rot rd) (fun _ => v) } := if_pos hrot
    have hne : rd ≠ 0 := by rw [ne_eq, hzero]; omega
    simp only [hset, LaneSt.reg]
    by_cases hr : 32 ≤ r.toNat
    case pos =>
      rw [if_pos hr, if_pos hr]
      exact (getD_modAt hlt (x.rot r) v 0).trans (by simp only [LaneSt.rot_inj x hr hrot, ne_eq, hne, not_false_eq_true, and_true])
    case neg =>
      have hother : r ≠ rd := fun h => hr (h ▸ hrot)
      simp only [hr, hother, false_and, if_false]
  case neg =>
    by_cases hrd : rd.toNat = 0
    case pos =>
      have hset : x.setReg rd v = x := by rw [LaneSt.setReg, if_neg hrot, if_pos hrd]
      rw [hset, if_neg fun h => h.2 (hzero.mpr hrd)]
    case neg =>
      have hlt : rd.toNat < x.g.length := by omega
      have hset : x.setReg rd v = { x with g := modAt x.g rd.toNat (fun _ => v) } := by rw [LaneSt.setReg, if_neg hrot, if_neg hrd]
      have hne : rd ≠ 0 := fun h => hrd (hzero.mp h)
      simp only [hset, LaneSt.reg, getD_modAt hlt, BitVec.toNat_inj, ne_eq, hne, not_false_eq_true, and_true]
      by_cases hr : r = rd
      · simp [hr, hrot, hrd]
      · simp only [hr, if_false]; rfl

/-! ### An instruction that a Lane executes -/

/-- The Lane after an instruction that wrote a register, set bits of LSTAT and stepped the PC. -/
def LaneSt.gives (x : LaneSt) (rd : BitVec 6) (v st : W32) : LaneSt :=
  { x.setReg rd v with lstat := x.lstat ||| st, pc := x.pc + 4 }

theorem LaneSt.next_setReg (x : LaneSt) (rd : BitVec 6) (v : W32) : (x.setReg rd v).next = x.gives rd v 0 := by
  simp [LaneSt.next, LaneSt.gives]

/-- The bit of LSTAT that a condition sets (R263). -/
def lstatBit (b : Nat) (c : Bool) : W32 := if c then 1#32 <<< b else 0

theorem LaneSt.flag_eq (x : LaneSt) (b : Nat) (c : Bool) : x.flag b c = { x with lstat := x.lstat ||| lstatBit b c } := by
  cases c <;> simp [LaneSt.flag, lstatBit]

theorem LaneSt.next_flag (x : LaneSt) (b : Nat) (c : Bool) : (x.flag b c).next = x.next.flag b c := by cases c <;> rfl

theorem LaneSt.flag_gives (x : LaneSt) (rd : BitVec 6) (v st : W32) (b : Nat) (c : Bool) :
    (x.gives rd v st).flag b c = x.gives rd v (st ||| lstatBit b c) := by
  simp only [LaneSt.flag_eq, LaneSt.gives, BitVec.or_assoc]

/-- Time that has passed unseen on a Lane: its counters, their overflow flags and free values may differ. -/
structure Unseen (l : Fin 64) (s t : State) : Prop where
  parts : Changes [.cnts, .objs, .free] s t
  objs : ChangesObjs [kCntOvf l] s t

section
variable {l : Fin 64} {s t : State} {x y : LaneSt} {k : LaneTask}

theorem Unseen.refl (l : Fin 64) (s : State) : Unseen l s s := ⟨.refl _ s, .refl _ s⟩

theorem Unseen.lanes (h : Unseen l s t) : t.lanes = s.lanes := h.parts.2 .lanes (by decide)

theorem Unseen.jn (h : Unseen l s t) : t.jn = s.jn := h.parts.2 .jn (by decide)

theorem Unseen.mon (h : Unseen l s t) : t.mon = s.mon := h.parts.2 .mon (by decide)

theorem Unseen.laneWord (h : Unseen l s t) : t.laneWord x = s.laneWord x := by simp only [State.laneWord, h.jn]

theorem changesObjs_count (s : State) (e slots : Nat) (evs : List (Nat × Nat)) : ChangesObjs [kCntOvf e] s (s.count e slots evs) :=
  fun k hk => changesObjs_setN ({ s with cnts := (s.count e slots evs).cnts } : State) _ _ k hk

theorem changesObjs_slack (s : State) (e : Nat) : ChangesObjs [kCntOvf e] s (s.slack e) := by
  unfold State.slack
  split
  · exact .refl _ s
  · exact changesObjs_count s e _ _

theorem unseen_slack (l : Fin 64) (s : State) : Unseen l s (s.slack l) := ⟨(changes_slack s l).mono (by decide), changesObjs_slack s l⟩

theorem unseen_fresh (l : Fin 64) (s : State) : Unseen l s s.fresh.2 :=
  ⟨⟨rfl, fun p hp => by cases p <;> simp [Part.same, State.fresh] at hp ⊢⟩, .of_objs rfl _⟩

theorem runs_lane (h : Runs l s x k) : s.lanes[l.val]? = some x := h.2.1

theorem runs_files (h : Runs l s x k) : x.g.length = 32 ∧ x.q.length = 32 := by
  obtain ⟨-, -, -, -, hg, hq, -⟩ := h
  exact ⟨hg, hq⟩

theorem runs_mem (h : Runs l s x k) : memWf x.mem = true := by
  obtain ⟨-, -, -, -, -, -, hmem⟩ := h
  exact hmem

/-- The Lane still runs its task after time has passed unseen. -/
theorem runs_unseen (h : Runs l s x k) (ht : Unseen l s t) : Runs l t x k := by
  unfold Runs
  rw [ht.mon, ht.lanes]
  exact h

/-- An instruction that comes to a Lane that runs a task is executed. -/
theorem runs_issue (h : Runs l s x k) {c : Instr} (hcomes : Comes c s x) (run : LaneSt → LaneTask → State) :
    laneIssue l c s run = run x k := by
  obtain ⟨hstopped, hx, hk, harea, -⟩ := h
  exact laneIssue_comes hstopped hx hk harea hcomes run

/-- A Lane takes the state that its instruction left, and counts its slots. -/
theorem laneIs_count (hx : s.lanes[l.val]? = some x) (y : LaneSt) (slots : Nat) (evs : List (Nat × Nat)) :
    LaneIs l s ((s.onLane l.val (fun _ => y)).count l.val slots evs) y := by
  refine ⟨?_, fun j hj => ?_, changesObjs_count (s.onLane l.val (fun _ => y)) l.val slots evs,
    ((changes_onLane s _ _).mono (by decide)).trans ((changes_count _ _ _ _).mono (by decide))⟩
  · rw [State.count_lanes, State.onLane_lanes, getElem?_modAt_same, hx, Option.map_some]
  · rw [State.count_lanes, State.onLane_lanes, getElem?_modAt_other _ _ (Ne.symm hj)]

theorem laneIs_unseen (ht : Unseen l s t) {u : State} (h : LaneIs l t u y) : LaneIs l s u y := by
  obtain ⟨hy, hothers, hobjs, hparts⟩ := h
  exact ⟨hy, fun j hj => (hothers j hj).trans (by rw [ht.lanes]), ht.objs.trans hobjs, (ht.parts.mono (by decide)).trans hparts⟩

/-- An instruction that completes leaves its Lane as its operation says, time having passed unseen before it. -/
theorem laneRuns_unseen {c : Instr} {op : LaneOp} {evs : List (Nat × Nat)} {P : State → Prop} (hr : Runs l s x k) (ht : Unseen l s t)
    (hexec : exec c s = .next (laneRun l c op t)) (hop : op x k = some (y, evs)) (hP : ∀ u, LaneIs l s u y → P u) : LaneRuns c s x P := by
  intro hcomes
  have hcomes' : Comes c t x := fun v hv => hcomes v (ht.laneWord ▸ hv)
  refine ⟨_, hexec, hP _ ?_⟩
  rw [laneRun, runs_issue (runs_unseen hr ht) hcomes', hop]
  exact laneIs_unseen ht (laneIs_count (runs_lane (runs_unseen hr ht)) y _ _)

theorem laneRuns_of_op {c : Instr} {op : LaneOp} {evs : List (Nat × Nat)} {P : State → Prop} (hr : Runs l s x k)
    (hexec : exec c s = .next (laneRun l c op s)) (hop : op x k = some (y, evs)) (hP : ∀ u, LaneIs l s u y → P u) : LaneRuns c s x P :=
  laneRuns_unseen hr (.refl l s) hexec hop hP

/-- What an instruction that writes one register and sets bits of LSTAT leaves. -/
theorem gives_spec (hg : x.g.length = 32) (hq : x.q.length = 32) (rd : BitVec 6) (v st : W32) : (x.gives rd v st).pc = x.pc + 4 ∧
    (∀ r, (x.gives rd v st).reg r = if r = rd ∧ rd ≠ 0 then v else x.reg r) ∧ (x.gives rd v st).lstat = x.lstat ||| st ∧
    LaneKeeps x (x.gives rd v st) := by
  refine ⟨rfl, fun r => ?_, rfl, by simp [LaneKeeps, LaneSt.gives]⟩
  rw [← LaneSt.reg_setReg hg hq]
  exact LaneSt.reg_congr rfl rfl rfl r

theorem laneGives_unseen {c : Instr} {op : LaneOp} {evs : List (Nat × Nat)} {rd : BitVec 6} {v st : W32} (hr : Runs l s x k)
    (ht : Unseen l s t) (hexec : exec c s = .next (laneRun l c op t)) (hop : op x k = some (x.gives rd v st, evs)) :
    LaneGives c l s x rd v st := by
  obtain ⟨hg, hq⟩ := runs_files hr
  exact laneRuns_unseen hr ht hexec hop fun _ hu => ⟨_, hu, gives_spec hg hq rd v st⟩

theorem laneGives_of_op {c : Instr} {op : LaneOp} {evs : List (Nat × Nat)} {rd : BitVec 6} {v st : W32} (hr : Runs l s x k)
    (hexec : exec c s = .next (laneRun l c op s)) (hop : op x k = some (x.gives rd v st, evs)) : LaneGives c l s x rd v st :=
  laneGives_unseen hr (.refl l s) hexec hop

end

/-! ### Marked templates (R257) -/

section
variable {s t u : State}

theorem illegal_ite {c : Prop} [Decidable c] {m : List Nat} (ht : t.jn.illegal = m) (hu : u.jn.illegal = m) :
    (if c then t else u).jn.illegal = m := by
  split <;> assumption

theorem illegal_foldl {α : Type} {f : State → α → State} (h : ∀ s x, (f s x).jn.illegal = s.jn.illegal) (l : List α) (s : State) :
    (l.foldl f s).jn.illegal = s.jn.illegal := by
  induction l generalizing s with
  | nil => rfl
  | cons x l ih => exact (ih (f s x)).trans (h s x)

end

section
variable (s : State)

theorem illegal_log (type : Nat) (b : Bytes) : (s.log type b).jn.illegal = s.jn.illegal :=
  congrArg StJn.illegal ((record_recordOnly s 0 type false b).1.2 .jn (by decide))

theorem illegal_makeReady (k : Fired) : (s.makeReady k).jn.illegal = s.jn.illegal := by
  unfold State.makeReady
  split
  · rfl
  · dsimp only
    split <;> rfl

theorem illegal_fire (id : Nat) : (s.fire id).jn.illegal = s.jn.illegal := by
  unfold State.fire
  split
  · rfl
  · exact illegal_ite rfl (illegal_ite (illegal_makeReady _ _) rfl)

theorem illegal_checkMeas (id age : Nat) : (s.checkMeas id age).jn.illegal = s.jn.illegal := by
  refine illegal_ite rfl (illegal_ite rfl ?_)
  have hstop (c : Prop) [Decidable c] : (if c then s.stopDemand.setBit kJnStatus 5 true else s).jn.illegal = s.jn.illegal :=
    illegal_ite rfl rfl
  dsimp only
  split
  · exact illegal_ite (hstop _) ((illegal_log _ _ _).trans (hstop _))
  · exact hstop _

theorem illegal_place (id port tag : Nat) (t : Tok) : (s.place id port tag t).jn.illegal = s.jn.illegal := by
  unfold State.place
  split
  · rfl
  refine illegal_ite rfl ?_
  split
  · rfl
  exact illegal_ite (illegal_ite rfl (illegal_ite rfl (illegal_ite (illegal_checkMeas _ id _) rfl))) (illegal_ite (illegal_ite rfl rfl) rfl)

theorem illegal_toObject (key cycle : Nat) (v : Bytes) : (s.toObject key cycle v).jn.illegal = s.jn.illegal := by
  have hring (s : State) (r : RingId) (x : RingSt) : (s.setRing r x).jn.illegal = s.jn.illegal :=
    congrArg StJn.illegal ((changes_setRing s r x).2 .jn (by decide))
  unfold State.toObject State.txWrite
  dsimp only
  exact (illegal_foldl (fun s _ => illegal_ite rfl (hring s .p _)) _ _).trans (illegal_foldl (fun s _ => illegal_ite rfl (hring s .m _)) _ _)

theorem illegal_placeOut (id port tag : Nat) (t : Tok) : (s.placeOut id port tag t).jn.illegal = s.jn.illegal := by
  have hplaced : ((s.consumers id port tag).foldl (fun s p => s.place p.1 p.2.1 p.2.2 t) s).jn.illegal = s.jn.illegal :=
    illegal_foldl (fun s _ => illegal_place s _ _ _ _) _ s
  exact (illegal_foldl (fun s _ => illegal_toObject s _ _ _) _ _).trans (illegal_ite ((illegal_toObject _ _ _ _).trans hplaced) hplaced)

theorem illegal_deliverOuts (id tag : Nat) (late stale : Bool) (age : Nat) (outs : List Bytes) :
    (s.deliverOuts id tag late stale age outs).jn.illegal = s.jn.illegal :=
  (illegal_foldl illegal_fire _ _).trans (illegal_foldl (fun s _ => illegal_placeOut s _ _ _ _) _ s)

theorem illegal_lateOut (id tag : Nat) : (s.lateOut id tag).jn.illegal = s.jn.illegal := by
  have hlogged (u : State) (c : Prop) [Decidable c] (b : Bytes) : (if c then u.log 0x0330 b else u).jn.illegal = u.jn.illegal :=
    illegal_ite (illegal_log u _ _) rfl
  have hdemand (u : State) (c : Prop) [Decidable c] : (if c then u.stopDemand else u).jn.illegal = u.jn.illegal := illegal_ite rfl rfl
  have hinitial : (s.initialOuts id).2.jn.illegal = s.jn.illegal := by
    unfold State.initialOuts
    split <;> rfl
  unfold State.lateOut
  split
  · rfl
  next x _ =>
    cases x.outs with
    | some o => exact (illegal_deliverOuts _ _ _ _ _ _ _).trans ((hdemand _ _).trans (hlogged _ _ _))
    | none => exact (illegal_deliverOuts _ _ _ _ _ _ _).trans ((hdemand _ _).trans ((hlogged _ _ _).trans hinitial))

theorem illegal_abortTask (k : Fired) : (s.abortTask k).jn.illegal = s.jn.illegal := illegal_lateOut _ _ _

end

/-! ### An illegal condition (R237, R257) -/

section
variable {l : Fin 64} {s t : State} {x : LaneSt} {k : LaneTask}

/-- The task that a Lane runs has left it when the task is aborted. -/
theorem abortTask_lane (hx : s.lanes[l.val]? = some x) (hk : x.task = some k) :
    ((s.abortTask k.task).lanes[l.val]?).map LaneSt.task = some none := by
  have htasks : (s.abortTask k.task).lanes.map LaneSt.task = (s.dropTask k.task).lanes.map LaneSt.task := by
    rw [State.abortTask_eq]
    cases hinst : (s.dropTask k.task).inst? k.task.inst with
    | none => rw [State.lateOut, hinst]
    | some i => exact State.lateOut_tasks _ hinst
  rw [← List.getElem?_map, htasks, List.getElem?_map]
  have hlanes : (s.dropTask k.task).lanes = s.lanes.map (fun l => l.forget k.task.inst) := rfl
  simp [hlanes, hx, LaneSt.forget, hk]

/-- An illegal condition ends the task of the Lane and marks its template. -/
theorem illegal_stops (hx : s.lanes[l.val]? = some x) (hk : x.task = some k) :
    ((s.illegal l x k).lanes[l.val]?).map LaneSt.task = some none ∧ k.tmpl ∈ (s.illegal l x k).jn.illegal := by
  have hmarked (b : Bytes) :
      let u := if s.jn.illegal.contains k.tmpl then s
        else (s.log 0x0333 b).onJn (fun j => { j with illegal := j.illegal ++ [k.tmpl] })
      u.lanes = s.lanes ∧ k.tmpl ∈ u.jn.illegal := by
    dsimp only
    split
    case isTrue h => exact ⟨rfl, List.contains_iff_mem.mp h⟩
    case isFalse => exact ⟨(record_recordOnly s 0 0x0333 false b).1.2 .lanes (by decide), List.mem_append_right _ (List.mem_singleton.mpr rfl)⟩
  unfold State.illegal
  dsimp only
  obtain ⟨hlanes, hmem⟩ := hmarked (le 2 k.task.inst ++ le 1 k.kernel ++ [0] ++ le 2 x.pc.toNat ++ [0, 0])
  exact ⟨abortTask_lane (by rw [State.count_lanes, hlanes, hx]) hk, by rw [illegal_abortTask, State.count_jn]; exact hmem⟩

/-- An instruction whose operation finds an illegal condition stops the task. -/
theorem laneStops_unseen {c : Instr} {op : LaneOp} (hr : Runs l s x k) (ht : Unseen l s t) (hexec : exec c s = .next (laneRun l c op t))
    (hop : op x k = none) : LaneStops c l s x k := by
  intro hcomes
  have hcomes' : Comes c t x := fun v hv => hcomes v (ht.laneWord ▸ hv)
  have hrt := runs_unseen hr ht
  obtain ⟨-, hx, hk, -⟩ := hrt
  refine ⟨_, hexec, ?_⟩
  rw [laneRun, runs_issue (runs_unseen hr ht) hcomes', hop]
  exact illegal_stops hx hk

theorem laneStops_of_op {c : Instr} {op : LaneOp} (hr : Runs l s x k) (hexec : exec c s = .next (laneRun l c op s))
    (hop : op x k = none) : LaneStops c l s x k := laneStops_unseen hr (.refl l s) hexec hop

end

/-! ### The S bit (R257) -/

section
variable {w : LaneR}

theorem noS_clear (h : w.s = false) (op : LaneOp) : noS w op = op := by
  funext x k
  simp [noS, h]

theorem noS_set (h : w.s = true) (op : LaneOp) (x : LaneSt) (k : LaneTask) : noS w op x k = none := by simp [noS, h]

end

end Sys2Proof.Machine
end

section
/-! SUPPORT. Integer Lane instructions: results under R259, redundant sign bits (R260), accumulators (R261) and immediates. -/

namespace Sys2Proof.Machine

/-! ### Exact results and saturation (R259) -/

theorem satInt_eq (n : Nat) (sat : Bool) (v : Int) :
    (satInt n sat v).1 = clampTo n sat v ∧ (if (satInt n sat v).2 then (1 : W32) else 0) = satf n sat v := by
  have hpos : (0 : Int) < 2 ^ (n - 1) := by positivity
  simp only [satInt, clampTo, satf, Nat.cast_pow, Nat.cast_ofNat]
  generalize (2 : Int) ^ (n - 1) = m at hpos
  cases sat with
  | false => simp
  | true =>
    simp only [Bool.not_true, Bool.false_eq_true, if_false, if_true, true_and]
    by_cases hlo : v < -m
    · simp only [hlo, if_true, true_or]
      exact ⟨by omega, trivial⟩
    · by_cases hhi : m - 1 < v
      · have hsat : m ≤ v := by omega
        simp only [hlo, hhi, hsat, if_true, if_false, or_true]
        exact ⟨by omega, trivial⟩
      · have hsat : ¬ m ≤ v := by omega
        simp only [hlo, hhi, hsat, if_false, or_false, Bool.false_eq_true]
        exact ⟨by omega, trivial⟩

theorem intOp_eq (rd : BitVec 6) (sat : Bool) (f : LaneSt → Int) (x : LaneSt) (k : LaneTask) : ∃ evs,
    intOp rd sat f x k = some (x.gives rd (BitVec.ofInt 32 (clampTo 32 sat (f x))) (satf 32 sat (f x)), evs) := by
  obtain ⟨hval, hflag⟩ := satInt_eq 32 sat (f x)
  refine ⟨_, congrArg some (Prod.ext ?_ rfl)⟩
  dsimp only [LaneSt.intResult, LaneSt.setInt]
  rw [LaneSt.next_flag, LaneSt.next_setReg, LaneSt.flag_gives, hval]
  exact congrArg _ (by rw [← hflag]; simp [lstatBit, fSatf])

section
variable {l : Fin 64} {s : State} {x : LaneSt} {k : LaneTask} (hr : Runs l s x k) {c : Instr} {op : LaneOp}
include hr

theorem laneGives_int {rd : BitVec 6} {sat : Bool} {f : LaneSt → Int} {v : Int} (hexec : exec c s = .next (laneRun l c op s))
    (hop : op x k = intOp rd sat f x k) (hv : f x = v) :
    LaneGives c l s x rd (BitVec.ofInt 32 (clampTo 32 sat v)) (satf 32 sat v) := by
  obtain ⟨evs, hgives⟩ := intOp_eq rd sat f x k
  exact laneGives_of_op hr hexec (hop.trans (hv ▸ hgives))

/-- An instruction that only writes its register. -/
theorem laneGives_write {rd : BitVec 6} {v v' : W32} {evs : List (Nat × Nat)} (hexec : exec c s = .next (laneRun l c op s))
    (hop : op x k = some ((x.setReg rd v).next, evs)) (hv : v = v') : LaneGives c l s x rd v' 0 :=
  laneGives_of_op hr hexec (by rw [hop, LaneSt.next_setReg, hv])

end

/-! ### Redundant sign bits (R260) -/

theorem bitLen_le_iff (m j : Nat) : bitLen m ≤ j ↔ m < 2 ^ j := by
  unfold bitLen
  split
  case isTrue h => simp [h]
  case isFalse h => rw [Nat.succ_le_iff, Nat.log2_lt h]

/-- The bits of a number without its sign bits. -/
def magnitude (v : Int) : Nat := if v < 0 then (-v - 1).toNat else v.toNat

theorem redundant_eq (n : Nat) (v : Int) : redundant n v = n - 1 - bitLen (magnitude v) := rfl

theorem magnitude_lt_iff (v : Int) (j : Nat) : magnitude v < 2 ^ j ↔ -(2 : Int) ^ j ≤ v ∧ v < (2 : Int) ^ j := by
  have hpow : (2 : Int) ^ j = ((2 ^ j : Nat) : Int) := by norm_cast
  have hpos : 0 < 2 ^ j := by positivity
  rw [hpow, magnitude]
  split <;> omega

/-- A number shifted by `e` keeps its value in `n` bits where its own bits leave room for the shift. -/
theorem shift_fits_iff {n e : Nat} (v : Int) (he : e ≤ n - 1) :
    (-(2 : Int) ^ (n - 1) ≤ v * 2 ^ e ∧ v * 2 ^ e < (2 : Int) ^ (n - 1)) ↔ bitLen (magnitude v) + e ≤ n - 1 := by
  have hpos : (0 : Int) < 2 ^ e := by positivity
  have hsplit : (2 : Int) ^ (n - 1) = 2 ^ (n - 1 - e) * 2 ^ e := by rw [← pow_add, Nat.sub_add_cancel he]
  rw [hsplit, ← neg_mul, mul_le_mul_iff_left₀ hpos, mul_lt_mul_iff_left₀ hpos, ← magnitude_lt_iff, ← bitLen_le_iff]
  omega

theorem redundant_of_signBits {n : Nat} {v : Int} {e : Nat} (h : SignBits n v e) : redundant n v = e := by
  obtain ⟨he, hfits, hmax⟩ := h
  have hroom := (shift_fits_iff v he).mp hfits
  rw [redundant_eq]
  rcases hmax with hmax | hmax
  · omega
  · by_contra hne
    exact hmax ((shift_fits_iff v (by omega)).mpr (by omega))

/-! ### Shifts (R258) -/

/-- A shift by 31 or more leaves the sign alone. -/
theorem toInt_div_of_le (v : W32) {h : Nat} (hh : 31 ≤ h) : v.toInt / 2 ^ h = if v.toInt < 0 then -1 else 0 := by
  have hlow := v.le_toInt
  have hhigh := v.toInt_lt
  have hpow : (2 : Int) ^ 31 ≤ 2 ^ h := pow_le_pow_right₀ (by decide) hh
  split
  · exact Int.ediv_eq_neg_one_of_neg_of_le (by assumption) (by omega)
  · exact Int.ediv_eq_zero_of_lt (by omega) (by omega)

/-- An arithmetic shift divides. -/
theorem ofInt_div_two_pow (v : W32) (h : Nat) : BitVec.ofInt 32 (v.toInt / (2 ^ min h 31 : Nat)) = v.sshiftRight h := by
  rw [← BitVec.ofInt_toInt (x := v.sshiftRight h), BitVec.toInt_sshiftRight, Int.shiftRight_eq_div_pow]
  push_cast
  rcases Nat.le_total h 31 with hh | hh
  · rw [min_eq_left hh]
  · rw [min_eq_right hh, toInt_div_of_le v le_rfl, toInt_div_of_le v hh]

/-- MOVA's rounded shift (R261). -/
theorem movaShift_eq (v : Int) (r : BitVec 6) :
    movaShift v r.toNat = if r = 0 then v else (v + 2 ^ (r.toNat - 1)) / 2 ^ r.toNat := by
  have hzero : r.toNat = 0 ↔ r = 0 := by rw [← BitVec.toNat_inj]; rfl
  simp only [movaShift, hzero, Nat.cast_pow, Nat.cast_ofNat]

/-! ### The integer instructions -/

section
variable {l : Fin 64} {s : State} {x : LaneSt} {k : LaneTask} (hr : Runs l s x k)
include hr

theorem accOp_runs (w : LaneR) {c : Instr} {f : Int → Int → Int → Int} {p : Int} (hexec : exec c s = .next (laneRun l c (accOp w f) s))
    (hf : f (x.acc (w.rd.getLsbD 0)).toInt (x.reg w.rs).toInt (x.reg w.rt).toInt = (x.acc (w.rd.getLsbD 0)).toInt + p) :
    let v := (if w.rd.getLsbD 0 then x.ac1 else x.ac0).toInt + p
    LaneRuns c s x (fun t => ∃ y, LaneIs l s t y ∧ y.pc = x.pc + 4 ∧ y.lstat = x.lstat ||| satf 72 w.s v ∧
      LaneKeeps { x with ac0 := if w.rd.getLsbD 0 then x.ac0 else BitVec.ofInt 72 (clampTo 72 w.s v),
                         ac1 := if w.rd.getLsbD 0 then BitVec.ofInt 72 (clampTo 72 w.s v) else x.ac1 } y ∧ ∀ r, y.reg r = x.reg r) := by
  intro v
  obtain ⟨hval, hflag⟩ := satInt_eq 72 w.s v
  have hv : f (x.acc (w.rd.getLsbD 0)).toInt (x.sreg w.rs) (x.sreg w.rt) = v := hf
  refine laneRuns_of_op hr hexec rfl fun t ht => ⟨_, ht, ?_⟩
  have hbit : lstatBit fSatf (satInt 72 w.s v).2 = satf 72 w.s v := by rw [← hflag]; simp [lstatBit, fSatf]
  simp only [LaneSt.next, LaneSt.flag_eq, LaneSt.setAcc, hv, hval, hbit]
  cases w.rd.getLsbD 0
  · exact ⟨rfl, rfl, ⟨rfl, rfl, rfl, rfl, rfl, rfl, rfl, rfl⟩, fun r => LaneSt.reg_congr rfl rfl rfl r⟩
  · exact ⟨rfl, rfl, ⟨rfl, rfl, rfl, rfl, rfl, rfl, rfl, rfl⟩, fun r => LaneSt.reg_congr rfl rfl rfl r⟩

theorem movta_runs {w : LaneR} (hs : w.s = false) (hrt : w.rt.toNat ≤ 39) :
    LaneRuns (.movta l w) s x (fun t => ∃ y, LaneIs l s t y ∧ y.pc = x.pc + 4 ∧ y.lstat = x.lstat ∧
      (if w.rd.getLsbD 0 then y.ac1 else y.ac0).toInt = ((x.reg w.rs).toInt * 2 ^ w.rt.toNat : Int).bmod (2 ^ 72) ∧
      (if w.rd.getLsbD 0 then y.ac0 = x.ac0 else y.ac1 = x.ac1) ∧ ∀ r, y.reg r = x.reg r) := by
  refine laneRuns_of_op hr rfl ((congrFun₂ (noS_clear hs _) x k).trans (if_neg (by omega))) fun t ht => ⟨_, ht, ?_⟩
  simp only [LaneSt.next, LaneSt.setAcc, LaneSt.sreg, Nat.cast_pow, Nat.cast_ofNat]
  cases w.rd.getLsbD 0
  · exact ⟨rfl, rfl, BitVec.toInt_ofInt _, rfl, fun r => LaneSt.reg_congr rfl rfl rfl r⟩
  · exact ⟨rfl, rfl, BitVec.toInt_ofInt _, rfl, fun r => LaneSt.reg_congr rfl rfl rfl r⟩

end

end Sys2Proof.Machine

namespace Sys2Proof

open Machine

/-- Settles O48: each instruction is evaluated on the registers, and its result is the one of R259, R260 or R261. -/
theorem laneIntegers : Obligations.LaneIntegers := by
  refine fun l s x k hr => ⟨fun w => ⟨?exact, fun hs => ?bits, fun hs e he => ?signs, fun hs e he => ?expa, ?acc, fun hs hrt => ?movta,
      fun hs => ?illegal⟩,
    fun w => ⟨?addi, fun himm => ?shli, fun himm hs => ?sari, fun hs => ?andi, fun himm => ?range⟩, fun w => ⟨?li, ?lih⟩⟩
  case exact =>
    simp only [List.forall_mem_cons, List.not_mem_nil, false_implies, implies_true, and_true]
    exact ⟨laneGives_int hr rfl rfl rfl, laneGives_int hr rfl rfl rfl, laneGives_int hr rfl rfl rfl, laneGives_int hr rfl rfl rfl,
      laneGives_int hr rfl rfl (Int.abs_eq_natAbs _).symm, laneGives_int hr rfl rfl (by simp [shlExact, LaneSt.sreg, LaneSt.sh]),
      laneGives_int hr rfl rfl (movaShift_eq _ _)⟩
  case bits =>
    simp only [List.forall_mem_cons, List.not_mem_nil, false_implies, implies_true, and_true]
    have hclear := noS_clear hs
    exact ⟨laneGives_write hr rfl (by rw [hclear]; rfl) rfl, laneGives_write hr rfl (by rw [hclear]; rfl) rfl,
      laneGives_write hr rfl (by rw [hclear]; rfl) rfl, laneGives_write hr rfl (by rw [hclear]; rfl) rfl,
      laneGives_write hr rfl (by rw [hclear]; rfl) (ofInt_div_two_pow _ _)⟩
  case signs =>
    have hcount : redundant 32 (x.sreg w.rs) = e := redundant_of_signBits he
    have hclear := noS_clear hs
    exact ⟨laneGives_write hr rfl (by rw [hclear]; rfl) (by rw [hcount, BitVec.ofInt_natCast]),
      laneGives_write hr rfl (by rw [hclear]; rfl) (by rw [hcount]; simp [LaneSt.sreg])⟩
  case expa =>
    exact laneGives_write hr rfl (by rw [noS_clear hs]; rfl) (by rw [LaneSt.acc, redundant_of_signBits he, BitVec.ofInt_natCast])
  case acc =>
    simp only [List.forall_mem_cons, List.not_mem_nil, false_implies, implies_true, and_true]
    exact ⟨accOp_runs hr w rfl rfl, accOp_runs hr w rfl (sub_eq_add_neg _ _)⟩
  case movta => exact movta_runs hr hs hrt
  case illegal =>
    intro c hc
    have hset := noS_set hs
    simp only [List.mem_cons, List.not_mem_nil, or_false] at hc
    rcases hc with rfl | rfl | rfl | rfl | rfl | rfl | rfl | rfl | rfl <;> exact laneStops_of_op hr rfl (hset _ x k)
  case addi => exact laneGives_int hr rfl rfl rfl
  case shli => exact laneGives_int hr rfl (if_neg (by omega)) (by simp [shlExact, LaneSt.sreg])
  case sari =>
    refine laneGives_write hr rfl (if_neg (by simp [hs]; omega)) ?_
    rw [← ofInt_div_two_pow, min_eq_left himm]
    rfl
  case andi => exact laneGives_write hr rfl (if_neg (by simp [hs])) rfl
  case range => exact ⟨laneStops_of_op hr rfl (if_pos himm), laneStops_of_op hr rfl (if_pos (.inl himm))⟩
  case li => exact laneGives_write hr rfl rfl rfl
  case lih => exact laneGives_write hr rfl rfl rfl

end Sys2Proof
end

section
/-! SUPPORT. Floating-point Lane instructions (R262, R263): results with their conditions, S, comparisons with NaN, exponents, and conversions. -/

namespace Sys2Proof.Machine

/-! ### Results and their conditions (R263) -/

theorem LaneSt.next_fpFlags (x : LaneSt) (r : FRes) : (x.fpFlags r).next = x.next.fpFlags r := by
  simp only [LaneSt.fpFlags, LaneSt.next_flag]

/-- The conditions of a result set their bits of LSTAT. -/
theorem LaneSt.fpFlags_gives (x : LaneSt) (rd : BitVec 6) (v : W32) (r : FRes) (inv : Bool) :
    (x.gives rd v 0).fpFlags { r with invalid := r.invalid || inv } = x.gives rd v (fpBits r inv) := by
  simp only [LaneSt.fpFlags, LaneSt.flag_gives]
  refine congrArg (x.gives rd v) ?_
  simp only [fpBits]
  cases r.overflow <;> cases r.underflow <;> cases (r.invalid || inv) <;> cases r.divZero <;> rfl

theorem fpOp_eq (rd : BitVec 6) (sat : Bool) (ins : LaneSt → List Nat) (f : LaneSt → FRes) (x : LaneSt) (k : LaneTask) :
    fpOp rd sat ins f x k =
      some (x.gives rd (BitVec.ofNat 32 (fpSat sat (f x)).bits) (fpBits (fpSat sat (f x)) ((ins x).any snan)), [(0x1D, 1)]) := by
  rw [fpOp, LaneSt.next_fpFlags, LaneSt.next_setReg, LaneSt.fpFlags_gives]

/-- Without S, and where the result is not infinite, the result stands. -/
theorem fpSat_eq {sat : Bool} {r : FRes} (h : sat = false ∨ f32.abs r.bits ≠ 0x7F800000) : fpSat sat r = r := by
  rcases h with rfl | h
  · simp [fpSat]
  · exact if_neg fun hinf => h hinf.2

/-! ### Patterns of binary32 (R262) -/

theorem dec_zero {b : Nat} (h : b = 0 ∨ b = 0x80000000) : ∃ sg, f32.dec b = .fin sg 0 f32.emin := by
  rcases h with rfl | rfl
  · exact ⟨false, by decide⟩
  · exact ⟨true, by decide⟩

/-- Infinities and NaNs. -/
theorem dec_special {b : Nat} (h : 0x7F800000 ≤ b % 2 ^ 31) : f32.dec b = .inf (b.testBit 31) ∨ f32.dec b = .nan := by
  have hex : b / 2 ^ 23 % 2 ^ 8 = 2 ^ 8 - 1 := by omega
  simp only [Fmt.dec, f32, hex, if_true]
  by_cases hfr : b % 2 ^ 23 = 0
  · exact .inl (if_pos hfr)
  · exact .inr (if_neg hfr)

/-- Normal numbers. -/
theorem dec_normal {b : Nat} (hlo : 0x00800000 ≤ b % 2 ^ 31) (hhi : b % 2 ^ 31 < 0x7F800000) :
    f32.dec b = .fin (b.testBit 31) (b % 2 ^ 23 + 2 ^ 23) ((b % 2 ^ 31 / 2 ^ 23 : Nat) - 150) := by
  have hex : b / 2 ^ 23 % 2 ^ 8 = b % 2 ^ 31 / 2 ^ 23 := by omega
  have hmax : b % 2 ^ 31 / 2 ^ 23 ≠ 2 ^ 8 - 1 := by omega
  have hmin : b % 2 ^ 31 / 2 ^ 23 ≠ 0 := by omega
  have hexp : (3 : Int) - (2 ^ 7 : Nat) - 24 + (b % 2 ^ 31 / 2 ^ 23 - 1 : Nat) = (b % 2 ^ 31 / 2 ^ 23 : Nat) - 150 := by omega
  simp only [Fmt.dec, Fmt.emin, f32, hex, if_neg hmax, if_neg hmin]
  exact congrArg (FVal.fin _ _) hexp

theorem bitLen_significand (fr : Nat) (h : fr < 2 ^ 23) : bitLen (fr + 2 ^ 23) = 24 := by
  have hle := (bitLen_le_iff (fr + 2 ^ 23) 24).mpr (by omega)
  have hgt := mt (bitLen_le_iff (fr + 2 ^ 23) 23).mp (by omega)
  omega

/-! ### FEXP and FNORM -/

theorem fexp_fnorm_zero {b : Nat} (h : b = 0 ∨ b = 0x80000000) : fexpOf b = -150 ∧ fnormOf b = b := by
  obtain ⟨sg, hdec⟩ := dec_zero h
  simp [fexpOf, fnormOf, hdec]

theorem fexp_fnorm_special {b : Nat} (h : 0x7F800000 ≤ b % 2 ^ 31) : fexpOf b = 128 ∧ fnormOf b = b := by
  rcases dec_special h with hdec | hdec <;> simp [fexpOf, fnormOf, hdec]

/-- A significand of 24 bits is exact at exponent 0. -/
theorem round_significand (sg : Bool) {fr : Nat} (h : fr < 2 ^ 23) :
    (f32.round sg (fr + 2 ^ 23) (-23) false).bits = f32.sgn sg (0x3F800000 + fr) := by
  have hgrid : max f32.emin (-23 + (bitLen (fr + 2 ^ 23) : Int) - f32.prec) = -23 := by rw [bitLen_significand fr h]; decide
  have hsteps : ((-23 : Int) - f32.emin).toNat * 2 ^ (f32.prec - 1) = 126 * 2 ^ 23 := by decide
  have hfinite : ¬ f32.infBits ≤ 0x3F800000 + fr := by
    have hinf : f32.infBits = 255 * 2 ^ 23 := by decide
    omega
  have hsum : fr + 2 ^ 23 + 126 * 2 ^ 23 = 0x3F800000 + fr := by omega
  simp only [Fmt.round, hgrid, sub_self, Int.toNat_zero, pow_zero, mul_one, Nat.div_one, bne_self_eq_false, Bool.false_and,
    Bool.false_eq_true, if_false, hsteps, hsum, if_neg hfinite]

theorem fexp_fnorm_normal {b : Nat} (hb : b < 2 ^ 32) (hlo : 0x00800000 ≤ b % 2 ^ 31) (hhi : b % 2 ^ 31 < 0x7F800000) :
    fexpOf b = (b % 2 ^ 31 / 2 ^ 23 : Nat) - 127 ∧ fnormOf b = b / 2 ^ 31 * 2 ^ 31 + 0x3F800000 + b % 2 ^ 23 := by
  have hdec := dec_normal hlo hhi
  have hlen := bitLen_significand (b % 2 ^ 23) (by omega)
  have hne : b % 2 ^ 23 + 2 ^ 23 ≠ 0 := by omega
  simp only [fexpOf, fnormOf, hdec, hlen, if_neg hne]
  refine ⟨by omega, ?_⟩
  refine (round_significand _ (by omega)).trans ?_
  have hsign : f32.signBit = 2 ^ 31 := by decide
  rw [Fmt.sgn, hsign, Nat.testBit_eq_decide_div_mod_eq]
  split
  case isTrue h => have := of_decide_eq_true h; omega
  case isFalse h => have := of_decide_eq_false (Bool.not_eq_true _ ▸ h); omega

section
variable {l : Fin 64} {s : State} {x : LaneSt} {k : LaneTask} (hr : Runs l s x k)
include hr

/-- A floating-point instruction with S: the result stands, or is the largest finite number in place of an infinity. -/
theorem laneGives_fp {c : Instr} {op : LaneOp} {rd : BitVec 6} {sat two : Bool} {ins : LaneSt → List Nat} {f : LaneSt → FRes} {r : FRes}
    (hexec : exec c s = .next (laneRun l c op s)) (hop : op = fpOp rd sat ins f) (htwo : (ins x).any snan = two) (hf : f x = r) :
    (sat = false ∨ f32.abs r.bits ≠ 0x7F800000 → LaneGives c l s x rd (BitVec.ofNat 32 r.bits) (fpBits r two)) ∧
    (sat = true → f32.abs r.bits = 0x7F800000 →
      LaneGives c l s x rd (BitVec.ofNat 32 (r.bits - 1)) (fpBits { r with overflow := true } two)) := by
  have hres := fpOp_eq rd sat ins f x k
  rw [hf, htwo] at hres
  subst hop
  refine ⟨fun h => ?_, fun hsat hinf => ?_⟩
  · rw [fpSat_eq h] at hres
    exact laneGives_of_op hr hexec hres
  · have hmax : fpSat sat r = { r with bits := r.bits - 1, overflow := true } := if_pos ⟨hsat, hinf⟩
    rw [hmax] at hres
    exact laneGives_of_op hr hexec hres

end

/-! ### The other instructions -/

theorem snan_of_number {b : Nat} (h : f32.isNan b = false) : snan b = false := by simp [snan, h]

/-- FTOI out of range marks the operation as invalid; with S it gives an end of the range, or 0 for a NaN (R262). -/
theorem ftoi_out (x : LaneSt) (w : LaneR) (v : Int) :
    (((x.setInt w.rd (if w.s then v else -2 ^ 31)).flag fInv true).flag fSatf w.s).next =
      x.gives w.rd (if w.s then BitVec.ofInt 32 v else 0x80000000) (if w.s then 9 else 8) := by
  rw [LaneSt.setInt, LaneSt.next_flag, LaneSt.next_flag, LaneSt.next_setReg, LaneSt.flag_gives, LaneSt.flag_gives]
  cases w.s <;> rfl

section
variable {l : Fin 64} {s : State} {x : LaneSt} {k : LaneTask} (hr : Runs l s x k)
include hr

/-- A floating-point instruction that only writes its register. -/
theorem laneGives_fpWrite {c : Instr} {op : LaneOp} {rd : BitVec 6} {v v' : W32} {evs : List (Nat × Nat)} {w : LaneR} (hs : w.s = false)
    (hexec : exec c s = .next (laneRun l c (noS w op) s)) (hop : op x k = some ((x.setReg rd v).next, evs)) (hv : v = v') :
    LaneGives c l s x rd v' 0 := laneGives_write hr hexec ((congrFun₂ (noS_clear hs op) x k).trans hop) hv

/-- FMIN and FMAX pick one of their operands. -/
theorem laneGives_pick {c : Instr} {w : LaneR} {f : Nat → Nat → Nat} {v : W32} (hs : w.s = false)
    (hexec : exec c s = .next (laneRun l c (noS w (fp2 w (fun a b => FRes.plain (f a b)))) s))
    (ha : snan (x.reg w.rs).toNat = false) (hb : snan (x.reg w.rt).toNat = false)
    (hv : f (x.reg w.rs).toNat (x.reg w.rt).toNat = v.toNat) : LaneGives c l s x w.rd v 0 := by
  have hgives := (laneGives_fp (two := false) (r := FRes.plain v.toNat) hr hexec (noS_clear hs _) (by simp [LaneSt.fr, ha, hb])
    (congrArg FRes.plain hv)).1 (.inl hs)
  simpa [FRes.plain, fpBits] using hgives

/-- FCMPLT, with the invalid mark of a quiet NaN free (log entry 41). -/
theorem fcmplt_gives {w : LaneR} {a b : Nat} (hs : w.s = false) (ha : x.fr w.rs = a) (hb : x.fr w.rt = b) :
    LaneGives (.fcmplt l w) l s x w.rd (BitVec.ofNat 32 (b01 (f32.lt a b)))
      (lstatBit fInv (snan a || snan b || (f32.isNan a || f32.isNan b) && s.fresh.1 % 2 == 1)) := by
  refine laneGives_unseen hr (unseen_fresh l s) rfl ((congrFun₂ (noS_clear hs _) x k).trans (congrArg some (Prod.ext ?_ rfl)))
  simp only [ha, hb, LaneSt.setInt, LaneSt.next_flag, LaneSt.next_setReg, LaneSt.flag_gives, BitVec.ofInt_natCast]
  rw [show (0 : W32) ||| _ = _ from BitVec.zero_or]

/-- FTOI of a value in range. -/
theorem ftoi_gives {w : LaneR} {v : Int} (hrt : w.rt.toNat ≤ 31) (hv : ftoiOf (x.reg w.rs).toNat w.rt.toNat = some v)
    (hlo : -2 ^ 31 ≤ v) (hhi : v < 2 ^ 31) : LaneGives (.ftoi l w) l s x w.rd (BitVec.ofInt 32 v) 0 := by
  refine laneGives_write (evs := [(0x1D, 1)]) hr rfl ((if_neg (by omega)).trans ?_) rfl
  simp only [LaneSt.fr, hv, if_neg (not_lt.mpr hlo), if_neg (show ¬ (2 : Int) ^ 31 - 1 < v by omega)]
  rfl

theorem ftoi_nan {w : LaneR} (hrt : w.rt.toNat ≤ 31) (hnan : f32.isNan (x.reg w.rs).toNat = true) :
    LaneGives (.ftoi l w) l s x w.rd (if w.s then 0 else 0x80000000) (if w.s then 9 else 8) := by
  have hnone : ftoiOf (x.reg w.rs).toNat w.rt.toNat = none := by
    have hdec : f32.dec (x.reg w.rs).toNat = .nan := beq_iff_eq.mp hnan
    simp [ftoiOf, hdec]
  refine laneGives_of_op (evs := if w.s then [(0x1D, 1), (0x1F, 1)] else [(0x1D, 1)]) hr rfl ((if_neg (by omega)).trans ?_)
  simp only [LaneSt.fr, hnone, hnan, if_true]
  exact congrArg some (Prod.ext (ftoi_out x w 0) rfl)

theorem ftoi_above {w : LaneR} {v : Int} (hrt : w.rt.toNat ≤ 31) (hv : ftoiOf (x.reg w.rs).toNat w.rt.toNat = some v)
    (hhi : 2 ^ 31 ≤ v) : LaneGives (.ftoi l w) l s x w.rd (if w.s then 0x7FFFFFFF else 0x80000000) (if w.s then 9 else 8) := by
  refine laneGives_of_op (evs := if w.s then [(0x1D, 1), (0x1F, 1)] else [(0x1D, 1)]) hr rfl ((if_neg (by omega)).trans ?_)
  simp only [LaneSt.fr, hv, if_neg (show ¬ v < -(2 : Int) ^ 31 by omega), if_pos (show (2 : Int) ^ 31 - 1 < v by omega)]
  exact congrArg some (Prod.ext (ftoi_out x w (2 ^ 31 - 1)) rfl)

end

end Sys2Proof.Machine

namespace Sys2Proof

open Machine

/-- Settles O49: the results are those of binary32 with their conditions; exponents, normalisation and conversions are evaluated on the
pattern. -/
theorem laneFloats : Obligations.LaneFloats := by
  intro l s x k w hr a b d two
  have hbits : BitVec.ofNat 32 a = x.reg w.rs := (BitVec.ofNat_toNat 32 _).trans (BitVec.setWidth_eq _)
  refine ⟨?arith, fun hs => ⟨?sqrt, fun ha hb hlt => ?less, fun ha hb hq => ?nan, fun ha => ?zero, fun ha => ?special,
    fun hlo hhi => ?normal, fun hrt => ?itof⟩, fun hrt => ⟨fun v => ftoi_gives hr hrt, ftoi_nan hr hrt, fun v => ftoi_above hr hrt⟩⟩
  case arith =>
    have htwo : ([a, b].any snan) = two := by simp [two]
    have hthree : ([d, a, b].any snan) = (snan d || snan a || snan b) := by simp [Bool.or_assoc]
    simp only [List.forall_mem_cons, List.not_mem_nil, false_implies, implies_true, and_true]
    exact ⟨laneGives_fp hr rfl rfl htwo rfl, laneGives_fp hr rfl rfl htwo rfl, laneGives_fp hr rfl rfl htwo rfl, laneGives_fp hr rfl rfl htwo rfl,
      laneGives_fp hr rfl rfl hthree rfl, laneGives_fp hr rfl rfl hthree rfl⟩
  case sqrt =>
    have hsqrt := laneGives_fp (c := .fsqrt l w) (f := fun x => f32.sqrtR (x.fr w.rs)) (ins := fun x => [x.fr w.rs]) hr rfl (noS_clear hs _)
      (Bool.or_false _) rfl
    exact hsqrt.1 (.inl rfl)
  case less =>
    have hkey : f32.key a < f32.key b := by simpa [Fmt.lt, ha, hb] using hlt
    refine ⟨laneGives_pick hr hs rfl (snan_of_number ha) (snan_of_number hb) ?_,
      laneGives_pick hr hs rfl (snan_of_number ha) (snan_of_number hb) ?_, ?_⟩
    · rw [Fmt.minV, ha, hb, if_neg (by decide), if_neg (by decide), if_pos hkey]
    · rw [Fmt.maxV, ha, hb, if_neg (by decide), if_neg (by decide), if_pos hkey]
    · have hcmp := fcmplt_gives hr hs (a := a) (b := b) rfl rfl
      rw [snan_of_number ha, snan_of_number hb, ha, hb, hlt] at hcmp
      exact hcmp
  case nan =>
    refine ⟨laneGives_pick hr hs rfl hq (snan_of_number hb) ?_, laneGives_pick hr hs rfl hq (snan_of_number hb) ?_, ?_⟩
    · rw [Fmt.minV, ha, hb, if_pos rfl, if_neg (by decide)]
    · rw [Fmt.maxV, ha, hb, if_pos rfl, if_neg (by decide)]
    · have hcmp := fcmplt_gives hr hs (a := a) (b := b) rfl rfl
      have hlt : f32.lt a b = false := by simp [Fmt.lt, ha]
      rw [hlt] at hcmp
      refine ⟨_, ?_, hcmp⟩
      unfold lstatBit
      split
      · exact .inr rfl
      · exact .inl rfl
  case zero =>
    obtain ⟨hexp, hnorm⟩ := fexp_fnorm_zero ha
    exact ⟨laneGives_fpWrite hr hs rfl rfl (congrArg _ hexp), laneGives_fpWrite hr hs rfl rfl ((congrArg _ hnorm).trans hbits)⟩
  case special =>
    obtain ⟨hexp, hnorm⟩ := fexp_fnorm_special ha
    exact ⟨laneGives_fpWrite hr hs rfl rfl (congrArg _ hexp), laneGives_fpWrite hr hs rfl rfl ((congrArg _ hnorm).trans hbits)⟩
  case normal =>
    obtain ⟨hexp, hnorm⟩ := fexp_fnorm_normal (x.reg w.rs).isLt hlo hhi
    exact ⟨laneGives_fpWrite hr hs rfl rfl (congrArg _ hexp), laneGives_fpWrite hr hs rfl rfl (congrArg _ hnorm)⟩
  case itof => exact laneGives_fpWrite hr hs rfl (if_neg (by omega)) rfl

end Sys2Proof
end

section
/-! SUPPORT. What a Lane does with a word that is not the instruction sent, and the memory of a Lane: loads, stores and DMA (R253, R256,
R257, R266, R267). -/

namespace Sys2Proof.Machine

/-! ### Fetches (R256, R257) -/

/-- RDCNT first samples what has passed unseen on a Lane that runs a task (R275). -/
def State.laneSampled (s : State) (l : Fin 64) : State := if (s.lanes[l.val]?).any (fun x => x.task.isSome) then s.slack l.val else s

theorem unseen_laneSampled (l : Fin 64) (s : State) : Unseen l s (s.laneSampled l) := by
  unfold State.laneSampled
  split
  · exact unseen_slack l s
  · exact .refl l s

/-- A row of a Lane instruction comes to its Lane through the word that the Lane fetches. -/
theorem exec_laneIssue {c : Instr} {l : Fin 64} (h : laneOf c = some l) (s : State) :
    ∃ t run, exec c s = .next (laneIssue l c t run) ∧ Unseen l s t := by
  cases c <;> cases h
  case fcmplt.refl => exact ⟨_, _, rfl, unseen_fresh l s⟩
  case rdcnt.refl => exact ⟨s.laneSampled l, _, rfl, unseen_laneSampled l s⟩
  all_goals exact ⟨_, _, rfl, .refl l s⟩

section
variable {l : Fin 64} {s : State} {x : LaneSt} {k : LaneTask} {c : Instr} {v : W32}

/-- Another word at the PC: an undefined one stops the task, and a defined one keeps the instruction from coming. -/
theorem fetch_other (hr : Runs l s x k) (hl : laneOf c = some l) (hword : s.laneWord x = some v) (hne : laneEncode c ≠ some v) :
    (laneDecode l v = none → Completes c s (fun t => (t.lanes[l.val]?).map LaneSt.task = some none ∧ k.tmpl ∈ t.jn.illegal)) ∧
    (laneDecode l v ≠ none → Completes c s (fun t => t.lanes = s.lanes ∧ t.jn = s.jn ∧ Changes [.cnts, .objs, .free] s t)) := by
  obtain ⟨t, run, hexec, ht⟩ := exec_laneIssue hl s
  obtain ⟨hstopped, hx, hk, harea, -⟩ := runs_unseen hr ht
  have hissue : laneIssue l c t run = if (laneDecode l v).isNone then t.illegal l x k else t := by
    simp [laneIssue, hstopped, hx, hk, harea, ht.laneWord, hword, hne]
  rw [hissue] at hexec
  refine ⟨fun hnone => ⟨_, hexec, ?_⟩, fun hsome => ⟨_, hexec, ?_⟩⟩
  · rw [if_pos (Option.isNone_iff_eq_none.mpr hnone)]
    exact illegal_stops hx hk
  · rw [if_neg fun h => hsome (Option.isNone_iff_eq_none.mp h)]
    exact ⟨ht.lanes, ht.jn, ht.parts⟩

end

/-! ### Bytes of memory -/

theorem getD_le {n i : Nat} (hi : i < n) (v : Nat) : (le n v).getD i 0 = BitVec.ofNat 8 (v / 256 ^ i) := by
  induction n generalizing v i with
  | zero => omega
  | succ n ih =>
    cases i with
    | zero => simp [le]
    | succ i =>
      rw [le, List.getD_cons_succ, ih (by omega), Nat.div_div_eq_div_mul, ← Nat.pow_succ']

theorem getD_slice {b : Bytes} {off n i : Nat} (hn : off + n ≤ b.length) (hi : i < n) : (slice b off n).getD i 0 = b.getD (off + i) 0 := by
  have hlen : ((b.drop off).take n).length = n := by simp; omega
  simp only [slice, hlen, Nat.sub_self, zeros, List.replicate_zero, List.append_nil, List.getD_eq_getElem?_getD, List.getElem?_take,
    List.getElem?_drop, if_pos hi]

/-- Writing bytes puts each of them at its address. -/
theorem memGet_write_same {m : Mem} (hm : memWf m = true) (a : Nat) {bs : Bytes} {i : Nat} (hi : i < bs.length) :
    memGet (memWrite m a bs) (a + i) = bs.getD i 0 := by
  induction bs generalizing m a i with
  | nil => simp at hi
  | cons b bs ih =>
    rw [memWrite]
    cases i with
    | zero => rw [memGet_write_other _ _ _ _ (by omega)]; exact memGet_set_same m a b hm
    | succ i =>
      rw [show a + (i + 1) = a + 1 + i by omega, ih (memWf_set a b hm) (a + 1) (by simpa using hi), List.getD_cons_succ]

/-- Of a number's bytes the first `j` are written. -/
theorem memGet_write_take {m : Mem} (hm : memWf m = true) (a size v j : Nat) :
    (∀ i, i < size → memGet (memWrite m a ((le size v).take j)) (a + i) = if j ≤ i then memGet m (a + i) else BitVec.ofNat 8 (v / 256 ^ i)) ∧
    (∀ a', a' < a ∨ a + size ≤ a' → memGet (memWrite m a ((le size v).take j)) a' = memGet m a') := by
  refine ⟨fun i hi => ?_, fun a' ha' => memGet_write_other _ _ _ _ (by simp; omega)⟩
  split
  · exact memGet_write_other _ _ _ _ (by simp; omega)
  · rw [memGet_write_same hm a (by simp; omega), ← getD_le hi v]
    simp only [List.getD_eq_getElem?_getD, List.getElem?_take, if_pos (show i < j by omega)]

/-! ### Addresses (R256) -/

section
variable (x y : LaneSt) (w : LaneM) (size : Nat)

theorem mode_cases (m : BitVec 2) : m = 0 ∨ m = 1 ∨ m = 2 ∨ m = 3 := by revert m; decide

theorem LaneSt.addr_eq (h : w.mode ≠ 3) :
    x.addr w size = some (if w.mode = 1 then x.reg w.rb else x.offAddr w size).toNat := by
  unfold LaneSt.addr
  rcases mode_cases w.mode with hm | hm | hm | hm <;> simp_all

theorem LaneSt.addr_illegal (h : w.mode = 3) : x.addr w size = none := by simp [LaneSt.addr, h]

/-- The access changes RB. -/
def UpdatesBase (w : LaneM) (r : BitVec 6) : Prop := (w.mode = 1 ∨ w.mode = 2) ∧ r = w.rb ∧ w.rb ≠ 0

theorem LaneSt.updateBase_eq : y.updateBase x w size = if w.mode = 1 ∨ w.mode = 2 then y.setReg w.rb (x.offAddr w size) else y := by
  unfold LaneSt.updateBase
  rcases mode_cases w.mode with hm | hm | hm | hm <;> simp [hm]

theorem LaneSt.updateBase_keeps : (y.updateBase x w size).pc = y.pc ∧ (y.updateBase x w size).lstat = y.lstat ∧
    LaneKeeps y (y.updateBase x w size) := by
  rw [LaneSt.updateBase_eq]
  split <;> simp [LaneKeeps]

variable {y} in
theorem LaneSt.reg_updateBase (hg : y.g.length = 32) (hq : y.q.length = 32) (r : BitVec 6) :
    (UpdatesBase w r → (y.updateBase x w size).reg r = x.offAddr w size) ∧
    (¬ UpdatesBase w r → (y.updateBase x w size).reg r = y.reg r) := by
  rw [LaneSt.updateBase_eq, UpdatesBase]
  by_cases hmode : w.mode = 1 ∨ w.mode = 2
  · rw [if_pos hmode, LaneSt.reg_setReg hg hq]
    exact ⟨fun h => if_pos h.2, fun h => if_neg fun hrb => h ⟨hmode, hrb⟩⟩
  · rw [if_neg hmode]
    exact ⟨fun h => absurd h.1 hmode, fun _ => rfl⟩

end

/-! ### Loads and stores (R253) -/

section
variable {x : LaneSt} {k : LaneTask} {a size : Nat}

theorem LaneSt.load_eq (halign : a % size = 0) (harea : (areaOf a).isSome = true) :
    x.load k a size = some (leVal ((List.range size).map (fun i => x.byteAt k (a + i)))) := by
  obtain ⟨r, hr⟩ := Option.isSome_iff_exists.mp harea
  simp [LaneSt.load, accessArea, halign, hr]

/-- An access that is misaligned or outside every area (R257). -/
theorem LaneSt.access_illegal (h : a % size ≠ 0 ∨ areaOf a = none) (v : Nat) : x.load k a size = none ∧ x.store k a size v = none := by
  have hnone : accessArea a size = none := by
    unfold accessArea
    split
    case isTrue halign => exact h.resolve_left (fun hne => hne halign)
    case isFalse => rfl
  simp [LaneSt.load, LaneSt.store, hnone]

theorem LaneSt.store_readOnly (h : areaOf a = some .desc ∨ areaOf a = some .ops ∨ areaOf a = some .lstat) (v : Nat) :
    x.store k a size v = none := by
  unfold LaneSt.store accessArea
  split_ifs with halign
  · rcases h with h | h | h <;> simp [h]
  · rfl

theorem block_base (h : areaOf a = some .block) : 0x42000 ≤ a := by
  unfold areaOf at h
  split_ifs at h <;> cases h
  omega

/-- A store to a writable area writes the number's bytes; state bytes beyond STATE_LEN stay (R253). -/
theorem LaneSt.store_eq (hm : memWf x.mem = true) (halign : a % size = 0)
    (harea : areaOf a = some .sram ∨ areaOf a = some .out ∨ areaOf a = some .table ∨ areaOf a = some .block) (v : Nat) :
    ∃ m, x.store k a size v = some { x with mem := m } ∧
      (∀ i, i < size → memGet m (a + i) = if areaOf a = some .block ∧ k.stateLen ≤ a + i - 0x42000 then memGet x.mem (a + i)
        else BitVec.ofNat 8 (v / 256 ^ i)) ∧
      (∀ a', a' < a ∨ a + size ≤ a' → memGet m a' = memGet x.mem a') := by
  by_cases hblock : areaOf a = some .block
  case pos =>
    have hbase := block_base hblock
    obtain ⟨hin, hout⟩ := memGet_write_take hm a size v (k.stateLen - (a - 0x42000))
    refine ⟨_, by simp [LaneSt.store, accessArea, halign, hblock], fun i hi => ?_, hout⟩
    rw [hin i hi]
    simp only [hblock, true_and]
    exact if_congr (by omega) rfl rfl
  case neg =>
    obtain ⟨hin, hout⟩ := memGet_write_take hm a size v size
    rw [List.take_of_length_le (le_length size v).le] at hin hout
    refine ⟨memWrite x.mem a (le size v), ?_, fun i hi => ?_, hout⟩
    · rcases harea with h | h | h | h
      · simp [LaneSt.store, accessArea, halign, h]
      · simp [LaneSt.store, accessArea, halign, h]
      · simp [LaneSt.store, accessArea, halign, h]
      · exact absurd h hblock
    · rw [hin i hi, if_neg (by omega), if_neg fun h => hblock h.1]

end

section
variable {x : LaneSt} {k : LaneTask} {w : LaneM} {a size : Nat} (ha : (if w.mode = 1 then x.reg w.rb else x.offAddr w size).toNat = a)

include ha in
theorem loadOp_eq (hmode : w.mode ≠ 3) (halign : a % size = 0) (harea : (areaOf a).isSome = true) {v : W32}
    (hv : BitVec.ofInt 32 (signed size (leVal ((List.range size).map (fun i => x.byteAt k (a + i))))) = v) :
    loadOp w size x k = some (((x.setReg w.rd v).updateBase x w size).next, [(0x20, 1)]) := by
  simp only [loadOp, x.addr_eq w size hmode, ha, LaneSt.load_eq halign harea, LaneSt.setInt, hv]

include ha in
theorem storeOp_eq (hmode : w.mode ≠ 3) {m : Mem} (hm : x.store k a size (x.reg w.rd).toNat = some { x with mem := m }) :
    storeOp w size x k = some ((({ x with mem := m } : LaneSt).updateBase x w size).next, [(0x21, 1)]) := by
  simp only [storeOp, x.addr_eq w size hmode, ha, hm]

include ha in
theorem access_stops (h : w.mode = 3 ∨ a % size ≠ 0 ∨ areaOf a = none) : loadOp w size x k = none ∧ storeOp w size x k = none := by
  by_cases hmode : w.mode = 3
  · simp only [loadOp, storeOp, x.addr_illegal w size hmode, and_self]
  · have hno := LaneSt.access_illegal (x := x) (k := k) (h.resolve_left hmode) (x.reg w.rd).toNat
    simp only [loadOp, storeOp, x.addr_eq w size hmode, ha, hno, and_self]

include ha in
theorem storeOp_readOnly (h : areaOf a = some .desc ∨ areaOf a = some .ops ∨ areaOf a = some .lstat) : storeOp w size x k = none := by
  by_cases hmode : w.mode = 3
  · simp only [storeOp, x.addr_illegal w size hmode]
  · simp only [storeOp, x.addr_eq w size hmode, ha, LaneSt.store_readOnly h]

/-- RB takes its update after the access, and the rest of the Lane is as the access left it. -/
theorem updateBase_spec {y : LaneSt} (x : LaneSt) (w : LaneM) (size : Nat) (hg : y.g.length = 32) (hq : y.q.length = 32) :
    let z := (y.updateBase x w size).next
    z.pc = y.pc + 4 ∧ (∀ r, UpdatesBase w r → z.reg r = x.offAddr w size) ∧ (∀ r, ¬ UpdatesBase w r → z.reg r = y.reg r) ∧
    z.lstat = y.lstat ∧ LaneKeeps y z := by
  obtain ⟨hpc, hlstat, hkeeps⟩ := LaneSt.updateBase_keeps x y w size
  have hreg (r : BitVec 6) : (y.updateBase x w size).next.reg r = (y.updateBase x w size).reg r := LaneSt.reg_congr rfl rfl rfl r
  exact ⟨congrArg (· + 4) hpc, fun r h => (hreg r).trans ((LaneSt.reg_updateBase x w size hg hq r).1 h),
    fun r h => (hreg r).trans ((LaneSt.reg_updateBase x w size hg hq r).2 h), hlstat, hkeeps⟩

end

section
variable {l : Fin 64} {s : State} {x : LaneSt} {k : LaneTask} (hr : Runs l s x k) {w : LaneM} {size a : Nat} {c : Instr}
  (ha : (if w.mode = 1 then x.reg w.rb else x.offAddr w size).toNat = a) (hmode : w.mode ≠ 3) (halign : a % size = 0)
include hr ha hmode halign

theorem load_runs (hexec : exec c s = .next (laneRun l c (loadOp w size) s)) (harea : (areaOf a).isSome = true) :
    LaneRuns c s x (fun t => ∃ y, LaneIs l s t y ∧ y.pc = x.pc + 4 ∧ (∀ r, UpdatesBase w r → y.reg r = x.offAddr w size) ∧
      (∀ r, ¬ UpdatesBase w r → y.reg r = if r = w.rd ∧ w.rd ≠ 0 then
        BitVec.ofInt 32 (signed size (leVal ((List.range size).map (fun i => x.byteAt k (a + i))))) else x.reg r) ∧
      y.lstat = x.lstat ∧ LaneKeeps x y) := by
  obtain ⟨hg, hq⟩ := runs_files hr
  refine laneRuns_of_op hr hexec (loadOp_eq ha hmode halign harea rfl) fun t ht => ⟨_, ht, ?_⟩
  generalize BitVec.ofInt 32 (signed size (leVal ((List.range size).map (fun i => x.byteAt k (a + i))))) = v
  obtain ⟨hpc, hbase, hother, hlstat, hkeeps⟩ := updateBase_spec (y := x.setReg w.rd v) x w size (by simpa using hg) (by simpa using hq)
  refine ⟨by simpa using hpc, hbase, fun r h => (hother r h).trans (LaneSt.reg_setReg hg hq _ _ _), by simpa using hlstat,
    by simpa [LaneKeeps] using hkeeps⟩

theorem store_runs (hexec : exec c s = .next (laneRun l c (storeOp w size) s))
    (harea : areaOf a = some .sram ∨ areaOf a = some .out ∨ areaOf a = some .table ∨ areaOf a = some .block) :
    LaneRuns c s x (fun t => ∃ y, LaneIs l s t y ∧ y.pc = x.pc + 4 ∧ (∀ r, UpdatesBase w r → y.reg r = x.offAddr w size) ∧
      (∀ r, ¬ UpdatesBase w r → y.reg r = x.reg r) ∧
      (∀ i, i < size → memGet y.mem (a + i) = if areaOf a = some .block ∧ k.stateLen ≤ a + i - 0x42000 then memGet x.mem (a + i)
        else BitVec.ofNat 8 ((x.reg w.rd).toNat / 256 ^ i)) ∧
      (∀ a', a' < a ∨ a + size ≤ a' → memGet y.mem a' = memGet x.mem a') ∧ y.lstat = x.lstat ∧ LaneKeeps { x with mem := y.mem } y) := by
  obtain ⟨hg, hq⟩ := runs_files hr
  obtain ⟨m, hm, hin, hout⟩ := LaneSt.store_eq (k := k) (runs_mem hr) halign harea (x.reg w.rd).toNat
  refine laneRuns_of_op hr hexec (storeOp_eq ha hmode hm) fun t ht => ⟨_, ht, ?_⟩
  obtain ⟨hpc, hbase, hother, hlstat, hkeeps⟩ := updateBase_spec (y := { x with mem := m }) x w size hg hq
  have hmem : ((({ x with mem := m } : LaneSt).updateBase x w size).next).mem = m := by
    obtain ⟨-, -, -, hmem, -⟩ := hkeeps
    exact hmem
  rw [hmem]
  exact ⟨hpc, hbase, fun r h => (hother r h).trans (LaneSt.reg_congr rfl rfl rfl r), hin, hout, hlstat, hkeeps⟩

end

end Sys2Proof.Machine
end

section
/-! SUPPORT. Branches, DMA and RDCNT of a Lane (R256, R265 to R267, R275, R276). -/

namespace Sys2Proof.Machine

/-! ### Branches (R256, R258) -/

/-- An instruction that only sets the PC. -/
def LaneGoes (c : Instr) (l : Fin 64) (s : State) (x : LaneSt) (pc : W16) : Prop :=
  LaneRuns c s x (fun t => ∃ y, LaneIs l s t y ∧ y.pc = pc ∧ (∀ r, y.reg r = x.reg r) ∧ y.lstat = x.lstat ∧ LaneKeeps x y)

theorem laneKeeps_pc (x : LaneSt) (pc : W16) : (∀ r, ({ x with pc := pc } : LaneSt).reg r = x.reg r) ∧ LaneKeeps x { x with pc := pc } :=
  ⟨fun _ => LaneSt.reg_congr rfl rfl rfl _, rfl, rfl, rfl, rfl, rfl, rfl, rfl, rfl⟩

section
variable {l : Fin 64} {s : State} {x : LaneSt} {k : LaneTask} (hr : Runs l s x k)
include hr

/-- A conditional branch goes on, goes to its target, or stops where the target leaves the kernel's area. -/
theorem branch_runs {w : LaneB} {c : Instr} {f : W32 → Bool} {b : Bool} (hexec : exec c s = .next (laneRun l c (branchOp w f) s))
    (hf : f (x.reg w.rd) = b) :
    let target : Int := x.pc.toNat + 4 * w.imm.toInt
    (b = false → LaneGoes c l s x (x.pc + 4)) ∧ (b = true → inArea k.kernel target = true → LaneGoes c l s x (BitVec.ofInt 16 target)) ∧
    (b = true → inArea k.kernel target = false → LaneStops c l s x k) := by
  intro target
  have hgoes (pc : W16) (evs : List (Nat × Nat)) (hop : branchOp w f x k = some ({ x with pc := pc }, evs)) : LaneGoes c l s x pc :=
    laneRuns_of_op hr hexec hop fun t ht => by
      obtain ⟨hreg, hkeeps⟩ := laneKeeps_pc x pc
      exact ⟨_, ht, rfl, hreg, rfl, hkeeps⟩
  refine ⟨fun hb => hgoes _ [] ?_, fun hb harea => hgoes _ [(0x14, 1), (2, 1)] ?_, fun hb harea => laneStops_of_op hr hexec ?_⟩
  · simp only [branchOp, hf, hb, Bool.false_eq_true, if_false, LaneSt.next]
  · simp only [branchOp, hf, hb, if_true, LaneSt.branch, harea, target, Option.map_some]
  · simp only [branchOp, hf, hb, if_true, LaneSt.branch, harea, target, Bool.false_eq_true, if_false, Option.map_none]

/-! ### BLOOP (R265) -/

/-- The Lane after BLOOP at its next PC: the count went down by one, and the rotation by one. -/
def LaneSt.looped (x : LaneSt) (rd : BitVec 6) (pc : W16) : LaneSt := { x.setReg rd (x.reg rd - 1) with rrb := x.rrb - 1, pc := pc }

theorem looped_spec (rd : BitVec 6) (pc : W16) : let y := x.looped rd pc
    y.pc = pc ∧ y.rrb = x.rrb - 1 ∧
    (∀ r, ({ y with rrb := x.rrb } : LaneSt).reg r = if r = rd ∧ rd ≠ 0 then x.reg rd - 1 else x.reg r) ∧
    y.lstat = x.lstat ∧ LaneKeeps { x with rrb := y.rrb } y := by
  obtain ⟨hg, hq⟩ := runs_files hr
  refine ⟨rfl, rfl, fun r => ?_, by simp [LaneSt.looped], by simp [LaneSt.looped, LaneKeeps]⟩
  rw [← LaneSt.reg_setReg hg hq]
  exact LaneSt.reg_congr (x := x.setReg rd _) (y := { x.looped rd pc with rrb := x.rrb }) rfl rfl (LaneSt.setReg_rrb x rd _).symm r

theorem bloop_runs (w : LaneB) :
    let v := x.reg w.rd
    let target : Int := x.pc.toNat + 4 * w.imm.toInt
    (v = 1 ∨ w.rd = 0 ∨ inArea k.kernel target = true → LaneRuns (.bloop l w) s x (fun t => ∃ y, LaneIs l s t y ∧
      y.pc = (if v = 1 ∨ w.rd = 0 then x.pc + 4 else BitVec.ofInt 16 target) ∧ y.rrb = x.rrb - 1 ∧
      (∀ r, ({ y with rrb := x.rrb } : LaneSt).reg r = if r = w.rd ∧ w.rd ≠ 0 then v - 1 else x.reg r) ∧
      y.lstat = x.lstat ∧ LaneKeeps { x with rrb := y.rrb } y)) ∧
    (v ≠ 1 → w.rd ≠ 0 → inArea k.kernel target = false → LaneStops (.bloop l w) l s x k) := by
  intro v target
  have hbranch : v - 1 ≠ 0 ∧ w.rd ≠ 0 ↔ ¬ (v = 1 ∨ w.rd = 0) := by rw [sub_ne_zero, not_or]
  refine ⟨fun h => ?goes, fun hv hrd harea => ?stops⟩
  case goes =>
    by_cases hend : v = 1 ∨ w.rd = 0
    · refine laneRuns_of_op (y := x.looped w.rd (x.pc + 4)) (evs := []) hr rfl ((if_neg fun hb => hbranch.mp hb hend).trans ?_)
        fun t ht => ⟨_, ht, ?_⟩
      · simp [LaneSt.next, LaneSt.looped]
      · rw [if_pos hend]
        exact looped_spec hr w.rd _
    · have harea : inArea k.kernel target = true := by tauto
      refine laneRuns_of_op (y := x.looped w.rd (BitVec.ofInt 16 target)) (evs := [(0x15, 1)]) hr rfl
        ((if_pos (hbranch.mpr hend)).trans ?_) fun t ht => ⟨_, ht, ?_⟩
      · simp [LaneSt.branch, LaneSt.looped, harea, target]
      · rw [if_neg hend]
        exact looped_spec hr w.rd _
  case stops =>
    refine laneStops_of_op hr rfl ((if_pos (hbranch.mpr (not_or.mpr ⟨hv, hrd⟩))).trans ?_)
    simp [LaneSt.branch, harea, target]

/-! ### DMA (R266, R267) -/

section
variable {w : LaneR} {src dst len : Nat} (hs : w.s = false) (hsrc : x.load k (x.reg w.rs).toNat 4 = some src)
  (hdst : x.load k ((x.reg w.rs).toNat + 4) 4 = some dst) (hlen : x.load k ((x.reg w.rs).toNat + 8) 4 = some len)
  (hctrl : x.load k ((x.reg w.rs).toNat + 12) 4 = some 0)
include hs hsrc hdst hlen hctrl

theorem dmago_runs (hmin : 4 ≤ len) (hmax : len ≤ 65536) (hops : src + len ≤ k.ops.length) (hlo : 0x10000 ≤ dst)
    (hhi : dst + len ≤ 0x40000) (hsrc4 : src % 4 = 0) (hdst4 : dst % 4 = 0) (hlen4 : len % 4 = 0) :
    LaneRuns (.dmago l w) s x (fun t => ∃ y, LaneIs l s t y ∧ y.pc = x.pc + 4 ∧ y.dma = some (dst, len) ∧ (∀ r, y.reg r = x.reg r) ∧
      (∀ i, i < len → memGet y.mem (dst + i) = k.ops.getD (src + i) 0) ∧
      (∀ a', a' < dst ∨ dst + len ≤ a' → memGet y.mem a' = memGet x.mem a') ∧ LaneKeeps { x with mem := y.mem, dma := y.dma } y) := by
  refine laneRuns_of_op (y := ({ x with mem := memWrite x.mem dst (slice k.ops src len), dma := some (dst, len) } : LaneSt).next)
    (evs := [(0x22, (len + 31) / 32)]) hr rfl ((congrFun₂ (noS_clear hs _) x k).trans ?_) fun t ht => ⟨_, ht, rfl, rfl, ?_⟩
  · simp only [hsrc, hdst, hlen, hctrl]
    exact if_neg (by omega)
  · refine ⟨fun r => LaneSt.reg_congr rfl rfl rfl r, fun i hi => ?_, fun a' ha' => ?_, ?_⟩
    · exact (memGet_write_same (runs_mem hr) dst (by simpa using hi)).trans (getD_slice hops hi)
    · exact memGet_write_other _ _ _ _ (by simpa using ha')
    · simp [LaneKeeps, LaneSt.next]

theorem dmago_stops (h : k.ops.length < src + len ∨ dst < 0x10000 ∨ 0x40000 < dst + len ∨ len % 4 ≠ 0) : LaneStops (.dmago l w) l s x k := by
  refine laneStops_of_op hr rfl ((congrFun₂ (noS_clear hs _) x k).trans ?_)
  simp only [hsrc, hdst, hlen, hctrl]
  exact if_pos (by omega)

end

theorem dmawt_runs {w : LaneR} (hs : w.s = false) :
    LaneRuns (.dmawt l w) s x (fun t => LaneIs l s t { x with dma := none, pc := x.pc + 4 }) :=
  laneRuns_of_op hr rfl (congrFun₂ (noS_clear hs _) x k) fun _ ht => ht

/-! ### RDCNT (R275, R276) -/

end

theorem cntEnabled_unseen {l : Fin 64} {s t : State} (h : Unseen l s t) (k : LaneTask) : t.cntEnabled k = s.cntEnabled k := by
  have hen : t.obj kCntUserEn = s.obj kCntUserEn := h.objs _ (by simp [kCntUserEn, kCntOvf]; omega)
  have hfail : t.obj kUnitFail = s.obj kUnitFail := h.objs _ (by simp [kUnitFail, kCntOvf]; omega)
  simp only [State.cntEnabled, State.cntFailed, State.bit, State.n, hen, hfail]

theorem enabled_laneSampled {l : Fin 64} {s : State} {k : LaneTask} (hen : s.cntEnabled k = true) :
    ¬ (!(s.laneSampled l).cntEnabled k) = true := by
  rw [cntEnabled_unseen (unseen_laneSampled l s), hen]
  decide

section
variable {l : Fin 64} {s : State} {x : LaneSt} {k : LaneTask} (hr : Runs l s x k) {w : LaneI} (hs : w.s = false) (hrs : w.rs = 0)
  (himm : w.imm.toNat ≤ 15) (hcnt : w.imm.toNat % 8 ≠ 7)
include hr hs hrs himm hcnt

theorem rdcnt_disabled (hen : s.cntEnabled k = false) : LaneGives (.rdcnt l w) l s x w.rd 0 0 := by
  have hoff : (!(s.laneSampled l).cntEnabled k) = true := by rw [cntEnabled_unseen (unseen_laneSampled l s), hen]; rfl
  refine laneGives_unseen (evs := []) hr (unseen_laneSampled l s) rfl
    ((if_neg (by simp [hs, hrs, hcnt, himm])).trans ((if_pos hoff).trans ?_))
  rw [LaneSt.next_setReg]

/-- The low word of a counter, which the shadow takes with its number. -/
theorem rdcnt_low (hen : s.cntEnabled k = true) (hlow : w.imm.toNat < 8) : LaneRuns (.rdcnt l w) s x (fun t => ∃ y u, LaneIs l s t y ∧
    y.pc = x.pc + 4 ∧ y.shadow = some (w.imm.toNat, u) ∧ (∀ r, y.reg r = if r = w.rd ∧ w.rd ≠ 0 then BitVec.ofNat 32 u else x.reg r) ∧
    y.lstat = x.lstat ∧ LaneKeeps { x with shadow := y.shadow } y) := by
  obtain ⟨hg, hq⟩ := runs_files hr
  let u := ((s.laneSampled l).cnt l.val).value w.imm.toNat
  let x' : LaneSt := { x with shadow := some (w.imm.toNat, u) }
  refine laneRuns_unseen (y := x'.gives w.rd (BitVec.ofNat 32 u) 0) (evs := []) hr (unseen_laneSampled l s) rfl
    ((if_neg (by simp [hs, hrs, hcnt, himm])).trans ((if_neg (enabled_laneSampled hen)).trans ((if_pos hlow).trans ?_)))
    fun _ hu => ⟨_, u, hu, ?_⟩
  · rw [Nat.mod_eq_of_lt hlow, LaneSt.next_setReg]
    rfl
  · obtain ⟨hpc, hreg, hlstat, hkeeps⟩ := gives_spec (x := x') hg hq w.rd (BitVec.ofNat 32 u) 0
    have hshadow : (x'.gives w.rd (BitVec.ofNat 32 u) 0).shadow = some (w.imm.toNat, u) := by simp [LaneSt.gives, x']
    rw [hshadow]
    exact ⟨hpc, rfl, hreg, hlstat.trans BitVec.or_zero, hkeeps⟩

/-- The high word of the counter whose low word was read before. -/
theorem rdcnt_high {u : Nat} (hen : s.cntEnabled k = true) (hhigh : 8 ≤ w.imm.toNat) (hshadow : x.shadow = some (w.imm.toNat - 8, u)) :
    LaneGives (.rdcnt l w) l s x w.rd (BitVec.ofNat 32 (u / 2 ^ 32)) 0 := by
  refine laneGives_unseen (evs := []) hr (unseen_laneSampled l s) rfl
    ((if_neg (by simp [hs, hrs, hcnt, himm])).trans ((if_neg (enabled_laneSampled hen)).trans ((if_neg (by omega)).trans ?_)))
  simp only [hshadow]
  rw [if_pos (by omega), LaneSt.next_setReg]

/-- The high word without a low word before it is torn. -/
theorem rdcnt_torn (hen : s.cntEnabled k = true) (hhigh : 8 ≤ w.imm.toNat) (hshadow : x.shadow = none) :
    LaneRuns (.rdcnt l w) s x (fun t => ∃ y, LaneIs l s t y ∧ y.pc = x.pc + 4 ∧ y.lstat.getLsbD 5 = true ∧
      (∀ r, r ≠ w.rd → y.reg r = x.reg r) ∧ LaneKeeps x y) := by
  obtain ⟨hg, hq⟩ := runs_files hr
  let v := BitVec.ofNat 32 (((s.laneSampled l).cnt l.val).value (w.imm.toNat % 8) / 2 ^ 32)
  refine laneRuns_unseen (y := x.gives w.rd v (0 ||| lstatBit fTear true)) (evs := []) hr (unseen_laneSampled l s) rfl
    ((if_neg (by simp [hs, hrs, hcnt, himm])).trans ((if_neg (enabled_laneSampled hen)).trans ((if_neg (by omega)).trans ?_)))
    fun _ hu => ⟨_, hu, ?_⟩
  · simp only [hshadow]
    rw [LaneSt.next_flag, LaneSt.next_setReg, LaneSt.flag_gives]
    rfl
  · obtain ⟨hpc, hreg, hlstat, hkeeps⟩ := gives_spec hg hq w.rd v (0 ||| lstatBit fTear true)
    refine ⟨hpc, ?_, fun r hne => (hreg r).trans (if_neg fun h => hne h.1), hkeeps⟩
    rw [hlstat]
    simp [lstatBit, fTear]

end

end Sys2Proof.Machine

namespace Sys2Proof

open Machine

/-- Settles O50: each instruction is evaluated on the Lane, and a word that is not the instruction sent is what the fetch finds. -/
theorem laneMemoryAndBranches : Obligations.LaneMemoryAndBranches := by
  refine fun l s x k hr => ⟨fun c v hl _ hword hne => fetch_other hr hl hword hne, ?memory, ?branches,
    fun w src dst len hs hsrc hdst hlen hctrl => ⟨dmago_runs hr hs hsrc hdst hlen hctrl, dmago_stops hr hs hsrc hdst hlen hctrl⟩,
    fun w hs => dmawt_runs hr hs,
    fun w hs hrs himm hcnt => ⟨rdcnt_disabled hr hs hrs himm hcnt, rdcnt_low hr hs hrs himm hcnt, fun u => rdcnt_high hr hs hrs himm hcnt,
      rdcnt_torn hr hs hrs himm hcnt⟩⟩
  case memory =>
    intro w size ld st hrow base moved a upd
    have hld : exec ld s = .next (laneRun l ld (loadOp w size) s) := by rcases hrow with ⟨rfl, rfl, rfl⟩ | ⟨rfl, rfl, rfl⟩ <;> rfl
    have hst : exec st s = .next (laneRun l st (storeOp w size) s) := by rcases hrow with ⟨rfl, rfl, rfl⟩ | ⟨rfl, rfl, rfl⟩ <;> rfl
    have ha : (if w.mode = 1 then x.reg w.rb else x.offAddr w size).toNat = a := rfl
    refine ⟨fun hmode halign harea => load_runs hr ha hmode halign hld harea,
      fun hmode halign harea => store_runs hr ha hmode halign hst harea, fun h => ?_,
      fun h => laneStops_of_op hr hst (storeOp_readOnly ha h)⟩
    obtain ⟨hload, hstore⟩ := access_stops (k := k) ha h
    exact ⟨laneStops_of_op hr hld hload, laneStops_of_op hr hst hstore⟩
  case branches =>
    refine fun w => ⟨?_, bloop_runs hr w⟩
    simp only [List.forall_mem_cons, List.not_mem_nil, false_implies, implies_true, and_true]
    exact ⟨branch_runs hr rfl rfl, branch_runs hr rfl rfl, branch_runs hr rfl BitVec.msb_eq_toInt.symm⟩

end Sys2Proof
end

section
/-! SUPPORT. Performance counters (R270 to R273, R277): the writes that clear them, the wrap of a counter, and the read of a block. -/

namespace Sys2Proof.Machine

theorem exec_pmcWrap (e : Fin 82) (k : Fin 6) (s : State) : exec (.pmcWrap e k) s = .next (pmcWrap e k s) := rfl
theorem exec_cntBlock (rq : Requester) (e : Fin 82) (s : State) : exec (.cntBlock rq e) s = .next (cntBlock rq e s) := rfl

/-! ### Writes that clear counters (R270, R277) -/

theorem mayStage_counters : (∀ e : Fin 82, mayStage (objKey (0x5410 + e.val) 0x08) = false ∧ mayStage (objKey (0x5410 + e.val) 0x0B) = false) ∧
    mayStage (objKey 0x5400 0x02) = false := by decide

theorem keyIndex_objKey {index sub : Nat} (h : sub < 256) : keyIndex (objKey index sub) = index ∧ keySub (objKey index sub) = sub := by
  unfold keyIndex keySub objKey
  omega

section
variable (rq : Requester) (v : Bytes) (s : State) (e : Fin 82)

theorem writeEff_cntSel : writeEff rq (0x5410 + e.val) 0x08 v s = cntSelEff e v s := by
  rw [writeEff, if_neg (by omega), if_pos (by omega), effLine, if_neg (by omega), if_pos (by omega), Nat.add_sub_cancel_left]

theorem writeEff_cntClear : writeEff rq (0x5410 + e.val) 0x0B v s = s.cntZero e := by
  rw [writeEff, if_neg (by omega), if_pos (by omega), effLine, if_neg (by omega), if_neg (by omega), if_pos (by omega),
    Nat.add_sub_cancel_left]

theorem writeEff_cntClearAll : writeEff rq 0x5400 0x02 v s = s.cntZeroAll := rfl

theorem changes_cnts (l : List CntSt) : Changes [.cnts] s { s with cnts := l } :=
  ⟨rfl, fun p hp => by cases p <;> simp [Part.same] at hp ⊢⟩

theorem changes_cntSelEff (e : Nat) : Changes [.cnts, .objs] s (cntSelEff e v s) :=
  ((changes_cnts s _).mono (by decide)).trans ((changes_setObj _ _ _).mono (by decide))

end

/-! ### The wrap of a counter (R270 to R272) -/

section
variable {s : State} {e : Nat} {c : CntSt} (hc : s.cnts[e]? = some c)
include hc

theorem State.cnt_eq : s.cnt e = c := by rw [State.cnt, List.getD_eq_getElem?_getD, hc, Option.getD_some]

/-- A counter after its share of the events, with the mark of a wrap. -/
def State.counted (s : State) (e : Nat) (evs : List (Nat × Nat)) : List (Nat × Bool) :=
  (s.cnt e).pmc.zipIdx.map (fun p => pmcAdd p.1 (pmcShare (s.sub (kCntSel e) p.2 1) evs))

theorem counted_wraps {evs : List (Nat × Nat)} {k : Nat} (hlen : k < c.pmc.length)
    (hshare : c.pmc.getD k 0 + pmcShare (s.sub (kCntSel e) k 1) evs = 2 ^ 48) : (s.counted e evs)[k]? = some (0, true) := by
  have hget : c.pmc.getD k 0 = c.pmc[k] := by simp [List.getD_eq_getElem?_getD, hlen]
  rw [hget] at hshare
  simp [State.counted, State.cnt_eq hc, hlen, pmcAdd, hshare]

/-- A counter that its share of the events takes to 2^48 wraps to 0 and sets its bit of CNT_OVF. -/
theorem count_wraps (slots : Nat) {evs : List (Nat × Nat)} {k : Nat} (hlen : k < c.pmc.length) (hk : k < 6)
    (hroom : k < 8 * (objDefault (kCntOvf e)).length)
    (hshare : c.pmc.getD k 0 + pmcShare (s.sub (kCntSel e) k 1) evs = 2 ^ 48) :
    ((s.count e slots evs).cnts[e]?).bind (fun d => d.pmc[k]?) = some 0 ∧ (s.count e slots evs).bit (kCntOvf e) k = true := by
  have hwrap := counted_wraps hc hlen hshare
  constructor
  · have hcnts : (s.count e slots evs).cnts = modAt s.cnts e
        (fun c => { c with cyc := (c.cyc + slots) % 2 ^ 64, pmc := (s.counted e evs).map Prod.fst }) := rfl
    simp [hcnts, getElem?_modAt_same, hc, hwrap]
  · let ovf := maskOf ((List.range 6).filter (fun k => ((s.counted e evs).getD k (0, false)).2))
    have hmask : ovf.testBit k = true :=
      testBit_maskOf (List.mem_filter.mpr ⟨List.mem_range.mpr hk, by simp [List.getD_eq_getElem?_getD, hwrap]⟩)
    have hn : (s.count e slots evs).n (kCntOvf e) = (s.n (kCntOvf e) ||| ovf) % 256 ^ (objDefault (kCntOvf e)).length :=
      State.n_setN_same ({ s with cnts := (s.count e slots evs).cnts } : State) _ _
    have hpow : 256 ^ (objDefault (kCntOvf e)).length = 2 ^ (8 * (objDefault (kCntOvf e)).length) := by rw [Nat.pow_mul]
    rw [State.bit, hn, hpow, Nat.testBit_mod_two_pow, Nat.testBit_or, hmask]
    simp [hroom]

end

/-- An event that is its own class comes once in a slot. -/
theorem eventRate_of_class {ev : Nat} (h : eventClass ev = ev) : eventRate ev = 1 := by
  unfold eventClass at h
  unfold eventRate
  split_ifs at h ⊢ <;> omega

/-- The events that a counter of an event needs for its wrap. -/
theorem pmcShare_wrap {ev : Nat} (hev : ev ≠ 0) (n : Nat) :
    let slots := (n + eventRate ev - 1) / eventRate ev
    pmcShare ev ((eventClass ev, slots) :: if eventClass ev = ev then [] else [(ev, n)]) = n := by
  intro slots
  by_cases hclass : eventClass ev = ev
  · simp [pmcShare, hev, hclass, slots, eventRate_of_class hclass]
  · simp [pmcShare, hev, hclass]

section
variable {s : State} {e : Fin 82} {c : CntSt} (k : Fin 6)

theorem pmcWrap_held (h : s.sub (kCntSel e) k 1 = 0 ∨ s.clockOn e = false) : pmcWrap e k s = s := if_pos (by simpa using h)

theorem length_cntOvf (e : Fin 82) : (objDefault (kCntOvf e)).length = 1 := by revert e; decide

variable {k} in
theorem pmcWrap_wraps (hc : s.cnts[e.val]? = some c) (hev : s.sub (kCntSel e) k 1 ≠ 0) (hon : s.clockOn e = true)
    (hlen : k.val < c.pmc.length) (hlt : c.pmc.getD k 0 < 2 ^ 48) :
    ((pmcWrap e k s).cnts[e.val]?).bind (fun d => d.pmc[k.val]?) = some 0 ∧ (pmcWrap e k s).bit (kCntOvf e) k = true ∧
    (∀ j, j ≠ e.val → (pmcWrap e k s).cnts[j]? = s.cnts[j]?) ∧ ChangesObjs [kCntOvf e] s (pmcWrap e k s) ∧
    Changes [.cnts, .objs] s (pmcWrap e k s) := by
  let ev := s.sub (kCntSel e) k 1
  let n := 2 ^ 48 - c.pmc.getD k 0
  let slots := (n + eventRate ev - 1) / eventRate ev
  let evs := (eventClass ev, slots) :: if eventClass ev = ev then [] else [(ev, n)]
  have hwrap : pmcWrap e k s = s.count e slots evs := by
    refine (if_neg (by simp [hev, hon])).trans ?_
    rw [State.cnt_eq hc]
  have hshare : c.pmc.getD k 0 + pmcShare ev evs = 2 ^ 48 := by
    rw [pmcShare_wrap hev n]
    omega
  obtain ⟨hzero, hbit⟩ := count_wraps hc slots hlen k.isLt (by rw [length_cntOvf]; omega) hshare
  rw [hwrap]
  exact ⟨hzero, hbit, fun j hj => getElem?_modAt_other _ _ (Ne.symm hj), changesObjs_count s _ _ _, (changes_count s _ _ _).mono (by decide)⟩

end

/-! ### The read of a block (R273, R277) -/

theorem length_cntBytes (s : State) (e : Nat) : (s.cntBytes e).length = 72 := by
  simp [State.cntBytes, State.cellTime, time96_length, List.length_flatten, Function.comp_def]

section
variable {s : State} {rq : Requester} {e : Fin 82} (hserved : s.served rq = true)
include hserved

theorem cntBlock_refused {code : Nat} (hcode : s.cntRefusal = code) (hne : code ≠ 0) : cntBlock rq e s = s.answer rq code := by
  simp [cntBlock, hserved, hcode, hne]

theorem cntBlock_read (hgrant : s.cntRefusal = 0) :
    cntBlock rq e s = ((s.slack e).setObj (kCntBlock e) ((s.slack e).cntBytes e)).answer rq 0 := by
  simp [cntBlock, hserved, hgrant]

end

end Sys2Proof.Machine

namespace Sys2Proof

open Machine

/-- Settles O52: the three writes clear by their effects, a wrap takes the counter to 2^48, and a read answers the sampled block. -/
theorem counters : Obligations.Counters := by
  refine fun s rq e c hc => ⟨fun w hw hdue => ⟨fun hkey _ => ?sel, fun hkey => ?clear, fun hkey => ?clearAll⟩,
    fun k h => ⟨_, exec_pmcWrap e k s, pmcWrap_held k h⟩,
    fun k hev hon hlen hlt => ⟨_, exec_pmcWrap e k s, pmcWrap_wraps hc hev hon hlen hlt⟩,
    fun hserved hok hshed => ⟨_, exec_cntBlock rq e s, ?read⟩, fun hserved hfailed => ⟨_, exec_cntBlock rq e s, ?failed⟩,
    fun hserved hok hshed => ⟨_, exec_cntBlock rq e s, ?busy⟩⟩
  case sel =>
    refine completes_writeApply (t := cntSelEff e w.data s.noWrites) hw hdue (hkey ▸ (mayStage_counters.1 e).1) ?_
      (changes_cntSelEff _ _ _) (by decide) fun hparts => ⟨?_, State.obj_setObj_same _ _ _, fun j hj => ?_,
        changesObjs_setObj ({ s with cnts := (cntSelEff e w.data s).cnts } : State) _ _, hparts⟩
    · rw [hkey, (keyIndex_objKey (by decide)).1, (keyIndex_objKey (by decide)).2, writeEff_cntSel]
    · exact (getElem?_modAt_same s.cnts e.val _).trans (by rw [hc, Option.map_some])
    · exact getElem?_modAt_other s.cnts _ (Ne.symm hj)
  case clear =>
    refine completes_writeApply (t := s.noWrites.cntZero e) hw hdue (hkey ▸ (mayStage_counters.1 e).2) ?_
      (changes_cnts _ _) (by decide) fun hparts => ⟨?_, fun j hj => ?_, rfl, hparts⟩
    · rw [hkey, (keyIndex_objKey (by decide)).1, (keyIndex_objKey (by decide)).2, writeEff_cntClear]
    · exact (getElem?_modAt_same s.cnts e.val _).trans (by rw [hc, Option.map_some])
    · exact getElem?_modAt_other s.cnts _ (Ne.symm hj)
  case clearAll =>
    refine completes_writeApply (t := s.noWrites.cntZeroAll) hw hdue (hkey ▸ mayStage_counters.2) ?_
      (changes_cnts _ _) (by decide) fun hparts => ⟨fun d hd => ?_, rfl, hparts⟩
    · rw [hkey, (keyIndex_objKey (by decide)).1, (keyIndex_objKey (by decide)).2, writeEff_cntClearAll]
    · obtain ⟨_, -, rfl⟩ := List.mem_map.mp hd
      rfl
  case read =>
    rw [cntBlock_read hserved (by simp [State.cntRefusal, hok, hshed])]
    have hblock : (((s.slack e).setObj (kCntBlock e) ((s.slack e).cntBytes e)).answer rq 0).obj (kCntBlock e) = (s.slack e).cntBytes e :=
      State.obj_setObj_same _ _ _
    refine ⟨congrArg RqSt.result (State.rq_answer _ rq _), hblock, by rw [hblock, length_cntBytes], ?_, ?_⟩
    · exact ((changesObjs_slack s e).mono (by simp)).trans ((changesObjs_setObj _ _ _).mono (by simp))
    · exact ((changes_slack s e).mono (by decide)).trans
        (((changes_setObj _ _ _).mono (by decide)).trans ((changes_setRq _ _).mono (by decide)))
  case failed =>
    rw [cntBlock_refused hserved (by simp [State.cntRefusal, hfailed]; rfl) (by decide)]
    exact ⟨congrArg RqSt.result (s.rq_answer rq _), rfl, changes_setRq s _⟩
  case busy =>
    rw [cntBlock_refused hserved (by simp [State.cntRefusal, hok, hshed]; rfl) (by decide)]
    exact ⟨congrArg RqSt.result (s.rq_answer rq _), rfl, changes_setRq s _⟩

end Sys2Proof
end

section
/-! SUPPORT. Feedback channels, compare units, encoder emulation and auxiliary axes (R282 to R286, R288, R289, R292, R293, R296, R300,
R304, R305): what each row leaves in its channel, output or axis, which objects it writes, and what it leaves alone. -/

namespace Sys2Proof.Machine

/-! ### Single bits and integers of objects -/

theorem testBit_setBit_other (v : Nat) {i j : Nat} (b : Bool) (h : j ≠ i) : (setBit v i b).testBit j = v.testBit j := by
  cases b with
  | true => simp [setBit, Nat.one_shiftLeft, Ne.symm h]
  | false =>
    by_cases hv : v.testBit i = true
    · obtain ⟨q, r, hr, hodd, rfl⟩ : ∃ q r, r < 2 ^ i ∧ q % 2 = 1 ∧ v = 2 ^ i * q + r :=
        ⟨v / 2 ^ i, v % 2 ^ i, Nat.mod_lt _ (by positivity), by simpa [Nat.testBit_eq_decide_div_mod_eq] using hv,
          (Nat.div_add_mod _ _).symm⟩
      have hclear : 2 ^ i * q + r - 2 ^ i = 2 ^ i * (q - 1) + r := by
        rw [Nat.mul_sub, mul_one, Nat.sub_add_comm (Nat.le_mul_of_pos_right _ (by omega))]
      have hset : setBit (2 ^ i * q + r) i false = 2 ^ i * q + r - 2 ^ i := by simp [setBit, hv, Nat.one_shiftLeft]
      rw [hset, hclear, Nat.testBit_two_pow_mul_add _ hr, Nat.testBit_two_pow_mul_add _ hr]
      split
      · rfl
      · obtain ⟨n, hn⟩ : ∃ n, j - i = n + 1 := ⟨j - i - 1, by omega⟩
        rw [hn, Nat.testBit_succ, Nat.testBit_succ, show (q - 1) / 2 = q / 2 by omega]
    · simp [setBit, hv]

/-- Writing a bit of an object leaves its other bits alone. -/
theorem State.bit_setBit_beside (s : State) (k : Nat) {b j : Nat} (v : Bool) (hj : j < 8 * (objDefault k).length) (h : j ≠ b) :
    (s.setBit k b v).bit k j = s.bit k j := by
  have hroom : 256 ^ (objDefault k).length = 2 ^ (8 * (objDefault k).length) := by rw [Nat.pow_mul]
  simp [State.bit, State.setBit, State.n_setN_same, hroom, Nat.testBit_mod_two_pow, hj, testBit_setBit_other _ _ h]

theorem State.obj_setBit_other (s : State) {k j : Nat} (b : Nat) (v : Bool) (h : j ≠ k) : (s.setBit k b v).obj j = s.obj j :=
  State.obj_setObj_other s _ h

theorem changesObjs_mark (s : State) (k b : Nat) (p : Prop) [Decidable p] : ChangesObjs [k] s (if p then s.setBit k b true else s) := by
  split
  · exact changesObjs_setBit s k b true
  · exact .refl _ s

theorem changes_mark (s : State) (k b : Nat) (p : Prop) [Decidable p] : Changes [.objs] s (if p then s.setBit k b true else s) := by
  split
  · exact changes_setBit s k b true
  · exact .refl _ s

theorem ChangesObjs.n {ks : List Nat} {s t : State} (h : ChangesObjs ks s t) {k : Nat} (hk : k ∉ ks) : t.n k = s.n k :=
  congrArg leVal (h k hk)

theorem ChangesObjs.bit {ks : List Nat} {s t : State} (h : ChangesObjs ks s t) {k : Nat} (hk : k ∉ ks) (b : Nat) : t.bit k b = s.bit k b :=
  congrArg (Nat.testBit · b) (h.n hk)

theorem ChangesObjs.i {ks : List Nat} {s t : State} (h : ChangesObjs ks s t) {k : Nat} (hk : k ∉ ks) : t.i k = s.i k := by
  rw [State.i, State.i, h.n hk, h k hk]

theorem State.obj_setI (s : State) {k n : Nat} (v : Int) (h : (objDefault k).length = n) : (s.setI k v).obj k = leInt n v := by
  rw [State.setI, State.obj_setObj_same, h]

/-- A 64-bit count is its own value of 64 bits. -/
theorem wrap64_wrap64 (v : Int) : wrap64 (wrap64 v) = wrap64 v := by
  simp only [wrap64, signed]
  split_ifs <;> omega

theorem int_leInt_append (v : Int) (b : Bytes) : int (leInt 8 v ++ b) 0 8 = wrap64 v := by
  rw [int, leInt, num_append_left _ _ (by simp), num_le, Nat.mod_eq_of_lt (by omega)]
  rfl

/-! ### Channels and compare units -/

theorem changes_onAxes (s : State) (f : StAxes → StAxes) : Changes [.axes] s (s.onAxes f) :=
  ⟨rfl, fun p hp => by cases p <;> simp [Part.same] at hp ⊢⟩

section
variable {s : State} {c : Nat}

theorem fb_onFb_same (h : c < s.axes.fbs.length) (f : FbSt → FbSt) : (s.onFb c f).fb c = f (s.fb c) := getD_modAt_same h f _

theorem fb_onFb_other {j : Nat} (h : j ≠ c) (f : FbSt → FbSt) : (s.onFb c f).fb j = s.fb j :=
  congrArg (·.getD FbSt.reset) (getElem?_modAt_other s.axes.fbs f h.symm)

@[simp] theorem length_fbs_onFb (f : FbSt → FbSt) : (s.onFb c f).axes.fbs.length = s.axes.fbs.length := modAt_length ..

@[simp] theorem fb_setObj (k : Nat) (v : Bytes) : (s.setObj k v).fb c = s.fb c := rfl
@[simp] theorem fb_setBit (k b : Nat) (v : Bool) : (s.setBit k b v).fb c = s.fb c := rfl

theorem cmp_onCmp_same (h : c < s.axes.fbs.length) (u : Nat) (f : CmpSt → CmpSt) : (s.onCmp c u f).cmp c u = f (s.cmp c u) := by
  rw [State.onCmp, State.cmp, State.cmp, fb_onFb_same h]
  split <;> rfl

end

theorem length_fbStatus (c : Fin 16) : (objDefault (kFbStatus c)).length = 2 := by revert c; decide
theorem length_fbIllegalCnt (c : Fin 16) : (objDefault (kFbIllegalCnt c)).length = 4 := by revert c; decide
theorem length_fbAbsRaw (c : Fin 16) : (objDefault (kFbAbsRaw c)).length = 8 := by revert c; decide
theorem length_cmpStatus (c : Fin 16) : (objDefault (kCmpStatus c 0)).length = 1 := by revert c; decide

theorem bit_fbStatus_same (s : State) (c : Fin 16) (b : Fin 16) (v : Bool) : (s.setBit (kFbStatus c) b v).bit (kFbStatus c) b = v :=
  State.bit_setBit_same _ _ _ _ (by rw [length_fbStatus]; exact b.isLt)

theorem bit_fbStatus_beside (s : State) (c : Fin 16) {b : Nat} (j : Fin 16) (v : Bool) (h : j.val ≠ b) :
    (s.setBit (kFbStatus c) b v).bit (kFbStatus c) j = s.bit (kFbStatus c) j :=
  State.bit_setBit_beside _ _ _ (by rw [length_fbStatus]; exact j.isLt) h

/-- Whether a unit is armed is read from its own status. -/
theorem ChangesObjs.armed {ks : List Nat} {s t : State} (h : ChangesObjs ks s t) {c u : Nat} (hk : kCmpStatus c u ∉ ks) :
    t.armed c u = s.armed c u := h.bit hk 0

/-- Neither compare unit of a channel is armed. -/
def State.cmpQuiet (s : State) (c : Nat) : Prop := s.armed c 0 = false ∧ s.armed c 1 = false

section
variable {s : State} {c : Nat} (h : s.cmpQuiet c)
include h

theorem State.cmpQuiet.onFb (f : FbSt → FbSt) : (s.onFb c f).cmpQuiet c := h

theorem State.cmpQuiet.of_changesObjs {t : State} {ks : List Nat} (ht : ChangesObjs ks s t) (hks : ∀ k ∈ ks, k < kCmpStatus c 0) :
    t.cmpQuiet c := by
  have hsecond : kCmpStatus c 0 < kCmpStatus c 1 := by simp [kCmpStatus]
  exact ⟨(ht.armed fun hk => (hks _ hk).false).trans h.1, (ht.armed fun hk => (hks _ hk).asymm hsecond).trans h.2⟩

theorem State.cmpQuiet.fbStatus (b : Nat) (v : Bool) : (s.setBit (kFbStatus c) b v).cmpQuiet c :=
  h.of_changesObjs (changesObjs_setBit s _ b v) (by simp [kFbStatus, kCmpStatus])

end

/-- Without an armed unit nothing is compared. -/
theorem compare_quiet {s : State} {c : Nat} (h : s.cmpQuiet c) (old : Int) (passes : Bool) : s.compare c old passes = s := by
  simp [State.compare, h.1, h.2]

/-! ### Counting (R282, R283) -/

/-- The filtered lines of a channel take new values. -/
def State.lines (s : State) (c : Nat) (a b : Bool) : State := s.onFb c (fun x => { x with a := a, b := b })

/-- The steps of a transition in the order of R282, modulo 4. -/
def quadDelta (x : FbSt) (a b : Bool) : Nat := (quadPhase a b + 4 - quadPhase x.a x.b) % 4

section
variable {s : State} {c : Fin 16} (hcounts : s.fbCounts c = true) (hmode : s.fbMode c = 1 ∨ s.fbMode c = 3) (a b : Bool)
include hcounts hmode

theorem quadratureChange_counting : quadratureChange c a b s =
    if quadDelta (s.fb c) a b = 0 then s.lines c a b
    else if quadDelta (s.fb c) a b = 2 then ((s.lines c a b).setBit (kFbStatus c) fbIllegal true).inc (kFbIllegalCnt c)
    else (s.lines c a b).countStep c (if quadDelta (s.fb c) a b = 1 then s.fbSign c else -s.fbSign c) := by
  have hrun : ¬ ((!s.fbCounts c) = true ∨ (s.fbMode c ≠ 1 ∧ s.fbMode c ≠ 3)) := by
    rw [hcounts]
    rintro (h | ⟨h1, h3⟩)
    · exact absurd h (by decide)
    · exact hmode.elim h1 h3
  exact if_neg hrun

theorem quadratureChange_same (h : quadDelta (s.fb c) a b = 0) : quadratureChange c a b s = s.lines c a b := by
  rw [quadratureChange_counting hcounts hmode, if_pos h]

theorem quadratureChange_illegal (h : quadDelta (s.fb c) a b = 2) : quadratureChange c a b s =
    ((s.lines c a b).setBit (kFbStatus c) fbIllegal true).inc (kFbIllegalCnt c) := by
  rw [quadratureChange_counting hcounts hmode, if_neg (by omega), if_pos h]

theorem quadratureChange_step (h : quadDelta (s.fb c) a b = 1 ∨ quadDelta (s.fb c) a b = 3) : quadratureChange c a b s =
    (s.lines c a b).countStep c (if quadDelta (s.fb c) a b = 1 then s.fbSign c else -s.fbSign c) := by
  rw [quadratureChange_counting hcounts hmode, if_neg (by omega), if_neg (by omega)]

end

/-- A channel counts a step, which sets its reference direction. -/
def State.fbStep (s : State) (c : Nat) (d : Int) : State :=
  s.onFb c (fun x => { x with count := wrap64 (x.count + d), dir := decide (0 < d) })

theorem countStep_quiet {s : State} {c : Nat} (h : s.cmpQuiet c) (d : Int) : s.countStep c d = s.fbStep c d :=
  compare_quiet (h.onFb _) _ _

section
variable {s : State} {c : Nat} (h : c < s.axes.fbs.length)
include h

theorem fb_lines (a b : Bool) : (s.lines c a b).fb c = { s.fb c with a := a, b := b } := fb_onFb_same h _

theorem fb_fbStep (d : Int) : (s.fbStep c d).fb c = { s.fb c with count := wrap64 ((s.fb c).count + d), dir := decide (0 < d) } :=
  fb_onFb_same h _

end

/-! ### A unit fires once (R292, R293) -/

section
variable (s : State) (c u : Nat)

/-- What an evaluation or a firing of a unit writes. -/
def cmpKeys : List Nat := [kCmpStatus c u, kCmpLast c u, kCmpValue c u]

theorem changesObjs_cmpStatus (b : Nat) (v : Bool) : ChangesObjs (cmpKeys c u) s (s.setBit (kCmpStatus c u) b v) :=
  (changesObjs_setBit s _ b v).mono (by simp [cmpKeys])

/-- The objects of a firing: FIRED, CMP_LAST, and the mark of a pulse that meets a running one. -/
def State.fireMarks : State :=
  let t := (s.setBit (kCmpStatus c u) 4 true).setObj (kCmpLast c u)
    (leInt 8 (s.fb c).count ++ s.cellTime ++ le 4 (((s.cmp c u).fires + 1) % 2 ^ 32))
  if (s.cmp c u).pulse then t.setBit (kCmpStatus c u) 1 true else t

theorem changes_fireMarks : Changes [.objs] s (s.fireMarks c u) :=
  ((changes_setBit _ _ _ _).trans (changes_setObj _ _ _)).trans (changes_mark _ _ 1 _)

theorem axes_fireMarks : (s.fireMarks c u).axes = s.axes := (changes_fireMarks s c u).2 .axes (by decide)

theorem dev_fireMarks : (s.fireMarks c u).dev = s.dev := (changes_fireMarks s c u).2 .dev (by decide)

theorem fired_eq : s.fired c u = (s.fireMarks c u).onCmp c u
    (fun y => { y with fires := ((s.cmp c u).fires + 1) % 2 ^ 32, pulse := (s.fireMarks c u).isIn [.ready, .run, .hold, .degraded] }) := rfl

theorem changesObjs_fired : ChangesObjs (cmpKeys c u) s (s.fired c u) := by
  have hmarks : ChangesObjs (cmpKeys c u) s (s.fireMarks c u) :=
    ((changesObjs_cmpStatus s c u 4 true).trans ((changesObjs_setObj _ (kCmpLast c u) _).mono (by simp [cmpKeys]))).trans
      ((changesObjs_mark _ (kCmpStatus c u) 1 _).mono (by simp [cmpKeys]))
  exact hmarks

theorem changesObjs_evalCmp (dir : Bool) (fuel : Nat) : ChangesObjs (cmpKeys c u) s (s.evalCmp c u dir fuel) := by
  induction fuel generalizing s dir with
  | zero => exact .refl _ s
  | succ fuel ih =>
    rw [State.evalCmp]
    dsimp only
    have harm (t : State) (v : Bool) : ChangesObjs (cmpKeys c u) t (t.arm c u v) := changesObjs_cmpStatus t c u 0 v
    split
    case isTrue =>
      have hfired := (changesObjs_cmpStatus s c u 3 true).trans (changesObjs_fired _ c u)
      split
      · exact hfired.trans (harm _ _)
      · exact (hfired.trans ((changesObjs_setI _ _ _).mono (by simp [cmpKeys]))).trans (ih _ _)
    case isFalse =>
      split
      · exact harm (s.onCmp c u _) true
      · exact (changesObjs_cmpStatus (s.onCmp c u _) c u 2 true).trans (harm _ _)

/-- A firing leaves FIRED and CMP_LAST. -/
theorem fired_marks (hstatus : 4 < 8 * (objDefault (kCmpStatus c u)).length) : (s.fired c u).bit (kCmpStatus c u) 4 = true ∧
    (s.fired c u).obj (kCmpLast c u) = leInt 8 (s.fb c).count ++ s.cellTime ++ le 4 (((s.cmp c u).fires + 1) % 2 ^ 32) := by
  have hkey : kCmpStatus c u ≠ kCmpLast c u := by simp [kCmpStatus, kCmpLast]
  have hfired (v : Bytes) : ((s.setBit (kCmpStatus c u) 4 true).setObj (kCmpLast c u) v).bit (kCmpStatus c u) 4 = true := by
    rw [(changesObjs_setObj _ _ v).bit (by simpa using hkey), State.bit_setBit_same _ _ _ _ hstatus]
  show (s.fireMarks c u).bit _ 4 = true ∧ (s.fireMarks c u).obj _ = _
  unfold State.fireMarks
  dsimp only
  split
  · rw [State.bit_setBit_beside _ _ _ hstatus (by decide), changesObjs_setBit _ _ 1 true _ (by simpa using hkey.symm)]
    exact ⟨hfired _, State.obj_setObj_same _ _ _⟩
  · exact ⟨hfired _, State.obj_setObj_same _ _ _⟩

/-- A firing counts, and gives the pulse in the states that drive it. -/
theorem cmp_fired (hc : c < s.axes.fbs.length) : (s.fired c u).cmp c u =
    { s.cmp c u with fires := ((s.cmp c u).fires + 1) % 2 ^ 32, pulse := s.isIn [.ready, .run, .hold, .degraded] } := by
  have hcmp : (s.fireMarks c u).cmp c u = s.cmp c u := by simp only [State.cmp, State.fb, axes_fireMarks]
  rw [fired_eq, cmp_onCmp_same (by rwa [axes_fireMarks]), hcmp, State.isIn, dev_fireMarks, State.isIn]

end

section
variable {s : State} {c u : Nat}

/-- A unit without an increment is disarmed by its firing. -/
theorem fireCmp_once (hinc : s.i (kCmpInc c u) = 0) (hone : s.n (kCmpOnedir c u) = 0) (up : Bool) :
    s.fireCmp c u up = (s.fired c u).arm c u false := by
  have hinc' : (s.fired c u).i (kCmpInc c u) = 0 := by
    rw [(changesObjs_fired s c u).i (by simp [cmpKeys, kCmpInc, kCmpStatus, kCmpLast, kCmpValue]), hinc]
  exact (if_neg (by simp [hone])).trans (if_pos hinc')

/-- A count that steps to the value of the first unit fires it, where the second is not armed. -/
theorem countStep_fires {d : Int} (hc : c < s.axes.fbs.length) (harmed : s.armed c 0 = true) (hother : s.armed c 1 = false)
    (hinc : s.i (kCmpInc c 0) = 0) (hone : s.n (kCmpOnedir c 0) = 0) (hvalue : s.i (kCmpValue c 0) = wrap64 ((s.fb c).count + d))
    (hmoved : wrap64 ((s.fb c).count + d) ≠ (s.fb c).count) : s.countStep c d = ((s.fbStep c d).fired c 0).arm c 0 false := by
  let t := s.fbStep c d
  have hcount : (t.fb c).count = wrap64 ((s.fb c).count + d) := congrArg FbSt.count (fb_fbStep hc d)
  have harmed' : t.armed c 0 = true := harmed
  have hvalue' : t.i (kCmpValue c 0) = (t.fb c).count := hvalue.trans hcount.symm
  have hmoved' : (t.fb c).count ≠ (s.fb c).count := hcount ▸ hmoved
  have hframe : ChangesObjs (cmpKeys c 0) t ((t.fired c 0).arm c 0 false) :=
    (changesObjs_fired t c 0).trans (changesObjs_cmpStatus _ c 0 0 false)
  have hother' : ((t.fired c 0).arm c 0 false).armed c 1 = false := by
    rw [hframe.armed (by simp only [cmpKeys, kCmpStatus, kCmpLast, kCmpValue, List.mem_cons, List.not_mem_nil, or_false]; omega)]
    exact hother
  have honce : t.fireCmp c 0 (decide ((s.fb c).count < (t.fb c).count)) = (t.fired c 0).arm c 0 false :=
    fireCmp_once (s := t) hinc hone _
  show t.compare c (s.fb c).count false = (t.fired c 0).arm c 0 false
  simp [State.compare, harmed', hvalue', hmoved', honce, hother']

end

/-- What a unit that fires once leaves: FIRED, disarmed, CMP_LAST with the count, one firing more, and the pulse. -/
theorem firedOnce_spec {s : State} {c : Fin 16} (hc : c.val < s.axes.fbs.length) (hstate : s.isIn [.ready, .run, .hold, .degraded] = true) :
    ((s.fired c 0).arm c 0 false).bit (kCmpStatus c 0) 4 = true ∧ ((s.fired c 0).arm c 0 false).armed c 0 = false ∧
    (((s.fired c 0).arm c 0 false).cmp c 0).pulse = true ∧
    int (((s.fired c 0).arm c 0 false).obj (kCmpLast c 0)) 0 8 = wrap64 (s.fb c).count ∧
    (((s.fired c 0).arm c 0 false).cmp c 0).fires = ((s.cmp c 0).fires + 1) % 2 ^ 32 := by
  have hroom : 4 < 8 * (objDefault (kCmpStatus c 0)).length := by rw [length_cmpStatus]; decide
  obtain ⟨hfired, hlast⟩ := fired_marks s c 0 hroom
  have hcmp : ((s.fired c 0).arm c 0 false).cmp c 0 =
      { s.cmp c 0 with fires := ((s.cmp c 0).fires + 1) % 2 ^ 32, pulse := s.isIn [.ready, .run, .hold, .degraded] } := cmp_fired s c 0 hc
  refine ⟨?_, State.bit_setBit_same _ _ _ _ (by omega), by rw [hcmp, hstate], ?_, by rw [hcmp]⟩
  · exact (State.bit_setBit_beside _ _ _ hroom (by decide)).trans hfired
  · rw [State.arm, State.obj_setBit_other _ _ _ (by simp [kCmpLast, kCmpStatus]), hlast, List.append_assoc, int_leInt_append]

/-! ### Transitions of the lines (R282, R283) -/

section
variable {s : State} {c : Fin 16} {a b : Bool} (hc : c.val < s.axes.fbs.length) (hcounts : s.fbCounts c = true)
include hc hcounts

section
variable (hmode : s.fbMode c = 1 ∨ s.fbMode c = 3)
include hmode

theorem quadratureChange_same_spec (hd : quadDelta (s.fb c) a b = 0) : ((quadratureChange c a b s).fb c).count = (s.fb c).count ∧
    (quadratureChange c a b s).objs = s.objs ∧ Changes [.axes] s (quadratureChange c a b s) := by
  rw [quadratureChange_same hcounts hmode a b hd]
  exact ⟨by rw [fb_lines hc], rfl, changes_onAxes s _⟩

/-- A transition by one place counts, and no other channel changes. -/
theorem quadratureChange_step_spec (hquiet : s.cmpQuiet c) (hd : quadDelta (s.fb c) a b = 1 ∨ quadDelta (s.fb c) a b = 3) :
    ((quadratureChange c a b s).fb c).count =
      wrap64 ((s.fb c).count + if quadDelta (s.fb c) a b = 1 then s.fbSign c else -s.fbSign c) ∧
    ((quadratureChange c a b s).fb c).a = a ∧ ((quadratureChange c a b s).fb c).b = b ∧
    (∀ j, j ≠ c.val → (quadratureChange c a b s).fb j = s.fb j) ∧ (quadratureChange c a b s).objs = s.objs ∧
    Changes [.axes] s (quadratureChange c a b s) := by
  rw [quadratureChange_step hcounts hmode a b hd, countStep_quiet (s := s.lines c a b) hquiet]
  refine ⟨?_, ?_, ?_, fun j hj => (fb_onFb_other hj _).trans (fb_onFb_other hj _), rfl, (changes_onAxes s _).trans (changes_onAxes _ _)⟩
  all_goals rw [fb_fbStep (by rwa [State.lines, length_fbs_onFb]), fb_lines hc]

/-- A transition of both lines is illegal: it is marked and counted, and the count stays. -/
theorem quadratureChange_illegal_spec (hd : quadDelta (s.fb c) a b = 2) : ((quadratureChange c a b s).fb c).count = (s.fb c).count ∧
    (quadratureChange c a b s).bit (kFbStatus c) 2 = true ∧
    (quadratureChange c a b s).n (kFbIllegalCnt c) = min (s.n (kFbIllegalCnt c) + 1) (2 ^ 32 - 1) % 2 ^ 32 ∧
    ChangesObjs [kFbStatus c, kFbIllegalCnt c] s (quadratureChange c a b s) ∧ Changes [.axes, .objs] s (quadratureChange c a b s) := by
  have hkeys : kFbStatus c ≠ kFbIllegalCnt c := by simp [kFbStatus, kFbIllegalCnt]
  have hlines : (s.lines c a b).n (kFbIllegalCnt c) = s.n (kFbIllegalCnt c) := rfl
  rw [quadratureChange_illegal hcounts hmode a b hd]
  refine ⟨?_, ?_, ?_, ?_, ?_⟩
  · rw [State.inc, State.setN, fb_setObj, fb_setBit, fb_lines hc]
  · rw [State.bit, State.n_inc_other _ hkeys]
    exact bit_fbStatus_same (s.lines c a b) c 2 true
  · rw [State.n_inc_wrapped _ (length_fbIllegalCnt c), State.n_setBit_other _ _ _ hkeys.symm, hlines]
  · exact ((changesObjs_setBit (s.lines c a b) _ _ _).mono (by simp)).trans ((changesObjs_setN _ _ _).mono (by simp))
  · exact ((changes_onAxes s _).mono (by decide)).trans (((changes_setBit _ _ _ _).trans (changes_setN _ _ _)).mono (by decide))

end

/-- A step onto the value of an armed unit fires it (R292). -/
theorem quadratureChange_fires (hstate : s.isIn [.ready, .run, .hold, .degraded] = true) (hmode : s.fbMode c = 1)
    (hd : quadDelta (s.fb c) a b = 1) (hsign : s.fbSign c = 1) (harmed : s.armed c 0 = true) (hother : s.armed c 1 = false)
    (hinc : s.i (kCmpInc c 0) = 0) (hone : s.n (kCmpOnedir c 0) = 0) (hvalue : s.i (kCmpValue c 0) = wrap64 ((s.fb c).count + 1))
    (hmoved : wrap64 ((s.fb c).count + 1) ≠ (s.fb c).count) :
    (quadratureChange c a b s).bit (kCmpStatus c 0) 4 = true ∧ (quadratureChange c a b s).armed c 0 = false ∧
    ((quadratureChange c a b s).cmp c 0).pulse = true ∧
    int ((quadratureChange c a b s).obj (kCmpLast c 0)) 0 8 = wrap64 ((s.fb c).count + 1) ∧
    ((quadratureChange c a b s).cmp c 0).fires = ((s.fb c).u0.fires + 1) % 2 ^ 32 := by
  have hlines : c.val < (s.lines c a b).axes.fbs.length := by rwa [State.lines, length_fbs_onFb]
  have hfb := fb_lines hc a b
  have hcounted := fb_fbStep hlines 1
  rw [hfb] at hcounted
  rw [quadratureChange_step hcounts (.inl hmode) a b (.inl hd), if_pos hd, hsign,
    countStep_fires hlines harmed hother hinc hone (by rw [hfb]; exact hvalue) (by rw [hfb]; exact hmoved)]
  obtain ⟨hfired, hdisarmed, hpulse, hlast, hfires⟩ :=
    firedOnce_spec (s := (s.lines c a b).fbStep c 1) (c := c) (by rwa [State.fbStep, length_fbs_onFb]) hstate
  refine ⟨hfired, hdisarmed, hpulse, hlast.trans ?_, hfires.trans ?_⟩
  · rw [hcounted, wrap64_wrap64]
  · rw [State.cmp, if_pos rfl, hcounted]

end

/-! ### Index (R288, R289) -/

section
variable (s : State) (c : Nat)

/-- The deviation of a channel's count from its expected index position. -/
def State.indexDelta : Int := indexDev (s.fb c).count (s.n (kFbCpr c)) (s.n (kFbIndexExp c))

/-- An index is captured: FB_INDEX_CAP, INDEX_SEEN, and INDEX_MISMATCH beyond the tolerance. -/
def State.indexCapture : State :=
  let t := (s.setObj (kFbIndexCap c) (leInt 8 (s.fb c).count ++ s.cellTime ++ leInt 4 (s.indexDelta c))).setBit (kFbStatus c) fbIndexSeen true
  if t.n (kFbIndexTol c) < (s.indexDelta c).natAbs then t.setBit (kFbStatus c) fbIndexMismatch true else t

theorem changes_indexCapture : Changes [.objs] s (s.indexCapture c) :=
  ((changes_setObj _ _ _).trans (changes_setBit _ _ _ _)).trans (changes_mark _ _ fbIndexMismatch _)

theorem axes_indexCapture : (s.indexCapture c).axes = s.axes := (changes_indexCapture s c).2 .axes (by decide)

theorem dev_indexCapture : (s.indexCapture c).dev = s.dev := (changes_indexCapture s c).2 .dev (by decide)

theorem fb_indexCapture : (s.indexCapture c).fb c = s.fb c := by simp only [State.fb, axes_indexCapture]

theorem changesObjs_indexCapture : ChangesObjs [kFbIndexCap c, kFbStatus c] s (s.indexCapture c) :=
  (((changesObjs_setObj _ (kFbIndexCap c) _).mono (by simp)).trans ((changesObjs_setBit _ (kFbStatus c) _ _).mono (by simp))).trans
    ((changesObjs_mark _ (kFbStatus c) fbIndexMismatch _).mono (by simp))

/-- A re-reference moves the count and sets its mark; the units that it evaluates then write their own objects. -/
theorem changesObjs_reReference (dev : Int) : ChangesObjs (cmpKeys c 0 ++ cmpKeys c 1)
    ((s.onFb c (fun x => { x with count := wrap64 (x.count - dev) })).setBit (kFbStatus c) fbReref true) (s.reReference c dev) := by
  have hunit (t : State) (u : Nat) (hu : cmpKeys c u ⊆ cmpKeys c 0 ++ cmpKeys c 1) : ChangesObjs (cmpKeys c 0 ++ cmpKeys c 1) t
      (if t.armed c u then t.evalCmp c u (t.fb c).dir 3 else t) := by
    split
    · exact (changesObjs_evalCmp t c u _ 3).mono hu
    · exact .refl _ t
  exact (hunit _ 0 (List.subset_append_left _ _)).trans (hunit _ 1 (List.subset_append_right _ _))

theorem fbKeys_notMem_cmpKeys : kFbStatus c ∉ cmpKeys c 0 ++ cmpKeys c 1 ∧ kFbIndexCap c ∉ cmpKeys c 0 ++ cmpKeys c 1 := by
  simp only [cmpKeys, kFbStatus, kFbIndexCap, kCmpStatus, kCmpLast, kCmpValue, List.cons_append, List.nil_append, List.mem_cons,
    List.not_mem_nil, or_false]
  omega

end

theorem reReference_quiet {s : State} {c : Nat} (h : s.cmpQuiet c) (dev : Int) :
    s.reReference c dev = (s.onFb c (fun x => { x with count := wrap64 (x.count - dev) })).setBit (kFbStatus c) fbReref true := by
  have hquiet := (h.onFb fun x => { x with count := wrap64 (x.count - dev) }).fbStatus fbReref true
  simp [State.reReference, hquiet.1, hquiet.2]

/-- The capture of an index and its marks stand in a later state: FB_INDEX_CAP, INDEX_SEEN, and INDEX_MISMATCH beyond the tolerance. -/
def Captured (c : Nat) (s t : State) : Prop :=
  t.obj (kFbIndexCap c) = leInt 8 (s.fb c).count ++ s.cellTime ++ leInt 4 (s.indexDelta c) ∧ t.bit (kFbStatus c) 7 = true ∧
    (s.n (kFbIndexTol c) < (s.indexDelta c).natAbs → t.bit (kFbStatus c) 8 = true)

section
variable {s : State} {c : Fin 16}

theorem obj_indexCapture : (s.indexCapture c).obj (kFbIndexCap c) = leInt 8 (s.fb c).count ++ s.cellTime ++ leInt 4 (s.indexDelta c) := by
  have hkey : kFbIndexCap c ≠ kFbStatus c := by simp [kFbIndexCap, kFbStatus]
  unfold State.indexCapture
  dsimp only
  split
  · rw [State.obj_setBit_other _ _ _ hkey, State.obj_setBit_other _ _ _ hkey, State.obj_setObj_same]
  · rw [State.obj_setBit_other _ _ _ hkey, State.obj_setObj_same]

theorem captured_indexCapture : Captured c s (s.indexCapture c) := by
  have htol (v : Bytes) : ((s.setObj (kFbIndexCap c) v).setBit (kFbStatus c) fbIndexSeen true).n (kFbIndexTol c) = s.n (kFbIndexTol c) := by
    rw [State.n_setBit_other _ _ _ (by simp [kFbIndexTol, kFbStatus]), State.n_setObj_other _ _ (by simp [kFbIndexTol, kFbIndexCap])]
  refine ⟨obj_indexCapture, ?_⟩
  unfold State.indexCapture
  dsimp only
  rw [htol]
  split
  case isTrue => exact ⟨(bit_fbStatus_beside _ c 7 _ (by decide)).trans (bit_fbStatus_same _ c 7 _), fun _ => bit_fbStatus_same _ c 8 _⟩
  case isFalse h => exact ⟨bit_fbStatus_same _ c 7 _, fun h' => absurd h' h⟩

section
variable {t u : State} (h : Captured c s t)
include h

theorem Captured.onFb (f : FbSt → FbSt) : Captured c s (t.onFb c f) := h

/-- The marks of a re-reference stand above those of the capture. -/
theorem Captured.mark {b : Nat} (hb : 8 < b) : Captured c s (t.setBit (kFbStatus c) b true) := by
  obtain ⟨hcap, hseen, hmiss⟩ := h
  exact ⟨(State.obj_setBit_other _ _ _ (by simp [kFbIndexCap, kFbStatus])).trans hcap,
    (bit_fbStatus_beside _ c 7 _ (show 7 ≠ b by omega)).trans hseen,
    fun htol => (bit_fbStatus_beside _ c 8 _ (show 8 ≠ b by omega)).trans (hmiss htol)⟩

theorem Captured.of_evaluation (hu : ChangesObjs (cmpKeys c 0 ++ cmpKeys c 1) t u) : Captured c s u := by
  obtain ⟨hcap, hseen, hmiss⟩ := h
  obtain ⟨hstatus, hkey⟩ := fbKeys_notMem_cmpKeys c
  exact ⟨(hu _ hkey).trans hcap, (hu.bit hstatus 7).trans hseen, fun htol => (hu.bit hstatus 8).trans (hmiss htol)⟩

end

section
variable (hcounts : s.fbCounts c = true) (hcpr : s.n (kFbCpr c) ≠ 0) (hgate : s.n (kFbZGate c) = 0)
include hcounts hcpr hgate

theorem indexEvent_eq : indexEvent c s =
    if s.n (kFbIndexMode c) ≠ 1 ∨ s.indexDelta c = 0 then s.indexCapture c
    else if s.dev.state = .run ∧ ((s.indexCapture c).fbMoving c ∨ (s.indexCapture c).fbUsed c) then
      (s.indexCapture c).setBit (kFbStatus c) fbRerefBlocked true
    else (s.indexCapture c).reReference c (s.indexDelta c) := by
  have hmode : (s.indexCapture c).n (kFbIndexMode c) = s.n (kFbIndexMode c) :=
    (changesObjs_indexCapture s c).n (by simp [kFbIndexMode, kFbIndexCap, kFbStatus])
  rw [← hmode, ← dev_indexCapture s c]
  exact if_neg (by simp [hcounts, hcpr, hgate])

/-- An index is captured, whatever it does to the count. -/
theorem captured_indexEvent : Captured c s (indexEvent c s) := by
  rw [indexEvent_eq hcounts hcpr hgate]
  split
  case isTrue => exact captured_indexCapture
  case isFalse =>
    split
    case isTrue => exact captured_indexCapture.mark (by decide)
    case isFalse => exact ((captured_indexCapture.onFb _).mark (by decide)).of_evaluation (changesObjs_reReference _ _ _)

theorem count_indexEvent (h : s.n (kFbIndexMode c) ≠ 1 ∨ s.indexDelta c = 0) : ((indexEvent c s).fb c).count = (s.fb c).count := by
  rw [indexEvent_eq hcounts hcpr hgate, if_pos h, fb_indexCapture]

/-- Outside RUN a channel without an armed unit takes a new reference. -/
theorem indexEvent_references (hlen : s.axes.fbs.length = 16) (hmode : s.n (kFbIndexMode c) = 1) (hdev : s.indexDelta c ≠ 0)
    (hstate : s.dev.state ≠ .run) (hquiet : s.cmpQuiet c) :
    ((indexEvent c s).fb c).count = wrap64 ((s.fb c).count - s.indexDelta c) ∧ (indexEvent c s).bit (kFbStatus c) 9 = true := by
  have hquiet' : (s.indexCapture c).cmpQuiet c :=
    hquiet.of_changesObjs (changesObjs_indexCapture s c) (by simp [kFbIndexCap, kFbStatus, kCmpStatus])
  rw [indexEvent_eq hcounts hcpr hgate, if_neg (by simp [hmode, hdev]), if_neg (by simp [hstate]), reReference_quiet hquiet']
  refine ⟨?_, bit_fbStatus_same _ c 9 _⟩
  have hcount := congrArg FbSt.count (fb_onFb_same (s := s.indexCapture c) (c := c) (by rw [axes_indexCapture, hlen]; exact c.isLt)
    (fun x => { x with count := wrap64 (x.count - s.indexDelta c) }))
  rw [fb_indexCapture] at hcount
  exact hcount

end

end

/-! ### Absolute words (R284 to R286) -/

section
variable {s : State} {c : Fin 16} (hreq : s.requests = true) (hcounts : s.fbCounts c = true) (hmode : 2 ≤ s.fbMode c)
  (hdiv : s.cycle % max (s.n (kFbAbsDiv c)) 1 = 0)
include hreq hcounts hmode hdiv

theorem absRequest_high : absRequest c true s = s.onFb c (fun x => { x with req := some x.count, clk := false }) := by
  simp [absRequest, hreq, hcounts, hdiv, Nat.not_lt.mpr hmode]

theorem absRequest_low : absRequest c false s = s.setBit (kFbStatus c) fbAbsLine true := by
  simp [absRequest, hreq, hcounts, hdiv, Nat.not_lt.mpr hmode]

end

section
variable (s : State) (c : Fin 16) (word trailing : Nat)

/-- A reading that arrives: the request ends, and FB_ABS_RAW holds its bits. -/
def State.absStored : State :=
  (s.onFb c (fun x => { x with req := none, clk := true })).setN (kFbAbsRaw c) (s.absWord c word + trailing % 128 * 2 ^ 48)

theorem changesObjs_absStored : ChangesObjs [kFbAbsRaw c] s (s.absStored c word trailing) := changesObjs_setN (s.onFb c _) _ _

theorem fb_absStored (h : c.val < s.axes.fbs.length) : (s.absStored c word trailing).fb c = { s.fb c with req := none, clk := true } :=
  fb_onFb_same h _

theorem length_fbs_absStored : (s.absStored c word trailing).axes.fbs.length = s.axes.fbs.length := modAt_length ..

theorem n_absStored : (s.absStored c word trailing).n (kFbAbsRaw c) = (s.absWord c word + trailing % 128 * 2 ^ 48) % 2 ^ 64 := by
  have hraw := State.n_setN_same (s.onFb c (fun x => { x with req := none, clk := true })) (kFbAbsRaw c)
    (s.absWord c word + trailing % 128 * 2 ^ 48)
  rw [length_fbAbsRaw, show (256 : Nat) ^ 8 = 2 ^ 64 by norm_num] at hraw
  exact hraw

/-- A first valid word gives the channel its count and its newest reading. -/
def State.absCounted (b latch : Nat) : State :=
  (s.onFb c (fun x => { x with word := some b })).onFb c (fun y => { y with
    count := s.fbSign c * b, newest := some (s.fbSign c * b, latch),
    dir := if s.fbSign c * b = (s.fb c).count then y.dir else decide ((s.fb c).count < s.fbSign c * b) })

variable {s c}

theorem fb_absCounted (h : c.val < s.axes.fbs.length) (b latch : Nat) : ∃ dir, (s.absCounted c b latch).fb c =
    { s.fb c with word := some b, count := s.fbSign c * b, newest := some (s.fbSign c * b, latch), dir := dir } := by
  rw [State.absCounted, fb_onFb_same (by rwa [length_fbs_onFb]), fb_onFb_same h]
  exact ⟨_, rfl⟩

/-- The first valid word of an absolute channel is marked as valid (R286). -/
theorem absTake_first {b : Nat} (at_ : Int) (latch : Nat) (hmode : s.fbMode c = 2) (hfirst : s.bit (kFbStatus c) 1 = false)
    (hquiet : s.cmpQuiet c) : s.absTake c b at_ latch = (s.absCounted c b latch).setBit (kFbStatus c) fbAbsValid true := by
  have hmode' : (s.onFb c (fun x => { x with word := some b })).fbMode c = 2 := hmode
  refine (if_pos hmode').trans ?_
  simp only [fbAbsValid, hfirst, Bool.not_false, if_true]
  exact compare_quiet (((hquiet.onFb _).onFb _).fbStatus _ _) _ _

end

section
variable {s : State} {c : Fin 16} {word trailing : Nat} {latch : Time96} (hreq : s.requests = true) (hcounts : s.fbCounts c = true)
  (hmode : 2 ≤ s.fbMode c)
include hreq hcounts hmode

theorem reading_taken : ¬ ((!s.requests) = true ∨ (!s.fbCounts c) = true ∨ s.fbMode c < 2) := by
  simp [hreq, hcounts, Nat.succ_le_iff.mp hmode]

theorem absReading_low : absReading c word trailing false latch s = (s.absStored c word trailing).setBit (kFbStatus c) fbAbsLine true :=
  (if_neg (reading_taken hreq hcounts hmode)).trans (if_pos rfl)

/-- A first word without an error bit is valid (R285, R286). -/
theorem absReading_first (herr : s.n (kFbAbsErr c) = 0) (hword : (s.fb c).word = none) : absReading c word trailing true latch s =
    (s.absStored c word trailing).absTake c (s.absWord c word) ((s.fb c).req.getD (s.fb c).count) (time96Q latch) := by
  have herr' : (s.absStored c word trailing).n (kFbAbsErr c) = 0 := by
    rw [(changesObjs_absStored s c word trailing).n (by simp [kFbAbsErr, kFbAbsRaw]), herr]
  have hclean : (s.absStored c word trailing).absError c trailing = false := by simp [State.absError, herr']
  refine (if_neg (reading_taken hreq hcounts hmode)).trans ((if_neg (by decide)).trans ((if_neg ?_).trans (if_neg ?_)))
  · exact ne_true_of_eq_false hclean
  · simp [hword]

end

section
variable {s : State} {c : Fin 16} {word trailing : Nat} {latch : Time96}

/-- The first valid word of an absolute channel (R286). -/
theorem absReading_first_spec (hc : c.val < s.axes.fbs.length) (hreq : s.requests = true) (hcounts : s.fbCounts c = true)
    (hmode : s.fbMode c = 2) (herr : s.n (kFbAbsErr c) = 0) (hword : (s.fb c).word = none) (hvalid : s.bit (kFbStatus c) 1 = false)
    (hfmt : s.bit (kFbAbsFmt c) 0 = false) (hquiet : s.cmpQuiet c) :
    let t := absReading c word trailing true latch s
    (t.fb c).count = s.fbSign c * ((word % 2 ^ s.n (kFbAbsBits c) : Nat) : Int) ∧ t.bit (kFbStatus c) 1 = true ∧ (t.fb c).clk = true ∧
    (t.fb c).word = some (word % 2 ^ s.n (kFbAbsBits c)) ∧ (t.fb c).newest = some ((t.fb c).count, time96Q latch) ∧
    t.n (kFbAbsRaw c) = (word % 2 ^ s.n (kFbAbsBits c) + trailing % 128 * 2 ^ 48) % 2 ^ 64 := by
  have hbinary : s.absWord c word = word % 2 ^ s.n (kFbAbsBits c) := if_neg (by simp [hfmt])
  have hstored := changesObjs_absStored s c word trailing
  have hsign : (s.absStored c word trailing).fbSign c = s.fbSign c := by
    rw [State.fbSign, hstored.n (by simp [kFbDir, kFbAbsRaw]), State.fbSign]
  have htake := absTake_first (b := s.absWord c word) ((s.fb c).req.getD (s.fb c).count) (time96Q latch)
    ((hstored.n (by simp [kFbMode, kFbAbsRaw])).trans hmode) ((hstored.bit (by simp [kFbStatus, kFbAbsRaw]) 1).trans hvalid)
    (hquiet.of_changesObjs hstored (by simp [kFbAbsRaw, kCmpStatus]))
  obtain ⟨_, hfb⟩ := fb_absCounted (s := s.absStored c word trailing) (by rwa [length_fbs_absStored]) (s.absWord c word) (time96Q latch)
  rw [hsign, fb_absStored s c word trailing hc, hbinary] at hfb
  dsimp only
  rw [absReading_first hreq hcounts hmode.ge herr hword, htake, fb_setBit, hbinary, hfb]
  refine ⟨rfl, bit_fbStatus_same _ c 1 true, rfl, rfl, rfl, ?_⟩
  rw [State.n_setBit_other _ _ _ (by simp [kFbAbsRaw, kFbStatus]), ← hbinary]
  exact n_absStored s c word trailing

theorem absReading_low_spec (hc : c.val < s.axes.fbs.length) (hreq : s.requests = true) (hcounts : s.fbCounts c = true)
    (hmode : 2 ≤ s.fbMode c) (hvalid : s.bit (kFbStatus c) 1 = false) :
    let t := absReading c word trailing false latch s
    (t.fb c).count = (s.fb c).count ∧ t.bit (kFbStatus c) 3 = true ∧ t.bit (kFbStatus c) 1 = false := by
  have hkept : (s.absStored c word trailing).bit (kFbStatus c) 1 = false :=
    ((changesObjs_absStored s c word trailing).bit (by simp [kFbStatus, kFbAbsRaw]) 1).trans hvalid
  dsimp only
  rw [absReading_low hreq hcounts hmode, fb_setBit, fb_absStored s c word trailing hc]
  exact ⟨rfl, bit_fbStatus_same _ c 3 true, (bit_fbStatus_beside _ c 1 _ (by decide)).trans hkept⟩

end

/-! ### Encoder emulation (R296) -/

theorem length_emuEdges (e : Fin 8) : (objDefault (kEmuEdges e)).length = 8 := by revert e; decide

/-- The edge count one edge nearer to the target. -/
def State.emuNext (s : State) (e : Nat) : Int :=
  if s.i (kEmuEdges e) < s.emuTarget e then s.i (kEmuEdges e) + 1 else s.i (kEmuEdges e) - 1

/-- EMU_LAG marks an output that is more than one edge behind after its start-up. -/
def State.emuMark (s : State) (e : Nat) : State :=
  if (s.emu e).boot = 0 ∧ 1 < (s.emuTarget e - s.i (kEmuEdges e)).natAbs then s.setBit (kEmuStatus e) 1 true else s

section
variable {s : State} {e : Fin 8} (hon : s.bit (kEmuStatus e) 0 = true)
include hon

theorem emuEdge_reached (h : s.emuTarget e = s.i (kEmuEdges e)) : emuEdge e s = s :=
  (if_neg (by simp [hon])).trans (if_pos h)

theorem emuEdge_moves (h : s.emuTarget e ≠ s.i (kEmuEdges e)) : emuEdge e s =
    ((s.emuMark e).setI (kEmuEdges e) (s.emuNext e)).onEmu e (fun x => { x with boot := x.boot - 1 }) :=
  (if_neg (by simp [hon])).trans (if_neg h)

/-- An edge counts, and only the output and its two objects change. -/
theorem emuEdge_spec (h : s.emuTarget e ≠ s.i (kEmuEdges e)) : (emuEdge e s).obj (kEmuEdges e) = leInt 8 (s.emuNext e) ∧
    ChangesObjs [kEmuEdges e, kEmuStatus e] s (emuEdge e s) ∧ Changes [.axes, .objs] s (emuEdge e s) := by
  rw [emuEdge_moves hon h]
  refine ⟨State.obj_setI (s.emuMark e) _ (length_emuEdges e), ?_, ?_⟩
  · exact ((changesObjs_mark s (kEmuStatus e) 1 _).mono (by simp)).trans ((changesObjs_setI (s.emuMark e) _ _).mono (by simp))
  · exact (((changes_mark s _ 1 _).trans (changes_setI (s.emuMark e) _ _)).mono (by decide)).trans
      ((changes_onAxes _ _).mono (by decide))

end

/-! ### Axes: their state and their objects -/

section
variable {s : State} {n : Nat}

theorem ax_onAx (h : n < s.axes.axes.length) (f : AxSt → AxSt) : (s.onAx n f).ax n = f (s.ax n) := getD_modAt_same h f _

end

theorem length_axStatus (n : Fin 16) : (objDefault (kAxStatus n)).length = 2 := by revert n; decide
theorem length_axPosOut (n : Fin 16) : (objDefault (kAxPosOut n)).length = 8 := by revert n; decide

theorem bit_axStatus_same (s : State) (n : Fin 16) (b : Fin 16) (v : Bool) : (s.setBit (kAxStatus n) b v).bit (kAxStatus n) b = v :=
  State.bit_setBit_same _ _ _ _ (by rw [length_axStatus]; exact b.isLt)

theorem bit_axStatus_beside (s : State) (n : Fin 16) {b : Nat} (j : Fin 16) (v : Bool) (h : j.val ≠ b) :
    (s.setBit (kAxStatus n) b v).bit (kAxStatus n) j = s.bit (kAxStatus n) j :=
  State.bit_setBit_beside _ _ _ (by rw [length_axStatus]; exact j.isLt) h

/-! ### Steps (R300) -/

theorem axStep_off {s : State} {n : Fin 16} (h : s.axSteps n = false) (ns : Nat) : axStep n ns s = s := if_pos (by simp [h])

/-- The instant of a step on the 5 ns grid, and its direction. -/
def State.stepAt (s : State) (ns : Nat) : Nat := s.cycle * s.tns + ns / 5 * 5
def State.stepUp (s : State) (n ns : Nat) : Bool := decide (0 < s.axDue n (s.stepAt ns))

/-- The limits of R300 let the step rise. -/
def State.stepOk (s : State) (n ns : Nat) : Bool := s.axEdgeOk n (s.stepAt ns) (s.stepUp n ns)

/-- The grid would have let the step come earlier. -/
def State.stepLate (s : State) (n ns : Nat) : Bool :=
  if s.stepUp n ns then decide (0 < s.axDue n (s.stepAt ns - 5)) else decide (s.axDue n (s.stepAt ns - 5) < 0)

/-- RATE_CAP marks a step that is late or held back. -/
def State.stepMark (s : State) (n ns : Nat) : State :=
  if s.stepLate n ns || !s.stepOk n ns then s.setBit (kAxStatus n) axRateCap true else s

/-- A rising edge: AX_POS_OUT takes the next grid point, and DIR its direction. -/
def State.stepRise (s : State) (n ns : Nat) : State :=
  let g : Int := msSize (s.n (kAxMsActive n))
  let t := s.stepMark n ns
  (t.setI (kAxPosOut n) (wrap64 (t.i (kAxPosOut n) + if s.stepUp n ns then g else -g))).onAx n (fun x => { x with
    step := true, dir := s.stepUp n ns, rise := some (s.stepAt ns),
    chgAt := if (t.ax n).dir != s.stepUp n ns then some (s.stepAt ns - (t.setI (kAxPosOut n) (wrap64 (t.i (kAxPosOut n) +
      if s.stepUp n ns then g else -g))).n (kAxDirSetup n)) else x.chgAt })

theorem stepMark_frame (s : State) (n ns : Nat) : ChangesObjs [kAxStatus n] s (s.stepMark n ns) ∧ Changes [.objs] s (s.stepMark n ns) :=
  ⟨changesObjs_mark s _ _ _, changes_mark s _ _ _⟩

theorem axes_stepMark (s : State) (n ns : Nat) : (s.stepMark n ns).axes = s.axes := (stepMark_frame s n ns).2.2 .axes (by decide)

theorem stepRise_frame (s : State) (n ns : Nat) :
    ChangesObjs [kAxPosOut n, kAxStatus n] s (s.stepRise n ns) ∧ Changes [.axes, .objs] s (s.stepRise n ns) := by
  obtain ⟨hobjs, hparts⟩ := stepMark_frame s n ns
  exact ⟨(hobjs.mono (by simp)).trans ((changesObjs_setI (s.stepMark n ns) _ _).mono (by simp)),
    ((hparts.trans (changes_setI _ _ _)).mono (by decide)).trans ((changes_onAxes _ _).mono (by decide))⟩

theorem obj_stepRise (s : State) (n : Fin 16) (ns : Nat) : (s.stepRise n ns).obj (kAxPosOut n) = leInt 8 (wrap64 (s.i (kAxPosOut n) +
    if s.stepUp n ns then (msSize (s.n (kAxMsActive n)) : Int) else -(msSize (s.n (kAxMsActive n)) : Int))) := by
  have hout : (s.stepMark n ns).i (kAxPosOut n) = s.i (kAxPosOut n) :=
    (stepMark_frame s n ns).1.i (by simp [kAxPosOut, kAxStatus])
  rw [← hout]
  exact State.obj_setI (s.stepMark n ns) _ (length_axPosOut n)

theorem ax_stepRise {s : State} {n : Nat} (h : n < s.axes.axes.length) (ns : Nat) : ∃ chgAt, (s.stepRise n ns).ax n =
    { s.ax n with step := true, dir := s.stepUp n ns, rise := some (s.stepAt ns), chgAt := chgAt } := by
  have hax : (s.stepMark n ns).ax n = s.ax n := by rw [State.ax, State.ax, axes_stepMark]
  rw [← hax]
  exact ⟨_, ax_onAx (s := (s.stepMark n ns).setI _ _) (by rw [← axes_stepMark s n ns] at h; exact h) _⟩

theorem msSettle_none {s : State} {n : Nat} (h : (s.ax n).msPending = none) (t : Nat) : s.msSettle n t = s := by
  simp [State.msSettle, h]

section
variable {s : State} {n : Fin 16} {ns : Nat} (hon : s.axSteps n = true)
include hon

theorem axStep_reached (h : s.axDue n (s.stepAt ns) = 0) : axStep n ns s = s := (if_neg (by simp [hon])).trans (if_pos h)

/-- A limit of R300 holds the step back. -/
theorem axStep_capped (hdue : s.axDue n (s.stepAt ns) ≠ 0) (hok : s.stepOk n ns = false) :
    axStep n ns s = s.setBit (kAxStatus n) axRateCap true := by
  have hmark : s.stepMark n ns = s.setBit (kAxStatus n) axRateCap true := if_pos (by simp [hok])
  have hheld : (!s.stepOk n ns) = true := by simp [hok]
  rw [← hmark]
  exact (if_neg (by simp [hon])).trans ((if_neg hdue).trans (if_pos hheld))

theorem axStep_rises (hdue : s.axDue n (s.stepAt ns) ≠ 0) (hok : s.stepOk n ns = true) (hlen : s.axes.axes.length = 16)
    (hpending : (s.ax n).msPending = none) : axStep n ns s = s.stepRise n ns := by
  obtain ⟨_, hax⟩ := ax_stepRise (s := s) (n := n) (by rw [hlen]; exact n.isLt) ns
  have hfree : ¬ (!s.stepOk n ns) = true := by simp [hok]
  have hrise : axStep n ns s = (s.stepRise n ns).msSettle n (s.stepAt ns) :=
    (if_neg (by simp [hon])).trans ((if_neg hdue).trans (if_neg hfree))
  rw [hrise, msSettle_none (by rw [hax, hpending])]

end

/-! ### Standstill (R304) -/

/-- The MS balls are the axis's own: its driver, its objects and the other axes stand. -/
theorem axMs_frame {s : State} {n : Nat} (h : n < s.axes.axes.length) (code t : Nat) :
    ((s.axMs n code t).ax n).en = (s.ax n).en ∧ (s.axMs n code t).objs = s.objs ∧ Changes [.axes] s (s.axMs n code t) := by
  unfold State.axMs
  split
  · exact ⟨rfl, rfl, .refl _ s⟩
  · exact ⟨(congrArg AxSt.en (ax_onAx h _)).trans rfl, rfl, changes_onAxes s _⟩

/-- The axis is in standstill with EN at `v`, and only its state and its status have changed. -/
def StillAt (n : Nat) (v : Bool) (s t : State) : Prop :=
  t.bit (kAxStatus n) 2 = true ∧ (t.ax n).en = v ∧ ChangesObjs [kAxStatus n] s t ∧ Changes [.axes, .objs] s t

theorem stillAt_axEn {s : State} {n : Fin 16} (h : n.val < s.axes.axes.length) (v : Bool) :
    StillAt n v s ((s.setBit (kAxStatus n) axStandstill true).axEn n v) := by
  let t := s.setBit (kAxStatus n) axStandstill true
  have hparts : Changes [.axes, .objs] s (t.onAx n (fun x => { x with en := v })) :=
    ((changes_setBit s _ _ _).mono (by decide)).trans ((changes_onAxes t _).mono (by decide))
  exact ⟨(bit_axStatus_beside (t.onAx n _) n 2 v (by decide)).trans (bit_axStatus_same s n 2 true),
    congrArg AxSt.en (ax_onAx (s := t) h (fun x => { x with en := v })),
    (changesObjs_setBit s _ _ _).trans (changesObjs_setBit (t.onAx n _) _ _ _), hparts.trans ((changes_setBit _ _ _ _).mono (by decide))⟩

theorem StillAt.axMs {n : Nat} {v : Bool} {s t : State} (h : StillAt n v s t) (hn : n < t.axes.axes.length) (code at_ : Nat) :
    StillAt n v s (t.axMs n code at_) := by
  obtain ⟨hbit, hen, hobjs, hparts⟩ := h
  obtain ⟨hen', hobjs', hparts'⟩ := axMs_frame hn code at_
  exact ⟨((ChangesObjs.of_objs hobjs' []).bit (by simp) 2).trans hbit, hen'.trans hen, hobjs.trans (.of_objs hobjs' _),
    hparts.trans (hparts'.mono (by decide))⟩

/-- EN is driven as the standstill mode says: low in mode 0, high in every other one. -/
theorem stillAt_axStill {s : State} {n : Fin 16} (hlen : s.axes.axes.length = 16) :
    StillAt n (decide (s.n (kAxStillMode n) ≠ 0)) s (s.axStill n) := by
  have hmode : (s.setBit (kAxStatus n) axStandstill true).n (kAxStillMode n) = s.n (kAxStillMode n) :=
    State.n_setBit_other _ _ _ (by simp [kAxStillMode, kAxStatus])
  have hn : n.val < s.axes.axes.length := by omega
  have hon (code at_ : Nat) : StillAt n true s (((s.setBit (kAxStatus n) axStandstill true).axEn n true).axMs n code at_) := by
    refine (stillAt_axEn hn true).axMs ?_ code at_
    exact (modAt_length s.axes.axes n _).symm ▸ hn
  unfold State.axStill
  dsimp only
  rw [hmode]
  split
  case h_1 h =>
    rw [h]
    exact stillAt_axEn hn false
  case h_2 h =>
    rw [h]
    exact hon _ _
  case h_3 h _ =>
    have hdriven : decide (s.n (kAxStillMode n) ≠ 0) = true := decide_eq_true h
    rw [hdriven]
    exact hon _ _

section
variable {s : State} {n : Fin 16}

theorem axIdle_stands (hstate : s.isIn [.run, .hold, .degraded] = true) (hused : s.axUsed n = true) (hrun : (s.ax n).stopped = false)
    (hmoving : s.bit (kAxStatus n) 0 = false) (hdeferred : (s.ax n).deferred = none) : axIdle n s = s.axStill n :=
  if_neg (by simp [hstate, hused, hrun, axMoving, hmoving, hdeferred])

theorem axIdle_moves (h : s.bit (kAxStatus n) 0 = true ∨ (s.ax n).deferred.isSome = true) : axIdle n s = s :=
  if_pos (by rcases h with h | h <;> simp [axMoving, h])

end

/-! ### The end of the wake time (R305) -/

/-- A move that is not queued behind another begins with its descriptor. -/
theorem take_begins {x : Mov} (h : x.active = false) (d start : Bytes) (par : PlanPar) (t : Nat) :
    (x.take d start par t).motion.kind = mvType d ∧ (x.take d start par t).motion.desc = d := by
  simp [Mov.take, h, startMotion]

section
variable {s : State} {n : Fin 16}

theorem axTake_joint {d : Bytes} (hlen : s.axes.axes.length = 16) (hd : mvType d = 1) (h : (s.axMov n).active = false) :
    ((s.axTake n d).ax n).motion.kind = 1 ∧ ((s.axTake n d).ax n).motion.desc = d ∧ ((s.axTake n d).ax n).deferred = (s.ax n).deferred ∧
    ChangesObjs [kAxMoveStatus n] s (s.axTake n d) ∧ Changes [.axes, .objs] s (s.axTake n d) := by
  let x := (s.axMov n).take d (s.axNow n) (s.axPlan n d) s.cycle
  obtain ⟨hkind, hdesc⟩ := take_begins h d (s.axNow n) (s.axPlan n d) s.cycle
  have hax : (s.setAxMov n x).ax n = { s.ax n with motion := x.motion, queued := x.queued } := ax_onAx (by rw [hlen]; exact n.isLt) _
  have htake : s.axTake n d = s.setAxMov n x := by
    have hnocam : ((s.setAxMov n x).axMov n).motion.kind ≠ 5 := by
      rw [State.axMov, hax]
      simp [x, hkind, hd]
    rw [State.axTake, axDesc, if_neg (by rw [hd]; decide)]
    exact if_pos (.inl hnocam)
  rw [htake, hax]
  exact ⟨hkind.trans hd, hdesc, rfl, changesObjs_setObj (s.onAx n _) _ _,
    ((changes_onAxes s _).mono (by decide)).trans ((changes_setObj _ _ _).mono (by decide))⟩

/-- The axis that a deferred move finds when its wake time ends. -/
def State.awake (s : State) (n : Nat) : State :=
  (s.onAx n (fun x => { x with deferred := none, waitQ := none })).setBit (kAxStatus n) axWaking false

theorem axWakeDone_starts {d : Bytes} {cy : Nat} (hdeferred : (s.ax n).deferred = some (d, cy)) (hwait : (s.ax n).waitQ = none) :
    axWakeDone n s = (s.awake n).axTake n d := by
  simp only [axWakeDone, hdeferred, hwait, Option.elim_none, State.awake]

theorem axWakeDone_idle (h : (s.ax n).deferred = none) : axWakeDone n s = s := by simp only [axWakeDone, h]

/-- A deferred move to a position starts when its wake time ends. -/
theorem axTake_awake {d : Bytes} (hlen : s.axes.axes.length = 16) (hd : mvType d = 1) (h : (s.axMov n).active = false) :
    (((s.awake n).axTake n d).ax n).deferred = none ∧ ((s.awake n).axTake n d).bit (kAxStatus n) 3 = false ∧
    (((s.awake n).axTake n d).ax n).motion.kind = 1 ∧ (((s.awake n).axTake n d).ax n).motion.desc = d ∧
    ChangesObjs [kAxStatus n, kAxMoveStatus n] s ((s.awake n).axTake n d) ∧ Changes [.axes, .objs] s ((s.awake n).axTake n d) := by
  have hax : (s.awake n).ax n = { s.ax n with deferred := none, waitQ := none } := ax_onAx (by rw [hlen]; exact n.isLt) _
  have hactive : ((s.awake n).axMov n).active = false := by rw [State.axMov, hax]; exact h
  obtain ⟨hkind, hdesc, hdeferred, hobjs, hparts⟩ := axTake_joint (n := n) (s := s.awake n) ((modAt_length _ _ _).trans hlen) hd hactive
  have hawake : Changes [.axes, .objs] s (s.awake n) :=
    ((changes_onAxes s _).mono (by decide)).trans ((changes_setBit _ _ _ _).mono (by decide))
  refine ⟨by rw [hdeferred, hax], ?_, hkind, hdesc, ?_, hawake.trans hparts⟩
  · rw [hobjs.bit (by simp [kAxStatus, kAxMoveStatus])]
    exact bit_axStatus_same (s.onAx n _) n 3 false
  · exact ((changesObjs_setBit (s.onAx n _) _ _ _).mono (by simp)).trans (hobjs.mono (by simp))

end

/-! ### The commands -/

theorem exec_quadratureChange (c : Fin 16) (a b : Bool) (s : State) : exec (.quadratureChange c a b) s = .next (quadratureChange c a b s) := rfl
theorem exec_indexEvent (c : Fin 16) (s : State) : exec (.indexEvent c) s = .next (indexEvent c s) := rfl
theorem exec_absRequest (c : Fin 16) (high : Bool) (s : State) : exec (.absRequest c high) s = .next (absRequest c high s) := rfl
theorem exec_absReading (c : Fin 16) (word trailing : Nat) (high : Bool) (latch : Time96) (s : State) :
    exec (.absReading c word trailing high latch) s = .next (absReading c word trailing high latch s) := rfl
theorem exec_cmpPulseEnd (c : Fin 16) (u : Fin 2) (s : State) : exec (.cmpPulseEnd c u) s = .next (cmpPulseEnd c u s) := rfl
theorem exec_emuEdge (e : Fin 8) (s : State) : exec (.emuEdge e) s = .next (emuEdge e s) := rfl
theorem exec_step (n : Fin 16) (ns : Nat) (s : State) : exec (.step n ns) s = .next (axStep n ns s) := rfl
theorem exec_axIdle (n : Fin 16) (s : State) : exec (.axIdle n) s = .next (axIdle n s) := rfl
theorem exec_axWakeDone (n : Fin 16) (s : State) : exec (.axWakeDone n) s = .next (axWakeDone n s) := rfl

end Sys2Proof.Machine

namespace Sys2Proof

open Machine

/-- Settles O53: each row is the equation of its channel, output or axis, with the frame of the objects that it writes. -/
theorem feedbackAndAxes : Obligations.FeedbackAndAxes := by
  intro s c hfbs hemus haxes x quiet
  have hc : c.val < s.axes.fbs.length := by omega
  have hn : c.val < s.axes.axes.length := by omega
  refine ⟨fun a b hcounts hmode hquiet => ⟨fun hd => ⟨_, exec_quadratureChange c a b s, ?same⟩,
      fun hd => ⟨_, exec_quadratureChange c a b s, ?step⟩, fun hd => ⟨_, exec_quadratureChange c a b s, ?illegal⟩⟩,
    fun a b hstate hcounts hmode hd hsign harmed hother hinc hone hvalue hmoved => ⟨_, exec_quadratureChange c a b s, ?fires⟩,
    fun u => ⟨_, exec_cmpPulseEnd c u s, ?pulseEnd⟩,
    fun hcounts hcpr hgate => ⟨_, exec_indexEvent c s, ?index⟩,
    fun hreq hcounts hmode hdiv => ⟨⟨_, exec_absRequest c true s, ?latch⟩, ⟨_, exec_absRequest c false s, ?lineLow⟩⟩,
    fun word trailing latch hreq hcounts hmode herr hword hvalid hfmt hquiet =>
      ⟨⟨_, exec_absReading c word trailing true latch s, ?reading⟩, ⟨_, exec_absReading c word trailing false latch s, ?readingLow⟩⟩,
    fun e hon => ⟨fun h => ⟨_, exec_emuEdge e s, emuEdge_spec hon h⟩, fun h => ⟨_, exec_emuEdge e s, emuEdge_reached hon h⟩⟩,
    fun ns hon hpending => ⟨fun hdue hok => ⟨_, exec_step c ns s, ?capped⟩, fun hdue hok => ⟨_, exec_step c ns s, ?rises⟩,
      fun hdue => ⟨_, exec_step c ns s, axStep_reached hon hdue⟩⟩,
    fun hoff ns => ⟨_, exec_step c ns s, axStep_off hoff ns⟩,
    fun hstate hused hrun hmoving hdeferred => ⟨_, exec_axIdle c s, ?idle⟩,
    fun h => ⟨_, exec_axIdle c s, axIdle_moves h⟩,
    fun d cy hdeferred hwait hd hactive => ⟨_, exec_axWakeDone c s, ?wake⟩,
    fun h => ⟨_, exec_axWakeDone c s, axWakeDone_idle h⟩⟩
  case same => exact quadratureChange_same_spec hc hcounts hmode hd
  case step => exact quadratureChange_step_spec hc hcounts hmode hquiet hd
  case illegal => exact quadratureChange_illegal_spec hc hcounts hmode hd
  case fires => exact quadratureChange_fires hc hcounts hstate hmode hd hsign harmed hother hinc hone hvalue hmoved
  case pulseEnd =>
    have hcmp := cmp_onCmp_same hc u (fun y => { y with pulse := false })
    exact ⟨congrArg CmpSt.pulse hcmp, (congrArg CmpSt.fires hcmp).trans rfl, rfl, changes_onAxes s _⟩
  case index =>
    obtain ⟨hcap, hseen, hmiss⟩ := captured_indexEvent hcounts hcpr hgate
    exact ⟨hcap, hseen, hmiss, count_indexEvent hcounts hcpr hgate, indexEvent_references hcounts hcpr hgate hfbs⟩
  case latch =>
    rw [absRequest_high hreq hcounts hmode hdiv]
    have hfb := fb_onFb_same hc (fun x => { x with req := some x.count, clk := false })
    exact ⟨congrArg FbSt.req hfb, congrArg FbSt.clk hfb, rfl, changes_onAxes s _⟩
  case lineLow =>
    rw [absRequest_low hreq hcounts hmode hdiv]
    exact ⟨bit_fbStatus_same s c 3 true, changesObjs_setBit s _ _ _, changes_setBit s _ _ _⟩
  case reading => exact absReading_first_spec hc hreq hcounts hmode herr hword hvalid hfmt hquiet
  case readingLow => exact absReading_low_spec hc hreq hcounts hmode.ge hvalid
  case capped =>
    rw [axStep_capped hon hdue hok]
    exact ⟨bit_axStatus_same s c 5 true, changesObjs_setBit s _ _ _, changes_setBit s _ _ _⟩
  case rises =>
    rw [axStep_rises hon hdue hok haxes hpending]
    obtain ⟨_, hax⟩ := ax_stepRise hn ns
    obtain ⟨hobjs, hparts⟩ := stepRise_frame s c ns
    refine ⟨?_, congrArg AxSt.step hax, congrArg AxSt.dir hax, congrArg AxSt.rise hax, hobjs, hparts⟩
    rw [obj_stepRise]
    simp only [State.stepUp, decide_eq_true_eq]
    rfl
  case idle =>
    rw [axIdle_stands hstate hused hrun hmoving hdeferred]
    obtain ⟨hbit, hen, hobjs, hparts⟩ := stillAt_axStill (s := s) (n := c) haxes
    exact ⟨hbit, fun h => by rw [hen, h]; rfl, fun h => by rw [hen, decide_eq_true h], hobjs, hparts⟩
  case wake =>
    rw [axWakeDone_starts hdeferred hwait]
    exact axTake_awake haxes hd hactive

end Sys2Proof
end

section
/-! SUPPORT. The Safety Quarter's arms, brakes and outputs: what each operation leaves in an arm, in the other arms and beside them. -/

namespace Sys2Proof.Machine

/-! ### Arms -/

section
variable {s t : State} {a b : Nat}

/-- Every arm but one stands as it did. -/
def OtherArms (a : Nat) (s t : State) : Prop := ∀ b, b ≠ a → t.sarm b = s.sarm b

theorem sarm_congr (h : t.safe.arms = s.safe.arms) (a : Nat) : t.sarm a = s.sarm a := by rw [State.sarm, State.sarm, h]

theorem OtherArms.of_arms (h : t.safe.arms = s.safe.arms) (a : Nat) : OtherArms a s t := fun b _ => sarm_congr h b

theorem OtherArms.trans {u : State} (hst : OtherArms a s t) (htu : OtherArms a t u) : OtherArms a s u :=
  fun b hb => (htu b hb).trans (hst b hb)

theorem sarm_onArm_same (h : a < s.safe.arms.length) (f : SafeArm → SafeArm) : (s.onArm a f).sarm a = f (s.sarm a) := getD_modAt_same h f _

theorem sarm_onArm_other (h : b ≠ a) (f : SafeArm → SafeArm) : (s.onArm a f).sarm b = s.sarm b :=
  congrArg (·.getD SafeArm.reset) (getElem?_modAt_other s.safe.arms f h.symm)

theorem otherArms_onArm (s : State) (a : Nat) (f : SafeArm → SafeArm) : OtherArms a s (s.onArm a f) := fun _ h => sarm_onArm_other h f

@[simp] theorem length_arms_onArm (s : State) (a : Nat) (f : SafeArm → SafeArm) : (s.onArm a f).safe.arms.length = s.safe.arms.length :=
  modAt_length ..

theorem sarm_absent (h : ¬a < s.safe.arms.length) : s.sarm a = .reset := by
  simp [State.sarm, List.getElem?_eq_none (not_lt.mp h)]

/-- An arm takes a change, or stands. -/
theorem sarm_onArm_cases (s : State) (a b : Nat) (f : SafeArm → SafeArm) :
    (s.onArm a f).sarm b = s.sarm b ∨ (s.onArm a f).sarm b = f (s.sarm b) := by
  by_cases h : b = a
  · subst h
    by_cases hlen : b < s.safe.arms.length
    · exact .inr (sarm_onArm_same hlen f)
    · exact .inl ((sarm_absent (by rwa [length_arms_onArm])).trans (sarm_absent hlen).symm)
  · exact .inl (sarm_onArm_other h f)

/-- What a change of an arm keeps, every arm keeps. -/
theorem sarm_onArm_keeps {β : Type} {g : SafeArm → β} {f : SafeArm → SafeArm} (hf : ∀ x, g (f x) = g x) (s : State) (a b : Nat) :
    g ((s.onArm a f).sarm b) = g (s.sarm b) := by
  obtain h | h := sarm_onArm_cases s a b f
  · rw [h]
  · rw [h, hf]

/-- An arm after a change of every arm. -/
theorem sarm_onArms (h : a < s.safe.arms.length) (f : Nat → SafeArm → SafeArm) : (s.onArms f).sarm a = f a (s.sarm a) := by
  simp [State.sarm, List.getElem?_zipIdx, List.getElem?_eq_getElem h]

@[simp] theorem length_arms_onArms (s : State) (f : Nat → SafeArm → SafeArm) : (s.onArms f).safe.arms.length = s.safe.arms.length := by simp

theorem changes_onArm (s : State) (a : Nat) (f : SafeArm → SafeArm) : Changes [.safe] s (s.onArm a f) := changes_onSafe s _

theorem changes_onArms (s : State) (f : Nat → SafeArm → SafeArm) : Changes [.safe] s (s.onArms f) := changes_onSafe s _

theorem changes_drive (s : State) : Changes [.safe] s s.drive := changes_onSafe s _

@[simp] theorem sarm_drive (s : State) (a : Nat) : s.drive.sarm a = s.sarm a := rfl

/-- An arm changes, and the outputs follow. -/
theorem onArm_drive_spec (h : a < s.safe.arms.length) (f : SafeArm → SafeArm) :
    ((s.onArm a f).drive).sarm a = f (s.sarm a) ∧ OtherArms a s (s.onArm a f).drive ∧ (s.onArm a f).drive.objs = s.objs ∧
      Changes [.safe] s (s.onArm a f).drive :=
  ⟨sarm_onArm_same h f, otherArms_onArm s a f, rfl, (changes_onArm s a f).trans (changes_drive _)⟩

/-- STO in both halves stops an arm. -/
theorem stopped_stoBoth (x : SafeArm) : Stopped x.stoBoth := ⟨rfl, rfl, rfl, rfl, rfl⟩

theorem length_safeStatus : (objDefault kSafeStatus).length = 4 := by decide

theorem bit_safeStatus_same (s : State) {b : Nat} (hb : b < 32) (v : Bool) : (s.setBit kSafeStatus b v).bit kSafeStatus b = v :=
  State.bit_setBit_same _ _ _ _ (by rw [length_safeStatus]; exact hb)

theorem bit_safeStatus_beside (s : State) {b j : Nat} (hj : j < 32) (h : j ≠ b) (v : Bool) :
    (s.setBit kSafeStatus b v).bit kSafeStatus j = s.bit kSafeStatus j :=
  State.bit_setBit_beside _ _ _ (by rw [length_safeStatus]; exact hj) h

end

/-! ### The commands of brakes and envelopes (R315, R317, R337) -/

theorem exec_brakeCloseExpiry (a : Fin 8) (s : State) : exec (.brakeCloseExpiry a) s = .next (brakeCloseExpiry a s) := rfl
theorem exec_ss1TmaxExpiry (a : Fin 8) (s : State) : exec (.ss1TmaxExpiry a) s = .next (ss1TmaxExpiry a s) := rfl
theorem exec_armStopClear (a : Fin 8) (s : State) : exec (.armStopClear a) s = .next (armStopClear a s) := rfl
theorem exec_brakeOpenExpiry (a : Fin 8) (s : State) : exec (.brakeOpenExpiry a) s = .next (brakeOpenExpiry a s) := rfl
theorem exec_brakeReleaseTimeout (a : Fin 8) (s : State) : exec (.brakeReleaseTimeout a) s = .next (brakeReleaseTimeout a s) := rfl

section
variable {s : State} {a : Fin 8}

theorem brakeCloseExpiry_closing (h : (s.sarm a).closing = true) : brakeCloseExpiry a s = (s.onArm a SafeArm.stoBoth).drive := if_pos h
theorem brakeCloseExpiry_idle (h : (s.sarm a).closing = false) : brakeCloseExpiry a s = s := if_neg (by simp [h])

theorem ss1TmaxExpiry_runs (hss1 : (s.sarm a).ss1.isSome = true) (hclosing : (s.sarm a).closing = false) :
    ss1TmaxExpiry a s = (s.onArm a SafeArm.stoBoth).drive := if_pos (by simp [hss1, hclosing])
theorem ss1TmaxExpiry_idle (h : (s.sarm a).ss1 = none ∨ (s.sarm a).closing = true) : ss1TmaxExpiry a s = s :=
  if_neg (by rintro ⟨hss1, hclosing⟩; obtain h | h := h <;> simp [h] at hss1 hclosing)

theorem armStopClear_idle (h : (s.sarm a).armStop = false ∨ (s.sarm a).verdP = true ∨ (s.sarm a).verdH = true) : armStopClear a s = s :=
  if_neg (by rintro ⟨hstop, hp, hh⟩; obtain h | h | h := h <;> simp [h] at hstop hp hh)

/-- An arm stop that no verdict holds any more ends. -/
theorem armStopClear_clears (hlen : s.safe.arms.length = 8) (hstop : (s.sarm a).armStop = true) (hp : (s.sarm a).verdP = false)
    (hh : (s.sarm a).verdH = false) :
    ((armStopClear a s).sarm a).armStop = false ∧ ((armStopClear a s).sarm a).stopEnv = none ∧ OtherArms a s (armStopClear a s) ∧
      ChangesObjs [kSafeStatus] s (armStopClear a s) ∧ Changes [.safe, .objs] s (armStopClear a s) := by
  rw [armStopClear, if_pos (by simp [hstop, hp, hh])]
  generalize hf : (fun x : SafeArm => { x with armStop := false, stopEnv := none }) = f
  have harm : ((s.onArm a f).armStopBit.drive).sarm a = f (s.sarm a) := sarm_onArm_same (by omega) f
  refine ⟨?_, ?_, otherArms_onArm s a f, changesObjs_setBit (s.onArm a f) kSafeStatus 15 _, ?_⟩
  · rw [harm, ← hf]
  · rw [harm, ← hf]
  · exact ((changes_onArm s a f).mono (by decide)).trans
      (((changes_setBit (s.onArm a f) _ _ _).mono (by decide)).trans ((changes_drive _).mono (by decide)))

/-- An arm whose brakes open has them released. -/
theorem brakeOpenExpiry_opens (hlen : s.safe.arms.length = 8) (h : (s.sarm a).release = .opening) :
    ((brakeOpenExpiry a s).sarm a).release = .released ∧ OtherArms a s (brakeOpenExpiry a s) ∧ Changes [.safe] s (brakeOpenExpiry a s) := by
  rw [brakeOpenExpiry, if_pos h]
  exact ⟨congrArg SafeArm.release (sarm_onArm_same (by omega) _), otherArms_onArm s a _, changes_onArm s a _⟩

end

end Sys2Proof.Machine
end

section
/-! SUPPORT. Stop demands of the safety channels: a brake release that fails, and a drive connection that is lost (R313, R334, R337). -/

namespace Sys2Proof.Machine

/-! ### Records and demands -/

section
variable (s : State)

theorem safeLog_recordOnly (h : Bool) (type : Nat) (b : Bytes) : RecordOnly s (s.safeLog h type b) := record_recordOnly ..

theorem stopRecord_recordOnly (h : Bool) (kind who : Nat) : RecordOnly s (s.stopRecord h kind who) := safeLog_recordOnly ..

theorem changes_interrupt (b : Nat) : Changes [.dict] s (s.interrupt b) := changes_dict s _

theorem changes_safetyStop : Changes [.dev, .dict] s s.safetyStop :=
  ((changes_stopDemand s).mono (by decide)).trans ((changes_interrupt s.stopDemand 5).mono (by decide))

theorem length_arms_beginSs1 : s.beginSs1.safe.arms.length = s.safe.arms.length := length_arms_onArms s _

/-- Where SS1 begins, the rest of an arm stands. -/
theorem sarm_beginSs1 (a : Nat) : ∃ e, s.beginSs1.sarm a = { s.sarm a with ss1 := e } := by
  by_cases h : a < s.safe.arms.length
  · rw [State.beginSs1, sarm_onArms h]
    split
    · exact ⟨_, rfl⟩
    · exact ⟨_, rfl⟩
  · refine ⟨none, ?_⟩
    rw [sarm_absent h, sarm_absent (by rwa [length_arms_beginSs1])]
    rfl

end

/-- A demand for SS1 that an arm raises for all of them: its record, the envelopes, and the stop demand. -/
def State.demandSs1 (s : State) (h : Bool) (kind who : Nat) : State := ((s.stopRecord h kind who).beginSs1).safetyStop

section
variable (s : State) (h : Bool) (kind who : Nat)

theorem safe_stopRecord : (s.stopRecord h kind who).safe = s.safe := (stopRecord_recordOnly s h kind who).1.2 .safe (by decide)

/-- Its frame, SS1 of the arms apart. -/
theorem demandSs1_frame : Changes [.safe, .dev, .dict, .objs, .recd] s (s.demandSs1 h kind who) ∧
    ChangesObjs [kRecStatus, kRecDrops] s (s.demandSs1 h kind who) ∧ (s.demandSs1 h kind who).dev.stopDemand = true := by
  obtain ⟨hparts, hobjs⟩ := stopRecord_recordOnly s h kind who
  refine ⟨?_, hobjs, rfl⟩
  exact (hparts.mono (by decide)).trans (((changes_onArms _ _).mono (by decide)).trans ((changes_safetyStop _).mono (by decide)))

theorem sarm_demandSs1 (a : Nat) : ∃ e, (s.demandSs1 h kind who).sarm a = { s.sarm a with ss1 := e } := by
  obtain ⟨e, he⟩ := sarm_beginSs1 (s.stopRecord h kind who) a
  rw [sarm_congr (congrArg StSafe.arms (safe_stopRecord s h kind who))] at he
  exact ⟨e, he⟩

end

/-- The end of a release that saw no torque (R337). -/
theorem brakeReleaseTimeout_ends {s : State} {a : Fin 8} (hlen : s.safe.arms.length = 8) (h : (s.sarm a).release = .wanted) :
    ((brakeReleaseTimeout a s).sarm a).release = .applied ∧ (brakeReleaseTimeout a s).dev.stopDemand = true ∧
      ChangesObjs [kRecStatus, kRecDrops] s (brakeReleaseTimeout a s) := by
  rw [brakeReleaseTimeout, if_pos h]
  generalize hu : s.onArm a (fun x => { x with release := .applied }) = u
  have hrelease : (u.sarm a).release = .applied := by rw [← hu]; exact congrArg SafeArm.release (sarm_onArm_same (by omega) _)
  obtain ⟨-, hobjs, hstop⟩ := demandSs1_frame u true 1 a
  obtain ⟨e, he⟩ := sarm_demandSs1 u true 1 a a
  refine ⟨?_, hstop, ?_⟩
  · rw [sarm_drive]
    exact (congrArg SafeArm.release he).trans hrelease
  · subst hu
    exact hobjs

/-! ### Violations (R316 to R318, R334) -/

/-- What a violation leaves: the connections, SAFE_STATUS, and every STO and stop demand that stands. -/
structure Halts (s t : State) : Prop where
  conns : t.safe.conns = s.safe.conns
  status : t.obj kSafeStatus = s.obj kSafeStatus
  arms : t.safe.arms.length = s.safe.arms.length
  stoP : ∀ b, (s.sarm b).stoP = true → (t.sarm b).stoP = true
  stoH : ∀ b, (s.sarm b).stoH = true → (t.sarm b).stoH = true
  demand : s.dev.stopDemand = true → t.dev.stopDemand = true

section
variable {s t : State}

theorem Halts.refl (s : State) : Halts s s := ⟨rfl, rfl, rfl, fun _ => id, fun _ => id, id⟩

theorem Halts.trans {u : State} (hst : Halts s t) (htu : Halts t u) : Halts s u :=
  ⟨htu.conns.trans hst.conns, htu.status.trans hst.status, htu.arms.trans hst.arms, fun b h => htu.stoP b (hst.stoP b h),
    fun b h => htu.stoH b (hst.stoH b h), fun h => htu.demand (hst.demand h)⟩

theorem Halts.chOk (h : Halts s t) (c : Bool) : t.chOk c = s.chOk c := congrArg (fun b => (leVal b).testBit (b01 c)) h.status

/-- A change of one arm that withdraws no STO. -/
theorem halts_onArm {a : Nat} {f : SafeArm → SafeArm} (hp : ∀ x, x.stoP = true → (f x).stoP = true)
    (hh : ∀ x, x.stoH = true → (f x).stoH = true) (s : State) : Halts s (s.onArm a f) := by
  refine ⟨rfl, rfl, length_arms_onArm s a f, fun b h => ?_, fun b h => ?_, id⟩
  · obtain e | e := sarm_onArm_cases s a b f
    · rwa [e]
    · rw [e]; exact hp _ h
  · obtain e | e := sarm_onArm_cases s a b f
    · rwa [e]
    · rw [e]; exact hh _ h

theorem halts_demandSs1 (s : State) (h : Bool) (kind who : Nat) : Halts s (s.demandSs1 h kind who) := by
  obtain ⟨-, hobjs, hstop⟩ := demandSs1_frame s h kind who
  have hsafe := safe_stopRecord s h kind who
  have harm (b : Nat) := sarm_demandSs1 s h kind who b
  have hconns : (s.demandSs1 h kind who).safe.conns = (s.stopRecord h kind who).safe.conns := rfl
  have hlen : (s.demandSs1 h kind who).safe.arms.length = (s.stopRecord h kind who).safe.arms.length := length_arms_beginSs1 _
  refine ⟨by rw [hconns, hsafe], hobjs _ (by decide), by rw [hlen, hsafe], fun b hb => ?_, fun b hb => ?_, fun _ => hstop⟩
  · obtain ⟨e, he⟩ := harm b
    rwa [he]
  · obtain ⟨e, he⟩ := harm b
    rwa [he]

/-- The mark of a violation in an arm: STO of one channel, and its demand. -/
def SafeArm.violated (h : Bool) (x : SafeArm) : SafeArm :=
  let y := x.sto h
  if h then { y with demH := y.demH ||| 1 } else { y with demP := y.demP ||| 1 }

theorem violate_eq (s : State) (h : Bool) (a : Nat) : s.violate h a = (s.onArm a (SafeArm.violated h)).demandSs1 h 0 a := rfl

theorem halts_violated (s : State) (h : Bool) (a : Nat) : Halts s (s.onArm a (SafeArm.violated h)) := by
  cases h
  · exact halts_onArm (f := SafeArm.violated false) (fun _ _ => rfl) (fun _ => id) s
  · exact halts_onArm (f := SafeArm.violated true) (fun _ => id) (fun _ _ => rfl) s

theorem halts_violate (s : State) (h : Bool) (a : Nat) : Halts s (s.violate h a) :=
  violate_eq s h a ▸ (halts_violated s h a).trans (halts_demandSs1 _ h 0 a)

theorem halts_violateBoth (s : State) (a : Nat) : Halts s (s.violateBoth a) := by
  unfold State.violateBoth
  split
  · dsimp only
    split
    · exact (halts_violate s false a).trans (halts_violated _ true a)
    · exact halts_violate s false a
  · split
    · exact halts_violate s true a
    · exact .refl s

/-- A violation that both channels find puts both halves of the arm into STO and demands a stop. -/
theorem violateBoth_stops {a : Nat} (hlen : a < s.safe.arms.length) (hp : s.chOk false = true) (hh : s.chOk true = true) :
    ((s.violateBoth a).sarm a).stoP = true ∧ ((s.violateBoth a).sarm a).stoH = true ∧ (s.violateBoth a).dev.stopDemand = true := by
  have hfirst := halts_violate s false a
  have hboth : s.violateBoth a = (s.violate false a).onArm a (SafeArm.violated true) := by
    rw [State.violateBoth, if_pos hp]
    exact if_pos ((hfirst.chOk true).trans hh)
  have hsto : ((s.violate false a).sarm a).stoP = true := by
    refine (halts_demandSs1 (s.onArm a (SafeArm.violated false)) false 0 a).stoP a ?_
    rw [sarm_onArm_same hlen]
    rfl
  have harm : (s.violateBoth a).sarm a = SafeArm.violated true ((s.violate false a).sarm a) :=
    hboth ▸ sarm_onArm_same (by rw [hfirst.arms]; exact hlen) _
  refine ⟨?_, ?_, ?_⟩
  · rw [harm]; exact hsto
  · rw [harm]; rfl
  · rw [hboth]
    exact (demandSs1_frame _ false 0 a).2.2

theorem halts_foldl (l : List Nat) (s : State) : Halts s (l.foldl State.violateBoth s) := by
  induction l generalizing s with
  | nil => exact .refl s
  | cons b l ih => exact (halts_violateBoth s b).trans (ih _)

/-- Every arm of a list that is violated stops. -/
theorem foldl_violateBoth_stops {a : Nat} {l : List Nat} (ha : a ∈ l) (hlen : a < s.safe.arms.length) (hp : s.chOk false = true)
    (hh : s.chOk true = true) :
    ((l.foldl State.violateBoth s).sarm a).stoP = true ∧ ((l.foldl State.violateBoth s).sarm a).stoH = true ∧
      (l.foldl State.violateBoth s).dev.stopDemand = true := by
  induction l generalizing s with
  | nil => simp at ha
  | cons b l ih =>
    have hfirst := halts_violateBoth s b
    obtain rfl | hmem := List.mem_cons.mp ha
    · obtain ⟨hstoP, hstoH, hstop⟩ := violateBoth_stops hlen hp hh
      have hrest := halts_foldl l (s.violateBoth a)
      exact ⟨hrest.stoP a hstoP, hrest.stoH a hstoH, hrest.demand hstop⟩
    · exact ih hmem (by rw [hfirst.arms]; exact hlen) ((hfirst.chOk _).trans hp) ((hfirst.chOk _).trans hh)

end

/-! ### CONN_LOST (R329, R334) -/

theorem exec_connLost (n : Fin 64) (s : State) : exec (.connLost n) s = .next (connLost n s) := rfl

section
variable {s : State} {n : Nat}

theorem conn_onConn_same (h : n < s.safe.conns.length) (f : ConnSt → ConnSt) : (s.onConn n f).conn n = f (s.conn n) := getD_modAt_same h f _

/-- The mark of a lost connection. -/
def State.lost (s : State) (n : Nat) : State := (s.onConn n (fun _ => ⟨true, none⟩)).setBit kSafeStatus 10 true

theorem lost_spec (h : n < s.safe.conns.length) : (s.lost n).conn n = ⟨true, none⟩ ∧ (s.lost n).bit kSafeStatus 10 = true ∧
    (s.lost n).safe.arms = s.safe.arms ∧ ∀ c, (s.lost n).chOk c = s.chOk c := by
  refine ⟨conn_onConn_same h _, bit_safeStatus_same _ (by decide) true, rfl, fun c => ?_⟩
  cases c
  · exact bit_safeStatus_beside _ (by decide) (by decide) _
  · exact bit_safeStatus_beside _ (by decide) (by decide) _

theorem connLost_eq {n : Fin 64} {c : Bytes} (hup : s.dev.phase = .up) (hc : s.connRecs[n.val]? = some c) (hkind : connKind c ≠ 0) :
    connLost n s = if connKind c = 1 then ((bitsOf 8 (connArms c)).foldl State.violateBoth (s.lost n)).drive else s.lost n := by
  simp only [connLost, hc, hup, hkind, ne_eq, not_true_eq_false, or_self, if_false, State.lost]

theorem connLost_spec {n : Fin 64} {a : Fin 8} {c : Bytes} (hlen : s.safe.arms.length = 8) (hup : s.dev.phase = .up)
    (hc : s.connRecs[n.val]? = some c) (hkind : connKind c ≠ 0) (hn : n.val < s.safe.conns.length) :
    (connLost n s).conn n = ⟨true, none⟩ ∧ (connLost n s).bit kSafeStatus 10 = true ∧
      (connKind c = 1 → (connArms c).testBit a = true → s.chOk false = true → s.chOk true = true →
        ((connLost n s).sarm a).stoP = true ∧ ((connLost n s).sarm a).stoH = true ∧ (connLost n s).dev.stopDemand = true) := by
  obtain ⟨hconn, hbit, harms, hok⟩ := lost_spec hn
  rw [connLost_eq hup hc hkind]
  split
  case isTrue hdrive =>
    have hhalts := halts_foldl (bitsOf 8 (connArms c)) (s.lost n)
    refine ⟨?_, ?_, fun _ harm hp hh => ?_⟩
    · exact (congrArg (·.getD n.val ⟨false, none⟩) hhalts.conns).trans hconn
    · exact (congrArg (fun b => (leVal b).testBit 10) hhalts.status).trans hbit
    · exact foldl_violateBoth_stops (List.mem_filter.mpr ⟨List.mem_range.mpr a.isLt, harm⟩) (by rw [harms]; omega)
        ((hok _).trans hp) ((hok _).trans hh)
  case isFalse hother => exact ⟨hconn, hbit, fun h => absurd h hother⟩

end

end Sys2Proof.Machine
end

section
/-! SUPPORT. A channel fault as the statement of O54 has it, and the state in which there is none: SAFE_CH_FAULT without its two bytes. -/

namespace Sys2Proof.Machine

/-! ### A channel fault (R312) -/

/-- The code of a channel in the two bytes of SAFE_CH_FAULT, and that of the other one. -/
theorem num_patch_chFault {b : Bytes} (hlen : b.length = 2) (h : Bool) {code : Nat} (hcode : code < 256) :
    num (patch b (b01 h) (le 1 code)) (b01 h) 1 = code ∧ num (patch b (b01 h) (le 1 code)) (b01 (!h)) 1 = num b (b01 (!h)) 1 := by
  obtain ⟨x, y, rfl⟩ := List.length_eq_two.mp hlen
  have hbyte : (BitVec.ofNat 8 code).toNat = code := by rw [BitVec.toNat_ofNat]; exact Nat.mod_eq_of_lt hcode
  cases h
  · exact ⟨hbyte, rfl⟩
  · exact ⟨hbyte, rfl⟩

section
variable {s : State} {h : Bool} {code : Nat} (hwidth : (s.obj kSafeChFault).length = 2) (hfree : s.chFault h = 0) (hcode : code < 256)
include hwidth hcode

/-- A declared fault: its code, the other channel's code, the OK bit, and the device as it was. -/
theorem declared_spec : ((s.setChFault h code).chanRecord h code).chFault h = code ∧
    ((s.setChFault h code).chanRecord h code).chFault (!h) = s.chFault (!h) ∧
    ((s.setChFault h code).chanRecord h code).chOk h = false ∧ ((s.setChFault h code).chanRecord h code).dev = s.dev := by
  obtain ⟨hparts, hobjs⟩ := safeLog_recordOnly (s.setChFault h code) (!h) 0x0402 (le 1 code ++ [0, 0, 0] ++ le 8 (s.setChFault h code).cycle)
  have hobj : ((s.setChFault h code).chanRecord h code).obj kSafeChFault = patch (s.obj kSafeChFault) (b01 h) (le 1 code) := by
    refine (hobjs _ (by decide)).trans ?_
    rw [State.setChFault, State.obj_setBit_other _ _ _ (by decide), State.patchObj, State.obj_setObj_same]
  obtain ⟨hsame, hother⟩ := num_patch_chFault hwidth h hcode
  refine ⟨?_, ?_, ?_, hparts.2 .dev (by decide)⟩
  · rw [State.chFault, State.sub, hobj, hsame]
  · rw [State.chFault, State.chFault, State.sub, State.sub, hobj, hother]
  · have hbit : ((s.setChFault h code).chanRecord h code).chOk h = (s.setChFault h code).chOk h := hobjs.bit (by decide) _
    rw [hbit]
    exact bit_safeStatus_same _ (by cases h <;> decide) false

include hfree

/-- With the two bytes of SAFE_CH_FAULT a fault of a channel that has none is the channel fault of R312. -/
theorem channelFault_chanFault : ChannelFault h code s (s.chanFault h code) := by
  obtain ⟨hsame, hother, hok, hdev⟩ := declared_spec hwidth hcode (h := h)
  generalize hu : (s.setChFault h code).chanRecord h code = u at hsame hother hok hdev
  have hlink : ¬(s.chFault false = 8 ∧ s.chFault true = 7) := by
    rintro ⟨hp, hh⟩
    cases h
    · omega
    · omega
  rw [State.chanFault, if_neg hlink, if_neg (by simp [hfree]), hu]
  by_cases hfirst : s.chFault (!h) = 0
  · rw [if_neg (by rw [hother]; simp [hfirst])]
    exact ⟨hsame, hok, hother, fun _ => ⟨by simp only [hdev], by rw [← hdev]⟩, fun hsecond => absurd hfirst hsecond⟩
  · rw [if_pos (by rw [hother]; exact hfirst)]
    exact ⟨hsame, hok, hother, fun h => absurd h hfirst, fun _ => ⟨by rw [← hdev], by simp [hdev]⟩⟩

end

/-! ### A device without SAFE_CH_FAULT -/

/-- A running device whose SAFE_CH_FAULT has no byte in which a code could stand; no command leaves it so. -/
def codeless : State :=
  { State.reset with dev := { State.reset.dev with phase := .up }, objs := [(kSafeChFault, [])] }

/-- The watchdog of channel P expires, and the code of the channel still reads 0. -/
theorem chFault_codeless : (spWatchdogExpiry codeless).chFault false = 0 := by decide +kernel

end Sys2Proof.Machine

namespace Sys2Proof

open Machine

/-- Refutes O54: a fault code is patched into SAFE_CH_FAULT (R312), and a state may hold that object with no byte (no command writes it
so); the expired watchdog of channel P then leaves no code. With the object's two bytes the fault is as stated
(`Machine.channelFault_chanFault`). -/
theorem not_safetyInputsAndFaults : ¬ Obligations.SafetyInputsAndFaults := by
  intro h
  obtain ⟨-, -, -, -, -, -, -, -, -, hsp, -, -, -⟩ := h codeless .p
  obtain ⟨-, t, hexec, hcode, -⟩ := hsp (by decide) (by decide +kernel)
  have hnext : spWatchdogExpiry codeless = t := Host.Outcome.next.inj hexec
  rw [← hnext, chFault_codeless] at hcode
  exact absurd hcode (by decide)

end Sys2Proof
end

section
/-! SUPPORT. Safety messages: a node that takes the halves of a command, its watchdogs, and the status that the head takes (R331 to R334). -/

namespace Sys2Proof.Machine

theorem exec_safetyCommand (r : RingId) (ad : BitVec 10) (f : Frame) (own : W32) (s : State) :
    exec (.safetyCommand r ad f own) s = .next (safetyCommand r ad f own s) := rfl
theorem exec_nodeSafetyWatchdog (r : RingId) (ad : BitVec 10) (ch : SafeChan) (s : State) :
    exec (.nodeSafetyWatchdog r ad ch) s = .next (nodeSafetyWatchdog r ad ch s) := rfl
theorem exec_nodeSs1TimerExpiry (r : RingId) (ad : BitVec 10) (s : State) :
    exec (.nodeSs1TimerExpiry r ad) s = .next (nodeSs1TimerExpiry r ad s) := rfl
theorem exec_safetyStatus (f : Frame) (s : State) : exec (.safetyStatus f) s = .next (safetyStatus f s) := rfl

/-! ### Halves of a command at a node (R333) -/

section
variable (n : NodeSt) {conn own : Nat} {b : Bytes}

/-- A half with another CRC is not taken. -/
theorem takeHalf_broken (h : num b 12 4 ≠ safetyCrc (b.take 12)) (ch : Bool) (conn own : Nat) : n.takeHalf ch conn own b = n := by
  unfold NodeSt.takeHalf
  dsimp only
  exact if_pos (.inl h)

/-- The first half of channel P that is valid. -/
theorem takeHalf_first (hcrc : num b 12 4 = safetyCrc (b.take 12)) (hconn : num b 0 2 = conn) (hch : num b 2 1 = 0)
    (hnew : n.cmdP = none) (hown : num b 4 4 ≤ own) :
    n.takeHalf false conn own b = { n with cmdP := some (num b 4 4, num b 8 4), aliveP := true } := by
  simp [NodeSt.takeHalf, hcrc, hconn, hch, hnew, hown, b01]

/-- A half of channel H leaves what the node holds of channel P. -/
theorem takeHalf_channelH (conn own : Nat) (b : Bytes) : ∃ c v, n.takeHalf true conn own b = { n with cmdH := c, aliveH := v } :=
  iteInduction (motive := fun m : NodeSt => ∃ c v, m = { n with cmdH := c, aliveH := v }) (fun _ => ⟨n.cmdH, n.aliveH, rfl⟩) fun _ => ⟨_, _, rfl⟩

/-- A judgement decides over torque and the SS1 timer alone, and an STO of channel P withdraws the torque. -/
def NodeSt.Judged (n : NodeSt) (arm : Nat) (m : NodeSt) : Prop :=
  ∃ t e, m = { n with torque := t, ss1 := e } ∧ ((heldNibble n.cmdP arm).testBit 0 = true → t = false)

theorem judged_judgeSafety (arm : Nat) : n.Judged arm (n.judgeSafety arm) := by
  refine iteInduction (motive := n.Judged arm) (fun _ => ⟨false, _, rfl, fun _ => rfl⟩) fun hsto => ?_
  have hnone : ¬(heldNibble n.cmdP arm).testBit 0 = true := fun h => hsto (by simp [h])
  exact iteInduction (motive := n.Judged arm) (fun _ => ⟨_, _, rfl, fun h => absurd h hnone⟩)
    fun _ => ⟨_, _, rfl, fun h => absurd h hnone⟩

end

section
variable {s : State} {r : RingId} {ad : BitVec 10} {f : Frame} {own : W32} {c arm : Nat}

/-- What a node makes of both halves of a command. -/
def NodeSt.heard (n : NodeSt) (c arm own : Nat) (payload : Bytes) : NodeSt :=
  ((n.takeHalf false c own (slice payload 0 16)).takeHalf true c own (slice payload 16 16)).judgeSafety arm

theorem safetyCommand_eq (hconn : s.cmdConn (ringNo r) = some c) (harm : s.nodeArm r ad.toNat = some arm) :
    safetyCommand r ad f own s = s.setNode ((s.node r ad.toNat).heard c arm own.toNat f.payload) := by
  simp only [safetyCommand, hconn, harm, NodeSt.heard]

/-- A node that is replaced under its name is the only change. -/
theorem setNode_spec {n : NodeSt} (hring : n.ring = (s.node r ad.toNat).ring) (haddr : n.addr = (s.node r ad.toNat).addr) :
    (s.setNode n).node r ad.toNat = n ∧ OnlyNode r ad.toNat s (s.setNode n) := by
  obtain ⟨hr, ha⟩ := s.node_names r ad.toNat
  exact onlyNode_setNode (hring.trans hr) (haddr.trans ha) s.free

/-- A command of two broken halves leaves what the node holds. -/
theorem safetyCommand_broken (hconn : s.cmdConn (ringNo r) = some c) (harm : s.nodeArm r ad.toNat = some arm)
    (hp : num (slice f.payload 0 16) 12 4 ≠ safetyCrc ((slice f.payload 0 16).take 12))
    (hh : num (slice f.payload 16 16) 12 4 ≠ safetyCrc ((slice f.payload 16 16).take 12)) :
    ((safetyCommand r ad f own s).node r ad.toNat).cmdP = (s.node r ad.toNat).cmdP ∧
      ((safetyCommand r ad f own s).node r ad.toNat).cmdH = (s.node r ad.toNat).cmdH ∧ OnlyNode r ad.toNat s (safetyCommand r ad f own s) := by
  obtain ⟨t, e, hheard, -⟩ := judged_judgeSafety (s.node r ad.toNat) arm
  rw [safetyCommand_eq hconn harm, NodeSt.heard, takeHalf_broken _ hp, takeHalf_broken _ hh]
  obtain ⟨hnode, honly⟩ := setNode_spec (s := s) (n := (s.node r ad.toNat).judgeSafety arm) (by rw [hheard]) (by rw [hheard])
  exact ⟨by rw [hnode, hheard], by rw [hnode, hheard], honly⟩

/-- A valid first half of channel P is held, and its STO bit withdraws the torque. -/
theorem safetyCommand_first {b : Bytes} (hb : slice f.payload 0 16 = b) (hconn : s.cmdConn (ringNo r) = some c)
    (harm : s.nodeArm r ad.toNat = some arm) (hcrc : num b 12 4 = safetyCrc (b.take 12)) (hid : num b 0 2 = c) (hch : num b 2 1 = 0)
    (hnew : (s.node r ad.toNat).cmdP = none) (hown : num b 4 4 ≤ own.toNat) :
    ((safetyCommand r ad f own s).node r ad.toNat).cmdP = some (num b 4 4, num b 8 4) ∧
      ((safetyCommand r ad f own s).node r ad.toNat).aliveP = true ∧
      ((field (num b 8 4) (4 * arm) 4).testBit 0 = true → ((safetyCommand r ad f own s).node r ad.toNat).torque = false) ∧
      OnlyNode r ad.toNat s (safetyCommand r ad f own s) := by
  have hheard : ∃ k v t e, (s.node r ad.toNat).heard c arm own.toNat f.payload = { s.node r ad.toNat with
      cmdP := some (num b 4 4, num b 8 4), aliveP := true, cmdH := k, aliveH := v, torque := t, ss1 := e } ∧
      ((field (num b 8 4) (4 * arm) 4).testBit 0 = true → t = false) := by
    rw [NodeSt.heard, hb, takeHalf_first _ hcrc hid hch hnew hown]
    obtain ⟨k, v, hhalf⟩ := takeHalf_channelH { s.node r ad.toNat with cmdP := some (num b 4 4, num b 8 4), aliveP := true } c own.toNat
      (slice f.payload 16 16)
    rw [hhalf]
    obtain ⟨t, e, hjudge, hsto⟩ := judged_judgeSafety { s.node r ad.toNat with
      cmdP := some (num b 4 4, num b 8 4), aliveP := true, cmdH := k, aliveH := v } arm
    exact ⟨k, v, t, e, hjudge, hsto⟩
  obtain ⟨k, v, t, e, hheard, hsto⟩ := hheard
  rw [safetyCommand_eq hconn harm]
  obtain ⟨hnode, honly⟩ := setNode_spec (s := s) (n := (s.node r ad.toNat).heard c arm own.toNat f.payload) (by rw [hheard]) (by rw [hheard])
  exact ⟨by rw [hnode, hheard], by rw [hnode, hheard], fun h => by rw [hnode, hheard]; exact hsto h, honly⟩

/-- A node that has not heard a channel in time has no torque. -/
theorem nodeSafetyWatchdog_spec (ch : SafeChan) :
    ((nodeSafetyWatchdog r ad ch s).node r ad.toNat).torque = false ∧
      (ch = .h → ((nodeSafetyWatchdog r ad ch s).node r ad.toNat).aliveH = false) ∧
      (ch = .p → ((nodeSafetyWatchdog r ad ch s).node r ad.toNat).aliveP = false) ∧ OnlyNode r ad.toNat s (nodeSafetyWatchdog r ad ch s) := by
  cases ch
  case p =>
    obtain ⟨hnode, honly⟩ := setNode_spec (s := s) (r := r) (ad := ad) (n := { s.node r ad.toNat with aliveP := false, torque := false }) rfl rfl
    exact ⟨congrArg NodeSt.torque hnode, nofun, fun _ => congrArg NodeSt.aliveP hnode, honly⟩
  case h =>
    obtain ⟨hnode, honly⟩ := setNode_spec (s := s) (r := r) (ad := ad) (n := { s.node r ad.toNat with aliveH := false, torque := false }) rfl rfl
    exact ⟨congrArg NodeSt.torque hnode, fun _ => congrArg NodeSt.aliveH hnode, nofun, honly⟩

/-- A node whose SS1 timer runs out has no torque. -/
theorem nodeSs1TimerExpiry_spec (h : (s.node r ad.toNat).ss1 = true) :
    ((nodeSs1TimerExpiry r ad s).node r ad.toNat).torque = false ∧ OnlyNode r ad.toNat s (nodeSs1TimerExpiry r ad s) := by
  rw [nodeSs1TimerExpiry, if_pos h]
  obtain ⟨hnode, honly⟩ := setNode_spec (s := s) (r := r) (ad := ad) (n := { s.node r ad.toNat with torque := false }) rfl rfl
  exact ⟨congrArg NodeSt.torque hnode, honly⟩

end

/-! ### SAFETY_STATUS at the head (R332, R334) -/

/-- What the work after an accepted status keeps: which connections are lost, and the torque that the drives show. -/
def KeepsStatus (s t : State) : Prop :=
  (∀ i, (t.conn i).lost = (s.conn i).lost) ∧ ∀ a, (t.sarm a).torque = (s.sarm a).torque

section
variable {s t : State}

theorem KeepsStatus.refl (s : State) : KeepsStatus s s := ⟨fun _ => rfl, fun _ => rfl⟩

theorem KeepsStatus.trans {u : State} (hst : KeepsStatus s t) (htu : KeepsStatus t u) : KeepsStatus s u :=
  ⟨fun i => (htu.1 i).trans (hst.1 i), fun a => (htu.2 a).trans (hst.2 a)⟩

theorem KeepsStatus.ite {c : Prop} [Decidable c] {u : State} (ht : KeepsStatus s t) (hu : KeepsStatus s u) :
    KeepsStatus s (if c then t else u) := by split <;> assumption

theorem keepsStatus_onArm {f : SafeArm → SafeArm} (hf : ∀ x, (f x).torque = x.torque) (s : State) (a : Nat) :
    KeepsStatus s (s.onArm a f) := ⟨fun _ => rfl, sarm_onArm_keeps hf s a⟩

theorem keepsStatus_onSafe {f : StSafe → StSafe} (hconns : ∀ x, (f x).conns = x.conns) (harms : ∀ x, (f x).arms = x.arms) (s : State) :
    KeepsStatus s (s.onSafe f) :=
  ⟨fun i => congrArg (fun l => (l.getD i ⟨false, none⟩).lost) (hconns s.safe),
    fun a => congrArg (fun l => (l.getD a .reset).torque) (harms s.safe)⟩

theorem keepsStatus_openBrakes (s : State) (a : Nat) : KeepsStatus s (s.openBrakes a) := by
  unfold State.openBrakes
  split
  · exact keepsStatus_onArm (f := fun x => { x with release := .opening }) (fun _ => rfl) s a
  · exact .refl s

/-- The cover of a connection is taken away. -/
theorem keepsStatus_uncover (s : State) (n : Nat) : KeepsStatus s (s.onConn n (fun y => { y with cover := none })) := by
  refine ⟨fun i => ?_, fun _ => rfl⟩
  by_cases h : i = n
  · subst h
    by_cases hlen : i < s.safe.conns.length
    · rw [conn_onConn_same hlen]
    · have hnone (l : List ConnSt) (h : ¬i < l.length) : l.getD i ⟨false, none⟩ = ⟨false, none⟩ := by
        simp [List.getElem?_eq_none (not_lt.mp h)]
      have hlen' : ¬i < (s.onConn i (fun y => { y with cover := none })).safe.conns.length := by
        rwa [show (s.onConn i (fun y => { y with cover := none })).safe.conns.length = s.safe.conns.length from modAt_length ..]
      rw [State.conn, State.conn, hnone _ hlen, hnone _ hlen']
  · exact congrArg (fun o : Option ConnSt => (o.getD ⟨false, none⟩).lost) (getElem?_modAt_other s.safe.conns _ (Ne.symm h))

theorem keepsStatus_takeCovered (s : State) (i : Nat) : KeepsStatus s (s.takeCovered i) := by
  have hcover := keepsStatus_uncover s i
  unfold State.takeCovered
  split
  case h_1 c _ _ _ _ =>
    dsimp only
    generalize (if connRing c = 0 then RingId.m else RingId.p) = r
    refine .ite (.refl s) (.ite ?drive (hcover.trans (keepsStatus_onSafe (fun _ => by rfl) (fun _ => by rfl) _)))
    split
    · exact hcover
    · split
      · exact hcover
      · exact hcover.trans (keepsStatus_onArm (fun _ => by rfl) _ _)
  case h_2 => exact .refl s

theorem keepsStatus_btRecord (s : State) : KeepsStatus s s.btRecord := by
  unfold State.btRecord
  split
  · exact .ite (keepsStatus_onSafe (fun _ => by rfl) (fun _ => by rfl) s) (.refl s)
  · exact .refl s

theorem safetyStatus_unconnected {f : Frame} (h : s.connRecs = []) : safetyStatus f s = s := by
  unfold safetyStatus
  simp [h]

theorem bitsOf_two_pow (a : Fin 8) : bitsOf 8 (2 ^ a.val) = [a.val] := by revert a; decide

/-- The drive status of one arm over the only connection: it marks the connection heard, and the arm shows the torque that it names. -/
theorem safetyStatus_drive {f : Frame} {c : Bytes} {a : Fin 8} (harms : s.safe.arms.length = 8) (hup : s.dev.phase = .up)
    (hrecs : s.connRecs = [c]) (hkind : connKind c = 1) (hnode : connNode c = f.addr.toNat) (hring : connRing c = ringNo f.ring)
    (hslot : connSafe c = f.slot.toNat) (hid : connId c = num f.payload 0 2) (harm : connArms c = 2 ^ a.val)
    (hcrc : num f.payload 28 4 = safetyCrc (f.payload.take 28)) (hseq : num f.payload 4 4 = s.seq32) (hecho : num f.payload 8 4 = s.seq32)
    (hconns : s.safe.conns.length = 1) :
    ((safetyStatus f s).conn 0).lost = false ∧ ((safetyStatus f s).sarm a).torque = num f.payload 2 1 := by
  generalize hu : s.onConn 0 (fun _ => ⟨false, some (num f.payload 12 4, s.cycle)⟩) = u
  generalize hv : u.onArm a (fun x => { x with torque := num f.payload 2 1 }) = v
  have heq : safetyStatus f s = (((v.openBrakes a).takeCovered 0).btRecord) := by
    simp [safetyStatus, hup, hrecs, hkind, hnode, hring, hslot, hid, harm, hcrc, hseq, hecho, bitsOf_two_pow, ← hv, ← hu]
  have hkeeps := (keepsStatus_openBrakes v a).trans ((keepsStatus_takeCovered (v.openBrakes a) 0).trans (keepsStatus_btRecord _))
  rw [heq, hkeeps.1, hkeeps.2, ← hv]
  refine ⟨?_, congrArg SafeArm.torque (sarm_onArm_same ?_ _)⟩
  · rw [← hu]
    exact congrArg ConnSt.lost (conn_onConn_same (by omega) _)
  · rw [← hu]
    exact lt_of_lt_of_eq a.isLt harms.symm

end

end Sys2Proof.Machine
end

section
/-! SUPPORT. The brake test (R338, R339): its start, its comparison, and what falls due; and the download of a safety set (R343). -/

namespace Sys2Proof.Machine

theorem exec_btCompare (s : State) : exec .btCompare s = .next (btCompare s) := rfl
theorem exec_btDue (a : Fin 8) (s : State) : exec (.btDue a) s = .next (btDueAt a s) := rfl
theorem exec_btOverdue (a : Fin 8) (s : State) : exec (.btOverdue a) s = .next (btOverdue a s) := rfl
theorem exec_safeSetDl (rq : Requester) (d : Bytes) (s : State) : exec (.safeSetDl rq d) s = .next (safeSetDl rq d s) := rfl

section
variable {s : State} {a : Nat}

/-! ### The result of a test and what follows from the arms -/

/-- A result enters the arm, and a record is requested. -/
theorem btRec_spec (h : a < s.safe.arms.length) (result moved : Nat) :
    (s.btRec a result moved).safe = { s.safe with arms := modAt s.safe.arms a (fun x => { x with btLast := result }) } ∧
      (s.btRec a result moved).sarm a = { s.sarm a with btLast := result } ∧ OtherArms a s (s.btRec a result moved) ∧
      Changes [.safe, .objs, .recd] s (s.btRec a result moved) := by
  generalize hu : s.onArm a (fun x => { x with btLast := result }) = u
  have hrec : RecordOnly u (s.btRec a result moved) := hu ▸ safeLog_recordOnly _ false 0x0404 _
  have hsafe : (s.btRec a result moved).safe = u.safe := hrec.1.2 .safe (by decide)
  have harms : (s.btRec a result moved).safe.arms = u.safe.arms := congrArg StSafe.arms hsafe
  subst hu
  exact ⟨hsafe, (sarm_congr harms a).trans (sarm_onArm_same h _), (otherArms_onArm s a _).trans (.of_arms harms a),
    ((changes_onArm s a _).mono (by decide)).trans (hrec.1.mono (by decide))⟩

theorem changes_free (s : State) (k : Nat) : Changes [.free] s { s with free := k } :=
  ⟨rfl, fun p hp => by cases p <;> simp [Part.same] at hp ⊢⟩

/-- The same with a free movement. -/
theorem btRecFree_spec (h : a < s.safe.arms.length) (result : Nat) :
    (s.btRecFree a result).safe = { s.safe with arms := modAt s.safe.arms a (fun x => { x with btLast := result }) } ∧
      (s.btRecFree a result).sarm a = { s.sarm a with btLast := result } ∧ OtherArms a s (s.btRecFree a result) ∧
      Changes [.safe, .objs, .recd, .free] s (s.btRecFree a result) := by
  obtain ⟨hsafe, hsame, hother, hparts⟩ := btRec_spec (s := { s with free := s.free + 1 }) h result (Config.freeNat s.free % 2 ^ 32)
  exact ⟨hsafe, hsame, hother, ((changes_free s _).mono (by decide)).trans (hparts.mono (by decide))⟩

/-- The bits of SAFE_STATUS that follow from the arms' brake tests. -/
def State.btMarks (s : State) : State :=
  ((s.setBit kSafeStatus 11 (s.safe.arms.any SafeArm.btDue)).setBit kSafeStatus 12 (s.safe.arms.any SafeArm.btOver)).setBit kSafeStatus 13
    (s.safe.arms.any SafeArm.btFail)

theorem btMarks_bits (s : State) : s.btMarks.bit kSafeStatus 11 = s.safe.arms.any SafeArm.btDue ∧
    s.btMarks.bit kSafeStatus 12 = s.safe.arms.any SafeArm.btOver ∧ s.btMarks.bit kSafeStatus 13 = s.safe.arms.any SafeArm.btFail := by
  refine ⟨?_, ?_, bit_safeStatus_same _ (by decide) _⟩
  · rw [State.btMarks, bit_safeStatus_beside _ (by decide) (by decide), bit_safeStatus_beside _ (by decide) (by decide),
      bit_safeStatus_same _ (by decide)]
  · rw [State.btMarks, bit_safeStatus_beside _ (by decide) (by decide), bit_safeStatus_same _ (by decide)]

/-- The bits of SAFE_STATUS and the cap follow the arms. -/
theorem btBits_spec (s : State) : s.btBits.safe = s.safe ∧ s.btBits.bit kSafeStatus 11 = s.safe.arms.any SafeArm.btDue ∧
    s.btBits.bit kSafeStatus 12 = s.safe.arms.any SafeArm.btOver ∧ s.btBits.bit kSafeStatus 13 = s.safe.arms.any SafeArm.btFail ∧
    s.btBits.dev.btCap = s.safe.arms.any SafeArm.btOver := by
  have hbits (b : Nat) : s.btBits.bit kSafeStatus b = s.btMarks.bit kSafeStatus b := rfl
  obtain ⟨hdue, hover, hfail⟩ := btMarks_bits s
  exact ⟨rfl, (hbits 11).trans hdue, (hbits 12).trans hover, (hbits 13).trans hfail, rfl⟩

/-- What holds of an arm holds of one of the arms. -/
theorem any_arms (h : a < s.safe.arms.length) {p : SafeArm → Bool} (hp : p (s.sarm a) = true) : s.safe.arms.any p = true := by
  refine List.any_eq_true.mpr ⟨s.sarm a, ?_, hp⟩
  rw [State.sarm, List.getD_eq_getElem _ _ h]
  exact List.getElem_mem h

/-! ### BT_DUE and BT_OVERDUE (R339) -/

theorem btDueAt_done {a : Fin 8} (h : (s.sarm a).btDue = true) : btDueAt a s = s := if_pos h

theorem btDueAt_falls {a : Fin 8} (hlen : s.safe.arms.length = 8) (h : (s.sarm a).btDue = false) :
    ((btDueAt a s).sarm a).btDue = true ∧ (btDueAt a s).bit kSafeStatus 11 = true ∧ OtherArms a s (btDueAt a s) := by
  rw [btDueAt, if_neg (by simp [h])]
  generalize hu : s.onArm a (fun x => { x with btDue := true }) = u
  have ha : a < u.safe.arms.length := by rw [← hu, length_arms_onArm, hlen]; exact a.isLt
  have hdue : (u.sarm a).btDue = true := by rw [← hu]; exact congrArg SafeArm.btDue (sarm_onArm_same (by omega) _)
  obtain ⟨hsafe, hsame, hother, -⟩ := btRecFree_spec ha 0
  obtain ⟨hbits, hbit, -, -, -⟩ := btBits_spec (u.btRecFree a 0)
  have hdue' : ((u.btRecFree a 0).sarm a).btDue = true := (congrArg SafeArm.btDue hsame).trans hdue
  refine ⟨?_, ?_, ?_⟩
  · rw [sarm_congr (congrArg StSafe.arms hbits)]
    exact hdue'
  · rw [hbit]
    exact any_arms (by rw [hsafe, modAt_length]; exact ha) hdue'
  · subst hu
    exact ((otherArms_onArm s a _).trans hother).trans (.of_arms (congrArg StSafe.arms hbits) a)

theorem btOverdue_spec {a : Fin 8} (hlen : s.safe.arms.length = 8) :
    ((btOverdue a s).sarm a).btOver = true ∧ (btOverdue a s).bit kSafeStatus 12 = true ∧ (btOverdue a s).dev.btCap = true ∧
      OtherArms a s (btOverdue a s) := by
  rw [btOverdue]
  generalize hu : s.onArm a (fun x => { x with btOver := true }) = u
  have ha : a < u.safe.arms.length := by rw [← hu, length_arms_onArm, hlen]; exact a.isLt
  have hover : (u.sarm a).btOver = true := by rw [← hu]; exact congrArg SafeArm.btOver (sarm_onArm_same (by omega) _)
  obtain ⟨hbits, -, hbit, -, hcap⟩ := btBits_spec u
  refine ⟨hover, hbit.trans (any_arms ha hover), hcap.trans (any_arms ha hover), ?_⟩
  subst hu
  exact otherArms_onArm s a _

/-! ### BT_COMPARE (R338) -/

/-- The movement of every braked joint stays within its limit. -/
def State.btPass (s : State) (a : Nat) (q0 : List Int) : Bool :=
  (s.braked a).all (fun j => decide (((s.sarm a).counts.getD j 0 - q0.getD j 0).natAbs ≤ s.armPar a (176 + 4 * j) 4))

/-- An arm after its comparison. -/
def SafeArm.compared (pass : Bool) (x : SafeArm) : SafeArm :=
  let x := { x.stoBoth with btFail := !pass }
  if pass then { x with btTime := 0, btDue := false, btOver := false } else x

theorem SafeArm.compared_sto (pass : Bool) (x : SafeArm) : (x.compared pass).stoP = true ∧ (x.compared pass).stoH = true := by
  cases pass
  · exact ⟨rfl, rfl⟩
  · exact ⟨rfl, rfl⟩

theorem btCompare_idle (h : s.safe.bt = none) : btCompare s = s := by simp only [btCompare, h]

/-- No test runs any more, and the outputs follow. -/
def State.btEnded (s : State) : State := (s.onSafe (fun x => { x with bt := none })).drive

theorem btEnded_spec (s : State) (a b : Nat) : s.btEnded.safe.bt = none ∧ s.btEnded.sarm a = s.sarm a ∧
    s.btEnded.bit kSafeStatus b = s.bit kSafeStatus b := ⟨rfl, rfl, rfl⟩

theorem btCompare_last {b : BtRun} {q0 : List Int} (hbt : s.safe.bt = some b) (hrest : b.rest = 0) (hq0 : b.recorded = some q0) :
    ∃ largest, btCompare s = ((s.btRec b.arm (if s.btPass b.arm q0 then 1 else 2) largest).onArm b.arm
      (SafeArm.compared (s.btPass b.arm q0))).btBits.btEnded := by
  refine ⟨(((s.braked b.arm).map fun j => ((s.sarm b.arm).counts.getD j 0 - q0.getD j 0).natAbs)).foldl max 0, ?_⟩
  simp only [btCompare, hbt, hq0, hrest, show bitsOf 8 0 = [] from rfl, State.btStart]
  rfl

/-- The end of a brake test: STO again, and its result. -/
theorem btCompare_spec {a : Fin 8} {b : BtRun} {q0 : List Int} (hlen : s.safe.arms.length = 8) (hbt : s.safe.bt = some b) (harm : b.arm = a.val)
    (hrest : b.rest = 0) (hq0 : b.recorded = some q0) :
    (btCompare s).safe.bt = none ∧
      (btCompare s).sarm a = SafeArm.compared (s.btPass a q0) { s.sarm a with btLast := if s.btPass a q0 then 1 else 2 } ∧
      (s.btPass a q0 = false → (btCompare s).bit kSafeStatus 13 = true) := by
  obtain ⟨largest, heq⟩ := btCompare_last hbt hrest hq0
  rw [harm] at heq
  rw [heq]
  have ha : a < s.safe.arms.length := lt_of_lt_of_eq a.isLt hlen.symm
  obtain ⟨hsafe, hsame, -, -⟩ := btRec_spec ha (if s.btPass a q0 then 1 else 2) largest
  generalize s.btRec a (if s.btPass a q0 then 1 else 2) largest = u at hsafe hsame ⊢
  have hu : a < u.safe.arms.length := by rw [hsafe, modAt_length]; exact ha
  have hcompared := sarm_onArm_same hu (SafeArm.compared (s.btPass a q0))
  have hw : a < (u.onArm a (SafeArm.compared (s.btPass a q0))).safe.arms.length := by rwa [length_arms_onArm]
  generalize u.onArm a (SafeArm.compared (s.btPass a q0)) = w at hcompared hw ⊢
  obtain ⟨hbits, -, -, hfailed, -⟩ := btBits_spec w
  obtain ⟨hnone, harms, hbit⟩ := btEnded_spec w.btBits a 13
  refine ⟨hnone, ?_, fun hfail => (hbit.trans hfailed).trans (any_arms hw ?_)⟩
  · rw [harms, sarm_congr (congrArg StSafe.arms hbits), hcompared, hsame]
  · rw [hcompared, hfail]
    rfl

/-! ### SAFE_BT_CMD at its apply cycle (R338, R389) -/

theorem writeEff_safeBtCmd {key : Nat} (hkey : key = objKey 0x7000 0x0D) (rq : Requester) (v : Bytes) (s : State) :
    writeEff rq (keyIndex key) (keySub key) v s = safeBtEff v s := by subst hkey; rfl

theorem mayStage_safeBtCmd : mayStage (objKey 0x7000 0x0D) = false := by decide

/-- The command for one present arm. -/
theorem safeBtEff_one {a : Fin 8} {v : Bytes} (hv : leVal v = 2 ^ a.val) (hready : s.dev.state = .ready) (hbt : s.safe.bt = none)
    (hpresent : s.n (kArmNj a) ≠ 0) : safeBtEff v s = s.btStart [a.val] := by
  simp [safeBtEff, hready, hbt, hv, bitsOf_two_pow, hpresent]

/-- An arm whose test begins. -/
def SafeArm.freed (x : SafeArm) : SafeArm := { x with stoP := false, stoH := false, torque := 0 }

theorem btStart_eq (h : s.stopping = false) (a : Nat) :
    s.btStart [a] = ((s.onArm a SafeArm.freed).onSafe (fun x => { x with bt := some ⟨a, 0, none⟩ })).drive := if_neg (by simp [h])

/-- The test of an arm begins: STO is cleared for it alone. -/
theorem btStart_begins {a : Fin 8} (hlen : s.safe.arms.length = 8) (h : s.stopping = false) :
    (s.btStart [a.val]).safe.bt = some ⟨a.val, 0, none⟩ ∧ ((s.btStart [a.val]).sarm a).stoP = false ∧
      ((s.btStart [a.val]).sarm a).stoH = false ∧ OtherArms a s (s.btStart [a.val]) ∧ (s.btStart [a.val]).objs = s.objs ∧
      Changes [.safe] s (s.btStart [a.val]) := by
  have harm := sarm_onArm_same (s := s) (a := a) (by omega) SafeArm.freed
  have hother := otherArms_onArm s a SafeArm.freed
  have hparts := changes_onArm s a SafeArm.freed
  have hobjs : (s.onArm a SafeArm.freed).objs = s.objs := rfl
  rw [btStart_eq h]
  generalize s.onArm a SafeArm.freed = u at harm hother hparts hobjs ⊢
  exact ⟨rfl, congrArg SafeArm.stoP harm, congrArg SafeArm.stoH harm, hother, hobjs,
    hparts.trans ((changes_onSafe u _).trans (changes_drive _))⟩

/-- While a channel demands a stop the test counts as not performed. -/
theorem btStart_stopping {a : Fin 8} (hlen : s.safe.arms.length = 8) (h : s.stopping = true) :
    (s.btStart [a.val]).safe.bt = none ∧ ((s.btStart [a.val]).sarm a).stoP = (s.sarm a).stoP ∧
      ((s.btStart [a.val]).sarm a).stoH = (s.sarm a).stoH ∧ ((s.btStart [a.val]).sarm a).btLast = 3 ∧ OtherArms a s (s.btStart [a.val]) ∧
      Changes [.safe, .objs, .recd, .free] s (s.btStart [a.val]) := by
  rw [State.btStart, if_pos h]
  generalize hu : s.onSafe (fun x => { x with bt := none }) = u
  have ha : a < u.safe.arms.length := by rw [← hu]; exact lt_of_lt_of_eq a.isLt hlen.symm
  obtain ⟨hsafe, hsame, hother, hparts⟩ := btRecFree_spec ha 3
  have hdrive : ((u.btRecFree a 3).drive).sarm a = { u.sarm a with btLast := 3 } := hsame
  subst hu
  refine ⟨congrArg StSafe.bt hsafe, ?_, ?_, ?_, hother, ?_⟩
  · rw [hdrive]; rfl
  · rw [hdrive]; rfl
  · rw [hdrive]
  · exact ((changes_onSafe s _).mono (by decide)).trans (hparts.trans ((changes_drive _).mono (by decide)))

end

/-! ### SAFE_SET_DL (R343) -/

section
variable {rq : Requester} {index sub : Nat} {v : Bytes} {own : State → Nat} {s : State}

/-- A write whose answer comes later takes effect at once where no cycle start is waited for. -/
theorem submitWrite_pending (hserved : s.served rq = true) (hcheck : writeCheck s rq index sub v = 0)
    (hblock : s.blockFailed index sub = false) (hown : own s = resPending) (hdirect : Direct index sub s) (eff : State → State) :
    ∃ x g, submitWrite rq index sub v own eff s = (eff { s with dict := x }).onPair g := by
  obtain ⟨r, hrow⟩ := objRow?_of_writeCheck hcheck
  generalize hx : ((s.answer rq resPending).closeReads index sub).dict = x
  have hu : (s.answer rq resPending).closeReads index sub = { s with dict := x } := by rw [← hx]; rfl
  have hstaging : staging { s with dict := x } r = false := hdirect.2 r hrow
  have hdefer : deferring { s with dict := x } (objKey index sub) = false := deferring_of_direct hdirect _
  have hwrite : submitWrite rq index sub v own eff s =
      if rq = .partner ∨ isAccessWrite (objKey index sub) ∨ objKey index sub = kDevCmd then eff { s with dict := x }
      else (eff { s with dict := x }).forward (eff { s with dict := x }).applyCycle (writeMsgBytes index sub v) := by
    simp only [submitWrite, hserved, hcheck, hblock, hown, hrow, hu, hstaging, hdefer, Bool.not_true, Bool.false_eq_true, if_false, if_true,
      ne_eq, not_true_eq_false, and_false]
  refine ⟨x, ?_⟩
  rw [hwrite]
  split
  · exact ⟨id, rfl⟩
  · obtain ⟨g, -, hforward⟩ := (eff { s with dict := x }).forward_traffic _ _
    exact ⟨g, hforward⟩

theorem direct_safeSetDl {s : State} (h : s.dev.state = .service) : Direct 0x7000 0x08 s :=
  ⟨by simp [State.isIn, h], fun r _ => by simp [staging, h]⟩

/-- A safety set in SERVICE: a signature that fails and a set that is not valid are refused, and an accepted set waits for the flash. -/
theorem safeSetDl_service {d : Bytes} (hserved : s.served rq = true) (hcheck : writeCheck s rq 0x7000 0x08 d = 0)
    (hblock : s.blockFailed 0x7000 0x08 = false) (hservice : s.dev.state = .service) (hflash : s.sec.flashOp = none)
    (hatt : s.sec.attNonce = none) :
    (s.sec.verify "CX864-SET" 1 ownerSigners d = false → safeSetDl rq d s = s.answer rq abSignature) ∧
      (s.sec.verify "CX864-SET" 1 ownerSigners d = true → setOk (setBody d) = false → safeSetDl rq d s = s.answer rq abRange) ∧
      (s.sec.verify "CX864-SET" 1 ownerSigners d = true → setOk (setBody d) = true → ∃ x g,
        safeSetDl rq d s = (safeSetEff rq d { s with dict := x }).onPair g) := by
  have hnow : safeSetDl rq d s = submitWrite rq 0x7000 0x08 d (safeSetOwn d) (safeSetEff rq d) s := if_neg (by simp [hatt])
  have hstate : s.isIn [.inert, .config, .service] = true := by simp [State.isIn, hservice]
  rw [hnow]
  refine ⟨fun hsig => ?_, fun hsig hset => ?_, fun hsig hset => ?_⟩
  · have hown : safeSetOwn d s = abSignature := by simp [safeSetOwn, hstate, hflash, hsig]
    exact submitWrite_refused hserved hcheck hblock hown (by decide) (by decide) (by decide) (by decide) _
  · have hown : safeSetOwn d s = abRange := by simp [safeSetOwn, hstate, hflash, hsig, hset]
    exact submitWrite_refused hserved hcheck hblock hown (by decide) (by decide) (by decide) (by decide) _
  · have hown : safeSetOwn d s = resPending := by simp [safeSetOwn, hstate, hflash, hsig, hset]
    exact submitWrite_pending hserved hcheck hblock hown (direct_safeSetDl hservice) _

end

end Sys2Proof.Machine
end

section
/-! SUPPORT. SAFETY_CHECK_TICK (R312 to R318): what the checks of an instant read, the channel fault of the exchange, and SS1 of one arm. -/

namespace Sys2Proof.Machine

theorem exec_safetyCheckTick (p h : Bool) (s : State) : exec (.safetyCheckTick p h) s = .next (safetyCheckTick p h s).torqueCheck := rfl

/-! ### Channel faults (R312) -/

/-- The objects that a channel fault and its record write. -/
def faultKeys : List Nat := [kSafeChFault, kSafeStatus, kRecStatus, kRecDrops]

/-- What a channel fault changes: its objects, the recorder, and the faults that wait for their evaluation. -/
def FaultOnly (s t : State) : Prop :=
  Changes [.dev, .objs, .recd] s t ∧ ChangesObjs faultKeys s t ∧ t.dev.state = s.dev.state

section
variable {s t u : State}

theorem FaultOnly.refl (s : State) : FaultOnly s s := ⟨.refl _ s, .refl _ s, rfl⟩

theorem FaultOnly.trans (hst : FaultOnly s t) (htu : FaultOnly t u) : FaultOnly s u := by
  obtain ⟨hparts, hobjs, hstate⟩ := hst
  obtain ⟨hparts', hobjs', hstate'⟩ := htu
  exact ⟨hparts.trans hparts', hobjs.trans hobjs', hstate'.trans hstate⟩

theorem FaultOnly.ite {c : Prop} [Decidable c] (ht : FaultOnly s t) (hu : FaultOnly s u) : FaultOnly s (if c then t else u) := by
  split <;> assumption

theorem faultOnly_setObj {k : Nat} (hk : k ∈ faultKeys) (s : State) (v : Bytes) : FaultOnly s (s.setObj k v) :=
  ⟨(changes_setObj s k v).mono (by decide), (changesObjs_setObj s k v).mono (by simpa using hk), rfl⟩

theorem faultOnly_chanRecord (s : State) (h : Bool) (code : Nat) : FaultOnly s (s.chanRecord h code) := by
  obtain ⟨hparts, hobjs⟩ := safeLog_recordOnly s (!h) 0x0402 (le 1 code ++ [0, 0, 0] ++ le 8 s.cycle)
  exact ⟨hparts.mono (by decide), hobjs.mono (by decide), congrArg StDev.state (hparts.2 .dev (by decide))⟩

theorem faultOnly_declared (s : State) (h : Bool) (code : Nat) : FaultOnly s ((s.setChFault h code).chanRecord h code) :=
  ((faultOnly_setObj (by decide) s _).trans (faultOnly_setObj (by decide) _ _)).trans (faultOnly_chanRecord _ h code)

/-- Faults that wait for the evaluation. -/
theorem faultOnly_waits (s : State) (d : List DevFault) (c : List (Bool × Nat)) :
    FaultOnly s { s with dev := { s.dev with deviceFaults := d, chanFaults := c } } :=
  ⟨⟨rfl, fun p hp => by cases p <;> simp [Part.same] at hp ⊢⟩, .of_objs rfl _, rfl⟩

theorem faultOnly_chanFault (s : State) (h : Bool) (code : Nat) : FaultOnly s (s.chanFault h code) := by
  have hdeclared := faultOnly_declared s h code
  unfold State.chanFault
  dsimp only
  exact .ite (.ite (.refl s) (hdeclared.trans (faultOnly_waits _ _ _)))
    (.ite (.refl s) (.ite (hdeclared.trans (faultOnly_waits _ _ _)) (hdeclared.trans (faultOnly_waits _ _ _))))

end

/-! ### What the checks read -/

/-- Two states agree in what an arm's checks of SS1 and SLS decide by, its own record apart. -/
structure ChecksAgree (s t : State) : Prop where
  state : t.dev.state = s.dev.state
  time : t.time = s.time
  contacts : ∀ h i, t.contact h i = s.contact h i
  switches : t.swInForce = s.swInForce
  objs : ChangesObjs faultKeys s t

section
variable {s t : State}

theorem FaultOnly.checksAgree (h : FaultOnly s t) : ChecksAgree s t := by
  obtain ⟨⟨-, hparts⟩, hobjs, hstate⟩ := h
  have hsafe : t.safe = s.safe := hparts .safe (by decide)
  exact ⟨hstate, hparts .time (by decide), fun h i => by rw [State.contact, State.contact, hsafe],
    by rw [State.swInForce, State.swInForce, hsafe], hobjs⟩

theorem ChecksAgree.trans {u : State} (hst : ChecksAgree s t) (htu : ChecksAgree t u) : ChecksAgree s u :=
  ⟨htu.state.trans hst.state, htu.time.trans hst.time, fun h i => (htu.contacts h i).trans (hst.contacts h i),
    htu.switches.trans hst.switches, hst.objs.trans htu.objs⟩

theorem checksAgree_onArm (s : State) (a : Nat) (f : SafeArm → SafeArm) : ChecksAgree s (s.onArm a f) :=
  ⟨rfl, rfl, fun _ _ => rfl, rfl, .of_objs rfl _⟩

theorem SafeArm.speeds_congr {x y : SafeArm} (h : y.meas = x.meas) : y.speeds = x.speeds := by rw [SafeArm.speeds, SafeArm.speeds, h]

section
variable (h : ChecksAgree s t)
include h

theorem ChecksAgree.armPar {a : Fin 8} (off n : Nat) : t.armPar a off n = s.armPar a off n :=
  congrArg (num · off n) (h.objs (kSafeArm a) (by revert a; decide))

theorem ChecksAgree.inField (i off : Nat) : t.inField i off = s.inField i off :=
  congrArg (num · (8 * i + off) 1) (h.objs kSafeInCfg (by decide))

theorem ChecksAgree.inputs (f : Nat) : t.inputs f = s.inputs f := by simp only [State.inputs, State.inFunc, h.inField]

theorem ChecksAgree.anyDemand (i : Nat) : t.anyDemand i = s.anyDemand i := by
  simp only [State.anyDemand, State.inDemand, State.contactDemand, h.inField, h.contacts, h.objs.bit (show kSafeInFault ∉ faultKeys by decide)]

theorem ChecksAgree.automatic : t.automatic = s.automatic := by
  simp only [State.automatic, State.swBit, h.inputs, h.anyDemand, h.switches]

theorem ChecksAgree.slsLimits (a : Fin 8) : t.slsLimits a = s.slsLimits a := by
  simp only [State.slsLimits, h.automatic, h.armPar, h.state, h.inputs, h.anyDemand, h.inField]

theorem ChecksAgree.still (a : Fin 8) : t.still a = s.still a := funext fun _ => h.armPar _ _

theorem ChecksAgree.atRest {a : Fin 8} (hmeas : (t.sarm a).meas = (s.sarm a).meas) : t.atRest a = s.atRest a := by
  rw [State.atRest, State.atRest, SafeArm.speeds_congr hmeas, hmeas, h.still]

theorem ChecksAgree.inEnv {a : Fin 8} (hmeas : (t.sarm a).meas = (s.sarm a).meas) (e : Env) :
    t.inEnv a e (t.still a) = s.inEnv a e (s.still a) := by
  have hns : t.cellNs = s.cellNs := by rw [State.cellNs, State.cellNs, h.time]
  have hstop : t.tStop a = s.tStop a := by rw [State.tStop, State.tStop, h.armPar]
  rw [State.inEnv, State.inEnv, SafeArm.speeds_congr hmeas, h.still, hns, hstop]

end
end

/-! ### The exchange of the images (R312) -/

/-- The state that the checks of an instant find when both images have come. -/
def State.imagesHeard (s : State) : State := s.dropViolations.exchange true true

section
variable {s : State} {a : Nat}

/-- The exchanges without an image count from 0 again. -/
def State.imagesCounted (s : State) : State := s.dropViolations.onSafe (fun x => { x with missP := 0, missH := 0 })

theorem imagesHeard_fault (s : State) : FaultOnly s.imagesCounted s.imagesHeard :=
  FaultOnly.ite (faultOnly_chanFault s.imagesCounted false 9) (.refl _)

theorem checksAgree_imagesHeard (s : State) : ChecksAgree s s.imagesHeard :=
  ChecksAgree.trans (t := s.imagesCounted) ⟨rfl, rfl, fun _ _ => rfl, rfl, .of_objs rfl _⟩ (imagesHeard_fault s).checksAgree

/-- Beside the demands that stand for one check an arm is as it was. -/
theorem sarm_imagesHeard (h : a < s.safe.arms.length) : ∃ p q, s.imagesHeard.sarm a = { s.sarm a with demP := p, demH := q } := by
  have hsafe : s.imagesHeard.safe = s.imagesCounted.safe := (imagesHeard_fault s).1.2 .safe (by decide)
  have hcounted : s.imagesCounted.sarm a = s.dropViolations.sarm a := rfl
  rw [sarm_congr (congrArg StSafe.arms hsafe), hcounted, State.dropViolations, sarm_onArms h]
  exact ⟨_, _, rfl⟩

theorem length_arms_imagesHeard (s : State) : s.imagesHeard.safe.arms.length = s.safe.arms.length := by
  have hsafe : s.imagesHeard.safe = s.imagesCounted.safe := (imagesHeard_fault s).1.2 .safe (by decide)
  have hcounted : s.imagesCounted.safe.arms = s.dropViolations.safe.arms := rfl
  rw [hsafe, hcounted]
  exact length_arms_onArms s _

theorem arms_imagesHeard (s : State) : s.imagesHeard.arms = s.arms := by
  have hkeys : ∀ i < 8, kArmNj i ∉ faultKeys := by decide
  refine List.filter_congr fun i hi => ?_
  rw [(checksAgree_imagesHeard s).objs.n (hkeys i (List.mem_range.mp hi))]

/-! ### The checks of one arm -/

/-- What the checks after that of SS1 keep: an arm's STO and brakes, and the objects but SAFE_STATUS. -/
def KeepsStop (s t : State) : Prop :=
  (∀ a, (t.sarm a).stoP = (s.sarm a).stoP ∧ (t.sarm a).stoH = (s.sarm a).stoH ∧ (t.sarm a).closing = (s.sarm a).closing ∧
    (t.sarm a).release = (s.sarm a).release) ∧ ChangesObjs [kSafeStatus] s t

theorem KeepsStop.trans {t u : State} (hst : KeepsStop s t) (htu : KeepsStop t u) : KeepsStop s u := by
  refine ⟨fun a => ?_, hst.2.trans htu.2⟩
  obtain ⟨hp, hh, hclosing, hrelease⟩ := htu.1 a
  rw [hp, hh, hclosing, hrelease]
  exact hst.1 a

theorem KeepsStop.ite {c : Prop} [Decidable c] {t u : State} (ht : KeepsStop s t) (hu : KeepsStop s u) : KeepsStop s (if c then t else u) := by
  split <;> assumption

theorem keepsStop_onArm {f : SafeArm → SafeArm} (hp : ∀ x, (f x).stoP = x.stoP) (hh : ∀ x, (f x).stoH = x.stoH)
    (hclosing : ∀ x, (f x).closing = x.closing) (hrelease : ∀ x, (f x).release = x.release) (s : State) (a : Nat) :
    KeepsStop s (s.onArm a f) :=
  ⟨fun b => ⟨sarm_onArm_keeps hp s a b, sarm_onArm_keeps hh s a b, sarm_onArm_keeps hclosing s a b, sarm_onArm_keeps hrelease s a b⟩,
    .of_objs rfl _⟩

/-- Where no limit holds, and where SLS begins now, SLS finds nothing. -/
theorem checkSls_free (h : s.slsLimits a = [] ∨ (s.sarm a).slsEnv = none) : ∃ e : SafeArm → Option Env,
    s.checkSls a = s.onArm a (fun x => { x with slsEnv := e x }) := by
  unfold State.checkSls
  dsimp only
  by_cases hlimits : s.slsLimits a = []
  · exact ⟨fun _ => none, if_pos (by rw [hlimits]; rfl)⟩
  · obtain h | h := h
    · exact absurd h hlimits
    · have hfull : ¬(s.slsLimits a).isEmpty = true := by simpa using hlimits
      rw [h, if_neg hfull]
      exact ⟨fun x => some ⟨s.cellNs, x.speeds ++ (List.range 16).map (fun i => s.sphereSpeed a i)⟩, rfl⟩

theorem keepsStop_checkSls (h : s.slsLimits a = [] ∨ (s.sarm a).slsEnv = none) : KeepsStop s (s.checkSls a) := by
  obtain ⟨e, he⟩ := checkSls_free h
  rw [he]
  exact keepsStop_onArm (fun _ => by rfl) (fun _ => by rfl) (fun _ => by rfl) (fun _ => by rfl) s a

/-- The verdicts of the separation check in an arm. -/
def SafeArm.judged (p q : Bool) (e : Env) (x : SafeArm) : SafeArm :=
  let x := { x with verdP := p, verdH := q }
  if (p || q) && !x.armStop then { x with armStop := true, stopEnv := some e } else x

theorem SafeArm.judged_keeps {β : Type} {g : SafeArm → β} (hverd : ∀ x p q, g { x with verdP := p, verdH := q } = g x)
    (hstop : ∀ x e, g { x with armStop := true, stopEnv := e } = g x) (p q : Bool) (e : Env) (x : SafeArm) : g (x.judged p q e) = g x := by
  unfold SafeArm.judged
  dsimp only
  split
  · exact (hstop _ _).trans (hverd x p q)
  · exact hverd x p q

theorem keepsStop_checkSeparation (s : State) (a : Nat) : KeepsStop s (s.checkSeparation a) := by
  have hjudged (f : SafeArm → SafeArm) (hf : ∀ x, ∃ p q e, f x = x.judged p q e) : KeepsStop s (s.onArm a f) := by
    refine keepsStop_onArm ?_ ?_ ?_ ?_ s a
    all_goals
      intro x
      obtain ⟨p, q, e, h⟩ := hf x
      rw [h]
      exact SafeArm.judged_keeps (fun _ _ _ => rfl) (fun _ _ => rfl) p q e x
  have hmotion (u : State) (m : StMotion) : KeepsStop u { u with motion := m } := ⟨fun _ => ⟨rfl, rfl, rfl, rfl⟩, .of_objs rfl _⟩
  unfold State.checkSeparation
  dsimp only
  exact .ite ((hjudged _ fun x => ⟨_, _, _, by rfl⟩).trans (hmotion _ _)) (hjudged _ fun x => ⟨_, _, _, by rfl⟩)

theorem checkHold_none (h : (s.sarm a).holdEnv = none) : s.checkHold a = s := by simp only [State.checkHold, h]

theorem checkArmStop_none (h : (s.sarm a).stopEnv = none) : s.checkArmStop a = s := by simp only [State.checkArmStop, h]

/-- The checks of an instant for one arm. -/
def State.checkArm (s : State) (a : Nat) : State := ((((s.checkSs1 a).checkHold a).checkArmStop a).checkSls a).checkSeparation a

/-- After SS1 has changed an arm by `f`, which leaves it no other envelope, the further checks keep its STO and its brakes. -/
theorem keepsStop_checkArm {a : Fin 8} {f : SafeArm → SafeArm} (hss1 : s.checkSs1 a = s.onArm a f)
    (hhold : (f (s.sarm a)).holdEnv = none) (hstop : (f (s.sarm a)).stopEnv = none)
    (hsls : s.slsLimits a = [] ∨ (f (s.sarm a)).slsEnv = none) (hlen : a < s.safe.arms.length) : KeepsStop (s.onArm a f) (s.checkArm a) := by
  have harm := sarm_onArm_same hlen f
  have hheld : ((s.onArm a f).checkHold a).checkArmStop a = s.onArm a f := by
    rw [checkHold_none (by rw [harm]; exact hhold), checkArmStop_none (by rw [harm]; exact hstop)]
  have hlimits : (s.onArm a f).slsLimits a = [] ∨ ((s.onArm a f).sarm a).slsEnv = none := by
    rw [(checksAgree_onArm s a f).slsLimits, harm]
    exact hsls
  rw [State.checkArm, hss1, hheld]
  exact (keepsStop_checkSls hlimits).trans (keepsStop_checkSeparation _ a)

/-! ### An instant with one arm in SS1 (R315) -/

/-- The end of an instant. -/
def State.checksEnd (s : State) : State := s.armStopBit.drive.kerbInject

theorem keepsStop_checksEnd (s : State) : KeepsStop s s.checksEnd :=
  ⟨fun _ => ⟨rfl, rfl, rfl, rfl⟩, changesObjs_setBit s kSafeStatus 15 _⟩

theorem sarm_torqueCheck (s : State) (a : Nat) : s.torqueCheck.sarm a = s.sarm a :=
  sarm_congr (congrArg StSafe.arms ((axisWork_torqueCheck s).1.2 .safe (by decide))) a

theorem shedStandstill_idle (h : s.n kShedStage = 0) : s.shedStandstill = s := if_pos (.inl (by omega))

theorem safetyCheckTick_one {a : Nat} (hup : s.dev.phase = .up) (harms : s.arms = [a])
    (hshed : ((s.imagesHeard.checkArm a).checksEnd).n kShedStage = 0) :
    safetyCheckTick true true s = (s.imagesHeard.checkArm a).checksEnd := by
  have hchecks : s.safetyChecks true true = (s.imagesHeard.arms.foldl State.checkArm s.imagesHeard).armStopBit.drive :=
    if_neg (by simp [hup])
  rw [safetyCheckTick, if_neg (by simp [hup]), hchecks, arms_imagesHeard, harms]
  exact shedStandstill_idle hshed

section
variable {a : Fin 8} (hlen : s.safe.arms.length = 8) (hup : s.dev.phase = .up) (harms : s.arms = [a.val]) (hshed : s.n kShedStage = 0)
  (hhold : (s.sarm a).holdEnv = none) (hstop : (s.sarm a).stopEnv = none) (hsls : s.slsLimits a = [] ∨ (s.sarm a).slsEnv = none)
include hlen hup harms hshed hhold hstop hsls

/-- The instant leaves the arm's STO and brakes as its check of SS1 does. -/
theorem safetyCheckTick_keeps {f : SafeArm → SafeArm} (hcheck : s.imagesHeard.checkSs1 a = s.imagesHeard.onArm a f)
    (hf : ∀ x, x.holdEnv = none → x.stopEnv = none → (f x).holdEnv = none ∧ (f x).stopEnv = none ∧ (f x).slsEnv = x.slsEnv) :
    KeepsStop (s.imagesHeard.onArm a f) (safetyCheckTick true true s) := by
  obtain ⟨p, q, harm⟩ := sarm_imagesHeard (s := s) (a := a) (by omega)
  obtain ⟨hhold', hstop', hsls'⟩ := hf (s.imagesHeard.sarm a) (by rw [harm]; exact hhold) (by rw [harm]; exact hstop)
  have hfree : s.imagesHeard.slsLimits a = [] ∨ (f (s.imagesHeard.sarm a)).slsEnv = none := by
    rw [(checksAgree_imagesHeard s).slsLimits, hsls', harm]
    exact hsls
  have hkeeps := (keepsStop_checkArm hcheck hhold' hstop' hfree (by rw [length_arms_imagesHeard]; omega)).trans (keepsStop_checksEnd _)
  have hstage : ((s.imagesHeard.checkArm a).checksEnd).n kShedStage = s.n kShedStage :=
    (hkeeps.2.n (by decide)).trans ((checksAgree_imagesHeard s).objs.n (by decide))
  rwa [safetyCheckTick_one hup harms (hstage.trans hshed)]

variable {e : Env} (hss1 : (s.sarm a).ss1 = some e) (hclosing : (s.sarm a).closing = false) (hmeas : (s.sarm a).meas.isSome = true)
include hss1 hclosing hmeas

/-- An arm in SS1 that has come to rest has its brakes closed; one that has left its envelope has STO. -/
theorem safetyCheckTick_ss1 (t : State) (ht : t = (safetyCheckTick true true s).torqueCheck) :
    (s.atRest a = true → (t.sarm a).closing = true ∧ (t.sarm a).release = .applied) ∧
      (s.atRest a = false → s.inEnv a e (s.still a) = false → (t.sarm a).stoP = true ∧ (t.sarm a).stoH = true) := by
  have hagree := checksAgree_imagesHeard s
  have hlen' : a < s.imagesHeard.safe.arms.length := by rw [length_arms_imagesHeard]; omega
  obtain ⟨p, q, harm⟩ := sarm_imagesHeard (s := s) (a := a) (by omega)
  have hmeas' : (s.imagesHeard.sarm a).meas = (s.sarm a).meas := by rw [harm]
  have hruns : ¬((s.imagesHeard.sarm a).closing ∨ (s.imagesHeard.sarm a).meas.isNone) := by
    rw [harm]
    simp [hclosing, Option.isSome_iff_ne_none.mp hmeas]
  have hss1' : (s.imagesHeard.sarm a).ss1 = some e := by rw [harm]; exact hss1
  have hcheck : s.imagesHeard.checkSs1 a = if s.atRest a then s.imagesHeard.onArm a (fun x => { x with closing := true, release := .applied })
      else if s.inEnv a e (s.still a) then s.imagesHeard else s.imagesHeard.onArm a SafeArm.stoBoth := by
    rw [State.checkSs1, hss1', ← hagree.atRest hmeas', ← hagree.inEnv hmeas']
    exact if_neg hruns
  rw [ht, sarm_torqueCheck]
  constructor
  · intro hrest
    have hkeeps := safetyCheckTick_keeps hlen hup harms hshed hhold hstop hsls (hcheck.trans (if_pos hrest)) fun _ h h' => ⟨h, h', rfl⟩
    obtain ⟨-, -, hc, hr⟩ := hkeeps.1 a
    rw [hc, hr, sarm_onArm_same hlen']
    exact ⟨rfl, rfl⟩
  · intro hmoves hout
    have hsto : s.imagesHeard.checkSs1 a = s.imagesHeard.onArm a SafeArm.stoBoth := by simp [hcheck, hmoves, hout]
    have hkeeps := safetyCheckTick_keeps hlen hup harms hshed hhold hstop hsls hsto fun _ _ _ => ⟨rfl, rfl, rfl⟩
    obtain ⟨hp, hh, -, -⟩ := hkeeps.1 a
    rw [hp, hh, sarm_onArm_same hlen']
    exact ⟨rfl, rfl⟩

end

end

end Sys2Proof.Machine

namespace Sys2Proof

open Machine

/-- Settles O55: each command has its law above; an instant with one arm in SS1 is the exchange, the checks of that arm, and an end that
keeps its brakes. -/
theorem safetyStops : Obligations.SafetyStops := by
  intro s a hlen x others
  have ha : a.val < s.safe.arms.length := by omega
  refine ⟨fun e hup harms hshed hss1 hclosing hmeas hhold hstop hsls => ?ss1,
    fun h => ⟨_, exec_brakeCloseExpiry a s, ?closes⟩, fun h => ⟨_, exec_brakeCloseExpiry a s, brakeCloseExpiry_idle h⟩,
    fun hss1 hclosing => ⟨_, exec_ss1TmaxExpiry a s, ?tmax⟩, fun h => ⟨_, exec_ss1TmaxExpiry a s, ss1TmaxExpiry_idle h⟩,
    fun hstop hp hh => ⟨_, exec_armStopClear a s, armStopClear_clears hlen hstop hp hh⟩,
    fun h => ⟨_, exec_armStopClear a s, armStopClear_idle h⟩,
    fun h => ⟨_, exec_brakeOpenExpiry a s, brakeOpenExpiry_opens hlen h⟩,
    fun h => ⟨_, exec_brakeReleaseTimeout a s, brakeReleaseTimeout_ends hlen h⟩,
    fun n c hup hc hkind hn => ⟨_, exec_connLost n s, connLost_spec hlen hup hc hkind hn⟩,
    fun r ad f own c arm hconn harm => ⟨fun hp hh => ⟨_, exec_safetyCommand r ad f own s, safetyCommand_broken hconn harm hp hh⟩,
      fun hcrc hid hch hnew hown => ⟨_, exec_safetyCommand r ad f own s, safetyCommand_first rfl hconn harm hcrc hid hch hnew hown⟩⟩,
    fun r ad ch => ⟨_, exec_nodeSafetyWatchdog r ad ch s, nodeSafetyWatchdog_spec ch⟩,
    fun r ad h => ⟨_, exec_nodeSs1TimerExpiry r ad s, nodeSs1TimerExpiry_spec h⟩,
    fun f hup hrecs => ⟨_, exec_safetyStatus f s, safetyStatus_unconnected hrecs⟩,
    fun f c hup hrecs hkind hnode hring hslot hid harm hcrc hseq hecho hconns => ⟨_, exec_safetyStatus f s,
      safetyStatus_drive hlen hup hrecs hkind hnode hring hslot hid harm hcrc hseq hecho hconns⟩,
    fun b q0 hbt harm hrest hq0 => ⟨_, exec_btCompare s, ?compares⟩,
    fun h => ⟨_, exec_btCompare s, btCompare_idle h⟩,
    fun h => ⟨_, exec_btDue a s, btDueAt_falls hlen h⟩, fun h => ⟨_, exec_btDue a s, btDueAt_done h⟩,
    ⟨_, exec_btOverdue a s, btOverdue_spec hlen⟩,
    fun w hw hdue hkey hv hready hbt hpresent => ⟨fun h => ?begins, fun h => ?stopping⟩,
    fun rq d hserved hcheck hblock hservice hflash hatt => ⟨_, exec_safeSetDl rq d s, ?downloads⟩⟩
  case ss1 =>
    obtain ⟨hrest, hout⟩ := safetyCheckTick_ss1 hlen hup harms hshed hhold hstop hsls hss1 hclosing hmeas _ rfl
    exact ⟨fun h => ⟨_, exec_safetyCheckTick true true s, hrest h⟩, fun h he => ⟨_, exec_safetyCheckTick true true s, hout h he⟩⟩
  case closes =>
    rw [brakeCloseExpiry_closing h]
    obtain ⟨hsame, hframe⟩ := onArm_drive_spec ha SafeArm.stoBoth
    exact ⟨hsame ▸ stopped_stoBoth _, hframe⟩
  case tmax =>
    rw [ss1TmaxExpiry_runs hss1 hclosing]
    obtain ⟨hsame, hframe⟩ := onArm_drive_spec ha SafeArm.stoBoth
    exact ⟨hsame ▸ stopped_stoBoth _, hframe⟩
  case compares =>
    obtain ⟨hnone, hsame, hbit⟩ := btCompare_spec hlen hbt harm hrest hq0
    obtain ⟨hp, hh⟩ := SafeArm.compared_sto (s.btPass a q0) { s.sarm a with btLast := if s.btPass a q0 then 1 else 2 }
    refine ⟨hnone, (congrArg SafeArm.stoP hsame).trans hp, (congrArg SafeArm.stoH hsame).trans hh, fun hpass => ?_, fun hfail => ?_⟩
    · have hpass' : s.btPass a q0 = true := hpass
      rw [hsame, hpass']
      exact ⟨rfl, rfl, rfl, rfl⟩
    · have hfail' : s.btPass a q0 = false := hfail
      rw [hsame, hfail']
      exact ⟨rfl, rfl, hbit hfail'⟩
  case begins =>
    have heff := (writeEff_safeBtCmd hkey w.rq w.data s.noWrites).trans (safeBtEff_one hv hready hbt hpresent)
    obtain ⟨hrun, hp, hh, hother, hobjs, hparts⟩ := btStart_begins (s := s.noWrites) (a := a) hlen h
    exact completes_writeApply hw hdue (hkey ▸ mayStage_safeBtCmd) heff hparts (List.Subset.refl _) fun _ => ⟨hrun, hp, hh, hother, hobjs⟩
  case stopping =>
    have heff := (writeEff_safeBtCmd hkey w.rq w.data s.noWrites).trans (safeBtEff_one hv hready hbt hpresent)
    obtain ⟨hrun, hp, hh, hlast, hother, hparts⟩ := btStart_stopping (s := s.noWrites) (a := a) hlen h
    exact completes_writeApply hw hdue (hkey ▸ mayStage_safeBtCmd) heff hparts (List.Subset.refl _) fun _ => ⟨hrun, hp, hh, hlast, hother⟩
  case downloads =>
    obtain ⟨hsig, hset, hgood⟩ := safeSetDl_service hserved hcheck hblock hservice hflash hatt
    by_cases hverify : s.sec.verify "CX864-SET" 1 ownerSigners d = true
    · by_cases hok : setOk (setBody d) = true
      · obtain ⟨x, g, heq⟩ := hgood hverify hok
        rw [heq, hverify, hok]
        exact ⟨rfl, rfl, rfl, nofun, nofun⟩
      · have hok' : setOk (setBody d) = false := by simpa using hok
        rw [hset hverify hok', hverify, hok']
        exact ⟨rfl, rfl, rfl, nofun, fun _ _ => congrArg RqSt.result (State.rq_answer s rq abRange)⟩
    · have hverify' : s.sec.verify "CX864-SET" 1 ownerSigners d = false := by simpa using hverify
      rw [hsig hverify', hverify']
      exact ⟨rfl, rfl, rfl, fun _ => congrArg RqSt.result (State.rq_answer s rq abSignature), nofun⟩

end Sys2Proof
end

section
/-! SUPPORT. What every step keeps: the canonical form of the object store, of the exchange area and of the Lanes' memories, the queue,
and the fuses that are blown. Each operation of the model has one lemma, in the model's order, and each command is one of them. -/

namespace Sys2Proof.Machine

/-! ### The relation -/

/-- Fuses are blown and never cleared (R444, R459). -/
structure FusesGrow (f g : Fuses) : Prop where
  dev : f.devBlown = true → g.devBlown = true
  owner : ∀ i h, f.owner.getD i none = some h → g.owner.getD i none = some h
  revoked : ∀ i, f.revoked.getD i false = true → g.revoked.getD i false = true
  rollback : ∀ i, f.rollback.getD i 0 ≤ g.rollback.getD i 0
  vendor : f.vendorKey = g.vendorKey
  safety : f.safetyKey = g.safetyKey
  serial : f.serial = g.serial

theorem FusesGrow.refl (f : Fuses) : FusesGrow f f := ⟨id, fun _ _ h => h, fun _ h => h, fun _ => le_rfl, rfl, rfl, rfl⟩

theorem FusesGrow.trans {f g k : Fuses} (h : FusesGrow f g) (h' : FusesGrow g k) : FusesGrow f k :=
  ⟨h'.dev ∘ h.dev, fun i o e => h'.owner i o (h.owner i o e), fun i e => h'.revoked i (h.revoked i e),
    fun i => (h.rollback i).trans (h'.rollback i), h.vendor.trans h'.vendor, h.safety.trans h'.safety, h.serial.trans h'.serial⟩

/-- A change of the state that keeps the canonical form and the queue, and clears no fuse. -/
structure Keeps (s t : State) : Prop where
  canonical : Canonical s → Canonical t
  pending : t.pending = s.pending
  fuses : FusesGrow s.sec.fuses t.sec.fuses

theorem Keeps.refl (s : State) : Keeps s s := ⟨id, rfl, .refl _⟩

theorem Keeps.trans {s t u : State} (h : Keeps s t) (h' : Keeps t u) : Keeps s u :=
  ⟨h'.canonical ∘ h.canonical, h'.pending.trans h.pending, h.fuses.trans h'.fuses⟩

theorem Keeps.after {s t u : State} (h' : Keeps t u) (h : Keeps s t) : Keeps s u := h.trans h'

/-- A change beside the stores, the Lanes, the queue and the fuses. -/
theorem Keeps.beside {s : State} {free : Nat} {staged : Option Store} {dev : StDev} {time : StTime} {dict : StDict} {recd : StRec}
    {sec : StSec} {pair : StPair} {rings : StRings} {motion : StMotion} {solver : StSolver} {square : StSquare} {jn : StJn}
    {cnts : List CntSt} {safe : StSafe} {axes : StAxes} {mon : StMon} {tap : StTap}
    (hexchange : dict.exchange = s.dict.exchange) (hfuses : sec.fuses = s.sec.fuses) :
    Keeps s ⟨s.pending, free, s.objs, staged, dev, time, dict, recd, sec, pair, rings, motion, solver, square, jn, s.lanes, cnts, safe,
      axes, mon, tap⟩ :=
  ⟨fun ⟨ho, he, hl⟩ => ⟨ho, hexchange ▸ he, hl⟩, rfl, hfuses ▸ .refl _⟩

theorem Keeps.ite {s t u : State} {c : Prop} [Decidable c] (ht : Keeps s t) (hu : Keeps s u) : Keeps s (if c then t else u) := by
  split <;> assumption

theorem keeps_foldl {α : Type} {f : State → α → State} (h : ∀ s x, Keeps s (f s x)) (l : List α) (s : State) :
    Keeps s (l.foldl f s) := by
  induction l generalizing s with
  | nil => exact .refl s
  | cons x l ih => exact (h s x).trans (ih (f s x))

/-! ### The stores, the Lanes and the fuses -/

theorem State.setObj_keepsStores (s : State) (k : Nat) (v : Bytes) : Keeps s (s.setObj k v) :=
  ⟨fun ⟨ho, he, hl⟩ => ⟨storeWf_put k v ho, he, hl⟩, rfl, .refl _⟩

theorem forall_mem_modAt {α : Type} {P : α → Prop} {f : α → α} (hf : ∀ x, P x → P (f x)) {l : List α} (i : Nat) (h : ∀ x ∈ l, P x) :
    ∀ x ∈ modAt l i f, P x := by
  induction l generalizing i with
  | nil => exact h
  | cons a r ih =>
    obtain ⟨ha, hr⟩ := List.forall_mem_cons.mp h
    cases i with
    | zero => exact List.forall_mem_cons.mpr ⟨hf a ha, hr⟩
    | succ i => exact List.forall_mem_cons.mpr ⟨ha, ih i hr⟩

/-- A Lane's new state keeps the canonical form of its memory. -/
def MemKept (x y : LaneSt) : Prop := memWf x.mem = true → memWf y.mem = true

theorem State.onLane_keepsStores (s : State) (l : Nat) (f : LaneSt → LaneSt) (h : ∀ x, MemKept x (f x)) : Keeps s (s.onLane l f) :=
  ⟨fun ⟨ho, he, hl⟩ => ⟨ho, he, forall_mem_modAt h l hl⟩, rfl, .refl _⟩

theorem State.mapLanes_keepsStores (s : State) (f : LaneSt → LaneSt) (h : ∀ x, MemKept x (f x)) :
    Keeps s { s with lanes := s.lanes.map f } :=
  ⟨fun ⟨ho, he, hl⟩ => ⟨ho, he, by simpa using fun x hx => h x (hl x hx)⟩, rfl, .refl _⟩

theorem State.onSec_keepsStores (s : State) (f : StSec → StSec) (h : ∀ x, (f x).fuses = x.fuses) : Keeps s (s.onSec f) :=
  .beside rfl (h s.sec)

theorem State.onFuses_keepsStores (s : State) (f : Fuses → Fuses) (h : ∀ x, FusesGrow x (f x)) :
    Keeps s (s.onSec (fun x => { x with fuses := f x.fuses })) := ⟨id, rfl, h s.sec.fuses⟩

/-! ### Blowing fuses -/

/-- Another owner slot is fused. -/
theorem fusesGrow_owner {f : Fuses} {i : Nat} (hblank : f.owner.getD i none = none) (o : Bytes) :
    FusesGrow f { f with owner := modAt f.owner i (fun _ => some o) } := by
  refine { FusesGrow.refl f with owner := fun j k hk => ?_ }
  by_cases hj : j = i
  · rw [hj, hblank] at hk; cases hk
  · simpa [List.getD_eq_getElem?_getD, getElem?_modAt_other _ _ (Ne.symm hj)] using hk

/-- An owner slot is revoked. -/
theorem fusesGrow_revoked (f : Fuses) (i : Nat) : FusesGrow f { f with revoked := modAt f.revoked i (fun _ => true) } := by
  refine { FusesGrow.refl f with revoked := fun j hj => ?_ }
  rw [List.getD_eq_getElem?_getD] at hj ⊢
  by_cases h : j = i
  · subst h
    cases hget : f.revoked[j]? with
    | none => rw [hget] at hj; cases hj
    | some b => simp [getElem?_modAt_same, hget]
  · rwa [getElem?_modAt_other _ _ (Ne.symm h)]

/-- A rollback counter rises. -/
theorem fusesGrow_rollback {f : Fuses} {i n : Nat} (h : f.rollback.getD i 0 < n) :
    FusesGrow f { f with rollback := modAt f.rollback i (fun _ => n) } := by
  refine { FusesGrow.refl f with rollback := fun j => ?_ }
  rw [List.getD_eq_getElem?_getD] at h
  rw [List.getD_eq_getElem?_getD, List.getD_eq_getElem?_getD]
  by_cases hj : j = i
  · subst hj
    cases hget : f.rollback[j]? with
    | none => exact Nat.zero_le _
    | some v => rw [hget] at h; simpa [getElem?_modAt_same, hget] using Nat.le_of_lt h
  · rw [getElem?_modAt_other _ _ (Ne.symm hj)]

theorem storeWf_filter {st : Store} (p : Nat × Bytes → Bool) (h : storeWf st = true) : storeWf (st.filter p) = true := by
  induction st with
  | nil => rfl
  | cons q r ih =>
    obtain ⟨k, v⟩ := q
    simp only [storeWf, Bool.and_eq_true, List.all_eq_true, decide_eq_true_eq] at h
    rw [List.filter_cons]
    split
    · simp only [storeWf, Bool.and_eq_true, List.all_eq_true, decide_eq_true_eq]
      exact ⟨⟨h.1.1, fun x hx => h.1.2 x (List.mem_filter.mp hx).1⟩, ih h.2⟩
    · exact ih h.2

theorem State.powerReset_keepsStores (s : State) : Keeps s s.powerReset :=
  ⟨fun ⟨ho, _, _⟩ => ⟨storeWf_filter _ ho, rfl, fun x hx => by rw [List.eq_of_mem_replicate hx]; rfl⟩, rfl, .refl _⟩

theorem StSec.onImg_fuses (x : StSec) (t : Nat) (f : ImgSlots → ImgSlots) : (x.onImg t f).fuses = x.fuses := by
  unfold StSec.onImg
  split_ifs <;> rfl

/-! ### What a Lane instruction leaves of the memory -/

/-- An instruction that executes keeps the canonical form of its Lane's memory. -/
structure OpKeepsMem (op : LaneOp) : Prop where
  mem : ∀ x t y c, op x t = some (y, c) → MemKept x y

theorem MemKept.of_eq {x y : LaneSt} (h : y.mem = x.mem) : MemKept x y := fun hx => h ▸ hx

theorem LaneSt.setAcc_mem (x : LaneSt) (b : Bool) (v : Int) : (x.setAcc b v).mem = x.mem := by unfold LaneSt.setAcc; split_ifs <;> rfl

theorem LaneSt.flag_mem (x : LaneSt) (b : Nat) (c : Bool) : (x.flag b c).mem = x.mem := by unfold LaneSt.flag; split_ifs <;> rfl

theorem LaneSt.updateBase_mem (x old : LaneSt) (w : LaneM) (size : Nat) : (x.updateBase old w size).mem = x.mem := by
  unfold LaneSt.updateBase
  split_ifs
  exacts [LaneSt.setReg_mem .., rfl]

theorem LaneSt.branch_mem {x y : LaneSt} {kernel : Nat} {imm : BitVec 20} (h : x.branch kernel imm = some y) : y.mem = x.mem := by
  unfold LaneSt.branch at h
  dsimp only at h
  split_ifs at h
  cases h
  rfl

theorem LaneSt.store_keepsMem {x y : LaneSt} {t : LaneTask} {a size v : Nat} (h : x.store t a size v = some y) : MemKept x y := by
  have hwrite (b : Bytes) : MemKept x { x with mem := memWrite x.mem a b } := memWf_write a b
  unfold LaneSt.store at h
  split at h
  case h_5 => cases h
  all_goals exact Option.some.inj h ▸ hwrite _

theorem OpKeepsMem.some {f : LaneSt → LaneTask → LaneSt × List (Nat × Nat)} (h : ∀ x t, (f x t).1.mem = x.mem) :
    OpKeepsMem (fun x t => Option.some (f x t)) :=
  ⟨fun x t y c hop => .of_eq (by rw [← h x t, Option.some.inj hop])⟩

theorem OpKeepsMem.plain {f : LaneSt → LaneSt} (h : ∀ x, (f x).mem = x.mem) : OpKeepsMem (Machine.plain f) := .some (fun x _ => h x)

theorem OpKeepsMem.ite {c : LaneSt → LaneTask → Prop} [∀ x t, Decidable (c x t)] {op op' : LaneOp} (h : OpKeepsMem op) (h' : OpKeepsMem op') :
    OpKeepsMem (fun x t => if c x t then op x t else op' x t) := by
  refine ⟨fun x t y e hop => ?_⟩
  split_ifs at hop
  exacts [h.mem x t y e hop, h'.mem x t y e hop]

theorem OpKeepsMem.none : OpKeepsMem (fun _ _ => Option.none) := ⟨fun _ _ _ _ h => nomatch h⟩

theorem OpKeepsMem.noS {w : LaneR} {op : LaneOp} (h : OpKeepsMem op) : OpKeepsMem (Machine.noS w op) := OpKeepsMem.none.ite h

theorem opKeepsMem_intOp (rd : BitVec 6) (sat : Bool) (f : LaneSt → Int) : OpKeepsMem (intOp rd sat f) :=
  .some (fun x _ => (LaneSt.flag_mem ..).trans (LaneSt.setReg_mem x rd _))

theorem opKeepsMem_accOp (w : LaneR) (f : Int → Int → Int → Int) : OpKeepsMem (accOp w f) :=
  .some (fun x _ => (LaneSt.flag_mem ..).trans (LaneSt.setAcc_mem x _ _))

theorem opKeepsMem_fpOp (rd : BitVec 6) (sat : Bool) (ins : LaneSt → List Nat) (f : LaneSt → FRes) : OpKeepsMem (fpOp rd sat ins f) :=
  .some (fun x _ => by simp only [LaneSt.next, LaneSt.fpFlags, LaneSt.flag_mem, LaneSt.setReg_mem])

theorem opKeepsMem_loadOp (w : LaneM) (size : Nat) : OpKeepsMem (loadOp w size) := by
  refine ⟨fun x t y c h => ?_⟩
  unfold loadOp at h
  split at h
  · cases h
  · split at h
    · cases h
    · cases h; exact .of_eq ((LaneSt.updateBase_mem ..).trans (LaneSt.setReg_mem ..))

theorem opKeepsMem_storeOp (w : LaneM) (size : Nat) : OpKeepsMem (storeOp w size) := by
  refine ⟨fun x t y c h => ?_⟩
  unfold storeOp at h
  split at h
  · cases h
  · split at h
    · cases h
    next z hz => cases h; exact fun hx => (LaneSt.updateBase_mem z x w size).symm ▸ LaneSt.store_keepsMem hz hx

theorem opKeepsMem_branchOp (w : LaneB) (p : W32 → Bool) : OpKeepsMem (branchOp w p) := by
  refine ⟨fun x t y c h => ?_⟩
  unfold branchOp at h
  split_ifs at h
  · obtain ⟨z, hz, heq⟩ := Option.map_eq_some_iff.mp h
    cases heq
    exact .of_eq (LaneSt.branch_mem hz)
  · cases h; exact .of_eq rfl

/-! ### Ops -/

theorem State.setN_keepsStores (s : State) (k v : Nat) : Keeps s (s.setN k v) := by
  unfold State.setN
  exact State.setObj_keepsStores ..

theorem State.setI_keepsStores (s : State) (k : Nat) (v : Int) : Keeps s (s.setI k v) := by
  unfold State.setI
  exact State.setObj_keepsStores ..

theorem State.setBit_keepsStores (s : State) (k b : Nat) (v : Bool) : Keeps s (s.setBit k b v) := by
  unfold State.setBit
  exact State.setN_keepsStores ..

theorem State.inc_keepsStores (s : State) (k : Nat) : Keeps s (s.inc k) := by
  unfold State.inc
  exact State.setN_keepsStores ..

theorem State.patchObj_keepsStores (s : State) (k off : Nat) (v : Bytes) : Keeps s (s.patchObj k off v) := by
  unfold State.patchObj
  exact State.setObj_keepsStores ..

theorem State.fresh_keepsStores (s : State) : Keeps s (s.fresh).2 := .beside rfl rfl

theorem State.interrupt_keepsStores (s : State) (b : Nat) : Keeps s (s.interrupt b) := .beside rfl rfl

theorem State.enter_keepsStores (s : State) (d : DevState) : Keeps s (s.enter d) := by
  unfold State.enter
  exact .ite (.refl _) (.after (State.interrupt_keepsStores ..) (.beside rfl rfl))

theorem State.record_keepsStores (s : State) (source type : Nat) (sw : Bool) (payload : Bytes) :
    Keeps s (s.record source type sw payload) := by
  unfold State.record
  exact .ite (.refl _) (.ite (.refl _) (.after (.ite (.after (State.setBit_keepsStores ..) <|
    .after (State.patchObj_keepsStores ..) (.beside rfl rfl)) (.beside rfl rfl)) (.ite (State.setBit_keepsStores ..) (.refl _))))

theorem State.log_keepsStores (s : State) (type : Nat) (payload : Bytes) : Keeps s (s.log type payload) := by
  unfold State.log
  exact State.record_keepsStores ..

theorem State.logOpen_keepsStores (s : State) (source type : Nat) : Keeps s (s.logOpen source type) := by
  unfold State.logOpen
  exact .after (State.record_keepsStores ..) (.beside rfl rfl)

/-! ### Count -/

theorem State.count_keepsStores (s : State) (e slots : Nat) (evs : List (Nat × Nat)) : Keeps s (s.count e slots evs) := by
  unfold State.count
  exact .after (State.setN_keepsStores ..) (.beside rfl rfl)

theorem State.clocksStop_keepsStores (s : State) (p : Nat → Bool) : Keeps s (s.clocksStop p) := .beside rfl rfl

theorem State.clocksStart_keepsStores (s old : State) : Keeps s (s.clocksStart old) := by
  unfold State.clocksStart
  exact keeps_foldl (fun t e => State.count_keepsStores ..) ..

theorem State.slack_keepsStores (s : State) (e : Nat) : Keeps s (s.slack e) := by
  unfold State.slack
  exact .ite (.refl _) (.after (.beside rfl rfl) (State.count_keepsStores ..))

theorem State.countWork_keepsStores (s : State) (e : Nat) (evs : List (Nat × Nat × Nat)) : Keeps s (s.countWork e evs) := by
  unfold State.countWork
  exact State.count_keepsStores ..

/-! ### Access -/

theorem State.setRq_keepsStores (s : State) (e : RqSt) : Keeps s (s.setRq e) := .beside rfl rfl

theorem State.answer_keepsStores (s : State) (rq : Requester) (code : Nat) : Keeps s (s.answer rq code) := by
  unfold State.answer
  exact State.setRq_keepsStores ..

theorem State.deliver_keepsStores (s : State) (rq : Requester) (m : DictMsg) : Keeps s (s.deliver rq m) := by
  unfold State.deliver
  split
  exacts [.beside rfl rfl, .beside rfl rfl, .beside rfl rfl, .beside rfl rfl, .refl _, .refl _]

theorem State.respond_keepsStores (s : State) (rq : Requester) (m : DictMsg) : Keeps s (s.respond rq m) := by
  unfold State.respond
  exact .after (State.deliver_keepsStores ..) (State.setRq_keepsStores ..)

theorem State.finish_keepsStores (s : State) (rq : Requester) (code : Nat) : Keeps s (s.finish rq code) := by
  unfold State.finish
  dsimp only
  split
  · exact .after (State.respond_keepsStores ..) (State.answer_keepsStores ..)
  · exact State.answer_keepsStores ..

theorem State.refusedRecord_keepsStores (s : State) (rq : Requester) (cmd index sub : Nat) :
    Keeps s (s.refusedRecord rq cmd index sub) := by
  unfold State.refusedRecord
  exact State.log_keepsStores ..

theorem State.refuse_keepsStores (s : State) (rq : Requester) (index sub code : Nat) : Keeps s (s.refuse rq index sub code) := by
  unfold State.refuse
  exact .after (State.answer_keepsStores ..) <|
    .after (.ite (State.refusedRecord_keepsStores ..) (.refl _)) (.ite (State.inc_keepsStores ..) (.refl _))

theorem storeWrite_keepsStores (index sub : Nat) (v : Bytes) (s : State) : Keeps s (storeWrite index sub v s) := by
  unfold storeWrite
  split
  exacts [.ite (.refl _) (State.setObj_keepsStores ..), .refl _]

theorem State.stage_keepsStores (s : State) (key : Nat) (v : Bytes) : Keeps s (s.stage key v) := .beside rfl rfl

theorem State.linkSend_keepsStores (s : State) (slot type : Nat) (payload : Bytes) : Keeps s (s.linkSend slot type payload) :=
  .beside rfl rfl

theorem State.forward_keepsStores (s : State) (apply : Nat) (request : Bytes) : Keeps s (s.forward apply request) := by
  unfold State.forward
  exact .ite (.after (State.linkSend_keepsStores ..) (.beside rfl rfl)) (.refl _)

theorem State.closeReads_keepsStores (s : State) (index sub : Nat) : Keeps s (s.closeReads index sub) := .beside rfl rfl

theorem submitWrite_keepsStores (rq : Requester) (index sub : Nat) (v : Bytes) (own : State → Nat) (eff : State → State) (s : State)
    (h : ∀ s, Keeps s (eff s)) : Keeps s (submitWrite rq index sub v own eff s) := by
  unfold submitWrite
  refine .ite (.refl _) (.ite (State.refuse_keepsStores ..) ?_)
  have hfirst (c : Nat) : Keeps s ((s.answer rq c).closeReads index sub) :=
    .after (State.closeReads_keepsStores ..) (State.answer_keepsStores ..)
  dsimp only
  split
  · exact hfirst _
  · exact .ite (.after (.ite (.refl _) (State.forward_keepsStores ..)) (.after (State.stage_keepsStores ..) (hfirst _))) <|
      .ite (.after (.ite (.refl _) (State.forward_keepsStores ..)) (.after (.beside rfl rfl) (hfirst _))) <|
      .after (.ite (.refl _) (State.forward_keepsStores ..)) (.after (h _) (hfirst _))

/-! ### Time -/

theorem State.setDom_keepsStores (s : State) (d : Nat) (x : DomSt) : Keeps s (s.setDom d x) := by
  unfold State.setDom
  exact .ite (.beside rfl rfl) (.beside rfl rfl)

theorem State.rebase_keepsStores (s : State) (d : Nat) : Keeps s (s.rebase d) := by
  unfold State.rebase
  exact State.setDom_keepsStores ..

theorem State.setTimeInc_keepsStores (s : State) (v : Nat) : Keeps s (s.setTimeInc v) := by
  unfold State.setTimeInc
  exact .after (State.setN_keepsStores ..) <|
    .after (.ite (.refl _) (.after (State.setI_keepsStores ..) (State.rebase_keepsStores ..))) (.ite (.refl _)
    (.after (State.setI_keepsStores ..) (State.rebase_keepsStores ..)))

theorem State.startSlew_keepsStores (s : State) (amount : Int) : Keeps s (s.startSlew amount) := .beside rfl rfl

theorem State.cancelSlew_keepsStores (s : State) : Keeps s s.cancelSlew := .beside rfl rfl

theorem State.incNow_keepsStores (s : State) (v : Nat) : Keeps s (s.incNow v) := by
  unfold State.incNow
  exact .after (.beside rfl rfl) (State.setTimeInc_keepsStores ..)

theorem State.servoInc_keepsStores (s : State) (v : Nat) : Keeps s (s.servoInc v) := by
  unfold State.servoInc
  exact .ite (.refl _) (.ite (.beside rfl rfl) (State.incNow_keepsStores ..))

theorem State.spreadInc_keepsStores (s : State) : Keeps s s.spreadInc := by
  unfold State.spreadInc
  split
  · exact .refl _
  · dsimp only
    split
    · exact State.incNow_keepsStores ..
    · exact .ite (State.setTimeInc_keepsStores ..) (.ite (State.setTimeInc_keepsStores ..) (State.incNow_keepsStores ..))

theorem State.followRate_keepsStores (s : State) (d : Nat) : Keeps s (s.followRate d) := by
  unfold State.followRate
  exact State.servoInc_keepsStores ..

theorem State.refSwitch_keepsStores (s : State) (new : Nat) : Keeps s (s.refSwitch new) := by
  unfold State.refSwitch
  exact .ite (.refl _) (.after (State.logOpen_keepsStores ..) <| .after (State.setBit_keepsStores ..) <|
    .after (.ite (.refl _) (.ite (.after (.beside rfl rfl) (State.cancelSlew_keepsStores ..)) (.after (State.startSlew_keepsStores ..)
    (State.followRate_keepsStores ..)))) (State.setN_keepsStores ..))

theorem State.autoSwitch_keepsStores (s : State) (d : Nat) : Keeps s (s.autoSwitch d) := by
  unfold State.autoSwitch
  exact .ite (.refl _) (.after (.ite (.ite (State.refSwitch_keepsStores ..) (State.refSwitch_keepsStores ..)) (.refl _))
    (State.setBit_keepsStores ..))

theorem State.switchBack_keepsStores (s : State) (d : Nat) : Keeps s (s.switchBack d) := by
  unfold State.switchBack
  exact .ite (.ite (State.refSwitch_keepsStores ..) (.refl _)) (.ite (State.refSwitch_keepsStores ..) (.refl _))

theorem State.refFix_keepsStores (s old : State) : Keeps s (s.refFix old) := by
  unfold State.refFix
  exact .ite (State.refSwitch_keepsStores ..) (.ite (State.refSwitch_keepsStores ..) (.refl _))

theorem State.domUpdate_keepsStores (s : State) (d : Nat) (sw : Bool) (meas : Int) : Keeps s (s.domUpdate d sw meas) := by
  unfold State.domUpdate
  exact .ite (.refl _) (.after (.ite (.after (State.startSlew_keepsStores ..) (State.followRate_keepsStores ..)) (.refl _)) <|
    .after (.ite (.after (State.switchBack_keepsStores ..) (State.setN_keepsStores ..)) (.ite (.after (State.switchBack_keepsStores ..)
    (State.setN_keepsStores ..)) (.ite (State.setN_keepsStores ..) (.refl _)))) <|
    .after (.ite (State.setN_keepsStores ..) (State.inc_keepsStores ..)) <| .after (State.setI_keepsStores ..) <|
    .after (State.setDom_keepsStores ..) (.ite (State.setBit_keepsStores ..) (.refl _)))

theorem State.pushStamp_keepsStores (s : State) (port : Nat) (egress sw : Bool) (tag q : Nat) :
    Keeps s (s.pushStamp port egress sw tag q) := by
  unfold State.pushStamp
  exact .ite (.after (State.setBit_keepsStores ..) (.beside rfl rfl)) (.beside rfl rfl)

theorem State.takeStamp_keepsStores (s : State) (port : Nat) (egress sw : Bool) (tag : Nat) (t : Time96) :
    Keeps s (s.takeStamp port egress sw tag t).2 := by
  unfold State.takeStamp
  exact State.pushStamp_keepsStores ..

theorem State.stepTick_keepsStores (s : State) (sec ns frac : Nat) : Keeps s (s.stepTick sec ns frac) := by
  unfold State.stepTick
  exact .after (State.record_keepsStores ..) <| .after (State.setBit_keepsStores ..) (.beside rfl rfl)

theorem State.brakeTime_keepsStores (s : State) : Keeps s s.brakeTime := .beside rfl rfl

theorem State.burstTime_keepsStores (s : State) : Keeps s s.burstTime := .beside rfl rfl

theorem timeTick_keepsStores (s : State) : Keeps s (timeTick s) := by
  unfold timeTick
  refine .ite (.refl _) ?_
  dsimp only
  split
  · exact .after (State.stepTick_keepsStores ..) <| .after (State.burstTime_keepsStores ..) <|
      .after (.ite (.refl _) (State.brakeTime_keepsStores ..)) (.beside rfl rfl)
  · exact .after (.beside rfl rfl) <| .after (State.burstTime_keepsStores ..) <|
      .after (.ite (.refl _) (State.brakeTime_keepsStores ..)) (.beside rfl rfl)

theorem timeSetEff_keepsStores (v : Bytes) (s : State) : Keeps s (timeSetEff v s) := by
  unfold timeSetEff
  exact .after (.beside rfl rfl) (State.setObj_keepsStores ..)

theorem timeIncEff_keepsStores (v : Bytes) (s : State) : Keeps s (timeIncEff v s) := by
  unfold timeIncEff
  exact State.incNow_keepsStores ..

theorem phaseSlewEff_keepsStores (v : Bytes) (s : State) : Keeps s (phaseSlewEff v s) := by
  unfold phaseSlewEff
  exact State.startSlew_keepsStores ..

theorem cellRefEff_keepsStores (v : Bytes) (s : State) : Keeps s (cellRefEff v s) := by
  unfold cellRefEff
  exact .after (.ite (State.refSwitch_keepsStores ..) (.refl _)) (State.setObj_keepsStores ..)

theorem timeSet_keepsStores (rq : Requester) (t : Time96) (s : State) : Keeps s (timeSet rq t s) := by
  unfold timeSet
  exact submitWrite_keepsStores (h := fun s => timeSetEff_keepsStores ..) ..

theorem timeIncWrite_keepsStores (rq : Requester) (v : W32) (s : State) : Keeps s (timeIncWrite rq v s) := by
  unfold timeIncWrite
  exact submitWrite_keepsStores (h := fun s => timeIncEff_keepsStores ..) ..

theorem phaseSlew_keepsStores (rq : Requester) (v : W64) (s : State) : Keeps s (phaseSlew rq v s) := by
  unfold phaseSlew
  exact submitWrite_keepsStores (h := fun s => phaseSlewEff_keepsStores ..) ..

theorem cellRefWrite_keepsStores (rq : Requester) (v : Byte) (s : State) : Keeps s (cellRefWrite rq v s) := by
  unfold cellRefWrite
  exact submitWrite_keepsStores (h := fun s => cellRefEff_keepsStores ..) ..

theorem State.ptpSend_keepsStores (s : State) (d : Nat) (k : PtpSend) (seq time : Nat) : Keeps s (s.ptpSend d k seq time) :=
  .beside rfl rfl

theorem State.ptpRequest_keepsStores (s : State) (d : Nat) : Keeps s (s.ptpRequest d) := by
  unfold State.ptpRequest
  exact .after (State.ptpSend_keepsStores ..) (State.setDom_keepsStores ..)

theorem State.syncExchange_keepsStores (s : State) (d t1 t2 : Nat) (sw : Bool) : Keeps s (s.syncExchange d t1 t2 sw) := by
  unfold State.syncExchange
  refine .after (State.ptpRequest_keepsStores ..) ?_
  split
  · exact .after (State.domUpdate_keepsStores ..) (State.setDom_keepsStores ..)
  · exact State.setDom_keepsStores ..

theorem State.setPathDelay_keepsStores (s : State) (d : Nat) (twice : Int) (sw : Bool) : Keeps s (s.setPathDelay d twice sw) := by
  unfold State.setPathDelay
  exact .after (State.setDom_keepsStores ..) (.ite (State.setBit_keepsStores ..) (.refl _))

theorem State.ptpAnnounce_keepsStores (s : State) (d : Nat) (m : PtpMsg) : Keeps s (s.ptpAnnounce d m) := by
  unfold State.ptpAnnounce
  dsimp only
  split
  · exact .after (State.setN_keepsStores ..) <| .after (State.setN_keepsStores ..) (State.setDom_keepsStores ..)
  · exact .ite (.after (State.setN_keepsStores ..) <|
      .after (State.setN_keepsStores ..) (State.setDom_keepsStores ..)) (.ite (.after (State.setN_keepsStores ..) <|
      .after (State.setN_keepsStores ..) (State.setDom_keepsStores ..)) (.refl _))

theorem State.ptpDelayResp_keepsStores (s : State) (d : Nat) (m : PtpMsg) : Keeps s (s.ptpDelayResp d m) := by
  unfold State.ptpDelayResp
  refine .ite (.refl _) ?_
  dsimp only
  split
  · exact .after (.ite (State.setPathDelay_keepsStores ..) (State.setDom_keepsStores ..)) (State.takeStamp_keepsStores ..)
  · exact State.takeStamp_keepsStores ..

theorem State.ptpAnswer_keepsStores (s : State) (d : Nat) (m : PtpMsg) (ingress : Nat × Bool) : Keeps s (s.ptpAnswer d m ingress) := by
  unfold State.ptpAnswer
  exact .ite (.refl _) (.after (.ite (.refl _) (.after (State.ptpSend_keepsStores ..) <|
    .after (State.ptpSend_keepsStores ..) (.ite (State.setBit_keepsStores ..) (.refl _)))) (State.takeStamp_keepsStores ..))

theorem State.ptpUse_keepsStores (s : State) (d : Nat) (m : PtpMsg) (ingress : Nat × Bool) : Keeps s (s.ptpUse d m ingress) := by
  unfold State.ptpUse
  dsimp only
  split
  · exact State.ptpAnnounce_keepsStores ..
  · exact .ite (State.syncExchange_keepsStores ..) (.refl _)
  · exact .ite (State.setDom_keepsStores ..) (.refl _)
  · split
    exacts [.ite (State.syncExchange_keepsStores ..) (.refl _), .refl _]
  · exact .ite (State.ptpDelayResp_keepsStores ..) (.refl _)
  · exact State.ptpAnswer_keepsStores ..
  · exact .ite (.refl _) (.after (State.setDom_keepsStores ..) (State.takeStamp_keepsStores ..))
  · split
    · exact .ite (.after (State.setPathDelay_keepsStores ..) (State.setDom_keepsStores ..)) (.refl _)
    · exact .refl _
  · exact .refl _
  · exact .refl _

theorem ptpMessage_keepsStores (m : PtpMsg) (s : State) : Keeps s (ptpMessage m s) := by
  unfold ptpMessage
  refine .ite (.refl _) ?_
  dsimp only
  split
  · split
    exacts [State.takeStamp_keepsStores .., .refl _]
  · refine .after (State.ptpUse_keepsStores ..) ?_
    split
    exacts [State.takeStamp_keepsStores .., .refl _]

theorem timeExchange_keepsStores (x : Exchange) (s : State) : Keeps s (timeExchange x s) := by
  unfold timeExchange
  refine .ite (.refl _) ?_
  dsimp only
  split
  · exact .after (State.takeStamp_keepsStores ..) (State.takeStamp_keepsStores ..)
  · exact .after (State.domUpdate_keepsStores ..) <| .after (State.takeStamp_keepsStores ..) (State.takeStamp_keepsStores ..)

theorem domUpdateTimeout_keepsStores (d : Fin 2) (s : State) : Keeps s (domUpdateTimeout d s) := by
  unfold domUpdateTimeout
  exact .ite (State.setN_keepsStores ..) (.refl _)

theorem domHoldoverExpiry_keepsStores (d : Fin 2) (s : State) : Keeps s (domHoldoverExpiry d s) := by
  unfold domHoldoverExpiry
  exact .ite (.after (State.autoSwitch_keepsStores ..) (State.setN_keepsStores ..)) (.refl _)

theorem State.forgetMaster_keepsStores (s : State) (d : Nat) : Keeps s (s.forgetMaster d) := by
  unfold State.forgetMaster
  exact .after (State.setDom_keepsStores ..) <| .after (State.setN_keepsStores ..) (State.setN_keepsStores ..)

theorem State.domSource_keepsStores (s old : State) (d : Nat) : Keeps s (s.domSource old d) := by
  unfold State.domSource
  exact .ite (.refl _) (State.forgetMaster_keepsStores ..)

theorem State.sourceEff_keepsStores (s old : State) : Keeps s (s.sourceEff old) := by
  unfold State.sourceEff
  exact .after (State.refFix_keepsStores ..) <| .after (State.domSource_keepsStores ..) (State.domSource_keepsStores ..)

theorem State.commitDomain_keepsStores (s old : State) (d : Nat) : Keeps s (s.commitDomain old d) := by
  unfold State.commitDomain
  exact .after (.ite (.after (State.setDom_keepsStores ..) <|
    .after (State.setI_keepsStores ..) (State.setN_keepsStores ..)) (.ite (.after (State.setDom_keepsStores ..) <|
    .after (State.setN_keepsStores ..) (State.setN_keepsStores ..)) (.refl _))) (State.domSource_keepsStores ..)

theorem State.align_keepsStores (s : State) : Keeps s s.align := by
  unfold State.align
  exact .ite (.refl _) (.ite (.after (.beside rfl rfl) (.ite (State.incNow_keepsStores ..) (.refl _))) (.refl _))

/-! ### Wadra -/

theorem State.setRing_keepsStores (s : State) (r : RingId) (x : RingSt) : Keeps s (s.setRing r x) := by
  unfold State.setRing
  split <;> exact (.beside rfl rfl)

theorem State.onRing_keepsStores (s : State) (r : RingId) (f : RingSt → RingSt) : Keeps s (s.onRing r f) := by
  unfold State.onRing
  exact State.setRing_keepsStores ..

theorem State.setNode_keepsStores (s : State) (n : NodeSt) : Keeps s (s.setNode n) := .beside rfl rfl

theorem State.ringBit_keepsStores (s : State) (r : RingId) (b : Nat) (v : Bool) : Keeps s (s.ringBit r b v) := by
  unfold State.ringBit
  exact State.setBit_keepsStores ..

theorem State.portErr_keepsStores (s : State) (r : RingId) (port off : Nat) : Keeps s (s.portErr r port off) := by
  unfold State.portErr
  exact State.setObj_keepsStores ..

theorem State.keepCopy_keepsStores (s : State) (r : RingId) (port cycle : Nat) (f : Frame) : Keeps s (s.keepCopy r port cycle f) := by
  unfold State.keepCopy
  split
  exacts [State.portErr_keepsStores .., State.onRing_keepsStores ..]

theorem State.sendSlot_keepsStores (s : State) (r : RingId) (slot type age off flags : Nat) (payload : Bytes)
    (legs : List (Channel × Side)) : Keeps s (s.sendSlot r slot type age off flags payload legs) := by
  unfold State.sendSlot
  exact keeps_foldl (fun s l => State.setRing_keepsStores ..) ..

theorem State.bufferForward_keepsStores (s : State) (r : RingId) (port : Nat) (b : Bytes) (q : Nat) :
    Keeps s (s.bufferForward r port b q) := by
  unfold State.bufferForward
  exact .ite (.refl _) (State.onRing_keepsStores ..)

theorem State.acceptFrame_keepsStores (s : State) (r : RingId) (p : Nat) (f : Frame) (q : Nat) : Keeps s (s.acceptFrame r p f q) := by
  unfold State.acceptFrame
  dsimp only
  split
  · exact State.portErr_keepsStores ..
  · exact .ite (State.portErr_keepsStores ..) (.ite (State.keepCopy_keepsStores ..) (.refl _))

theorem State.ownReceive_keepsStores (s : State) (port : Port) (startOk : Bool) (b : Bytes) (endOk : Bool) (stamp : Time96)
    (software : Bool) : Keeps s (s.ownReceive port startOk b endOk stamp software) := by
  unfold State.ownReceive
  dsimp only
  split
  · exact .ite (.refl _) (.ite (State.takeStamp_keepsStores ..) (.refl _))
  · refine .ite (.after (State.portErr_keepsStores ..) (State.bufferForward_keepsStores ..)) (.after (State.acceptFrame_keepsStores ..) <|
      .after (.ite (.refl _) (State.bufferForward_keepsStores ..)) ?_)
    split
    exacts [State.takeStamp_keepsStores .., .refl _]

theorem State.nodeFwd_keepsStores (s : State) : Keeps s (s.nodeFwd).2 := by
  unfold State.nodeFwd
  exact State.fresh_keepsStores ..

theorem State.nodeReceive_keepsStores (s : State) (r : RingId) (a : Nat) (sd : Side) (startOk : Bool) (b : Bytes) (endOk : Bool)
    (stamp : Time96) : Keeps s (s.nodeReceive r a sd startOk b endOk stamp) := by
  unfold State.nodeReceive
  refine .after (.ite (State.setNode_keepsStores ..) (.ite (State.setNode_keepsStores ..) ?_)) (State.nodeFwd_keepsStores ..)
  split <;> exact (State.setNode_keepsStores ..)

theorem frameReceive_keepsStores (at_ : Ingress) (startOk : Bool) (b : Bytes) (endOk : Bool) (stamp : Time96) (software : Bool)
    (s : State) : Keeps s (frameReceive at_ startOk b endOk stamp software s) := by
  unfold frameReceive
  split
  exacts [.ite (.refl _) (State.ownReceive_keepsStores ..), State.nodeReceive_keepsStores ..]

theorem State.txWrite_keepsStores (s : State) (key cycle : Nat) (v : Bytes) : Keeps s (s.txWrite key cycle v) :=
  .after (keeps_foldl (fun s _ => .ite (.refl _) (State.setRing_keepsStores s .p _)) ..)
    (keeps_foldl (fun s _ => .ite (.refl _) (State.setRing_keepsStores s .m _)) ..)

theorem State.dataOccurrence_keepsStores (s : State) (r : RingId) (e : SlotE) : Keeps s (s.dataOccurrence r e) := by
  unfold State.dataOccurrence
  exact .after (State.sendSlot_keepsStores ..) (State.setRing_keepsStores ..)

theorem State.headRequest_keepsStores (s : State) (r : RingId) (a index sub : Nat) (v : Bytes) :
    Keeps s (s.headRequest r a index sub v) := by
  unfold State.headRequest
  exact .ite (.refl _) (.beside rfl rfl)

theorem State.stopDemand_keepsStores (s : State) : Keeps s s.stopDemand := .beside rfl rfl

theorem State.exclude_keepsStores (s : State) (r : RingId) (a : Nat) : Keeps s (s.exclude r a) := by
  unfold State.exclude
  refine .after (.ite (State.stopDemand_keepsStores ..) (.refl _)) <| .after (State.headRequest_keepsStores ..) ?_
  split
  · exact .after (.ite (State.ringBit_keepsStores ..) (.refl _)) <| .after (State.ringBit_keepsStores ..) (State.setRing_keepsStores ..)
  · exact .after (State.ringBit_keepsStores ..) (State.setRing_keepsStores ..)

theorem State.violation_keepsStores (s : State) (r : RingId) (a : Nat) : Keeps s (s.violation r a) := by
  unfold State.violation
  dsimp only
  split
  · exact .after (.ite (State.exclude_keepsStores ..) (.refl _)) (State.onRing_keepsStores ..)
  · exact State.onRing_keepsStores ..

theorem State.nodeOccurrence_keepsStores (s : State) (r : RingId) (e : SlotE) (seen : SlotSeen) :
    Keeps s (s.nodeOccurrence r e seen) := by
  unfold State.nodeOccurrence
  dsimp only
  split
  · exact .refl _
  · exact .ite (.refl _) (.ite (State.setRing_keepsStores ..) (.ite (.refl _) (State.violation_keepsStores ..)))

theorem State.writeDelay_keepsStores (s : State) (r : RingId) (a : Nat) : Keeps s (s.writeDelay r a) := by
  unfold State.writeDelay
  split
  exacts [.refl _, .after (State.headRequest_keepsStores ..) (State.onRing_keepsStores ..)]

theorem State.computeFallbacks_keepsStores (s : State) (r : RingId) : Keeps s (s.computeFallbacks r) := by
  unfold State.computeFallbacks
  dsimp only
  split <;> exact (.after (State.setN_keepsStores ..) (State.setRing_keepsStores ..))

theorem State.healFail_keepsStores (s : State) (r : RingId) : Keeps s (s.healFail r) := by
  unfold State.healFail
  exact State.ringBit_keepsStores ..

theorem State.survive_keepsStores (s : State) (r : RingId) : Keeps s (s.survive r) := by
  unfold State.survive
  exact .after (State.ringBit_keepsStores ..) (State.onRing_keepsStores ..)

theorem State.deriveBreak_keepsStores (s : State) (r : RingId) : Keeps s (s.deriveBreak r) := by
  unfold State.deriveBreak
  refine .ite (.refl _) ?_
  split
  · exact .refl _
  · exact State.healFail_keepsStores ..
  · split
    · exact State.healFail_keepsStores ..
    · refine .ite (State.healFail_keepsStores ..) (.after (.ite (State.survive_keepsStores ..) (.refl _)) ?_)
      split
      · exact .after (State.exclude_keepsStores ..) (State.setRing_keepsStores ..)
      · exact State.setRing_keepsStores ..

theorem State.integrate_keepsStores (s : State) (r : RingId) (a : Nat) : Keeps s (s.integrate r a) := by
  unfold State.integrate
  exact .after (State.headRequest_keepsStores ..) <| .after (State.headRequest_keepsStores ..) (State.writeDelay_keepsStores ..)

theorem State.afterRound_keepsStores (s : State) (r : RingId) (a : Nat) : Keeps s (s.afterRound r a) := by
  unfold State.afterRound
  split
  · exact .refl _
  · exact .ite (.refl _) (.ite (State.integrate_keepsStores ..) (.after (.ite (.after (State.ringBit_keepsStores ..)
      (State.writeDelay_keepsStores ..)) (.refl _)) (State.onRing_keepsStores ..)))

theorem State.delayChecks_keepsStores (s : State) (r : RingId) : Keeps s (s.delayChecks r) := by
  unfold State.delayChecks
  dsimp only
  split
  · refine .after (State.setN_keepsStores ..) ?_
    split
    exacts [State.setN_keepsStores .., .refl _]
  · split
    exacts [State.setN_keepsStores .., .refl _]

theorem State.firstRound_keepsStores (s : State) (r : RingId) : Keeps s (s.firstRound r) := by
  unfold State.firstRound
  exact .after (State.delayChecks_keepsStores ..) <| .after (State.deriveBreak_keepsStores ..) (State.computeFallbacks_keepsStores ..)

theorem State.newDelays_keepsStores (s : State) (r : RingId) : Keeps s (s.newDelays r) := by
  unfold State.newDelays
  exact State.onRing_keepsStores ..

theorem State.shareStatus_keepsStores (s : State) (r : RingId) : Keeps s (s.shareStatus r) := by
  unfold State.shareStatus
  exact .ite (keeps_foldl (fun s i => State.linkSend_keepsStores ..) ..) (.refl _)

theorem State.roundDone_keepsStores (s : State) (r : RingId) : Keeps s (s.roundDone r) := by
  unfold State.roundDone
  exact .after (State.shareStatus_keepsStores ..) <| .after (keeps_foldl (fun s a => State.afterRound_keepsStores ..) ..) <|
    .after (.ite (State.firstRound_keepsStores ..) (.refl _)) <| .after (State.onRing_keepsStores ..) (State.newDelays_keepsStores ..)

theorem State.rejoinDone_keepsStores (s : State) (r : RingId) (a : Nat) : Keeps s (s.rejoinDone r a) := by
  unfold State.rejoinDone
  dsimp only
  split
  · exact .after (.ite (.refl _) (.after (State.onRing_keepsStores ..) (State.integrate_keepsStores ..))) (State.newDelays_keepsStores ..)
  · exact State.newDelays_keepsStores ..

theorem State.returnDone_keepsStores (s : State) (r : RingId) : Keeps s (s.returnDone r) := by
  unfold State.returnDone
  exact .after (.ite (State.onRing_keepsStores ..) (.refl _)) (State.newDelays_keepsStores ..)

theorem delayRound_keepsStores (r : RingId) (s : State) : Keeps s (delayRound r s) := by
  unfold delayRound
  exact .ite (.refl _) (.after (.ite (State.roundDone_keepsStores ..) (.refl _)) <|
    .after (State.onRing_keepsStores ..) (.ite (State.roundDone_keepsStores ..) (.refl _)))

theorem State.measureDone_keepsStores (s : State) (r : RingId) (e : DelayEx) : Keeps s (s.measureDone r e) := by
  unfold State.measureDone
  dsimp only
  split
  · exact .ite (State.roundDone_keepsStores ..) (.refl _)
  · exact .ite (State.rejoinDone_keepsStores ..) (.refl _)
  · exact .ite (State.returnDone_keepsStores ..) (.refl _)

theorem delayResponse_keepsStores (f : Frame) (t4 : Time96) (software : Bool) (s : State) : Keeps s (delayResponse f t4 software s) := by
  unfold delayResponse
  refine .ite (.refl _) ?_
  split
  · exact .refl _
  · exact .ite (.after (State.ringBit_keepsStores ..) (State.setRing_keepsStores ..)) (.after (State.measureDone_keepsStores ..)
      (State.setRing_keepsStores ..))

theorem rejoinHoldExpiry_keepsStores (r : RingId) (addr : BitVec 10) (s : State) : Keeps s (rejoinHoldExpiry r addr s) := by
  unfold rejoinHoldExpiry
  dsimp only
  split
  exacts [.refl _, .ite (.refl _) (State.onRing_keepsStores ..)]

theorem State.nodeAnswered_keepsStores (s : State) (r : RingId) (a sub : Nat) (v : Bytes) (ok : Bool) :
    Keeps s (s.nodeAnswered r a sub v ok) := by
  unfold State.nodeAnswered
  exact .ite (.refl _) (.after (State.onRing_keepsStores ..) (.ite (State.setNode_keepsStores ..) (.ite (State.setNode_keepsStores ..)
    (.refl _))))

theorem State.loopDown_keepsStores (s : State) (r : RingId) (a : Nat) (west : Bool) : Keeps s (s.loopDown r a west) := by
  unfold State.loopDown
  exact .after (.ite (.ite (.refl _) (State.healFail_keepsStores ..)) (State.deriveBreak_keepsStores ..)) (State.onRing_keepsStores ..)

theorem State.loopUp_keepsStores (s : State) (r : RingId) (a : Nat) (west : Bool) : Keeps s (s.loopUp r a west) := by
  unfold State.loopUp
  exact .after (.ite (.after (.ite (State.returnDone_keepsStores ..) (.refl _)) (State.setRing_keepsStores ..)) (.refl _))
    (State.onRing_keepsStores ..)

theorem breakPatternTimeout_keepsStores (r : RingId) (s : State) : Keeps s (breakPatternTimeout r s) := by
  unfold breakPatternTimeout
  exact .ite (.refl _) (State.healFail_keepsStores ..)

theorem State.applySwitch_keepsStores (s : State) (r : RingId) : Keeps s (s.applySwitch r) := by
  unfold State.applySwitch
  dsimp only
  split
  · exact .refl s
  · split
    · exact .after (.ite (State.stopDemand_keepsStores ..) (.refl _)) <| .after (State.inc_keepsStores ..) <| .after (State.setN_keepsStores ..) <|
        .after (State.ringBit_keepsStores ..) <| .after (State.ringBit_keepsStores ..) (State.setRing_keepsStores ..)
    · exact .after (State.setN_keepsStores ..) <| .after (State.ringBit_keepsStores ..) (State.setRing_keepsStores ..)

theorem State.retimeRing_keepsStores (s : State) (r : RingId) : Keeps s (s.retimeRing r) := by
  unfold State.retimeRing
  refine .ite (.refl _) (.after (keeps_foldl (fun s a => ?_) ..) <|
    .after (State.delayChecks_keepsStores ..) (State.setRing_keepsStores ..))
  split
  exacts [.ite (State.integrate_keepsStores ..) (.refl _), .refl _]

theorem State.sendStart_keepsStores (s : State) (r : RingId) : Keeps s (s.sendStart r) := by
  unfold State.sendStart
  exact .ite (State.setRing_keepsStores ..) (.refl _)

theorem State.ringCycle_keepsStores (s : State) (r : RingId) : Keeps s (s.ringCycle r) := by
  unfold State.ringCycle
  exact .after (State.applySwitch_keepsStores ..) <|
    .after (.ite (State.setRing_keepsStores ..) (.ite (State.setRing_keepsStores ..) (.refl _))) <|
    .after (.ite (State.onRing_keepsStores ..) (.refl _)) <| .after (.ite (State.sendStart_keepsStores ..) (.refl _)) <|
    .after (State.retimeRing_keepsStores ..) (State.onRing_keepsStores ..)

/-! ### Junction -/

theorem State.onJn_keepsStores (s : State) (f : StJn → StJn) : Keeps s (s.onJn f) := .beside rfl rfl

theorem State.onInst_keepsStores (s : State) (id : Nat) (f : InstSt → InstSt) : Keeps s (s.onInst id f) := by
  unfold State.onInst
  exact State.onJn_keepsStores ..

theorem State.makeReady_keepsStores (s : State) (t : Fired) : Keeps s (s.makeReady t) := by
  unfold State.makeReady
  split
  · exact .refl _
  · dsimp only
    split
    · exact .after (State.onLane_keepsStores (h := fun _ h => h) ..) (State.onJn_keepsStores ..)
    · exact State.onJn_keepsStores ..

theorem State.enlist_keepsStores (s : State) (x : InstSt) (t : Fired) : Keeps s (s.enlist x t) := by
  unfold State.enlist
  exact .ite (State.makeReady_keepsStores ..) (State.onJn_keepsStores ..)

theorem State.fire_keepsStores (s : State) (id : Nat) : Keeps s (s.fire id) := by
  unfold State.fire
  split
  · exact .refl _
  · exact .ite (.refl _) (.after (State.enlist_keepsStores ..) (State.onInst_keepsStores ..))

theorem State.dropToken_keepsStores (s : State) : Keeps s s.dropToken := by
  unfold State.dropToken
  exact .after (State.inc_keepsStores ..) (State.setBit_keepsStores ..)

theorem State.checkMeas_keepsStores (s : State) (id age : Nat) : Keeps s (s.checkMeas id age) := by
  unfold State.checkMeas
  refine .ite (.refl _) (.ite (State.onInst_keepsStores ..) ?_)
  dsimp only
  split
  · exact .after (.ite (.refl _) (.after (State.onInst_keepsStores ..) (State.log_keepsStores ..))) (.ite
      (.after (State.setBit_keepsStores ..) (State.stopDemand_keepsStores ..)) (.refl _))
  · exact .ite (.after (State.setBit_keepsStores ..) (State.stopDemand_keepsStores ..)) (.refl _)

theorem State.place_keepsStores (s : State) (id port tag : Nat) (t : Tok) : Keeps s (s.place id port tag t) := by
  unfold State.place
  split
  · exact .refl _
  · refine .ite (.refl _) ?_
    split
    · exact .refl _
    · exact .ite (.ite (State.dropToken_keepsStores ..) (.ite (State.inc_keepsStores ..) (.after (.ite (State.checkMeas_keepsStores ..)
        (.refl _)) (State.onInst_keepsStores ..)))) (.ite (.ite (State.inc_keepsStores ..) (State.onInst_keepsStores ..))
        (State.dropToken_keepsStores ..))

theorem State.fireAll_keepsStores (s : State) (ids : List Nat) : Keeps s (s.fireAll ids) := by
  unfold State.fireAll
  exact keeps_foldl (fun s id => State.fire_keepsStores ..) ..

theorem State.arrive_keepsStores (s : State) (id port tag : Nat) (t : Tok) : Keeps s (s.arrive id port tag t) := by
  unfold State.arrive
  exact .after (State.fire_keepsStores ..) (State.place_keepsStores ..)

theorem State.arriveAll_keepsStores (s : State) (l : List (Nat × Nat × Nat)) (t : Tok) : Keeps s (s.arriveAll l t) := by
  unfold State.arriveAll
  exact .after (State.fireAll_keepsStores ..) (keeps_foldl (fun s p => State.place_keepsStores ..) ..)

theorem State.toObject_keepsStores (s : State) (key cycle : Nat) (v : Bytes) : Keeps s (s.toObject key cycle v) := by
  unfold State.toObject
  exact .after (State.txWrite_keepsStores ..) (State.setObj_keepsStores ..)

theorem State.placeOut_keepsStores (s : State) (id port tag : Nat) (t : Tok) : Keeps s (s.placeOut id port tag t) := by
  unfold State.placeOut
  exact .after (keeps_foldl (fun s e => State.toObject_keepsStores ..) ..) <|
    .after (.ite (State.toObject_keepsStores ..) (.refl _)) (keeps_foldl (fun s p => State.place_keepsStores ..) ..)

theorem State.deliverOuts_keepsStores (s : State) (id tag : Nat) (late stale : Bool) (age : Nat) (outs : List Bytes) :
    Keeps s (s.deliverOuts id tag late stale age outs) := by
  unfold State.deliverOuts
  exact .after (State.fireAll_keepsStores ..) (keeps_foldl (fun s p => State.placeOut_keepsStores ..) ..)

theorem State.complete_keepsStores (s : State) (t : Fired) (block : Bytes) (stale : Bool) (age : Nat) (outs : List Bytes) :
    Keeps s (s.complete t block stale age outs) := by
  unfold State.complete
  exact .after (State.deliverOuts_keepsStores ..) (State.onInst_keepsStores ..)

theorem State.initialOuts_keepsStores (s : State) (id : Nat) : Keeps s (s.initialOuts id).2 := by
  unfold State.initialOuts
  split
  exacts [.refl _, .beside rfl rfl]

theorem State.lateOut_keepsStores (s : State) (id tag : Nat) : Keeps s (s.lateOut id tag) := by
  unfold State.lateOut
  split
  · exact .refl _
  · refine .after (State.deliverOuts_keepsStores ..) <| .after (.ite (State.stopDemand_keepsStores ..) (.refl _)) <|
      .after (State.onInst_keepsStores ..) <| .after (.ite (State.log_keepsStores ..) (.refl _)) <|
      .after (State.setBit_keepsStores ..) <| .after (State.inc_keepsStores ..) ?_
    split
    exacts [.refl _, State.initialOuts_keepsStores ..]

theorem State.abortTask_keepsStores (s : State) (t : Fired) : Keeps s (s.abortTask t) := by
  unfold State.abortTask
  exact .after (State.lateOut_keepsStores ..) <| .after (State.onInst_keepsStores ..) <| .after (State.setBit_keepsStores ..) <|
    .after (State.onJn_keepsStores ..) (State.mapLanes_keepsStores s _ (fun _ h => h))

theorem State.abortCounts_keepsStores (s : State) (id : Nat) : Keeps s (s.abortCounts id) := by
  unfold State.abortCounts
  split
  exacts [.after (State.count_keepsStores ..) (.ite (State.slack_keepsStores ..) (.refl _)), .refl _]

theorem taskAbort_keepsStores (id : Fin 1024) (s : State) : Keeps s (taskAbort id s) := by
  unfold taskAbort
  refine .ite (.refl _) ?_
  split
  · exact .after (State.abortTask_keepsStores ..) (State.abortCounts_keepsStores ..)
  · exact .refl _
  · exact .ite (.refl _) (.after (State.lateOut_keepsStores ..) (State.onInst_keepsStores ..))

theorem tokenArrival_keepsStores (id : Fin 1024) (port : Fin 8) (t : Token) (s : State) : Keeps s (tokenArrival id port t s) := by
  unfold tokenArrival
  exact State.arrive_keepsStores ..

theorem State.substitute_keepsStores (s : State) (x : InstSt) : Keeps s (s.substitute x) := by
  unfold State.substitute
  exact .ite (.refl _) (.ite (.refl _) (.after (State.fire_keepsStores ..) <| .after (State.checkMeas_keepsStores ..) <|
    .after (State.onInst_keepsStores ..) (State.setBit_keepsStores ..)))

theorem rxDeadlineSubstitution_keepsStores (s : State) : Keeps s (rxDeadlineSubstitution s) := by
  unfold rxDeadlineSubstitution
  exact .ite (.refl _) (keeps_foldl (fun s x => State.substitute_keepsStores ..) ..)

theorem releaseTick_keepsStores (tick : Nat) (s : State) : Keeps s (releaseTick tick s) := by
  unfold releaseTick
  exact .ite (.refl _) (keeps_foldl (fun s st => .after (keeps_foldl (fun s p => State.makeReady_keepsStores ..) ..)
    (State.onJn_keepsStores ..)) ..)

theorem State.choose_keepsStores {s t : State} {st : Nat} {x : SlotTask} (h : s.choose st = some (x, t)) : Keeps s t := by
  unfold State.choose at h
  split at h
  · cases h; exact .beside rfl rfl
  · dsimp only at h
    by_cases hfrom : (if s.jn.load (s.above st) < s.jn.load (s.below st) then s.below st else s.above st) = st
    · rw [if_pos hfrom] at h; cases h
    · rw [if_neg hfrom] at h
      split at h
      · obtain ⟨-, rfl⟩ := Prod.mk.inj (Option.some.inj h)
        exact .after (State.patchObj_keepsStores ..) (.beside rfl rfl)
      · cases h

theorem State.prefetch_keepsStores (s : State) (l : Nat) : Keeps s (s.prefetch l) := by
  unfold State.prefetch
  refine .ite (.refl _) ?_
  split
  next h => exact .after (State.onLane_keepsStores (h := fun _ h => h) ..) (State.choose_keepsStores h)
  next => exact .refl s

theorem taskStart_keepsStores (lane : Fin 64) (s : State) : Keeps s (taskStart lane s) := by
  unfold taskStart
  refine .ite (.refl _) (.after ?_ (State.prefetch_keepsStores s lane.val))
  dsimp only
  split
  · exact .refl _
  · split
    · exact State.onLane_keepsStores (h := fun _ h => h) ..
    · exact .after (State.prefetch_keepsStores ..) <| .after (State.count_keepsStores ..) <|
        State.onLane_keepsStores (h := fun _ h => memWf_write _ _ (memWf_filter _ h)) ..

theorem dmaDone_keepsStores (lane : Fin 64) (s : State) : Keeps s (dmaDone lane s) := by
  unfold dmaDone
  exact .ite (.refl _) (State.onLane_keepsStores (h := fun _ h => h) ..)

/-! ### Recorder -/

theorem State.onRec_keepsStores (s : State) (f : StRec → StRec) : Keeps s (s.onRec f) := .beside rfl rfl

theorem State.drops_keepsStores (s : State) (safety : Bool) (n : Nat) : Keeps s (s.drops safety n) := by
  unfold State.drops
  exact .ite (.refl _) (.after (State.setBit_keepsStores ..) (State.patchObj_keepsStores ..))

theorem State.checkUsable_keepsStores (s : State) (safety : Bool) : Keeps s (s.checkUsable safety) := by
  unfold State.checkUsable
  exact .ite (.after (State.setBit_keepsStores ..) <| .after (State.onRec_keepsStores ..) (State.drops_keepsStores ..)) (.refl _)

theorem flashProgramDone_keepsStores (ring : RecRing) (ok : Bool) (s : State) : Keeps s (flashProgramDone ring ok s) := by
  unfold flashProgramDone
  dsimp only
  split
  · exact .ite (.refl _) (.after (State.onRec_keepsStores ..) <|
      .after (.ite (State.onRec_keepsStores ..) (.after (State.checkUsable_keepsStores ..) (State.onRec_keepsStores ..)))
      (State.onRec_keepsStores ..))
  · exact .refl _

theorem sectorEraseDone_keepsStores (ring : RecRing) (ok : Bool) (s : State) : Keeps s (sectorEraseDone ring ok s) := by
  unfold sectorEraseDone
  dsimp only
  split
  · exact .refl _
  · exact .refl _
  · exact .after (State.onRec_keepsStores ..) (.ite (State.onRec_keepsStores ..) (.after (State.checkUsable_keepsStores ..) <|
      .after (State.onRec_keepsStores ..) (State.onRec_keepsStores ..)))

theorem State.saveEntry_keepsStores (s : State) (kind : Nat) : Keeps s (s.saveEntry kind) := by
  unfold State.saveEntry
  exact State.onRec_keepsStores ..

theorem periodicSave_keepsStores (s : State) : Keeps s (periodicSave s) := by
  unfold periodicSave
  exact .ite (.refl _) (.after (State.log_keepsStores ..) (State.saveEntry_keepsStores ..))

theorem State.finalRecord_keepsStores (s : State) (trigger : Nat) : Keeps s (s.finalRecord trigger) := by
  unfold State.finalRecord
  exact .ite (.refl _) (.after (State.saveEntry_keepsStores ..) (State.onRec_keepsStores ..))

theorem State.mountRecorder_keepsStores (s : State) : Keeps s s.mountRecorder := by
  unfold State.mountRecorder
  exact .after (keeps_foldl (fun s h => .after (State.onRec_keepsStores ..) <|
    .after (State.log_keepsStores ..) (State.onRec_keepsStores ..)) ..) <| .after (.beside rfl rfl) <|
    .after (State.setBit_keepsStores ..) <| .after (.ite (State.setBit_keepsStores ..) (.refl _)) <|
    .after (.ite (State.setBit_keepsStores ..) (.refl _)) <| .after (State.saveEntry_keepsStores ..) <|
    .after (State.setObj_keepsStores ..) (State.onRec_keepsStores ..)

theorem recordRequest_keepsStores (source : BitVec 2) (type : W16) (software : Bool) (payload : Bytes) (s : State) :
    Keeps s (recordRequest source type software payload s) := by
  unfold recordRequest
  exact State.record_keepsStores ..

theorem State.clearRings_keepsStores (s : State) (mask type nSafe : Nat) : Keeps s (s.clearRings mask type nSafe) := by
  unfold State.clearRings
  exact .after (State.log_keepsStores ..) <| .after (State.onRec_keepsStores ..) <|
    .after (State.fresh_keepsStores ..) (State.fresh_keepsStores ..)

theorem recClearEff_keepsStores (v : Bytes) (s : State) : Keeps s (recClearEff v s) := by
  unfold recClearEff
  exact .ite (.refl _) (State.clearRings_keepsStores ..)

theorem recSafeSectEff_keepsStores (v : Bytes) (s : State) : Keeps s (recSafeSectEff v s) := by
  unfold recSafeSectEff
  exact .after (State.clearRings_keepsStores ..) (State.setObj_keepsStores ..)

theorem recClear_keepsStores (rq : Requester) (v : Byte) (s : State) : Keeps s (recClear rq v s) := by
  unfold recClear
  exact submitWrite_keepsStores (h := fun s => recClearEff_keepsStores ..) ..

theorem recSafeSect_keepsStores (rq : Requester) (v : W32) (s : State) : Keeps s (recSafeSect rq v s) := by
  unfold recSafeSect
  exact submitWrite_keepsStores (h := fun s => recSafeSectEff_keepsStores ..) ..

/-! ### Safety In -/

theorem State.onSafe_keepsStores (s : State) (f : StSafe → StSafe) : Keeps s (s.onSafe f) := .beside rfl rfl

theorem State.onArm_keepsStores (s : State) (a : Nat) (f : SafeArm → SafeArm) : Keeps s (s.onArm a f) := by
  unfold State.onArm
  exact State.onSafe_keepsStores ..

theorem State.onArms_keepsStores (s : State) (f : Nat → SafeArm → SafeArm) : Keeps s (s.onArms f) := by
  unfold State.onArms
  exact State.onSafe_keepsStores ..

theorem State.beginSs1_keepsStores (s : State) : Keeps s s.beginSs1 := by
  unfold State.beginSs1
  exact State.onArms_keepsStores ..

theorem State.safeLog_keepsStores (s : State) (h : Bool) (type : Nat) (payload : Bytes) : Keeps s (s.safeLog h type payload) := by
  unfold State.safeLog
  exact State.record_keepsStores ..

theorem State.stopRecord_keepsStores (s : State) (h : Bool) (kind who : Nat) : Keeps s (s.stopRecord h kind who) := by
  unfold State.stopRecord
  exact State.safeLog_keepsStores ..

theorem State.safetyStop_keepsStores (s : State) : Keeps s s.safetyStop := by
  unfold State.safetyStop
  exact .after (State.interrupt_keepsStores ..) (State.stopDemand_keepsStores ..)

theorem State.act_keepsStores (s : State) (h : Bool) (kind who : Nat) : Keeps s (s.act h kind who) := by
  unfold State.act
  dsimp only
  split
  · exact .after (State.safetyStop_keepsStores ..) <| .after (State.onArms_keepsStores ..) (State.stopRecord_keepsStores ..)
  · exact .after (State.safetyStop_keepsStores ..) <| .after (State.beginSs1_keepsStores ..) (State.stopRecord_keepsStores ..)
  · exact .after (.beside rfl rfl) (State.stopRecord_keepsStores ..)

theorem State.drive_keepsStores (s : State) : Keeps s s.drive := by
  unfold State.drive
  exact State.onSafe_keepsStores ..

theorem State.setChFault_keepsStores (s : State) (h : Bool) (code : Nat) : Keeps s (s.setChFault h code) := by
  unfold State.setChFault
  exact .after (State.setBit_keepsStores ..) (State.patchObj_keepsStores ..)

theorem State.chanRecord_keepsStores (s : State) (h : Bool) (code : Nat) : Keeps s (s.chanRecord h code) := by
  unfold State.chanRecord
  exact State.safeLog_keepsStores ..

theorem State.chanFault_keepsStores (s : State) (h : Bool) (code : Nat) : Keeps s (s.chanFault h code) := by
  unfold State.chanFault
  exact .ite (.ite (.refl _) (.after (.beside rfl rfl) <|
    .after (State.chanRecord_keepsStores ..) (State.setChFault_keepsStores ..))) (.ite (.refl _) (.after (.ite (.beside rfl rfl)
    (.beside rfl rfl)) <| .after (State.chanRecord_keepsStores ..) (State.setChFault_keepsStores ..)))

theorem State.linkFault_keepsStores (s : State) : Keeps s s.linkFault := by
  unfold State.linkFault
  exact .ite (.refl _) (.after (.beside rfl rfl) <| .after (State.chanRecord_keepsStores ..) <|
    .after (State.chanRecord_keepsStores ..) <| .after (State.setChFault_keepsStores ..) (State.setChFault_keepsStores ..))

theorem State.inputFault_keepsStores (s : State) (i kind : Nat) : Keeps s (s.inputFault i kind) := by
  unfold State.inputFault
  exact .after (.ite (.refl _) (.after (State.safeLog_keepsStores ..) <|
    .after (State.setBit_keepsStores ..) (State.setBit_keepsStores ..))) (State.onSafe_keepsStores ..)

theorem State.settleInput_keepsStores (s : State) (i : Nat) : Keeps s (s.settleInput i) := by
  unfold State.settleInput
  exact .ite (State.onSafe_keepsStores ..) (.ite (.after (State.onSafe_keepsStores ..) (.ite (.after (State.setBit_keepsStores ..)
    (State.setBit_keepsStores ..)) (.refl _))) (.refl _))

theorem State.guardTest_keepsStores (s : State) : Keeps s s.guardTest := by
  unfold State.guardTest
  exact .ite (State.setBit_keepsStores ..) (.refl _)

theorem State.resetInput_keepsStores (s : State) : Keeps s s.resetInput := by
  unfold State.resetInput
  split
  · exact .refl _
  · dsimp only
    split
    · exact .ite (State.onSafe_keepsStores ..) (.refl _)
    · exact .ite (.refl _) (.after (.ite (State.setBit_keepsStores ..) (.refl _)) (State.onSafe_keepsStores ..))

theorem State.newDemands_keepsStores (old s : State) (h : Bool) : Keeps s (old.newDemands s h) :=
  keeps_foldl (fun s i => .after (.ite (.refl _) (.ite (.ite (State.onArms_keepsStores ..) (.refl _)) (State.act_keepsStores ..)))
    (.ite (State.setBit_keepsStores ..) (.refl _))) ..

theorem State.evalInputs_keepsStores (old s : State) : Keeps s (old.evalInputs s) := by
  unfold State.evalInputs
  exact .after (State.drive_keepsStores ..) <| .after (State.setBit_keepsStores ..) <| .after (State.setN_keepsStores ..) <|
    .after (State.setBit_keepsStores ..) <| .after (State.guardTest_keepsStores ..) <| .after (State.resetInput_keepsStores ..) <|
    .after (.ite (State.act_keepsStores ..) (.refl _)) <| .after (.ite (State.act_keepsStores ..) (.refl _)) <|
    .after (State.newDemands_keepsStores ..) <| .after (State.newDemands_keepsStores ..) <|
    keeps_foldl (fun s i => State.settleInput_keepsStores s i) ..

theorem State.pulseFaults_keepsStores (s : State) (h : Bool) (img : Nat) : Keeps s (s.pulseFaults h img) := by
  unfold State.pulseFaults
  exact .after (keeps_foldl (fun s i => State.inputFault_keepsStores ..) ..) <|
    .after (keeps_foldl (fun s i => State.inputFault_keepsStores ..) ..) (State.onSafe_keepsStores ..)

theorem safeScan_keepsStores (ch : SafeChan) (bits : BitVec 40) (s : State) : Keeps s (safeScan ch bits s) := by
  unfold safeScan
  exact .ite (.refl _) (.ite (.after (.ite (.after (State.drive_keepsStores ..) (State.chanFault_keepsStores ..)) (.refl _))
    (State.onSafe_keepsStores ..)) (.after (State.evalInputs_keepsStores ..) <| .after (State.setN_keepsStores ..) <|
    .after (State.onSafe_keepsStores ..) (State.pulseFaults_keepsStores ..)))

theorem discTimeExpiry_keepsStores (i : Fin 32) (s : State) : Keeps s (discTimeExpiry i s) := by
  unfold discTimeExpiry
  exact .ite (.refl _) (.after (State.evalInputs_keepsStores ..) <| .after (State.onSafe_keepsStores ..) (State.inputFault_keepsStores ..))

theorem State.outputFault_keepsStores (s : State) (h : Bool) : Keeps s (s.outputFault h) := by
  unfold State.outputFault
  exact .after (State.drive_keepsStores ..) <| .after (State.chanFault_keepsStores ..) (State.setBit_keepsStores ..)

theorem readbackMismatch_keepsStores (ch : SafeChan) (_out : Fin 32) (s : State) : Keeps s (readbackMismatch ch _out s) := by
  unfold readbackMismatch
  exact .ite (.refl _) (State.outputFault_keepsStores ..)

theorem outputDarkTest_keepsStores (ch : SafeChan) (follows : W32) (s : State) : Keeps s (outputDarkTest ch follows s) := by
  unfold outputDarkTest
  exact .ite (.refl _) (.ite (.refl _) (State.outputFault_keepsStores ..))

/-! ### Security -/

theorem State.verifying_keepsStores (s : State) (rq : Requester) (index sub : Nat) (d : Bytes) (run : State → State)
    (h : ∀ s, Keeps s (run s)) : Keeps s (s.verifying rq index sub d run) :=
  .ite (.after (State.onSec_keepsStores (h := fun _ => rfl) ..) (State.answer_keepsStores ..)) (h s)

theorem State.bootImages_keepsStores (s : State) : Keeps s s.bootImages := by
  unfold State.bootImages
  have hseed (s : State) (seed : Bytes) :
      Keeps s (({ s with free := s.free + 1 } : State).onSec (fun x => { x with fuses := { x.fuses with devSeed := some seed } })) :=
    .after (State.onFuses_keepsStores _ (fun f => { f with devSeed := some seed }) (fun f => { FusesGrow.refl f with })) (.beside rfl rfl)
  exact .after (State.setN_keepsStores ..) <| .after (State.setN_keepsStores ..) <| .after (State.setN_keepsStores ..) <|
    .after (State.setN_keepsStores ..) <| .after (.ite (hseed ..) (.refl _)) <| (State.onSec_keepsStores (h := fun _ => rfl) ..)

theorem State.bootRecord_keepsStores (s : State) : Keeps s s.bootRecord := by
  unfold State.bootRecord
  exact State.log_keepsStores ..

theorem State.fuseRecord_keepsStores (s : State) (kind slot value : Nat) : Keeps s (s.fuseRecord kind slot value) := by
  unfold State.fuseRecord
  exact State.record_keepsStores ..

theorem imageEff_keepsStores (rq : Requester) (t : Nat) (d : Bytes) (s : State) : Keeps s (imageEff rq t d s) :=
  State.onSec_keepsStores (h := fun x => StSec.onImg_fuses x t _) ..

theorem imageWrite_keepsStores (rq : Requester) (t : ImgType) (d : Bytes) (s : State) : Keeps s (imageWrite rq t d s) := by
  unfold imageWrite
  exact .after (.ite (State.setBit_keepsStores ..) (.refl _)) (submitWrite_keepsStores (h := fun s => imageEff_keepsStores ..) ..)

theorem State.imageDone_keepsStores (s : State) (t : Nat) (d : Bytes) (rq : Requester) (ok : Bool) : Keeps s (s.imageDone t d rq ok) := by
  unfold State.imageDone
  exact .after (State.finish_keepsStores ..) <|
    .after (.ite (State.log_keepsStores ..) (.after (State.log_keepsStores ..) (State.setBit_keepsStores ..))) <|
    State.onSec_keepsStores (h := fun x => StSec.onImg_fuses x t _) ..

theorem State.confirmType_keepsStores (s : State) (t : Nat) : Keeps s (s.confirmType t) := by
  unfold State.confirmType
  dsimp only
  split
  · exact .refl s
  next b _ =>
    have hslot : Keeps s (s.onSec (fun x => x.onImg t (fun i => { i.setSt b .valid with active := b }))) :=
      State.onSec_keepsStores (h := fun x => StSec.onImg_fuses x t _) ..
    have hlog := hslot.trans (State.logOpen_keepsStores _ 0 0x0102)
    have hfuses : ((s.onSec (fun x => x.onImg t (fun i => { i.setSt b .valid with active := b }))).logOpen 0 0x0102).sec.fuses =
        s.sec.fuses :=
      (congrArg StSec.fuses ((record_recordOnly _ _ _ _ _).1.2 .sec (by decide))).trans (StSec.onImg_fuses s.sec t _)
    refine .ite (.refl _) ?_
    split
    next hsvn =>
      refine .after (State.fuseRecord_keepsStores ..) ⟨hlog.canonical, hlog.pending, hlog.fuses.trans (fusesGrow_rollback ?_)⟩
      rw [hfuses]
      exact hsvn
    next => exact hlog

theorem secConfirmEff_keepsStores (v : Bytes) (s : State) : Keeps s (secConfirmEff v s) := by
  unfold secConfirmEff
  exact .ite (.refl _) (.after (State.setBit_keepsStores ..) <| .after (State.confirmType_keepsStores ..) <|
    .after (State.confirmType_keepsStores ..) (State.confirmType_keepsStores ..))

theorem secConfirm_keepsStores (rq : Requester) (v : Byte) (s : State) : Keeps s (secConfirm rq v s) := by
  unfold secConfirm
  exact submitWrite_keepsStores (h := fun s => secConfirmEff_keepsStores ..) ..

theorem ownerKeyEff_keepsStores (d : Bytes) (s : State) : Keeps s (ownerKeyEff d s) := by
  unfold ownerKeyEff
  split
  · exact .refl s
  next i hblank =>
    have hnone : s.sec.fuses.owner.getD i none = none := by simpa using List.find?_some hblank
    have hblow : Keeps s (s.fresh.2.onSec (fun x => { x with fuses :=
        { x.fuses with owner := modAt x.fuses.owner i (fun _ => some (fit 32 (Config.shake256 d 32))) } })) :=
      ⟨id, rfl, fusesGrow_owner hnone _⟩
    exact .after (State.fuseRecord_keepsStores ..) hblow

theorem secOwnerKey_keepsStores (rq : Requester) (d : Bytes) (s : State) : Keeps s (secOwnerKey rq d s) := by
  unfold secOwnerKey
  exact submitWrite_keepsStores (h := fun s => ownerKeyEff_keepsStores ..) ..

theorem ownerRevokeEff_keepsStores (v : Bytes) (s : State) : Keeps s (ownerRevokeEff v s) :=
  .after (State.fuseRecord_keepsStores ..) ⟨id, rfl, fusesGrow_revoked s.sec.fuses (leVal v)⟩

theorem secOwnerRevoke_keepsStores (rq : Requester) (v : Byte) (s : State) : Keeps s (secOwnerRevoke rq v s) := by
  unfold secOwnerRevoke
  exact submitWrite_keepsStores (h := fun s => ownerRevokeEff_keepsStores ..) ..

theorem devLockEff_keepsStores (v : Bytes) (s : State) : Keeps s (devLockEff v s) :=
  .ite (.refl _) <| .after (State.fuseRecord_keepsStores ..) <| .after (State.setBit_keepsStores ..) <|
    State.onFuses_keepsStores s (fun f => { f with devBlown := true }) (fun f => { FusesGrow.refl f with dev := fun _ => rfl })

theorem secDevLock_keepsStores (rq : Requester) (v : Byte) (s : State) : Keeps s (secDevLock rq v s) := by
  unfold secDevLock
  exact submitWrite_keepsStores (h := fun s => devLockEff_keepsStores ..) ..

theorem nonceEff_keepsStores (d : Bytes) (s : State) : Keeps s (nonceEff d s) := by
  unfold nonceEff
  exact .ite (.refl _) (.after (State.setBit_keepsStores ..) (State.onSec_keepsStores (h := fun _ => rfl) ..))

theorem attNonce_keepsStores (rq : Requester) (d : Bytes) (s : State) : Keeps s (attNonce rq d s) := by
  unfold attNonce
  exact submitWrite_keepsStores (h := fun s => nonceEff_keepsStores ..) ..

theorem State.reportSigned_keepsStores (s : State) (nonce seed : Bytes) : Keeps s (s.reportSigned nonce seed) := by
  unfold State.reportSigned
  exact .after (State.record_keepsStores ..) <| .after (State.setBit_keepsStores ..) (State.onSec_keepsStores (h := fun _ => rfl) ..)

theorem attCert_keepsStores (rq : Requester) (d : Bytes) (s : State) : Keeps s (attCert rq d s) := by
  unfold attCert
  exact State.verifying_keepsStores (h := fun s => (submitWrite_keepsStores (h := fun s => storeWrite_keepsStores ..) ..)) ..

/-! ### Safety Check -/

theorem State.onConn_keepsStores (s : State) (i : Nat) (f : ConnSt → ConnSt) : Keeps s (s.onConn i f) := by
  unfold State.onConn
  exact State.onSafe_keepsStores ..

theorem safetyCommand_keepsStores (r : RingId) (addr : BitVec 10) (f : Frame) (ownCycle : W32) (s : State) :
    Keeps s (safetyCommand r addr f ownCycle s) := by
  unfold safetyCommand
  dsimp only
  split
  exacts [State.setNode_keepsStores .., .refl _]

theorem nodeSafetyWatchdog_keepsStores (r : RingId) (addr : BitVec 10) (ch : SafeChan) (s : State) :
    Keeps s (nodeSafetyWatchdog r addr ch s) := by
  unfold nodeSafetyWatchdog
  exact State.setNode_keepsStores ..

theorem nodeSs1TimerExpiry_keepsStores (r : RingId) (addr : BitVec 10) (s : State) : Keeps s (nodeSs1TimerExpiry r addr s) := by
  unfold nodeSs1TimerExpiry
  exact .ite (State.setNode_keepsStores ..) (.refl _)

theorem State.openBrakes_keepsStores (s : State) (a : Nat) : Keeps s (s.openBrakes a) := by
  unfold State.openBrakes
  exact .ite (.after (State.drive_keepsStores ..) (State.onArm_keepsStores ..)) (.refl _)

theorem State.releaseBrakes_keepsStores (s : State) : Keeps s s.releaseBrakes := by
  unfold State.releaseBrakes
  exact .after (keeps_foldl (fun s a => State.openBrakes_keepsStores ..) ..) (State.onArms_keepsStores ..)

theorem brakeOpenExpiry_keepsStores (a : Fin 8) (s : State) : Keeps s (brakeOpenExpiry a s) := by
  unfold brakeOpenExpiry
  exact .ite (State.onArm_keepsStores ..) (.refl _)

theorem brakeReleaseTimeout_keepsStores (a : Fin 8) (s : State) : Keeps s (brakeReleaseTimeout a s) := by
  unfold brakeReleaseTimeout
  exact .ite (.after (State.drive_keepsStores ..) <| .after (State.safetyStop_keepsStores ..) <| .after (State.beginSs1_keepsStores ..) <|
    .after (State.stopRecord_keepsStores ..) (State.onArm_keepsStores ..)) (.refl _)

theorem brakeCloseExpiry_keepsStores (a : Fin 8) (s : State) : Keeps s (brakeCloseExpiry a s) := by
  unfold brakeCloseExpiry
  exact .ite (.after (State.drive_keepsStores ..) (State.onArm_keepsStores ..)) (.refl _)

theorem ss1TmaxExpiry_keepsStores (a : Fin 8) (s : State) : Keeps s (ss1TmaxExpiry a s) := by
  unfold ss1TmaxExpiry
  exact .ite (.after (State.drive_keepsStores ..) (State.onArm_keepsStores ..)) (.refl _)

theorem State.violate_keepsStores (s : State) (h : Bool) (a : Nat) : Keeps s (s.violate h a) := by
  unfold State.violate
  exact .after (State.safetyStop_keepsStores ..) <| .after (State.beginSs1_keepsStores ..) <|
    .after (State.stopRecord_keepsStores ..) (State.onArm_keepsStores ..)

theorem State.violateBoth_keepsStores (s : State) (a : Nat) : Keeps s (s.violateBoth a) := by
  unfold State.violateBoth
  exact .ite (.after (.ite (State.onArm_keepsStores ..) (.refl _)) (State.violate_keepsStores ..)) (.ite (State.violate_keepsStores ..)
    (.refl _))

theorem State.checkSs1_keepsStores (s : State) (a : Nat) : Keeps s (s.checkSs1 a) := by
  unfold State.checkSs1
  split
  · exact .refl _
  · exact .ite (.refl _) (.ite (State.onArm_keepsStores ..) (.ite (.refl _) (State.onArm_keepsStores ..)))

theorem State.checkHold_keepsStores (s : State) (a : Nat) : Keeps s (s.checkHold a) := by
  unfold State.checkHold
  split
  · exact .refl _
  · exact .after (.ite (.refl _) (.ite (.ite (.refl _) (State.violateBoth_keepsStores ..)) (.ite (.refl _)
      (State.violateBoth_keepsStores ..)))) (.ite (State.onArm_keepsStores ..) (.refl _))

theorem State.checkArmStop_keepsStores (s : State) (a : Nat) : Keeps s (s.checkArmStop a) := by
  unfold State.checkArmStop
  split
  exacts [.refl _, .ite (.refl _) (State.violateBoth_keepsStores ..)]

theorem State.checkSls_keepsStores (s : State) (a : Nat) : Keeps s (s.checkSls a) := by
  unfold State.checkSls
  refine .ite (State.onArm_keepsStores ..) ?_
  dsimp only
  split
  · exact State.onArm_keepsStores ..
  · exact .ite (.refl _) (.after (.ite (State.violate_keepsStores ..) (.refl _)) (.ite (State.violate_keepsStores ..) (.refl _)))

theorem State.checkSeparation_keepsStores (s : State) (a : Nat) : Keeps s (s.checkSeparation a) := by
  unfold State.checkSeparation
  exact .after (.ite (.beside rfl rfl) (.refl _)) (State.onArm_keepsStores ..)

theorem State.armStopBit_keepsStores (s : State) : Keeps s s.armStopBit := by
  unfold State.armStopBit
  exact State.setBit_keepsStores ..

theorem State.dropViolations_keepsStores (s : State) : Keeps s s.dropViolations := by
  unfold State.dropViolations
  exact State.onArms_keepsStores ..

theorem State.exchange_keepsStores (s : State) (fromP fromH : Bool) : Keeps s (s.exchange fromP fromH) := by
  unfold State.exchange
  exact .after (.ite (State.linkFault_keepsStores ..) (.ite (State.chanFault_keepsStores ..) (.ite (State.chanFault_keepsStores ..)
    (.ite (State.chanFault_keepsStores ..) (.refl _))))) (State.onSafe_keepsStores ..)

theorem State.safetyChecks_keepsStores (s : State) (fromP fromH : Bool) : Keeps s (s.safetyChecks fromP fromH) := by
  unfold State.safetyChecks
  exact .ite (.refl _) (.after (State.drive_keepsStores ..) <| .after (State.armStopBit_keepsStores ..) <|
    .after (keeps_foldl (fun s a => .after (State.checkSeparation_keepsStores ..) <| .after (State.checkSls_keepsStores ..) <|
    .after (State.checkArmStop_keepsStores ..) <| .after (State.checkHold_keepsStores ..) (State.checkSs1_keepsStores ..)) ..) <|
    .after (State.exchange_keepsStores ..) (State.dropViolations_keepsStores ..))

theorem armStopClear_keepsStores (a : Fin 8) (s : State) : Keeps s (armStopClear a s) := by
  unfold armStopClear
  exact .ite (.after (State.drive_keepsStores ..) <| .after (State.armStopBit_keepsStores ..) (State.onArm_keepsStores ..)) (.refl _)

theorem State.takeCovered_keepsStores (s : State) (i : Nat) : Keeps s (s.takeCovered i) := by
  unfold State.takeCovered
  split
  · refine .ite (.refl _) (.after (.ite ?_ (State.onSafe_keepsStores ..)) (State.onConn_keepsStores ..))
    split
    · exact .refl _
    · split
      exacts [.refl _, State.onArm_keepsStores ..]
  · exact .refl _

theorem State.btRecord_keepsStores (s : State) : Keeps s s.btRecord := by
  unfold State.btRecord
  split
  exacts [.ite (State.onSafe_keepsStores ..) (.refl _), .refl _]

theorem safetyStatus_keepsStores (f : Frame) (s : State) : Keeps s (safetyStatus f s) := by
  unfold safetyStatus
  refine .ite (.refl _) ?_
  dsimp only
  split
  · exact .refl _
  · exact .ite (.refl _) (.after (State.btRecord_keepsStores ..) <| .after (State.takeCovered_keepsStores ..) <|
      .after (.ite (keeps_foldl (fun s a => .after (State.openBrakes_keepsStores ..) (State.onArm_keepsStores ..)) ..) (.refl _))
      (State.onConn_keepsStores ..))

theorem State.takeCoveredSlot_keepsStores (s : State) (r : RingId) (slot : Nat) : Keeps s (s.takeCoveredSlot r slot) := by
  unfold State.takeCoveredSlot
  exact .after (State.btRecord_keepsStores ..) (keeps_foldl (fun s p => .ite (State.takeCovered_keepsStores ..) (.refl _)) ..)

theorem connLost_keepsStores (i : Fin 64) (s : State) : Keeps s (connLost i s) := by
  unfold connLost
  split
  · exact .refl _
  · exact .ite (.refl _) (.after (.ite (.after (State.drive_keepsStores ..)
      (keeps_foldl (fun s a => State.violateBoth_keepsStores ..) ..)) (.refl _)) <|
      .after (State.setBit_keepsStores ..) (State.onConn_keepsStores ..))

theorem State.btBits_keepsStores (s : State) : Keeps s s.btBits := by
  unfold State.btBits
  exact .after (.beside rfl rfl) <| .after (State.setBit_keepsStores ..) <|
    .after (State.setBit_keepsStores ..) (State.setBit_keepsStores ..)

theorem State.btRec_keepsStores (s : State) (a result moved : Nat) : Keeps s (s.btRec a result moved) := by
  unfold State.btRec
  exact .after (State.safeLog_keepsStores ..) (State.onArm_keepsStores ..)

theorem State.btRecFree_keepsStores (s : State) (a result : Nat) : Keeps s (s.btRecFree a result) := by
  unfold State.btRecFree
  exact .after (State.btRec_keepsStores ..) (State.fresh_keepsStores ..)

theorem State.btStart_keepsStores (s : State) (a : List Nat) : Keeps s (s.btStart a) := by
  unfold State.btStart
  split
  · exact State.onSafe_keepsStores ..
  · exact .ite (.after (State.drive_keepsStores ..) <|
      .after (State.btRecFree_keepsStores ..) (State.onSafe_keepsStores ..)) (.after (State.drive_keepsStores ..) <|
      .after (State.onSafe_keepsStores ..) (State.onArm_keepsStores ..))

theorem safeBtEff_keepsStores (v : Bytes) (s : State) : Keeps s (safeBtEff v s) := by
  unfold safeBtEff
  exact .ite (State.btStart_keepsStores ..) (.refl _)

theorem safeBtCmd_keepsStores (rq : Requester) (arms : Byte) (s : State) : Keeps s (safeBtCmd rq arms s) := by
  unfold safeBtCmd
  exact submitWrite_keepsStores (h := fun s => safeBtEff_keepsStores ..) ..

theorem btCompare_keepsStores (s : State) : Keeps s (btCompare s) := by
  unfold btCompare
  split
  · exact .refl _
  · split
    · exact .refl _
    · exact .after (State.drive_keepsStores ..) <| .after (State.btStart_keepsStores ..) <| .after (State.btBits_keepsStores ..) <|
        .after (State.onArm_keepsStores ..) (State.btRec_keepsStores ..)

theorem State.btAbort_keepsStores (s : State) : Keeps s s.btAbort := by
  unfold State.btAbort
  split
  · exact .refl _
  · exact .after (State.drive_keepsStores ..) <| .after (State.btRecFree_keepsStores ..) <|
      .after (State.onSafe_keepsStores ..) (State.onArm_keepsStores ..)

theorem btDueAt_keepsStores (a : Fin 8) (s : State) : Keeps s (btDueAt a s) := by
  unfold btDueAt
  exact .ite (.refl _) (.after (State.btBits_keepsStores ..) <| .after (State.btRecFree_keepsStores ..) (State.onArm_keepsStores ..))

theorem btOverdue_keepsStores (a : Fin 8) (s : State) : Keeps s (btOverdue a s) := by
  unfold btOverdue
  exact .after (State.btBits_keepsStores ..) (State.onArm_keepsStores ..)

theorem State.readSwitch_keepsStores (s : State) (h : Bool) (w : Nat) : Keeps s (s.readSwitch h w) := by
  unfold State.readSwitch
  dsimp only
  split
  · exact .after (State.setBit_keepsStores ..) <| .after (State.setN_keepsStores ..) (State.onSafe_keepsStores ..)
  · exact .after (State.setN_keepsStores ..) (State.onSafe_keepsStores ..)

theorem switchRead_keepsStores (ch : SafeChan) (word : W32) (s : State) : Keeps s (switchRead ch word s) := by
  unfold switchRead
  exact .ite (.refl _) (.after (State.drive_keepsStores ..) <| .after (.ite (.after (State.act_keepsStores ..) <|
    .after (State.safeLog_keepsStores ..) (State.setBit_keepsStores ..)) (.refl _)) <|
    .after (.ite (State.act_keepsStores ..) (.refl _)) (State.readSwitch_keepsStores ..))

theorem safeSetEff_keepsStores (rq : Requester) (d : Bytes) (s : State) : Keeps s (safeSetEff rq d s) := by
  unfold safeSetEff
  exact State.onSec_keepsStores (h := fun _ => rfl) ..

theorem safeSetDl_keepsStores (rq : Requester) (d : Bytes) (s : State) : Keeps s (safeSetDl rq d s) := by
  unfold safeSetDl
  exact State.verifying_keepsStores (h := fun s => (submitWrite_keepsStores (h := fun s => safeSetEff_keepsStores ..) ..)) ..

theorem State.setStored_keepsStores (s : State) (d : Bytes) (rq : Requester) (ok : Bool) : Keeps s (s.setStored d rq ok) := by
  unfold State.setStored
  exact .after (.ite (.after (State.finish_keepsStores ..) <|
    .after (State.safeLog_keepsStores ..) (State.onSafe_keepsStores ..)) (State.finish_keepsStores ..))
    (State.onSec_keepsStores (h := fun _ => rfl) ..)

theorem State.takeSet_keepsStores (s : State) (b : Bytes) : Keeps s (s.takeSet b) := by
  unfold State.takeSet
  exact .after (keeps_foldl (fun s p => State.setObj_keepsStores ..) ..) (keeps_foldl (fun s k => State.setObj_keepsStores ..) ..)

theorem State.loadSet_keepsStores (s : State) : Keeps s s.loadSet := by
  unfold State.loadSet
  refine .after (State.evalInputs_keepsStores ..) <| .after (State.onSafe_keepsStores ..) ?_
  split
  · exact .after (State.setBit_keepsStores ..) <| .after (State.setN_keepsStores ..) (.ite (State.takeSet_keepsStores ..) (.refl _))
  · exact .after (State.setBit_keepsStores ..) (State.setN_keepsStores ..)

theorem State.enterDegraded_keepsStores (s : State) : Keeps s s.enterDegraded := by
  unfold State.enterDegraded
  exact .after (State.safeLog_keepsStores ..) <| .after (State.setN_keepsStores ..) <| .after (State.setBit_keepsStores ..) <|
    .after (.beside rfl rfl) <| .after (State.onSafe_keepsStores ..) (State.enter_keepsStores ..)

theorem State.leaveDegraded_keepsStores (s : State) : Keeps s s.leaveDegraded := by
  unfold State.leaveDegraded
  exact .after (State.onSafe_keepsStores ..) (State.safeLog_keepsStores ..)

theorem degradedTimerExpiry_keepsStores (s : State) : Keeps s (degradedTimerExpiry s) := by
  unfold degradedTimerExpiry
  exact .ite (.beside rfl rfl) (.refl _)

theorem State.resetByRun_keepsStores (s : State) : Keeps s s.resetByRun := by
  unfold State.resetByRun
  exact .ite (State.setBit_keepsStores ..) (.refl _)

theorem periodicSelfTest_keepsStores (u : TestUnit) (ok : Bool) (s : State) : Keeps s (periodicSelfTest u ok s) := by
  unfold periodicSelfTest
  refine .ite (.refl _) ?_
  split <;> exact (.after (State.drive_keepsStores ..) (State.chanFault_keepsStores ..))

theorem spWatchdogExpiry_keepsStores (s : State) : Keeps s (spWatchdogExpiry s) := by
  unfold spWatchdogExpiry
  exact .ite (.refl _) (.after (State.drive_keepsStores ..) (State.chanFault_keepsStores ..))

/-! ### Motion -/

theorem State.onMot_keepsStores (s : State) (f : StMotion → StMotion) : Keeps s (s.onMot f) := .beside rfl rfl

theorem State.onMArm_keepsStores (s : State) (a : Nat) (f : ArmSt → ArmSt) : Keeps s (s.onMArm a f) := by
  unfold State.onMArm
  exact State.onMot_keepsStores ..

theorem State.onGrp_keepsStores (s : State) (g : Nat) (f : GrpSt → GrpSt) : Keeps s (s.onGrp g f) := by
  unfold State.onGrp
  exact State.onMot_keepsStores ..

theorem State.setArmMov_keepsStores (s : State) (a : Nat) (x : Mov) : Keeps s (s.setArmMov a x) := by
  unfold State.setArmMov
  exact .after (State.setObj_keepsStores ..) (State.onMArm_keepsStores ..)

theorem State.setGrpMov_keepsStores (s : State) (g : Nat) (x : Mov) : Keeps s (s.setGrpMov g x) := by
  unfold State.setGrpMov
  exact .after (State.setObj_keepsStores ..) (State.onGrp_keepsStores ..)

theorem State.armCam_keepsStores (s : State) (a : Nat) : Keeps s (s.armCam a) := by
  unfold State.armCam
  dsimp only
  split
  · exact .refl _
  · exact .ite (.refl _) (.ite (State.setArmMov_keepsStores ..) (State.setArmMov_keepsStores ..))

theorem State.moveRefused_keepsStores (s : State) (who : Nat) (d : Bytes) : Keeps s (s.moveRefused who d) := by
  unfold State.moveRefused
  exact State.log_keepsStores ..

theorem moveWrite_keepsStores (rq : Requester) (index sub who : Nat) (d : Bytes) (own : State → Nat) (eff : State → State) (s : State)
    (h : ∀ s, Keeps s (eff s)) : Keeps s (moveWrite rq index sub who d own eff s) :=
  .after (.ite (State.moveRefused_keepsStores ..) (.refl _)) (submitWrite_keepsStores (h := h) ..)

theorem armMoveEff_keepsStores (a : Nat) (d : Bytes) (s : State) : Keeps s (armMoveEff a d s) := by
  unfold armMoveEff
  exact .after (State.onMArm_keepsStores ..) (storeWrite_keepsStores ..)

theorem grpMoveEff_keepsStores (g : Nat) (d : Bytes) (s : State) : Keeps s (grpMoveEff g d s) := by
  unfold grpMoveEff
  exact .after (State.onGrp_keepsStores ..) (storeWrite_keepsStores ..)

theorem State.jogMask_keepsStores (s : State) : Keeps s s.jogMask := by
  unfold State.jogMask
  exact State.onSafe_keepsStores ..

theorem jogEff_keepsStores (a : Nat) (d : Bytes) (s : State) : Keeps s (jogEff a d s) := by
  unfold jogEff
  exact .after (State.jogMask_keepsStores ..) <| .after (State.onMArm_keepsStores ..) (storeWrite_keepsStores ..)

theorem jogCmd_keepsStores (rq : Requester) (a : Fin 8) (d : Bytes) (s : State) : Keeps s (jogCmd rq a d s) := by
  unfold jogCmd
  exact submitWrite_keepsStores (h := fun s => jogEff_keepsStores ..) ..

theorem jogTimeout_keepsStores (a : Fin 8) (s : State) : Keeps s (jogTimeout a s) := by
  unfold jogTimeout
  exact State.onMArm_keepsStores ..

theorem segTableWrite_keepsStores (rq : Requester) (n : Fin 256) (d : Bytes) (s : State) : Keeps s (segTableWrite rq n d s) := by
  unfold segTableWrite
  exact submitWrite_keepsStores (h := fun s => storeWrite_keepsStores ..) ..

theorem camTableWrite_keepsStores (rq : Requester) (n : Fin 256) (d : Bytes) (s : State) : Keeps s (camTableWrite rq n d s) := by
  unfold camTableWrite
  exact submitWrite_keepsStores (h := fun s => storeWrite_keepsStores ..) ..

theorem State.reseed_keepsStores (s : State) (rest : Bool) (a : Nat) : Keeps s (s.reseed rest a) := by
  unfold State.reseed
  exact State.onMArm_keepsStores ..

theorem State.reseedGroup_keepsStores (s : State) (rest : Bool) (g : Nat) : Keeps s (s.reseedGroup rest g) := by
  unfold State.reseedGroup
  exact .ite (.refl _) (State.onGrp_keepsStores ..)

theorem State.reseedAll_keepsStores (s : State) (rest : Bool) : Keeps s (s.reseedAll rest) := by
  unfold State.reseedAll
  exact .after (keeps_foldl (fun s g => State.reseedGroup_keepsStores ..) ..) (keeps_foldl (fun s a => State.reseed_keepsStores ..) ..)

theorem State.endRamps_keepsStores (s : State) : Keeps s s.endRamps := by
  unfold State.endRamps
  exact .after (State.jogMask_keepsStores ..) (keeps_foldl (fun s a => State.onMArm_keepsStores ..) ..)

theorem State.motionRun_keepsStores (s : State) : Keeps s s.motionRun := by
  unfold State.motionRun
  exact .after (State.reseedAll_keepsStores ..) <| .after (State.endRamps_keepsStores ..) (.beside rfl rfl)

theorem State.motionResume_keepsStores (s : State) : Keeps s s.motionResume := by
  unfold State.motionResume
  exact .after (State.reseedAll_keepsStores ..) (State.endRamps_keepsStores ..)

theorem State.failGrp_keepsStores (s : State) (g mstate err : Nat) : Keeps s (s.failGrp g mstate err) := by
  unfold State.failGrp
  exact State.setGrpMov_keepsStores ..

theorem State.motionStop_keepsStores (s : State) : Keeps s s.motionStop := by
  unfold State.motionStop
  exact .after (State.jogMask_keepsStores ..) <|
    .after (keeps_foldl (fun s g => .after (State.onGrp_keepsStores ..) (State.failGrp_keepsStores ..)) ..)
    (keeps_foldl (fun s a => .after (.ite (State.setArmMov_keepsStores ..) (State.setArmMov_keepsStores ..))
    (State.onMArm_keepsStores ..)) ..)

theorem State.clockStep_keepsStores (s : State) (l : Nat) (arms : List Nat) : Keeps s (s.clockStep l arms) := by
  unfold State.clockStep
  exact keeps_foldl (fun s a => .after (State.setN_keepsStores ..) <| .after (State.setN_keepsStores ..) (State.onMArm_keepsStores ..)) ..

theorem State.clocks_keepsStores (s : State) : Keeps s s.clocks := by
  unfold State.clocks
  exact .after (keeps_foldl (fun s a => .ite (.refl _) (State.clockStep_keepsStores ..)) ..)
    (keeps_foldl (fun s g => .ite (State.clockStep_keepsStores ..) (.refl _)) ..)

theorem grpCmdEff_keepsStores (g : Nat) (v : Bytes) (s : State) : Keeps s (grpCmdEff g v s) := by
  unfold grpCmdEff
  exact State.onMot_keepsStores ..

theorem grpClose_keepsStores (rq : Requester) (g : Fin 4) (s : State) : Keeps s (grpClose rq g s) := by
  unfold grpClose
  exact submitWrite_keepsStores (h := fun s => grpCmdEff_keepsStores ..) ..

theorem grpOpen_keepsStores (rq : Requester) (g : Fin 4) (s : State) : Keeps s (grpOpen rq g s) := by
  unfold grpOpen
  exact submitWrite_keepsStores (h := fun s => grpCmdEff_keepsStores ..) ..

theorem State.joinCrossings_keepsStores (s : State) (ms : List Nat) : Keeps s (s.joinCrossings ms) := by
  unfold State.joinCrossings
  exact .after (.beside rfl rfl) (keeps_foldl (fun s a => .after (State.setN_keepsStores ..) (State.setN_keepsStores ..)) ..)

theorem State.grpNow_keepsStores (s : State) (g cmd : Nat) : Keeps s (s.grpNow g cmd) := by
  unfold State.grpNow
  exact .ite (State.setN_keepsStores ..) (.after (keeps_foldl (fun s a => State.reseed_keepsStores ..) ..) (.ite
    (.after (State.setN_keepsStores ..) <|
    .after (keeps_foldl (fun s a => .after (State.setN_keepsStores ..) (State.setN_keepsStores ..)) ..) <|
    .after (State.joinCrossings_keepsStores ..) <|
    .after (State.setObj_keepsStores ..) (State.onGrp_keepsStores ..)) (.after (State.setN_keepsStores ..) (State.onGrp_keepsStores ..))))

theorem State.grpCycle_keepsStores (s : State) : Keeps s s.grpCycle := by
  unfold State.grpCycle
  exact .after (State.onMot_keepsStores ..) (keeps_foldl (fun s p => State.grpNow_keepsStores ..) ..)

theorem State.armEngage_keepsStores (s : State) (a : Nat) (x : Motion) : Keeps s (s.armEngage a x).1 := by
  unfold State.armEngage
  dsimp only
  split
  exacts [.refl _, State.fresh_keepsStores ..]

theorem State.armCamStart_keepsStores (s : State) (a : Nat) : Keeps s (s.armCamStart a) := by
  have hengage := State.armEngage_keepsStores s a (s.armMov a).motion
  unfold State.armCamStart
  refine .ite (.refl _) ?_
  split
  next heq => rw [heq] at hengage; exact hengage.trans (State.setArmMov_keepsStores ..)
  next heq => rw [heq] at hengage; exact hengage.trans (State.setArmMov_keepsStores ..)

theorem State.armTake_keepsStores (s : State) (a n : Nat) (d : Bytes) : Keeps s (s.armTake a n d) := by
  unfold State.armTake
  exact .after (State.armCamStart_keepsStores ..) <| .after (State.setArmMov_keepsStores ..) <|
    .after (State.jogMask_keepsStores ..) (State.onMArm_keepsStores ..)

theorem State.armJog_keepsStores (s : State) (a n : Nat) : Keeps s (s.armJog a n) := by
  unfold State.armJog
  split
  · exact .refl _
  · exact .ite (.ite (.after (State.jogMask_keepsStores ..) <|
      .after (State.setArmMov_keepsStores ..) (State.onMArm_keepsStores ..)) (.refl _)) (State.setArmMov_keepsStores ..)

theorem State.armRest_keepsStores (s : State) (a n : Nat) : Keeps s (s.armRest a n) := by
  unfold State.armRest
  exact .ite (State.onMArm_keepsStores ..) (.refl _)

theorem State.membersStart_keepsStores (s : State) (g n : Nat) : Keeps s (s.membersStart g n) := by
  unfold State.membersStart
  exact keeps_foldl (fun s a => State.onMArm_keepsStores ..) ..

theorem State.groupAgain_keepsStores (s : State) (g n : Nat) : Keeps s (s.groupAgain g n) := by
  unfold State.groupAgain
  exact .ite (.refl _) (.after (State.onGrp_keepsStores ..) (State.membersStart_keepsStores ..))

theorem State.groupRun_keepsStores (s : State) (g : Nat) : Keeps s (s.groupRun g) := by
  unfold State.groupRun
  exact .after (.ite (.ite (.after (State.onGrp_keepsStores ..) (State.membersStart_keepsStores ..)) (.refl _)) (.after
    (keeps_foldl (fun s d => State.setGrpMov_keepsStores ..) ..) (State.membersStart_keepsStores ..))) (State.onGrp_keepsStores ..)

theorem State.ikFail_keepsStores (s : State) (a : Nat) : Keeps s (s.ikFail a) := by
  unfold State.ikFail
  dsimp only
  split
  · exact .after (keeps_foldl (fun s b => State.onMArm_keepsStores ..) ..) (State.failGrp_keepsStores ..)
  · exact .after (State.onMArm_keepsStores ..) (State.setArmMov_keepsStores ..)

theorem State.planAgain_keepsStores (s : State) (a n : Nat) : Keeps s (s.planAgain a n) := by
  unfold State.planAgain
  exact .ite (.refl _) (State.onMArm_keepsStores ..)

theorem State.planMoves_keepsStores (s : State) (a n : Nat) : Keeps s (s.planMoves a n) := by
  unfold State.planMoves
  dsimp only
  split
  · exact .after (.ite (.refl _) (.after (.ite (.refl _) (State.groupRun_keepsStores ..)) <|
      .after (State.groupAgain_keepsStores ..) (.ite (State.membersStart_keepsStores ..) (.refl _)))) (State.onMArm_keepsStores ..)
  · exact .after (.ite (.ite (State.armRest_keepsStores ..) (.refl _)) (.after (State.armRest_keepsStores ..) <|
      .after (State.armJog_keepsStores ..) <|
      .after (keeps_foldl (fun s d => State.armTake_keepsStores ..) ..) (State.onMArm_keepsStores ..))) (State.planAgain_keepsStores ..)

theorem State.runArm_keepsStores (s : State) (a : Nat) : Keeps s (s.runArm a) := by
  unfold State.runArm
  exact .after (State.onMArm_keepsStores ..) <| .after (State.countWork_keepsStores ..) <|
    .after (.ite (State.ikFail_keepsStores ..) (.refl _)) (State.planMoves_keepsStores ..)

theorem State.planners_keepsStores (s : State) : Keeps s s.planners := by
  unfold State.planners
  exact .ite (.refl _) (keeps_foldl (fun s a => .ite (State.runArm_keepsStores ..) (.refl _)) ..)

theorem State.swapHalves_keepsStores (s : State) : Keeps s s.swapHalves := by
  unfold State.swapHalves
  exact State.onMot_keepsStores ..

theorem State.underruns_keepsStores (s : State) : Keeps s s.underruns := by
  unfold State.underruns
  exact .ite (.refl _) (keeps_foldl (fun s a => .ite (State.onMArm_keepsStores ..) (.ite (.refl _)
    (.after (State.stopDemand_keepsStores ..) <| .after (State.log_keepsStores ..) <|
    .after (State.onMArm_keepsStores ..) (State.setArmMov_keepsStores ..)))) ..)

theorem State.moveEnds_keepsStores (s : State) : Keeps s s.moveEnds := by
  unfold State.moveEnds
  exact .after (keeps_foldl (fun s g => .ite (.after (State.setGrpMov_keepsStores ..) (.ite (.refl _)
    (State.membersStart_keepsStores ..))) (.refl _)) ..) (keeps_foldl (fun s a => .after (.ite (.refl _)
    (.after (State.armCamStart_keepsStores ..) (State.setArmMov_keepsStores ..))) <|
    .after (State.armCamStart_keepsStores ..) (State.armCam_keepsStores ..)) ..)

theorem State.onHc_keepsStores (s : State) (c : Nat) (f : HcSt → HcSt) : Keeps s (s.onHc c f) := by
  unfold State.onHc
  exact State.onMot_keepsStores ..

theorem hcCtrlEff_keepsStores (c : Nat) (v : Bytes) (s : State) : Keeps s (hcCtrlEff c v s) := by
  unfold hcCtrlEff
  exact .after (State.setObj_keepsStores ..) (.ite (State.onHc_keepsStores ..) (.refl _))

theorem hcSwitchOn_keepsStores (rq : Requester) (c : Fin 32) (s : State) : Keeps s (hcSwitchOn rq c s) := by
  unfold hcSwitchOn
  exact submitWrite_keepsStores (h := fun s => hcCtrlEff_keepsStores ..) ..

theorem hcSwitchOff_keepsStores (rq : Requester) (c : Fin 32) (s : State) : Keeps s (hcSwitchOff rq c s) := by
  unfold hcSwitchOff
  exact submitWrite_keepsStores (h := fun s => hcCtrlEff_keepsStores ..) ..

theorem State.hcEval_keepsStores (s : State) (c m age : Nat) : Keeps s (s.hcEval c m age) := by
  unfold State.hcEval
  exact .after (State.onHc_keepsStores ..) <| .after (State.setBit_keepsStores ..) <| .after (State.setBit_keepsStores ..) <|
    .after (State.setBit_keepsStores ..) <| .after (State.setN_keepsStores ..) <|
    .after (State.setN_keepsStores ..) (State.setN_keepsStores ..)

theorem State.hcStep_keepsStores (s : State) (c : Nat) : Keeps s (s.hcStep c) := by
  unfold State.hcStep
  refine .after (State.onHc_keepsStores ..) (.ite (.refl _) (.ite ?_ (.ite (.after (.ite (State.setN_keepsStores ..) (.refl _))
    (State.setN_keepsStores ..)) (.refl _))))
  split
  · exact .ite (State.hcEval_keepsStores ..) (.after (State.setBit_keepsStores ..) (State.setBit_keepsStores ..))
  · exact .after (State.setBit_keepsStores ..) (State.setBit_keepsStores ..)

theorem State.hcCycle_keepsStores (s : State) : Keeps s s.hcCycle := by
  unfold State.hcCycle
  exact keeps_foldl (fun s c => State.hcStep_keepsStores ..) ..

theorem State.vmStep_keepsStores (s : State) (n : Nat) : Keeps s (s.vmStep n) := by
  unfold State.vmStep
  exact .ite (.refl _) (.after (State.setN_keepsStores ..) (State.onMot_keepsStores ..))

theorem State.vmCycle_keepsStores (s : State) : Keeps s s.vmCycle := by
  unfold State.vmCycle
  exact .ite (.refl _) (keeps_foldl (fun s n => State.vmStep_keepsStores ..) ..)

theorem State.motionCycle_keepsStores (s : State) : Keeps s s.motionCycle := by
  unfold State.motionCycle
  exact .after (State.vmCycle_keepsStores ..) <| .after (State.planners_keepsStores ..) <| .after (State.underruns_keepsStores ..) <|
    .after (State.moveEnds_keepsStores ..) <| .after (State.clocks_keepsStores ..) <| .after (State.hcCycle_keepsStores ..) <|
    .after (State.grpCycle_keepsStores ..) (State.swapHalves_keepsStores ..)

/-! ### Feedback -/

theorem State.onAxes_keepsStores (s : State) (f : StAxes → StAxes) : Keeps s (s.onAxes f) := .beside rfl rfl

theorem State.onFb_keepsStores (s : State) (c : Nat) (f : FbSt → FbSt) : Keeps s (s.onFb c f) := by
  unfold State.onFb
  exact State.onAxes_keepsStores ..

theorem State.onCmp_keepsStores (s : State) (c u : Nat) (f : CmpSt → CmpSt) : Keeps s (s.onCmp c u f) := by
  unfold State.onCmp
  exact State.onFb_keepsStores ..

theorem State.arm_keepsStores (s : State) (c u : Nat) (v : Bool) : Keeps s (s.arm c u v) := by
  unfold State.arm
  exact State.setBit_keepsStores ..

theorem State.fired_keepsStores (s : State) (c u : Nat) : Keeps s (s.fired c u) := by
  unfold State.fired
  exact .after (State.onCmp_keepsStores ..) <| .after (.ite (State.setBit_keepsStores ..) (.refl _)) <|
    .after (State.setObj_keepsStores ..) (State.setBit_keepsStores ..)

theorem State.evalCmp_keepsStores (s : State) (c u : Nat) (dir : Bool) (fuel : Nat) : Keeps s (s.evalCmp c u dir fuel) := by
  induction fuel generalizing s dir with
  | zero => exact .refl s
  | succ fuel ih =>
    unfold State.evalCmp
    have hfired : Keeps s ((s.setBit (kCmpStatus c u) 3 true).fired c u) := .after (State.fired_keepsStores ..) (State.setBit_keepsStores ..)
    refine .ite (.ite (.after (State.arm_keepsStores ..) hfired) (.after (ih ..) (.after (State.setI_keepsStores ..) hfired))) ?_
    exact .ite (.after (State.arm_keepsStores ..) (State.onCmp_keepsStores ..))
      (.after (State.arm_keepsStores ..) (.after (State.setBit_keepsStores ..) (State.onCmp_keepsStores ..)))

theorem State.fireCmp_keepsStores (s : State) (c u : Nat) (up : Bool) : Keeps s (s.fireCmp c u up) := by
  unfold State.fireCmp
  exact .ite (State.arm_keepsStores ..) (.after (.ite (State.arm_keepsStores ..) (.after (State.evalCmp_keepsStores ..)
    (State.setI_keepsStores ..))) (State.fired_keepsStores ..))

theorem State.compare_keepsStores (s : State) (c : Nat) (old : Int) (passes : Bool) : Keeps s (s.compare c old passes) := by
  unfold State.compare
  exact keeps_foldl (fun s u => .ite (State.fireCmp_keepsStores ..) (.refl _)) ..

theorem cmpValueEff_keepsStores (c u : Nat) (v : Bytes) (s : State) : Keeps s (cmpValueEff c u v s) := by
  unfold cmpValueEff
  exact .after (State.evalCmp_keepsStores ..) <| .after (State.onCmp_keepsStores ..) (State.setObj_keepsStores ..)

theorem cmpValue_keepsStores (rq : Requester) (c : Fin 16) (u : Fin 2) (v : W64) (s : State) : Keeps s (cmpValue rq c u v s) := by
  unfold cmpValue
  exact submitWrite_keepsStores (h := fun s => cmpValueEff_keepsStores ..) ..

theorem disarm_keepsStores (rq : Requester) (c : Fin 16) (u : Fin 2) (v : Byte) (s : State) : Keeps s (disarm rq c u v s) := by
  unfold disarm
  exact submitWrite_keepsStores (h := fun s => State.arm_keepsStores ..) ..

theorem cmpPulseEnd_keepsStores (c : Fin 16) (u : Fin 2) (s : State) : Keeps s (cmpPulseEnd c u s) := by
  unfold cmpPulseEnd
  exact State.onCmp_keepsStores ..

theorem State.countStep_keepsStores (s : State) (c : Nat) (d : Int) : Keeps s (s.countStep c d) := by
  unfold State.countStep
  exact .after (State.compare_keepsStores ..) (State.onFb_keepsStores ..)

theorem quadratureChange_keepsStores (c : Fin 16) (a b : Bool) (s : State) : Keeps s (quadratureChange c a b s) := by
  unfold quadratureChange
  exact .after (.ite (.refl _) (.ite (.refl _) (.ite (.after (State.inc_keepsStores ..) (State.setBit_keepsStores ..))
    (State.countStep_keepsStores ..)))) (State.onFb_keepsStores ..)

theorem State.reReference_keepsStores (s : State) (c : Nat) (dev : Int) : Keeps s (s.reReference c dev) := by
  unfold State.reReference
  exact .after (keeps_foldl (fun s u => .ite (State.evalCmp_keepsStores ..) (.refl _)) ..) <|
    .after (State.setBit_keepsStores ..) (State.onFb_keepsStores ..)

theorem indexEvent_keepsStores (c : Fin 16) (s : State) : Keeps s (indexEvent c s) := by
  unfold indexEvent
  exact .ite (.refl _) (.after (.ite (.refl _) (.ite (State.setBit_keepsStores ..) (State.reReference_keepsStores ..))) <|
    .after (.ite (State.setBit_keepsStores ..) (.refl _)) <| .after (State.setBit_keepsStores ..) (State.setObj_keepsStores ..))

theorem State.fbIdle_keepsStores (s : State) : Keeps s s.fbIdle := by
  unfold State.fbIdle
  exact State.onAxes_keepsStores ..

theorem absRequest_keepsStores (c : Fin 16) (datHigh : Bool) (s : State) : Keeps s (absRequest c datHigh s) := by
  unfold absRequest
  exact .ite (.refl _) (.ite (State.onFb_keepsStores ..) (State.setBit_keepsStores ..))

theorem State.absTake_keepsStores (s : State) (c b : Nat) (at_ : Int) (latch : Nat) : Keeps s (s.absTake c b at_ latch) := by
  unfold State.absTake
  exact .after (.ite (.after (State.compare_keepsStores ..) <|
    .after (State.setBit_keepsStores ..) (State.onFb_keepsStores ..)) (.ite (.after (State.compare_keepsStores ..) <|
    .after (State.setBit_keepsStores ..) (State.onFb_keepsStores ..)) (.ite (State.setBit_keepsStores ..) (.refl _))))
    (State.onFb_keepsStores ..)

theorem absReading_keepsStores (c : Fin 16) (word trailing : Nat) (datHigh : Bool) (latch : Time96) (s : State) :
    Keeps s (absReading c word trailing datHigh latch s) := by
  unfold absReading
  exact .after (.ite (.refl _) (.after (.ite (State.setBit_keepsStores ..) (.ite (State.setBit_keepsStores ..)
    (.ite (State.setBit_keepsStores ..) (State.absTake_keepsStores ..)))) (State.setN_keepsStores ..))) (State.onFb_keepsStores ..)

theorem State.cmpOff_keepsStores (s : State) (c : Nat) (disarm : Bool) : Keeps s (s.cmpOff c disarm) := by
  unfold State.cmpOff
  exact keeps_foldl (fun s u => .after (.ite (State.arm_keepsStores ..) (.refl _)) (State.onCmp_keepsStores ..)) ..

theorem State.fbReset_keepsStores (s : State) (c : Nat) : Keeps s (s.fbReset c) := by
  unfold State.fbReset
  exact .after (State.setBit_keepsStores ..) <| .after (State.setBit_keepsStores ..) <|
    .after (State.cmpOff_keepsStores ..) (State.onFb_keepsStores ..)

theorem State.fbCommit_keepsStores (s old : State) : Keeps s (s.fbCommit old) := by
  unfold State.fbCommit
  exact keeps_foldl (fun s c => .ite (State.fbReset_keepsStores ..) (.refl _)) ..

theorem State.fbStop_keepsStores (s : State) : Keeps s s.fbStop := by
  unfold State.fbStop
  exact keeps_foldl (fun s c => State.setBit_keepsStores ..) ..

theorem State.fbResume_keepsStores (s : State) : Keeps s s.fbResume := by
  unfold State.fbResume
  exact keeps_foldl (fun s c => State.fbReset_keepsStores ..) ..

theorem State.fbVelocity_keepsStores (s : State) (c : Nat) : Keeps s (s.fbVelocity c) := by
  unfold State.fbVelocity
  split
  · exact .ite (State.setN_keepsStores ..) (.after (State.setN_keepsStores ..) (State.fresh_keepsStores ..))
  · exact .refl _

theorem State.fbRead_keepsStores (s : State) (c : Nat) : Keeps s (s.fbRead c) := by
  unfold State.fbRead
  refine .ite (.refl _) ?_
  dsimp only
  split
  · exact .refl _
  · exact .after (State.fbVelocity_keepsStores ..) <| .after (State.onFb_keepsStores ..) <|
      .after (State.setObj_keepsStores ..) (State.setI_keepsStores ..)

theorem State.fbCycle_keepsStores (s : State) : Keeps s s.fbCycle := by
  unfold State.fbCycle
  exact keeps_foldl (fun s c => State.fbRead_keepsStores ..) ..

theorem State.onEmu_keepsStores (s : State) (e : Nat) (f : EmuSt → EmuSt) : Keeps s (s.onEmu e f) := by
  unfold State.onEmu
  exact State.onAxes_keepsStores ..

theorem State.emuStart_keepsStores (s : State) (e : Nat) : Keeps s (s.emuStart e) := by
  unfold State.emuStart
  exact .ite (.refl _) (.after (State.setBit_keepsStores ..) <| .after (State.setI_keepsStores ..) <|
    .after (State.onEmu_keepsStores ..) (State.onEmu_keepsStores ..))

theorem State.emuStop_keepsStores (s : State) (e : Nat) : Keeps s (s.emuStop e) := by
  unfold State.emuStop
  exact State.setBit_keepsStores ..

theorem State.emuPush_keepsStores (s : State) (mine : Nat → Bool) (applyNs : Nat) : Keeps s (s.emuPush mine applyNs) := by
  unfold State.emuPush
  exact keeps_foldl (fun s e => .ite (State.onEmu_keepsStores ..) (.refl _)) ..

theorem emuEdge_keepsStores (e : Fin 8) (s : State) : Keeps s (emuEdge e s) := by
  unfold emuEdge
  exact .ite (.refl _) (.ite (.refl _) (.after (State.onEmu_keepsStores ..) <|
    .after (State.setI_keepsStores ..) (.ite (State.setBit_keepsStores ..) (.refl _))))

/-! ### Square -/

theorem State.onSq_keepsStores (s : State) (f : StSquare → StSquare) : Keeps s (s.onSq f) := .beside rfl rfl

theorem State.setVolumes_keepsStores (s : State) (l : List Bytes) : Keeps s (s.setVolumes l) := by
  unfold State.setVolumes
  exact .after (.ite (State.setBit_keepsStores ..) (.refl _)) (State.setObj_keepsStores ..)

theorem State.takeVolumes_keepsStores (s : State) : Keeps s s.takeVolumes := by
  unfold State.takeVolumes
  exact .after (State.setVolumes_keepsStores ..) (.ite (.refl _) (.after (State.setBit_keepsStores ..)
    (keeps_foldl (fun s x => State.inc_keepsStores ..) ..)))

theorem State.setReq_keepsStores (s : State) (a m : Nat) : Keeps s (s.setReq a m) := by
  unfold State.setReq
  exact keeps_foldl (fun s b => State.setN_keepsStores ..) ..

theorem State.release_keepsStores (s : State) (a m : Nat) : Keeps s (s.release a m) := by
  unfold State.release
  exact keeps_foldl (fun s b => State.onSq_keepsStores ..) ..

theorem State.dropReq_keepsStores (s : State) (a : Nat) : Keeps s (s.dropReq a) := by
  unfold State.dropReq
  exact .after (State.setReq_keepsStores ..) (State.onSq_keepsStores ..)

theorem crReqEff_keepsStores (a : Nat) (v : Bytes) (s : State) : Keeps s (crReqEff a v s) := by
  unfold crReqEff
  exact .ite (.after (State.release_keepsStores ..) (State.dropReq_keepsStores ..)) (.ite (.after (State.setReq_keepsStores ..) <|
    .after (State.onSq_keepsStores ..) (State.dropReq_keepsStores ..)) (.ite (State.release_keepsStores ..) (.refl _)))

theorem crReq_keepsStores (rq : Requester) (a : Fin 8) (m : W32) (s : State) : Keeps s (crReq rq a m s) := by
  unfold crReq
  exact submitWrite_keepsStores (h := fun s => crReqEff_keepsStores ..) ..

theorem State.endReleases_keepsStores (s : State) : Keeps s s.endReleases := by
  unfold State.endReleases
  exact keeps_foldl (fun s a => .ite (.refl _) (.after (State.onSq_keepsStores ..) (State.setN_keepsStores ..))) ..

theorem State.grants_keepsStores (l : List CrPend) (named : Nat) (s : State) : Keeps s (State.grants l named s) := by
  induction l generalizing named s with
  | nil => exact .refl s
  | cons r l ih =>
    exact .after (ih ..) <| .ite (.after (keeps_foldl (fun s b => State.setN_keepsStores s _ _) ..) (State.dropReq_keepsStores ..)) (.refl _)

theorem State.crHolders_keepsStores (s : State) : Keeps s s.crHolders := by
  unfold State.crHolders
  exact keeps_foldl (fun s z => .after (State.patchObj_keepsStores ..) (State.patchObj_keepsStores ..)) ..

theorem State.squareCycle_keepsStores (s : State) : Keeps s s.squareCycle := by
  unfold State.squareCycle
  exact .after (.ite (.after (State.crHolders_keepsStores ..) <| .after (State.grants_keepsStores ..) <|
    .after (State.endReleases_keepsStores ..) (State.setBit_keepsStores ..)) (.after (State.setObj_keepsStores ..) <|
    .after (State.setBit_keepsStores ..) <| .after (State.setBit_keepsStores ..) <|
    .after (State.onSq_keepsStores ..) (State.setBit_keepsStores ..))) (State.onSq_keepsStores ..)

theorem State.clearCrossings_keepsStores (s : State) : Keeps s s.clearCrossings := by
  unfold State.clearCrossings
  exact .after (State.crHolders_keepsStores ..) <|
    .after (State.onSq_keepsStores ..) (keeps_foldl (fun s a => .after (State.setN_keepsStores ..) (State.setN_keepsStores ..)) ..)

theorem State.markZones_keepsStores (s : State) (inside : List (Nat × Nat)) : Keeps s (s.markZones inside) := by
  unfold State.markZones
  exact keeps_foldl (fun s z => .after (.ite (State.setBit_keepsStores ..) (.refl _)) <|
    .after (.ite (.after (State.stopDemand_keepsStores ..) (State.setBit_keepsStores ..)) (.refl _)) <|
    .after (State.patchObj_keepsStores ..) (State.patchObj_keepsStores ..)) ..

theorem State.solveStarts_keepsStores (s : State) : Keeps s s.solveStarts := .beside rfl rfl

theorem squareRun_keepsStores (s : State) : Keeps s (squareRun s) := by
  unfold squareRun
  exact .ite (.refl _) (.after (State.countWork_keepsStores ..) <|
    .after (.ite (.refl _) (.after (State.inc_keepsStores ..) (State.setBit_keepsStores ..))) <|
    .after (State.solveStarts_keepsStores ..) <| .after (State.setBit_keepsStores ..) <| .after (State.setBit_keepsStores ..) <|
    .after (State.setObj_keepsStores ..) <| .after (State.setObj_keepsStores ..) <| .after (State.setN_keepsStores ..) <|
    .after (State.setN_keepsStores ..) <| .after (State.onSq_keepsStores ..) <|
    .after (State.markZones_keepsStores ..) (State.takeVolumes_keepsStores ..))

theorem sqLate_keepsStores (s : State) : Keeps s (sqLate s) := by
  unfold sqLate
  exact .ite (.after (State.solveStarts_keepsStores ..) <| .after (State.setBit_keepsStores ..) (State.onSq_keepsStores ..)) (.refl _)

/-! ### Solver -/

theorem State.advance_keepsStores (s : State) (acc : List (Nat × Nat)) : Keeps s (s.advance acc) := by
  unfold State.advance
  exact .after (keeps_foldl (fun s a => State.setObj_keepsStores ..) ..) (keeps_foldl (fun s p => .beside rfl rfl) ..)

theorem State.publish_keepsStores (s : State) (result duals : Bytes) (flags warm sig : Nat) :
    Keeps s (s.publish result duals flags warm sig) := by
  unfold State.publish
  exact .after (State.interrupt_keepsStores ..) <| .after (State.setN_keepsStores ..) <| .after (State.setN_keepsStores ..) <|
    .after (State.setN_keepsStores ..) (.beside rfl rfl)

theorem State.reject_keepsStores (s : State) (p : Prob) (sig : Nat) (r : Report) (nu y : List Nat) :
    Keeps s (s.reject p sig r nu y) := by
  unfold State.reject
  exact .after (.ite (.after (State.stopDemand_keepsStores ..) (State.log_keepsStores ..)) (.refl _)) <|
    .after (State.advance_keepsStores ..) <| .after (.ite (State.inc_keepsStores ..) (.refl _)) <| .after (State.inc_keepsStores ..) <|
    .after (State.log_keepsStores ..) <| .after (State.publish_keepsStores ..) (.beside rfl rfl)

theorem State.driftCheck_keepsStores (s : State) : Keeps s s.driftCheck := by
  unfold State.driftCheck
  exact keeps_foldl (fun s p => .ite (.after (State.stopDemand_keepsStores ..) (State.setGrpMov_keepsStores ..)) (.refl _)) ..

theorem State.finishSolve_keepsStores (s : State) (p : Prob) (q : Scaled) (sig warm : Nat) (f : Fact) (it : Iter) :
    Keeps s (s.finishSolve p q sig warm f it) := by
  unfold State.finishSolve
  exact .ite (State.reject_keepsStores ..) (.after (.ite (State.reseedAll_keepsStores ..) (.refl _)) <|
    .after (State.advance_keepsStores ..) <| .after (State.publish_keepsStores ..) <|
    .after (.beside rfl rfl) (State.fresh_keepsStores ..))

theorem solve_keepsStores (s : State) : Keeps s (solve s) := by
  unfold solve
  exact .ite (.refl _) (.after (.ite (State.reject_keepsStores ..) (State.finishSolve_keepsStores ..)) (State.driftCheck_keepsStores ..))

theorem solverLate_keepsStores (s : State) : Keeps s (solverLate s) := by
  unfold solverLate
  exact .ite (.refl _) (State.reject_keepsStores ..)

theorem State.setIterActive_keepsStores (s : State) : Keeps s s.setIterActive := by
  unfold State.setIterActive
  exact State.setN_keepsStores ..

/-! ### Axes -/

theorem State.onAx_keepsStores (s : State) (n : Nat) (f : AxSt → AxSt) : Keeps s (s.onAx n f) := by
  unfold State.onAx
  exact State.onAxes_keepsStores ..

theorem State.setAxMov_keepsStores (s : State) (n : Nat) (x : Mov) : Keeps s (s.setAxMov n x) := by
  unfold State.setAxMov
  exact .after (State.setObj_keepsStores ..) (State.onAx_keepsStores ..)

theorem State.axEn_keepsStores (s : State) (n : Nat) (v : Bool) : Keeps s (s.axEn n v) := by
  unfold State.axEn
  exact .after (State.setBit_keepsStores ..) (State.onAx_keepsStores ..)

theorem State.axMs_keepsStores (s : State) (n code t : Nat) : Keeps s (s.axMs n code t) := by
  unfold State.axMs
  exact .ite (.refl _) (State.onAx_keepsStores ..)

theorem State.axRest_keepsStores (s : State) (n : Nat) : Keeps s (s.axRest n) := by
  unfold State.axRest
  exact State.onAx_keepsStores ..

theorem State.axStop_keepsStores (s : State) (n : Nat) : Keeps s (s.axStop n) := by
  unfold State.axStop
  exact .after (.ite (State.axRest_keepsStores ..) (.refl _)) <| .after (State.setBit_keepsStores ..) <|
    .after (State.onAx_keepsStores ..) (State.setAxMov_keepsStores ..)

theorem State.axStopAll_keepsStores (s : State) : Keeps s s.axStopAll := by
  unfold State.axStopAll
  exact keeps_foldl (fun s n => State.axStop_keepsStores ..) ..

theorem axMoveEff_keepsStores (n : Nat) (d : Bytes) (s : State) : Keeps s (axMoveEff n d s) := by
  unfold axMoveEff
  exact .after (State.onAx_keepsStores ..) (storeWrite_keepsStores ..)

theorem State.axCamStart_keepsStores (s : State) (n : Nat) : Keeps s (s.axCamStart n) := by
  unfold State.axCamStart
  refine .ite (.refl _) ?_
  dsimp only
  split
  · exact State.setAxMov_keepsStores ..
  · exact .after (State.onAx_keepsStores ..) (State.setAxMov_keepsStores ..)

theorem State.axTake_keepsStores (s : State) (n : Nat) (d : Bytes) : Keeps s (s.axTake n d) := by
  unfold State.axTake
  exact .after (State.axCamStart_keepsStores ..) (State.setAxMov_keepsStores ..)

theorem State.axApply_keepsStores (s : State) (n : Nat) (d : Bytes) : Keeps s (s.axApply n d) := by
  unfold State.axApply
  refine .ite (.after (State.setBit_keepsStores ..) <| .after (State.setBit_keepsStores ..) <| .after (State.onAx_keepsStores ..) <|
    .after (State.axMs_keepsStores ..) (State.axEn_keepsStores ..)) ?_
  split
  · exact .ite (.after (State.setObj_keepsStores ..) (State.onAx_keepsStores ..)) (State.onAx_keepsStores ..)
  · exact State.axTake_keepsStores ..

theorem axWakeDone_keepsStores (n : Fin 16) (s : State) : Keeps s (axWakeDone n s) := by
  unfold axWakeDone
  dsimp only
  split
  · exact .refl s
  · have htake (d : Bytes) :
        Keeps s (((s.onAx n (fun x => { x with deferred := none, waitQ := none })).setBit (kAxStatus n) axWaking false).axTake n d) :=
      .after (State.axTake_keepsStores ..) <| .after (State.setBit_keepsStores ..) (State.onAx_keepsStores ..)
    cases (s.ax n).waitQ with
    | none => exact htake _
    | some q => exact .after (State.axTake_keepsStores ..) (htake _)

theorem State.axStill_keepsStores (s : State) (n : Nat) : Keeps s (s.axStill n) := by
  unfold State.axStill
  dsimp only
  split
  · exact .after (State.axEn_keepsStores ..) (State.setBit_keepsStores ..)
  · exact .after (State.axMs_keepsStores ..) <| .after (State.axEn_keepsStores ..) (State.setBit_keepsStores ..)
  · exact .after (State.axMs_keepsStores ..) <| .after (State.axEn_keepsStores ..) (State.setBit_keepsStores ..)

theorem axIdle_keepsStores (n : Fin 16) (s : State) : Keeps s (axIdle n s) := by
  unfold axIdle
  exact .ite (.refl _) (State.axStill_keepsStores ..)

theorem State.msSettle_keepsStores (s : State) (n t : Nat) : Keeps s (s.msSettle n t) := by
  unfold State.msSettle
  split
  · exact .refl _
  · exact .ite (.after (.ite (State.axMs_keepsStores ..) (.refl _)) <| .after (State.onAx_keepsStores ..) <|
      .after (State.setBit_keepsStores ..) (State.setN_keepsStores ..)) (State.setBit_keepsStores ..)

theorem State.msEvaluate_keepsStores (s : State) (n : Nat) : Keeps s (s.msEvaluate n) := by
  unfold State.msEvaluate
  exact .after (State.msSettle_keepsStores ..) <| .after (State.setBit_keepsStores ..) (State.onAx_keepsStores ..)

theorem axStep_keepsStores (n : Fin 16) (ns : Nat) (s : State) : Keeps s (axStep n ns s) := by
  unfold axStep
  exact .ite (.refl _) (.ite (.refl _) (.after (.ite (.refl _) (.after (State.msSettle_keepsStores ..) <|
    .after (State.onAx_keepsStores ..) (State.setI_keepsStores ..))) (.ite (State.setBit_keepsStores ..) (.refl _))))

theorem State.axHalt_keepsStores (s : State) : Keeps s s.axHalt := by
  unfold State.axHalt
  exact keeps_foldl (fun s n => .ite (.refl _) (.after (State.onAx_keepsStores ..) <| .after (State.setBit_keepsStores ..) <|
    .after (State.axEn_keepsStores ..) <| .after (State.axStop_keepsStores ..) (.ite (State.setBit_keepsStores ..) (.refl _)))) ..

theorem State.axRun_keepsStores (s : State) : Keeps s s.axRun := by
  unfold State.axRun
  exact keeps_foldl (fun s n => .ite (.refl _) (.after (State.axStill_keepsStores ..) <|
    .after (State.setN_keepsStores ..) (State.onAx_keepsStores ..))) ..

theorem State.axReady_keepsStores (s : State) : Keeps s s.axReady := by
  unfold State.axReady
  exact keeps_foldl (fun s n => .ite (State.axStill_keepsStores ..) (.refl _)) ..

theorem State.axReadyStop_keepsStores (s : State) : Keeps s s.axReadyStop := by
  unfold State.axReadyStop
  exact keeps_foldl (fun s n => .ite (.refl _) (State.axStill_keepsStores ..)) ..

theorem State.torqueCheck_keepsStores (s : State) : Keeps s s.torqueCheck := by
  unfold State.torqueCheck
  exact .ite (.refl _) (.after (State.onAxes_keepsStores ..) (.ite (State.axHalt_keepsStores ..) (.refl _)))

theorem State.axInert_keepsStores (s : State) : Keeps s s.axInert := by
  unfold State.axInert
  exact keeps_foldl (fun s n => .after (State.setN_keepsStores ..) <| .after (State.onAx_keepsStores ..) (State.axEn_keepsStores ..)) ..

theorem State.axCam_keepsStores (s : State) (n : Nat) : Keeps s (s.axCam n) := by
  unfold State.axCam
  dsimp only
  split
  · exact .refl _
  · exact .ite (.refl _) (.ite (State.setAxMov_keepsStores ..) (State.setAxMov_keepsStores ..))

theorem State.axDegrade_keepsStores (s : State) (n : Nat) : Keeps s (s.axDegrade n) := by
  unfold State.axDegrade
  exact .ite (.refl _) (.ite (.after (State.axRest_keepsStores ..) (State.setAxMov_keepsStores ..)) (.ite (.refl _)
    (State.setAxMov_keepsStores ..)))

theorem State.axUnstill_keepsStores (s : State) (n : Nat) : Keeps s (s.axUnstill n) := by
  unfold State.axUnstill
  exact .after (State.setBit_keepsStores ..) <| .after (State.axMs_keepsStores ..) (State.axEn_keepsStores ..)

theorem State.axCycle1_keepsStores (s : State) (n : Nat) : Keeps s (s.axCycle1 n) := by
  unfold State.axCycle1
  exact .ite (.refl _) (.after (State.msEvaluate_keepsStores ..) <| .after (State.setBit_keepsStores ..) <|
    .after (State.setN_keepsStores ..) <| .after (.ite (State.axUnstill_keepsStores ..) (.refl _)) <|
    .after (State.onAx_keepsStores ..) <| .after (.ite (State.axRest_keepsStores ..) (.refl _)) <|
    .after (State.axCamStart_keepsStores ..) <| .after (State.setAxMov_keepsStores ..) <| .after (State.axCamStart_keepsStores ..) <|
    .after (State.axCam_keepsStores ..) <| .after (State.axDegrade_keepsStores ..) <|
    .after (keeps_foldl (fun s d => State.axApply_keepsStores ..) ..) (State.onAx_keepsStores ..))

theorem State.axStands_keepsStores (s : State) (n : Nat) : Keeps s (s.axStands n) := by
  unfold State.axStands
  exact .ite (.refl _) (.after (State.msEvaluate_keepsStores ..) <|
    .after (.ite (State.axStill_keepsStores ..) (.refl _)) (State.onAx_keepsStores ..))

theorem State.axCycle_keepsStores (s : State) : Keeps s s.axCycle := by
  unfold State.axCycle
  exact .after (State.onAxes_keepsStores ..) <|
    .after (keeps_foldl (fun s n => .ite (State.axCycle1_keepsStores ..) (State.axStands_keepsStores ..)) ..)
    (State.torqueCheck_keepsStores ..)

theorem moveCmd_keepsStores (type : Nat) (rq : Requester) (t : MoveTarget) (d : Bytes) (s : State) :
    Keeps s (moveCmd type rq t d s) := by
  unfold moveCmd
  dsimp only
  split
  · exact moveWrite_keepsStores (h := fun s => armMoveEff_keepsStores ..) ..
  · exact submitWrite_keepsStores (h := fun s => grpMoveEff_keepsStores ..) ..
  · exact moveWrite_keepsStores (h := fun s => axMoveEff_keepsStores ..) ..

/-! ### Wadra Cmd -/

theorem State.onNode_keepsStores (s : State) (r : RingId) (a : Nat) (f : NodeSt → NodeSt) : Keeps s (s.onNode r a f) := by
  unfold State.onNode
  exact State.setNode_keepsStores ..

theorem State.headSync_keepsStores (s : State) (r : RingId) (f : Frame) : Keeps s (s.headSync r f) := by
  unfold State.headSync
  dsimp only
  split
  · exact .ite (State.setRing_keepsStores ..) (State.setRing_keepsStores ..)
  · exact .ite (State.setRing_keepsStores ..) (.after (.ite (.beside rfl rfl) (.refl _)) (State.setRing_keepsStores ..))
  · exact State.setRing_keepsStores ..

theorem State.passNode_keepsStores (s : State) (r : RingId) (a : Nat) (f : Frame) : Keeps s (s.passNode r a f) := by
  unfold State.passNode
  exact .after (State.onNode_keepsStores ..) (State.nodeFwd_keepsStores ..)

theorem sync_keepsStores (st : Station) (_port : Side) (f : Frame) (s : State) : Keeps s (sync st _port f s) := by
  unfold sync
  split
  · exact State.headSync_keepsStores ..
  · exact .after (State.onNode_keepsStores ..) (State.passNode_keepsStores ..)

theorem startFrame_keepsStores (st : Station) (f : Frame) (s : State) : Keeps s (startFrame st f s) := by
  unfold startFrame
  split
  · exact .after (.ite (State.ringBit_keepsStores ..) (.refl _)) (State.setRing_keepsStores ..)
  · exact .after (.ite (.refl _) (State.onNode_keepsStores ..)) (.ite (.refl _) (State.passNode_keepsStores ..))

theorem coldstartListenTimeout_keepsStores (st : Station) (s : State) : Keeps s (coldstartListenTimeout st s) := by
  unfold coldstartListenTimeout
  split
  exacts [.ite (State.setRing_keepsStores ..) (.refl _), .ite (.refl _) (State.onNode_keepsStores ..)]

theorem coldstartComplete_keepsStores (st : Station) (s : State) : Keeps s (coldstartComplete st s) := by
  unfold coldstartComplete
  split
  exacts [.ite (State.setRing_keepsStores ..) (.refl _), State.onNode_keepsStores ..]

theorem backoffElapsed_keepsStores (st : Station) (s : State) : Keeps s (backoffElapsed st s) := by
  unfold backoffElapsed
  split
  exacts [.ite (State.setRing_keepsStores ..) (.refl _), State.onNode_keepsStores ..]

theorem syncLoss_keepsStores (st : Station) (matrices : Bool) (s : State) : Keeps s (syncLoss st matrices s) := by
  unfold syncLoss
  split
  exacts [.ite (State.setRing_keepsStores ..) (.refl _), State.onNode_keepsStores ..]

theorem nodeDelayWrite_keepsStores (r : RingId) (addr : BitVec 10) (v : Bytes) (s : State) : Keeps s (nodeDelayWrite r addr v s) := by
  unfold nodeDelayWrite
  exact .ite (.refl _) (State.onNode_keepsStores ..)

theorem nodeAssignWrite_keepsStores (r : RingId) (addr : BitVec 10) (v : Bytes) (s : State) : Keeps s (nodeAssignWrite r addr v s) := by
  unfold nodeAssignWrite
  exact State.onNode_keepsStores ..

theorem excludeNode_keepsStores (r : RingId) (addr : BitVec 10) (v : Byte) (s : State) : Keeps s (excludeNode r addr v s) := by
  unfold excludeNode
  exact .ite (.refl _) (State.onNode_keepsStores ..)

theorem delayRequest_keepsStores (st : Station) (f : Frame) (ingress egress : Time96) (s : State) :
    Keeps s (delayRequest st f ingress egress s) := by
  unfold delayRequest
  refine .ite (.refl _) ?_
  split
  · exact .ite (.refl _) (.after (State.setRing_keepsStores ..) (State.takeStamp_keepsStores ..))
  · exact .after (.ite (.refl _) (.after (State.setNode_keepsStores ..) (State.nodeFwd_keepsStores ..))) (State.passNode_keepsStores ..)

theorem State.ownStamp_keepsStores (s : State) (port : Nat) (at10 : Int) : Keeps s (s.ownStamp port at10).2 := by
  unfold State.ownStamp
  exact State.fresh_keepsStores ..

theorem State.arbPayload_keepsStores (s : State) (r : RingId) (ch : Channel) (port : Nat) (at10 : Int) (f : Frame) :
    Keeps s (s.arbPayload r ch port at10 f).2 := by
  have hstamp (t1 : Nat) : Keeps s ((s.ownStamp port at10).2.pushStamp port true false 0xFFF t1) :=
    .after (State.pushStamp_keepsStores ..) (State.ownStamp_keepsStores ..)
  unfold State.arbPayload
  dsimp only
  split
  · split
    exacts [.after (State.setRing_keepsStores ..) (hstamp _), hstamp _]
  · exact .refl s

theorem State.headInsert_keepsStores (s : State) (r : RingId) (ch : Channel) (offset : Nat) (idle : Bool) (f : Frame) :
    Keeps s (s.headInsert r ch offset idle f) := by
  unfold State.headInsert
  exact .ite (.refl _) (.after (.ite (.beside rfl rfl) (.refl _)) <|
    .after (State.setRing_keepsStores ..) (State.arbPayload_keepsStores ..))

theorem arbInsert_keepsStores (st : Station) (ch : Channel) (offset : Nat) (idle : Bool) (f : Frame) (s : State) :
    Keeps s (arbInsert st ch offset idle f s) := by
  unfold arbInsert
  split
  · cases hframe : s.headFrame _ ch f with
    | none => exact .refl s
    | some own => exact State.headInsert_keepsStores ..
  · exact .ite (.refl _) (.after (State.setNode_keepsStores ..) (State.nodeFwd_keepsStores ..))

theorem arbLastDiscard_keepsStores (st : Station) (ch : Channel) (s : State) : Keeps s (arbLastDiscard st ch s) := by
  unfold arbLastDiscard
  dsimp only
  split
  · exact .after (State.setObj_keepsStores ..) (State.setRing_keepsStores ..)
  · exact State.onNode_keepsStores ..

theorem guardCut_keepsStores (st : Station) (sd : Side) (s : State) : Keeps s (guardCut st sd s) := by
  unfold guardCut
  split
  · exact .ite (.after (State.portErr_keepsStores ..) (State.setRing_keepsStores ..)) (.refl _)
  · exact State.onNode_keepsStores ..

theorem linkLoss_keepsStores (st : Station) (sd : Side) (s : State) : Keeps s (linkLoss st sd s) := by
  unfold linkLoss
  split
  · exact .after (.ite (.refl _) (State.loopDown_keepsStores ..)) <| .after (State.portErr_keepsStores ..) (State.setRing_keepsStores ..)
  · exact State.onNode_keepsStores ..

theorem codeGroupSyncAcquired_keepsStores (st : Station) (sd : Side) (s : State) : Keeps s (codeGroupSyncAcquired st sd s) := by
  unfold codeGroupSyncAcquired
  split
  exacts [State.onRing_keepsStores .., State.onNode_keepsStores ..]

theorem linkUp_keepsStores (st : Station) (sd : Side) (s : State) : Keeps s (linkUp st sd s) := by
  unfold linkUp
  split
  · exact .ite (.after (State.loopUp_keepsStores ..) (State.setRing_keepsStores ..)) (.refl _)
  · exact State.onNode_keepsStores ..

theorem State.hostEvent_keepsStores (s : State) (r : RingId) (a : Nat) (payload : Bytes) : Keeps s (s.hostEvent r a payload) := by
  unfold State.hostEvent
  exact .after (State.interrupt_keepsStores ..) <| .after (.ite (State.setBit_keepsStores ..) (.refl _)) (.beside rfl rfl)

theorem State.completeEvent_keepsStores (s : State) (r : RingId) (a : Nat) (payload : Bytes) :
    Keeps s (s.completeEvent r a payload) := by
  unfold State.completeEvent
  exact .after (.ite (.refl _) (.after (.ite (State.loopDown_keepsStores ..) (.ite (State.loopUp_keepsStores ..) (.refl _))) <|
    .after (State.hostEvent_keepsStores ..) <| .after (State.log_keepsStores ..) (.beside rfl rfl))) (.ite (.refl _) (.beside rfl rfl))

theorem event_keepsStores (f : Frame) (s : State) : Keeps s (event f s) := by
  unfold event
  exact .ite (.refl _) (.ite (.beside rfl rfl) (.after (State.completeEvent_keepsStores ..) (.beside rfl rfl)))

theorem evtAck_keepsStores (r : RingId) (addr : BitVec 10) (head : Bytes) (s : State) : Keeps s (evtAck r addr head s) := by
  unfold evtAck
  exact .ite (.ite (State.onRing_keepsStores ..) (.refl _)) (State.onNode_keepsStores ..)

theorem eventResend_keepsStores (r : RingId) (addr : BitVec 10) (s : State) : Keeps s (eventResend r addr s) := by
  unfold eventResend
  exact .ite (.ite (State.onRing_keepsStores ..) (.refl _)) (State.onNode_keepsStores ..)

theorem nodeStatusShare_keepsStores (f : Frame) (s : State) : Keeps s (nodeStatusShare f s) := by
  unfold nodeStatusShare
  exact .ite (.refl _) (.beside rfl rfl)

/-! ### Pair -/

theorem State.onPair_keepsStores (s : State) (f : StPair → StPair) : Keeps s (s.onPair f) := .beside rfl rfl

theorem State.redBit_keepsStores (s : State) (b : Nat) (v : Bool) : Keeps s (s.redBit b v) := by
  unfold State.redBit
  exact .ite (.refl _) (.after (State.interrupt_keepsStores ..) (State.setBit_keepsStores ..))

theorem State.setClaim_keepsStores (s : State) (c : Nat) : Keeps s (s.setClaim c) := by
  unfold State.setClaim
  exact .after (.ite (.refl _) (State.interrupt_keepsStores ..)) <| .after (State.redBit_keepsStores ..) (State.setN_keepsStores ..)

theorem State.roleChange_keepsStores (s : State) (cause role : Nat) : Keeps s (s.roleChange cause role) := by
  unfold State.roleChange
  exact .after (State.redBit_keepsStores ..) <| .after (State.onPair_keepsStores ..) (State.log_keepsStores ..)

theorem State.becomeEligible_keepsStores (s : State) : Keeps s s.becomeEligible := by
  unfold State.becomeEligible
  exact .ite (.ite (.after (State.roleChange_keepsStores ..) (State.setClaim_keepsStores ..)) (.after (State.onPair_keepsStores ..)
    (State.setClaim_keepsStores ..))) (.refl _)

theorem State.enteredSync_keepsStores (s : State) : Keeps s s.enteredSync := by
  unfold State.enteredSync
  exact .after (State.becomeEligible_keepsStores ..) (State.onPair_keepsStores ..)

theorem ilkPeerChange_keepsStores (level : Bool) (s : State) : Keeps s (ilkPeerChange level s) := by
  unfold ilkPeerChange
  dsimp only
  split
  · exact .after (.ite (.refl _) (.after (State.onPair_keepsStores ..) (State.setClaim_keepsStores ..))) (State.onPair_keepsStores ..)
  · exact .after (.ite (.after (.ite (.refl _) (State.roleChange_keepsStores ..)) (State.setClaim_keepsStores ..)) (.refl _))
      (State.onPair_keepsStores ..)
  · exact .after (.ite (.refl _) (.ite (.ite (.after (State.roleChange_keepsStores ..) (State.setClaim_keepsStores ..)) (.refl _))
      (.after (.ite (.after (.beside rfl rfl) (State.setClaim_keepsStores ..)) (.refl _)) <|
      .after (State.log_keepsStores ..) (State.redBit_keepsStores ..)))) (State.onPair_keepsStores ..)
  · exact State.onPair_keepsStores ..

theorem holdoffElapsed_keepsStores (s : State) : Keeps s (holdoffElapsed s) := by
  unfold holdoffElapsed
  exact .ite (.refl _) (.after (.ite (.after (State.roleChange_keepsStores ..) <|
    .after (State.inc_keepsStores ..) (State.redBit_keepsStores ..)) (State.roleChange_keepsStores ..)) <|
    .after (State.onPair_keepsStores ..) (State.setClaim_keepsStores ..))

theorem claimWdTrip_keepsStores (c : WdCause) (s : State) : Keeps s (claimWdTrip c s) := by
  unfold claimWdTrip
  exact .ite (.refl _) (.after (.ite (.refl _) (State.setClaim_keepsStores ..)) (State.onPair_keepsStores ..))

theorem State.clearTrip_keepsStores (s : State) : Keeps s s.clearTrip := by
  unfold State.clearTrip
  exact .ite (.after (State.becomeEligible_keepsStores ..) (State.onPair_keepsStores ..)) (.refl _)

theorem State.resetClaim_keepsStores (s : State) : Keeps s s.resetClaim := by
  unfold State.resetClaim
  exact .after (State.refFix_keepsStores ..) <| .after (State.onPair_keepsStores ..) (State.setClaim_keepsStores ..)

theorem State.diverge_keepsStores (s : State) (first : Nat) : Keeps s (s.diverge first) := by
  unfold State.diverge
  exact .ite (.refl _) (.after (.ite (State.stopDemand_keepsStores ..) (.refl _)) <| .after (State.onPair_keepsStores ..) <|
    .after (State.log_keepsStores ..) (State.redBit_keepsStores ..))

theorem State.compareDigest_keepsStores (s : State) (cycle : Nat) (equal : Bool) : Keeps s (s.compareDigest cycle equal) := by
  unfold State.compareDigest
  exact .ite (.after (.ite (State.onPair_keepsStores ..) (.refl _)) (State.onPair_keepsStores ..)) (.after
    (.ite (State.diverge_keepsStores ..) (.refl _)) <| .after (State.onPair_keepsStores ..) (State.inc_keepsStores ..))

theorem State.formDigest_keepsStores (s : State) : Keeps s s.formDigest := by
  unfold State.formDigest
  exact .ite (.refl _) (State.onPair_keepsStores ..)

theorem State.peerDigest_keepsStores (s : State) (c d : Nat) : Keeps s (s.peerDigest c d) := by
  unfold State.peerDigest
  split
  · exact .ite (.refl _) (.after (State.compareDigest_keepsStores ..) (State.onPair_keepsStores ..))
  · exact .refl _

theorem State.settle_keepsStores (s : State) (role : Nat) : Keeps s (s.settle role) := by
  unfold State.settle
  exact State.redBit_keepsStores ..

theorem hb_keepsStores (path : HbPath) (f : Frame) (s : State) : Keeps s (hb path f s) := by
  unfold hb
  exact .ite (.refl _) (.after (State.peerDigest_keepsStores ..) <|
    .after (.ite (.after (.ite (.after (State.onPair_keepsStores ..) (State.redBit_keepsStores ..)) (.refl _)) <|
    .after (State.log_keepsStores ..) (State.redBit_keepsStores ..)) (.refl _)) <| .after (State.settle_keepsStores ..) <|
    .after (State.patchObj_keepsStores ..) (State.onPair_keepsStores ..))

theorem State.hbMiss_keepsStores (s : State) (h : HbPath) : Keeps s (s.hbMiss h) := by
  unfold State.hbMiss
  exact .ite (.refl _) (.after (State.patchObj_keepsStores ..) (State.onPair_keepsStores ..))

theorem hbPathLoss_keepsStores (path : HbPath) (s : State) : Keeps s (hbPathLoss path s) := by
  unfold hbPathLoss
  exact .ite (.refl _) (.after (.ite (.ite (.after (State.onPair_keepsStores ..) (State.redBit_keepsStores ..)) (.ite
    (.after (State.onPair_keepsStores ..) <| .after (State.log_keepsStores ..) (State.redBit_keepsStores ..)) (.refl _))) (.refl _)) <|
    .after (State.onPair_keepsStores ..) <| .after (State.log_keepsStores ..) (State.redBit_keepsStores ..))

theorem partnerAbsent_keepsStores (s : State) : Keeps s (partnerAbsent s) := by
  unfold partnerAbsent
  exact .ite (.after (State.redBit_keepsStores ..) (State.redBit_keepsStores ..)) (.refl _)

theorem cmdUnacked_keepsStores (s : State) : Keeps s (cmdUnacked s) := by
  unfold cmdUnacked
  exact .ite (.refl _) (.after (State.onPair_keepsStores ..) (State.redBit_keepsStores ..))

theorem forwardAck_keepsStores (f : Frame) (s : State) : Keeps s (forwardAck f s) := by
  unfold forwardAck
  exact State.onPair_keepsStores ..

theorem State.takeForwarded_keepsStores (s : State) (apply : Nat) (m : Bytes) : Keeps s (s.takeForwarded apply m) := by
  unfold State.takeForwarded
  exact .ite (.refl _) (.ite (.ite (State.onPair_keepsStores ..) (.beside rfl rfl)) (.beside rfl rfl))

theorem forwardedRequest_keepsStores (f : Frame) (s : State) : Keeps s (forwardedRequest f s) := by
  unfold forwardedRequest
  exact .ite (.refl _) (.after (State.takeForwarded_keepsStores ..) <| .after (State.linkSend_keepsStores ..) <|
    .after (State.onPair_keepsStores ..) (.ite (State.diverge_keepsStores ..) (.refl _)))

theorem State.forwardEvent_keepsStores (s : State) : Keeps s s.forwardEvent := by
  unfold State.forwardEvent
  exact .ite (.after (State.forward_keepsStores ..) (.beside rfl rfl)) (.refl _)

theorem State.singleHead_keepsStores (s : State) (v : Bool) : Keeps s (s.singleHead v) := by
  unfold State.singleHead
  exact .after (.ite (.refl _) (.after (State.onRing_keepsStores ..) (State.onRing_keepsStores ..))) <|
    .after (State.ringBit_keepsStores ..) (State.ringBit_keepsStores ..)

theorem State.rejoinVersions_keepsStores (s : State) (peer : Option PeerInfo) : Keeps s (s.rejoinVersions peer) := by
  unfold State.rejoinVersions
  split
  exacts [State.redBit_keepsStores .., .refl _]

theorem rejoinTakeup_keepsStores (peer : Option PeerInfo) (s : State) : Keeps s (rejoinTakeup peer s) := by
  unfold rejoinTakeup
  exact .ite (.ite (.refl _) (.after (State.roleChange_keepsStores ..) (State.onPair_keepsStores ..))) (.ite
    (.after (State.rejoinVersions_keepsStores ..) <| .after (State.roleChange_keepsStores ..) <| .after (State.redBit_keepsStores ..) <|
    .after (State.singleHead_keepsStores ..) (State.onPair_keepsStores ..)) (.refl _))

theorem State.swapRecord_keepsStores (s : State) (cancelled : Bool) (c : Nat) : Keeps s (s.swapRecord cancelled c) := by
  unfold State.swapRecord
  exact State.log_keepsStores ..

theorem State.checkSwap_keepsStores (s : State) : Keeps s s.checkSwap := by
  unfold State.checkSwap
  split
  · exact .ite (.after (State.swapRecord_keepsStores ..) (State.onPair_keepsStores ..)) (.refl _)
  · exact .refl _

theorem swapInstant_keepsStores (s : State) : Keeps s (swapInstant s) := by
  unfold swapInstant
  split
  · exact State.checkSwap_keepsStores ..
  · exact .ite (.refl _) (.after (.ite (.after (State.settle_keepsStores ..) <| .after (State.roleChange_keepsStores ..) <|
      .after (State.refSwitch_keepsStores ..) <|
      .after (State.onPair_keepsStores ..) (State.setClaim_keepsStores ..)) (.ite (.after (State.settle_keepsStores ..) <|
      .after (State.roleChange_keepsStores ..) <| .after (State.refSwitch_keepsStores ..) <|
      .after (State.onPair_keepsStores ..) (State.setClaim_keepsStores ..)) (.refl _))) <| .after (State.swapRecord_keepsStores ..) <|
      .after (State.inc_keepsStores ..) (State.onPair_keepsStores ..))

theorem swapDue_keepsStores (s : State) : Keeps s (swapDue s) := by
  unfold swapDue
  exact .ite (State.redBit_keepsStores ..) (.refl _)

theorem State.pairCycle_keepsStores (s : State) : Keeps s s.pairCycle := by
  unfold State.pairCycle
  exact .after (.ite (.after (State.onPair_keepsStores ..) <|
    .after (State.log_keepsStores ..) (State.redBit_keepsStores ..)) (.refl _)) <|
    .after (.ite (.after (State.onPair_keepsStores ..) (State.stopDemand_keepsStores ..)) (.refl _)) <|
    .after (.ite (.after (State.onPair_keepsStores ..) (State.singleHead_keepsStores ..)) (.refl _)) <|
    .after (.ite (.after (State.refSwitch_keepsStores ..) (State.onPair_keepsStores ..)) (.ite (.after (State.refSwitch_keepsStores ..)
    (State.onPair_keepsStores ..)) (.refl _))) <| .after (State.onPair_keepsStores ..) <| .after (State.hbMiss_keepsStores ..) <|
    .after (State.hbMiss_keepsStores ..) <| .after (State.formDigest_keepsStores ..) <|
    .after (State.onPair_keepsStores ..) (State.clearTrip_keepsStores ..)

theorem State.pairRun_keepsStores (s : State) : Keeps s s.pairRun := by
  unfold State.pairRun
  exact .ite (.refl _) (State.onPair_keepsStores ..)

/-! ### Monitor -/

theorem State.onMon_keepsStores (s : State) (f : StMon → StMon) : Keeps s (s.onMon f) := .beside rfl rfl

theorem State.devFault_keepsStores (s : State) (type unit detail : Nat) : Keeps s (s.devFault type unit detail) := .beside rfl rfl

theorem State.s4Stop_keepsStores (s : State) : Keeps s s.s4Stop := by
  unfold State.s4Stop
  exact .after (State.drive_keepsStores ..) <| .after (State.onMon_keepsStores ..) <|
    .after (State.onArms_keepsStores ..) (State.clocksStop_keepsStores ..)

theorem State.shedStandstill_keepsStores (s : State) : Keeps s s.shedStandstill := by
  unfold State.shedStandstill
  exact .ite (.refl _) (.after (.ite (State.s4Stop_keepsStores ..) (.refl _)) (.beside rfl rfl))

theorem State.shedAction_keepsStores (s : State) (k trigger : Nat) : Keeps s (s.shedAction k trigger) := by
  unfold State.shedAction
  split
  · exact State.onRec_keepsStores ..
  · exact State.setIterActive_keepsStores ..
  · exact .after (State.axStopAll_keepsStores ..) (State.motionStop_keepsStores ..)
  · exact .after (State.onMon_keepsStores ..) <| .after (State.fbStop_keepsStores ..) (State.axHalt_keepsStores ..)
  · exact .after (State.finalRecord_keepsStores ..) <| .after (State.onPair_keepsStores ..) <|
      .after (State.drive_keepsStores ..) (State.onArms_keepsStores ..)

theorem State.enterStage_keepsStores (s : State) (k trigger : Nat) : Keeps s (s.enterStage k trigger) := by
  unfold State.enterStage
  exact .ite (.refl _) (.after (State.shedStandstill_keepsStores ..) <| .after (.ite (.beside rfl rfl) (.refl _)) <|
    .after (keeps_foldl (fun s j => .ite (State.shedAction_keepsStores ..) (.refl _)) ..) <|
    .after (State.patchObj_keepsStores ..) (State.setN_keepsStores ..))

theorem State.reenable_keepsStores (s : State) : Keeps s s.reenable := by
  unfold State.reenable
  exact .ite (.refl _) (.after (.ite (State.fbResume_keepsStores ..) (.refl _)) <| .after (State.onMon_keepsStores ..) <|
    .after (.beside rfl rfl) <| .after (State.onRec_keepsStores ..) <| .after (State.setIterActive_keepsStores ..) <|
    .after (State.setN_keepsStores ..) (State.setN_keepsStores ..))

theorem shedReenable_keepsStores (rq : Requester) (v : Byte) (s : State) : Keeps s (shedReenable rq v s) := by
  unfold shedReenable
  exact submitWrite_keepsStores (h := fun s => State.reenable_keepsStores ..) ..

theorem s4StandstillTimeout_keepsStores (s : State) : Keeps s (s4StandstillTimeout s) := by
  unfold s4StandstillTimeout
  exact .ite (State.s4Stop_keepsStores ..) (.refl _)

theorem State.sysCorrect_keepsStores (s : State) (c v : Nat) : Keeps s (s.sysCorrect c v).2 := by
  unfold State.sysCorrect
  split
  · exact .refl _
  · dsimp only
    split
    exacts [.refl _, State.fresh_keepsStores ..]

theorem State.resultFlags_keepsStores (s : State) (c v : Nat) : Keeps s (s.resultFlags c v) := by
  unfold State.resultFlags
  exact .after (.ite (State.setBit_keepsStores ..) (.refl _)) <|
    .after (.ite (State.setBit_keepsStores ..) (.refl _)) (.ite (State.setN_keepsStores ..) (.refl _))

theorem State.monResult_keepsStores (s : State) (c v slot : Nat) (seq : Bool) : Keeps s (s.monResult c v slot seq) := by
  unfold State.monResult
  exact .after (keeps_foldl (fun s i => .ite (State.enterStage_keepsStores ..) (.refl _)) ..) <|
    .after (.ite (State.onMon_keepsStores ..) (.refl _)) <| .after (State.setBit_keepsStores ..) <| .after (State.setN_keepsStores ..) <|
    .after (State.onMon_keepsStores ..) (State.resultFlags_keepsStores ..)

theorem State.afterResult_keepsStores (s : State) (slot : Nat) : Keeps s (s.afterResult slot) := by
  unfold State.afterResult
  exact State.onMon_keepsStores ..

theorem adcConversion_keepsStores (slot : Nat) (v : W16) (s : State) : Keeps s (adcConversion slot v s) := by
  unfold adcConversion
  refine .ite (.refl _) ?_
  split
  · exact .refl _
  · exact .after (State.afterResult_keepsStores ..) <| .after (State.monResult_keepsStores ..) <|
      .after (State.sysCorrect_keepsStores ..) (State.onMon_keepsStores ..)

theorem State.kerbCompare_keepsStores (s : State) (i : Inj) (v : Nat) : Keeps s (s.kerbCompare i v) := by
  unfold State.kerbCompare
  exact .ite (.refl _) (.ite (.ite (State.enterStage_keepsStores ..) (.refl _)) (.ite (State.enterStage_keepsStores ..) (.refl _)))

theorem injectedConversion_keepsStores (slot : Nat) (v : W16) (s : State) : Keeps s (injectedConversion slot v s) := by
  unfold injectedConversion
  split
  · exact .refl _
  · exact .ite (.refl _) (.after (State.afterResult_keepsStores ..) <| .after (State.kerbCompare_keepsStores ..) <|
      .after (State.monResult_keepsStores ..) <| .after (State.sysCorrect_keepsStores ..) (State.onMon_keepsStores ..))

theorem State.kerbInject_keepsStores (s : State) : Keeps s s.kerbInject := by
  unfold State.kerbInject
  exact State.onMon_keepsStores ..

theorem safetyCheckTick_keepsStores (fromP fromH : Bool) (s : State) : Keeps s (safetyCheckTick fromP fromH s) := by
  unfold safetyCheckTick
  exact .ite (.refl _) (.after (State.shedStandstill_keepsStores ..) <|
    .after (State.kerbInject_keepsStores ..) (State.safetyChecks_keepsStores ..))

theorem monWindowEnd_keepsStores (c : Fin 32) (s : State) : Keeps s (monWindowEnd c s) := by
  unfold monWindowEnd
  exact .ite (.refl _) (.after (State.onMon_keepsStores ..) (State.setObj_keepsStores ..))

theorem State.calSlice_keepsStores (s : State) (c : Nat) : Keeps s (s.calSlice c) := by
  unfold State.calSlice
  exact State.onMon_keepsStores ..

theorem monCalEff_keepsStores (s : State) : Keeps s (monCalEff s) := by
  unfold monCalEff
  exact .ite (.refl _) (State.calSlice_keepsStores ..)

theorem monCalCmd_keepsStores (rq : Requester) (v : Byte) (s : State) : Keeps s (monCalCmd rq v s) := by
  unfold monCalCmd
  exact submitWrite_keepsStores (h := fun s => monCalEff_keepsStores ..) ..

theorem monCalPeriodExpiry_keepsStores (s : State) : Keeps s (monCalPeriodExpiry s) := by
  unfold monCalPeriodExpiry
  exact .ite (.refl _) (State.calSlice_keepsStores ..)

theorem sliceCalibrationDone_keepsStores (offset gain : W16) (skew : Byte) (s : State) :
    Keeps s (sliceCalibrationDone offset gain skew s) := by
  unfold sliceCalibrationDone
  split
  · exact .after (.ite (State.calSlice_keepsStores ..) (.after (State.setBit_keepsStores ..) (State.onMon_keepsStores ..)))
      (State.patchObj_keepsStores ..)
  · exact .refl _

theorem syscalEff_keepsStores (rq : Requester) (d : Bytes) (s : State) : Keeps s (syscalEff rq d s) := by
  unfold syscalEff
  exact State.onMon_keepsStores ..

theorem syscalWrite_keepsStores (rq : Requester) (d : Bytes) (s : State) : Keeps s (syscalWrite rq d s) := by
  unfold syscalWrite
  exact submitWrite_keepsStores (h := fun s => syscalEff_keepsStores ..) ..

theorem syscalStep1_keepsStores (rq : Requester) (g : Byte) (uv : W32) (s : State) : Keeps s (syscalStep1 rq g uv s) := by
  unfold syscalStep1
  exact syscalWrite_keepsStores ..

theorem syscalStep2_keepsStores (rq : Requester) (g : Byte) (uv : W32) (s : State) : Keeps s (syscalStep2 rq g uv s) := by
  unfold syscalStep2
  exact syscalWrite_keepsStores ..

theorem State.sysFinish_keepsStores (s : State) (a : AvgSt) (v1 s1 : Nat) : Keeps s (s.sysFinish a v1 s1) := by
  unfold State.sysFinish
  dsimp only
  split
  · exact State.finish_keepsStores ..
  · exact .ite (State.finish_keepsStores ..) (.after (State.finish_keepsStores ..) <| .after (State.setBit_keepsStores ..) <|
      .after (State.patchObj_keepsStores ..) (.ite (.refl _) (State.fresh_keepsStores ..)))

theorem syscalAverageDone_keepsStores (s : State) : Keeps s (syscalAverageDone s) := by
  unfold syscalAverageDone
  split
  · exact .refl _
  · refine .ite (.refl _) (.after (.ite (.after (State.finish_keepsStores ..) (State.onMon_keepsStores ..)) ?_)
      (State.onMon_keepsStores ..))
    split
    exacts [State.sysFinish_keepsStores .., State.finish_keepsStores ..]

theorem State.sysCalOff_keepsStores (s : State) : Keeps s s.sysCalOff := by
  unfold State.sysCalOff
  exact State.onMon_keepsStores ..

theorem pllLock_keepsStores (l : Pll) (s : State) : Keeps s (pllLock l s) := by
  unfold pllLock
  refine .ite (.refl _) ?_
  dsimp only
  split
  · exact .after (State.onMon_keepsStores ..) (State.onMon_keepsStores ..)
  · exact .after (State.onMon_keepsStores ..) (State.onMon_keepsStores ..)
  · exact .after (.ite (State.onPair_keepsStores ..) (.refl _)) (State.onMon_keepsStores ..)
  · exact State.onMon_keepsStores ..

theorem pllLockLoss_keepsStores (l : Pll) (s : State) : Keeps s (pllLockLoss l s) := by
  unfold pllLockLoss
  refine .ite (.refl _) ?_
  dsimp only
  split
  · exact .after (State.devFault_keepsStores ..) (State.onMon_keepsStores ..)
  · exact .after (State.devFault_keepsStores ..) (State.onMon_keepsStores ..)
  · exact .after (State.devFault_keepsStores ..) (State.onMon_keepsStores ..)
  · exact .after (State.devFault_keepsStores ..) (State.onMon_keepsStores ..)
  · exact .after (State.devFault_keepsStores ..) (State.onMon_keepsStores ..)
  · exact .after (keeps_foldl (fun s st => .after (linkLoss_keepsStores ..) (linkLoss_keepsStores ..)) ..) <|
      .after (State.setBit_keepsStores ..) (State.onMon_keepsStores ..)

theorem State.dropClockFaults_keepsStores (s : State) : Keeps s s.dropClockFaults := .beside rfl rfl

theorem State.watchTrip_keepsStores (s : State) (w : Watcher) : Keeps s (s.watchTrip w) := by
  unfold State.watchTrip
  refine .after (.ite (.after (State.devFault_keepsStores ..) <|
    .after (State.onMon_keepsStores ..) (State.dropClockFaults_keepsStores ..)) ?_) <| .after (State.drive_keepsStores ..) ?_
  · split <;> exact (State.devFault_keepsStores ..)
  · split
    exacts [State.onMon_keepsStores .., .after (.beside rfl rfl) (State.onMon_keepsStores ..)]

theorem clockWatchWindow_keepsStores (w : Watcher) (count : W16) (s : State) : Keeps s (clockWatchWindow w count s) := by
  unfold clockWatchWindow
  refine .ite (.refl _) (.after (.ite ?_ (.ite (.beside rfl rfl) (State.watchTrip_keepsStores ..))) (State.onMon_keepsStores ..))
  split
  · exact .after (State.drive_keepsStores ..) (State.onMon_keepsStores ..)
  · exact .after (State.drive_keepsStores ..) <| .after (.beside rfl rfl) (State.onMon_keepsStores ..)

theorem clockEdgeTimeout_keepsStores (w : Watcher) (s : State) : Keeps s (clockEdgeTimeout w s) := by
  unfold clockEdgeTimeout
  exact .ite (.refl _) (.ite (.beside rfl rfl) (State.watchTrip_keepsStores ..))

theorem clkRatioWindow_keepsStores (count : W32) (s : State) : Keeps s (clkRatioWindow count s) := by
  unfold clkRatioWindow
  exact .ite (.refl _) (.after (.ite (State.setBit_keepsStores ..) (.refl _)) (State.setN_keepsStores ..))

theorem State.burst_keepsStores (s : State) (d : Burst) (on : Bool) : Keeps s (s.burst d on) := by
  unfold State.burst
  exact State.onMon_keepsStores ..

theorem domainWake_keepsStores (d : Burst) (s : State) : Keeps s (domainWake d s) := by
  unfold domainWake
  exact .ite (.refl _) (.after (State.clocksStart_keepsStores ..) (State.burst_keepsStores ..))

theorem domainGateOff_keepsStores (d : Burst) (s : State) : Keeps s (domainGateOff d s) := by
  unfold domainGateOff
  exact .ite (.refl _) (.after (State.burst_keepsStores ..) (State.clocksStop_keepsStores ..))

theorem powerOnDetector_keepsStores (r : Rail) (atNs : Nat) (s : State) : Keeps s (powerOnDetector r atNs s) := by
  unfold powerOnDetector
  exact State.onMon_keepsStores ..

theorem vddSafeDetect_keepsStores (uv : Nat) (s : State) : Keeps s (vddSafeDetect uv s) := by
  unfold vddSafeDetect
  exact .after (State.drive_keepsStores ..) (State.onMon_keepsStores ..)

theorem deviceFaultDetected_keepsStores (k : HwFault) (unit : Byte) (detail : W32) (s : State) :
    Keeps s (deviceFaultDetected k unit detail s) := by
  unfold deviceFaultDetected
  refine .ite (.refl _) ?_
  split <;> exact (State.devFault_keepsStores ..)

/-! ### Tap -/

theorem State.onTap_keepsStores (s : State) (f : StTap → StTap) : Keeps s (s.onTap f) := .beside rfl rfl

theorem State.tapRelease_keepsStores (s : State) : Keeps s s.tapRelease := by
  unfold State.tapRelease
  exact .after (State.setBit_keepsStores ..) (State.onTap_keepsStores ..)

theorem State.tapQuiet_keepsStores (s : State) (i : TapInstr) : Keeps s (s.tapQuiet i) := by
  unfold State.tapQuiet
  exact .after (State.onTap_keepsStores ..) (State.tapRelease_keepsStores ..)

theorem State.tapDrive_keepsStores (s : State) (i other : TapInstr) (pulses : Nat) : Keeps s (s.tapDrive i other pulses) := by
  unfold State.tapDrive
  exact .ite (.after (State.setBit_keepsStores ..) (State.onTap_keepsStores ..)) (.after (State.setBit_keepsStores ..)
    (State.tapQuiet_keepsStores ..))

theorem State.tapLoad_keepsStores (s : State) (l : List Bool) : Keeps s (s.tapLoad l) := by
  unfold State.tapLoad
  exact State.onTap_keepsStores ..

theorem extest_keepsStores (drive : List Bool) (s : State) : Keeps s (extest drive s) := by
  unfold extest
  exact .after (State.tapDrive_keepsStores ..) (State.tapLoad_keepsStores ..)

theorem extestPulse_keepsStores (drive : List Bool) (s : State) : Keeps s (extestPulse drive s) := by
  unfold extestPulse
  exact .after (State.tapDrive_keepsStores ..) (State.tapLoad_keepsStores ..)

theorem extestTrain_keepsStores (drive : List Bool) (s : State) : Keeps s (extestTrain drive s) := by
  unfold extestTrain
  exact .after (State.tapDrive_keepsStores ..) (State.tapLoad_keepsStores ..)

theorem tapClamp_keepsStores (s : State) : Keeps s (tapClamp s) := by
  unfold tapClamp
  exact State.tapDrive_keepsStores ..

theorem tapHighz_keepsStores (s : State) : Keeps s (tapHighz s) := by
  unfold tapHighz
  exact State.tapDrive_keepsStores ..

theorem tapIdcode_keepsStores (s : State) : Keeps s (tapIdcode s) := by
  unfold tapIdcode
  exact State.tapQuiet_keepsStores ..

theorem samplePreload_keepsStores (capture : List Bool) (s : State) : Keeps s (samplePreload capture s) := by
  unfold samplePreload
  exact .after (State.tapLoad_keepsStores ..) (State.tapQuiet_keepsStores ..)

theorem tapBypass_keepsStores (s : State) : Keeps s (tapBypass s) := by
  unfold tapBypass
  exact State.tapQuiet_keepsStores ..

theorem testLogicReset_keepsStores (s : State) : Keeps s (testLogicReset s) := by
  unfold testLogicReset
  exact State.tapQuiet_keepsStores ..

theorem sealRead_keepsStores (s : State) : Keeps s (sealRead s) := by
  unfold sealRead
  exact .after (State.setBit_keepsStores ..) <| .after (State.onTap_keepsStores ..) (State.tapQuiet_keepsStores ..)

theorem sealCapture_keepsStores (swA swB : Option W32) (s : State) : Keeps s (sealCapture swA swB s) := by
  unfold sealCapture
  exact .ite (.refl _) (.after (State.setN_keepsStores ..) (State.onTap_keepsStores ..))

theorem bscanEff_keepsStores (v : Bytes) (s : State) : Keeps s (bscanEff v s) := by
  unfold bscanEff
  exact .after (.ite (State.tapRelease_keepsStores ..) (.refl _)) (State.setObj_keepsStores ..)

theorem tstBscanEn_keepsStores (rq : Requester) (v : Byte) (s : State) : Keeps s (tstBscanEn rq v s) := by
  unfold tstBscanEn
  exact submitWrite_keepsStores (h := fun s => bscanEff_keepsStores ..) ..

theorem portLoopEff_keepsStores (v : Bytes) (s : State) : Keeps s (portLoopEff v s) := by
  unfold portLoopEff
  exact .after (State.setBit_keepsStores ..) (State.setObj_keepsStores ..)

theorem State.tapLeave_keepsStores (s : State) : Keeps s s.tapLeave := by
  unfold State.tapLeave
  exact .after (State.setBit_keepsStores ..) <| .after (State.setN_keepsStores ..) <|
    .after (State.setN_keepsStores ..) (State.tapRelease_keepsStores ..)

/-! ### Boot -/

theorem porstNAssert_keepsStores (cause : ResetCause) (s : State) : Keeps s (porstNAssert cause s) := by
  unfold porstNAssert
  split
  · exact State.powerReset_keepsStores ..
  · exact .ite (State.powerReset_keepsStores ..) (.ite (.refl _) (.after (.ite (State.powerReset_keepsStores ..) (.refl _))
      (State.fresh_keepsStores ..)))

theorem porstNRelease_keepsStores (unitId : Bool) (swA swB : W32) (s : State) : Keeps s (porstNRelease unitId swA swB s) := by
  unfold porstNRelease
  exact .ite (.refl _) (.after (State.calSlice_keepsStores ..) <| .after (State.readSwitch_keepsStores ..) <|
    .after (State.readSwitch_keepsStores ..) <| .after (State.onMon_keepsStores ..) <| .after (State.setBit_keepsStores ..) <|
    .after (State.setN_keepsStores ..) (.beside rfl rfl))

theorem State.revertRecords_keepsStores (s : State) (main safety lib : Bool) : Keeps s (s.revertRecords main safety lib) := by
  unfold State.revertRecords
  exact .after (.ite (State.logOpen_keepsStores ..) (.refl _)) <|
    .after (.ite (State.logOpen_keepsStores ..) (.refl _)) (.ite (State.logOpen_keepsStores ..) (.refl _))

theorem State.faultRecord_keepsStores (s : State) (f : DevFault) : Keeps s (s.faultRecord f) := by
  unfold State.faultRecord
  exact State.log_keepsStores ..

theorem State.setUnits_keepsStores (s : State) (u : Nat) (recovery : Bool) : Keeps s (s.setUnits u recovery) := by
  unfold State.setUnits
  exact .after (State.onSafe_keepsStores ..) <| .after (State.setN_keepsStores ..) <|
    .after (State.setN_keepsStores ..) (State.setN_keepsStores ..)

theorem bootComplete_keepsStores (failed : W64) (bootUs testNo : W32) (s : State) : Keeps s (bootComplete failed bootUs testNo s) := by
  unfold bootComplete
  refine .ite (.refl _) <| .ite ?_ <| .after (State.enter_keepsStores ..) <| .after (State.setN_keepsStores ..) <|
    .after (State.faultRecord_keepsStores ..) ?_
  all_goals
    exact .after (State.loadSet_keepsStores ..) <| .after (State.onSafe_keepsStores ..) <| .after (.beside rfl rfl) <|
      .after (.ite (.refl _) (State.bootRecord_keepsStores ..)) <| .after (State.revertRecords_keepsStores ..) <|
      .after (.ite (.refl _) (State.mountRecorder_keepsStores ..)) <| .after (State.setN_keepsStores ..) <|
      .after (State.setUnits_keepsStores ..) (State.bootImages_keepsStores ..)

theorem dramEccDone_keepsStores (s : State) : Keeps s (dramEccDone s) := by
  unfold dramEccDone
  exact .ite (.beside rfl rfl) (.refl _)

theorem rebootEff_keepsStores (v : Bytes) (s : State) : Keeps s (rebootEff v s) := by
  unfold rebootEff
  exact .ite (.after (State.powerReset_keepsStores ..) (.ite (State.saveEntry_keepsStores ..) (.refl _))) (.refl _)

theorem secReboot_keepsStores (rq : Requester) (v : Byte) (s : State) : Keeps s (secReboot rq v s) := by
  unfold secReboot
  exact submitWrite_keepsStores (h := fun s => rebootEff_keepsStores ..) ..

/-! ### Counters -/

theorem State.cntZero_keepsStores (s : State) (e : Nat) : Keeps s (s.cntZero e) := .beside rfl rfl

theorem cntSelEff_keepsStores (e : Nat) (v : Bytes) (s : State) : Keeps s (cntSelEff e v s) := by
  unfold cntSelEff
  exact .after (State.setObj_keepsStores ..) (.beside rfl rfl)

theorem cntSel_keepsStores (rq : Requester) (e : Fin 82) (v : Bytes) (s : State) : Keeps s (cntSel rq e v s) := by
  unfold cntSel
  exact submitWrite_keepsStores (h := fun s => cntSelEff_keepsStores ..) ..

theorem cntBlock_keepsStores (rq : Requester) (e : Fin 82) (s : State) : Keeps s (cntBlock rq e s) := by
  unfold cntBlock
  exact .ite (.refl _) (.ite (State.answer_keepsStores ..) (.after (State.answer_keepsStores ..) <|
    .after (State.setObj_keepsStores ..) (State.slack_keepsStores ..)))

theorem cntClear_keepsStores (rq : Requester) (e : Fin 82) (v : Byte) (s : State) : Keeps s (cntClear rq e v s) := by
  unfold cntClear
  exact submitWrite_keepsStores (h := fun s => State.cntZero_keepsStores ..) ..

theorem State.cntZeroAll_keepsStores (s : State) : Keeps s s.cntZeroAll := .beside rfl rfl

theorem cntClearAll_keepsStores (rq : Requester) (v : Byte) (s : State) : Keeps s (cntClearAll rq v s) := by
  unfold cntClearAll
  exact submitWrite_keepsStores (h := fun s => State.cntZeroAll_keepsStores ..) ..

theorem pmcWrap_keepsStores (e : Fin 82) (k : Fin 6) (s : State) : Keeps s (pmcWrap e k s) := by
  unfold pmcWrap
  exact .ite (.refl _) (State.count_keepsStores ..)

/-! ### Lane -/

theorem State.illegal_keepsStores (s : State) (lane : Nat) (l : LaneSt) (t : LaneTask) : Keeps s (s.illegal lane l t) := by
  unfold State.illegal
  exact .after (State.abortTask_keepsStores ..) <|
    .after (State.count_keepsStores ..) (.ite (.refl _) (.after (State.onJn_keepsStores ..) (State.log_keepsStores ..)))

theorem laneIssue_keepsStores (lane : Fin 64) (i : Instr) (s : State) (run : LaneSt → LaneTask → State)
    (h : ∀ l t, s.lanes[lane.val]? = some l → Keeps s (run l t)) : Keeps s (laneIssue lane i s run) := by
  unfold laneIssue
  split
  · exact .refl s
  · exact .refl s
  next l _ hl =>
    split
    · exact .refl s
    · refine .ite (State.illegal_keepsStores ..) ?_
      split
      exacts [h l _ hl, .ite (h l _ hl) (.ite (State.illegal_keepsStores ..) (.refl _))]

theorem laneRun_keepsStores (lane : Fin 64) (i : Instr) (op : LaneOp) (s : State) (h : OpKeepsMem op) : Keeps s (laneRun lane i op s) := by
  refine laneIssue_keepsStores lane i s _ (fun l t hl => ?_)
  split
  next y evs hop =>
    refine .after (State.count_keepsStores ..) ⟨fun ⟨ho, he, hm⟩ => ⟨ho, he, fun x hx => ?_⟩, rfl, .refl _⟩
    have hy := h.mem l t y evs hop (hm l (List.mem_of_getElem? hl))
    obtain ⟨i, hi⟩ := List.mem_iff_getElem?.mp hx
    by_cases hlane : i = lane.val
    · subst hlane
      rw [State.onLane_lanes, getElem?_modAt_same, hl] at hi
      exact Option.some.inj hi ▸ hy
    · rw [State.onLane_lanes, getElem?_modAt_other _ _ (Ne.symm hlane)] at hi
      exact hm x (List.mem_of_getElem? hi)
  next => exact State.illegal_keepsStores ..

theorem laneAdd_keepsStores (l : Fin 64) (w : LaneR) (s : State) : Keeps s (laneAdd l w s) := laneRun_keepsStores (h := opKeepsMem_intOp ..) ..

theorem laneSub_keepsStores (l : Fin 64) (w : LaneR) (s : State) : Keeps s (laneSub l w s) := laneRun_keepsStores (h := opKeepsMem_intOp ..) ..

theorem laneAnd_keepsStores (l : Fin 64) (w : LaneR) (s : State) : Keeps s (laneAnd l w s) := 
  laneRun_keepsStores (h := .noS (.plain (fun x => LaneSt.setReg_mem x w.rd _))) ..

theorem laneOr_keepsStores (l : Fin 64) (w : LaneR) (s : State) : Keeps s (laneOr l w s) := 
  laneRun_keepsStores (h := .noS (.plain (fun x => LaneSt.setReg_mem x w.rd _))) ..

theorem laneXor_keepsStores (l : Fin 64) (w : LaneR) (s : State) : Keeps s (laneXor l w s) := 
  laneRun_keepsStores (h := .noS (.plain (fun x => LaneSt.setReg_mem x w.rd _))) ..

theorem laneShl_keepsStores (l : Fin 64) (w : LaneR) (s : State) : Keeps s (laneShl l w s) := laneRun_keepsStores (h := opKeepsMem_intOp ..) ..

theorem laneShr_keepsStores (l : Fin 64) (w : LaneR) (s : State) : Keeps s (laneShr l w s) := 
  laneRun_keepsStores (h := .noS (.plain (fun x => LaneSt.setReg_mem x w.rd _))) ..

theorem laneSar_keepsStores (l : Fin 64) (w : LaneR) (s : State) : Keeps s (laneSar l w s) := 
  laneRun_keepsStores (h := .noS (.plain (fun x => LaneSt.setReg_mem x w.rd _))) ..

theorem laneMul_keepsStores (l : Fin 64) (w : LaneR) (s : State) : Keeps s (laneMul l w s) := laneRun_keepsStores (h := opKeepsMem_intOp ..) ..

theorem laneMulq_keepsStores (l : Fin 64) (w : LaneR) (s : State) : Keeps s (laneMulq l w s) := laneRun_keepsStores (h := opKeepsMem_intOp ..) ..

theorem laneAbs_keepsStores (l : Fin 64) (w : LaneR) (s : State) : Keeps s (laneAbs l w s) := laneRun_keepsStores (h := opKeepsMem_intOp ..) ..

theorem laneNorm_keepsStores (l : Fin 64) (w : LaneR) (s : State) : Keeps s (laneNorm l w s) := 
  laneRun_keepsStores (h := .noS (.plain (fun x => LaneSt.setReg_mem x w.rd _))) ..

theorem laneExp_keepsStores (l : Fin 64) (w : LaneR) (s : State) : Keeps s (laneExp l w s) := 
  laneRun_keepsStores (h := .noS (.plain (fun x => LaneSt.setReg_mem x w.rd _))) ..

theorem laneMac_keepsStores (l : Fin 64) (w : LaneR) (s : State) : Keeps s (laneMac l w s) := laneRun_keepsStores (h := opKeepsMem_accOp ..) ..

theorem laneMsu_keepsStores (l : Fin 64) (w : LaneR) (s : State) : Keeps s (laneMsu l w s) := laneRun_keepsStores (h := opKeepsMem_accOp ..) ..

theorem laneMovta_keepsStores (l : Fin 64) (w : LaneR) (s : State) : Keeps s (laneMovta l w s) := 
  laneRun_keepsStores (h := .noS (.ite .none (.some (fun x _ => LaneSt.setAcc_mem x _ _)))) ..

theorem laneMova_keepsStores (l : Fin 64) (w : LaneR) (s : State) : Keeps s (laneMova l w s) := laneRun_keepsStores (h := opKeepsMem_intOp ..) ..

theorem laneExpa_keepsStores (l : Fin 64) (w : LaneR) (s : State) : Keeps s (laneExpa l w s) := 
  laneRun_keepsStores (h := .noS (.plain (fun x => LaneSt.setReg_mem x w.rd _))) ..

theorem laneFadd_keepsStores (l : Fin 64) (w : LaneR) (s : State) : Keeps s (laneFadd l w s) := laneRun_keepsStores (h := opKeepsMem_fpOp ..) ..

theorem laneFsub_keepsStores (l : Fin 64) (w : LaneR) (s : State) : Keeps s (laneFsub l w s) := laneRun_keepsStores (h := opKeepsMem_fpOp ..) ..

theorem laneFmul_keepsStores (l : Fin 64) (w : LaneR) (s : State) : Keeps s (laneFmul l w s) := laneRun_keepsStores (h := opKeepsMem_fpOp ..) ..

theorem laneFma_keepsStores (l : Fin 64) (w : LaneR) (s : State) : Keeps s (laneFma l w s) := laneRun_keepsStores (h := opKeepsMem_fpOp ..) ..

theorem laneFms_keepsStores (l : Fin 64) (w : LaneR) (s : State) : Keeps s (laneFms l w s) := laneRun_keepsStores (h := opKeepsMem_fpOp ..) ..

theorem laneFdiv_keepsStores (l : Fin 64) (w : LaneR) (s : State) : Keeps s (laneFdiv l w s) := laneRun_keepsStores (h := opKeepsMem_fpOp ..) ..

theorem laneFsqrt_keepsStores (l : Fin 64) (w : LaneR) (s : State) : Keeps s (laneFsqrt l w s) := laneRun_keepsStores (h := .noS (opKeepsMem_fpOp ..)) ..

theorem laneFmin_keepsStores (l : Fin 64) (w : LaneR) (s : State) : Keeps s (laneFmin l w s) := laneRun_keepsStores (h := .noS (opKeepsMem_fpOp ..)) ..

theorem laneFmax_keepsStores (l : Fin 64) (w : LaneR) (s : State) : Keeps s (laneFmax l w s) := laneRun_keepsStores (h := .noS (opKeepsMem_fpOp ..)) ..

theorem laneFcmplt_keepsStores (l : Fin 64) (w : LaneR) (s : State) : Keeps s (laneFcmplt l w s) :=
  .after (laneRun_keepsStores (h := .noS (.some (fun x _ => (LaneSt.flag_mem ..).trans (LaneSt.setReg_mem x w.rd _)))) ..)
    (State.fresh_keepsStores s)

theorem laneFnorm_keepsStores (l : Fin 64) (w : LaneR) (s : State) : Keeps s (laneFnorm l w s) := 
  laneRun_keepsStores (h := .noS (.some (fun x _ => LaneSt.setReg_mem x w.rd _))) ..

theorem laneFexp_keepsStores (l : Fin 64) (w : LaneR) (s : State) : Keeps s (laneFexp l w s) := 
  laneRun_keepsStores (h := .noS (.some (fun x _ => LaneSt.setReg_mem x w.rd _))) ..

theorem laneFtoi_keepsStores (l : Fin 64) (w : LaneR) (s : State) : Keeps s (laneFtoi l w s) := by
  refine laneRun_keepsStores (h := .ite .none ⟨fun x t y c h => ?_⟩) ..
  have hflags (v : Int) : (((x.setInt w.rd v).flag fInv true).flag fSatf w.s).mem = x.mem :=
    (LaneSt.flag_mem ..).trans ((LaneSt.flag_mem ..).trans (LaneSt.setReg_mem ..))
  dsimp only at h
  split at h
  · split at h
    · cases h; exact .of_eq (hflags _)
    · split at h
      · cases h; exact .of_eq (hflags _)
      · cases h; exact .of_eq (LaneSt.setReg_mem ..)
  · cases h; exact .of_eq (hflags _)

theorem laneItof_keepsStores (l : Fin 64) (w : LaneR) (s : State) : Keeps s (laneItof l w s) := 
  laneRun_keepsStores (h := .noS (.ite .none (.some (fun x _ => LaneSt.setReg_mem x w.rd _)))) ..

theorem laneDmago_keepsStores (l : Fin 64) (w : LaneR) (s : State) : Keeps s (laneDmago l w s) := by
  refine laneRun_keepsStores (h := .noS ⟨fun x t y c h => ?_⟩) ..
  dsimp only at h
  split at h
  · split_ifs at h
    cases h
    exact memWf_write _ _
  · cases h

theorem laneDmawt_keepsStores (l : Fin 64) (w : LaneR) (s : State) : Keeps s (laneDmawt l w s) := laneRun_keepsStores (h := .noS (.plain (fun _ => rfl))) ..

theorem laneAddi_keepsStores (l : Fin 64) (w : LaneI) (s : State) : Keeps s (laneAddi l w s) := laneRun_keepsStores (h := opKeepsMem_intOp ..) ..

theorem laneShli_keepsStores (l : Fin 64) (w : LaneI) (s : State) : Keeps s (laneShli l w s) := laneRun_keepsStores (h := .ite .none (opKeepsMem_intOp ..)) ..

theorem laneSari_keepsStores (l : Fin 64) (w : LaneI) (s : State) : Keeps s (laneSari l w s) := 
  laneRun_keepsStores (h := .ite .none (.some (fun x _ => LaneSt.setReg_mem x w.rd _))) ..

theorem laneAndi_keepsStores (l : Fin 64) (w : LaneI) (s : State) : Keeps s (laneAndi l w s) := 
  laneRun_keepsStores (h := .ite .none (.some (fun x _ => LaneSt.setReg_mem x w.rd _))) ..

theorem laneRdcnt_keepsStores (l : Fin 64) (w : LaneI) (s : State) : Keeps s (laneRdcnt l w s) := by
  unfold laneRdcnt
  refine .after (laneRun_keepsStores (h := .ite .none (.ite (.some (fun x _ => LaneSt.setReg_mem x w.rd _)) (.ite
    (.some (fun x _ => LaneSt.setReg_mem _ w.rd _)) ⟨fun x t y c h => ?_⟩))) ..) (.ite (State.slack_keepsStores ..) (.refl _))
  have htear (v : W32) : ((x.setReg w.rd v).flag fTear true).mem = x.mem := (LaneSt.flag_mem ..).trans (LaneSt.setReg_mem ..)
  split at h
  · split at h
    · cases h; exact .of_eq (LaneSt.setReg_mem ..)
    · cases h; exact .of_eq (htear _)
  · cases h; exact .of_eq (htear _)

theorem laneLd_keepsStores (l : Fin 64) (w : LaneM) (s : State) : Keeps s (laneLd l w s) := laneRun_keepsStores (h := opKeepsMem_loadOp ..) ..

theorem laneSt_keepsStores (l : Fin 64) (w : LaneM) (s : State) : Keeps s (laneSt l w s) := laneRun_keepsStores (h := opKeepsMem_storeOp ..) ..

theorem laneLdh_keepsStores (l : Fin 64) (w : LaneM) (s : State) : Keeps s (laneLdh l w s) := laneRun_keepsStores (h := opKeepsMem_loadOp ..) ..

theorem laneSth_keepsStores (l : Fin 64) (w : LaneM) (s : State) : Keeps s (laneSth l w s) := laneRun_keepsStores (h := opKeepsMem_storeOp ..) ..

theorem laneLi_keepsStores (l : Fin 64) (w : LaneB) (s : State) : Keeps s (laneLi l w s) := 
  laneRun_keepsStores (h := .plain (fun x => LaneSt.setReg_mem x w.rd _)) ..

theorem laneLih_keepsStores (l : Fin 64) (w : LaneB) (s : State) : Keeps s (laneLih l w s) := 
  laneRun_keepsStores (h := .plain (fun x => LaneSt.setReg_mem x w.rd _)) ..

theorem laneBz_keepsStores (l : Fin 64) (w : LaneB) (s : State) : Keeps s (laneBz l w s) := laneRun_keepsStores (h := opKeepsMem_branchOp ..) ..

theorem laneBnz_keepsStores (l : Fin 64) (w : LaneB) (s : State) : Keeps s (laneBnz l w s) := laneRun_keepsStores (h := opKeepsMem_branchOp ..) ..

theorem laneBlt_keepsStores (l : Fin 64) (w : LaneB) (s : State) : Keeps s (laneBlt l w s) := laneRun_keepsStores (h := opKeepsMem_branchOp ..) ..

theorem laneBloop_keepsStores (l : Fin 64) (w : LaneB) (s : State) : Keeps s (laneBloop l w s) := by
  refine laneRun_keepsStores (h := .ite ⟨fun x t y c h => ?_⟩ (.some (fun x _ => LaneSt.setReg_mem x w.rd _))) ..
  obtain ⟨z, hz, heq⟩ := Option.map_eq_some_iff.mp h
  cases heq
  exact .of_eq ((LaneSt.branch_mem hz).trans (LaneSt.setReg_mem ..))

/-! ### Kernels -/

theorem State.deliverArm_keepsStores (s old : State) (a : Nat) : Keeps s (s.deliverArm old a) := by
  unfold State.deliverArm
  exact State.arriveAll_keepsStores ..

theorem State.solveOut_keepsStores (s old : State) : Keeps s (s.solveOut old) := by
  unfold State.solveOut
  exact .ite (.refl _) (.after (keeps_foldl (fun s a => State.deliverArm_keepsStores ..) ..) (State.emuPush_keepsStores ..))

theorem State.solveCounts_keepsStores (s old : State) : Keeps s (s.solveCounts old) := by
  unfold State.solveCounts
  exact .ite (.refl _) (State.countWork_keepsStores ..)

theorem solveCmd_keepsStores (s : State) : Keeps s (solveCmd s) := by
  unfold solveCmd
  exact .after (State.solveCounts_keepsStores ..) <| .after (State.solveOut_keepsStores ..) (solve_keepsStores ..)

theorem solverLateCmd_keepsStores (s : State) : Keeps s (solverLateCmd s) := by
  unfold solverLateCmd
  exact .after (State.solveCounts_keepsStores ..) <| .after (State.solveOut_keepsStores ..) (solverLate_keepsStores ..)

theorem State.fillPorts_keepsStores (s : State) : Keeps s s.fillPorts := by
  unfold State.fillPorts
  generalize s.cycle % 65536 = c
  have harms : Keeps s (s.arms.foldl (fun s a => match s.inst? a with
      | some x => if ((x.ports.getD 1 emptyPort).cur).isSome ∨ x.tag ≠ c then s
          else s.arrive a 1 c ⟨s.fillState a, false, false, 0, none⟩
      | none => s) s) := keeps_foldl (fun s a => by split; exacts [.ite (.refl _) (State.arrive_keepsStores ..), .refl s]) ..
  exact .ite (.refl s) <| .ite (.after (State.onJn_keepsStores ..) (.after (keeps_foldl (fun s _ => State.arrive_keepsStores s ..) ..) harms))
    (.after (keeps_foldl (fun s _ => State.arrive_keepsStores s ..) ..) harms)

theorem State.kinJoint_keepsStores (s : State) (i : Nat) (b : Bytes) (stale : Bool) : Keeps s (s.kinJoint i b stale) := by
  unfold State.kinJoint
  refine .ite (.after (.beside rfl rfl) (State.onJn_keepsStores ..)) ?_
  split
  · exact .refl _
  · exact .after (.beside rfl rfl) <| .after (State.fresh_keepsStores ..) (State.fresh_keepsStores ..)

theorem State.kinPred_keepsStores (s : State) (a : Nat) (op1 : Bytes) : Keeps s (s.kinPred a op1) := .beside rfl rfl

theorem State.kinEnd_keepsStores (s : State) (t : Fired) : Keeps s (s.kinEnd t) := by
  unfold State.kinEnd
  exact .after (State.complete_keepsStores ..) <|
    .after (State.kinPred_keepsStores ..) (keeps_foldl (fun s j => State.kinJoint_keepsStores ..) ..)

theorem State.jloopEnd_keepsStores (s : State) (t : Fired) : Keeps s (s.jloopEnd t) := by
  unfold State.jloopEnd
  exact .ite (State.complete_keepsStores ..) (.ite (State.abortTask_keepsStores ..) (.after (State.complete_keepsStores ..)
    (State.onJn_keepsStores ..)))

theorem State.jloopRun_keepsStores (s : State) : Keeps s s.jloopRun := by
  unfold State.jloopRun
  exact State.onJn_keepsStores ..

theorem State.setptEnd_keepsStores (s : State) (t : Fired) : Keeps s (s.setptEnd t) := by
  unfold State.setptEnd
  exact State.complete_keepsStores ..

theorem State.bypassEnd_keepsStores (s : State) (t : Fired) : Keeps s (s.bypassEnd t) := by
  unfold State.bypassEnd
  exact .after (State.complete_keepsStores ..) <| .after (State.emuPush_keepsStores ..) <|
    .after (State.advance_keepsStores ..) (.ite (State.setBit_keepsStores ..) (.refl _))

theorem State.userEnd_keepsStores (s : State) (l : LaneSt) (t : LaneTask) : Keeps s (s.userEnd l t) := by
  unfold State.userEnd
  exact State.complete_keepsStores ..

theorem endTask_keepsStores (lane : Fin 64) (w : LaneR) (s : State) : Keeps s (endTask lane w s) := by
  refine laneIssue_keepsStores (h := fun l t _ => .ite (State.illegal_keepsStores ..) ?_) ..
  have hcount (s : State) : Keeps s
      ((s.onLane lane.val (fun x => { x.next with task := none, dma := none })).count lane.val 1 [(1, 1), (0x11, 1)]) :=
    .after (State.count_keepsStores ..) (State.onLane_keepsStores (h := fun _ h => h) ..)
  have hslack : Keeps s (if s.vendorRun lane.val then s.slack lane.val else s) := .ite (State.slack_keepsStores ..) (.refl s)
  refine .after ?_ (hslack.trans (hcount _))
  exact .ite (State.userEnd_keepsStores ..) <| .ite (State.kinEnd_keepsStores ..) <| .ite (State.jloopEnd_keepsStores ..) <|
    .ite (State.setptEnd_keepsStores ..) (State.bypassEnd_keepsStores ..)

/-! ### Effects -/

theorem devCmdEff_keepsStores (rq : Requester) (v : Bytes) (s : State) : Keeps s (devCmdEff rq v s) := by
  unfold devCmdEff
  exact .after (.ite (.refl _) (State.forward_keepsStores ..)) (.beside rfl rfl)

theorem gateEff_keepsStores (v : Bytes) (s : State) : Keeps s (gateEff v s) := by
  unfold gateEff
  exact .after (.ite (.after (State.clocksStart_keepsStores ..) (State.onMon_keepsStores ..)) (.refl _)) (State.setObj_keepsStores ..)

theorem State.endSessions_keepsStores (s : State) : Keeps s s.endSessions := .beside rfl rfl

theorem redStatusEff_keepsStores (v : Bytes) (s : State) : Keeps s (redStatusEff v s) := by
  unfold redStatusEff
  exact .after (.ite (.refl _) (State.interrupt_keepsStores ..)) (storeWrite_keepsStores ..)

theorem svcAddrEff_keepsStores (sub : Nat) (v : Bytes) (s : State) : Keeps s (svcAddrEff sub v s) := by
  unfold svcAddrEff
  exact .after (.ite (.refl _) (State.endSessions_keepsStores ..)) (storeWrite_keepsStores ..)

theorem effMotion_keepsStores (index sub : Nat) (v : Bytes) (s : State) : Keeps s (effMotion index sub v s) := by
  unfold effMotion
  exact .ite (armMoveEff_keepsStores ..) (.ite (jogEff_keepsStores ..) (.ite (grpCmdEff_keepsStores ..) (.ite (grpMoveEff_keepsStores ..)
    (.ite (hcCtrlEff_keepsStores ..) (.ite (crReqEff_keepsStores ..) (.after (.ite (State.setIterActive_keepsStores ..) (.refl _))
    (storeWrite_keepsStores ..)))))))

theorem effLine_keepsStores (index sub : Nat) (v : Bytes) (s : State) : Keeps s (effLine index sub v s) := by
  unfold effLine
  exact .ite (State.cntZeroAll_keepsStores ..) (.ite (cntSelEff_keepsStores ..) (.ite (State.cntZero_keepsStores ..)
    (.ite (axMoveEff_keepsStores ..) (.ite (cmpValueEff_keepsStores ..) (.ite (State.arm_keepsStores ..) (storeWrite_keepsStores ..))))))

theorem effDevice_keepsStores (rq : Requester) (index sub : Nat) (v : Bytes) (s : State) : Keeps s (effDevice rq index sub v s) := by
  unfold effDevice
  split
  · exact devCmdEff_keepsStores ..
  · exact State.setObj_keepsStores ..
  · exact svcAddrEff_keepsStores ..
  · exact svcAddrEff_keepsStores ..
  · exact svcAddrEff_keepsStores ..
  · exact State.setObj_keepsStores ..
  · exact State.setObj_keepsStores ..
  · exact timeIncEff_keepsStores ..
  · exact phaseSlewEff_keepsStores ..
  · exact timeSetEff_keepsStores ..
  · exact cellRefEff_keepsStores ..
  · exact .after (State.sourceEff_keepsStores ..) (storeWrite_keepsStores ..)
  · exact .after (State.sourceEff_keepsStores ..) (storeWrite_keepsStores ..)
  · exact .after (State.sourceEff_keepsStores ..) (storeWrite_keepsStores ..)
  · exact .after (State.sourceEff_keepsStores ..) (storeWrite_keepsStores ..)
  · exact .after (State.sourceEff_keepsStores ..) (storeWrite_keepsStores ..)
  · exact .after (State.sourceEff_keepsStores ..) (storeWrite_keepsStores ..)
  · exact .after (State.sourceEff_keepsStores ..) (storeWrite_keepsStores ..)
  · exact safeSetEff_keepsStores ..
  · exact safeBtEff_keepsStores ..
  · exact redStatusEff_keepsStores ..
  · exact recSafeSectEff_keepsStores ..
  · exact recClearEff_keepsStores ..
  · exact State.reenable_keepsStores ..
  · exact gateEff_keepsStores ..
  · exact monCalEff_keepsStores ..
  · exact syscalEff_keepsStores ..
  · exact imageEff_keepsStores ..
  · exact imageEff_keepsStores ..
  · exact imageEff_keepsStores ..
  · exact secConfirmEff_keepsStores ..
  · exact rebootEff_keepsStores ..
  · exact ownerKeyEff_keepsStores ..
  · exact ownerRevokeEff_keepsStores ..
  · exact devLockEff_keepsStores ..
  · exact nonceEff_keepsStores ..
  · exact bscanEff_keepsStores ..
  · exact portLoopEff_keepsStores ..
  · exact storeWrite_keepsStores ..

theorem writeEff_keepsStores (rq : Requester) (index sub : Nat) (v : Bytes) (s : State) : Keeps s (writeEff rq index sub v s) := by
  unfold writeEff
  exact .ite (effMotion_keepsStores ..) (.ite (effLine_keepsStores ..) (effDevice_keepsStores ..))

theorem unlockEff_keepsStores (rq : Requester) (s : State) : Keeps s (unlockEff rq s) := by
  unfold unlockEff
  exact State.setRq_keepsStores ..

theorem State.wrongCode_keepsStores (s : State) (rq : Requester) : Keeps s (s.wrongCode rq) := by
  unfold State.wrongCode
  exact .ite (.refl _) (State.setRq_keepsStores ..)

theorem tokenEff_keepsStores (rq : Requester) (v : Bytes) (s : State) : Keeps s (tokenEff rq v s) := by
  unfold tokenEff
  exact .after (State.log_keepsStores ..) (State.setRq_keepsStores ..)

theorem lockEff_keepsStores (rq : Requester) (s : State) : Keeps s (lockEff rq s) := by
  unfold lockEff
  exact State.setRq_keepsStores ..

theorem accessEff_keepsStores (rq : Requester) (sub : Nat) (v : Bytes) (s : State) : Keeps s (accessEff rq sub v s) := by
  unfold accessEff
  split
  exacts [unlockEff_keepsStores .., tokenEff_keepsStores .., lockEff_keepsStores ..]

theorem accessWrite_keepsStores (rq : Requester) (sub : Nat) (v : Bytes) (s : State) : Keeps s (accessWrite rq sub v s) := by
  unfold accessWrite
  exact .after (.ite (State.wrongCode_keepsStores ..) (.refl _)) (submitWrite_keepsStores (h := fun s => accessEff_keepsStores ..) ..)

theorem accUnlock_keepsStores (rq : Requester) (v : W32) (s : State) : Keeps s (accUnlock rq v s) := by
  unfold accUnlock
  exact accessWrite_keepsStores ..

theorem accLockoutExpiry_keepsStores (rq : Requester) (s : State) : Keeps s (accLockoutExpiry rq s) := by
  unfold accLockoutExpiry
  exact .ite (State.setRq_keepsStores ..) (.refl _)

theorem accVToken_keepsStores (rq : Requester) (token : Bytes) (s : State) : Keeps s (accVToken rq token s) := by
  unfold accVToken
  exact State.verifying_keepsStores (h := fun s => accessWrite_keepsStores ..) ..

theorem tokenExpiry_keepsStores (rq : Requester) (s : State) : Keeps s (tokenExpiry rq s) := by
  unfold tokenExpiry
  exact .ite (lockEff_keepsStores ..) (.refl _)

theorem accLock_keepsStores (rq : Requester) (v : Byte) (s : State) : Keeps s (accLock rq v s) := by
  unfold accLock
  exact accessWrite_keepsStores ..

theorem afterWrite_keepsStores (rq : Requester) (index sub : Nat) (v : Bytes) (s s' : State) :
    Keeps s' (afterWrite rq index sub v s s') := by
  unfold afterWrite
  exact .ite (State.moveRefused_keepsStores ..) (.ite (State.moveRefused_keepsStores ..) (.ite (State.setBit_keepsStores ..) (.ite
    (.ite (State.setBit_keepsStores ..) (.after (State.logOpen_keepsStores ..) (State.setBit_keepsStores ..))) (.refl _))))

theorem runWrite_keepsStores (rq : Requester) (index sub : Nat) (v : Bytes) (s : State) : Keeps s (runWrite rq index sub v s) := by
  unfold runWrite
  exact .ite (accessWrite_keepsStores ..) (.after (afterWrite_keepsStores ..)
    (submitWrite_keepsStores (h := fun s => writeEff_keepsStores ..) ..))

theorem performObject_keepsStores (rq : Requester) (index sub : Nat) (v : Bytes) (s : State) :
    Keeps s (performObject rq index sub v s) := by
  unfold performObject
  exact .ite (State.verifying_keepsStores (h := fun s => runWrite_keepsStores ..) ..) (runWrite_keepsStores ..)

theorem State.runVerifies_keepsStores (s : State) : Keeps s s.runVerifies := by
  unfold State.runVerifies
  refine .after (keeps_foldl (fun s w => .after (.ite (.refl _) (State.finish_keepsStores ..)) (runWrite_keepsStores ..)) ..) <|
    .after (State.onSec_keepsStores (h := fun _ => rfl) ..) ?_
  split
  exacts [State.imageDone_keepsStores .., .refl _]

theorem attReportDone_keepsStores (s : State) : Keeps s (attReportDone s) := by
  unfold attReportDone
  split
  exacts [.after (State.runVerifies_keepsStores ..) (State.reportSigned_keepsStores ..), .refl _]

theorem objectWrite_keepsStores (rq : Requester) (index : W16) (sub : Byte) (data : Bytes) (s : State) :
    Keeps s (objectWrite rq index sub data s) := by
  unfold objectWrite
  exact performObject_keepsStores ..

theorem State.applyOne_keepsStores (s : State) (w : PendingWrite) : Keeps s (s.applyOne w) := by
  unfold State.applyOne
  exact .ite (State.stage_keepsStores ..) (writeEff_keepsStores ..)

theorem writeApply_keepsStores (s : State) : Keeps s (writeApply s) := by
  unfold writeApply
  exact .after (keeps_foldl (fun s w => State.applyOne_keepsStores ..) ..) (.beside rfl rfl)

/-! ### Values -/

theorem State.mailRead_keepsStores (s : State) (rq : Requester) (index sub : Nat) (v : Bytes) (seq : Nat) (ready : Bool) :
    Keeps s (s.mailRead rq index sub v seq ready).2.2 := by
  unfold State.mailRead
  split
  exacts [.refl _, State.setRq_keepsStores ..]

theorem State.dequeue_keepsStores (s : State) (index sub : Nat) (v : Bytes) : Keeps s (s.dequeue index sub v) := by
  unfold State.dequeue
  exact .ite (.beside rfl rfl) (.ite (.beside rfl rfl) (.refl _))

theorem State.sampled_keepsStores (s : State) (index sub : Nat) : Keeps s (s.sampled index sub) := by
  unfold State.sampled
  exact .ite (State.slack_keepsStores ..) (.refl _)

theorem State.readObject_keepsStores (s : State) (rq : Requester) (index sub : Nat) : Keeps s (s.readObject rq index sub).2.2 := by
  unfold State.readObject
  split
  exacts [State.mailRead_keepsStores .., State.sampled_keepsStores ..]

theorem State.wordValue_keepsStores (s : State) (rq : Requester) (index sub : Nat) : Keeps s (s.wordValue rq index sub).2 := by
  unfold State.wordValue
  split
  · split
    exacts [State.sampled_keepsStores .., .refl _]
  · exact .refl _

/-! ### Message -/

theorem State.fail_keepsStores (s : State) (rq : Requester) (m : DictMsg) (code : Nat) : Keeps s (s.fail rq m code) := by
  unfold State.fail
  exact .after (State.respond_keepsStores ..) (State.answer_keepsStores ..)

theorem State.setXfer_keepsStores (s : State) (rq : Requester) (x : Option Xfer) : Keeps s (s.setXfer rq x) := by
  unfold State.setXfer
  exact State.setRq_keepsStores ..

theorem State.writeValue_keepsStores (s : State) (rq : Requester) (m : DictMsg) (v : Bytes) : Keeps s (s.writeValue rq m v) := by
  unfold State.writeValue
  exact .after (.ite (.refl _) (.ite (.refl _) (.ite (State.respond_keepsStores ..) (State.respond_keepsStores ..))))
    (performObject_keepsStores ..)

theorem State.eraseSlot_keepsStores (s : State) (rq : Requester) (m : DictMsg) (x : Xfer) : Keeps s (s.eraseSlot rq m x) := by
  unfold State.eraseSlot
  refine .ite ?_ ?_
  · exact .after (State.respond_keepsStores ..) <| .after (.ite (State.setBit_keepsStores ..) (.refl _)) (State.refuse_keepsStores ..)
  · exact .after (State.setXfer_keepsStores ..) <| .after (State.answer_keepsStores ..) <|
      State.onSec_keepsStores (h := fun y => StSec.onImg_fuses y _ _) ..

theorem State.execWrite_keepsStores (s : State) (rq : Requester) (m : DictMsg) : Keeps s (s.execWrite rq m) := by
  unfold State.execWrite
  exact .ite (.ite (State.writeValue_keepsStores ..) (State.fail_keepsStores ..)) (.ite (State.fail_keepsStores ..)
    (.ite (State.fail_keepsStores ..) (.ite (State.eraseSlot_keepsStores ..) (.after (State.respond_keepsStores ..)
    (State.setXfer_keepsStores ..)))))

theorem State.execSegWrite_keepsStores (s : State) (rq : Requester) (m : DictMsg) : Keeps s (s.execSegWrite rq m) := by
  unfold State.execSegWrite
  split
  · exact State.fail_keepsStores ..
  · exact .ite (State.fail_keepsStores ..) (.ite (.ite (.after (.ite (State.writeValue_keepsStores ..) (State.fail_keepsStores ..))
      (State.setXfer_keepsStores ..)) (.after (State.respond_keepsStores ..) (State.setXfer_keepsStores ..)))
      (.ite (State.respond_keepsStores ..) (State.fail_keepsStores ..)))

theorem State.execRead_keepsStores (s : State) (rq : Requester) (m : DictMsg) : Keeps s (s.execRead rq m) := by
  unfold State.execRead
  exact .ite (State.fail_keepsStores ..) (.ite (.after (State.respond_keepsStores ..) <| .after (State.dequeue_keepsStores ..) <|
    .after (State.answer_keepsStores ..) (State.readObject_keepsStores ..)) (.ite (State.fail_keepsStores ..)
    (.ite (State.fail_keepsStores ..) (.after (State.respond_keepsStores ..) <| .after (State.setXfer_keepsStores ..) <|
    .after (State.answer_keepsStores ..) (State.readObject_keepsStores ..)))))

theorem State.execSegRead_keepsStores (s : State) (rq : Requester) (m : DictMsg) : Keeps s (s.execSegRead rq m) := by
  unfold State.execSegRead
  split
  · exact State.fail_keepsStores ..
  · exact .ite (State.fail_keepsStores ..) (.ite (.after (State.fail_keepsStores ..) (State.setXfer_keepsStores ..))
      (.ite (State.fail_keepsStores ..) (.ite (.after (State.respond_keepsStores ..) <|
      .after (State.dequeue_keepsStores ..) (State.setXfer_keepsStores ..)) (.after (State.respond_keepsStores ..)
      (State.setXfer_keepsStores ..)))))

theorem State.execDesc_keepsStores (s : State) (rq : Requester) (m : DictMsg) : Keeps s (s.execDesc rq m) := by
  unfold State.execDesc
  split
  · exact State.fail_keepsStores ..
  · exact .ite (State.fail_keepsStores ..) (.after (State.respond_keepsStores ..) (State.answer_keepsStores ..))

theorem State.execCancel_keepsStores (s : State) (rq : Requester) (m : DictMsg) : Keeps s (s.execCancel rq m) := by
  unfold State.execCancel
  refine .after (State.respond_keepsStores ..) <| .after (State.answer_keepsStores ..) ?_
  split
  exacts [.ite (State.setXfer_keepsStores ..) (.refl _), .refl _]

theorem State.execIndirect_keepsStores (s : State) (m : DictMsg) : Keeps s (s.execIndirect m) := by
  unfold State.execIndirect
  exact .ite (State.fail_keepsStores ..) (.ite (State.fail_keepsStores ..) (.ite (State.fail_keepsStores ..) (.beside rfl rfl)))

theorem State.execMsg_keepsStores (s : State) (rq : Requester) (m : DictMsg) : Keeps s (s.execMsg rq m) := by
  unfold State.execMsg
  refine .ite (State.execIndirect_keepsStores ..) (.ite (State.fail_keepsStores ..) ?_)
  split
  · exact State.execRead_keepsStores ..
  · exact State.execWrite_keepsStores ..
  · exact State.execSegRead_keepsStores ..
  · exact State.execSegWrite_keepsStores ..
  · exact State.execDesc_keepsStores ..
  · exact State.execCancel_keepsStores ..
  · split
    exacts [State.setRq_keepsStores .., State.fail_keepsStores ..]
  · exact State.fail_keepsStores ..

theorem State.toEngine_keepsStores (s : State) (rq : Requester) (m : DictMsg) : Keeps s (s.toEngine rq m) := by
  unfold State.toEngine
  exact .ite (.beside rfl rfl) (.after (State.execMsg_keepsStores ..) (State.onMon_keepsStores ..))

theorem State.drainWaiting_keepsStores (n : Nat) (s : State) : Keeps s (State.drainWaiting n s) := by
  induction n generalizing s with
  | zero => exact .refl s
  | succ n ih =>
    unfold State.drainWaiting
    split
    · exact .refl s
    · refine .ite (.refl _) (.after (ih _) ?_)
      split
      · exact .after (State.execMsg_keepsStores ..) <| .after (State.onMon_keepsStores ..) (.beside rfl rfl)
      · exact .after (State.onMon_keepsStores ..) (.beside rfl rfl)

theorem State.pendingTo_keepsStores (s : State) (rq : Requester) (m : DictMsg) : Keeps s (s.pendingTo rq m) := by
  unfold State.pendingTo
  split
  exacts [State.deliver_keepsStores .., State.deliver_keepsStores .., .refl _]

theorem State.sendOwed_keepsStores (s : State) : Keeps s s.sendOwed := by
  unfold State.sendOwed
  refine keeps_foldl (fun s r => ?_) ..
  split
  · exact .after (State.pendingTo_keepsStores ..) (State.setRq_keepsStores ..)
  · exact State.setRq_keepsStores ..

theorem State.request_keepsStores (s : State) (rq : Requester) (m : DictMsg) : Keeps s (s.request rq m) := by
  unfold State.request
  refine .ite ?_ (.ite (.refl _) (.after (State.toEngine_keepsStores ..) (State.setRq_keepsStores ..)))
  split
  exacts [State.deliver_keepsStores .., State.pendingTo_keepsStores .., .refl _]

theorem State.openSession_keepsStores {s t : State} {ip : W32} {port : W16} (h : s.openSession ip port = some t) : Keeps s t := by
  unfold State.openSession at h
  split at h
  · exact Option.some.inj h ▸ .beside rfl rfl
  · split at h
    · exact Option.some.inj h ▸ .beside rfl rfl
    · cases h

theorem handleMsg_keepsStores (rq : Requester) (m : DictMsg) (s : State) : Keeps s (handleMsg rq m s) := by
  unfold handleMsg
  refine .ite (.refl _) ?_
  split
  · exact .ite (State.request_keepsStores ..) (.refl _)
  · refine .ite (.refl _) ?_
    split
    next hopen => exact .after (State.request_keepsStores ..) (State.openSession_keepsStores hopen)
    next => exact .beside rfl rfl
  · exact State.request_keepsStores ..

theorem opMsg_keepsStores (op : Nat) (rq : Requester) (m : DictMsg) (s : State) : Keeps s (opMsg op rq m s) := by
  unfold opMsg
  exact handleMsg_keepsStores ..

theorem readCmd_keepsStores (rq : Requester) (m : DictMsg) (s : State) : Keeps s (readCmd rq m s) := by
  unfold readCmd
  exact opMsg_keepsStores ..

theorem writeCmd_keepsStores (rq : Requester) (m : DictMsg) (s : State) : Keeps s (writeCmd rq m s) := by
  unfold writeCmd
  exact opMsg_keepsStores ..

theorem segReadCmd_keepsStores (rq : Requester) (m : DictMsg) (s : State) : Keeps s (segReadCmd rq m s) := by
  unfold segReadCmd
  exact opMsg_keepsStores ..

theorem segWriteCmd_keepsStores (rq : Requester) (m : DictMsg) (s : State) : Keeps s (segWriteCmd rq m s) := by
  unfold segWriteCmd
  exact opMsg_keepsStores ..

theorem descCmd_keepsStores (rq : Requester) (m : DictMsg) (s : State) : Keeps s (descCmd rq m s) := by
  unfold descCmd
  exact opMsg_keepsStores ..

theorem cancelCmd_keepsStores (rq : Requester) (m : DictMsg) (s : State) : Keeps s (cancelCmd rq m s) := by
  unfold cancelCmd
  exact opMsg_keepsStores ..

theorem mailboxRead_keepsStores (rq : Requester) (index : W16) (sub : Byte) (s : State) : Keeps s (mailboxRead rq index sub s) := by
  unfold mailboxRead
  exact .ite (handleMsg_keepsStores ..) (.refl _)

theorem queueRead_keepsStores (rq : Requester) (index : W16) (sub : Byte) (s : State) : Keeps s (queueRead rq index sub s) := by
  unfold queueRead
  exact .ite (handleMsg_keepsStores ..) (.refl _)

theorem xferTimeout_keepsStores (rq : Requester) (s : State) : Keeps s (xferTimeout rq s) := by
  unfold xferTimeout
  exact .ite (State.setXfer_keepsStores ..) (.refl _)

theorem indirectTransferDone_keepsStores (s : State) : Keeps s (indirectTransferDone s) := by
  have hexchange (s : State) (off : Nat) (v : Bytes) :
      Keeps s { s with dict := { s.dict with exchange := memWrite s.dict.exchange off v } } :=
    ⟨fun ⟨ho, he, hl⟩ => ⟨ho, memWf_write off v he, hl⟩, rfl, .refl _⟩
  unfold indirectTransferDone
  split
  · exact .refl s
  next m off len _ =>
    have hnone : Keeps s { s with dict := { s.dict with indirect := none } } := .beside rfl rfl
    refine .after ?_ hnone
    refine .ite (.ite (State.fail_keepsStores ..) (.ite (State.fail_keepsStores ..) ?_))
      (.ite (State.writeValue_keepsStores ..) (State.fail_keepsStores ..))
    exact .after (State.respond_keepsStores ..) <| .after (State.answer_keepsStores ..) <| .after (hexchange ..) <|
      .after (State.dequeue_keepsStores ..) (State.readObject_keepsStores ..)

theorem State.outEnd_keepsStores (s : State) (k : OutKey) (tid : Nat) : Keeps s (s.outEnd k tid) := .beside rfl rfl

theorem State.answered_keepsStores (s : State) (k : OutKey) (tid : W16) (ok : Bool) : Keeps s (s.answered k tid ok) := by
  unfold State.answered
  split
  · exact .ite (.refl _) (.after (State.nodeAnswered_keepsStores ..) (State.outEnd_keepsStores ..))
  · exact .refl _

theorem pendingCmd_keepsStores (k : OutKey) (tid : W16) (s : State) : Keeps s (pendingCmd k tid s) := .beside rfl rfl

theorem dictFinalResponse_keepsStores (k : OutKey) (m : DictMsg) (s : State) : Keeps s (dictFinalResponse k m s) := by
  unfold dictFinalResponse
  exact State.answered_keepsStores ..

theorem abortCmd_keepsStores (k : OutKey) (tid : W16) (_code : W32) (s : State) : Keeps s (abortCmd k tid _code s) := by
  unfold abortCmd
  exact State.answered_keepsStores ..

theorem dictResponseTimeout_keepsStores (k : OutKey) (s : State) : Keeps s (dictResponseTimeout k s) := by
  unfold dictResponseTimeout
  split
  · exact .refl _
  · refine .ite (.beside rfl rfl) ?_
    dsimp only
    split
    · exact .after (.ite (.refl _) (State.violation_keepsStores ..)) (State.outEnd_keepsStores ..)
    · exact State.outEnd_keepsStores ..

theorem serviceDatagram_keepsStores (ip : W32) (port dstPort : W16) (m : DictMsg) (s : State) :
    Keeps s (serviceDatagram ip port dstPort m s) := by
  unfold serviceDatagram
  exact .ite (handleMsg_keepsStores ..) (.refl _)

theorem arpRequest_keepsStores (targetIp senderIp : W32) (s : State) : Keeps s (arpRequest targetIp senderIp s) := by
  unfold arpRequest
  exact .ite (.beside rfl rfl) (.refl _)

theorem icmpEcho_keepsStores (srcIp dstIp : W32) (payload : Bytes) (s : State) : Keeps s (icmpEcho srcIp dstIp payload s) := by
  unfold icmpEcho
  exact .ite (.beside rfl rfl) (.refl _)

theorem sessionTimeout_keepsStores (ip : W32) (port : W16) (s : State) : Keeps s (sessionTimeout ip port s) := .beside rfl rfl

/-! ### Commit -/

theorem State.writeResults_keepsStores (s t : State) (old : Conf) (keptM keptP : Bool) : Keeps s (s.writeResults t old keptM keptP) := by
  unfold State.writeResults
  dsimp only
  split
  · exact .after (State.setN_keepsStores ..) <| .after (State.fresh_keepsStores ..) <| .after (.beside rfl rfl) <|
      .after (State.setObj_keepsStores ..) <| .after (State.setN_keepsStores ..) <| .after (State.setN_keepsStores ..) <|
      .after (State.setN_keepsStores ..) (State.setN_keepsStores ..)
  · exact .after (State.setN_keepsStores ..) <| .after (.beside rfl rfl) <| .after (State.setObj_keepsStores ..) <|
      .after (State.setN_keepsStores ..) <| .after (State.setN_keepsStores ..) <|
      .after (State.setN_keepsStores ..) (State.setN_keepsStores ..)

/-! ### Device -/

theorem State.onDev_keepsStores (s : State) (f : StDev → StDev) : Keeps s (s.onDev f) := .beside rfl rfl

theorem State.lineOff_keepsStores (s : State) (disarm : Bool) : Keeps s (s.lineOff disarm) := by
  unfold State.lineOff
  exact .after (keeps_foldl (fun s c => State.cmpOff_keepsStores ..) ..) (keeps_foldl (fun s e => State.emuStop_keepsStores ..) ..)

theorem State.ringsPass_keepsStores (s : State) : Keeps s s.ringsPass := by
  unfold State.ringsPass
  exact .after (State.onRing_keepsStores ..) (State.onRing_keepsStores ..)

theorem State.outputsInert_keepsStores (s : State) : Keeps s s.outputsInert := by
  unfold State.outputsInert
  exact .after (State.fbIdle_keepsStores ..) <| .after (State.lineOff_keepsStores ..) <| .after (State.axInert_keepsStores ..) <|
    .after (State.ringsPass_keepsStores ..) (State.onPair_keepsStores ..)

theorem State.emuOn_keepsStores (s : State) : Keeps s s.emuOn := by
  unfold State.emuOn
  exact keeps_foldl (fun s e => .ite (.refl _) (State.emuStart_keepsStores ..)) ..

theorem State.entered_keepsStores (s : State) (old : DevState) : Keeps s (s.entered old) := by
  unfold State.entered
  refine .after (State.drive_keepsStores ..) ?_
  split
  · exact .after (State.clearCrossings_keepsStores ..) <| .after (State.outputsInert_keepsStores ..) <|
      .after (.ite (.after (State.tapLeave_keepsStores ..) (State.sysCalOff_keepsStores ..)) (.refl _)) <|
      .after (.ite (State.leaveDegraded_keepsStores ..) (.refl _)) (.ite (State.btAbort_keepsStores ..) (.refl _))
  · exact .after (State.clearCrossings_keepsStores ..) <| .after (State.outputsInert_keepsStores ..) <|
      .after (.ite (.after (State.tapLeave_keepsStores ..) (State.sysCalOff_keepsStores ..)) (.refl _)) <|
      .after (.ite (State.leaveDegraded_keepsStores ..) (.refl _)) (.ite (State.btAbort_keepsStores ..) (.refl _))
  · exact .after (State.outputsInert_keepsStores ..) <|
      .after (.ite (.after (State.tapLeave_keepsStores ..) (State.sysCalOff_keepsStores ..)) (.refl _)) <|
      .after (.ite (State.leaveDegraded_keepsStores ..) (.refl _)) (.ite (State.btAbort_keepsStores ..) (.refl _))
  · exact .after (State.clearCrossings_keepsStores ..) <| .after (State.lineOff_keepsStores ..) <|
      .after (State.axInert_keepsStores ..) <|
      .after (.ite (.after (State.tapLeave_keepsStores ..) (State.sysCalOff_keepsStores ..)) (.refl _)) <|
      .after (.ite (State.leaveDegraded_keepsStores ..) (.refl _)) (.ite (State.btAbort_keepsStores ..) (.refl _))
  · exact .after (State.enteredSync_keepsStores ..) <| .after (State.setObj_keepsStores ..) <| .after (State.lineOff_keepsStores ..) <|
      .after (State.axInert_keepsStores ..) <|
      .after (.ite (.after (State.tapLeave_keepsStores ..) (State.sysCalOff_keepsStores ..)) (.refl _)) <|
      .after (.ite (State.leaveDegraded_keepsStores ..) (.refl _)) (.ite (State.btAbort_keepsStores ..) (.refl _))
  · exact .after (.ite (State.axReadyStop_keepsStores ..) (.after (State.emuOn_keepsStores ..) (State.axReady_keepsStores ..))) <|
      .after (.ite (.after (State.tapLeave_keepsStores ..) (State.sysCalOff_keepsStores ..)) (.refl _)) <|
      .after (.ite (State.leaveDegraded_keepsStores ..) (.refl _)) (.ite (State.btAbort_keepsStores ..) (.refl _))
  · exact .after (keeps_foldl (fun s n => State.axDegrade_keepsStores ..) ..) <|
      .after (.ite (.after (State.tapLeave_keepsStores ..) (State.sysCalOff_keepsStores ..)) (.refl _)) <|
      .after (.ite (State.leaveDegraded_keepsStores ..) (.refl _)) (.ite (State.btAbort_keepsStores ..) (.refl _))
  · exact .after (.ite (.after (State.tapLeave_keepsStores ..) (State.sysCalOff_keepsStores ..)) (.refl _)) <|
      .after (.ite (State.leaveDegraded_keepsStores ..) (.refl _)) (.ite (State.btAbort_keepsStores ..) (.refl _))
  · exact .after (.ite (.after (State.tapLeave_keepsStores ..) (State.sysCalOff_keepsStores ..)) (.refl _)) <|
      .after (.ite (State.leaveDegraded_keepsStores ..) (.refl _)) (.ite (State.btAbort_keepsStores ..) (.refl _))

theorem State.goto_keepsStores (s : State) (d : DevState) : Keeps s (s.goto d) := by
  unfold State.goto
  exact .ite (.refl _) (.after (State.entered_keepsStores ..) (State.enter_keepsStores ..))

theorem State.dropStaged_keepsStores (s : State) : Keeps s s.dropStaged := .beside rfl rfl

theorem State.stopMotion_keepsStores (s : State) : Keeps s s.stopMotion := by
  unfold State.stopMotion
  exact .after (State.axStopAll_keepsStores ..) <| .after (State.motionStop_keepsStores ..) (State.beginSs1_keepsStores ..)

theorem State.toFault_keepsStores (s : State) (cause : Nat) (sto : Bool) : Keeps s (s.toFault cause sto) := by
  unfold State.toFault
  exact .after (State.goto_keepsStores ..) <| .after (State.dropStaged_keepsStores ..) <|
    .after (.ite (.after (State.axHalt_keepsStores ..) <|
    .after (State.motionStop_keepsStores ..) (State.onArms_keepsStores ..)) (.after (State.axHalt_keepsStores ..)
    (State.stopMotion_keepsStores ..))) (State.setN_keepsStores ..)

theorem State.toReady_keepsStores (s : State) : Keeps s s.toReady := by
  unfold State.toReady
  exact .after (State.goto_keepsStores ..) <| .after (State.onDev_keepsStores ..) (State.stopMotion_keepsStores ..)

theorem State.toHold_keepsStores (s : State) : Keeps s s.toHold := by
  unfold State.toHold
  exact .after (State.goto_keepsStores ..) (State.onArms_keepsStores ..)

theorem State.candidate_keepsStores (s : State) : Keeps s s.candidate := by
  have hput (l : List (Nat × Bytes)) (st : Store) (h : storeWf st = true) : storeWf (l.foldl (fun o p => storePut o p.1 p.2) st) = true := by
    induction l generalizing st with
    | nil => exact h
    | cons p l ih => exact ih _ (storeWf_put p.1 p.2 h)
  have hobjs : Keeps s { s with objs := (s.staged.getD []).foldl (fun o p => storePut o p.1 p.2) s.objs, staged := none } :=
    ⟨fun ⟨ho, he, hl⟩ => ⟨hput _ _ ho, he, hl⟩, rfl, .refl _⟩
  unfold State.candidate
  exact .after (State.setN_keepsStores ..) <| .after (State.loadSet_keepsStores ..) <| .after (State.onSafe_keepsStores ..) hobjs

theorem State.keptRing_keepsStores (s old : State) (r : RingId) : Keeps s (s.keptRing old r) := by
  unfold State.keptRing
  exact .after (.ite (.refl _) (State.computeFallbacks_keepsStores ..)) (State.setRing_keepsStores ..)

theorem State.commitRing_keepsStores (s old : State) (kept : Bool) (r : RingId) : Keeps s (s.commitRing old kept r) := by
  unfold State.commitRing
  exact .ite (State.keptRing_keepsStores ..) (.after (State.setN_keepsStores ..) <| .after (State.setN_keepsStores ..) <|
    .after (State.ringBit_keepsStores ..) (State.setRing_keepsStores ..))

theorem State.commitObjects_keepsStores (s old : State) : Keeps s (s.commitObjects old) := by
  unfold State.commitObjects
  exact .after (State.onJn_keepsStores ..) <| .after (.ite (.refl _) (State.endSessions_keepsStores ..)) <|
    .after (.ite (gateEff_keepsStores ..) (.refl _)) <| .after (State.setIterActive_keepsStores ..) <|
    .after (State.fbCommit_keepsStores ..) <| .after (State.refFix_keepsStores ..) <|
    .after (State.commitDomain_keepsStores ..) (State.commitDomain_keepsStores ..)

theorem State.commit_keepsStores (s old : State) (keptM keptP : Bool) (peer : Option PeerInfo) :
    Keeps s (s.commit old keptM keptP peer) := by
  unfold State.commit
  exact .after (State.goto_keepsStores ..) <| .after (State.dropStaged_keepsStores ..) <| .after (State.onDev_keepsStores ..) <|
    .after (.beside rfl rfl) <| .after (.ite (State.rejoinVersions_keepsStores ..) (.refl _)) <| .after (State.onPair_keepsStores ..) <|
    .after (State.commitRing_keepsStores ..) <| .after (State.commitRing_keepsStores ..) <|
    .after (.ite (State.align_keepsStores ..) (.refl _)) <| .after (State.commitObjects_keepsStores ..) (State.setN_keepsStores ..)

theorem State.evalCommit_keepsStores (s : State) (peer : Option PeerInfo) : Keeps s (s.evalCommit peer).2 := by
  unfold State.evalCommit
  split
  · exact .refl _
  · dsimp only
    split
    · exact .after (State.setN_keepsStores ..) (State.writeResults_keepsStores ..)
    · exact .after (State.commit_keepsStores ..) <| .after (State.writeResults_keepsStores ..) (State.candidate_keepsStores ..)

theorem State.startRun_keepsStores (s : State) : Keeps s s.startRun := by
  unfold State.startRun
  exact .after (State.drive_keepsStores ..) <| .after (State.pairRun_keepsStores ..) <| .after (State.advance_keepsStores ..) <|
    .after (.beside rfl rfl) <| .after (State.axRun_keepsStores ..) <| .after (State.jloopRun_keepsStores ..) <|
    .after (State.motionRun_keepsStores ..) <| .after (State.releaseBrakes_keepsStores ..) <|
    .after (State.goto_keepsStores ..) (State.onDev_keepsStores ..)

theorem State.evalRun_keepsStores (s : State) : Keeps s (s.evalRun).2 := by
  unfold State.evalRun
  split
  · exact .refl _
  · dsimp only
    split
    · exact State.resetByRun_keepsStores ..
    · exact .after (State.startRun_keepsStores ..) (State.resetByRun_keepsStores ..)

theorem State.evalResume_keepsStores (s : State) : Keeps s s.evalResume.2 := by
  unfold State.evalResume
  split
  · exact .refl s
  · dsimp only
    exact .after (State.goto_keepsStores ..) <| .after (State.onArms_keepsStores ..) (State.motionResume_keepsStores s)

theorem State.evalStop_keepsStores (s : State) : Keeps s s.evalStop := by
  unfold State.evalStop
  exact .ite (State.toFault_keepsStores ..) (State.toReady_keepsStores ..)

theorem State.evalReset_keepsStores (s : State) (failed : Nat) : Keeps s (s.evalReset failed).2 := by
  unfold State.evalReset
  split
  · exact .refl _
  · split
    · exact .refl _
    · exact .after (State.goto_keepsStores ..) <| .after (State.onDev_keepsStores ..) <| .after (State.resetClaim_keepsStores ..) <|
        .after (State.setBit_keepsStores ..) <| .after (State.setBit_keepsStores ..) <| .after (State.setN_keepsStores ..) <|
        .after (.beside rfl rfl) <| .after (.ite (State.reenable_keepsStores ..) (.refl _)) (State.setUnits_keepsStores ..)

theorem State.evalDetach_keepsStores (s : State) : Keeps s s.evalDetach.2 := by
  unfold State.evalDetach
  split
  · exact .refl s
  · dsimp only; exact State.onPair_keepsStores ..

theorem State.evalSwap_keepsStores (s : State) (peer : Option PeerInfo) : Keeps s (s.evalSwap peer).2 := by
  unfold State.evalSwap
  dsimp only
  split
  · dsimp only; exact State.onPair_keepsStores ..
  · dsimp only; exact .after (State.forward_keepsStores ..) <| .after (State.onPair_keepsStores ..) (State.onPair_keepsStores ..)

theorem State.evalOpen_keepsStores (s : State) : Keeps s (s.evalOpen).2 := by
  unfold State.evalOpen
  split
  · exact .refl _
  · exact .after (State.goto_keepsStores ..) <| .after (State.onDev_keepsStores ..) (.beside rfl rfl)

theorem State.evalCmd_keepsStores (s : State) (code : Nat) (x : CmdIn) : Keeps s (s.evalCmd code x).2 := by
  unfold State.evalCmd
  split
  · exact .refl _
  · split
    · exact State.evalOpen_keepsStores ..
    · exact State.evalCommit_keepsStores ..
    · exact .after (State.goto_keepsStores ..) <| .after (State.onDev_keepsStores ..) (State.dropStaged_keepsStores ..)
    · exact State.evalRun_keepsStores ..
    · exact State.toHold_keepsStores ..
    · exact State.evalResume_keepsStores ..
    · exact State.evalStop_keepsStores ..
    · split
      · exact State.evalReset_keepsStores ..
      · exact .after (State.evalReset_keepsStores ..) (State.fresh_keepsStores ..)
    · split
      exacts [.refl _, State.goto_keepsStores ..]
    · exact .after (State.goto_keepsStores ..) (State.onDev_keepsStores ..)
    · exact State.evalSwap_keepsStores ..
    · exact State.evalDetach_keepsStores ..
    · exact .refl _

theorem State.runCmd_keepsStores (s : State) (rq : Requester) (code : Nat) (x : CmdIn) : Keeps s (s.runCmd rq code x) := by
  unfold State.runCmd
  exact .after (.ite (State.finish_keepsStores ..) (State.answer_keepsStores ..)) <|
    .after (.ite (State.refusedRecord_keepsStores ..) (.refl _)) <| .after (State.setObj_keepsStores ..) (State.evalCmd_keepsStores ..)

theorem syncComplete_keepsStores (s : State) : Keeps s (syncComplete s) := by
  unfold syncComplete
  exact .ite (.refl _) (.after (.ite (State.diverge_keepsStores ..) (.refl _)) (State.goto_keepsStores ..))

theorem State.logAnyType_keepsStores (s : State) : Keeps s s.logAnyType := by
  unfold State.logAnyType
  exact .after (State.logOpen_keepsStores ..) (State.fresh_keepsStores ..)

theorem syncTimeout_keepsStores (s : State) : Keeps s (syncTimeout s) := by
  unfold syncTimeout
  exact .ite (.refl _) (.after (State.goto_keepsStores ..) <| .after (State.logAnyType_keepsStores ..) <|
    .after (State.onDev_keepsStores ..) (.beside rfl rfl))

theorem bootFlashOperationDone_keepsStores (ok : Bool) (s : State) : Keeps s (bootFlashOperationDone ok s) := by
  unfold bootFlashOperationDone
  split
  · exact .refl _
  · exact .after (State.finish_keepsStores ..) (State.onSec_keepsStores (h := fun _ => rfl) ..)
  · exact .ite (State.onSec_keepsStores (h := fun _ => rfl) ..) (State.imageDone_keepsStores ..)
  · exact .refl _
  · exact State.setStored_keepsStores ..

theorem State.toInert_keepsStores (s : State) : Keeps s s.toInert := by
  unfold State.toInert
  exact .after (.beside rfl rfl) (State.goto_keepsStores ..)

theorem detachEffect_keepsStores (s : State) : Keeps s (detachEffect s) := by
  unfold detachEffect
  split
  · exact .ite (.refl _) (.after (State.roleChange_keepsStores ..) <| .after (State.toInert_keepsStores ..) <|
      .after (.beside rfl rfl) <| .after (State.setClaim_keepsStores ..) (State.onPair_keepsStores ..))
  · split
    · exact .ite (.refl _) (.after (State.roleChange_keepsStores ..) <| .after (State.redBit_keepsStores ..) <|
        .after (State.singleHead_keepsStores ..) (State.onPair_keepsStores ..))
    · exact .refl _

/-! ### Rx Data -/

theorem State.hcTake_keepsStores (s : State) (c cycle v : Nat) : Keeps s (s.hcTake c cycle v) := by
  unfold State.hcTake
  exact .ite (State.onHc_keepsStores ..) (State.setBit_keepsStores ..)

theorem State.rxStore_keepsStores (s : State) (e : MapE) (cycle seq : Nat) (v : Bytes) : Keeps s (s.rxStore e cycle seq v) := by
  unfold State.rxStore
  refine .ite (.refl _) (.after (.ite (State.hcTake_keepsStores ..) ?_) (State.setObj_keepsStores ..))
  split
  exacts [State.onSq_keepsStores .., .refl _]

theorem State.rxToken_keepsStores (s : State) (no : Nat) (e : MapE) (tag ends : Nat) (t : Tok) :
    Keeps s (s.rxToken no e tag ends t) := by
  unfold State.rxToken
  exact .after (keeps_foldl (fun s x => State.toObject_keepsStores ..) ..) <|
    .after (State.arriveAll_keepsStores ..) (keeps_foldl (fun s x => State.dropToken_keepsStores ..) ..)

theorem State.rxRange_keepsStores (s : State) (f : Frame) (stamp ends : Nat) (p : Nat × MapE) : Keeps s (s.rxRange f stamp ends p) := by
  unfold State.rxRange
  exact .after (.ite (State.rxToken_keepsStores ..) (.refl _)) (State.rxStore_keepsStores ..)

theorem State.takeFrame_keepsStores (s : State) (f : Frame) (stamp : Time96) : Keeps s (s.takeFrame f stamp) := by
  unfold State.takeFrame
  exact .ite (.refl _) (.ite (.refl _) (.after (State.takeCoveredSlot_keepsStores ..) <|
    .after (keeps_foldl (fun s p => State.rxRange_keepsStores ..) ..) (State.onRing_keepsStores ..)))

theorem dataFrame_keepsStores (f : Frame) (stamp : Time96) (s : State) : Keeps s (dataFrame f stamp s) := by
  unfold dataFrame
  exact State.takeFrame_keepsStores ..

theorem repeatFrame_keepsStores (f : Frame) (stamp : Time96) (s : State) : Keeps s (repeatFrame f stamp s) := by
  unfold repeatFrame
  exact State.takeFrame_keepsStores ..

theorem nullFrame_keepsStores (_f : Frame) (s : State) : Keeps s (nullFrame _f s) := .refl _

theorem State.syncStamp_keepsStores (s : State) (r : RingId) (sd : Side) : Keeps s (s.syncStamp r sd) :=
  (State.ownStamp_keepsStores s (sidePort r sd) (s.cycle10 - s.early10 r sd)).trans (State.pushStamp_keepsStores ..)

theorem State.sentOut_keepsStores (s : State) (r : RingId) (slot type off flags : Nat) (payload : Bytes)
    (legs : List (Channel × Side)) : Keeps s (s.sentOut r slot type off flags payload legs) := by
  unfold State.sentOut
  exact .after (State.sendSlot_keepsStores ..) (State.setRing_keepsStores ..)

theorem State.sentIn_keepsStores (s : State) (r : RingId) (e : SlotE) (payload : Bytes) : Keeps s (s.sentIn r e payload) := by
  unfold State.sentIn
  exact State.sentOut_keepsStores ..

theorem State.syncOccurrence_keepsStores (s : State) (r : RingId) : Keeps s (s.syncOccurrence r) := by
  unfold State.syncOccurrence
  exact .ite (.refl _) (.after (keeps_foldl (fun s sd => State.syncStamp_keepsStores ..) ..) (State.sentOut_keepsStores ..))

theorem State.hbOccurrence_keepsStores (s : State) (r : RingId) (e : SlotE) : Keeps s (s.hbOccurrence r e) := by
  unfold State.hbOccurrence
  exact .ite (.refl _) (.after (State.onPair_keepsStores ..) (State.sentIn_keepsStores ..))

theorem State.ownOccurrence_keepsStores (s : State) (r : RingId) (e : SlotE) : Keeps s (s.ownOccurrence r e) := by
  unfold State.ownOccurrence
  refine .ite (.refl _) ?_
  split
  · exact State.dataOccurrence_keepsStores ..
  · exact State.sentIn_keepsStores ..
  · exact State.hbOccurrence_keepsStores ..
  · exact .refl _

theorem State.substituteNull_keepsStores (s : State) (r : RingId) (e : SlotE) : Keeps s (s.substituteNull r e) := by
  unfold State.substituteNull
  split
  exacts [.ite (State.sentOut_keepsStores ..) (.refl _), .refl _]

theorem slotOccurrence_keepsStores (r : RingId) (slot : BitVec 12) (seen : SlotSeen) (s : State) :
    Keeps s (slotOccurrence r slot seen s) := by
  unfold slotOccurrence
  refine .ite (.refl _) (.ite (State.syncOccurrence_keepsStores ..) ?_)
  split
  · exact .refl _
  · exact .ite (.refl _) (.ite (.after (State.nodeOccurrence_keepsStores ..) (State.substituteNull_keepsStores ..))
      (State.ownOccurrence_keepsStores ..))

/-! ### Window -/

theorem State.onHost_keepsStores (s : State) (p : HostPath) (f : HostSt → HostSt) : Keeps s (s.onHost p f) := by
  unfold State.onHost
  split <;> exact (.beside rfl rfl)

theorem State.entryValue_keepsStores (s : State) (rq : Requester) (off : Nat) : Keeps s (s.entryValue rq off).2 := by
  fun_cases State.entryValue s rq off
  exacts [State.wordValue_keepsStores .., .refl s]

theorem State.liveValue_keepsStores (s : State) (rq : Requester) (base : Nat) : Keeps s (s.liveValue rq base).2 := by
  unfold State.liveValue
  split
  exacts [.refl _, State.entryValue_keepsStores ..]

theorem State.tore_keepsStores (s : State) (rq : Requester) : Keeps s (s.tore rq) := by
  unfold State.tore
  split
  exacts [State.onHost_keepsStores .., State.onHost_keepsStores .., State.setRq_keepsStores ..]

theorem State.wideRead_keepsStores (s : State) (rq : Requester) (base k : Nat) : Keeps s (s.wideRead rq base k).2 := by
  unfold State.wideRead
  split
  · exact .after (State.setRq_keepsStores ..) (State.liveValue_keepsStores ..)
  · split
    · split
      exacts [.refl _, .after (State.tore_keepsStores ..) (State.liveValue_keepsStores ..)]
    · exact .after (State.tore_keepsStores ..) (State.liveValue_keepsStores ..)

theorem State.dropShadow_keepsStores (s : State) (rq : Requester) (off : Nat) : Keeps s (s.dropShadow rq off) := by
  unfold State.dropShadow
  split
  exacts [.ite (State.setRq_keepsStores ..) (.refl _), .refl _]

theorem State.wordRead_keepsStores (s : State) (rq : Requester) (off : Nat) : Keeps s (s.wordRead rq off).2 := by
  fun_cases State.wordRead s rq off
  case case2 => exact State.wideRead_keepsStores ..
  case case3 h => exact congrArg Prod.snd h ▸ State.entryValue_keepsStores ..
  all_goals exact .refl s

theorem State.gave_keepsStores (s : State) (rq : Requester) (ws : List Nat) : Keeps s (s.gave rq ws) := by
  unfold State.gave
  split
  exacts [State.onHost_keepsStores .., State.setRq_keepsStores ..]

theorem State.readOne_keepsStores (s : State) (rq : Requester) (off : Nat) : Keeps s (s.readOne rq off) := by
  unfold State.readOne
  exact .ite (.after (State.gave_keepsStores ..) (State.wordRead_keepsStores ..)) (.refl _)

theorem baseWordRead_keepsStores (rq : Requester) (offset : W16) (s : State) : Keeps s (baseWordRead rq offset s) := by
  unfold baseWordRead
  exact State.readOne_keepsStores ..

theorem higherWordRead_keepsStores (rq : Requester) (offset : W16) (s : State) : Keeps s (higherWordRead rq offset s) := by
  unfold higherWordRead
  exact State.readOne_keepsStores ..

theorem qwordRead_keepsStores (offset : W16) (s : State) : Keeps s (qwordRead offset s) := by
  unfold qwordRead
  exact .ite (.refl _) (.ite (State.gave_keepsStores ..) (.after (State.gave_keepsStores ..) <|
    .after (State.wordRead_keepsStores ..) (State.wordRead_keepsStores ..)))

theorem State.ringBell_keepsStores (s : State) (p : HostPath) (v : Nat) : Keeps s (s.ringBell p v) := by
  unfold State.ringBell
  exact .ite (.refl _) (.ite (State.onHost_keepsStores ..) (.after (handleMsg_keepsStores ..) (State.onHost_keepsStores ..)))

theorem State.directRefused_keepsStores (s : State) (p : HostPath) (code : Nat) : Keeps s (s.directRefused p code) := by
  unfold State.directRefused
  exact State.onHost_keepsStores ..

theorem State.directObject_keepsStores (s : State) (p : HostPath) (r : ObjRow) (v : Bytes) : Keeps s (s.directObject p r v) := by
  unfold State.directObject
  exact .after (.ite (.refl _) (.ite (.refl _) (State.directRefused_keepsStores ..))) (performObject_keepsStores ..)

theorem State.entryWrite_keepsStores (s : State) (p : HostPath) (e k v : Nat) : Keeps s (s.entryWrite p e k v) := by
  unfold State.entryWrite
  split
  · exact .refl _
  · refine .ite (.refl _) (.ite (State.directObject_keepsStores ..) (.ite (State.onHost_keepsStores ..) ?_))
    split
    · exact .after (State.directObject_keepsStores ..) (State.onHost_keepsStores ..)
    · exact State.directRefused_keepsStores ..

theorem State.regWrite_keepsStores (s : State) (p : HostPath) (off v : Nat) : Keeps s (s.regWrite p off v) := by
  unfold State.regWrite
  split
  · exact State.onHost_keepsStores ..
  · exact State.onHost_keepsStores ..
  · exact State.onHost_keepsStores ..
  · exact State.ringBell_keepsStores ..
  · exact .ite (State.onHost_keepsStores ..) (.refl _)
  · refine .ite ?_ (.ite (State.onHost_keepsStores ..) (.refl _))
    split
    exacts [State.onHost_keepsStores .., .refl _]

theorem State.windowWrite_keepsStores (s : State) (p : HostPath) (off v : Nat) : Keeps s (s.windowWrite p off v) := by
  unfold State.windowWrite
  exact .ite (State.onHost_keepsStores ..) (.after (.ite (State.entryWrite_keepsStores ..) (State.regWrite_keepsStores ..))
    (State.dropShadow_keepsStores ..))

theorem doorbell_keepsStores (path : HostPath) (v : W32) (s : State) : Keeps s (doorbell path v s) := by
  unfold doorbell
  exact .ite (State.windowWrite_keepsStores ..) (.refl _)

theorem directWrite_keepsStores (path : HostPath) (offset : W16) (v : W32) (s : State) : Keeps s (directWrite path offset v s) := by
  unfold directWrite
  exact .ite (State.windowWrite_keepsStores ..) (.refl _)

theorem State.readWords_keepsStores (off n : Nat) (s : State) : Keeps s (State.readWords off n s).2 := by
  induction n generalizing off s with
  | zero => exact .refl s
  | succ n ih => exact .after (ih ..) (State.wordRead_keepsStores ..)

theorem spiRead_keepsStores (offset : W16) (words : Nat) (s : State) : Keeps s (spiRead offset words s) := by
  unfold spiRead
  exact .ite (.refl _) (.ite (State.onHost_keepsStores ..) (.after (State.gave_keepsStores ..) (State.readWords_keepsStores ..)))

theorem State.writeWords_keepsStores (off : Nat) (l : List Bytes) (s : State) : Keeps s (State.writeWords off l s) := by
  induction l generalizing off s with
  | nil => exact .refl s
  | cons w l ih => exact .after (ih ..) (.ite (State.windowWrite_keepsStores ..) (.refl _))

theorem spiWrite_keepsStores (offset : W16) (bytes : Bytes) (s : State) : Keeps s (spiWrite offset bytes s) := by
  unfold spiWrite
  exact .ite (.refl _) (.ite (State.onHost_keepsStores ..) (State.writeWords_keepsStores ..))

theorem spiStatus_keepsStores (count : Nat) (s : State) : Keeps s (spiStatus count s) := by
  unfold spiStatus
  exact .ite (State.gave_keepsStores ..) (.refl _)

/-! ### Cycle -/

theorem State.deviceFaultEvents_keepsStores (s : State) : Keeps s s.deviceFaultEvents := by
  unfold State.deviceFaultEvents
  dsimp only
  split
  · exact State.onDev_keepsStores ..
  · exact .after (.ite (.refl _) (.after (State.toFault_keepsStores ..) (.ite (State.onDev_keepsStores ..)
      (State.faultRecord_keepsStores ..)))) (State.onDev_keepsStores ..)

theorem State.chanFaultEvent_keepsStores (s : State) : Keeps s s.chanFaultEvent := by
  unfold State.chanFaultEvent
  exact .ite (.ite (State.toFault_keepsStores ..) (.after (State.entered_keepsStores ..) (State.enterDegraded_keepsStores ..)))
    (.ite (State.toFault_keepsStores ..) (.refl _))

theorem State.chanFaultEvents_keepsStores (s : State) : Keeps s s.chanFaultEvents := by
  unfold State.chanFaultEvents
  exact .after (keeps_foldl (fun s x => State.chanFaultEvent_keepsStores ..) ..) (State.onDev_keepsStores ..)

theorem State.stopEvent_keepsStores (s : State) : Keeps s s.stopEvent := by
  unfold State.stopEvent
  split
  · exact State.toReady_keepsStores ..
  · exact State.toReady_keepsStores ..
  · exact State.toFault_keepsStores ..
  · exact State.btAbort_keepsStores ..
  · exact .refl _

theorem State.ss2Event_keepsStores (s : State) : Keeps s s.ss2Event := by
  unfold State.ss2Event
  split
  exacts [State.toHold_keepsStores .., State.toFault_keepsStores .., .refl _]

theorem State.stopEvents_keepsStores (s : State) : Keeps s s.stopEvents := by
  unfold State.stopEvents
  exact .after (.ite (State.toFault_keepsStores ..) (.refl _)) <| .after (.ite (State.ss2Event_keepsStores ..) (.refl _)) <|
    .after (.ite (State.stopEvent_keepsStores ..) (.refl _)) <|
    .after (.ite (State.toFault_keepsStores ..) (.refl _)) (State.onDev_keepsStores ..)

theorem State.localEvents_keepsStores (s : State) : Keeps s s.localEvents := by
  unfold State.localEvents
  exact .after (.ite (.refl _) (State.forwardEvent_keepsStores ..)) <| .after (State.stopEvents_keepsStores ..) <|
    .after (State.chanFaultEvents_keepsStores ..) (State.deviceFaultEvents_keepsStores ..)

theorem State.commandEvents_keepsStores (s : State) (all : Bool) : Keeps s (s.commandEvents all) := by
  unfold State.commandEvents
  exact .after (keeps_foldl (fun s c => State.runCmd_keepsStores ..) ..) (State.onDev_keepsStores ..)

theorem State.events_keepsStores (s : State) (all : Bool) : Keeps s (s.events all) := by
  unfold State.events
  exact .after (State.commandEvents_keepsStores ..) <| .after (State.torqueCheck_keepsStores ..) <|
    .after (State.localEvents_keepsStores ..) (State.torqueCheck_keepsStores ..)

theorem deviceCmd_keepsStores (code : Nat) (rq : Requester) (x : CmdIn) (s : State) : Keeps s (deviceCmd code rq x s) := by
  unfold deviceCmd
  exact .ite (.refl _) (.ite (State.refuse_keepsStores ..) (.after (State.runCmd_keepsStores ..) <|
    .after (.ite (.refl _) (State.forward_keepsStores ..)) (State.events_keepsStores ..)))

theorem cfgOpen_keepsStores (rq : Requester) (s : State) : Keeps s (cfgOpen rq s) := by
  unfold cfgOpen
  exact deviceCmd_keepsStores ..

theorem cfgCommit_keepsStores (rq : Requester) (peer : Option PeerInfo) (s : State) : Keeps s (cfgCommit rq peer s) := by
  unfold cfgCommit
  exact deviceCmd_keepsStores ..

theorem cfgAbort_keepsStores (rq : Requester) (s : State) : Keeps s (cfgAbort rq s) := by
  unfold cfgAbort
  exact deviceCmd_keepsStores ..

theorem runEnable_keepsStores (rq : Requester) (s : State) : Keeps s (runEnable rq s) := by
  unfold runEnable
  exact deviceCmd_keepsStores ..

theorem holdReq_keepsStores (rq : Requester) (s : State) : Keeps s (holdReq rq s) := by
  unfold holdReq
  exact deviceCmd_keepsStores ..

theorem resumeCmd_keepsStores (rq : Requester) (s : State) : Keeps s (resumeCmd rq s) := by
  unfold resumeCmd
  exact deviceCmd_keepsStores ..

theorem stopReq_keepsStores (rq : Requester) (s : State) : Keeps s (stopReq rq s) := by
  unfold stopReq
  exact deviceCmd_keepsStores ..

theorem devReset_keepsStores (rq : Requester) (failed : W64) (s : State) : Keeps s (devReset rq failed s) := by
  unfold devReset
  exact deviceCmd_keepsStores ..

theorem svcEnter_keepsStores (rq : Requester) (s : State) : Keeps s (svcEnter rq s) := by
  unfold svcEnter
  exact deviceCmd_keepsStores ..

theorem svcLeave_keepsStores (rq : Requester) (s : State) : Keeps s (svcLeave rq s) := by
  unfold svcLeave
  exact deviceCmd_keepsStores ..

theorem plannedSwap_keepsStores (rq : Requester) (peer : Option PeerInfo) (s : State) : Keeps s (plannedSwap rq peer s) := by
  unfold plannedSwap
  exact deviceCmd_keepsStores ..

theorem detach_keepsStores (rq : Requester) (s : State) : Keeps s (detach rq s) := by
  unfold detach
  exact deviceCmd_keepsStores ..

theorem State.graphStart_keepsStores (s : State) : Keeps s s.graphStart := by
  unfold State.graphStart
  exact State.onJn_keepsStores ..

theorem State.graphStop_keepsStores (s : State) : Keeps s s.graphStop := by
  unfold State.graphStop
  exact .after (State.mapLanes_keepsStores _ _ (fun _ h => h)) (State.onJn_keepsStores ..)

theorem State.bypassInsts_keepsStores (s : State) : Keeps s s.bypassInsts := by
  unfold State.bypassInsts
  exact .ite (.ite (.refl _) (State.onJn_keepsStores ..)) (State.onJn_keepsStores ..)

theorem State.graphCycle_keepsStores (s : State) : Keeps s s.graphCycle := by
  unfold State.graphCycle
  exact .ite (.after (State.bypassInsts_keepsStores ..) (.ite (.refl _) (State.graphStart_keepsStores ..)))
    (.ite (State.graphStop_keepsStores ..) (.refl _))

theorem State.fireFull_keepsStores (s : State) : Keeps s s.fireFull := by
  unfold State.fireFull
  exact keeps_foldl (fun s id => State.fire_keepsStores ..) ..

theorem State.txObjects_keepsStores (s : State) : Keeps s s.txObjects := by
  unfold State.txObjects
  exact keeps_foldl (fun s k => State.txWrite_keepsStores ..) ..

theorem State.linkExchange_keepsStores (s : State) : Keeps s s.linkExchange := by
  unfold State.linkExchange
  exact .after (State.linkSend_keepsStores ..) <| .after (State.onPair_keepsStores ..) (.beside rfl rfl)

theorem State.linkBeat_keepsStores (s : State) : Keeps s s.linkBeat := by
  unfold State.linkBeat
  exact .ite (.refl _) (.after (State.linkExchange_keepsStores ..) <| .after (State.onPair_keepsStores ..) (State.linkSend_keepsStores ..))

theorem State.cycleTicks_keepsStores (s : State) : Keeps s s.cycleTicks := .beside rfl rfl

theorem State.engineCycle_keepsStores (s : State) : Keeps s s.engineCycle := by
  unfold State.engineCycle
  exact .after (State.sendOwed_keepsStores ..) <| .after (State.drainWaiting_keepsStores ..) (State.onMon_keepsStores ..)

theorem State.nodesCycle_keepsStores (s : State) : Keeps s s.nodesCycle := by
  unfold State.nodesCycle
  exact .after (.beside rfl rfl) (.beside rfl rfl)

theorem State.syncCycle_keepsStores (s : State) (r : RingId) : Keeps s (s.syncCycle r) := by
  unfold State.syncCycle
  exact .ite (State.syncOccurrence_keepsStores ..) (.refl _)

theorem State.lineCycle_keepsStores (s : State) : Keeps s s.lineCycle := by
  unfold State.lineCycle
  exact .after (State.checkSwap_keepsStores ..) <| .after (State.syncCycle_keepsStores ..) <| .after (State.syncCycle_keepsStores ..) <|
    .after (State.ringCycle_keepsStores ..) <| .after (State.ringCycle_keepsStores ..) <| .after (State.nodesCycle_keepsStores ..) <|
    .after (State.pairCycle_keepsStores ..) (State.onPair_keepsStores ..)

theorem State.motionPart_keepsStores (s : State) : Keeps s s.motionPart := by
  unfold State.motionPart
  exact .after (State.shedStandstill_keepsStores ..) <| .after (State.squareCycle_keepsStores ..) <|
    .after (State.emuPush_keepsStores ..) <| .after (State.axCycle_keepsStores ..) <| .after (State.motionCycle_keepsStores ..) <|
    .after (State.fbCycle_keepsStores ..) (State.fillPorts_keepsStores ..)

theorem State.cycleWork_keepsStores (s : State) : Keeps s s.cycleWork := by
  unfold State.cycleWork
  exact .after (State.cycleTicks_keepsStores ..) <| .after (State.engineCycle_keepsStores ..) <| .after (State.linkBeat_keepsStores ..) <|
    .after (State.txObjects_keepsStores ..) <| .after (State.fireFull_keepsStores ..) <| .after (State.motionPart_keepsStores ..) <|
    .after (State.graphCycle_keepsStores ..) <| .after (State.spreadInc_keepsStores ..) <|
    .after (State.events_keepsStores ..) (State.lineCycle_keepsStores ..)

theorem cycleStart_keepsStores (s : State) : Keeps s (cycleStart s) := by
  unfold cycleStart
  exact .ite (.refl _) (.after (State.cycleWork_keepsStores ..) (.beside rfl rfl))

theorem substituteCycleStart_keepsStores (s : State) : Keeps s (substituteCycleStart s) := by
  unfold substituteCycleStart
  exact .ite (.refl _) (State.events_keepsStores ..)

/-! ### Every command and every step -/

/-- Every command completes and keeps what O60 speaks of. -/
theorem exec_keepsStores (c : Instr) (s : State) : ∃ t, exec c s = .next t ∧ Keeps s t :=
  match c with
  | .porstNRelease .. => ⟨_, rfl, porstNRelease_keepsStores ..⟩
  | .porstNAssert .. => ⟨_, rfl, porstNAssert_keepsStores ..⟩
  | .vddSafeDetect .. => ⟨_, rfl, vddSafeDetect_keepsStores ..⟩
  | .pllLock .. => ⟨_, rfl, pllLock_keepsStores ..⟩
  | .bootComplete .. => ⟨_, rfl, bootComplete_keepsStores ..⟩
  | .dramEccDone .. => ⟨_, rfl, dramEccDone_keepsStores ..⟩
  | .timeTick .. => ⟨_, rfl, timeTick_keepsStores ..⟩
  | .cycleStart .. => ⟨_, rfl, cycleStart_keepsStores ..⟩
  | .substituteCycleStart .. => ⟨_, rfl, substituteCycleStart_keepsStores ..⟩
  | .timeSet .. => ⟨_, rfl, timeSet_keepsStores ..⟩
  | .timeIncWrite .. => ⟨_, rfl, timeIncWrite_keepsStores ..⟩
  | .phaseSlew .. => ⟨_, rfl, phaseSlew_keepsStores ..⟩
  | .cellRefWrite .. => ⟨_, rfl, cellRefWrite_keepsStores ..⟩
  | .ptpMessage .. => ⟨_, rfl, ptpMessage_keepsStores ..⟩
  | .timeExchange .. => ⟨_, rfl, timeExchange_keepsStores ..⟩
  | .domUpdateTimeout .. => ⟨_, rfl, domUpdateTimeout_keepsStores ..⟩
  | .domHoldoverExpiry .. => ⟨_, rfl, domHoldoverExpiry_keepsStores ..⟩
  | .clockWatchWindow .. => ⟨_, rfl, clockWatchWindow_keepsStores ..⟩
  | .clockEdgeTimeout .. => ⟨_, rfl, clockEdgeTimeout_keepsStores ..⟩
  | .clkRatioWindow .. => ⟨_, rfl, clkRatioWindow_keepsStores ..⟩
  | .pllLockLoss .. => ⟨_, rfl, pllLockLoss_keepsStores ..⟩
  | .cfgOpen .. => ⟨_, rfl, cfgOpen_keepsStores ..⟩
  | .cfgCommit .. => ⟨_, rfl, cfgCommit_keepsStores ..⟩
  | .cfgAbort .. => ⟨_, rfl, cfgAbort_keepsStores ..⟩
  | .runEnable .. => ⟨_, rfl, runEnable_keepsStores ..⟩
  | .holdReq .. => ⟨_, rfl, holdReq_keepsStores ..⟩
  | .resume .. => ⟨_, rfl, resumeCmd_keepsStores ..⟩
  | .stopReq .. => ⟨_, rfl, stopReq_keepsStores ..⟩
  | .devReset .. => ⟨_, rfl, devReset_keepsStores ..⟩
  | .svcEnter .. => ⟨_, rfl, svcEnter_keepsStores ..⟩
  | .svcLeave .. => ⟨_, rfl, svcLeave_keepsStores ..⟩
  | .plannedSwap .. => ⟨_, rfl, plannedSwap_keepsStores ..⟩
  | .detach .. => ⟨_, rfl, detach_keepsStores ..⟩
  | .syncComplete .. => ⟨_, rfl, syncComplete_keepsStores ..⟩
  | .syncTimeout .. => ⟨_, rfl, syncTimeout_keepsStores ..⟩
  | .objectWrite .. => ⟨_, rfl, objectWrite_keepsStores ..⟩
  | .writeApply .. => ⟨_, rfl, writeApply_keepsStores ..⟩
  | .accUnlock .. => ⟨_, rfl, accUnlock_keepsStores ..⟩
  | .accLockoutExpiry .. => ⟨_, rfl, accLockoutExpiry_keepsStores ..⟩
  | .accVToken .. => ⟨_, rfl, accVToken_keepsStores ..⟩
  | .tokenExpiry .. => ⟨_, rfl, tokenExpiry_keepsStores ..⟩
  | .accLock .. => ⟨_, rfl, accLock_keepsStores ..⟩
  | .read .. => ⟨_, rfl, readCmd_keepsStores ..⟩
  | .write .. => ⟨_, rfl, writeCmd_keepsStores ..⟩
  | .segRead .. => ⟨_, rfl, segReadCmd_keepsStores ..⟩
  | .segWrite .. => ⟨_, rfl, segWriteCmd_keepsStores ..⟩
  | .desc .. => ⟨_, rfl, descCmd_keepsStores ..⟩
  | .cancel .. => ⟨_, rfl, cancelCmd_keepsStores ..⟩
  | .evtAck .. => ⟨_, rfl, evtAck_keepsStores ..⟩
  | .pending .. => ⟨_, rfl, pendingCmd_keepsStores ..⟩
  | .dictFinalResponse .. => ⟨_, rfl, dictFinalResponse_keepsStores ..⟩
  | .abort .. => ⟨_, rfl, abortCmd_keepsStores ..⟩
  | .dictResponseTimeout .. => ⟨_, rfl, dictResponseTimeout_keepsStores ..⟩
  | .xferTimeout .. => ⟨_, rfl, xferTimeout_keepsStores ..⟩
  | .serviceDatagram .. => ⟨_, rfl, serviceDatagram_keepsStores ..⟩
  | .arpRequest .. => ⟨_, rfl, arpRequest_keepsStores ..⟩
  | .icmpEcho .. => ⟨_, rfl, icmpEcho_keepsStores ..⟩
  | .sessionTimeout .. => ⟨_, rfl, sessionTimeout_keepsStores ..⟩
  | .doorbell .. => ⟨_, rfl, doorbell_keepsStores ..⟩
  | .directWrite .. => ⟨_, rfl, directWrite_keepsStores ..⟩
  | .baseWordRead .. => ⟨_, rfl, baseWordRead_keepsStores ..⟩
  | .higherWordRead .. => ⟨_, rfl, higherWordRead_keepsStores ..⟩
  | .qwordRead .. => ⟨_, rfl, qwordRead_keepsStores ..⟩
  | .spiRead .. => ⟨_, rfl, spiRead_keepsStores ..⟩
  | .spiWrite .. => ⟨_, rfl, spiWrite_keepsStores ..⟩
  | .spiStatus .. => ⟨_, rfl, spiStatus_keepsStores ..⟩
  | .mailboxRead .. => ⟨_, rfl, mailboxRead_keepsStores ..⟩
  | .queueRead .. => ⟨_, rfl, queueRead_keepsStores ..⟩
  | .frameReceive .. => ⟨_, rfl, frameReceive_keepsStores ..⟩
  | .sync .. => ⟨_, rfl, sync_keepsStores ..⟩
  | .data .. => ⟨_, rfl, dataFrame_keepsStores ..⟩
  | .repeat .. => ⟨_, rfl, repeatFrame_keepsStores ..⟩
  | .null .. => ⟨_, rfl, nullFrame_keepsStores ..⟩
  | .start .. => ⟨_, rfl, startFrame_keepsStores ..⟩
  | .event .. => ⟨_, rfl, event_keepsStores ..⟩
  | .hb .. => ⟨_, rfl, hb_keepsStores ..⟩
  | .delayRequest .. => ⟨_, rfl, delayRequest_keepsStores ..⟩
  | .delayResponse .. => ⟨_, rfl, delayResponse_keepsStores ..⟩
  | .delayRound .. => ⟨_, rfl, delayRound_keepsStores ..⟩
  | .safetyCommand .. => ⟨_, rfl, safetyCommand_keepsStores ..⟩
  | .safetyStatus .. => ⟨_, rfl, safetyStatus_keepsStores ..⟩
  | .forwardedRequest .. => ⟨_, rfl, forwardedRequest_keepsStores ..⟩
  | .forwardAck .. => ⟨_, rfl, forwardAck_keepsStores ..⟩
  | .nodeStatusShare .. => ⟨_, rfl, nodeStatusShare_keepsStores ..⟩
  | .slotOccurrence .. => ⟨_, rfl, slotOccurrence_keepsStores ..⟩
  | .rejoinHoldExpiry .. => ⟨_, rfl, rejoinHoldExpiry_keepsStores ..⟩
  | .arbInsert .. => ⟨_, rfl, arbInsert_keepsStores ..⟩
  | .arbLastDiscard .. => ⟨_, rfl, arbLastDiscard_keepsStores ..⟩
  | .guardCut .. => ⟨_, rfl, guardCut_keepsStores ..⟩
  | .coldstartListenTimeout .. => ⟨_, rfl, coldstartListenTimeout_keepsStores ..⟩
  | .coldstartComplete .. => ⟨_, rfl, coldstartComplete_keepsStores ..⟩
  | .backoffElapsed .. => ⟨_, rfl, backoffElapsed_keepsStores ..⟩
  | .syncLoss .. => ⟨_, rfl, syncLoss_keepsStores ..⟩
  | .nodeDelayWrite .. => ⟨_, rfl, nodeDelayWrite_keepsStores ..⟩
  | .nodeAssignWrite .. => ⟨_, rfl, nodeAssignWrite_keepsStores ..⟩
  | .exclude .. => ⟨_, rfl, excludeNode_keepsStores ..⟩
  | .linkLoss .. => ⟨_, rfl, linkLoss_keepsStores ..⟩
  | .linkUp .. => ⟨_, rfl, linkUp_keepsStores ..⟩
  | .breakPatternTimeout .. => ⟨_, rfl, breakPatternTimeout_keepsStores ..⟩
  | .eventResend .. => ⟨_, rfl, eventResend_keepsStores ..⟩
  | .moveJoint .. => ⟨_, rfl, moveCmd_keepsStores ..⟩
  | .moveLinear .. => ⟨_, rfl, moveCmd_keepsStores ..⟩
  | .moveCircular .. => ⟨_, rfl, moveCmd_keepsStores ..⟩
  | .moveSegment .. => ⟨_, rfl, moveCmd_keepsStores ..⟩
  | .moveCam .. => ⟨_, rfl, moveCmd_keepsStores ..⟩
  | .moveStop .. => ⟨_, rfl, moveCmd_keepsStores ..⟩
  | .jogCmd .. => ⟨_, rfl, jogCmd_keepsStores ..⟩
  | .jogTimeout .. => ⟨_, rfl, jogTimeout_keepsStores ..⟩
  | .grpClose .. => ⟨_, rfl, grpClose_keepsStores ..⟩
  | .grpOpen .. => ⟨_, rfl, grpOpen_keepsStores ..⟩
  | .segTableWrite .. => ⟨_, rfl, segTableWrite_keepsStores ..⟩
  | .camTableWrite .. => ⟨_, rfl, camTableWrite_keepsStores ..⟩
  | .hcSwitchOn .. => ⟨_, rfl, hcSwitchOn_keepsStores ..⟩
  | .hcSwitchOff .. => ⟨_, rfl, hcSwitchOff_keepsStores ..⟩
  | .crReq .. => ⟨_, rfl, crReq_keepsStores ..⟩
  | .squareRun .. => ⟨_, rfl, squareRun_keepsStores ..⟩
  | .sqLate .. => ⟨_, rfl, sqLate_keepsStores ..⟩
  | .solve .. => ⟨_, rfl, solveCmd_keepsStores ..⟩
  | .solverLate .. => ⟨_, rfl, solverLateCmd_keepsStores ..⟩
  | .tokenArrival .. => ⟨_, rfl, tokenArrival_keepsStores ..⟩
  | .rxDeadlineSubstitution .. => ⟨_, rfl, rxDeadlineSubstitution_keepsStores ..⟩
  | .releaseTick .. => ⟨_, rfl, releaseTick_keepsStores ..⟩
  | .taskStart .. => ⟨_, rfl, taskStart_keepsStores ..⟩
  | .taskAbort .. => ⟨_, rfl, taskAbort_keepsStores ..⟩
  | .dmaDone .. => ⟨_, rfl, dmaDone_keepsStores ..⟩
  | .add .. => ⟨_, rfl, laneAdd_keepsStores ..⟩
  | .sub .. => ⟨_, rfl, laneSub_keepsStores ..⟩
  | .and .. => ⟨_, rfl, laneAnd_keepsStores ..⟩
  | .or .. => ⟨_, rfl, laneOr_keepsStores ..⟩
  | .xor .. => ⟨_, rfl, laneXor_keepsStores ..⟩
  | .shl .. => ⟨_, rfl, laneShl_keepsStores ..⟩
  | .shr .. => ⟨_, rfl, laneShr_keepsStores ..⟩
  | .sar .. => ⟨_, rfl, laneSar_keepsStores ..⟩
  | .mul .. => ⟨_, rfl, laneMul_keepsStores ..⟩
  | .mulq .. => ⟨_, rfl, laneMulq_keepsStores ..⟩
  | .abs .. => ⟨_, rfl, laneAbs_keepsStores ..⟩
  | .norm .. => ⟨_, rfl, laneNorm_keepsStores ..⟩
  | .exp .. => ⟨_, rfl, laneExp_keepsStores ..⟩
  | .mac .. => ⟨_, rfl, laneMac_keepsStores ..⟩
  | .msu .. => ⟨_, rfl, laneMsu_keepsStores ..⟩
  | .movta .. => ⟨_, rfl, laneMovta_keepsStores ..⟩
  | .mova .. => ⟨_, rfl, laneMova_keepsStores ..⟩
  | .expa .. => ⟨_, rfl, laneExpa_keepsStores ..⟩
  | .fadd .. => ⟨_, rfl, laneFadd_keepsStores ..⟩
  | .fsub .. => ⟨_, rfl, laneFsub_keepsStores ..⟩
  | .fmul .. => ⟨_, rfl, laneFmul_keepsStores ..⟩
  | .fma .. => ⟨_, rfl, laneFma_keepsStores ..⟩
  | .fms .. => ⟨_, rfl, laneFms_keepsStores ..⟩
  | .fdiv .. => ⟨_, rfl, laneFdiv_keepsStores ..⟩
  | .fsqrt .. => ⟨_, rfl, laneFsqrt_keepsStores ..⟩
  | .fmin .. => ⟨_, rfl, laneFmin_keepsStores ..⟩
  | .fmax .. => ⟨_, rfl, laneFmax_keepsStores ..⟩
  | .fcmplt .. => ⟨_, rfl, laneFcmplt_keepsStores ..⟩
  | .fnorm .. => ⟨_, rfl, laneFnorm_keepsStores ..⟩
  | .fexp .. => ⟨_, rfl, laneFexp_keepsStores ..⟩
  | .ftoi .. => ⟨_, rfl, laneFtoi_keepsStores ..⟩
  | .itof .. => ⟨_, rfl, laneItof_keepsStores ..⟩
  | .dmago .. => ⟨_, rfl, laneDmago_keepsStores ..⟩
  | .dmawt .. => ⟨_, rfl, laneDmawt_keepsStores ..⟩
  | .endTask .. => ⟨_, rfl, endTask_keepsStores ..⟩
  | .addi .. => ⟨_, rfl, laneAddi_keepsStores ..⟩
  | .shli .. => ⟨_, rfl, laneShli_keepsStores ..⟩
  | .sari .. => ⟨_, rfl, laneSari_keepsStores ..⟩
  | .andi .. => ⟨_, rfl, laneAndi_keepsStores ..⟩
  | .rdcnt .. => ⟨_, rfl, laneRdcnt_keepsStores ..⟩
  | .ld .. => ⟨_, rfl, laneLd_keepsStores ..⟩
  | .st .. => ⟨_, rfl, laneSt_keepsStores ..⟩
  | .ldh .. => ⟨_, rfl, laneLdh_keepsStores ..⟩
  | .sth .. => ⟨_, rfl, laneSth_keepsStores ..⟩
  | .li .. => ⟨_, rfl, laneLi_keepsStores ..⟩
  | .lih .. => ⟨_, rfl, laneLih_keepsStores ..⟩
  | .bz .. => ⟨_, rfl, laneBz_keepsStores ..⟩
  | .bnz .. => ⟨_, rfl, laneBnz_keepsStores ..⟩
  | .blt .. => ⟨_, rfl, laneBlt_keepsStores ..⟩
  | .bloop .. => ⟨_, rfl, laneBloop_keepsStores ..⟩
  | .cntSel .. => ⟨_, rfl, cntSel_keepsStores ..⟩
  | .cntBlock .. => ⟨_, rfl, cntBlock_keepsStores ..⟩
  | .cntClear .. => ⟨_, rfl, cntClear_keepsStores ..⟩
  | .cntClearAll .. => ⟨_, rfl, cntClearAll_keepsStores ..⟩
  | .quadratureChange .. => ⟨_, rfl, quadratureChange_keepsStores ..⟩
  | .indexEvent .. => ⟨_, rfl, indexEvent_keepsStores ..⟩
  | .absRequest .. => ⟨_, rfl, absRequest_keepsStores ..⟩
  | .absReading .. => ⟨_, rfl, absReading_keepsStores ..⟩
  | .cmpValue .. => ⟨_, rfl, cmpValue_keepsStores ..⟩
  | .disarm .. => ⟨_, rfl, disarm_keepsStores ..⟩
  | .cmpPulseEnd .. => ⟨_, rfl, cmpPulseEnd_keepsStores ..⟩
  | .emuEdge .. => ⟨_, rfl, emuEdge_keepsStores ..⟩
  | .step .. => ⟨_, rfl, axStep_keepsStores ..⟩
  | .axIdle .. => ⟨_, rfl, axIdle_keepsStores ..⟩
  | .axWakeDone .. => ⟨_, rfl, axWakeDone_keepsStores ..⟩
  | .safeScan .. => ⟨_, rfl, safeScan_keepsStores ..⟩
  | .discTimeExpiry .. => ⟨_, rfl, discTimeExpiry_keepsStores ..⟩
  | .safetyCheckTick .. => ⟨_, rfl, (safetyCheckTick_keepsStores ..).trans (State.torqueCheck_keepsStores _)⟩
  | .degradedTimerExpiry .. => ⟨_, rfl, degradedTimerExpiry_keepsStores ..⟩
  | .armStopClear .. => ⟨_, rfl, armStopClear_keepsStores ..⟩
  | .brakeCloseExpiry .. => ⟨_, rfl, brakeCloseExpiry_keepsStores ..⟩
  | .ss1TmaxExpiry .. => ⟨_, rfl, ss1TmaxExpiry_keepsStores ..⟩
  | .brakeOpenExpiry .. => ⟨_, rfl, brakeOpenExpiry_keepsStores ..⟩
  | .brakeReleaseTimeout .. => ⟨_, rfl, brakeReleaseTimeout_keepsStores ..⟩
  | .outputDarkTest .. => ⟨_, rfl, outputDarkTest_keepsStores ..⟩
  | .readbackMismatch .. => ⟨_, rfl, readbackMismatch_keepsStores ..⟩
  | .switchRead .. => ⟨_, rfl, switchRead_keepsStores ..⟩
  | .connLost .. => ⟨_, rfl, connLost_keepsStores ..⟩
  | .nodeSafetyWatchdog .. => ⟨_, rfl, nodeSafetyWatchdog_keepsStores ..⟩
  | .nodeSs1TimerExpiry .. => ⟨_, rfl, nodeSs1TimerExpiry_keepsStores ..⟩
  | .safeBtCmd .. => ⟨_, rfl, safeBtCmd_keepsStores ..⟩
  | .btCompare .. => ⟨_, rfl, btCompare_keepsStores ..⟩
  | .btDue .. => ⟨_, rfl, btDueAt_keepsStores ..⟩
  | .btOverdue .. => ⟨_, rfl, btOverdue_keepsStores ..⟩
  | .safeSetDl .. => ⟨_, rfl, safeSetDl_keepsStores ..⟩
  | .ilkPeerChange .. => ⟨_, rfl, ilkPeerChange_keepsStores ..⟩
  | .holdoffElapsed .. => ⟨_, rfl, holdoffElapsed_keepsStores ..⟩
  | .claimWdTrip .. => ⟨_, rfl, claimWdTrip_keepsStores ..⟩
  | .hbPathLoss .. => ⟨_, rfl, hbPathLoss_keepsStores ..⟩
  | .partnerAbsent .. => ⟨_, rfl, partnerAbsent_keepsStores ..⟩
  | .cmdUnacked .. => ⟨_, rfl, cmdUnacked_keepsStores ..⟩
  | .detachEffect .. => ⟨_, rfl, detachEffect_keepsStores ..⟩
  | .rejoinTakeup .. => ⟨_, rfl, rejoinTakeup_keepsStores ..⟩
  | .swapInstant .. => ⟨_, rfl, swapInstant_keepsStores ..⟩
  | .swapDue .. => ⟨_, rfl, swapDue_keepsStores ..⟩
  | .recordRequest .. => ⟨_, rfl, recordRequest_keepsStores ..⟩
  | .flashProgramDone .. => ⟨_, rfl, flashProgramDone_keepsStores ..⟩
  | .sectorEraseDone .. => ⟨_, rfl, sectorEraseDone_keepsStores ..⟩
  | .periodicSave .. => ⟨_, rfl, periodicSave_keepsStores ..⟩
  | .recClear .. => ⟨_, rfl, recClear_keepsStores ..⟩
  | .recSafeSect .. => ⟨_, rfl, recSafeSect_keepsStores ..⟩
  | .imageWrite .. => ⟨_, rfl, imageWrite_keepsStores ..⟩
  | .secConfirm .. => ⟨_, rfl, secConfirm_keepsStores ..⟩
  | .secReboot .. => ⟨_, rfl, secReboot_keepsStores ..⟩
  | .secOwnerKey .. => ⟨_, rfl, secOwnerKey_keepsStores ..⟩
  | .secOwnerRevoke .. => ⟨_, rfl, secOwnerRevoke_keepsStores ..⟩
  | .secDevLock .. => ⟨_, rfl, secDevLock_keepsStores ..⟩
  | .attNonce .. => ⟨_, rfl, attNonce_keepsStores ..⟩
  | .attReportDone .. => ⟨_, rfl, attReportDone_keepsStores ..⟩
  | .attCert .. => ⟨_, rfl, attCert_keepsStores ..⟩
  | .adcConversion .. => ⟨_, rfl, adcConversion_keepsStores ..⟩
  | .injectedConversion .. => ⟨_, rfl, injectedConversion_keepsStores ..⟩
  | .shedReenable .. => ⟨_, rfl, shedReenable_keepsStores ..⟩
  | .monCalCmd .. => ⟨_, rfl, monCalCmd_keepsStores ..⟩
  | .monCalPeriodExpiry .. => ⟨_, rfl, monCalPeriodExpiry_keepsStores ..⟩
  | .sliceCalibrationDone .. => ⟨_, rfl, sliceCalibrationDone_keepsStores ..⟩
  | .syscalStep1 .. => ⟨_, rfl, syscalStep1_keepsStores ..⟩
  | .syscalStep2 .. => ⟨_, rfl, syscalStep2_keepsStores ..⟩
  | .syscalAverageDone .. => ⟨_, rfl, syscalAverageDone_keepsStores ..⟩
  | .monWindowEnd .. => ⟨_, rfl, monWindowEnd_keepsStores ..⟩
  | .domainWake .. => ⟨_, rfl, domainWake_keepsStores ..⟩
  | .domainGateOff .. => ⟨_, rfl, domainGateOff_keepsStores ..⟩
  | .extest .. => ⟨_, rfl, extest_keepsStores ..⟩
  | .idcode .. => ⟨_, rfl, tapIdcode_keepsStores ..⟩
  | .samplePreload .. => ⟨_, rfl, samplePreload_keepsStores ..⟩
  | .extestPulse .. => ⟨_, rfl, extestPulse_keepsStores ..⟩
  | .extestTrain .. => ⟨_, rfl, extestTrain_keepsStores ..⟩
  | .clamp .. => ⟨_, rfl, tapClamp_keepsStores ..⟩
  | .highz .. => ⟨_, rfl, tapHighz_keepsStores ..⟩
  | .sealRead .. => ⟨_, rfl, sealRead_keepsStores ..⟩
  | .sealCapture .. => ⟨_, rfl, sealCapture_keepsStores ..⟩
  | .bypass .. => ⟨_, rfl, tapBypass_keepsStores ..⟩
  | .testLogicReset .. => ⟨_, rfl, testLogicReset_keepsStores ..⟩
  | .tstBscanEn .. => ⟨_, rfl, tstBscanEn_keepsStores ..⟩
  | .codeGroupSyncAcquired .. => ⟨_, rfl, codeGroupSyncAcquired_keepsStores ..⟩
  | .s4StandstillTimeout .. => ⟨_, rfl, s4StandstillTimeout_keepsStores ..⟩
  | .spWatchdogExpiry .. => ⟨_, rfl, spWatchdogExpiry_keepsStores ..⟩
  | .periodicSelfTest .. => ⟨_, rfl, periodicSelfTest_keepsStores ..⟩
  | .deviceFaultDetected .. => ⟨_, rfl, deviceFaultDetected_keepsStores ..⟩
  | .powerOnDetector .. => ⟨_, rfl, powerOnDetector_keepsStores ..⟩
  | .bootFlashOperationDone .. => ⟨_, rfl, bootFlashOperationDone_keepsStores ..⟩
  | .indirectTransferDone .. => ⟨_, rfl, indirectTransferDone_keepsStores ..⟩
  | .pmcWrap .. => ⟨_, rfl, pmcWrap_keepsStores ..⟩

theorem step_keepsStores (s : State) :
    ∃ t, step s = .next t ∧ (Canonical s → Canonical t) ∧ t.pending = s.pending.tail ∧ FusesGrow s.sec.fuses t.sec.fuses := by
  unfold step
  split
  next h => exact ⟨s, rfl, id, by rw [h]; rfl, .refl _⟩
  next c rest h =>
    obtain ⟨t, hexec, hkeeps⟩ := exec_keepsStores c { s with pending := rest }
    exact ⟨t, hexec, hkeeps.canonical, by rw [hkeeps.pending, h]; rfl, hkeeps.fuses⟩

end Sys2Proof.Machine

namespace Sys2Proof

open Machine

/-- Settles O60: each command keeps the canonical form and the queue and clears no fuse, and a step runs one with the rest of the queue. -/
theorem everyStepKeeps : Obligations.EveryStepKeeps := by
  intro s
  obtain ⟨t, hstep, hcanonical, hpending, hfuses⟩ := step_keepsStores s
  exact ⟨t, hstep, hcanonical, hpending, hfuses.dev, hfuses.owner, hfuses.revoked, hfuses.rollback, hfuses.vendor, hfuses.safety,
    hfuses.serial⟩

/-- Settles O1: a step is the definition of `step`, and every command completes. -/
theorem stepRunsFrontCommand : Obligations.StepRunsFrontCommand := by
  refine ⟨fun c rest s h => by simp only [step, h], fun s h => by simp only [step, h], fun c s => ?_⟩
  obtain ⟨t, hexec, -⟩ := exec_keepsStores c s
  exact ⟨t, hexec⟩

end Sys2Proof
end

section
/-! SUPPORT. Every write row is the write of its object (R386 to R390): the own check and the effect of each row are those that the
dictionary looks up by the object's index and sub-index. -/

namespace Sys2Proof.Machine

/-- Places of objects whose write leaves nothing beside its effect: no access object, none that waits for a
verification, no move of an arm or axis, no image and no user kernel. -/
def bareWrite (index sub : Nat) : Bool :=
  decide (index < 2 ^ 16) && decide (sub < 2 ^ 8) && !isAccess index sub && !isVerified index sub &&
    !(decide (0x3000 ≤ index) && decide (index ≤ 0x37FF) && index % 256 == 2) &&
    !(decide (0x6000 ≤ index) && decide (index ≤ 0x600F) && sub == 0x14) &&
    !(index == 0x9000 && decide (3 ≤ sub) && decide (sub ≤ 5)) && !(index == 0x5000 && sub == 0x0F)

section
variable (rq : Requester) (v : Bytes) (s : State)

theorem afterWrite_other {index sub : Nat} (harm : ¬(0x3000 ≤ index ∧ index ≤ 0x37FF ∧ index % 256 = 2))
    (haxis : ¬(0x6000 ≤ index ∧ index ≤ 0x600F ∧ sub = 0x14)) (himage : ¬(index = 0x9000 ∧ 3 ≤ sub ∧ sub ≤ 5))
    (hkernel : ¬(index = 0x5000 ∧ sub = 0x0F)) (s' : State) : afterWrite rq index sub v s s' = s' := by
  rw [afterWrite, if_neg fun h => harm h.2, if_neg fun h => haxis h.2, if_neg fun h => himage ⟨h.1, h.2.1, h.2.2.1⟩,
    if_neg fun h => hkernel ⟨h.1, h.2.1⟩]

theorem bareWrite_iff {index sub : Nat} : bareWrite index sub = true ↔ index < 2 ^ 16 ∧ sub < 2 ^ 8 ∧ isAccess index sub = false ∧
    isVerified index sub = false ∧ ¬(0x3000 ≤ index ∧ index ≤ 0x37FF ∧ index % 256 = 2) ∧
    ¬(0x6000 ≤ index ∧ index ≤ 0x600F ∧ sub = 0x14) ∧ ¬(index = 0x9000 ∧ 3 ≤ sub ∧ sub ≤ 5) ∧ ¬(index = 0x5000 ∧ sub = 0x0F) := by
  simp [bareWrite, and_assoc]
  omega

/-- The write of an object beside which nothing is left. -/
theorem performObject_bare {index sub : Nat} (h : bareWrite index sub = true) :
    performObject rq index sub v s = submitWrite rq index sub v (writeOwn rq index sub v) (writeEff rq index sub v) s := by
  obtain ⟨-, -, haccess, hverified, harm, haxis, himage, hkernel⟩ := bareWrite_iff.mp h
  rw [performObject, if_neg (by simp [hverified]), runWrite, if_neg (by simp [haccess]),
    afterWrite_other rq v s harm haxis himage hkernel]

/-- The write of an object whose own check and effect are known. -/
theorem objectWrite_bare {index sub : Nat} (h : bareWrite index sub = true) {own : State → Nat} {eff : State → State}
    (hown : writeOwn rq index sub v = own) (heff : writeEff rq index sub v = eff) :
    objectWrite rq (BitVec.ofNat 16 index) (BitVec.ofNat 8 sub) v s = submitWrite rq index sub v own eff s := by
  obtain ⟨hindex, hsub, -⟩ := bareWrite_iff.mp h
  rw [objectWrite, BitVec.toNat_ofNat, BitVec.toNat_ofNat, Nat.mod_eq_of_lt hindex, Nat.mod_eq_of_lt hsub, performObject_bare rq v s h,
    hown, heff]

/-- The write of an object that needs a verification and leaves nothing beside its effect (R453). -/
theorem performObject_verified {index sub : Nat} (haccess : isAccess index sub = false) (hverified : isVerified index sub = true)
    (hother : ∀ s s', afterWrite rq index sub v s s' = s') {own : State → Nat} {eff : State → State}
    (hown : writeOwn rq index sub v = own) (heff : writeEff rq index sub v = eff) :
    performObject rq index sub v s = s.verifying rq index sub v (submitWrite rq index sub v own eff) := by
  have hrun : runWrite rq index sub v = submitWrite rq index sub v own eff := by
    funext s
    rw [runWrite, if_neg (by simp [haccess]), hother, hown, heff]
  rw [performObject, if_pos hverified, hrun]

/-- A row that submits such a write answers what the write of the object answers. -/
theorem row_bare {index sub : Nat} (h : bareWrite index sub = true) {own : State → Nat} {eff : State → State}
    (hown : writeOwn rq index sub v = own) (heff : writeEff rq index sub v = eff) :
    .next (submitWrite rq index sub v own eff s) = exec (.objectWrite rq (BitVec.ofNat 16 index) (BitVec.ofNat 8 sub) v) s :=
  congrArg _ (objectWrite_bare rq v s h hown heff).symm

end

/-! ### Moves -/

section
variable (rq : Requester) (d : Bytes) (s : State)

/-- The condition on which a refused move is recorded: the object's own check found the descriptor out of range (R145). -/
theorem rangeRefused_iff {index sub : Nat} :
    (if !s.served rq then abBusy else if writeCheck s rq index sub d = 0 then writeOwn rq index sub d s else abType) = abRange ↔
      s.served rq = true ∧ writeCheck s rq index sub d = 0 ∧ writeOwn rq index sub d s = abRange := by
  by_cases hserved : s.served rq = true <;> by_cases hcheck : writeCheck s rq index sub d = 0 <;>
    simp [hserved, hcheck, abBusy, abType, abRange]

theorem afterWrite_arm {index sub : Nat} (harm : 0x3000 ≤ index ∧ index ≤ 0x37FF ∧ index % 256 = 2) (s' : State) :
    afterWrite rq index sub d s s' =
      if s.served rq ∧ writeCheck s rq index sub d = 0 ∧ writeOwn rq index sub d s = abRange then s'.moveRefused ((index - 0x3000) / 256) d
      else s' := by
  simp only [afterWrite, rangeRefused_iff rq d s, harm, and_true]
  split
  · rfl
  · rw [if_neg (by omega), if_neg (by omega), if_neg (by omega)]

theorem afterWrite_axis {index sub : Nat} (haxis : 0x6000 ≤ index ∧ index ≤ 0x600F ∧ sub = 0x14) (s' : State) :
    afterWrite rq index sub d s s' =
      if s.served rq ∧ writeCheck s rq index sub d = 0 ∧ writeOwn rq index sub d s = abRange then
        s'.moveRefused (0x10 + (index - 0x6000)) d
      else s' := by
  simp only [afterWrite, rangeRefused_iff rq d s, haxis, and_true]
  rw [if_neg (by omega)]
  split
  · rfl
  · rw [if_neg (by omega), if_neg (by omega)]

theorem afterWrite_image {sub : Nat} (himage : 3 ≤ sub ∧ sub ≤ 5) (s' : State) :
    afterWrite rq 0x9000 sub d s s' =
      if s.served rq ∧ writeCheck s rq 0x9000 sub d = 0 ∧ (writeOwn rq 0x9000 sub d s = abState ∨ writeOwn rq 0x9000 sub d s = abBusy) then
        s'.setBit kSecStatus 4 true
      else s' := by
  unfold afterWrite
  dsimp only
  rw [if_neg (by omega), if_neg (by omega)]
  by_cases hserved : s.served rq = true <;> by_cases hcheck : writeCheck s rq 0x9000 sub d = 0 <;>
    simp [hserved, hcheck, himage, abBusy, abType, abState]

theorem runWrite_armMove (a : Fin 8) : runWrite rq (0x3002 + 0x100 * a.val) 0x01 d s =
    moveWrite rq (0x3002 + 0x100 * a.val) 0x01 a.val d (armMoveOwn a.val d) (armMoveEff a.val d) s := by
  have harm : (0x3002 + 0x100 * a.val - 0x3000) / 256 = a.val := by omega
  have hown : writeOwn rq (0x3002 + 0x100 * a.val) 0x01 d = armMoveOwn a.val d := by
    funext s
    have hmod : (0x3002 + 0x100 * a.val) % 256 = 2 := by omega
    rw [writeOwn, if_pos (by omega)]
    unfold ownMotion
    rw [if_pos (by omega), hmod, harm]
    rfl
  have heff : writeEff rq (0x3002 + 0x100 * a.val) 0x01 d = armMoveEff a.val d := by
    funext s
    rw [writeEff, if_pos (by omega), effMotion, if_pos (by omega), harm]
  have haccess : isAccess (0x3002 + 0x100 * a.val) 1 = false := by
    rw [isAccess, beq_eq_false_iff_ne.mpr (by omega), Bool.false_and]
  rw [runWrite, if_neg (by simp [haccess]), afterWrite_arm rq d s (by omega), hown, heff, harm, moveWrite]

theorem runWrite_axisMove (n : Fin 16) : runWrite rq (0x6000 + n.val) 0x14 d s =
    moveWrite rq (0x6000 + n.val) 0x14 (0x10 + n.val) d (axMoveOwn n.val d) (axMoveEff n.val d) s := by
  have haxis : 0x6000 + n.val - 0x6000 = n.val := by omega
  have hown : writeOwn rq (0x6000 + n.val) 0x14 d = axMoveOwn n.val d := by
    funext s
    rw [writeOwn, if_neg (by omega), if_pos (by omega)]
    unfold ownLine
    rw [if_neg (by omega), if_neg (by omega), if_neg (by omega), if_neg (by omega), if_pos (by omega), haxis]
    rfl
  have heff : writeEff rq (0x6000 + n.val) 0x14 d = axMoveEff n.val d := by
    funext s
    rw [writeEff, if_neg (by omega), if_pos (by omega), effLine, if_neg (by omega), if_neg (by omega), if_neg (by omega),
      if_pos (by omega), haxis]
  have haccess : isAccess (0x6000 + n.val) 0x14 = false := by
    rw [isAccess, beq_eq_false_iff_ne.mpr (by omega), Bool.false_and]
  rw [runWrite, if_neg (by simp [haccess]), afterWrite_axis rq d s ⟨by omega, by omega, rfl⟩, hown, heff, haxis, moveWrite]

end

/-! ### Rows of a family of objects -/

section
variable (rq : Requester) (v : Bytes)

theorem writeEff_of_key {key index sub : Nat} {s t : State} (hkey : objKey index sub = key) (hsub : sub < 256)
    (h : writeEff rq (keyIndex key) (keySub key) v s = t) : writeEff rq index sub v s = t := by
  obtain ⟨hindex, hsub⟩ := keyIndex_objKey (index := index) hsub
  rwa [← hkey, hindex, hsub] at h

theorem writeOwn_jogCmd (a : Fin 8) : writeOwn rq (0x3003 + 0x100 * a.val) 0x01 v = jogOwn a.val v := by
  funext s
  have hmod : (0x3003 + 0x100 * a.val) % 256 = 3 := by omega
  have harm : (0x3003 + 0x100 * a.val - 0x3000) / 256 = a.val := by omega
  rw [writeOwn, if_pos (by omega)]
  unfold ownMotion
  rw [if_pos (by omega), hmod, harm]
  rfl

theorem writeEff_jog (a : Fin 8) : writeEff rq (0x3003 + 0x100 * a.val) 0x01 v = jogEff a.val v := by
  funext s
  exact writeEff_of_key rq v (by unfold objKey kJogCmd; omega) (by decide) (writeEff_jogCmd rq v s (a := a) rfl)

theorem writeOwn_group (g : Fin 4) : writeOwn rq (0x3800 + g.val) 0x03 v = grpCmdOwn g.val v ∧
    writeOwn rq (0x3800 + g.val) 0x05 v = grpMoveOwn g.val v := by
  constructor <;>
  · funext s
    rw [writeOwn, if_pos (by omega)]
    unfold ownMotion
    rw [if_neg (by omega), if_pos (by omega), Nat.add_sub_cancel_left]
    rfl

theorem writeEff_group (g : Fin 4) : writeEff rq (0x3800 + g.val) 0x03 v = grpCmdEff g.val v := by
  funext s
  exact writeEff_of_key rq v (by unfold objKey kGrpCmd; omega) (by decide) (writeEff_grpCmd rq v s (g := g) rfl)

theorem writeEff_groupMove (g : Fin 4) : writeEff rq (0x3800 + g.val) 0x05 v = grpMoveEff g.val v := by
  funext s
  rw [writeEff, if_pos (by omega), effMotion, if_neg (by omega), if_neg (by omega), if_neg (by omega), if_pos (by omega),
    Nat.add_sub_cancel_left]

theorem place_segKey (n : Fin 256) : keyIndex (segKey n) = 0x3A00 + n.val / 128 ∧ keySub (segKey n) = n.val % 128 + 1 := by
  unfold keyIndex keySub segKey kSegTable kSegTableHi
  split <;> omega

theorem place_camKey (n : Fin 256) : keyIndex (camKey n) = 0x3A02 + n.val / 128 ∧ keySub (camKey n) = n.val % 128 + 1 := by
  unfold keyIndex keySub camKey kCamTable kCamTableHi
  split <;> omega

theorem writeEff_table {index sub : Nat} (hindex : 0x3A00 ≤ index ∧ index ≤ 0x3A03) (hsub : sub < 256) :
    writeEff rq index sub v = storeWrite index sub v := by
  funext s
  have hiter : objKey index sub ≠ kSolverIter := by unfold objKey kSolverIter; omega
  rw [writeEff, if_pos (by omega), effMotion, if_neg (by omega), if_neg (by omega), if_neg (by omega), if_neg (by omega),
    if_neg (by omega), if_neg (by omega), if_neg hiter]

theorem writeOwn_segTable (n : Fin 256) : writeOwn rq (0x3A00 + n.val / 128) (n.val % 128 + 1) v = segOwn n.val v := by
  funext s
  rw [writeOwn, if_pos (by omega)]
  unfold ownMotion
  rw [if_neg (by omega), if_neg (by omega), if_pos (by omega)]
  congr 1
  omega

theorem writeOwn_camTable (n : Fin 256) : writeOwn rq (0x3A02 + n.val / 128) (n.val % 128 + 1) v = camOwn n.val v := by
  funext s
  rw [writeOwn, if_pos (by omega)]
  unfold ownMotion
  rw [if_neg (by omega), if_neg (by omega), if_neg (by omega), if_pos (by omega)]
  congr 1
  omega

theorem writeOwn_hcCtrl (c : Fin 32) : writeOwn rq (0x3900 + c.val) 0x0C v = fun _ => 0 := by
  funext s
  rw [writeOwn, if_pos (by omega)]
  unfold ownMotion
  rw [if_neg (by omega), if_neg (by omega), if_neg (by omega), if_neg (by omega), if_neg (by omega), if_neg (by omega),
    if_neg (by omega), if_neg (by omega), if_neg (by omega)]

theorem writeEff_hc (c : Fin 32) : writeEff rq (0x3900 + c.val) 0x0C v = hcCtrlEff c.val v := by
  funext s
  exact writeEff_of_key rq v (by unfold objKey kHcCtrl; omega) (by decide) (writeEff_hcCtrl rq v s (c := c) rfl)

theorem writeOwn_crReq (a : Fin 8) : writeOwn rq 0x4202 (1 + a.val) v = crReqOwn a.val v := by
  funext s
  rw [writeOwn, if_pos (by omega)]
  unfold ownMotion
  rw [if_neg (by omega), if_neg (by omega), if_neg (by omega), if_neg (by omega), if_neg (by omega), if_neg (by omega),
    if_neg (by omega), if_neg (by omega), if_pos rfl, Nat.add_sub_cancel_left]

theorem writeEff_cr (a : Fin 8) : writeEff rq 0x4202 (1 + a.val) v = crReqEff a.val v := by
  funext s
  exact writeEff_of_key rq v (by unfold objKey kCrReq; omega) (by omega) (writeEff_crReq rq v s (a := a) rfl)

theorem writeOwn_counter (e : Fin 82) : writeOwn rq (0x5410 + e.val) 0x08 v = (fun _ => cntSelOwn e.val v) ∧
    writeOwn rq (0x5410 + e.val) 0x0B v = fun _ => isOneOwn v := by
  constructor <;>
  · funext s
    rw [writeOwn, if_neg (by omega), if_pos (by omega)]
    unfold ownLine
    rw [if_neg (by omega), if_neg (by omega), if_neg (by omega), if_pos (by omega)]
    simp only [Nat.add_sub_cancel_left]

/-- The sub-indices of the two units of a compare channel. -/
theorem cmpSub_mod (u : Fin 2) : (0x01 + 0x10 * u.val) % 16 = 1 ∧ (0x07 + 0x10 * u.val) % 16 = 7 ∧ (0x01 + 0x10 * u.val) / 16 = u.val ∧
    (0x07 + 0x10 * u.val) / 16 = u.val := by omega

theorem writeOwn_compare (c : Fin 16) (u : Fin 2) :
    writeOwn rq (0x6210 + c.val) (0x01 + 0x10 * u.val) v = cmpValueOwn c.val ∧
      writeOwn rq (0x6210 + c.val) (0x07 + 0x10 * u.val) v = fun _ => disarmOwn v := by
  obtain ⟨hone, hseven, -, -⟩ := cmpSub_mod u
  constructor <;>
  · funext s
    rw [writeOwn, if_neg (by omega), if_pos (by omega)]
    unfold ownLine
    rw [if_neg (by omega), if_neg (by omega), if_neg (by omega), if_neg (by omega), if_neg (by omega), if_neg (by omega),
      if_neg (by omega), if_pos (by omega)]
    simp only [hone, hseven, Nat.add_sub_cancel_left]

theorem writeEff_compare (c : Fin 16) (u : Fin 2) :
    writeEff rq (0x6210 + c.val) (0x01 + 0x10 * u.val) v = cmpValueEff c.val u.val v ∧
      writeEff rq (0x6210 + c.val) (0x07 + 0x10 * u.val) v = fun s => s.arm c.val u.val false := by
  obtain ⟨hone, hseven, hunit, hunit'⟩ := cmpSub_mod u
  constructor
  · funext s
    rw [writeEff, if_neg (by omega), if_pos (by omega), effLine, if_neg (by omega), if_neg (by omega), if_neg (by omega),
      if_neg (by omega), if_pos (by omega), Nat.add_sub_cancel_left, hunit]
  · funext s
    rw [writeEff, if_neg (by omega), if_pos (by omega), effLine, if_neg (by omega), if_neg (by omega), if_neg (by omega),
      if_neg (by omega), if_neg (by omega), if_pos (by omega), Nat.add_sub_cancel_left, hunit']

end

/-! ### The rows -/

theorem bareWrite_families :
    (∀ a : Fin 8, bareWrite (0x3003 + 0x100 * a.val) 0x01 = true ∧ bareWrite 0x4202 (1 + a.val) = true) ∧
    (∀ g : Fin 4, bareWrite (0x3800 + g.val) 0x03 = true ∧ bareWrite (0x3800 + g.val) 0x05 = true) ∧
    (∀ c : Fin 32, bareWrite (0x3900 + c.val) 0x0C = true) ∧
    (∀ e : Fin 82, bareWrite (0x5410 + e.val) 0x08 = true ∧ bareWrite (0x5410 + e.val) 0x0B = true) ∧
    ∀ (c : Fin 16) (u : Fin 2), bareWrite (0x6210 + c.val) (0x01 + 0x10 * u.val) = true ∧
      bareWrite (0x6210 + c.val) (0x07 + 0x10 * u.val) = true := by decide

theorem bareWrite_table {index sub : Nat} (h : 0x3A00 ≤ index ∧ index ≤ 0x3A03) (hsub : sub < 256) : bareWrite index sub = true := by
  simp [bareWrite, isAccess, isVerified]
  omega

section
variable (rq : Requester) (d : Bytes) (s : State)

/-- The row of a move is the write of its target's command object. -/
theorem moveCmd_objectWrite {t : MoveTarget} {type : Nat} {index : W16} {sub : Byte} {v : Bytes} {rq' : Requester}
    (h : writeRow.moveTarget rq t type d = (rq', index, sub, v)) : moveCmd type rq t d s = objectWrite rq' index sub v s := by
  cases t with
  | arm a =>
    cases h
    have hindex : (BitVec.ofNat 16 (0x3002 + 0x100 * a.val)).toNat = 0x3002 + 0x100 * a.val := by simp; omega
    have hverified : isVerified (0x3002 + 0x100 * a.val) 0x01 = false := by revert a; decide
    rw [objectWrite, hindex, performObject, if_neg (by simp [hverified])]
    exact (runWrite_armMove rq _ s a).symm
  | group g =>
    cases h
    exact (objectWrite_bare rq _ s (bareWrite_families.2.1 g).2 (writeOwn_group rq _ g).2 (writeEff_groupMove rq _ g)).symm
  | axis n =>
    cases h
    have hindex : (BitVec.ofNat 16 (0x6000 + n.val)).toNat = 0x6000 + n.val := by simp; omega
    have hverified : isVerified (0x6000 + n.val) 0x14 = false := by revert n; decide
    rw [objectWrite, hindex, performObject, if_neg (by simp [hverified])]
    exact (runWrite_axisMove rq _ s n).symm

theorem segTableWrite_objectWrite (n : Fin 256) : exec (.segTableWrite rq n d) s =
    exec (.objectWrite rq (BitVec.ofNat 16 (0x3A00 + n.val / 128)) (BitVec.ofNat 8 (n.val % 128 + 1)) d) s := by
  obtain ⟨hindex, hsub⟩ := place_segKey n
  have hrow := row_bare rq d s (bareWrite_table (by omega) (by omega)) (writeOwn_segTable rq d n)
    (writeEff_table rq d (by omega) (by omega))
  rw [← hrow, ← hindex, ← hsub]
  rfl

theorem camTableWrite_objectWrite (n : Fin 256) : exec (.camTableWrite rq n d) s =
    exec (.objectWrite rq (BitVec.ofNat 16 (0x3A02 + n.val / 128)) (BitVec.ofNat 8 (n.val % 128 + 1)) d) s := by
  obtain ⟨hindex, hsub⟩ := place_camKey n
  have hrow := row_bare rq d s (bareWrite_table (by omega) (by omega)) (writeOwn_camTable rq d n)
    (writeEff_table rq d (by omega) (by omega))
  rw [← hrow, ← hindex, ← hsub]
  rfl

theorem imageWrite_objectWrite (t : ImgType) {sub : Byte} (hsub : sub.toNat = imgSub (imgNo t)) :
    imageWrite rq t d s = objectWrite rq 0x9000 sub d s := by
  have hown : writeOwn rq 0x9000 (imgSub (imgNo t)) d = imageOwn (imgNo t) := by cases t <;> rfl
  have heff : writeEff rq 0x9000 (imgSub (imgNo t)) d = imageEff rq (imgNo t) d := by cases t <;> rfl
  have hplace : isAccess 0x9000 (imgSub (imgNo t)) = false ∧ isVerified 0x9000 (imgSub (imgNo t)) = false ∧
      3 ≤ imgSub (imgNo t) ∧ imgSub (imgNo t) ≤ 5 := by cases t <;> decide
  obtain ⟨haccess, hverified, hlow, hhigh⟩ := hplace
  rw [objectWrite, hsub, show (0x9000 : W16).toNat = 0x9000 from rfl, performObject, if_neg (by simp [hverified]), runWrite,
    if_neg (by simp [haccess]), afterWrite_image rq d s ⟨hlow, hhigh⟩, hown, heff, imageWrite]

end

end Sys2Proof.Machine

namespace Sys2Proof

open Machine

/-- Settles O18: row by row, the own check and the effect are those of the object. -/
theorem writeRowsAreObjectWrites : Obligations.WriteRowsAreObjectWrites := by
  intro c s rq index sub v h
  obtain ⟨hjogs, hgroups, hchannels, hcounters, hcompares⟩ := bareWrite_families
  cases c with
  | timeSet rq t => cases h; exact row_bare _ _ s (by decide) rfl rfl
  | timeIncWrite rq v => cases h; exact row_bare _ _ s (by decide) rfl rfl
  | phaseSlew rq v => cases h; exact row_bare _ _ s (by decide) rfl rfl
  | cellRefWrite rq v => cases h; exact row_bare _ _ s (by decide) rfl rfl
  | cntClearAll rq v => cases h; exact row_bare _ _ s (by decide) rfl rfl
  | safeBtCmd rq m => cases h; exact row_bare _ _ s (by decide) rfl rfl
  | recSafeSect rq v => cases h; exact row_bare _ _ s (by decide) rfl rfl
  | recClear rq v => cases h; exact row_bare _ _ s (by decide) rfl rfl
  | shedReenable rq v => cases h; exact row_bare _ _ s (by decide) rfl rfl
  | monCalCmd rq v => cases h; exact row_bare _ _ s (by decide) rfl rfl
  | syscalStep1 rq g uv => cases h; exact row_bare _ _ s (by decide) rfl rfl
  | syscalStep2 rq g uv => cases h; exact row_bare _ _ s (by decide) rfl rfl
  | secConfirm rq v => cases h; exact row_bare _ _ s (by decide) rfl rfl
  | secReboot rq v => cases h; exact row_bare _ _ s (by decide) rfl rfl
  | secOwnerKey rq d => cases h; exact row_bare _ _ s (by decide) rfl rfl
  | secOwnerRevoke rq v => cases h; exact row_bare _ _ s (by decide) rfl rfl
  | secDevLock rq v => cases h; exact row_bare _ _ s (by decide) rfl rfl
  | attNonce rq d => cases h; exact row_bare _ _ s (by decide) rfl rfl
  | tstBscanEn rq v => cases h; exact row_bare _ _ s (by decide) rfl rfl
  | moveJoint rq t d => exact congrArg _ (moveCmd_objectWrite rq d s (Option.some.inj h))
  | moveLinear rq t d => exact congrArg _ (moveCmd_objectWrite rq d s (Option.some.inj h))
  | moveCircular rq t d => exact congrArg _ (moveCmd_objectWrite rq d s (Option.some.inj h))
  | moveSegment rq t d => exact congrArg _ (moveCmd_objectWrite rq d s (Option.some.inj h))
  | moveCam rq t d => exact congrArg _ (moveCmd_objectWrite rq d s (Option.some.inj h))
  | moveStop rq t d => exact congrArg _ (moveCmd_objectWrite rq d s (Option.some.inj h))
  | jogCmd rq a d => cases h; exact row_bare _ _ s (hjogs a).1 (writeOwn_jogCmd rq _ a) (writeEff_jog rq _ a)
  | grpClose rq g => cases h; exact row_bare _ _ s (hgroups g).1 (writeOwn_group rq _ g).1 (writeEff_group rq _ g)
  | grpOpen rq g => cases h; exact row_bare _ _ s (hgroups g).1 (writeOwn_group rq _ g).1 (writeEff_group rq _ g)
  | hcSwitchOn rq c => cases h; exact row_bare _ _ s (hchannels c) (writeOwn_hcCtrl rq _ c) (writeEff_hc rq _ c)
  | hcSwitchOff rq c => cases h; exact row_bare _ _ s (hchannels c) (writeOwn_hcCtrl rq _ c) (writeEff_hc rq _ c)
  | crReq rq a m => cases h; exact row_bare _ _ s (hjogs a).2 (writeOwn_crReq rq _ a) (writeEff_cr rq _ a)
  | cntSel rq e v =>
    cases h
    exact row_bare _ _ s (hcounters e).1 (writeOwn_counter rq _ e).1
      (funext fun s => writeEff_cntSel rq _ s e)
  | cntClear rq e v =>
    cases h
    exact row_bare _ _ s (hcounters e).2 (writeOwn_counter rq _ e).2
      (funext fun s => writeEff_cntClear rq _ s e)
  | cmpValue rq c u v => cases h; exact row_bare _ _ s (hcompares c u).1 (writeOwn_compare rq _ c u).1 (writeEff_compare rq _ c u).1
  | disarm rq c u v => cases h; exact row_bare _ _ s (hcompares c u).2 (writeOwn_compare rq _ c u).2 (writeEff_compare rq _ c u).2
  | imageWrite rq t d => cases t <;> (cases h; exact congrArg Host.Outcome.next (imageWrite_objectWrite rq _ s _ rfl))
  | objectWrite rq index sub v => cases h; rfl
  | accUnlock rq v => cases h; rfl
  | accVToken rq d => cases h; rfl
  | accLock rq v => cases h; rfl
  | segTableWrite rq n d => cases h; exact segTableWrite_objectWrite rq _ s n
  | camTableWrite rq n d => cases h; exact camTableWrite_objectWrite rq _ s n
  | safeSetDl rq d =>
    cases h
    exact congrArg _ (performObject_verified rq _ s (index := 0x7000) (sub := 0x08) (by decide) (by decide)
      (fun s => afterWrite_other rq _ s (by decide) (by decide) (by decide) (by decide)) rfl rfl).symm
  | attCert rq d =>
    cases h
    exact congrArg _ (performObject_verified rq _ s (index := 0x9000) (sub := 0x13) (by decide) (by decide)
      (fun s => afterWrite_other rq _ s (by decide) (by decide) (by decide) (by decide)) rfl rfl).symm
  | _ => cases h

end Sys2Proof
end

section
/-! SUPPORT. Writes of objects: those that a check refuses (R386), those that take effect at once (R388, R390) and those that change the
staged copy (R388). -/

namespace Sys2Proof.Machine

/-! ### Refused writes -/

section
variable (s : State) (rq : Requester) (index sub : Nat) (v : Bytes)

/-- The refusal of a write that is not for too low a level, nor of an object that states withhold: nothing but the outcome. -/
theorem refuse_steps (code : Nat) : ∃ u w : State, (u = s ∨ u = s.inc kAccDenied) ∧ RecordOnly u w ∧
    s.refuse rq index sub code = w.answer rq code := by
  refine ⟨_, _, (ite_eq_or_eq (code = abLevel) (s.inc kAccDenied) s).symm, ?_, rfl⟩
  exact .ite (refusedRecord_recordOnly ..) (.refl _)

theorem result_refuse (code : Nat) : ((s.refuse rq index sub code).rq rq).result = code := by
  obtain ⟨u, w, -, -, heq⟩ := refuse_steps s rq index sub code
  rw [heq, State.rq_answer]

/-- A refusal changes the counter of denied levels and the recorder beside the requester's outcome. -/
theorem refuse_frame (code : Nat) : Changes [.objs, .recd, .dict] s (s.refuse rq index sub code) ∧
    ChangesObjs [kAccDenied, kRecStatus, kRecDrops] s (s.refuse rq index sub code) ∧
    (s.refuse rq index sub code).dict.pendingWrites = s.dict.pendingWrites := by
  obtain ⟨u, w, hu, ⟨hrec, hrecObjs⟩, heq⟩ := refuse_steps s rq index sub code
  have hcount : Changes [.objs] s u ∧ ChangesObjs [kAccDenied] s u ∧ u.dict = s.dict := by
    rcases hu with rfl | rfl
    · exact ⟨.refl _ _, .refl _ _, rfl⟩
    · exact ⟨changes_setObj s _ _, changesObjs_setN s _ _, rfl⟩
  obtain ⟨hparts, hobjs, hdict⟩ := hcount
  have hw : w.dict = s.dict := (hrec.2 .dict (by decide)).trans hdict
  rw [heq]
  refine ⟨?_, ?_, (show (w.answer rq code).dict.pendingWrites = w.dict.pendingWrites from rfl).trans (congrArg _ hw)⟩
  · exact ((hparts.mono (by decide)).trans (hrec.mono (by decide))).trans ((changes_setRq w _).mono (by decide))
  · exact (hobjs.mono (by simp)).trans ((hrecObjs.mono (by simp)).trans (.of_objs rfl _))

variable {s rq index sub v}

theorem submitWrite_checked {code : Nat} (hserved : s.served rq = true) (hcheck : writeCheck s rq index sub v = code) (hzero : code ≠ 0)
    (hpending : code ≠ resPending) (own : State → Nat) (eff : State → State) :
    submitWrite rq index sub v own eff s = s.refuse rq index sub code := by
  simp [submitWrite, hserved, hcheck, hzero, hpending]

theorem runWrite_checked {code : Nat} (hserved : s.served rq = true) (hcheck : writeCheck s rq index sub v = code) (hzero : code ≠ 0)
    (hpending : code ≠ resPending) : runWrite rq index sub v s = s.refuse rq index sub code := by
  have hne : writeCheck s rq index sub v ≠ 0 := hcheck ▸ hzero
  unfold runWrite
  split
  next haccess =>
    have hindex : index = 0x0200 := by
      simp only [isAccess, Bool.and_eq_true, beq_iff_eq] at haccess
      exact haccess.1
    subst hindex
    rw [accessWrite, if_neg fun h => hne h.2.2.1, submitWrite_checked hserved hcheck hzero hpending]
  next =>
    rw [submitWrite_checked hserved hcheck hzero hpending]
    simp [afterWrite, hserved, hne, abType, abRange, abState, abBusy]

/-- A write that a check of the dictionary refuses: no code of those checks but OUT_OF_RANGE waits for a verification (R386, R453). -/
theorem performObject_checked {code : Nat} (hserved : s.served rq = true) (hcheck : writeCheck s rq index sub v = code)
    (hcode : code ∉ [0, resPending, abSignature, abRange]) : performObject rq index sub v s = s.refuse rq index sub code := by
  simp only [List.mem_cons, List.not_mem_nil, or_false, not_or] at hcode
  obtain ⟨hzero, hpending, hsignature, hrange⟩ := hcode
  have hrun := runWrite_checked hserved hcheck hzero hpending
  unfold performObject State.verifying
  dsimp only
  rw [hrun, result_refuse, if_neg (c := _ ∧ _ ∧ _) (by simp [hzero, hpending, hsignature, hrange]), ite_self]

end

/-! ### What an accepted write leaves with the requesters -/

/-- A requester's record after the read transfers of an object are closed (R400). -/
def closeRead (index sub : Nat) (r : RqSt) : RqSt :=
  match r.xfer with
  | some x => if !x.isWrite && !x.snapshot && x.index == index && x.sub == sub then { r with xfer := some { x with closed := true } } else r
  | none => r

theorem closeRead_cases (index sub : Nat) (r : RqSt) : ∃ x, closeRead index sub r = { r with xfer := x } := by
  unfold closeRead
  split
  · split
    · exact ⟨_, rfl⟩
    · exact ⟨r.xfer, rfl⟩
  · exact ⟨r.xfer, rfl⟩

theorem State.rq_closeReads (s : State) (index sub : Nat) (q : Requester) :
    (s.closeReads index sub).rq q = closeRead index sub (s.rq q) := by
  have hname (r : RqSt) : (closeRead index sub r).rq = r.rq := by
    obtain ⟨x, hx⟩ := closeRead_cases index sub r
    rw [hx]
  have hmap : (s.closeReads index sub).dict.rqs = s.dict.rqs.map (closeRead index sub) := rfl
  rw [State.rq, hmap, List.find?_map, State.rq]
  simp only [Function.comp_def, hname]
  cases s.dict.rqs.find? fun r => decide (r.rq = q) <;> rfl

theorem result_accepted (s : State) (rq : Requester) (index sub : Nat) : ((s.accepted rq index sub).rq rq).result = 0 := by
  rw [State.accepted, State.rq_closeReads, State.rq_answer]
  obtain ⟨x, hx⟩ := closeRead_cases index sub { s.rq rq with result := 0 }
  rw [hx]

/-! ### Objects that only store -/

/-- Objects that only store leave nothing beside their effect. -/
theorem bareWrite_plain {index sub : Nat} (h : PlainObject index sub) (hindex : index < 2 ^ 16) (hsub : sub < 2 ^ 8) :
    bareWrite index sub = true := by
  obtain ⟨hrange, hlist⟩ := h
  refine bareWrite_iff.mpr ⟨hindex, hsub, ?_, ?_, by omega, by omega, ?_, by omega⟩
  · by_contra haccess
    simp only [isAccess, Bool.not_eq_false, Bool.and_eq_true, beq_iff_eq, Bool.or_eq_true] at haccess
    obtain ⟨rfl, (rfl | rfl) | rfl⟩ := haccess <;> exact absurd (by decide) hlist
  · by_contra hverified
    simp only [isVerified, Bool.not_eq_false, List.contains_iff_mem, List.mem_cons, Prod.mk.injEq, List.not_mem_nil, or_false] at hverified
    rcases hverified with ⟨rfl, rfl⟩ | ⟨rfl, rfl⟩ | ⟨rfl, rfl⟩ | ⟨rfl, rfl⟩
    · exact absurd (by decide) hlist
    · omega
    · exact absurd (by decide) hlist
    · exact absurd (by decide) hlist
  · rintro ⟨rfl, hlow, hhigh⟩
    obtain rfl | rfl | rfl : sub = 3 ∨ sub = 4 ∨ sub = 5 := by omega
    all_goals exact absurd (by decide) hlist

/-- The object of the access code that levels are raised with, which is written and never read. -/
theorem acc_accECode : (objRow? 0x0200 0x03).map ObjRow.acc = some .wo := by decide

theorem effDevice_plain {index sub : Nat} (h : PlainObject index sub) (hcode : ¬(index = 0x0200 ∧ sub = 0x03)) (rq : Requester) (v : Bytes)
    (s : State) : effDevice rq index sub v s = storeWrite index sub v s := by
  obtain ⟨-, hlist⟩ := h
  unfold effDevice
  split
  case h_2 => exact absurd ⟨rfl, rfl⟩ hcode
  case h_39 => rfl
  all_goals exact absurd (by decide) hlist

theorem storeWrite_stores {index sub : Nat} {r : ObjRow} (hrow : objRow? index sub = some r) (hacc : r.acc = .rw ∨ r.acc = .rws)
    (v : Bytes) (s : State) : storeWrite index sub v s = s.setObj (objKey index sub) (cleanValue index sub v) := by
  unfold storeWrite
  rw [hrow]
  rcases hacc with hacc | hacc <;> simp [hacc, writtenValue]

/-- The effect of a write of an object that only stores: the object takes the value without its reserved bits (R388). -/
theorem writeEff_plain {index sub : Nat} {r : ObjRow} (h : PlainObject index sub) (hrow : objRow? index sub = some r)
    (hacc : r.acc = .rw ∨ r.acc = .rws) (rq : Requester) (v : Bytes) (s : State) :
    writeEff rq index sub v s = s.setObj (objKey index sub) (cleanValue index sub v) := by
  have hcode : ¬(index = 0x0200 ∧ sub = 0x03) := by
    rintro ⟨rfl, rfl⟩
    have hwo := acc_accECode
    rw [hrow] at hwo
    rcases hacc with hacc | hacc <;> simp [hacc] at hwo
  have hrange := h.1
  rw [writeEff, if_neg (by omega), if_neg (by omega), effDevice_plain h hcode, storeWrite_stores hrow hacc]

/-! ### The staged copy -/

/-- No access object, and none that is verified but the user kernel, is ever staged. -/
theorem staged_bare {index sub : Nat} {r : ObjRow} (hrow : objRow? index sub = some r) (hacc : r.acc = .rws)
    (hstage : r.writable.testBit 1 = true) (hkernel : ¬(index = 0x5000 ∧ sub = 0x0F)) :
    isAccess index sub = false ∧ isVerified index sub = false := by
  have hnever : ∀ p ∈ [(0x0200, 2), (0x0200, 4), (0x0200, 5), (0x7000, 8), (0x9000, 0x13)],
      (objRow? p.1 p.2).any (fun r => r.acc == .rws && r.writable.testBit 1) = false := by decide
  have hnot : (index, sub) ∉ [(0x0200, 2), (0x0200, 4), (0x0200, 5), (0x7000, 8), (0x9000, 0x13)] := fun hmem => by
    simpa [hrow, hacc, hstage] using hnever _ hmem
  simp only [List.mem_cons, Prod.mk.injEq, List.not_mem_nil, or_false, not_or, not_and] at hnot
  constructor
  · simp only [isAccess, Bool.and_eq_false_iff, Bool.or_eq_false_iff, beq_eq_false_iff_ne]
    omega
  · rw [isVerified, ← Bool.not_eq_true, List.contains_iff_mem]
    simp only [List.mem_cons, Prod.mk.injEq, List.not_mem_nil, or_false]
    omega

section
variable {rq : Requester} {index sub : Nat} {v : Bytes} {s : State}

/-- An accepted write leaves nothing beside its effect, unless it is that of the user kernel. -/
theorem afterWrite_accepted {own : State → Nat} (h : Allowed rq index sub v own s) (hown : writeOwn rq index sub v s = 0)
    (hkernel : ¬(index = 0x5000 ∧ sub = 0x0F)) (s' : State) : afterWrite rq index sub v s s' = s' := by
  obtain ⟨hserved, hcheck, -, -⟩ := h
  simp [afterWrite, hserved, hcheck, hown, hkernel, abRange, abState, abBusy]

/-- An accepted write of an object under configuration: its value in the staged copy, and what is forwarded. -/
theorem submitWrite_staged {own : State → Nat} {r : ObjRow} (h : Allowed rq index sub v own s) (hrow : objRow? index sub = some r)
    (hstaging : staging s r = true) (eff : State → State) :
    ∃ g, submitWrite rq index sub v own eff s = ((s.accepted rq index sub).stage (objKey index sub) v).onPair g := by
  obtain ⟨hserved, hcheck, hblock, hown⟩ := h
  have hstaging' : staging (s.accepted rq index sub) r = true := hstaging
  have hwrite : submitWrite rq index sub v own eff s =
      if rq = .partner then (s.accepted rq index sub).stage (objKey index sub) v
      else ((s.accepted rq index sub).stage (objKey index sub) v).forward
        ((s.accepted rq index sub).stage (objKey index sub) v).applyCycle (writeMsgBytes index sub v) := by
    rw [State.accepted] at hstaging' ⊢
    simp only [submitWrite, hserved, hcheck, hblock, hown, hrow, hstaging', Bool.not_true, Bool.false_eq_true, if_false, if_true, ne_eq,
      not_true_eq_false, false_and]
  rw [hwrite]
  split
  · exact ⟨id, rfl⟩
  · obtain ⟨g, -, hforward⟩ := ((s.accepted rq index sub).stage (objKey index sub) v).forward_traffic _ _
    exact ⟨g, hforward⟩

end

section
variable (s : State) (k : Nat) (v : Bytes)

theorem changes_stage : Changes [.staged] s (s.stage k v) :=
  ⟨rfl, fun p hp => by cases p <;> simp [Part.same, State.stage] at hp ⊢⟩

theorem cfg_stage_same : (s.stage k v).cfg k = cleanValue (k / 256) (k % 256) v := by
  simp [State.stage, State.cfg, storeFind_insert_same]

theorem cfg_stage_other {j : Nat} (h : j ≠ k) : (s.stage k v).cfg j = s.cfg j := by
  cases hstaged : s.staged <;> simp [State.stage, State.cfg, hstaged, storeFind_insert_other _ _ h, storeFind] <;> rfl

end

end Sys2Proof.Machine

namespace Sys2Proof

open Machine

/-- Settles O19: the checks in the order of `writeCheck`, the first that fails with its code. -/
theorem writeChecksInOrder : Obligations.WriteChecksInOrder := by
  intro s rq index sub v hserved hrecovery refused
  have refuses {code : Nat} (hcheck : writeCheck s rq index.toNat sub.toNat v = code)
      (hcode : code ∉ [0, resPending, abSignature, abRange]) : refused code := by
    obtain ⟨hframe, hobjs, hwrites⟩ := refuse_frame s rq index.toNat sub.toNat code
    exact ⟨_, congrArg Host.Outcome.next (performObject_checked hserved hcheck hcode), result_refuse .., hframe.2 .staged (by decide), hwrites,
      hobjs.mono (by simp)⟩
  refine ⟨fun hrow hindex => ?_, fun hrow hindex => ?_, fun r hrow => ?_⟩
  · exact refuses (by simp [writeCheck, hrow, hindex, abNoObject]) (by decide)
  · exact refuses (by simp [writeCheck, hrow, hindex, abNoSub]) (by decide)
  refine ⟨fun hro => ?_, fun hro hlevel => ?_, fun hro hlevel hlength => ?_, fun hrws hlevel hlength hstate => ?_,
    fun hro hlevel hlength hstate hstandby hpartner hpair hservice hcmd => ?_⟩
  · exact refuses (by simp [writeCheck, hrow, hrecovery, hro, abReadOnly]) (by decide)
  · exact refuses (by simp [writeCheck, hrow, hrecovery, hro, hlevel, abLevel]) (by decide)
  · exact refuses (by simp [writeCheck, hrow, hrecovery, hro, Nat.not_lt.mpr hlevel, hlength, abType]) (by decide)
  · exact refuses (by simp [writeCheck, hrow, hrecovery, hrws, Nat.not_lt.mpr hlevel, hlength, writableNow, hstate, abState]) (by decide)
  · have hkey : objKey index.toNat sub.toNat ≠ kDevCmd := by
      have hindex := index.isLt
      have hsub := sub.isLt
      unfold objKey kDevCmd
      bv_omega
    have hbusy : s.standbyBusy rq index.toNat (objKey index.toNat sub.toNat) = true := by
      have hpair' : index.toNat ≠ 0x7800 := by bv_omega
      simp [State.standbyBusy, standbyMay, hstandby, hpartner, hpair', hservice, hkey]
    have hnow : writableNow s r = true := by
      by_cases hrws : r.acc = .rws
      · simp [writableNow, hstate hrws]
      · simp [writableNow, hrws]
    exact refuses (by simp [writeCheck, hrow, hrecovery, hro, Nat.not_lt.mpr hlevel, hlength, hnow, hbusy, abBusy]) (by decide)

/-- Settles O20: the effect of the write is the one store, and what is forwarded touches the pair only. -/
theorem writeAtOnceStoresValue : Obligations.WriteAtOnceStoresValue := by
  intro s rq index sub v r hrow hacc hplain hallowed hdirect
  obtain ⟨g, hwrite⟩ := submitWrite_direct hallowed hdirect (writeEff rq index.toNat sub.toNat v)
  rw [writeEff_plain hplain hrow hacc] at hwrite
  have hframe := State.accepted_frame s rq index.toNat sub.toNat
  refine ⟨_, congrArg Host.Outcome.next ((performObject_bare rq v s (bareWrite_plain hplain index.isLt sub.isLt)).trans hwrite),
    State.obj_setObj_same .., result_accepted .., ?_, ?_⟩
  · exact (ChangesObjs.of_objs (hframe.2 .objs (by decide)) _).trans (changesObjs_setObj (s.accepted rq _ _) _ _)
  · exact ((hframe.mono (by decide)).trans ((changes_setObj _ _ _).mono (by decide))).trans ((changes_onPair _ g).mono (by decide))

/-- Settles O21: the write is `stage`, beside the acceptance and what is forwarded. -/
theorem writeInConfigIsStaged : Obligations.WriteInConfigIsStaged := by
  intro s rq index sub v r hrow hacc hstage hstate hsome hkernel hallowed
  have hkernel' : ¬(index.toNat = 0x5000 ∧ sub.toNat = 0x0F) := fun ⟨hi, hs⟩ =>
    hkernel ⟨BitVec.eq_of_toNat_eq hi, BitVec.eq_of_toNat_eq hs⟩
  have hstaging : staging s r = true := by simp [staging, hstate, hacc, hstage]
  obtain ⟨haccess, hverified⟩ := staged_bare hrow hacc hstage hkernel'
  obtain ⟨g, hwrite⟩ := submitWrite_staged hallowed hrow hstaging (writeEff rq index.toNat sub.toNat v)
  have hrun : performObject rq index.toNat sub.toNat v s =
      ((s.accepted rq index.toNat sub.toNat).stage (objKey index.toNat sub.toNat) v).onPair g := by
    rw [performObject, if_neg (by simp [hverified]), runWrite, if_neg (by simp [haccess]),
      afterWrite_accepted hallowed hallowed.2.2.2 hkernel', hwrite]
  obtain ⟨hindex, hsub⟩ := keyIndex_objKey (index := index.toNat) sub.isLt
  have hframe := State.accepted_frame s rq index.toNat sub.toNat
  refine ⟨_, congrArg Host.Outcome.next hrun, hframe.2 .objs (by decide), ?_, fun k hk => ?_, result_accepted .., ?_⟩
  · exact (cfg_stage_same ..).trans (by rw [← keyIndex, ← keySub, hindex, hsub])
  · exact cfg_stage_other (s.accepted rq index.toNat sub.toNat) _ v hk
  · exact ((hframe.mono (by decide)).trans ((changes_stage _ _ _).mono (by decide))).trans ((changes_onPair _ g).mono (by decide))

end Sys2Proof
end

section
/-! SUPPORT. Access levels (R390 to R393): the records that requesters keep, the three access objects, and the count of wrong codes. -/

namespace Sys2Proof.Machine

/-! ### Records of the requesters -/

theorem find?_putRq_other (e : RqSt) (l : List RqSt) {q : Requester} (h : q ≠ e.rq) :
    (putRq e l).find? (fun r => r.rq = q) = l.find? (fun r => r.rq = q) := by
  induction l with
  | nil => simp [putRq, Ne.symm h]
  | cons r l ih =>
    unfold putRq
    split
    next heq => simp [heq, Ne.symm h]
    next => simp [List.find?_cons, ih]

/-- What is kept for another requester. -/
theorem State.rq_setRq_other (s : State) (e : RqSt) {q : Requester} (h : q ≠ e.rq) : (s.setRq e).rq q = s.rq q := by
  simp [State.rq, State.setRq, find?_putRq_other e _ h]

theorem State.rq_update (s : State) {e : RqSt} {rq : Requester} (h : e.rq = rq) : (s.setRq e).rq rq = e := h ▸ s.rq_setRq_same e

theorem State.rq_answer_other (s : State) {rq q : Requester} (c : Nat) (h : q ≠ rq) : (s.answer rq c).rq q = s.rq q :=
  s.rq_setRq_other _ (by simpa using h)

theorem State.rq_accepted (s : State) (rq : Requester) (index sub : Nat) :
    ∃ x, (s.accepted rq index sub).rq rq = { s.rq rq with result := 0, xfer := x } := by
  obtain ⟨x, hx⟩ := closeRead_cases index sub { s.rq rq with result := 0 }
  exact ⟨x, by rw [State.accepted, State.rq_closeReads, State.rq_answer, hx]⟩

theorem State.rq_accepted_other (s : State) {rq q : Requester} (index sub : Nat) (h : q ≠ rq) :
    ∃ x, (s.accepted rq index sub).rq q = { s.rq q with xfer := x } := by
  obtain ⟨x, hx⟩ := closeRead_cases index sub (s.rq q)
  exact ⟨x, by rw [State.accepted, State.rq_closeReads, s.rq_answer_other 0 h, hx]⟩

/-- The base levels stand in one object. -/
theorem State.baseLevel_congr {s t : State} (h : t.obj kAccPathLevel = s.obj kAccPathLevel) (rq : Requester) :
    t.baseLevel rq = s.baseLevel rq := by
  cases rq <;> simp [State.baseLevel, State.sub, h]

theorem State.level_congr {s t : State} {rq : Requester} (h : t.obj kAccPathLevel = s.obj kAccPathLevel)
    (hraised : (t.rq rq).raised = (s.rq rq).raised) : t.level rq = s.level rq := by
  rw [State.level, State.level, hraised, State.baseLevel_congr h]

/-! ### Writes of the access objects -/

/-- The sub-indices of the access objects. -/
def accessSubs : List Nat := [0x02, 0x04, 0x05]

theorem isAccessWrite_access : ∀ sub ∈ accessSubs, isAccessWrite (objKey 0x0200 sub) = true := by decide

theorem objRow?_access {sub : Nat} (h : sub ∈ accessSubs) : ∃ r, objRow? 0x0200 sub = some r ∧ r.acc = .wo := by
  have hall : ∀ sub ∈ accessSubs, (objRow? 0x0200 sub).any (fun r => r.acc == .wo) = true := by decide
  obtain ⟨r, hrow, hacc⟩ := (Option.any_eq_true _ _).mp (hall sub h)
  exact ⟨r, hrow, by simpa using hacc⟩

section
variable {s : State} {rq : Requester} {sub : Nat} {v : Bytes}

/-- An accepted write of an access object takes effect at once and is not forwarded (R390). -/
theorem accessWrite_accepted (hsub : sub ∈ accessSubs) (hserved : s.served rq = true) (hcheck : writeCheck s rq 0x0200 sub v = 0)
    (hown : accessOwn rq sub v s = 0) : accessWrite rq sub v s = accessEff rq sub v (s.accepted rq 0x0200 sub) := by
  have haccess := isAccessWrite_access sub hsub
  obtain ⟨r, hrow, hacc⟩ := objRow?_access hsub
  have hstaging : staging (s.accepted rq 0x0200 sub) r = false := by simp [staging, hacc]
  have hdefer : deferring (s.accepted rq 0x0200 sub) (objKey 0x0200 sub) = false := by simp [deferring, haccess]
  have hblock : s.blockFailed 0x0200 sub = false := rfl
  rw [State.accepted] at hstaging hdefer ⊢
  simp [accessWrite, submitWrite, hserved, hcheck, hblock, hown, hrow, hstaging, hdefer, haccess]

/-- A wrong code is refused for its level and counted (R392). -/
theorem accessWrite_wrongCode (hserved : s.served rq = true) (hcheck : writeCheck s rq 0x0200 0x02 v = 0)
    (hown : unlockOwn rq v s = abLevel) : accessWrite rq 0x02 v s = ((s.inc kAccDenied).answer rq abLevel).wrongCode rq := by
  have hblock : s.blockFailed 0x0200 0x02 = false := rfl
  have hrefused : submitWrite rq 0x0200 0x02 v (accessOwn rq 0x02 v) (accessEff rq 0x02 v) s = (s.inc kAccDenied).answer rq abLevel := by
    have hown' : accessOwn rq 0x02 v s = abLevel := hown
    simp [submitWrite, hserved, hcheck, hblock, hown', State.refuse, abLevel, resPending, abState]
  have hown' : accessOwn rq 0x02 v s ≠ 0 := by rw [show accessOwn rq 0x02 v s = abLevel from hown]; decide
  rw [accessWrite, hrefused, if_pos ⟨rfl, hserved, hcheck, hown'⟩]

theorem unlockOwn_wrong (h : leVal v ≠ s.n kAccECode) : unlockOwn rq v s = abLevel := if_pos (.inr h)

theorem unlockOwn_lockout (h : (s.rq rq).lockout = true) : unlockOwn rq v s = abLevel := if_pos (.inl h)

theorem unlockOwn_right (hlockout : (s.rq rq).lockout = false) (h : leVal v = s.n kAccECode) : unlockOwn rq v s = 0 :=
  if_neg (by simp [hlockout, h])

/-- A wrong code counts, and no level changes; a requester that is locked out stays so (R392). -/
theorem wrongCode_record (s : State) (rq : Requester) :
    ∃ w l, (s.wrongCode rq).rq rq = { s.rq rq with wrong := w, lockout := l } ∧ ((s.rq rq).lockout = true → l = true) ∧
      (s.wrongCode rq).objs = s.objs ∧ Changes [.dict] s (s.wrongCode rq) := by
  unfold State.wrongCode
  dsimp only
  split
  · exact ⟨_, _, rfl, id, rfl, .refl _ _⟩
  next hopen =>
    split
    · exact ⟨[], true, s.rq_update (s.rq_rq rq), fun _ => rfl, rfl, changes_setRq _ _⟩
    · exact ⟨_, (s.rq rq).lockout, s.rq_update (s.rq_rq rq), id, rfl, changes_setRq _ _⟩

/-- The eighth wrong code within 60 s locks its requester out. -/
theorem wrongCode_eighth (hlockout : (s.rq rq).lockout = false)
    (h : 7 ≤ ((s.rq rq).wrong.filter (fun t => decide (s.recd.optime < t + 960))).length) :
    s.wrongCode rq = s.setRq { s.rq rq with wrong := [], lockout := true } := by
  unfold State.wrongCode
  dsimp only
  rw [if_neg (by simp [hlockout]), if_pos (by simpa using h)]

/-- What a wrong code leaves: the count of denied levels, and a requester of the same level. -/
theorem accUnlock_wrong (hserved : s.served rq = true) (hcheck : writeCheck s rq 0x0200 0x02 v = 0) (hown : unlockOwn rq v s = abLevel) :
    let t := accessWrite rq 0x02 v s
    (∃ w l, t.rq rq = { s.rq rq with result := abLevel, wrong := w, lockout := l } ∧ ((s.rq rq).lockout = true → l = true)) ∧
      t.objs = (s.inc kAccDenied).objs ∧ Changes [.objs, .dict] s t := by
  dsimp only
  rw [accessWrite_wrongCode hserved hcheck hown]
  obtain ⟨w, l, hrec, hkept, hobjs, hframe⟩ := wrongCode_record ((s.inc kAccDenied).answer rq abLevel) rq
  rw [State.rq_answer] at hrec hkept
  refine ⟨⟨w, l, hrec, hkept⟩, hobjs, ?_⟩
  exact (((changes_setObj s _ _).mono (by decide)).trans ((changes_setRq _ _).mono (by decide))).trans (hframe.mono (by decide))

end

end Sys2Proof.Machine

namespace Sys2Proof

open Machine

section
variable {s : State} {rq : Requester}

theorem accUnlock_raises {v : W32} (hserved : s.served rq = true) (hcheck : writeCheck s rq 0x0200 0x02 (le 4 v.toNat) = 0)
    (hlockout : (s.rq rq).lockout = false) (hcode : v.toNat = s.n kAccECode) :
    Completes (.accUnlock rq v) s (fun t => 1 ≤ t.level rq ∧ (t.rq rq).raised = max (s.rq rq).raised 1 ∧ (t.rq rq).result = 0 ∧
      (∀ q, q ≠ rq → t.level q = s.level q) ∧ t.objs = s.objs ∧ Changes [.dict] s t) := by
  have hown := unlockOwn_right hlockout ((leVal_word (n := 4) v).trans hcode)
  have hrun := accessWrite_accepted (sub := 0x02) (by decide) hserved hcheck hown
  obtain ⟨x, hrec⟩ := s.rq_accepted rq 0x0200 0x02
  have hframe := s.accepted_frame rq 0x0200 0x02
  have hobjs : (s.accepted rq 0x0200 0x02).objs = s.objs := hframe.2 .objs (by decide)
  have hsame : (unlockEff rq (s.accepted rq 0x0200 0x02)).rq rq =
      { s.rq rq with result := 0, xfer := x, raised := max (s.rq rq).raised 1 } := by
    rw [unlockEff, State.rq_update _ (by simp), hrec]
  refine ⟨_, congrArg Host.Outcome.next hrun, ?_, ?_, ?_, fun q hq => ?_, hobjs, hframe.trans (changes_setRq _ _)⟩
  · exact le_max_of_le_left (by simp [accessEff, hsame])
  · simp [accessEff, hsame]
  · simp [accessEff, hsame]
  · obtain ⟨y, hother⟩ := s.rq_accepted_other 0x0200 0x02 hq
    refine State.level_congr (State.obj_congr hobjs _) ?_
    simp only [accessEff, unlockEff]
    rw [State.rq_setRq_other _ _ (by simpa using hq), hother]

theorem accUnlock_denied {v : W32} (hserved : s.served rq = true) (hcheck : writeCheck s rq 0x0200 0x02 (le 4 v.toNat) = 0)
    (hcode : v.toNat ≠ s.n kAccECode) :
    Completes (.accUnlock rq v) s (fun t => t.level rq = s.level rq ∧ (t.rq rq).result = 0x00000201 ∧
      t.n kAccDenied = min (s.n kAccDenied + 1) (2 ^ 32 - 1) % 2 ^ 32 ∧ ChangesObjs [kAccDenied] s t ∧ Changes [.objs, .dict] s t) := by
  have hown := unlockOwn_wrong (rq := rq) (s := s) (fun h => hcode ((leVal_word (n := 4) v).symm.trans h))
  obtain ⟨⟨w, l, hrec, -⟩, hobjs, hframe⟩ := accUnlock_wrong hserved hcheck hown
  refine ⟨_, rfl, State.level_congr ?_ (by rw [accUnlock, hrec]), by rw [accUnlock, hrec]; rfl,
    (State.n_congr hobjs _).trans (n_accDenied_inc s), (changesObjs_setN s _ _).trans (.of_objs hobjs _), hframe⟩
  exact (State.obj_congr hobjs _).trans (State.obj_setObj_other s _ (by decide))

theorem accVToken_raises {d : Bytes} (hserved : s.served rq = true) (hcheck : writeCheck s rq 0x0200 0x04 d = 0) (hown : tokenOwn d s = 0)
    (hatt : s.sec.attNonce = none) :
    Completes (.accVToken rq d) s (fun t => 3 ≤ t.level rq ∧ (t.rq rq).vUntil = some (num d 12 8) ∧
      ChangesObjs [kRecStatus, kRecDrops] s t ∧ Changes [.objs, .dict, .recd] s t) := by
  have hrun : accVToken rq d s = tokenEff rq d (s.accepted rq 0x0200 0x04) := by
    rw [accVToken, State.verifying, if_neg (by simp [hatt])]
    exact accessWrite_accepted (sub := 0x04) (by decide) hserved hcheck hown
  have hframe := s.accepted_frame rq 0x0200 0x04
  obtain ⟨hrec, hrecObjs⟩ := record_recordOnly ((s.accepted rq 0x0200 0x04).setRq
    { (s.accepted rq 0x0200 0x04).rq rq with raised := 3, vUntil := some (num d 12 8) }) 0 0x0211 false _
  have hsame : (tokenEff rq d (s.accepted rq 0x0200 0x04)).rq rq =
      { (s.accepted rq 0x0200 0x04).rq rq with raised := 3, vUntil := some (num d 12 8) } :=
    (State.rq_congr (congrArg StDict.rqs (hrec.2 .dict (by decide))) rq).trans (State.rq_update _ (by simp))
  refine ⟨_, congrArg Host.Outcome.next hrun, le_max_of_le_left (by rw [hsame]), by rw [hsame], ?_, ?_⟩
  · exact (ChangesObjs.of_objs (hframe.2 .objs (by decide)) _).trans hrecObjs
  · exact ((hframe.mono (by decide)).trans ((changes_setRq _ _).mono (by decide))).trans (hrec.mono (by decide))

/-- Back at the base level (R392, R393). -/
theorem lockEff_lowers {t : State} (hframe : Changes [.dict] s t) :
    (lockEff rq t).level rq = s.baseLevel rq ∧ ((lockEff rq t).rq rq).vUntil = none ∧ (lockEff rq t).objs = s.objs ∧
      Changes [.dict] s (lockEff rq t) := by
  have hobjs : t.objs = s.objs := hframe.2 .objs (by decide)
  have hsame : (lockEff rq t).rq rq = { t.rq rq with raised := 0, vUntil := none } := State.rq_update _ (by simp)
  refine ⟨?_, by rw [hsame], hobjs, hframe.trans (changes_setRq _ _)⟩
  rw [State.level, hsame, Nat.zero_max]
  exact State.baseLevel_congr (State.obj_congr hobjs _) rq

theorem accLock_lowers (hserved : s.served rq = true) (hcheck : writeCheck s rq 0x0200 0x05 [1] = 0) :
    Completes (.accLock rq 1) s (fun t =>
      t.level rq = s.baseLevel rq ∧ (t.rq rq).vUntil = none ∧ t.objs = s.objs ∧ Changes [.dict] s t) :=
  ⟨_, congrArg Host.Outcome.next (accessWrite_accepted (sub := 0x05) (by decide) hserved hcheck rfl),
    lockEff_lowers (s.accepted_frame rq 0x0200 0x05)⟩

theorem tokenExpiry_lowers (h : (s.rq rq).vUntil.isSome = true) : Completes (.tokenExpiry rq) s (fun t =>
    t.level rq = s.baseLevel rq ∧ (t.rq rq).vUntil = none ∧ t.objs = s.objs ∧ Changes [.dict] s t) :=
  ⟨_, congrArg Host.Outcome.next (if_pos h), lockEff_lowers (.refl _ s)⟩

theorem accUnlock_locksOut {v : W32} (hserved : s.served rq = true) (hcheck : writeCheck s rq 0x0200 0x02 (le 4 v.toNat) = 0)
    (hlockout : (s.rq rq).lockout = false) (hcode : v.toNat ≠ s.n kAccECode)
    (hseven : 7 ≤ ((s.rq rq).wrong.filter (fun t => decide (s.recd.optime < t + 960))).length) :
    Completes (.accUnlock rq v) s (fun t => (t.rq rq).lockout = true ∧ (t.rq rq).result = 0x00000201) := by
  have hown := unlockOwn_wrong (rq := rq) (s := s) (fun h => hcode ((leVal_word (n := 4) v).symm.trans h))
  have hrun := accessWrite_wrongCode hserved hcheck hown
  have hans := State.rq_answer (s.inc kAccDenied) rq abLevel
  rw [wrongCode_eighth (by rw [hans]; exact hlockout) (by rw [hans]; exact hseven)] at hrun
  exact ⟨_, congrArg Host.Outcome.next hrun, by rw [State.rq_update _ (by simp)], by rw [State.rq_update _ (by simp), hans]; rfl⟩

theorem accUnlock_lockedOut {v : W32} (hserved : s.served rq = true) (hcheck : writeCheck s rq 0x0200 0x02 (le 4 v.toNat) = 0)
    (hlockout : (s.rq rq).lockout = true) :
    Completes (.accUnlock rq v) s (fun t => (t.rq rq).lockout = true ∧ (t.rq rq).raised = (s.rq rq).raised ∧
      (t.rq rq).result = 0x00000201) := by
  obtain ⟨⟨w, l, hrec, hkept⟩, -⟩ := accUnlock_wrong hserved hcheck (unlockOwn_lockout hlockout)
  exact ⟨_, rfl, by rw [accUnlock, hrec]; exact hkept hlockout, by rw [accUnlock, hrec], by rw [accUnlock, hrec]; rfl⟩

theorem accLockoutExpiry_unlocks (h : (s.rq rq).lockout = true) :
    Completes (.accLockoutExpiry rq) s (fun t => (t.rq rq).lockout = false ∧ t.objs = s.objs ∧ Changes [.dict] s t) :=
  ⟨_, congrArg Host.Outcome.next (if_pos h), by rw [State.rq_update _ (by simp)], rfl, changes_setRq _ _⟩

end

/-- Settles O23: one lemma per event that raises, lowers or locks a level. -/
theorem accessLevels : Obligations.AccessLevels :=
  ⟨fun _ _ hserved => ⟨fun _ hcheck hlockout hcode => accUnlock_raises hserved hcheck hlockout hcode,
      fun _ hcheck hcode => accUnlock_denied hserved hcheck hcode, fun _ hcheck hown hatt => accVToken_raises hserved hcheck hown hatt,
      fun hcheck => accLock_lowers hserved hcheck, fun h => tokenExpiry_lowers h⟩,
    fun _ _ _ hserved hcheck => ⟨fun hlockout hcode hseven => accUnlock_locksOut hserved hcheck hlockout hcode hseven,
      fun hlockout _ => accUnlock_lockedOut hserved hcheck hlockout, fun h => accLockoutExpiry_unlocks h⟩⟩

end Sys2Proof
end

section
/-! SUPPORT. Requests that are heard and executed at once: the state at the engine, and what each response leaves (R395 to R402). -/

namespace Sys2Proof.Machine

/-! ### The state at the engine -/

/-- A requester's record while its request is open. -/
def RqSt.asking (r : RqSt) (m : DictMsg) (owed : Bool) : RqSt :=
  { r with tid := some m.tid.toNat, response := none, openReq := some m, owed := owed }

/-- Whether a requester's path carries PENDING responses (R402). -/
def owesPending : Requester → Bool
  | .session _ _ => true
  | .node _ _ => true
  | _ => false

/-- The state in which the engine executes a request: its requester's record, the sessions, and the engine's count. -/
def State.atEngine (s : State) (e : RqSt) (l : List Session) : State :=
  { s with
    dict := { s.dict with sessions := l, rqs := putRq e s.dict.rqs }
    mon := { s.mon with served := s.mon.served + 1 } }

/-- A message as its operation names it. -/
def withOp (m : DictMsg) (op : Nat) : DictMsg := { m with op := BitVec.ofNat 8 op }

section
variable {s : State} {rq : Requester} {m : DictMsg}

theorem changes_atEngine (e : RqSt) (l : List Session) : Changes [.dict, .mon] s (s.atEngine e l) :=
  ⟨rfl, fun p hp => by cases p <;> simp [Part.same, State.atEngine] at hp ⊢⟩

theorem rq_atEngine (m : DictMsg) (b : Bool) (l : List Session) :
    (s.atEngine ((s.rq rq).asking m b) l).rq rq = (s.rq rq).asking m b := by
  have h := s.rq_update (e := (s.rq rq).asking m b) (rq := rq) (s.rq_rq rq)
  exact h

/-- No stage limits the engine: a request executes at once (R481). -/
theorem toEngine_free (h : s.n kShedStage = 0) (rq : Requester) (m : DictMsg) :
    s.toEngine rq m = (s.onMon (fun x => { x with served := x.served + 1 })).execMsg rq m := by
  rw [State.toEngine, if_neg (by omega)]

/-- A request of a new TID reaches the engine with its requester's record (R401, R402). -/
theorem request_new (l : List Session) (htid : (s.rq rq).tid ≠ some m.tid.toNat) (hopen : (s.rq rq).openReq = none)
    (hshed : s.n kShedStage = 0) : ({ s with dict := { s.dict with sessions := l } } : State).request rq m =
      (s.atEngine ((s.rq rq).asking m (owesPending rq)) l).execMsg rq m := by
  have hrq : ({ s with dict := { s.dict with sessions := l } } : State).rq rq = s.rq rq := rfl
  unfold State.request
  dsimp only
  rw [hrq, if_neg htid, if_neg (by simp [hopen]), toEngine_free (by exact hshed)]
  cases rq <;> rfl

/-- A heard message is executed at once, beside its requester's record. -/
theorem opMsg_heard (h : Heard rq m s) (op : Nat) : ∃ l, opMsg op rq m s =
    (s.atEngine ((s.rq rq).asking (withOp m op) (owesPending rq)) l).execMsg rq (withOp m op) := by
  obtain ⟨hserved, htid, hopen, hshed, -, -, hnode, hsession⟩ := h
  have hrequest (l : List Session) := request_new l (m := withOp m op) htid hopen hshed
  unfold opMsg handleMsg
  rw [if_neg (by simp [hserved])]
  split
  next r a => exact ⟨s.dict.sessions, (if_pos (hnode r a rfl)).trans (hrequest _)⟩
  next ip port =>
    obtain ⟨hserves, hany⟩ := hsession ip port rfl
    refine ⟨_, Eq.trans ?_ (hrequest (s.dict.sessions.map (fun x => if x.ip = ip ∧ x.port = port then { x with lastAt := s.recd.optime } else x)))⟩
    rw [if_neg (by simp [hserves]), State.openSession]
    dsimp only
    rw [if_pos hany]
    rfl
  next => exact ⟨s.dict.sessions, hrequest _⟩

/-- The engine executes a message that is not INDIRECT and whose data fit a segment by its operation. -/
theorem execMsg_ops (h : Heard rq m s) (e : RqSt) (l : List Session) :
    (s.atEngine e l).execMsg rq (withOp m 1) = (s.atEngine e l).execRead rq (withOp m 1) ∧
    (s.atEngine e l).execMsg rq (withOp m 2) = (s.atEngine e l).execWrite rq (withOp m 2) ∧
    (s.atEngine e l).execMsg rq (withOp m 3) = (s.atEngine e l).execSegRead rq (withOp m 3) ∧
    (s.atEngine e l).execMsg rq (withOp m 4) = (s.atEngine e l).execSegWrite rq (withOp m 4) ∧
    (s.atEngine e l).execMsg rq (withOp m 5) = (s.atEngine e l).execDesc rq (withOp m 5) ∧
    (s.atEngine e l).execMsg rq (withOp m 6) = (s.atEngine e l).execCancel rq (withOp m 6) := by
  obtain ⟨-, -, -, -, hdata, hindirect, -⟩ := h
  have hplain (op : Nat) :
      ¬(rq = .pcie ∧ (withOp m op).flags.toNat.testBit 1 ∧ ((withOp m op).op = 1 ∨ (withOp m op).op = 2)) := by
    rintro ⟨hpcie, hbit, -⟩
    rw [show (withOp m op).flags.toNat.testBit 1 = false from hindirect hpcie] at hbit
    cases hbit
  have hfits (op : Nat) : ¬(s.atEngine e l).segSize rq < (withOp m op).data.length := by
    have hsize : (s.atEngine e l).segSize rq = s.segSize rq := by cases rq <;> rfl
    rw [hsize]
    exact Nat.not_lt.mpr hdata
  refine ⟨?_, ?_, ?_, ?_, ?_, ?_⟩ <;>
  · unfold State.execMsg
    rw [if_neg (hplain _), if_neg (hfits _)]
    rfl

end

/-! ### A request at the engine -/

theorem mailbox?_congr {s t : State} (hsolver : t.solver = s.solver) (hsec : t.sec = s.sec) (index sub : Nat) :
    t.mailbox? index sub = s.mailbox? index sub := by
  unfold State.mailbox?
  rw [hsolver, hsec]

/-- The state `u` in which the engine executes a message, heard in the state `s`. -/
def AtEngine (rq : Requester) (m : DictMsg) (s u : State) : Prop := ∃ l, u = s.atEngine ((s.rq rq).asking m (owesPending rq)) l

namespace AtEngine
variable {s u : State} {rq : Requester} {m : DictMsg} (h : AtEngine rq m s u)
include h

theorem changes : Changes [.dict, .mon] s u := by
  obtain ⟨l, rfl⟩ := h
  exact changes_atEngine _ _

theorem rq_eq : u.rq rq = (s.rq rq).asking m (owesPending rq) := by
  obtain ⟨l, rfl⟩ := h
  exact rq_atEngine _ _ _

theorem segSize : u.segSize rq = s.segSize rq := by
  obtain ⟨l, rfl⟩ := h
  cases rq <;> rfl

theorem readCheck (index sub : Nat) : readCheck index sub u = Machine.readCheck index sub s := by
  obtain ⟨l, rfl⟩ := h
  rfl

theorem mailbox? (index sub : Nat) : u.mailbox? index sub = s.mailbox? index sub :=
  mailbox?_congr (h.changes.2 .solver (by decide)) (h.changes.2 .sec (by decide)) index sub

theorem queue? (index sub : Nat) : u.queue? index sub = s.queue? index sub := by
  obtain ⟨l, rfl⟩ := h
  rfl

end AtEngine

section
variable {s : State} {rq : Requester} {m : DictMsg}

/-- A heard message is executed in the state at the engine. -/
theorem heard_exec (h : Heard rq m s) {op : Nat} {f : State → Requester → DictMsg → State} {c : Instr}
    (hc : exec c s = .next (opMsg op rq m s))
    (hf : ∀ e l, (s.atEngine e l).execMsg rq (withOp m op) = f (s.atEngine e l) rq (withOp m op)) :
    ∃ u, AtEngine rq (withOp m op) s u ∧ exec c s = .next (f u rq (withOp m op)) := by
  obtain ⟨l, hl⟩ := opMsg_heard h op
  exact ⟨_, ⟨l, rfl⟩, hc.trans (congrArg _ (hl.trans (hf _ l)))⟩

theorem heard_read (h : Heard rq m s) : ∃ u, AtEngine rq (withOp m 1) s u ∧ exec (.read rq m) s = .next (u.execRead rq (withOp m 1)) :=
  heard_exec h rfl fun e l => (execMsg_ops h e l).1

theorem heard_write (h : Heard rq m s) : ∃ u, AtEngine rq (withOp m 2) s u ∧ exec (.write rq m) s = .next (u.execWrite rq (withOp m 2)) :=
  heard_exec h rfl fun e l => (execMsg_ops h e l).2.1

theorem heard_segRead (h : Heard rq m s) : ∃ u, AtEngine rq (withOp m 3) s u ∧ exec (.segRead rq m) s = .next (u.execSegRead rq (withOp m 3)) :=
  heard_exec h rfl fun e l => (execMsg_ops h e l).2.2.1

theorem heard_segWrite (h : Heard rq m s) : ∃ u, AtEngine rq (withOp m 4) s u ∧ exec (.segWrite rq m) s = .next (u.execSegWrite rq (withOp m 4)) :=
  heard_exec h rfl fun e l => (execMsg_ops h e l).2.2.2.1

theorem heard_desc (h : Heard rq m s) : ∃ u, AtEngine rq (withOp m 5) s u ∧ exec (.desc rq m) s = .next (u.execDesc rq (withOp m 5)) :=
  heard_exec h rfl fun e l => (execMsg_ops h e l).2.2.2.2.1

theorem heard_cancel (h : Heard rq m s) : ∃ u, AtEngine rq (withOp m 6) s u ∧ exec (.cancel rq m) s = .next (u.execCancel rq (withOp m 6)) :=
  heard_exec h rfl fun e l => (execMsg_ops h e l).2.2.2.2.2

end

/-! ### Responses -/

section
variable (s : State) (rq : Requester) (m : DictMsg)

theorem State.rq_respond : (s.respond rq m).rq rq = { s.rq rq with response := some m, openReq := none, owed := false } := by
  unfold State.respond
  rw [State.rq_congr (State.deliver_dict _ rq m).1]
  exact s.rq_update (s.rq_rq rq)

theorem State.rq_setXfer (x : Option Xfer) : (s.setXfer rq x).rq rq = { s.rq rq with xfer := x } := s.rq_update (s.rq_rq rq)

theorem changes_respond : Changes [.dict, .free] s (s.respond rq m) := (answerOnly_respond s rq m).1

theorem State.rq_fail (code : Nat) : (s.fail rq m code).rq rq =
    { s.rq rq with result := code, response := some (abortMsg m code), openReq := none, owed := false } := by
  rw [State.fail, State.rq_respond, State.rq_answer]

theorem changes_fail (code : Nat) : Changes [.dict, .free] s (s.fail rq m code) :=
  ((changes_setRq s _).mono (by decide)).trans (changes_respond _ rq _)

end

/-! ### Reads and descriptions -/

section
variable {s : State} {rq : Requester} {m : DictMsg}

/-- A read that a check refuses. -/
theorem execRead_refused (h : readCheck (mIndex m) (mSub m) s ≠ 0) (rq : Requester) :
    s.execRead rq m = s.fail rq m (readCheck (mIndex m) (mSub m) s) := if_pos h

theorem dequeue_none {index sub : Nat} (h : s.queue? index sub = none) (t : State) (v : Bytes) : t.dequeue index sub v = t := by
  unfold State.queue? at h
  unfold State.dequeue
  split at h
  · cases h
  next hevents =>
    split at h
    · cases h
    next hfifos => rw [if_neg hevents, if_neg hfifos]

/-- A counter is sampled by its read: its block and its overflow flag (R270). -/
theorem changes_sampled (s : State) (index sub : Nat) : Changes [.free, .objs, .cnts] s (s.sampled index sub) := by
  unfold State.sampled
  split
  · exact changes_slack s _
  · exact .refl _ s

theorem changesObjs_sampled (s : State) (index sub : Nat) : ChangesObjs [kCntOvf (index - 0x5410)] s (s.sampled index sub) := by
  unfold State.sampled
  split
  · exact changesObjs_slack s _
  · exact .refl _ s

theorem sampled_other {index : Nat} (h : ¬(0x5410 ≤ index ∧ index ≤ 0x5461)) (s : State) (sub : Nat) : s.sampled index sub = s :=
  if_neg fun hc => h ⟨hc.1, hc.2.1⟩

theorem readObject_plain {index sub : Nat} (h : s.mailbox? index sub = none) (rq : Requester) :
    s.readObject rq index sub = ((s.sampled index sub).view rq index sub, 0, s.sampled index sub) := by
  rw [State.readObject, h]

/-- A read of an object that is neither a mailbox nor a queue: beside the dictionary it samples the object, and the value stands in
the response where it fits a segment. -/
theorem execRead_plain (hcheck : readCheck (mIndex m) (mSub m) s = 0) (hmail : s.mailbox? (mIndex m) (mSub m) = none)
    (hqueue : s.queue? (mIndex m) (mSub m) = none) (rq : Requester) :
    (Changes [.dict, .free] s (s.execRead rq m) ∨ Changes [.dict, .free] (s.sampled (mIndex m) (mSub m)) (s.execRead rq m)) ∧
    (((s.sampled (mIndex m) (mSub m)).view rq (mIndex m) (mSub m)).length ≤ s.segSize rq →
      ((s.execRead rq m).rq rq).response = some (respMsg m 0x81 1 ((s.sampled (mIndex m) (mSub m)).view rq (mIndex m) (mSub m)).length
        ((s.sampled (mIndex m) (mSub m)).view rq (mIndex m) (mSub m)))) := by
  unfold State.execRead
  rw [readObject_plain hmail]
  dsimp only
  rw [if_neg (by simp [hcheck])]
  split
  next hfits =>
    rw [dequeue_none hqueue]
    exact ⟨.inr (((changes_setRq _ _).mono (by decide)).trans (changes_respond _ _ _)), fun _ => by rw [State.rq_respond]⟩
  next hlong =>
    refine ⟨?_, fun h => absurd h hlong⟩
    split
    · exact .inl (changes_fail _ _ _ _)
    · split
      · exact .inl (changes_fail _ _ _ _)
      · exact .inr ((((changes_setRq _ _).mono (by decide)).trans ((changes_setRq _ _).mono (by decide))).trans (changes_respond _ _ _))

theorem execDesc_row {r : ObjRow} (hrow : objRow? (mIndex m) (mSub m) = some r) (hrecovery : s.bit kSecStatus 0 = false) (rq : Requester) :
    s.execDesc rq m = (s.answer rq 0).respond rq (respMsg m 0x85 1 0 (describe r)) := by
  rw [State.execDesc, hrow]
  exact if_neg (by simp [hrecovery])

/-- The next segment of a snapshot that has more than one to come. -/
theorem execSegRead_next {x : Xfer} (hxfer : (s.rq rq).xfer = some x) (hread : x.isWrite = false) (hindex : x.index = mIndex m)
    (hsub : x.sub = mSub m) (hopen : x.closed = false) (hsnap : x.snapshot = true) (hnext : m.param.toNat = x.next)
    (hmore : s.segSize rq * (x.next + 1) < x.total) :
    s.execSegRead rq m = (s.setXfer rq (some { x with next := x.next + 1 })).respond rq
      (respMsg m 0x83 x.flags x.next ((x.data.drop (s.segSize rq * x.next)).take (s.segSize rq))) := by
  unfold State.execSegRead
  rw [hxfer]
  dsimp only
  rw [if_neg (by simp [hread, hindex, hsub]), if_neg (by simp [hopen]), if_neg (by simp [hnext]), if_neg (Nat.not_le.mpr hmore)]
  simp only [hsnap, if_true]

end

/-! ### Heard reads -/

/-- What a read leaves of a state: the objects, but that the overflow flags of a sampled counter may be set (log entry 40). -/
def ReadFrame (m : DictMsg) (s t : State) : Prop :=
  (¬(0x5410 ≤ m.index.toNat ∧ m.index.toNat ≤ 0x5461) → t.objs = s.objs) ∧
    (0x5410 ≤ m.index.toNat ∧ m.index.toNat ≤ 0x5461 → ChangesObjs [kCntOvf (m.index.toNat - 0x5410)] s t) ∧
    Changes [.dict, .mon, .free, .cnts, .objs] s t

section
variable {s t u : State} {m : DictMsg}

theorem ReadFrame.of_changes (h : Changes [.dict, .mon, .free] s t) (m : DictMsg) : ReadFrame m s t := by
  have hobjs : t.objs = s.objs := h.2 .objs (by decide)
  exact ⟨fun _ => hobjs, fun _ => .of_objs hobjs _, h.mono (by decide)⟩

theorem ReadFrame.trans (h : ReadFrame m s t) (h' : ReadFrame m t u) : ReadFrame m s u :=
  ⟨fun hc => (h'.1 hc).trans (h.1 hc), fun hc => (h.2.1 hc).trans (h'.2.1 hc), h.2.2.trans h'.2.2⟩

theorem readFrame_sampled (s : State) (m : DictMsg) : ReadFrame m s (s.sampled m.index.toNat m.sub.toNat) := by
  refine ⟨fun hc => ?_, fun _ => changesObjs_sampled s _ _, (changes_sampled s _ _).mono (by decide)⟩
  rw [sampled_other hc]

end

section
variable {s : State} {rq : Requester} {m : DictMsg}

theorem read_answers (h : Heard rq m s) (hcheck : readCheck m.index.toNat m.sub.toNat s = 0)
    (hmail : s.mailbox? m.index.toNat m.sub.toNat = none) (hqueue : s.queue? m.index.toNat m.sub.toNat = none) :
    Completes (.read rq m) s (fun t => ReadFrame m s t ∧ ∃ u : State, ReadFrame m s u ∧
      ((u.view rq m.index.toNat m.sub.toNat).length ≤ s.segSize rq →
        (t.rq rq).response = some (answerTo m 0x81 1 (BitVec.ofNat 32 (u.view rq m.index.toNat m.sub.toNat).length)
          (u.view rq m.index.toNat m.sub.toNat)))) := by
  obtain ⟨u, hu, hexec⟩ := heard_read h
  have hengine : ReadFrame m s u := .of_changes (hu.changes.mono (by decide)) m
  have hsampled := hengine.trans (readFrame_sampled u m)
  obtain ⟨hframe, hresp⟩ := execRead_plain (m := withOp m 1) ((hu.readCheck _ _).trans hcheck) ((hu.mailbox? _ _).trans hmail)
    ((hu.queue? _ _).trans hqueue) rq
  refine ⟨_, hexec, ?_, _, hsampled, fun hfits => hresp (hu.segSize ▸ hfits)⟩
  rcases hframe with hsame | hsame
  · exact hengine.trans (.of_changes (hsame.mono (by decide)) m)
  · exact hsampled.trans (.of_changes (hsame.mono (by decide)) m)

theorem read_refused (h : Heard rq m s) (hcheck : readCheck m.index.toNat m.sub.toNat s ≠ 0) :
    Completes (.read rq m) s (fun t => t.objs = s.objs ∧ (t.rq rq).result = readCheck m.index.toNat m.sub.toNat s ∧
      (t.rq rq).response = some (answerTo m 0x7F 1 (BitVec.ofNat 32 (readCheck m.index.toNat m.sub.toNat s)) [])) := by
  obtain ⟨u, hu, hexec⟩ := heard_read h
  have hsame : readCheck (mIndex (withOp m 1)) (mSub (withOp m 1)) u = readCheck m.index.toNat m.sub.toNat s := hu.readCheck _ _
  rw [execRead_refused (hsame ▸ hcheck), hsame] at hexec
  refine ⟨_, hexec, ((changes_fail _ _ _ _).2 .objs (by decide)).trans (hu.changes.2 .objs (by decide)), ?_, ?_⟩ <;> rw [State.rq_fail]
  rfl

theorem desc_answers (h : Heard rq m s) {r : ObjRow} (hrow : objRow? m.index.toNat m.sub.toNat = some r)
    (hrecovery : s.bit kSecStatus 0 = false) :
    Completes (.desc rq m) s (fun t => t.objs = s.objs ∧ (t.rq rq).response = some (answerTo m 0x85 1 0 (describe r))) := by
  obtain ⟨u, hu, hexec⟩ := heard_desc h
  have hobjs : u.objs = s.objs := hu.changes.2 .objs (by decide)
  have hrecovery' : u.bit kSecStatus 0 = false := by rw [State.bit, State.n_congr hobjs]; exact hrecovery
  rw [execDesc_row (m := withOp m 5) hrow hrecovery'] at hexec
  exact ⟨_, hexec, ((changes_respond _ _ _).2 .objs (by decide)).trans hobjs, by rw [State.rq_respond]; rfl⟩

theorem segRead_answers (h : Heard rq m s) {x : Xfer} (hxfer : (s.rq rq).xfer = some x) (hread : x.isWrite = false)
    (hindex : x.index = m.index.toNat) (hsub : x.sub = m.sub.toNat) (hopen : x.closed = false) (hsnap : x.snapshot = true)
    (hnext : m.param.toNat = x.next) (hmore : s.segSize rq * (x.next + 1) < x.total) :
    Completes (.segRead rq m) s (fun t => t.objs = s.objs ∧ (t.rq rq).xfer = some { x with next := x.next + 1 } ∧
      (t.rq rq).response = some (answerTo m 0x83 (BitVec.ofNat 8 x.flags) m.param
        ((x.data.drop (s.segSize rq * x.next)).take (s.segSize rq)))) := by
  obtain ⟨u, hu, hexec⟩ := heard_segRead h
  have hobjs : u.objs = s.objs := hu.changes.2 .objs (by decide)
  have hxfer' : (u.rq rq).xfer = some x := by rw [hu.rq_eq]; exact hxfer
  rw [execSegRead_next (m := withOp m 3) hxfer' hread hindex hsub hopen hsnap hnext (hu.segSize ▸ hmore), hu.segSize] at hexec
  have hparam : BitVec.ofNat 32 x.next = m.param := by rw [← hnext]; simp
  refine ⟨_, hexec, ((changes_respond _ _ _).2 .objs (by decide)).trans hobjs, ?_, ?_⟩ <;> rw [State.rq_respond]
  · rw [State.rq_setXfer]
  · rw [← hparam]
    rfl

end

end Sys2Proof.Machine

namespace Sys2Proof

open Machine

/-- Settles O24: one lemma per message; the state of which the value is read is the one in which the object has been sampled. -/
theorem readsAnswer : Obligations.ReadsAnswer := fun _ _ _ h =>
  ⟨read_answers h, read_refused h, fun _ hrow hrecovery => desc_answers h hrow hrecovery,
    fun _ hxfer hread hindex hsub hopen hsnap hnext hmore => segRead_answers h hxfer hread hindex hsub hopen hsnap hnext hmore⟩

end Sys2Proof
end

section
/-! SUPPORT. Write transfers, whole values, and the repeat of a TID (R388, R396, R399, R401). -/

namespace Sys2Proof.Machine

/-! ### Open transfers at the engine -/

theorem any_putRq (p : RqSt → Bool) (e : RqSt) (hp : ∀ r, r.rq = e.rq → p r = false) (l : List RqSt) : (putRq e l).any p = l.any p := by
  induction l with
  | nil => simp [putRq, hp e rfl]
  | cons r l ih =>
    unfold putRq
    split
    next heq => simp [hp e rfl, hp r heq]
    next => simp [ih]

/-- A replaced record of the same kind leaves the number of the records of that kind. -/
theorem length_filter_putRq (p : RqSt → Bool) (e d : RqSt) (hd : p d = false) (l : List RqSt)
    (he : p e = p ((l.find? (fun r => r.rq = e.rq)).getD d)) : ((putRq e l).filter p).length = (l.filter p).length := by
  induction l with
  | nil => simp [putRq, show p e = false from he.trans hd]
  | cons r l ih =>
    unfold putRq
    by_cases heq : r.rq = e.rq
    · have hr : p e = p r := by simpa [heq] using he
      rw [if_pos heq]
      simp only [List.filter_cons, hr]
      split <;> rfl
    · have hl := ih (by simpa [heq] using he)
      rw [if_neg heq]
      simp only [List.filter_cons]
      split <;> simp [hl]

namespace AtEngine
variable {s u : State} {rq : Requester} {m : DictMsg} (h : AtEngine rq m s u)
include h

theorem xferBusy (index sub : Nat) : u.xferBusy rq index sub = s.xferBusy rq index sub := by
  obtain ⟨l, rfl⟩ := h
  exact any_putRq _ _ (fun r hr => by simp [hr, RqSt.asking]) _

theorem openXfers : u.openXfers = s.openXfers := by
  obtain ⟨l, rfl⟩ := h
  refine length_filter_putRq _ _ (freshRq rq) rfl _ ?_
  rw [show ((s.rq rq).asking m (owesPending rq)).rq = rq from s.rq_rq rq]
  rfl

theorem level : u.level rq = s.level rq :=
  State.level_congr (State.obj_congr (h.changes.2 .objs (by decide)) _) (by rw [h.rq_eq]; rfl)

theorem writeCheck (index sub : Nat) (v : Bytes) : writeCheck u rq index sub v = Machine.writeCheck s rq index sub v := by
  have hlevel := h.level
  have hbusy := h.xferBusy index sub
  obtain ⟨l, rfl⟩ := h
  simp only [Machine.writeCheck, hlevel, hbusy]
  rfl

theorem ownDevice (index sub : Nat) (v : Bytes) : ownDevice rq index sub v u = Machine.ownDevice rq index sub v s := by
  have hlevel := h.level
  obtain ⟨l, rfl⟩ := h
  unfold Machine.ownDevice
  split
  case h_1 =>
    simp only [devCmdOwn, hlevel]
    rfl
  all_goals rfl

end AtEngine

/-! ### Transfers (R399) -/

section
variable {s : State} {rq : Requester} {m : DictMsg}

/-- The transfer that a WRITE without LAST opens. -/
def openedXfer (s : State) (m : DictMsg) : Xfer :=
  { index := mIndex m, sub := mSub m, isWrite := true, data := m.data, snapshot := false, total := m.param.toNat, next := 1,
    closed := false, staged := match objRow? (mIndex m) (mSub m) with
      | some o => staging s o
      | none => false
    flags := 0 }

theorem execWrite_opens (hlast : mLast m = false) (hxfer : (s.rq rq).xfer = none) (hbusy : s.xferBusy rq (mIndex m) (mSub m) = false)
    (hfree : s.openXfers < 16) (himage : ¬(mIndex m = 0x9000 ∧ 3 ≤ mSub m ∧ mSub m ≤ 5)) :
    s.execWrite rq m = (s.setXfer rq (some (openedXfer s m))).respond rq (respMsg m 0x82 1 0 []) := by
  have hof : imageOf (mIndex m) (mSub m) = 0 := if_neg himage
  unfold State.execWrite
  dsimp only
  rw [if_neg (by simp [hlast]), if_neg (by simp [hxfer, hbusy]), if_neg (Nat.not_le.mpr hfree), if_neg (by simp [hof])]
  rfl

variable {x : Xfer} (hxfer : (s.rq rq).xfer = some x) (hwrite : x.isWrite = true) (hindex : x.index = mIndex m) (hsub : x.sub = mSub m)
include hxfer hwrite hindex hsub

theorem execSegWrite_next (hlast : mLast m = false) (hnext : m.param.toNat = x.next) :
    s.execSegWrite rq m = (s.setXfer rq (some { x with data := x.data ++ m.data, next := x.next + 1 })).respond rq
      (respMsg m 0x84 1 x.next []) := by
  unfold State.execSegWrite
  rw [hxfer]
  dsimp only
  rw [if_neg (by simp [hwrite, hindex, hsub]), if_pos hnext, if_neg (by simp [hlast])]

theorem execSegWrite_again (htwo : 2 ≤ x.next) (hlast : m.param.toNat + 1 = x.next) :
    s.execSegWrite rq m = s.respond rq (respMsg m 0x84 1 m.param.toNat []) := by
  unfold State.execSegWrite
  rw [hxfer]
  dsimp only
  rw [if_neg (by simp [hwrite, hindex, hsub]), if_neg (by omega), if_pos ⟨htwo, hlast⟩]

theorem execSegWrite_other (hnext : m.param.toNat ≠ x.next) (hlast : ¬(2 ≤ x.next ∧ m.param.toNat + 1 = x.next)) :
    s.execSegWrite rq m = s.fail rq m abRange := by
  unfold State.execSegWrite
  rw [hxfer]
  dsimp only
  rw [if_neg (by simp [hwrite, hindex, hsub]), if_neg hnext, if_neg hlast]

omit hwrite in
theorem execCancel_open : s.execCancel rq m = ((s.setXfer rq none).answer rq 0).respond rq (respMsg m 0x86 1 0 []) := by
  unfold State.execCancel
  rw [hxfer]
  dsimp only
  rw [if_pos ⟨hindex, hsub⟩]

end

section
variable {s : State} {rq : Requester} {m : DictMsg}

theorem write_opens (h : Heard rq m s) (hlast : m.flags.toNat.testBit 0 = false) (hxfer : (s.rq rq).xfer = none)
    (hbusy : s.xferBusy rq m.index.toNat m.sub.toNat = false) (hfree : s.openXfers < 16)
    (himage : ¬(m.index = 0x9000 ∧ 3 ≤ m.sub.toNat ∧ m.sub.toNat ≤ 5)) :
    Completes (.write rq m) s (fun t => t.objs = s.objs ∧ (t.rq rq).response = some (answerTo m 0x82 1 0 []) ∧
      ∃ x, (t.rq rq).xfer = some x ∧ x.isWrite = true ∧ x.data = m.data ∧ x.total = m.param.toNat ∧ x.next = 1 ∧
        x.index = m.index.toNat ∧ x.sub = m.sub.toNat) := by
  obtain ⟨u, hu, hexec⟩ := heard_write h
  have himage' : ¬(mIndex (withOp m 2) = 0x9000 ∧ 3 ≤ mSub (withOp m 2) ∧ mSub (withOp m 2) ≤ 5) :=
    fun hc => himage ⟨BitVec.eq_of_toNat_eq hc.1, hc.2⟩
  rw [execWrite_opens (m := withOp m 2) hlast (by rw [hu.rq_eq]; exact hxfer) ((hu.xferBusy _ _).trans hbusy) (hu.openXfers ▸ hfree)
    himage'] at hexec
  refine ⟨_, hexec, ((changes_respond _ _ _).2 .objs (by decide)).trans (hu.changes.2 .objs (by decide)), by rw [State.rq_respond]; rfl,
    openedXfer u (withOp m 2), by rw [State.rq_respond, State.rq_setXfer], rfl, rfl, rfl, rfl, rfl, rfl⟩

section
variable {x : Xfer} (h : Heard rq m s) (hxfer : (s.rq rq).xfer = some x) (hindex : x.index = m.index.toNat) (hsub : x.sub = m.sub.toNat)
include h hxfer hindex hsub

theorem segWrite_adds (hwrite : x.isWrite = true) (hlast : m.flags.toNat.testBit 0 = false) (hnext : m.param.toNat = x.next) :
    Completes (.segWrite rq m) s (fun t => t.objs = s.objs ∧
      (t.rq rq).xfer = some { x with data := x.data ++ m.data, next := x.next + 1 } ∧
      (t.rq rq).response = some (answerTo m 0x84 1 m.param [])) := by
  obtain ⟨u, hu, hexec⟩ := heard_segWrite h
  rw [execSegWrite_next (m := withOp m 4) (by rw [hu.rq_eq]; exact hxfer) hwrite hindex hsub hlast hnext] at hexec
  have hparam : BitVec.ofNat 32 x.next = m.param := by rw [← hnext]; simp
  refine ⟨_, hexec, ((changes_respond _ _ _).2 .objs (by decide)).trans (hu.changes.2 .objs (by decide)), ?_, ?_⟩ <;> rw [State.rq_respond]
  · rw [State.rq_setXfer]
    rfl
  · rw [← hparam]
    rfl

theorem segWrite_again (hwrite : x.isWrite = true) (htwo : 2 ≤ x.next) (hlast : m.param.toNat + 1 = x.next) :
    Completes (.segWrite rq m) s (fun t => t.objs = s.objs ∧ (t.rq rq).xfer = some x ∧
      (t.rq rq).response = some (answerTo m 0x84 1 m.param [])) := by
  obtain ⟨u, hu, hexec⟩ := heard_segWrite h
  rw [execSegWrite_again (m := withOp m 4) (by rw [hu.rq_eq]; exact hxfer) hwrite hindex hsub htwo hlast] at hexec
  have hparam : BitVec.ofNat 32 m.param.toNat = m.param := by simp
  refine ⟨_, hexec, ((changes_respond _ _ _).2 .objs (by decide)).trans (hu.changes.2 .objs (by decide)), ?_, ?_⟩ <;> rw [State.rq_respond]
  · rw [hu.rq_eq]
    exact hxfer
  · exact congrArg (fun p => some (answerTo m 0x84 1 p [])) hparam

theorem segWrite_other (hwrite : x.isWrite = true) (hnext : m.param.toNat ≠ x.next) (hlast : ¬(2 ≤ x.next ∧ m.param.toNat + 1 = x.next)) :
    Completes (.segWrite rq m) s (fun t => t.objs = s.objs ∧ (t.rq rq).xfer = some x ∧
      (t.rq rq).response = some (answerTo m 0x7F 1 0x00000302 [])) := by
  obtain ⟨u, hu, hexec⟩ := heard_segWrite h
  rw [execSegWrite_other (m := withOp m 4) (by rw [hu.rq_eq]; exact hxfer) hwrite hindex hsub hnext hlast] at hexec
  refine ⟨_, hexec, ((changes_fail _ _ _ _).2 .objs (by decide)).trans (hu.changes.2 .objs (by decide)), ?_, ?_⟩ <;> rw [State.rq_fail]
  · rw [hu.rq_eq]
    exact hxfer
  · rfl

theorem cancel_closes : Completes (.cancel rq m) s (fun t => t.objs = s.objs ∧ (t.rq rq).xfer = none ∧
    (t.rq rq).response = some (answerTo m 0x86 1 0 [])) := by
  obtain ⟨u, hu, hexec⟩ := heard_cancel h
  rw [execCancel_open (m := withOp m 6) (by rw [hu.rq_eq]; exact hxfer) hindex hsub] at hexec
  refine ⟨_, hexec, ((changes_respond _ _ _).2 .objs (by decide)).trans (hu.changes.2 .objs (by decide)), ?_, ?_⟩ <;> rw [State.rq_respond]
  · rw [State.rq_answer, State.rq_setXfer]
  · rfl

end

theorem xferTimeout_closes (h : (s.rq rq).xfer.isSome = true) : Completes (.xferTimeout rq) s (fun t =>
    (t.rq rq).xfer = none ∧ (∀ q, q ≠ rq → t.rq q = s.rq q) ∧ t.objs = s.objs ∧ Changes [.dict] s t) :=
  ⟨_, congrArg Host.Outcome.next (if_pos h), by rw [State.rq_setXfer], fun q hq => State.rq_setRq_other _ _ (by simpa using hq), rfl,
    changes_setRq _ _⟩

/-! ### The repeat of a TID (R401) -/

theorem opMsg_repeat {a : DictMsg} (hserved : s.served rq = true) (htid : (s.rq rq).tid = some m.tid.toNat)
    (hkept : (s.rq rq).response = some a) (hsession : ∀ ip port, rq ≠ .session ip port)
    (hnode : ∀ r n, rq = .node r n → m.dest.toNat = s.ownAddr) (op : Nat) : opMsg op rq m s = s.deliver rq a := by
  have hrequest : s.request rq (withOp m op) = s.deliver rq a := by
    unfold State.request
    dsimp only
    rw [if_pos (by exact htid), hkept]
  unfold opMsg handleMsg
  rw [if_neg (by simp [hserved])]
  cases rq with
  | node r n => exact (if_pos (hnode r n rfl)).trans hrequest
  | session ip port => exact absurd rfl (hsession ip port)
  | _ => exact hrequest

end

end Sys2Proof.Machine

namespace Sys2Proof

open Machine

/-- Settles O25: one lemma per message of a transfer, and the timeout. -/
theorem writeTransfers : Obligations.WriteTransfers := fun _ _ _ =>
  ⟨fun h => ⟨fun hlast hxfer hbusy hfree himage => write_opens h hlast hxfer hbusy hfree himage, fun _ hxfer hwrite hindex hsub =>
      ⟨fun hlast hnext => segWrite_adds h hxfer hindex hsub hwrite hlast hnext,
        fun htwo hlast => segWrite_again h hxfer hindex hsub hwrite htwo hlast,
        fun hnext hlast => segWrite_other h hxfer hindex hsub hwrite hnext hlast, cancel_closes h hxfer hindex hsub⟩⟩,
    xferTimeout_closes⟩

/-- Settles O27: each of the six messages delivers the kept response. -/
theorem repeatedTidNotExecuted : Obligations.RepeatedTidNotExecuted := by
  intro s rq m a hserved htid hkept hsession hnode c hc
  have hdict := s.deliver_dict rq a
  have hexec : exec c s = .next (s.deliver rq a) := by
    have hrun (op : Nat) := opMsg_repeat (m := m) hserved htid hkept hsession hnode op
    simp only [List.mem_cons, List.not_mem_nil, or_false] at hc
    rcases hc with rfl | rfl | rfl | rfl | rfl | rfl <;> exact congrArg Host.Outcome.next (hrun _)
  have hframe := deliver_frame s rq a
  exact ⟨_, hexec, rfl, hframe.2 .objs (by decide), hdict.1, by cases rq <;> rfl, hframe⟩

end Sys2Proof
end

section
/-! SUPPORT. A WRITE message of a whole value to an object that only stores it (R388, R396, R399). -/

namespace Sys2Proof.Machine

/-- A write that takes effect at once, of an object that only stores: its value in the object, and what is forwarded. -/
theorem performObject_plain {s : State} {rq : Requester} {index sub : Nat} {v : Bytes} {r : ObjRow} (hindex : index < 2 ^ 16)
    (hsub : sub < 2 ^ 8) (hrow : objRow? index sub = some r) (hacc : r.acc = .rw ∨ r.acc = .rws) (hplain : PlainObject index sub)
    (h : Allowed rq index sub v (writeOwn rq index sub v) s) (hdirect : Direct index sub s) :
    ∃ g, performObject rq index sub v s =
      ((s.accepted rq index sub).setObj (objKey index sub) (cleanValue index sub v)).onPair g := by
  obtain ⟨g, hwrite⟩ := submitWrite_direct h hdirect (writeEff rq index sub v)
  rw [writeEff_plain hplain hrow hacc] at hwrite
  exact ⟨g, (performObject_bare rq v s (bareWrite_plain hplain hindex hsub)).trans hwrite⟩

/-- Its frame. -/
theorem changes_plainWrite (s : State) (rq : Requester) (index sub : Nat) (v : Bytes) (g : StPair → StPair) :
    Changes [.objs, .dict, .pair] s (((s.accepted rq index sub).setObj (objKey index sub) v).onPair g) ∧
    ChangesObjs [objKey index sub] s (((s.accepted rq index sub).setObj (objKey index sub) v).onPair g) := by
  have hframe := State.accepted_frame s rq index sub
  constructor
  · exact ((hframe.mono (by decide)).trans ((changes_setObj _ _ _).mono (by decide))).trans ((changes_onPair _ g).mono (by decide))
  · exact (ChangesObjs.of_objs (hframe.2 .objs (by decide)) _).trans (changesObjs_setObj (s.accepted rq index sub) _ _)

namespace AtEngine
variable {s u : State} {rq : Requester} {m : DictMsg} (h : AtEngine rq m s u)
include h

theorem direct {index sub : Nat} (hdirect : Direct index sub s) : Direct index sub u := by
  obtain ⟨l, rfl⟩ := h
  exact hdirect

/-- What lets a write of a plain object through before the engine has it lets it through at the engine. -/
theorem allowed {index sub : Nat} {v : Bytes} (hplain : PlainObject index sub) (hallowed : Allowed rq index sub v (writeOwn rq index sub v) s) :
    Allowed rq index sub v (writeOwn rq index sub v) u := by
  obtain ⟨hserved, hcheck, hblock, hown⟩ := hallowed
  have hrange := hplain.1
  have hdevice (t : State) : writeOwn rq index sub v t = Machine.ownDevice rq index sub v t := by
    rw [writeOwn, if_neg (by omega), if_neg (by omega)]
  refine ⟨?_, (h.writeCheck index sub v).trans hcheck, ?_, by rw [hdevice, h.ownDevice, ← hdevice, hown]⟩ <;> obtain ⟨l, rfl⟩ := h
  · exact hserved
  · exact hblock

end AtEngine

section
variable {s : State} {rq : Requester} {m : DictMsg}

/-- WRITE with LAST of the length that PARAM says writes the value. -/
theorem execWrite_last (hlast : mLast m = true) (hlength : m.data.length = m.param.toNat) : s.execWrite rq m = s.writeValue rq m m.data := by
  unfold State.execWrite
  dsimp only
  rw [if_pos hlast, if_pos hlength]

theorem execWrite_wrongLength (hlast : mLast m = true) (hlength : m.data.length ≠ m.param.toNat) : s.execWrite rq m = s.fail rq m abType := by
  unfold State.execWrite
  dsimp only
  rw [if_pos hlast, if_neg hlength]

/-- The response to a value that the object has taken (R402). -/
theorem writeValue_stored {v : Bytes} {t : State} (hwrite : performObject rq (mIndex m) (mSub m) v s = t) (hup : t.dev.phase = .up)
    (hresult : (t.rq rq).result = 0) (hop : m.op = 2) : s.writeValue rq m v = t.respond rq (respMsg m 0x82 1 0 []) := by
  unfold State.writeValue
  rw [hwrite]
  dsimp only
  rw [if_neg (by simp [hup]), hresult, if_neg (by decide), if_pos rfl, hop]
  rfl

theorem phase_of_served (h : s.served rq = true) : s.dev.phase = .up := by
  simp only [State.served, Bool.and_eq_true, beq_iff_eq] at h
  exact h.1.1

end

end Sys2Proof.Machine

namespace Sys2Proof

open Machine

/-- Settles O26: at the engine the write is the one store of O20, and its response stands with the requester. -/
theorem writeMessageStores : Obligations.WriteMessageStores := by
  intro s rq m r h hlast hrow hacc hplain
  obtain ⟨u, hu, hexec⟩ := heard_write h
  refine ⟨fun hlength hallowed hdirect => ?_, fun hlength => ?_⟩
  · obtain ⟨g, hwrite⟩ := performObject_plain m.index.isLt m.sub.isLt hrow hacc hplain (hu.allowed hplain hallowed) (hu.direct hdirect)
    obtain ⟨hframe, hobjs⟩ := changes_plainWrite u rq m.index.toNat m.sub.toNat (cleanValue m.index.toNat m.sub.toNat m.data) g
    have hup : u.dev.phase = .up := (congrArg StDev.phase (hu.changes.2 .dev (by decide))).trans (phase_of_served h.1)
    rw [execWrite_last (m := withOp m 2) hlast hlength,
      writeValue_stored (m := withOp m 2) (v := (withOp m 2).data) hwrite hup (result_accepted u rq _ _) rfl] at hexec
    have hanswer := changes_respond (((u.accepted rq m.index.toNat m.sub.toNat).setObj (objKey m.index.toNat m.sub.toNat)
      (cleanValue m.index.toNat m.sub.toNat m.data)).onPair g) rq (respMsg (withOp m 2) 0x82 1 0 [])
    have hsame := hanswer.2 .objs (by decide)
    refine ⟨_, hexec, (State.obj_congr hsame _).trans (State.obj_setObj_same _ _ _), by rw [State.rq_respond]; rfl, ?_, ?_⟩
    · exact ((ChangesObjs.of_objs (hu.changes.2 .objs (by decide)) _).trans hobjs).trans (.of_objs hsame _)
    · exact ((hu.changes.mono (by decide)).trans (hframe.mono (by decide))).trans (hanswer.mono (by decide))
  · rw [execWrite_wrongLength (m := withOp m 2) hlast hlength] at hexec
    exact ⟨_, hexec, ((changes_fail _ _ _ _).2 .objs (by decide)).trans (hu.changes.2 .objs (by decide)), by rw [State.rq_fail]; rfl⟩

end Sys2Proof
end

section
/-! SUPPORT. This unit's own requests (R403), and the service port (R406). -/

namespace Sys2Proof.Machine

/-! ### Own requests (R403) -/

theorem changes_nodePut (s : State) (n : NodeSt) : Changes [.rings] s (s.setNode n) :=
  ⟨rfl, fun p hp => by cases p <;> simp [Part.same, State.setNode] at hp ⊢⟩

/-- The answer of a node changes what the rings know of it. -/
theorem changes_nodeAnswered (s : State) (r : RingId) (a sub : Nat) (v : Bytes) (ok : Bool) : Changes [.rings] s (s.nodeAnswered r a sub v ok) := by
  unfold State.nodeAnswered
  split
  · exact .refl _ s
  · refine Changes.trans ?_ (changes_setRing _ r _)
    split
    · exact changes_nodePut s _
    · split
      · exact changes_nodePut s _
      · exact .refl _ s

section
variable {s : State} {k : OutKey} {q : OutReq} (hout : s.dict.outReqs = [q]) (hkey : q.key = k) (hsent : q.sent = true)
include hout hkey hsent

theorem outReq?_only : s.outReq? k = some q := by simp [State.outReq?, hout, hkey, hsent]

omit hsent in
/-- The end of the only request leaves none. -/
theorem outEnd_only : s.outEnd k q.tid = { s with dict := { s.dict with outReqs := [] } } := by
  simp [State.outEnd, hout, hkey, sendNext]

/-- A final answer to the awaited TID ends the request (R401). -/
theorem answered_ends {tid : W16} (htid : tid.toNat = q.tid) (ok : Bool) :
    (s.answered k tid ok).dict.outReqs = [] ∧ Changes [.dict, .rings] s (s.answered k tid ok) := by
  have hans : s.answered k tid ok = ({ s with dict := { s.dict with outReqs := [] } } : State).nodeAnswered k.ring k.toAddr.toNat
      q.msg.sub.toNat q.msg.data ok := by
    unfold State.answered
    rw [outReq?_only hout hkey hsent]
    dsimp only
    rw [if_neg (by simp [htid]), outEnd_only hout hkey]
  have hframe := changes_nodeAnswered ({ s with dict := { s.dict with outReqs := [] } } : State) k.ring k.toAddr.toNat q.msg.sub.toNat
    q.msg.data ok
  rw [hans]
  exact ⟨congrArg StDict.outReqs (hframe.2 .dict (by decide)), ((changes_dict s _).mono (by decide)).trans (hframe.mono (by decide))⟩

theorem answered_other {tid : W16} (htid : tid.toNat ≠ q.tid) (ok : Bool) : s.answered k tid ok = s := by
  unfold State.answered
  rw [outReq?_only hout hkey hsent]
  exact if_pos (Ne.symm htid)

theorem pending_clears : Completes (.pending k (BitVec.ofNat 16 q.tid)) s (fun t =>
    (q.tid < 65536 → t.dict.outReqs = [{ q with resends := 0 }]) ∧ t.objs = s.objs ∧ Changes [.dict] s t) := by
  refine ⟨_, rfl, fun htid => ?_, rfl, changes_dict s _⟩
  have htoNat : (BitVec.ofNat 16 q.tid).toNat = q.tid := by simpa using htid
  simp [pendingCmd, hout, hkey, hsent, htoNat]

theorem responseTimeout_resends (h : q.resends < s.n kDictRetry) : Completes (.dictResponseTimeout k) s (fun t =>
    t.dict.outReqs = [{ q with resends := q.resends + 1 }] ∧
    t.dict.ringOut = s.dict.ringOut ++ [(k.ring, k.toAddr.toNat, q.msg)] ∧ t.objs = s.objs ∧ Changes [.dict] s t) := by
  have hrun : dictResponseTimeout k s = { s with dict := { s.dict with
      outReqs := [{ q with resends := q.resends + 1 }], ringOut := s.dict.ringOut ++ [(k.ring, k.toAddr.toNat, q.msg)] } } := by
    unfold dictResponseTimeout
    rw [outReq?_only hout hkey hsent]
    dsimp only
    rw [if_pos h]
    simp [hout, hkey, hsent]
  exact ⟨_, congrArg Host.Outcome.next hrun, rfl, rfl, rfl, changes_dict s _⟩

theorem responseTimeout_ends (h : s.n kDictRetry ≤ q.resends) (hnode : (s.ring k.ring).rec? k.toAddr.toNat = none) :
    Completes (.dictResponseTimeout k) s (fun t => t.dict.outReqs = [] ∧ t.objs = s.objs ∧ Changes [.dict] s t) := by
  have hrun : dictResponseTimeout k s = { s with dict := { s.dict with outReqs := [] } } := by
    unfold dictResponseTimeout
    rw [outReq?_only hout hkey hsent]
    dsimp only
    rw [if_neg (Nat.not_lt.mpr h), outEnd_only hout hkey]
    have hnode' : (({ s with dict := { s.dict with outReqs := [] } } : State).ring k.ring).rec? k.toAddr.toNat = none := hnode
    rw [hnode']
  exact ⟨_, congrArg Host.Outcome.next hrun, rfl, rfl, changes_dict s _⟩

end

/-! ### The service port (R406) -/

section
variable (s : State)

/-- The engine executes CANCEL from every path, where its data fit a segment (R396). -/
theorem execMsg_cancel {rq : Requester} {m : DictMsg} (hop : m.op = 6) (hdata : m.data.length ≤ s.segSize rq) :
    s.execMsg rq m = s.execCancel rq m := by
  have hnot : ¬(rq = .pcie ∧ m.flags.toNat.testBit 1 ∧ (m.op = 1 ∨ m.op = 2)) := by
    rintro ⟨-, -, h | h⟩ <;> rw [hop] at h <;> exact absurd h (by decide)
  unfold State.execMsg
  rw [if_neg hnot, if_neg (Nat.not_lt.mpr hdata), hop]
  rfl

theorem execCancel_none {rq : Requester} {m : DictMsg} (h : (s.rq rq).xfer = none) :
    s.execCancel rq m = (s.answer rq 0).respond rq (respMsg m 0x86 1 0 []) := by
  unfold State.execCancel
  rw [h]

theorem response_execCancel (rq : Requester) (m : DictMsg) : ((s.execCancel rq m).rq rq).response = some (respMsg m 0x86 1 0 []) := by
  unfold State.execCancel
  rw [State.rq_respond]

theorem sessions_execCancel (rq : Requester) (m : DictMsg) : (s.execCancel rq m).dict.sessions = s.dict.sessions := by
  have hdeliver (t : State) (a : DictMsg) : (t.deliver rq a).dict.sessions = t.dict.sessions := by cases rq <;> rfl
  unfold State.execCancel State.respond
  rw [hdeliver]
  dsimp only
  split
  · split <;> rfl
  · rfl

theorem sessions_fail (rq : Requester) (m : DictMsg) (c : Nat) : (s.fail rq m c).dict.sessions = s.dict.sessions := by
  cases rq <;> rfl

variable {s}

theorem arpRequest_answers {target sender : W32} (hup : s.svcUp = true) (h : target.toNat = s.n kSvcIp) :
    Completes (.arpRequest target sender) s (fun t =>
      t.dict.svcOut = s.dict.svcOut ++ [(sender.toNat, 0x10000, (le 6 s.sec.fuses.mac).reverse ++ (le 4 (s.n kSvcIp)).reverse)] ∧
      t.objs = s.objs ∧ Changes [.dict] s t) :=
  ⟨_, congrArg Host.Outcome.next (if_pos ⟨hup, h⟩), rfl, rfl, changes_dict s _⟩

theorem icmpEcho_answers {src dst : W32} (p : Bytes) (hup : s.svcUp = true) (h : dst.toNat = s.n kSvcIp) :
    Completes (.icmpEcho src dst p) s (fun t =>
      t.dict.svcOut = s.dict.svcOut ++ [(src.toNat, 0x10001, p)] ∧ t.objs = s.objs ∧ Changes [.dict] s t) :=
  ⟨_, congrArg Host.Outcome.next (if_pos ⟨hup, h⟩), rfl, rfl, changes_dict s _⟩

section
variable {ip : W32} {port : W16} {m : DictMsg}

/-- The first session takes number 0. -/
theorem openSession_first (h : s.dict.sessions = []) :
    s.openSession ip port = some { s with dict := { s.dict with sessions := [⟨0, ip, port, s.recd.optime⟩] } } := by
  unfold State.openSession
  simp [h, List.range, List.range.loop]

/-- A ninth session finds no number. -/
theorem openSession_ninth (hnew : s.dict.sessions.any (fun x => decide (x.ip = ip) && decide (x.port = port)) = false)
    (hfull : ∀ i, i < 8 → s.dict.sessions.any (fun x => x.slot == i) = true) : s.openSession ip port = none := by
  have hnone : (List.range 8).find? (fun i => s.dict.sessions.all (fun x => x.slot != i)) = none := by
    refine List.find?_eq_none.mpr fun i hi => ?_
    obtain ⟨x, hx, hslot⟩ := List.any_eq_true.mp (hfull i (List.mem_range.mp hi))
    simp only [List.all_eq_true, not_forall]
    exact ⟨x, hx, by simpa using hslot⟩
  unfold State.openSession
  dsimp only
  rw [if_neg (by simp [hnew]), hnone]

theorem handleMsg_session (hserved : s.served (.session ip port) = true) (hserves : s.svcServes = true) :
    handleMsg (.session ip port) m s = match s.openSession ip port with
      | some s => s.request (.session ip port) m
      | none => { s with dict := { s.dict with svcOut := s.dict.svcOut ++ [(ip.toNat, port.toNat, msgBytes (abortMsg m abNoResource))] } } := by
  unfold handleMsg
  rw [if_neg (by simp [hserved])]
  exact if_neg (by simp [hserves])

/-- A CANCEL opens the first session, and is acknowledged. -/
theorem serviceDatagram_first (hserved : s.served (.session ip port) = true) (hserves : s.svcServes = true)
    (hnone : s.dict.sessions = []) (htid : (s.rq (.session ip port)).tid = none) (hopen : (s.rq (.session ip port)).openReq = none)
    (hshed : s.n kShedStage = 0) (hop : m.op = 6) : Completes (.serviceDatagram ip port 47120 m) s (fun t =>
      t.dict.sessions = [⟨0, ip, port, s.recd.optime⟩] ∧
      (m.data.length ≤ 1024 → (t.rq (.session ip port)).response = some (answerTo m 0x86 1 0 []))) := by
  have hrun := handleMsg_session (m := m) hserved hserves
  rw [openSession_first hnone] at hrun
  have hengine := request_new (rq := .session ip port) (m := m) [⟨0, ip, port, s.recd.optime⟩] (by simp [htid]) hopen hshed
  have hexec := congrArg (Host.Outcome.next (φ := Fault) (ρ := Refusal)) (hrun.trans hengine)
  by_cases hdata : m.data.length ≤ 1024
  · rw [execMsg_cancel _ hop (by exact hdata)] at hexec
    exact ⟨_, hexec, sessions_execCancel _ _ _, fun _ => response_execCancel _ _ _⟩
  · have hlong : ∀ u : State, u.execMsg (.session ip port) m = u.fail (.session ip port) m abRange := by
      intro u
      unfold State.execMsg
      rw [if_neg (by simp), if_pos (show u.segSize (.session ip port) < _ from Nat.lt_of_not_le hdata)]
    rw [hlong] at hexec
    exact ⟨_, hexec, sessions_fail _ _ _ _, fun h => absurd h hdata⟩

theorem serviceDatagram_ninth (hserved : s.served (.session ip port) = true) (hserves : s.svcServes = true)
    (hnew : s.dict.sessions.any (fun x => decide (x.ip = ip) && decide (x.port = port)) = false)
    (hfull : ∀ i, i < 8 → s.dict.sessions.any (fun x => x.slot == i) = true) :
    Completes (.serviceDatagram ip port 47120 m) s (fun t => t.dict.sessions = s.dict.sessions ∧
      t.dict.svcOut = s.dict.svcOut ++ [(ip.toNat, port.toNat, msgBytes (answerTo m 0x7F 1 0x00000501 []))] ∧
      t.objs = s.objs ∧ Changes [.dict] s t) := by
  have hrun := handleMsg_session (m := m) hserved hserves
  rw [openSession_ninth hnew hfull] at hrun
  exact ⟨_, congrArg Host.Outcome.next hrun, rfl, rfl, rfl, changes_dict s _⟩

theorem serviceDatagram_otherPort {dst : W16} (h : dst.toNat ≠ 47120) :
    Completes (.serviceDatagram ip port dst m) s (fun t => t = s) := ⟨_, congrArg Host.Outcome.next (if_neg h), rfl⟩

theorem rq_sessionTimeout : (sessionTimeout ip port s).rq (.session ip port) = freshRq (.session ip port) := by
  have hnone : (s.dict.rqs.filter (fun r => decide (r.rq ≠ .session ip port))).find? (fun r => r.rq = .session ip port) = none :=
    List.find?_eq_none.mpr fun r hr => by simpa using (List.mem_filter.mp hr).2
  simp only [State.rq, sessionTimeout, hnone, Option.getD_none]

theorem rq_sessionTimeout_other {q : Requester} (hq : q ≠ .session ip port) : (sessionTimeout ip port s).rq q = s.rq q := by
  have hsame (r : RqSt) : (decide (decide (r.rq ≠ .session ip port) = true ∧ decide (r.rq = q) = true)) = decide (r.rq = q) := by
    by_cases h : r.rq = q <;> simp [h, hq]
  simp only [State.rq, sessionTimeout, List.find?_filter, hsame]

theorem sessionTimeout_drops : Completes (.sessionTimeout ip port) s (fun t =>
    t.dict.sessions.any (fun x => decide (x.ip = ip) && decide (x.port = port)) = false ∧
    t.level (.session ip port) = t.baseLevel (.session ip port) ∧ (t.rq (.session ip port)).xfer = none ∧
    (∀ q, q ≠ .session ip port → t.rq q = s.rq q) ∧ t.objs = s.objs ∧ Changes [.dict] s t) := by
  refine ⟨_, rfl, ?_, ?_, ?_, fun q hq => rq_sessionTimeout_other hq, rfl, changes_dict s _⟩
  · simp only [sessionTimeout, List.any_filter, List.any_eq_false]
    exact fun x _ => by grind
  · rw [State.level, rq_sessionTimeout]
    exact Nat.zero_max _
  · rw [rq_sessionTimeout]
    rfl

end

end

end Sys2Proof.Machine

namespace Sys2Proof

open Machine

/-- Settles O28: the only outstanding request, and what each answer and the timeout make of it. -/
theorem ownRequests : Obligations.OwnRequests := fun _ _ _ hout hkey hsent =>
  ⟨pending_clears hout hkey hsent, fun _ htid => ⟨_, rfl, answered_ends hout hkey hsent htid true⟩,
    fun _ htid => ⟨_, congrArg Host.Outcome.next (answered_other hout hkey hsent htid true), rfl⟩,
    fun _ _ htid => ⟨_, rfl, answered_ends hout hkey hsent htid false⟩, responseTimeout_resends hout hkey hsent,
    responseTimeout_ends hout hkey hsent⟩

/-- Settles O29: one lemma per datagram of the service port, and the end of a session. -/
theorem servicePort : Obligations.ServicePort := fun s =>
  ⟨fun _ _ hup => ⟨arpRequest_answers hup, fun h => ⟨s, congrArg Host.Outcome.next (if_neg fun hc => h hc.2), rfl⟩⟩,
    fun _ _ p hup => ⟨icmpEcho_answers p hup, fun h => ⟨s, congrArg Host.Outcome.next (if_neg fun hc => h hc.2), rfl⟩⟩,
    fun _ _ _ _ h => serviceDatagram_otherPort h,
    fun _ _ _ hserved hserves hnone htid hopen hshed hop => serviceDatagram_first hserved hserves hnone htid hopen hshed hop,
    fun _ _ _ hserved hserves hnew hfull => serviceDatagram_ninth hserved hserves hnew hfull, fun _ _ => sessionTimeout_drops⟩

end Sys2Proof
end

section
/-! SUPPORT. The doorbell (R409, R410). -/

namespace Sys2Proof.Machine

/-- The requester of a path has the segment size of a host (R398). -/
theorem segSize_path (s : State) (p : HostPath) : s.segSize (pathRq p) = 1024 := by cases p <;> rfl

section
variable (s : State) (p : HostPath) (f : HostSt → HostSt)

@[simp] theorem State.host_onHost : (s.onHost p f).host p = f (s.host p) := by cases p <;> rfl

theorem changes_onHost : Changes [.dict] s (s.onHost p f) := by cases p <;> exact changes_dict s _

theorem rqs_onHost : (s.onHost p f).dict.rqs = s.dict.rqs := by cases p <;> rfl

end

theorem testBit_flag_same (h : HostSt) (b : Nat) : (h.flag b).status.testBit b = true := testBit_setBit_same h.status b true

theorem testBit_flag_other (h : HostSt) {b j : Nat} (hj : j ≠ b) : (h.flag b).status.testBit j = h.status.testBit j :=
  testBit_setBit_other h.status true hj

/-- What the interrupt bits leave of a window (R418). -/
theorem raise_facts (h : HostSt) (b : Nat) (msi : Bool) : (h.raise b msi).status = h.status ∧ (h.raise b msi).rspBuf = h.rspBuf ∧
    (h.raise b msi).reqBuf = h.reqBuf ∧ (h.raise b msi).intStatus = setBit h.intStatus b true := by
  unfold HostSt.raise
  dsimp only
  split
  · exact ⟨rfl, rfl, rfl, rfl⟩
  · split
    · exact ⟨rfl, rfl, rfl, rfl⟩
    · split <;> exact ⟨rfl, rfl, rfl, rfl⟩

/-- A delivered response stands in the response buffer of its path, with RSP_READY and without REQ_BUSY (R410). -/
theorem deliver_host (s : State) (p : HostPath) (m : DictMsg) (hclean : (s.host p).dirty = false) :
    ((s.deliver (pathRq p) m).host p).status = setBit (setBit (s.host p).status 4 false) 3 true ∧
    ((s.deliver (pathRq p) m).host p).rspBuf = msgBytes m ∧ ((s.deliver (pathRq p) m).host p).intStatus = setBit (s.host p).intStatus 0 true := by
  have hplace (h : HostSt) (msi : Bool) : (h.place m msi).status = setBit (setBit h.status 4 false) 3 true ∧
      (h.place m msi).rspBuf = msgBytes m ∧ (h.place m msi).intStatus = setBit h.intStatus 0 true := by
    obtain ⟨hstatus, hrsp, -, hint⟩ := raise_facts { h with rspBuf := msgBytes m, status := setBit (setBit h.status 4 false) 3 true } 0 msi
    exact ⟨hstatus, hrsp, hint⟩
  cases p
  · have hm : (if s.dict.pcie.dirty then parseMsg (Config.freeBytes s.free) else m) = m := if_neg (by simp [show s.dict.pcie.dirty = false from hclean])
    simp only [State.deliver, pathRq, State.host, hm]
    exact hplace _ _
  · have hm : (if s.dict.spi.dirty then parseMsg (Config.freeBytes s.free) else m) = m := if_neg (by simp [show s.dict.spi.dirty = false from hclean])
    simp only [State.deliver, pathRq, State.host, hm]
    exact hplace _ _

/-- The doorbell register is no word of a wide value, so its write leaves the shadow. -/
theorem dropShadow_doorbell (s : State) (rq : Requester) : s.dropShadow rq 0x10 = s := by
  have hwide : s.wide? 0x10 = none := rfl
  unfold State.dropShadow
  rw [hwide]

theorem doorbell_rings {s : State} {p : HostPath} (hup : s.windowUp p = true) (v : W32) : doorbell p v s = s.ringBell p v.toNat := by
  rw [doorbell, if_pos hup, State.windowWrite, if_neg (by decide)]
  dsimp only
  rw [dropShadow_doorbell]
  rfl

theorem ringBell_other {s : State} {v : Nat} (h : v ≠ 1) (p : HostPath) : s.ringBell p v = s := if_pos h

theorem ringBell_busy {s : State} {p : HostPath} (h : (s.host p).status.testBit 4 = true) : s.ringBell p 1 = s.onHost p (HostSt.flag · 7) :=
  (if_neg (by decide)).trans (if_pos h)

/-- The window of a path as the doorbell leaves it: busy, and no response ready. -/
def HostSt.busy (h : HostSt) : HostSt := { h with status := setBit (setBit h.status 4 true) 3 false, dirty := false }

theorem ringBell_free {s : State} {p : HostPath} (h : (s.host p).status.testBit 4 = false) :
    s.ringBell p 1 = handleMsg (pathRq p) (parseMsg ((s.onHost p HostSt.busy).host p).reqBuf) (s.onHost p HostSt.busy) :=
  (if_neg (by decide)).trans (if_neg (by simp [h]))

theorem handleMsg_path {s : State} {p : HostPath} (h : s.served (pathRq p) = true) (m : DictMsg) :
    handleMsg (pathRq p) m s = s.request (pathRq p) m := by
  unfold handleMsg
  rw [if_neg (by simp [h])]
  cases p <;> rfl

/-- A CANCEL is executed by delivering its acknowledgement, beside its requester's record. -/
theorem execCancel_delivers (s : State) (rq : Requester) (m : DictMsg) : ∃ l, s.execCancel rq m =
    ({ s with dict := { s.dict with rqs := l } } : State).deliver rq (respMsg m 0x86 1 0 []) := by
  unfold State.execCancel
  split
  · split <;> exact ⟨_, rfl⟩
  · exact ⟨_, rfl⟩

/-- A CANCEL that a path asks for in a free window is answered at once. -/
theorem handleMsg_cancel {s : State} {p : HostPath} {m : DictMsg} (hserved : s.served (pathRq p) = true) (hop : m.op = 6)
    (hdata : m.data.length ≤ 1024) (htid : (s.rq (pathRq p)).tid ≠ some m.tid.toNat) (hopen : (s.rq (pathRq p)).openReq = none)
    (hshed : s.n kShedStage = 0) : ∃ u : State, u.host p = s.host p ∧ u.objs = s.objs ∧
      handleMsg (pathRq p) m s = u.deliver (pathRq p) (respMsg m 0x86 1 0 []) := by
  have hengine := request_new s.dict.sessions htid hopen hshed
  have hcancel := execMsg_cancel (s.atEngine ((s.rq (pathRq p)).asking m (owesPending (pathRq p))) s.dict.sessions) (rq := pathRq p) hop
    (by rw [segSize_path]; exact hdata)
  obtain ⟨l, hl⟩ := execCancel_delivers (s.atEngine ((s.rq (pathRq p)).asking m (owesPending (pathRq p))) s.dict.sessions) (pathRq p) m
  refine ⟨_, ?_, ?_, (handleMsg_path hserved m).trans (hengine.trans (hcancel.trans hl))⟩
  · cases p <;> rfl
  · rfl

end Sys2Proof.Machine

namespace Sys2Proof

open Machine

/-- Settles O30: the doorbell is `ringBell`; a CANCEL is executed and delivered at once. -/
theorem doorbellSubmits : Obligations.DoorbellSubmits := by
  intro s p hup
  have hserved : s.served (pathRq p) = true := by
    simp only [State.windowUp, Bool.and_eq_true] at hup
    exact hup.1
  refine ⟨fun v hv => ?_, fun hbusy => ?_, fun hfree hop hdata htid hopen hshed => ?_⟩
  · have hother : v.toNat ≠ 1 := fun h => hv (BitVec.eq_of_toNat_eq h)
    exact ⟨s, congrArg Host.Outcome.next ((doorbell_rings hup v).trans (ringBell_other hother p)), rfl, rfl, .refl _ s⟩
  · refine ⟨_, congrArg Host.Outcome.next ((doorbell_rings hup 1).trans (ringBell_busy hbusy)), ?_⟩
    have hframe := changes_onHost s p (HostSt.flag · 7)
    simp only [State.host_onHost]
    refine ⟨testBit_flag_same _ 7, (testBit_flag_other _ (by decide)).trans hbusy, rfl, rfl, hframe.2 .objs (by decide), hframe⟩
  · have hserved' : (s.onHost p HostSt.busy).served (pathRq p) = true := by cases p <;> exact hserved
    have hrq : (s.onHost p HostSt.busy).rq (pathRq p) = s.rq (pathRq p) := State.rq_congr (rqs_onHost s p _) _
    have hobjs : (s.onHost p HostSt.busy).objs = s.objs := (changes_onHost s p _).2 .objs (by decide)
    have hhost := State.host_onHost s p HostSt.busy
    have hring := (doorbell_rings hup 1).trans (ringBell_free hfree)
    rw [hhost] at hring
    obtain ⟨u, hu, huobjs, hcancel⟩ := handleMsg_cancel (m := parseMsg (s.host p).reqBuf) hserved' hop hdata (hrq ▸ htid) (hrq ▸ hopen)
      ((State.n_congr hobjs _).trans hshed)
    obtain ⟨hstatus, hrsp, hint⟩ := deliver_host u p (respMsg (parseMsg (s.host p).reqBuf) 0x86 1 0 []) (by rw [hu, hhost]; rfl)
    refine ⟨_, congrArg Host.Outcome.next (hring.trans hcancel), ?_, ?_, ?_, hrsp,
      ((deliver_frame _ _ _).2 .objs (by decide)).trans (huobjs.trans hobjs)⟩
    · rw [hstatus, testBit_setBit_other _ _ (by decide), testBit_setBit_same]
    · rw [hstatus, testBit_setBit_same]
    · rw [hint, testBit_setBit_same]

end Sys2Proof
end

section
/-! SUPPORT. Coherent reads of the cycle number (R414, R415). -/

namespace Sys2Proof.Machine

/-- The lower and the upper bytes of a number. -/
theorem le_add (a b v : Nat) : le (a + b) v = le a v ++ le b (v / 256 ^ a) := by
  induction a generalizing v with
  | zero => simp [le]
  | succ a ih =>
    rw [Nat.succ_add, le, le, ih, List.cons_append, Nat.div_div_eq_div_mul, pow_succ']

/-- The two words of an 8-byte number. -/
theorem num_le8 (v : Nat) : num (le 8 v) 0 4 = v % 2 ^ 32 ∧ num (le 8 v) 4 4 = v / 2 ^ 32 % 2 ^ 32 := by
  rw [le_add 4 4 v]
  constructor
  · exact (num_append_left _ _ (by simp)).trans (num_le 4 v)
  · exact (num_append_right _ _ (by simp)).trans (num_le 4 _)

section
variable (s : State)

theorem wide?_cycle : s.wide? 0x18 = some (0x18, 0) ∧ s.wide? 0x1C = some (0x18, 1) :=
  ⟨if_pos (.inl rfl), if_pos (.inr rfl)⟩

theorem liveValue_cycle (rq : Requester) : s.liveValue rq 0x18 = (le 8 s.cycle, s) := if_pos rfl

/-- A base word read of the cycle number samples it. -/
theorem wordRead_cycleLo : s.wordRead .pcie 0x18 =
    (s.cycle % 2 ^ 32, s.setRq { s.rq .pcie with shadow := some (0x18, le 8 s.cycle) }) := by
  rw [State.wordRead, if_neg (by decide), (wide?_cycle s).1]
  dsimp only
  rw [State.wideRead, if_pos rfl, liveValue_cycle]
  dsimp only
  rw [(num_le8 _).1]

variable {s}

/-- A higher word read returns what the sample of the base word kept. -/
theorem wordRead_cycleHi {n : Nat} (h : (s.rq .pcie).shadow = some (0x18, le 8 n)) : s.wordRead .pcie 0x1C = (n / 2 ^ 32 % 2 ^ 32, s) := by
  rw [State.wordRead, if_neg (by decide), (wide?_cycle s).2]
  dsimp only
  rw [State.wideRead, if_neg (by decide), h]
  dsimp only
  rw [if_pos rfl, (num_le8 n).2]

/-- Without a sample it returns the live word, torn. -/
theorem wordRead_cycleHi_torn (h : (s.rq .pcie).shadow = none) :
    s.wordRead .pcie 0x1C = (s.cycle / 2 ^ 32 % 2 ^ 32, s.onHost .pcie (HostSt.flag · 0)) := by
  rw [State.wordRead, if_neg (by decide), (wide?_cycle s).2]
  dsimp only
  rw [State.wideRead, if_neg (by decide), h]
  dsimp only
  rw [liveValue_cycle]
  dsimp only
  rw [(num_le8 _).2]
  rfl

theorem readOne_pcie (hup : s.windowUp .pcie = true) {off v : Nat} {t : State} (h : s.wordRead .pcie off = (v, t)) :
    s.readOne .pcie off = t.onHost .pcie (fun h => { h with lastRead := [v] }) := by
  have hmay : s.mayRead .pcie = true := hup
  rw [State.readOne, if_pos hmay, h]
  rfl

end

end Sys2Proof.Machine

namespace Sys2Proof

open Machine

/-- Settles O32: each read of a word, and the 8-byte read as its two words. -/
theorem cycleReadsAreCoherent : Obligations.CycleReadsAreCoherent := by
  intro s hup
  have hshadow : (s.setRq { s.rq .pcie with shadow := some (0x18, le 8 s.cycle) }).rq .pcie =
      { s.rq .pcie with shadow := some (0x18, le 8 s.cycle) } := s.rq_update (s.rq_rq .pcie)
  refine ⟨?_, fun n h => ?_, fun h => ?_, ?_⟩
  · exact ⟨_, congrArg Host.Outcome.next (readOne_pcie hup (wordRead_cycleLo s)), rfl, congrArg RqSt.shadow hshadow, rfl,
      (changes_setRq s _).trans (changes_onHost _ _ _)⟩
  · exact ⟨_, congrArg Host.Outcome.next (readOne_pcie hup (wordRead_cycleHi h)), rfl, rfl, h, rfl, changes_onHost _ _ _⟩
  · exact ⟨_, congrArg Host.Outcome.next (readOne_pcie hup (wordRead_cycleHi_torn h)), rfl, testBit_flag_same s.dict.pcie 0, rfl,
      (changes_onHost _ _ _).trans (changes_onHost _ _ _)⟩
  · have hboth : qwordRead 0x18 s = (s.setRq { s.rq .pcie with shadow := some (0x18, le 8 s.cycle) }).gave .pcie
        [s.cycle % 2 ^ 32, s.cycle / 2 ^ 32 % 2 ^ 32] := by
      rw [qwordRead, if_neg (by simp [hup]), if_neg (by decide)]
      have hlow : s.wordRead .pcie (0x18 : W16).toNat = _ := wordRead_cycleLo s
      have hhigh : (s.setRq { s.rq .pcie with shadow := some (0x18, le 8 s.cycle) }).wordRead .pcie ((0x18 : W16).toNat + 4) = _ :=
        wordRead_cycleHi (congrArg RqSt.shadow hshadow)
      rw [hlow]
      dsimp only
      rw [hhigh]
    exact ⟨_, congrArg Host.Outcome.next hboth, rfl, rfl, (changes_setRq s _).trans (changes_onHost _ .pcie _)⟩

end Sys2Proof
end

section
/-! SUPPORT. SOLVER_RESULT read by a node whose ring carries short segments while it has a transfer open: the read is BUSY and leaves
no mark (R398, R400, R416). -/

namespace Sys2Proof.Machine

/-- The node that asks. -/
def markReader : Requester := .node .m 5

/-- A device that serves its ring at PLEN_MAX 64, the least that R398 lets a commit pass, holds a result of 64 bytes, and has a
transfer of the node open. -/
def markState : State :=
  (({ State.reset with
      dev := { State.reset.dev with phase := .up }
      solver := { State.reset.solver with result := zeros 64 }
      dict := { State.reset.dict with rqs := [{ freshRq markReader with
        xfer := some { index := 0x5000, sub := 0x0B, isWrite := true, data := [], snapshot := false, total := 64, next := 1,
                       closed := false, staged := true, flags := 0 } }] } } : State).setN kTierAvail 1).setN (kArbPlenMax 0) 64

theorem markState_segSize : markState.segSize markReader = 48 := by decide

theorem markState_heard : Heard markReader (markState.nextRead markReader 0x4000 0x02) markState :=
  ⟨by decide, by decide, by decide, by decide, by decide, fun h => by simp [markReader] at h, fun _ _ _ => by decide,
    fun _ _ h => by simp [markReader] at h⟩

/-- The read is refused: its copy needs a second segment, and the node has a transfer open already (R400). -/
theorem markState_unmarked : ((mailboxRead markReader 0x4000 0x02 markState).rq markReader).marks = [] ∧
    ((mailboxRead markReader 0x4000 0x02 markState).rq markReader).result = abBusy := by decide

end Sys2Proof.Machine

namespace Sys2Proof

open Machine

/-- Refutes O33: the result does not fit the segments of the node's ring, so the read is refused with BUSY and sets no mark. -/
theorem not_spiMailboxQueueReads : ¬ Obligations.SpiMailboxQueueReads := by
  intro h
  obtain ⟨-, hmailbox, -⟩ := h markState
  obtain ⟨t, hexec, -, -, hmark⟩ := hmailbox markReader markState_heard (by decide) (by decide)
  obtain rfl : mailboxRead markReader 0x4000 0x02 markState = t := Host.Outcome.next.inj hexec
  rw [markState_unmarked.1] at hmark
  cases hmark

end Sys2Proof
end

section
/-! SUPPORT. Node events and their acknowledgement (R405), the rejoin of an excluded node (R112) and the status that a partner shares
(R363). -/

namespace Sys2Proof.Machine

/-! ### Complete events -/

section
variable {s : State} {f : Frame}

/-- A frame with MORE is kept. -/
theorem event_more (hup : s.dev.phase = .up) (hlength : 16 ≤ f.payload.length) (hmore : f.flags.toNat.testBit 3 = true) :
    ∃ l, event f s = { s with dict := { s.dict with eventXfers := l } } := by
  unfold event
  dsimp only
  rw [if_neg (by simp [hup, hlength]), if_pos hmore]
  exact ⟨_, rfl⟩

/-- An event of one frame is complete. -/
theorem event_single (hup : s.dev.phase = .up) (hlength : 16 ≤ f.payload.length) (hlast : f.flags.toNat.testBit 3 = false)
    (hnone : s.dict.eventXfers = []) : event f s = s.completeEvent f.ring f.addr.toNat f.payload := by
  have hsame : ({ s with dict := { s.dict with eventXfers := [] } } : State) = s := by rw [← hnone]
  unfold event
  dsimp only
  rw [if_neg (by simp [hup, hlength]), if_neg (by simp [hlast]), hnone]
  simp only [List.find?_nil, Option.map_none, Option.getD_none, List.nil_append, List.filter_nil, List.take_append_drop, hsame]

/-- The state in which the acknowledgement of an event is on its way. -/
def State.acked (s : State) (r : RingId) (a : Nat) (payload : Bytes) : State :=
  { s with dict := { s.dict with ringOut := s.dict.ringOut ++ [(r, a, ackMsg a payload)] } }

/-- What is done with an event that is no copy, its acknowledgement on its way. -/
def State.newEvent (s : State) (r : RingId) (a : Nat) (payload : Bytes) : State :=
  (({ s with dict := { s.dict with seen := s.dict.seen ++ [⟨a, num payload 0 2, slice payload 4 12⟩] } } : State).log 0x0250
    (le 2 a ++ le 1 (ringNo r) ++ [0] ++ le 2 payload.length ++ [0, 0] ++ payload)).hostEvent r a payload

theorem completeEvent_owner (hown : s.standby = false) (r : RingId) (a : Nat) (payload : Bytes) :
    s.completeEvent r a payload =
      if s.dict.seen.contains ⟨a, num payload 0 2, slice payload 4 12⟩ then s.acked r a payload
      else if num payload 0 2 = 0xFF01 then ((s.acked r a payload).newEvent r a payload).loopDown r a (num payload 16 1 == 1)
      else if num payload 0 2 = 0xFF02 then ((s.acked r a payload).newEvent r a payload).loopUp r a (num payload 16 1 == 1)
      else (s.acked r a payload).newEvent r a payload := by
  have hacked : (if s.standby then s
      else { s with dict := { s.dict with ringOut := s.dict.ringOut ++ [(r, a, ackMsg a payload)] } }) = s.acked r a payload :=
    if_neg (by simp [hown])
  rw [State.completeEvent, hacked]
  rfl

theorem hostEvent_free (h : s.dict.hostEvents.length < 256) (r : RingId) (a : Nat) (payload : Bytes) : ∃ e,
    s.hostEvent r a payload = ({ s with dict := { s.dict with hostEvents := s.dict.hostEvents ++ [e] } } : State).interrupt 2 := by
  unfold State.hostEvent
  dsimp only
  rw [decide_eq_false (Nat.not_le.mpr h)]
  exact ⟨_, rfl⟩

/-- An event that is no copy is recorded and enqueued. -/
theorem completeEvent_new (hown : s.standby = false) {r : RingId} {a : Nat} {payload : Bytes}
    (hseen : s.dict.seen.contains ⟨a, num payload 0 2, slice payload 4 12⟩ = false) (hdown : num payload 0 2 ≠ 0xFF01)
    (hup : num payload 0 2 ≠ 0xFF02) (hroom : s.dict.hostEvents.length < 256) : ∃ (u : State) (e : Bytes),
      RecordOnly ({ s.acked r a payload with dict := { (s.acked r a payload).dict with
        seen := s.dict.seen ++ [⟨a, num payload 0 2, slice payload 4 12⟩] } } : State) u ∧
      s.completeEvent r a payload = ({ u with dict := { u.dict with hostEvents := u.dict.hostEvents ++ [e] } } : State).interrupt 2 := by
  have hrec := record_recordOnly ({ s.acked r a payload with dict := { (s.acked r a payload).dict with
    seen := s.dict.seen ++ [⟨a, num payload 0 2, slice payload 4 12⟩] } } : State) 0 0x0250 false
    (le 2 a ++ le 1 (ringNo r) ++ [0] ++ le 2 payload.length ++ [0, 0] ++ payload)
  have hqueue := congrArg StDict.hostEvents (hrec.1.2 .dict (by decide))
  obtain ⟨e, he⟩ := hostEvent_free (lt_of_eq_of_lt (congrArg List.length hqueue) hroom) r a payload
  refine ⟨_, e, hrec, ?_⟩
  rw [← he, completeEvent_owner hown, if_neg (ne_true_of_eq_false hseen), if_neg hdown, if_neg hup]
  rfl

/-- What is left of an event that is no copy: its record, its place in HOST_EVENTS, the interrupt and the acknowledgement. -/
theorem completeEvent_frame (hown : s.standby = false) {r : RingId} {a : Nat} {payload : Bytes}
    (hseen : s.dict.seen.contains ⟨a, num payload 0 2, slice payload 4 12⟩ = false) (hdown : num payload 0 2 ≠ 0xFF01)
    (hup : num payload 0 2 ≠ 0xFF02) (hroom : s.dict.hostEvents.length < 256) :
    (s.completeEvent r a payload).dict.hostEvents.length = s.dict.hostEvents.length + 1 ∧
    (s.completeEvent r a payload).dict.pcie.intStatus.testBit 2 = true ∧
    ChangesObjs [kRecStatus, kRecDrops] s (s.completeEvent r a payload) ∧
    Changes [.dict, .objs, .recd] s (s.completeEvent r a payload) ∧
    (s.completeEvent r a payload).dict.ringOut = s.dict.ringOut ++ [(r, a, ackMsg a payload)] := by
  obtain ⟨u, e, hrec, heq⟩ := completeEvent_new hown hseen hdown hup hroom
  have hdict := hrec.1.2 .dict (by decide)
  have hqueue := congrArg StDict.hostEvents hdict
  have hout := congrArg StDict.ringOut hdict
  have hchanged : Changes [.dict, .objs, .recd] s u :=
    ((changes_dict s _).mono (by decide)).trans (hrec.1.mono (by decide))
  rw [heq]
  refine ⟨?_, ?_, hrec.2, hchanged.trans (((changes_dict u _).trans (changes_interrupt _ 2)).mono (by decide)), hout⟩
  · exact List.length_append.trans (congrArg (List.length · + 1) hqueue)
  · obtain ⟨-, -, -, hint⟩ := raise_facts u.dict.pcie 2 true
    exact (congrArg (Nat.testBit · 2) hint).trans (testBit_setBit_same _ 2 true)

end

/-! ### Events of nodes and of the head -/

section
variable {s : State} {r : RingId} {a : BitVec 10} {e : Bytes}

/-- EVT_ACK at a node whose event it may be (R405). -/
def NodeSt.ackedBy (head : Bytes) (n : NodeSt) : NodeSt :=
  match n.event with
  | some e => if e.take 16 = head.take 16 then n.nextEvent else n
  | none => n

theorem NodeSt.keepsName_ackedBy (head : Bytes) : KeepsName (NodeSt.ackedBy head) := by
  intro n
  unfold NodeSt.ackedBy
  split
  · split <;> exact ⟨rfl, rfl⟩
  · exact ⟨rfl, rfl⟩

theorem evtAck_node (haddr : 2 ≤ a.toNat) (hevent : (s.node r a.toNat).event = some e) {head : Bytes}
    (hhead : e.take 16 = head.take 16) : Completes (.evtAck r a head) s (fun t =>
      (t.node r a.toNat).event = (s.node r a.toNat).more.head? ∧ (t.node r a.toNat).resends = 0 ∧ OnlyNode r a.toNat s t) := by
  have hexec : evtAck r a head s = s.onNode r a.toNat (NodeSt.ackedBy head) :=
    if_neg (c := a.toNat ≤ 1) (by omega)
  refine completes_onNode (congrArg _ hexec) (NodeSt.keepsName_ackedBy head) fun t hnode honly => ?_
  · have hnext : t.node r a.toNat = (s.node r a.toNat).nextEvent := by
      rw [hnode, NodeSt.ackedBy, hevent]
      exact if_pos hhead
    rw [hnext]
    exact ⟨rfl, rfl, honly⟩

/-- The resend of a node's event (R405). -/
def NodeSt.resent (n : NodeSt) : NodeSt :=
  if n.event.isNone then n else if n.resends < 4 then { n with resends := n.resends + 1 } else n.nextEvent

theorem NodeSt.keepsName_resent : KeepsName NodeSt.resent := by
  intro n
  unfold NodeSt.resent
  split
  · exact ⟨rfl, rfl⟩
  · split <;> exact ⟨rfl, rfl⟩

theorem eventResend_node (haddr : 2 ≤ a.toNat) {Q : State → Prop}
    (hQ : ∀ t, t.node r a.toNat = (s.node r a.toNat).resent → OnlyNode r a.toNat s t → Q t) : Completes (.eventResend r a) s Q := by
  have hexec : eventResend r a s = s.onNode r a.toNat NodeSt.resent := if_neg (c := a.toNat ≤ 1) (by omega)
  exact completes_onNode (congrArg _ hexec) NodeSt.keepsName_resent hQ

theorem eventResend_again (haddr : 2 ≤ a.toNat) (hevent : (s.node r a.toNat).event = some e) (h : (s.node r a.toNat).resends < 4) :
    Completes (.eventResend r a) s (fun t => (t.node r a.toNat).resends = (s.node r a.toNat).resends + 1 ∧
      (t.node r a.toNat).event = some e ∧ OnlyNode r a.toNat s t) := by
  refine eventResend_node haddr fun t hnode honly => ?_
  rw [hnode, NodeSt.resent, if_neg (by simp [hevent]), if_pos h]
  exact ⟨rfl, hevent, honly⟩

theorem eventResend_last (haddr : 2 ≤ a.toNat) (hevent : (s.node r a.toNat).event = some e) (h : 4 ≤ (s.node r a.toNat).resends) :
    Completes (.eventResend r a) s (fun t => (t.node r a.toNat).event = (s.node r a.toNat).more.head? ∧
      (t.node r a.toNat).resends = 0 ∧ OnlyNode r a.toNat s t) := by
  refine eventResend_node haddr fun t hnode honly => ?_
  rw [hnode, NodeSt.resent, if_neg (by simp [hevent]), if_neg (Nat.not_lt.mpr h)]
  exact ⟨rfl, rfl, honly⟩

theorem ownAddr_le (s : State) : s.ownAddr ≤ 1 := by
  unfold State.ownAddr
  split <;> decide

theorem evtAck_head {head : Bytes} {l : List Bytes} (haddr : a.toNat = s.ownAddr) (hevents : (s.ring r).events = e :: l)
    (hhead : e.take 16 = head.take 16) : Completes (.evtAck r a head) s (fun t => (t.ring r).events = l ∧ Changes [.rings] s t) := by
  have hexec : evtAck r a head s = s.setRing r ((s.ring r).acked head) := by
    rw [evtAck, if_pos (haddr ▸ ownAddr_le s), if_pos haddr]
    rfl
  refine completes_setRing (congrArg _ hexec) fun t hring _ hframe => ⟨?_, hframe⟩
  rw [hring, RingSt.acked, hevents]
  dsimp only
  rw [if_pos hhead]

end

/-! ### The rejoin of an excluded node (R112) -/

/-- A round for one node has an exchange with it. -/
theorem exchangesFor_target (hp first : Nat) (kind : ExKind) (a : Nat) :
    ∃ e ∈ exchangesFor hp first kind [a], e.target = a ∧ e.kind = kind ∧ e.answered = false := by
  by_cases h : hp = 2
  · subst h
    exact ⟨⟨a, first, true, none, false, kind⟩, by simp [exchangesFor], rfl, rfl, rfl⟩
  · exact ⟨⟨a, first, false, none, false, kind⟩, by simp [exchangesFor, h], rfl, rfl, rfl⟩

theorem rejoinHoldExpiry_opens {s : State} {r : RingId} {a : BitVec 10} {n : NodeRec} (hrec : (s.ring r).rec? a.toNat = some n)
    (hexcluded : n.state = .excluded) (hbarred : n.barred = false) (hown : s.standby = false) :
    Completes (.rejoinHoldExpiry r a) s (fun t => ((t.ring r).rec? a.toNat).map NodeRec.rejoining = some true ∧
      (∃ e ∈ (t.ring r).exchanges, e.target = a.toNat ∧ e.kind = .rejoin ∧ e.answered = false) ∧
      t.objs = s.objs ∧ Changes [.rings] s t) := by
  have hexec : rejoinHoldExpiry r a s = s.setRing r
      (((s.ring r).onRec a.toNat (fun n => { n with rejoining := true })).openRound .rejoin [a.toNat] (s.n (kHeadPos (ringNo r)))) := by
    unfold rejoinHoldExpiry
    dsimp only
    rw [hrec]
    dsimp only
    rw [if_neg (by simp [hexcluded, hbarred, hown])]
    rfl
  refine completes_setRing (congrArg _ hexec) fun t hring hobjs hframe => ?_
  rw [hring]
  refine ⟨?_, ?_, hobjs, hframe⟩
  · have hsame := RingSt.rec?_onRec_same (s.ring r) a.toNat (g := fun n => { n with rejoining := true }) fun _ => rfl
    rw [hrec] at hsame
    exact congrArg (Option.map NodeRec.rejoining) hsame
  · obtain ⟨e, he, hfacts⟩ := exchangesFor_target (s.n (kHeadPos (ringNo r))) (s.ring r).exch .rejoin a.toNat
    exact ⟨e, List.mem_append_right _ he, hfacts⟩

/-! ### The status that the partner shares (R363) -/

theorem RingSt.rec?_onRec_other (x : RingSt) {a b : Nat} (hb : b ≠ a) {g : NodeRec → NodeRec} (hg : ∀ n, (g n).addr = n.addr) :
    (x.onRec a g).rec? b = x.rec? b := by
  rw [RingSt.rec?, RingSt.onRec, RingSt.rec?]
  induction x.nodes with
  | nil => rfl
  | cons n l ih =>
    rw [List.map_cons, List.find?_cons, List.find?_cons, ih]
    by_cases h : n.addr = a
    · have hn : (n.addr == b) = false := by simp [h, Ne.symm hb]
      have hgn : ((g n).addr == b) = false := by rw [hg, hn]
      rw [if_pos h, hn, hgn]
    · simp [h]

theorem records_single {n : Nat} {b : Bytes} (hpos : 0 < n) (h : b.length = n) : records n b = [b] := by
  have htail : ∀ f, recordsAux n f [] = [] := by
    intro f
    cases f with
    | zero => rfl
    | succ f => exact if_pos (Or.inl hpos)
  obtain ⟨f, hf⟩ := Nat.exists_eq_succ_of_ne_zero (h ▸ hpos).ne'
  rw [records, hf, recordsAux, if_neg (by omega), ← h, List.take_length, List.drop_length, h, htail]

/-- What a node's record takes over from the status that the partner shares (R363). -/
def NodeRec.shared (hp : Nat) (b : Bytes) (n : NodeRec) : NodeRec :=
  { n with
    heard := num b 2 1 != 0xFF
    state := match num b 2 1 with
      | 1 => .locked
      | 2 => .measured
      | 3 => .assigned
      | 4 => .integrated
      | 5 => .excluded
      | _ => n.state
    barred := num b 2 1 == 6
    writtenA := int b 8 4
    writtenB := int b 12 4
    compA := if hp = 2 ∨ n.rhoA.isNone then int b 8 4 else n.compA
    compB := if hp = 1 ∨ n.rhoB.isNone then int b 12 4 else n.compB }

theorem nodeStatusShare_one {s : State} {f : Frame} (hpair : s.paired = true) (hone : f.payload.length = 16) :
    nodeStatusShare f s = { s with rings := { s.rings with
      m := s.rings.m.onRec (num f.payload 0 2 % 1024) (NodeRec.shared (s.n (kHeadPos 0)) f.payload)
      p := s.rings.p.onRec (num f.payload 0 2 % 1024) (NodeRec.shared (s.n (kHeadPos 1)) f.payload) } } := by
  unfold nodeStatusShare
  rw [if_neg (by simp [hpair]), records_single (by decide) hone]
  rfl

theorem changes_rings (s : State) (x : StRings) : Changes [.rings] s { s with rings := x } :=
  ⟨rfl, fun p hp => by cases p <;> simp [Part.same] at hp ⊢⟩

theorem nodeStatusShare_frame {s : State} {f : Frame} (hpair : s.paired = true) (hone : f.payload.length = 16) {a : Nat}
    {n : NodeRec} (ha : num f.payload 0 2 % 1024 = a) (hcode : num f.payload 2 1 = 4) (hrec : s.rings.m.rec? a = some n) :
    Completes (.nodeStatusShare f) s (fun t =>
      (t.rings.m.rec? a).map NodeRec.state = some .integrated ∧ (t.rings.m.rec? a).map NodeRec.writtenA = some (int f.payload 8 4) ∧
      (∀ b, b ≠ a → t.rings.m.rec? b = s.rings.m.rec? b) ∧ t.rings.nodes = s.rings.nodes ∧ Changes [.rings] s t) := by
  refine ⟨_, congrArg Host.Outcome.next (nodeStatusShare_one hpair hone), ?_⟩
  rw [ha]
  have hsame := RingSt.rec?_onRec_same s.rings.m a (g := NodeRec.shared (s.n (kHeadPos 0)) f.payload) fun _ => rfl
  rw [hrec] at hsame
  have hstate : (NodeRec.shared (s.n (kHeadPos 0)) f.payload n).state = .integrated := by
    simp only [NodeRec.shared, hcode]
  refine ⟨(congrArg (Option.map NodeRec.state) hsame).trans (congrArg some hstate), congrArg (Option.map NodeRec.writtenA) hsame,
    fun b hb => RingSt.rec?_onRec_other _ hb fun _ => rfl, rfl, changes_rings s _⟩

end Sys2Proof.Machine

namespace Sys2Proof
open Machine

/-- Settles O42: an event runs through `completeEvent`, whose owner's form is written out once; the node, the head and the records
of the ring each change alone. -/
theorem nodeEvents : Obligations.NodeEvents := by
  intro s f hup hlength
  refine ⟨fun hlast hown hnone hseen => ?_, fun hlast hown hnone hroom hseen hd hu => ?_, fun hmore => ?_, ?_, ?_, ?_, ?_, ?_⟩
  · have hcopy := (completeEvent_owner hown f.ring f.addr.toNat f.payload).trans (if_pos hseen)
    exact ⟨s.acked f.ring f.addr.toNat f.payload, congrArg Host.Outcome.next ((event_single hup hlength hlast hnone).trans hcopy),
      rfl, rfl, changes_dict s _, rfl⟩
  · exact ⟨_, congrArg Host.Outcome.next (event_single hup hlength hlast hnone), completeEvent_frame hown hseen hd hu hroom⟩
  · obtain ⟨l, hl⟩ := event_more hup hlength hmore
    exact ⟨_, congrArg Host.Outcome.next hl, rfl, rfl, rfl, changes_dict s _⟩
  · intro r a head e haddr hevent
    exact ⟨evtAck_node haddr hevent, eventResend_again haddr hevent, eventResend_last haddr hevent⟩
  · exact fun r a head e l haddr hevents hhead => evtAck_head haddr hevents hhead
  · exact fun r a n hrec hexcluded hbarred hown => rejoinHoldExpiry_opens hrec hexcluded hbarred hown
  · exact fun hpair => ⟨_, congrArg Host.Outcome.next (if_pos (by simp [hpair])), rfl⟩
  · exact fun a n hpair hone ha hcode hrec => nodeStatusShare_frame hpair hone ha hcode hrec

end Sys2Proof
end

section
/-! SUPPORT. Writes in SERVICE take effect at once (R388, R389). -/

namespace Sys2Proof.Machine

variable {rq : Requester} {index sub : Nat} {v : Bytes} {own : State → Nat} {s : State}

theorem direct_service (h : s.dev.state = .service) (index sub : Nat) : Direct index sub s :=
  ⟨by simp [State.isIn, h], fun r _ => by simp [staging, h]⟩

/-- An accepted write in SERVICE: its effect on the state in which its requester has its outcome, and what is forwarded. -/
theorem submitWrite_service (h : InService rq index sub v s) (hown : own s = 0) (eff : State → State) :
    ∃ g, submitWrite rq index sub v own eff s = (eff (s.accepted rq index sub)).onPair g := by
  obtain ⟨hserved, hcheck, hblock, hstate⟩ := h
  exact submitWrite_direct ⟨hserved, hcheck, hblock, hown⟩ (direct_service hstate index sub) eff

/-- A write in SERVICE whose own check refuses it is answered with the code of the check. -/
theorem submitWrite_service_refused (h : InService rq index sub v s) {n : Nat} (hown : own s = n) (hcode : n ≠ 0)
    (hpending : n ≠ resPending) (hlevel : n ≠ abLevel) (hrefused : n ≠ abState) (eff : State → State) :
    submitWrite rq index sub v own eff s = s.answer rq n := by
  obtain ⟨hserved, hcheck, hblock, -⟩ := h
  exact submitWrite_refused hserved hcheck hblock hown hcode hpending hlevel hrefused eff

/-- A write in SERVICE whose answer comes later: its effect, with no other change than of the dictionary before it. -/
theorem submitWrite_service_pending (h : InService rq index sub v s) (hown : own s = resPending) (eff : State → State) :
    ∃ x g, submitWrite rq index sub v own eff s = (eff { s with dict := x }).onPair g := by
  obtain ⟨hserved, hcheck, hblock, hstate⟩ := h
  exact submitWrite_pending hserved hcheck hblock hown (direct_service hstate index sub) eff

end Sys2Proof.Machine
end


section
/-! SUPPORT. The redundant pair: RED_STATUS (R382), digests (R369), heartbeats (R362 to R365) and forwarded requests (R371). -/

namespace Sys2Proof.Machine

/-! ### RED_STATUS and the records -/

/-- What bits of RED_STATUS, the interrupt that tells of them and records change. -/
structure RedWork (bs : List Nat) (s t : State) : Prop where
  parts : Changes [.objs, .dict, .recd] s t
  objs : ChangesObjs [kRedStatus, kRecStatus, kRecDrops] s t
  bits : ∀ b < 16, b ∉ bs → t.bit kRedStatus b = s.bit kRedStatus b
  writes : t.dict.pendingWrites = s.dict.pendingWrites

section
variable {bs cs : List Nat} {s t u : State}

theorem RedWork.refl (bs : List Nat) (s : State) : RedWork bs s s := ⟨.refl _ s, .refl _ s, fun _ _ _ => rfl, rfl⟩

theorem RedWork.trans (hst : RedWork bs s t) (htu : RedWork bs t u) : RedWork bs s u :=
  ⟨hst.parts.trans htu.parts, hst.objs.trans htu.objs, fun b hb h => (htu.bits b hb h).trans (hst.bits b hb h),
    htu.writes.trans hst.writes⟩

theorem RedWork.mono (h : RedWork bs s t) (hsub : ∀ b ∈ bs, b ∈ cs) : RedWork cs s t :=
  ⟨h.parts, h.objs, fun b hb hn => h.bits b hb fun hin => hn (hsub b hin), h.writes⟩

theorem RedWork.pair (h : RedWork bs s t) : t.pair = s.pair := h.parts.2 .pair (by decide)

theorem RedWork.dev (h : RedWork bs s t) : t.dev = s.dev := h.parts.2 .dev (by decide)

theorem RedWork.claim (h : RedWork bs s t) : t.n kRedClaimState = s.n kRedClaimState := h.objs.n (by decide)

theorem RedWork.owner (h : RedWork bs s t) : t.owner = s.owner := by rw [State.owner, State.owner, h.claim]

theorem RedWork.standby (h : RedWork bs s t) : t.standby = s.standby := by rw [State.standby, State.standby, h.claim]

theorem redStatus_bits {b : Nat} (hb : b < 16) : b < 8 * (objDefault kRedStatus).length := hb

theorem redWork_redBit (s : State) (b : Nat) (v : Bool) : RedWork [b] s (s.redBit b v) := by
  unfold State.redBit
  split
  · exact .refl _ s
  · exact ⟨((changes_setBit s _ b v).mono (by decide)).trans ((changes_interrupt _ 6).mono (by decide)),
      (changesObjs_setBit s kRedStatus b v).mono (by decide),
      fun j hj hne => State.bit_setBit_beside s kRedStatus v (redStatus_bits hj) (by simpa using hne), rfl⟩

theorem redBit_frame (s : State) (b : Nat) (v : Bool) :
    ChangesObjs [kRedStatus] s (s.redBit b v) ∧ Changes [.objs, .dict] s (s.redBit b v) := by
  unfold State.redBit
  split
  · exact ⟨.refl _ s, .refl _ s⟩
  · exact ⟨changesObjs_setBit s kRedStatus b v,
      ((changes_setBit s _ b v).mono (by decide)).trans ((changes_interrupt _ 6).mono (by decide))⟩

theorem bit_redBit_same (s : State) {b : Nat} (hb : b < 16) (v : Bool) : (s.redBit b v).bit kRedStatus b = v := by
  unfold State.redBit
  split
  case isTrue h => exact h
  case isFalse h => exact State.bit_setBit_same s kRedStatus b v (redStatus_bits hb)

theorem redWork_log (s : State) (type : Nat) (payload : Bytes) : RedWork [] s (s.log type payload) := by
  obtain ⟨hparts, hobjs⟩ := record_recordOnly s 0 type false payload
  exact ⟨hparts.mono (by decide), hobjs.mono (by decide), fun b _ _ => hobjs.bit (by decide) b,
    congrArg StDict.pendingWrites (hparts.2 .dict (by decide))⟩

/-- A bit and the record that tells of it. -/
theorem redWork_marked (s : State) (b : Nat) (v : Bool) (type : Nat) (payload : Bytes) :
    RedWork [b] s ((s.redBit b v).log type payload) :=
  (redWork_redBit s b v).trans ((redWork_log _ type payload).mono (by simp))

theorem bit_marked (s : State) {b : Nat} (hb : b < 16) (v : Bool) (type : Nat) (payload : Bytes) :
    ((s.redBit b v).log type payload).bit kRedStatus b = v :=
  ((redWork_log _ type payload).bits b hb (by simp)).trans (bit_redBit_same s hb v)

end

/-! ### The work of the pair -/

/-- What the comparison of digests and the return of a path change: bits of RED_STATUS, the count of misses, records, a stop demand,
and what the pair keeps of digests. -/
structure PairWork (bs : List Nat) (s t : State) : Prop where
  parts : Changes [.objs, .pair, .dict, .recd, .dev] s t
  objs : ChangesObjs [kRedStatus, kRedDigestMiss, kRecStatus, kRecDrops] s t
  bits : ∀ b < 16, b ∉ bs → t.bit kRedStatus b = s.bit kRedStatus b
  writes : t.dict.pendingWrites = s.dict.pendingWrites
  state : t.dev.state = s.dev.state
  path : ∀ h, t.pair.path h = s.pair.path h
  heard : t.pair.heardSinceClaim = s.pair.heardSinceClaim
  link : t.pair.linkOut = s.pair.linkOut

section
variable {bs cs : List Nat} {s t u : State}

theorem PairWork.refl (bs : List Nat) (s : State) : PairWork bs s s :=
  ⟨.refl _ s, .refl _ s, fun _ _ _ => rfl, rfl, rfl, fun _ => rfl, rfl, rfl⟩

theorem PairWork.trans (hst : PairWork bs s t) (htu : PairWork bs t u) : PairWork bs s u :=
  ⟨hst.parts.trans htu.parts, hst.objs.trans htu.objs, fun b hb h => (htu.bits b hb h).trans (hst.bits b hb h),
    htu.writes.trans hst.writes, htu.state.trans hst.state, fun h => (htu.path h).trans (hst.path h), htu.heard.trans hst.heard,
    htu.link.trans hst.link⟩

theorem RedWork.work (h : RedWork bs s t) (hsub : ∀ b ∈ bs, b ∈ cs) : PairWork cs s t := by
  have hpair := h.pair
  exact ⟨h.parts.mono (by decide), h.objs.mono (by decide), (h.mono hsub).bits, h.writes, congrArg StDev.state h.dev,
    fun p => congrArg (StPair.path · p) hpair, congrArg StPair.heardSinceClaim hpair, congrArg StPair.linkOut hpair⟩

/-- The pair's own state changes where neither a path nor the link does. -/
theorem pairWork_onPair (s : State) (f : StPair → StPair) (hpath : ∀ h, (f s.pair).path h = s.pair.path h)
    (hheard : (f s.pair).heardSinceClaim = s.pair.heardSinceClaim) (hlink : (f s.pair).linkOut = s.pair.linkOut) :
    PairWork bs s (s.onPair f) :=
  ⟨(changes_onPair s f).mono (by decide), .of_objs rfl _, fun _ _ _ => rfl, rfl, rfl, hpath, hheard, hlink⟩

theorem pairWork_stopDemand (s : State) : PairWork bs s s.stopDemand :=
  ⟨(changes_stopDemand s).mono (by decide), .of_objs rfl _, fun _ _ _ => rfl, rfl, rfl, fun _ => rfl, rfl, rfl⟩

theorem PairWork.ite {c : Prop} [Decidable c] (ht : PairWork bs s t) (hu : PairWork bs s u) : PairWork bs s (if c then t else u) := by
  split <;> assumption

/-! ### Digests (R368 to R370) -/

theorem pairWork_diverge (s : State) (first : Nat) : PairWork [5] s (s.diverge first) := by
  have hmarked := (redWork_marked s 5 true 0x0242 ([0, 0, 0, 0] ++ le 8 first)).work (cs := [5]) (by simp)
  have hnull := hmarked.trans (pairWork_onPair _ (fun p => { p with nullNext := true }) (fun h => by cases h <;> rfl) rfl rfl)
  exact .ite (.refl _ s) (.ite (hnull.trans (pairWork_stopDemand _)) hnull)

theorem bit_diverge (s : State) (first : Nat) : (s.diverge first).bit kRedStatus 5 = true := by
  have hmarked := bit_marked s (b := 5) (by decide) true 0x0242 ([0, 0, 0, 0] ++ le 8 first)
  unfold State.diverge
  split
  case isTrue h => exact h
  case isFalse h =>
    dsimp only
    split <;> exact hmarked

theorem pairWork_digestMiss (s : State) : PairWork bs s (s.inc kRedDigestMiss) :=
  ⟨(changes_setN s kRedDigestMiss _).mono (by decide), (changesObjs_setN s kRedDigestMiss _).mono (by decide),
    fun b _ _ => (changesObjs_setN s kRedDigestMiss _).bit (by decide) b, rfl, rfl, fun _ => rfl, rfl, rfl⟩

theorem pairWork_compareDigest (s : State) (cycle : Nat) (equal : Bool) : PairWork [5] s (s.compareDigest cycle equal) := by
  have hsame := pairWork_onPair (bs := [5]) s (fun p => { p with diffRun := 0, sameRun := p.sameRun + 1 }) (fun h => by cases h <;> rfl) rfl rfl
  have hdiff := (pairWork_digestMiss (bs := [5]) s).trans (pairWork_onPair _ (fun p =>
    { p with sameRun := 0, diffRun := p.diffRun + 1, firstDiff := if p.diffRun = 0 then cycle else p.firstDiff })
    (fun h => by cases h <;> rfl) rfl rfl)
  unfold State.compareDigest
  exact .ite (.ite (hsame.trans (pairWork_onPair _ _ (fun h => by cases h <;> rfl) rfl rfl)) hsame)
    (.ite (hdiff.trans (pairWork_diverge _ _)) hdiff)

theorem pairWork_peerDigest (s : State) (c d : Nat) : PairWork [5] s (s.peerDigest c d) := by
  unfold State.peerDigest
  split
  · exact .ite (.refl _ s)
      ((pairWork_onPair s (fun p => { p with peerDigests := (⟨c, d⟩ :: p.peerDigests).take 4 }) (fun h => by cases h <;> rfl) rfl rfl).trans
        (pairWork_compareDigest _ _ _))
  · exact .refl _ s

end

/-! ### Heartbeats (R362, R364, R365) -/

theorem path_setPath (p : StPair) (h : HbPath) (x : HbPathSt) : (p.setPath h x).path h = x := by cases h <;> rfl

theorem hbBit_cases (path : HbPath) : hbBit path = 3 ∨ hbBit path = 4 := by cases path <;> simp [hbBit, hbNo]

section
variable {s : State} {path : HbPath} {f : Frame}

/-- A heartbeat is counted on its path and kept. -/
def State.hbTaken (s : State) (path : HbPath) (f : Frame) : State :=
  (s.onPair (fun p => { p.setPath path { s.pair.path path with okRun := (s.pair.path path).okRun + 1, lastSeq := some f.seq.toNat } with
    heardSinceClaim := true
    partnerDetachAt := if (num f.payload 2 1).testBit 3 ∧ p.partnerDetachAt.isNone then some (s.cycle + 2) else p.partnerDetachAt })).patchObj
    kRedPeerHb (16 * hbNo path) (fit 16 f.payload)

/-- A lost path returns with its fourth heartbeat in a row, and the split view ends. -/
def State.restored (s : State) (path : HbPath) : State :=
  if s.bit kRedStatus (hbBit path) ∧ 4 ≤ (s.pair.path path).okRun then
    let s := (s.redBit (hbBit path) false).log 0x0241 (le 1 (hbNo path) ++ [1, 0, 0])
    if s.bit kRedStatus 6 then (s.redBit 6 false).onPair (fun p => { p with sameRun := 0 }) else s
  else s

theorem hb_taken (hpaired : s.paired = true) (hup : s.dev.phase = .up) (hnow : f.seq.toNat = s.cycle % 2 ^ 32)
    (hnew : (s.pair.path path).lastSeq ≠ some f.seq.toNat) : ∃ c, hb path f s =
      ((((s.hbTaken path f).settle (num f.payload 1 1)).restored path).peerDigest c (num f.payload 4 4)) := by
  unfold hb
  rw [if_neg (by simp only [not_or]; exact ⟨by simp [hpaired], fun h => h hup, fun h => h hnow, hnew⟩)]
  exact ⟨_, rfl⟩

theorem hbTaken_path (s : State) (path : HbPath) (f : Frame) : (s.hbTaken path f).pair.path path =
    { s.pair.path path with okRun := (s.pair.path path).okRun + 1, lastSeq := some f.seq.toNat } := by cases path <;> rfl

theorem hbTaken_frame (s : State) (path : HbPath) (f : Frame) :
    Changes [.objs, .pair] s (s.hbTaken path f) ∧ ChangesObjs [kRedPeerHb] s (s.hbTaken path f) :=
  ⟨((changes_onPair s _).mono (by decide)).trans ((changes_setObj _ _ _).mono (by decide)), changesObjs_setObj (s.onPair _) kRedPeerHb _⟩

theorem redWork_settle (s : State) (role : Nat) : RedWork [1] s (s.settle role) := redWork_redBit s 1 _

theorem bit_settle (s : State) (role : Nat) : (s.settle role).bit kRedStatus 1 =
    (s.owner && (role == 0 || s.bit kRedStatus 7) || s.n kRedClaimState == 1 && role == 1) := bit_redBit_same s (by decide) _

theorem pairWork_restored (s : State) (path : HbPath) : PairWork [hbBit path, 6] s (s.restored path) := by
  have hback := (redWork_marked s (hbBit path) false 0x0241 (le 1 (hbNo path) ++ [1, 0, 0])).work (cs := [hbBit path, 6]) (by simp)
  have hview (u : State) : PairWork [hbBit path, 6] u ((u.redBit 6 false).onPair (fun p => { p with sameRun := 0 })) :=
    ((redWork_redBit u 6 false).work (by simp)).trans (pairWork_onPair _ _ (fun h => by cases h <;> rfl) rfl rfl)
  exact .ite (.ite (hback.trans (hview _)) hback) (.refl _ s)

theorem bit_restored (hrun : 4 ≤ (s.pair.path path).okRun) : (s.restored path).bit kRedStatus (hbBit path) = false := by
  have hroom : hbBit path < 16 := by obtain h | h := hbBit_cases path <;> omega
  have hother : hbBit path ∉ [6] := by obtain h | h := hbBit_cases path <;> simp [h]
  have hback := bit_marked s hroom false 0x0241 (le 1 (hbNo path) ++ [1, 0, 0])
  unfold State.restored
  split
  · dsimp only
    split
    · exact ((redWork_redBit _ 6 false).bits _ hroom hother).trans hback
    · exact hback
  case isFalse h => exact Bool.eq_false_iff.mpr fun hset => h ⟨hset, hrun⟩

theorem hb_accepted (hpaired : s.paired = true) (hup : s.dev.phase = .up) (hnow : f.seq.toNat = s.cycle % 2 ^ 32)
    (hnew : (s.pair.path path).lastSeq ≠ some f.seq.toNat) : Completes (.hb path f) s (fun t =>
      (t.pair.path path).okRun = (s.pair.path path).okRun + 1 ∧ (t.pair.path path).lastSeq = some f.seq.toNat ∧
      t.obj kRedPeerHb = patch (s.obj kRedPeerHb) (16 * hbNo path) (fit 16 f.payload) ∧ t.pair.heardSinceClaim = true ∧
      (3 ≤ (s.pair.path path).okRun → t.bit kRedStatus (hbBit path) = false) ∧
      (s.owner = true → num f.payload 1 1 = 0 → t.bit kRedStatus 1 = true) ∧
      (s.owner = true → num f.payload 1 1 = 1 → s.bit kRedStatus 7 = false → t.bit kRedStatus 1 = false) ∧ t.dev.state = s.dev.state ∧
      ChangesObjs [kRedPeerHb, kRedStatus, kRedDigestMiss, kRecStatus, kRecDrops] s t ∧
      Changes [.objs, .pair, .dict, .recd, .dev] s t) := by
  obtain ⟨c, hexec⟩ := hb_taken hpaired hup hnow hnew
  refine ⟨_, congrArg Host.Outcome.next hexec, ?_⟩
  obtain ⟨hparts, hobjs⟩ := hbTaken_frame s path f
  have hpath := hbTaken_path s path f
  have hkept : (s.hbTaken path f).obj kRedPeerHb = patch (s.obj kRedPeerHb) (16 * hbNo path) (fit 16 f.payload) :=
    State.obj_setObj_same _ _ _
  have hheard : (s.hbTaken path f).pair.heardSinceClaim = true := rfl
  have hstate : (s.hbTaken path f).dev.state = s.dev.state := rfl
  have hclaim : (s.hbTaken path f).n kRedClaimState = s.n kRedClaimState := hobjs.n (by decide)
  have hseven : (s.hbTaken path f).bit kRedStatus 7 = s.bit kRedStatus 7 := hobjs.bit (by decide) 7
  generalize s.hbTaken path f = a at *
  have hsettled := redWork_settle a (num f.payload 1 1)
  have hrole := bit_settle a (num f.payload 1 1)
  rw [State.owner, hclaim, hseven] at hrole
  have hsettle := hsettled.work (cs := [1, hbBit path, 6, 5]) (by simp)
  generalize a.settle (num f.payload 1 1) = b at *
  have hreturn := pairWork_restored b path
  have hback := bit_restored (s := b) (path := path)
  generalize b.restored path = d at *
  have hdigest := pairWork_peerDigest d c (num f.payload 4 4)
  generalize d.peerDigest c (num f.payload 4 4) = t at *
  have hone : t.bit kRedStatus 1 = b.bit kRedStatus 1 :=
    (hdigest.bits 1 (by decide) (by decide)).trans (hreturn.bits 1 (by decide) (by obtain h | h := hbBit_cases path <;> simp [h]))
  have htpath : t.pair.path path = a.pair.path path := ((hdigest.path path).trans (hreturn.path path)).trans (hsettle.path path)
  have hbpath : b.pair.path path = a.pair.path path := hsettle.path path
  refine ⟨?_, ?_, ?_, ?_, ?_, ?_, ?_, ?_, ?_, ?_⟩
  · rw [htpath, hpath]
  · rw [htpath, hpath]
  · exact ((hdigest.objs _ (by decide)).trans ((hreturn.objs _ (by decide)).trans (hsettle.objs _ (by decide)))).trans hkept
  · exact (hdigest.heard.trans (hreturn.heard.trans hsettle.heard)).trans hheard
  · intro hrun
    rw [hdigest.bits _ (by obtain h | h := hbBit_cases path <;> omega) (by obtain h | h := hbBit_cases path <;> simp [h])]
    exact hback (by rw [hbpath, hpath]; exact Nat.succ_le_succ hrun)
  · intro howner hzero
    rw [hone, hrole, hzero]
    simp [show s.n kRedClaimState = 3 by simpa [State.owner] using howner]
  · intro howner hother hseven
    rw [hone, hrole, hother, hseven]
    simp [show s.n kRedClaimState = 3 by simpa [State.owner] using howner]
  · exact (hdigest.state.trans (hreturn.state.trans hsettle.state)).trans hstate
  · exact (hobjs.mono (by decide)).trans ((hsettle.objs.mono (by decide)).trans ((hreturn.objs.mono (by decide)).trans
      (hdigest.objs.mono (by decide))))
  · exact (hparts.mono (by decide)).trans (hsettle.parts.trans (hreturn.parts.trans hdigest.parts))

/-! ### The loss of a path (R364, R365) -/

/-- A path is marked as lost. -/
def State.pathLost (s : State) (path : HbPath) : State :=
  ((s.redBit (hbBit path) true).log 0x0241 (le 1 (hbNo path) ++ [0, 0, 0])).onPair
    (fun p => p.setPath path { p.path path with okRun := 0 })

/-- The owner that hears its partner on no path acts alone. -/
def State.ownerAlone (s : State) : State := (s.redBit 7 true).onPair (fun p => { p with actAlone := true })

/-- The standby that hears a partner which still claims on no path sees a split view. -/
def State.splitView (s : State) : State :=
  ((s.redBit 6 true).log 0x0243 [0, 0, 0, 0]).onPair (fun p => { p with splitNull := true, sameRun := 0 })

theorem hbPathLoss_lost (hpaired : s.paired = true) (hheard : s.bit kRedStatus (hbBit path) = false) : hbPathLoss path s =
    if (s.pathLost path).bit kRedStatus 3 = true ∧ (s.pathLost path).bit kRedStatus 4 = true then
      if (s.pathLost path).owner then (s.pathLost path).ownerAlone
      else if (s.pathLost path).standby ∧ (s.pathLost path).pair.peer then (s.pathLost path).splitView
      else s.pathLost path
    else s.pathLost path := by
  unfold hbPathLoss
  rw [if_neg (by simp [hpaired, hheard])]
  rfl

/-- What is left of a path that is marked as lost. -/
theorem pathLost_spec (s : State) (path : HbPath) : (s.pathLost path).bit kRedStatus (hbBit path) = true ∧
    ((s.pathLost path).pair.path path).okRun = 0 ∧ (∀ b < 16, b ≠ hbBit path → (s.pathLost path).bit kRedStatus b = s.bit kRedStatus b) ∧
    (s.pathLost path).owner = s.owner ∧ (s.pathLost path).standby = s.standby ∧ (s.pathLost path).pair.peer = s.pair.peer ∧
    ChangesObjs [kRedStatus, kRecStatus, kRecDrops] s (s.pathLost path) ∧ Changes [.objs, .pair, .dict, .recd] s (s.pathLost path) := by
  have hroom : hbBit path < 16 := by obtain h | h := hbBit_cases path <;> omega
  have hmarked := redWork_marked s (hbBit path) true 0x0241 (le 1 (hbNo path) ++ [0, 0, 0])
  have hpeer : (s.pathLost path).pair.peer = ((s.redBit (hbBit path) true).log 0x0241 (le 1 (hbNo path) ++ [0, 0, 0])).pair.peer := by
    cases path <;> rfl
  refine ⟨bit_marked s hroom true _ _, congrArg HbPathSt.okRun (path_setPath _ path _), fun b hb hne => hmarked.bits b hb (by simpa using hne),
    hmarked.owner, hmarked.standby, hpeer.trans (congrArg StPair.peer hmarked.pair), hmarked.objs,
    (hmarked.parts.mono (by decide)).trans ((changes_onPair _ _).mono (by decide))⟩

/-- A path keeps its mark while another bit and the pair's view change. -/
theorem viewed_spec {s t : State} {b : Nat} (hwork : RedWork [b] s t) (hb : ∀ path, hbBit path ≠ b) (path : HbPath) (f : StPair → StPair)
    (hpath : ∀ p : StPair, (f p).path path = p.path path) : (t.onPair f).bit kRedStatus (hbBit path) = s.bit kRedStatus (hbBit path) ∧
    ((t.onPair f).pair.path path).okRun = (s.pair.path path).okRun ∧
    ChangesObjs [kRedStatus, kRecStatus, kRecDrops] s (t.onPair f) ∧ Changes [.objs, .pair, .dict, .recd] s (t.onPair f) := by
  have hroom : hbBit path < 16 := by obtain h | h := hbBit_cases path <;> omega
  exact ⟨hwork.bits _ hroom (by simpa using hb path), congrArg HbPathSt.okRun ((hpath _).trans (congrArg (StPair.path · path) hwork.pair)),
    hwork.objs, (hwork.parts.mono (by decide)).trans ((changes_onPair t f).mono (by decide))⟩

theorem hbBit_other (path : HbPath) : hbBit path ≠ 7 ∧ hbBit path ≠ 6 := by obtain h | h := hbBit_cases path <;> simp [h]

/-- Both paths are lost where the other one was lost before. -/
theorem pathLost_both (s : State) (path : HbPath) : ((s.pathLost path).bit kRedStatus 3 = true ∧ (s.pathLost path).bit kRedStatus 4 = true) ↔
    s.bit kRedStatus (7 - hbBit path) = true := by
  obtain ⟨hlost, -, hother, -⟩ := pathLost_spec s path
  cases path with
  | link =>
    rw [show s.bit kRedStatus (7 - hbBit .link) = (s.pathLost .link).bit kRedStatus 4 from (hother 4 (by decide) (by decide)).symm]
    exact and_iff_right hlost
  | ringM =>
    rw [show s.bit kRedStatus (7 - hbBit .ringM) = (s.pathLost .ringM).bit kRedStatus 3 from (hother 3 (by decide) (by decide)).symm]
    exact and_iff_left hlost

theorem hbPathLoss_frame (hpaired : s.paired = true) (hheard : s.bit kRedStatus (hbBit path) = false) :
    Completes (.hbPathLoss path) s (fun t => t.bit kRedStatus (hbBit path) = true ∧ (t.pair.path path).okRun = 0 ∧
      (s.bit kRedStatus (7 - hbBit path) = true →
        (s.owner = true → t.bit kRedStatus 7 = true ∧ t.pair.actAlone = true) ∧
        (s.standby = true → s.pair.peer = true → t.bit kRedStatus 6 = true ∧ t.pair.splitNull = true)) ∧
      (s.bit kRedStatus (7 - hbBit path) = false → t.bit kRedStatus 7 = s.bit kRedStatus 7 ∧ t.bit kRedStatus 6 = s.bit kRedStatus 6) ∧
      ChangesObjs [kRedStatus, kRecStatus, kRecDrops] s t ∧ Changes [.objs, .pair, .dict, .recd] s t) := by
  obtain ⟨hlost, hrun, hother, howner, hstandby, hpeer, hobjs, hparts⟩ := pathLost_spec s path
  have hboth := pathLost_both s path
  refine ⟨_, congrArg Host.Outcome.next (hbPathLoss_lost hpaired hheard), ?_⟩
  generalize s.pathLost path = a at *
  obtain ⟨hseven, hsix⟩ := hbBit_other path
  by_cases hall : a.bit kRedStatus 3 = true ∧ a.bit kRedStatus 4 = true
  · rw [if_pos hall, ← howner, ← hstandby, ← hpeer]
    have hbefore := hboth.mp hall
    by_cases hown : a.owner = true
    · rw [if_pos hown]
      have hnot : a.standby = false := by
        have hthree : a.n kRedClaimState = 3 := by simpa [State.owner] using hown
        simp [State.standby, hthree]
      obtain ⟨hbit, hok, halone, hframe⟩ := viewed_spec (redWork_redBit a 7 true) (fun p => (hbBit_other p).1) path
        (fun p => { p with actAlone := true }) fun _ => by cases path <;> rfl
      exact ⟨hbit.trans hlost, hok.trans hrun, fun _ => ⟨fun _ => ⟨bit_redBit_same a (by decide) true, rfl⟩, fun h => by simp [hnot] at h⟩,
        fun h => by simp [hbefore] at h, hobjs.trans halone, hparts.trans hframe⟩
    · rw [if_neg hown]
      by_cases hsees : a.standby = true ∧ a.pair.peer = true
      · rw [if_pos hsees]
        obtain ⟨hbit, hok, hview, hframe⟩ := viewed_spec (redWork_marked a 6 true 0x0243 [0, 0, 0, 0]) (fun p => (hbBit_other p).2) path
          (fun p => { p with splitNull := true, sameRun := 0 }) fun _ => by cases path <;> rfl
        exact ⟨hbit.trans hlost, hok.trans hrun, fun _ => ⟨fun h => absurd h hown, fun _ _ => ⟨bit_marked a (by decide) true _ _, rfl⟩⟩,
          fun h => by simp [hbefore] at h, hobjs.trans hview, hparts.trans hframe⟩
      · rw [if_neg hsees]
        exact ⟨hlost, hrun, fun _ => ⟨fun h => absurd h hown, fun h hp => absurd ⟨h, hp⟩ hsees⟩, fun h => by simp [hbefore] at h,
          hobjs, hparts⟩
  · rw [if_neg hall]
    exact ⟨hlost, hrun, fun h => absurd (hboth.mpr h) hall, fun _ => ⟨hother 7 (by decide) hseven.symm, hother 6 (by decide) hsix.symm⟩,
      hobjs, hparts⟩

/-- The owner that has heard nobody since its claim is settled alone. -/
theorem partnerAbsent_alone (hpaired : s.paired = true) (howner : s.owner = true) (hheard : s.pair.heardSinceClaim = false) :
    Completes .partnerAbsent s (fun t => t.bit kRedStatus 7 = true ∧ t.bit kRedStatus 1 = true ∧ ChangesObjs [kRedStatus] s t ∧
      Changes [.objs, .dict] s t) := by
  have hexec : partnerAbsent s = (s.redBit 7 true).redBit 1 true := if_pos (by simp [hpaired, howner, hheard])
  have hseven := (redWork_redBit (s.redBit 7 true) 1 true).bits 7 (by decide) (by decide)
  have hmarks := (redBit_frame s 7 true).1.trans (redBit_frame (s.redBit 7 true) 1 true).1
  exact ⟨_, congrArg Host.Outcome.next hexec, hseven.trans (bit_redBit_same s (by decide) true), bit_redBit_same _ (by decide) true, hmarks,
    (redBit_frame s 7 true).2.trans (redBit_frame _ 1 true).2⟩

/-! ### Forwarded requests (R371) -/

theorem cycle_of_time {s t : State} (htime : t.time = s.time) (hbasic : t.n kBasicCycle = s.n kBasicCycle) : t.cycle = s.cycle := by
  rw [State.cycle, State.cycle, State.cellNs, State.cellNs, State.tns, State.tns, htime, hbasic]

/-- The state in which a forwarded request has come, a gap of the sequence marked. -/
def State.sequenced (s : State) (c : Nat) : State :=
  if (match s.pair.cseqIn with
    | some d => c != (d + 1) % 2 ^ 32
    | none => false) then s.diverge s.cycle else s

theorem sequenced_work (s : State) (c : Nat) : PairWork [5] s (s.sequenced c) := .ite (pairWork_diverge s _) (.refl _ s)

theorem sequenced_gap {c d : Nat} (hlast : s.pair.cseqIn = some d) (hgap : c ≠ (d + 1) % 2 ^ 32) :
    (s.sequenced c).bit kRedStatus 5 = true := by
  unfold State.sequenced
  rw [hlast, if_pos (by simpa using hgap)]
  exact bit_diverge s _

theorem sequenced_next {c : Nat} (hnext : s.pair.cseqIn = none ∨ ∃ d, s.pair.cseqIn = some d ∧ c = (d + 1) % 2 ^ 32) :
    s.sequenced c = s := by
  unfold State.sequenced
  obtain h | ⟨d, h, hc⟩ := hnext
  · rw [h, if_neg (by simp)]
  · rw [h, if_neg (by simp [hc])]

/-- A forwarded write of another object than DEV_CMD waits, and its frame is acknowledged. -/
theorem forwardedRequest_write (hpaired : s.paired = true) (hstandby : s.standby = true) (hop : (parseMsg (f.payload.drop 8)).op = 2)
    (hkey : objKey (parseMsg (f.payload.drop 8)).index.toNat (parseMsg (f.payload.drop 8)).sub.toNat ≠ kDevCmd) :
    let a := (((s.sequenced (num f.payload 0 4)).onPair (fun p => { p with cseqIn := some (num f.payload 0 4) })).linkSend 4 5
      (le 4 (num f.payload 0 4)))
    forwardedRequest f s = { a with dict := { a.dict with pendingWrites := a.dict.pendingWrites ++
      [⟨.partner, objKey (parseMsg (f.payload.drop 8)).index.toNat (parseMsg (f.payload.drop 8)).sub.toNat, (f.payload.drop 8).drop 16,
        a.cycleOf (num f.payload 4 4)⟩] } } := by
  intro a
  have hforward : forwardedRequest f s = a.takeForwarded (a.cycleOf (num f.payload 4 4)) (f.payload.drop 8) :=
    if_neg (by simp [hpaired, hstandby])
  rw [hforward, State.takeForwarded]
  dsimp only
  rw [if_neg (by simp [hop]), if_neg hkey]

/-- The payload of an acknowledgement is one word, which needs no filling. -/
theorem word_whole (c : Nat) : fit (((le 4 c).length + 3) / 4 * 4) (le 4 c) = le 4 c := by
  rw [fit_words, le_length]
  exact List.append_nil _

theorem forwardedRequest_waits (hpaired : s.paired = true) (hstandby : s.standby = true)
    (hop : (parseMsg (f.payload.drop 8)).op = 2)
    (hkey : objKey (parseMsg (f.payload.drop 8)).index.toNat (parseMsg (f.payload.drop 8)).sub.toNat ≠ kDevCmd) :
    Completes (.forwardedRequest f) s (fun t =>
      t.dict.pendingWrites = s.dict.pendingWrites ++ [⟨.partner,
        objKey (parseMsg (f.payload.drop 8)).index.toNat (parseMsg (f.payload.drop 8)).sub.toNat, f.payload.drop 24,
        s.cycleOf (num f.payload 4 4)⟩] ∧
      t.pair.cseqIn = some (num f.payload 0 4) ∧
      (∃ g : Frame, t.pair.linkOut = s.pair.linkOut ++ [g] ∧ g.slot = 4 ∧ g.type = 5 ∧ g.payload = le 4 (num f.payload 0 4)) ∧
      (∀ d, s.pair.cseqIn = some d → num f.payload 0 4 ≠ (d + 1) % 2 ^ 32 → t.bit kRedStatus 5 = true) ∧
      (s.pair.cseqIn = none ∨ (∃ d, s.pair.cseqIn = some d ∧ num f.payload 0 4 = (d + 1) % 2 ^ 32) → t.objs = s.objs)) := by
  have hwork := sequenced_work s (num f.payload 0 4)
  have hgap := fun d => sequenced_gap (s := s) (c := num f.payload 0 4) (d := d)
  have hnext := sequenced_next (s := s) (c := num f.payload 0 4)
  refine ⟨_, congrArg Host.Outcome.next (forwardedRequest_write hpaired hstandby hop hkey), ?_⟩
  generalize s.sequenced (num f.payload 0 4) = a at *
  have hcycle : a.cycle = s.cycle :=
    cycle_of_time (hwork.parts.2 .time (by decide)) (hwork.objs.n (by decide))
  have happly : a.cycleOf (num f.payload 4 4) = s.cycleOf (num f.payload 4 4) := by rw [State.cycleOf, State.cycleOf, hcycle]
  refine ⟨?_, rfl, ⟨_, congrArg (· ++ _) hwork.link, rfl, rfl, word_whole _⟩, fun d hlast h => hgap d hlast h, fun h => ?objs⟩
  case objs => exact (show a.objs = s.objs by rw [hnext h])
  rw [← hwork.writes, ← happly, show f.payload.drop 24 = (f.payload.drop 8).drop 16 by rw [List.drop_drop]]
  rfl

/-- A request that nobody acknowledged in time is marked and forgotten. -/
theorem cmdUnacked_marks {x : Forwarded} (howner : s.owner = true) (honly : s.pair.forwarded = [x]) (hlate : x.applyCycle ≤ s.cycle + 1) :
    Completes .cmdUnacked s (fun t => t.bit kRedStatus 9 = true ∧ t.pair.forwarded = [] ∧ ChangesObjs [kRedStatus] s t ∧
      Changes [.objs, .pair, .dict] s t) := by
  have hforget : s.pair.forwarded.filter (fun x => decide (s.cycle + 1 < x.applyCycle)) = [] := by simp [honly, hlate]
  have hexec : cmdUnacked s = (s.redBit 9 true).onPair (fun p =>
      { p with forwarded := p.forwarded.filter (fun x => decide (s.cycle + 1 < x.applyCycle)) }) := by
    unfold cmdUnacked
    dsimp only
    rw [if_neg (by simp [howner, honly, hlate])]
  have hpair := (redWork_redBit s 9 true).pair
  obtain ⟨hobjs, hparts⟩ := redBit_frame s 9 true
  refine ⟨_, congrArg Host.Outcome.next hexec, bit_redBit_same s (by decide) true, ?_, hobjs,
    (hparts.mono (by decide)).trans ((changes_onPair _ _).mono (by decide))⟩
  exact (congrArg (fun p : StPair => p.forwarded.filter (fun x => decide (s.cycle + 1 < x.applyCycle))) hpair).trans hforget

theorem cmdUnacked_none (hearly : ∀ x ∈ s.pair.forwarded, s.cycle + 1 < x.applyCycle) : cmdUnacked s = s := by
  have hnone : s.pair.forwarded.filter (fun x => decide (x.applyCycle ≤ s.cycle + 1)) = [] :=
    List.filter_eq_nil_iff.mpr fun x hx => by simpa using hearly x hx
  unfold cmdUnacked
  dsimp only
  rw [hnone, if_pos (by simp)]

end

end Sys2Proof.Machine

namespace Sys2Proof
open Machine

/-- Settles O44: the work of a heartbeat, of a lost path and of a forwarded request is `PairWork` and `RedWork`, which say what stays;
the marks are set last or kept by what follows. -/
theorem pairTraffic : Obligations.PairTraffic := by
  intro s path f
  refine ⟨hb_accepted, fun h => ?_, hbPathLoss_frame, partnerAbsent_alone, fun h => ?_, ?_, fun h => ?_, ?_, ?_, ?_⟩
  · exact ⟨_, congrArg Host.Outcome.next (if_pos (by simpa using h)), rfl⟩
  · refine ⟨_, congrArg Host.Outcome.next (if_neg ?_), rfl⟩
    obtain h | h | h := h <;> simp [h]
  · intro hpaired hstandby hop q hkey
    exact forwardedRequest_waits hpaired hstandby hop hkey
  · exact ⟨_, congrArg Host.Outcome.next (if_pos (by simpa using h)), rfl⟩
  · exact ⟨_, rfl, rfl, rfl, changes_onPair s _⟩
  · exact fun x howner honly hlate => cmdUnacked_marks howner honly hlate
  · exact fun hearly => ⟨_, congrArg Host.Outcome.next (cmdUnacked_none hearly), rfl⟩

end Sys2Proof
end

section
/-! SUPPORT. The claim logic (R361), DETACH (R374), the rejoin (R375) and the swap (R378, R379). -/

namespace Sys2Proof.Machine

/-! ### The claim state and the role -/

section
variable {s t u : State}

/-- The objects of the claim logic and of its records. -/
def claimKeys : List Nat := [kRedClaimState, kRedStatus, kRecStatus, kRecDrops]

/-- What a change of the claim or of the role may change. -/
structure ClaimWork (bs : List Nat) (s t : State) : Prop where
  parts : Changes [.objs, .pair, .dict, .recd] s t
  objs : ChangesObjs claimKeys s t
  bits : ∀ b < 16, b ∉ bs → t.bit kRedStatus b = s.bit kRedStatus b

theorem ClaimWork.trans {bs : List Nat} (hst : ClaimWork bs s t) (htu : ClaimWork bs t u) : ClaimWork bs s u :=
  ⟨hst.parts.trans htu.parts, hst.objs.trans htu.objs, fun b hb h => (htu.bits b hb h).trans (hst.bits b hb h)⟩

theorem ClaimWork.mono {bs cs : List Nat} (h : ClaimWork bs s t) (hsub : ∀ b ∈ bs, b ∈ cs) : ClaimWork cs s t :=
  ⟨h.parts, h.objs, fun b hb hn => h.bits b hb fun hin => hn (hsub b hin)⟩

theorem ClaimWork.dev {bs : List Nat} (h : ClaimWork bs s t) : t.dev = s.dev := h.parts.2 .dev (by decide)

theorem RedWork.claimWork {bs : List Nat} (h : RedWork bs s t) : ClaimWork bs s t :=
  ⟨h.parts.mono (by decide), h.objs.mono (by decide), h.bits⟩

theorem claimWork_onPair (s : State) (f : StPair → StPair) : ClaimWork [] s (s.onPair f) :=
  ⟨(changes_onPair s f).mono (by decide), .of_objs rfl _, fun _ _ _ => rfl⟩

/-- The claim state is written, and the role is no longer settled. -/
theorem setClaim_spec (s : State) {c : Nat} (hc : c < 256) :
    (s.setClaim c).n kRedClaimState = c ∧ (s.setClaim c).pair = s.pair ∧ ClaimWork [1] s (s.setClaim c) := by
  have hset : (s.setN kRedClaimState c).n kRedClaimState = c := (State.n_setN_same _ _ _).trans (Nat.mod_eq_of_lt hc)
  have hred := redWork_redBit (s.setN kRedClaimState c) 1 false
  have hclaim : ((s.setN kRedClaimState c).redBit 1 false).n kRedClaimState = c := hred.claim.trans hset
  have hwork : ClaimWork [1] s ((s.setN kRedClaimState c).redBit 1 false) :=
    ClaimWork.trans ⟨(changes_setN s _ c).mono (by decide), (changesObjs_setN s kRedClaimState c).mono (by decide),
      fun b _ _ => (changesObjs_setN s kRedClaimState c).bit (by decide) b⟩ hred.claimWork
  unfold State.setClaim
  dsimp only
  split
  · exact ⟨hclaim, hred.pair, hwork⟩
  · exact ⟨hclaim, hred.pair, hwork.trans ⟨(changes_interrupt _ 6).mono (by decide), .of_objs rfl _, fun _ _ _ => rfl⟩⟩

theorem changes_setClaim (s : State) (c : Nat) : Changes [.objs, .pair, .dict] s (s.setClaim c) := by
  have hset := ((changes_setN s kRedClaimState c).mono (qs := [.objs, .pair, .dict]) (by decide)).trans
    ((redBit_frame (s.setN kRedClaimState c) 1 false).2.mono (by decide))
  unfold State.setClaim
  dsimp only
  split
  · exact hset
  · exact hset.trans ((changes_interrupt _ 6).mono (by decide))

/-- The pair's own state, but the time of the last role change. -/
def SamePair (p q : StPair) : Prop := ∃ r, q = { p with roleSince := r }

/-- A role change is recorded and starts the count of R379. -/
theorem roleChange_spec (s : State) (cause role : Nat) : SamePair s.pair (s.roleChange cause role).pair ∧
    (s.roleChange cause role).n kRedClaimState = s.n kRedClaimState ∧ ClaimWork [10] s (s.roleChange cause role) := by
  have hlog := redWork_log s 0x0240 (le 1 cause ++ le 1 role ++ [0, 0] ++ le 8 s.cycle)
  have hclaim : (s.roleChange cause role).n kRedClaimState = s.n kRedClaimState := (redWork_redBit _ 10 false).claim.trans hlog.claim
  refine ⟨⟨(s.log 0x0240 (le 1 cause ++ le 1 role ++ [0, 0] ++ le 8 s.cycle)).recd.optime, ?_⟩, hclaim, ?_⟩
  · rw [← hlog.pair]
    exact (redWork_redBit _ 10 false).pair
  · exact ((hlog.claimWork.mono (by simp)).trans ((claimWork_onPair _ _).mono (by simp))).trans (redWork_redBit _ 10 false).claimWork

/-! ### ILK_PEER (R360, R361) -/

/-- The level of ILK_PEER is kept. -/
def State.peerLevel (s : State) (lvl : Bool) : State := s.onPair (fun p => { p with peer := lvl })

theorem ilkPeerChange_wait (h : s.n kRedClaimState = 1) (lvl : Bool) : ilkPeerChange lvl s =
    if lvl then s.peerLevel lvl else ((s.peerLevel lvl).setClaim 2).onPair (fun p => { p with fromWait := true }) := by
  have hclaim : (s.onPair (fun p => { p with peer := lvl })).n kRedClaimState = 1 := h
  simp only [ilkPeerChange, hclaim, State.peerLevel]

theorem ilkPeerChange_holdoff (h : s.n kRedClaimState = 2) (lvl : Bool) : ilkPeerChange lvl s =
    if lvl then (if ((s.peerLevel lvl).setClaim 1).pair.fromWait then (s.peerLevel lvl).setClaim 1
      else ((s.peerLevel lvl).setClaim 1).roleChange 0 0)
    else s.peerLevel lvl := by
  have hclaim : (s.onPair (fun p => { p with peer := lvl })).n kRedClaimState = 2 := h
  simp only [ilkPeerChange, hclaim, State.peerLevel]
  rfl

/-- Both units claim past the overlap window: a double claim, which unit B ends. -/
def State.doubleClaim (s : State) : State := (s.redBit 8 true).log 0x0243 [1, 0, 0, 0]

/-- Both units claim: inside the overlap window unit B waits, past it the double claim is marked and unit B gives up. -/
def State.overlap (s : State) : State :=
  if s.cellQ ≤ s.pair.claimedAt + 500 * 65536 then
    if s.dev.unitId then (s.setClaim 1).roleChange 3 0 else s
  else if s.doubleClaim.dev.unitId then (s.doubleClaim.setClaim 4).devFault 0x0208 0xFF 0
  else s.doubleClaim

theorem ilkPeerChange_claiming (h : s.n kRedClaimState = 3) (lvl : Bool) : ilkPeerChange lvl s =
    if (!lvl) = true ∨ s.pair.swapAt = some s.cycle then s.peerLevel lvl else (s.peerLevel lvl).overlap := by
  have hclaim : (s.onPair (fun p => { p with peer := lvl })).n kRedClaimState = 3 := h
  simp only [ilkPeerChange, hclaim]
  rfl

theorem ilkPeerChange_other (h1 : s.n kRedClaimState ≠ 1) (h2 : s.n kRedClaimState ≠ 2) (h3 : s.n kRedClaimState ≠ 3) (lvl : Bool) :
    ilkPeerChange lvl s = s.peerLevel lvl := by
  unfold ilkPeerChange
  dsimp only
  split
  · exact absurd ‹_› h1
  · exact absurd ‹_› h2
  · exact absurd ‹_› h3
  · rfl

/-- What ILK_PEER gives by the claim state. -/
def PeerChange (s : State) (lvl : Bool) (t : State) : Prop :=
  t.pair.peer = lvl ∧
  (s.n kRedClaimState = 1 → t.n kRedClaimState = if lvl then 1 else 2) ∧
  (s.n kRedClaimState = 2 → t.n kRedClaimState = if lvl then 1 else 2) ∧
  (s.n kRedClaimState = 3 → lvl = false ∨ s.pair.swapAt = some s.cycle → t.objs = s.objs) ∧
  (s.n kRedClaimState = 3 → lvl = true → s.pair.swapAt ≠ some s.cycle →
    (s.cellQ ≤ s.pair.claimedAt + 500 * 65536 → t.n kRedClaimState = if s.dev.unitId then 1 else 3) ∧
    (s.pair.claimedAt + 500 * 65536 < s.cellQ → t.bit kRedStatus 8 = true ∧ t.n kRedClaimState = (if s.dev.unitId then 4 else 3) ∧
      (s.dev.unitId = true → t.dev.deviceFaults = s.dev.deviceFaults ++ [⟨0x0208, 0xFF, s.cycle, 0⟩]))) ∧
  (s.n kRedClaimState = 0 ∨ s.n kRedClaimState = 4 → t.objs = s.objs) ∧ t.dev.state = s.dev.state ∧
  ChangesObjs claimKeys s t ∧ Changes [.objs, .pair, .dict, .recd, .dev] s t

theorem ClaimWork.frame {bs : List Nat} (h : ClaimWork bs s t) : t.dev.state = s.dev.state ∧ ChangesObjs claimKeys s t ∧
    Changes [.objs, .pair, .dict, .recd, .dev] s t :=
  ⟨congrArg StDev.state h.dev, h.objs, h.parts.mono (by decide)⟩

theorem SamePair.peer {p q : StPair} (h : SamePair p q) : q.peer = p.peer := by
  obtain ⟨r, rfl⟩ := h
  rfl

theorem peerChange_wait (h : s.n kRedClaimState = 1) (lvl : Bool) : PeerChange s lvl (ilkPeerChange lvl s) := by
  have hlevel := (claimWork_onPair s (fun p => { p with peer := lvl })).mono (cs := [1]) (by simp)
  obtain ⟨hclaim, hpair, hwork⟩ := setClaim_spec (s.peerLevel lvl) (c := 2) (by decide)
  rw [ilkPeerChange_wait h]
  cases lvl with
  | true => exact ⟨rfl, fun _ => h, by simp [h], by simp [h], by simp [h], by simp [h], hlevel.frame⟩
  | false =>
    refine ⟨congrArg StPair.peer hpair, fun _ => hclaim, by simp [h], by simp [h], by simp [h], by simp [h], ?_⟩
    exact ((hlevel.trans hwork).trans ((claimWork_onPair _ _).mono (by simp))).frame

theorem peerChange_holdoff (h : s.n kRedClaimState = 2) (lvl : Bool) : PeerChange s lvl (ilkPeerChange lvl s) := by
  have hlevel := (claimWork_onPair s (fun p => { p with peer := lvl })).mono (cs := [1, 10]) (by simp)
  obtain ⟨hclaim, hpair, hwork⟩ := setClaim_spec (s.peerLevel lvl) (c := 1) (by decide)
  have hwaits := hlevel.trans (hwork.mono (by simp))
  rw [ilkPeerChange_holdoff h]
  cases lvl with
  | false => exact ⟨rfl, by simp [h], fun _ => h, by simp [h], by simp [h], by simp [h], hlevel.frame⟩
  | true =>
    rw [if_pos rfl]
    split
    · exact ⟨congrArg StPair.peer hpair, by simp [h], fun _ => hclaim, by simp [h], by simp [h], by simp [h], hwaits.frame⟩
    · obtain ⟨hsame, hkept, hrole⟩ := roleChange_spec ((s.peerLevel true).setClaim 1) 0 0
      exact ⟨hsame.peer.trans (congrArg StPair.peer hpair), by simp [h], fun _ => hkept.trans hclaim, by simp [h], by simp [h], by simp [h],
        (hwaits.trans (hrole.mono (by simp))).frame⟩

theorem doubleClaim_spec (s : State) : s.doubleClaim.bit kRedStatus 8 = true ∧ RedWork [8] s s.doubleClaim :=
  ⟨bit_marked s (by decide) true _ _, redWork_marked s 8 true _ _⟩

/-- What an overlap of the claims gives: unit B waits, or gives up with its fault. -/
theorem overlap_spec (h : s.n kRedClaimState = 3) : s.overlap.pair.peer = s.pair.peer ∧
    (s.cellQ ≤ s.pair.claimedAt + 500 * 65536 → s.overlap.n kRedClaimState = if s.dev.unitId then 1 else 3) ∧
    (s.pair.claimedAt + 500 * 65536 < s.cellQ → s.overlap.bit kRedStatus 8 = true ∧
      s.overlap.n kRedClaimState = (if s.dev.unitId then 4 else 3) ∧
      (s.dev.unitId = true → s.overlap.dev.deviceFaults = s.dev.deviceFaults ++ [⟨0x0208, 0xFF, s.cycle, 0⟩])) ∧
    s.overlap.dev.state = s.dev.state ∧ ChangesObjs claimKeys s s.overlap ∧ Changes [.objs, .pair, .dict, .recd, .dev] s s.overlap := by
  by_cases hin : s.cellQ ≤ s.pair.claimedAt + 500 * 65536
  · have hout : ¬ s.pair.claimedAt + 500 * 65536 < s.cellQ := Nat.not_lt.mpr hin
    rw [State.overlap, if_pos hin]
    cases hunit : s.dev.unitId with
    | false => exact ⟨rfl, fun _ => h, fun hp => absurd hp hout, rfl, .refl _ s, .refl _ s⟩
    | true =>
      obtain ⟨hclaim, hpair, hwork⟩ := setClaim_spec s (c := 1) (by decide)
      obtain ⟨hsame, hkept, hrole⟩ := roleChange_spec (s.setClaim 1) 3 0
      exact ⟨hsame.peer.trans (congrArg StPair.peer hpair), fun _ => hkept.trans hclaim, fun hp => absurd hp hout,
        ((hwork.mono (cs := [1, 10]) (by simp)).trans (hrole.mono (by simp))).frame⟩
  · obtain ⟨height, hmarked⟩ := doubleClaim_spec s
    rw [State.overlap, if_neg hin, congrArg StDev.unitId hmarked.dev]
    cases hunit : s.dev.unitId with
    | false =>
      exact ⟨congrArg StPair.peer hmarked.pair, fun hp => absurd hp hin, fun _ => ⟨height, hmarked.claim.trans h, by simp⟩,
        hmarked.claimWork.frame⟩
    | true =>
      obtain ⟨hclaim, hpair, hwork⟩ := setClaim_spec s.doubleClaim (c := 4) (by decide)
      have hgives := (hmarked.claimWork.mono (cs := [1, 8]) (by simp)).trans (hwork.mono (by simp))
      have hcycle : (s.doubleClaim.setClaim 4).cycle = s.cycle :=
        cycle_of_time (hgives.parts.2 .time (by decide)) (hgives.objs.n (by decide))
      obtain ⟨hstate, hobjs, hparts⟩ := hgives.frame
      refine ⟨(congrArg StPair.peer hpair).trans (congrArg StPair.peer hmarked.pair), fun hp => absurd hp hin,
        fun _ => ⟨(hwork.bits 8 (by decide) (by decide)).trans height, hclaim, fun _ => ?_⟩, hstate, hobjs, ?_⟩
      · rw [← hcycle, ← congrArg StDev.deviceFaults hgives.dev]
        rfl
      · exact hparts.trans ⟨rfl, fun p hp => by cases p <;> simp [Part.same, State.devFault] at hp ⊢⟩

theorem peerChange_claiming (h : s.n kRedClaimState = 3) (lvl : Bool) : PeerChange s lvl (ilkPeerChange lvl s) := by
  have hlevel := claimWork_onPair s (fun p => { p with peer := lvl })
  obtain ⟨hpeer, hwindow, hlate, hstate, hobjs, hparts⟩ := overlap_spec (s := s.peerLevel lvl) h
  obtain ⟨-, hlobjs, hlparts⟩ := hlevel.frame
  rw [ilkPeerChange_claiming h]
  by_cases hquiet : (!lvl) = true ∨ s.pair.swapAt = some s.cycle
  · rw [if_pos hquiet]
    refine ⟨rfl, by simp [h], by simp [h], fun _ _ => rfl, fun _ hlvl hswap => ?_, by simp [h], hlevel.frame⟩
    obtain hoff | hnow := hquiet
    · simp [hlvl] at hoff
    · exact absurd hnow hswap
  · rw [if_neg hquiet]
    refine ⟨hpeer, by simp [h], by simp [h], fun _ hq => ?_, fun _ _ _ => ⟨hwindow, hlate⟩, by simp [h], hstate, hlobjs.trans hobjs,
      hlparts.trans hparts⟩
    exact absurd (by simpa using hq) hquiet

theorem peerChange_other (h1 : s.n kRedClaimState ≠ 1) (h2 : s.n kRedClaimState ≠ 2) (h3 : s.n kRedClaimState ≠ 3) (lvl : Bool) :
    PeerChange s lvl (ilkPeerChange lvl s) := by
  rw [ilkPeerChange_other h1 h2 h3]
  exact ⟨rfl, fun h => absurd h h1, fun h => absurd h h2, fun h => absurd h h3, fun h => absurd h h3, fun _ => rfl,
    (claimWork_onPair s _).frame⟩

theorem peerChange (s : State) (lvl : Bool) : PeerChange s lvl (ilkPeerChange lvl s) := by
  by_cases h1 : s.n kRedClaimState = 1
  · exact peerChange_wait h1 lvl
  by_cases h2 : s.n kRedClaimState = 2
  · exact peerChange_holdoff h2 lvl
  by_cases h3 : s.n kRedClaimState = 3
  · exact peerChange_claiming h3 lvl
  · exact peerChange_other h1 h2 h3 lvl

/-! ### The holdoff and the watchdog (R359, R361, R376) -/

/-- The claim at the end of the holdoff. -/
def State.claiming (s : State) : State :=
  (s.setClaim 3).onPair (fun p => { p with
    claimedAt := s.cellQ
    heardSinceClaim := false
    stopAtOwner := s.pair.fromWait && (s.bit kRedStatus 5 || s.bit kRedStatus 6)
    actAlone := p.actAlone || s.pair.fromWait })

theorem holdoffElapsed_claims (hclaim : s.n kRedClaimState = 2) (hpeer : s.pair.peer = false) : holdoffElapsed s =
    if s.pair.fromWait then ((s.claiming.redBit 2 true).inc kRedTakeovers).roleChange 1 1 else s.claiming.roleChange 0 1 :=
  if_neg (by simp [hclaim, hpeer])

theorem claiming_spec (s : State) : s.claiming.n kRedClaimState = 3 ∧ s.claiming.pair.claimedAt = s.cellQ ∧
    (s.pair.fromWait = true → s.claiming.pair.actAlone = true) ∧ ClaimWork [1] s s.claiming := by
  obtain ⟨hclaim, -, hwork⟩ := setClaim_spec s (c := 3) (by decide)
  refine ⟨hclaim, rfl, fun h => ?_, hwork.trans ((claimWork_onPair _ _).mono (by simp))⟩
  change ((s.setClaim 3).pair.actAlone || s.pair.fromWait) = true
  rw [h, Bool.or_true]

theorem SamePair.claimed {p q : StPair} (h : SamePair p q) : q.claimedAt = p.claimedAt ∧ q.actAlone = p.actAlone := by
  obtain ⟨r, rfl⟩ := h
  exact ⟨rfl, rfl⟩

/-- A counter of four bytes stays below its bound. -/
theorem n_inc_word (s : State) {k : Nat} (hlen : (objDefault k).length = 4) :
    (s.inc k).n k = min (s.n k + 1) (2 ^ 32 - 1) % 2 ^ 32 := by
  rw [State.n_inc_same s hlen]
  omega

theorem holdoffElapsed_frame (hclaim : s.n kRedClaimState = 2) (hpeer : s.pair.peer = false) :
    Completes .holdoffElapsed s (fun t => t.n kRedClaimState = 3 ∧ t.pair.claimedAt = s.cellQ ∧
      (s.pair.fromWait = true → t.bit kRedStatus 2 = true ∧ t.n kRedTakeovers = min (s.n kRedTakeovers + 1) (2 ^ 32 - 1) % 2 ^ 32 ∧
        t.pair.actAlone = true) ∧ t.dev = s.dev ∧ ChangesObjs (kRedTakeovers :: claimKeys) s t ∧
      Changes [.objs, .pair, .dict, .recd] s t) := by
  refine ⟨_, congrArg Host.Outcome.next (holdoffElapsed_claims hclaim hpeer), ?_⟩
  obtain ⟨hthree, hat, halone, hwork⟩ := claiming_spec s
  cases hfrom : s.pair.fromWait with
  | false =>
    obtain ⟨hsame, hkept, hrole⟩ := roleChange_spec s.claiming 0 1
    have hall := (hwork.mono (cs := [1, 10]) (by simp)).trans (hrole.mono (by simp))
    exact ⟨hkept.trans hthree, hsame.claimed.1.trans hat, by simp, hall.dev, hall.objs.mono (by simp [claimKeys]), hall.parts⟩
  | true =>
    have hmark := redWork_redBit s.claiming 2 true
    have hcount := changesObjs_setN (s.claiming.redBit 2 true) kRedTakeovers
      (satInc (8 * (objDefault kRedTakeovers).length) ((s.claiming.redBit 2 true).n kRedTakeovers))
    obtain ⟨hsame, hkept, hrole⟩ := roleChange_spec ((s.claiming.redBit 2 true).inc kRedTakeovers) 1 1
    have hbefore : (s.claiming.redBit 2 true).n kRedTakeovers = s.n kRedTakeovers :=
      (hmark.objs.n (by decide)).trans (hwork.objs.n (by decide))
    refine ⟨hkept.trans ((hcount.n (by decide)).trans (hmark.claim.trans hthree)),
      hsame.claimed.1.trans ((congrArg StPair.claimedAt hmark.pair).trans hat), fun _ => ⟨?_, ?_, ?_⟩, ?_, ?_, ?_⟩
    · exact (hrole.bits 2 (by decide) (by decide)).trans ((hcount.bit (by decide) 2).trans (bit_redBit_same _ (by decide) true))
    · refine (hrole.objs.n (by decide)).trans ((n_inc_word _ rfl).trans ?_)
      rw [hbefore]
    · exact hsame.claimed.2.trans ((congrArg StPair.actAlone hmark.pair).trans (halone hfrom))
    · exact hrole.dev.trans (hmark.dev.trans hwork.dev)
    · exact (hwork.objs.mono (by simp [claimKeys])).trans ((hmark.objs.mono (by simp [claimKeys])).trans
        ((hcount.mono (by simp)).trans (hrole.objs.mono (by simp [claimKeys]))))
    · exact hwork.parts.trans ((hmark.parts.mono (by decide)).trans (((changes_setN _ _ _).mono (by decide)).trans hrole.parts))

/-- The watchdog trips: outputs inert, ports in pass-through, and the claim ends. -/
theorem claimWdTrip_frame {c : WdCause} (hup : s.dev.phase = .up) (hfault : c = .fault → s.dev.state = .fault) :
    Completes (.claimWdTrip c) s (fun t => t.n kRedClaimState = (if s.n kRedClaimState = 4 then 4 else 0) ∧ t.pair.inert = true ∧
      t.pair.passThrough = true ∧ t.pair.trip.isSome = true ∧ ChangesObjs claimKeys s t ∧ Changes [.objs, .pair, .dict] s t) := by
  have hexec : ∃ cause : WdCause, claimWdTrip c s =
      if s.n kRedClaimState = 4 then s.onPair (fun p => { p with trip := some cause, inert := true, passThrough := true })
      else (s.onPair (fun p => { p with trip := some cause, inert := true, passThrough := true })).setClaim 0 :=
    ⟨_, if_neg (by rintro (h | ⟨hc, hs⟩); exacts [h hup, hs (hfault hc)])⟩
  obtain ⟨cause, hexec⟩ := hexec
  refine ⟨_, congrArg Host.Outcome.next hexec, ?_⟩
  have htrip := claimWork_onPair s (fun p => { p with trip := some cause, inert := true, passThrough := true })
  have hparts := changes_onPair s (fun p => { p with trip := some cause, inert := true, passThrough := true })
  by_cases h : s.n kRedClaimState = 4
  · simp only [if_pos h]
    exact ⟨h, rfl, rfl, rfl, htrip.objs, hparts.mono (by decide)⟩
  · simp only [if_neg h]
    obtain ⟨hclaim, hpair, hwork⟩ := setClaim_spec (s.onPair (fun p => { p with trip := some cause, inert := true, passThrough := true }))
      (c := 0) (by decide)
    rw [hpair]
    exact ⟨hclaim, rfl, rfl, rfl, htrip.objs.trans hwork.objs, (hparts.mono (by decide)).trans (changes_setClaim _ 0)⟩

/-! ### The swap (R378, R379) -/

/-- The end of a swap: the reference goes with the mastership, the role is recorded and settled. -/
def State.swapRole (s : State) (role other : Nat) : State := ((s.refSwitch s.refWanted).roleChange 2 role).settle other

theorem swapRole_spec (s : State) (role other : Nat) : (s.swapRole role other).n kRedClaimState = s.n kRedClaimState ∧
    (s.swapRole role other).n kRedSwaps = s.n kRedSwaps ∧ SamePair s.pair (s.swapRole role other).pair ∧
    (s.swapRole role other).dev = s.dev := by
  obtain ⟨hparts, -⟩ := timeWork_refSwitch s s.refWanted
  have hkept (k : Nat) (hk : k ∉ kRefEffective :: servoKeys) : (s.refSwitch s.refWanted).n k = s.n k :=
    congrArg leVal (obj_refSwitch_other s hk)
  obtain ⟨hsame, hclaim, hrole⟩ := roleChange_spec (s.refSwitch s.refWanted) 2 role
  have hsettle := redWork_settle ((s.refSwitch s.refWanted).roleChange 2 role) other
  have hpair : (s.refSwitch s.refWanted).pair = s.pair := hparts.2 .pair (by decide)
  rw [hpair] at hsame
  refine ⟨(hsettle.claim.trans hclaim).trans (hkept _ (by decide)),
    ((hsettle.objs.n (by decide)).trans (hrole.objs.n (by decide))).trans (hkept _ (by decide)), ?_,
    (hsettle.dev.trans hrole.dev).trans (hparts.2 .dev (by decide))⟩
  rw [show (s.swapRole role other).pair = _ from hsettle.pair]
  exact hsame

/-- A swap is counted and recorded. -/
def State.swapCounted (s : State) (c : Nat) : State :=
  ((s.onPair (fun p => { p with swapAt := none })).inc kRedSwaps).swapRecord false c

theorem swapCounted_spec (s : State) (c : Nat) : (s.swapCounted c).n kRedClaimState = s.n kRedClaimState ∧
    (s.swapCounted c).n kRedSwaps = min (s.n kRedSwaps + 1) (2 ^ 32 - 1) % 2 ^ 32 ∧
    (s.swapCounted c).pair = { s.pair with swapAt := none } ∧ (s.swapCounted c).dev = s.dev := by
  have hlog := redWork_log ((s.onPair (fun p => { p with swapAt := none })).inc kRedSwaps) 0x0244 (le 1 (b01 false) ++ [0, 0, 0] ++ le 8 c)
  exact ⟨hlog.claim.trans (State.n_inc_other _ (by decide)), (hlog.objs.n (by decide)).trans (n_inc_word _ rfl), hlog.pair, hlog.dev⟩

theorem checkSwap_kept {c : Nat} (hat : s.pair.swapAt = some c) (hok : s.swapRefusal = 0) : s.checkSwap = s := by
  unfold State.checkSwap
  rw [hat]
  exact if_neg (fun h => h hok)

theorem swapInstant_waits {c : Nat} (hat : s.pair.swapAt = some c) (hearly : s.cycle < c) (hok : s.swapRefusal = 0) :
    swapInstant s = s := by
  unfold swapInstant
  rw [checkSwap_kept hat hok, hat]
  exact if_pos hearly

theorem swapInstant_none (hat : s.pair.swapAt = none) : swapInstant s = s := by
  have hcheck : s.checkSwap = s := by rw [State.checkSwap, hat]
  unfold swapInstant
  rw [hcheck, hat]

/-- The unit that claimed is the standby after the swap. -/
def State.swapAway (s : State) : State := ((s.setClaim 1).onPair (fun p => { p with active := false })).swapRole 0 1

/-- The unit that waited claims after the swap. -/
def State.swapIn (s : State) : State :=
  ((s.setClaim 3).onPair (fun p => { p with
    active := true, claimedAt := s.cellQ, heardSinceClaim := true, stopAtOwner := s.bit kRedStatus 5 || s.bit kRedStatus 6 })).swapRole 1 0

theorem swapInstant_swaps {c : Nat} (hat : s.pair.swapAt = some c) (hdue : c ≤ s.cycle) (hok : s.swapRefusal = 0) : swapInstant s =
    if (s.swapCounted c).owner then (s.swapCounted c).swapAway
    else if (s.swapCounted c).n kRedClaimState = 1 then (s.swapCounted c).swapIn else s.swapCounted c := by
  unfold swapInstant
  rw [checkSwap_kept hat hok, hat]
  exact if_neg (Nat.not_lt.mpr hdue)

theorem SamePair.swap {p q : StPair} (h : SamePair p q) : q.swapAt = p.swapAt ∧ q.active = p.active := by
  obtain ⟨r, rfl⟩ := h
  exact ⟨rfl, rfl⟩

theorem swapAway_spec (s : State) : s.swapAway.n kRedClaimState = 1 ∧ s.swapAway.pair.active = false ∧
    s.swapAway.pair.swapAt = s.pair.swapAt ∧ s.swapAway.n kRedSwaps = s.n kRedSwaps ∧ s.swapAway.dev = s.dev := by
  obtain ⟨hclaim, hpair, hwork⟩ := setClaim_spec s (c := 1) (by decide)
  have hswap := congrArg StPair.swapAt hpair
  obtain ⟨hkept, hswaps, hsame, hdev⟩ := swapRole_spec ((s.setClaim 1).onPair (fun p => { p with active := false })) 0 1
  exact ⟨hkept.trans hclaim, hsame.swap.2, hsame.swap.1.trans hswap, hswaps.trans (hwork.objs.n (by decide)),
    hdev.trans hwork.dev⟩

theorem swapIn_spec (s : State) : s.swapIn.n kRedClaimState = 3 ∧ s.swapIn.pair.active = true ∧
    s.swapIn.pair.swapAt = s.pair.swapAt ∧ s.swapIn.n kRedSwaps = s.n kRedSwaps ∧ s.swapIn.dev = s.dev := by
  obtain ⟨hclaim, hpair, hwork⟩ := setClaim_spec s (c := 3) (by decide)
  have hswap := congrArg StPair.swapAt hpair
  obtain ⟨hkept, hswaps, hsame, hdev⟩ := swapRole_spec ((s.setClaim 3).onPair (fun p => { p with
    active := true, claimedAt := s.cellQ, heardSinceClaim := true, stopAtOwner := s.bit kRedStatus 5 || s.bit kRedStatus 6 })) 1 0
  exact ⟨hkept.trans hclaim, hsame.swap.2, hsame.swap.1.trans hswap, hswaps.trans (hwork.objs.n (by decide)),
    hdev.trans hwork.dev⟩

theorem swapInstant_frame {c : Nat} (hat : s.pair.swapAt = some c) (hdue : c ≤ s.cycle) (hok : s.swapRefusal = 0) :
    Completes .swapInstant s (fun t => t.pair.swapAt = none ∧ t.n kRedSwaps = min (s.n kRedSwaps + 1) (2 ^ 32 - 1) % 2 ^ 32 ∧
      (s.n kRedClaimState = 3 → t.n kRedClaimState = 1 ∧ t.pair.active = false) ∧
      (s.n kRedClaimState = 1 → t.n kRedClaimState = 3 ∧ t.pair.active = true) ∧ t.dev = s.dev) := by
  refine ⟨_, congrArg Host.Outcome.next (swapInstant_swaps hat hdue hok), ?_⟩
  obtain ⟨hclaim, hcount, hpair, hdev⟩ := swapCounted_spec s c
  generalize s.swapCounted c = a at *
  have hnone : a.pair.swapAt = none := by rw [hpair]
  rw [State.owner, hclaim]
  by_cases h3 : s.n kRedClaimState = 3
  · rw [if_pos (by simp [h3])]
    obtain ⟨hone, hactive, hswap, hswaps, hkept⟩ := swapAway_spec a
    exact ⟨hswap.trans hnone, hswaps.trans hcount, fun _ => ⟨hone, hactive⟩, by simp [h3], hkept.trans hdev⟩
  · rw [if_neg (by simp [h3])]
    by_cases h1 : s.n kRedClaimState = 1
    · rw [if_pos h1]
      obtain ⟨hthree, hactive, hswap, hswaps, hkept⟩ := swapIn_spec a
      exact ⟨hswap.trans hnone, hswaps.trans hcount, by simp [h1], fun _ => ⟨hthree, hactive⟩, hkept.trans hdev⟩
    · rw [if_neg h1]
      exact ⟨hnone, hcount, fun h => absurd h h3, fun h => absurd h h1, hdev⟩

/-- A refusal that arises before its cycle cancels the swap. -/
theorem swapInstant_cancelled {c : Nat} (hat : s.pair.swapAt = some c) (hbad : s.swapRefusal ≠ 0) : Completes .swapInstant s (fun t =>
    t.pair.swapAt = none ∧ ChangesObjs [kRecStatus, kRecDrops] s t ∧ t.dev = s.dev) := by
  have hcheck : s.checkSwap = (s.onPair (fun p => { p with swapAt := none })).swapRecord true c := by
    unfold State.checkSwap
    rw [hat]
    exact if_pos hbad
  obtain ⟨hparts, hobjs⟩ := record_recordOnly (s.onPair (fun p => { p with swapAt := none })) 0 0x0244 false
    (le 1 (b01 true) ++ [0, 0, 0] ++ le 8 c)
  have hnone : s.checkSwap.pair.swapAt = none := by
    rw [hcheck]
    exact congrArg StPair.swapAt (hparts.2 .pair (by decide))
  have hexec : swapInstant s = s.checkSwap := by
    unfold swapInstant
    rw [hnone]
  refine ⟨_, congrArg Host.Outcome.next (hexec.trans hcheck), ?_, hobjs, hparts.2 .dev (by decide)⟩
  rw [← hcheck]
  exact hnone

theorem swapDue_advises (h : s.n kRedSwapAdvise ≤ s.sinceSwap) : Completes .swapDue s (fun t => t.bit kRedStatus 10 = true ∧
    ChangesObjs [kRedStatus] s t ∧ Changes [.objs, .dict] s t) := by
  have hexec : swapDue s = s.redBit 10 true := if_pos h
  exact ⟨_, congrArg Host.Outcome.next hexec, bit_redBit_same s (by decide) true, redBit_frame s 10 true⟩

/-! ### The rejoin (R375) -/

theorem singleHead_ringStatus_ne : kRedStatus ≠ kRingStatus 0 ∧ kRedStatus ≠ kRingStatus 1 ∧ kRingStatus 0 ≠ kRingStatus 1 := by decide

/-- SINGLE_HEAD of both rings. -/
theorem singleHead_spec (s : State) (v : Bool) : (s.singleHead v).bit (kRingStatus 0) 5 = v ∧ (s.singleHead v).bit (kRingStatus 1) 5 = v ∧
    ChangesObjs [kRingStatus 0, kRingStatus 1] s (s.singleHead v) ∧ (s.singleHead v).pair = s.pair ∧ (s.singleHead v).dev = s.dev := by
  have hboth : ((s.ringBit .m 5 v).ringBit .p 5 v).bit (kRingStatus 0) 5 = v ∧ ((s.ringBit .m 5 v).ringBit .p 5 v).bit (kRingStatus 1) 5 = v := by
    refine ⟨?_, State.bit_setBit_same _ (kRingStatus 1) 5 v (by decide)⟩
    exact ((changesObjs_setBit _ (kRingStatus 1) 5 v).bit (by decide) 5).trans (State.bit_setBit_same s (kRingStatus 0) 5 v (by decide))
  have hobjs : ChangesObjs [kRingStatus 0, kRingStatus 1] s ((s.ringBit .m 5 v).ringBit .p 5 v) :=
    ((changesObjs_setBit s (kRingStatus 0) 5 v).mono (by decide)).trans ((changesObjs_setBit _ (kRingStatus 1) 5 v).mono (by decide))
  obtain ⟨hm, hp⟩ := hboth
  unfold State.singleHead
  dsimp only
  split <;> exact ⟨hm, hp, hobjs, rfl, rfl⟩

theorem rejoinTakeup_rejoins (hrejoining : s.pair.rejoining = true) (hgrid : s.pair.gridAt.isSome = true) (peer : Option PeerInfo) :
    Completes (.rejoinTakeup peer) s (fun t => t.pair.rejoining = false ∧ t.pair.passThrough = false ∧ t.pair.inert = false ∧
      t.dev = s.dev) := by
  have hexec : rejoinTakeup peer s =
      (s.onPair (fun p => { p with rejoining := false, passThrough := false, inert := false })).roleChange 5 0 := by
    rw [rejoinTakeup, if_pos hrejoining, if_neg (by simp [Option.isNone_eq_false_iff.mpr hgrid])]
  obtain ⟨⟨r, hpair⟩, -, hwork⟩ :=
    roleChange_spec (s.onPair (fun p => { p with rejoining := false, passThrough := false, inert := false })) 5 0
  refine ⟨_, congrArg Host.Outcome.next hexec, ?_⟩
  exact ⟨congrArg StPair.rejoining hpair, congrArg StPair.passThrough hpair, congrArg StPair.inert hpair, hwork.dev⟩

theorem rejoinTakeup_early (hrejoining : s.pair.rejoining = true) (hgrid : s.pair.gridAt = none) (peer : Option PeerInfo) :
    rejoinTakeup peer s = s := by
  rw [rejoinTakeup, if_pos hrejoining, if_pos (by simp [hgrid])]

/-- The owner takes its partner back, its versions apart. -/
def State.partnerBack (s : State) (peer : Option PeerInfo) : State :=
  (((s.onPair (fun p => { p with peerInfo := peer.or p.peerInfo })).singleHead false).redBit 7 false).roleChange 5 1

theorem partnerBack_spec (s : State) (peer : Option PeerInfo) : (s.partnerBack peer).bit kRedStatus 7 = false ∧
    (s.partnerBack peer).bit (kRingStatus 0) 5 = false ∧ (s.partnerBack peer).bit (kRingStatus 1) 5 = false ∧
    ChangesObjs (kRingStatus 0 :: kRingStatus 1 :: claimKeys) s (s.partnerBack peer) ∧ (s.partnerBack peer).dev = s.dev := by
  have hhead := singleHead_spec (s.onPair (fun p => { p with peerInfo := peer.or p.peerInfo })) false
  unfold State.partnerBack
  generalize (s.onPair (fun p => { p with peerInfo := peer.or p.peerInfo })).singleHead false = a at *
  obtain ⟨hm, hp, hobjs, -, hdev⟩ := hhead
  have hmark := redWork_redBit a 7 false
  obtain ⟨-, -, hrole⟩ := roleChange_spec (a.redBit 7 false) 5 1
  have hkept : ChangesObjs claimKeys a ((a.redBit 7 false).roleChange 5 1) := hmark.claimWork.objs.trans hrole.objs
  refine ⟨(hrole.bits 7 (by decide) (by decide)).trans (bit_redBit_same a (by decide) false), (hkept.bit (by decide) 5).trans hm,
    (hkept.bit (by decide) 5).trans hp, ?_, (hrole.dev.trans hmark.dev).trans hdev⟩
  have hheads : ChangesObjs [kRingStatus 0, kRingStatus 1] s a := hobjs
  exact (hheads.mono (by simp)).trans (hkept.mono (by simp [claimKeys]))

theorem rejoinTakeup_partner (hrejoining : s.pair.rejoining = false) (howner : s.owner = true) (hseven : s.bit kRedStatus 7 = true)
    (peer : Option PeerInfo) : Completes (.rejoinTakeup peer) s (fun t =>
      t.bit kRedStatus 7 = false ∧ t.bit (kRingStatus 0) 5 = false ∧ t.bit (kRingStatus 1) 5 = false ∧
      (∀ p, peer = some p → t.bit kRedStatus 11 = !s.sameVersions p) ∧ t.dev = s.dev) := by
  have hexec : rejoinTakeup peer s = (s.partnerBack peer).rejoinVersions peer := by
    rw [rejoinTakeup, if_neg (by simp [hrejoining]), if_pos ⟨howner, Or.inl hseven⟩]
    rfl
  obtain ⟨hclear, hm, hp, hobjs, hdev⟩ := partnerBack_spec s peer
  refine ⟨_, congrArg Host.Outcome.next hexec, ?_⟩
  generalize s.partnerBack peer = a at *
  cases peer with
  | none => exact ⟨hclear, hm, hp, by simp, hdev⟩
  | some p =>
    have hversions : a.sameVersions p = s.sameVersions p := by
      rw [State.sameVersions, hobjs.n (k := kIdFwMain) (by decide), hobjs.n (k := kIdFwSafety) (by decide),
        hobjs.n (k := kIdLaneLib) (by decide), hobjs kJnUserKernel (by decide)]
      rfl
    have hmark := redWork_redBit a 11 (!a.sameVersions p)
    refine ⟨(hmark.bits 7 (by decide) (by decide)).trans hclear, (hmark.objs.bit (by decide) 5).trans hm, (hmark.objs.bit (by decide) 5).trans hp,
      fun q hq => ?_, hmark.dev.trans hdev⟩
    obtain rfl := Option.some.inj hq
    rw [← hversions]
    exact bit_redBit_same a (by decide) _

/-! ### DETACH (R374) -/

theorem detachEffect_partner {d : Nat} (hown : s.pair.detachAt = none) (hat : s.pair.partnerDetachAt = some d) (hdue : d ≤ s.cycle)
    (howner : s.owner = true) : Completes .detachEffect s (fun t => t.bit kRedStatus 7 = true ∧ t.bit (kRingStatus 0) 5 = true ∧
      t.bit (kRingStatus 1) 5 = true ∧ t.n kRedClaimState = 3 ∧ t.dev = s.dev) := by
  have hexec : detachEffect s = (((s.onPair (fun p => { p with partnerDetachAt := none, actAlone := false })).singleHead true).redBit 7
      true).roleChange 4 1 := by
    unfold detachEffect
    rw [hown]
    dsimp only
    rw [hat]
    exact if_neg (by simp [howner, hdue])
  have hhead := singleHead_spec (s.onPair (fun p => { p with partnerDetachAt := none, actAlone := false })) true
  refine ⟨_, congrArg Host.Outcome.next hexec, ?_⟩
  generalize (s.onPair (fun p => { p with partnerDetachAt := none, actAlone := false })).singleHead true = a at *
  obtain ⟨hm, hp, hobjs, -, hdev⟩ := hhead
  have hmark := redWork_redBit a 7 true
  obtain ⟨-, hclaim, hrole⟩ := roleChange_spec (a.redBit 7 true) 4 1
  have hthree : a.n kRedClaimState = 3 := (hobjs.n (by decide)).trans (show s.n kRedClaimState = 3 by simpa [State.owner] using howner)
  exact ⟨(hrole.bits 7 (by decide) (by decide)).trans (bit_redBit_same a (by decide) true),
    ((hrole.objs.bit (by decide) 5).trans (hmark.objs.bit (by decide) 5)).trans hm,
    ((hrole.objs.bit (by decide) 5).trans (hmark.objs.bit (by decide) 5)).trans hp, (hclaim.trans hmark.claim).trans hthree,
    (hrole.dev.trans hmark.dev).trans hdev⟩

theorem detachEffect_early {d : Nat} (hat : s.pair.detachAt = some d) (hearly : s.cycle < d) : detachEffect s = s := by
  unfold detachEffect
  rw [hat]
  exact if_pos hearly

end

/-! ### What the entry into INERT leaves of the pair -/

/-- The claim state, the pair's own state and the rings. -/
structure Seat where
  claim : Nat
  pair : StPair
  rings : StRings

def State.seat (s : State) : Seat := ⟨s.n kRedClaimState, s.pair, s.rings⟩

section
variable (s : State)

theorem seat_setObj {k : Nat} (v : Bytes) (h : k ≠ kRedClaimState) : (s.setObj k v).seat = s.seat := by
  rw [State.seat, State.n_setObj_other s v h.symm]
  rfl

theorem seat_setN {k : Nat} (v : Nat) (h : k ≠ kRedClaimState) : (s.setN k v).seat = s.seat := seat_setObj s _ h

theorem seat_setBit {k : Nat} (b : Nat) (v : Bool) (h : k ≠ kRedClaimState) : (s.setBit k b v).seat = s.seat := seat_setObj s _ h

theorem seat_patchObj {k : Nat} (o : Nat) (v : Bytes) (h : k ≠ kRedClaimState) : (s.patchObj k o v).seat = s.seat := seat_setObj s _ h

theorem seat_record (source type : Nat) (sw : Bool) (b : Bytes) : (s.record source type sw b).seat = s.seat := by
  obtain ⟨hparts, hobjs⟩ := record_recordOnly s source type sw b
  rw [State.seat, hobjs.n (by decide), hparts.2 .pair (by decide), hparts.2 .rings (by decide)]
  rfl

theorem seat_foldl {α : Type} {f : State → α → State} (l : List α) (h : ∀ s, ∀ x ∈ l, (f s x).seat = s.seat) :
    (l.foldl f s).seat = s.seat := by
  induction l generalizing s with
  | nil => rfl
  | cons x l ih =>
    rw [List.foldl_cons, ih _ fun s y hy => h s y (List.mem_cons_of_mem x hy), h s x List.mem_cons_self]

theorem seat_ite {c : Prop} [Decidable c] {t : State} (h : t.seat = s.seat) : (if c then t else s).seat = s.seat := by
  split
  · exact h
  · rfl

theorem axStatus_ne_claim (n : Nat) : kAxStatus n ≠ kRedClaimState := by
  simp only [kAxStatus, kRedClaimState]
  omega

theorem cmpStatus_ne_claim (c u : Nat) : kCmpStatus c u ≠ kRedClaimState := by
  simp only [kCmpStatus, kRedClaimState]
  omega

theorem emuStatus_ne_claim (e : Nat) : kEmuStatus e ≠ kRedClaimState := by
  simp only [kEmuStatus, kRedClaimState]
  omega

theorem seat_btAbort : s.btAbort.seat = s.seat := by
  unfold State.btAbort
  split
  · rfl
  · exact seat_record _ _ _ _ _

theorem seat_leaveDegraded : s.leaveDegraded.seat = s.seat := seat_record s _ _ _ _

theorem seat_tapLeave : s.tapLeave.seat = s.seat := by
  unfold State.tapLeave State.tapRelease
  rw [seat_setBit _ _ _ (by decide), seat_setN _ _ (by decide), seat_setN _ _ (by decide), seat_setBit _ _ _ (by decide)]
  rfl

theorem seat_axInert : s.axInert.seat = s.seat :=
  seat_foldl s _ fun _ n _ => (seat_setN _ _ (axStatus_ne_claim n)).trans (seat_setBit _ _ _ (axStatus_ne_claim n))

theorem seat_cmpOff (c : Nat) (disarm : Bool) : (s.cmpOff c disarm).seat = s.seat :=
  seat_foldl s _ fun u n _ => seat_ite (u.onCmp c n fun y => { y with pulse := false }) (seat_setBit _ _ _ (cmpStatus_ne_claim c n))

theorem seat_lineOff (disarm : Bool) : (s.lineOff disarm).seat = s.seat :=
  (seat_foldl _ _ fun s c _ => seat_cmpOff s c disarm).trans
    (seat_foldl s _ fun u e _ => seat_setBit u _ _ (emuStatus_ne_claim e))

theorem seat_crHolders : s.crHolders.seat = s.seat := by
  unfold State.crHolders
  refine seat_foldl s _ fun u z _ => ?_
  dsimp only
  rw [seat_patchObj _ _ _ (by decide), seat_patchObj _ _ _ (by decide)]

theorem seat_onSq (f : StSquare → StSquare) : (s.onSq f).seat = s.seat := rfl

theorem seat_fbIdle : s.fbIdle.seat = s.seat := rfl

theorem seat_clearCrossings : s.clearCrossings.seat = s.seat := by
  rw [State.clearCrossings, seat_crHolders, seat_onSq]
  refine seat_foldl s _ fun u a ha => ?_
  have hheld : kCrHeld a ≠ kRedClaimState := by
    have hlt := List.mem_range.mp ha
    simp only [kCrHeld, kRedClaimState]
    omega
  have hreq : kCrReq a ≠ kRedClaimState := by
    have hlt := List.mem_range.mp ha
    simp only [kCrReq, kRedClaimState]
    omega
  exact (seat_setN _ _ hreq).trans (seat_setN _ _ hheld)

theorem seat_outputsInert : s.outputsInert.seat = ((s.onPair (fun p => { p with passThrough := true })).ringsPass).seat := by
  rw [State.outputsInert, seat_fbIdle, seat_lineOff, seat_axInert]

/-- What the state that is left ends, before the outputs follow the new one. -/
def State.leaving (s : State) (old : DevState) : State :=
  let s := if old = .ready then s.btAbort else s
  let s := if old = .degraded then s.leaveDegraded else s
  if old = .service then s.sysCalOff.tapLeave else s

theorem seat_leaving (old : DevState) : (s.leaving old).seat = s.seat := by
  have hready := seat_ite (c := old = .ready) s (seat_btAbort s)
  have hdegraded (u : State) := seat_ite (c := old = .degraded) u (seat_leaveDegraded u)
  have hservice (u : State) := seat_ite (c := old = .service) u (seat_tapLeave u.sysCalOff)
  rw [State.leaving, hservice, hdegraded, hready]

theorem core_leaving (old : DevState) : (s.leaving old).core = s.core := by simp [State.leaving]

theorem entered_inert (h : s.dev.state = .inert) (old : DevState) :
    s.entered old = (s.leaving old).outputsInert.clearCrossings.drive := by
  have hstate : (s.leaving old).dev.state = .inert := (congrArg (fun k : Core => k.dev.state) (core_leaving s old)).trans h
  unfold State.leaving at hstate ⊢
  unfold State.entered
  dsimp only at hstate ⊢
  rw [hstate]

theorem seat_drive : s.drive.seat = s.seat := rfl

end

/-- A detached unit: it claims nothing, its outputs are inert and its ports pass. -/
structure Unclaimed (t : State) : Prop where
  claim : t.n kRedClaimState = 0
  passThrough : t.pair.passThrough = true
  inert : t.pair.inert = true
  detachAt : t.pair.detachAt = none
  ringM : t.rings.m.cs = .pass
  ringP : t.rings.p.cs = .pass

theorem Unclaimed.of_seat {s t : State} (h : Unclaimed s) (hseat : t.seat = s.seat) : Unclaimed t := by
  obtain ⟨hclaim, hpair, hrings⟩ := Seat.mk.inj hseat
  obtain ⟨h1, h2, h3, h4, h5, h6⟩ := h
  exact ⟨hclaim.trans h1, by rw [hpair, h2], by rw [hpair, h3], by rw [hpair, h4], by rw [hrings, h5], by rw [hrings, h6]⟩

theorem Unclaimed.outputsInert {s : State} (h : Unclaimed s) : Unclaimed s.outputsInert :=
  Unclaimed.of_seat (s := (s.onPair (fun p => { p with passThrough := true })).ringsPass)
    ⟨h.claim, rfl, h.inert, h.detachAt, rfl, rfl⟩ (seat_outputsInert s)

theorem Unclaimed.goto {s : State} (h : Unclaimed s) : Unclaimed (s.goto .inert) := by
  unfold State.goto
  split
  · exact h
  case isFalse hother =>
    have henter : Unclaimed (s.enter .inert) := by
      rw [State.enter, if_neg hother]
      exact ⟨h.claim, h.passThrough, h.inert, h.detachAt, h.ringM, h.ringP⟩
    have hstate : (s.enter .inert).dev.state = .inert := by
      rw [State.enter, if_neg hother]
      rfl
    rw [entered_inert _ hstate]
    have hinert := (henter.of_seat (seat_leaving _ s.dev.state)).outputsInert.of_seat (seat_clearCrossings _)
    exact hinert.of_seat (seat_drive _)

/-- The state in which a unit is detached, before it goes to INERT. -/
def State.released (s : State) : State :=
  let u := (s.onPair (fun p => { p with passThrough := true, inert := true, enteredSync := false, detachAt := none, active := false })).setClaim 0
  { u with rings := { u.rings with m := { u.rings.m with cs := .pass }, p := { u.rings.p with cs := .pass } } }

theorem unclaimed_released (s : State) : Unclaimed s.released := by
  obtain ⟨hclaim, hpair, -⟩ := setClaim_spec (s.onPair (fun p =>
    { p with passThrough := true, inert := true, enteredSync := false, detachAt := none, active := false })) (c := 0) (by decide)
  exact ⟨hclaim, congrArg StPair.passThrough hpair, congrArg StPair.inert hpair, congrArg StPair.detachAt hpair, rfl, rfl⟩

theorem toInert_state (s : State) : s.toInert.dev.state = .inert :=
  congrArg (fun k : Core => k.dev.state) (core_goto s .inert)

theorem detachEffect_due {s : State} {d : Nat} (hat : s.pair.detachAt = some d) (hdue : d ≤ s.cycle) :
    Completes .detachEffect s (fun t => t.n kRedClaimState = 0 ∧ t.dev.state = .inert ∧ t.pair.passThrough = true ∧
      t.pair.inert = true ∧ t.pair.detachAt = none ∧ t.rings.m.cs = .pass ∧ t.rings.p.cs = .pass) := by
  have hexec : detachEffect s = s.released.toInert.roleChange 4 0 := by
    unfold detachEffect
    rw [hat]
    exact if_neg (Nat.not_lt.mpr hdue)
  have hinert : Unclaimed s.released.toInert := (unclaimed_released s).goto.of_seat rfl
  obtain ⟨⟨r, hpair⟩, hclaim, hrole⟩ := roleChange_spec s.released.toInert 4 0
  have hrings : (s.released.toInert.roleChange 4 0).rings = s.released.toInert.rings := hrole.parts.2 .rings (by decide)
  refine ⟨_, congrArg Host.Outcome.next hexec, hclaim.trans hinert.claim, (congrArg StDev.state hrole.dev).trans (toInert_state _), ?_⟩
  simp only [hpair, hrings]
  exact ⟨hinert.passThrough, hinert.inert, hinert.detachAt, hinert.ringM, hinert.ringP⟩

end Sys2Proof.Machine

namespace Sys2Proof
open Machine

/-- Settles O43: each row is one equation; what a change of the claim or of the role leaves is `ClaimWork`, and what the entry into
INERT leaves of the pair is its seat. -/
theorem claimLogic : Obligations.ClaimLogic := by
  intro s peer claim objs
  refine ⟨fun lvl => ⟨_, rfl, peerChange s lvl⟩, holdoffElapsed_frame, fun h => ?_, fun c hup hfault => claimWdTrip_frame hup hfault,
    fun d hat hdue => detachEffect_due hat hdue, fun d hat hearly => ⟨_, congrArg Host.Outcome.next (detachEffect_early hat hearly), rfl⟩,
    fun d hown hat hdue howner => detachEffect_partner hown hat hdue howner, fun hre hgrid => rejoinTakeup_rejoins hre hgrid peer,
    fun hre hgrid => ⟨_, congrArg Host.Outcome.next (rejoinTakeup_early hre hgrid peer), rfl⟩,
    fun hre howner hseven => rejoinTakeup_partner hre howner hseven peer,
    fun c hat hearly hok => ⟨_, congrArg Host.Outcome.next (swapInstant_waits hat hearly hok), rfl⟩,
    fun c hat hdue hok => swapInstant_frame hat hdue hok, fun c hat hbad => swapInstant_cancelled hat hbad,
    fun hat => ⟨_, congrArg Host.Outcome.next (swapInstant_none hat), rfl⟩, swapDue_advises, fun h => ?_⟩
  · exact ⟨_, congrArg Host.Outcome.next (if_pos (by simpa using h)), rfl⟩
  · exact ⟨_, congrArg Host.Outcome.next (if_neg (Nat.not_le.mpr h)), rfl⟩

end Sys2Proof
end

section
/-! SUPPORT. The event recorder with a full queue, over a store whose REC_DROPS is not of its length (R433, R456). -/

namespace Sys2Proof.Machine

theorem patch_nil (off : Nat) (v : Bytes) : patch [] off v = [] := by simp [patch]

theorem length_recordBytes_pos (flags type optime pcc seq : Nat) (payload : Bytes) : 0 < (recordBytes flags type optime pcc seq payload).length := by
  rw [recordBytes, List.length_append, le_length]
  omega

/-- A record that a full general ring drops leaves REC_DROPS empty where it was (R433). -/
theorem record_drop_empty {s : State} (hmounted : s.recd.mounted = true) (hstopped : s.recd.stopped = false) {type : Nat} (htype : type < 0x0400)
    (hfull : queueCap false ≤ queueLen s.recd.general.queue) (hempty : s.obj kRecDrops = []) (source : Nat) (sw : Bool) (payload : Bytes) :
    (s.record source type sw payload).obj kRecDrops = [] := by
  have hring : (decide (0x0400 ≤ type) && decide (type ≤ 0x04FF)) = false := by simp [Nat.not_le.mpr htype]
  have hpatch (u : State) (hu : u.obj kRecDrops = []) (v : Bytes) : ((u.patchObj kRecDrops 4 v).setBit kRecStatus 4 true).obj kRecDrops = [] := by
    rw [State.obj_setBit_other _ _ _ (by decide), State.patchObj, State.obj_setObj_same, hu, patch_nil]
  unfold State.record
  rw [if_neg (by simp [hmounted])]
  dsimp only
  rw [hring, if_neg (by simp [hstopped]), if_pos]
  · refine hpatch _ ?_ _
    split
    · exact (State.obj_setBit_other s 5 true (by decide)).trans hempty
    · exact hempty
  · exact Or.inr (Nat.lt_of_le_of_lt hfull (Nat.lt_add_of_pos_right (length_recordBytes_pos ..)))

/-- A recorder whose general queue holds the bytes `b` and whose flash is busy; its store holds no byte of REC_DROPS. -/
def busyRecorder (b : Bytes) : State :=
  { State.reset with
    objs := [(kRecDrops, [])]
    recd := { State.reset.recd with
      mounted := true, stopped := false, programming := some (false, 256), bad := []
      general := { State.reset.recd.general with first := 10, count := 100, nextSeq := 0, queue := [b] } } }

theorem queueLen_busyRecorder (b : Bytes) : queueLen (busyRecorder b).recd.general.queue = b.length := rfl

end Sys2Proof.Machine

namespace Sys2Proof

open Machine

/-- Refutes O56: over a store whose REC_DROPS is empty a record that the full queue of 262,144 bytes drops cannot be counted, for the
write of a field does not lengthen its object. -/
theorem not_eventRecorder : ¬ Obligations.EventRecorder := by
  intro h
  obtain ⟨b, hb⟩ : ∃ b : Bytes, b.length = 262144 := ⟨List.replicate 262144 0, List.length_replicate⟩
  have hfull : 262144 ≤ queueLen (busyRecorder b).recd.general.queue := by rw [queueLen_busyRecorder, hb]
  obtain ⟨hrecord, -⟩ := h (busyRecorder b)
  have hseq : (busyRecorder b).recd.general.nextSeq = 0 := rfl
  have husable : (busyRecorder b).recd.general.usable (busyRecorder b).recd.bad = 100 := rfl
  obtain ⟨-, hdrop⟩ := hrecord 0 0x0100 false [] rfl rfl (by decide) rfl (by rw [hseq]; decide) (by rw [husable]; decide)
  obtain ⟨t, hexec, -, -, -, hcount, -⟩ := hdrop hfull
  obtain rfl : recordRequest 0 0x0100 false [] (busyRecorder b) = t := Host.Outcome.next.inj hexec
  have hafter := record_drop_empty (s := busyRecorder b) rfl rfl (type := 0x0100) (by decide) hfull rfl 0 false []
  have hbefore : (busyRecorder b).obj kRecDrops = [] := rfl
  rw [State.sub, State.sub, hbefore, show (recordRequest 0 0x0100 false [] (busyRecorder b)).obj kRecDrops = [] from hafter] at hcount
  exact absurd hcount (by decide)

end Sys2Proof
end

section
/-! SUPPORT. Images, fuses and attestation (R447 to R459). -/

namespace Sys2Proof.Machine

/-! ### What the security unit changes -/

section
variable {s t u : State}

theorem changes_onSec (s : State) (f : StSec → StSec) : Changes [.sec] s (s.onSec f) :=
  ⟨rfl, fun p hp => by cases p <;> simp [Part.same] at hp ⊢⟩

/-- The parts that the effect of a write of the security unit changes. -/
def SecParts (s t : State) : Prop := Changes [.sec, .objs, .recd, .free] s t

theorem SecParts.trans (hst : SecParts s t) (htu : SecParts t u) : SecParts s u := Changes.trans hst htu

theorem secParts_onSec (s : State) (f : StSec → StSec) : SecParts s (s.onSec f) := (changes_onSec s f).mono (by decide)

theorem secParts_setBit (s : State) (k b : Nat) (v : Bool) : SecParts s (s.setBit k b v) := (changes_setBit s k b v).mono (by decide)

theorem secParts_record (s : State) (source type : Nat) (b : Bytes) : SecParts s (s.record source type false b) :=
  (record_recordOnly s source type false b).1.mono (by decide)

theorem secParts_free (s : State) (n : Nat) : SecParts s { s with free := n } :=
  ⟨rfl, fun p hp => by cases p <;> simp [Part.same] at hp ⊢⟩

theorem SecParts.dict (h : SecParts s t) : t.dict = s.dict := h.2 .dict (by decide)

theorem SecParts.dev (h : SecParts s t) : t.dev = s.dev := h.2 .dev (by decide)

/-- A record leaves the security unit. -/
theorem sec_record (s : State) (source type : Nat) (b : Bytes) : (s.record source type false b).sec = s.sec :=
  (record_recordOnly s source type false b).1.2 .sec (by decide)

theorem bit_secStatus_record (s : State) (source type : Nat) (b : Bytes) (i : Nat) :
    (s.record source type false b).bit kSecStatus i = s.bit kSecStatus i :=
  (record_recordOnly s source type false b).2.bit (by decide) i

theorem secParts_fuseRecord (s : State) (kind slot value : Nat) : SecParts s (s.fuseRecord kind slot value) := secParts_record s _ _ _

theorem fuseRecord_sec (s : State) (kind slot value : Nat) : (s.fuseRecord kind slot value).sec = s.sec := sec_record s _ _ _

theorem secStatus_bits {b : Nat} (hb : b < 16) : b < 8 * (objDefault kSecStatus).length := hb

end

/-! ### Writes in SERVICE -/

section
variable {rq : Requester} {index sub : Nat} {v : Bytes} {own : State → Nat} {s : State}

/-- The effect of a write of the security unit, on a state in which only the requesters' records differ. -/
theorem submitWrite_sec (h : InService rq index sub v s) (hown : own s = 0) {eff : State → State} (heff : ∀ u, SecParts u (eff u)) :
    ∃ a g, Changes [.dict] s a ∧ submitWrite rq index sub v own eff s = (eff a).onPair g ∧ (((eff a).onPair g).rq rq).result = 0 := by
  obtain ⟨g, hg⟩ := submitWrite_service h hown eff
  refine ⟨s.accepted rq index sub, g, s.accepted_frame rq index sub, hg, ?_⟩
  have hrqs : ((eff (s.accepted rq index sub)).onPair g).dict.rqs = (s.accepted rq index sub).dict.rqs :=
    congrArg StDict.rqs (heff _).dict
  rw [State.rq_congr hrqs]
  exact result_accepted s rq index sub

end

/-! ### Images (R447, R449) -/

section
variable {s : State} {rq : Requester}

theorem st_setSt (i : ImgSlots) (b : Bool) (v : SlotState) : (i.setSt b v).st b = v := by cases b <;> rfl

theorem bytes_setSt (i : ImgSlots) (b c : Bool) (v : SlotState) : (i.setSt b v).bytes c = i.bytes c := by cases b <;> cases c <;> rfl

theorem bytes_setBytes_same (i : ImgSlots) (b : Bool) (v : Bytes) : (i.setBytes b v).bytes b = v := by cases b <;> rfl

theorem bytes_setBytes_other (i : ImgSlots) (b : Bool) (v : Bytes) : (i.setBytes b v).bytes (!b) = i.bytes (!b) := by cases b <;> rfl

theorem active_setBytes_setSt (i : ImgSlots) (b c : Bool) (v : Bytes) (w : SlotState) : ((i.setBytes b v).setSt c w).active = i.active := by
  cases b <;> cases c <;> rfl

theorem imageOwn_service (hstate : s.dev.state = .service) (htrial : s.sec.main.trial = false) (hflash : s.sec.flashOp = none) :
    imageOwn 1 s = resPending := by
  have htype : (s.sec.img 1).trial = false := htrial
  rw [imageOwn, if_neg (by simp [hstate]), if_neg (by simp [htype, hflash])]

theorem imageWrite_starts {d : Bytes} (h : InService rq 0x9000 0x03 d s) (htrial : s.sec.main.trial = false)
    (hflash : s.sec.flashOp = none) : Completes (.imageWrite rq .main d) s (fun t =>
      t.sec.flashOp = some (.image 1 d rq) ∧ t.sec.main.st s.sec.main.target = .empty ∧
      t.sec.main.bytes (!s.sec.main.target) = s.sec.main.bytes (!s.sec.main.target) ∧ t.sec.fuses = s.sec.fuses ∧ t.objs = s.objs) := by
  have hown := imageOwn_service h.2.2.2 htrial hflash
  obtain ⟨x, g, hwrite⟩ := submitWrite_service_pending h hown (imageEff rq 1 d)
  have hexec : imageWrite rq .main d s = (imageEff rq 1 d { s with dict := x }).onPair g := by
    refine Eq.trans (if_neg ?_) hwrite
    rintro ⟨-, -, hrefused⟩
    rw [show imageOwn (imgNo .main) s = resPending from hown] at hrefused
    exact absurd hrefused (by decide)
  refine ⟨_, congrArg Host.Outcome.next hexec, rfl, st_setSt _ _ _, ?_, rfl, rfl⟩
  exact (bytes_setSt _ _ _ _).trans (bytes_setBytes_other _ _ _)

/-- The slots after the read-back of an image. -/
def ImgSlots.readBack (i : ImgSlots) (d : Bytes) (c : Nat) : ImgSlots :=
  (i.setBytes i.target (if c = 0 then d else [])).setSt i.target (if c = 0 then .pending else .invalid)

/-- The state in which the read-back of a main image has been checked, before the answer. -/
def State.imageChecked (s : State) (d : Bytes) (c : Nat) : State :=
  let u := s.onSec (fun x => { x with main := x.main.readBack d c, flashOp := none })
  if c = 0 then u.log 0x0101 (le 1 1 ++ le 1 (b01 s.sec.main.target) ++ [0, 0] ++ le 4 (imgVersion d) ++ le 1 (imgSvn d))
  else (u.setBit kSecStatus 4 true).log 0x0103 (le 1 1 ++ [0, 0, 0] ++ le 4 c)

theorem imageChecked_sec (s : State) (d : Bytes) (c : Nat) :
    (s.imageChecked d c).sec = { s.sec with main := s.sec.main.readBack d c, flashOp := none } := by
  unfold State.imageChecked
  dsimp only
  split
  · exact sec_record _ _ _ _
  · exact sec_record _ _ _ _

theorem imageChecked_bit (s : State) (d : Bytes) (c : Nat) :
    (c = 0 → (s.imageChecked d c).bit kSecStatus 4 = s.bit kSecStatus 4) ∧ (c ≠ 0 → (s.imageChecked d c).bit kSecStatus 4 = true) := by
  unfold State.imageChecked
  dsimp only
  split
  case isTrue h => exact ⟨fun _ => bit_secStatus_record _ _ _ _ 4, fun hne => absurd h hne⟩
  case isFalse h =>
    exact ⟨fun hz => absurd hz h, fun _ => (bit_secStatus_record _ _ _ _ 4).trans
      (State.bit_setBit_same _ kSecStatus 4 true (secStatus_bits (by decide)))⟩

theorem imageDone_main (s : State) (d : Bytes) (rq : Requester) (ok : Bool) :
    s.imageDone 1 d rq ok = (s.imageChecked d (if ok then s.sec.imageCheck 1 false d else abHwFault)).finish rq
      (if ok then s.sec.imageCheck 1 false d else abHwFault) := rfl

/-- What the answer of a finished operation leaves. -/
theorem finish_frame (s : State) (rq : Requester) (c : Nat) : (s.finish rq c).sec = s.sec ∧ (s.finish rq c).objs = s.objs := by
  obtain ⟨hparts, -⟩ := answerOnly_finish s rq c
  exact ⟨hparts.2 .sec (by decide), hparts.2 .objs (by decide)⟩

theorem bit_finish (s : State) (rq : Requester) (c k b : Nat) : (s.finish rq c).bit k b = s.bit k b := by
  rw [State.bit, State.n_congr (finish_frame s rq c).2]
  rfl

theorem imageStored {d : Bytes} {ok : Bool} (hflash : s.sec.flashOp = some (.image 1 d rq)) (hatt : s.sec.attNonce = none) :
    Completes (.bootFlashOperationDone ok) s (fun t => t.sec.flashOp = none ∧
      (t.rq rq).result = (if ok then s.sec.imageCheck 1 false d else 0x00000601) ∧
      ((if ok then s.sec.imageCheck 1 false d else 0x00000601) = 0 → t.sec.main.st s.sec.main.target = .pending ∧
        t.sec.main.bytes s.sec.main.target = d ∧ t.sec.main.active = s.sec.main.active ∧ t.bit kSecStatus 4 = s.bit kSecStatus 4) ∧
      ((if ok then s.sec.imageCheck 1 false d else 0x00000601) ≠ 0 → t.sec.main.st s.sec.main.target = .invalid ∧
        t.bit kSecStatus 4 = true)) := by
  have hexec : bootFlashOperationDone ok s = s.imageDone 1 d rq ok := by
    unfold bootFlashOperationDone
    rw [hflash]
    exact if_neg (by simp [hatt])
  rw [imageDone_main] at hexec
  have hcode : (if ok then s.sec.imageCheck 1 false d else abHwFault) = if ok then s.sec.imageCheck 1 false d else 0x00000601 := rfl
  rw [hcode] at hexec
  generalize (if ok then s.sec.imageCheck 1 false d else 0x00000601) = c at *
  obtain ⟨hstays, hmarked⟩ := imageChecked_bit s d c
  have hsec := (finish_frame (s.imageChecked d c) rq c).1.trans (imageChecked_sec s d c)
  have hbit := bit_finish (s.imageChecked d c) rq c kSecStatus 4
  refine ⟨_, congrArg Host.Outcome.next hexec, ?_⟩
  simp only [hsec, hbit, State.result_finish, true_and]
  refine ⟨fun hc => ⟨?_, ?_, active_setBytes_setSt _ _ _ _ _, hstays hc⟩, fun hc => ⟨?_, hmarked hc⟩⟩
  · exact (st_setSt _ _ _).trans (if_pos hc)
  · exact (bytes_setSt _ _ _ _).trans ((bytes_setBytes_same _ _ _).trans (if_pos hc))
  · exact (st_setSt _ _ _).trans (if_neg hc)

theorem imageHeld {d : Bytes} (hflash : s.sec.flashOp = some (.image 1 d rq)) (hatt : s.sec.attNonce.isSome = true) :
    bootFlashOperationDone true s = s.onSec (fun x => { x with flashOp := some (.readBack 1 d rq) }) := by
  unfold bootFlashOperationDone
  rw [hflash]
  exact if_pos ⟨rfl, hatt⟩

theorem bootFlashOperationDone_none (hflash : s.sec.flashOp = none) (ok : Bool) : bootFlashOperationDone ok s = s := by
  unfold bootFlashOperationDone
  rw [hflash]

end

/-! ### Confirmation and reboot (R450) -/

section
variable {s : State} {rq : Requester}

theorem main_onImg (x : StSec) {t : Nat} (ht : t ≠ 1) (f : ImgSlots → ImgSlots) : (x.onImg t f).main = x.main := by
  unfold StSec.onImg
  rw [if_neg ht]
  split <;> rfl

/-- The fuse of a rollback counter is blown where the confirmed image asks for it. -/
def State.rolled (s : State) (t old svn : Nat) : State :=
  if old < svn then
    (s.onSec (fun x => { x with fuses := { x.fuses with rollback := modAt x.fuses.rollback (t - 1) (fun _ => svn) } })).fuseRecord 2 t svn
  else s

theorem rolled_spec (s : State) (t old svn : Nat) : SecParts s (s.rolled t old svn) ∧ (s.rolled t old svn).sec.main = s.sec.main := by
  unfold State.rolled
  split
  · have hsec := fuseRecord_sec (s.onSec (fun x => { x with fuses := { x.fuses with
      rollback := modAt x.fuses.rollback (t - 1) (fun _ => svn) } })) 2 t svn
    have hmain := congrArg StSec.main hsec
    exact ⟨(secParts_onSec s _).trans (secParts_fuseRecord _ _ _ _), hmain⟩
  · exact ⟨Changes.refl _ s, rfl⟩

theorem logOpen_spec (s : State) (source type : Nat) : SecParts s (s.logOpen source type) ∧ (s.logOpen source type).sec = s.sec :=
  ⟨(secParts_free s _).trans (secParts_record _ _ _ _), sec_record _ _ _ _⟩

theorem confirmType_trial {t : Nat} {b : Bool} (hrun : (s.sec.img t).running = some b) (htrial : (s.sec.img t).st b = .trial) :
    s.confirmType t = ((s.onSec (fun x => x.onImg t (fun i => { i.setSt b .valid with active := b }))).logOpen 0 0x0102).rolled t
      (s.sec.fuses.rollback.getD (t - 1) 0) (imgSvn (s.sec.img t).image) := by
  unfold State.confirmType
  dsimp only
  rw [hrun]
  exact if_neg (fun h => h htrial)

/-- Nothing is confirmed where no trial runs. -/
theorem confirmType_idle {t : Nat} (h : ∀ b, (s.sec.img t).running = some b → (s.sec.img t).st b ≠ .trial) : s.confirmType t = s := by
  unfold State.confirmType
  dsimp only
  split
  · rfl
  case h_2 b hrun => exact if_pos (h b hrun)

theorem confirmType_spec (s : State) (t : Nat) : SecParts s (s.confirmType t) ∧ (t ≠ 1 → (s.confirmType t).sec.main = s.sec.main) := by
  by_cases hidle : ∀ b, (s.sec.img t).running = some b → (s.sec.img t).st b ≠ .trial
  · rw [confirmType_idle hidle]
    exact ⟨Changes.refl _ s, fun _ => rfl⟩
  · obtain ⟨b, hb⟩ := not_forall.mp hidle
    obtain ⟨hrun, htrial⟩ := Classical.not_imp.mp hb
    rw [confirmType_trial hrun (not_not.mp htrial)]
    have hconfirm := secParts_onSec s (fun x => x.onImg t (fun i => { i.setSt b .valid with active := b }))
    obtain ⟨hlog, hlsec⟩ := logOpen_spec (s.onSec (fun x => x.onImg t (fun i => { i.setSt b .valid with active := b }))) 0 0x0102
    obtain ⟨hroll, hrmain⟩ := rolled_spec ((s.onSec (fun x => x.onImg t (fun i => { i.setSt b .valid with active := b }))).logOpen 0 0x0102) t
      (s.sec.fuses.rollback.getD (t - 1) 0) (imgSvn (s.sec.img t).image)
    exact ⟨(hconfirm.trans hlog).trans hroll, fun ht => hrmain.trans ((congrArg StSec.main hlsec).trans (main_onImg s.sec ht _))⟩

theorem confirmType_main {b : Bool} (hrun : s.sec.main.running = some b) (htrial : s.sec.main.st b = .trial) :
    (s.confirmType 1).sec.main = { s.sec.main.setSt b .valid with active := b } := by
  rw [confirmType_trial (t := 1) hrun htrial]
  obtain ⟨-, hlsec⟩ := logOpen_spec (s.onSec (fun x => x.onImg 1 (fun i => { i.setSt b .valid with active := b }))) 0 0x0102
  exact (rolled_spec _ _ _ _).2.trans (congrArg StSec.main hlsec)

theorem secConfirmEff_one (s : State) : secConfirmEff [1] s = (((s.confirmType 1).confirmType 2).confirmType 3).setBit kSecStatus 2 false := by
  simp [secConfirmEff, leVal]

theorem secParts_confirm (s : State) : SecParts s (secConfirmEff [1] s) := by
  rw [secConfirmEff_one]
  exact ((((confirmType_spec s 1).1.trans (confirmType_spec _ 2).1).trans (confirmType_spec _ 3).1).trans (secParts_setBit _ _ _ _))

theorem secConfirm_confirms {b : Bool} (h : InService rq 0x9000 0x06 [1] s) (hrun : s.sec.main.running = some b)
    (htrial : s.sec.main.st b = .trial) : Completes (.secConfirm rq 1) s (fun t =>
      t.sec.main.st b = .valid ∧ t.sec.main.active = b ∧ t.bit kSecStatus 2 = false ∧ (t.rq rq).result = 0 ∧ t.dev = s.dev) := by
  have hown : onlyIn s [.inert, .config, .ready, .service] = 0 := if_pos (by simp [State.isIn, h.2.2.2])
  obtain ⟨a, g, ha, hexec, hresult⟩ := submitWrite_sec (own := fun s => onlyIn s [.inert, .config, .ready, .service]) h hown secParts_confirm
  refine ⟨_, congrArg Host.Outcome.next hexec, ?_⟩
  have hasec : a.sec = s.sec := ha.2 .sec (by decide)
  have hadev : a.dev = s.dev := ha.2 .dev (by decide)
  have hmain : (secConfirmEff [1] a).sec.main = { s.sec.main.setSt b .valid with active := b } := by
    rw [secConfirmEff_one, ← hasec]
    refine ((confirmType_spec _ 3).2 (by decide)).trans (((confirmType_spec _ 2).2 (by decide)).trans ?_)
    exact confirmType_main (hasec ▸ hrun) (hasec ▸ htrial)
  have hbit : (secConfirmEff [1] a).bit kSecStatus 2 = false := by
    rw [secConfirmEff_one]
    exact State.bit_setBit_same _ kSecStatus 2 false (secStatus_bits (by decide))
  refine ⟨?_, congrArg ImgSlots.active hmain, hbit, hresult, (secParts_confirm a).dev.trans hadev⟩
  exact (congrArg (ImgSlots.st · b) hmain).trans (st_setSt s.sec.main b .valid)

theorem rebootEff_one (s : State) : rebootEff [1] s = (if s.recd.mounted then s.saveEntry 1 else s).powerReset := by
  simp [rebootEff, leVal]

/-- What a reboot keeps. -/
theorem rebootEff_spec (s : State) : (rebootEff [1] s).dev.phase = .reset ∧ (rebootEff [1] s).dev.state = .inert ∧
    (rebootEff [1] s).objs = s.objs.filter (fun p => p.1 == kRecSafeSect || p.1 == kAttCert) ∧
    (rebootEff [1] s).sec.fuses = s.sec.fuses ∧ (rebootEff [1] s).sec.main.imgA = s.sec.main.imgA ∧
    (rebootEff [1] s).sec.main.imgB = s.sec.main.imgB := by
  rw [rebootEff_one]
  split <;> exact ⟨rfl, rfl, rfl, rfl, rfl, rfl⟩

theorem secReboot_resets (h : InService rq 0x9000 0x07 [1] s) : Completes (.secReboot rq 1) s (fun t =>
    t.dev.phase = .reset ∧ t.dev.state = .inert ∧ t.objs = s.objs.filter (fun p => p.1 == kRecSafeSect || p.1 == kAttCert) ∧
    t.sec.fuses = s.sec.fuses ∧ t.sec.main.imgA = s.sec.main.imgA ∧ t.sec.main.imgB = s.sec.main.imgB) := by
  have hown : rebootOwn s = 0 := if_pos (by simp [h.2.2.2])
  obtain ⟨g, hexec⟩ := submitWrite_service h hown (rebootEff [1])
  have hframe := s.accepted_frame rq 0x9000 0x07
  refine ⟨_, congrArg Host.Outcome.next hexec, ?_⟩
  have hspec := rebootEff_spec (s.accepted rq 0x9000 0x07)
  have hsec : (s.accepted rq 0x9000 0x07).sec = s.sec := hframe.2 .sec (by decide)
  have hobjs : (s.accepted rq 0x9000 0x07).objs = s.objs := hframe.2 .objs (by decide)
  rw [hsec, hobjs] at hspec
  exact hspec

end

/-! ### Fuses (R457) -/

section
variable {s : State} {rq : Requester}

/-- A fuse is blown and recorded. -/
def State.blown (s : State) (f : Fuses → Fuses) (kind slot value : Nat) : State :=
  (s.onSec (fun x => { x with fuses := f x.fuses })).fuseRecord kind slot value

theorem blown_spec (s : State) (f : Fuses → Fuses) (kind slot value : Nat) : SecParts s (s.blown f kind slot value) ∧
    (s.blown f kind slot value).sec = { s.sec with fuses := f s.sec.fuses } :=
  ⟨(secParts_onSec s _).trans (secParts_fuseRecord _ _ _ _), fuseRecord_sec (s.onSec (fun x => { x with fuses := f x.fuses })) _ _ _⟩

theorem blank_lt {f : Fuses} {i : Nat} (h : f.blank = some i) : i < 4 := List.mem_range.mp (List.mem_of_find?_eq_some h)

/-- An owner key is fused in the lowest blank slot. -/
def Fuses.withOwner (d : Bytes) (i : Nat) (f : Fuses) : Fuses :=
  { f with owner := modAt f.owner i (fun _ => some (fit 32 (Config.shake256 d 32))) }

theorem ownerKeyEff_blank {d : Bytes} {i : Nat} (h : s.sec.fuses.blank = some i) :
    ownerKeyEff d s = s.fresh.2.blown (Fuses.withOwner d i) 0 i s.fresh.1 := by
  unfold ownerKeyEff
  rw [h]
  rfl

theorem secParts_ownerKey (d : Bytes) (s : State) : SecParts s (ownerKeyEff d s) := by
  cases h : s.sec.fuses.blank with
  | none =>
    have hsame : ownerKeyEff d s = s := by rw [ownerKeyEff, h]
    rw [hsame]
    exact Changes.refl _ s
  | some i =>
    rw [ownerKeyEff_blank h]
    exact (secParts_free s _).trans (blown_spec s.fresh.2 _ _ _ _).1

theorem secOwnerKey_fuses {d : Bytes} {i : Nat} (h : InService rq 0x9000 0x09 d s) (hlength : d.length = 64)
    (hblank : s.sec.fuses.blank = some i) (howner : s.sec.fuses.owner.length = 4) : Completes (.secOwnerKey rq d) s (fun t =>
      t.sec.fuses.owner.getD i none = some (fit 32 (Config.shake256 d 32)) ∧
      (∀ j, j ≠ i → t.sec.fuses.owner.getD j none = s.sec.fuses.owner.getD j none) ∧ (t.rq rq).result = 0) := by
  have hown : ownerKeyOwn d s = 0 := by simp [ownerKeyOwn, hlength, State.isIn, h.2.2.2, hblank]
  obtain ⟨a, g, ha, hexec, hresult⟩ := submitWrite_sec h hown (secParts_ownerKey d)
  have hasec : a.sec = s.sec := ha.2 .sec (by decide)
  have hsec : (ownerKeyEff d a).sec = { s.sec with fuses := s.sec.fuses.withOwner d i } := by
    rw [ownerKeyEff_blank (hasec ▸ hblank), ← hasec]
    exact (blown_spec a.fresh.2 _ _ _ _).2
  have howners (j : Nat) := getD_modAt (l := s.sec.fuses.owner) (howner.symm ▸ blank_lt hblank) j (some (fit 32 (Config.shake256 d 32))) none
  refine ⟨_, congrArg Host.Outcome.next hexec, ?_, fun j hj => ?_, hresult⟩
  · exact (congrArg (fun x : StSec => x.fuses.owner.getD i none) hsec).trans ((howners i).trans (if_pos rfl))
  · exact (congrArg (fun x : StSec => x.fuses.owner.getD j none) hsec).trans ((howners j).trans (if_neg hj))

/-- An owner slot is revoked. -/
def Fuses.withRevoked (i : Nat) (f : Fuses) : Fuses := { f with revoked := modAt f.revoked i (fun _ => true) }

theorem leVal_byte (v : Byte) : leVal [v] = v.toNat := by simp [leVal]

theorem ownerRevokeEff_blown (v : Byte) (s : State) : ownerRevokeEff [v] s = s.blown (Fuses.withRevoked v.toNat) 1 v.toNat 1 := by
  rw [ownerRevokeEff, leVal_byte]
  rfl

theorem ownerRevokeOwn_service (h : s.dev.state = .service) (v : Byte) :
    ownerRevokeOwn [v] s = if 3 < v.toNat ∨ s.sec.fuses.otherOwner v.toNat = false then abRange else 0 := by
  rw [ownerRevokeOwn, if_neg (by simp [State.isIn, h]), leVal_byte]
  simp

theorem secOwnerRevoke_revokes {v : Byte} (h : InService rq 0x9000 0x0A [v] s) (hslot : v.toNat ≤ 3)
    (hother : s.sec.fuses.otherOwner v.toNat = true) (hlength : s.sec.fuses.revoked.length = 4) :
    Completes (.secOwnerRevoke rq v) s (fun t => t.sec.fuses.revoked.getD v.toNat false = true ∧
      t.sec.fuses.owner = s.sec.fuses.owner ∧ (t.rq rq).result = 0) := by
  have hown : ownerRevokeOwn [v] s = 0 := by
    rw [ownerRevokeOwn_service h.2.2.2, if_neg (by simp [hother, hslot])]
  have hparts (u : State) : SecParts u (ownerRevokeEff [v] u) := ownerRevokeEff_blown v u ▸ (blown_spec u _ _ _ _).1
  obtain ⟨a, g, ha, hexec, hresult⟩ := submitWrite_sec h hown hparts
  have hasec : a.sec = s.sec := ha.2 .sec (by decide)
  have hsec : (ownerRevokeEff [v] a).sec = { s.sec with fuses := s.sec.fuses.withRevoked v.toNat } := by
    rw [ownerRevokeEff_blown, ← hasec]
    exact (blown_spec a _ _ _ _).2
  have hset := getD_modAt (l := s.sec.fuses.revoked) (i := v.toNat) (by omega) v.toNat true false
  have howner : (ownerRevokeEff [v] a).sec.fuses.owner = s.sec.fuses.owner := by
    rw [hsec]
    rfl
  refine ⟨_, congrArg Host.Outcome.next hexec, ?_, howner, hresult⟩
  exact (congrArg (fun x : StSec => x.fuses.revoked.getD v.toNat false) hsec).trans (hset.trans (if_pos rfl))

theorem secOwnerRevoke_refused {v : Byte} (h : InService rq 0x9000 0x0A [v] s)
    (hbad : 3 < v.toNat ∨ s.sec.fuses.otherOwner v.toNat = false) : Completes (.secOwnerRevoke rq v) s (fun t =>
      t.sec = s.sec ∧ (t.rq rq).result = 0x00000302) := by
  have hown : ownerRevokeOwn [v] s = abRange := (ownerRevokeOwn_service h.2.2.2 v).trans (if_pos hbad)
  have hexec := submitWrite_service_refused h hown (by decide) (by decide) (by decide) (by decide) (ownerRevokeEff [v])
  exact ⟨_, congrArg Host.Outcome.next hexec, rfl, congrArg RqSt.result (s.rq_answer rq abRange)⟩

/-- The device lock. -/
def Fuses.locked (f : Fuses) : Fuses := { f with devBlown := true }

/-- The device lock is blown, and DEV_OPEN clears. -/
def State.devLocked (s : State) : State :=
  ((s.onSec (fun x => { x with fuses := x.fuses.locked })).setBit kSecStatus 1 false).fuseRecord 3 0 1

theorem devLockEff_one (s : State) : devLockEff [1] s = if s.sec.fuses.devBlown then s else s.devLocked := by
  rw [devLockEff]
  by_cases h : s.sec.fuses.devBlown = true
  · rw [if_pos (Or.inr h), if_pos h]
  · rw [if_neg (by simp [leVal, h]), if_neg h]
    rfl

theorem devLockEff_spec (s : State) : SecParts s (devLockEff [1] s) ∧ (devLockEff [1] s).sec.fuses.devBlown = true ∧
    (s.sec.fuses.devBlown = false → (devLockEff [1] s).bit kSecStatus 1 = false) := by
  rw [devLockEff_one]
  split
  case isTrue h => exact ⟨Changes.refl _ s, h, fun hopen => by simp [hopen] at h⟩
  case isFalse h =>
    refine ⟨((secParts_onSec s _).trans (secParts_setBit _ _ _ _)).trans (secParts_fuseRecord _ _ _ _), ?_, fun _ => ?_⟩
    · exact congrArg (fun x : StSec => x.fuses.devBlown)
        (fuseRecord_sec ((s.onSec (fun x => { x with fuses := x.fuses.locked })).setBit kSecStatus 1 false) 3 0 1)
    · exact (bit_secStatus_record _ _ _ _ 1).trans (State.bit_setBit_same _ kSecStatus 1 false (secStatus_bits (by decide)))

theorem secDevLock_locks (h : InService rq 0x9000 0x0B [1] s) : Completes (.secDevLock rq 1) s (fun t =>
    t.sec.fuses.devBlown = true ∧ (t.rq rq).result = 0 ∧ (s.sec.fuses.devBlown = false → t.bit kSecStatus 1 = false)) := by
  obtain ⟨a, g, ha, hexec, hresult⟩ := submitWrite_sec (own := fun _ => 0) h rfl fun u => (devLockEff_spec u).1
  have hasec : a.sec = s.sec := ha.2 .sec (by decide)
  obtain ⟨-, hblown, hbit⟩ := devLockEff_spec a
  exact ⟨_, congrArg Host.Outcome.next hexec, hblown, hresult, fun hopen => hbit (hasec ▸ hopen)⟩

/-! ### Attestation (R452 to R454) -/

theorem nonceOwn_free {d : Bytes} (hlength : d.length = 32) (hatt : s.sec.attNonce = none) (htrng : s.sec.trngOk = true)
    (hseed : s.sec.fuses.devSeed.isSome = true) : nonceOwn d s = 0 := by
  simp [nonceOwn, hlength, hatt, htrng, Option.isNone_eq_false_iff.mpr hseed]

theorem secParts_nonce (d : Bytes) (s : State) : SecParts s (nonceEff d s) := by
  unfold nonceEff
  split
  · exact Changes.refl _ s
  · exact (secParts_onSec s _).trans (secParts_setBit _ _ _ _)

theorem attNonce_starts {d : Bytes} (h : InService rq 0x9000 0x10 d s) (hlength : d.length = 32) (hatt : s.sec.attNonce = none)
    (htrng : s.sec.trngOk = true) (hseed : s.sec.fuses.devSeed.isSome = true) : Completes (.attNonce rq d) s (fun t =>
      t.sec = { s.sec with attNonce := some d, attReady := false } ∧ t.bit kSecStatus 5 = true ∧ (t.rq rq).result = 0) := by
  obtain ⟨a, g, ha, hexec, hresult⟩ := submitWrite_sec h (nonceOwn_free hlength hatt htrng hseed) (secParts_nonce d)
  have hasec : a.sec = s.sec := ha.2 .sec (by decide)
  have heff : nonceEff d a = (a.onSec (fun x => { x with attNonce := some d, attReady := false })).setBit kSecStatus 5 true :=
    if_neg (by simp [hasec, hatt])
  rw [heff] at hexec hresult
  exact ⟨_, congrArg Host.Outcome.next hexec, congrArg (fun x : StSec => { x with attNonce := some d, attReady := false }) hasec,
    State.bit_setBit_same _ kSecStatus 5 true (secStatus_bits (by decide)), hresult⟩

/-- The state of the security unit once a report is complete (R453). -/
def StSec.reported (x : StSec) (b : Bytes) : StSec := { x with attNonce := none, attSeq := x.attSeq + 1, attReady := true, attReport := b }

/-- A report begins with its number, the serial, its sequence number and the nonce (R454). -/
theorem reportBody_prefix (s : State) (seq : Nat) (nonce : Bytes) :
    le 4 0x41540001 ++ le 8 s.sec.fuses.serial ++ le 4 seq ++ fit 32 nonce <+: s.reportBody seq nonce := by
  unfold State.reportBody
  iterate 20 refine List.IsPrefix.trans ?_ (List.prefix_append _ _)
  exact List.prefix_rfl

theorem report_head (s : State) (seq : Nat) (nonce block : Bytes) : ∃ rest,
    s.reportBody seq nonce ++ block = le 4 0x41540001 ++ (le 8 s.sec.fuses.serial ++ (le 4 seq ++ (fit 32 nonce ++ rest))) := by
  obtain ⟨rest, hrest⟩ := (reportBody_prefix s seq nonce).trans (List.prefix_append _ block)
  exact ⟨rest, by rw [← hrest]; simp only [List.append_assoc]⟩

theorem report_take {b rest nonce : Bytes} {serial seq : Nat}
    (h : b = le 4 0x41540001 ++ (le 8 serial ++ (le 4 seq ++ (fit 32 nonce ++ rest)))) :
    b.take 4 = le 4 0x41540001 ∧ slice b 16 32 = fit 32 nonce := by
  have hhead : ((le 4 0x41540001 ++ le 8 serial) ++ le 4 seq).length = 16 := by simp only [List.length_append, le_length]
  refine ⟨?_, ?_⟩
  · rw [h]
    exact List.take_left' (le_length 4 _)
  · rw [slice, h, ← List.append_assoc, ← List.append_assoc, List.drop_left' hhead, List.take_left' (fit_length 32 nonce)]
    simp [zeros]

/-- What the completion of a report changes. -/
theorem reportSigned_spec (s : State) (nonce seed : Bytes) : ∃ b : Bytes, b.take 4 = le 4 0x41540001 ∧ slice b 16 32 = fit 32 nonce ∧
    (s.reportSigned nonce seed).sec = s.sec.reported b ∧ (s.reportSigned nonce seed).bit kSecStatus 5 = false ∧
    (s.reportSigned nonce seed).bit kSecStatus 0 = s.bit kSecStatus 0 ∧ SecParts s (s.reportSigned nonce seed) ∧
    ChangesObjs [kSecStatus, kRecStatus, kRecDrops] s (s.reportSigned nonce seed) := by
  obtain ⟨b, t, hb, ht⟩ : ∃ (b : Bytes) (t : Bytes), (∃ block, b = s.reportBody (s.sec.attSeq + 1) nonce ++ block) ∧
      s.reportSigned nonce seed = ((s.onSec (fun x => x.reported b)).setBit kSecStatus 5 false).record 3 0x0104 false t :=
    ⟨_, _, ⟨_, rfl⟩, rfl⟩
  obtain ⟨block, hblock⟩ := hb
  obtain ⟨rest, hrest⟩ := report_head s (s.sec.attSeq + 1) nonce block
  obtain ⟨hnumber, hnonce⟩ := report_take (hblock.trans hrest)
  obtain ⟨-, hobjs⟩ := record_recordOnly ((s.onSec (fun x => x.reported b)).setBit kSecStatus 5 false) 3 0x0104 false t
  have hmark := changesObjs_setBit (s.onSec (fun x => x.reported b)) kSecStatus 5 false
  rw [ht]
  refine ⟨b, hnumber, hnonce, sec_record _ _ _ _, ?_, ?_, ?_, ?_⟩
  · exact (bit_secStatus_record _ _ _ _ 5).trans (State.bit_setBit_same _ kSecStatus 5 false (secStatus_bits (by decide)))
  · exact (bit_secStatus_record _ _ _ _ 0).trans (State.bit_setBit_beside _ kSecStatus false (secStatus_bits (by decide)) (by decide))
  · exact ((secParts_onSec s _).trans (secParts_setBit _ _ _ _)).trans (secParts_record _ _ _ _)
  · have hbit : ChangesObjs [kSecStatus] s ((s.onSec (fun x => x.reported b)).setBit kSecStatus 5 false) := hmark
    exact (hbit.mono (by decide)).trans (hobjs.mono (by decide))

/-- The writes that wait for a signature, where no image does. -/
theorem runVerifies_writes (h : ∀ n b q, s.sec.flashOp ≠ some (.readBack n b q)) : s.runVerifies =
    s.sec.verifies.foldl (fun s w =>
      if ((runWrite w.rq w.index w.sub w.data s).rq w.rq).result = resPending then runWrite w.rq w.index w.sub w.data s
      else (runWrite w.rq w.index w.sub w.data s).finish w.rq ((runWrite w.rq w.index w.sub w.data s).rq w.rq).result)
      (s.onSec (fun x => { x with verifies := [] })) := by
  unfold State.runVerifies
  dsimp only
  split
  case h_1 hop => exact absurd hop (h _ _ _)
  case h_2 => rfl

theorem attReportDone_signs {n : Bytes} (hatt : s.sec.attNonce = some n) (hseed : s.sec.fuses.devSeed.isSome = true) :
    ∃ seed, attReportDone s = (s.reportSigned n seed).runVerifies := by
  obtain ⟨seed, hs⟩ := Option.isSome_iff_exists.mp hseed
  refine ⟨seed, ?_⟩
  unfold attReportDone
  rw [hatt, hs]

theorem attReportDone_none (hatt : s.sec.attNonce = none) : attReportDone s = s := by
  unfold attReportDone
  rw [hatt]

theorem attReportDone_report {d : Bytes} (hatt : s.sec.attNonce = some d) (hseed : s.sec.fuses.devSeed.isSome = true)
    (hnone : s.sec.verifies = []) (hflash : ∀ n b q, s.sec.flashOp ≠ some (.readBack n b q)) : Completes .attReportDone s (fun t =>
      t.sec.attNonce = none ∧ t.sec.attReady = true ∧ t.sec.attSeq = s.sec.attSeq + 1 ∧ t.sec.attReport.take 4 = le 4 0x41540001 ∧
      slice t.sec.attReport 16 32 = fit 32 d ∧ t.bit kSecStatus 5 = false ∧ t.sec.fuses = s.sec.fuses) := by
  obtain ⟨seed, hexec⟩ := attReportDone_signs hatt hseed
  obtain ⟨b, hnumber, hnonce, hsec, hbit, -⟩ := reportSigned_spec s d seed
  rw [runVerifies_writes (by rw [hsec]; exact hflash), show (s.reportSigned d seed).sec.verifies = [] by rw [hsec]; exact hnone] at hexec
  refine ⟨_, congrArg Host.Outcome.next hexec, ?_⟩
  have hend : ((s.reportSigned d seed).onSec (fun x => { x with verifies := [] })).sec = { s.sec.reported b with verifies := [] } :=
    congrArg (fun x : StSec => { x with verifies := [] }) hsec
  simp only [List.foldl_nil, hend]
  exact ⟨rfl, rfl, rfl, hnumber, hnonce, hbit, rfl⟩

/-! ### The device certificate (R452, R453) -/

theorem runWrite_cert (rq : Requester) (d : Bytes) (s : State) :
    runWrite rq 0x9000 0x13 d s = submitWrite rq 0x9000 0x13 d (certOwn d) (storeWrite 0x9000 0x13 d) s := by
  rw [runWrite, if_neg (by decide), afterWrite_other rq d s (by decide) (by decide) (by decide) (by decide)]
  rfl

theorem certOwn_cases (d : Bytes) (s : State) : certOwn d s = 0 ∨ certOwn d s = abType ∨ certOwn d s = abSignature ∨ certOwn d s = abRange := by
  unfold certOwn
  split
  · exact Or.inr (Or.inl rfl)
  · split
    · exact Or.inr (Or.inr (Or.inl rfl))
    · split
      · exact Or.inr (Or.inr (Or.inr rfl))
      · exact Or.inl rfl

theorem certOwn_codes (d : Bytes) (s : State) : certOwn d s ≠ resPending ∧ certOwn d s ≠ abLevel ∧ certOwn d s ≠ abState := by
  obtain h | h | h | h := certOwn_cases d s <;> rw [h] <;> decide

theorem certOwn_length {d : Bytes} (h : d.length ≠ 30080) (s : State) : certOwn d s = 0x00000301 := if_pos h

/-- A certificate is checked against the fuses alone. -/
theorem certOwn_congr {s t : State} (h : t.sec.fuses = s.sec.fuses) (d : Bytes) : certOwn d t = certOwn d s := by
  unfold certOwn StSec.verify
  dsimp only
  rw [h]

theorem storeWrite_cert (d : Bytes) (s : State) : storeWrite 0x9000 0x13 d s = s.setObj (objKey 0x9000 0x13) d := by
  have hall : (objRow? 0x9000 0x13).any (fun r => r.acc == .rws) = true := by decide
  obtain ⟨r, hrow, hacc⟩ := (Option.any_eq_true _ _).mp hall
  exact (storeWrite_stores hrow (Or.inr (by simpa using hacc)) d s).trans rfl

/-- The write of the device certificate where nothing waits. -/
theorem certWrite_spec {d : Bytes} (h : InService rq 0x9000 0x13 d s) :
    let t := submitWrite rq 0x9000 0x13 d (certOwn d) (storeWrite 0x9000 0x13 d) s
    (t.rq rq).result = certOwn d s ∧ t.sec = s.sec ∧ (certOwn d s = 0 → t.obj (objKey 0x9000 0x13) = d) ∧
      ChangesObjs [objKey 0x9000 0x13, kRecStatus, kRecDrops] s t := by
  intro t
  by_cases hzero : certOwn d s = 0
  · obtain ⟨g, hg⟩ := submitWrite_service h hzero (storeWrite 0x9000 0x13 d)
    have ht : t = ((s.accepted rq 0x9000 0x13).setObj (objKey 0x9000 0x13) d).onPair g := by rw [← storeWrite_cert]; exact hg
    have hframe := s.accepted_frame rq 0x9000 0x13
    rw [ht, hzero]
    refine ⟨result_accepted s rq 0x9000 0x13, hframe.2 .sec (by decide), fun _ => State.obj_setObj_same _ _ _, ?_⟩
    have hobjs := (ChangesObjs.of_objs (hframe.2 .objs (by decide)) [objKey 0x9000 0x13]).trans
      (changesObjs_setObj (s.accepted rq 0x9000 0x13) (objKey 0x9000 0x13) d)
    exact hobjs.mono (by simp)
  · obtain ⟨hpending, hlevel, hstate⟩ := certOwn_codes d s
    have hrefused : t = s.answer rq (certOwn d s) := submitWrite_service_refused h rfl hzero hpending hlevel hstate _
    rw [hrefused]
    exact ⟨congrArg RqSt.result (s.rq_answer rq _), rfl, fun h0 => absurd h0 hzero, .of_objs rfl _⟩

/-- A certificate that comes while a report is being signed waits for it. -/
theorem attCert_waits {d : Bytes} (h : InService rq 0x9000 0x13 d s) (hatt : s.sec.attNonce.isSome = true) (hlength : d.length = 30080) :
    Completes (.attCert rq d) s (fun t => t.sec = { s.sec with verifies := s.sec.verifies ++ [⟨rq, 0x9000, 0x13, d⟩] } ∧
      (t.rq rq).result = resPending ∧ t.objs = s.objs) := by
  obtain ⟨hresult, -⟩ := certWrite_spec h
  have hverified : [0, resPending, abSignature, abRange].contains (certOwn d s) = true := by
    have htype : certOwn d s ≠ abType := by
      unfold certOwn
      rw [if_neg (by simp [hlength])]
      split
      · decide
      · split <;> decide
    obtain hc | hc | hc | hc := certOwn_cases d s
    · rw [hc]; decide
    · exact absurd hc htype
    · rw [hc]; decide
    · rw [hc]; decide
  have hexec : attCert rq d s = (s.answer rq resPending).onSec (fun x => { x with verifies := x.verifies ++ [⟨rq, 0x9000, 0x13, d⟩] }) :=
    if_pos ⟨hatt, h.1, by rw [hresult]; exact hverified⟩
  exact ⟨_, congrArg Host.Outcome.next hexec, rfl, congrArg RqSt.result (s.rq_answer rq _), rfl⟩

theorem attCert_checked {d : Bytes} (h : InService rq 0x9000 0x13 d s) (hatt : s.sec.attNonce = none) :
    Completes (.attCert rq d) s (fun t => (t.rq rq).result = certOwn d s ∧ t.sec = s.sec ∧
      (certOwn d s = 0 → t.obj (objKey 0x9000 0x13) = d) ∧ (d.length ≠ 30080 → certOwn d s = 0x00000301) ∧
      ChangesObjs [objKey 0x9000 0x13, kRecStatus, kRecDrops] s t) := by
  obtain ⟨hresult, hsec, hstored, hobjs⟩ := certWrite_spec h
  exact ⟨_, congrArg Host.Outcome.next (if_neg (by simp [hatt])), hresult, hsec, hstored, fun hne => certOwn_length hne s, hobjs⟩

/-- Access to an object stays what it was while a report is completed. -/
theorem inService_congr {index sub : Nat} {v : Bytes} {t : State} (h : InService rq index sub v s) (hdev : t.dev = s.dev)
    (hdict : t.dict = s.dict) (hobjs : ChangesObjs [kSecStatus, kRecStatus, kRecDrops] s t)
    (hbit : t.bit kSecStatus 0 = s.bit kSecStatus 0) : InService rq index sub v t := by
  obtain ⟨hserved, hcheck, hblock, hstate⟩ := h
  have hrq : t.rq rq = s.rq rq := State.rq_congr (congrArg StDict.rqs hdict) rq
  have hlevel : t.level rq = s.level rq := State.level_congr (hobjs _ (by decide)) (by rw [hrq])
  have hstandby : t.standby = s.standby := by rw [State.standby, State.standby, hobjs.n (by decide)]
  have hbusy : t.standbyBusy rq index (objKey index sub) = s.standbyBusy rq index (objKey index sub) := by
    rw [State.standbyBusy, State.standbyBusy, hstandby, standbyMay, standbyMay, hdev]
  have hxfer : t.xferBusy rq index sub = s.xferBusy rq index sub := by rw [State.xferBusy, State.xferBusy, hdict]
  have hwritable (r : ObjRow) : writableNow t r = writableNow s r := by rw [writableNow, writableNow, hdev, hbit]
  refine ⟨?_, ?_, ?_, by rw [hdev, hstate]⟩
  · rw [← hserved, State.served, State.served, hdev, hbit, hobjs.n (k := kShedStage) (by decide), hobjs.n (k := kTierAvail) (by decide)]
  · rw [← hcheck]
    simp only [writeCheck, hbit, hlevel, hbusy, hxfer, hwritable]
  · rw [← hblock]
    unfold State.blockFailed
    split
    · exact hobjs.bit (by decide) _
    · rfl

/-- A certificate that waited is checked once the report is complete. -/
theorem attReportDone_cert {n d : Bytes} (h : InService rq 0x9000 0x13 d s) (hatt : s.sec.attNonce = some n)
    (hseed : s.sec.fuses.devSeed.isSome = true) (hflash : s.sec.flashOp = none)
    (hwaits : s.sec.verifies = [⟨rq, 0x9000, 0x13, d⟩]) : Completes .attReportDone s (fun t =>
      (t.rq rq).result = certOwn d s ∧ (certOwn d s = 0 → t.obj (objKey 0x9000 0x13) = d) ∧ t.sec.verifies = [] ∧
      t.sec.attReady = true) := by
  obtain ⟨seed, hexec⟩ := attReportDone_signs hatt hseed
  obtain ⟨b, -, -, hsec, -, hbit, hparts, hobjs⟩ := reportSigned_spec s n seed
  rw [runVerifies_writes (by rw [hsec]; intro m c q; rw [show (s.sec.reported b).flashOp = none from hflash]; simp),
    show (s.reportSigned n seed).sec.verifies = [⟨rq, 0x9000, 0x13, d⟩] by rw [hsec]; exact hwaits] at hexec
  generalize s.reportSigned n seed = u at *
  have hu : InService rq 0x9000 0x13 d (u.onSec (fun x => { x with verifies := [] })) :=
    inService_congr h hparts.dev hparts.dict hobjs hbit
  have hown : certOwn d (u.onSec (fun x => { x with verifies := [] })) = certOwn d s :=
    certOwn_congr (show u.sec.fuses = s.sec.fuses by rw [hsec]; rfl) d
  obtain ⟨hresult, hwsec, hstored, -⟩ := certWrite_spec hu
  rw [hown] at hresult hstored
  rw [List.foldl_cons, List.foldl_nil, runWrite_cert, hresult, if_neg (certOwn_codes d s).1] at hexec
  obtain ⟨hfsec, hfobjs⟩ := finish_frame (submitWrite rq 0x9000 0x13 d (certOwn d) (storeWrite 0x9000 0x13 d)
    (u.onSec (fun x => { x with verifies := [] }))) rq (certOwn d s)
  have hend := hfsec.trans hwsec
  refine ⟨_, congrArg Host.Outcome.next hexec, State.result_finish _ _ _, fun hz => ?_, congrArg StSec.verifies hend, ?_⟩
  · exact (State.obj_congr hfobjs _).trans (hstored hz)
  · exact (congrArg StSec.attReady hend).trans (show u.sec.attReady = true by rw [hsec]; rfl)

end

end Sys2Proof.Machine

namespace Sys2Proof
open Machine

/-- Settles O57: a write in SERVICE is its effect on the state with its answer; each effect has its own equation, and what it leaves is
`SecParts`. -/
theorem imagesAndFuses : Obligations.ImagesAndFuses := by
  intro s rq
  refine ⟨fun d => imageWrite_starts, fun d ok hflash hatt => imageStored hflash hatt, fun d hflash hatt => ?_, fun hflash ok => ?_,
    fun b => secConfirm_confirms, secReboot_resets, fun d i => secOwnerKey_fuses, fun v => secOwnerRevoke_revokes,
    fun v => secOwnerRevoke_refused, secDevLock_locks, fun d => attNonce_starts, fun d => attReportDone_report, fun hatt => ?_,
    fun d => attCert_waits, fun n d => attReportDone_cert, fun d => attCert_checked⟩
  · exact ⟨_, congrArg Host.Outcome.next (imageHeld hflash hatt), rfl, rfl, changes_onSec s _⟩
  · exact ⟨_, congrArg Host.Outcome.next (bootFlashOperationDone_none hflash ok), rfl⟩
  · exact ⟨_, congrArg Host.Outcome.next (attReportDone_none hatt), rfl⟩

end Sys2Proof
end

section
/-! SUPPORT. The clock watch (R467), the drift count (R468) and loss of lock (R466). -/

namespace Sys2Proof.Machine

variable {s : State}

/-! ### The watchers (R467) -/

/-- A watcher counts a window. -/
def State.windowed (s : State) (w : Watcher) (n : Nat) : State :=
  s.onMon (fun m => match w with
    | .onRefclk => { m with countRef := n }
    | .onGuard => { m with countGuard := n })

theorem clockWatchWindow_windowed (hup : s.dev.phase ≠ .reset) (w : Watcher) (n : W16) : clockWatchWindow w n s =
    if 1248 ≤ n.toNat ∧ n.toNat ≤ 1252 then
      match w with
      | .onRefclk => ((s.windowed w n.toNat).onMon (fun m => { m with tripRef := false })).drive
      | .onGuard => ({ (s.windowed w n.toNat).onMon (fun m => { m with tripGuard := false }) with
          time := { s.time with cleanWindows := s.time.cleanWindows + 1 } } : State).drive
    else if (s.windowed w n.toNat).tripped w then
      { s.windowed w n.toNat with time := { s.time with cleanWindows := if w = .onGuard then 0 else s.time.cleanWindows } }
    else (s.windowed w n.toNat).watchTrip w :=
  if_neg hup

theorem clockWatchWindow_clean (hup : s.dev.phase ≠ .reset) (w : Watcher) {n : W16} (hlow : 1248 ≤ n.toNat) (hhigh : n.toNat ≤ 1252) :
    Completes (.clockWatchWindow w n) s (fun t => t.tripped w = false ∧ t.dev.deviceFaults = s.dev.deviceFaults ∧
      t.time.running = s.time.running ∧ t.objs = s.objs) := by
  refine ⟨_, congrArg Host.Outcome.next ((clockWatchWindow_windowed hup w n).trans (if_pos ⟨hlow, hhigh⟩)), ?_⟩
  cases w <;> exact ⟨rfl, rfl, rfl, rfl⟩

theorem tripped_windowed (w : Watcher) (n : Nat) : (s.windowed w n).mon.tripRef = s.mon.tripRef ∧
    (s.windowed w n).mon.tripGuard = s.mon.tripGuard := by
  cases w <;> exact ⟨rfl, rfl⟩

/-- The device fault of a watcher that trips alone. -/
def watchFault (w : Watcher) (cycle : Nat) : DevFault := ⟨if w = .onRefclk then 0x0204 else 0x0203, 0xFF, cycle, 0⟩

/-- A watcher that trips alone finds the other clock lost. -/
theorem watchTrip_alone (href : s.mon.tripRef = false) (hguard : s.mon.tripGuard = false) (w : Watcher) :
    (s.watchTrip w).tripped w = true ∧ (s.watchTrip w).objs = s.objs ∧ ((s.watchTrip w).time.running = true → w = .onRefclk) ∧
    (w = .onGuard → (s.watchTrip w).time.running = false ∧ (s.watchTrip w).time.invalid = true) ∧
    (s.watchTrip w).dev.deviceFaults = s.dev.deviceFaults ++ [watchFault w s.cycle] := by
  cases w with
  | onRefclk =>
    have htrip : s.watchTrip .onRefclk = ((s.onMon (fun m => { m with tripRef := true })).drive).devFault 0x0204 0xFF 0 :=
      if_neg (c := true = true ∧ s.mon.tripGuard = true) (by simp [hguard])
    rw [htrip]
    exact ⟨rfl, rfl, fun _ => rfl, fun h => by simp at h, rfl⟩
  | onGuard =>
    have htrip : s.watchTrip .onGuard = (({ s.onMon (fun m => { m with tripGuard := true }) with
        time := { s.time with running := false, invalid := true, cleanWindows := 0 } } : State).drive).devFault 0x0203 0xFF 0 :=
      if_neg (c := s.mon.tripRef = true ∧ true = true) (by simp [href])
    rw [htrip]
    exact ⟨rfl, rfl, fun h => absurd (show false = true from h) (by decide), fun _ => ⟨rfl, rfl⟩, rfl⟩

theorem clockWatchWindow_trips (hup : s.dev.phase ≠ .reset) (w : Watcher) {n : W16} (hout : n.toNat < 1248 ∨ 1252 < n.toNat)
    (href : s.mon.tripRef = false) (hguard : s.mon.tripGuard = false) : clockWatchWindow w n s = (s.windowed w n.toNat).watchTrip w := by
  have htripped : (s.windowed w n.toNat).tripped w = false := by
    cases w
    · exact href
    · exact hguard
  rw [clockWatchWindow_windowed hup, if_neg (by omega), if_neg (by simp [htripped])]

theorem clockEdgeTimeout_trips (hup : s.dev.phase ≠ .reset) (w : Watcher) (href : s.mon.tripRef = false)
    (hguard : s.mon.tripGuard = false) : clockEdgeTimeout w s = s.watchTrip w := by
  have htripped : s.tripped w = false := by
    cases w
    · exact href
    · exact hguard
  rw [clockEdgeTimeout, if_neg hup, if_neg (by simp [htripped])]

/-! ### The drift count (R468) -/

theorem clkRatioWindow_counts (hup : s.dev.phase ≠ .reset) (n : W32) : Completes (.clkRatioWindow n) s (fun t =>
    t.n kClkRatio = n.toNat ∧ (n.toNat < 1048576 - 157 ∨ 1048576 + 157 < n.toNat → t.bit kClkStatus 2 = true) ∧
    ChangesObjs [kClkRatio, kClkStatus] s t ∧ Changes [.objs] s t) := by
  have hvalue : (s.setN kClkRatio n.toNat).n kClkRatio = n.toNat := (State.n_setN_same _ _ _).trans (Nat.mod_eq_of_lt n.isLt)
  have hobjs := changesObjs_setN s kClkRatio n.toNat
  have hparts := changes_setN s kClkRatio n.toNat
  by_cases hout : n.toNat < 1048576 - 157 ∨ 1048576 + 157 < n.toNat
  · have hexec : clkRatioWindow n s = (s.setN kClkRatio n.toNat).setBit kClkStatus 2 true := by
      rw [clkRatioWindow, if_neg hup]
      exact if_pos hout
    refine ⟨_, congrArg Host.Outcome.next hexec, (State.n_setBit_other _ 2 true (by decide)).trans hvalue,
      fun _ => State.bit_setBit_same _ kClkStatus 2 true (by decide), ?_, hparts.trans (changes_setBit _ _ 2 true)⟩
    exact (hobjs.mono (by decide)).trans ((changesObjs_setBit _ kClkStatus 2 true).mono (by decide))
  · have hexec : clkRatioWindow n s = s.setN kClkRatio n.toNat := by
      rw [clkRatioWindow, if_neg hup]
      exact if_neg hout
    exact ⟨_, congrArg Host.Outcome.next hexec, hvalue, fun h => absurd h hout, hobjs.mono (by decide), hparts⟩

/-! ### Loss of lock (R466) -/

/-- A PLL without its lock. -/
def State.unlocked (s : State) (l : Pll) : State := s.onMon (fun m => { m with pll := modAt m.pll (pllNo l) (fun _ => false) })

theorem pll_unlocked {l : Pll} (hlocked : s.mon.pll.getD (pllNo l) false = true) :
    (s.unlocked l).mon.pll.getD (pllNo l) false = false := by
  have hroom : pllNo l < s.mon.pll.length := by
    by_contra h
    rw [List.getD_eq_default _ _ (Nat.not_lt.mp h)] at hlocked
    exact absurd hlocked (by decide)
  exact getD_modAt_same hroom _ _

/-- The detail word of the fault that a PLL raises (R466). -/
def pllDetail : Pll → Nat
  | .n => 1
  | .b => 2
  | .p => 3
  | .k => 1
  | _ => 2

theorem pllLockLoss_fault (hup : s.dev.phase ≠ .reset) {l : Pll} (hl : l ≠ .x)
    (hlocked : s.mon.pll.getD (pllNo l) false = true) : pllLockLoss l s =
      (s.unlocked l).devFault (if l = .k ∨ l = .s then 0x0204 else 0x0203) 0xFF
        (pllDetail l) := by
  rw [pllLockLoss, if_neg (by simp only [hup, hlocked]; decide)]
  cases l with
  | x => exact absurd rfl hl
  | k | s | n | b | p => rfl

theorem changes_devFault (s : State) (type unit detail : Nat) : Changes [.dev] s (s.devFault type unit detail) :=
  ⟨rfl, fun p hp => by cases p <;> simp [Part.same, State.devFault] at hp ⊢⟩

end Sys2Proof.Machine

namespace Sys2Proof
open Machine

/-- Settles O12: a watcher that trips alone is `watchTrip_alone`; the other clauses are one equation each. -/
theorem clockWatch : Obligations.ClockWatch := by
  intro s hup
  refine ⟨fun w n hlow hhigh => clockWatchWindow_clean hup w hlow hhigh, fun w n hout href hguard => ?_, fun w href hguard => ?_,
    fun n => clkRatioWindow_counts hup n, fun l hl hlocked => ?_⟩
  · obtain ⟨hcountRef, hcountGuard⟩ := tripped_windowed (s := s) w n.toNat
    obtain ⟨htripped, hobjs, hrunning, hstopped, hfault⟩ := watchTrip_alone (hcountRef.trans href) (hcountGuard.trans hguard) w
    exact ⟨_, congrArg Host.Outcome.next (clockWatchWindow_trips hup w hout href hguard), htripped, hobjs, hrunning,
      fun h => (hstopped h).2, hfault⟩
  · obtain ⟨htripped, -, -, hstopped, hfault⟩ := watchTrip_alone href hguard w
    exact ⟨_, congrArg Host.Outcome.next (clockEdgeTimeout_trips hup w href hguard), htripped, hstopped, hfault⟩
  · refine ⟨_, congrArg Host.Outcome.next (pllLockLoss_fault hup hl hlocked), pll_unlocked hlocked, ?_, ?_⟩
    · exact ((changes_onMon s _).mono (by decide)).trans ((changes_devFault _ _ _ _).mono (by decide))
    · cases l <;> rfl

end Sys2Proof
end

section
/-! SUPPORT. The supply monitor and the shedding logic (R470 to R488): what the actions of a stage leave alone, the entry to a stage, a
result of a channel, calibrations, windows and the burst domains. -/

namespace Sys2Proof.Machine

/-! ### What the actions of a stage leave alone (R481) -/

/-- SHED_STAGE and SHED_MIN_CORE. -/
def shedKeys : List Nat := [kShedStage, kShedMinCore]

/-- Work beside the monitor, its stage and the dictionary. -/
def Beside (s t : State) : Prop := t.mon = s.mon ∧ t.dict = s.dict ∧ ∀ k ∈ shedKeys, t.obj k = s.obj k

theorem Beside.refl (s : State) : Beside s s := ⟨rfl, rfl, fun _ _ => rfl⟩

theorem Beside.trans {s t u : State} (hst : Beside s t) (htu : Beside t u) : Beside s u :=
  ⟨htu.1.trans hst.1, htu.2.1.trans hst.2.1, fun k hk => (htu.2.2 k hk).trans (hst.2.2 k hk)⟩

theorem Beside.ite {c : Prop} [Decidable c] {s t u : State} (ht : Beside s t) (hu : Beside s u) : Beside s (if c then t else u) := by
  split <;> assumption

theorem Beside.foldl {α : Type} {f : State → α → State} (l : List α) (h : ∀ s, ∀ x ∈ l, Beside s (f s x)) (s : State) :
    Beside s (l.foldl f s) := by
  induction l generalizing s with
  | nil => exact .refl s
  | cons x l ih => exact (h s x List.mem_cons_self).trans (ih (fun s y hy => h s y (List.mem_cons_of_mem x hy)) _)

theorem Beside.mon {s t : State} (h : Beside s t) : t.mon = s.mon := h.1
theorem Beside.dict {s t : State} (h : Beside s t) : t.dict = s.dict := h.2.1
theorem Beside.stage {s t : State} (h : Beside s t) : t.n kShedStage = s.n kShedStage := congrArg leVal (h.2.2 _ (by decide))
theorem Beside.minCore {s t : State} (h : Beside s t) : t.n kShedMinCore = s.n kShedMinCore := congrArg leVal (h.2.2 _ (by decide))

theorem AxisWork.beside {s t : State} (h : AxisWork s t) : Beside s t := by
  refine ⟨h.1.2 .mon (by decide), h.1.2 .dict (by decide), fun k hk => h.2 k ?_⟩
  simp only [shedKeys, List.mem_cons, List.not_mem_nil, or_false] at hk
  obtain rfl | rfl := hk <;> decide

section
variable (s : State)

theorem beside_setObj {k : Nat} (v : Bytes) (h : k ∉ shedKeys) : Beside s (s.setObj k v) :=
  ⟨rfl, rfl, fun _ hj => State.obj_setObj_other s v fun he => h (he ▸ hj)⟩

theorem beside_onMArm (a : Nat) (f : ArmSt → ArmSt) : Beside s (s.onMArm a f) := ⟨rfl, rfl, fun _ _ => rfl⟩
theorem beside_onGrp (g : Nat) (f : GrpSt → GrpSt) : Beside s (s.onGrp g f) := ⟨rfl, rfl, fun _ _ => rfl⟩
theorem beside_onRec (f : StRec → StRec) : Beside s (s.onRec f) := ⟨rfl, rfl, fun _ _ => rfl⟩
theorem beside_onDev (f : StDev → StDev) : Beside s (s.onDev f) := ⟨rfl, rfl, fun _ _ => rfl⟩
theorem beside_onPair (f : StPair → StPair) : Beside s (s.onPair f) := ⟨rfl, rfl, fun _ _ => rfl⟩
theorem beside_onFb (c : Nat) (f : FbSt → FbSt) : Beside s (s.onFb c f) := ⟨rfl, rfl, fun _ _ => rfl⟩
theorem beside_onCmp (c u : Nat) (f : CmpSt → CmpSt) : Beside s (s.onCmp c u f) := ⟨rfl, rfl, fun _ _ => rfl⟩
theorem beside_jogMask : Beside s s.jogMask := ⟨rfl, rfl, fun _ _ => rfl⟩

theorem moveStatus_notShed (a : Nat) : kMoveStatus a ∉ shedKeys := by
  simp only [shedKeys, kMoveStatus, kShedStage, kShedMinCore, List.mem_cons, List.not_mem_nil, or_false]
  omega

theorem grpStatus_notShed {g : Nat} (h : g < 4) : kGrpStatus g ∉ shedKeys := by
  simp only [shedKeys, kGrpStatus, kShedStage, kShedMinCore, List.mem_cons, List.not_mem_nil, or_false]
  omega

theorem lineKeys_notShed (n u : Nat) : kFbStatus n ∉ shedKeys ∧ kCmpStatus n u ∉ shedKeys := by
  simp only [shedKeys, kFbStatus, kCmpStatus, kShedStage, kShedMinCore, List.mem_cons, List.not_mem_nil, or_false]
  omega

theorem beside_setArmMov (a : Nat) (x : Mov) : Beside s (s.setArmMov a x) :=
  (beside_onMArm s a _).trans (beside_setObj _ _ (moveStatus_notShed a))

theorem beside_failGrp {g : Nat} (h : g < 4) (m e : Nat) : Beside s (s.failGrp g m e) :=
  (beside_onGrp s g _).trans (beside_setObj _ _ (grpStatus_notShed h))

theorem beside_motionStop : Beside s s.motionStop := by
  refine (Beside.foldl _ (fun s a _ => ?_) s).trans ((Beside.foldl _ (fun s g hg => ?_) _).trans (beside_jogMask _))
  · dsimp only
    split
    · exact (beside_onMArm s a _).trans (beside_setArmMov _ a _)
    · exact (beside_onMArm s a _).trans (beside_setArmMov _ a _)
  · exact (beside_failGrp s (List.mem_range.mp hg) 3 3).trans (beside_onGrp _ g _)

theorem beside_axStopAll : Beside s s.axStopAll :=
  (AxisWork.foldl _ (fun s _ h => axisWork_axStop s (List.mem_range.mp h)) s).beside

theorem beside_fbStatus (c b : Nat) (v : Bool) : Beside s (s.setBit (kFbStatus c) b v) := beside_setObj s _ (lineKeys_notShed c 0).1

theorem beside_fbStop : Beside s s.fbStop := Beside.foldl _ (fun s c _ => beside_fbStatus s c _ _) s

theorem beside_cmpOff (c : Nat) : Beside s (s.cmpOff c true) :=
  Beside.foldl _ (fun s u _ => (beside_onCmp s c u _).trans (beside_setObj _ _ (lineKeys_notShed c u).2)) s

theorem beside_fbResume : Beside s s.fbResume :=
  Beside.foldl _ (fun s c _ =>
    (((beside_onFb s c _).trans (beside_cmpOff _ c)).trans (beside_fbStatus _ c _ _)).trans (beside_fbStatus _ c _ _)) s

theorem beside_setIterActive : Beside s s.setIterActive := beside_setObj s _ (by decide)

theorem beside_finalRecord (trigger : Nat) : Beside s (s.finalRecord trigger) := by
  unfold State.finalRecord
  exact .ite (.refl s) ((beside_onRec s _).trans (beside_onRec _ _))

end

/-! ### The entry to a stage (R480, R481) -/

/-- The results of the monitor, its conditions and its place in the sequence stay. -/
def SameResults (m n : StMon) : Prop := n.chans = m.chans ∧ n.conds = m.conds ∧ n.seqPos = m.seqPos

theorem SameResults.refl (m : StMon) : SameResults m m := ⟨rfl, rfl, rfl⟩

theorem SameResults.trans {m n o : StMon} (hmn : SameResults m n) (hno : SameResults n o) : SameResults m o :=
  ⟨hno.1.trans hmn.1, hno.2.1.trans hmn.2.1, hno.2.2.trans hmn.2.2⟩

/-- The results and the stage stay. -/
def SameStage (s t : State) : Prop := SameResults s.mon t.mon ∧ t.n kShedStage = s.n kShedStage

theorem SameStage.refl (s : State) : SameStage s s := ⟨.refl _, rfl⟩
theorem SameStage.trans {s t u : State} (hst : SameStage s t) (htu : SameStage t u) : SameStage s u :=
  ⟨hst.1.trans htu.1, htu.2.trans hst.2⟩

theorem SameStage.ite {c : Prop} [Decidable c] {s t u : State} (ht : SameStage s t) (hu : SameStage s u) :
    SameStage s (if c then t else u) := by split <;> assumption

theorem SameStage.foldl {α : Type} {f : State → α → State} (h : ∀ s x, SameStage s (f s x)) (l : List α) (s : State) :
    SameStage s (l.foldl f s) := by
  induction l generalizing s with
  | nil => exact .refl s
  | cons x l ih => exact (h s x).trans (ih _)

theorem Beside.sameStage {s t : State} (h : Beside s t) : SameStage s t := ⟨h.1 ▸ .refl _, h.stage⟩

section
variable (s : State)

theorem sameStage_onMon {f : StMon → StMon} (h : SameResults s.mon (f s.mon)) : SameStage s (s.onMon f) := ⟨h, rfl⟩

theorem sameStage_s4wait : SameStage s (s.onMon fun m => { m with s4wait := true }) := sameStage_onMon s ⟨rfl, rfl, rfl⟩

theorem sameStage_of_frame {t : State} (hmon : SameResults s.mon t.mon) (hobjs : t.objs = s.objs) : SameStage s t :=
  ⟨hmon, State.n_congr hobjs _⟩

theorem sameStage_s4Stop : SameStage s s.s4Stop := sameStage_of_frame s ⟨rfl, rfl, rfl⟩ rfl

theorem sameStage_shedStandstill : SameStage s s.shedStandstill := by
  unfold State.shedStandstill
  refine .ite (.refl s) ?_
  exact (beside_onDev s fun d => { d with shedStill := true }).sameStage.trans (.ite (sameStage_s4Stop _) (.refl _))

theorem sameStage_shedAction (k trigger : Nat) : SameStage s (s.shedAction k trigger) := by
  unfold State.shedAction
  split
  · exact (beside_onRec s _).sameStage
  · exact (beside_setIterActive s).sameStage
  · exact ((beside_motionStop s).trans (beside_axStopAll _)).sameStage
  · exact (((axisWork_axHalt s).beside.trans (beside_fbStop _)).sameStage).trans (sameStage_s4wait _)
  · exact (sameStage_of_frame s (t := (s.onArms fun _ x => x.stoBoth).drive) (.refl _) rfl).trans
      ((beside_onPair _ _).trans (beside_finalRecord _ trigger)).sameStage

/-- An entry to a stage latches it (R481). -/
theorem enterStage_spec {k : Nat} (hk : k < 256) (trigger : Nat) :
    SameResults s.mon (s.enterStage k trigger).mon ∧ (s.enterStage k trigger).n kShedStage = max (s.n kShedStage) k := by
  unfold State.enterStage
  dsimp only
  split
  case isTrue h => exact ⟨.refl _, by omega⟩
  case isFalse h =>
    generalize hstage : s.setN kShedStage k = t
    have hlatched : t.n kShedStage = k := by
      rw [← hstage, State.n_setN_same, show (objDefault kShedStage).length = 1 by decide]
      omega
    have hresults : SameResults s.mon t.mon := hstage ▸ .refl _
    have hcount := (beside_setObj t (patch (t.obj kShedCount) (4 * (k - 1)) (le 4 (satInc 32 (t.sub kShedCount (4 * (k - 1)) 4))))
      (k := kShedCount) (by decide)).sameStage
    have hrest := ((hcount.trans (SameStage.foldl (fun u j => SameStage.ite (c := s.n kShedStage ≤ j ∧ j < k)
      (sameStage_shedAction u (j + 1) trigger) (.refl u)) (List.range 5) _)).trans
      (SameStage.ite (c := 3 ≤ k) (beside_onDev _ fun d => { d with shedEvent := max d.shedEvent k }).sameStage (.refl _))).trans
      (sameStage_shedStandstill _)
    exact ⟨hresults.trans hrest.1, by rw [show max (s.n kShedStage) k = k by omega]; exact hrest.2.trans hlatched⟩

end

/-! ### A result of a channel (R471, R480) -/

/-- The conditions that hold now and did not before enter their stages (R480). -/
def State.enterNew (s : State) (before : List Bool) (l : List Nat) : State := l.foldl (fun s i =>
  if s.mon.conds.getD i false ∧ !before.getD i false then s.enterStage (condStage i) (condTrigger i) else s) s

theorem condStage_small (i : Nat) : condStage i < 256 := by
  unfold condStage
  split
  · rename_i r h
    have hall : ∀ r ∈ shedRows, r.stage < 256 := by decide
    exact hall r (List.mem_of_getElem? h)
  · decide

/-- A condition that is new enters at least its stage, and no stage falls. -/
theorem enterNew_spec (before : List Bool) (l : List Nat) (s : State) : SameResults s.mon (s.enterNew before l).mon ∧
    s.n kShedStage ≤ (s.enterNew before l).n kShedStage ∧ ∀ i ∈ l, s.mon.conds.getD i false = true → before.getD i false = false →
      condStage i ≤ (s.enterNew before l).n kShedStage := by
  induction l generalizing s with
  | nil => exact ⟨.refl _, Nat.le_refl _, fun i hi => by simp at hi⟩
  | cons j l ih =>
    rw [State.enterNew, List.foldl_cons, ← State.enterNew]
    generalize hu : (if s.mon.conds.getD j false ∧ !before.getD j false then s.enterStage (condStage j) (condTrigger j) else s) = u
    have hstep : SameResults s.mon u.mon ∧ s.n kShedStage ≤ u.n kShedStage ∧
        (s.mon.conds.getD j false = true → before.getD j false = false → condStage j ≤ u.n kShedStage) := by
      obtain ⟨hresults, hstage⟩ := enterStage_spec s (condStage_small j) (condTrigger j)
      subst hu
      split
      case isTrue h => exact ⟨hresults, by omega, fun _ _ => by omega⟩
      case isFalse h => exact ⟨.refl _, Nat.le_refl _, fun hnow hbefore => absurd ⟨hnow, by rw [hbefore]; rfl⟩ h⟩
    obtain ⟨hresults, hle, hj⟩ := hstep
    obtain ⟨hrest, hmono, hall⟩ := ih u
    refine ⟨hresults.trans hrest, hle.trans hmono, fun i hi hnow hbefore => ?_⟩
    obtain rfl | hi := List.mem_cons.mp hi
    · exact (hj hnow hbefore).trans hmono
    · exact hall i hi (hresults.2.1 ▸ hnow) hbefore

/-- Where no condition holds, none enters its stage. -/
theorem enterNew_none {before : List Bool} {s : State} (h : ∀ i, s.mon.conds.getD i false = false) (l : List Nat) : s.enterNew before l = s := by
  induction l with
  | nil => rfl
  | cons j l ih =>
    rw [State.enterNew, List.foldl_cons, if_neg fun hnow => Bool.false_ne_true ((h j).symm.trans hnow.1)]
    exact ih

theorem SameResults.foldl {α : Type} {f : StMon → α → StMon} (h : ∀ m x, SameResults m (f m x)) (l : List α) (m : StMon) :
    SameResults m (l.foldl f m) := by
  induction l generalizing m with
  | nil => exact .refl m
  | cons x l ih => exact (h m x).trans (ih _)

theorem sameResults_inject (m : StMon) (by_ : Injector) (c n : Nat) : SameResults m (m.inject by_ c n) := by
  unfold StMon.inject
  refine SameResults.trans (n := { m with injs := m.injs.filter (fun i => i.slot != m.freeSlot by_ n) ++ [⟨m.freeSlot by_ n, c, by_⟩] })
    ⟨rfl, rfl, rfl⟩ (.foldl (fun m i => ?_) _ _)
  exact ⟨rfl, rfl, rfl⟩

theorem sameResults_timedInject (m : StMon) (prev now : Nat) : SameResults m (m.timedInject prev now) := by
  unfold StMon.timedInject
  split
  · exact .refl m
  · refine .foldl (fun m c => ?_) _ m
    split
    · exact .refl m
    · dsimp only
      split
      · exact sameResults_inject m _ _ _
      · exact .refl m

theorem sameResults_calibrate (m : StMon) : SameResults m m.calibrate := by
  unfold StMon.calibrate
  split
  · split
    · exact .refl m
    · exact ⟨rfl, rfl, rfl⟩
  · exact .refl m

theorem sameStage_afterResult (s : State) (slot : Nat) : SameStage s (s.afterResult slot) :=
  sameStage_onMon s ((SameResults.trans (n := { s.mon with slotNow := max s.mon.slotNow slot }) ⟨rfl, rfl, rfl⟩
    (sameResults_timedInject _ _ _)).trans (sameResults_calibrate _))

theorem afterResult_frame (s : State) (slot : Nat) : (s.afterResult slot).safe = s.safe ∧ (s.afterResult slot).dev = s.dev := ⟨rfl, rfl⟩

/-! ### What a result stores -/

/-- The flags that a result may set. -/
def flagKeys : List Nat := [kShedMinCore, kPwrStatus, kMonStatus, kShedLive]

/-- Work on the flags of the monitor alone. -/
def FlagWork (s t : State) : Prop := Changes [.objs] s t ∧ ChangesObjs flagKeys s t

theorem FlagWork.refl (s : State) : FlagWork s s := ⟨.refl _ s, .refl _ s⟩
theorem FlagWork.trans {s t u : State} (hst : FlagWork s t) (htu : FlagWork t u) : FlagWork s u := ⟨hst.1.trans htu.1, hst.2.trans htu.2⟩

theorem FlagWork.ite {c : Prop} [Decidable c] {s t u : State} (ht : FlagWork s t) (hu : FlagWork s u) : FlagWork s (if c then t else u) := by
  split <;> assumption

theorem flagWork_setObj (s : State) {k : Nat} (v : Bytes) (h : k ∈ flagKeys) : FlagWork s (s.setObj k v) :=
  ⟨changes_setObj s k v, fun _ hj => State.obj_setObj_other s v fun he => hj (he ▸ h)⟩

theorem flagWork_resultFlags (s : State) (c v : Nat) : FlagWork s (s.resultFlags c v) := by
  unfold State.resultFlags
  dsimp only
  generalize hcore : (if c < 8 ∧ v < s.n kShedMinCore then s.setN kShedMinCore v else s) = t
  generalize hrail : (if c < 22 ∧ railMax c * 65536 < v * tapFs c then t.setBit kPwrStatus 4 true else t) = u
  have ht : FlagWork s t := hcore ▸ .ite (flagWork_setObj s _ (by decide)) (.refl s)
  have hu : FlagWork t u := hrail ▸ .ite (flagWork_setObj t _ (by decide)) (.refl t)
  exact (ht.trans hu).trans (.ite (flagWork_setObj u _ (by decide)) (.refl u))

section
variable {s t : State} (h : FlagWork s t)
include h

theorem FlagWork.mon : t.mon = s.mon := h.1.2 .mon (by decide)
theorem FlagWork.safe : t.safe = s.safe := h.1.2 .safe (by decide)
theorem FlagWork.dev : t.dev = s.dev := h.1.2 .dev (by decide)
theorem FlagWork.stage : t.n kShedStage = s.n kShedStage := h.2.n (by decide)

theorem FlagWork.condOn (i : Nat) : t.condOn i = s.condOn i := by
  simp only [State.condOn, State.dramOn, h.dev, h.2.bit (show kUnitFail ∉ flagKeys by decide)]

end

/-- The channel after a result of `v`. -/
def State.chanAfter (s : State) (c v slot : Nat) (seq : Bool) : MonCh :=
  (s.mon.chans.getD c .reset).take (maskOf ((List.range 13).filter (fun i => (condTaps i).contains c && s.condOn i && condBeyond i c v))) v slot seq

/-- The conditions after a result, in a monitor that holds it (R480). -/
def State.condsAfter (s : State) (hold : Nat) (m : StMon) : List Bool :=
  (List.range 13).map (fun i => s.condOn i && (hold.testBit i || s.mon.conds.getD i false && !m.condClear i))

/-- The monitor with a result stored. -/
def State.monAfter (s : State) (c v slot : Nat) (seq : Bool) : StMon :=
  let m := { s.mon with chans := modAt s.mon.chans c (fun _ => s.chanAfter c v slot seq) }
  { m with conds := s.condsAfter (condHolds (s.mon.chans.getD c .reset) (s.chanAfter c v slot seq) slot) m }

/-- The state with a result stored and its flags set. -/
def State.monStored (s : State) (c v slot : Nat) (seq : Bool) : State :=
  let m := s.monAfter c v slot seq
  let t := (((s.resultFlags c v).onMon (fun _ => m)).setN kShedLive (liveStages m.conds)).setBit kPwrStatus 3 (m.conds.getD 12 false)
  if (s.mon.chans.getD c .reset).since.isNone ∧ (s.chanAfter c v slot seq).since.isSome then t.onMon (fun m => m.inject .shedding c (slot + 7))
  else t

theorem monResult_stored (s : State) (c v slot : Nat) (seq : Bool) :
    s.monResult c v slot seq = (s.monStored c v slot seq).enterNew s.mon.conds (List.range 13) := by
  have hflags := flagWork_resultFlags s c v
  unfold State.monResult State.enterNew State.monStored
  simp only [State.onMon, hflags.mon, hflags.condOn]
  rfl

theorem monStored_frame (s : State) (c v slot : Nat) (seq : Bool) : SameResults (s.monAfter c v slot seq) (s.monStored c v slot seq).mon ∧
    (s.monStored c v slot seq).n kShedStage = s.n kShedStage ∧ (s.monStored c v slot seq).safe = s.safe ∧
    (s.monStored c v slot seq).dev = s.dev := by
  have hflags := flagWork_resultFlags s c v
  unfold State.monStored
  generalize s.monAfter c v slot seq = m
  dsimp only
  generalize ht : (((s.resultFlags c v).onMon (fun _ => m)).setN kShedLive (liveStages m.conds)).setBit kPwrStatus 3 (m.conds.getD 12 false) = t
  have hwork : FlagWork ((s.resultFlags c v).onMon (fun _ => m)) t :=
    ht ▸ (flagWork_setObj _ _ (by decide)).trans (flagWork_setObj _ _ (by decide))
  have hmon : t.mon = m := hwork.mon
  have hstage : t.n kShedStage = s.n kShedStage := hwork.stage.trans hflags.stage
  have hsafe : t.safe = s.safe := hwork.safe.trans hflags.safe
  have hdev : t.dev = s.dev := hwork.dev.trans hflags.dev
  split
  · exact ⟨hmon ▸ sameResults_inject t.mon _ _ _, hstage, hsafe, hdev⟩
  · exact ⟨hmon ▸ .refl _, hstage, hsafe, hdev⟩

/-! ### The result of a sequence conversion and of an injected one (R471, R475) -/

/-- What a result leaves: the channel with the value, no stage below the old one, and every new condition in its stage. -/
theorem monResult_spec (s : State) (c v slot : Nat) (seq : Bool) (hc : c < s.mon.chans.length) :
    (s.monResult c v slot seq).mon.chans.getD c .reset = s.chanAfter c v slot seq ∧
    (s.monResult c v slot seq).mon.seqPos = s.mon.seqPos ∧ s.n kShedStage ≤ (s.monResult c v slot seq).n kShedStage ∧
    ∀ i, i < 13 → (s.monAfter c v slot seq).conds.getD i false = true → s.mon.conds.getD i false = false →
      condStage i ≤ (s.monResult c v slot seq).n kShedStage := by
  obtain ⟨⟨hchans, hconds, hpos⟩, hstage, -, -⟩ := monStored_frame s c v slot seq
  obtain ⟨⟨hchans', -, hpos'⟩, hle, hnew⟩ := enterNew_spec s.mon.conds (List.range 13) (s.monStored c v slot seq)
  have hchan : (s.monAfter c v slot seq).chans.getD c .reset = s.chanAfter c v slot seq := getD_modAt_same hc _ _
  have hplace : (s.monAfter c v slot seq).seqPos = s.mon.seqPos := rfl
  rw [monResult_stored]
  generalize s.monStored c v slot seq = u at *
  generalize s.monAfter c v slot seq = m at *
  refine ⟨by rw [hchans', hchans, hchan], hpos'.trans (hpos.trans hplace), by rw [← hstage]; exact hle, fun i hi hnow hbefore => ?_⟩
  exact hnew i (List.mem_range.mpr hi) (by rw [hconds]; exact hnow) hbefore

theorem conds_monAfter (s : State) (c v slot : Nat) (seq : Bool) {i : Nat} (hi : i < 13) : (s.monAfter c v slot seq).conds.getD i false =
    (s.condOn i && ((condHolds (s.mon.chans.getD c .reset) (s.chanAfter c v slot seq) slot).testBit i ||
      s.mon.conds.getD i false && !({ s.mon with chans := modAt s.mon.chans c (fun _ => s.chanAfter c v slot seq) } : StMon).condClear i)) := by
  simp [State.monAfter, State.condsAfter, hi]

/-- The second result in a row beyond the threshold makes a condition hold. -/
theorem conds_second {s : State} {c v slot i : Nat} {seq : Bool} (hone : 1 ≤ i) (hi : i < 13) (htap : (condTaps i).contains c = true)
    (hon : s.condOn i = true) (hbeyond : condBeyond i c v = true) (hbefore : (s.mon.chans.getD c .reset).beyond.testBit i = true) :
    (s.monAfter c v slot seq).conds.getD i false = true := by
  have hmask : (s.chanAfter c v slot seq).beyond.testBit i = true :=
    testBit_maskOf (List.mem_filter.mpr ⟨List.mem_range.mpr hi, by simp only [htap, hon, hbeyond, Bool.and_self]⟩)
  have hholds : (condHolds (s.mon.chans.getD c .reset) (s.chanAfter c v slot seq) slot).testBit i = true := by
    rw [condHolds, testBit_setBit_other _ _ (by omega), Nat.testBit_and, hbefore, hmask, Bool.and_self]
  rw [conds_monAfter s c v slot seq hi, hon, hholds, Bool.true_or, Bool.and_self]

/-- A result beyond no threshold makes no condition hold where none held. -/
theorem conds_none {s : State} {c v slot : Nat} {seq : Bool} (hnone : s.mon.conds = List.replicate 13 false)
    (hwithin : ∀ i, i < 13 → (condTaps i).contains c = true → condBeyond i c v = false) (i : Nat) :
    (s.monAfter c v slot seq).conds.getD i false = false := by
  by_cases hi : i < 13
  · have hfilter : (List.range 13).filter (fun i => (condTaps i).contains c && s.condOn i && condBeyond i c v) = [] := by
      rw [List.filter_eq_nil_iff]
      intro j hj
      by_cases htap : (condTaps j).contains c = true
      · simp [hwithin j (List.mem_range.mp hj) htap]
      · simp only [htap, Bool.false_and, not_false_eq_true, Bool.false_eq_true]
    have hmask : s.chanAfter c v slot seq = (s.mon.chans.getD c .reset).take 0 v slot seq := by rw [State.chanAfter, hfilter]; rfl
    have hholds : condHolds (s.mon.chans.getD c .reset) ((s.mon.chans.getD c .reset).take 0 v slot seq) slot = 0 := by
      simp [condHolds, MonCh.take, setBit]
    have hbefore : s.mon.conds.getD i false = false := by rw [hnone]; exact List.getD_replicate _ hi
    rw [conds_monAfter s c v slot seq hi, hmask, hholds, hbefore, Nat.zero_testBit, Bool.false_and, Bool.or_self, Bool.and_false]
  · exact List.getD_eq_default _ _ (by simp [State.monAfter, State.condsAfter]; omega)

/-- A result that makes no condition hold leaves the stage, the safety logic and the device. -/
theorem monResult_quiet {s : State} {c v slot : Nat} {seq : Bool} (h : ∀ i, (s.monAfter c v slot seq).conds.getD i false = false) :
    (s.monResult c v slot seq).n kShedStage = s.n kShedStage ∧ (s.monResult c v slot seq).safe = s.safe ∧
      (s.monResult c v slot seq).dev = s.dev := by
  obtain ⟨⟨-, hconds, -⟩, hframe⟩ := monStored_frame s c v slot seq
  rw [monResult_stored, enterNew_none fun i => hconds ▸ h i]
  exact hframe

/-- The correction of a value is that of its group's factors alone. -/
theorem sysCorrect_onMon (s : State) (f : StMon → StMon) (c v : Nat) :
    (s.onMon f).sysCorrect c v = ((s.sysCorrect c v).1, (s.sysCorrect c v).2.onMon f) := by
  have hsub : (s.onMon f).sub = s.sub := rfl
  have hobj : (s.onMon f).obj = s.obj := rfl
  unfold State.sysCorrect
  split
  · rfl
  · dsimp only
    rw [hsub, hobj]
    split
    · rfl
    · rfl

section
variable {s : State}

/-- The monitor with its place in the sequence moved on, and the system calibration with the new result. -/
def StMon.advanced (m : StMon) (len c v : Nat) : StMon :=
  { m with seqPos := (m.seqPos + 1) % len, avg := m.avg.map (fun a => a.take c v) }

theorem adcConversion_result {slot c : Nat} {v : W16} {q : Byte} (hup : s.dev.phase ≠ .reset) (hcal : s.mon.calibrates slot = false)
    (hinj : s.mon.injs.any (fun i => i.slot == slot) = false)
    (hseq : (s.obj kMonSeq)[s.mon.seqPos % (s.obj kMonSeq).length]? = some q) (hc : c = q.toNat % 32)
    (hcorrect : s.sysCorrect c v.toNat = (v.toNat, s)) :
    adcConversion slot v s = ((s.onMon (fun m => m.advanced (s.obj kMonSeq).length c v.toNat)).monResult c v.toNat slot true).afterResult slot := by
  have hguard : ¬(s.dev.phase = .reset ∨ s.mon.calibrates slot = true ∨ s.mon.injs.any (fun i => i.slot == slot) = true) := by
    simp [hup, hcal, hinj]
  unfold adcConversion
  dsimp only
  rw [if_neg hguard, hseq]
  dsimp only
  rw [← hc, sysCorrect_onMon, hcorrect]
  simp only [StMon.advanced]

theorem injectedConversion_none {slot : Nat} {v : W16} (h : s.mon.injs.find? (fun j => j.slot == slot) = none) :
    injectedConversion slot v s = s := by rw [injectedConversion, h]

theorem injectedConversion_result {slot : Nat} {v : W16} {i : Inj} (hup : s.dev.phase ≠ .reset)
    (hinj : s.mon.injs.find? (fun j => j.slot == slot) = some i) (hcorrect : s.sysCorrect i.chan v.toNat = (v.toNat, s)) :
    injectedConversion slot v s = ((((s.onMon (fun m => { m with injs := m.injs.filter (fun i => i.slot != slot) })).monResult
      i.chan v.toNat slot false).kerbCompare i v.toNat).afterResult slot) := by
  rw [injectedConversion, hinj]
  dsimp only
  rw [if_neg hup, sysCorrect_onMon, hcorrect]

theorem sameResults_kerbCompare (s : State) (i : Inj) (v : Nat) : SameResults s.mon (s.kerbCompare i v).mon := by
  have henter (trigger : Nat) : SameResults s.mon (s.enterStage 5 trigger).mon := (enterStage_spec s (by decide) trigger).1
  unfold State.kerbCompare
  split
  · exact .refl _
  · split
    · split
      · exact henter 2
      · exact .refl _
    · split
      · exact henter 3
      · exact .refl _

/-- The channel after a result of the sequence. -/
theorem chanAfter_spec (s : State) (c v slot : Nat) : (s.chanAfter c v slot true).last = some v ∧
    (s.chanAfter c v slot true).min = min (s.mon.chans.getD c .reset).min v ∧
    (s.chanAfter c v slot true).max = max (s.mon.chans.getD c .reset).max v ∧
    ((s.mon.chans.getD c .reset).sat = false → (s.chanAfter c v slot true).sum = ((s.mon.chans.getD c .reset).sum + v) % 2 ^ 48 ∧
      (s.chanAfter c v slot true).count = (s.mon.chans.getD c .reset).count + 1) := by
  unfold State.chanAfter
  generalize s.mon.chans.getD c .reset = x
  refine ⟨rfl, rfl, rfl, fun hsat => ?_⟩
  simp [MonCh.take, hsat]

/-- The conversion of the sequence stores its result (R471); the stage never falls (R480). -/
theorem adcConversion_stores {slot c : Nat} {v : W16} {q : Byte} (hchans : s.mon.chans.length = 32) (hup : s.dev.phase ≠ .reset)
    (hcal : s.mon.calibrates slot = false) (hinj : s.mon.injs.any (fun i => i.slot == slot) = false)
    (hseq : (s.obj kMonSeq)[s.mon.seqPos % (s.obj kMonSeq).length]? = some q) (hc : c = q.toNat % 32)
    (hcorrect : s.sysCorrect c v.toNat = (v.toNat, s)) : Completes (.adcConversion slot v) s (fun t =>
      (t.mon.chans.getD c .reset).last = some v.toNat ∧
      (t.mon.chans.getD c .reset).min = min (s.mon.chans.getD c .reset).min v.toNat ∧
      (t.mon.chans.getD c .reset).max = max (s.mon.chans.getD c .reset).max v.toNat ∧
      ((s.mon.chans.getD c .reset).sat = false →
        (t.mon.chans.getD c .reset).sum = ((s.mon.chans.getD c .reset).sum + v.toNat) % 2 ^ 48 ∧
        (t.mon.chans.getD c .reset).count = (s.mon.chans.getD c .reset).count + 1) ∧
      t.mon.seqPos = (s.mon.seqPos + 1) % (s.obj kMonSeq).length ∧ s.n kShedStage ≤ t.n kShedStage ∧
      (∀ i, 1 ≤ i → i < 13 → (condTaps i).contains c = true → s.condOn i = true → condBeyond i c v.toNat = true →
        (s.mon.chans.getD c .reset).beyond.testBit i = true → s.mon.conds.getD i false = false → condStage i ≤ t.n kShedStage) ∧
      (s.mon.conds = List.replicate 13 false → (∀ i, i < 13 → (condTaps i).contains c = true → condBeyond i c v.toNat = false) →
        t.n kShedStage = s.n kShedStage ∧ t.safe = s.safe ∧ t.dev = s.dev)) := by
  have hexec := adcConversion_result hup hcal hinj hseq hc hcorrect
  generalize hu : s.onMon (fun m => m.advanced (s.obj kMonSeq).length c v.toNat) = u at hexec
  have hbefore : u.mon.chans = s.mon.chans ∧ u.mon.conds = s.mon.conds ∧ u.mon.seqPos = (s.mon.seqPos + 1) % (s.obj kMonSeq).length ∧
      u.objs = s.objs ∧ u.safe = s.safe ∧ u.dev = s.dev := hu ▸ ⟨rfl, rfl, rfl, rfl, rfl, rfl⟩
  obtain ⟨hsame, hconds, hpos, hobjs, hsafe, hdev⟩ := hbefore
  have hstage : u.n kShedStage = s.n kShedStage := State.n_congr hobjs _
  have hon (i : Nat) : u.condOn i = s.condOn i := by simp only [State.condOn, State.dramOn, State.bit, State.n_congr hobjs, hdev]
  obtain ⟨hchan, hplace, hle, hnew⟩ := monResult_spec u c v.toNat slot true (by rw [hsame, hchans]; omega)
  have hquiet := fun h => monResult_quiet (s := u) (c := c) (v := v.toNat) (slot := slot) (seq := true) h
  generalize u.monResult c v.toNat slot true = r at *
  obtain ⟨⟨hachans, -, haplace⟩, hastage⟩ := sameStage_afterResult r slot
  obtain ⟨hasafe, hadev⟩ := afterResult_frame r slot
  generalize r.afterResult slot = t at *
  refine ⟨t, congrArg Host.Outcome.next hexec, ?_⟩
  beta_reduce
  rw [hachans, hchan, hastage, haplace, hplace, ← hsame, ← hstage]
  obtain ⟨hlast, hmin, hmax, hsum⟩ := chanAfter_spec u c v.toNat slot
  refine ⟨hlast, hmin, hmax, hsum, hpos, hle, fun i hone hi htap hcond hbeyond htwo hnot => ?_, fun hnone hwithin => ?_⟩
  · exact hnew i hi (conds_second hone hi htap ((hon i).trans hcond) hbeyond htwo) (hconds ▸ hnot)
  · obtain ⟨hqstage, hqsafe, hqdev⟩ := hquiet (conds_none (hconds.trans hnone) hwithin)
    exact ⟨hqstage, hasafe.trans (hqsafe.trans hsafe), hadev.trans (hqdev.trans hdev)⟩

/-- The conversion that is injected stores its result; the Kerb's own on VDDIO_3V3 beyond the threshold enters S5 (R475). -/
theorem injectedConversion_stores {slot : Nat} {v : W16} {i : Inj} (hchans : s.mon.chans.length = 32) (hup : s.dev.phase ≠ .reset)
    (hinj : s.mon.injs.find? (fun j => j.slot == slot) = some i) (hi : i.chan < 32)
    (hcorrect : s.sysCorrect i.chan v.toNat = (v.toNat, s)) : Completes (.injectedConversion slot v) s (fun t =>
      (t.mon.chans.getD i.chan .reset).last = some v.toNat ∧
      (t.mon.chans.getD i.chan .reset).count = (s.mon.chans.getD i.chan .reset).count ∧
      (i.by_ = .kerb → i.chan = 13 → condBeyond 7 13 v.toNat = true → 5 ≤ t.n kShedStage)) := by
  have hexec := injectedConversion_result hup hinj hcorrect
  generalize hu : s.onMon (fun m => { m with injs := m.injs.filter (fun i => i.slot != slot) }) = u at hexec
  have hsame : u.mon.chans = s.mon.chans := hu ▸ rfl
  obtain ⟨hchan, -⟩ := monResult_spec u i.chan v.toNat slot false (by rw [hsame, hchans]; exact hi)
  obtain ⟨hkchans, -⟩ := sameResults_kerbCompare (u.monResult i.chan v.toNat slot false) i v.toNat
  generalize hr : u.monResult i.chan v.toNat slot false = r at *
  obtain ⟨⟨hachans, -⟩, hastage⟩ := sameStage_afterResult (r.kerbCompare i v.toNat) slot
  have hend : ((r.kerbCompare i v.toNat).afterResult slot).mon.chans.getD i.chan .reset = u.chanAfter i.chan v.toNat slot false := by
    rw [hachans, hkchans, hchan]
  refine ⟨_, congrArg Host.Outcome.next hexec, ?_⟩
  beta_reduce
  rw [hend, hastage, ← hsame]
  refine ⟨rfl, rfl, fun hkerb hrail hbeyond => ?_⟩
  have henter : r.kerbCompare i v.toNat = r.enterStage 5 2 := by simp [State.kerbCompare, hkerb, hrail, hbeyond]
  rw [henter, (enterStage_spec r (by decide) 2).2]
  exact Nat.le_max_right ..

/-! ### The re-enable, and the end of S4's wait (R481, R482) -/

theorem reenable_spec (h : s.mon.conds.any id = false) : s.reenable.n kShedStage = 0 ∧ s.reenable.n kShedMinCore = 0xFFFF ∧
    s.reenable.mon = { s.mon with s4wait := false, stopped := false } ∧ s.reenable.dict = s.dict := by
  generalize ht : (s.setN kShedStage 0).setN kShedMinCore 0xFFFF = t
  have hstage : t.n kShedStage = 0 := by rw [← ht, State.n_setN_other _ _ (by decide), State.n_setN_same, Nat.zero_mod]
  have hcore : t.n kShedMinCore = 0xFFFF := by rw [← ht, State.n_setN_same, show (objDefault kShedMinCore).length = 2 by decide]; rfl
  have hmon : t.mon = s.mon := ht ▸ rfl
  have hdict : t.dict = s.dict := ht ▸ rfl
  generalize hu : (t.setIterActive.onRec (fun x => { x with general := x.general.undefer })).onDev
    (fun d => { d with shedStill := false, shedEvent := 0 }) = u
  have hbeside : Beside t u := hu ▸ ((beside_setIterActive t).trans (beside_onRec _ _)).trans (beside_onDev _ _)
  have hexec : s.reenable = if decide (4 ≤ s.n kShedStage) then (u.onMon (fun m => { m with s4wait := false, stopped := false })).fbResume
      else u.onMon (fun m => { m with s4wait := false, stopped := false }) := by
    rw [State.reenable, if_neg (by simp [h]), ← hu, ← ht]
    rfl
  have hend : Beside (u.onMon (fun m => { m with s4wait := false, stopped := false })) s.reenable :=
    hexec ▸ .ite (beside_fbResume _) (.refl _)
  exact ⟨hend.stage.trans (hbeside.stage.trans hstage), hend.minCore.trans (hbeside.minCore.trans hcore),
    hend.mon.trans (congrArg (fun m : StMon => { m with s4wait := false, stopped := false }) (hbeside.mon.trans hmon)),
    hend.dict.trans (hbeside.dict.trans hdict)⟩

theorem reenableOwn_one (hstate : s.dev.state = .service) : reenableOwn [1] s = if s.mon.conds.any id then abBusy else 0 := by
  simp [reenableOwn, leVal, hstate]

theorem shedReenable_reenables {rq : Requester} (h : InService rq 0x8800 0x04 [1] s) (hnone : s.mon.conds.any id = false) :
    Completes (.shedReenable rq 1) s (fun t =>
      (t.rq rq).result = 0 ∧ t.n kShedStage = 0 ∧ t.n kShedMinCore = 0xFFFF ∧ t.mon.stopped = false ∧ t.mon.s4wait = false) := by
  have hown : reenableOwn [1] s = 0 := by rw [reenableOwn_one h.2.2.2, if_neg (by simp [hnone])]
  obtain ⟨g, hexec⟩ := submitWrite_service h hown State.reenable
  have hmon : (s.accepted rq 0x8800 0x04).mon = s.mon := (s.accepted_frame rq 0x8800 0x04).2 .mon (by decide)
  have hresult := result_accepted s rq 0x8800 0x04
  generalize s.accepted rq 0x8800 0x04 = a at *
  obtain ⟨hstage, hcore, hrmon, hdict⟩ := reenable_spec (s := a) (by rw [hmon]; exact hnone)
  refine ⟨_, congrArg Host.Outcome.next hexec, ?_, hstage, hcore, ?_, ?_⟩
  · exact (congrArg RqSt.result (State.rq_congr (congrArg StDict.rqs hdict) rq)).trans hresult
  · exact congrArg StMon.stopped hrmon
  · exact congrArg StMon.s4wait hrmon

theorem shedReenable_busy {rq : Requester} (h : InService rq 0x8800 0x04 [1] s) (hany : s.mon.conds.any id = true) :
    Completes (.shedReenable rq 1) s (fun t => (t.rq rq).result = 0x00000402 ∧ t.n kShedStage = s.n kShedStage ∧ t.mon = s.mon) := by
  have hown : reenableOwn [1] s = abBusy := by rw [reenableOwn_one h.2.2.2, if_pos hany]
  have hexec := submitWrite_service_refused h hown (by decide) (by decide) (by decide) (by decide) State.reenable
  refine ⟨_, congrArg Host.Outcome.next hexec, by rw [State.rq_answer]; rfl, State.n_congr rfl _, rfl⟩

theorem changes_clocksStop (s : State) (p : Nat → Bool) : Changes [.cnts] s (s.clocksStop p) :=
  ⟨rfl, fun p hp => by cases p <;> simp [Part.same] at hp ⊢⟩

theorem s4StandstillTimeout_stops (h : s.mon.s4wait = true) : Completes .s4StandstillTimeout s (fun t =>
    t.mon.stopped = true ∧ t.mon.s4wait = false ∧ (∀ x ∈ t.safe.arms, Stopped x) ∧ t.objs = s.objs ∧ Changes [.mon, .safe, .cnts] s t) := by
  have hwork := ((((changes_clocksStop s fun e => e != 64).mono (by decide)).trans ((changes_onArms _ fun _ x => x.stoBoth).mono (by decide))).trans
    ((changes_onMon _ fun m => { m with s4wait := false, stopped := true }).mono (by decide))).trans
    ((changes_drive _).mono (by decide : _ ⊆ [Part.mon, .safe, .cnts]))
  refine ⟨_, congrArg Host.Outcome.next (if_pos h : s4StandstillTimeout s = s.s4Stop), rfl, rfl, fun x hx => ?_, rfl, hwork⟩
  obtain ⟨p, -, rfl⟩ := List.mem_map.mp hx
  exact stopped_stoBoth p.1

/-! ### Calibrations (R476 to R478) -/

theorem calSlice_calib (s : State) (c : Nat) : ∃ b, (s.calSlice c).mon.calib = some (c, b) := by
  have hmon : (s.calSlice c).mon = ({ s.mon with calib := some (c, false) } : StMon).calibrate := rfl
  rw [hmon]
  unfold StMon.calibrate
  dsimp only
  split
  · exact ⟨false, rfl⟩
  · exact ⟨true, rfl⟩

theorem monCalCmd_begins {rq : Requester} (h : InService rq 0x8820 0x02 [1] s) (hfree : s.mon.calib = none) :
    Completes (.monCalCmd rq 1) s (fun t => (t.rq rq).result = 0 ∧ ∃ b, t.mon.calib = some (0, b)) := by
  have hown : monCalOwn [1] s = 0 := by simp [monCalOwn, leVal, hfree]
  obtain ⟨g, hexec⟩ := submitWrite_service h hown monCalEff
  have hmon : (s.accepted rq 0x8820 0x02).mon = s.mon := (s.accepted_frame rq 0x8820 0x02).2 .mon (by decide)
  have hresult := result_accepted s rq 0x8820 0x02
  generalize s.accepted rq 0x8820 0x02 = a at *
  have heff : monCalEff a = a.calSlice 0 := if_neg (by simp [hmon, hfree])
  rw [heff] at hexec
  exact ⟨_, congrArg Host.Outcome.next hexec, hresult, calSlice_calib a 0⟩

theorem monCalPeriodExpiry_begins (hup : s.dev.phase ≠ .reset) (hperiod : s.n kMonCalPeriod ≠ 0) (hfree : s.mon.calib = none) :
    Completes .monCalPeriodExpiry s (fun t => (∃ b, t.mon.calib = some (0, b)) ∧ t.objs = s.objs ∧ Changes [.mon] s t) := by
  have hexec : monCalPeriodExpiry s = s.calSlice 0 := if_neg (by simp [hup, hperiod, hfree])
  exact ⟨_, congrArg Host.Outcome.next hexec, calSlice_calib s 0, rfl, changes_onMon s _⟩

theorem monCalPeriodExpiry_idle (h : s.n kMonCalPeriod = 0 ∨ s.mon.calib.isSome = true) :
    Completes .monCalPeriodExpiry s (fun t => t = s) :=
  ⟨_, congrArg Host.Outcome.next (if_pos (.inr h) : monCalPeriodExpiry s = s), rfl⟩

/-- The factors of a slice, and the next slice or the end (R476). -/
theorem sliceCalibrationDone_stores {c : Nat} {o g : W16} {k : Byte} (hcal : s.mon.calib = some (c, true)) (hc : c ≤ 3) :
    Completes (.sliceCalibrationDone o g k) s (fun t =>
      t.obj kMonSliceFact = patch (s.obj kMonSliceFact) (8 * c) (le 2 o.toNat ++ le 2 g.toNat ++ [k, 0, 0, 0]) ∧
      (c < 3 → ∃ b, t.mon.calib = some (c + 1, b)) ∧ (c = 3 → t.mon.calib = none ∧ t.bit kMonStatus 0 = true) ∧
      ChangesObjs [kMonSliceFact, kMonStatus] s t ∧ Changes [.mon, .objs] s t) := by
  have hexec : sliceCalibrationDone o g k s =
      if c < 3 then (s.patchObj kMonSliceFact (8 * c) (le 2 o.toNat ++ le 2 g.toNat ++ [k, 0, 0, 0])).calSlice (c + 1)
      else ((s.patchObj kMonSliceFact (8 * c) (le 2 o.toNat ++ le 2 g.toNat ++ [k, 0, 0, 0])).onMon
        (fun m => { m with calib := none })).setBit kMonStatus 0 true := by rw [sliceCalibrationDone, hcal]
  generalize le 2 o.toNat ++ le 2 g.toNat ++ [k, 0, 0, 0] = fact at *
  generalize hu : s.patchObj kMonSliceFact (8 * c) fact = u at *
  have hstored : u.obj kMonSliceFact = patch (s.obj kMonSliceFact) (8 * c) fact := hu ▸ State.obj_setObj_same ..
  have hparts : Changes [.mon, .objs] s u := hu ▸ (changes_setObj s _ _).mono (by decide)
  have hobjs : ChangesObjs [kMonSliceFact, kMonStatus] s u := hu ▸ (changesObjs_setObj s _ _).mono (by decide)
  by_cases hlast : c < 3
  · rw [if_pos hlast] at hexec
    exact ⟨_, congrArg Host.Outcome.next hexec, hstored, fun _ => calSlice_calib u _, fun h => by omega,
      hobjs, hparts.trans ((changes_onMon u _).mono (by decide))⟩
  · rw [if_neg hlast] at hexec
    refine ⟨_, congrArg Host.Outcome.next hexec, ?_, fun h => absurd h hlast, fun _ => ⟨rfl, ?_⟩, ?_, ?_⟩
    · exact (State.obj_setObj_other _ _ (by decide)).trans hstored
    · exact State.bit_setBit_same _ _ _ _ (by decide)
    · exact hobjs.trans ((changesObjs_setBit (u.onMon _) kMonStatus 0 true).mono (by decide))
    · exact (hparts.trans ((changes_onMon u _).mono (by decide))).trans ((changes_setBit _ _ _ _).mono (by decide))

/-- The fields of MON_SYSCAL_CMD. -/
theorem syscal_fields (g step : Byte) (uv : W32) : num ([g, step, 0, 0] ++ le 4 uv.toNat) 0 1 = g.toNat ∧
    num ([g, step, 0, 0] ++ le 4 uv.toNat) 1 1 = step.toNat ∧ num ([g, step, 0, 0] ++ le 4 uv.toNat) 4 4 = uv.toNat := by
  refine ⟨?_, ?_, ?_⟩
  · rw [num_append_left _ _ (by simp)]
    simp [num, leVal]
  · rw [num_append_left _ _ (by simp)]
    simp [num, leVal]
  · rw [num_append_right _ _ (by simp)]
    exact (num_le 4 uv.toNat).trans (Nat.mod_eq_of_lt uv.isLt)

/-- A step of the system calibration whose checks pass begins its average. -/
theorem syscalWrite_begins {rq : Requester} {g step : Byte} {uv : W32} (h : InService rq 0x8820 0x08 ([g, step, 0, 0] ++ le 4 uv.toNat) s)
    (hown : syscalOwn ([g, step, 0, 0] ++ le 4 uv.toNat) s = resPending) :
    (syscalWrite rq ([g, step, 0, 0] ++ le 4 uv.toNat) s).mon.avg.map AvgSt.group = some g.toNat ∧
    (syscalWrite rq ([g, step, 0, 0] ++ le 4 uv.toNat) s).mon.avg.map AvgSt.second = some (step.toNat == 2) ∧
    (syscalWrite rq ([g, step, 0, 0] ++ le 4 uv.toNat) s).mon.avg.map AvgSt.uv = some uv.toNat ∧
    (syscalWrite rq ([g, step, 0, 0] ++ le 4 uv.toNat) s).objs = s.objs := by
  obtain ⟨hgroup, hstep, huv⟩ := syscal_fields g step uv
  obtain ⟨x, f, hexec⟩ := submitWrite_service_pending h hown (syscalEff rq ([g, step, 0, 0] ++ le 4 uv.toNat))
  rw [syscalWrite, hexec]
  exact ⟨congrArg some hgroup, congrArg (fun n : Nat => some (n == 2)) hstep, congrArg some huv, rfl⟩

/-- The check of the second step against the first (R478). -/
def State.secondOwn (s : State) (g level : Nat) : Nat :=
  match s.mon.steps.getD g none with
  | none => abRange
  | some (v1, _, _) => if levelsApart g v1 level then resPending else abRange

/-- The check of a step's level and group. -/
theorem syscalOwn_step {g step : Byte} {uv : W32} (hstate : s.dev.state = .service) (hg : g.toNat ≤ 6) (hfree : s.mon.avg = none)
    (hstep : step.toNat = 1 ∨ step.toNat = 2) : syscalOwn ([g, step, 0, 0] ++ le 4 uv.toNat) s =
      if step.toNat = 1 then resPending else s.secondOwn g.toNat uv.toNat := by
  obtain ⟨hgroup, hno, huv⟩ := syscal_fields g step uv
  unfold syscalOwn
  rw [hgroup, hno, huv]
  dsimp only
  rw [if_neg (by simp [hstate]), if_neg (by omega), if_neg (by simp [hfree])]
  rfl

section
variable {rq : Requester} {g : Byte} {uv : W32}

theorem syscalStep1_begins (h : InService rq 0x8820 0x08 ([g, 1, 0, 0] ++ le 4 uv.toNat) s) (hg : g.toNat ≤ 6) (hfree : s.mon.avg = none) :
    Completes (.syscalStep1 rq g uv) s (fun t => t.mon.avg.map AvgSt.group = some g.toNat ∧ t.mon.avg.map AvgSt.second = some false ∧
      t.mon.avg.map AvgSt.uv = some uv.toNat ∧ t.objs = s.objs) :=
  ⟨_, rfl, syscalWrite_begins h (syscalOwn_step h.2.2.2 hg hfree (.inl rfl))⟩

theorem syscalStep2_begins {v1 s1 n1 : Nat} (h : InService rq 0x8820 0x08 ([g, 2, 0, 0] ++ le 4 uv.toNat) s) (hg : g.toNat ≤ 6)
    (hfree : s.mon.avg = none) (hfirst : s.mon.steps.getD g.toNat none = some (v1, s1, n1)) (hapart : levelsApart g.toNat v1 uv.toNat = true) :
    Completes (.syscalStep2 rq g uv) s (fun t => t.mon.avg.map AvgSt.group = some g.toNat ∧ t.mon.avg.map AvgSt.second = some true ∧
      t.objs = s.objs) := by
  have hown : syscalOwn ([g, 2, 0, 0] ++ le 4 uv.toNat) s = resPending := by
    rw [syscalOwn_step h.2.2.2 hg hfree (.inr rfl), if_neg (by decide), State.secondOwn, hfirst]
    exact if_pos hapart
  obtain ⟨hgroup, hsecond, -, hobjs⟩ := syscalWrite_begins h hown
  exact ⟨_, rfl, hgroup, hsecond, hobjs⟩

/-- The second step without the first is refused (R478). -/
theorem syscalStep2_refused (h : InService rq 0x8820 0x08 ([g, 2, 0, 0] ++ le 4 uv.toNat) s) (hg : g.toNat ≤ 6) (hfree : s.mon.avg = none)
    (hnone : s.mon.steps.getD g.toNat none = none) :
    Completes (.syscalStep2 rq g uv) s (fun t => (t.rq rq).result = 0x00000302 ∧ t.mon = s.mon) := by
  have hown : syscalOwn ([g, 2, 0, 0] ++ le 4 uv.toNat) s = abRange := by
    rw [syscalOwn_step h.2.2.2 hg hfree (.inr rfl), if_neg (by decide), State.secondOwn, hnone]
  have hexec := submitWrite_service_refused h hown (by decide) (by decide) (by decide) (by decide)
    (syscalEff rq ([g, 2, 0, 0] ++ le 4 uv.toNat))
  exact ⟨_, congrArg Host.Outcome.next hexec, by rw [State.rq_answer]; rfl, rfl⟩

end

/-- The end of the first step's average keeps its mean (R478). -/
theorem syscalAverageDone_first {a : AvgSt} (havg : s.mon.avg = some a) (hcount : 65536 ≤ a.counts.sum) (hfirst : a.second = false)
    (hgroup : a.group < s.mon.steps.length) : Completes .syscalAverageDone s (fun t => t.mon.avg = none ∧
      t.mon.steps.getD a.group none = some (a.uv, a.sum, 65536) ∧ (t.rq a.rq).result = 0 ∧ t.objs = s.objs) := by
  generalize hu : s.onMon (fun m => { m with avg := none, steps := modAt m.steps a.group (fun _ => some (a.uv, a.sum, 65536)) }) = u
  have hexec : syscalAverageDone s = u.finish a.rq 0 := by
    rw [syscalAverageDone, havg]
    dsimp only
    rw [if_neg (by omega), hfirst, ← hu]
    rfl
  obtain ⟨hparts, -⟩ := answerOnly_finish u a.rq 0
  have hmon : (u.finish a.rq 0).mon = u.mon := hparts.2 .mon (by decide)
  refine ⟨_, congrArg Host.Outcome.next hexec, ?_, ?_, State.result_finish .., (hparts.2 .objs (by decide)).trans (hu ▸ rfl)⟩
  · rw [hmon, ← hu]
    rfl
  · rw [hmon, ← hu]
    exact getD_modAt_same hgroup _ _

/-! ### Windows, burst domains and hardware faults (R25, R469, R470, R479) -/

theorem monWindowEnd_copies {c : Fin 32} (hchans : s.mon.chans.length = 32) (hup : s.dev.phase ≠ .reset)
    (hdue : s.cycle % s.sub kMonWin (4 * c.val) 4 = 0) : Completes (.monWindowEnd c) s (fun t =>
      let x := s.mon.chans.getD c.val .reset
      t.obj (kMonResult c) = le 8 x.sum ++ le 4 x.count ++ le 2 x.min ++ le 2 x.max ++ le 8 s.cycle ++ le 1 (b01 x.sat) ++ zeros 7 ∧
      t.mon.chans.getD c.val .reset = { x with sum := 0, count := 0, min := 0xFFFF, max := 0, sat := false } ∧
      ChangesObjs [kMonResult c] s t ∧ Changes [.mon, .objs] s t) := by
  have hguard : ¬(s.dev.phase = .reset ∨ s.cycle % s.sub kMonWin (4 * c.val) 4 ≠ 0) := by simp [hup, hdue]
  have hchan : c.val < s.mon.chans.length := by omega
  refine ⟨_, congrArg Host.Outcome.next (if_neg hguard : monWindowEnd c s = _), State.obj_setObj_same .., getD_modAt_same hchan _ _,
    changesObjs_setObj s _ _, ?_⟩
  exact ((changes_setObj s _ _).mono (by decide)).trans ((changes_onMon _ _).mono (by decide))

/-- Whether a burst domain runs. -/
def StMon.domain (m : StMon) (d : Burst) : Bool := if d = .m800 then m.on800 else m.on1000

theorem domain_burst (d : Burst) (on : Bool) : (s.burst d on).mon.domain d = on := by cases d <;> rfl

theorem changes_burst (s : State) (d : Burst) (on : Bool) : Changes [.mon] s (s.burst d on) := changes_onMon s _

theorem changes_clocksStart (s old : State) : Changes [.cnts, .objs] s (s.clocksStart old) := by
  rw [s.clocksStart_frame old]
  exact ⟨rfl, fun p hp => by cases p <;> simp [Part.same] at hp ⊢⟩

/-- A clock that stops leaves the counters. -/
theorem pmc_clocksStop (s : State) (p : Nat → Bool) : (s.clocksStop p).cnts.map CntSt.pmc = s.cnts.map CntSt.pmc := by
  have hpmc (x : CntSt × Nat) : CntSt.pmc (if p x.2 && s.clockOn x.2 then { x.1 with ran := true } else x.1) = x.1.pmc := by split <;> rfl
  calc (s.clocksStop p).cnts.map CntSt.pmc = s.cnts.zipIdx.map (fun x => x.1.pmc) := by
        rw [State.clocksStop, List.map_map]
        exact List.map_congr_left fun x _ => hpmc x
    _ = (s.cnts.zipIdx.map Prod.fst).map CntSt.pmc := (List.map_map ..).symm
    _ = s.cnts.map CntSt.pmc := by rw [List.zipIdx_map_fst]

theorem clockOn_congr {s t : State} (h : t.mon = s.mon) (e : Nat) : t.clockOn e = s.clockOn e := by simp only [State.clockOn, h]

/-- A domain wakes; engines whose clock does not start count nothing (R469). -/
theorem domainWake_starts (d : Burst) (hup : s.dev.phase ≠ .reset) : Completes (.domainWake d) s (fun t => t.mon.domain d = true ∧
    ((∀ e, e < 82 → s.clockOn e = t.clockOn e) → t.objs = s.objs ∧ t.cnts = s.cnts) ∧ Changes [.mon, .cnts, .objs] s t) := by
  have hexec : domainWake d s = (s.burst d true).clocksStart s := if_neg hup
  have hframe := (s.burst d true).clocksStart_frame s
  have hmon : ((s.burst d true).clocksStart s).mon = (s.burst d true).mon := by rw [hframe]
  refine ⟨_, congrArg Host.Outcome.next hexec, (congrArg (fun m : StMon => m.domain d) hmon).trans (domain_burst d true), fun hsame => ?_, ?_⟩
  · have hnone : (List.range 82).filter (fun e => (s.burst d true).clockOn e && !s.clockOn e) = [] := by
      rw [List.filter_eq_nil_iff]
      intro e he
      rw [hsame e (List.mem_range.mp he), clockOn_congr hmon]
      simp
    have hidle : (s.burst d true).clocksStart s = s.burst d true := by rw [State.clocksStart, hnone]; rfl
    rw [hidle]
    exact ⟨rfl, rfl⟩
  · exact ((changes_burst s d true).mono (by decide)).trans ((changes_clocksStart (s.burst d true) s).mono (by decide))

theorem domainGateOff_stops (d : Burst) (hen : s.n kLlGateEn ≠ 0) (hidle : s.burstBusy d = false) :
    Completes (.domainGateOff d) s (fun t => t.mon.domain d = false ∧ t.cnts.map CntSt.pmc = s.cnts.map CntSt.pmc ∧ t.objs = s.objs ∧
      Changes [.mon, .cnts] s t) := by
  have hexec : domainGateOff d s = (s.clocksStop (engineIn d)).burst d false := if_neg (by simp [hen, hidle])
  refine ⟨_, congrArg Host.Outcome.next hexec, domain_burst d false, ?_, rfl, ?_⟩
  · exact pmc_clocksStop s _
  · exact ((changes_clocksStop s _).mono (by decide)).trans ((changes_burst _ d false).mono (by decide))

theorem domainGateOff_idle (d : Burst) (h : s.n kLlGateEn = 0 ∨ s.burstBusy d = true) : Completes (.domainGateOff d) s (fun t => t = s) :=
  ⟨_, congrArg Host.Outcome.next (if_pos h : domainGateOff d s = s), rfl⟩

/-- The unit of a hardware fault's record, and its type (R25, R26). -/
theorem deviceFaultDetected_waits (k : HwFault) (u : Byte) (d : W32) (hup : s.dev.phase ≠ .reset) :
    Completes (.deviceFaultDetected k u d) s (fun t => t.dev = { s.dev with deviceFaults := s.dev.deviceFaults ++
        [⟨match k with | .boulevard => 0x0201 | .sramParity => 0x0202 | .lockstep => 0x0206,
          match k with | .boulevard => 46 | .sramParity => u.toNat | .lockstep => 38, s.cycle, d.toNat⟩] } ∧
      t.objs = s.objs ∧ Changes [.dev] s t) := by
  refine ⟨_, congrArg Host.Outcome.next (if_neg hup : deviceFaultDetected k u d s = _), ?_⟩
  cases k
  case boulevard => exact ⟨rfl, rfl, changes_devFault ..⟩
  case sramParity => exact ⟨rfl, rfl, changes_devFault ..⟩
  case lockstep => exact ⟨rfl, rfl, changes_devFault ..⟩

end

end Sys2Proof.Machine

namespace Sys2Proof
open Machine

/-- Settles O58: every result goes through `monResult_spec`, and every entry to a stage through `enterStage_spec`; the other clauses are
each an equation of one command. -/
theorem monitorAndShedding : Obligations.MonitorAndShedding := by
  intro s hchans
  refine ⟨fun slot v q c hup hcal hinj hseq hc => adcConversion_stores hchans hup hcal hinj hseq hc,
    fun slot v i hup hinj hi => injectedConversion_stores hchans hup hinj hi,
    fun slot v h => ⟨_, congrArg Host.Outcome.next (injectedConversion_none h), rfl⟩,
    fun rq => shedReenable_reenables, fun rq => shedReenable_busy, s4StandstillTimeout_stops, fun h => ?_,
    fun rq => monCalCmd_begins, monCalPeriodExpiry_begins, monCalPeriodExpiry_idle, fun c o g k => sliceCalibrationDone_stores,
    fun rq g uv hg hfree => ⟨fun h => ?_, fun hnone h => ?_, fun v1 s1 n1 hfirst hapart h => ?_⟩, fun a => syscalAverageDone_first,
    fun c => monWindowEnd_copies hchans, domainWake_starts, fun d => ⟨domainGateOff_stops d, domainGateOff_idle d⟩, deviceFaultDetected_waits⟩
  · exact ⟨_, congrArg Host.Outcome.next (if_neg (by simp [h]) : s4StandstillTimeout s = s), rfl⟩
  · exact syscalStep1_begins h hg hfree
  · exact syscalStep2_refused h hg hfree hnone
  · exact syscalStep2_begins h hg hfree hfirst hapart

end Sys2Proof
end

section
/-! SUPPORT. The test access port (R507 to R511). -/

namespace Sys2Proof.Machine

variable {s : State} {i : TapInstr}

theorem tstStatus_bits {b : Nat} (hb : b < 16) : b < 8 * (objDefault kTstStatus).length := hb

theorem changes_onTap (s : State) (f : StTap → StTap) : Changes [.tap] s (s.onTap f) :=
  ⟨rfl, fun p hp => by cases p <;> simp [Part.same] at hp ⊢⟩

/-- What an instruction may change: the port and TST_STATUS. -/
def TapOnly (s t : State) : Prop := ChangesObjs [kTstStatus] s t ∧ Changes [.tap, .objs] s t

theorem tapOnly_onTap (s : State) (f : StTap → StTap) : TapOnly s (s.onTap f) := ⟨.of_objs rfl _, (changes_onTap s f).mono (by decide)⟩

theorem tapOnly_setBit (s : State) (b : Nat) (v : Bool) : TapOnly s (s.setBit kTstStatus b v) :=
  ⟨changesObjs_setBit s _ b v, (changes_setBit s _ b v).mono (by decide)⟩

theorem TapOnly.trans {s t u : State} (hst : TapOnly s t) (htu : TapOnly t u) : TapOnly s u :=
  ⟨hst.1.trans htu.1, hst.2.trans htu.2⟩

theorem tapOnly_quiet (s : State) (i : TapInstr) : TapOnly s (s.tapQuiet i) :=
  ((tapOnly_onTap s _).trans (tapOnly_setBit _ 0 false)).trans (tapOnly_onTap _ _)

/-- An instruction that drives no ball: the balls are released, and the block of driving stays recorded. -/
theorem tapQuiet_spec (s : State) (i : TapInstr) : (s.tapQuiet i).tap.ir = i ∧ (s.tapQuiet i).tap.driving = false ∧
    (s.tapQuiet i).bit kTstStatus 0 = false ∧ (s.tapQuiet i).bit kTstStatus 1 = s.bit kTstStatus 1 := by
  refine ⟨rfl, rfl, State.bit_setBit_same _ _ 0 false (tstStatus_bits (by decide)), ?_⟩
  exact State.bit_setBit_beside (s.onTap _) _ false (tstStatus_bits (by decide)) (by decide)

theorem tapDrive_allowed (h : s.tapAllowed = true) (i other : TapInstr) (pulses : Nat) :
    (s.tapDrive i other pulses).tap = { s.tap with ir := i, driving := true, pulses := s.tap.pulses + pulses } ∧
    (s.tapDrive i other pulses).bit kTstStatus 0 = true ∧ TapOnly s (s.tapDrive i other pulses) := by
  rw [State.tapDrive, if_pos h]
  exact ⟨rfl, State.bit_setBit_same _ _ 0 true (tstStatus_bits (by decide)), (tapOnly_onTap s _).trans (tapOnly_setBit _ 0 true)⟩

theorem tapDrive_blocked (h : s.tapAllowed = false) (i other : TapInstr) (pulses : Nat) :
    (s.tapDrive i other pulses).tap = { s.tap with ir := other, driving := false } ∧
    (s.tapDrive i other pulses).bit kTstStatus 1 = true ∧ (s.tapDrive i other pulses).bit kTstStatus 0 = false ∧
    TapOnly s (s.tapDrive i other pulses) := by
  obtain ⟨-, -, hreleased, -⟩ := tapQuiet_spec s other
  rw [State.tapDrive, if_neg (by simp [h])]
  refine ⟨rfl, State.bit_setBit_same _ _ 1 true (tstStatus_bits (by decide)), ?_, (tapOnly_quiet s other).trans (tapOnly_setBit _ 1 true)⟩
  exact (State.bit_setBit_beside _ _ true (tstStatus_bits (by decide)) (by decide)).trans hreleased

/-- What a driving instruction gives, allowed or blocked (R509). -/
def Drives (s : State) (t : State) (i other : TapInstr) (pulses : Nat) : Prop :=
  (s.tapAllowed = true → t.tap.ir = i ∧ t.tap.driving = true ∧ t.bit kTstStatus 0 = true ∧
    t.tap.pulses = s.tap.pulses + pulses ∧ ChangesObjs [kTstStatus] s t ∧ Changes [.tap, .objs] s t) ∧
  (s.tapAllowed = false → t.tap.ir = other ∧ t.tap.driving = false ∧ t.bit kTstStatus 1 = true ∧ t.bit kTstStatus 0 = false ∧
    t.tap.pulses = s.tap.pulses ∧ ChangesObjs [kTstStatus] s t ∧ Changes [.tap, .objs] s t)

theorem drives_tapDrive (s : State) (i other : TapInstr) (pulses : Nat) : Drives s (s.tapDrive i other pulses) i other pulses := by
  refine ⟨fun h => ?_, fun h => ?_⟩
  · obtain ⟨htap, hbit, honly⟩ := tapDrive_allowed h i other pulses
    simp only [htap, hbit]
    exact ⟨trivial, trivial, trivial, trivial, honly⟩
  · obtain ⟨htap, hblocked, hreleased, honly⟩ := tapDrive_blocked h i other pulses
    simp only [htap, hblocked, hreleased]
    exact ⟨trivial, trivial, trivial, trivial, trivial, honly⟩

/-- The load of the boundary register before it changes nothing of what a driving instruction gives. -/
theorem drives_load (s : State) (l : List Bool) (i other : TapInstr) (pulses : Nat) :
    Drives s ((s.tapLoad l).tapDrive i other pulses) i other pulses := by
  have hload := tapOnly_onTap s (fun t => { t with boundary := fitCells l })
  obtain ⟨hdrives, hblocked⟩ := drives_tapDrive (s.tapLoad l) i other pulses
  refine ⟨fun h => ?_, fun h => ?_⟩
  · obtain ⟨hir, hdriving, hbit, hpulses, hobjs, hparts⟩ := hdrives h
    exact ⟨hir, hdriving, hbit, hpulses, hload.trans ⟨hobjs, hparts⟩⟩
  · obtain ⟨hir, hdriving, hbit, hreleased, hpulses, hobjs, hparts⟩ := hblocked h
    exact ⟨hir, hdriving, hbit, hreleased, hpulses, hload.trans ⟨hobjs, hparts⟩⟩

theorem Drives.completes {c : Instr} {t : State} {other : TapInstr} {pulses : Nat} (hexec : exec c s = .next t)
    (h : Drives s t i other pulses) :
    (s.tapAllowed = true → Completes c s (fun t => t.tap.ir = i ∧ t.tap.driving = true ∧ t.bit kTstStatus 0 = true ∧
      t.tap.pulses = s.tap.pulses + pulses ∧ ChangesObjs [kTstStatus] s t ∧ Changes [.tap, .objs] s t)) ∧
    (s.tapAllowed = false → Completes c s (fun t => t.tap.ir = other ∧ t.tap.driving = false ∧ t.bit kTstStatus 1 = true ∧
      t.bit kTstStatus 0 = false ∧ t.tap.pulses = s.tap.pulses ∧ ChangesObjs [kTstStatus] s t ∧ Changes [.tap, .objs] s t)) :=
  ⟨fun ha => ⟨t, hexec, h.1 ha⟩, fun hb => ⟨t, hexec, h.2 hb⟩⟩

theorem completes_quiet {c : Instr} (hexec : exec c s = .next (s.tapQuiet i)) : Completes c s (fun t => t.tap.ir = i ∧
    t.tap.driving = false ∧ t.bit kTstStatus 0 = false ∧ t.bit kTstStatus 1 = s.bit kTstStatus 1 ∧ ChangesObjs [kTstStatus] s t ∧
    Changes [.tap, .objs] s t) := by
  obtain ⟨hir, hdriving, hreleased, hkept⟩ := tapQuiet_spec s i
  exact ⟨_, hexec, hir, hdriving, hreleased, hkept, tapOnly_quiet s i⟩

theorem fitCells_full {l : List Bool} (h : l.length = 1302) : fitCells l = l := List.take_left' h

theorem boundary_tapDrive (s : State) (i other : TapInstr) (pulses : Nat) :
    (s.tapDrive i other pulses).tap.boundary = s.tap.boundary := by
  unfold State.tapDrive
  split <;> rfl

theorem boundary_tapLoad {l : List Bool} (h : l.length = 1302) (s : State) : (s.tapLoad l).tap.boundary = l := by
  rw [State.tapLoad, fitCells_full h]
  rfl

theorem extest_loads {l : List Bool} (h : l.length = 1302) : Completes (.extest l) s (fun t => t.tap.boundary = l) :=
  ⟨_, rfl, (boundary_tapDrive _ _ _ _).trans (boundary_tapLoad h s)⟩

theorem samplePreload_loads {l : List Bool} (h : l.length = 1302) : Completes (.samplePreload l) s (fun t => t.tap.boundary = l) :=
  ⟨_, rfl, boundary_tapLoad h _⟩

/-! ### SEAL_READ (R510) -/

theorem sealRead_spec (s : State) : (sealRead s).tap.ir = .sealRead ∧ (sealRead s).tap.driving = false ∧
    (sealRead s).bit kTstStatus 0 = false ∧ (sealRead s).bit kTstStatus 1 = s.bit kTstStatus 1 ∧
    (sealRead s).bit kTstStatus 2 = true ∧ TapOnly s (sealRead s) := by
  obtain ⟨-, -, hreleased, hkept⟩ := tapQuiet_spec s .sealRead
  refine ⟨rfl, rfl, ?_, ?_, State.bit_setBit_same _ _ 2 true (tstStatus_bits (by decide)),
    ((tapOnly_quiet s _).trans (tapOnly_onTap _ _)).trans (tapOnly_setBit _ 2 true)⟩
  · exact (State.bit_setBit_beside _ _ true (tstStatus_bits (by decide)) (by decide)).trans hreleased
  · exact (State.bit_setBit_beside _ _ true (tstStatus_bits (by decide)) (by decide)).trans hkept

theorem sealCapture_both (h : s.tap.ir = .sealRead) (a b : W32) : Completes (.sealCapture (some a) (some b)) s (fun t =>
    t.tap.sealReg = a.toNat + b.toNat * 2 ^ 32 + 3 * 2 ^ 64 ∧ t.n kTstSeal = a.toNat + b.toNat * 2 ^ 32 ∧
    ChangesObjs [kTstSeal] s t ∧ Changes [.tap, .objs] s t) := by
  obtain ⟨f, hf, hexec⟩ : ∃ f : StTap → StTap, (f s.tap).sealReg = a.toNat + b.toNat * 2 ^ 32 + b01 true * 2 ^ 64 + b01 true * 2 ^ 65 ∧
      sealCapture (some a) (some b) s = (s.onTap f).setN kTstSeal (a.toNat + b.toNat * 2 ^ 32) :=
    ⟨_, rfl, if_neg (by simp [h])⟩
  have hlow : a.toNat + b.toNat * 2 ^ 32 < 256 ^ 8 := by
    have ha := a.isLt
    have hb := b.isLt
    omega
  refine ⟨_, congrArg Host.Outcome.next hexec, ?_, ?_, (changesObjs_setN (s.onTap _) kTstSeal _), ?_⟩
  · refine hf.trans ?_
    rw [show b01 true = 1 from rfl]
    omega
  · exact (State.n_setN_same _ _ _).trans (Nat.mod_eq_of_lt hlow)
  · exact ((changes_onTap s _).mono (by decide)).trans ((changes_setN _ _ _).mono (by decide))

/-- Without a new scan the kept ones stay. -/
theorem sealCapture_none (h : s.tap.ir = .sealRead) : Completes (.sealCapture none none) s (fun t =>
    t.tap.scanA = s.tap.scanA ∧ t.tap.scanB = s.tap.scanB ∧ t.tap.ir = .sealRead) := by
  obtain ⟨f, low, hkept, hir, hexec⟩ : ∃ (f : StTap → StTap) (low : Nat),
      ((f s.tap).scanA = s.tap.scanA ∧ (f s.tap).scanB = s.tap.scanB) ∧ (f s.tap).ir = s.tap.ir ∧
      sealCapture none none s = (s.onTap f).setN kTstSeal low :=
    ⟨_, _, ⟨rfl, rfl⟩, rfl, if_neg (by simp [h])⟩
  obtain ⟨hscanA, hscanB⟩ := hkept
  exact ⟨_, congrArg Host.Outcome.next hexec, hscanA, hscanB, hir.trans h⟩

theorem sealCapture_elsewhere (h : s.tap.ir ≠ .sealRead) (a b : Option W32) : Completes (.sealCapture a b) s (fun t => t = s) :=
  ⟨_, congrArg Host.Outcome.next (if_pos h), rfl⟩

/-! ### TST_BSCAN_EN (R509) -/

/-- A write of TST_BSCAN_EN in SERVICE has its effect where its requester has its outcome. -/
theorem tstBscanEn_service {rq : Requester} {v : Byte} (h : InService rq 0x9800 0x01 [v] s) :
    ∃ g, tstBscanEn rq v s = (bscanEff [v] (s.accepted rq 0x9800 0x01)).onPair g :=
  submitWrite_service h rfl _

theorem bscanEff_zero (s : State) : bscanEff [0] s = (s.setObj kTstBscanEn [0]).tapRelease := by
  simp [bscanEff, leVal]

theorem bscanEff_one (s : State) : bscanEff [1] s = s.setObj kTstBscanEn [1] := by
  simp [bscanEff, leVal]

theorem n_setObj_bscanEn (s : State) (v : Bytes) : (s.setObj kTstBscanEn v).n kTstBscanEn = leVal v := by
  rw [State.n, State.obj_setObj_same]

theorem tstBscanEn_release {rq : Requester} (h : InService rq 0x9800 0x01 [0] s) : Completes (.tstBscanEn rq 0) s (fun t =>
    t.n kTstBscanEn = 0 ∧ t.tap.driving = false ∧ t.bit kTstStatus 0 = false ∧ t.tap.ir = s.tap.ir ∧ (t.rq rq).result = 0) := by
  obtain ⟨g, hg⟩ := tstBscanEn_service h
  have htap : (s.accepted rq 0x9800 0x01).tap = s.tap := (s.accepted_frame rq 0x9800 0x01).2 .tap (by decide)
  have hir : ((s.accepted rq 0x9800 0x01).setObj kTstBscanEn [0]).tapRelease.tap.ir = s.tap.ir :=
    Eq.trans (b := (s.accepted rq 0x9800 0x01).tap.ir) rfl (congrArg StTap.ir htap)
  have hvalue : ((s.accepted rq 0x9800 0x01).setObj kTstBscanEn [0]).tapRelease.n kTstBscanEn = 0 := by
    rw [State.tapRelease, State.n_setBit_other _ 0 false (by decide)]
    exact n_setObj_bscanEn (s.accepted rq 0x9800 0x01) [0]
  rw [bscanEff_zero] at hg
  exact ⟨_, congrArg Host.Outcome.next hg, hvalue, rfl, State.bit_setBit_same _ _ 0 false (tstStatus_bits (by decide)), hir,
    result_accepted s rq 0x9800 0x01⟩

theorem tstBscanEn_enable {rq : Requester} (h : InService rq 0x9800 0x01 [1] s) : Completes (.tstBscanEn rq 1) s (fun t =>
    t.n kTstBscanEn = 1 ∧ t.tap = s.tap ∧ (t.rq rq).result = 0) := by
  obtain ⟨g, hg⟩ := tstBscanEn_service h
  rw [bscanEff_one] at hg
  exact ⟨_, congrArg Host.Outcome.next hg, n_setObj_bscanEn (s.accepted rq 0x9800 0x01) [1],
    (s.accepted_frame rq 0x9800 0x01).2 .tap (by decide), result_accepted s rq 0x9800 0x01⟩

end Sys2Proof.Machine

namespace Sys2Proof
open Machine

/-- Settles O59: an instruction drives the balls or is quiet, each with one frame; the captures and TST_BSCAN_EN are written out. -/
theorem testPort : Obligations.TestPort := by
  intro s l
  have hquiet := fun i => tapQuiet_spec s i
  obtain ⟨hir, hdriving, hreleased, hkept, hbusy, honly⟩ := sealRead_spec s
  refine ⟨(drives_load s l _ _ _).completes rfl, (drives_load s l _ _ _).completes rfl, (drives_load s l _ _ _).completes rfl,
    (drives_tapDrive s _ _ _).completes rfl, (drives_tapDrive s _ _ _).completes rfl, completes_quiet rfl, completes_quiet rfl, completes_quiet rfl, ?_,
    ⟨_, rfl, hir, hdriving, hreleased, hkept, honly⟩, ?_, ⟨_, rfl, rfl, rfl, hbusy⟩, fun a b h => sealCapture_both h a b, sealCapture_none,
    fun h a b => sealCapture_elsewhere h a b,
    fun rq h => tstBscanEn_release h, fun rq h => tstBscanEn_enable h⟩
  · obtain ⟨hsir, hsdriving, hsreleased, hskept⟩ := hquiet .sample
    exact ⟨_, rfl, hsir, hsdriving, hsreleased, hskept, (tapOnly_quiet s .sample).trans (tapOnly_onTap _ _)⟩
  · exact fun hlength => ⟨extest_loads hlength, samplePreload_loads hlength⟩

end Sys2Proof
end
